-- ==== Sys2Proof/Word.lean ====
section
/-! DEFINITION. The word types of the P9: what the manual treats as bits (R6). -/

namespace Sys2Proof

/-- A byte. -/
abbrev Byte := BitVec 8

/-- A 32-bit register word (R9: every register is 32 bits wide). -/
abbrev Word := BitVec 32

/-- A 64-bit word: instruction words, g registers, the data bits of a coded word (R139, R252). -/
abbrev DWord := BitVec 64

end Sys2Proof
end

