-- ==== Sys2Proof/Types.lean ====
section
/-! DEFINITION. The types of the commands' operands: who sends, which unit is meant, and what the outside world answers. -/

namespace Sys2Proof

/-- The three requesters of register accesses (R435, R511). -/
inductive Requester where
  | ha | hb | fp
deriving DecidableEq, Repr

/-- The two host ports (R461). -/
inductive HostId where
  | a | b
deriving DecidableEq, Repr

/-- The two control regions Flint-A and Flint-B (R11). -/
inductive FlintId where
  | a | b
deriving DecidableEq, Repr

/-- An EVENT packet's content (R34, R36): code, block, cell, argument, and the time it was raised. -/
structure Event where
  code : BitVec 16
  block : BitVec 8
  cell : BitVec 8
  arg : Word
  sec : Word
  ns : Word
deriving DecidableEq, Repr

/-- One 72-bit word as it arrives over a link, or from DRAM: the data bits, the check bits, and the word's place (R22, R252). -/
structure CodedWord where
  data : DWord
  check : Byte
deriving DecidableEq, Repr

/-- How a cell's error ends (R13): corrected in place, corrected by a retry, or the third retry failed; or, for a word of the cell's internal storage, the word's index and data and the bits flipped in each attempt to read it (R252 to R254). -/
inductive CellErr where
  | corrected
  | retried (retries : Fin 3)
  | exhausted
  | word (index : Nat) (data : DWord) (attempts : List CodedWord)
deriving DecidableEq, Repr

/-- One group context of a ray cell: region Galena-n, block, cell, context (R12, R125). -/
structure CtxId where
  gal : Fin 4
  blk : Fin 12
  cell : Fin 32
  ctx : Fin 4
deriving DecidableEq, Repr

/-- TYPE of a ray instruction (R92). -/
inductive RayType where
  | f32 | f16 | i32 | u10
deriving DecidableEq, Repr

/-- Register format of the ray profile (R96). -/
structure RayReg where
  d : BitVec 6
  a : BitVec 6
  b : BitVec 6
  c : BitVec 6
  sa : Bool
  sb : Bool
  pneg : Bool
  pidx : BitVec 3
  ty : RayType
  func : BitVec 8
deriving DecidableEq, Repr

/-- Immediate format of the ray profile (R96); `cond` is the condition field of CMPI, bits [42:40]. -/
structure RayImm where
  d : BitVec 6
  a : BitVec 6
  sa : Bool
  pneg : Bool
  pidx : BitVec 3
  ty : RayType
  imm : Word
  cond : BitVec 3
deriving DecidableEq, Repr

/-- Branch format of the ray profile (R96); OFFSET is signed. -/
structure RayBr where
  a : BitVec 6
  pneg : Bool
  pidx : BitVec 3
  offset : Word
deriving DecidableEq, Repr

/-- Register format FR of the frame profile (R142). -/
structure FrReg where
  d : BitVec 6
  a : BitVec 6
  b : BitVec 6
  c : BitVec 6
  pneg : Bool
  pidx : BitVec 3
  func : BitVec 8
deriving DecidableEq, Repr

/-- Immediate format FI of the frame profile (R142); `x` is bits [43:38]. -/
structure FrImm where
  d : BitVec 6
  a : BitVec 6
  x : BitVec 6
  pneg : Bool
  pidx : BitVec 3
  imm : Word
deriving DecidableEq, Repr

/-- Branch format FB of the frame profile (R142). -/
structure FrBr where
  a : BitVec 6
  pneg : Bool
  pidx : BitVec 3
  offset : Word
deriving DecidableEq, Repr

/-- A launch record (R117). -/
structure LaunchRec where
  frame : Word
  phase : BitVec 2
  first : BitVec 10
  count : BitVec 10
  kernel : BitVec 40
  table : BitVec 40
  const : BitVec 40
  constLen : BitVec 13
  scalars : List Word
  allowance : BitVec 16
deriving DecidableEq, Repr

/-- A packet of the mesh: its header flit's four words and its payload's words, coded as they arrive (R22, R23). -/
structure Packet where
  head : Vector CodedWord 4
  payload : List CodedWord
deriving DecidableEq, Repr

/-- Where a whole packet is received: a router of the mesh, into which it comes over a link, or the network interface of a region (R23, R27). -/
inductive NocAt where
  | router (r : Fin 40)
  | iface (region : Fin 16)
deriving DecidableEq, Repr

/-- A serial lane: a source port's receive lane, a panel lane (group 12 holds the spares), or a backchannel lane (R311, R324). -/
inductive Lane where
  | src (port : Fin 4) (lane : Fin 4)
  | panel (group : Fin 13) (pos : Fin 4)
  | back (lane : Fin 4)
deriving DecidableEq, Repr

/-- A link that trains: a source port or a panel lane group (R326). -/
inductive LinkSel where
  | port (p : Fin 4)
  | group (g : Fin 13)
  | backchannel
deriving DecidableEq, Repr

/-- The two regions with serial-link test and eye registers (R338, R340). -/
inductive LinkRegion where
  | quartz | obsidian
deriving DecidableEq, Repr

/-- A Septolink-S packet as received: its START block's 16 bytes, its body, and the CRC-32 of its END block (R318). -/
structure SlPacket where
  start : List Byte
  body : List Byte
  crc : Word
deriving DecidableEq, Repr

/-- How one request to a DRAM channel ends at the pins (R13, R254): the bits flipped in each of the 32 words, per attempt; the first entry is the first attempt. -/
abbrev LineFlips := List (List CodedWord)

/-- What a request to DRAM is for (R256). -/
inductive DramUse where
  | rayRead | overlayFetch | repeatFill
  | layerWrite | shadowWrite | ingestReturn | calMap | dma | hostAperture | other
  | blitter | boraxJob
  | migration
deriving DecidableEq, Repr

/-- What a line request to a channel names (R256, R257): the requesting region, what it is for, the tag, whose bits [7:6] are the class, and the line, address bits [39:8]. -/
structure LineReq where
  src : Fin 16
  use : DramUse
  tag : Byte
  line : Nat
deriving DecidableEq, Repr

/-- The steps of a channel's training (R263). -/
inductive TrainStep where
  | zq | ca | wck2ck | readDq | writeDq
deriving DecidableEq, Repr

/-- How a channel's training came out (R246, R263): the steps completed, in order; the trained eye of each DQ and each CA in thousandths of a unit interval; whether a device requires refresh management. -/
structure TrainResult where
  steps : List TrainStep
  dqEyes : List Nat
  caEyes : List Nat
  refreshManagement : Bool
deriving DecidableEq, Repr

/-- What a rank reports in MR4 (R261): refresh multiplier and derating. -/
inductive RefreshMult where
  | normal | half | quarter
deriving DecidableEq, Repr

/-- How the PMIC answers the step of a script entry (R301, R302). -/
inductive PmicResult where
  | done
  | read (value : Byte) (expired : Bool)
  | nack
  | stretch
deriving DecidableEq, Repr

/-- Why no unit arrives any more (R83). -/
inductive StallCause where
  | timeout | link
deriving DecidableEq, Repr

/-- The kind of a PTP message (R363). -/
inductive PtpKind where
  | sync | followUp | delayReq | delayResp | pdelayReq | pdelayResp | pdelayRespFollowUp | announce | management | signaling
deriving DecidableEq, Repr

/-- A PTP message's fields, as IEEE 1588-2019 names them; `correction` is in 2^-16 ns (R363, R367). -/
structure PtpMsg where
  kind : PtpKind
  domain : Byte
  seq : BitVec 16
  twoStep : Bool
  correction : Int
  tsSec : BitVec 48
  tsNs : Word
  sender : DWord
  requester : DWord
  gmId : DWord
  prio1 : Byte
  clockClass : Byte
  accuracy : Byte
  variance : BitVec 16
  prio2 : Byte
  steps : BitVec 16
  utcOffset : BitVec 16
  utcValid : Bool
deriving DecidableEq, Repr

/-- Which interval timer fires, and so which PTP message the port sends (R363). -/
inductive PtpSend where
  | announce | sync | followUp | delayReq | delayResp | pdelayReq | pdelayResp | pdelayRespFollowUp
deriving DecidableEq, Repr

/-- What the master's time-out is (R368). -/
inductive PtpTimeout where
  | announce | sync
deriving DecidableEq, Repr

/-- One cycle of the ADC (R382): codes in 1/16 LSB; per remote diode the codes at 10 and at 100 microamperes. -/
structure AdcCodes where
  gnd : Nat
  thref : Nat
  pth : List Nat
  diodes : List (Nat × Nat)
deriving DecidableEq, Repr

/-- What an on-die sensor's conversion gives (R381, R384): a raw value in 1/64 K, or no completion within 300 microseconds. -/
inductive SensorValue where
  | raw (k : Nat)
  | incomplete
deriving DecidableEq, Repr

/-- The three repetitions of each measurement of a calibration run (R394): REFCAL and ground codes in 1/16 LSB; sensor gains in parts per million. -/
structure CalMeasure where
  adc : List (Nat × Nat)
  gains : List (List Nat)
deriving DecidableEq, Repr

/-- A mirror record (R409): what one instruction obtained from outside, or the digest of an action, or the release record (R415). -/
inductive MirrorRec where
  | value (v : DWord)
  | waitEnd (flags : DWord) (timedOut : Bool)
  | granted (g : Bool)
  | sent (s : Bool)
  | digest (action : DWord) (crc : Word)
  | watchdog
  | release (action : DWord)
deriving DecidableEq, Repr

/-- How a host frame ended at the port (R463, R465): the CRC-16 that followed the host's bytes, where one arrived; its length fits the command; CS_N rose before the part that counts had arrived. -/
structure FrameEnd where
  crc : Option (BitVec 16)
  lengthOk : Bool
  cut : Bool
deriving DecidableEq, Repr

/-- What the frame that an FSYNC edge ends has brought (R354): BCLKs counted in it, and the slots' samples, 24 bits each. -/
structure FsyncInfo where
  bclks : Nat
  samples : List (BitVec 24)
deriving DecidableEq, Repr

/-- The ordering codes P9-C55-24 and P9-C55-16 (R2). -/
inductive Part where
  | c24 | c16
deriving DecidableEq, Repr

/-- What the flash's SFDP tables list, of what the P9 asks (R438, R476): 4-byte-address 1-1-4 reads, 4-byte-address x4 page program, suspend. -/
structure FlashSfdp where
  quadRead : Bool
  quadProgram : Bool
  suspend : Bool
deriving DecidableEq, Repr

/-- A monitored rail (R536). -/
inductive Rail where
  | vddGal | vddCore | vddDdr | vddqDdr | vddSl | vddhSl
deriving DecidableEq, Repr

end Sys2Proof
end

