-- ==== Sys2Proof/Syntax.lean ====
section
/-! DEFINITION. The commands of the P9: one constructor for each row of spec/opcode_table.json, with the row's operands. -/

namespace Sys2Proof

/-- The commands the block takes (opcode_table.json, 306 rows). A docstring gives the row's rule and its summary. -/
inductive Instr where
  /-- R8: A write to a register field that has no behaviour of its own sets the field by its access code. -/
  | registerWrite (q : Requester) (addr : BitVec 24) (v : Word)
  /-- R13: A cell detects an error in an operation, corrects it in place or retries the operation up to 3 times. -/
  | cellError (r : Fin 16) (block cell : Byte) (ctx : Fin 4) (e : CellErr)
  /-- R16: A block handles a cell's retirement report, quarantines the cell and hands its work to the other cells. -/
  | cellQuarantined (r : Fin 16) (block cell : Byte)
  /-- R20: A region's drain ends when no transaction remains or at 50 µs; outstanding requests end TIMEOUT and region reset is asserted. -/
  | drainEnd (r : Fin 16)
  /-- R20: A region's PLL locks after reset or power-up and the region starts initialisation from Slate's settings. -/
  | regionPllLocked (r : Fin 16)
  /-- R20: A region completes initialisation, restores credits, accepts requests and raises REGION_REJOINED. -/
  | regionRejoined (r : Fin 16)
  /-- R20: A region that has not rejoined by tD + 213 µs raises REGION_RESET_FAILED. -/
  | regionResetFailed (r : Fin 16)
  /-- R485: A powered region's PLL loses lock, which is a region-level fault of that region. -/
  | pllUnlock (r : Fin 16)
  /-- R23: A router or network interface receives a whole packet and forwards or consumes it. -/
  | nocPacket (at_ : NocAt) (pkt : Packet)
  /-- R37: An EVENT packet reaches the collector and is queued, merged or dropped. -/
  | eventArrival (e : Event)
  /-- R38: The collector delivers its oldest event to the log, both host queues and the active region. -/
  | eventDelivery
  /-- R551: Setting START of OBS_CALMAP_CTRL latches the source and address and starts a map load, or queues it while one runs. -/
  | calmapStart (q : Requester) (v : Word)
  /-- R54: The last byte of a map load has been read, and the checks run once the panel serial is known. -/
  | calmapReadDone
  /-- R67: Quartz takes a STREAM_START unit, ends any previous stream, and accepts or refuses the new one. -/
  | streamStart (p : Fin 4) (unit : List Byte)
  /-- R69: A STREAM_END unit ends the port's stream, abandons the frame in progress and releases buffers. -/
  | streamEnd (p : Fin 4) (unit : List Byte)
  /-- R85: A write of ENABLE in QTZ_PORTn_CTRL enables the port, and clearing it ends the stream. -/
  | portEnable (p : Fin 4) (q : Requester) (v : Word)
  /-- R62: A unit of unknown type, or a received STREAM_STATUS, is skipped by its LENGTH and counted. -/
  | unknownUnit (p : Fin 4) (unit : List Byte)
  /-- R70: Quartz takes a SCENE_FRAME_BEGIN unit and opens a scene frame. -/
  | sceneFrameBegin (p : Fin 4) (unit : List Byte)
  /-- R71: Quartz takes a LAYER_HEADER unit and assigns a FREE buffer as WRITING, holding the port if none can be written. -/
  | layerHeader (p : Fin 4) (unit : List Byte)
  /-- R74: Quartz takes a PLANE_DATA unit and writes its band, or sends a BORAX band to Borax for decoding. -/
  | planeData (p : Fin 4) (unit : List Byte)
  /-- R70: Quartz takes a SCENE_FRAME_END unit and closes the scene frame. -/
  | sceneFrameEnd (p : Fin 4) (unit : List Byte)
  /-- R78: Once every write of a layer version is acknowledged, Quartz raises the layer fence and makes the buffer PENDING. -/
  | layerFence (p : Fin 4) (layer : Fin 64)
  /-- R83: No unit arrives for STALL_TIMEOUT or the link leaves service, and STATE becomes STALLED. -/
  | portStalled (p : Fin 4) (cause : StallCause)
  /-- R79: Quartz runs a bind request, resolving each slot's version by its readiness policy and writing a layer table. -/
  | layerBind
  /-- R124: A block hands the next group of a tile to a cell with a free group context, which starts it from ENTRY. -/
  | groupDispatch (g : Fin 4) (b : Fin 12)
  /-- R99: Ray instruction ADD adds two vector operands per active lane. -/
  | rayAdd (c : CtxId) (i : RayReg)
  /-- R99: Ray instruction ADDI adds an immediate per active lane. -/
  | rayAddi (c : CtxId) (i : RayImm)
  /-- R99: Ray instruction SUB subtracts per active lane. -/
  | raySub (c : CtxId) (i : RayReg)
  /-- R99: Ray instruction SUBI subtracts an immediate per active lane. -/
  | raySubi (c : CtxId) (i : RayImm)
  /-- R99: Ray instruction MUL multiplies per active lane. -/
  | rayMul (c : CtxId) (i : RayReg)
  /-- R99: Ray instruction MULI multiplies by an immediate per active lane. -/
  | rayMuli (c : CtxId) (i : RayImm)
  /-- R99: Ray instruction FMA computes a × b + c with one rounding per active lane. -/
  | rayFma (c : CtxId) (i : RayReg)
  /-- R99: Ray instruction MIN takes the minimum per active lane. -/
  | rayMin (c : CtxId) (i : RayReg)
  /-- R99: Ray instruction MAX takes the maximum per active lane. -/
  | rayMax (c : CtxId) (i : RayReg)
  /-- R99: Ray instruction MINI takes the minimum with an immediate. -/
  | rayMini (c : CtxId) (i : RayImm)
  /-- R99: Ray instruction MAXI takes the maximum with an immediate. -/
  | rayMaxi (c : CtxId) (i : RayImm)
  /-- R99: Ray instruction ABS takes the magnitude per active lane. -/
  | rayAbs (c : CtxId) (i : RayReg)
  /-- R99: Ray instruction NEG negates per active lane. -/
  | rayNeg (c : CtxId) (i : RayReg)
  /-- R99: Ray instruction FLOOR rounds down per active lane. -/
  | rayFloor (c : CtxId) (i : RayReg)
  /-- R99: Ray instruction FRACT takes a − floor(a) per active lane. -/
  | rayFract (c : CtxId) (i : RayReg)
  /-- R99: Ray instruction RCP computes the reciprocal per active lane. -/
  | rayRcp (c : CtxId) (i : RayReg)
  /-- R99: Ray instruction RSQ computes the reciprocal square root per active lane. -/
  | rayRsq (c : CtxId) (i : RayReg)
  /-- R99: Ray instruction SQRT computes the square root per active lane. -/
  | raySqrt (c : CtxId) (i : RayReg)
  /-- R99: Ray instruction AND combines bitwise per active lane. -/
  | rayAnd (c : CtxId) (i : RayReg)
  /-- R99: Ray instruction OR combines bitwise per active lane. -/
  | rayOr (c : CtxId) (i : RayReg)
  /-- R99: Ray instruction XOR combines bitwise per active lane. -/
  | rayXor (c : CtxId) (i : RayReg)
  /-- R99: Ray instruction NOT inverts bitwise per active lane. -/
  | rayNot (c : CtxId) (i : RayReg)
  /-- R99: Ray instruction SHL shifts left per active lane. -/
  | rayShl (c : CtxId) (i : RayReg)
  /-- R99: Ray instruction SHR shifts right logically per active lane. -/
  | rayShr (c : CtxId) (i : RayReg)
  /-- R99: Ray instruction ASR shifts right arithmetically per active lane. -/
  | rayAsr (c : CtxId) (i : RayReg)
  /-- R99: Ray instruction ANDI ands with an immediate. -/
  | rayAndi (c : CtxId) (i : RayImm)
  /-- R99: Ray instruction ORI ors with an immediate. -/
  | rayOri (c : CtxId) (i : RayImm)
  /-- R99: Ray instruction XORI xors with an immediate. -/
  | rayXori (c : CtxId) (i : RayImm)
  /-- R99: Ray instruction SHLI shifts left by an immediate. -/
  | rayShli (c : CtxId) (i : RayImm)
  /-- R99: Ray instruction SHRI shifts right logically by an immediate. -/
  | rayShri (c : CtxId) (i : RayImm)
  /-- R99: Ray instruction ASRI shifts right arithmetically by an immediate. -/
  | rayAsri (c : CtxId) (i : RayImm)
  /-- R99: Ray instruction MOV copies raw bits per active lane. -/
  | rayMov (c : CtxId) (i : RayReg)
  /-- R99: Ray instruction MOVI loads an immediate per active lane. -/
  | rayMovi (c : CtxId) (i : RayImm)
  /-- R99: Ray instruction MOVK copies a k register into a v register. -/
  | rayMovk (c : CtxId) (i : RayReg)
  /-- R95: Ray instruction CVT converts between element types per active lane. -/
  | rayCvt (c : CtxId) (i : RayReg)
  /-- R99: Ray instruction SEL selects per lane by a predicate. -/
  | raySel (c : CtxId) (i : RayReg)
  /-- R101: Ray instruction CMP writes a predicate from a comparison in active lanes. -/
  | rayCmp (c : CtxId) (i : RayReg)
  /-- R101: Ray instruction CMPI writes a predicate from a comparison with an immediate. -/
  | rayCmpi (c : CtxId) (i : RayImm)
  /-- R99: Ray instruction PAND ands two predicates. -/
  | rayPand (c : CtxId) (i : RayReg)
  /-- R99: Ray instruction POR ors two predicates. -/
  | rayPor (c : CtxId) (i : RayReg)
  /-- R99: Ray instruction PXOR xors two predicates. -/
  | rayPxor (c : CtxId) (i : RayReg)
  /-- R99: Ray instruction PNOT inverts a predicate. -/
  | rayPnot (c : CtxId) (i : RayReg)
  /-- R99: Ray instruction PMOVI loads a predicate from an immediate. -/
  | rayPmovi (c : CtxId) (i : RayImm)
  /-- R99: Ray instruction SMOVI loads a scalar register. -/
  | raySmovi (c : CtxId) (i : RayImm)
  /-- R99: Ray instruction SADD adds two scalar registers. -/
  | raySadd (c : CtxId) (i : RayReg)
  /-- R99: Ray instruction SADDI adds an immediate to a scalar register. -/
  | raySaddi (c : CtxId) (i : RayImm)
  /-- R99: Ray instruction BRANY branches if any lane is active. -/
  | rayBrany (c : CtxId) (i : RayBr)
  /-- R99: Ray instruction BRALL branches if all lanes are active. -/
  | rayBrall (c : CtxId) (i : RayBr)
  /-- R99: Ray instruction LOOP decrements a scalar and branches while non-zero. -/
  | rayLoop (c : CtxId) (i : RayBr)
  /-- R103: Ray instruction LDC reads a constant-block word at a scalar address. -/
  | rayLdc (c : CtxId) (i : RayImm)
  /-- R103: Ray instruction LDCV reads a constant-block word per lane. -/
  | rayLdcv (c : CtxId) (i : RayImm)
  /-- R107: Ray instruction SMP samples a list of bound layers front to back into the accumulators. -/
  | raySmp (c : CtxId) (i : RayImm)
  /-- R104: Ray instruction EMIT records a 10-bit value for the lane's subpixel. -/
  | rayEmit (c : CtxId) (i : RayReg)
  /-- R105: Ray instruction END ends the group and sends each lane's emitted value. -/
  | rayEnd (c : CtxId) (i : RayReg)
  /-- R99: Ray instruction NOP does nothing and is charged 1. -/
  | rayNop (c : CtxId)
  /-- R119: A Galena region accepts a launch record, applies range, past and overlap tests and checks the kernel. -/
  | launchRecord (g : Fin 4) (rec : LaunchRec)
  /-- R123: A block with room takes the next tile from its region's tile queue. -/
  | tileTake (g : Fin 4) (b : Fin 12)
  /-- R130: A sample or layer cache line fill from memory completes. -/
  | cacheLineFill (g : Fin 4) (b : Option (Fin 12)) (line : BitVec 32) (flips : List CodedWord) (status : Byte)
  /-- R126: A block whose tile has all groups ended sends its words to Mica as ring lines free. -/
  | tileSend (g : Fin 4) (b : Fin 12)
  /-- R145: Frame instruction ADD adds two g registers. -/
  | fpAdd (f : FlintId) (i : FrReg)
  /-- R145: Frame instruction SUB subtracts two g registers. -/
  | fpSub (f : FlintId) (i : FrReg)
  /-- R145: Frame instruction AND ands two g registers. -/
  | fpAnd (f : FlintId) (i : FrReg)
  /-- R145: Frame instruction OR ors two g registers. -/
  | fpOr (f : FlintId) (i : FrReg)
  /-- R145: Frame instruction XOR xors two g registers. -/
  | fpXor (f : FlintId) (i : FrReg)
  /-- R145: Frame instruction SHL shifts left. -/
  | fpShl (f : FlintId) (i : FrReg)
  /-- R145: Frame instruction SHR shifts right. -/
  | fpShr (f : FlintId) (i : FrReg)
  /-- R145: Frame instruction MUL multiplies, keeping the low 64 bits. -/
  | fpMul (f : FlintId) (i : FrReg)
  /-- R145: Frame instruction MOV copies a g register. -/
  | fpMov (f : FlintId) (i : FrReg)
  /-- R145: Frame instruction ADDI adds a sign-extended immediate. -/
  | fpAddi (f : FlintId) (i : FrImm)
  /-- R145: Frame instruction ANDI ands a zero-extended immediate. -/
  | fpAndi (f : FlintId) (i : FrImm)
  /-- R145: Frame instruction ORI ors a zero-extended immediate. -/
  | fpOri (f : FlintId) (i : FrImm)
  /-- R145: Frame instruction XORI xors a zero-extended immediate. -/
  | fpXori (f : FlintId) (i : FrImm)
  /-- R145: Frame instruction SHLI shifts left by an immediate. -/
  | fpShli (f : FlintId) (i : FrImm)
  /-- R145: Frame instruction SHRI shifts right by an immediate. -/
  | fpShri (f : FlintId) (i : FrImm)
  /-- R145: Frame instruction MOVI loads a sign-extended immediate. -/
  | fpMovi (f : FlintId) (i : FrImm)
  /-- R145: Frame instruction MOVHI loads the upper 32 bits of a g register. -/
  | fpMovhi (f : FlintId) (i : FrImm)
  /-- R146: Frame instruction CMP writes a predicate from a comparison. -/
  | fpCmp (f : FlintId) (i : FrReg)
  /-- R146: Frame instruction CMPI writes a predicate from a comparison with an immediate. -/
  | fpCmpi (f : FlintId) (i : FrImm)
  /-- R145: Frame instruction PAND ands two predicates. -/
  | fpPand (f : FlintId) (i : FrReg)
  /-- R145: Frame instruction POR ors two predicates. -/
  | fpPor (f : FlintId) (i : FrReg)
  /-- R145: Frame instruction PXOR xors two predicates. -/
  | fpPxor (f : FlintId) (i : FrReg)
  /-- R145: Frame instruction PNOT inverts a predicate. -/
  | fpPnot (f : FlintId) (i : FrReg)
  /-- R145: Frame instruction LD loads a 64-bit data memory word. -/
  | fpLd (f : FlintId) (i : FrImm)
  /-- R145: Frame instruction ST stores a 64-bit data memory word. -/
  | fpSt (f : FlintId) (i : FrImm)
  /-- R145: Frame instruction LD32 loads a 32-bit data memory word. -/
  | fpLd32 (f : FlintId) (i : FrImm)
  /-- R145: Frame instruction ST32 stores a 32-bit data memory word. -/
  | fpSt32 (f : FlintId) (i : FrImm)
  /-- R149: Frame instruction RDREG reads a region register and waits for the response. -/
  | fpRdreg (f : FlintId) (i : FrImm)
  /-- R148: Frame instruction WRREG sends an acknowledged register write. -/
  | fpWrreg (f : FlintId) (i : FrImm)
  /-- R148: Frame instruction WRBLK writes a run of registers from data memory. -/
  | fpWrblk (f : FlintId) (i : FrReg)
  /-- R145: Frame instruction BR branches. -/
  | fpBr (f : FlintId) (i : FrBr)
  /-- R145: Frame instruction CALL pushes a return index and branches. -/
  | fpCall (f : FlintId) (i : FrBr)
  /-- R145: Frame instruction RET pops the return stack and continues there. -/
  | fpRet (f : FlintId) (i : FrBr)
  /-- R145: Frame instruction LOOP decrements a g register and branches while non-zero. -/
  | fpLoop (f : FlintId) (i : FrBr)
  /-- R151: Frame instruction WAITE waits for selected event flags, with an optional time-out. -/
  | fpWaite (f : FlintId) (i : FrReg)
  /-- R145: Frame instruction EVCLR clears event flags. -/
  | fpEvclr (f : FlintId) (i : FrReg)
  /-- R145: Frame instruction EVSET sets soft event flags. -/
  | fpEvset (f : FlintId) (i : FrReg)
  /-- R145: Frame instruction EVRD reads the 64 event flags. -/
  | fpEvrd (f : FlintId) (i : FrReg)
  /-- R154: Frame instruction WAITT waits until a time or for a duration. -/
  | fpWaitt (f : FlintId) (i : FrReg)
  /-- R155: Frame instruction WAITL waits until the scan reaches a position. -/
  | fpWaitl (f : FlintId) (i : FrReg)
  /-- R154: Frame instruction RDTIME reads the PTP-disciplined time. -/
  | fpRdtime (f : FlintId) (i : FrReg)
  /-- R155: Frame instruction RDPOS reads the scan position. -/
  | fpRdpos (f : FlintId) (i : FrReg)
  /-- R153: Frame instruction TSET starts, restarts or stops a timer. -/
  | fpTset (f : FlintId) (i : FrReg)
  /-- R157: Frame instruction LAUNCH forms a launch record and sends it when every Galena queue has room. -/
  | fpLaunch (f : FlintId) (i : FrImm)
  /-- R158: Frame instruction BIND sends a layer bind request to Quartz. -/
  | fpBind (f : FlintId) (i : FrReg)
  /-- R159: Frame instruction DMA starts a DMA transfer from a descriptor. -/
  | fpDma (f : FlintId) (i : FrImm)
  /-- R160: Frame instruction BRXJ queues a Borax job descriptor. -/
  | fpBrxj (f : FlintId) (i : FrImm)
  /-- R488: Frame instruction PWR asks Slate to power regions on or off. -/
  | fpPwr (f : FlintId) (i : FrImm)
  /-- R436: Frame instruction SEMACQ waits until a semaphore is granted. -/
  | fpSemacq (f : FlintId) (i : FrImm)
  /-- R436: Frame instruction SEMTRY tries to take a semaphore. -/
  | fpSemtry (f : FlintId) (i : FrImm)
  /-- R161: Frame instruction SEMREL releases a semaphore. -/
  | fpSemrel (f : FlintId) (i : FrImm)
  /-- R163: Frame instruction CKPT waits for earlier commands and then writes a checkpoint. -/
  | fpCkpt (f : FlintId) (i : FrImm)
  /-- R145: Frame instruction NOP does nothing. -/
  | fpNop (f : FlintId)
  /-- R145: Frame instruction FENCE waits until earlier register writes are acknowledged. -/
  | fpFence (f : FlintId)
  /-- R167: Frame instruction HALT stops the program. -/
  | fpHalt (f : FlintId)
  /-- R151: A WAITE time-out expires and the wait ends with p[C] set. -/
  | waiteTimeout (f : FlintId)
  /-- R154: The time reaches a WAITT target and the wait ends. -/
  | waittReached (f : FlintId)
  /-- R153: A sequencer timer reaches 0, stops and sets its flag. -/
  | timerExpired (f : FlintId) (t : Fin 4)
  /-- R168: No CKPT completes within FLA_WDOG and the program stops with a WATCHDOG fault. -/
  | watchdogExpired (f : FlintId)
  /-- R149: The response to a register read arrives and the waiting reader continues. -/
  | registerReadResponse (q : Requester)
  /-- R148: The acknowledgement of a register or memory write arrives at its requester. -/
  | writeAck (n : Nat)
  /-- R160: A DMA transfer ends with a status and sets its channel flag. -/
  | dmaEnd (f : FlintId) (ch : Fin 4) (flashError : Option (BitVec 32) := none)
  /-- R163: A checkpoint bank is completely written, becomes valid and the watchdog restarts. -/
  | checkpointWritten (f : FlintId)
  /-- R165: Writing LOAD in FLA_PROG_CTRL starts a frame-program load, or queues it. -/
  | progLoad (f : FlintId) (q : Requester) (v : Word)
  /-- R165: A program image has been read and checked, and is accepted or refused. -/
  | progLoadChecked (flashError : Option (BitVec 32) := none)
  /-- R167: Writing STOP in FLA_PROG_CTRL stops the program. -/
  | progStop (f : FlintId) (q : Requester)
  /-- R167: Writing RUN in FLA_PROG_CTRL restarts a stopped program at ENTRY. -/
  | progRun (f : FlintId) (q : Requester)
  /-- R188: Writing REQUEST snapshots the staged Mica registers as the pending update. -/
  | updateRequest (q : Requester)
  /-- R190: Writing MCA_PLANE_MARK sets marks declaring new overlay content. -/
  | planeMark (q : Requester) (v : Word)
  /-- R181: A write to a LUT window writes an entry, or is blocked and counted if the bank is in use. -/
  | lutWrite (q : Requester) (addr : BitVec 24) (v : Word)
  /-- R210: Writing START latches the blitter registers, checks them and starts a blit. -/
  | blitStart (q : Requester) (v : Word)
  /-- R212: Writing ABORT stops a running blit at the next request boundary. -/
  | blitAbort (q : Requester)
  /-- R212: A blit ends DONE, ABORTED or ERROR once outstanding writes complete. -/
  | blitDone (done : Nat)
  /-- R234: A host write to BRX_JOB_SUBMIT queues a job descriptor or is refused when the queue is full. -/
  | jobSubmit (q : Requester) (v : Word)
  /-- R236: A free coder lane takes the next item from its users in priority order. -/
  | coderLaneTakeItem
  /-- R230: A coder lane finishes an item, verifying every coded block. -/
  | coderItemDone (engine lane : Fin 4) (mismatches : List Nat)
  /-- R241: A change to BRX_RET_CTRL while enabled ends the return stream at the next frame boundary. -/
  | retCtrlWrite (q : Requester) (v : Word)
  /-- R550: Writing BRING_UP trains and initialises every channel. -/
  | bringUp (q : Requester) (v : Word)
  /-- R263: Channel training completes or fails. -/
  | dramTrained (ch : Fin 32) (res : TrainResult)
  /-- R550: Every channel has written zero data and STATE becomes IN_SERVICE. -/
  | dramInitDone
  /-- R257: A channel serves a line read from its read queue. -/
  | dramRead (req : LineReq) (flips : LineFlips)
  /-- R259: A write enters a channel's write queue, merging partial writes, and is acknowledged. -/
  | dramWrite (req : LineReq) (enables : BitVec 256) (data : List Byte) (flips : LineFlips) (poison : BitVec 32 := 0)
  /-- R258: A write queue reaches 48 entries or its oldest entry 10 µs and the channel drains writes. -/
  | writeDrain (ch : Fin 32) (byAge : Bool) (issued : List Nat)
  /-- R265: The migration copies the next line under pointer P to the spare. -/
  | migrationCopy (quad : Fin 4) (flips : LineFlips)
  /-- R260: The chip-wide refresh timer strobes all channels into a refresh window. -/
  | refreshWindow
  /-- R261: Each channel reads MR4 of its ranks every 4 ms and the refresh band is updated. -/
  | mr4Read (ch : Fin 32) (rank : Fin 2) (mult : RefreshMult) (derate : Bool)
  /-- R263: Each channel reads its WCK2DQ oscillator every 100 ms and schedules a phase shift when drift exceeds 1/16 UI. -/
  | wck2dqCheck (ch : Fin 32) (drift : Nat) (eyes : Nat × Nat)
  /-- R276: The panel timing starts at a frame start, counting frames from 0 and opening stripes 0 and 1. -/
  | timingStart
  /-- R278: The holder's timing generator starts a slot; Obsidian takes the line, applies overdrive and sign and sends it. -/
  | lineStart (f : FlintId) (skew : Int)
  /-- R287: No line start arrives by the end of a slot and Obsidian holds the scan. -/
  | scanHold
  /-- R289: A scan hold lasts 1 ms and the panel enters the safe panel state. -/
  | holdTimeout
  /-- R296: Writing WAVE_COMMIT copies the staging waveform sets to the live sets at the next frame start. -/
  | waveCommit (q : Requester)
  /-- R299: Writing MODE requests pewter or normal mode. -/
  | panelMode (q : Requester) (v : Word)
  /-- R304: Writing POWER ON while OFF starts the power-on sequence with script 0. -/
  | panelPowerOn (q : Requester)
  /-- R305: Writing POWER OFF while ON starts the power-off sequence. -/
  | panelPowerOff (q : Requester)
  /-- R304: Panel lane training ends and Obsidian sends IDENTIFY, the settings and POL_MODE. -/
  | panelTrainingDone
  /-- R283: The identity block arrives and the panel serial is copied. -/
  | panelIdentifyReply (block : List Byte)
  /-- R283: Bytes of a panel FLASH_READ arrive. -/
  | panelFlashReadReply (data : List Byte)
  /-- R282: A driver's reply to STATUS_READ arrives. -/
  | statusReadReply (group : Fin 12) (driver : Byte) (v : Word)
  /-- R303: Writing RUN in OBS_PMIC_CTRL runs user script 6 or 7. -/
  | pmicRun (q : Requester) (v : Word)
  /-- R303: Every MONITOR_MS the MONITOR script runs. -/
  | pmicMonitor
  /-- R302: A PMIC script entry completes or polls and the script moves on. -/
  | pmicEntry (r : PmicResult)
  /-- R303: A PMIC script reaches END and the sequence that ran it continues. -/
  | pmicScriptDone
  /-- R306: PFAIL_N falls and Slate runs the abrupt-loss sequence. -/
  | pfailFall
  /-- R306: Script 4 plus 0.5 ms ends; the log entry is written and STATE becomes SAFE. -/
  | abruptLossEnd
  /-- R536: A monitored rail stays 5 % below minimum for 1 µs, acting as a PFAIL_N fall. -/
  | railCollapse (rail : Rail) (microvolts : Nat := 0)
  /-- R326: Enabling a link or lane group starts training from WAKE. -/
  | linkEnable (l : LinkSel)
  /-- R338: Writing RETRAIN sends the link to OFF and trains it again. -/
  | linkRetrain (p : Fin 4) (q : Requester)
  /-- R314: A lane receives a block, tracking block lock. -/
  | blockReceived (l : Lane) (header : BitVec 4) (payload : List Byte)
  /-- R313: A SKIP block is accepted and the scrambler state is loaded. -/
  | skipReceived (l : Lane) (payload : List Byte)
  /-- R326: A TRAIN block arrives and may advance the lane's training state. -/
  | trainReceived (l : Lane) (payload : List Byte)
  /-- R329: Identical CAPS blocks are received and version, rate and width are negotiated. -/
  | capsReceived (l : Lane) (payload : List Byte)
  /-- R331: A receiver finishes measuring the eye under one preset and requests the next or chooses. -/
  | eqPresetMeasured (l : Lane) (width : Nat)
  /-- R326: A training or recovery state reaches its bound and the lane fails with its reason. -/
  | trainingTimeout (l : Lane)
  /-- R326: A failed Septolink-S port retries from WAKE every 100 ms. -/
  | trainingRetry (p : Fin 4)
  /-- R316: A 1 ms lane-rate measurement ends and a lane beyond 650 ppm enters RECOVERY. -/
  | laneRateWindow (l : Lane) (ppm : Option Int)
  /-- R332: A background margin round ends and two failing rounds send the lane to RECOVERY. -/
  | marginRound (l : Lane) (error : Bool)
  /-- R320: A Septolink-S packet arrives and is accepted, or discarded with an ACK or NAK. -/
  | packetReceived (p : Fin 4) (pkt : SlPacket)
  /-- R321: An ACK frees acknowledged packets from the replay buffer. -/
  | ackReceived (p : Fin 4) (seq : BitVec 12)
  /-- R321: A NAK makes the transmitter resend every packet after the one named. -/
  | nakReceived (p : Fin 4) (seq : BitVec 12)
  /-- R321: 50 µs pass with no ACK progress and the transmitter replays. -/
  | replayTimeout (p : Fin 4)
  /-- R322: A CREDIT block returns credits of a channel to the transmitter. -/
  | creditReceived (p : Fin 4) (channel : Fin 2) (credits : BitVec 16)
  /-- R325: A LINE_REPORT arrives on the backchannel reporting damaged lines and lane errors. -/
  | lineReport (b : Fin 4) (payload : List Byte)
  /-- R333: Writing START in EYE_CTRL samples one eye point. -/
  | eyeStart (r : LinkRegion) (q : Requester) (v : Word)
  /-- R333: An eye point finishes and its errors are reported. -/
  | eyePointDone (r : LinkRegion) (errors : Nat)
  /-- R337: The time port link goes up or down. -/
  | timeLink (up speedRefused : Bool)
  /-- R343: Enabling an audio port starts it within limits or refuses it. -/
  | audioPortEnable (port : Fin 6) (q : Requester) (v : Word)
  /-- R346: Writing ARM arms the named output ports for the start time. -/
  | audioArm (q : Requester) (v : Word)
  /-- R346: Writing STOP stops the named ports at the next frame. -/
  | audioStop (q : Requester) (v : Word)
  /-- R346: The start time is reached and armed ports emit their first sample. -/
  | audioStartTime (op : Fin 4)
  /-- R345: An output port emits one frame on the audio grid. -/
  | audioFrame (op : Fin 4)
  /-- R355: After 10 ms of underrun the held value ramps to 0. -/
  | underrunRamp (op : Fin 4) (ch : Fin 16)
  /-- R354: A FOLLOWER port's FSYNC edge is stamped and the frame taken or discarded. -/
  | fsyncEdge (port : Fin 6) (info : FsyncInfo)
  /-- R354: No edge or unit arrives within the time-out and the clock's paths underrun. -/
  | clockStopped (clk : Fin 10)
  /-- R354: Once per second each clock's rate is reported in GRN_MEASn. -/
  | clockMeasurement (clk : Fin 10) (nominal : Fin 7) (dev : Int)
  /-- R350: Enabling GRN_LOCK_CTRL defines the locked group. -/
  | lockGroupEnable (q : Requester) (v : Word)
  /-- R349: The ASRC reacquires a lost ratio and reports tracking. -/
  | asrcAcquired (clk : Fin 10)
  /-- R353: An embedded AUDIO unit's samples enter the port's buffer. -/
  | audioUnit (p : Fin 4) (unit : List Byte)
  /-- R367: A PTP message arrives, is stamped and feeds the offset computation and the servo. -/
  | ptpMessage (m : PtpMsg)
  /-- R363: An interval timer sends a PTP message. -/
  | ptpSend (k : PtpSend)
  /-- R368: Announce receipt or Sync times out and the servo enters HOLDOVER. -/
  | announceTimeout (k : PtpTimeout)
  /-- R365: Every 10 s the time port sends IGMPv2 reports. -/
  | igmpReport
  /-- R365: An ARP request for GRN_IPV4 is answered. -/
  | arpRequest (ip : Word) (senderMac : BitVec 48) (senderIp : Word)
  /-- R377: A PPS_IN edge is stamped and fed to the servo. -/
  | ppsInEdge (rising : Bool)
  /-- R368: No PPS_IN edge for 2 s and the servo enters HOLDOVER. -/
  | ppsInLost
  /-- R377: A capture input edge is stamped into its FIFO. -/
  | captureEdge (n : Fin 4) (rising : Bool) (gapNs : Nat) (widthNs : Nat)
  /-- R377: A read of GRN_CAPn_NS removes the oldest entry and latches its seconds and fraction. -/
  | captureRead (n : Fin 4) (q : Requester)
  /-- R362: A read of GRN_TIME_SEC_LO latches the rest of the time. -/
  | timeRead (q : Requester)
  /-- R371: Writing SET steps the time, or sets the seconds at the next PPS_IN edge. -/
  | timeSet (q : Requester)
  /-- R369: Writing RESTEP starts an acquisition. -/
  | restep (q : Requester)
  /-- R364: Writing PROFILE loads that profile's reset values. -/
  | ptpProfileWrite (q : Requester) (v : Word)
  /-- R374: Writing ARM latches a trigger's mode and timing. -/
  | triggerArm (n : Fin 4) (q : Requester) (v : Word)
  /-- R373: Writing FIRE schedules a SOFT pulse. -/
  | triggerFire (n : Fin 4) (q : Requester)
  /-- R373: A trigger edge time is reached and the pulse is driven. -/
  | triggerEdge (n : Fin 4)
  /-- R376: At each whole second PPS_OUT rises. -/
  | ppsOutEdge
  /-- R385: An on-die sensor updates and the thermal conditions are evaluated. -/
  | ondieSensorUpdate (i : Fin 60) (v : SensorValue)
  /-- R386: The Galena clock moves one throttle step. -/
  | throttleStep
  /-- R382: Every 10 ms the ADC converts ground, THREF, thermistors and diodes and T_p is recomputed. -/
  | adcCycle (codes : AdcCodes)
  /-- R390: T_p held for 60 s without a valid input takes DEFAULT_C. -/
  | panelTempHoldExpired
  /-- R388: DRAM_OVERTEMP persists 10 s and the P9 shuts down. -/
  | dramOvertempPersist
  /-- R393: Cooling conditions hold and Slate boots or waits for a wake. -/
  | thermalRestart
  /-- R398: Writing START in SLT_CAL_CTRL starts a calibration run. -/
  | calStart (q : Requester) (v : Word)
  /-- R396: A calibration run ends, applies accepted constants and raises CAL_DONE. -/
  | calDone (m : CalMeasure)
  /-- R399: Writing CLEAR_RETIRED with its key empties the retired set from the next chip reset. -/
  | clearRetired (q : Requester) (v : Word)
  /-- R403: The holder's agent renews the lease and Slate acknowledges it. -/
  | leaseRenewal (f : FlintId)
  /-- R403: 64 µs pass with no accepted renewal and the lease expires. -/
  | leaseExpired
  /-- R405: The agent's count reaches 60 µs and the region stops issuing actions and line starts. -/
  | agentLapse (f : FlintId)
  /-- R416: The 8 µs guard ends and Slate grants the lease to an eligible standby, or leaves it NONE. -/
  | leaseGuardEnd
  /-- R415: Writing SWITCH requests a voluntary switch-over. -/
  | switch (q : Requester)
  /-- R415: Once earlier actions are acknowledged the holder sends the release record and releases the lease. -/
  | switchRelease
  /-- R409: A mirror record reaches the standby and is consumed and compared. -/
  | mirrorRecord (rec : MirrorRec)
  /-- R411: The mismatch self-test round ends and its outcome is applied. -/
  | selftestRoundEnd (passedA passedB : Bool)
  /-- R412: Writing SELFTEST starts an immediate round of every item in both regions. -/
  | selftest (q : Requester)
  /-- R412: A self-test item's round completes. -/
  | selftestItem (f : FlintId) (item : Fin 6) (passed : Bool)
  /-- R419: No cold grant comes within 1 ms. -/
  | coldTakeoverTimeout
  /-- R494: The Slate supply rises through its threshold and a chip reset occurs. -/
  | por
  /-- R414: A Flint region completes its boot self-test and is granted the lease. -/
  | flintSelftestDone (f : FlintId) (passed : Bool)
  /-- R452: Sections are applied, the first program loaded and BOOT_DONE raised. -/
  | bootDone
  /-- R482: WAKE_N stays low for 100 µs. -/
  | wakePinLow
  /-- R482: SLT_WAKE_TIMER counts to 0. -/
  | wakeTimerExpired
  /-- R482: PFAIL_N stays high for 10 ms after an abrupt loss. -/
  | pfailReturn
  /-- R487: REFCLK stays in range for 10 ms after a fault. -/
  | clockReturn
  /-- R459: Writing REBOOT with its key resets every region and boots. -/
  | reboot (q : Requester) (v : Word)
  /-- R450: Writing CONFIRM sets the booted slot's unconfirmed count to 0. -/
  | confirm (q : Requester)
  /-- R447: OTP action WRITE_C0 or WRITE_C1 programs a customer digest. -/
  | otpWriteCustomer (q : Requester) (v : Word)
  /-- R447: OTP action REVOKE_C0 or REVOKE_C1 revokes a customer slot. -/
  | otpRevokeCustomer (q : Requester) (v : Word)
  /-- R447: OTP action LOCK sets CUSTOMER_LOCK. -/
  | otpLock (q : Requester) (v : Word)
  /-- R447: OTP action ROLLBACK blows fuses up to SECURITY_VERSION. -/
  | otpRollback (q : Requester) (v : Word)
  /-- R447: An OTP action finishes or is refused. -/
  | otpWritten
  /-- R458: Writing START asks Slate to form an attestation report. -/
  | attestStart (h : HostId)
  /-- R458: An attestation report is signed and placed. -/
  | attestDone (h : HostId)
  /-- R463: Host command WRITE queues 1 to 64 register or aperture words. -/
  | write (h : HostId) (fr : FrameEnd) (addr : Word) (count : Byte) (data : List Word)
  /-- R463: Host command READ reads words, or answers PENDING. -/
  | read (h : HostId) (fr : FrameEnd) (addr : Word) (count : Byte) (ready : Bool)
  /-- R463: Host command FETCH returns the data of the pending read. -/
  | fetch (h : HostId) (fr : FrameEnd) (ready : Bool)
  /-- R463: Host command STATUS returns IRQ status, fill and buffer state. -/
  | status (h : HostId) (fr : FrameEnd)
  /-- R469: Host command SEM_TRY tries to take a semaphore. -/
  | semTry (h : HostId) (fr : FrameEnd) (sem : Byte)
  /-- R469: Host command SEM_ACQUIRE takes a semaphore or joins its waiter list. -/
  | semAcquire (h : HostId) (fr : FrameEnd) (sem : Byte)
  /-- R436: Host command SEM_RELEASE frees a semaphore and grants it to the head of the list. -/
  | semRelease (h : HostId) (fr : FrameEnd) (sem : Byte)
  /-- R469: Host command SEM_CANCEL removes the host from the waiter list. -/
  | semCancel (h : HostId) (fr : FrameEnd) (sem : Byte)
  /-- R470: Host command SEM_BREAK releases a semaphore held by a host. -/
  | semBreak (h : HostId) (fr : FrameEnd) (sem : Byte)
  /-- R476: Host command FLASH_READ reads flash bytes. -/
  | flashRead (h : HostId) (fr : FrameEnd) (offset : Word) (count : Byte) (ready : Bool)
  /-- R476: Host command FLASH_PROGRAM programs a page outside protected slots. -/
  | flashProgram (h : HostId) (fr : FrameEnd) (offset : Word) (count : Byte) (data : List Byte)
  /-- R476: Host command FLASH_ERASE erases a 4 KiB or 64 KiB block. -/
  | flashErase (h : HostId) (fr : FrameEnd) (offset : Word) (size : Byte)
  /-- R476: A flash program or erase completes. -/
  | flashDone (ok : Bool)
  /-- R476: A flash command not finished within 3 s ends TIMEOUT. -/
  | flashTimeout
  /-- R472: A read of SLT_HOST_EVT_0 removes the oldest event and latches its argument and time. -/
  | eventQueueRead (h : HostId)
  /-- R474: A write to SLT_HOST_DOORBELL sends a doorbell to every Flint region. -/
  | doorbell (h : HostId) (v : Word)
  /-- R475: A frame-program write to FLA_HOST_MAIL raises MAILBOX. -/
  | mailbox (f : FlintId) (v : Word)
  /-- R480: Writing SLEEP with its key enters STANDBY. -/
  | sleep (q : Requester) (v : Word)
  /-- R488: A write to SLT_PWR_REQ asks Slate to power regions on or off. -/
  | pwrRequest (q : Requester) (v : Word)
  /-- R489: A region finishes powering down or up. -/
  | regionPowered (r : Fin 16)
  /-- R486: A REFCLK measurement window ends and the rate is judged. -/
  | refclkWindow (cycles : Nat)
  /-- R486: The crystal stops or drifts and Slate runs on its internal oscillator. -/
  | xtalFault
  /-- R495: SYS_RESET_N falls and a chip reset applies after any needed discharge. -/
  | sysReset
  /-- R305: 2 ms after the timing stops in the power-off sequence, script 2 (DRIVE_OFF) starts. -/
  | driveOffDelay
  /-- R482: A fall of HA_CS_N or HB_CS_N in STANDBY wakes the P9 with source HOST_A or HOST_B, and that frame gets no answer. -/
  | hostWake (a b : Bool) (wakeN : Bool := false)
  /-- R494: SYS_RESET_N rises, ending the held chip reset and waking the P9 with source RESET. -/
  | sysResetRelease
  /-- R486: No REFCLK edge is seen for 1 µs while REFCLK_EN is high, and REFCLK_FAULT is raised with cause STOPPED. -/
  | refclkStopped
  /-- R52: The panel does not answer a FLASH_READ of the map within 1 ms, and the load ends REJECTED by check 1. -/
  | calmapReadTimeout
  /-- R452: Neither Flint region passes its boot self-test within 5 ms, and the P9 enters recovery with reason FLINT. -/
  | flintSelftestTimeout
  /-- R333: A write of TEST in QTZ_PORTn_LINK_CTRL or OBS_LINK_CTRL sends lanes into the TEST state, and clearing it takes them out. -/
  | laneTest (r : LinkRegion) (p : Fin 4) (q : Requester) (v : Word)
  /-- R534: VHOLD falls below 2.45 V, Slate's power-on reset asserts, and the P9 goes to OFF. -/
  | porAsserted
deriving DecidableEq, Repr

end Sys2Proof
end

