-- ==== Sys2Proof/Config.lean ====
section
/-! DEFINITION. The values the spec leaves open: opaque constants, of which nothing can be proved. Each has a row in notes/assumptions. -/

namespace Sys2Proof

/-- A byte that the spec leaves undefined: what it belongs to, where, and the use count. -/
opaque Config.freeByte : Nat → Nat → Byte

/-- A number that the spec leaves open: which one, and the use count. -/
opaque Config.freeNat : Nat → Nat → Nat

/-- The code lengths an encoder builds for a DYNAMIC block from its symbol counts (R229 fixes only their limit): the coding engine takes them where they obey R227 and give every symbol that occurs a code. -/
opaque Config.codeLengths : List Nat → List Nat

end Sys2Proof
end

