-- ==== Sys2Proof/Machine/Bits.lean ====
section
/-! DEFINITION. Bit fields, byte order, checksums, and the sparse lists in canonical form that hold registers and memory (R6, R8, R9). -/

namespace Sys2Proof.Machine

/-- Bits [lo + width - 1 : lo] of a number (R6). -/
def bitsOf (n lo width : Nat) : Nat := n / 2 ^ lo % 2 ^ width

/-- Bit `i` of a number. -/
def bitAt (n i : Nat) : Bool := n / 2 ^ i % 2 == 1

/-- 1 for true, 0 for false. -/
def b2n (b : Bool) : Nat := if b then 1 else 0

/-- Field [lo + width - 1 : lo] of a register word (R6). -/
def fld (w : Word) (lo width : Nat) : Nat := bitsOf w.toNat lo width

/-- Bit `lo` of a register word. -/
def flag (w : Word) (lo : Nat) : Bool := fld w lo 1 == 1

/-- The mask of field [lo + width - 1 : lo]. -/
def fldMask (lo width : Nat) : Word := BitVec.ofNat 32 ((2 ^ width - 1) * 2 ^ lo)

/-- A register word with one field replaced; the other bits stay (R8). -/
def setFld (w : Word) (lo width v : Nat) : Word :=
  (w &&& ~~~ (fldMask lo width)) ||| (BitVec.ofNat 32 (v % 2 ^ width * 2 ^ lo))

/-- A two's complement reading of the low `width` bits. -/
def signedOf (n width : Nat) : Int :=
  let m := n % 2 ^ width
  if m < 2 ^ (width - 1) then (m : Int) else (m : Int) - (2 ^ width : Nat)

/-- The low `width` bits of an integer, as a number. -/
def wrapInt (i : Int) (width : Nat) : Nat := (i % ((2 ^ width : Nat) : Int)).toNat

/-- An integer limited to the range of `width` bits, two's complement (a saturating field). -/
def satInt (i : Int) (width : Nat) : Int :=
  max (-((2 ^ (width - 1) : Nat) : Int)) (min (((2 ^ (width - 1) : Nat) : Int) - 1) i)

/-- A counter that saturates at all ones (R500, R219, R424 and others). -/
def satAdd (w : Word) (n : Nat) : Word := BitVec.ofNat 32 (min 0xFFFFFFFF (w.toNat + n))

/-- A number's `count` bytes, least significant first (R6). -/
def leBytes (n : Nat) : Nat → List Byte
  | 0 => []
  | count + 1 => BitVec.ofNat 8 n :: leBytes (n / 256) count

/-- The number that bytes spell, least significant first (R6). -/
def leNat : List Byte → Nat
  | [] => 0
  | b :: r => b.toNat + 256 * leNat r

/-- The number that bytes spell, most significant first. -/
def beNat (bs : List Byte) : Nat := leNat bs.reverse

/-- A number's `count` bytes, most significant first. -/
def beBytes (n count : Nat) : List Byte := (leBytes n count).reverse

/-- Bytes [o, o + len) of a list; a byte beyond the end reads 0. -/
def sliceBytes (bs : List Byte) (o len : Nat) : List Byte :=
  (List.range len).map fun i => bs.getD (o + i) 0

/-- The little-endian field of `len` bytes at offset `o`. -/
def leAt (bs : List Byte) (o len : Nat) : Nat := leNat (sliceBytes bs o len)

/-- The 32-bit words of a byte list. -/
def wordsOfBytes : List Byte → List Word
  | a :: b :: c :: d :: r => BitVec.ofNat 32 (leNat [a, b, c, d]) :: wordsOfBytes r
  | _ => []

/-- Sum of a list of numbers. -/
def sumNat (l : List Nat) : Nat := l.foldl (· + ·) 0

/-- The integer square root, rounded down, by halving `fuel` times. -/
def isqrtGo (n : Nat) : Nat → Nat → Nat → Nat
  | 0, lo, _ => lo
  | fuel + 1, lo, hi =>
    if hi ≤ lo + 1 then lo
    else
      let m := (lo + hi) / 2
      if m * m ≤ n then isqrtGo n fuel m hi else isqrtGo n fuel lo m

/-- The integer square root, rounded down. -/
def isqrt (n : Nat) : Nat := isqrtGo n (n.log2 + 2) 0 (n + 1)

/-! Checksums. A reflected CRC of any width is held as a number below 2^width. -/

/-- One bit of a reflected CRC. -/
def crcBit (poly c : Nat) : Nat := if c % 2 = 1 then Nat.xor (c / 2) poly else c / 2

/-- `k` bits of a reflected CRC. -/
def crcBits (poly : Nat) : Nat → Nat → Nat
  | 0, c => c
  | k + 1, c => crcBits poly k (crcBit poly c)

/-- A byte into a reflected CRC. -/
def crcByte (poly c : Nat) (b : Byte) : Nat := crcBits poly 8 (Nat.xor c b.toNat)

/-- CRC-32 of IEEE 802.3: reflected polynomial 0xEDB88320, start and final inversion. -/
def crc32 (bs : List Byte) : Word :=
  BitVec.ofNat 32 (Nat.xor (bs.foldl (crcByte 0xEDB88320) 0xFFFFFFFF) 0xFFFFFFFF)

/-- One bit of the CRC-16 of R315: polynomial 0x1021, not reflected. -/
def crc16Bits : Nat → Nat → Nat
  | 0, c => c
  | k + 1, c => crc16Bits k (if c / 32768 = 1 then Nat.xor (c * 2 % 65536) 0x1021 else c * 2 % 65536)

/-- The CRC-16 of R315: initial value 0xFFFF, no reflection, no final XOR. -/
def crc16 (bs : List Byte) : Nat := bs.foldl (fun c b => crc16Bits 8 (Nat.xor c (b.toNat * 256))) 0xFFFF

/-! Sparse lists: addresses strictly rising, an unlisted address reads as the map's default. -/

/-- The entry listed at an address. -/
def smGet? {α : Type} : List (Nat × α) → Nat → Option α
  | [], _ => none
  | (a, v) :: r, k => if a = k then some v else smGet? r k

/-- The list with `v` at address `k`, in its place. -/
def smSet {α : Type} : List (Nat × α) → Nat → α → List (Nat × α)
  | [], k, v => [(k, v)]
  | (a, w) :: r, k, v =>
    if k < a then (k, v) :: (a, w) :: r
    else if k = a then (k, v) :: r
    else (a, w) :: smSet r k v

/-- The list without address `k`. -/
def smErase {α : Type} (m : List (Nat × α)) (k : Nat) : List (Nat × α) := m.filter fun e => e.1 != k

/-- Read with a default. -/
def smRead {α : Type} (dflt : Nat → α) (m : List (Nat × α)) (k : Nat) : α := (smGet? m k).getD (dflt k)

/-- Write, keeping the form: an entry equal to the default is not listed. -/
def smWrite {α : Type} [DecidableEq α] (dflt : Nat → α) (m : List (Nat × α)) (k : Nat) (v : α) : List (Nat × α) :=
  if v = dflt k then smErase m k else smSet m k v

/-- Addresses strictly rising. -/
def smSorted {α : Type} : List (Nat × α) → Bool
  | (a, _) :: (b, w) :: r => decide (a < b) && smSorted ((b, w) :: r)
  | _ => true

/-- No entry equal to what an unlisted address reads as. -/
def smNoDefault {α : Type} [DecidableEq α] (dflt : Nat → α) (m : List (Nat × α)) : Bool :=
  m.all fun e => decide (e.2 ≠ dflt e.1)

/-- The canonical form of a sparse list. -/
def smWf {α : Type} [DecidableEq α] (dflt : Nat → α) (m : List (Nat × α)) : Bool :=
  smSorted m && smNoDefault dflt m

/-- Many writes, at rising addresses from `k`, one value each. -/
def smWriteList {α : Type} [DecidableEq α] (dflt : Nat → α) : List (Nat × α) → Nat → List α → List (Nat × α)
  | m, _, [] => m
  | m, k, v :: r => smWriteList dflt (smWrite dflt m k v) (k + 1) r

end Sys2Proof.Machine
end

