-- ==== Sys2Proof/Machine/RegMap.lean ====
section
/-! DEFINITION. The register map of 21_register_map.md: each register's key, the fields a write reaches, and the value it holds after reset (R499 to R510).
A register's key is region × 0x100000 + offset; copies of R511 add copy × 0x1000000. Fields, encodings and reset values are the field tables of the chapters. -/

namespace Sys2Proof.Machine

/-- The values a field's table lists (R9): any, at most n, from a to b, those in a list, or a permutation of 0 to 7 in three bits each (R177). -/
inductive Legal where
  | any
  | upTo (n : Nat)
  | range (a b : Nat)
  | oneOf (l : List Nat)
  | perm8
deriving DecidableEq, Repr

/-- Whether a field's table lists an encoding (R9). -/
def Legal.ok (l : Legal) (v : Nat) : Bool :=
  match l with
  | .any => true
  | .upTo n => decide (v ≤ n)
  | .range a b => decide (a ≤ v) && decide (v ≤ b)
  | .oneOf vs => vs.contains v
  | .perm8 => (List.range 8).all fun n => (List.range 8).any fun z => v / 8 ^ z % 8 == n

/-- One writable field: its lowest bit, its width, the encodings its table lists. -/
structure RwField where
  lo : Nat
  width : Nat
  legal : Legal
deriving DecidableEq, Repr

/-- What a register map row gives: the RW fields, the W1C bits, the reset value (R8, R514). -/
structure RegDesc where
  rw : List RwField
  w1c : Word
  reset : Word
deriving DecidableEq, Repr

/-- A register with no writable field that resets to 0, and an offset the map assigns to no register (R512). -/
def descNone : RegDesc := ⟨[], 0, 0⟩

/-- Offset `o` lies in an array of `count` words, `stride` apart, from `base`. -/
def inArr (o base count stride : Nat) : Bool :=
  decide (base ≤ o) && decide (o < base + count * stride) && (o - base) % stride == 0

/-- Key of SLT_EVT_DROPPED: offset 0x0100 of region 0 (R499). -/
def sltEvtDropped : Nat := 0x000100

/-- Key of SLT_TIE_STATUS: offset 0x0104 of region 0 (R499). -/
def sltTieStatus : Nat := 0x000104

/-- Key of SLT_SEM_TIE: offset 0x0108 of region 0 (R499). -/
def sltSemTie : Nat := 0x000108

/-- Key of SLT_SEM_OWNER_LO: offset 0x010c of region 0 (R499). -/
def sltSemOwnerLo : Nat := 0x00010C

/-- Key of SLT_SEM_OWNER_HI: offset 0x0110 of region 0 (R499). -/
def sltSemOwnerHi : Nat := 0x000110

/-- Key of SLT_PWR_CTRL: offset 0x0200 of region 0 (R499). -/
def sltPwrCtrl : Nat := 0x000200

/-- Key of SLT_PWR_REQ: offset 0x0204 of region 0 (R499). -/
def sltPwrReq : Nat := 0x000204

/-- Key of SLT_PWR_STATE: offset 0x0208 of region 0 (R499). -/
def sltPwrState : Nat := 0x000208

/-- Key of SLT_PWR_STATUS: offset 0x020c of region 0 (R499). -/
def sltPwrStatus : Nat := 0x00020C

/-- Key of SLT_WAKE_CTRL: offset 0x0210 of region 0 (R499). -/
def sltWakeCtrl : Nat := 0x000210

/-- Key of SLT_WAKE_TIMER: offset 0x0214 of region 0 (R499). -/
def sltWakeTimer : Nat := 0x000214

/-- Key of SLT_WAKE_STATUS: offset 0x0218 of region 0 (R499). -/
def sltWakeStatus : Nat := 0x000218

/-- Key of SLT_LEASE_CTRL: offset 0x0300 of region 0 (R499). -/
def sltLeaseCtrl : Nat := 0x000300

/-- Key of SLT_LEASE_STATUS: offset 0x0304 of region 0 (R499). -/
def sltLeaseStatus : Nat := 0x000304

/-- Key of SLT_SWITCHOVERS: offset 0x0308 of region 0 (R499). -/
def sltSwitchovers : Nat := 0x000308

/-- Key of SLT_LEASE_EXPIRIES: offset 0x030c of region 0 (R499). -/
def sltLeaseExpiries : Nat := 0x00030C

/-- Key of SLT_THERM_CTRL: offset 0x0600 of region 0 (R499). -/
def sltThermCtrl : Nat := 0x000600

/-- Key of SLT_THERM_STATUS: offset 0x0604 of region 0 (R499). -/
def sltThermStatus : Nat := 0x000604

/-- Key of SLT_THERM_RESTART: offset 0x0608 of region 0 (R499). -/
def sltThermRestart : Nat := 0x000608

/-- Key of SLT_PANEL_TEMP: offset 0x060c of region 0 (R499). -/
def sltPanelTemp : Nat := 0x00060C

/-- Key of SLT_CAL_CTRL: offset 0x0640 of region 0 (R499). -/
def sltCalCtrl : Nat := 0x000640

/-- Key of SLT_CAL_STATUS: offset 0x0644 of region 0 (R499). -/
def sltCalStatus : Nat := 0x000644

/-- Key of SLT_CAL_GAIN: offset 0x0648 of region 0 (R499). -/
def sltCalGain : Nat := 0x000648

/-- Key of SLT_CAL_OFFSET: offset 0x064c of region 0 (R499). -/
def sltCalOffset : Nat := 0x00064C

/-- Key of SLT_CAL_TIME_SEC_LO: offset 0x0650 of region 0 (R499). -/
def sltCalTimeSecLo : Nat := 0x000650

/-- Key of SLT_CAL_TIME_SEC_HI: offset 0x0654 of region 0 (R499). -/
def sltCalTimeSecHi : Nat := 0x000654

/-- Key of SLT_CAL_RUNS: offset 0x0658 of region 0 (R499). -/
def sltCalRuns : Nat := 0x000658

/-- Key of SLT_CAL_CELLS_REJECTED: offset 0x065c of region 0 (R499). -/
def sltCalCellsRejected : Nat := 0x00065C

/-- Key of SLT_THERM_SHUTDOWNS: offset 0x0660 of region 0 (R499). -/
def sltThermShutdowns : Nat := 0x000660

/-- Key of SLT_BOOT_CTRL: offset 0x0800 of region 0 (R499). -/
def sltBootCtrl : Nat := 0x000800

/-- Key of SLT_BOOT_STATUS: offset 0x0804 of region 0 (R499). -/
def sltBootStatus : Nat := 0x000804

/-- Key of SLT_DEVICE_REV: offset 0x0808 of region 0 (R499). -/
def sltDeviceRev : Nat := 0x000808

/-- Key of SLT_OTP_CTRL: offset 0x080c of region 0 (R499). -/
def sltOtpCtrl : Nat := 0x00080C

/-- Key of SLT_OTP_STATUS: offset 0x0810 of region 0 (R499). -/
def sltOtpStatus : Nat := 0x000810

/-- Key of SLT_ATTEST_CTRL: offset 0x0a00 of region 0 (R499). -/
def sltAttestCtrl : Nat := 0x000A00

/-- Key of SLT_ATTEST_STATUS: offset 0x0a04 of region 0 (R499). -/
def sltAttestStatus : Nat := 0x000A04

/-- Key of SLT_HOST_VERSION: offset 0x0c00 of region 0 (R499). -/
def sltHostVersion : Nat := 0x000C00

/-- Key of SLT_HOST_PROTO: offset 0x0c04 of region 0 (R499). -/
def sltHostProto : Nat := 0x000C04

/-- Key of SLT_HOST_APERTURE_LO: offset 0x0c08 of region 0 (R499). -/
def sltHostApertureLo : Nat := 0x000C08

/-- Key of SLT_HOST_APERTURE_HI: offset 0x0c0c of region 0 (R499). -/
def sltHostApertureHi : Nat := 0x000C0C

/-- Key of SLT_HOST_IRQ_STATUS: offset 0x0c10 of region 0 (R499). -/
def sltHostIrqStatus : Nat := 0x000C10

/-- Key of SLT_HOST_IRQ_EN: offset 0x0c14 of region 0 (R499). -/
def sltHostIrqEn : Nat := 0x000C14

/-- Key of SLT_HOST_EVT_MASK: offset 0x0c18 of region 0 (R499). -/
def sltHostEvtMask : Nat := 0x000C18

/-- Key of SLT_HOST_EVT_STATUS: offset 0x0c1c of region 0 (R499). -/
def sltHostEvtStatus : Nat := 0x000C1C

/-- Key of SLT_HOST_EVT_LOST: offset 0x0c30 of region 0 (R499). -/
def sltHostEvtLost : Nat := 0x000C30

/-- Key of SLT_HOST_WERR_ADDR: offset 0x0c34 of region 0 (R499). -/
def sltHostWerrAddr : Nat := 0x000C34

/-- Key of SLT_HOST_WERR_STATUS: offset 0x0c38 of region 0 (R499). -/
def sltHostWerrStatus : Nat := 0x000C38

/-- Key of SLT_HOST_DOORBELL: offset 0x0c3c of region 0 (R499). -/
def sltHostDoorbell : Nat := 0x000C3C

/-- Key of SLT_HOST_FLASH_STATUS: offset 0x0c40 of region 0 (R499). -/
def sltHostFlashStatus : Nat := 0x000C40

/-- Key of SLT_TEMP: offset 0x0400 + 0x4 × n, n below 68 of region 0 (R499). -/
def sltTemp (n : Nat) : Nat := 0x000400 + 0x4 * n

/-- Key of SLT_REMOTE_CTRL: offset 0x0610 + 0x4 × n, n below 4 of region 0 (R499). -/
def sltRemoteCtrl (n : Nat) : Nat := 0x000610 + 0x4 * n

/-- Key of SLT_PTH_CTRL: offset 0x0620 + 0x8 × n, n below 4 of region 0 (R499). -/
def sltPthCtrl (n : Nat) : Nat := 0x000620 + 0x8 * n

/-- Key of SLT_PTH_PULLUP: offset 0x0624 + 0x8 × n, n below 4 of region 0 (R499). -/
def sltPthPullup (n : Nat) : Nat := 0x000624 + 0x8 * n

/-- Key of SLT_OTP_DATA: offset 0x0840 + 0x4 × n, n below 16 of region 0 (R499). -/
def sltOtpData (n : Nat) : Nat := 0x000840 + 0x4 * n

/-- Key of SLT_DEVICE_SERIAL: offset 0x0880 + 0x4 × n, n below 4 of region 0 (R499). -/
def sltDeviceSerial (n : Nat) : Nat := 0x000880 + 0x4 * n

/-- Key of SLT_DEVICE_PUBKEY: offset 0x08a0 + 0x4 × n, n below 8 of region 0 (R499). -/
def sltDevicePubkey (n : Nat) : Nat := 0x0008A0 + 0x4 * n

/-- Key of SLT_DEVICE_CERT: offset 0x08c0 + 0x4 × n, n below 16 of region 0 (R499). -/
def sltDeviceCert (n : Nat) : Nat := 0x0008C0 + 0x4 * n

/-- Key of SLT_BOOT_DIGEST: offset 0x0900 + 0x4 × n, n below 16 of region 0 (R499). -/
def sltBootDigest (n : Nat) : Nat := 0x000900 + 0x4 * n

/-- Key of SLT_ATTEST_NONCE: offset 0x0a20 + 0x4 × n, n below 8 of region 0 (R499). -/
def sltAttestNonce (n : Nat) : Nat := 0x000A20 + 0x4 * n

/-- Key of SLT_ATTEST_REPORT: offset 0x0b00 + 0x4 × n, n below 64 of region 0 (R499). -/
def sltAttestReport (n : Nat) : Nat := 0x000B00 + 0x4 * n

/-- Key of SLT_HOST_EVT: offset 0x0c20 + 0x4 × n, n below 4 of region 0 (R499). -/
def sltHostEvt (n : Nat) : Nat := 0x000C20 + 0x4 * n

/-- Key of FLA_PROG_CTRL in the window of region r, a Flint region: offset 0x0100 (R499). -/
def flaProgCtrl (r : Nat) : Nat := r * 0x100000 + 0x100

/-- Key of FLA_PROG_ADDR_LO in the window of region r, a Flint region: offset 0x0104 (R499). -/
def flaProgAddrLo (r : Nat) : Nat := r * 0x100000 + 0x104

/-- Key of FLA_PROG_ADDR_HI in the window of region r, a Flint region: offset 0x0108 (R499). -/
def flaProgAddrHi (r : Nat) : Nat := r * 0x100000 + 0x108

/-- Key of FLA_SEQ_STATUS in the window of region r, a Flint region: offset 0x010c (R499). -/
def flaSeqStatus (r : Nat) : Nat := r * 0x100000 + 0x10c

/-- Key of FLA_WDOG in the window of region r, a Flint region: offset 0x0110 (R499). -/
def flaWdog (r : Nat) : Nat := r * 0x100000 + 0x110

/-- Key of FLA_DMA_STATUS in the window of region r, a Flint region: offset 0x0114 (R499). -/
def flaDmaStatus (r : Nat) : Nat := r * 0x100000 + 0x114

/-- Key of FLA_ISA_VERSION in the window of region r, a Flint region: offset 0x0118 (R499). -/
def flaIsaVersion (r : Nat) : Nat := r * 0x100000 + 0x118

/-- Key of FLA_BIND_RESULT in the window of region r, a Flint region: offset 0x011c (R499). -/
def flaBindResult (r : Nat) : Nat := r * 0x100000 + 0x11c

/-- Key of FLA_LINE_MATCH in the window of region r, a Flint region: offset 0x0120 (R499). -/
def flaLineMatch (r : Nat) : Nat := r * 0x100000 + 0x120

/-- Key of FLA_TIMING_CTRL in the window of region r, a Flint region: offset 0x0200 (R499). -/
def flaTimingCtrl (r : Nat) : Nat := r * 0x100000 + 0x200

/-- Key of FLA_TIMING_VT in the window of region r, a Flint region: offset 0x0204 (R499). -/
def flaTimingVt (r : Nat) : Nat := r * 0x100000 + 0x204

/-- Key of FLA_TIMING_LINE_PS in the window of region r, a Flint region: offset 0x0208 (R499). -/
def flaTimingLinePs (r : Nat) : Nat := r * 0x100000 + 0x208

/-- Key of FLA_SHADOW_STATUS in the window of region r, a Flint region: offset 0x0300 (R499). -/
def flaShadowStatus (r : Nat) : Nat := r * 0x100000 + 0x300

/-- Key of FLA_ACTION_LO in the window of region r, a Flint region: offset 0x0304 (R499). -/
def flaActionLo (r : Nat) : Nat := r * 0x100000 + 0x304

/-- Key of FLA_ACTION_HI in the window of region r, a Flint region: offset 0x0308 (R499). -/
def flaActionHi (r : Nat) : Nat := r * 0x100000 + 0x308

/-- Key of FLA_MISMATCHES in the window of region r, a Flint region: offset 0x030c (R499). -/
def flaMismatches (r : Nat) : Nat := r * 0x100000 + 0x30c

/-- Key of FLA_SHADOW_LOSSES in the window of region r, a Flint region: offset 0x0310 (R499). -/
def flaShadowLosses (r : Nat) : Nat := r * 0x100000 + 0x310

/-- Key of FLA_DOORBELL_HA in the window of region r, a Flint region: offset 0x0400 (R499). -/
def flaDoorbellHa (r : Nat) : Nat := r * 0x100000 + 0x400

/-- Key of FLA_DOORBELL_HB in the window of region r, a Flint region: offset 0x0404 (R499). -/
def flaDoorbellHb (r : Nat) : Nat := r * 0x100000 + 0x404

/-- Key of FLA_DOORBELL_SEQ in the window of region r, a Flint region: offset 0x0408 (R499). -/
def flaDoorbellSeq (r : Nat) : Nat := r * 0x100000 + 0x408

/-- Key of FLA_HOST_MAIL in the window of region r, a Flint region: offset 0x040c (R499). -/
def flaHostMail (r : Nat) : Nat := r * 0x100000 + 0x40c

/-- Key of FLA_EVMAP in the window of region r, a Flint region: offset 0x0180 + 0x4 × n, n below 32 (R499). -/
def flaEvmap (r n : Nat) : Nat := r * 0x100000 + 0x180 + 0x4 * n

/-- Key of QTZ_PORT_CTRL: offset 0x0100 + 0x100 × n, n below 4 of region 3 (R499). -/
def qtzPortCtrl (n : Nat) : Nat := 0x300100 + 0x100 * n

/-- Key of QTZ_PORT_STATUS: offset 0x0104 + 0x100 × n, n below 4 of region 3 (R499). -/
def qtzPortStatus (n : Nat) : Nat := 0x300104 + 0x100 * n

/-- Key of QTZ_PORT_LSTORE_BASE_LO: offset 0x0108 + 0x100 × n, n below 4 of region 3 (R499). -/
def qtzPortLstoreBaseLo (n : Nat) : Nat := 0x300108 + 0x100 * n

/-- Key of QTZ_PORT_LSTORE_BASE_HI: offset 0x010c + 0x100 × n, n below 4 of region 3 (R499). -/
def qtzPortLstoreBaseHi (n : Nat) : Nat := 0x30010C + 0x100 * n

/-- Key of QTZ_PORT_LSTORE_SIZE: offset 0x0110 + 0x100 × n, n below 4 of region 3 (R499). -/
def qtzPortLstoreSize (n : Nat) : Nat := 0x300110 + 0x100 * n

/-- Key of QTZ_PORT_SKIPPED: offset 0x0114 + 0x100 × n, n below 4 of region 3 (R499). -/
def qtzPortSkipped (n : Nat) : Nat := 0x300114 + 0x100 * n

/-- Key of QTZ_PORT_ABANDONED: offset 0x0118 + 0x100 × n, n below 4 of region 3 (R499). -/
def qtzPortAbandoned (n : Nat) : Nat := 0x300118 + 0x100 * n

/-- Key of QTZ_PORT_UNKNOWN: offset 0x011c + 0x100 × n, n below 4 of region 3 (R499). -/
def qtzPortUnknown (n : Nat) : Nat := 0x30011C + 0x100 * n

/-- Key of QTZ_PORT_LINK_CTRL: offset 0x0120 + 0x100 × n, n below 4 of region 3 (R499). -/
def qtzPortLinkCtrl (n : Nat) : Nat := 0x300120 + 0x100 * n

/-- Key of QTZ_PORT_LINK_STATUS: offset 0x0124 + 0x100 × n, n below 4 of region 3 (R499). -/
def qtzPortLinkStatus (n : Nat) : Nat := 0x300124 + 0x100 * n

/-- Key of QTZ_FENCE_LO: offset 0x0500 of region 3 (R499). -/
def qtzFenceLo : Nat := 0x300500

/-- Key of QTZ_FENCE_HI: offset 0x0504 of region 3 (R499). -/
def qtzFenceHi : Nat := 0x300504

/-- Key of QTZ_BIND_TABLE_LO: offset 0x0508 of region 3 (R499). -/
def qtzBindTableLo : Nat := 0x300508

/-- Key of QTZ_BIND_TABLE_HI: offset 0x050c of region 3 (R499). -/
def qtzBindTableHi : Nat := 0x30050C

/-- Key of QTZ_EYE_CTRL: offset 0x0510 of region 3 (R499). -/
def qtzEyeCtrl : Nat := 0x300510

/-- Key of QTZ_EYE_RESULT: offset 0x0514 of region 3 (R499). -/
def qtzEyeResult : Nat := 0x300514

/-- Key of GAL_ISA_VERSION in the window of region r, a Galena region: offset 0x0100 (R499). -/
def galIsaVersion (r : Nat) : Nat := r * 0x100000 + 0x100

/-- Key of GAL_SERVICE in the window of region r, a Galena region: offset 0x0104 (R499). -/
def galService (r : Nat) : Nat := r * 0x100000 + 0x104

/-- Key of GAL_LAUNCH_STATUS in the window of region r, a Galena region: offset 0x0108 (R499). -/
def galLaunchStatus (r : Nat) : Nat := r * 0x100000 + 0x108

/-- Key of GAL_KFAULT_BUDGET in the window of region r, a Galena region: offset 0x0200 (R499). -/
def galKfaultBudget (r : Nat) : Nat := r * 0x100000 + 0x200

/-- Key of GAL_KFAULT_SAMPLE in the window of region r, a Galena region: offset 0x0204 (R499). -/
def galKfaultSample (r : Nat) : Nat := r * 0x100000 + 0x204

/-- Key of GAL_KFAULT_EMIT in the window of region r, a Galena region: offset 0x0208 (R499). -/
def galKfaultEmit (r : Nat) : Nat := r * 0x100000 + 0x208

/-- Key of GAL_KFAULT_CONST in the window of region r, a Galena region: offset 0x020c (R499). -/
def galKfaultConst (r : Nat) : Nat := r * 0x100000 + 0x20c

/-- Key of GAL_KFAULT_REFUSED in the window of region r, a Galena region: offset 0x0210 (R499). -/
def galKfaultRefused (r : Nat) : Nat := r * 0x100000 + 0x210

/-- Key of GAL_STRIPES_LATE in the window of region r, a Galena region: offset 0x0214 (R499). -/
def galStripesLate (r : Nat) : Nat := r * 0x100000 + 0x214

/-- Key of GAL_LAUNCH_DROPPED in the window of region r, a Galena region: offset 0x0218 (R499). -/
def galLaunchDropped (r : Nat) : Nat := r * 0x100000 + 0x218

/-- Key of GAL_TILES_HANDED in the window of region r, a Galena region: offset 0x021c (R499). -/
def galTilesHanded (r : Nat) : Nat := r * 0x100000 + 0x21c

/-- Key of GAL_SCACHE_MISS in the window of region r, a Galena region: offset 0x0220 (R499). -/
def galScacheMiss (r : Nat) : Nat := r * 0x100000 + 0x220

/-- Key of GAL_LCACHE_MISS in the window of region r, a Galena region: offset 0x0224 (R499). -/
def galLcacheMiss (r : Nat) : Nat := r * 0x100000 + 0x224

/-- Key of GAL_CACHE_DROPPED in the window of region r, a Galena region: offset 0x0228 (R499). -/
def galCacheDropped (r : Nat) : Nat := r * 0x100000 + 0x228

/-- Key of GAL_CELL_RETIRED in the window of region r, a Galena region: offset 0x0140 + 0x4 × n, n below 12 (R499). -/
def galCellRetired (r n : Nat) : Nat := r * 0x100000 + 0x140 + 0x4 * n

/-- Key of BXT_CONFIG: offset 0x0100 of region 8 (R499). -/
def bxtConfig : Nat := 0x800100

/-- Key of BXT_STATUS: offset 0x0104 of region 8 (R499). -/
def bxtStatus : Nat := 0x800104

/-- Key of BXT_TOP_LO: offset 0x0108 of region 8 (R499). -/
def bxtTopLo : Nat := 0x800108

/-- Key of BXT_TOP_HI: offset 0x010c of region 8 (R499). -/
def bxtTopHi : Nat := 0x80010C

/-- Key of BXT_CH_HASH: offset 0x0120 + 0x4 × n, n below 5 of region 8 (R499). -/
def bxtChHash (n : Nat) : Nat := 0x800120 + 0x4 * n

/-- Key of BXT_BANK_HASH: offset 0x0140 + 0x4 × n, n below 4 of region 8 (R499). -/
def bxtBankHash (n : Nat) : Nat := 0x800140 + 0x4 * n

/-- Key of BXT_QUAD_CONFIG in the window of region r, a Bauxite region: offset 0x0200 (R499). -/
def bxtQuadConfig (r : Nat) : Nat := r * 0x100000 + 0x200

/-- Key of BXT_RANK_STATE in the window of region r, a Bauxite region: offset 0x0204 (R499). -/
def bxtRankState (r : Nat) : Nat := r * 0x100000 + 0x204

/-- Key of BXT_MIG_STATUS in the window of region r, a Bauxite region: offset 0x0208 (R499). -/
def bxtMigStatus (r : Nat) : Nat := r * 0x100000 + 0x208

/-- Key of BXT_ECC_CORRECTED in the window of region r, a Bauxite region: offset 0x020c (R499). -/
def bxtEccCorrected (r : Nat) : Nat := r * 0x100000 + 0x20c

/-- Key of BXT_ECC_UNCORRECTABLE in the window of region r, a Bauxite region: offset 0x0210 (R499). -/
def bxtEccUncorrectable (r : Nat) : Nat := r * 0x100000 + 0x210

/-- Key of BXT_POISON_READS in the window of region r, a Bauxite region: offset 0x0214 (R499). -/
def bxtPoisonReads (r : Nat) : Nat := r * 0x100000 + 0x214

/-- Key of BXT_RETRAINS in the window of region r, a Bauxite region: offset 0x0218 (R499). -/
def bxtRetrains (r : Nat) : Nat := r * 0x100000 + 0x218

/-- Key of BRX_SHADOW_CTRL: offset 0x0100 of region 12 (R499). -/
def brxShadowCtrl : Nat := 0xC00100

/-- Key of BRX_SHADOW_BASE_LO: offset 0x0104 of region 12 (R499). -/
def brxShadowBaseLo : Nat := 0xC00104

/-- Key of BRX_SHADOW_BASE_HI: offset 0x0108 of region 12 (R499). -/
def brxShadowBaseHi : Nat := 0xC00108

/-- Key of BRX_RET_CTRL: offset 0x0110 of region 12 (R499). -/
def brxRetCtrl : Nat := 0xC00110

/-- Key of BRX_RET_BASE_LO: offset 0x0114 of region 12 (R499). -/
def brxRetBaseLo : Nat := 0xC00114

/-- Key of BRX_RET_BASE_HI: offset 0x0118 of region 12 (R499). -/
def brxRetBaseHi : Nat := 0xC00118

/-- Key of BRX_RET_SIZE: offset 0x011c of region 12 (R499). -/
def brxRetSize : Nat := 0xC0011C

/-- Key of BRX_JOB_ADDR_LO: offset 0x0120 of region 12 (R499). -/
def brxJobAddrLo : Nat := 0xC00120

/-- Key of BRX_JOB_ADDR_HI: offset 0x0124 of region 12 (R499). -/
def brxJobAddrHi : Nat := 0xC00124

/-- Key of BRX_JOB_SUBMIT: offset 0x0128 of region 12 (R499). -/
def brxJobSubmit : Nat := 0xC00128

/-- Key of BRX_JOB_STATUS: offset 0x012c of region 12 (R499). -/
def brxJobStatus : Nat := 0xC0012C

/-- Key of BRX_SERVICE: offset 0x0130 of region 12 (R499). -/
def brxService : Nat := 0xC00130

/-- Key of BRX_STORED_BLOCKS: offset 0x0200 of region 12 (R499). -/
def brxStoredBlocks : Nat := 0xC00200

/-- Key of BRX_VERIFY_MISMATCH: offset 0x0204 of region 12 (R499). -/
def brxVerifyMismatch : Nat := 0xC00204

/-- Key of BRX_SHADOW_DROPPED: offset 0x0208 of region 12 (R499). -/
def brxShadowDropped : Nat := 0xC00208

/-- Key of BRX_RET_SKIPPED: offset 0x020c of region 12 (R499). -/
def brxRetSkipped : Nat := 0xC0020C

/-- Key of BRX_SUBMIT_REFUSED: offset 0x0210 of region 12 (R499). -/
def brxSubmitRefused : Nat := 0xC00210

/-- Key of BRX_JOBS_DONE: offset 0x0214 of region 12 (R499). -/
def brxJobsDone : Nat := 0xC00214

/-- Key of MCA_PLANE_CTRL: offset 0x0100 + 0x40 × n, n below 8 of region 13 (R499). -/
def mcaPlaneCtrl (n : Nat) : Nat := 0xD00100 + 0x40 * n

/-- Key of MCA_PLANE_SRC_SIZE: offset 0x0104 + 0x40 × n, n below 8 of region 13 (R499). -/
def mcaPlaneSrcSize (n : Nat) : Nat := 0xD00104 + 0x40 * n

/-- Key of MCA_PLANE_DST_SIZE: offset 0x0108 + 0x40 × n, n below 8 of region 13 (R499). -/
def mcaPlaneDstSize (n : Nat) : Nat := 0xD00108 + 0x40 * n

/-- Key of MCA_PLANE_DST_POS: offset 0x010c + 0x40 × n, n below 8 of region 13 (R499). -/
def mcaPlaneDstPos (n : Nat) : Nat := 0xD0010C + 0x40 * n

/-- Key of MCA_PLANE_PITCH: offset 0x0110 + 0x40 × n, n below 8 of region 13 (R499). -/
def mcaPlanePitch (n : Nat) : Nat := 0xD00110 + 0x40 * n

/-- Key of MCA_PLANE_BUF0_LO: offset 0x0114 + 0x40 × n, n below 8 of region 13 (R499). -/
def mcaPlaneBuf0Lo (n : Nat) : Nat := 0xD00114 + 0x40 * n

/-- Key of MCA_PLANE_BUF0_HI: offset 0x0118 + 0x40 × n, n below 8 of region 13 (R499). -/
def mcaPlaneBuf0Hi (n : Nat) : Nat := 0xD00118 + 0x40 * n

/-- Key of MCA_PLANE_BUF1_LO: offset 0x011c + 0x40 × n, n below 8 of region 13 (R499). -/
def mcaPlaneBuf1Lo (n : Nat) : Nat := 0xD0011C + 0x40 * n

/-- Key of MCA_PLANE_BUF1_HI: offset 0x0120 + 0x40 × n, n below 8 of region 13 (R499). -/
def mcaPlaneBuf1Hi (n : Nat) : Nat := 0xD00120 + 0x40 * n

/-- Key of MCA_ORDER: offset 0x0300 of region 13 (R499). -/
def mcaOrder : Nat := 0xD00300

/-- Key of MCA_COMPOSE_CTRL: offset 0x0304 of region 13 (R499). -/
def mcaComposeCtrl : Nat := 0xD00304

/-- Key of MCA_BACKGROUND: offset 0x0308 of region 13 (R499). -/
def mcaBackground : Nat := 0xD00308

/-- Key of MCA_UPDATE_CTRL: offset 0x030c of region 13 (R499). -/
def mcaUpdateCtrl : Nat := 0xD0030C

/-- Key of MCA_PLANE_MARK: offset 0x0310 of region 13 (R499). -/
def mcaPlaneMark : Nat := 0xD00310

/-- Key of MCA_UPDATE_STATUS: offset 0x0314 of region 13 (R499). -/
def mcaUpdateStatus : Nat := 0xD00314

/-- Key of MCA_UPDATES_REPLACED: offset 0x0340 of region 13 (R499). -/
def mcaUpdatesReplaced : Nat := 0xD00340

/-- Key of MCA_NOT_READY: offset 0x0344 of region 13 (R499). -/
def mcaNotReady : Nat := 0xD00344

/-- Key of MCA_UNDERRUN: offset 0x0348 of region 13 (R499). -/
def mcaUnderrun : Nat := 0xD00348

/-- Key of MCA_REPEAT_LINES: offset 0x034c of region 13 (R499). -/
def mcaRepeatLines : Nat := 0xD0034C

/-- Key of MCA_FILL_LINES: offset 0x0350 of region 13 (R499). -/
def mcaFillLines : Nat := 0xD00350

/-- Key of MCA_SHADOW_DROPPED: offset 0x0354 of region 13 (R499). -/
def mcaShadowDropped : Nat := 0xD00354

/-- Key of MCA_LUT_BLOCKED: offset 0x0358 of region 13 (R499). -/
def mcaLutBlocked : Nat := 0xD00358

/-- Key of MCA_BLT_CTRL: offset 0x0400 of region 13 (R499). -/
def mcaBltCtrl : Nat := 0xD00400

/-- Key of MCA_BLT_SRC_LO: offset 0x0404 of region 13 (R499). -/
def mcaBltSrcLo : Nat := 0xD00404

/-- Key of MCA_BLT_SRC_HI: offset 0x0408 of region 13 (R499). -/
def mcaBltSrcHi : Nat := 0xD00408

/-- Key of MCA_BLT_SRC_PITCH: offset 0x040c of region 13 (R499). -/
def mcaBltSrcPitch : Nat := 0xD0040C

/-- Key of MCA_BLT_SRC_POS: offset 0x0410 of region 13 (R499). -/
def mcaBltSrcPos : Nat := 0xD00410

/-- Key of MCA_BLT_DST_LO: offset 0x0414 of region 13 (R499). -/
def mcaBltDstLo : Nat := 0xD00414

/-- Key of MCA_BLT_DST_HI: offset 0x0418 of region 13 (R499). -/
def mcaBltDstHi : Nat := 0xD00418

/-- Key of MCA_BLT_DST_PITCH: offset 0x041c of region 13 (R499). -/
def mcaBltDstPitch : Nat := 0xD0041C

/-- Key of MCA_BLT_DST_POS: offset 0x0420 of region 13 (R499). -/
def mcaBltDstPos : Nat := 0xD00420

/-- Key of MCA_BLT_SIZE: offset 0x0424 of region 13 (R499). -/
def mcaBltSize : Nat := 0xD00424

/-- Key of MCA_BLT_FG: offset 0x0428 of region 13 (R499). -/
def mcaBltFg : Nat := 0xD00428

/-- Key of MCA_BLT_BG: offset 0x042c of region 13 (R499). -/
def mcaBltBg : Nat := 0xD0042C

/-- Key of MCA_BLT_PAT_LO: offset 0x0430 of region 13 (R499). -/
def mcaBltPatLo : Nat := 0xD00430

/-- Key of MCA_BLT_PAT_HI: offset 0x0434 of region 13 (R499). -/
def mcaBltPatHi : Nat := 0xD00434

/-- Key of MCA_BLT_STATUS: offset 0x0438 of region 13 (R499). -/
def mcaBltStatus : Nat := 0xD00438

/-- Key of MCA_BLT_COUNT: offset 0x043c of region 13 (R499). -/
def mcaBltCount : Nat := 0xD0043C

/-- Key of MCA_PRELUT: offset 0x40000 + 0x4 × n, n below 49152 of region 13 (R499). -/
def mcaPrelut (n : Nat) : Nat := 0xD40000 + 0x4 * n

/-- Key of MCA_POSTLUT: offset 0x80000 + 0x4 × n, n below 24582 of region 13 (R499). -/
def mcaPostlut (n : Nat) : Nat := 0xD80000 + 0x4 * n

/-- Key of OBS_PANEL_GEOM: offset 0x0100 of region 14 (R499). -/
def obsPanelGeom : Nat := 0xE00100

/-- Key of OBS_PANEL_PITCH_X: offset 0x0104 of region 14 (R499). -/
def obsPanelPitchX : Nat := 0xE00104

/-- Key of OBS_PANEL_PITCH_Y: offset 0x0108 of region 14 (R499). -/
def obsPanelPitchY : Nat := 0xE00108

/-- Key of OBS_PANEL_CTRL: offset 0x010c of region 14 (R499). -/
def obsPanelCtrl : Nat := 0xE0010C

/-- Key of OBS_PANEL_STATUS: offset 0x0110 of region 14 (R499). -/
def obsPanelStatus : Nat := 0xE00110

/-- Key of OBS_GT_SAFE: offset 0x0114 of region 14 (R499). -/
def obsGtSafe : Nat := 0xE00114

/-- Key of OBS_ODHIST_BASE_LO: offset 0x0118 of region 14 (R499). -/
def obsOdhistBaseLo : Nat := 0xE00118

/-- Key of OBS_ODHIST_BASE_HI: offset 0x011c of region 14 (R499). -/
def obsOdhistBaseHi : Nat := 0xE0011C

/-- Key of OBS_FILL: offset 0x0120 of region 14 (R499). -/
def obsFill : Nat := 0xE00120

/-- Key of OBS_PEWTER_SIZE: offset 0x0124 of region 14 (R499). -/
def obsPewterSize : Nat := 0xE00124

/-- Key of OBS_PMIC_CTRL: offset 0x0128 of region 14 (R499). -/
def obsPmicCtrl : Nat := 0xE00128

/-- Key of OBS_CALMAP_CTRL: offset 0x0200 of region 14 (R499). -/
def obsCalmapCtrl : Nat := 0xE00200

/-- Key of OBS_CALMAP_ADDR_LO: offset 0x0204 of region 14 (R499). -/
def obsCalmapAddrLo : Nat := 0xE00204

/-- Key of OBS_CALMAP_ADDR_HI: offset 0x0208 of region 14 (R499). -/
def obsCalmapAddrHi : Nat := 0xE00208

/-- Key of OBS_CALMAP_STATUS: offset 0x020c of region 14 (R499). -/
def obsCalmapStatus : Nat := 0xE0020C

/-- Key of OBS_CALMAP_NODES_SUBST: offset 0x0210 of region 14 (R499). -/
def obsCalmapNodesSubst : Nat := 0xE00210

/-- Key of OBS_CALMAP_FRAME: offset 0x0214 of region 14 (R499). -/
def obsCalmapFrame : Nat := 0xE00214

/-- Key of OBS_LINK_CTRL: offset 0x0300 of region 14 (R499). -/
def obsLinkCtrl : Nat := 0xE00300

/-- Key of OBS_SPARE_MAP: offset 0x0304 of region 14 (R499). -/
def obsSpareMap : Nat := 0xE00304

/-- Key of OBS_EYE_CTRL: offset 0x0308 of region 14 (R499). -/
def obsEyeCtrl : Nat := 0xE00308

/-- Key of OBS_EYE_RESULT: offset 0x030c of region 14 (R499). -/
def obsEyeResult : Nat := 0xE0030C

/-- Key of OBS_MISSING_LINES: offset 0x0380 of region 14 (R499). -/
def obsMissingLines : Nat := 0xE00380

/-- Key of OBS_OD_SKIPPED: offset 0x0384 of region 14 (R499). -/
def obsOdSkipped : Nat := 0xE00384

/-- Key of OBS_HOLDS: offset 0x0388 of region 14 (R499). -/
def obsHolds : Nat := 0xE00388

/-- Key of OBS_LINE_CRC_FAILS: offset 0x038c of region 14 (R499). -/
def obsLineCrcFails : Nat := 0xE0038C

/-- Key of OBS_PANEL_SERIAL: offset 0x0130 + 0x4 × n, n below 4 of region 14 (R499). -/
def obsPanelSerial (n : Nat) : Nat := 0xE00130 + 0x4 * n

/-- Key of OBS_GT_NORM: offset 0x0140 + 0x8 × n, n below 12 of region 14 (R499). -/
def obsGtNorm (n : Nat) : Nat := 0xE00140 + 0x8 * n

/-- Key of OBS_GT_PAIR: offset 0x0144 + 0x8 × n, n below 12 of region 14 (R499). -/
def obsGtPair (n : Nat) : Nat := 0xE00144 + 0x8 * n

/-- Key of OBS_LG_STATUS: offset 0x0340 + 0x4 × n, n below 13 of region 14 (R499). -/
def obsLgStatus (n : Nat) : Nat := 0xE00340 + 0x4 * n

/-- Key of OBS_PMIC_SCRIPT: offset 0x10000 + 0x4 × n, n below 128 of region 14 (R499). -/
def obsPmicScript (n : Nat) : Nat := 0xE10000 + 0x4 * n

/-- Key of OBS_WAVE: offset 0x20000 + 0x4 × n, n below 3072 of region 14 (R499). -/
def obsWave (n : Nat) : Nat := 0xE20000 + 0x4 * n

/-- Key of GRN_OP_CTRL: offset 0x0100 + 0x4 × n, n below 6 of region 15 (R499). -/
def grnOpCtrl (n : Nat) : Nat := 0xF00100 + 0x4 * n

/-- Key of GRN_LOCK_CTRL: offset 0x0118 of region 15 (R499). -/
def grnLockCtrl : Nat := 0xF00118

/-- Key of GRN_LOCK_STATUS: offset 0x011c of region 15 (R499). -/
def grnLockStatus : Nat := 0xF0011C

/-- Key of GRN_START_SEC_HI: offset 0x0120 of region 15 (R499). -/
def grnStartSecHi : Nat := 0xF00120

/-- Key of GRN_START_SEC_LO: offset 0x0124 of region 15 (R499). -/
def grnStartSecLo : Nat := 0xF00124

/-- Key of GRN_START_NS: offset 0x0128 of region 15 (R499). -/
def grnStartNs : Nat := 0xF00128

/-- Key of GRN_START_CTRL: offset 0x012c of region 15 (R499). -/
def grnStartCtrl : Nat := 0xF0012C

/-- Key of GRN_EMBED_CTRL: offset 0x0130 of region 15 (R499). -/
def grnEmbedCtrl : Nat := 0xF00130

/-- Key of GRN_LOCK_FABRICATED: offset 0x0180 of region 15 (R499). -/
def grnLockFabricated : Nat := 0xF00180

/-- Key of GRN_LOCK_DROPPED: offset 0x0184 of region 15 (R499). -/
def grnLockDropped : Nat := 0xF00184

/-- Key of GRN_UNDERRUNS: offset 0x0188 of region 15 (R499). -/
def grnUnderruns : Nat := 0xF00188

/-- Key of GRN_FRAME_ERRORS: offset 0x018c of region 15 (R499). -/
def grnFrameErrors : Nat := 0xF0018C

/-- Key of GRN_EMBED_DISCARDED: offset 0x0190 of region 15 (R499). -/
def grnEmbedDiscarded : Nat := 0xF00190

/-- Key of GRN_PTP_CTRL: offset 0x0800 of region 15 (R499). -/
def grnPtpCtrl : Nat := 0xF00800

/-- Key of GRN_PTP_INTERVALS: offset 0x0804 of region 15 (R499). -/
def grnPtpIntervals : Nat := 0xF00804

/-- Key of GRN_SERVO_CTRL: offset 0x0808 of region 15 (R499). -/
def grnServoCtrl : Nat := 0xF00808

/-- Key of GRN_SERVO_STATUS: offset 0x080c of region 15 (R499). -/
def grnServoStatus : Nat := 0xF0080C

/-- Key of GRN_SERVO_OFFSET: offset 0x0810 of region 15 (R499). -/
def grnServoOffset : Nat := 0xF00810

/-- Key of GRN_SERVO_RATE: offset 0x0814 of region 15 (R499). -/
def grnServoRate : Nat := 0xF00814

/-- Key of GRN_PATH_DELAY: offset 0x0818 of region 15 (R499). -/
def grnPathDelay : Nat := 0xF00818

/-- Key of GRN_DELAY_ASYM: offset 0x081c of region 15 (R499). -/
def grnDelayAsym : Nat := 0xF0081C

/-- Key of GRN_TS_LATENCY: offset 0x0820 of region 15 (R499). -/
def grnTsLatency : Nat := 0xF00820

/-- Key of GRN_MAC_HI: offset 0x0824 of region 15 (R499). -/
def grnMacHi : Nat := 0xF00824

/-- Key of GRN_MAC_LO: offset 0x0828 of region 15 (R499). -/
def grnMacLo : Nat := 0xF00828

/-- Key of GRN_IPV4: offset 0x082c of region 15 (R499). -/
def grnIpv4 : Nat := 0xF0082C

/-- Key of GRN_GM_ID_HI: offset 0x0830 of region 15 (R499). -/
def grnGmIdHi : Nat := 0xF00830

/-- Key of GRN_GM_ID_LO: offset 0x0834 of region 15 (R499). -/
def grnGmIdLo : Nat := 0xF00834

/-- Key of GRN_UTC: offset 0x0838 of region 15 (R499). -/
def grnUtc : Nat := 0xF00838

/-- Key of GRN_TIME_SEC_LO: offset 0x0840 of region 15 (R499). -/
def grnTimeSecLo : Nat := 0xF00840

/-- Key of GRN_TIME_SEC_HI: offset 0x0844 of region 15 (R499). -/
def grnTimeSecHi : Nat := 0xF00844

/-- Key of GRN_TIME_NS: offset 0x0848 of region 15 (R499). -/
def grnTimeNs : Nat := 0xF00848

/-- Key of GRN_TIME_FRAC: offset 0x084c of region 15 (R499). -/
def grnTimeFrac : Nat := 0xF0084C

/-- Key of GRN_TIME_SET_SEC_HI: offset 0x0850 of region 15 (R499). -/
def grnTimeSetSecHi : Nat := 0xF00850

/-- Key of GRN_TIME_SET_SEC_LO: offset 0x0854 of region 15 (R499). -/
def grnTimeSetSecLo : Nat := 0xF00854

/-- Key of GRN_TIME_SET_NS: offset 0x0858 of region 15 (R499). -/
def grnTimeSetNs : Nat := 0xF00858

/-- Key of GRN_PPS_CTRL: offset 0x085c of region 15 (R499). -/
def grnPpsCtrl : Nat := 0xF0085C

/-- Key of GRN_TIME_LINK_CTRL: offset 0x0860 of region 15 (R499). -/
def grnTimeLinkCtrl : Nat := 0xF00860

/-- Key of GRN_TIME_LINK_STATUS: offset 0x0864 of region 15 (R499). -/
def grnTimeLinkStatus : Nat := 0xF00864

/-- Key of GRN_MEAS: offset 0x0140 + 0x4 × n, n below 10 of region 15 (R499). -/
def grnMeas (n : Nat) : Nat := 0xF00140 + 0x4 * n

/-- Key of GRN_ROUTE: offset 0x0400 + 0x4 × n, n below 64 of region 15 (R499). -/
def grnRoute (n : Nat) : Nat := 0xF00400 + 0x4 * n

/-- Key of GRN_TRG_CTRL: offset 0x0900 + 0x20 × n, n below 4 of region 15 (R499). -/
def grnTrgCtrl (n : Nat) : Nat := 0xF00900 + 0x20 * n

/-- Key of GRN_TRG_START_SEC: offset 0x0904 + 0x20 × n, n below 4 of region 15 (R499). -/
def grnTrgStartSec (n : Nat) : Nat := 0xF00904 + 0x20 * n

/-- Key of GRN_TRG_START_NS: offset 0x0908 + 0x20 × n, n below 4 of region 15 (R499). -/
def grnTrgStartNs (n : Nat) : Nat := 0xF00908 + 0x20 * n

/-- Key of GRN_TRG_PERIOD: offset 0x090c + 0x20 × n, n below 4 of region 15 (R499). -/
def grnTrgPeriod (n : Nat) : Nat := 0xF0090C + 0x20 * n

/-- Key of GRN_TRG_OFFSET: offset 0x0910 + 0x20 × n, n below 4 of region 15 (R499). -/
def grnTrgOffset (n : Nat) : Nat := 0xF00910 + 0x20 * n

/-- Key of GRN_CAP_CTRL: offset 0x0a00 + 0x10 × n, n below 4 of region 15 (R499). -/
def grnCapCtrl (n : Nat) : Nat := 0xF00A00 + 0x10 * n

/-- Key of GRN_CAP_NS: offset 0x0a04 + 0x10 × n, n below 4 of region 15 (R499). -/
def grnCapNs (n : Nat) : Nat := 0xF00A04 + 0x10 * n

/-- Key of GRN_CAP_SEC: offset 0x0a08 + 0x10 × n, n below 4 of region 15 (R499). -/
def grnCapSec (n : Nat) : Nat := 0xF00A08 + 0x10 * n

/-- Key of GRN_CAP_FRAC: offset 0x0a0c + 0x10 × n, n below 4 of region 15 (R499). -/
def grnCapFrac (n : Nat) : Nat := 0xF00A0C + 0x10 * n

/-- The Slate window (R502). -/
def descSlate (o : Nat) : RegDesc :=
  if o = 0x208 then ⟨[], 0x0, 0x2⟩ else -- SLT_PWR_STATE
  if o = 0x210 then ⟨[⟨3, 1, .any⟩, ⟨2, 1, .any⟩, ⟨1, 1, .any⟩, ⟨0, 1, .any⟩], 0x0, 0xb⟩ else -- SLT_WAKE_CTRL
  if o = 0x214 then ⟨[⟨0, 32, .any⟩], 0x0, 0x0⟩ else -- SLT_WAKE_TIMER
  if o = 0x300 then ⟨[⟨4, 1, .any⟩], 0x0, 0x10⟩ else -- SLT_LEASE_CTRL
  if o = 0x600 then ⟨[⟨16, 8, .any⟩, ⟨8, 8, .any⟩, ⟨0, 8, .any⟩], 0x0, 0x73695f⟩ else -- SLT_THERM_CTRL
  if o = 0x608 then ⟨[⟨16, 1, .any⟩, ⟨0, 16, .any⟩], 0x0, 0x3c⟩ else -- SLT_THERM_RESTART
  if o = 0x60c then ⟨[⟨20, 8, .any⟩], 0x0, 0x1900000⟩ else -- SLT_PANEL_TEMP
  if o = 0x640 then ⟨[⟨2, 1, .any⟩], 0x0, 0x0⟩ else -- SLT_CAL_CTRL
  if o = 0x648 then ⟨[], 0x0, 0x246139ca⟩ else -- SLT_CAL_GAIN
  if o = 0x64c then ⟨[], 0x0, 0x200⟩ else -- SLT_CAL_OFFSET
  if o = 0x800 then ⟨[⟨2, 2, .oneOf [0, 1, 2]⟩], 0x0, 0x0⟩ else -- SLT_BOOT_CTRL
  if o = 0x808 then ⟨[], 0x0, 0x100⟩ else -- SLT_DEVICE_REV
  if o = 0xc00 then ⟨[], 0x0, 0x2100⟩ else -- SLT_HOST_VERSION
  if o = 0xc04 then ⟨[⟨0, 2, .any⟩], 0x0, 0x0⟩ else -- SLT_HOST_PROTO
  if o = 0xc08 then ⟨[⟨20, 12, .any⟩], 0x0, 0x0⟩ else -- SLT_HOST_APERTURE_LO
  if o = 0xc0c then ⟨[⟨0, 8, .any⟩], 0x0, 0x0⟩ else -- SLT_HOST_APERTURE_HI
  if o = 0xc10 then ⟨[], 0x3e, 0x0⟩ else -- SLT_HOST_IRQ_STATUS
  if o = 0xc14 then ⟨[⟨0, 6, .any⟩], 0x0, 0x0⟩ else -- SLT_HOST_IRQ_EN
  if o = 0xc18 then ⟨[⟨16, 16, .any⟩, ⟨0, 4, .any⟩], 0x0, 0xffff000c⟩ else -- SLT_HOST_EVT_MASK
  if inArr o 0x610 4 0x4 then ⟨[⟨16, 8, .any⟩, ⟨15, 1, .any⟩, ⟨14, 1, .any⟩, ⟨0, 14, .any⟩], 0x0, 0x692042⟩ else -- SLT_REMOTE_CTRL
  if inArr o 0x620 4 0x8 then ⟨[⟨31, 1, .any⟩, ⟨30, 1, .any⟩, ⟨16, 14, .any⟩, ⟨0, 16, .any⟩], 0x0, 0xd6b03e8⟩ else -- SLT_PTH_CTRL
  if inArr o 0x624 4 0x8 then ⟨[⟨0, 16, .any⟩], 0x0, 0x3e8⟩ else -- SLT_PTH_PULLUP
  if inArr o 0x840 16 0x4 then ⟨[⟨0, 32, .any⟩], 0, 0⟩ else -- SLT_OTP_DATA
  if inArr o 0xa20 8 0x4 then ⟨[⟨0, 32, .any⟩], 0, 0⟩ else -- SLT_ATTEST_NONCE
  descNone

/-- A Flint window (R503). -/
def descFlint (o : Nat) : RegDesc :=
  if o = 0x100 then ⟨[⟨1, 1, .any⟩], 0x0, 0x2⟩ else -- FLA_PROG_CTRL
  if o = 0x104 then ⟨[⟨0, 32, .any⟩], 0, 0⟩ else -- FLA_PROG_ADDR_LO
  if o = 0x108 then ⟨[⟨0, 8, .any⟩], 0x0, 0x0⟩ else -- FLA_PROG_ADDR_HI
  if o = 0x110 then ⟨[⟨0, 8, .any⟩], 0x0, 0x32⟩ else -- FLA_WDOG
  if o = 0x118 then ⟨[], 0x0, 0x102⟩ else -- FLA_ISA_VERSION
  if o = 0x120 then ⟨[⟨0, 14, .any⟩], 0, 0⟩ else -- FLA_LINE_MATCH
  if o = 0x200 then ⟨[⟨2, 2, .any⟩], 0x0, 0x0⟩ else -- FLA_TIMING_CTRL
  if o = 0x204 then ⟨[⟨0, 14, .any⟩], 0x0, 0x2260⟩ else -- FLA_TIMING_VT
  if o = 0x208 then ⟨[⟨0, 24, .any⟩], 0x0, 0x7399c⟩ else -- FLA_TIMING_LINE_PS
  if o = 0x40c then ⟨[⟨0, 32, .any⟩], 0x0, 0x0⟩ else -- FLA_HOST_MAIL
  if inArr o 0x180 32 0x4 then ⟨[⟨16, 16, .any⟩, ⟨0, 16, .any⟩], 0x0, 0x0⟩ else -- FLA_EVMAP
  descNone

/-- The Quartz window (R504). -/
def descQuartz (o : Nat) : RegDesc :=
  if inArr o 0x100 4 0x100 then ⟨[⟨24, 4, .any⟩, ⟨16, 8, .upTo 64⟩, ⟨8, 8, .upTo 63⟩, ⟨4, 2, .oneOf [0, 1, 2]⟩, ⟨3, 1, .any⟩, ⟨1, 2, .oneOf [1, 2, 3]⟩, ⟨0, 1, .any⟩], 0x0, 0x4000006⟩ else -- QTZ_PORT_CTRL
  if inArr o 0x108 4 0x100 then ⟨[⟨12, 20, .any⟩], 0x0, 0x0⟩ else -- QTZ_PORT_LSTORE_BASE_LO
  if inArr o 0x10c 4 0x100 then ⟨[⟨0, 8, .any⟩], 0x0, 0x0⟩ else -- QTZ_PORT_LSTORE_BASE_HI
  if inArr o 0x110 4 0x100 then ⟨[⟨0, 32, .any⟩], 0x0, 0x0⟩ else -- QTZ_PORT_LSTORE_SIZE
  if inArr o 0x120 4 0x100 then ⟨[⟨20, 4, .upTo 10⟩, ⟨14, 6, .any⟩, ⟨8, 6, .any⟩, ⟨5, 2, .oneOf [0, 1, 2]⟩, ⟨3, 2, .any⟩, ⟨2, 1, .any⟩, ⟨1, 1, .any⟩, ⟨0, 1, .any⟩], 0x0, 0x14a5a⟩ else -- QTZ_PORT_LINK_CTRL
  if o = 0x508 then ⟨[⟨12, 20, .any⟩], 0x0, 0x0⟩ else -- QTZ_BIND_TABLE_LO
  if o = 0x50c then ⟨[⟨0, 8, .any⟩], 0x0, 0x0⟩ else -- QTZ_BIND_TABLE_HI
  if o = 0x510 then ⟨[⟨18, 6, .any⟩, ⟨12, 6, .any⟩, ⟨8, 4, .any⟩, ⟨0, 6, .any⟩], 0x0, 0x0⟩ else -- QTZ_EYE_CTRL
  descNone

/-- A Galena window (R505). -/
def descGalena (o : Nat) : RegDesc :=
  if o = 0x100 then ⟨[], 0x0, 0x102⟩ else -- GAL_ISA_VERSION
  if o = 0x104 then ⟨[], 0x0, 0xfff0180⟩ else -- GAL_SERVICE
  descNone

/-- The chip-wide registers, at Bauxite offsets below 0x0200 (R270, R506, R511). -/
def descBauxiteChip (o : Nat) : RegDesc :=
  if o = 0x100 then ⟨[⟨10, 2, .oneOf [0, 1, 2]⟩, ⟨8, 1, .any⟩], 0x0, 0x900⟩ else -- BXT_CONFIG
  if inArr o 0x120 5 0x4 then ⟨[⟨0, 32, .any⟩], 0, BitVec.ofNat 32 (0x4080 * 2 ^ ((o - 0x120) / 4))⟩ else -- BXT_CH_HASH
  if inArr o 0x140 4 0x4 then ⟨[⟨0, 24, .any⟩], 0, BitVec.ofNat 32 (0x40 * 2 ^ ((o - 0x140) / 4))⟩ else -- BXT_BANK_HASH
  descNone

/-- The quadrant registers of a Bauxite window (R506). -/
def descBauxite (o : Nat) : RegDesc :=
  if o = 0x200 then ⟨[⟨8, 4, .any⟩, ⟨0, 1, .any⟩], 0x0, 0x400⟩ else -- BXT_QUAD_CONFIG
  descNone

/-- The Borax window (R507). -/
def descBorax (o : Nat) : RegDesc :=
  if o = 0x100 then ⟨[⟨1, 2, .any⟩, ⟨0, 1, .any⟩], 0x0, 0x2⟩ else -- BRX_SHADOW_CTRL
  if o = 0x104 then ⟨[⟨0, 32, .any⟩], 0x0, 0x0⟩ else -- BRX_SHADOW_BASE_LO
  if o = 0x108 then ⟨[⟨0, 8, .any⟩], 0x0, 0x0⟩ else -- BRX_SHADOW_BASE_HI
  if o = 0x110 then ⟨[⟨12, 2, .any⟩, ⟨8, 4, .any⟩, ⟨3, 2, .any⟩, ⟨1, 2, .any⟩, ⟨0, 1, .any⟩], 0x0, 0x1110⟩ else -- BRX_RET_CTRL
  if o = 0x114 then ⟨[⟨0, 32, .any⟩], 0x0, 0x0⟩ else -- BRX_RET_BASE_LO
  if o = 0x118 then ⟨[⟨0, 8, .any⟩], 0x0, 0x0⟩ else -- BRX_RET_BASE_HI
  if o = 0x11c then ⟨[⟨0, 32, .any⟩], 0x0, 0x0⟩ else -- BRX_RET_SIZE
  if o = 0x120 then ⟨[⟨0, 32, .any⟩], 0x0, 0x0⟩ else -- BRX_JOB_ADDR_LO
  if o = 0x124 then ⟨[⟨0, 8, .any⟩], 0x0, 0x0⟩ else -- BRX_JOB_ADDR_HI
  if o = 0x130 then ⟨[], 0x0, 0xffff⟩ else -- BRX_SERVICE
  descNone

/-- The Mica window; of plane 0 only PRELUT of its CTRL is writable (R197, R508). -/
def descMica (o : Nat) : RegDesc :=
  if o = 0x100 then ⟨[⟨4, 2, .oneOf [0, 1, 2]⟩], 0, 0⟩ else
  if 0x100 < o ∧ o < 0x140 then descNone else
  if inArr o 0x100 8 0x40 then ⟨[⟨24, 8, .any⟩, ⟨10, 2, .oneOf [0, 1, 2]⟩, ⟨9, 1, .any⟩, ⟨6, 2, .oneOf [0, 1, 2]⟩, ⟨4, 2, .oneOf [0, 1, 2]⟩, ⟨1, 1, .any⟩, ⟨0, 1, .any⟩], 0x0, 0xff000040⟩ else -- MCA_PLANE_CTRL
  if inArr o 0x104 8 0x40 then ⟨[⟨16, 15, .any⟩, ⟨0, 15, .any⟩], 0x0, 0x0⟩ else -- MCA_PLANE_SRC_SIZE
  if inArr o 0x108 8 0x40 then ⟨[⟨16, 15, .any⟩, ⟨0, 15, .any⟩], 0x0, 0x0⟩ else -- MCA_PLANE_DST_SIZE
  if inArr o 0x10c 8 0x40 then ⟨[⟨16, 16, .any⟩, ⟨0, 16, .any⟩], 0x0, 0x0⟩ else -- MCA_PLANE_DST_POS
  if inArr o 0x110 8 0x40 then ⟨[⟨0, 20, .any⟩], 0x0, 0x0⟩ else -- MCA_PLANE_PITCH
  if inArr o 0x114 8 0x40 then ⟨[⟨0, 32, .any⟩], 0x0, 0x0⟩ else -- MCA_PLANE_BUF0_LO
  if inArr o 0x118 8 0x40 then ⟨[⟨0, 8, .any⟩], 0x0, 0x0⟩ else -- MCA_PLANE_BUF0_HI
  if inArr o 0x11c 8 0x40 then ⟨[⟨0, 32, .any⟩], 0x0, 0x0⟩ else -- MCA_PLANE_BUF1_LO
  if inArr o 0x120 8 0x40 then ⟨[⟨0, 8, .any⟩], 0x0, 0x0⟩ else -- MCA_PLANE_BUF1_HI
  if o = 0x300 then ⟨[⟨0, 24, .perm8⟩], 0x0, 0xfac688⟩ else -- MCA_ORDER
  if o = 0x304 then ⟨[⟨0, 2, .oneOf [0, 1, 2]⟩], 0x0, 0x0⟩ else -- MCA_COMPOSE_CTRL
  if o = 0x308 then ⟨[⟨0, 30, .any⟩], 0x0, 0x0⟩ else -- MCA_BACKGROUND
  if o = 0x400 then ⟨[⟨16, 8, .any⟩, ⟨12, 4, .any⟩, ⟨9, 3, .any⟩, ⟨6, 3, .any⟩, ⟨5, 1, .any⟩, ⟨0, 2, .oneOf [0, 1, 2]⟩], 0x0, 0xcc0002⟩ else -- MCA_BLT_CTRL
  if o = 0x404 then ⟨[⟨0, 32, .any⟩], 0x0, 0x0⟩ else -- MCA_BLT_SRC_LO
  if o = 0x408 then ⟨[⟨0, 8, .any⟩], 0x0, 0x0⟩ else -- MCA_BLT_SRC_HI
  if o = 0x40c then ⟨[⟨0, 20, .any⟩], 0x0, 0x0⟩ else -- MCA_BLT_SRC_PITCH
  if o = 0x410 then ⟨[⟨16, 15, .any⟩, ⟨0, 15, .any⟩], 0x0, 0x0⟩ else -- MCA_BLT_SRC_POS
  if o = 0x414 then ⟨[⟨0, 32, .any⟩], 0x0, 0x0⟩ else -- MCA_BLT_DST_LO
  if o = 0x418 then ⟨[⟨0, 8, .any⟩], 0x0, 0x0⟩ else -- MCA_BLT_DST_HI
  if o = 0x41c then ⟨[⟨0, 20, .any⟩], 0x0, 0x0⟩ else -- MCA_BLT_DST_PITCH
  if o = 0x420 then ⟨[⟨16, 15, .any⟩, ⟨0, 15, .any⟩], 0x0, 0x0⟩ else -- MCA_BLT_DST_POS
  if o = 0x424 then ⟨[⟨16, 15, .any⟩, ⟨0, 15, .any⟩], 0x0, 0x0⟩ else -- MCA_BLT_SIZE
  if o = 0x428 then ⟨[⟨0, 32, .any⟩], 0x0, 0x0⟩ else -- MCA_BLT_FG
  if o = 0x42c then ⟨[⟨0, 32, .any⟩], 0x0, 0x0⟩ else -- MCA_BLT_BG
  if o = 0x430 then ⟨[⟨0, 32, .any⟩], 0x0, 0x0⟩ else -- MCA_BLT_PAT_LO
  if o = 0x434 then ⟨[⟨0, 32, .any⟩], 0x0, 0x0⟩ else -- MCA_BLT_PAT_HI
  if inArr o 0x40000 49152 0x4 then ⟨[⟨0, 16, .any⟩], 0, 0⟩ else -- MCA_PRELUT
  if inArr o 0x80000 24582 0x4 then ⟨[⟨0, 16, .any⟩], 0, 0⟩ else -- MCA_POSTLUT
  descNone

/-- A word of a waveform set: the overdrive table, 7 strobe entries of which bytes 6 and 7 are reserved, and reserved bytes, which are 0 (R295). -/
def waveDesc (i : Nat) : RegDesc :=
  if i < 408 then ⟨[⟨0, 32, .any⟩], 0, 0⟩
  else if i < 422 then (if i % 2 = 0 then ⟨[⟨0, 32, .any⟩], 0, 0⟩ else ⟨[⟨0, 16, .any⟩], 0, 0⟩)
  else ⟨[], 0, 0⟩

/-- The Obsidian window (R509). -/
def descObsidian (o : Nat) : RegDesc :=
  if o = 0x100 then ⟨[⟨28, 2, .oneOf [0, 1, 2]⟩, ⟨18, 10, .any⟩, ⟨10, 8, .any⟩, ⟨8, 2, .oneOf [0, 1, 2]⟩], 0x0, 0x2873c200⟩ else -- OBS_PANEL_GEOM
  if o = 0x104 then ⟨[⟨0, 20, .any⟩], 0x0, 0x30d40⟩ else -- OBS_PANEL_PITCH_X
  if o = 0x108 then ⟨[⟨0, 20, .any⟩], 0x0, 0x30d40⟩ else -- OBS_PANEL_PITCH_Y
  if o = 0x10c then ⟨[⟨5, 3, .upTo 4⟩, ⟨2, 2, .oneOf [0, 1]⟩], 0x0, 0x60⟩ else -- OBS_PANEL_CTRL
  if o = 0x114 then ⟨[⟨0, 12, .any⟩], 0x0, 0x0⟩ else -- OBS_GT_SAFE
  if o = 0x118 then ⟨[⟨0, 32, .any⟩], 0x0, 0x0⟩ else -- OBS_ODHIST_BASE_LO
  if o = 0x11c then ⟨[⟨0, 8, .any⟩], 0x0, 0x0⟩ else -- OBS_ODHIST_BASE_HI
  if o = 0x120 then ⟨[⟨0, 30, .any⟩], 0x0, 0x0⟩ else -- OBS_FILL
  if o = 0x124 then ⟨[⟨16, 16, .any⟩, ⟨0, 16, .any⟩], 0x0, 0x21c03c0⟩ else -- OBS_PEWTER_SIZE
  if o = 0x128 then ⟨[⟨12, 8, .any⟩, ⟨8, 2, .oneOf [0, 1, 2]⟩], 0x0, 0x0⟩ else -- OBS_PMIC_CTRL
  if o = 0x200 then ⟨[⟨1, 1, .any⟩], 0x0, 0x0⟩ else -- OBS_CALMAP_CTRL
  if o = 0x204 then ⟨[⟨3, 29, .any⟩], 0x0, 0x0⟩ else -- OBS_CALMAP_ADDR_LO
  if o = 0x208 then ⟨[⟨0, 8, .any⟩], 0x0, 0x0⟩ else -- OBS_CALMAP_ADDR_HI
  if o = 0x300 then ⟨[⟨20, 4, .upTo 10⟩, ⟨14, 6, .any⟩, ⟨8, 6, .any⟩, ⟨5, 2, .upTo 2⟩, ⟨3, 2, .any⟩, ⟨2, 1, .any⟩], 0x0, 0x14a58⟩ else -- OBS_LINK_CTRL
  if o = 0x304 then ⟨[⟨4, 4, .oneOf [0,1,2,3,4,5,6,7,8,9,10,11,15]⟩, ⟨0, 4, .oneOf [0,1,2,3,4,5,6,7,8,9,10,11,15]⟩], 0x0, 0xff⟩ else -- OBS_SPARE_MAP
  if o = 0x308 then ⟨[⟨18, 6, .any⟩, ⟨12, 6, .any⟩, ⟨8, 4, .any⟩, ⟨0, 6, .any⟩], 0x0, 0x0⟩ else -- OBS_EYE_CTRL
  if inArr o 0x140 12 0x8 then ⟨[⟨30, 2, .upTo 2⟩, ⟨29, 1, .any⟩, ⟨24, 4, .any⟩, ⟨20, 4, .any⟩, ⟨10, 10, .any⟩, ⟨0, 10, .any⟩], 0x0, 0x0⟩ else -- OBS_GT_NORM
  if inArr o 0x144 12 0x8 then ⟨[⟨30, 2, .upTo 2⟩, ⟨29, 1, .any⟩, ⟨24, 4, .any⟩, ⟨20, 4, .any⟩, ⟨10, 10, .any⟩, ⟨0, 10, .any⟩], 0x0, 0x0⟩ else -- OBS_GT_PAIR
  if inArr o 0x10000 128 0x4 then ⟨[⟨0, 32, .any⟩], 0, 0⟩ else -- OBS_PMIC_SCRIPT
  if inArr o 0x20000 3072 0x4 then waveDesc ((o - 0x20000) / 4 % 512) else -- OBS_WAVE
  descNone

/-- The Garnet window (R510). -/
def descGarnet (o : Nat) : RegDesc :=
  if inArr o 0x100 6 0x4 then ⟨[⟨12, 1, .any⟩, ⟨10, 2, .oneOf [0, 1, 2]⟩, ⟨8, 2, .any⟩, ⟨4, 3, .oneOf [0, 1, 2, 3, 4, 5, 6]⟩, ⟨2, 1, .any⟩, ⟨1, 1, .any⟩, ⟨0, 1, .any⟩], 0x0, 0x820⟩ else -- GRN_OP_CTRL
  if o = 0x118 then ⟨[⟨24, 5, .upTo 15⟩, ⟨16, 5, .range 1 16⟩, ⟨8, 5, .any⟩, ⟨6, 2, .any⟩, ⟨2, 2, .any⟩, ⟨1, 1, .any⟩, ⟨0, 1, .any⟩], 0x0, 0x10000⟩ else -- GRN_LOCK_CTRL
  if o = 0x120 then ⟨[⟨0, 32, .any⟩], 0x0, 0x0⟩ else -- GRN_START_SEC_HI
  if o = 0x124 then ⟨[⟨0, 32, .any⟩], 0x0, 0x0⟩ else -- GRN_START_SEC_LO
  if o = 0x128 then ⟨[⟨0, 30, .upTo 999999999⟩], 0x0, 0x0⟩ else -- GRN_START_NS
  if o = 0x12c then ⟨[⟨4, 4, .any⟩], 0x0, 0x0⟩ else -- GRN_START_CTRL
  if o = 0x130 then ⟨[⟨16, 2, .oneOf [0, 1, 2]⟩, ⟨0, 16, .any⟩], 0x0, 0x107d0⟩ else -- GRN_EMBED_CTRL
  if o = 0x800 then ⟨[⟨24, 8, .any⟩, ⟨16, 8, .any⟩, ⟨8, 8, .any⟩, ⟨7, 1, .any⟩, ⟨6, 1, .any⟩, ⟨4, 1, .any⟩, ⟨3, 1, .any⟩, ⟨2, 1, .any⟩, ⟨0, 2, .oneOf [0, 1, 2]⟩], 0x0, 0x7f808010⟩ else -- GRN_PTP_CTRL
  if o = 0x804 then ⟨[⟨24, 8, .any⟩, ⟨16, 8, .any⟩, ⟨8, 8, .any⟩, ⟨0, 8, .any⟩], 0x0, 0x3fdfefd⟩ else -- GRN_PTP_INTERVALS
  if o = 0x808 then ⟨[⟨24, 8, .any⟩, ⟨16, 8, .any⟩, ⟨10, 2, .any⟩, ⟨8, 2, .any⟩], 0x0, 0x10a0900⟩ else -- GRN_SERVO_CTRL
  if o = 0x81c then ⟨[⟨0, 32, .any⟩], 0x0, 0x0⟩ else -- GRN_DELAY_ASYM
  if o = 0x820 then ⟨[⟨16, 16, .any⟩, ⟨0, 16, .any⟩], 0x0, 0xfa00bb8⟩ else -- GRN_TS_LATENCY
  if o = 0x824 then ⟨[⟨0, 16, .any⟩], 0x0, 0x0⟩ else -- GRN_MAC_HI
  if o = 0x828 then ⟨[⟨0, 32, .any⟩], 0x0, 0x0⟩ else -- GRN_MAC_LO
  if o = 0x82c then ⟨[⟨0, 32, .any⟩], 0x0, 0x0⟩ else -- GRN_IPV4
  if o = 0x850 then ⟨[⟨0, 32, .any⟩], 0x0, 0x0⟩ else -- GRN_TIME_SET_SEC_HI
  if o = 0x854 then ⟨[⟨0, 32, .any⟩], 0x0, 0x0⟩ else -- GRN_TIME_SET_SEC_LO
  if o = 0x858 then ⟨[⟨0, 30, .any⟩], 0x0, 0x0⟩ else -- GRN_TIME_SET_NS
  if o = 0x85c then ⟨[⟨8, 8, .range 1 255⟩, ⟨1, 1, .any⟩, ⟨0, 1, .any⟩], 0x0, 0x6400⟩ else -- GRN_PPS_CTRL
  if o = 0x860 then ⟨[⟨2, 3, .upTo 4⟩, ⟨1, 1, .any⟩, ⟨0, 1, .any⟩], 0x0, 0x0⟩ else -- GRN_TIME_LINK_CTRL
  if inArr o 0x400 64 0x4 then ⟨[⟨8, 2, .oneOf [0, 1, 2]⟩, ⟨6, 2, .any⟩, ⟨0, 5, .any⟩], 0x0, 0x0⟩ else -- GRN_ROUTE
  if inArr o 0x900 4 0x20 then ⟨[⟨16, 16, .range 1 65535⟩, ⟨10, 2, .any⟩, ⟨6, 1, .any⟩, ⟨0, 3, .upTo 6⟩], 0x0, 0xa0000⟩ else -- GRN_TRG_CTRL
  if inArr o 0x904 4 0x20 then ⟨[⟨0, 32, .any⟩], 0x0, 0x0⟩ else -- GRN_TRG_START_SEC
  if inArr o 0x908 4 0x20 then ⟨[⟨0, 30, .any⟩], 0x0, 0x0⟩ else -- GRN_TRG_START_NS
  if inArr o 0x90c 4 0x20 then ⟨[⟨0, 32, .any⟩], 0x0, 0x3b9aca00⟩ else -- GRN_TRG_PERIOD
  if inArr o 0x910 4 0x20 then ⟨[⟨0, 24, .any⟩], 0x0, 0x0⟩ else -- GRN_TRG_OFFSET
  if inArr o 0xa00 4 0x10 then ⟨[⟨16, 16, .any⟩, ⟨0, 2, .any⟩], 0x0, 0x0⟩ else -- GRN_CAP_CTRL
  descNone

/-- The map row of offset `o` of region `r` (R502 to R512). -/
def regDesc (r o : Nat) : RegDesc :=
  if r = 0 then descSlate o
  else if r = 1 ∨ r = 2 then descFlint o
  else if r = 3 then descQuartz o
  else if r < 8 then descGalena o
  else if r < 12 then (if o < 0x200 then descBauxiteChip o else descBauxite o)
  else if r = 12 then descBorax o
  else if r = 13 then descMica o
  else if r = 14 then descObsidian o
  else descGarnet o

/-- The reset value of the register with a key (R514). -/
def regReset (key : Nat) : Word := (regDesc (key % 0x1000000 / 0x100000) (key % 0x100000)).reset

/-- The chip-wide registers stand at one place, whichever Bauxite window they are reached in (R270, R511). -/
def regHome (r o : Nat) : Nat := if 8 ≤ r ∧ r < 12 ∧ o < 0x200 ∧ 0x100 ≤ o then 8 * 0x100000 + o else r * 0x100000 + o

/-- Kept separately for HA and HB (R511). -/
def perHost (r o : Nat) : Bool :=
  r == 0 && (decide (0xC00 ≤ o ∧ o < 0xC44) || decide (0xA00 ≤ o ∧ o < 0xA40) || decide (0xB00 ≤ o ∧ o < 0xC00))

/-- Kept separately for HA, HB and the frame program (R511). -/
def perRequester (r o : Nat) : Bool :=
  (r == 12 && (o == 0x120 || o == 0x124 || o == 0x12C)) ||
  (r == 15 && (decide (0x840 ≤ o ∧ o < 0x850) || (decide (0xA00 ≤ o ∧ o < 0xA40) && (o % 0x10 == 8 || o % 0x10 == 0xC))))

/-- The new value of a register after a write, by its fields' access codes: RW fields take the written value where their table lists it, W1C bits written 1 are cleared, every other bit stays (R8, R9). -/
def writeByCode (d : RegDesc) (old v : Word) : Word :=
  let afterRw := d.rw.foldl (fun w f =>
    let x := fld v f.lo f.width
    if f.legal.ok x then setFld w f.lo f.width x else w) old
  afterRw &&& ~~~ (v &&& d.w1c)

end Sys2Proof.Machine
end

