-- ==== Sys2Proof/Machine/State.lean ====
section
/-! DEFINITION. The state of the P9: every register, memory, queue, mode and unit the spec gives the block, as plain data; the faults and refusals; the state after reset.
Each field's docstring gives its width where the spec gives one, the rule that names it, and its reset value. -/

namespace Sys2Proof.Machine

/-! The four levels: regions, and the units out of service (R11 to R20, R548). -/

/-- Where a region stands between power-off, service, and a drain, reset and rejoin (R20, R489, R497). -/
inductive RegionPhase where
  | off | poweringOn | initialising | on | draining | inReset | poweringOff
deriving DecidableEq, Repr

/-- What a requested drain leads to: a region reset and rejoin (R20), a power-down (R489), or being kept out of service (R548). -/
inductive DrainFor where
  | rejoin | powerDown | outOfService
deriving DecidableEq, Repr

/-- One region's control state. -/
structure RegionCtl where
  /-- Phase of the region. Width: 3 bits. R20, R489, R502 (SLT_PWR_STATE resets to 0x2: Slate ON, every other region OFF). Reset: off. -/
  phase : RegionPhase := .off
  /-- What the drain in progress leads to. R20, R489, R548. Reset: rejoin. -/
  drainFor : DrainFor := .rejoin
  /-- Times, in ns of `now`, of the region's last resets, newest first: at most 4. R13. Reset: none. -/
  resets : List Nat := []
  /-- Taken out of service until the next chip reset. R548. Reset: false. -/
  outOfService : Bool := false
  /-- Units (block, cell) whose reports arrived while draining or in reset. R17. Reset: none. -/
  deferred : List (Nat × Nat) := []
  /-- Reports of its cells that came while it drained or was in reset, or from a quarantined block: logged and counted, and not acted on. R16, R17. Reset: 0. -/
  reports : Nat := 0
  /-- A region-level fault is being handled: rejoin follows a fault, not a power-up. R20. Reset: false. -/
  rejoining : Bool := false
deriving DecidableEq, Repr

/-- One unit of a block that has retired, or a block that has quarantined itself (cell 0xFF) (R13, R14). -/
structure UnitId where
  region : Nat
  block : Nat
  cell : Nat
deriving DecidableEq, Repr

/-! Requests outstanding and the network (R22 to R31, R148, R467). -/

/-- Who waits for an acknowledgement. -/
inductive AckFor where
  /-- A host write (R467): port, host address. -/
  | host (h : HostId) (addr : Nat)
  /-- A frame-program register write (R148, R149): region, internal address. -/
  | frame (f : FlintId) (addr : Nat)
  /-- A layer-store write of Quartz (R78, R82): port, layer, version stamp. -/
  | layer (p : Fin 4) (layer : Nat) (stamp : Nat)
  /-- A posted or other internal write whose acknowledgement nothing waits on. -/
  | other (region : Nat)
deriving DecidableEq, Repr

/-- One outstanding write: who waits, and the status its acknowledgement will carry (0 = no error, else R24). -/
structure OutAck where
  who : AckFor
  status : Nat
deriving DecidableEq, Repr

/-! The mesh: routers, links, network interfaces (R22 to R29, R429, R433). -/

/-- A flit: four coded words; whether it is its packet's header, or the last of it; the router at which the packet leaves the mesh, as its header names it (R22, R23, R25). -/
structure Flit where
  words : List CodedWord
  first : Bool
  last : Bool
  dest : Fin 40
deriving DecidableEq, Repr

/-- The sending end of a link, and the link; virtual channel 0 carries requests and 1 responses (R25 to R27). -/
structure MeshPort where
  /-- Credits held for channels 0 and 1. R26. Reset: 8 each. -/
  credit : Vector Nat 2 := Vector.replicate 2 8
  /-- The flit on the link, with its channel. R26. Reset: none. -/
  wire : Option (Fin 2 × Flit) := .none
  /-- Credits returning on the sideband. R26. Reset: 0. -/
  back : Vector Nat 2 := Vector.replicate 2 0
  /-- The input whose packet the output sends on channels 0 and 1. R27. Reset: none. -/
  owner : Vector (Option (Fin 5)) 2 := Vector.replicate 2 .none
  /-- The input served last on channels 0 and 1. R27. Reset: 4, so that input 0 is served first. -/
  last : Vector (Fin 5) 2 := Vector.replicate 2 4
  /-- Clocks in a row in which a request could go and a response went. R27. Reset: 0. -/
  waited : Nat := 0
deriving DecidableEq, Repr

/-- A router with its local network interface: sides 0 to 3 face the neighbours at column + 1, column - 1, row + 1 and row - 1, side 4 the interface (R25 to R27, R429). -/
structure MeshNode where
  /-- Input buffers of the five sides, for channels 0 and 1: at most 8 flits each. R26. Reset: empty. -/
  ins : Vector (Vector (List Flit) 2) 5 := Vector.replicate 5 (Vector.replicate 2 [])
  /-- Outputs to the five sides. R27. -/
  outs : Vector MeshPort 5 := Vector.replicate 5 {}
  /-- The interface's own link to the router. R26. -/
  iface : MeshPort := {}
  /-- Flits that the interface has to send on channels 0 and 1, oldest first. Reset: none. -/
  queue : Vector (List Flit) 2 := Vector.replicate 2 []
  /-- Flits of the packets that the interface is receiving on channels 0 and 1. R429. Reset: none. -/
  got : Vector (List Flit) 2 := Vector.replicate 2 []
  /-- The region resets: the credits of the local link are withheld, counted as returning. R433. Reset: false. -/
  withheld : Bool := false
deriving DecidableEq, Repr

/-- The mesh. -/
structure Mesh where
  /-- The 40 routers, in the order in which R12 lists them: router r stands in column r mod 8 and row r / 8. R12, R25. -/
  nodes : Vector MeshNode 40 := Vector.replicate 40 {}
  /-- Tags of each region's outstanding requests. 8 bits each; at most 256. R29. Reset: none. -/
  tags : Vector (List Nat) 16 := Vector.replicate 16 []
deriving DecidableEq, Repr

/-! The calibration map (R47 to R58, R551). -/

/-- The kind of a map (R55). -/
inductive MapKind where
  | none | full | parametric
deriving DecidableEq, Repr

/-- A map buffer's map: which buffer, its kind, what R53 substituted, its bytes as checked, the residual values after substitution. -/
structure MapRec where
  /-- Map buffer 0 to 2. R551. -/
  buf : Nat
  /-- Kind. R55. -/
  kind : MapKind
  /-- Count of substituted components. R53. -/
  subst : Nat
  /-- Header and parameter block, 128 bytes. R47, R48. -/
  head : List Byte
  /-- Substituted components: (node column, node row, component) and the fp64 value that takes their place. R53. -/
  repl : List ((Nat × Nat × Nat) × DWord)
deriving DecidableEq, Repr

/-- A start of a map load: its source and address as latched (R551). -/
structure MapStart where
  dram : Bool
  addr : Nat
deriving DecidableEq, Repr

/-- The calibration map unit. -/
structure CalMap where
  /-- Base of the calibration area of DRAM, from the flash image's settings: three buffers of 1.25 MiB. R442, chapter 02. Reset: 0, until boot applies the settings. -/
  area : Nat := 0
  /-- The load in progress. R551. Reset: none. -/
  load : Option MapStart := .none
  /-- Whether the load waits for DRAM to be in service (pewter mode), chapter 02 after R60. Reset: false. -/
  waitDram : Bool := false
  /-- Whether the load from the panel has sent its first FLASH_READ. R283. Reset: false. -/
  asked : Bool := false
  /-- The map buffer that the load writes. R551. Reset: 0. -/
  buf : Nat := 0
  /-- Bytes of the map read so far. R54, R283, R551. Reset: none. -/
  read : List Byte := []
  /-- The map has been read and waits for the panel serial. R54. Reset: false. -/
  readDone : Bool := false
  /-- The read of the source failed (check 1). R52. Reset: false. -/
  readFailed : Bool := false
  /-- The newest start that waits. R58. Reset: none. -/
  waiting : Option MapStart := .none
  /-- The staged map. R56, R57. Reset: none. -/
  staged : Option MapRec := .none
  /-- The frame from which the search for the staged map's first frame goes up. R57. Reset: 0. -/
  stagedFrom : Nat := 0
  /-- The map in use. R55, R551. Reset: none. -/
  inUse : Option MapRec := .none
  /-- The map that frames below the one in OBS_CALMAP_FRAME still render with. R57. Reset: none. -/
  before : Option MapRec := .none
  /-- Frames whose phase 0 has had a stripe launched, since the timing last started. R57. Reset: none. -/
  launched : List Nat := []
deriving DecidableEq, Repr

/-! Bauxite: the channels and quadrants (R246 to R273, R550). -/

/-- One DRAM channel. -/
structure Chan where
  /-- Read queue, oldest first, up to 64 lines. R257. Reset: empty. -/
  readQ : List LineReq := []
  /-- Write queue: line and time of entry, oldest first, up to 64 lines. R258, R259. Reset: empty. -/
  writeQ : List (Nat × Nat) := []
  /-- A drain is in progress; whether it began on age. R258. Reset: none. -/
  drain : Option Bool := .none
  /-- Lines served since a NORMAL, a LOW, a MIGRATE read was served. R257. Reset: 0. -/
  since : Nat × Nat × Nat := (0, 0, 0)
  /-- Times in a row that a younger read of classes 0 to 3 has passed the oldest. R257. Reset: 0. -/
  passes : Vector Nat 4 := Vector.replicate 4 0
  /-- Times in a row that a younger write has passed the oldest in the drain. R258. Reset: 0. -/
  wpasses : Nat := 0
  /-- Open rows, data and check rows: (slot, bank, row). R249, R260. Reset: none. -/
  openRows : List (Nat × Nat × Nat) := []
  /-- Channel training has ended well. R263. Reset: false. -/
  trained : Bool := false
  /-- MR4 of ranks 0 and 1: band of the newest read and of the one before (0 NORMAL, 1 HOT, 2 EXTENDED). R261. Reset: none read. -/
  mr4 : Vector (List Nat) 2 := Vector.replicate 2 []
  /-- Ranks 0 and 1 report derating or a temperature beyond range. R261, R388. Reset: false. -/
  derate : Vector Bool 2 := Vector.replicate 2 false
  /-- A phase shift waits for the next refresh window. R263. Reset: false. -/
  shift : Bool := false
  /-- Corrections since the last ECC_CORRECTED of ranks 0 and 1, and the time of that event. R273. Reset: 0, none. -/
  ecc : Vector (Nat × Option Nat) 2 := Vector.replicate 2 (0, .none)
deriving DecidableEq, Repr

/-- One quadrant's spare and migration. -/
structure Quad where
  /-- Rank index whose slot the spare serves. R265. Reset: none. -/
  moved : Option Nat := .none
  /-- Words written poisoned by the running migration. R265, R273. Reset: 0. -/
  migPoison : Nat := 0
  /-- Words (address / 8) that the running migration has written poisoned to the spare and that are not poisoned in the old rank. R265, R266. Reset: none. -/
  spareBad : List Nat := []
  /-- Time of `now` at which the running migration started, from which MIG_RATE is kept. R257, R265. Reset: 0. -/
  migAt : Nat := 0
deriving DecidableEq, Repr

/-- The DRAM system's own state; BXT_RANK_STATE and BXT_MIG_STATUS hold the ranks' states and the migration pointer. -/
structure Dram where
  /-- Channels 0 to 31. R250. -/
  ch : Vector Chan 32 := Vector.replicate 32 {}
  /-- Quadrants 0 to 3. R247. -/
  quad : Vector Quad 4 := Vector.replicate 4 {}
  /-- Band that takes effect at the next strobe. R261. Reset: none. -/
  nextBand : Option Nat := .none
  /-- BRING_UP has been written: training or initialisation is in progress. R550. Reset: false. -/
  bringing : Bool := false
  /-- BRING_UP waits for the 2 ms after DRAM_PWR_EN rose. R490. Reset: false. -/
  bringWaits : Bool := false
deriving DecidableEq, Repr

/-- The PTP-disciplined time: 64-bit seconds, ns below 10^9, 2^-16 ns (R360, R361). -/
structure TimeCtr where
  sec : Nat := 0
  ns : Nat := 0
  frac : Nat := 0
deriving DecidableEq, Repr

/-! Quartz: ports, streams, layers, binds (R61 to R87, R549). -/

/-- The five roles of a layer buffer (R77). -/
inductive BufRole where
  | bound | pending | writing | retiring | free
deriving DecidableEq, Repr

/-- One declaration entry of STREAM_START (R64). -/
structure LayerDecl where
  id : Nat
  kind : Nat
  format : Nat
  planes : Nat
  maxW : Nat
  maxH : Nat
deriving DecidableEq, Repr

/-- A LAYER_HEADER's fields; fp32 fields as their bits (R71). -/
structure LayerHdr where
  kind : Nat
  format : Nat
  planes : Nat
  width : Nat
  height : Nat
  xMin : Word
  xMax : Word
  yMin : Word
  yMax : Word
  zNear : Word
  zFar : Word
  policy : Nat
  viewCount : Nat
  viewCols : Nat
  uFirst : Word
  uStep : Word
deriving DecidableEq, Repr

/-- A version of a layer: its scene frame, its header, the bands that have arrived and those written, the writes not yet acknowledged. -/
structure LayerVer where
  /-- SCENE_FRAME_NUMBER. R70. -/
  frame : Nat
  hdr : LayerHdr
  /-- Bands (plane, band) that have arrived. R82 DUPLICATE. -/
  got : List (Nat × Nat)
  /-- Bands (plane, band) decoded and written. R78. -/
  written : List (Nat × Nat)
  /-- Layer-tile rows whose tile entries Quartz has formed. R74. -/
  tiles : List Nat
  /-- Writes whose WRITE_ACK has not arrived. R78. -/
  acks : Nat
  /-- Stamp that tells this version's writes from those of an abandoned one. Model's own. -/
  stamp : Nat
deriving DecidableEq, Repr

/-- One of a layer's three buffers (R76, R77). -/
structure LayerBuf where
  base : Nat
  size : Nat
  role : BufRole
  ver : Option LayerVer
  /-- The last frame bound to this buffer. R77. -/
  lastFrame : Option Nat
  /-- FRAME_RENDERED of that frame has been reported. R77. -/
  reported : Bool
deriving DecidableEq, Repr

/-- One declared layer of a stream (R64, R76, R79). -/
structure Layer where
  decl : LayerDecl
  bufs : List LayerBuf
  /-- LAYER_HEADERs that have arrived, newest first: scene frame, POLICY field, accepted. R79. -/
  policies : List (Nat × Nat × Bool)
deriving DecidableEq, Repr

/-- A scene frame that has begun (R70, R79). -/
structure SceneFrame where
  number : Nat
  mask : Nat
  presentSec : Nat
  presentNs : Nat
deriving DecidableEq, Repr

/-- The control fields a stream runs with (R85: a change while enabled takes effect at the next STREAM_START). -/
structure StreamCfg where
  slotBase : Nat
  slotCount : Nat
  policyDefault : Nat
  policyFromStream : Bool
  stallTimeout : Nat
deriving DecidableEq, Repr

/-- A stream's declaration (R64). -/
structure Stream where
  major : Nat
  minor : Nat
  fit : Nat
  aspect : Word
  rate : Nat
  audioChannels : Nat
  cfg : StreamCfg
deriving DecidableEq, Repr

/-- STATE of QTZ_PORTn_STATUS (R86). -/
inductive PortState where
  | idle | active | stalled | refused
deriving DecidableEq, Repr

/-- The fields of a STREAM_STATUS unit (R68). -/
structure StatusOut where
  status : Nat
  major : Nat
  minor : Nat
  vmax : Nat
deriving DecidableEq, Repr

/-- One source port's parser and layers. -/
structure QPort where
  /-- STATE. 2 bits. R86. Reset: idle. -/
  state : PortState := .idle
  /-- The stream as declared. R64. Reset: none. -/
  stream : Option Stream := .none
  /-- Expected SEQ of the next unit. 16 bits. R549. Reset: 0. -/
  expSeq : Nat := 0
  /-- The parser skips units until SCENE_FRAME_BEGIN or STREAM_START. R82 SEQUENCE. Reset: false. -/
  skipping : Bool := false
  /-- The end of a unit cannot be found: the parser looks at every multiple of 8 bytes. R549. Reset: false. -/
  searching : Bool := false
  /-- The scene frame in progress. R70. Reset: none. -/
  cur : Option SceneFrame := .none
  /-- Layers whose LAYER_HEADER has arrived in the scene frame. R63. Reset: none. -/
  headers : List Nat := []
  /-- Layers abandoned in the scene frame in progress. R82. Reset: none. -/
  dropped : List Nat := []
  /-- Scene frames begun in the stream, newest first. R79. Reset: none. -/
  begun : List SceneFrame := []
  /-- The declared layers. R64. Reset: none. -/
  layers : List Layer := []
  /-- Buffers of ended streams not yet released: BOUND and RETIRING ones. R69, R76. Reset: none. -/
  ended : List LayerBuf := []
  /-- Units that Septolink flow control holds while no buffer can be written, oldest first. R77. Reset: none. -/
  held : List (List Byte) := []
  /-- The fields of QTZ_PORTn_CTRL in effect. 32 bits. R85. Reset: those of the register. -/
  ctrl : Word := 0x04000006
  /-- STREAM_STATUS units that wait to be sent on CHANNEL 1, oldest first. R68. Reset: none. -/
  statusOut : List StatusOut := []
  /-- SEQ of the next STREAM_STATUS. 16 bits. R68. Reset: 0. -/
  statusSeq : Nat := 0
  /-- Arrival times, in ns, of the last SCENE_FRAME_BEGIN units, newest first: at most 9. R84. Reset: none. -/
  begins : List Nat := []
  /-- Mean interval last reported, in ns; 0 = none. R84. Reset: 0. -/
  reported : Nat := 0
  /-- RATE_CHANGED has been raised for the present departure. R84. Reset: false. -/
  rateRaised : Bool := false
deriving DecidableEq, Repr

/-- A BORAX band on its way through Borax (R74, R236). -/
structure IngestItem where
  port : Fin 4
  layer : Nat
  stamp : Nat
  plane : Nat
  band : Nat
  size : Nat
  payload : List Byte
deriving DecidableEq, Repr

/-- A bind request (R79, R158). -/
structure BindReq where
  frame : Nat
  sec : Nat
  ns : Nat
deriving DecidableEq, Repr

/-- The Quartz region. -/
structure Quartz where
  /-- Source ports SP0 to SP3. R12. -/
  ports : Vector QPort 4 := Vector.replicate 4 {}
  /-- The bind that runs. R80. Reset: none. -/
  bindRun : Option BindReq := .none
  /-- The newest bind request that waits. R80. Reset: none. -/
  bindWait : Option BindReq := .none
  /-- The table the next bind writes: 0 first after reset. R80. Reset: 0. -/
  nextTable : Nat := 0
  /-- Stamp of the next layer version. Model's own. Reset: 0. -/
  stamp : Nat := 0
  /-- Bands sent to Borax for decoding, oldest first. R74, R236. Reset: none. -/
  ingest : List IngestItem := []
deriving DecidableEq, Repr

/-! Slate: power modes, clocks and reset (R479 to R498). -/

/-- The power modes Slate itself tells apart; PEWTER and FULL are `run`, told apart by the DRAM group (R479). -/
inductive PowerMode where
  | off | standby | boot | recovery | run
deriving DecidableEq, Repr

/-- Power, clock and reset control. -/
structure Power where
  /-- Mode. R479. Reset: boot (SLT_PWR_STATUS.MODE resets to BOOT, R497). -/
  mode : PowerMode := .boot
  /-- Level of REFCLK_EN. R484, R497. Reset: low. -/
  refclkEn : Bool := false
  /-- Level of DRAM_PWR_EN. R490, R497. Reset: low. -/
  dramPwrEn : Bool := false
  /-- When BRING_UP can take effect: 2 ms after DRAM_PWR_EN rose, in ns of `now`. R490. Reset: 0. -/
  dramReadyAt : Nat := 0
  /-- Level of the LPDDR5 RESET_N outputs: held low until bring-up. R246. Reset: low. -/
  dramReset : Bool := false
  /-- Held request of each region: some true = ON. R492. Reset: none. -/
  held : Vector (Option Bool) 16 := Vector.replicate 16 .none
  /-- Users of the DRAM group that start when the last Bauxite region is ON. R491. Reset: none. -/
  startAfter : List Nat := []
  /-- Bauxite regions that power down when the users of the request are OFF. R491. Reset: none. -/
  stopAfter : List Nat := []
  /-- Regions the last PWR names, and whether it asks ON. R492 (e20), R160. Reset: none. -/
  lastPwr : Option (List Nat × Bool) := .none
  /-- SLEEP waits for boot to end, or runs. R480. Reset: none, not running. -/
  sleepHeld : Bool := false
  sleeping : Bool := false
  /-- The last window, and the one before, were beyond ±1,000 ppm. R486. Reset: false. -/
  rateBad : Bool := false
  /-- Deviation of REFCLK in the last window, ppm. R486. Reset: 0. -/
  refDev : Int := 0
  /-- The last window was outside ±300 ppm. R486, R497. Reset: false. -/
  margin : Bool := false
  /-- REFCLK_MARGIN has been raised in the episode of windows outside ±300 ppm. R486. Reset: false. -/
  marginSaid : Bool := false
  /-- A REFCLK_FAULT has occurred since the last chip reset. R497. Reset: false. -/
  refclkFault : Bool := false
  /-- Slate runs from its internal oscillator, and the wake CLOCK_RETURN is awaited. R487. Reset: false. -/
  clockLost : Bool := false
  /-- XTAL_FAULT holds. R486. Reset: false. -/
  xtalFault : Bool := false
  /-- SYS_RESET_N is low. R494. Reset: high. -/
  resetPin : Bool := false
  /-- PFAIL_N is low. R306, R530. Reset: high. -/
  pfailLow : Bool := false
  /-- A wake, by its code of R482, that waits for PFAIL_N or for the cooling after a shutdown. R393, R530. Reset: none. -/
  wakeHeld : Option Nat := .none
  /-- A fall of SYS_RESET_N waits for the abrupt-loss steps to end. R495. Reset: false. -/
  resetWaits : Bool := false
deriving DecidableEq, Repr

/-! Galena: launches, tiles, contexts, caches (R88 to R138). -/

/-- A tile: the unit of work that blocks take (R122, R123). -/
structure TileId where
  frame : Nat
  phase : Nat
  stripe : Nat
  col : Nat
deriving DecidableEq, Repr

/-- An accepted launch as a region holds it (R119, R121). -/
structure Launch where
  /-- Number given at acceptance. Model's own. -/
  id : Nat
  record : LaunchRec
  /-- Stripes dropped for PAST or OVERLAP. R119. -/
  dropped : List Nat
  /-- Reason of R113 when the kernel was refused; 0 = accepted. -/
  refused : Nat
  /-- Instruction words of the kernel. R112, R121. -/
  code : List DWord
  entry : Nat
  budget : Nat
  fallbackV : Nat
  /-- The constant block. R103. -/
  consts : List Byte
  /-- The 64 descriptors of R81, 64 bytes each. R121. -/
  table : List Byte
deriving DecidableEq, Repr

/-- One group context of a ray cell (R89, R91, R125). -/
structure RayCtx where
  id : CtxId
  tile : TileId
  /-- Number of the launch. -/
  launch : Nat
  /-- Group 0 to 383 of its tile. R124. -/
  group : Nat
  /-- Index of the next instruction. R102. -/
  pc : Nat
  /-- v0 to v63, 8 lanes of 32 bits. R91; start of group: 0. -/
  v : Vector (Vector Word 8) 64
  /-- s0 to s15. R91; start of group: the launch's scalars. -/
  sc : Vector Word 16
  /-- p0 to p7, one bit a lane. R91; start of group: p0 = 0xFF, the others 0. -/
  p : Vector Byte 8
  /-- k0 to k7, 8 lanes. R45, R91. -/
  k : Vector (Vector Word 8) 8
  /-- Charge. R99, R114; start of group: 0. -/
  charge : Nat
  /-- What each lane has emitted, 10 bits. R104; start of group: none. -/
  emitted : Vector (Option Nat) 8
  /-- The group runs again after a retry, and raises no kernel fault. R90. -/
  retry : Bool
deriving DecidableEq, Repr

/-- A tile in a block: groups handed out and ended, its emitted values, lines sent (R123 to R127). -/
structure TileRun where
  tile : TileId
  launch : Nat
  /-- Next group to hand to a cell. R124. -/
  nextGroup : Nat
  /-- Groups handed back by retired cells, to be run again. R134. -/
  again : List Nat
  /-- Groups ended. R126. -/
  ended : List Nat
  /-- Emitted values: key 192 × line + 3 × pixel + colour in the tile. R104, R126. -/
  out : List (Nat × Nat)
  /-- Lines already sent to Mica. R126, R127. -/
  sent : List Nat
deriving DecidableEq, Repr

/-- One set of a cache: which line each way holds, the tree pseudo-LRU bits, the ways disabled (R130, R132). -/
structure CacheSet where
  ways : Vector (Option Nat) 16
  plru : BitVec 15
  disabled : List Nat
deriving DecidableEq, Repr

/-- A cache: its sets that hold a line or a disabled way, keyed by set; lines being fetched; times of dropped lines by (set, way) (R130, R132). -/
structure Cache where
  sets : List (Nat × CacheSet) := []
  /-- Lines being fetched. R130. -/
  missing : List Nat := []
  /-- Lines missed beyond the limit of outstanding misses, oldest first. R130. -/
  waiting : List Nat := []
  /-- Single-bit errors corrected on read. R132. -/
  corrected : Nat := 0
  /-- Drops of a way position: (set, way, time). R132. -/
  drops : List (Nat × Nat × Nat) := []
deriving DecidableEq, Repr

/-- A ray block. -/
structure RayBlock where
  /-- Tiles in progress, first taken first: at most 2 whose groups are not all handed out (R123), at most 8 in the output buffer (R126). Reset: none. -/
  tiles : List TileRun := []
  /-- Launch contexts loaded: at most 2. R121. Reset: none. -/
  launches : List Nat := []
  /-- Cell that the round-robin offers next. R124. Reset: 0. -/
  nextCell : Nat := 0
  /-- The sample cache. R130. Reset: empty. -/
  cache : Cache := {}
deriving DecidableEq, Repr

/-- A Galena region. -/
structure Galena where
  /-- The launch queue, at most 8 records. R118. Reset: empty. -/
  queue : List LaunchRec := []
  /-- Launches accepted and not finished. R119. Reset: none. -/
  launches : List Launch := []
  /-- Number of the next launch. Model's own. Reset: 0. -/
  nextLaunch : Nat := 0
  /-- The tile queue, in order. R123. Reset: empty. -/
  tileQ : List TileId := []
  /-- Tiles of the queue that a quarantined block handed back: they stand ahead of their stripe's unstarted tiles. R123, R134. Reset: none. -/
  back : List TileId := []
  /-- The twelve ray blocks. R12. -/
  blocks : Vector RayBlock 12 := Vector.replicate 12 {}
  /-- Block served last. R123. Reset: 11, so that block 0 is served first. -/
  lastBlock : Nat := 11
  /-- The layer cache. R130. Reset: empty. -/
  cache : Cache := {}
  /-- Frame whose launch invalidated the caches last. R131. Reset: none. -/
  cacheFrame : Option Nat := .none
  /-- Level-0 causes a cell has raised for a launch: (block, cell, cause, launch). R115. Reset: none. -/
  raised : List (Nat × Nat × Nat × Nat) := []
  /-- Phases in which STRIPE_LATE has been raised: (frame, phase). R128. Reset: none. -/
  lateRaised : List (Nat × Nat) := []
  /-- Residual tile words that a block's ray generator has lost for a stripe: (block, (frame, phase, stripe), tile, byte offset of the word). R60. Reset: none. -/
  lost : List (Nat × (Nat × Nat × Nat) × Nat × Nat) := []
deriving DecidableEq, Repr

/-- A stripe that has opened and whose deadline is not past, or whose words are in the ring (R120, R122, R127). -/
structure Stripe where
  frame : Nat
  phase : Nat
  num : Nat
  /-- Owner of each tile column: (column, Galena region 0 to 3). R122, R134. -/
  owner : List (Nat × Nat)
  /-- Words in the ring: key (line × 240 + column) × 8 + word, and the 256-bit word. R126, R127. -/
  words : List (Nat × BitVec 256)
  /-- Fully delivered, or declared late and cancelled. R129. -/
  complete : Bool
  /-- Declared late. R128. -/
  late : Bool
  /-- Lines of the stripe that Obsidian has taken. R127. -/
  taken : Nat
deriving DecidableEq, Repr

/-- The rendered stripe queue and the count of stripes (R127 to R129). -/
structure StripeQueue where
  /-- Open stripes, in stripe order. R127. Reset: none. -/
  open_ : List Stripe := []
  /-- The last stripe whose deadline has passed: frame, phase, stripe. R119, R128. Reset: none. -/
  past : Option (Nat × Nat × Nat) := .none
deriving DecidableEq, Repr

/-! The scan, Obsidian and Mica (R175 to R220, R274 to R310). -/

/-- The delivered scan: where the panel is, and how it departs from the schedule (R155, R276 to R288, R372). -/
structure Scan where
  /-- The timing runs. FLA_TIMING_CTRL.RUNNING. R276, R309. Reset: false. -/
  running : Bool := false
  /-- Frame number, 32 bits, from 0 at each start of the timing. R155. Reset: 0. -/
  frame : Nat := 0
  /-- Phase, or write of a paired frame. R155, R298. Reset: 0. -/
  phase : Nat := 0
  /-- Slot of the phase: the line field of R155. R277. Reset: 0. -/
  slot : Nat := 0
  /-- Slot 0 of the first phase has begun since the start of the timing. Model's own. Reset: false. -/
  begun : Bool := false
  /-- The scan is held: no line start came. R287. Reset: false. -/
  held : Bool := false
  /-- Lag of the delivered scan behind the schedule, ps; negative is lead. R287, R288, R372. Reset: 0. -/
  lag : Int := 0
  /-- Phases that recovery has taken. R310. Reset: 0. -/
  recovery : Nat := 0
  /-- Blanking slots inserted for a lead in the phase in progress. R372. Reset: 0. -/
  inserted : Nat := 0
  /-- Paired scan in effect. R298, R309 (PAIRED). Reset: false. -/
  paired : Bool := false
  /-- The phase is the first after the timing started or after paired scan ended. R293. Reset: true. -/
  noDrive : Bool := true
  /-- Level of BLP outputs is held low. R304, R305. Reset: true. -/
  strobeOff : Bool := true
deriving DecidableEq, Repr

/-- STATE of OBS_PANEL_STATUS (R309). -/
inductive PanelState where
  | off | poweringOn | on | poweringOff | safe
deriving DecidableEq, Repr

/-- The step a power sequence has reached (R304 to R306). -/
inductive SeqStep where
  | idle
  /-- R304: script 0 runs. -/
  | logicOn
  /-- R304: lanes train. -/
  | training
  /-- R304: IDENTIFY sent, its reply awaited. -/
  | identify
  /-- R304: script 1 runs. -/
  | driveOn
  /-- R304: SAFE sent; the timing starts at the first frame start. -/
  | waitFrame
  /-- R304: frames 0 and 1 are written. -/
  | firstFrames
  /-- R305: the next phase start is awaited. -/
  | offRequested
  /-- R305: frames F_off and F_off + 1 are written from OBS_FILL; the frame after which the timing stops. -/
  | fillFrames (last : Nat)
  /-- R305: 2 ms to script 2. -/
  | offDelay
  /-- R305: script 2 runs. -/
  | driveOff
  /-- R305: script 3 runs. -/
  | logicOff
  /-- R306: script 4 runs from Slate's copy. -/
  | discharge
  /-- R306: script 4 has ended; 0.5 ms to the log entry. -/
  | dischargeEnd
deriving DecidableEq, Repr

/-- Who asked for a script (R303). -/
inductive ScriptFor where
  | sequence | monitor | user
deriving DecidableEq, Repr

/-- The PMIC script that runs (R301 to R303). -/
structure ScriptRun where
  script : Nat
  entry : Nat
  why : ScriptFor
  /-- Slate drives the port, from its own copy. R301, R306. -/
  slate : Bool
  /-- NACKs of the present entry. R301. -/
  nacks : Nat
deriving DecidableEq, Repr

/-- Why the panel is in, or enters, the safe state; 1 to 6 of R310. Its cause in the Slate log (R306, R495). -/
structure SafeCause where
  reason : Nat
  /-- What continues when the sequence ends: 0 nothing, 1 PFAIL (R306), 2 SYS_RESET (R495), 3 REFCLK (R487), 4 THERMAL (R391). -/
  next : Nat
deriving DecidableEq, Repr

/-- The payload of a driver command: bytes, or the 10-bit codes of a line's subpixels (R282). -/
inductive DrvData where
  | bytes (l : List Byte)
  | codes (l : List Nat)
deriving DecidableEq, Repr

/-- A command sent to column drivers (R282): group (12 = every group), opcode, driver, argument, payload. -/
structure DrvCmd where
  group : Nat
  opcode : Nat
  driver : Nat
  arg : Nat
  payload : DrvData
deriving DecidableEq, Repr

/-- A strobe of a backlight output (R281): slots count from slot 0 of its phase; `age` counts the slots begun since. -/
structure Strobe where
  out : Nat
  on : Nat
  off : Nat
  delay : Nat
  age : Nat
deriving DecidableEq, Repr

/-- A pulse of a GT output: its level, and its start and end in ps from the start of the present slot (R280). -/
structure GtPulse where
  out : Nat
  level : Bool
  from_ : Int
  to_ : Int
deriving DecidableEq, Repr

/-- A transaction of the PMIC port (R301, R302): a write of a register's value, or with no value a read by a repeated START. -/
structure PmicXfer where
  addr : Nat
  reg : Nat
  value : Option Byte
  /-- SPEED. R301, R309. -/
  speed : Nat
deriving DecidableEq, Repr

/-- The history of a line as it was read for its next write: none for a subpixel whose read failed (R291, R293). -/
structure HistRead where
  line : Nat
  /-- The data had not come when it was read. R293. -/
  late : Bool
  levels : List (Option Nat)
deriving DecidableEq, Repr

/-- Obsidian. -/
structure Obsidian where
  /-- STATE. R309. Reset: off. -/
  state : PanelState := .off
  /-- Step of the sequence that runs. R304 to R306. Reset: idle. -/
  step : SeqStep := .idle
  /-- Held ON (true) or OFF request. R307. Reset: none. -/
  heldReq : Option Bool := .none
  /-- A reboot, sleep or thermal action waits for power-off to end. R305, R459, R480: 1 reboot, 2 sleep. Reset: 0. -/
  afterOff : Nat := 0
  /-- The script that runs. R303. Reset: none. -/
  script : Option ScriptRun := .none
  /-- Scripts that wait, in request order. R303. Reset: none. -/
  scriptQ : List (Nat × ScriptFor) := []
  /-- The cause of the abrupt-loss sequence in progress. R306, R308. Reset: none. -/
  safeCause : Option SafeCause := .none
  /-- Slate's copy of script 4 and of OBS_GT_SAFE. R303. Reset: zero entries, 0. -/
  script4 : List Word := List.replicate 16 0
  gtSafe : Word := 0
  /-- The transaction that the PMIC port carries. R301, R302. Reset: none. -/
  port : Option PmicXfer := .none
  /-- Level at which GT0 to GT11 rest, one bit each. R280, R304, R305. Reset: 0. -/
  gtLevel : Nat := 0
  /-- WAVE_COMMIT waits for the next frame start. R296. Reset: false. -/
  commit : Bool := false
  /-- The live waveform sets: words of OBS_WAVE_WINDOW that differ from 0, by word index. R295, R296. Reset: none. -/
  wave : List (Nat × Word) := []
  /-- Band latched for the current frame; OBS_PANEL_STATUS.BAND shows it. R296, R309. 3 bits. Reset: 0. -/
  band : Nat := 0
  /-- Band of the newest T_p. R294. 3 bits. Reset: 0. -/
  bandNow : Nat := 0
  /-- The BLP output that is high, and the strobes that hold it high. R281. Reset: none, 0. -/
  blp : Option Nat := .none
  blpHolds : Nat := 0
  /-- Strobes whose entries have been taken and that have not ended. R281. Reset: none. -/
  strobes : List Strobe := []
  /-- Edges of BLP outputs in the present slot: output, level, ps after the slot start. R281. Reset: none. -/
  blpEdges : List (Nat × Bool × Int) := []
  /-- Edges of BLP outputs that are still to come, in the order of their times from the start of the present slot. R281. Reset: none. -/
  blpDue : List (Nat × Bool × Int) := []
  /-- Pulses of GT outputs that have not ended. R280. Reset: none. -/
  gtPulses : List GtPulse := []
  /-- Lines whose overdrive history has been read and that have not been taken. R291. Reset: none. -/
  hist : List HistRead := []
  /-- POL_PATTERN in effect. R284, R309. Reset: 3 (DOT). -/
  pol : Nat := 3
  /-- Argument of the last POL_MODE sent. R282, R324. Reset: 3. -/
  polTold : Nat := 3
  /-- Reason for which pewter mode is to be entered at a frame start: 0 none, 1 to 4 of R299. Reset: 0. -/
  pewterWhy : Nat := 0
  /-- Reason for which pewter mode was entered. R299, R481. Reset: 0. -/
  pewterIn : Nat := 0
  /-- MODE was written NORMAL in pewter mode, and waits until it can be met. R299. Reset: false. -/
  pewterExit : Bool := false
  /-- The pewter buffer's written bytes; a byte not listed has not been written since Obsidian was powered up and is undefined. R297. -/
  pewter : List Host.Cell := []
  /-- Number of times Obsidian has been powered up, which tells apart the undefined contents. R297. Model's own. Reset: 0. -/
  pewterEra : Nat := 0
  /-- The panel's serial has been reported since the last reset of Obsidian. R54. Reset: false. -/
  identified : Bool := false
  /-- The identity block. R283. Reset: none. -/
  ident : List Byte := []
  /-- Commands sent to the column drivers for the last slot or step, oldest first. R282. Reset: none. -/
  sent : List DrvCmd := []
  /-- Commands that wait for a blanking slot, oldest first. R324. Reset: none. -/
  drvWait : List DrvCmd := []
  /-- Events at most once per phase raised in this one: LINES_MISSING, OVERDRIVE_SKIPPED. R290, R293. Reset: false. -/
  missRaised : Bool := false
  odRaised : Bool := false
  /-- Lines without overdrive in this phase. R293. Reset: 0. -/
  odLines : Nat := 0
  /-- Last reply to a STATUS_READ: group, driver, value. R282. Reset: none. -/
  statusReply : Option (Nat × Nat × Word) := .none
  /-- A boot map load starts at the end of panel training. R304, R452. Reset: false. -/
  mapAtTraining : Bool := false
deriving DecidableEq, Repr

/-- A set of Mica's staged registers as a snapshot takes them (R188). -/
structure MicaSet where
  /-- CTRL, SRC_SIZE, DST_SIZE, DST_POS, PITCH, BUF0_LO, BUF0_HI, BUF1_LO, BUF1_HI of planes 0 to 7. R197. -/
  planes : Vector (List Word) 8
  order : Word
  compose : Word
  /-- Planes refused at the snapshot. R185. -/
  refused : List Nat
deriving DecidableEq, Repr

/-- The set after a chip reset: every register at its reset value (R514). -/
def MicaSet.reset : MicaSet :=
  { planes := (Vector.replicate 8 [0xFF000040, 0, 0, 0, 0, 0, 0, 0, 0]).set 0 [0, 0, 0, 0, 0, 0, 0, 0, 0]
    order := 0x00FAC688, compose := 0, refused := [] }

/-- A blit as START latched it (R206 to R215). -/
structure Blit where
  ctrl : Word
  src : Nat
  srcPitch : Nat
  srcPos : Nat × Nat
  dst : Nat
  dstPitch : Nat
  dstPos : Nat × Nat
  size : Nat × Nat
  fg : Word
  bg : Word
  pat : Nat
  /-- Abort asked. R212. -/
  aborting : Bool
deriving DecidableEq, Repr

/-- Mica. -/
structure Mica where
  /-- The live set; retained across a region reset. R189, R196. -/
  live : MicaSet := MicaSet.reset
  /-- The pending update. R188. Reset: none. -/
  pending : Option MicaSet := .none
  /-- An update is running. R189. Reset: false. -/
  running : Bool := false
  /-- FRONT of planes 0 to 7, one bit each; retained. R190, R196. Reset: 0. -/
  front : Nat := 0
  /-- Marks. R190. Reset: 0. -/
  marks : Nat := 0
  /-- Planes refused in the newest snapshot. R198. Reset: 0. -/
  refusedBits : Nat := 0
  /-- Planes not shown for the frame: DROP. R191. Reset: none. -/
  dropped : List Nat := []
  /-- Segments of the repeat ring's lines that have been filled: (frame, phase, stripe, 64 × line + segment) and its codes, 3 a pixel. R194, R195. Reset: none. -/
  repeatRing : List ((Nat × Nat × Nat × Nat) × List Nat) := []
  /-- Events raised at most once: planes of PLANE_UNDERRUN in the frame; REPEAT_FILLED and SHADOW_LINE_DROPPED in the phase. R187, R193, R195. Reset: none. -/
  underrunRaised : List Nat := []
  fillRaised : Bool := false
  shadowRaised : Bool := false
  /-- Lines filled of the stripe in progress. R199. Reset: 0. -/
  filled : Nat := 0
  /-- The words of the line sent last, to Obsidian and, where it took them, to Borax. R192. Reset: none. -/
  sent : List (BitVec 1024) := []
  /-- Stripes whose repeat point has passed, the newest two. R194. Reset: none. -/
  asked : List (Nat × Nat × Nat) := []
  /-- The blit that runs. R206. Reset: none. -/
  blit : Option Blit := .none
deriving DecidableEq, Repr

/-! Garnet's audio (R343 to R359). -/

/-- One audio port: OP0 to OP3 are 0 to 3, IP0 and IP1 are 4 and 5 (R343). -/
structure AudioPort where
  /-- The settings it runs with, GRN_OPn_CTRL as it was when the port was enabled. R343, R357. Reset: none. -/
  run : Option Word := .none
  /-- Started. R346. Reset: false. -/
  started : Bool := false
  /-- STOP waits for the next frame. R346. Reset: false. -/
  stopping : Bool := false
  /-- Grid index of the last frame. R345. Reset: none. -/
  k : Option Nat := .none
  /-- The slots of the last frame on SD. R344. Reset: none. -/
  sd : List Nat := []
  /-- Levels of FSYNC and SD over the BCLKs of the last frame of an output port. R343. Reset: none. -/
  wire : List (Bool × Bool) := []
  /-- Times of the frames discarded in the last second, and the time of the last FRAME_ERROR. R354. Reset: none. -/
  errs : List Nat := []
  errAt : Option Nat := .none
deriving DecidableEq, Repr

/-- The path to one output channel (R348, R355). -/
structure AudioPath where
  /-- The last sample, 24 bits. R355. Reset: 0. -/
  last : Nat := 0
  /-- Frames fabricated in the underrun in progress. R355. Reset: none. -/
  under : Option Nat := .none
  /-- Frames of the ramp to 0. R355. Reset: none. -/
  ramp : Option Nat := .none
deriving DecidableEq, Repr

/-- A frame of embedded audio as Garnet holds it (R353). -/
structure EmbedFrame where
  index : Nat
  first : Nat
  samples : List Nat
  /-- PTP time in ns at which it is due. -/
  due : Nat
  /-- The unit gave its PRESENT time. -/
  present : Bool
deriving DecidableEq, Repr

/-- The locked group (R350 to R352). -/
structure LockGroup where
  /-- Accepted: STATE has been LOCKED. R350. Reset: false. -/
  accepted : Bool := false
  /-- Plays input: the FIFO has held 32 frames. R351, R352. Reset: false. -/
  playing : Bool := false
  /-- Has played: it fabricates when it does not play. R351, R352. Reset: false. -/
  begun : Bool := false
  /-- The FIFO, oldest frame first; at most 64. R351. Reset: empty. -/
  fifo : List (List Nat) := []
  /-- Frames fabricated in the underrun in progress. R352, R355. Reset: none. -/
  under : Option Nat := .none
  /-- Index of the embedded frame that entered the FIFO last. R351, R353. Reset: none. -/
  fed : Option Nat := .none
deriving DecidableEq, Repr

/-- The time-stamps of a clock: edges of a FOLLOWER port, or arrivals of AUDIO units, in 2^-16 ns of PTP time (R354). -/
structure AudioMeter where
  /-- The newest stamp since the clock was last stopped. Reset: none. -/
  seen : Option Nat := .none
  /-- From when the time-out of a stop counts. Reset: none. -/
  since : Option Nat := .none
  /-- First stamp of the measurement. Reset: none. -/
  first : Option Nat := .none
  /-- Frames from the first stamp to the newest. Reset: 0. -/
  frames : Nat := 0
  /-- Frames that the newest edge or unit brought. Reset: 0. -/
  last : Nat := 0
deriving DecidableEq, Repr

/-- The audio part of Garnet. -/
structure Audio where
  /-- The six ports. R343. -/
  ports : Vector AudioPort 6 := Vector.replicate 6 {}
  /-- The paths of the output channels. R348. -/
  paths : Vector (Vector AudioPath 16) 4 := Vector.replicate 4 (Vector.replicate 16 {})
  /-- The newest frame of IP0 and IP1, where it was not discarded. R344, R354. Reset: none. -/
  inputs : Vector (Option (List Nat)) 2 := Vector.replicate 2 .none
  /-- Embedded frames of SP0 to SP3, at most 8,192 each, oldest first. R353. Reset: none. -/
  embed : Vector (List EmbedFrame) 4 := Vector.replicate 4 []
  /-- The locked group. R350. -/
  lock : LockGroup := {}
  /-- Stamps of the clocks in the order of GRN_MEAS0 to GRN_MEAS9. R354. -/
  meters : Vector AudioMeter 10 := Vector.replicate 10 {}
  /-- The start time that armed ports wait for, in ns. R346. Reset: 0. -/
  startAt : Nat := 0
deriving DecidableEq, Repr


/-! Flint: the sequencers, their checkpoints and the shadow run (R139 to R174, R402 to R425). -/

/-- STATE of FLA_SEQ_STATUS (R170). -/
inductive SeqState where
  | stopped | running | faulted | halted
deriving DecidableEq, Repr

/-- A DMA descriptor (R159). -/
structure DmaDesc where
  src : DWord
  dst : DWord
  len : Nat
  srcSpace : Nat
  dstSpace : Nat
  /-- Reserved bytes are 0. -/
  clean : Bool
deriving DecidableEq, Repr

/-- What the instruction at PC waits for (R145). -/
inductive FpWait where
  /-- RDREG: destination, the value and status the register gave, the region and offset read. R149. -/
  | read (d : Nat) (v : Word) (status : Nat) (region off : Nat)
  /-- A WRREG or WRBLK with 256 writes outstanding: the writes that are left. R148. -/
  | write (ws : List (Nat × Word))
  /-- FENCE. R145. -/
  | fence
  /-- WAITE: flags, all of them, clear them, destination, predicate, time limit in ns of `now`. R151. -/
  | events (mask : DWord) (all clear : Bool) (d c : Nat) (limit : Option Nat)
  /-- WAITT to a PTP time, ns. R154. -/
  | time (target : Nat)
  /-- WAITT for a duration: until a time of `now`. R154. -/
  | delay (till : Nat)
  /-- WAITL. R155. -/
  | scan (target : DWord)
  /-- LAUNCH while a Galena queue is full. R118, R157. -/
  | launch (record : LaunchRec)
  /-- DMA on a busy channel: its descriptor's address. R159. -/
  | dma (ch : Nat) (addr : Nat)
  /-- BRXJ while the queue is full. R160. -/
  | brxj (addr engine : Nat)
  /-- SEMACQ queued. R436. -/
  | sem (n : Nat)
  /-- CKPT: its tag; the bank is being written. R163. -/
  | ckpt (tag : Word) (writing : Bool)
deriving DecidableEq, Repr

/-- What a checkpoint bank holds (R163, R407). -/
structure Ckpt where
  g : Vector DWord 32
  p : Byte
  e : DWord
  stack : List Nat
  timers : Vector Nat 4
  dmem : List Host.Cell
  pc : Nat
  tag : Word
  /-- Number of the last action. R407. -/
  action : Nat
deriving DecidableEq, Repr

/-- A program image as loaded (R164). -/
structure ProgImage where
  code : List DWord
  entry : Nat
  data : List Byte
  minor : Nat
deriving DecidableEq, Repr

/-- Place of a Flint region in the shadow run (R410, R424). -/
inductive ShadowState where
  | out | waiting | inShadow
deriving DecidableEq, Repr

/-- One Flint region's own state. -/
structure Flint where
  /-- g0 to g31, 64 bits each. R139. Reset: 0. -/
  g : Vector DWord 32 := Vector.replicate 32 0
  /-- p0 to p7; p0 is 1. R139. Reset: 0x01. -/
  p : Byte := 1
  /-- e0 to e63. R139. Reset: 0. -/
  e : DWord := 0
  /-- Return stack, newest first; at most 16 entries of 14 bits. R139. Reset: empty. -/
  stack : List Nat := []
  /-- Timers 0 to 3, 32 bits: ns left; 0 = stopped. R139, R153. Reset: 0. -/
  timers : Vector Nat 4 := Vector.replicate 4 0
  /-- Instruction memory: the code of the loaded image; words beyond it hold none. R139. Reset: none. -/
  code : List DWord := []
  /-- ENTRY of the loaded image. R164. Reset: 0. -/
  entry : Nat := 0
  /-- Data image of the loaded image, for a restart. R164, R167. Reset: none. -/
  data : List Byte := []
  /-- ISA_MINOR of the loaded image; none is loaded at reset. R164, R457. Reset: none. -/
  minor : Option Nat := .none
  /-- Data memory, 65,536 bytes; an unlisted byte is 0. R139, R166. Reset: 0. -/
  dmem : List Host.Cell := []
  /-- PC, 14 bits; 16,384 stands for the place past the last word of a code that fills the memory. R139, R145. Reset: 0. -/
  pc : Nat := 0
  /-- STATE. R170. Reset: stopped. -/
  st : SeqState := .stopped
  /-- FAULT of the last fault. R170. Reset: 0. -/
  fault : Nat := 0
  /-- What the instruction at PC waits for. R145. Reset: none. -/
  wait : Option FpWait := .none
  /-- The transfer of each DMA channel. R159. Reset: none. -/
  dma : Vector (Option DmaDesc) 4 := Vector.replicate 4 .none
  /-- Checkpoint banks 0 and 1, where valid; retained. R163. Reset: not valid. -/
  banks : Vector (Option Ckpt) 2 := Vector.replicate 2 .none
  /-- The bank written last. R163. Reset: 1, so that bank 0 is written first. -/
  lastBank : Nat := 1
  /-- Time of `now` at which the watchdog last restarted. R168, R172. Reset: 0. -/
  wdogAt : Nat := 0
  /-- The last action number issued, or consumed in the shadow run. 64 bits. R407, R424. Reset: 0. -/
  action : Nat := 0
  /-- Place in the shadow run. R410, R424. Reset: out. -/
  shadow : ShadowState := .out
  /-- Mirror records that have arrived and are not consumed, oldest first; at most 4,096. R409. Reset: none. -/
  mirror : List MirrorRec := []
  /-- Self-test items whose last round passed, bit n = item n. R412, R424. Reset: 0. -/
  selftest : Nat := 0
  /-- Items whose immediate round has begun and not ended, bit n = item n. R411, R412. Reset: 0. -/
  rounds : Nat := 0
  /-- The agent's count has reached 60 microseconds, or the region gives the lease up: no action and no line start. R405, R415. Reset: false. -/
  lapsed : Bool := false
  /-- The pipeline's heartbeat has advanced since the last renewal. R404. Reset: false. -/
  beat : Bool := false
deriving DecidableEq, Repr

/-- Where a change of the lease stands (R403 to R420). -/
inductive LeaseStep where
  | idle
  /-- A voluntary switch-over, or one after a region-level fault or a mismatch: the holder waits for its writes. R415, R417. -/
  | releasing (reason : Nat)
  /-- The guard of 8 microseconds; the reason of the switch-over. R405. -/
  | guard (reason : Nat)
  /-- No eligible region: a cold takeover is awaited. R419. -/
  | cold
  /-- The lease has been granted and the first line start of the new holder is awaited: the reason. R415, R418. -/
  | aligning (reason : Nat)
deriving DecidableEq, Repr

/-- The lease block of Slate; SLT_LEASE_STATUS holds the holder (R402, R423). -/
structure Lease where
  /-- Where a switch-over stands. R415 to R419. Reset: idle. -/
  step : LeaseStep := .idle
  /-- The last holder. R415. Reset: none. -/
  last : Option FlintId := .none
  /-- Time of `now` of the last line start delivered by a holder. R418. Reset: 0. -/
  lineAt : Nat := 0
  /-- Time of `now` of the last renewal or grant. R403. Reset: 0. -/
  renewedAt : Nat := 0
  /-- Time of `now` at which the guard or the wait for a cold takeover began. R405, R419. Reset: 0. -/
  stepAt : Nat := 0
  /-- The standby was in the shadow run at the holder's last line start; its own line start for that slot has come; that for the next slot has come early. R411. Reset: false. -/
  lineDue : Bool := false
  lineSeen : Bool := false
  lineEarly : Bool := false
  /-- A mismatch self-test round runs. R411. Reset: false. -/
  mismatch : Bool := false
  /-- Mirror records on their way to the standby, oldest first. R409. Reset: none. -/
  mirror : List MirrorRec := []
  /-- LAST_ACTION of the sixteen regions. 64 bits each. R408. Reset: 0. -/
  lastAction : Vector Nat 16 := Vector.replicate 16 0
deriving DecidableEq, Repr

/-- A frame-program load in progress (R165): source, address, who. -/
structure ProgLoad where
  flash : Bool
  addr : Nat
deriving DecidableEq, Repr

/-- The two Flint regions together: they run one program (R162, R165). -/
structure Control where
  /-- Flint-A and Flint-B. R11. -/
  fl : Vector Flint 2 := Vector.replicate 2 {}
  /-- The load in progress. R165. Reset: none. -/
  load : Option ProgLoad := .none
  /-- The newest load that waits. R166. Reset: none. -/
  loadWait : Option ProgLoad := .none
  /-- An accepted image that waits for the next FRAME_START. R166. Reset: none. -/
  ready : Option ProgImage := .none
  /-- The register and the time of the last write of LOAD: a write to the other one in the same clock counts with it. R165. Reset: none. -/
  loadAt : Option (FlintId × Nat) := .none
  /-- The lease. R402. -/
  lease : Lease := {}
deriving DecidableEq, Repr


/-! Borax (R221 to R245). -/

/-- A job descriptor in an engine's queue: its address, whether BRXJ queued it, the time of `now` (R231, R234, R236). -/
structure BxJob where
  addr : Nat
  byFrame : Bool
  at_ : Nat
deriving DecidableEq, Repr

/-- An item of a coder lane (R236). -/
inductive BxItem where
  /-- Segment `seg` of a late stripe (frame, phase, stripe), from copy `copy` of the shadow frame. R239. -/
  | repeatSeg (frame phase stripe copy seg : Nat)
  /-- Segment `seg` of a composed stripe. R237. -/
  | shadowSeg (frame phase stripe seg : Nat)
  | ingest (i : IngestItem)
  /-- Band `index` of return frame `frame`, with its raw bytes. R241. -/
  | retBand (frame index : Nat) (raw : List Byte)
  | job (engine : Nat) (j : BxJob)
deriving DecidableEq, Repr

/-- A stripe in the shadow input buffer (R238). -/
structure ShadowStripe where
  frame : Nat
  phase : Nat
  stripe : Nat
  /-- Lines that have arrived: line 0 to 15 and its codes, 3 for each pixel. -/
  lines : List (Nat × List Nat)
  /-- A line is incomplete. R193. -/
  bad : Bool
  /-- Segments not yet coded and written. -/
  left : List Nat
  /-- Why it will be dropped: 2 a segment stayed unverified, 3 a write failed, 0 neither. R238, R245. -/
  why : Nat
deriving DecidableEq, Repr

/-- An intact entry of the directory: phase, stripe, copy, frame (R238). -/
structure ShadowEntry where
  phase : Nat
  stripe : Nat
  copy : Nat
  frame : Nat
deriving DecidableEq, Repr

/-- A return frame in progress (R241). -/
structure RetFrame where
  /-- The model's own number of the frame, by which its bands are told from another's. -/
  id : Nat
  /-- BRX_RET_CTRL as its stream took it. -/
  cfg : Word
  /-- SCENE_FRAME_NUMBER. -/
  number : Nat
  /-- Time of its first light: seconds and nanoseconds. -/
  light : Nat × Nat
  /-- Rows of bands that are not whole: (rank of the phase, row), raw bytes. -/
  rows : List ((Nat × Nat) × List Byte)
  /-- Bands that have been given to coder lanes. -/
  given : List Nat
  /-- Coded bands that wait for an earlier one: index, bytes, raw size. -/
  coded : List (Nat × List Byte × Nat)
  /-- The next band to write. -/
  next : Nat
  /-- SCENE_FRAME_BEGIN has been written. -/
  begun : Bool
  /-- Bytes of it in the ring. -/
  used : Nat
deriving DecidableEq, Repr

/-- What is still to be written to the return ring, in order (R241, R242). -/
inductive RetStep where
  /-- STREAM_START under a value of BRX_RET_CTRL. -/
  | start (cfg : Word)
  /-- STREAM_END. -/
  | stop
  | frame (f : RetFrame)
deriving DecidableEq, Repr

/-- The return stream (R241, R242). -/
structure RetStream where
  /-- A stream is open. Reset: false. -/
  open_ : Bool := false
  /-- BRX_RET_CTRL as the open stream took it. Reset: 0. -/
  cfg : Word := 0
  /-- BRX_RET_CTRL has changed while enabled: the stream ends at the next frame boundary. Reset: false. -/
  changed : Bool := false
  /-- SEQ of the next unit, 16 bits. Reset: 0. -/
  seq : Nat := 0
  /-- SCENE_FRAME_NUMBER of the next return frame, 32 bits. Reset: 0. -/
  number : Nat := 0
  /-- What is still to be written. Reset: nothing. -/
  todo : List RetStep := []
  /-- Number of the next frame by which the model tells its bands. Model's own. Reset: 0. -/
  nextId : Nat := 0
  /-- PORT of the streams in the ring: from which byte on, and the source port. R241. Reset: none. -/
  ports : List (Nat × Nat) := []
  /-- Bytes written to the ring, and bytes of it sent, since the ring was set up. Reset: 0. -/
  wr : Nat := 0
  rd : Nat := 0
deriving DecidableEq, Repr

/-- Borax. -/
structure Borax where
  /-- Coder lanes, 4 × engine + lane: the item each works on. R235. Reset: none. -/
  lanes : Vector (Option BxItem) 16 := Vector.replicate 16 .none
  /-- Repeat segments that wait. R239. Reset: none. -/
  repeatQ : List BxItem := []
  /-- The shadow input buffer: at most 32 lines. R238. Reset: empty. -/
  shadow : List ShadowStripe := []
  /-- Shadow segments that wait. R237. Reset: none. -/
  shadowQ : List BxItem := []
  /-- Return bands that wait. R241. Reset: none. -/
  retQ : List BxItem := []
  /-- Descriptor queues of the four engines: at most 8 each. R234. Reset: empty. -/
  jobs : Vector (List BxJob) 4 := Vector.replicate 4 []
  /-- Jobs that a retired lane of an engine gave back: they run again ahead of its queue. R13, R19. Reset: none. -/
  again : List (Nat × BxJob) := []
  /-- Jobs of a quarantined engine that wait for room in another's queue. R13, R433. Reset: none. -/
  waitRoom : List BxJob := []
  /-- Intact entries of the directory. R238. Reset: none. -/
  dir : List ShadowEntry := []
  /-- The shadow frame is coded: ENABLE as of the present frame. R244. Reset: false. -/
  shadowOn : Bool := false
  /-- SHADOW_STRIPE_DROPPED has been raised in this phase. R238. Reset: false. -/
  dropRaised : Bool := false
  /-- The return stream. R241. -/
  ret : RetStream := {}
deriving DecidableEq, Repr


/-! Slate: events, the log, hosts, semaphores, boot, keys and the flash (R34 to R38, R438 to R478). -/

/-- A queued event with the count that merging gives it (R37). -/
structure QueuedEvent where
  ev : Event
  count : Nat
  /-- The 10 ns clock of Slate in which it arrived. R434. -/
  clk : Nat := 0
deriving DecidableEq, Repr

/-- The event collector (R37, R38). -/
structure Collector where
  /-- Queued events, oldest first; at most 256, and one EVENT_OVERFLOW beside them. R37. Reset: empty. -/
  queue : List QueuedEvent := []
  /-- An overflow episode is in progress. R37. Reset: false. -/
  episode : Bool := false
  /-- Events delivered while no region holds the lease, kept for the new holder, oldest first. R417. Reset: none. -/
  forHolder : List Event := []
deriving DecidableEq, Repr

/-- An entry of the Slate log (R14, R38, R306). -/
inductive LogEntry where
  /-- A delivered event with its count. R37, R38. -/
  | event (e : Event) (count : Nat)
  /-- An abrupt loss or safe panel state: its cause (1 to 6 of R310) and what follows (0 nothing, 1 PFAIL, 2 SYS_RESET, 3 REFCLK, 4 THERMAL). R306, R495. -/
  | loss (reason next : Nat)
  /-- A 128-byte record: THERMAL_SHUTDOWN (TYPE 0x10) or CALIBRATION (TYPE 0x11). R392, R397. -/
  | record (bytes : List Byte)
  /-- TYPE 0x12, RETIRED_CLEARED. R399. -/
  | retiredCleared
deriving DecidableEq, Repr

/-- What the Slate log keeps beside its entries: it survives every reset (R494). -/
structure SlateLog where
  /-- Entries, oldest first. R38. Reset: none. -/
  entries : List LogEntry := []
  /-- The retired set, reapplied at boot: units and blocks (cell 0xFF). R14. Reset: none. -/
  retired : List UnitId := []
  /-- CLEAR_RETIRED: the set empties at the next chip reset. R399. Reset: false. -/
  clear : Bool := false
  /-- Per slot, the SHA-512 of its signed region and its unconfirmed count. R450. Reset: none. -/
  slots : Vector (Option (List Byte × Nat)) 2 := Vector.replicate 2 .none
  /-- NEXT_SLOT: 0 none, 1 A, 2 B. R448, R459. Reset: 0. -/
  nextSlot : Nat := 0
deriving DecidableEq, Repr

/-- OTP (R445); it keeps its contents for good. A part that the manufacturer has not written holds zeros. -/
structure Otp where
  /-- SERIAL, 16 bytes. R445. -/
  serial : List Byte := List.replicate 16 0
  /-- IDENTITY_SEED, 32 bytes. R445. -/
  seed : List Byte := List.replicate 32 0
  /-- DEVICE_CERT, 64 bytes. R445. -/
  cert : List Byte := List.replicate 64 0
  /-- VENDOR_DIGEST, 64 bytes. R445. -/
  vendor : List Byte := List.replicate 64 0
  /-- CUSTOMER0_DIGEST and CUSTOMER1_DIGEST, where programmed. R445. -/
  customer : Vector (Option (List Byte)) 2 := Vector.replicate 2 .none
  /-- REVOKED0 and REVOKED1. R445. -/
  revoked : Vector Bool 2 := Vector.replicate 2 false
  /-- CUSTOMER_LOCK. R445. -/
  lock : Bool := false
  /-- Blown fuses of ROLLBACK, 0 to 64. R445. -/
  rollback : Nat := 0
deriving DecidableEq, Repr

/-- A host's read that is pending: its host address or flash offset, count of words or bytes, whether it reads the flash, and its data and status when complete (R463, R467). -/
structure HostRead where
  flash : Bool
  /-- Device physical address, or flash byte offset. -/
  addr : Nat
  /-- Bytes. -/
  count : Nat
  /-- The frame was cut short: the data is discarded when it comes. R465. -/
  drop : Bool
  /-- The data or the status with which the read has ended. -/
  result : Option (List Byte × Nat)
deriving DecidableEq, Repr

/-- One host port (R461 to R477); its registers are kept with the others, by copies. -/
structure HostPort where
  /-- The protocol level in effect: 0 none, 1 V1_0, 2 V2_0, 3 V2_1. R462. Reset: 0. -/
  level : Nat := 0
  /-- Write words taken and not yet acknowledged, at most 64: host address and value are held in the acknowledgements. R467. Reset: 0. -/
  buffered : Nat := 0
  /-- The read pending. R467. Reset: none. -/
  read : Option HostRead := .none
  /-- The event queue, oldest first; at most 64. R471. Reset: empty. -/
  events : List Event := []
  /-- What IO3 to IO0 carry of the last answer, from the start byte on: a nibble at a time, bit 3 on IO3. R461. Reset: nothing. -/
  io : List (BitVec 4) := []
  /-- The last answer: its bytes from the start byte on without the status, and the status byte; none where the frame gets no answer. R463, R464. Reset: none. -/
  answer : Option (List Byte × Nat) := .none
deriving DecidableEq, Repr

/-- A requester of a semaphore (R436). -/
inductive SemUser where
  | host (h : HostId) | frame
deriving DecidableEq, Repr

/-- A semaphore: its holder and the waiters, first in the list first (R436); SLT_SEM_OWNER shows the holder, SLT_SEM_TIE the tie bit. -/
structure Sem where
  holder : Option SemUser := .none
  waiters : List SemUser := []
deriving DecidableEq, Repr

/-- A flash operation that runs (R476): the host, and the bytes to program (offset, data) or the block to erase (offset, bytes). -/
structure FlashOp where
  host : HostId
  program : Option (Nat × List Byte)
  erase : Option (Nat × Nat)
deriving DecidableEq, Repr

/-- The step boot has reached (R452). -/
inductive BootStep where
  | idle
  /-- Step 1: Slate waits for REFCLK and for its PLL. R484. -/
  | clock
  /-- Step 4: the regions power up. -/
  | powering
  /-- Step 5: the self-test of the Flint regions. -/
  | selftest
  /-- Steps 6 and 7. -/
  | sections
  /-- A slot has failed after regions were powered: they power down. R451. -/
  | unwinding
  /-- BOOT_DONE has been raised. -/
  | done
  | recovery
deriving DecidableEq, Repr

/-- The image that boot has chosen (R440 to R452). -/
structure BootImage where
  /-- 0 = A, 1 = B. -/
  slot : Nat
  base : Nat
  seq : Nat
  keySlot : Nat
  secVersion : Nat
  /-- SHA-512 of the signed region. R457. -/
  digest : List Byte
  /-- Sections: type, flash offset, length, load address, digest. R441. -/
  sections : List (Nat × Nat × Nat × Nat × List Byte)
  /-- BOOT_FLAGS and CALMAP_BASE. R444. -/
  flags : Nat
  calmapBase : Nat
deriving DecidableEq, Repr

/-- Slate beyond power: events, hosts, semaphores, boot, keys, flash. -/
structure Slate where
  /-- The event collector. R37. -/
  coll : Collector := {}
  /-- The Slate log; kept by every reset. R494. -/
  log : SlateLog := {}
  /-- OTP; kept by every reset. R494. -/
  otp : Otp := {}
  /-- Host ports HA and HB. R461. -/
  hosts : Vector HostPort 2 := Vector.replicate 2 {}
  /-- The 32 semaphores. R436. Reset: free. -/
  sems : Vector Sem 32 := Vector.replicate 32 {}
  /-- The chip-wide tie bit C. R435. Reset: 0. -/
  tie : Bool := false
  /-- Accesses that the windows have taken in their present clock: window and requester. R435. Reset: none. -/
  clock : List (Nat × Requester) := []
  /-- Requests that the semaphores have taken in Slate's present clock: semaphore and requester. R436. Reset: none. -/
  semClock : List (Nat × Requester) := []
  /-- Semaphores granted from a waiter list in Slate's present clock, with the host granted. R469. Reset: none. -/
  grantClock : List (Nat × HostId) := []
  /-- The flash operation that runs. R476. Reset: none. -/
  flashOp : Option FlashOp := .none
  /-- Flash contents; an unlisted byte reads 0xFF, an erased flash. R438. -/
  flash : List Host.Cell := []
  /-- Size S of the flash in bytes, from its SFDP tables; 0 = no JEDEC ID or SFDP can be read. R438. -/
  flashSize : Nat := 33554432
  /-- What the flash's SFDP tables list. R438. -/
  flashSfdp : FlashSfdp := ⟨true, true, true⟩
  /-- Commands that the flash port has sent for its newest task: code, address, bytes. R438, R476. Reset: none. -/
  flashPort : List (Nat × Nat × Nat) := []
  /-- Boot's step; steps 2 and 3 are carried out whole when step 1 ends. R452. Reset: idle, no wake has come. -/
  boot : BootStep := .idle
  /-- When the clock of boot step 1 runs, in ns of `now`. R452, R484. Reset: 0. -/
  clockAt : Nat := 0
  /-- Early entries that boot has written, key and value, in order; a region reloads its own when it initialises. R20, R444. Reset: none. -/
  settings : List (Nat × Word) := []
  /-- The image booted or being booted. R448. Reset: none. -/
  image : Option BootImage := .none
  /-- Slots that have failed in this boot. R448, R451. Reset: none. -/
  tried : List Nat := []
  /-- REBOOT waits for the end of boot. R453. Reset: false. -/
  rebootHeld : Bool := false
  /-- A Flint region has passed its boot self-test in this boot. R414. Reset: false. -/
  granted : Bool := false
  /-- The panel has been powered since the last chip reset. R453. Reset: false. -/
  panelPowered : Bool := false
  /-- The OTP action that runs, and the data it took. R447. Reset: none. -/
  otpRun : Option (Nat × List Byte) := .none
  /-- Reports that are being formed or wait, in order, with the nonce each took. R458. Reset: none. -/
  attest : List (HostId × List Byte) := []
  /-- Reports formed since boot. R457. Reset: 0. -/
  reports : Nat := 0
deriving DecidableEq, Repr


/-! Garnet's time port: the PTP port, the servo, triggers, captures (R360 to R379). -/

/-- A foreign master: its last Announce and the arrival times of its last two, newest first (R363). -/
structure Foreign where
  msg : PtpMsg
  times : List Nat
deriving DecidableEq, Repr

/-- A message sent: over UDP to an IPv4 multicast group and a port, or over Ethernet to an address with an EtherType (R365). -/
structure PtpFrame where
  msg : PtpMsg
  udp : Bool
  dest : Nat
  port : Nat
deriving DecidableEq, Repr

/-- The PTP port. Times and corrections are in 2^-16 ns. -/
structure PtpPort where
  /-- Foreign masters heard. R363. Reset: none. -/
  foreign : List Foreign := []
  /-- The grandmaster's Announce that is followed. R363. Reset: none. -/
  best : Option PtpMsg := .none
  /-- A two-step Sync that waits for its Follow_Up: sequence, receipt, correction. R363. Reset: none. -/
  sync : Option (Nat × Int × Int) := .none
  /-- t2 − t1 − cSync of the last Sync. R367. Reset: none. -/
  down : Option Int := .none
  /-- The last Delay_Req sent: sequence, t3. R367. Reset: none. -/
  dreq : Option (Nat × Int) := .none
  /-- The last Pdelay_Req sent: sequence, t1. R367. Reset: none. -/
  pdreq : Option (Nat × Int) := .none
  /-- A two-step Pdelay_Resp that waits for its Follow_Up: sequence, t2, t4, correction. R367. Reset: none. -/
  pdresp : Option (Nat × Int × Int × Int) := .none
  /-- The last 16 mpd values, newest first. R367. Reset: none. -/
  mpds : List Int := []
  /-- The mpd in use. R367. Reset: none. -/
  mpd : Option Int := .none
  /-- Next sequence number of each kind sent: Announce, Sync, Delay_Req, Pdelay_Req. 16 bits. R363. Reset: 0. -/
  seqs : Vector Nat 4 := Vector.replicate 4 0
  /-- The Sync sent that its Follow_Up answers: sequence, t1. R363. Reset: none. -/
  syncSent : Option (Nat × Int) := .none
  /-- Delay_Req messages to answer: requester, sequence, t4, correction. R363. Reset: none. -/
  owed : List (DWord × Nat × Int × Int) := []
  /-- Pdelay_Req messages to answer: requester, sequence, t2. R363. Reset: none. -/
  pdOwed : List (DWord × Nat × Int) := []
  /-- Pdelay_Resp messages whose Follow_Up is to be sent: requester, sequence, t3. R363. Reset: none. -/
  pdFollow : List (DWord × Nat × Int) := []
  /-- Times in ns of `now`: each kind's last sending, in the order of `seqs`; the last Sync of the master; the last Announce, or the start of listening; the last IGMPv2 reports. R363, R365, R368. Reset: none. -/
  sentAt : Vector (Option Nat) 4 := Vector.replicate 4 .none
  syncAt : Option Nat := .none
  annAt : Option Nat := .none
  igmpAt : Option Nat := .none
  /-- Messages sent in the present nanosecond, oldest first. R363. Reset: none. -/
  out : List PtpFrame := []
  /-- IGMPv2 reports (group address) and ARP replies (target MAC, target IP) sent in the present nanosecond. R365. Reset: none. -/
  igmp : List Word := []
  arp : List (BitVec 48 × Word) := []
deriving DecidableEq, Repr

/-- The servo; rates are in 10^-6 ppb. SERVO_STATUS holds its state. -/
structure Servo where
  /-- r. R361, R370; retained. Reset: 0. -/
  r : Int := 0
  /-- Integral term i, and r0. R369, R370. Reset: 0. -/
  i : Int := 0
  r0 : Int := 0
  /-- Samples of the acquisition that estimates: time in ns of `now`, o in 2^-16 ns; newest first. R369. Reset: none. -/
  est : List (Nat × Int) := []
  /-- An acquisition estimates: its 16th sample has not come. R369. Reset: false. -/
  estimating : Bool := false
  /-- Consecutive samples within LOCK_NS, beyond 4 × LOCK_NS, beyond STEP_US. R368, R369. Reset: 0. -/
  good : Nat := 0
  bad : Nat := 0
  large : Nat := 0
  /-- Time in ns of `now` of the last sample. R370. Reset: 0. -/
  last : Nat := 0
  /-- SET with SOURCE PPS waits for the next PPS_IN edge. R371. Reset: false. -/
  setWaits : Bool := false
  /-- Rate not yet applied to the counter, in 10^-15 × 2^-16 ns. R361. Reset: 0. -/
  acc : Int := 0
deriving DecidableEq, Repr

/-- What ARM latches (R374); times in ns. -/
structure TrigCfg where
  mode : Nat
  start : Nat
  period : Nat
  offset : Nat
  width : Nat
  port : Nat
deriving DecidableEq, Repr

/-- A trigger output (R373 to R375). -/
structure Trigger where
  /-- The latched settings; none = OFF. R374. Reset: none. -/
  cfg : Option TrigCfg := .none
  /-- Next edge of PERIODIC: k. R373. Reset: 0. -/
  k : Nat := 0
  /-- Edges that are due: times in ns. R373. Reset: none. -/
  edges : List Nat := []
  /-- The time at which the pulse in progress ends. R373. Reset: none. -/
  pulse : Option Nat := .none
deriving DecidableEq, Repr

/-- A stamped edge: seconds, ns, 2^-16 ns, rising (R377). -/
structure CapEntry where
  sec : Nat
  ns : Nat
  frac : Nat
  rising : Bool
deriving DecidableEq, Repr

/-- A capture input (R377). -/
structure Capture where
  /-- The FIFO, oldest first; at most 16. Reset: empty. -/
  fifo : List CapEntry := []
  /-- Edges lost since the last CAPTURE_OVERFLOW, and the time of that event. Reset: 0, none. -/
  lost : Nat := 0
  lostAt : Option Nat := .none
deriving DecidableEq, Repr

/-- The time port of Garnet. -/
structure TimePort where
  ptp : PtpPort := {}
  servo : Servo := {}
  /-- TRG0 to TRG3. R373. -/
  trg : Vector Trigger 4 := Vector.replicate 4 {}
  /-- CAP0 to CAP3. R377. -/
  cap : Vector Capture 4 := Vector.replicate 4 {}
  /-- PPS_OUT is high until this time in ns. R376. Reset: low. -/
  ppsHigh : Option Nat := .none
  /-- Time in ns of `now` of the last PPS_IN edge. R368. Reset: none. -/
  ppsAt : Option Nat := .none
deriving DecidableEq, Repr



/-! The serial lanes (R311 to R342). -/

/-- A block that waits to be sent: its header and its payload before scrambling (R312). -/
structure TxBlock where
  header : Nat
  payload : List Byte
deriving DecidableEq, Repr

/-- What a transmit lane sends in a block time: rate in Gb/s, the transmitter's taps c−1, c0 and c+1 in 1/24 of full swing, the header, and the payload as it stands on the wire (R311, R312, R313, R330). -/
structure LaneOut where
  gbps : Nat
  taps : Int × Int × Int
  header : Nat
  payload : List Byte
deriving DecidableEq, Repr

/-- A packet that is being received (R318): its START block, the DATA bytes so far, whether a block of it was lost. -/
structure PktAsm where
  start : List Byte
  data : List Byte
  lost : Bool
deriving DecidableEq, Repr

/-- What a block of the stream completes (R318, R320). -/
inductive Received where
  | nothing
  | packet (k : SlPacket)
  | damaged
deriving DecidableEq, Repr

/-- The transmit side of a link or lane group (R316, R317). -/
structure LinkTx where
  /-- Bits sent of the present block time: below 132. R312. Reset: 0. -/
  bits : Nat := 0
  /-- Blocks since the last SKIP: 0 to 4,095. R316. Reset: 0. -/
  since : Nat := 0
  /-- Blocks of the stream that wait, oldest first. R317. Reset: none. -/
  queue : List TxBlock := []
  /-- SPARE_SWAP that goes out on every lane in the next block time: position and spare lane. R335. Reset: none. -/
  swap : Option (Nat × Nat) := .none
deriving DecidableEq, Repr

/-- The receive side of a link's stream (R317, R318). -/
structure LinkRx where
  /-- Index among the lanes in use of the lane that brings the next block. R317. Reset: 0. -/
  pos : Nat := 0
  /-- The packet being received. R318. Reset: none. -/
  asm : Option PktAsm := .none
deriving DecidableEq, Repr

/-- A serial lane's receiver and transmitter, and the training state that they share (R311 to R334). -/
structure LaneSt where
  /-- State code of R326. 4 bits. Reset: OFF. -/
  st : Nat := 0
  /-- Block lock. R314. Reset: false. -/
  lock : Bool := false
  /-- Valid headers in a row, up to 64. R314. Reset: 0. -/
  run : Nat := 0
  /-- Whether each of the last 64 headers was invalid, newest first. R314. Reset: none. -/
  hist : List Bool := []
  /-- Scrambler state S of the receiver. 31 bits. R313. Reset: 0. -/
  scr : Nat := 0
  /-- Scrambler state S of the transmitter. 31 bits. R313. Reset: all ones. -/
  txScr : Nat := 0x7FFFFFFF
  /-- CTLE setting in dB, 0 to 15. R311. Reset: 0. -/
  ctle : Nat := 0
  /-- Time in ns of `now` at which the lane entered its state. R326. Reset: 0. -/
  since : Nat := 0
  /-- The preset of its transmitter that the partner's receiver chose in EQ. R326, R331. Reset: 0. -/
  kept : Nat := 0
  /-- Whether the lane has been aligned at a SKIP since it entered ACTIVE. R317. Reset: false. -/
  aligned : Bool := false
  /-- Blocks of the stream received and not yet taken in their turn, header 0 for an invalid one. R317. Reset: none. -/
  fifo : List TxBlock := []
  /-- What its transmitter sends in this block time; none = electrical idle. R311, R312, R326. Reset: none. -/
  out : Option LaneOut := .none
  /-- TRAIN blocks with READY received in WAKE, up to 8. R326. Reset: 0. -/
  ready : Nat := 0
  /-- The last CAPS payload and how many identical ones have come in a row. R326. Reset: none, 0. -/
  caps : List Byte := []
  capsN : Nat := 0
  /-- Eye widths measured in EQ, of presets E0 upward. R331. Reset: none. -/
  widths : List Nat := []
  /-- The preset chosen in EQ. R331. Reset: 0. -/
  preset : Nat := 0
  /-- The preset that the partner last requested; 0xFF = none. R315. Reset: 0xFF. -/
  asked : Nat := 255
  /-- HANDOFF_OK sent, and received. R331. Reset: false. -/
  handOwn : Bool := false
  handIn : Bool := false
  /-- Why the lane is in RECOVERY. R339. Reset: 0. -/
  reason : Nat := 0
  /-- Times in ns of `now` of its errors of the last second, newest first: at most 17. R334. Reset: none. -/
  errs : List Nat := []
  /-- Background margin rounds with an error in a row. R332. Reset: 0. -/
  badRounds : Nat := 0
deriving DecidableEq, Repr

/-- A packet in the replay buffer: SEQ, CHANNEL, body (R321). -/
structure SlOut where
  seq : Nat
  channel : Nat
  body : List Byte
deriving DecidableEq, Repr

/-- The packet layer of a source port (R319 to R323). -/
structure SlPort where
  /-- Lanes that failed RECOVERY are left out. R336. Reset: none. -/
  excluded : List Nat := []
  /-- Highest rate code still tried, after a failed HANDOFF. R331. Reset: 3. -/
  rateCap : Nat := 3
  /-- SEQ of the next packet sent, and the expected SEQ. 12 bits. R320. Reset: 0. -/
  seqTx : Nat := 0
  seqRx : Nat := 0
  /-- A NAK has been sent and no packet accepted since. R320. Reset: false. -/
  nakSent : Bool := false
  /-- The replay buffer: packets sent and not acknowledged, oldest first. R321. Reset: none. -/
  replay : List SlOut := []
  /-- Times in a row that the oldest packet has been sent again. R321. Reset: 0. -/
  resent : Nat := 0
  /-- Credits held for CHANNEL 0 and CHANNEL 1, in units of 64 bytes. R322. Reset: 0. -/
  credit : Vector Nat 2 := Vector.replicate 2 0
  /-- Credits of accepted packets not yet returned. R322. Reset: 0. -/
  owed : Vector Nat 2 := Vector.replicate 2 0
  /-- Bytes of CHANNEL 0 and CHANNEL 1 that do not yet make a whole unit. R319. Reset: none. -/
  rx : Vector (List Byte) 2 := Vector.replicate 2 []
deriving DecidableEq, Repr

/-- A spare panel lane's use: the group and position it carries (R335). -/
structure SpareUse where
  group : Nat
  pos : Nat
  /-- SPARE_SWAP has been sent and the next slot start is awaited. -/
  waits : Bool
  /-- The lane has recovered and takes its position back at the next phase start. -/
  back : Bool
deriving DecidableEq, Repr

/-- The serial lanes of the source ports, the panel port and the backchannel. -/
structure Links where
  /-- Lanes 0 to 3 of SP0 to SP3. R311. -/
  src : Vector (Vector LaneSt 4) 4 := Vector.replicate 4 (Vector.replicate 4 {})
  /-- Positions 0 to 3 of lane groups 0 to 11; group 12 holds the spare lanes 0 and 1. R311, R340. -/
  panel : Vector (Vector LaneSt 4) 13 := Vector.replicate 13 (Vector.replicate 4 {})
  /-- Backchannel lanes 0 to 3. R311. -/
  back : Vector LaneSt 4 := Vector.replicate 4 {}
  /-- The packet layers of SP0 to SP3. R319. -/
  port : Vector SlPort 4 := Vector.replicate 4 {}
  /-- Version negotiated with the driver chain of each lane group, as SL_VERSION_MAX. R329. Reset: 0. -/
  chain : Vector Nat 13 := Vector.replicate 13 0
  /-- Rate that the lanes of each lane group trained at, as RATE_MAX. R275, R329. Reset: 0. -/
  rate : Vector Nat 13 := Vector.replicate 13 0
  /-- Transmit sides of SP0 to SP3, and of lane groups 0 to 12. R316, R317. -/
  srcTx : Vector LinkTx 4 := Vector.replicate 4 {}
  groupTx : Vector LinkTx 13 := Vector.replicate 13 {}
  /-- Receive sides of SP0 to SP3, and of backchannel lanes 0 to 3. R317, R318, R325. -/
  srcRx : Vector LinkRx 4 := Vector.replicate 4 {}
  backRx : Vector LinkRx 4 := Vector.replicate 4 {}
  /-- Bodies of the reply packets that the backchannel has brought, oldest first, with their lane. R325. Reset: none. -/
  replies : List (Fin 4 × List Byte) := []
  /-- What spare lanes 0 and 1 carry. R335. Reset: none. -/
  spare : Vector (Option SpareUse) 2 := Vector.replicate 2 .none
  /-- Lane groups for which LINE_CRC_FAILED has been raised in this phase. R325. Reset: none. -/
  crcRaised : List Nat := []
  /-- The eye point that runs in Quartz, and in Obsidian: its lane number. R333. Reset: none. -/
  eye : Vector (Option Nat) 2 := Vector.replicate 2 .none
deriving DecidableEq, Repr



/-! Temperature and calibration (R380 to R400). -/

/-- An on-die sensor (R381, R384, R385). -/
structure DieSensor where
  /-- Its last updates, newest first, in 1/16 °C; at most 16. R385. Reset: none. -/
  hist : List Int := []
  /-- Broken. R384. Reset: false. -/
  broken : Bool := false
  /-- Updates in a row on which it differs from both neighbours. R384. Reset: 0. -/
  apart : Nat := 0
deriving DecidableEq, Repr

/-- A remote diode or a thermistor input (R382 to R384, R389, R390). -/
structure AdcInput where
  /-- Its last values, newest first, in 1/16 °C; at most 16. R389, R390. Reset: none. -/
  hist : List Int := []
  /-- Broken. R384. Reset: false. -/
  broken : Bool := false
  /-- A diode has reached LIMIT_C and not fallen below LIMIT_C less 5 °C since. R389. Reset: false. -/
  beyond : Bool := false
deriving DecidableEq, Repr

/-- Slate's sensors, throttle, panel temperature and calibration; SLT_CAL_GAIN and SLT_CAL_OFFSET hold G and O. -/
structure Therm where
  /-- On-die sensors 0 to 59. R380. -/
  die : Vector DieSensor 60 := Vector.replicate 60 {}
  /-- Remote diodes 0 to 3. R382. -/
  diode : Vector AdcInput 4 := Vector.replicate 4 {}
  /-- Thermistor inputs 0 to 3. R383. -/
  pth : Vector AdcInput 4 := Vector.replicate 4 {}
  /-- SG of sensors 0 to 59 in parts per million. R381, R394. Reset: the factory constants, 1.0000. -/
  sg : Vector Nat 60 := Vector.replicate 60 1000000
  /-- The throttle step that the ray cells run at; SLT_THERM_STATUS.STEP is the step decided. R386, R387. Reset: 0. -/
  stepIn : Nat := 0
  /-- The throttle condition of the junction holds. R385, R386. Reset: false. -/
  hot : Bool := false
  /-- How the clock moves, 0 it holds, 1 it falls, 2 it rises, and the time of `now` from which its next step counts. R386. Reset: 0, 0. -/
  moves : Nat := 0
  stepFrom : Nat := 0
  /-- Time of `now` since which DRAM forces the throttle condition. R388. Reset: none. -/
  forcedAt : Option Nat := .none
  /-- ns for which T_p has been held, without those of calibration runs. R390. Reset: 0. -/
  heldFor : Nat := 0
  /-- A panel temperature has been measured since reset. R390. Reset: false. -/
  measured : Bool := false
  /-- A calibration run is in progress; FORCE as it was at START. R394, R395. Reset: none. -/
  cal : Option Bool := .none
  /-- The shutdown record that is to be written once the panel is safe. R391, R392. Reset: none. -/
  trip : Option (List Byte) := .none
  /-- Slate holds the P9 in standby after a shutdown. R393. Reset: false. -/
  cooling : Bool := false
  /-- Times of `now` of the shutdowns of the last 3,600 s. R393. Reset: none. -/
  shutdowns : List Nat := []
deriving DecidableEq, Repr

/-- What a chip reset keeps: the constants, which the Slate log holds, and the cooling after a shutdown (R393, R397, R494). -/
def Therm.kept (t : Therm) : Therm := { sg := t.sg, cooling := t.cooling, shutdowns := t.shutdowns }

/-- The state of the P9. -/
structure State where
  /-- The commands that wait, first in, first out. The row's cut; reset: empty. -/
  pending : List Instr := []
  /-- Time since power-on in ns, by which intervals are measured. Model's own. Reset: 0. -/
  now : Nat := 0
  /-- Counter that opaque values of Config are applied to, advanced at each use. Model's own; DESIGN CHOICE. Reset: 0. -/
  freeCtr : Nat := 0
  /-- Registers of every region window, keyed by region and offset (R499); an unlisted register holds its reset value (R514). 32 bits each. -/
  regs : List (Nat × Word) := []
  /-- DRAM contents by device physical address; an unlisted byte reads 0 (R550). -/
  mem : List Host.Cell := []
  /-- Words of DRAM stored poisoned: address / 8, rising (R253, R268). Reset: none. -/
  poison : List Nat := []
  /-- Words whose last read by a region ended in an error: region, address / 8, status 1 UNCORRECTABLE or 5 TIMEOUT; a later good read or a write of the word takes the entry away. R24, R264, R267. Reset: none. -/
  failed : List (Nat × Nat × Nat) := []
  /-- EVENT packets on their way to the collector, oldest first (R36, R37). Reset: none. -/
  evNet : List Event := []
  /-- Writes whose acknowledgement has not arrived, oldest first (R148, R467). Reset: none. -/
  acks : List OutAck := []
  /-- Packets that a region's interface has received whole and that are not consumed, oldest first (R22 to R31). Reset: none. -/
  net : List (Fin 16 × Packet) := []
  /-- The mesh between the interfaces (R22 to R29). -/
  mesh : Mesh := {}
  /-- The part, by its ordering code; no command changes it. R2. Reset: P9-C55-24, a DESIGN CHOICE (log 85). -/
  part : Part := .c24
  /-- Retired cells (R13, R14). Reset: none. -/
  retired : List UnitId := []
  /-- Quarantined blocks: region, block (R13, R14). Reset: none. -/
  quarantined : List (Nat × Nat) := []
  /-- Corrected errors of cells: unit and time, newest first (R13). Reset: none. -/
  corrected : List (UnitId × Nat) := []
  /-- Control state of the sixteen regions (R11, R20). Reset: Slate on, every other region off (R502). -/
  ctl : Vector RegionCtl 16 := (Vector.replicate 16 ({} : RegionCtl)).set 0 { phase := .on }
  /-- Power, clocks and reset (R479 to R498). -/
  power : Power := {}
  /-- The PTP-disciplined time (R360, R361). 64-bit seconds, 30-bit ns, 16-bit fraction. Reset: 0. -/
  time : TimeCtr := {}
  /-- The DRAM system (R246 to R273). -/
  dram : Dram := {}
  /-- The calibration map unit (R47 to R58, R551). -/
  calmap : CalMap := {}
  /-- Quartz (R61 to R87). -/
  quartz : Quartz := {}
  /-- The four Galena regions (R117 to R138). -/
  gal : Vector Galena 4 := Vector.replicate 4 {}
  /-- Group contexts that run a group; the others are free (R125). Reset: none. -/
  ctxs : List RayCtx := []
  /-- Mica's rendered stripe queue (R127 to R129). -/
  stripes : StripeQueue := {}
  /-- The delivered scan and the timing generator (R276 to R288). -/
  scan : Scan := {}
  /-- Obsidian (R274 to R310). -/
  obs : Obsidian := {}
  /-- Mica (R175 to R220). -/
  mica : Mica := {}
  /-- Garnet's audio ports (R343 to R359). -/
  audio : Audio := {}
  /-- Flint-A and Flint-B, and the lease (R139 to R174, R402 to R425). -/
  ctrl : Control := {}
  /-- Borax (R221 to R245). -/
  borax : Borax := {}
  /-- Slate: events, log, hosts, semaphores, boot, keys, flash (R34 to R38, R434 to R478). -/
  slate : Slate := {}
  /-- The time port: PTP, servo, triggers, captures (R360 to R379). -/
  tport : TimePort := {}
  /-- The serial lanes and links (R311 to R342). -/
  links : Links := {}
  /-- Slate's sensors, throttling, panel temperature and calibration (R380 to R400). -/
  therm : Therm := {}
  /-- Words that the links into each router have corrected; no register shows them (R30). Reset: 0. -/
  linkCorrected : Vector Nat 40 := Vector.replicate 40 0
deriving DecidableEq, Repr

/-- Why the machine stops with a fault. No rule of the spec stops the block, so no meaning raises one; the type has one constructor so that it is not empty. -/
inductive Fault where
  /-- Raised by no meaning. Safe: it is never answered. -/
  | none
deriving DecidableEq, Repr

/-- Why a command has no meaning. -/
inductive Refusal where
  /-- The command has no meaning in this model yet; raised by Dispatch only. Safe: nothing is claimed of the command. -/
  | notModelled (mnemonic : String)
  /-- The operands spell no instruction of the profile or no happening of the row (R113 and R165 refuse an image that holds it before it can run); raised by the meanings through WellFormed. Safe: the command cannot occur. -/
  | illFormed
deriving DecidableEq, Repr

/-- What a command's meaning answers. -/
abbrev Out := Host.Outcome State Fault Refusal

/-- The machine right after a chip reset by POR, before boot (R494, R514). -/
def State.reset : State := {}

end Sys2Proof.Machine
end

