-- ==== Sys2Proof/Machine/Ops.lean ====
section
/-! DEFINITION. The named operations over registers, memory, events, acknowledgements and units that the meanings share. -/

namespace Sys2Proof.Machine

/-! Registers. -/

/-- The register with a key: its listed value, or its reset value (R514). -/
def readReg (s : State) (k : Nat) : Word := smRead regReset s.regs k

/-- A register set to a value, every other register as before. -/
def setReg (s : State) (k : Nat) (v : Word) : State := { s with regs := smWrite regReset s.regs k v }

/-- Field [lo + width - 1 : lo] of a register. -/
def getF (s : State) (k lo width : Nat) : Nat := fld (readReg s k) lo width

/-- Bit `lo` of a register. -/
def getB (s : State) (k lo : Nat) : Bool := flag (readReg s k) lo

/-- One field of a register set; its other bits stay. -/
def setF (s : State) (k lo width v : Nat) : State := setReg s k (setFld (readReg s k) lo width v)

/-- A counter register that saturates at all ones, plus n. -/
def bump (s : State) (k : Nat) (n : Nat := 1) : State := setReg s k (satAdd (readReg s k) n)

/-- A 40-bit address held in a LO and a HI register. -/
def addr40 (s : State) (lo hi : Nat) : Nat := (readReg s lo).toNat + 2 ^ 32 * getF s hi 0 8

/-- Every register of a region's window back to its reset value (R20, R514); the chip-wide Bauxite registers stand in window 8 and are no region's. -/
def resetWindow (s : State) (r : Nat) : State :=
  { s with regs := s.regs.filter fun e =>
      let o := e.1 % 0x100000
      !((e.1 % 0x1000000) / 0x100000 == r && !(8 ≤ r && r < 12 && 0x100 ≤ o && o < 0x200)) }

/-- Which copy of a register a requester reaches: 0 for a register kept once (R511). -/
def copyOf (q : Requester) (r o : Nat) : Nat :=
  if perHost r o then (if q = .hb then 1 else 0)
  else if perRequester r o then (match q with | .ha => 0 | .hb => 1 | .fp => 2)
  else 0

/-- The key that a requester's access to offset `o` of region `r` reaches (R499, R511). -/
def keyOf (q : Requester) (r o : Nat) : Nat := regHome r o + 0x1000000 * copyOf q r o

/-- The copy of a per-host register that a host reaches (R511). -/
def hostKey (h : HostId) (k : Nat) : Nat := if h = .b then k + 0x1000000 else k

/-- A write of the fields of the register with a key by their access codes (R8, R9). -/
def writeKey (s : State) (k : Nat) (v : Word) : State :=
  setReg s k (writeByCode (regDesc (k % 0x1000000 / 0x100000) (k % 0x100000)) (readReg s k) v)

/-- The copy of a register, given by its plain key, that a requester reaches (R511). -/
def reqKey (q : Requester) (k : Nat) : Nat := keyOf q (k / 0x100000) (k % 0x100000)

/-! Free values. -/

/-- An open number: the opaque constant `which` at the use count, which moves on. -/
def takeFree (s : State) (which : Nat) : Nat × State :=
  (Config.freeNat which s.freeCtr, { s with freeCtr := s.freeCtr + 1 })

/-! Time. -/

/-- Nanoseconds since second 0 of the PTP-disciplined time (R154, R360). -/
def timeNs (t : TimeCtr) : Nat := t.sec * 1000000000 + t.ns

/-- The time in 2^-16 ns (R276, R345, R354). -/
def nowFine (s : State) : Nat := timeNs s.time * 65536 + s.time.frac

/-! Events (R34 to R37). -/

/-- An event code: level, region, cause (R34). -/
def evCode (level region cause : Nat) : BitVec 16 :=
  BitVec.ofNat 16 (level % 4 * 2 ^ 14 + region % 16 * 2 ^ 10 + cause % 1024)

/-- The level of an event code (R34). -/
def evLevel (c : BitVec 16) : Nat := bitsOf c.toNat 14 2

/-- The region of an event code (R34). -/
def evRegion (c : BitVec 16) : Nat := bitsOf c.toNat 10 4

/-- The cause of an event code (R34). -/
def evCause (c : BitVec 16) : Nat := bitsOf c.toNat 0 10

/-- An event raised: an EVENT packet leaves for the collector with the time at which it was raised (R36). Block and cell are 0xFF where not applicable. -/
def raise (s : State) (level region cause block cell arg : Nat) : State :=
  { s with evNet := s.evNet ++ [{
      code := evCode level region cause
      block := BitVec.ofNat 8 block
      cell := BitVec.ofNat 8 cell
      arg := BitVec.ofNat 32 arg
      sec := BitVec.ofNat 32 s.time.sec
      ns := BitVec.ofNat 32 s.time.ns }] }

/-! Regions and units (R11 to R20). -/

/-- The control state of region `r`. -/
def ctlOf (s : State) (r : Nat) : RegionCtl := s.ctl.getD r {}

/-- The control state of region `r` changed. -/
def setCtl (s : State) (r : Nat) (f : RegionCtl → RegionCtl) : State :=
  if h : r < 16 then { s with ctl := s.ctl.set r (f s.ctl[r]) } else s

/-- A region serves requests: Slate always, another while it is on (R20, R24, R512). -/
def serves (s : State) (r : Nat) : Bool := r == 0 || (ctlOf s r).phase == .on

/-- Slate's high-speed clock runs, and host ports reach its registers: from the end of boot step 1 until STANDBY (R482, R483). -/
def slateUp (s : State) : Bool :=
  match s.power.mode with
  | .off => false
  | .standby => false
  | _ => s.slate.boot != .idle && s.slate.boot != .clock

/-- A command to Slate's registers: with no effect while nothing reaches them (R482). -/
def whenSlate (s : State) (f : State → State) : State := if slateUp s then f s else s

/-- A write to a register that a region's behaviour follows: with no effect while the region does not serve requests (R24). -/
def whenServes (s : State) (r : Nat) (f : State → State) : State := if serves s r then f s else s

/-- A region is powered: not off, nor on its way (R361, R497). -/
def isPowered (s : State) (r : Nat) : Bool :=
  match (ctlOf s r).phase with
  | .off => false
  | _ => true

/-- The prefix region of a Flint region. -/
def flintRegion : FlintId → Nat
  | .a => 1
  | .b => 2

/-- A cell has retired. -/
def isRetired (s : State) (r b c : Nat) : Bool := s.retired.contains ⟨r, b, c⟩

/-- A block has quarantined itself. -/
def isQuarantined (s : State) (r b : Nat) : Bool := s.quarantined.contains (r, b)

/-! Outstanding acknowledgements (R148, R467). -/

/-- A write is outstanding; its acknowledgement will carry `status`. -/
def addAck (s : State) (who : AckFor) (status : Nat) : State := { s with acks := s.acks ++ [⟨who, status⟩] }

/-! Requests that meet in one clock (R434 to R436). -/

/-- Slate's state changed. -/
def setSlate (s : State) (f : Slate → Slate) : State := { s with slate := f s.slate }

/-- The requester that a host is. -/
def hostReq (h : HostId) : Requester :=
  match h with
  | .a => .ha
  | .b => .hb

/-- A requester's place in the order that a tie bit gives: HA, HB, frame program, or the reverse (R435). -/
def tieRank (c : Bool) (q : Requester) : Nat :=
  let n := match q with
    | .ha => 0
    | .hb => 1
    | .fp => 2
  if c then 2 - n else n

/-- Two requesters reached place `r` in its present clock. -/
def metAt (l : List (Nat × Requester)) (r : Nat) : Bool := l.any fun x => l.any fun y => x.1 == r && y.1 == r && x.2 != y.2

/-- A clock of the windows that `p` names ends: C toggles once where it was used in any of them (R435). -/
def busClockEnds (s : State) (p : Nat → Bool) : State :=
  setSlate s fun x => { x with
    tie := x.tie != (x.clock.any fun e => p e.1 && metAt x.clock e.1), clock := x.clock.filter fun e => !p e.1 }

/-- A requester's access to a window: it belongs to the window's present clock where the order of C puts it last there; else that clock has ended (R435). -/
def reqMeets (s : State) (q : Requester) (r : Nat) : State :=
  let s := if s.slate.clock.any fun e => e.1 == r && decide (tieRank s.slate.tie q < tieRank s.slate.tie e.2) then busClockEnds s (· == r) else s
  setSlate s fun x => { x with clock := if x.clock.contains (r, q) then x.clock else x.clock ++ [(r, q)] }

/-- The same, where the region serves requests. -/
def reqAt (s : State) (q : Requester) (r : Nat) : State := if serves s r then reqMeets s q r else s

/-- A requester's access to a region's window: without effect while the region does not serve requests (R24, R435). -/
def reqServes (s : State) (q : Requester) (r : Nat) (f : State → State) : State := if serves s r then f (reqMeets s q r) else s

/-- A requester's access to Slate's window: without effect while nothing reaches its registers (R435, R482). -/
def reqSlate (s : State) (q : Requester) (f : State → State) : State := if slateUp s then f (reqMeets s q 0) else s

/-- The tie bit T_n of a semaphore (R436, R437). -/
def semTie (s : State) (n : Nat) : Bool := getB s sltSemTie n

/-- Slate's clock ends for semaphore `n`: T_n toggles where it ordered two requests (R436). -/
def semClockEnds (s : State) (n : Nat) : State :=
  let s := if metAt s.slate.semClock n then setF s sltSemTie n 1 (1 - getF s sltSemTie n 1) else s
  setSlate s fun x => { x with semClock := x.semClock.filter fun e => e.1 != n }

/-- A request for semaphore `n`: it belongs to the present clock where T_n orders it after those taken (R436). -/
def semMeets (s : State) (q : Requester) (n : Nat) : State :=
  let s := if s.slate.semClock.any fun e => e.1 == n && decide (tieRank (semTie s n) q ≤ tieRank (semTie s n) e.2) then semClockEnds s n else s
  setSlate s fun x => { x with semClock := x.semClock ++ [(n, q)] }

/-- A nanosecond has passed: the clocks of the windows end, and every 10 ns Slate's (R435, R436). -/
def clocksEnd (s : State) : State :=
  if s.now % 10 ≠ 0 then busClockEnds s (· != 0)
  else
    let s := busClockEnds s fun _ => true
    let s := (List.range 32).foldl semClockEnds s
    setSlate s fun x => { x with grantClock := [] }

/-! DRAM (R246 to R253, R268). -/

/-- Data rows of a bank (R248). -/
def dataRows (s : State) : Nat := if getB s bxtConfig 8 then 58248 else 29120

/-- Lines of 256 bytes of a rank (R248). -/
def linesPerRank (s : State) : Nat := 128 * dataRows s

/-- Whether a quadrant's rank 1 of channel 7 is the spare (R247, R272). -/
def spareOf (s : State) (q : Nat) : Bool := getB s (bxtQuadConfig (8 + q)) 0

/-- Channels whose slot 1 holds addresses, ascending (R250). -/
def slot1Channels (s : State) : List Nat :=
  (List.range 32).filter fun c => !(c % 8 == 7 && spareOf s (c / 8))

/-- The top of DRAM: (32 + K) × LR × 256 (R250). -/
def dramTop (s : State) : Nat := (32 + (slot1Channels s).length) * linesPerRank s * 256

/-- DRAM is in service (R270). -/
def dramUp (s : State) : Bool := getF s bxtStatus 30 2 == 2

/-- The status of an access to `n` bytes at device physical address `a` (R24, R31, R269, R481): 0 where DRAM answers it. -/
def dramStatus (s : State) (a n : Nat) : Nat :=
  if dramTop s < a + n then 3
  else if !dramUp s then 2
  else 0

/-- One byte of DRAM (R550: zero until first written). -/
def readByte (s : State) (a : Nat) : Byte := smRead (fun _ => 0) s.mem a

/-- `n` bytes of DRAM from address `a`. -/
def readBytes (s : State) (a n : Nat) : List Byte := (List.range n).map fun i => readByte s (a + i)

/-- A little-endian field of DRAM. -/
def readLe (s : State) (a n : Nat) : Nat := leNat (readBytes s a n)

/-- The memory with bytes written from address `a` up, in canonical form. -/
def memPutList (m : List Host.Cell) (a : Nat) (bs : List Byte) : List Host.Cell :=
  smWriteList (fun _ => 0) m a bs

/-- The form of the memory: addresses strictly rising, no entry equal to what an unlisted address reads as. -/
def Memory.wf (s : State) : Bool := smWf (fun _ => (0 : Byte)) s.mem

/-- A number put into a rising list, once. -/
def natInsert : List Nat → Nat → List Nat
  | [], k => [k]
  | a :: r, k => if k < a then k :: a :: r else if k = a then a :: r else a :: natInsert r k

/-- The word of DRAM at address 8 × w is poisoned (R253). -/
def isPoisoned (s : State) (w : Nat) : Bool := s.poison.contains w

/-- A word marked poisoned. -/
def poisonWord (s : State) (w : Nat) : State := { s with poison := natInsert s.poison w }

/-- A word that [a, a + n) touches. -/
def wordIn (a n w : Nat) : Bool := decide (8 * w < a + n) && decide (a < 8 * w + 8)

/-- Words that a write of `n` bytes at `a` covers whole lose their poison, and what it touches reads anew (R268). -/
def clearPoison (s : State) (a n : Nat) : State :=
  { s with
    poison := s.poison.filter fun w => !(decide (a ≤ 8 * w) && decide (8 * w + 8 ≤ a + n))
    failed := s.failed.filter fun e => !wordIn a n e.2.1 }

/-- Bytes written to DRAM from address `a` up: whole words lose their poison (R268). -/
def writeBytes (s : State) (a : Nat) (bs : List Byte) : State :=
  clearPoison { s with mem := memPutList s.mem a bs } a bs.length

/-- Whether any word of [a, a + n) is poisoned. -/
def anyPoison (s : State) (a n : Nat) : Bool :=
  s.poison.any fun w => wordIn a n w

/-- The status of region `r`'s last read of a word of [a, a + n) that ended UNCORRECTABLE or TIMEOUT (R24, R264, R267). -/
def failedRead (s : State) (r a n : Nat) : Option Nat :=
  (s.failed.find? fun e => e.1 == r && wordIn a n e.2.1).map fun e => e.2.2

/-- The status with which region `r`'s read of `n` bytes ends: 0, UNMAPPED, REGION_UNAVAILABLE, UNCORRECTABLE, TIMEOUT or POISONED (R24, R268). -/
def readStatus (s : State) (r a n : Nat) : Nat :=
  let st := dramStatus s a n
  if st ≠ 0 then st
  else match failedRead s r a n with
    | some x => x
    | none => if anyPoison s a n then 4 else 0

/-- A read of region `r` that touches [a, a + n) waits in a channel's queue: its data has not arrived (R257). -/
def readWaits (s : State) (r a n : Nat) : Bool :=
  s.dram.ch.toList.any fun c => c.readQ.any fun q => q.src.val == r && decide (q.line * 256 < a + n) && decide (a < q.line * 256 + 256)

/-- A partly covered word of a write is poisoned: the write ends POISONED and the word stays poisoned (R268). -/
def partPoison (s : State) (a n : Nat) : Bool :=
  s.poison.any fun w => wordIn a n w && !(decide (a ≤ 8 * w) && decide (8 * w + 8 ≤ a + n))

/-- The status with which a unit's write of `n` bytes ends. -/
def writeStatus (s : State) (a n : Nat) : Nat :=
  let st := dramStatus s a n
  if st ≠ 0 then st else if partPoison s a n then 4 else 0

/-- A unit's write: carried out where the address answers, with its status (R24, R259, R268). -/
def dramStore (s : State) (a : Nat) (bs : List Byte) : Nat × State :=
  let st := dramStatus s a bs.length
  if st ≠ 0 then (st, s) else (writeStatus s a bs.length, writeBytes s a bs)

/-- Bytes written without a status, where the address answers. -/
def dramPut (s : State) (a : Nat) (bs : List Byte) : State := (dramStore s a bs).2

/-- A vector's entry changed, every other as before. -/
def vUpd {α : Type} {n : Nat} (v : Vector α n) (i : Fin n) (f : α → α) : Vector α n := v.set i (f v[i])

end Sys2Proof.Machine
end

