-- ==== Sys2Proof/Machine/Audio.lean ====
section
/-! DEFINITION. Garnet's audio: ports, media clock, routes, the locked group, embedded audio, clock measurement, underrun (R343 to R359). -/

namespace Sys2Proof.Machine

/-- Garnet's audio changed. -/
def setAudio (s : State) (f : Audio → Audio) : State := { s with audio := f s.audio }

/-- A port changed. -/
def setAPort (s : State) (p : Fin 6) (f : AudioPort → AudioPort) : State :=
  setAudio s fun a => { a with ports := vUpd a.ports p f }

/-- A path changed. -/
def setPath (s : State) (p : Fin 4) (c : Fin 16) (f : AudioPath → AudioPath) : State :=
  setAudio s fun a => { a with paths := vUpd a.paths p fun v => vUpd v c f }

/-- The locked group changed. -/
def setLock (s : State) (f : LockGroup → LockGroup) : State := setAudio s fun a => { a with lock := f a.lock }

/-- A level-1 event of Garnet (R359). -/
def grnEvent (s : State) (cause block arg : Nat) : State := raise s 1 15 cause block 0xFF arg

/-- An output port as a port. -/
def outPort (p : Fin 4) : Fin 6 := p.castLE (by decide)

/-- Sample rate of a rate code, in Hz (R343, R357). -/
def rateHz (code : Nat) : Nat := [32000, 44100, 48000, 88200, 96000, 176400, 192000].getD code 48000

/-- RATE of a port's settings (R357). -/
def portRate (w : Word) : Nat := fld w 4 3
/-- Slots of a port's settings. -/
def portSlots (w : Word) : Nat := 2 * 2 ^ fld w 8 2
/-- Slot width in bits. -/
def portWidth (w : Word) : Nat := 16 + 8 * fld w 10 2
/-- CLOCK is FOLLOWER. -/
def portFollows (w : Word) : Bool := flag w 2

/-- BCLK of a port in Hz: Fs × slots × width (R343). -/
def portBclk (w : Word) : Nat := rateHz (portRate w) * portSlots w * portWidth w

/-- A frame's slots as bits, most significant first (R343). -/
def frameBits (width : Nat) (slots : List Nat) : List Bool :=
  slots.flatMap fun v => (List.range width).map fun i => bitAt v (width - 1 - i)

/-- The levels of FSYNC and SD over the BCLKs of a frame: I2S has FSYNC low for slot 0 and high for slot 1 with the data 1 BCLK late; TDM has a pulse of 1 BCLK, with the data 0 or 1 BCLK after its rise. A late frame begins with the last bit of the frame before (R343, R357). -/
def frameWire (w : Word) (before : Bool) (slots : List Nat) : List (Bool × Bool) :=
  let bits := frameBits (portWidth w) slots
  let data := if !flag w 1 || flag w 12 then before :: bits.dropLast else bits
  data.zipIdx.map fun e => (if flag w 1 then e.2 == 0 else decide (portWidth w ≤ e.2), e.1)

/-- A frame goes out on an output port (R343, R344). -/
def frameOut (x : AudioPort) (w : Word) (slots : List Nat) : AudioPort :=
  { x with sd := slots, wire := frameWire w (bitAt (x.sd.getLastD 0) 0) slots }

/-! The audio grid (R345). -/

/-- A second in 2^-16 ns. -/
def fineSecond : Nat := 65536 * 1000000000

/-- Instant k / Fs of the audio grid, in 2^-16 ns (R345). -/
def gridTime (hz k : Nat) : Nat := k * fineSecond / hz

/-- The newest frame of the grid of a rate that has begun (R345). -/
def gridFrame (s : State) (hz : Nat) : Nat := ((nowFine s + 1) * hz - 1) / fineSecond

/-- The stamps of a clock changed. -/
def setMeter (s : State) (clk : Nat) (f : AudioMeter → AudioMeter) : State :=
  setAudio s fun a => { a with meters := a.meters.mapFinIdx fun i x _ => if i = clk then f x else x }

/-- Why a port is refused: 0 not, 1 BCLK, 2 SLOTS (R343, R359). -/
def portRefusal (w : Word) : Nat :=
  if !flag w 1 && portSlots w != 2 then 2
  else if 24576000 < portBclk w then 1
  else 0

/-- AUDIO_PORT_ENABLE: a write of GRN_OPn_CTRL or GRN_IPn_CTRL; setting ENABLE starts the port within the limits of R343 or refuses it, clearing it stops the port (R343, R345, R357). -/
def audioPortWrite (s : State) (p : Fin 6) (v : Word) : State :=
  let k := grnOpCtrl p.val
  let was := getB s k 0
  let s := writeKey s k v
  let now := getB s k 0
  if !now then
    let s := setAPort s p fun _ => {}
    setF s k 3 1 0
  else if was then s
  else
    let w := readReg s k
    let r := portRefusal w
    if r = 0 then
      setMeter (setAPort s p fun _ => { run := some w, k := some (gridFrame s (rateHz (portRate w))) }) p.val
        fun _ => { since := if portFollows w then some (nowFine s) else none }
    else grnEvent s 0x0CA p.val r

/-! The common start (R346). -/

/-- The output ports that are enabled and stopped, of a set of port bits. -/
def armable (s : State) (ports : Nat) : Nat :=
  sumNat ((List.finRange 4).map fun p =>
    let x := s.audio.ports[outPort p]
    if bitAt ports p.val && x.run.isSome && !x.started then 2 ^ p.val else 0)

/-- AUDIO_ARM (R346). -/
def audioArm (s : State) (v : Word) : State :=
  let s := writeKey s grnStartCtrl v
  if !flag v 0 then s
  else
    let ports := getF s grnStartCtrl 4 4
    let at_ := ((readReg s grnStartSecHi).toNat * 2 ^ 32 + (readReg s grnStartSecLo).toNat) * 1000000000 + getF s grnStartNs 0 30
    if at_ < timeNs s.time + 100000 then grnEvent (setF s grnStartCtrl 8 4 0) 0x0C8 0xFF ports
    else setF (setAudio s fun a => { a with startAt := at_ }) grnStartCtrl 8 4 (armable s ports)

/-- AUDIO_STOP (R346). -/
def audioStop (s : State) (v : Word) : State :=
  let s := writeKey s grnStartCtrl v
  if !flag v 1 then s
  else
    let ports := getF s grnStartCtrl 4 4
    let stop (n : Nat) (x : AudioPort) : AudioPort :=
      if bitAt ports n && decide (n < 4) then { x with stopping := x.started } else x
    setAudio s fun a => { a with ports := a.ports.mapFinIdx fun i x _ => stop i x }

/-! Underrun (R355). -/

/-- The argument of UNDERRUN (R359). -/
def underArg (op ch : Nat) (group : Bool) : Nat := op + 16 * ch + 256 * b2n group

/-- The value that a path in underrun sends: the last sample, or the ramp of 1 ms from it to 0 (R355). -/
def heldValue (x : AudioPath) (hz : Nat) : Nat :=
  match x.ramp with
  | none => x.last
  | some k =>
    if hz ≤ 1000 * k then 0 else wrapInt ((signedOf x.last 24 * ((hz - 1000 * k : Nat) : Int)).tdiv hz) 24

/-- One more frame of a path's underrun; its start is counted and raised (R355). -/
def pathUnder (s : State) (op : Fin 4) (c : Fin 16) : State :=
  let x := (s.audio.paths[op])[c]
  match x.under with
  | some n => setPath s op c fun x => { x with under := some (n + 1), ramp := x.ramp.map (· + 1) }
  | none =>
    let s := setPath s op c fun x => { x with under := some 1, ramp := none }
    grnEvent (bump s grnUnderruns) 0x0C4 op.val (underArg op.val c.val false)

/-- A path has a sample: an underrun ends (R355). -/
def pathSample (s : State) (op : Fin 4) (c : Fin 16) (v : Nat) : State :=
  let x := (s.audio.paths[op])[c]
  let s := setPath s op c fun _ => { last := v }
  match x.under with
  | none => s
  | some n => grnEvent s 0x0C5 op.val (underArg op.val c.val false + 4096 * (n % 2 ^ 20))

/-! Sources. -/

/-- A clock is STOPPED (R354, R358). -/
def clkStopped (s : State) (clk : Nat) : Bool := getB s (grnMeas clk) 30
/-- A clock's ASRC ratio is tracked (R349, R358). -/
def clkTracked (s : State) (clk : Nat) : Bool := getB s (grnMeas clk) 29

/-- Nominal rate of a clock, last measured, or as configured when nothing has been measured (R354). -/
def clkHz (s : State) (clk : Nat) : Nat :=
  let m := readReg s (grnMeas clk)
  if flag m 31 then rateHz (fld m 24 3)
  else rateHz (portRate ((if h : clk < 6 then s.audio.ports[clk].run else none).getD (readReg s (grnOpCtrl (min clk 5)))))

/-- The embedded frame that is due at `t`, for a channel: the newest whose time has come and not passed by a frame period (R353). -/
def dueFrame (s : State) (sp : Fin 4) (ch t : Nat) : Option EmbedFrame :=
  let period := 1000000000 / clkHz s (6 + sp.val) + 1
  (s.audio.embed[sp]).reverse.find? fun f =>
    decide (f.due ≤ t) && decide (t < f.due + period) && decide (f.first ≤ ch) && decide (ch < f.first + f.samples.length)

/-- Frames whose due time has passed are dropped (R353). -/
def dropPast (s : State) (sp : Fin 4) (t : Nat) : State :=
  let period := 1000000000 / clkHz s (6 + sp.val) + 1
  setAudio s fun a => { a with embed := vUpd a.embed sp fun l => l.filter fun f => decide (t < f.due + period) }

/-- Whether the source of a route has a sample for this output frame (R348, R353 to R355): silence is `none`. -/
def sourceHas (s : State) (route : Word) (t : Nat) : Option Bool :=
  let port := fld route 6 2
  let ch := fld route 0 5
  match fld route 8 2 with
  | 1 =>
    if h : port < 2 then
      let clk := 4 + port
      match s.audio.inputs[port] with
      | some fr => some (decide (ch < fr.length) && !clkStopped s clk && clkTracked s clk)
      | none => some false
    else none
  | 2 =>
    let sp := Fin.ofNat 4 port
    some ((dueFrame s sp ch t).isSome && clkTracked s (6 + port))
  | _ => none

/-! The locked group (R350 to R352). -/

/-- The group is defined. -/
def lockOn (s : State) : Bool := getB s grnLockCtrl 0
/-- The destination port of the group. -/
def lockDst (s : State) : Nat := getF s grnLockCtrl 6 2
/-- First output channel. -/
def lockFirst (s : State) : Nat := getF s grnLockCtrl 24 5
/-- Channels. -/
def lockCount (s : State) : Nat := getF s grnLockCtrl 16 5
/-- The clock of the group's source (R354, R358). -/
def lockClk (s : State) : Nat := if getB s grnLockCtrl 1 then 6 + getF s grnLockCtrl 2 2 else 4 + getF s grnLockCtrl 2 2
/-- Output channel `c` of port `op` belongs to the group. -/
def inLock (s : State) (op c : Nat) : Bool :=
  lockOn s && lockDst s == op && decide (lockFirst s ≤ c) && decide (c < lockFirst s + lockCount s)

/-- STATE of GRN_LOCK_STATUS (R358). -/
def setLockState (s : State) (v : Nat) : State := setF s grnLockStatus 30 2 v

/-- FILL follows the FIFO (R358). -/
def lockFill (s : State) : State := setF s grnLockStatus 0 7 s.audio.lock.fifo.length

/-- A frame of an accepted group enters the FIFO; when it is full the oldest is dropped (R350, R351). -/
def lockPush (s : State) (frame : List Nat) : State :=
  if !lockOn s || !s.audio.lock.accepted then s
  else
    let full := decide (64 ≤ s.audio.lock.fifo.length)
    let s := setLock s fun l => { l with fifo := (if full then l.fifo.drop 1 else l.fifo) ++ [frame] }
    lockFill (if full then bump s grnLockDropped else s)

/-- The group's channels of a source frame. -/
def lockSlice (s : State) (fr : List Nat) (base : Nat) : List Nat :=
  (List.range (lockCount s)).map fun n => fr.getD (getF s grnLockCtrl 8 5 + n - base) 0

/-- One frame of the group: what its channels send, `none` meaning the held values (R350 to R352, R355). -/
def lockFrame (s : State) : Option (List Nat) × State :=
  let l := s.audio.lock
  let zeros := List.replicate (lockCount s) 0
  if !l.accepted then (some zeros, s)
  else
    let l := if !l.playing && decide (32 ≤ l.fifo.length) then { l with playing := true, begun := true } else l
    match l.playing, l.fifo with
    | true, fr :: rest =>
      let s := lockFill (setLock s fun _ => { l with fifo := rest, under := none })
      match l.under with
      | none => (some fr, s)
      | some n =>
        let s := if getF s grnLockStatus 30 2 = 2 then setLockState s 1 else s
        (some fr, grnEvent s 0x0C5 0xFF (underArg (lockDst s) (lockFirst s % 16) true + 4096 * (n % 2 ^ 20)))
    | _, _ =>
      if !l.begun then (some zeros, setLock s fun _ => l)
      else
        let s := bump s grnLockFabricated
        match l.under with
        | some n => (none, setLock s fun _ => { l with playing := false, under := some (n + 1) })
        | none =>
          let s := setLock s fun _ => { l with playing := false, under := some 1 }
          let s := if getF s grnLockStatus 30 2 = 1 then setLockState s 2 else s
          (none, grnEvent (bump s grnUnderruns) 0x0C4 0xFF (underArg (lockDst s) (lockFirst s % 16) true))

/-! Frames (R344, R345, R348). -/

/-- A 24-bit sample as a slot of a width: rounded to nearest and saturated at 16 bits, in the upper 24 bits at 32 (R344). -/
def slotOf (width v : Nat) : Nat :=
  if width = 16 then wrapInt (satInt ((signedOf v 24 + 128) / 256) 16) 16
  else if width = 32 then v % 2 ^ 24 * 256
  else v % 2 ^ 24

/-- An open sample value of the ASRC. -/
def asrcSample (s : State) : Nat × State :=
  let (v, s) := takeFree s 1
  (v % 2 ^ 24, s)

/-- The value that one output channel sends in this frame, and what its path keeps (R348, R349, R355). The value that the ASRC computes is open. -/
def channelFrame (op : Fin 4) (hz t : Nat) (group : Option (List Nat)) (c : Fin 16) (s : State) : Nat × State :=
  if inLock s op.val c.val then
    match group with
    | some fr =>
      let v := fr.getD (c.val - lockFirst s) 0
      (v, setPath s op c fun _ => { last := v })
    | none =>
      (heldValue (s.audio.paths[op])[c] hz, setPath s op c fun x => { x with ramp := x.ramp.map (· + 1) })
  else
    match sourceHas s (readReg s (grnRoute (16 * op.val + c.val))) t with
    | none => (0, setPath s op c fun _ => {})
    | some true =>
      let (v, s) := asrcSample s
      (v, pathSample s op c v)
    | some false => (heldValue (s.audio.paths[op])[c] hz, pathUnder s op c)

/-- After 10 ms of underrun the held value of a channel ramps to 0 (R355). -/
def underrunRamp (s : State) (op : Fin 4) (c : Fin 16) : State :=
  let x := (s.audio.paths[op])[c]
  let n := if inLock s op.val c.val then s.audio.lock.under else x.under
  let hz := rateHz (portRate (((s.audio.ports[outPort op]).run).getD 0))
  if x.ramp.isNone && decide (hz ≤ 100 * n.getD 0) then setPath s op c fun x => { x with ramp := some 0 } else s

/-- The channels of a frame from `c` up. -/
def channelFrames (op : Fin 4) (hz t : Nat) (group : Option (List Nat)) : List (Fin 16) → State → List Nat × State
  | [], s => ([], s)
  | c :: r, s =>
    let (v, s) := channelFrame op hz t group c (underrunRamp s op c)
    let (vs, s) := channelFrames op hz t group r s
    (v :: vs, s)

/-- Embedded frames of the group's source that have come due since the last frame enter its FIFO, in order (R351, R353). -/
def lockFeed (s : State) (op : Fin 4) (t : Nat) : State :=
  if lockOn s && lockDst s == op.val && getB s grnLockCtrl 1 then
    let sp := Fin.ofNat 4 (getF s grnLockCtrl 2 2)
    let ch := getF s grnLockCtrl 8 5
    let new := (s.audio.embed[sp]).filter fun f =>
      decide (f.due ≤ t) && decide (f.first ≤ ch) && decide (ch < f.first + f.samples.length)
        && (match s.audio.lock.fed with
          | some n => decide (n < f.index)
          | none => true)
    new.foldl (fun s f => setLock (lockPush s (lockSlice s f.samples f.first)) fun l => { l with fed := some f.index }) s
  else s

/-- An armed port starts with its first frame at or after the start time (R346). -/
def portStarts (s : State) (op : Fin 4) (k instant : Nat) : State :=
  let x := s.audio.ports[outPort op]
  if getB s grnStartCtrl (8 + op.val) && !x.started && decide (65536 * s.audio.startAt ≤ instant) then
    let s := setAPort (setF s grnStartCtrl (8 + op.val) 1 0) (outPort op) fun x => { x with started := true, stopping := false }
    grnEvent (setF s (grnOpCtrl op.val) 3 1 1) 0x0C7 op.val (op.val + 4 * (k % 2 ^ 30))
  else s

/-- One frame of an output port: zeros until it is started; its grid index and its instant in 2^-16 ns (R345, R346, R348 to R352, R355). -/
def audioOut (s : State) (op : Fin 4) (k instant : Nat) : State :=
  match (s.audio.ports[outPort op]).run with
  | none => s
  | some w =>
    let s := portStarts s op k instant
    let x := s.audio.ports[outPort op]
    let t := timeNs s.time
    let n := portSlots w
    let zeros := List.replicate n 0
    let put (l : List Nat) (x : AudioPort) : AudioPort := { frameOut x w l with k := some k }
    if x.stopping then
      setF (setAPort s (outPort op) fun x => { put zeros x with started := false, stopping := false }) (grnOpCtrl op.val) 3 1 0
    else if !x.started then setAPort s (outPort op) (put zeros)
    else
      let s := lockFeed s op t
      let (g, s) := if lockOn s && lockDst s == op.val then lockFrame s else (some [], s)
      let (vs, s) := channelFrames op (rateHz (portRate w)) t g ((List.finRange 16).take n) s
      let s := (List.finRange 4).foldl (fun s sp => dropPast s sp t) s
      setAPort s (outPort op) (put (vs.map (slotOf (portWidth w))))

/-- A PROVIDER port emits the frame of the grid that has begun, where it has not emitted it yet; while Garnet drains or is in reset the retained clock unit keeps BCLK and FSYNC on the grid, and SD sends zeros (R345, R347, R356). -/
def audioFrame (s : State) (op : Fin 4) : State :=
  let x := s.audio.ports[outPort op]
  match x.run with
  | none => s
  | some w =>
    let hz := rateHz (portRate w)
    let k := gridFrame s hz
    if portFollows w || x.k == some k then s
    else if serves s 15 then audioOut s op k (gridTime hz k)
    else if isPowered s 15 then setAPort s (outPort op) fun x => { frameOut x w (List.replicate (portSlots w) 0) with k := some k }
    else s

/-- The start time is reached: an armed port whose grid frame has begun starts and emits its first sample (R346). -/
def audioStart (s : State) (op : Fin 4) : State :=
  if getB s grnStartCtrl (8 + op.val) && decide (s.audio.startAt ≤ timeNs s.time) then audioFrame s op else s

/-! Clocks (R349, R350, R354). -/

/-- Block index of a clock's events: the port, or 0xFF for embedded audio (R359). -/
def clkBlock (clk : Nat) : Nat := if clk < 6 then clk else 0xFF

/-- Edges or units return after a stop (R354). -/
def clockSeen (s : State) (clk : Nat) : State :=
  if clkStopped s clk then grnEvent (setF s (grnMeas clk) 30 1 0) 0x0C2 (clkBlock clk) clk else s

/-- The stamps of a clock. -/
def meterOf (s : State) (clk : Nat) : AudioMeter := s.audio.meters.toList.getD clk {}

/-- An edge, or a unit of `n` frames, is stamped in PTP time (R354). -/
def clockStamp (s : State) (clk n : Nat) : State :=
  let t := nowFine s
  setMeter (clockSeen s clk) clk fun m =>
    { seen := some t, since := some t, first := some (m.first.getD t), frames := m.frames + m.last, last := n }

/-- The time-out of a stop, in 2^-16 ns: 4 nominal frame periods, or LATENCY_US (R354). -/
def clockTimeout (s : State) (clk : Nat) : Nat :=
  if clk < 6 then 4 * fineSecond / clkHz s clk else 65536 * 1000 * getF s grnEmbedCtrl 0 16

/-- No edge or unit has come within the time-out (R354). -/
def clockOver (s : State) (clk : Nat) : Bool :=
  match (meterOf s clk).since with
  | some t => decide (t + clockTimeout s clk ≤ nowFine s)
  | none => false

/-- CLOCK_STOPPED: the ratio is lost with the clock, and its stamps begin anew (R354). -/
def clockStopped (s : State) (clk : Nat) : State :=
  if clkStopped s clk || !clockOver s clk then s
  else
    let s := setF (setF s (grnMeas clk) 30 1 1) (grnMeas clk) 29 1 0
    grnEvent (setMeter s clk fun _ => {}) 0x0C1 (clkBlock clk) clk

/-- A frame of a FOLLOWER port is discarded: counted, and FRAME_ERROR at most once per second per port, with the frames discarded in the last second (R354). -/
def frameError (s : State) (p : Fin 6) : State :=
  let s := bump s grnFrameErrors
  let x := s.audio.ports[p]
  let errs := (x.errs.filter fun t => decide (s.now < t + 1000000000)) ++ [s.now]
  let due := match x.errAt with
    | none => true
    | some t => decide (t + 1000000000 ≤ s.now)
  let s := setAPort s p fun x => { x with errs, errAt := if due then some s.now else x.errAt }
  if due then grnEvent s 0x0C3 p.val errs.length else s

/-- The interval, in 2^-16 ns, is within 0.875 to 1.125 of the nominal frame period (R354). -/
def intervalOk (interval hz : Nat) : Bool :=
  decide (fineSecond * 7 ≤ interval * hz * 8) && decide (interval * hz * 8 ≤ fineSecond * 9)

/-- The interval that an edge now ends, where one is measured, is in order (R354). -/
def edgeOk (s : State) (p : Nat) : Bool :=
  match (meterOf s p).seen with
  | some t => intervalOk (nowFine s - t) (clkHz s p)
  | none => true

/-- The newest frame of an input port. -/
def setInput (s : State) (p : Nat) (fr : Option (List Nat)) : State :=
  setAudio s fun a => { a with inputs := a.inputs.mapFinIdx fun i x _ => if i = p then fr else x }

/-- FSYNC_EDGE: the edge is stamped; the frame is taken or discarded; an output port that follows emits a frame (R344, R346, R351, R354). -/
def fsyncEdge (s : State) (p : Fin 6) (info : FsyncInfo) : State :=
  match (s.audio.ports[p]).run with
  | none => s
  | some w =>
    if !portFollows w then s
    else
      let good := edgeOk s p.val && info.bclks == portSlots w * portWidth w
      let s := clockStamp s p.val 1
      if h : p.val < 4 then
        audioOut (if good then s else frameError s p) ⟨p.val, h⟩ (gridFrame s (rateHz (portRate w))) (nowFine s)
      else if good then
        let fr := (info.samples.take (portSlots w)).map fun x => if portWidth w = 16 then x.toNat / 256 * 256 else x.toNat
        let s := setInput s (p.val - 4) (some fr)
        if lockOn s && lockClk s == p.val then lockPush s (lockSlice s fr 0) else s
      else frameError (setInput s (p.val - 4) none) p

/-- The group's rates agree within ±10 ppm: the source's nominal rate is the output port's, a PROVIDER's (R350). -/
def lockAgrees (s : State) : Bool :=
  let m := readReg s (grnMeas (lockClk s))
  match (s.audio.ports[outPort (Fin.ofNat 4 (lockDst s))]).run with
  | some w =>
    !portFollows w && flag m 31 && !flag m 30 && fld m 24 3 == portRate w &&
    decide ((signedOf (fld m 0 24) 24).natAbs ≤ 100) && decide (lockFirst s + lockCount s ≤ portSlots w)
  | none => false

/-- The group is accepted, or falls to MISMATCH, on what a measurement over 1 s shows (R350, R351). -/
def lockJudge (s : State) : State :=
  if !lockOn s then s
  else if lockAgrees s then
    if getF s grnLockStatus 30 2 = 3 then
      setLockState (setLock s fun l => { l with accepted := true }) (if s.audio.lock.under.isSome then 2 else 1)
    else s
  else if getF s grnLockStatus 30 2 = 3 then s
  else
    grnEvent (setLockState s 3) 0x0C6 0xFF (wrapInt (signedOf (getF s (grnMeas (lockClk s)) 0 24) 24) 32)

/-- The nominal rate, by its code, that a rate of `n` frames in `span` of 2^-16 ns is nearest to (R354, R357). -/
def nearestRate (n span : Nat) : Nat :=
  (List.range 7).foldl (fun best c =>
    let off (c : Nat) : Nat := ((n * fineSecond : Nat) - (rateHz c * span : Nat) : Int).natAbs
    if off c < off best then c else best) 0

/-- The deviation of that rate from a nominal rate, in units of 0.1 ppm, to nearest (R354). -/
def rateDev (n span hz : Nat) : Int :=
  let d : Int := 2 * (hz * span : Nat)
  (2 * 10000000 * ((n * fineSecond : Nat) - (hz * span : Nat) : Int) + (hz * span : Nat)) / d

/-- A clock's rate is reported, and judged (R349 to R351, R354, R358). -/
def clockReport (s : State) (clk nominal : Nat) (dev : Int) : State :=
  let m := readReg s (grnMeas clk)
  let d := satInt dev 24
  let before := if flag m 31 then fld m 24 3 else if clk < 6 then portRate (readReg s (grnOpCtrl clk)) else nominal
  let changed := before != nominal || decide (10000 < dev.natAbs)
  let w := setFld (setFld (setFld m 31 1 1) 24 5 nominal) 0 24 (wrapInt d 24)
  let s := setReg s (grnMeas clk) (if changed then setFld w 29 1 0 else w)
  let s :=
    if changed then
      grnEvent s 0x0C0 (clkBlock clk) (clk + 16 * nominal + 65536 * wrapInt (satInt (dev.tdiv 10) 16) 16)
    else s
  if lockOn s && lockClk s == clk then
    if changed && getF s grnLockStatus 30 2 != 0 && !lockAgrees s then setLockState s 3 else lockJudge s
  else s

/-- What a clock's stamps measure once they span the last second: the nearest nominal rate, and the deviation from it in 0.1 ppm (R354). -/
def clockMeasured (s : State) (clk : Nat) : Option (Nat × Int) :=
  let m := meterOf s clk
  match m.first, m.seen with
  | some a, some b =>
    if nowFine s < a + fineSecond ∨ m.frames = 0 ∨ b ≤ a then none
    else
      let c := nearestRate m.frames (b - a)
      some (c, rateDev m.frames (b - a) (rateHz c))
  | _, _ => none

/-- A clock whose stamps span the last second is reported, and its next measurement begins (R354). -/
def clockMeasurement (s : State) (clk : Nat) : State :=
  match clockMeasured s clk with
  | some (c, d) => clockReport (setMeter s clk fun m => { m with first := m.seen, frames := 0 }) clk c d
  | none => s

/-- LOCK_GROUP_ENABLE: a write of GRN_LOCK_CTRL defines the group, or ends it (R350). -/
def lockGroupWrite (s : State) (v : Word) : State :=
  let s := writeKey s grnLockCtrl v
  let s := setLock s fun _ => {}
  if lockOn s then lockJudge (lockFill (setLockState s 3)) else lockFill (setLockState s 0)

/-- ASRC_ACQUIRED: the ratio of a clock is tracked again (R349). -/
def asrcAcquired (s : State) (clk : Nat) : State :=
  if clkStopped s clk then s else setF s (grnMeas clk) 29 1 1

/-! Embedded audio (R353). -/

/-- Bytes of a sample. -/
def embedBytes (fmt : Nat) : Nat := if fmt = 1 then 2 else 4

/-- An AUDIO unit keeps the table of R353. -/
def audioUnitOk (u : List Byte) (channels : Nat) (v3 : Bool) : Bool :=
  let first := leAt u 8 1
  let count := leAt u 9 1
  let fmt := leAt u 10 1
  let frames := leAt u 12 4
  let bytes := frames * count * embedBytes fmt
  decide (1 ≤ count) && decide (first + count ≤ channels) && decide (fmt ≤ 1) && decide (leAt u 11 1 ≤ 6) &&
  decide (1 ≤ frames) && decide (frames ≤ 4096) && leAt u 4 4 == 40 + (bytes + 7) / 8 * 8 &&
  (!v3 || leAt u 0x18 8 == 0 || decide (leAt u 0x20 4 ≤ 999999999))

/-- Sample `j` of frame `i` of a unit, as 24 bits (R344, R353). -/
def unitSample (u : List Byte) (count fmt i j : Nat) : Nat :=
  let n := embedBytes fmt
  let v := leAt u (40 + (i * count + j) * n) n
  if fmt = 1 then v * 256 else v % 2 ^ 24

/-- The frames of a unit, with the times at which they are due (R353). -/
def unitFrames (s : State) (u : List Byte) (v3 : Bool) : List EmbedFrame :=
  let count := leAt u 9 1
  let fmt := leAt u 10 1
  let hz := rateHz (leAt u 11 1)
  let sec := leAt u 0x18 8
  (List.range (leAt u 12 4)).map fun i =>
    { index := leAt u 0x10 8 + i
      first := leAt u 8 1
      samples := (List.range count).map fun j => unitSample u count fmt i j
      present := v3 && sec != 0
      due :=
        (if v3 && sec != 0 then sec * 1000000000 + leAt u 0x20 4 else timeNs s.time + 1000 * getF s grnEmbedCtrl 0 16)
          + i * 1000000000 / hz }

/-- AUDIO_UNIT as Garnet takes it from Quartz: the samples enter the port's buffer of 8,192 frames (R353, R354). -/
def embedUnit (s : State) (sp : Fin 4) (u : List Byte) (channels : Nat) (v3 : Bool) : State :=
  if !serves s 15 then s
  else if !audioUnitOk u channels v3 then
    grnEvent (bump s grnEmbedDiscarded) 0x0C9 0xFF (sp.val + 16)
  else
    let s := clockStamp s (6 + sp.val) (leAt u 12 4)
    let frs := unitFrames s u v3
    let room := 8192 - (s.audio.embed[sp]).length
    let s := setAudio s fun a => { a with embed := vUpd a.embed sp fun l => l ++ frs.take room }
    let lost := frs.length - room
    if lost = 0 then s else grnEvent (bump s grnEmbedDiscarded lost) 0x0C9 0xFF (sp.val + 32)

/-- A stream ends: its embedded audio goes, and its paths underrun (R353). -/
def embedEnd (s : State) (sp : Fin 4) : State :=
  setAudio s fun a => { a with embed := vUpd a.embed sp fun _ => [] }

/-! Drain and rejoin (R356). -/

/-- While Garnet drains or is in reset the SD outputs send zeros. -/
def audioDrained (s : State) : State :=
  setAudio s fun a => { a with
    ports := a.ports.map fun x => { x with sd := x.sd.map fun _ => 0, wire := x.wire.map fun e => (e.1, false) }
    meters := a.meters.map fun m => { since := m.since }
    inputs := Vector.replicate 2 none
    embed := Vector.replicate 4 []
    lock := { a.lock with fifo := [], playing := false } }

/-- Garnet rejoins: AUDIO_STARTED again for each running port; ASRC paths acquire again (R356). -/
def audioRejoined (s : State) : State :=
  let s := (List.range 10).foldl (fun s c => setF s (grnMeas c) 29 1 0) s
  let s := setAudio s fun a => { a with meters := a.meters.map fun m => { m with since := m.since.map fun _ => nowFine s } }
  (List.finRange 4).foldl (fun s op =>
    let x := s.audio.ports[outPort op]
    match x.run with
    | some w =>
      if x.started then grnEvent s 0x0C7 op.val (op.val + 4 * ((timeNs s.time * rateHz (portRate w) / 1000000000 + 1) % 2 ^ 30)) else s
    | none => s) s

/-! The meanings. -/

/-- AUDIO_PORT_ENABLE. -/
def execAudioPortEnable (port : Fin 6) (q : Requester) (v : Word) (s : State) : Out :=
  .next (reqServes s q 15 fun s => audioPortWrite s port v)

/-- AUDIO_ARM. -/
def execAudioArm (q : Requester) (v : Word) (s : State) : Out := .next (reqServes s q 15 fun s => audioArm s v)

/-- AUDIO_STOP. -/
def execAudioStop (q : Requester) (v : Word) (s : State) : Out := .next (reqServes s q 15 fun s => audioStop s v)

/-- UNDERRUN_RAMP. -/
def execUnderrunRamp (op : Fin 4) (ch : Fin 16) (s : State) : Out := .next (whenServes s 15 fun s => underrunRamp s op ch)

/-- CLOCK_STOPPED. -/
def execClockStopped (clk : Fin 10) (s : State) : Out := .next (whenServes s 15 fun s => clockStopped s clk.val)

/-- CLOCK_MEASUREMENT: the rate and the deviation are those that the stamps give; a command that names others changes nothing (R354). -/
def execClockMeasurement (clk : Fin 10) (nominal : Fin 7) (dev : Int) (s : State) : Out :=
  .next (whenServes s 15 fun s => if clockMeasured s clk.val == some (nominal.val, dev) then clockMeasurement s clk.val else s)

/-- LOCK_GROUP_ENABLE. -/
def execLockGroupEnable (q : Requester) (v : Word) (s : State) : Out :=
  .next (reqServes s q 15 fun s => lockGroupWrite s v)

/-- ASRC_ACQUIRED. -/
def execAsrcAcquired (clk : Fin 10) (s : State) : Out := .next (whenServes s 15 fun s => asrcAcquired s clk.val)

end Sys2Proof.Machine
end

