-- ==== Sys2Proof/Machine/Control.lean ====
section
/-! DEFINITION. What the units share of the control regions: the holder of the tin lease, event flags, the mirror, the timing registers (R33, R150, R309, R402, R409). -/

namespace Sys2Proof.Machine

/-- The place of a Flint region among the two. -/
def flIdx (f : FlintId) : Fin 2 := if f = .a then 0 else 1

/-- The other Flint region. -/
def otherFlint (f : FlintId) : FlintId := if f = .a then .b else .a

/-- A Flint region's own state. -/
def flintOf (s : State) (f : FlintId) : Flint := s.ctrl.fl[flIdx f]

/-- The control regions changed. -/
def setCtrl (s : State) (f : Control → Control) : State := { s with ctrl := f s.ctrl }

/-- A Flint region's own state changed. -/
def setFlint (s : State) (f : FlintId) (g : Flint → Flint) : State :=
  setCtrl s fun c => { c with fl := vUpd c.fl (flIdx f) g }

/-- The lease block changed. -/
def setLease (s : State) (g : Lease → Lease) : State := setCtrl s fun c => { c with lease := g c.lease }

/-- The holder of the tin lease, as the lease line names it (R402). -/
def holder (s : State) : Option FlintId :=
  match getF s sltLeaseStatus 30 2 with
  | 1 => some .a
  | 2 => some .b
  | _ => none

/-- The holder's code on the lease line (R402). -/
def holderCode : Option FlintId → Nat
  | none => 0
  | some .a => 1
  | some .b => 2

/-- The lease goes to a region, or to none (R402). -/
def setHolder (s : State) (f : Option FlintId) : State := setF s sltLeaseStatus 30 2 (holderCode f)

/-- A Flint region is in service. -/
def flintUp (s : State) (f : FlintId) : Bool := serves s (flintRegion f)

/-- The prefix region whose timing registers are in effect: the holder's, else the one in service (R274, R309). -/
def timingRegion (s : State) : Nat :=
  match holder s with
  | some f => flintRegion f
  | none => if flintUp s .a || !flintUp s .b then 1 else 2

/-- VT (R274). -/
def timingVt (s : State) : Nat := getF s (flaTimingVt (timingRegion s)) 0 14

/-- T_LINE_PS (R274). -/
def timingLinePs (s : State) : Nat := getF s (flaTimingLinePs (timingRegion s)) 0 24

/-- The frame rate: frames per second × 1,001 for 59.94, × 1,000 otherwise, as numerator and denominator (R274, R309). -/
def timingRate (s : State) : Nat × Nat :=
  match getF s (flaTimingCtrl (timingRegion s)) 2 2 with
  | 0 => (60, 1)
  | 1 => (60000, 1001)
  | 2 => (50, 1)
  | _ => (48, 1)

/-- An event of a Flint region's sequencer (R173). -/
def flintEvent (s : State) (f : FlintId) (level cause arg : Nat) : State := raise s level (flintRegion f) cause 0 0xFF arg

/-- The standby region is in the shadow run of `f`'s program. -/
def shadowed (s : State) (f : FlintId) : Bool := (flintOf s (otherFlint f)).shadow == .inShadow

/-- A mirror record leaves for the standby, where it is in the shadow run (R409). -/
def mirrorSend (s : State) (f : FlintId) (r : MirrorRec) : State :=
  if shadowed s f then setLease s fun l => { l with mirror := l.mirror ++ [r] } else s

/-! The sequencer's registers (R139, R141). -/

/-- g[i]; g0 reads 0 (R139). -/
def gRead (x : Flint) (i : Nat) : DWord := if i % 32 = 0 then 0 else x.g[Fin.ofNat 32 i]

/-- g[i] written; writes to g0 are ignored (R139). -/
def gWrite (x : Flint) (i : Nat) (v : DWord) : Flint :=
  if i % 32 = 0 then x else { x with g := x.g.set (Fin.ofNat 32 i) v }

/-- p[i]; p0 reads 1 (R139). -/
def fpPred (x : Flint) (i : Nat) : Bool := i % 8 == 0 || bitAt x.p.toNat (i % 8)

/-- p[i] written; p0 is never written (R139). -/
def fpPredSet (x : Flint) (i : Nat) (b : Bool) : Flint :=
  if i % 8 = 0 then x
  else { x with p := (x.p &&& ~~~ (BitVec.ofNat 8 (2 ^ (i % 8)))) ||| BitVec.ofNat 8 (b2n b * 2 ^ (i % 8)) }

/-- The instruction at PC has completed: PC moves on and nothing is waited for (R139). -/
def fpNext (x : Flint) : Flint := { x with pc := x.pc + 1, wait := none }

/-- A WAITE ends: g[D] := a & flags, the flags cleared where asked, p[C] tells a time-out (R151). -/
def waitEnds (x : Flint) (flags : DWord) (clear : Bool) (d c : Nat) (timedOut : Bool) : Flint :=
  let x := gWrite x d flags
  let x := if clear then { x with e := x.e &&& ~~~ flags } else x
  fpNext (fpPredSet x c timedOut)

/-- The condition of a WAITE holds (R151). -/
def waitMet (e mask : DWord) (all : Bool) : Bool := if all then e &&& mask == mask else e &&& mask != 0

/-- A WAITE whose condition holds now ends (R151); in the shadow run it ends by its mirror record (R410). -/
def settleEvents (s : State) (f : FlintId) : State :=
  let x := flintOf s f
  if x.shadow == .inShadow then s else
  match x.wait with
  | some (.events mask all clear d c _) =>
    if waitMet x.e mask all then
      let flags := x.e &&& mask
      mirrorSend (setFlint s f fun x => waitEnds x flags clear d c false) f (.waitEnd flags false)
    else s
  | _ => s

/-- A region's event flag set; flags are sticky, and a wait for it ends (R150, R151). -/
def setFlagOf (s : State) (f : FlintId) (n : Nat) : State :=
  settleEvents (setFlint s f fun x => { x with e := x.e ||| BitVec.ofNat 64 (2 ^ n) }) f

/-- A flag set by a source outside the Flint regions: in each Flint region in service, so that a new holder finds it (R150, R417, R474). -/
def setFlag (s : State) (n : Nat) : State :=
  let s := if flintUp s .a then setFlagOf s .a n else s
  if flintUp s .b then setFlagOf s .b n else s

end Sys2Proof.Machine
end

