-- ==== Sys2Proof/Machine/Float.lean ====
section
/-! DEFINITION. Binary floating point by exact arithmetic and one rounding: fp32 and fp16 of the ray profile (R93), fp64 of the ray generator (R43, R44). -/

namespace Sys2Proof.Machine

/-- A binary format: exponent bits, mantissa bits, and whether subnormals are read and written as zero (R93). -/
structure FFmt where
  ebits : Nat
  mbits : Nat
  flush : Bool
deriving DecidableEq, Repr

/-- IEEE 754 binary32 as the ray profile uses it (R92, R93). -/
def fp32 : FFmt := ⟨8, 23, true⟩
/-- IEEE 754 binary16 as the ray profile uses it (R92, R93). -/
def fp16 : FFmt := ⟨5, 10, true⟩
/-- IEEE 754 binary64 (R43). -/
def fp64 : FFmt := ⟨11, 52, false⟩

/-- The exponent bias of a format. -/
def fBias (f : FFmt) : Int := (2 ^ (f.ebits - 1) : Nat) - 1

/-- The largest exponent field. -/
def fEmax (f : FFmt) : Nat := 2 ^ f.ebits - 1

/-- A number that a format encodes: (−1)^neg × p × 2^e, an infinity, or NaN. -/
inductive FNum where
  | nan
  | inf (neg : Bool)
  | fin (neg : Bool) (p : Nat) (e : Int)
deriving DecidableEq, Repr

/-- The number that bits encode; a flushing format reads subnormals as zero of the same sign (R93). -/
def fDecode (f : FFmt) (bits : Nat) : FNum :=
  let neg := bitAt bits (f.ebits + f.mbits)
  let ex := bitsOf bits f.mbits f.ebits
  let m := bitsOf bits 0 f.mbits
  if ex = fEmax f then (if m = 0 then .inf neg else .nan)
  else if ex = 0 then (if f.flush then .fin neg 0 0 else .fin neg m (1 - fBias f - f.mbits))
  else .fin neg (m + 2 ^ f.mbits) ((ex : Int) - fBias f - f.mbits)

/-- The sign bit in place. -/
def fSign (f : FFmt) (neg : Bool) : Nat := if neg then 2 ^ (f.ebits + f.mbits) else 0

/-- The canonical quiet NaN: 0x7FC0_0000, 0x7E00 (R93). -/
def fNan (f : FFmt) : Nat := fEmax f * 2 ^ f.mbits + 2 ^ (f.mbits - 1)

/-- An infinity's bits. -/
def fInf (f : FFmt) (neg : Bool) : Nat := fSign f neg + fEmax f * 2 ^ f.mbits

/-- Nearest integer to a / b, ties to even. -/
def divRne (a b : Nat) : Nat :=
  let q := a / b
  let r := a % b
  if 2 * r < b then q else if b < 2 * r then q + 1 else if q % 2 = 0 then q else q + 1

/-- The bits of (−1)^neg × num / den × 2^e, rounded once to nearest, ties to even; subnormal results of a flushing format are zero (R93). -/
def fRound (f : FFmt) (neg : Bool) (num den : Nat) (e : Int) : Nat :=
  if num = 0 then fSign f neg
  else
    let la : Int := (num.log2 : Int) - (den.log2 : Int)
    -- num / den against 2^la
    let ge := decide (den * 2 ^ la.toNat ≤ num * 2 ^ (-la).toNat)
    let top : Int := (if ge then la else la - 1) + e
    let emin : Int := 1 - fBias f
    let qe : Int := max top emin - f.mbits
    let sh : Int := e - qe
    let q := divRne (num * 2 ^ sh.toNat) (den * 2 ^ (-sh).toNat)
    let ef : Int := qe + f.mbits + fBias f
    if q < 2 ^ f.mbits then (if f.flush then fSign f neg else fSign f neg + q)
    else
      let bits := ef.toNat * 2 ^ f.mbits + (q - 2 ^ f.mbits)
      if fEmax f * 2 ^ f.mbits ≤ bits then fInf f neg else fSign f neg + bits

/-- The bits of a number in a format. -/
def fEncode (f : FFmt) (x : FNum) : Nat :=
  match x with
  | .nan => fNan f
  | .inf n => fInf f n
  | .fin n p e => fRound f n p 1 e

/-- A signed value p × 2^e as an integer multiple of 2^e. -/
def sgn (neg : Bool) (p : Nat) : Int := if neg then -(p : Int) else p

/-- The exact sum of two numbers; an exact zero sum is +0 but for two −0. -/
def fnAdd (x y : FNum) : FNum :=
  match x, y with
  | .nan, _ => .nan
  | _, .nan => .nan
  | .inf a, .inf b => if a = b then .inf a else .nan
  | .inf a, _ => .inf a
  | _, .inf b => .inf b
  | .fin a p e, .fin b q g =>
    if p = 0 ∧ q = 0 then .fin (a && b) 0 0
    else
      let m := min e g
      let t := sgn a p * (2 ^ (e - m).toNat : Nat) + sgn b q * (2 ^ (g - m).toNat : Nat)
      .fin (decide (t < 0)) t.natAbs m

/-- The negation of a number. -/
def fnNeg (x : FNum) : FNum :=
  match x with
  | .nan => .nan
  | .inf n => .inf (!n)
  | .fin n p e => .fin (!n) p e

/-- The exact product of two numbers. -/
def fnMul (x y : FNum) : FNum :=
  match x, y with
  | .nan, _ => .nan
  | _, .nan => .nan
  | .inf a, .inf b => .inf (a != b)
  | .inf a, .fin b q _ => if q = 0 then .nan else .inf (a != b)
  | .fin a p _, .inf b => if p = 0 then .nan else .inf (a != b)
  | .fin a p e, .fin b q g => .fin (a != b) (p * q) (e + g)

/-- a + b, rounded once. -/
def fAdd (f : FFmt) (a b : Nat) : Nat := fEncode f (fnAdd (fDecode f a) (fDecode f b))
/-- a − b, rounded once. -/
def fSub (f : FFmt) (a b : Nat) : Nat := fEncode f (fnAdd (fDecode f a) (fnNeg (fDecode f b)))
/-- a × b, rounded once. -/
def fMul (f : FFmt) (a b : Nat) : Nat := fEncode f (fnMul (fDecode f a) (fDecode f b))
/-- a × b + c, rounded once. -/
def fFma (f : FFmt) (a b c : Nat) : Nat := fEncode f (fnAdd (fnMul (fDecode f a) (fDecode f b)) (fDecode f c))

/-- a / b, rounded once. -/
def fDiv (f : FFmt) (a b : Nat) : Nat :=
  match fDecode f a, fDecode f b with
  | .nan, _ => fNan f
  | _, .nan => fNan f
  | .inf _, .inf _ => fNan f
  | .inf x, .fin y _ _ => fInf f (x != y)
  | .fin x _ _, .inf y => fSign f (x != y)
  | .fin x p e, .fin y q g =>
    if q = 0 then (if p = 0 then fNan f else fInf f (x != y))
    else fRound f (x != y) p q (e - g)

/-- 1 in a format. -/
def fOne (f : FFmt) : Nat := fRound f false 1 1 0

/-- The square root of p × 2^e with a sticky bit below it: m and k with the root between m × 2^k and (m + 1) × 2^k, jammed to 2m or 2m + 1 at exponent k − 1. -/
def rootJam (p : Nat) (e : Int) (extra : Nat) : Nat × Int :=
  -- make the exponent even and the integer wide
  let e2 := e - 2 * extra
  let odd := (e2 % 2).toNat
  let n := p * 2 ^ (2 * extra) * 2 ^ odd
  let m := isqrt n
  ((if m * m = n then 2 * m else 2 * m + 1), (e2 - odd) / 2 - 1)

/-- sqrt(a), correctly rounded. -/
def fSqrt (f : FFmt) (a : Nat) : Nat :=
  match fDecode f a with
  | .nan => fNan f
  | .inf n => if n then fNan f else fInf f false
  | .fin n p e =>
    if p = 0 then fSign f n
    else if n then fNan f
    else
      let r := rootJam p e (f.mbits + 4)
      fRound f false r.1 1 r.2

/-- 1 / a, correctly rounded. -/
def fRcp (f : FFmt) (a : Nat) : Nat := fDiv f (fOne f) a

/-- 1 / sqrt(a), correctly rounded. -/
def fRsq (f : FFmt) (a : Nat) : Nat :=
  match fDecode f a with
  | .nan => fNan f
  | .inf n => if n then fNan f else fSign f false
  | .fin n p e =>
    if p = 0 then fInf f n
    else if n then fNan f
    else
      -- 1 / sqrt(p × 2^e) = sqrt(2^(2k) / p') × 2^(−k − e'/2), with e' even
      let odd := (e % 2).toNat
      let p' := p * 2 ^ odd
      let e' := e - odd
      let k := p'.log2 + f.mbits + 4
      let m := isqrt (2 ^ (2 * k) / p')
      let jam := if m * m * p' = 2 ^ (2 * k) then 2 * m else 2 * m + 1
      fRound f false jam 1 (-(k : Int) - e' / 2 - 1)

/-- The largest integer not above a number, as a number of the same sign where zero. -/
def fnFloor (x : FNum) : FNum :=
  match x with
  | .nan => .nan
  | .inf n => .inf n
  | .fin n p e =>
    if 0 ≤ e ∨ p = 0 then .fin n p e
    else
      let d := 2 ^ (-e).toNat
      if n then .fin true ((p + d - 1) / d) 0 else .fin false (p / d) 0

/-- floor(a). -/
def fFloor (f : FFmt) (a : Nat) : Nat := fEncode f (fnFloor (fDecode f a))
/-- a − floor(a), rounded once. -/
def fFract (f : FFmt) (a : Nat) : Nat := fEncode f (fnAdd (fDecode f a) (fnNeg (fnFloor (fDecode f a))))
/-- |a|. -/
def fAbs (f : FFmt) (a : Nat) : Nat :=
  match fDecode f a with
  | .fin true p e => fEncode f (.fin false p e)
  | .inf _ => fInf f false
  | x => fEncode f x
/-- −a. -/
def fNeg (f : FFmt) (a : Nat) : Nat := fEncode f (fnNeg (fDecode f a))

/-- Order of two numbers that are not NaN: less. -/
def fnLt (x y : FNum) : Bool :=
  match x, y with
  | .nan, _ => false
  | _, .nan => false
  | .inf a, .inf b => a && !b
  | .inf a, _ => a
  | _, .inf b => !b
  | .fin a p e, .fin b q g =>
    let m := min e g
    decide (sgn a p * (2 ^ (e - m).toNat : Nat) < sgn b q * (2 ^ (g - m).toNat : Nat))

/-- Whether a number is NaN. -/
def fnIsNan (x : FNum) : Bool := x == .nan

/-- Equality of two numbers; false where either is NaN; the zeros are equal. -/
def fnEq (x y : FNum) : Bool := !fnIsNan x && !fnIsNan y && !fnLt x y && !fnLt y x

/-- a < b. -/
def fLt (f : FFmt) (a b : Nat) : Bool := fnLt (fDecode f a) (fDecode f b)
/-- a ≤ b; false where either is NaN. -/
def fLe (f : FFmt) (a b : Nat) : Bool := fLt f a b || fnEq (fDecode f a) (fDecode f b)

/-- The sign of a number. -/
def fnSign (x : FNum) : Bool :=
  match x with
  | .nan => false
  | .inf n => n
  | .fin n _ _ => n

/-- MIN: the operand that is not NaN; MIN(−0, +0) is −0 (R93). -/
def fMin (f : FFmt) (a b : Nat) : Nat :=
  let x := fDecode f a
  let y := fDecode f b
  if fnIsNan x then fEncode f y else if fnIsNan y then fEncode f x
  else if fnLt x y then fEncode f x else if fnLt y x then fEncode f y
  else if fnSign x then fEncode f x else fEncode f y

/-- MAX: the operand that is not NaN; MAX(−0, +0) is +0 (R93). -/
def fMax (f : FFmt) (a b : Nat) : Nat :=
  let x := fDecode f a
  let y := fDecode f b
  if fnIsNan x then fEncode f y else if fnIsNan y then fEncode f x
  else if fnLt x y then fEncode f y else if fnLt y x then fEncode f x
  else if fnSign x then fEncode f y else fEncode f x

/-- An integer in a format, rounded once. -/
def fOfInt (f : FFmt) (i : Int) : Nat := fRound f (decide (i < 0)) i.natAbs 1 0

/-- A natural number in a format, rounded once. -/
def fOfNat (f : FFmt) (n : Nat) : Nat := fRound f false n 1 0

/-- A number rounded toward zero, held to [lo, hi]; NaN gives 0 (R95). -/
def fToInt (f : FFmt) (a : Nat) (lo hi : Int) : Int :=
  match fDecode f a with
  | .nan => 0
  | .inf n => if n then lo else hi
  | .fin n p e =>
    let t := p * 2 ^ e.toNat / 2 ^ (-e).toNat
    max lo (min hi (sgn n t))

/-- A number times `k`, rounded to the nearest even integer, held to [0, hi]; NaN gives 0 (R95). -/
def fToUnit (f : FFmt) (a k hi : Nat) : Nat :=
  match fDecode f a with
  | .nan => 0
  | .inf n => if n then 0 else hi
  | .fin n p e => if n then 0 else min hi (divRne (p * k * 2 ^ e.toNat) (2 ^ (-e).toNat))

/-- A number of one format in another, rounded once. -/
def fConv (f g : FFmt) (a : Nat) : Nat := fEncode g (fDecode f a)

/-- Whether a format's bits are finite. -/
def fFinite (f : FFmt) (a : Nat) : Bool :=
  match fDecode f a with
  | .fin _ _ _ => true
  | _ => false

/-! Exact rationals, for the tests that compare without rounding. -/

/-- A rational n / d, d positive. -/
structure Ratio where
  n : Int
  d : Nat
deriving DecidableEq, Repr

/-- The rational that a finite number is; 0 for the others. -/
def ratOf (x : FNum) : Ratio :=
  match x with
  | .fin neg p e => ⟨sgn neg p * (2 ^ e.toNat : Nat), 2 ^ (-e).toNat⟩
  | _ => ⟨0, 1⟩

/-- Sum. -/
def ratAdd (a b : Ratio) : Ratio := ⟨a.n * b.d + b.n * a.d, a.d * b.d⟩
/-- Difference. -/
def ratSub (a b : Ratio) : Ratio := ⟨a.n * b.d - b.n * a.d, a.d * b.d⟩
/-- Product. -/
def ratMul (a b : Ratio) : Ratio := ⟨a.n * b.n, a.d * b.d⟩
/-- Quotient, by a rational that is not zero. -/
def ratDiv (a b : Ratio) : Ratio :=
  if b.n < 0 then ⟨-(a.n * b.d), a.d * b.n.natAbs⟩ else ⟨a.n * b.d, a.d * b.n.natAbs⟩
/-- Less. -/
def ratLt (a b : Ratio) : Bool := decide (a.n * b.d < b.n * a.d)
/-- At most. -/
def ratLe (a b : Ratio) : Bool := decide (a.n * b.d ≤ b.n * a.d)
/-- The larger. -/
def ratMax (a b : Ratio) : Ratio := if ratLt a b then b else a
/-- The smaller. -/
def ratMin (a b : Ratio) : Ratio := if ratLt b a then b else a
/-- An integer as a rational. -/
def ratInt (i : Int) : Ratio := ⟨i, 1⟩
/-- The magnitude. -/
def ratAbs (a : Ratio) : Ratio := ⟨a.n.natAbs, a.d⟩
/-- The bits of a rational in a format, rounded once. -/
def ratRound (f : FFmt) (a : Ratio) : Nat := fRound f (decide (a.n < 0)) a.n.natAbs a.d 0

/-- atanh(z) in units of 2^-160, z in the same units, |z| below 1/2: the series z + z³/3 + … -/
def atanhGo (z z2 : Int) : Nat → Int → Nat → Int → Int
  | 0, _, _, sum => sum
  | fuel + 1, pow, k, sum => atanhGo z z2 fuel (pow * z2 / 2 ^ 160) (k + 2) (sum + pow / k)

/-- atanh in units of 2^-160. -/
def atanhFix (z : Int) : Int := atanhGo z (z * z / 2 ^ 160) 90 z 1 0

/-- ln 2 in units of 2^-160. -/
def ln2Fix : Int := 2 * atanhFix (2 ^ 160 / 3)

/-- ln(a) in fp64, from a value good to beyond 140 bits (R383). -/
def dLn (a : Nat) : Nat :=
  match fDecode fp64 a with
  | .fin false p e =>
    if p = 0 then fInf fp64 true
    else
      let k := p.log2
      let m : Int := (p * 2 ^ 160 / 2 ^ k : Nat)
      let z := (m - 2 ^ 160) * 2 ^ 160 / (m + 2 ^ 160)
      let v := 2 * atanhFix z + (e + k) * ln2Fix
      fRound fp64 (decide (v < 0)) v.natAbs (2 ^ 160) 0
  | .fin true p _ => if p = 0 then fInf fp64 true else fNan fp64
  | .inf false => fInf fp64 false
  | .inf true => fNan fp64
  | .nan => fNan fp64

/-- A rational to the nearest integer, halves up. -/
def ratNear (a : Ratio) : Int := (2 * a.n + a.d) / (2 * (a.d : Int))

end Sys2Proof.Machine
end

