-- ==== Sys2Proof/Machine/Operands.lean ====
section
/-! DEFINITION. Operand forms of the two instruction profiles: ray operands and lanes (R91, R97, R98), frame registers and predicates (R141 to R143). -/

namespace Sys2Proof.Machine

/-- A v register's lane (R91). -/
def vRead (x : RayCtx) (r : BitVec 6) (l : Fin 8) : Word := (x.v[r.toFin])[l]

/-- A scalar register: s[A[3:0]] (R97). -/
def sRead (x : RayCtx) (r : BitVec 6) : Word := x.sc[Fin.ofNat 16 r.toNat]

/-- An operand that names v, or a scalar broadcast to all lanes (R97). -/
def opRead (x : RayCtx) (r : BitVec 6) (scalar : Bool) (l : Fin 8) : Word :=
  if scalar then sRead x r else vRead x r l

/-- Lane l is active: ((p[PIDX] >> l) & 1) ^ PNEG (R98). -/
def laneActive (x : RayCtx) (pneg : Bool) (pidx : BitVec 3) (l : Nat) : Bool :=
  (x.p[pidx.toFin]).getLsbD l != pneg

/-- At least one lane is active (R98). -/
def anyActive (x : RayCtx) (pneg : Bool) (pidx : BitVec 3) : Bool :=
  (List.range 8).any fun l => laneActive x pneg pidx l

/-- All eight lanes are active (R99). -/
def allActive (x : RayCtx) (pneg : Bool) (pidx : BitVec 3) : Bool :=
  (List.range 8).all fun l => laneActive x pneg pidx l

/-- v[D] written in active lanes, inactive lanes unchanged (R98). -/
def vWrite (x : RayCtx) (d : BitVec 6) (pneg : Bool) (pidx : BitVec 3) (f : Fin 8 → Word) : RayCtx :=
  { x with v := x.v.set d.toFin (Vector.ofFn fun l =>
      if laneActive x pneg pidx l.val then f l else (x.v[d.toFin])[l]) }

/-- A scalar register written (R98, R100). -/
def sWrite (x : RayCtx) (d : BitVec 6) (w : Word) : RayCtx :=
  { x with sc := x.sc.set (Fin.ofNat 16 d.toNat) w }

/-- A predicate register written; p0 never changes (R91, R100). -/
def pWrite (x : RayCtx) (d : BitVec 6) (b : Byte) : RayCtx :=
  if d.toNat % 8 = 0 then x else { x with p := x.p.set (Fin.ofNat 8 d.toNat) b }

/-- A predicate register that A or B names (R100). -/
def pRead (x : RayCtx) (r : BitVec 6) : Byte := x.p[Fin.ofNat 8 r.toNat]

end Sys2Proof.Machine
end

