-- ==== Sys2Proof/Machine/Flags.lean ====
section
/-! DEFINITION. Conditions and the element arithmetic of the ray profile (R92 to R95, R99, R101), and the conditions of the frame profile (R146). -/

namespace Sys2Proof.Machine

/-- A word's unorm10 value: [31:10] are ignored (R92). -/
def u10 (w : Word) : Nat := w.toNat % 1024

/-- A number as a register word. -/
def wNat (n : Nat) : Word := BitVec.ofNat 32 n

/-- Each half of an fp16×2 word operated on alone (R92). -/
def halves2 (f : Nat → Nat → Nat) (a b : Word) : Word :=
  wNat (f (a.toNat % 65536) (b.toNat % 65536) + 65536 * f (a.toNat / 65536) (b.toNat / 65536))

/-- Each half of an fp16×2 word operated on alone. -/
def halves1 (f : Nat → Nat) (a : Word) : Word := wNat (f (a.toNat % 65536) + 65536 * f (a.toNat / 65536))

/-- ADD (R93, R94, R99). -/
def rayAddOp (ty : RayType) (a b : Word) : Word :=
  match ty with
  | .f32 => wNat (fAdd fp32 a.toNat b.toNat)
  | .f16 => halves2 (fAdd fp16) a b
  | .i32 => a + b
  | .u10 => wNat (min 1023 (u10 a + u10 b))

/-- SUB (R93, R94, R99). -/
def raySubOp (ty : RayType) (a b : Word) : Word :=
  match ty with
  | .f32 => wNat (fSub fp32 a.toNat b.toNat)
  | .f16 => halves2 (fSub fp16) a b
  | .i32 => a - b
  | .u10 => wNat (u10 a - u10 b)

/-- MUL: int32 keeps the low 32 bits; unorm10 gives (a × b + 511) / 1,023 (R93, R94, R99). -/
def rayMulOp (ty : RayType) (a b : Word) : Word :=
  match ty with
  | .f32 => wNat (fMul fp32 a.toNat b.toNat)
  | .f16 => halves2 (fMul fp16) a b
  | .i32 => a * b
  | .u10 => wNat ((u10 a * u10 b + 511) / 1023)

/-- FMA: a × b + c with one rounding; int32 wraps (R93, R99). -/
def rayFmaOp (ty : RayType) (a b c : Word) : Word :=
  match ty with
  | .f32 => wNat (fFma fp32 a.toNat b.toNat c.toNat)
  | .f16 =>
    wNat (fFma fp16 (a.toNat % 65536) (b.toNat % 65536) (c.toNat % 65536) +
      65536 * fFma fp16 (a.toNat / 65536) (b.toNat / 65536) (c.toNat / 65536))
  | .i32 => a * b + c
  | .u10 => 0

/-- MIN: int32 signed; unorm10 compares the integers (R92 to R94). -/
def rayMinOp (ty : RayType) (a b : Word) : Word :=
  match ty with
  | .f32 => wNat (fMin fp32 a.toNat b.toNat)
  | .f16 => halves2 (fMin fp16) a b
  | .i32 => if a.slt b then a else b
  | .u10 => wNat (min (u10 a) (u10 b))

/-- MAX (R92 to R94). -/
def rayMaxOp (ty : RayType) (a b : Word) : Word :=
  match ty with
  | .f32 => wNat (fMax fp32 a.toNat b.toNat)
  | .f16 => halves2 (fMax fp16) a b
  | .i32 => if a.slt b then b else a
  | .u10 => wNat (max (u10 a) (u10 b))

/-- ABS: int32 −2^31 stays −2^31 (R99). -/
def rayAbsOp (ty : RayType) (a : Word) : Word :=
  match ty with
  | .f32 => wNat (fAbs fp32 a.toNat)
  | .f16 => halves1 (fAbs fp16) a
  | .i32 => if a.msb then -a else a
  | .u10 => a

/-- NEG (R99). -/
def rayNegOp (ty : RayType) (a : Word) : Word :=
  match ty with
  | .f32 => wNat (fNeg fp32 a.toNat)
  | .f16 => halves1 (fNeg fp16) a
  | .i32 => -a
  | .u10 => a

/-- An operation of one operand under fp32 or fp16×2: FLOOR, FRACT, RCP, RSQ, SQRT (R93, R99). -/
def rayFloat1 (f : FFmt → Nat → Nat) (ty : RayType) (a : Word) : Word :=
  match ty with
  | .f16 => halves1 (f fp16) a
  | _ => wNat (f fp32 a.toNat)

/-- Shift counts are the operand's low five bits (R99). -/
def shAmt (b : Word) : Nat := b.toNat % 32

/-- SHL and SHLI (R99). -/
def rayShlOp (_ : RayType) (a b : Word) : Word := a <<< shAmt b

/-- SHR and SHRI: logical (R99). -/
def rayShrOp (_ : RayType) (a b : Word) : Word := a >>> shAmt b

/-- ASR and ASRI: arithmetic (R99). -/
def rayAsrOp (_ : RayType) (a b : Word) : Word := a.sshiftRight (shAmt b)

/-- CVT from a type to a type (R95). -/
def rayCvtOp (src dst : RayType) (a : Word) : Word :=
  let i32 (f : FFmt) (x : Nat) : Word := BitVec.ofInt 32 (fToInt f x (-2147483648) 2147483647)
  let unit (f : FFmt) (x : Nat) : Word := wNat (fToUnit f x 1023 1023)
  let clampU : Word := if a.msb then 0 else wNat (min 1023 a.toNat)
  match src, dst with
  | .f32, .f32 => a
  | .f16, .f16 => a
  | .i32, .i32 => a
  | .u10, .u10 => a
  | .f32, .i32 => i32 fp32 a.toNat
  | .f32, .u10 => unit fp32 a.toNat
  | .f32, .f16 => wNat (fConv fp32 fp16 a.toNat)
  | .f16, .f32 => wNat (fConv fp16 fp32 (a.toNat % 65536))
  | .f16, .i32 => i32 fp16 (a.toNat % 65536)
  | .f16, .u10 => unit fp16 (a.toNat % 65536)
  | .i32, .f32 => wNat (fOfInt fp32 a.toInt)
  | .i32, .u10 => clampU
  | .i32, .f16 => wNat (fOfInt fp16 a.toInt)
  | .u10, .f32 => wNat (fRound fp32 false (u10 a) 1023 0)
  | .u10, .i32 => wNat (u10 a)
  | .u10, .f16 => wNat (fRound fp16 false (u10 a) 1023 0)

/-- The type that FUNC[1:0] names (R92, R99). -/
def typeOfCode (n : Nat) : RayType :=
  match n % 4 with
  | 0 => .f32
  | 1 => .f16
  | 2 => .i32
  | _ => .u10

/-- A condition from equality, order and unorderedness (R101). -/
def condOf (code : Nat) (eq lt gt unord : Bool) : Bool :=
  match code % 8 with
  | 0 => eq
  | 1 => !eq
  | 2 => lt
  | 3 => lt || eq
  | 4 => gt
  | 5 => gt || eq
  | 6 => !unord
  | _ => unord

/-- The condition of CMP and CMPI (R101): signed under int32, integers under unorm10, fp32 false on NaN. -/
def rayCond (code : Nat) (ty : RayType) (a b : Word) : Bool :=
  match ty with
  | .i32 => condOf code (a == b) (a.slt b) (b.slt a) false
  | .u10 => condOf code (u10 a == u10 b) (decide (u10 a < u10 b)) (decide (u10 b < u10 a)) false
  | _ =>
    let x := fDecode fp32 a.toNat
    let y := fDecode fp32 b.toNat
    condOf code (fnEq x y) (fnLt x y) (fnLt y x) (fnIsNan x || fnIsNan y)

/-- A value as the subpixel value that EMIT delivers (R104). -/
def emitValue (ty : RayType) (a : Word) : Nat := (rayCvtOp ty .u10 a).toNat % 1024

end Sys2Proof.Machine
end

