-- ==== Sys2Proof/Machine/Septo.lean ====
section
/-! DEFINITION. The wire formats of Septolink: scrambling, CONTROL blocks, packets in blocks, presets (R312 to R318, R328, R330). -/

namespace Sys2Proof.Machine

/-! Headers and scrambling (R312, R313). -/

/-- Set bits of a header. -/
def headerWeight (h : Nat) : Nat := b2n (bitAt h 0) + b2n (bitAt h 1) + b2n (bitAt h 2) + b2n (bitAt h 3)

/-- The scrambler's next output bit (R313). -/
def scrOut (x : Nat) : Bool := bitAt x 30 != bitAt x 27

/-- The scrambler's next state (R313). -/
def scrNext (x : Nat) : Nat := 2 * x % 2 ^ 31 + b2n (scrOut x)

/-- The next `n` output bits, the first in bit 0, and the state after them (R313). -/
def scrBits : Nat → Nat → Nat × Nat
  | 0, x => (0, x)
  | n + 1, x =>
    let (w, y) := scrBits n (scrNext x)
    (b2n (scrOut x) + 2 * w, y)

/-- A payload scrambled, or a scrambled one descrambled, with the state after it: every bit, in transmission order, by exclusive or with the output (R313). -/
def scramble (x : Nat) : List Byte → List Byte × Nat
  | [] => ([], x)
  | b :: r =>
    let (w, y) := scrBits 8 x
    let (bs, z) := scramble y r
    (BitVec.ofNat 8 (Nat.xor b.toNat w) :: bs, z)

/-- A scrambled block: DATA, IDLE, START, END (R312). -/
def scrambled (h : Nat) : Bool := h != 6

/-! CONTROL blocks (R315). -/

/-- A CONTROL block: CTYPE, its fields, and the CRC-16 of bytes 0 to 13 (R315). -/
def controlBytes (ctype : Nat) (fields : List Byte) : List Byte :=
  let b := leBytes ctype 1 ++ (fields ++ List.replicate 13 0).take 13
  b ++ leBytes (crc16 b) 2

/-- SKIP: S for the next scrambled block on its lane (R313, R315). -/
def skipBytes (scr : Nat) : List Byte := controlBytes 0x00 (leBytes scr 4)

/-- TRAIN: STATE, lane number, preset in use, preset requested of the partner, READY, HANDOFF_OK (R315). -/
def trainBytes (st lane preset ask : Nat) (ready handoff : Bool) : List Byte :=
  controlBytes 0x01 (leBytes st 1 ++ leBytes lane 1 ++ leBytes preset 1 ++ leBytes ask 1 ++ leBytes (b2n ready + 2 * b2n handoff) 1)

/-- CAPS: version, PROFILE and ROLE, rates, lanes, the highest Misoeth version, the initial credits (R328). -/
def capsBytes (major minor profile role rates lanes misoeth credit0 credit1 : Nat) : List Byte :=
  controlBytes 0x02 (leBytes major 1 ++ leBytes minor 1 ++ leBytes (profile + 2 * role) 1 ++ leBytes rates 1 ++
    leBytes lanes 1 ++ leBytes misoeth 1 ++ leBytes credit0 2 ++ leBytes credit1 2)

/-- SPARE_SWAP: position and spare lane (R315, R335). -/
def swapBytes (pos spare : Nat) : List Byte := controlBytes 0x03 (leBytes pos 1 ++ leBytes spare 1)

/-- ACK or NAK: the last SEQ accepted (R315, R320). -/
def ackBytes (nak : Bool) (seq : Nat) : List Byte := controlBytes (0x80 + b2n nak) (leBytes seq 2)

/-- CREDIT: CHANNEL and the credits returned (R315, R322). -/
def creditBytes (ch n : Nat) : List Byte := controlBytes 0x82 (leBytes ch 1 ++ leBytes n 2)

/-- A CONTROL block with a good CRC and its CTYPE (R315). -/
def controlOk (payload : List Byte) (ctype : Nat) : Bool :=
  payload.length == 16 && crc16 (payload.take 14) == leAt payload 14 2 && leAt payload 0 1 == ctype

/-- A block takes a place in the stream: every block but a CONTROL block whose CTYPE is below 0x80 (R315, R317). -/
def inStream (h : Nat) (payload : List Byte) : Bool := h != 6 || decide (0x80 ≤ leAt payload 0 1)

/-! Packets (R318). -/

/-- `n` DATA blocks of a body from byte `o` on. -/
def dataBlocks (body : List Byte) (o : Nat) : Nat → List TxBlock
  | 0 => []
  | n + 1 => ⟨3, sliceBytes body o 16⟩ :: dataBlocks body (o + 16) n

/-- The body bytes of the END block: (LENGTH − 8) mod 16, none where that is 13 to 15 (R318). -/
def endCount (len : Nat) : Nat := if (len - 8) % 16 ≤ 12 then (len - 8) % 16 else 0

/-- DATA blocks of a packet (R318). -/
def dataCount (len : Nat) : Nat := (len - 8) / 16 + (if (len - 8) % 16 ≤ 12 then 0 else 1)

/-- The START block's 16 bytes (R318). -/
def startBytes (kind seq ch : Nat) (body : List Byte) : List Byte :=
  let a := leBytes body.length 2 ++ leBytes (seq % 4096 + 4096 * ch) 2 ++ leBytes kind 1 ++ leBytes 0 1
  let b := sliceBytes body 0 8
  a ++ leBytes (crc16 (a ++ b)) 2 ++ b

/-- A packet as its blocks: START, DATA, END, in stream order; the SIGN bits choose the _NEG headers of START and END (R312, R318). -/
def packetBlocks (kind seq ch : Nat) (body : List Byte) (startNeg endNeg : Bool) : List TxBlock :=
  let len := body.length
  let last := 8 + 16 * dataCount len
  [⟨if startNeg then 10 else 9, startBytes kind seq ch body⟩] ++ dataBlocks body 8 (dataCount len) ++
  [⟨if endNeg then 15 else 12, (((body.drop last).take (endCount len)) ++ List.replicate 12 0).take 12 ++ leBytes (crc32 body).toNat 4⟩]

/-- A packet that is being received: its START block, the DATA bytes so far, whether a block of it was lost (R317, R318). -/
def asmStart (payload : List Byte) : PktAsm := ⟨payload, [], false⟩

/-- The packet that END completes: LENGTH body bytes of START, DATA and END, and END's CRC (R318). -/
def asmEnd (a : PktAsm) (payload : List Byte) : SlPacket :=
  let len := leAt a.start 0 2
  ⟨a.start, ((a.start.drop 8).take 8 ++ a.data ++ payload.take (endCount len)).take len, BitVec.ofNat 32 (leAt payload 12 4)⟩

/-- What a stream block does to the packet being received: the packet begun, and what has come: nothing, a whole packet, or a damaged one (R318, R320). -/
def asmBlock (a : Option PktAsm) (h : Nat) (payload : List Byte) : Option PktAsm × Received :=
  match h with
  | 3 => (a.map fun x => { x with data := x.data ++ payload }, .nothing)
  | 9 | 10 => (some (asmStart payload), if a.isSome then .damaged else .nothing)
  | 12 | 15 =>
    match a with
    | some x => (none, if x.lost then .damaged else .packet (asmEnd x payload))
    | none => (none, .damaged)
  | 0 => (a.map fun x => { x with lost := true }, .nothing)
  | _ => (a, .nothing)

/-- A packet is damaged: its START has a wrong HCRC, its END another CRC, or its body is not of its LENGTH (R318). -/
def packetDamaged (k : SlPacket) : Bool :=
  crc16 (sliceBytes k.start 0 6 ++ sliceBytes k.start 8 8) != leAt k.start 6 2 || crc32 k.body != k.crc ||
  k.body.length != leAt k.start 0 2 || sliceBytes k.start 8 8 != k.body.take 8

/-! Presets (R330). -/

/-- Taps c−1, c0 and c+1 of a preset, in 1/24 of full swing (R330). -/
def presetTaps (n : Nat) : Int × Int × Int :=
  [(0, 24, 0), (0, 22, -2), (0, 20, -4), (0, 18, -6), (0, 16, -8), (-2, 22, 0), (-2, 20, -2), (-2, 18, -4),
   (-2, 16, -6), (-3, 18, -3), (-4, 16, -4)].getD n (0, 24, 0)

/-- The low-frequency level of a preset, in 1/24 of its peak (R330). -/
def presetLow (n : Nat) : Int :=
  let (a, _, b) := presetTaps n
  24 - 2 * ((a.natAbs : Int) + b.natAbs)

end Sys2Proof.Machine
end

