-- ==== Sys2Proof/Machine/Drivers.lean ====
section
/-! DEFINITION. The configured panel, and the commands that Obsidian sends to the column drivers, as packets of Septolink-P (R274, R277, R282, R298, R324). -/

namespace Sys2Proof.Machine

/-! The configured panel (R274, R309). -/

/-- WIDTH, pixels per line. -/
def panelW (s : State) : Nat := 64 * getF s obsPanelGeom 10 8
/-- HEIGHT, lines. -/
def panelH (s : State) : Nat := 16 * getF s obsPanelGeom 18 10
/-- N, phases of a frame. -/
def panelN (s : State) : Nat := 2 ^ getF s obsPanelGeom 28 2
/-- Stripes of a phase (R117). -/
def panelStripes (s : State) : Nat := panelH s / 16
/-- Nominal horizontal pitch, nm. -/
def panelPx (s : State) : Nat := getF s obsPanelPitchX 0 20
/-- Nominal vertical pitch, nm. -/
def panelPy (s : State) : Nat := getF s obsPanelPitchY 0 20

/-- Writes of a frame in the scan in effect: N, or N_p in paired scan (R286, R298). -/
def scanPhases (s : State) : Nat := if s.scan.paired then min 2 (panelN s) else panelN s

/-- Slots of a phase: VT, or VT / 2 in paired scan (R277, R298). -/
def phaseSlots (s : State) : Nat := if s.scan.paired then timingVt s / 2 else timingVt s

/-- Active slots of a phase: HEIGHT, or HEIGHT / 2 in paired scan (R277, R280). -/
def activeSlots (s : State) : Nat := if s.scan.paired then panelH s / 2 else panelH s

/-- Obsidian's state changed. -/
def setObs (s : State) (f : Obsidian → Obsidian) : State := { s with obs := f s.obs }

/-! Column-driver commands (R282, R324). -/

/-- 10-bit codes packed from bit 0 up: subpixel c of pixel p stands in [30p + 10c + 9 : 30p + 10c] (R282). -/
def packCodes : List Nat → List Byte
  | a :: b :: c :: d :: r => leBytes (a + 2 ^ 10 * b + 2 ^ 20 * c + 2 ^ 30 * d) 5 ++ packCodes r
  | [a, b, c] => leBytes (a + 2 ^ 10 * b + 2 ^ 20 * c) 4
  | [a, b] => leBytes (a + 2 ^ 10 * b) 3
  | [a] => leBytes a 2
  | [] => []

/-- A command's payload bytes (R282). -/
def drvPayload (c : DrvCmd) : List Byte :=
  match c.payload with
  | .bytes l => l
  | .codes l => packCodes l

/-- A command as it is sent: its 8-byte header, then its payload (R282). -/
def drvBody (c : DrvCmd) : List Byte :=
  leBytes c.opcode 1 ++ leBytes c.driver 1 ++ leBytes (drvPayload c).length 2 ++ leBytes c.arg 4 ++ drvPayload c

/-- The SIGN of the next LINE: that of the phase while it has lines left, then that of the next phase, or of phase 0 of the next frame (R285, R324). -/
def nextSign (s : State) : Nat :=
  if s.scan.slot + 1 < activeSlots s then (s.scan.frame + s.scan.phase) % 2
  else if s.scan.phase + 1 < scanPhases s then (s.scan.frame + s.scan.phase + 1) % 2
  else (s.scan.frame + 1) % 2

/-- The packet of a command: KIND COMMAND, CHANNEL 0, SEQ the slot number modulo 4,096; a LINE's START header gives its SIGN and its END header that of the group's next LINE (R318, R324). -/
def drvPacket (s : State) (c : DrvCmd) : List TxBlock :=
  packetBlocks 1 s.scan.slot 0 (drvBody c) (c.opcode == 1 && bitAt c.arg 14) (c.opcode == 1 && nextSign s == 1)

/-- The lane groups that a command goes to: one, or all. -/
def drvGroups (c : DrvCmd) : List (Fin 13) :=
  if c.group < 12 then [Fin.ofNat 13 c.group] else (List.finRange 12).map fun g => ⟨g.val, by omega⟩

/-- Commands sent to the column drivers beside those of this step: their packets take their places in the lane groups' streams (R282, R324). -/
def drvMore (s : State) (cmds : List DrvCmd) : State :=
  let s := setObs s fun o => { o with sent := o.sent ++ cmds }
  cmds.foldl (fun s c => (drvGroups c).foldl (fun s g =>
    { s with links := { s.links with groupTx := vUpd s.links.groupTx g fun x => { x with queue := x.queue ++ drvPacket s c } } }) s) s

/-- The commands of a step (R282). -/
def drvSend (s : State) (cmds : List DrvCmd) : State := drvMore (setObs s fun o => { o with sent := [] }) cmds

/-- Commands other than LINE may be sent: in a blanking slot, or while the timing is stopped; a hold of the scan sends none (R287, R324). -/
def drvFree (s : State) : Bool :=
  !s.scan.running || !s.scan.begun || (!s.scan.held && decide (activeSlots s ≤ s.scan.slot))

/-- A command that is no LINE: sent where it may be, otherwise it waits for the next blanking slot (R324). -/
def drvAsk (s : State) (c : DrvCmd) : State :=
  if drvFree s then drvMore s [c] else setObs s fun o => { o with drvWait := o.drvWait ++ [c] }

/-- The commands that waited for a blanking slot, or for the timing to stop, are sent (R324). -/
def drvWaiting (s : State) : State :=
  if s.obs.drvWait.isEmpty || !drvFree s then s
  else drvMore (setObs s fun o => { o with drvWait := [] }) s.obs.drvWait

/-- STATUS_READ: driver `driver` of a group's chain replies with a register (R282). -/
def drvStatusRead (group driver reg : Nat) : DrvCmd := ⟨group, 4, driver, reg, .bytes []⟩

/-- A slot ends: its commands have ended with it, and the lane groups' streams carry IDLE until the next one (R324). -/
def drvSlotEnds (s : State) : State :=
  setObs { s with links := { s.links with groupTx := s.links.groupTx.map fun x => { x with queue := [] } } } fun o => { o with sent := [] }

end Sys2Proof.Machine
end

