-- ==== Sys2Proof/Machine/Ecc.lean ====
section
/-! DEFINITION. The address-folded (72,64) code (R252 to R254). -/

namespace Sys2Proof.Machine

/-- The number of ones among the low `k` bits. -/
def popCount : Nat → Nat → Nat
  | 0, _ => 0
  | k + 1, n => n % 2 + popCount k (n / 2)

/-- The 64 H-matrix columns: the 56 values of weight 3, then the first eight of weight 5, each ascending (R252). -/
def hColumns : List Nat :=
  ((List.range 256).filter fun v => popCount 8 v == 3) ++
  (((List.range 256).filter fun v => popCount 8 v == 5).take 8)

/-- The fold of a word at device physical address `a` (R253). -/
def eccFold (a : Nat) : Nat :=
  let wa := a / 8 % 2 ^ 37
  Nat.xor wa (wa * 2 ^ 27) % 2 ^ 64

/-- The check byte of folded data: the XOR of the columns of the bits that are set (R252, R253). -/
def eccOf (y : Nat) : Nat :=
  (hColumns.foldl (fun (acc : Nat × Nat) h => (if acc.1 % 2 = 1 then Nat.xor acc.2 h else acc.2) |> fun c => (acc.1 / 2, c)) (y, 0)).2

/-- The check byte of a word at an address (R253). -/
def eccCheck (x : DWord) (a : Nat) : Byte := BitVec.ofNat 8 (eccOf (Nat.xor x.toNat (eccFold a)))

/-- What a read word turns out to be (R254). -/
inductive EccOutcome where
  | good
  | corrected (x : DWord)
  | poisoned
  | uncorrectable
deriving DecidableEq, Repr

/-- The outcome of reading data and check byte under an address (R254). -/
def eccDecode (w : CodedWord) (a : Nat) : EccOutcome :=
  let syn := Nat.xor w.check.toNat (eccCheck w.data a).toNat
  if syn = 0 then .good
  else if syn = 0xFF then .poisoned
  else
    match hColumns.findIdx? (fun h => h == syn) with
    | some i => .corrected (w.data ^^^ BitVec.ofNat 64 (2 ^ i))
    | none => if [1, 2, 4, 8, 16, 32, 64, 128].contains syn then .corrected w.data else .uncorrectable

/-- The coded word that carries data at an address; a poisoned word's check byte is inverted (R253). -/
def eccEncode (x : DWord) (a : Nat) (poisoned : Bool) : CodedWord :=
  ⟨x, if poisoned then eccCheck x a ^^^ 0xFF else eccCheck x a⟩

/-- The stored word `w` (address 8 × w) of DRAM, coded. -/
def storedWord (s : State) (w : Nat) : CodedWord :=
  eccEncode (BitVec.ofNat 64 (readLe s (8 * w) 8)) (8 * w) (isPoisoned s w)

/-- A coded word with bits flipped. -/
def flipWord (w f : CodedWord) : CodedWord := ⟨w.data ^^^ f.data, w.check ^^^ f.check⟩

/-- A read of word `i` of a region's internal storage, where bits have flipped: its fold is that of its byte index (R13, R132, R140, R252, R253). -/
def storeRead (i : Nat) (x : DWord) (f : CodedWord) : EccOutcome := eccDecode (flipWord (eccEncode x (8 * i) false) f) (8 * i)

/-- Attempts at a word of internal storage, the first and up to three retries (R13): none where the first is good; corrected in place; corrected by a retry; or beyond the third retry. -/
def storeTries (i : Nat) (x : DWord) : Nat → Nat → List CodedWord → Option CellErr
  | 0, _, _ => some .exhausted
  | left + 1, n, fs =>
    match storeRead i x (fs.headD ⟨0, 0⟩) with
    | .uncorrectable => storeTries i x left (n + 1) fs.tail
    | .corrected _ => some (if n = 0 then .corrected else .retried (Fin.ofNat 3 (n - 1)))
    | _ => if n = 0 then none else some (.retried (Fin.ofNat 3 (n - 1)))

/-- How a cell's error ends: as it is said, or as the code judges the attempts at a stored word (R13, R254). -/
def cellOutcome (e : CellErr) : Option CellErr :=
  match e with
  | .word i x fs => storeTries i x 4 0 fs
  | _ => some e

end Sys2Proof.Machine
end

