-- ==== Sys2Proof/Machine/Packet.lean ====
section
/-! DEFINITION. The packets of the mesh: header words, payload, flits, and how a link checks them (R22, R23, R25, R30, R36). -/

namespace Sys2Proof.Machine

/-! The header (R23, R36). -/

/-- Data bits of header word `i`. -/
def pWord (p : Packet) (i : Fin 4) : Nat := p.head[i].data.toNat

/-- TAG. -/
def pTag (p : Packet) : Nat := bitsOf (pWord p 0) 56 8

/-- OPCODE. -/
def pOpcode (p : Packet) : Nat := bitsOf (pWord p 0) 52 4

/-- LENGTH: the number of payload flits. -/
def pLength (p : Packet) : Nat := bitsOf (pWord p 0) 48 4

/-- SRC. -/
def pSrc (p : Packet) : Fin 16 := Fin.ofNat 16 (bitsOf (pWord p 0) 44 4)

/-- DST. -/
def pDst (p : Packet) : Fin 16 := Fin.ofNat 16 (bitsOf (pWord p 0) 40 4)

/-- ADDR. -/
def pAddr (p : Packet) : Nat := bitsOf (pWord p 0) 0 40

/-- The byte enables of a write. -/
def pEnables (p : Packet) : Nat := bitsOf (pWord p 1) 0 32

/-- The status of an ERROR_RESPONSE. -/
def pStatus (p : Packet) : Nat := bitsOf (pWord p 1) 32 8

/-- The event that an EVENT packet carries (R36). -/
def pEvent (p : Packet) : Event :=
  let a := pWord p 2
  let b := pWord p 3
  { code := BitVec.ofNat 16 a, block := BitVec.ofNat 8 (a / 2 ^ 16), cell := BitVec.ofNat 8 (a / 2 ^ 24)
    arg := BitVec.ofNat 32 (a / 2 ^ 32), ns := BitVec.ofNat 32 b, sec := BitVec.ofNat 32 (b / 2 ^ 32) }

/-- Header word 0 (R23). -/
def headWord0 (tag opcode length src dst addr : Nat) : Nat :=
  tag % 256 * 2 ^ 56 + opcode % 16 * 2 ^ 52 + length % 16 * 2 ^ 48 + src % 16 * 2 ^ 44 + dst % 16 * 2 ^ 40 + addr % 2 ^ 40

/-- A header word coded with fold 0 (R22). -/
def headCode (w : Nat) : CodedWord := eccEncode (BitVec.ofNat 64 w) 0 false

/-- A packet without an event; LENGTH counts the payload's flits of four words (R23). -/
def mkPacket (tag opcode src dst addr enables status : Nat) (payload : List CodedWord) : Packet :=
  { head := #v[headCode (headWord0 tag opcode ((payload.length + 3) / 4) src dst addr),
      headCode (enables % 2 ^ 32 + status % 256 * 2 ^ 32), headCode 0, headCode 0]
    payload := payload }

/-- An opcode of R23. -/
def opcodeListed (o : Nat) : Bool := o < 5 || o == 8 || o == 9 || o == 10

/-- A READ or a WRITE, which a response answers (R23, R426). -/
def answered (o : Nat) : Bool := o < 2

/-- A packet as R23 forms it: LENGTH of 0 to 8 flits is the payload's, a write with a byte enable clear has LENGTH 1, words 2 and 3 are zero but in an EVENT, ADDR is zero in an EVENT and a DOORBELL. -/
def packetOk (p : Packet) : Bool :=
  let o := pOpcode p
  decide (pLength p ≤ 8) && p.payload.length == 4 * pLength p
    && (!(o == 1 || o == 2) || pEnables p == 2 ^ 32 - 1 || pLength p == 1)
    && (o == 3 || (pWord p 2 == 0 && pWord p 3 == 0))
    && (!(o == 3 || o == 4) || pAddr p == 0)

/-- The virtual channel (R25): responses, and the posted writes of Borax's decode output to Quartz and Mica, travel on channel 1. -/
def pChannel (p : Packet) : Fin 2 :=
  let o := pOpcode p
  if 5 ≤ o || (o == 2 && (pSrc p).val == 12 && ((pDst p).val == 3 || (pDst p).val == 13)) then 1 else 0

/-! Flits (R22, R23). -/

/-- Words in groups of four, `n` groups. -/
def flitsOf : Nat → List CodedWord → List (List CodedWord)
  | 0, _ => []
  | n + 1, ws => ws.take 4 :: flitsOf n (ws.drop 4)

/-- A packet's flits: the header's first, then the payload's, each with the router at which the packet leaves (R22, R23). -/
def packetFlits (p : Packet) (dest : Fin 40) : List Flit :=
  let n := pLength p
  let body := flitsOf n p.payload
  ⟨p.head.toList, true, n == 0, dest⟩ :: body.zipIdx.map fun e => ⟨e.1, false, e.2 + 1 == n, dest⟩

/-- The packet that flits bring. -/
def flitsPacket (fs : List Flit) : Packet :=
  let h := (fs.headD ⟨[], true, true, 0⟩).words
  let w (i : Nat) : CodedWord := h.getD i ⟨0, 0⟩
  { head := #v[w 0, w 1, w 2, w 3], payload := fs.tail.flatMap fun f => f.words }

/-! What a link does to a word (R22, R30). -/

/-- A word as a link delivers it: corrected, or marked poisoned; and whether it was corrected, or could not be (R30). -/
def linkWord (w : CodedWord) (a : Nat) : CodedWord × Bool × Bool :=
  match eccDecode w a with
  | .good => (w, false, false)
  | .poisoned => (w, false, false)
  | .corrected x => (eccEncode x a false, true, false)
  | .uncorrectable => (eccEncode w.data a true, false, true)

/-- The header as a link delivers it: its words carry fold 0 (R22). -/
def linkHead (p : Packet) : List (CodedWord × Bool × Bool) := p.head.toList.map fun w => linkWord w 0

/-- A payload as a link delivers it: word k under the header's address plus 8 × k (R22). -/
def linkWords (p : Packet) : List (CodedWord × Bool × Bool) :=
  p.payload.zipIdx.map fun e => linkWord e.1 (pAddr p + 8 * e.2)

/-- The packet with its header's words as the link delivers them. -/
def headArrives (p : Packet) : Packet :=
  let w (i : Nat) : CodedWord := ((linkHead p).getD i (⟨0, 0⟩, false, false)).1
  { p with head := #v[w 0, w 1, w 2, w 3] }

/-- Payload word `k` is marked poisoned. -/
def wordPoisoned (p : Packet) (k : Nat) : Bool :=
  match p.payload[k]? with
  | some w => eccDecode w (pAddr p + 8 * k) == .poisoned
  | none => false

/-- A payload with a word that is marked poisoned. -/
def payloadPoisoned (p : Packet) : Bool := (List.range p.payload.length).any fun k => wordPoisoned p k

/-- A READ_RESPONSE with a poisoned word arrives as an ERROR_RESPONSE with status UNCORRECTABLE (R30). -/
def deliveredAs (p : Packet) : Packet :=
  if pOpcode p = 8 && payloadPoisoned p then
    mkPacket (pTag p) 0xA (pSrc p).val (pDst p).val (pAddr p) 0 1 []
  else p

/-! Routers and interfaces (R12, R25). -/

/-- The region that owns a router: routers are numbered in the order of R12's table. -/
def routerRegion (r : Nat) : Nat :=
  if r < 4 then r else if r < 20 then 4 + (r - 4) / 4 else if r < 36 then 8 + (r - 20) / 4 else r - 24

/-- The first router of a region (R12). -/
def firstRouter (r : Nat) : Nat :=
  if r < 4 then r else if r < 8 then 4 + 4 * (r - 4) else if r < 12 then 20 + 4 * (r - 8) else r + 24

/-- A router with its interface changed. -/
def setNode (s : State) (r : Fin 40) (f : MeshNode → MeshNode) : State :=
  { s with mesh := { s.mesh with nodes := vUpd s.mesh.nodes r f } }

/-- An interface has a packet to send: its flits join the interface's queue for the packet's channel (R25, R28). -/
def meshSend (s : State) (r : Fin 40) (p : Packet) (dest : Fin 40) : State :=
  setNode s r fun n => { n with queue := vUpd n.queue (pChannel p) fun q => q ++ packetFlits p dest }

/-- A request's tag is outstanding at its sender's interface (R29). -/
def tagTaken (s : State) (r : Fin 16) (tag : Nat) : Bool := (s.mesh.tags[r]).contains tag

/-- The tags outstanding at a region's interface changed. -/
def setTags (s : State) (r : Fin 16) (f : List Nat → List Nat) : State :=
  { s with mesh := { s.mesh with tags := vUpd s.mesh.tags r f } }

/-- The opcode that answers a request without error (R23). -/
def okOpcode (o : Nat) : Nat := if o = 0 then 8 else 9

end Sys2Proof.Machine
end

