-- ==== Sys2Proof/Machine/Memory.lean ====
section
/-! DEFINITION. The memory system: address map, line service, refresh, migration (R246 to R273, R550). -/

namespace Sys2Proof.Machine

/-! The address map (R248 to R251). -/

/-- Where an address lies (R250). -/
structure DramPlace where
  quadrant : Nat
  channel : Nat
  slot : Nat
  bank : Nat
  row : Nat
  column : Nat
  byte : Nat
deriving DecidableEq, Repr

/-- Parity bits folded into a number, bit i from mask i (R250). -/
def foldBits (x : Nat) (masks : List Nat) : Nat :=
  (masks.zipIdx.map fun e => popCount 40 (Nat.land x e.1) % 2 * 2 ^ e.2).foldl Nat.xor 0

/-- map(A) of R250; none = UNMAPPED. -/
def mapAddr (s : State) (a : Nat) : Option DramPlace :=
  let l := a / 256
  let lr := linesPerRank s
  let chans := slot1Channels s
  let k := chans.length
  let chMasks := (List.range 5).map fun i => (readReg s (bxtChHash i)).toNat
  let bankMasks := (List.range 4).map fun j => (readReg s (bxtBankHash j)).toNat
  let place (c slot m : Nat) : DramPlace :=
    { quadrant := c / 8, channel := c % 8, slot := slot
      bank := Nat.xor (m / 8 % 16) (foldBits (m / 128) bankMasks)
      row := m / 128, column := m % 8, byte := a % 256 }
  if l < 32 * lr then
    some (place (Nat.xor (l % 32) (foldBits (l / 32) chMasks)) 0 (l / 32))
  else if l < (32 + k) * lr then
    let l1 := l - 32 * lr
    some (place (chans.getD (l1 % k) 0) 1 (l1 / k))
  else none

/-- Where the check byte of word `w` of the line at a place is stored: bank, row, burst, byte (R249). -/
def checkPlace (s : State) (p : DramPlace) (w : Nat) : Nat × Nat × Nat × Nat :=
  (Nat.xor p.bank 1, dataRows s + p.row / 8, 8 * (p.row % 8) + p.column, w)

/-! Channels, ranks and their states. -/

/-- A channel changed. -/
def setChan (s : State) (c : Fin 32) (f : Chan → Chan) : State :=
  { s with dram := { s.dram with ch := vUpd s.dram.ch c f } }

/-- A quadrant changed. -/
def setQuad (s : State) (q : Nat) (f : Quad → Quad) : State :=
  { s with dram := { s.dram with quad := vUpd s.dram.quad (Fin.ofNat 4 q) f } }

/-- State of rank index `r` of quadrant `q`: 0 SERVING, 1 RETIRED, 2 FAILING, 3 SPARE (R272). -/
def rankState (s : State) (q r : Nat) : Nat := getF s (bxtRankState (8 + q)) (2 * r) 2

/-- A rank's state set. -/
def setRankState (s : State) (q r v : Nat) : State := setF s (bxtRankState (8 + q)) (2 * r) 2 v

/-- The migration of quadrant `q` runs (R272). -/
def migRunning (s : State) (q : Nat) : Bool := getF s (bxtMigStatus (8 + q)) 30 2 == 1

/-- Rank index of the retiring rank. -/
def migSource (s : State) (q : Nat) : Nat := getF s (bxtMigStatus (8 + q)) 24 4

/-- P of R265. -/
def migPointer (s : State) (q : Nat) : Nat := getF s (bxtMigStatus (8 + q)) 0 23

/-- The physical rank that serves a place's slot: the spare where the slot has moved (R250, R265). -/
def servingRank (s : State) (p : DramPlace) : Nat :=
  let r := 2 * p.channel + p.slot
  if (s.dram.quad[Fin.ofNat 4 p.quadrant]).moved = some r then 15 else r

/-- The channel of a physical rank of a quadrant, 0 to 31. -/
def rankChan (q r : Nat) : Fin 32 := Fin.ofNat 32 (8 * q + r / 2)

/-- The channel that serves a place: a slot that has moved to the spare has channel 7's (R250, R265). -/
def chanOf (s : State) (p : DramPlace) : Fin 32 := rankChan p.quadrant (servingRank s p)

/-- The rank-line number of a place: its place among the LR lines of its slot (R248, R265). -/
def slotLine (p : DramPlace) : Nat := 128 * p.row + 8 * p.bank + p.column

/-- The place's slot is being migrated (R265). -/
def migrating (s : State) (p : DramPlace) : Bool :=
  migRunning s p.quadrant && migSource s p.quadrant == servingRank s p

/-- The place's slot is being migrated and its line lies below P: it is read from the spare (R265). -/
def belowP (s : State) (p : DramPlace) : Bool := migrating s p && decide (slotLine p < migPointer s p.quadrant)

/-- The channel that a read of a place queues in (R265). -/
def readChan (s : State) (p : DramPlace) : Fin 32 := if belowP s p then rankChan p.quadrant 15 else chanOf s p

/-- The channels whose write queues a write of a place enters: both ranks' during a migration (R265). -/
def writeChans (s : State) (p : DramPlace) : List (Fin 32) :=
  if migrating s p then [chanOf s p, rankChan p.quadrant 15].eraseDups else [chanOf s p]

/-- The rows that a line access opens in a rank: its data row, and the check row in the bank of another group (R249). -/
def rowsOf (s : State) (p : DramPlace) (r : Nat) : List (Nat × Nat × Nat) :=
  let c := checkPlace s p 0
  [(r % 2, p.bank, p.row), (r % 2, c.1, c.2.1)]

/-- Rows opened: each closes the row that was open in its bank (R249). -/
def openThem (rows opened : List (Nat × Nat × Nat)) : List (Nat × Nat × Nat) :=
  opened.foldl (fun l row => row :: l.filter fun e => !(e.1 == row.1 && e.2.1 == row.2.1)) rows

/-- A reason for pewter mode arises; it waits for a frame start, and the first of several is reported (R299). -/
def wantPewter (s : State) (why : Nat) : State :=
  if s.scan.paired || s.obs.pewterWhy != 0 then s else { s with obs := { s.obs with pewterWhy := why, pewterExit := false } }

/-- A channel's block quarantines itself (R12, R35, R269). -/
def channelQuarantine (s : State) (c : Fin 32) : State :=
  let r := 8 + c.val / 8
  if isQuarantined s r (c.val % 8) then s
  else raise { s with quarantined := s.quarantined ++ [(r, c.val % 8)] } 1 r 0x3F2 (c.val % 8) 0xFF 0

/-- A channel quarantines itself and takes DRAM out of service: from then on every request is answered REGION_UNAVAILABLE, and the event of R269 is raised; `why` is 1 TRAINING, 2 DRIFT, 3 QUARANTINE. A later channel's quarantine finds DRAM out of service. -/
def dramOutOfService (s : State) (c : Fin 32) (why : Nat) : State :=
  let s := channelQuarantine s c
  if getF s bxtStatus 30 2 = 3 then s
  else
    let s := setF s bxtStatus 30 2 3
    let s := { s with dram := { s.dram with bringing := false } }
    raise (wantPewter s 2) 3 (8 + c.val / 8) 0x114 (c.val % 8) 0xFF (c.val % 8 + 16 * why)

/-- Both ranks of channel `c` have retired: its block quarantines itself (R12, R267, R269). -/
def checkChannel (s : State) (c : Fin 32) : State :=
  let r := 8 + c.val / 8
  if isRetired s r (c.val % 8) 0 && isRetired s r (c.val % 8) 1 && !isQuarantined s r (c.val % 8) then
    dramOutOfService s c 3
  else s

/-- The chip migrates a retiring rank to the quadrant's idle spare (R264, R265). -/
def startMigration (s : State) (q r : Nat) : State :=
  let s := setRankState s q 15 0
  let k := bxtMigStatus (8 + q)
  let s := setReg s k (BitVec.ofNat 32 (1 * 2 ^ 30 + r * 2 ^ 24))
  let s := setQuad s q fun x => { x with migPoison := 0, spareBad := [], migAt := s.now }
  raise s 3 (8 + q) 0x110 (r / 2) (r % 2) r

/-- A rank becomes FAILING and keeps serving (R267). -/
def rankFailing (s : State) (q r : Nat) : State :=
  raise (setRankState s q r 2) 3 (8 + q) 0x113 (r / 2) (r % 2) r

/-- The spare retires during a migration: the old rank, which holds every line, goes on as FAILING (R266). -/
def abandonMigration (s : State) (q : Nat) : State :=
  let src := migSource s q
  let p := migPointer s q
  let s := setQuad (setF s (bxtMigStatus (8 + q)) 30 2 3) q fun x => { x with spareBad := [] }
  let s := setRankState (setRankState s q 15 1) q src 2
  raise s 3 (8 + q) 0x112 (src / 2) (src % 2) (src + 256 * p)

/-- A rank retires: by migration to the idle spare, else FAILING; the spare's own retirement abandons its migration (R264 to R267). -/
def retireRank (s : State) (q r : Nat) : State :=
  if isRetired s (8 + q) (r / 2) (r % 2) then s
  else
    let s := { s with retired := s.retired ++ [⟨8 + q, r / 2, r % 2⟩] }
    let s := raise s 0 (8 + q) 0x3F0 (r / 2) (r % 2) 0
    let s :=
      if r = 15 ∧ spareOf s q then
        if migRunning s q then abandonMigration s q
        else if (s.dram.quad[Fin.ofNat 4 q]).moved.isSome then rankFailing s q r
        else setRankState s q 15 1
      else if spareOf s q && rankState s q 15 == 3 then startMigration s q r
      else rankFailing s q r
    checkChannel s (Fin.ofNat 32 (8 * q + r / 2))

/-- The states of a quadrant's ranks when its DRAM is brought up: the retired set is reapplied. With no data to copy, the first retired rank's slot goes to a spare in service at once; the others are FAILING (R14, R264, R272). -/
def ranksShow (s : State) (q : Nat) : State :=
  let gone := (List.range 16).filter fun r => isRetired s (8 + q) (r / 2) (r % 2)
  let spare := spareOf s q
  let data := gone.filter fun r => !(spare && r == 15)
  let moved := match (s.dram.quad[Fin.ofNat 4 q]).moved with
    | some r => some r
    | none => if spare && !gone.contains 15 then data.head? else none
  let s := setQuad s q fun x => { x with moved := moved }
  (List.range 16).foldl (fun s r => setRankState s q r
    (if spare && r == 15 then
      (if moved.isSome then (if gone.contains 15 then 2 else 0) else if gone.contains 15 then 1 else 3)
     else if data.contains r then (if moved == some r then 1 else 2)
     else 0)) s

/-! Packets that answer a request (R23 to R25). -/

/-- The router at which a request to a region leaves the mesh: a Bauxite router serves two channels; any other region is reached at its first router (R12). -/
def routerFor (s : State) (region a : Nat) : Fin 40 :=
  let f := firstRouter region
  Fin.ofNat 40 (if 8 ≤ region ∧ region < 12 then
    match mapAddr s a with
    | some p => if p.quadrant + 8 = region then f + (chanOf s p).val % 8 / 2 else f
    | none => f
  else f)

/-- A response leaves for the requester. -/
def respond (s : State) (from_ : Nat) (dst : Fin 16) (tag : Byte) (opcode status a : Nat) (payload : List CodedWord) : State :=
  meshSend s (routerFor s from_ a) (mkPacket tag.toNat opcode from_ dst.val a 0 status payload) (Fin.ofNat 40 (firstRouter dst.val))

/-- An ERROR_RESPONSE, or the WRITE_ACK or READ_RESPONSE that status 0 stands for. -/
def answer (s : State) (from_ : Nat) (dst : Fin 16) (tag : Byte) (okOpcode status a : Nat) (payload : List CodedWord) : State :=
  if status = 0 then respond s from_ dst tag okOpcode 0 a payload
  else respond s from_ dst tag 0xA status a []

/-! Reading a line with the code (R254, R264, R267, R268, R13). -/

/-- One attempt at a line: how many words were corrected, whether one was poisoned, which words stayed uncorrectable, and the data. -/
structure LineTry where
  corrected : Nat
  poisoned : Bool
  bad : List Nat
  words : List DWord
deriving DecidableEq, Repr

/-- The 32 words of a line as the pins give them, decoded under the address requested; `also` are words that this rank alone holds poisoned (R254, R265). -/
def tryLine (s : State) (line : Nat) (also : List Nat) (flips : List CodedWord) : LineTry :=
  let words := (List.range 32).map fun w =>
    let a := line * 256 + 8 * w
    let stored := if also.contains (a / 8) then eccEncode (BitVec.ofNat 64 (readLe s a 8)) a true else storedWord s (a / 8)
    let x := flipWord stored (flips.getD w ⟨0, 0⟩)
    (x.data, eccDecode x a)
  { corrected := (words.filter fun e => match e.2 with | .corrected _ => true | _ => false).length
    poisoned := words.any fun e => e.2 == .poisoned
    bad := (List.range 32).filter fun w => (words.getD w (0, .good)).2 == .uncorrectable
    words := words.map fun e => match e.2 with | .corrected y => y | _ => e.1 }

/-- Attempts at a line, the first and up to three retries: the attempts made, the corrections, the last one. A poisoned read is returned at once; the read that merges a partial write is retried as long as a word is uncorrectable (R13, R268). -/
def tryUpTo (s : State) (line : Nat) (also : List Nat) (merge : Bool) : Nat → List (List CodedWord) → Nat → Nat × Nat × LineTry
  | 0, fs, n =>
    let t := tryLine s line also (fs.headD [])
    (n, t.corrected, t)
  | k + 1, fs, n =>
    let t := tryLine s line also (fs.headD [])
    if (t.poisoned && !merge) || t.bad.isEmpty then (n, t.corrected, t)
    else
      let r := tryUpTo s line also merge k fs.tail (n + 1)
      (r.1, t.corrected + r.2.1, r.2.2)

/-- ECC_CORRECTED, at most once per second per rank (R273). -/
def reportCorrected (s : State) (q r n : Nat) : State :=
  if n = 0 then s
  else
    let c : Fin 32 := Fin.ofNat 32 (8 * q + r / 2)
    let rk : Fin 2 := Fin.ofNat 2 r
    let e := (s.dram.ch[c]).ecc[rk]
    let total := e.1 + n
    let due := match e.2 with | none => true | some t => decide (t + 1000000000 ≤ s.now)
    let s := setChan s c fun x => { x with ecc := vUpd x.ecc rk fun _ => if due then (0, some s.now) else (total, e.2) }
    if due then raise s 0 (8 + q) 0x100 (r / 2) (r % 2) total else s

/-- Corrected errors of a unit counted; more than 16 within 1 s (R13). -/
def countCorrected (s : State) (u : UnitId) (n : Nat) : State × Bool :=
  let recent := s.corrected.filter fun e => e.1 != u || decide (s.now < e.2 + 1000000000)
  let all := (List.replicate n (u, s.now)) ++ recent
  ({ s with corrected := all }, decide (16 < (all.filter fun e => e.1 == u).length))

/-- Corrections of a rank: counted, reported, and the rank retires beyond 16 in 1 s (R254, R264). -/
def rankCorrected (s : State) (q r n : Nat) : State :=
  if n = 0 then s
  else
    let s := bump s (bxtEccCorrected (8 + q)) n
    let s := reportCorrected s q r n
    let (s, beyond) := countCorrected s ⟨8 + q, r / 2, r % 2⟩ n
    if beyond then retireRank s q r else s

/-- A read that meets a poisoned word is counted and reported: the requesting region, and the word's address (R268, R273). -/
def poisonRead (s : State) (q channel src word : Nat) : State :=
  raise (bump s (bxtPoisonReads (8 + q))) 1 (8 + q) 0x101 channel 0xFF (src % 16 + bitsOf (8 * word) 8 24 * 256)

/-- Region `src` reads the bytes [a, a + n) of DRAM: each line of them that holds a poisoned word is a poisoned read (R268). -/
def poisonSeen (s : State) (src a n : Nat) : State :=
  if dramStatus s a n ≠ 0 then s
  else
    let words := s.poison.filter fun w => wordIn a n w
    ((words.map fun w => w / 32).eraseDups).foldl (fun s line =>
      match mapAddr s (256 * line) with
      | some p => poisonRead s p.quadrant ((chanOf s p).val % 8) src ((words.find? fun w => w / 32 == line).getD 0)
      | none => s) s

/-- The outcome of reading a line: status, words, which words stayed uncorrectable. -/
structure LineOutcome where
  status : Nat
  words : List DWord
  bad : List Nat
deriving DecidableEq, Repr

/-- Reads from one physical rank: retries, counts, retirement (R13, R254, R264, R267, R268). -/
def readRank (s : State) (q r line src : Nat) (merge : Bool) (fs : List (List CodedWord)) : State × LineOutcome :=
  let also := if r = 15 ∧ migRunning s q then (s.dram.quad[Fin.ofNat 4 q]).spareBad else []
  let (n, corr, t) := tryUpTo s line also merge 3 fs 0
  let s := rankCorrected s q r corr
  let s := if t.poisoned then
      poisonRead s q (r / 2) src (((List.range 32).map fun w => line * 32 + w).find? (fun w => isPoisoned s w || also.contains w) |>.getD (line * 32))
    else s
  if !t.bad.isEmpty && (!t.poisoned || merge) then
    let s := bump s (bxtEccUncorrectable (8 + q))
    let s := if rankState s q r = 2 then s else retireRank s q r
    (s, ⟨if t.poisoned then 4 else 1, t.words, t.bad⟩)
  else
    let s := if n = 0 then s else raise s 0 (8 + q) 0x3F6 (r / 2) (r % 2) 0
    (s, ⟨if t.poisoned then 4 else 0, t.words, t.bad⟩)

/-- Reads a line of a place: below P of a running migration from the spare, and again from the old rank where uncorrectable there (R265). -/
def readPlace (s : State) (p : DramPlace) (line src : Nat) (merge : Bool) (fs : LineFlips) : State × LineOutcome :=
  let q := p.quadrant
  let r := servingRank s p
  if belowP s p then
    let x := readRank s q 15 line src merge (fs.take 4)
    if x.2.status = 1 then readRank x.1 q r line src merge (fs.drop 4) else x
  else readRank s q r line src merge fs

/-- A line's coded words for a response packet (R22). -/
def payloadOf (a : Nat) (ws : List DWord) : List CodedWord :=
  ws.zipIdx.map fun e => eccEncode e.1 (a + 8 * e.2) false

/-- What a region's read of a line ended with, for the words of the line (R24, R264). -/
def noteFailed (s : State) (src line : Nat) (bad : List Nat) (status : Nat) : State :=
  { s with failed := (s.failed.filter fun e => !(e.1 == src && e.2.1 / 32 == line)) ++ bad.map fun w => (src, line * 32 + w, status) }

/-! The queues of a channel (R256 to R259). -/

/-- The class of what a request is for: 0 PIXEL, 1 NORMAL, 2 LOW, 3 MIGRATE (R256). -/
def useClass (u : DramUse) : Nat :=
  match u with
  | .rayRead => 0
  | .overlayFetch => 0
  | .repeatFill => 0
  | .blitter => 2
  | .boraxJob => 2
  | .migration => 3
  | _ => 1

/-- The regions that make a request of a use (R256). -/
def useRegions (u : DramUse) : List Nat :=
  match u with
  | .rayRead => [4, 5, 6, 7]
  | .overlayFetch => [13]
  | .repeatFill => [12]
  | .layerWrite => [3]
  | .shadowWrite => [12]
  | .ingestReturn => [3, 12]
  | .calMap => [14]
  | .dma => [1, 2]
  | .hostAperture => [0]
  | .blitter => [13]
  | .boraxJob => [12]
  | .migration => [8, 9, 10, 11]
  | .other => List.range 16

/-- The class of a request: TAG[7:6] (R256). -/
def reqClass (r : LineReq) : Nat := r.tag.toNat / 64

/-- A request's tag is one that its requester draws for its use (R256). -/
def reqOk (r : LineReq) : Bool := reqClass r == useClass r.use && (useRegions r.use).contains r.src.val

/-- The oldest waiting read of a class. -/
def oldestOf (q : List LineReq) (k : Nat) : Option LineReq := q.find? fun r => reqClass r == k

/-- A read whose data row is open in its rank. -/
def openHit (s : State) (c : Chan) (line : Nat) : Bool :=
  match mapAddr s (line * 256) with
  | some p => c.openRows.contains ((if belowP s p then 15 else servingRank s p) % 2, p.bank, p.row)
  | none => false

/-- Whether a read of the queue may be served next: a class whose share is due goes first, NORMAL before LOW before MIGRATE, then PIXEL; within the class the oldest, or a younger one that hits an open row while the oldest has not been passed four times in a row (R257). -/
def mayServe (s : State) (c : Chan) (r : LineReq) : Bool :=
  let has k := (oldestOf c.readQ k).isSome
  let k := reqClass r
  let classOk :=
    if has 1 && decide (3 ≤ c.since.1) then k == 1
    else if has 2 && decide (12 ≤ c.since.2.1) then k == 2
    else if has 3 && decide (12 ≤ c.since.2.2) then k == 3
    else if has 0 then k == 0
    else true
  classOk && (oldestOf c.readQ k == some r || (openHit s c r.line && decide (c.passes[Fin.ofNat 4 k] < 4)))

/-- The channel after a read is served: the counts of R257 and the rows that the access opened (R249). -/
def served (c : Chan) (r : LineReq) (rows : List (Nat × Nat × Nat)) : Chan :=
  let k := reqClass r
  { c with
    passes := vUpd c.passes (Fin.ofNat 4 k) fun n => if oldestOf c.readQ k == some r then 0 else n + 1
    readQ := c.readQ.erase r
    since := (if k = 1 then 0 else c.since.1 + 1, if k = 2 then 0 else c.since.2.1 + 1, if k = 3 then 0 else c.since.2.2 + 1)
    openRows := openThem c.openRows rows }

/-- A read in a channel's queue: it joins where there is room, and is served when no drain runs and R257 lets it be next; the second part says that it was. -/
def readTurn (s : State) (c : Fin 32) (req : LineReq) (rows : List (Nat × Nat × Nat)) : State × Bool :=
  let waiting := (s.dram.ch[c]).readQ.contains req
  if !waiting && decide (64 ≤ (s.dram.ch[c]).readQ.length) then (s, false)
  else
    let s := if waiting then s else setChan s c fun x => { x with readQ := x.readQ ++ [req] }
    if (s.dram.ch[c]).drain.isSome || !mayServe s s.dram.ch[c] req then (s, false)
    else (setChan s c fun x => served x req rows, true)

/-- A line stands in a channel's write queue. -/
def lineQueued (s : State) (c : Fin 32) (line : Nat) : Bool := (s.dram.ch[c]).writeQ.any fun e => e.1 == line

/-- The line's 32 words as they stand. -/
def lineWords (s : State) (line : Nat) : List DWord := (List.range 32).map fun w => BitVec.ofNat 64 (readLe s (line * 256 + 8 * w) 8)

/-- A read request: it joins the channel's read queue, and is served when R257 lets it be next; a queued line of the write queue is answered at once (R257, R259). -/
def dramRead (s : State) (req : LineReq) (fs : LineFlips) : State :=
  let a := req.line * 256
  let st := dramStatus s a 256
  if !reqOk req then s
  else match mapAddr s a with
  | none => answer s (8 + req.line % 32 / 8) req.src req.tag 8 3 a []
  | some p =>
    let home := 8 + p.quadrant
    if st ≠ 0 then answer s home req.src req.tag 8 st a []
    else
      let c := readChan s p
      if lineQueued s c req.line then
        match ((List.range 32).map fun w => req.line * 32 + w).find? fun w => isPoisoned s w with
        | some w => answer (poisonRead s p.quadrant (c.val % 8) req.src.val w) home req.src req.tag 8 4 a []
        | none => answer (noteFailed s req.src.val req.line [] 0) home req.src req.tag 8 0 a (payloadOf a (lineWords s req.line))
      else
        let (s, go) := readTurn s c req (rowsOf s p (if belowP s p then 15 else servingRank s p))
        if !go then s
        else
          let (s, o) := readPlace s p req.line req.src.val false fs
          let s := noteFailed s req.src.val req.line (if o.status = 1 then o.bad else []) 1
          answer s home req.src req.tag 8 o.status a (payloadOf a o.words)

/-- Bytes of a line with those that the byte enables select replaced. -/
def mergeBytes (old new : List Byte) (enables : Nat) : List Byte :=
  (List.range 256).map fun i => if bitAt enables i then new.getD i 0 else old.getD i 0

/-- The eight enable bits of word `w`. -/
def wordEnables (enables w : Nat) : Nat := bitsOf enables (8 * w) 8

/-- A merged line enters the write queue, or the entry of that line, which keeps its place (R259). -/
def writeEnters (s : State) (c : Fin 32) (line : Nat) : State :=
  if lineQueued s c line then s else setChan s c fun x => { x with writeQ := x.writeQ ++ [(line, s.now)] }

/-- The write's bytes take their place, with the poison that the line then holds; its status (R30, R268). `bad` are the words that the merge read left uncorrectable, `poison` those that arrived poisoned. -/
def lineStore (s : State) (line enables : Nat) (data : List Byte) (poison : Nat) (old : List DWord) (bad : List Nat) : Nat × State :=
  let before := (List.range 32).filter fun w => isPoisoned s (line * 32 + w)
  let part w := wordEnables enables w != 0 && wordEnables enables w != 255
  let whole w := wordEnables enables w == 255
  let come := (List.range 32).filter fun w => bitAt poison w && wordEnables enables w != 0
  let s := { s with mem := memPutList s.mem (line * 256) (mergeBytes (old.flatMap fun w => leBytes w.toNat 8) data enables) }
  let s := clearPoison s (line * 256) 256
  let keep := (((before ++ bad).filter fun w => !whole w) ++ come).eraseDups
  let s := keep.foldl (fun s w => poisonWord s (line * 32 + w)) s
  let s := match mapAddr s (line * 256) with
    | some p => setQuad s p.quadrant fun x => { x with spareBad := x.spareBad.filter fun w => !(w / 32 == line && whole (w % 32)) }
    | none => s
  (if before.any part then 4 else if bad.any part then 1 else 0, s)

/-- A write request to a line: a whole line enters the write queue, or both ranks' during a migration; a partial one is first read, as a read of its class, and merged; poison and uncorrectable words as R268 decides. A posted write is not answered. The second part says that the request is done with (R23, R30, R258, R259, R265, R268). -/
def dramWrite (s : State) (req : LineReq) (enables : BitVec 256) (data : List Byte) (poison : BitVec 32) (fs : LineFlips) (posted : Bool) : State × Bool :=
  let a := req.line * 256
  let st := dramStatus s a 256
  let reply (s : State) (home status : Nat) : State := if posted then s else answer s home req.src req.tag 9 status a []
  if !reqOk req then (s, false)
  else match mapAddr s a with
  | none => (reply s (8 + req.line % 32 / 8) 3, true)
  | some p =>
    let home := 8 + p.quadrant
    if st ≠ 0 then (reply s home st, true)
    else
      let cs := writeChans s p
      let c := readChan s p
      if cs.any fun x => !lineQueued s x req.line && decide (64 ≤ (s.dram.ch[x]).writeQ.length) then (s, false)
      else
        let done (s : State) (old : List DWord) (bad : List Nat) : State × Bool :=
          let (status, s) := lineStore s req.line enables.toNat data poison.toNat old bad
          (reply (cs.foldl (fun s x => writeEnters s x req.line) s) home status, true)
        if enables == BitVec.allOnes 256 || lineQueued s c req.line then done s (lineWords s req.line) []
        else
          let (s, go) := readTurn s c req (rowsOf s p (if belowP s p then 15 else servingRank s p))
          if !go then (s, false)
          else
            let (s, o) := readPlace s p req.line req.src.val true fs
            done s o.words o.bad

/-- A drain is due: 48 entries, or the oldest entry has waited 10 µs; whether it begins on age (R258). -/
def drainDue (s : State) (c : Chan) : Option Bool :=
  if 48 ≤ c.writeQ.length then some false
  else match c.writeQ with
    | e :: _ => if e.2 + 10000 ≤ s.now then some true else none
    | [] => none

/-- A drain issues one write: the oldest, or one that hits an open row while the oldest has not been passed four times in a row; the drain ends at 16 entries, and one that began on age also when the queue is empty (R258). -/
def drainOne (s : State) (ch : Fin 32) (line : Nat) : State :=
  let c := s.dram.ch[ch]
  match c.drain, c.writeQ.find? fun e => e.1 == line with
  | some m, some e =>
    let oldest := c.writeQ.head? == some e
    if !oldest && !(openHit s c line && decide (c.wpasses < 4)) then s
    else
      let rows := match mapAddr s (line * 256) with
        | some p => rowsOf s p (if ch = chanOf s p then servingRank s p else 15)
        | none => []
      let n := c.writeQ.length - 1
      setChan s ch fun x => { x with
        writeQ := x.writeQ.erase e
        wpasses := if oldest then 0 else x.wpasses + 1
        openRows := openThem x.openRows rows
        drain := if n = 16 ∨ (m && n = 0) then none else x.drain }
  | _, _ => s

/-- WRITE_DRAIN: a drain begins where one is due, and issues writes in the order given (R258). -/
def writeDrain (s : State) (ch : Fin 32) (byAge : Bool) (issued : List Nat) : State :=
  let c := s.dram.ch[ch]
  let s := if c.drain.isNone && drainDue s c == some byAge then setChan s ch fun x => { x with drain := some byAge, wpasses := 0 } else s
  issued.foldl (fun s l => drainOne s ch l) s

/-- The migration's cap, in ns for the lines before P: 256 bytes a line at MIG_RATE GB/s (R265, R272). -/
def migPace (s : State) (q : Nat) : Nat := migPointer s q * 256 / max 1 (getF s (bxtQuadConfig (8 + q)) 8 4)

/-- The device line that rank-line `p` of a rank's slot holds (R250 read backwards). -/
def lineOfSlot (s : State) (q src p : Nat) : Option Nat :=
  let lr := linesPerRank s
  let c := 8 * q + src / 2
  let row := p / 128
  let bankMasks := (List.range 4).map fun j => (readReg s (bxtBankHash j)).toNat
  let chMasks := (List.range 5).map fun i => (readReg s (bxtChHash i)).toNat
  let m := row * 128 + Nat.xor (p / 8 % 16) (foldBits row bankMasks) * 8 + p % 8
  if src % 2 = 0 then some (m * 32 + Nat.xor c (foldBits m chMasks))
  else
    match (slot1Channels s).findIdx? (fun x => x == c) with
    | some i => some (32 * lr + m * (slot1Channels s).length + i)
    | none => none

/-- A line of the retiring rank has been read for the copy: it is written to the spare, words that stay uncorrectable or were poisoned as poisoned ones, and P advances; at LR the slot moves (R265, R268). -/
def copyLine (s : State) (q : Fin 4) (src line : Nat) (bad : List Nat) : State :=
  let p := migPointer s q.val
  let here := (List.range 32).filter fun w => isPoisoned s (line * 32 + w)
  let new := (bad.filter fun w => !here.contains w).map fun w => line * 32 + w
  let s := setQuad s q.val fun x => { x with
    migPoison := x.migPoison + here.length + new.length
    spareBad := x.spareBad.filter (fun w => !(w / 32 == line)) ++ new }
  let s := setF (writeEnters s (rankChan q.val 15) line) (bxtMigStatus (8 + q.val)) 0 23 (p + 1)
  if p + 1 < linesPerRank s then s
  else
    let s := setRankState (setF s (bxtMigStatus (8 + q.val)) 30 2 2) q.val src 1
    let s := (s.dram.quad[q]).spareBad.foldl (fun s w => poisonWord s w) s
    let s := setQuad s q.val fun x => { x with moved := some src, spareBad := [] }
    raise s 3 (8 + q.val) 0x111 (src / 2) (src % 2) (src + 256 * (s.dram.quad[q]).migPoison)

/-- MIGRATION_COPY: the line under P is read in class MIGRATE, held to MIG_RATE, and copied; nothing is copied while DRAM is out of service (R257, R265, R269). -/
def migrationCopy (s : State) (q : Fin 4) (fs : LineFlips) : State :=
  if !migRunning s q.val || !dramUp s || decide (s.now < (s.dram.quad[q]).migAt + migPace s q.val) then s
  else
    let src := migSource s q.val
    match lineOfSlot s q.val src (migPointer s q.val) with
    | none => s
    | some line =>
      let spare := rankChan q.val 15
      if !lineQueued s spare line && decide (64 ≤ (s.dram.ch[spare]).writeQ.length) then s
      else
        let rows := match mapAddr s (line * 256) with
          | some p => rowsOf s p src
          | none => []
        let (s, go) := readTurn s (rankChan q.val src) ⟨Fin.ofNat 16 (8 + q.val), .migration, 0xC0, line⟩ rows
        if !go then s
        else
          let (s, o) := readRank s q.val src line (8 + q.val) true fs
          if !migRunning s q.val then s else copyLine s q src line o.bad

/-! Refresh, temperature, drift (R260 to R263). -/

/-- The refresh window: rows close, a pending band and pending phase shifts take effect (R260, R261, R263). -/
def refreshWindow (s : State) : State :=
  if getF s bxtStatus 30 2 = 0 ∨ getF s bxtStatus 30 2 = 3 then s
  else
    let old := getF s bxtStatus 24 2
    let s := match s.dram.nextBand with
      | none => s
      | some b =>
        let s := setF s bxtStatus 24 2 b
        if b = old then s else raise s 2 8 0x102 0xFF 0xFF (b + 4 * old)
    let s := (List.range 32).foldl (fun s i =>
      if (s.dram.ch[Fin.ofNat 32 i]).shift then bump s (bxtRetrains (8 + i / 8)) else s) s
    { s with dram := { s.dram with
        nextBand := none
        ch := s.dram.ch.map fun c => { c with openRows := [], shift := false } } }

/-- The band that a rank's MR4 asks for: 0 NORMAL, 1 HOT, 2 EXTENDED (R261). -/
def mr4Band (m : RefreshMult) (derate : Bool) : Nat :=
  if derate then 2 else match m with | .normal => 0 | .half => 1 | .quarter => 2

/-- A channel's reading of MR4 of a rank: a hotter band takes effect at the next strobe, a cooler one after every rank's two reads (R261). -/
def mr4Read (s : State) (ch : Fin 32) (rank : Fin 2) (m : RefreshMult) (derate : Bool) : State :=
  if !dramUp s then s
  else
    let b := mr4Band m derate
    let s := setChan s ch fun c => { c with mr4 := vUpd c.mr4 rank fun l => (b :: l).take 2, derate := c.derate.set rank derate }
    let s := if derate then raise s 2 (8 + ch.val / 8) 0x103 (ch.val % 8) rank.val (2 * (ch.val % 8) + rank.val) else s
    let reads := s.dram.ch.toList.flatMap fun c => c.mr4.toList
    let hot := (reads.map fun l => l.headD 0).foldl max 0
    let cool := (reads.map fun l => l.foldl max 0).foldl max 0
    let twice := reads.all fun l => l.length == 2
    let cur := getF s bxtStatus 24 2
    let next := if cur < hot then some hot else if twice && decide (cool < cur) then some cool else none
    { s with dram := { s.dram with nextBand := next } }

/-- Trained eyes that R263 allows, in thousandths of a unit interval: 0.25 UI for a DQ, 0.30 UI for a CA. -/
def eyesOk (dq ca : List Nat) : Bool := dq.all (fun e => decide (250 ≤ e)) && ca.all (fun e => decide (300 ≤ e))

/-- A channel's reading of the WCK2DQ oscillator, drift in 1/256 UI: beyond 1/16 UI a phase shift waits for the next window, or the channel fails where the shift would leave an eye too narrow (R263). -/
def wck2dqCheck (s : State) (ch : Fin 32) (drift dqEye caEye : Nat) : State :=
  if !dramUp s || decide (drift ≤ 16) then s
  else if eyesOk [dqEye] [caEye] then setChan s ch fun c => { c with shift := true }
  else dramOutOfService s ch 2

/-! Bring-up (R263, R550). -/

/-- DRAM's bring-up begins while STATE is OFF and every Bauxite region is on: RESET_N rises, the retired set is reapplied and training starts, unless a channel has no rank left (R12, R14, R246, R270, R550). -/
def bringUpNow (s : State) : State :=
  if getF s bxtStatus 30 2 = 0 ∧ ([8, 9, 10, 11].all fun r => serves s r) then
    let s := setF s bxtStatus 30 2 1
    let s := { s with
      dram := { s.dram with bringing := true, bringWaits := false, ch := Vector.replicate 32 {}, nextBand := none }
      power := { s.power with dramReset := true } }
    (List.finRange 32).foldl checkChannel ((List.range 4).foldl ranksShow s)
  else s

/-- BRING_UP written: it takes effect no earlier than 2 ms after DRAM_PWR_EN rose (R490). -/
def bringUp (s : State) : State :=
  if s.power.dramReadyAt ≤ s.now then bringUpNow s
  else if getF s bxtStatus 30 2 = 0 ∧ ([8, 9, 10, 11].all fun r => serves s r) then { s with dram := { s.dram with bringWaits := true } }
  else s

/-- A BRING_UP that waits takes effect when its time has come (R490). -/
def bringUpDue (s : State) : State :=
  if s.dram.bringWaits ∧ s.power.dramReadyAt ≤ s.now then bringUpNow { s with dram := { s.dram with bringWaits := false } } else s

/-- A channel's training has come out well: the five steps in their order, every eye wide enough, no device that requires refresh management (R246, R263). -/
def trainOk (t : TrainResult) : Bool :=
  t.steps == [.zq, .ca, .wck2ck, .readDq, .writeDq] && eyesOk t.dqEyes t.caEyes && !t.refreshManagement

/-- A channel's training ends (R263, R269). -/
def dramTrained (s : State) (ch : Fin 32) (res : TrainResult) : State :=
  if getF s bxtStatus 30 2 ≠ 1 then s
  else if trainOk res then setChan s ch fun c => { c with trained := true }
  else dramOutOfService s ch 1

/-- Every channel has written its lines with zero: DRAM is in service, the top of DRAM is set (R550, R270). -/
def dramInitDone (s : State) : State :=
  if getF s bxtStatus 30 2 ≠ 1 ∨ !(s.dram.ch.toList.all fun c => c.trained) then s
  else
    let s := { s with mem := [], poison := [], failed := [], dram := { s.dram with bringing := false } }
    let s := setF s bxtStatus 30 2 2
    let s := setF s bxtStatus 16 7 (32 + (slot1Channels s).length)
    let top := dramTop s
    setReg (setReg s bxtTopLo (BitVec.ofNat 32 top)) bxtTopHi (BitVec.ofNat 32 (top / 2 ^ 32))

/-- DRAM loses its power: contents, queues, training and a migration in progress are lost, RESET_N is low; STATE is OFF, unless the quarantine of R269 holds. A slot that has moved stays moved (R246, R265, R481). -/
def dramPowerLost (s : State) : State :=
  let s := { s with
    mem := [], poison := [], failed := []
    dram := { s.dram with ch := Vector.replicate 32 {}, bringing := false, bringWaits := false, nextBand := none, quad := s.dram.quad.map fun q => { moved := q.moved } }
    power := { s.power with dramReset := false } }
  if getF s bxtStatus 30 2 = 3 then s else setReg s bxtStatus 0

end Sys2Proof.Machine
end

