-- ==== Sys2Proof/Machine/CalMap.lean ====
section
/-! DEFINITION. The configured panel, the calibration map's checks, loading and replacing, and the ray generator (R39 to R60, R551). -/

namespace Sys2Proof.Machine

/-! fp64 in the order written (R43). -/

/-- fp64 sum. -/
def dAdd (a b : Nat) : Nat := fAdd fp64 a b
/-- fp64 difference. -/
def dSub (a b : Nat) : Nat := fSub fp64 a b
/-- fp64 product. -/
def dMul (a b : Nat) : Nat := fMul fp64 a b
/-- fp64 quotient. -/
def dDiv (a b : Nat) : Nat := fDiv fp64 a b
/-- fp64 of an integer. -/
def dInt (i : Int) : Nat := fOfInt fp64 i
/-- 0.5 in fp64. -/
def dHalf : Nat := fRound fp64 false 1 2 0
/-- 2^k in fp64. -/
def dPow2 (k : Nat) : Nat := fRound fp64 false (2 ^ k) 1 0

/-! Map fields (R47 to R50). -/

/-- A field of the map's first 128 bytes. -/
def mapU (bs : List Byte) (o len : Nat) : Nat := leAt bs o len
/-- A signed 32-bit field. -/
def mapS (bs : List Byte) (o : Nat) : Int := signedOf (leAt bs o 4) 32

/-- LENS_PITCH, Q8.24. -/
def lensPitch (bs : List Byte) : Nat := mapU bs 64 4
/-- TILE_COLS as R47 gives it. -/
def tileCols (w : Nat) : Nat := (w / 64 + 1 + 7) / 8
/-- TILE_ROWS as R47 gives it. -/
def tileRows (h : Nat) : Nat := (h / 16 + 1 + 7) / 8

/-- Byte offset of residual tile t (R49). -/
def tileBase (t : Nat) : Nat := 128 + 520 * t

/-- Residual tile of node (i, j) (R44). -/
def nodeTile (cols i j : Nat) : Nat := j / 8 * cols + i / 8

/-- Offset in its tile of the word with node (i, j)'s components (R49). -/
def nodeOffset (i j : Nat) : Nat := 8 + (j % 8 * 8 + i % 8) * 8

/-! Checks (R52, R53). The map's bytes are taken as an array. -/

/-- Byte of the map as read. -/
def mb (a : Array Byte) (o : Nat) : Nat := (a.getD o 0).toNat

/-- Raw component n of node (i, j): the stored signed byte. -/
def rawQ (a : Array Byte) (cols i j n : Nat) : Int :=
  signedOf (mb a (tileBase (nodeTile cols i j) + nodeOffset i j + n)) 8

/-- Shift of component n in the tile of node (i, j). -/
def rawShift (a : Array Byte) (cols i j n : Nat) : Nat :=
  let b := tileBase (nodeTile cols i j)
  mb a (b + n / 2) / 16 ^ (n % 2) % 16

/-- fp64(q) × 2^sh of a component as stored (R44). -/
def rawNode (a : Array Byte) (cols i j n : Nat) : Nat :=
  dInt (rawQ a cols i j n * (2 ^ rawShift a cols i j n : Nat))

/-- Neighbours of node (i, j) inside the grid, in the order of R53. -/
def neighbours (nc nr i j : Nat) : List (Nat × Nat) :=
  (if 0 < i then [(i - 1, j)] else []) ++ (if i + 1 < nc then [(i + 1, j)] else []) ++
  (if 0 < j then [(i, j - 1)] else []) ++ (if j + 1 < nr then [(i, j + 1)] else [])

/-- The value of a component after substitution (R53). -/
def substNode (a : Array Byte) (cols nc nr i j n : Nat) : Nat :=
  if rawQ a cols i j n = -128 then
    match (neighbours nc nr i j).map fun p => rawNode a cols p.1 p.2 n with
    | [] => rawNode a cols i j n
    | v :: r => dDiv (r.foldl dAdd v) (dInt (r.length + 1))
  else rawNode a cols i j n

/-- Whether a node has an INVALID component. -/
def invalidNode (a : Array Byte) (cols i j : Nat) : Bool :=
  (List.range 8).any fun n => rawQ a cols i j n == -128

/-- Every node of the grid that is not padding, row by row. -/
def gridNodes (nc nr : Nat) : List (Nat × Nat) :=
  (List.range nr).flatMap fun j => (List.range nc).map fun i => (i, j)

/-- Checks 1 to 10 of R52: the number of the first that rejects, or 0. -/
def mapRejects (s : State) (bs : List Byte) (failed : Bool) (serial : List Byte) : Nat :=
  let w := mapU bs 0x0C 2
  let h := mapU bs 0x0E 2
  let n := mapU bs 0x10 1
  let cols := tileCols w
  let rows := tileRows h
  let total := 128 + cols * rows * 520 + 4
  let px := mapU bs 0x14 4
  let py := mapU bs 0x18 4
  let lp := lensPitch bs
  let shift := mapS bs 0x44
  let fan := mapU bs 0x4C 4
  let baseV := mapS bs 0x50
  let u (i : Nat) := mapS bs (0x58 + 4 * i)
  let v (i : Nat) := mapS bs (0x68 + 4 * i)
  let here := List.range n
  let gone := (List.range 4).drop n
  let resv := [0x12, 0x13, 0x55, 0x56, 0x57] ++ (List.range 8).map fun i => 0x78 + i
  if failed then 1
  else if mapU bs 0 4 ≠ 0x4D434C47 ∨ mapU bs 4 1 ≠ 1 then 2
  else if mapU bs 6 2 ≠ 64 ∨ mapU bs 0x1C 4 ≠ 64 ∨ mapU bs 0x20 4 ≠ 128 ∨ mapU bs 8 4 ≠ total ∨ bs.length < total then 3
  else if BitVec.ofNat 32 (leAt bs (total - 4) 4) ≠ crc32 (bs.take (total - 4)) then 4
  else if w ≠ panelW s ∨ h ≠ panelH s ∨ n ≠ panelN s ∨ w % 64 ≠ 0 ∨ h % 16 ≠ 0 ∨ 1 < mapU bs 0x11 1 then 5
  else if mapU bs 0x24 2 ≠ cols ∨ mapU bs 0x26 2 ≠ rows then 6
  else if sliceBytes bs 0x28 16 ≠ serial then 7
  else if px < 50000 ∨ 1000000 < px ∨ py < 50000 ∨ 1000000 < py ∨ 2 * py < px ∨ 2 * px < py then 8
  else if mapU bs 0x54 1 ≠ 48 ∨ lp < 2 * 2 ^ 24 ∨ 64 * 2 ^ 24 < lp ∨ lp < 2 * shift.natAbs ∨
      20 * fan < 2 ^ 30 ∨ 2 ^ 30 < fan ∨ (mapU bs 5 1 = 0 ∧ resv.any fun o => mapU bs o 1 != 0) then 9
  else if (here.any fun i => decide (fan < 24 * (u i).natAbs)) ∨
      ((List.range (n - 1)).any fun i => decide (u (i + 1) ≤ u i)) ∨
      (here.any fun i => decide (2 ^ 28 < (baseV + v i).natAbs)) ∨
      (gone.any fun i => u i != 0 || v i != 0) then 10
  else 0

/-- Checks 11 to 14 of R52 on a map that passed 1 to 10: the number of the first that fails, or 0. -/
def mapDrops (bs : List Byte) : Nat :=
  let a := bs.toArray
  let w := mapU bs 0x0C 2
  let h := mapU bs 0x0E 2
  let n := mapU bs 0x10 1
  let cols := tileCols w
  let rows := tileRows h
  let nc := w / 64 + 1
  let nr := h / 16 + 1
  let px := mapU bs 0x14 4
  let lp := lensPitch bs
  let nodes := gridNodes nc nr
  let val (i j k : Nat) : Ratio := ratOf (fDecode fp64 (substNode a cols nc nr i j k))
  -- limits: origin residuals in 100 nm, directions in 2^-20
  let lim (k : Nat) (dir : Nat) : Ratio :=
    if k < 2 then ⟨(lp * px : Nat), (if dir = 1 then 3 else 12) * 2 ^ 24 * 100⟩
    else if dir = 1 then ⟨2 ^ 20, 20⟩ else ⟨2 ^ 20, 200⟩
  let c11 :=
    ((List.range (cols * rows)).any fun t =>
      (List.range 4).any fun i => mb a (tileBase t + 4 + i) != 0) ||
    ((List.range (cols * rows)).any fun t =>
      (List.range 8).any fun k => decide (12 < mb a (tileBase t + k / 2) / 16 ^ (k % 2) % 16)) ||
    ((gridNodes (8 * cols) (8 * rows)).any fun p =>
      (decide (nc ≤ p.1) || decide (nr ≤ p.2)) && (List.range 8).any fun k => rawQ a cols p.1 p.2 k != 0) ||
    (nodes.any fun p => ((List.range 4).drop n).any fun k => rawQ a cols p.1 p.2 (4 + k) != 0)
  let c12 := nodes.any fun p => (List.range 8).any fun k => ratLt (lim k 1) (ratAbs (val p.1 p.2 k))
  let far (p q : Nat × Nat) := (List.range 8).any fun k =>
    ratLt (lim k 2) (ratAbs (ratSub (val p.1 p.2 k) (val q.1 q.2 k)))
  let c13 := nodes.any fun p =>
    (decide (p.1 + 1 < nc) && far p (p.1 + 1, p.2)) || (decide (p.2 + 1 < nr) && far p (p.1, p.2 + 1))
  let inv p := invalidNode a cols (Prod.fst p) (Prod.snd p)
  let c14 :=
    decide (nodes.length < 100 * (nodes.filter inv).length) ||
    (nodes.any fun p => inv p &&
      ((decide (p.1 + 1 < nc) && inv (p.1 + 1, p.2)) || (decide (p.2 + 1 < nr) && inv (p.1, p.2 + 1))))
  if c11 then 11 else if c12 then 12 else if c13 then 13 else if c14 then 14 else 0

/-- The components that R53 substitutes, with the values that take their place. -/
def mapSubst (bs : List Byte) : List ((Nat × Nat × Nat) × DWord) :=
  let a := bs.toArray
  let cols := tileCols (mapU bs 0x0C 2)
  let nc := mapU bs 0x0C 2 / 64 + 1
  let nr := mapU bs 0x0E 2 / 16 + 1
  (gridNodes nc nr).flatMap fun p => (List.range 8).filterMap fun k =>
    if rawQ a cols p.1 p.2 k = -128 then
      some ((p.1, p.2, k), BitVec.ofNat 64 (substNode a cols nc nr p.1 p.2 k))
    else none

/-! Loading, staging and taking effect (R54 to R58, R551). -/

/-- The calibration map unit changed. -/
def setCal (s : State) (f : CalMap → CalMap) : State := { s with calmap := f s.calmap }

/-- The kind that IN_USE shows (R55). -/
def kindCode (k : MapKind) : Nat :=
  match k with
  | .none => 0
  | .full => 1
  | .parametric => 2

/-- The newest map: the staged one, otherwise the one in use (R56). -/
def newestKind (c : CalMap) : MapKind :=
  match c.staged, c.inUse with
  | some m, _ => m.kind
  | none, some m => m.kind
  | none, none => .none

/-- The lowest map buffer that holds neither the map in use nor a staged one (R551). -/
def freeBuffer (c : CalMap) : Nat :=
  let busy := (c.inUse.toList ++ c.staged.toList).map fun m => m.buf
  ((List.range 3).find? fun b => !busy.contains b).getD 0

/-- Base of a map buffer (R442, R551). -/
def mapBuffer (s : State) (b : Nat) : Nat := s.calmap.area + 0x140000 * b

/-- BUSY and PENDING of OBS_CALMAP_STATUS follow the load and the waiting start (R55). -/
def calStatus (s : State) : State :=
  let s := setF s obsCalmapStatus 31 1 (b2n s.calmap.load.isSome)
  setF s obsCalmapStatus 30 1 (b2n s.calmap.waiting.isSome)

/-- FLASH_READ to driver 0: bytes of the panel flash from an offset in the map (R282, R283). -/
def flashRead (s : State) (at_ n : Nat) : DrvCmd :=
  ⟨0, 7, 0, leAt s.obs.ident 20 4 + at_, .bytes (leBytes n 4)⟩

/-- A load from the panel sends its first FLASH_READ once DRAM is in service (chapter 02) and the panel's identity block has given MAP_OFFSET (R283). -/
def calFirstRead (s : State) : State :=
  match s.calmap.load with
  | none => s
  | some st =>
    if st.dram || s.calmap.waitDram || s.calmap.asked || !s.obs.identified then s
    else
      let s := setCal s fun c => { c with asked := true }
      drvAsk s (flashRead s 0 64)

/-- A load begins to read; without DRAM in service it waits (R551, chapter 02). -/
def calBegin (s : State) (st : MapStart) : State :=
  calStatus (calFirstRead (setCal s fun c =>
    { c with load := some st, read := [], readDone := false, readFailed := false, asked := false, waitDram := !dramUp s }))

/-- A start: the load starts, or waits and discards an older waiting start (R58). -/
def calAsk (s : State) (st : MapStart) : State :=
  if s.calmap.load.isSome then calStatus (setCal s fun c => { c with waiting := some st })
  else calBegin s st

/-- START of OBS_CALMAP_CTRL: the source and address are latched in its clock (R551). -/
def calStart (s : State) : State :=
  calAsk s ⟨getB s obsCalmapCtrl 1, addr40 s obsCalmapAddrLo obsCalmapAddrHi⟩

/-- The load that the boot sequence starts itself: from the panel (R304, R444, R551). -/
def calBoot (s : State) : State :=
  calAsk s ⟨false, addr40 s obsCalmapAddrLo obsCalmapAddrHi⟩

/-- A load from DRAM reads the header, then as many bytes as its TOTAL_BYTES says, at most a buffer's size (R52, R551). A read that ends in an ERROR_RESPONSE fails the load, and one that ends POISONED is counted (R268). -/
def calDramRead (s : State) (a : Nat) : State :=
  let total := if readStatus s 14 a 64 = 0 then max 64 (min (readLe s (a + 8) 4) 0x140000) else 64
  let bad := readStatus s 14 a total != 0
  let bs := if bad then [] else readBytes s a total
  setCal (poisonSeen s 14 a total) fun c => { c with read := bs, readFailed := c.readFailed || bad }

/-- The bytes read are written into a map buffer that holds neither the map in use nor a staged one (R551). -/
def calStore (s : State) : State :=
  let b := freeBuffer s.calmap
  dramPut (setCal s fun c => { c with buf := b }) (mapBuffer s b) (s.calmap.read.take 0x140000)


/-- Frame a comes at or after frame b, as the signed difference of frame numbers (R155). -/
def frameGe (a b : Nat) : Bool := decide (0 ≤ signedOf (a + 2 ^ 32 - b % 2 ^ 32) 32)

/-- The first frame from `f` up whose phase 0 has had no stripe launched (R57). -/
def firstUnlaunched (launched : List Nat) : Nat → Nat → Nat
  | 0, f => f
  | fuel + 1, f => if launched.contains f then firstUnlaunched launched fuel ((f + 1) % 2 ^ 32) else f

/-- The staged map takes effect from frame `f` on: the buffer of the map it replaces becomes free, and IN_USE, NODES_SUBST and FRAME change (R55, R57, R551). -/
def calTake (s : State) (f : Nat) : State :=
  match s.calmap.staged with
  | none => s
  | some m =>
    let s := setCal s fun c => { c with before := c.inUse, inUse := some m, staged := none }
    let s := setF s obsCalmapStatus 26 2 (kindCode m.kind)
    let s := setReg s obsCalmapNodesSubst (BitVec.ofNat 32 m.subst)
    setReg s obsCalmapFrame (BitVec.ofNat 32 f)

/-- The frame that R57 names for the staged map. -/
def calFrame (s : State) : Nat :=
  firstUnlaunched s.calmap.launched (s.calmap.launched.length + 1) s.calmap.stagedFrom

/-- The map becomes the staged map; the search for its frame starts at the frame being scanned, or at frame 0 of the next start of the timing. Where a stripe of that frame or a later one has been launched already, in another phase than 0, the map takes effect at once (R56, R57). -/
def calStage (s : State) (m : MapRec) : State :=
  let s := setCal s fun c => { c with staged := some m, stagedFrom := if s.scan.running then s.scan.frame else 0 }
  let f := calFrame s
  if s.gal.toList.any fun g => g.launches.any fun l => frameGe l.record.frame.toNat f then calTake s f else s

/-- The load ends: result and failed check reported, its event raised; the newest waiting start begins (R55, R56, R58, R59). -/
def calEnd (s : State) (result check cause arg : Nat) : State :=
  let s := setF (setF s obsCalmapStatus 24 2 result) obsCalmapStatus 0 4 check
  let s := raise s 2 14 cause 0xFF 0xFF arg
  let next := s.calmap.waiting
  let s := setCal s fun c => { c with load := none, waiting := none, read := [], readDone := false, readFailed := false, asked := false }
  match next with
  | some st => calBegin s st
  | none => calStatus s

/-- The checks of R52 on the bytes read, which stand in the load's buffer (R551), and the outcome by R56. -/
def calCheck (s : State) : State :=
  let bs := s.calmap.read
  let total := mapU bs 8 4
  let rej := mapRejects s bs s.calmap.readFailed (sliceBytes s.obs.ident 0 16)
  let buf := s.calmap.buf
  if rej ≠ 0 then calEnd s 3 rej 0x0C2 rej
  else
    let drop := mapDrops bs
    if drop ≠ 0 then
      let s :=
        if newestKind s.calmap = .full then s
        else calStage s ⟨buf, .parametric, 0, bs.take 128, []⟩
      calEnd s 2 drop 0x0C1 drop
    else
      let sub := mapSubst bs
      let s := calStage s ⟨buf, .full, sub.length, bs.take 128, sub⟩
      let s := if sub.isEmpty then s else raise s 2 14 0x0C3 0xFF 0xFF sub.length
      calEnd s 1 0 0x0C0 total

/-- The last byte has been read: the checks run, or wait for the panel's serial (R54). -/
def calReadDone (s : State) : State :=
  if s.calmap.load.isNone || s.calmap.waitDram then s
  else
    let s := match s.calmap.load with
      | some st => if st.dram && !s.calmap.readDone then calDramRead s st.addr else s
      | none => s
    let s := if s.calmap.readDone then s else calStore (setCal s fun c => { c with readDone := true })
    if s.obs.identified || s.calmap.readFailed then calCheck s else s

/-- The panel does not answer the FLASH_READ of the map within 1 ms: check 1 rejects (R52). -/
def calReadTimeout (s : State) : State :=
  match s.calmap.load with
  | some st =>
    if st.dram || s.calmap.readDone || s.calmap.waitDram then s
    else calCheck (setCal s fun c => { c with readDone := true, readFailed := true })
  | none => s

/-- The panel has reported its serial and MAP_OFFSET: a load that waits for the serial is checked, one from the panel sends its first FLASH_READ (R54, R283). -/
def calSerial (s : State) : State :=
  if s.calmap.load.isSome && s.calmap.readDone then calCheck s else calFirstRead s

/-- DRAM is in service: a load that waited for it reads (chapter 02). -/
def calDramUp (s : State) : State := calFirstRead (setCal s fun c => { c with waitDram := false })

/-- A stripe of frame `frame`, phase `phase`, is launched: the staged map takes effect if this frame is the one R57 names or a later one, whichever the phase; the frame counts as launched when its phase is 0. -/
def calLaunched (s : State) (frame phase : Nat) : State :=
  let f := calFrame s
  let s := if s.calmap.staged.isSome && frameGe frame f then calTake s f else s
  if phase = 0 ∧ !s.calmap.launched.contains frame then
    setCal s fun c => { c with launched := c.launched ++ [frame] }
  else s

/-- The timing starts: the search for a staged map's frame is at frame 0 (R57). -/
def calTimingStart (s : State) : State :=
  let s := setCal s fun c => { c with stagedFrom := 0 }
  if s.calmap.staged.isSome && !s.calmap.launched.contains 0 then calTake s 0 else s

/-- A frame starts: once it is the frame in OBS_CALMAP_FRAME or a later one, no stripe of an earlier frame is rendered any more, and the map before it is given up (R57). -/
def calFrameStart (s : State) : State :=
  if frameGe s.scan.frame (readReg s obsCalmapFrame).toNat then setCal s fun c => { c with before := c.inUse } else s

/-! The ray generator (R41, R43 to R46, R60). -/

/-- The map that frame `f` renders with (R57). -/
def mapOf (s : State) (f : Nat) : Option MapRec :=
  match s.calmap.inUse with
  | none => none
  | some m => if frameGe f (readReg s obsCalmapFrame).toNat then some m else s.calmap.before

/-- A component of a node as the ray generator uses it: substituted, or zero where its word or its tile's SHIFTS word is lost for the stripe (R44, R53, R60). -/
def nodeValue (s : State) (m : MapRec) (cols : Nat) (lost : List (Nat × Nat)) (i j n : Nat) : Nat :=
  let t := nodeTile cols i j
  if lost.contains (t, 0) || lost.contains (t, nodeOffset i j) then dInt 0
  else
    match m.repl.find? fun e => e.1 == (i, j, n) with
    | some e => e.2.toNat
    | none =>
      let b := mapBuffer s m.buf + tileBase t
      let q := signedOf (readByte s (b + nodeOffset i j + n)).toNat 8
      let sh := readLe s b 4 / 16 ^ n % 16
      dInt (q * (2 ^ sh : Nat))

/-- floor of an fp64 that is a small positive number. -/
def dFloor (x : Nat) : Nat := (fToInt fp64 x 0 (2 ^ 40)).toNat

/-- Grid place of a subpixel: node column and row, and the weights a and b (R44). -/
def gridPlace (x y pos : Nat) : Nat × Nat × Nat × Nat :=
  let xs := dAdd (dInt x) (dDiv (dAdd (dInt pos) dHalf) (dInt 3))
  let ys := dAdd (dInt y) dHalf
  let xq := dDiv xs (dInt 64)
  let yq := dDiv ys (dInt 16)
  let i := dFloor xq
  let j := dFloor yq
  (i, j, dSub xq (dInt i), dSub yq (dInt j))

/-- residual(x, y, pos) of R44: the eight components. -/
def residual (s : State) (m : MapRec) (cols : Nat) (lost : List (Nat × Nat)) (x y pos : Nat) : List Nat :=
  let (i, j, a, b) := gridPlace x y pos
  (List.range 8).map fun n =>
    let nd i j := nodeValue s m cols lost i j n
    let t := dAdd (nd i j) (dMul a (dSub (nd (i + 1) j) (nd i j)))
    let w := dAdd (nd i (j + 1)) (dMul a (dSub (nd (i + 1) (j + 1)) (nd i (j + 1))))
    dAdd t (dMul b (dSub w t))

/-- The words of residual tiles that a subpixel's four nodes need: (tile, offset of the word in the tile, node column, node row) (R44, R60). -/
def residualWords (cols x y pos : Nat) : List (Nat × Nat × Nat × Nat) :=
  let (i, j, _, _) := gridPlace x y pos
  [(i, j), (i + 1, j), (i, j + 1), (i + 1, j + 1)].flatMap fun p =>
    let t := nodeTile cols p.1 p.2
    let tc := t % cols
    let tr := t / cols
    [(t, 0, 8 * tc, 8 * tr), (t, nodeOffset p.1 p.2, p.1, p.2)]

/-- The ray of subpixel (x, y, c) in phase ph: x0, y0, u, v in fp64 (R43, R46). -/
def rayOf (s : State) (mp : Option MapRec) (lost : List (Nat × Nat)) (x y c ph : Nat) : List Nat :=
  match mp with
  | none =>
    let w := panelW s
    let h := panelH s
    let px := dInt (panelPx s)
    let hw := dDiv (dMul (dInt w) px) (dInt 2)
    let sub : Nat := (3 * x + c) * 2 ^ 24 + 2 ^ 23
    let x0 := dSub (dDiv (dDiv (dMul (dDiv (dInt sub) (dPow2 24)) px) (dInt 3)) hw) (dInt 1)
    let y0 := dDiv (dMul (dSub (dSub (dDiv (dInt h) (dInt 2)) (dInt y)) dHalf) (dInt (panelPy s))) hw
    [x0, y0, dInt 0, dInt 0]
  | some m =>
    let bs := m.head
    let w := mapU bs 0x0C 2
    let h := mapU bs 0x0E 2
    let lp := lensPitch bs
    let pos := if mapU bs 0x11 1 = 1 then 2 - c else c
    let sub : Int := ((3 * x + pos) * 2 ^ 24 + 2 ^ 23 : Nat)
    let e : Int := mapS bs 0x48 + y * mapS bs 0x44
    let rem : Int := (sub - e) % (lp : Int)
    let f := dDiv (dInt rem) (dInt lp)
    let so := dAdd (dDiv (dInt sub) (dPow2 24)) (dDiv (dMul (dSub dHalf f) (dInt lp)) (dPow2 24))
    let px := dInt (mapU bs 0x14 4)
    let hw := dDiv (dMul (dInt w) px) (dInt 2)
    let x0 := dSub (dDiv (dDiv (dMul so px) (dInt 3)) hw) (dInt 1)
    let y0 := dDiv (dMul (dSub (dSub (dDiv (dInt h) (dInt 2)) (dInt y)) dHalf) (dInt (mapU bs 0x18 4))) hw
    let u := dAdd (dDiv (dMul (dSub (dInt 1) (dMul (dInt 2) f)) (dInt (mapU bs 0x4C 4))) (dPow2 30)) (dDiv (dInt (mapS bs (0x58 + 4 * ph))) (dPow2 30))
    let v := dAdd (dDiv (dInt (mapS bs 0x50)) (dPow2 30)) (dDiv (dInt (mapS bs (0x68 + 4 * ph))) (dPow2 30))
    if m.kind = .full then
      let r := residual s m (mapU bs 0x24 2) lost x y pos
      let g n := r.getD n 0
      [dAdd x0 (dDiv (dMul (g 0) (dInt 100)) hw), dAdd y0 (dDiv (dMul (g 1) (dInt 100)) hw),
       dAdd u (dDiv (dAdd (g 2) (g (4 + ph))) (dPow2 20)), dAdd v (dDiv (g 3) (dPow2 20))]
    else [x0, y0, u, v]

/-- The direction index of a subpixel: 47 − k (R41, R43). -/
def directionIndex (bs : List Byte) (x y c : Nat) : Nat :=
  let pos := if mapU bs 0x11 1 = 1 then 2 - c else c
  let sub : Int := ((3 * x + pos) * 2 ^ 24 + 2 ^ 23 : Nat)
  let e : Int := mapS bs 0x48 + y * mapS bs 0x44
  let m := ((sub - e) % (lensPitch bs : Int)).toNat
  47 - m * 48 / lensPitch bs

/-- k0 to k7 of a lane: the ray in fp32, then c, ph, x, y (R45). -/
def lanesK (s : State) (mp : Option MapRec) (lost : List (Nat × Nat)) (x y c ph : Nat) : List Word :=
  ((rayOf s mp lost x y c ph).map fun d => BitVec.ofNat 32 (fConv fp64 { fp32 with flush := false } d)) ++
  [BitVec.ofNat 32 c, BitVec.ofNat 32 ph, BitVec.ofNat 32 x, BitVec.ofNat 32 y]

end Sys2Proof.Machine
end

