-- ==== Sys2Proof/Machine/Blitter.lean ====
section
/-! DEFINITION. Mica's blitter (R200 to R220). -/

namespace Sys2Proof.Machine

/-- Mica changed. -/
def setMica (s : State) (f : Mica → Mica) : State := { s with mica := f s.mica }

/-- An event of Mica (R199, R220). -/
def mcaEvent (s : State) (cause block arg : Nat) : State := raise s 1 13 cause block 0xFF arg

/-- Bytes of a pixel (R200). -/
def bltBpp (b : Blit) : Nat := 2 ^ fld b.ctrl 0 2

/-- ROP (R203, R217). -/
def bltRop (b : Blit) : Nat := fld b.ctrl 16 8

/-- The source is read (R204). -/
def bltReadsSrc (b : Blit) : Bool := bltRop b / 4 % 64 &&& 0x33 != bltRop b &&& 0x33

/-- The destination is read (R204). -/
def bltReadsDst (b : Blit) : Bool := bltRop b / 2 &&& 0x55 != bltRop b &&& 0x55

/-- Result bits of a raster operation, pixel by pixel word (R203). -/
def ropWord (rop : Nat) (p s d : Nat) : Nat → Nat
  | 0 => 0
  | n + 1 => b2n (bitAt rop (4 * b2n (bitAt p n) + 2 * b2n (bitAt s n) + b2n (bitAt d n))) * 2 ^ n + ropWord rop p s d n

/-- The latched registers (R206). -/
def bltLatch (s : State) : Blit :=
  let pos (k : Nat) : Nat × Nat := (getF s k 0 15, getF s k 16 15)
  { ctrl := readReg s mcaBltCtrl
    src := addr40 s mcaBltSrcLo mcaBltSrcHi, srcPitch := getF s mcaBltSrcPitch 0 20, srcPos := pos mcaBltSrcPos
    dst := addr40 s mcaBltDstLo mcaBltDstHi, dstPitch := getF s mcaBltDstPitch 0 20, dstPos := pos mcaBltDstPos
    size := pos mcaBltSize, fg := readReg s mcaBltFg, bg := readReg s mcaBltBg
    pat := (readReg s mcaBltPatLo).toNat + 2 ^ 32 * (readReg s mcaBltPatHi).toNat, aborting := false }

/-- First and last byte + 1 of a surface's rectangle (R201). -/
def bltRange (bpp base pitch : Nat) (pos size : Nat × Nat) : Nat × Nat :=
  (base + pos.2 * pitch + pos.1 * bpp, base + (pos.2 + size.2 - 1) * pitch + (pos.1 + size.1) * bpp)

/-- ALIGN of a surface (R201). -/
def bltAligned (bpp base pitch : Nat) (pos size : Nat × Nat) : Bool :=
  base % bpp == 0 && pitch % bpp == 0 && decide ((pos.1 + size.1) * bpp ≤ pitch)

/-- The surfaces are the same (R207). -/
def bltSame (b : Blit) : Bool := b.src == b.dst && b.srcPitch == b.dstPitch

/-- The reason for which a START is refused, in the order of R210; 0 for none. -/
def bltRefusal (s : State) (b : Blit) : Nat :=
  let bpp := bltBpp b
  let rs := bltReadsSrc b
  let dr := bltRange bpp b.dst b.dstPitch b.dstPos b.size
  let sr := bltRange bpp b.src b.srcPitch b.srcPos b.size
  if s.mica.blit.isSome then 1
  else if b.size.1 = 0 ∨ b.size.2 = 0 ∨ 16384 < b.size.1 ∨ 16384 < b.size.2 then 2
  else if !bltAligned bpp b.dst b.dstPitch b.dstPos b.size || (rs && !bltAligned bpp b.src b.srcPitch b.srcPos b.size) then 3
  else if dramTop s < dr.2 ∨ (rs && decide (dramTop s < sr.2)) then 4
  else if rs && !bltSame b && decide (sr.1 < dr.2) && decide (dr.1 < sr.2) then 5
  else 0

/-- MCA_BLT_STATUS (R219). -/
def bltStatus (s : State) (busy : Bool) (result detail line : Nat) : State :=
  setReg s mcaBltStatus (BitVec.ofNat 32 (b2n busy * 2 ^ 31 + result * 2 ^ 24 + detail % 256 * 65536 + line % 32768))

/-- BLIT_START: START sets the write's other fields first and latches every register; a blit runs or is refused (R206, R210). -/
def blitStart (s : State) (v : Word) : State :=
  let s := writeKey s mcaBltCtrl v
  let b := bltLatch s
  let why := bltRefusal s b
  if why = 0 then bltStatus (setMica s fun m => { m with blit := some b }) true 0 0 0
  else
    let s := if why = 1 then s else bltStatus s false 4 why 0
    mcaEvent s 0x051 8 why

/-- BLIT_ABORT: a running blit stops at the next request boundary; idle, nothing (R212). -/
def blitAbort (s : State) : State :=
  setMica s fun m => { m with blit := m.blit.map fun b => { b with aborting := true } }

/-- Address of pixel (i, j) of a rectangle (R201). -/
def bltAddr (bpp base pitch : Nat) (pos : Nat × Nat) (i j : Nat) : Nat := base + (pos.2 + j) * pitch + (pos.1 + i) * bpp

/-- The pattern value of destination pixel (i, j) (R205). -/
def bltPattern (b : Blit) (i j : Nat) : Nat :=
  let bit := 8 * ((j + fld b.ctrl 9 3) % 8) + (i + fld b.ctrl 6 3) % 8
  (if flag b.ctrl 5 && !bitAt b.pat bit then b.bg.toNat else b.fg.toNat) % 2 ^ (8 * bltBpp b)

/-- The bytes of line `j`'s first `n` pixels in the order of work, each pixel with its address: right to left where `back` (R203, R205, R207). -/
def bltPixels (s : State) (b : Blit) (j n : Nat) (back : Bool) : List (Nat × List Byte) :=
  let bpp := bltBpp b
  (List.range n).map fun k =>
    let i := if back then b.size.1 - 1 - k else k
    let sv := if bltReadsSrc b then readLe s (bltAddr bpp b.src b.srcPitch b.srcPos i j) bpp else 0
    let da := bltAddr bpp b.dst b.dstPitch b.dstPos i j
    let dv := if bltReadsDst b then readLe s da bpp else 0
    (da, leBytes (ropWord (bltRop b) (bltPattern b i j) sv dv (8 * bpp)) bpp)

/-- The reads of a pixel that fail: the address and the status; its source, then its destination (R204, R211). -/
def bltReadFails (s : State) (b : Blit) (i j : Nat) : Option (Nat × Nat) :=
  let bpp := bltBpp b
  let sa := bltAddr bpp b.src b.srcPitch b.srcPos i j
  let da := bltAddr bpp b.dst b.dstPitch b.dstPos i j
  let ss := if bltReadsSrc b then readStatus s 13 sa bpp else 0
  let ds := if bltReadsDst b then readStatus s 13 da bpp else 0
  if ss ≠ 0 then some (sa, ss) else if ds ≠ 0 then some (da, ds) else none

/-- Pixels of line `j`, in the order of work, before the first one of which a read fails; that read, none where all go well (R211). -/
def bltGood (s : State) (b : Blit) (j : Nat) (back : Bool) : Nat × Option (Nat × Nat) :=
  let at_ (k : Nat) : Nat := if back then b.size.1 - 1 - k else k
  match (List.range b.size.1).find? fun k => (bltReadFails s b (at_ k) j).isSome with
  | none => (b.size.1, none)
  | some k => (k, bltReadFails s b (at_ k) j)

/-- A run of bytes cut where a flit begins: whole flits, and the ends that byte enables select (R202). -/
def flitRuns : Nat → Nat → List Byte → List (Nat × List Byte)
  | 0, _, _ => []
  | fuel + 1, a, bs =>
    if bs.isEmpty then []
    else (a, bs.take (32 - a % 32)) :: flitRuns fuel (a + (32 - a % 32)) (bs.drop (32 - a % 32))

/-- Writes in order, up to the first one that ends in an error; its status (R211). -/
def putRuns (s : State) : List (Nat × List Byte) → State × Nat
  | [] => (s, 0)
  | (a, bs) :: r =>
    let (st, t) := dramStore s a bs
    if st ≠ 0 then (t, st) else putRuns t r

/-- The first `n` pixels of line `j` in the order of work, written: every source pixel is read before any is written (R202, R207). -/
def bltLine (s : State) (b : Blit) (j n : Nat) (back : Bool) : State × Nat :=
  let px := bltPixels s b j n back
  let px := if back then px.reverse else px
  let bs := px.flatMap fun e => e.2
  let runs := flitRuns (bs.length / 32 + 2) ((px.map fun e => e.1).headD 0) bs
  putRuns s (if back then runs.reverse else runs)

/-- Lines carried out in order, `left` pixels at most; the state, and the status and line of the access that failed, 0 for none (R207, R211). -/
def bltLines (b : Blit) (back : Bool) : List Nat → Nat → State → State × Nat × Nat
  | [], _, s => (s, 0, 0)
  | j :: r, left, s =>
    if left = 0 then (s, 0, 0)
    else
      let (good, bad) := bltGood s b j back
      let (s, st) := bltLine s b j (min good left) back
      if st ≠ 0 then (s, st, j)
      else match bad with
        | some (a, st) => if good < left then (poisonSeen s 13 a (bltBpp b), st, j) else bltLines b back r (left - b.size.1) s
        | none => bltLines b back r (left - b.size.1) s

/-- A blit carried out as far as `pixels` (R207, R208). -/
def bltRun (s : State) (b : Blit) (pixels : Nat) : State × Nat × Nat :=
  let same := bltReadsSrc b && bltSame b
  let up := same && decide (b.srcPos.2 < b.dstPos.2)
  let back := same && decide (b.srcPos.1 < b.dstPos.1)
  bltLines b back (if up then (List.range b.size.2).reverse else List.range b.size.2) pixels s

/-- The blit ends (R212). -/
def bltEnd (s : State) (result detail line : Nat) : State :=
  let s := setMica s fun m => { m with blit := none }
  let s := bump (bltStatus s false result detail line) mcaBltCount
  mcaEvent s 0x050 8 (result + 256 * detail + 65536 * line)

/-- BLIT_DONE: the blit ends DONE, or ERROR where an access failed; aborted, it has moved the first `done` pixels in the order of work (R211, R212). -/
def blitDone (s : State) (done : Nat) : State :=
  match s.mica.blit with
  | none => s
  | some b =>
    let (s, st, line) := bltRun s b (if b.aborting then done else b.size.1 * b.size.2)
    if st ≠ 0 then bltEnd s 3 st line
    else bltEnd s (if b.aborting then 2 else 1) 0 0

/-- BLIT_START (R210); a write without START only sets the fields, and ABORT in the same write acts after START (R213). -/
def bltCtrlWrite (s : State) (v : Word) : State :=
  let s := if flag v 31 then blitStart s v else writeKey s mcaBltCtrl v
  if flag v 30 then blitAbort s else s

/-- BLIT_START (R210). -/
def execBlitStart (q : Requester) (v : Word) (s : State) : Out :=
  .next (reqServes s q 13 fun s => bltCtrlWrite s (v ||| 0x80000000))

/-- BLIT_ABORT (R212). -/
def execBlitAbort (q : Requester) (s : State) : Out := .next (reqServes s q 13 blitAbort)

/-- BLIT_DONE (R211, R212). -/
def execBlitDone (done : Nat) (s : State) : Out := .next (whenServes s 13 fun s => blitDone s done)

end Sys2Proof.Machine
end

