-- ==== Sys2Proof/Machine/FpCode.lean ====
section
/-! DEFINITION. The encoding of the frame profile, as the load check ENCODING tests an instruction word (R142 to R146, R165). -/

namespace Sys2Proof.Machine

/-- Field [lo + width - 1 : lo] of an instruction word. -/
def fpF (w : DWord) (lo width : Nat) : Nat := bitsOf w.toNat lo width

/-- D, A, B, C of the register format (R142). -/
def fpD (w : DWord) : Nat := fpF w 50 6
/-- A. -/
def fpA (w : DWord) : Nat := fpF w 44 6
/-- B, or X of the immediate format. -/
def fpB (w : DWord) : Nat := fpF w 38 6
/-- C. -/
def fpC (w : DWord) : Nat := fpF w 26 6
/-- FUNC. -/
def fpFunc (w : DWord) : Nat := fpF w 16 8
/-- IMM, or OFFSET. -/
def fpImm (w : DWord) : Nat := fpF w 0 32

/-- The fields marked 0 of the register format (R142). -/
def frZero (w : DWord) : Bool := fpF w 32 2 == 0 && fpF w 24 2 == 0 && fpF w 0 16 == 0

/-- A field names a g register (R143). -/
def isG (x : Nat) : Bool := decide (x < 32)

/-- A field names a predicate (R143). -/
def isP (x : Nat) : Bool := decide (x < 8)

/-- A field names a predicate that may be written (R143). -/
def isPd (x : Nat) : Bool := isP x && x != 0

/-- PIDX and PNEG are 0b0000. -/
def noPred (w : DWord) : Bool := fpF w 34 4 == 0

/-- An instruction word at index `i` of a code of `n` words is an instruction of R145, with its fields as R142, R143, R145 and R146 ask. -/
def fpWordOk (w : DWord) (i n : Nat) : Bool :=
  let d := fpD w
  let a := fpA w
  let b := fpB w
  let c := fpC w
  let fn := fpFunc w
  let imm := fpImm w
  let fr := frZero w
  let g3 := fr && isG d && isG a && isG b && isG c
  let fi := fpF w 32 2 == 0 && b == 0
  let g2 := fi && isG d && isG a
  let fb := d == 0 && b == 0 && fpF w 32 2 == 0
  let target : Bool :=
    let t : Int := (i : Int) + signedOf imm 32
    decide (0 ≤ t) && decide (t < (n : Int))
  match fpF w 56 8 with
  | 0x80 => g3 | 0x81 => g3 | 0x82 => g3 | 0x83 => g3 | 0x84 => g3 | 0x85 => g3 | 0x86 => g3 | 0x87 => g3
  | 0x88 => g3 && b == 0
  | 0x90 => g2 | 0x91 => g2 | 0x92 => g2 | 0x93 => g2 | 0x94 => g2 | 0x95 => g2
  | 0x96 => g2 && a == 0
  | 0x97 => g2 && a == 0
  | 0x9A => fr && isPd d && isG a && isG b && c == 0
  | 0x9B => fpF w 32 2 == 0 && isPd d && isG a && fpF w 38 2 == 0
  | 0x9C => fr && isPd d && isP a && isP b && isG c && noPred w
  | 0x9D => fr && isPd d && isP a && isP b && isG c && noPred w
  | 0x9E => fr && isPd d && isP a && isP b && isG c && noPred w
  | 0x9F => fr && isPd d && isP a && b == 0 && isG c && noPred w
  | 0xA0 => g2 | 0xA1 => g2 | 0xA2 => g2 | 0xA3 => g2 | 0xA4 => g2 | 0xA5 => g2
  | 0xA6 => g3 && d == 0 && c == 0 && decide (1 ≤ fn) && decide (fn ≤ 32)
  | 0xB0 => fb && a == 0 && target
  | 0xB1 => fb && a == 0 && target
  | 0xB2 => fb && a == 0 && imm == 0
  | 0xB3 => fb && isG a && target
  | 0xC0 => fr && isG d && isG a && isG b && isP c && decide (fn < 4)
  | 0xC1 => g3 && d == 0 && b == 0 && c == 0
  | 0xC2 => g3 && d == 0 && b == 0 && c == 0
  | 0xC3 => g3 | 0xC4 => g3 | 0xC5 => g3 | 0xC6 => g3 | 0xC7 => g3
  | 0xC8 => g3 && decide (fn < 4)
  | 0xD0 => g2 && fpF w 22 10 == 0 && fpF w 10 10 != 0
  | 0xD1 => g3 && d == 0 && c == 0
  | 0xD2 => g2 && d == 0 && decide (imm < 4)
  | 0xD3 => g2 && d == 0 && decide (imm < 5)
  | 0xD4 => g2 && d == 0 && a == 0 && decide (imm < 2 ^ 17) && (imm &&& 0x4007) == 0
  | 0xD5 => g2 && d == 0 && decide (24 ≤ imm) && decide (imm < 32)
  | 0xD6 => fi && isPd d && isG a && decide (24 ≤ imm) && decide (imm < 32)
  | 0xD7 => g2 && d == 0 && decide (24 ≤ imm) && decide (imm < 32)
  | 0xD8 => g2 && d == 0 && a == 0
  | 0xF0 => fpF w 0 56 == 0
  | 0xF1 => fpF w 0 56 == 0
  | 0xF2 => fpF w 0 56 == 0
  | _ => false

end Sys2Proof.Machine
end

