-- ==== Sys2Proof/Machine/Time.lean ====
section
/-! DEFINITION. Network time: the PTP port, the servo, steps of the time, triggers, captures, PPS (R360 to R379). -/

namespace Sys2Proof.Machine

/-- The time port changed. -/
def setTport (s : State) (f : TimePort → TimePort) : State := { s with tport := f s.tport }

/-- The PTP port changed. -/
def setPtp (s : State) (f : PtpPort → PtpPort) : State := setTport s fun t => { t with ptp := f t.ptp }

/-- The servo changed. -/
def setServo (s : State) (f : Servo → Servo) : State := setTport s fun t => { t with servo := f t.servo }

/-- A trigger changed. -/
def setTrg (s : State) (n : Fin 4) (f : Trigger → Trigger) : State := setTport s fun t => { t with trg := vUpd t.trg n f }

/-- A time event (R379). -/
def timeEvent (s : State) (level cause cell arg : Nat) : State := raise s level 15 cause 6 cell arg

/-- The time in 2^-16 ns (R360). -/
def timeFine (t : TimeCtr) : Int := (timeNs t * 65536 + t.frac : Nat)

/-- The counter at a time in 2^-16 ns (R360). -/
def timeOf (x : Int) : TimeCtr :=
  let n := x.toNat
  ⟨n / 65536 / 1000000000 % 2 ^ 64, n / 65536 % 1000000000, n % 65536⟩

/-- SOURCE (R378). -/
def ptpSource (s : State) : Nat := getF s grnPtpCtrl 0 2

/-! A step of the time (R371, R372, R375). -/

/-- Frame period in ns, as a numerator over a denominator (R274). -/
def framePeriod (s : State) : Nat × Nat := (1000000000 * (timingRate s).2, (timingRate s).1)

/-- The remainder of a step modulo the frame period, in ps, above −half and at most +half of it (R372). -/
def stepLag (s : State) (stepFine : Int) : Int :=
  let (n, d) := framePeriod s
  let p : Int := (n * 1000 / d : Nat)
  let ps := stepFine * 1000 / 65536
  let r := ps % p
  if p < 2 * r then r - p else r

/-- T_SLOT in ps: T_LINE_PS, or the paired slot time (R277, R298). -/
def slotPs (s : State) : Nat :=
  if s.scan.paired then timingLinePs s * 2 * panelN s / scanPhases s else timingLinePs s

/-- OBS_PANEL_STATUS.LAG: Λ in whole slots, 0 for a lead (R309). -/
def showLag (s : State) : State :=
  let slot := max 1 (slotPs s)
  setF s obsPanelStatus 12 13 (min 8191 ((max 0 s.scan.lag).toNat / slot))

/-- A WAITT to a time that has come ends (R154). -/
def settleTime (s : State) (f : FlintId) : State :=
  match (flintOf s f).wait with
  | some (.time target) =>
    if target ≤ timeNs s.time then mirrorSend (setFlint s f fpNext) f (.waitEnd 0 false) else s
  | _ => s

/-- Edges of a trigger that a forward step has passed fire at once; a PERIODIC output goes on in the new time (R375). -/
def stepTrigger (s : State) (old new : Nat) (n : Fin 4) : State :=
  let x := s.tport.trg[n]
  match x.cfg with
  | none => s
  | some c =>
    let pulse := max (new + c.width) (x.pulse.getD 0)
    if c.mode = 1 then
      if x.edges.any fun e => decide (e ≤ new) then
        timeEvent (setTrg s n fun x => { x with edges := [], pulse := some pulse }) 1 0x0D4 (1 + n.val) 0
      else if new < c.start ∧ c.start ≤ old then setTrg s n fun x => { x with edges := [c.start] }
      else s
    else if c.mode = 2 then
      let next := if new < c.start then 0 else (new - c.start) / max 1 c.period + 1
      if old < new ∧ x.k < next then
        timeEvent (setTrg s n fun x => { x with k := next, pulse := some pulse }) 1 0x0D4 (1 + n.val) ((next - x.k - 1) % 65536)
      else if new < old then setTrg s n fun x => { x with k := next }
      else s
    else s

/-- What counts from happenings and not from the timescale keeps its distance when the time steps by `d` ns: pulses in progress, edges that wait for their OFFSET, embedded frames without PRESENT times, and the stamps of clocks (R353, R354, R373, R376). -/
def stepPending (s : State) (d : Int) : State :=
  let by_ (t : Nat) : Nat := (t + d).toNat
  let byFine (t : Nat) : Nat := (t + 65536 * d).toNat
  let s := setTport s fun t => { t with
    ppsHigh := t.ppsHigh.map by_
    trg := t.trg.map fun x => { x with
      pulse := x.pulse.map by_
      edges := if (x.cfg.map fun c => c.mode) = some 1 then x.edges else x.edges.map by_ } }
  setAudio s fun a => { a with
    embed := a.embed.map fun l => l.map fun f => if f.present then f else { f with due := by_ f.due }
    meters := a.meters.map fun m => { m with seen := m.seen.map byFine, since := m.since.map byFine, first := m.first.map byFine } }

/-- The time steps to a value: TIME_STEPPED, waits, triggers, and the scan's lag (R154, R371, R372, R375). -/
def timeStep (s : State) (t : TimeCtr) : State :=
  let old := s.time
  let d := timeFine t - timeFine old
  let s := stepPending { s with time := t } ((timeNs t : Int) - timeNs old)
  let s := timeEvent s 2 0x0D0 0 (wrapInt (satInt (d / 65536000) 32) 32)
  let s := settleTime (settleTime s .a) .b
  let s := if serves s 15 then (List.finRange 4).foldl (fun s n => stepTrigger s (timeNs old) (timeNs t) n) s else s
  if s.scan.running then showLag { s with scan := { s.scan with lag := s.scan.lag + stepLag s d } } else s

/-! The servo (R368 to R370). -/

/-- State of the servo: 0 FREERUN, 1 ACQUIRING, 2 LOCKED, 3 HOLDOVER (R378). -/
def servoState (s : State) : Nat := getF s grnServoStatus 30 2

/-- The servo's state set, with SERVO_STATE where it changes (R379). -/
def setServoState (s : State) (v : Nat) : State :=
  let old := servoState s
  if old = v then s
  else
    let s := setF s grnServoStatus 30 2 v
    timeEvent (setServo s fun x => { x with good := 0, bad := 0 }) 1 0x0D1 0 (v + 4 * old + 16 * getF s grnServoStatus 26 4)

/-- PORT_STATE set (R378). -/
def setPortStatePtp (s : State) (v : Nat) : State := setF s grnServoStatus 26 4 v

/-- r set, and shown in 0.001 ppb (R370, R378). -/
def setRate (s : State) (r : Int) : State :=
  setReg (setServo s fun x => { x with r := r }) grnServoRate (BitVec.ofNat 32 (wrapInt (satInt (r / 1000) 32) 32))

/-- RATE_LIMIT in 10^-6 ppb (R370, R378). -/
def rateLimit (s : State) : Int := ([10, 50, 100, 200].getD (getF s grnServoCtrl 8 2) 50 : Nat) * 1000000000

/-- Kp in 10^-6 per s, and Ki in 10^-7 per s² (R370). -/
def servoGains (s : State) : Nat × Nat :=
  [(87965, 39478), (263894, 355310), (879646, 3947840), (2638938, 35530580)].getD (getF s grnServoCtrl 10 2) (879646, 3947840)

/-- A value limited to r0 ± LIMIT (R370). -/
def rateClamp (s : State) (x : Int) : Int :=
  let r0 := s.tport.servo.r0
  min (r0 + rateLimit s) (max (r0 - rateLimit s) x)

/-- An acquisition begins: 16 samples to estimate (R369). -/
def acquire (s : State) : State :=
  setF (setServo s fun x => { x with est := [], estimating := true, large := 0 }) grnServoStatus 25 1 0

/-- The slope, in 10^-6 ppb, of offsets in 2^-16 ns against times in ns: the least-squares line (R369). -/
def fitSlope (pts : List (Nat × Int)) : Int :=
  let n : Int := pts.length
  let t0 := (pts.getLast?.map fun p => p.1).getD 0
  let sx := pts.foldl (fun a p => a + ((p.1 : Int) - t0)) 0
  let sy := pts.foldl (fun a p => a + p.2) 0
  let sxx := pts.foldl (fun a p => a + ((p.1 : Int) - t0) * ((p.1 : Int) - t0)) 0
  let sxy := pts.foldl (fun a p => a + ((p.1 : Int) - t0) * p.2) 0
  let den := n * sxx - sx * sx
  if den = 0 then 0 else (n * sxy - sx * sy) * 1000000000000000 / (65536 * den)

/-- |o| exceeds STEP_US; with STEP_US 0 always (R369, R378). -/
def overStep (s : State) (o : Int) : Bool :=
  let us := getF s grnServoCtrl 24 8
  us == 0 || decide (us * 65536000 < o.natAbs)

/-- Locking and losing lock (R368). -/
def servoLock (s : State) (o : Int) : State :=
  let lim := getF s grnServoCtrl 16 8 * 10 * 65536
  let s := setServo s fun x => { x with
    good := if o.natAbs ≤ lim then x.good + 1 else 0
    bad := if 4 * lim < o.natAbs then x.bad + 1 else 0 }
  if servoState s = 1 ∧ 16 ≤ s.tport.servo.good then setServoState s 2
  else if servoState s = 2 ∧ 16 ≤ s.tport.servo.bad then setServoState s 1
  else s

/-- A valid sample of the offset, in 2^-16 ns (R368 to R370). -/
def servoSample (s : State) (o : Int) : State :=
  let s := setReg s grnServoOffset (BitVec.ofNat 32 (wrapInt (satInt (o / 65536) 32) 32))
  let s := if servoState s = 0 ∨ servoState s = 3 then setServoState s 1 else s
  let x := s.tport.servo
  let ts := s.now - x.last
  let s := setServo s fun x => { x with last := s.now }
  let s :=
    if x.estimating then
      let est := (s.now, o) :: x.est
      if est.length < 16 then setServo s fun x => { x with est := est }
      else
        let r0 := fitSlope est
        let s := setServo s fun x => { x with est := [], estimating := false, r0 := r0, i := r0 }
        let s := setF (setRate s r0) grnServoStatus 25 1 1
        if overStep s o then timeStep s (timeOf (timeFine s.time - o)) else s
    else
      let (kp, ki) := servoGains s
      let tsNs : Int := if ptpSource s = 2 then 1000000000 else ts
      let i := rateClamp s (x.i + ki * o * tsNs / (65536 * 10 * 1000000000))
      let r := rateClamp s (i + kp * o / 65536)
      let s := setRate (setServo s fun x => { x with i := i }) r
      let big := overStep s o && getF s grnServoCtrl 24 8 != 0
      let s := setServo s fun x => { x with large := if big then x.large + 1 else 0 }
      if s.tport.servo.large = 64 then timeEvent s 1 0x0D3 0 (wrapInt (satInt (o / 65536000) 32) 32) else s
  servoLock s o

/-- The source is lost: HOLDOVER, r keeping its integral value (R368). -/
def servoHold (s : State) : State :=
  if servoState s = 1 ∨ servoState s = 2 then setServoState (setRate s s.tport.servo.i) 3 else s

/-! The PTP port (R363 to R367). -/

/-- The address of the port is set (R365). -/
def macSet (s : State) : Bool := getF s grnMacHi 0 16 != 0 || readReg s grnMacLo != 0

/-- The clock identity formed from the MAC address. PRESUMED: IEEE 1588 forms it as an EUI-64 with FF FE between the halves. -/
def clockId (s : State) : DWord :=
  let m := getF s grnMacHi 0 16 * 2 ^ 32 + (readReg s grnMacLo).toNat
  BitVec.ofNat 64 (m / 2 ^ 24 * 2 ^ 40 + 0xFFFE * 2 ^ 24 + m % 2 ^ 24)

/-- The port takes part: Garnet in service, SOURCE PTP, the link up, an address (R365, R378). -/
def ptpUp (s : State) : Bool := serves s 15 && ptpSource s == 1 && getB s grnTimeLinkStatus 0 && macSet s

/-- PORT_STATE (R378): 4 LISTENING, 5 PRE_MASTER, 6 MASTER, 7 PASSIVE, 8 UNCALIBRATED, 9 SLAVE. -/
def portStatePtp (s : State) : Nat := getF s grnServoStatus 26 4

/-- What this clock advertises as a possible master (R363). -/
def ownAnnounce (s : State) : PtpMsg :=
  { kind := .announce, domain := BitVec.ofNat 8 (getF s grnPtpCtrl 24 8), seq := 0, twoStep := false, correction := 0
    tsSec := 0, tsNs := 0, sender := clockId s, requester := 0, gmId := clockId s
    prio1 := BitVec.ofNat 8 (getF s grnPtpCtrl 16 8), clockClass := 248, accuracy := 0xFE, variance := 0xFFFF
    prio2 := BitVec.ofNat 8 (getF s grnPtpCtrl 8 8), steps := 0, utcOffset := 0, utcValid := false }

/-- The first of two data sets is better: the default algorithm's comparison (R363). -/
def betterSet (a b : PtpMsg) : Bool :=
  let key (m : PtpMsg) : List Nat := if a.gmId = b.gmId then [m.steps.toNat, m.sender.toNat]
    else [m.prio1.toNat, m.clockClass.toNat, m.accuracy.toNat, m.variance.toNat, m.prio2.toNat, m.gmId.toNat]
  decide (key a < key b)

/-- An interval of 2^log s, in ns. -/
def logNs (log : Int) : Nat := if 0 ≤ log then 1000000000 * 2 ^ log.toNat else 1000000000 / 2 ^ (-log).toNat

/-- A foreign master is qualified: two Announces within four announce intervals (R363). -/
def qualified (s : State) (f : Foreign) : Bool :=
  match f.times with
  | _ :: t :: _ => decide (s.now ≤ t + 4 * logNs (signedOf (getF s grnPtpIntervals 8 8) 8))
  | _ => false

/-- The grandmaster that is followed changes: its identity and offset are shown, GM_CHANGED, and an acquisition where allowed (R360, R369, R379). -/
def followMaster (s : State) (m : PtpMsg) : State :=
  let old := s.tport.ptp.best.map fun b => b.gmId
  let s := setPtp s fun p => { p with best := some m }
  let s := setReg s grnUtc (BitVec.ofNat 32 (b2n m.utcValid * 2 ^ 31 + m.utcOffset.toNat))
  if old = some m.gmId then s
  else
    let s := setReg (setReg s grnGmIdHi (BitVec.ofNat 32 (m.gmId.toNat / 2 ^ 32))) grnGmIdLo (BitVec.ofNat 32 m.gmId.toNat)
    let s := timeEvent s 2 0x0D2 0 (m.gmId.toNat % 2 ^ 32)
    if old.isSome && getB s grnPtpCtrl 6 then acquire s else s

/-- The best master clock algorithm's decision (R363): slave of the best foreign master, master, or listening. -/
def bmca (s : State) : State :=
  let ms := (s.tport.ptp.foreign.filter (qualified s)).map fun f => f.msg
  let best := ms.foldl (fun (b : Option PtpMsg) m => match b with
    | none => some m
    | some x => if betterSet m x then some m else b) none
  match best with
  | none => s
  | some m =>
    if !getB s grnPtpCtrl 4 && betterSet (ownAnnounce s) m then
      setServoState (setPortStatePtp (setPtp s fun p => { p with best := none }) 6) 0
    else
      let s := followMaster s m
      setPortStatePtp s (if servoState s = 2 then 9 else 8)

/-- The median of a list of values, the mean of the middle two where their number is even (R367). -/
def median (l : List Int) : Int :=
  let ins := fun (acc : List Int) x => acc.filter (· ≤ x) ++ x :: acc.filter (x < ·)
  let m := l.foldl ins []
  let n := m.length
  if n = 0 then 0 else if n % 2 = 1 then m.getD (n / 2) 0 else (m.getD (n / 2 - 1) 0 + m.getD (n / 2) 0) / 2

/-- A new mpd: discarded where it exceeds the median of the last 16 by more than 1 microsecond (R367). -/
def newMpd (s : State) (m : Int) : State :=
  let l := s.tport.ptp.mpds
  let ok := l.isEmpty || decide (m ≤ median l + 65536000)
  let s := setPtp s fun p => { p with mpds := (m :: p.mpds).take 16 }
  if ok then
    setReg (setPtp s fun p => { p with mpd := some m }) grnPathDelay (BitVec.ofNat 32 (wrapInt (m / 4096) 32))
  else s

/-- GRN_DELAY_ASYM in 2^-16 ns (R367, R378). -/
def delayAsym (s : State) : Int := (readReg s grnDelayAsym).toInt * 4096

/-- A Sync is complete: the offset where a mean path delay is known (R367). -/
def syncSample (s : State) (t1 t2 c : Int) : State :=
  let s := setPtp s fun p => { p with down := some (t2 - t1 - c), sync := none }
  match s.tport.ptp.mpd with
  | none => s
  | some m => bmca (servoSample s (t2 - t1 - c - m - delayAsym s))

/-- A PTP timestamp in 2^-16 ns; seconds bits [63:48] are 0 (R360). -/
def stampOf (m : PtpMsg) : Int := (m.tsSec.toNat * 1000000000 + m.tsNs.toNat) * 65536

/-- A message from the master that is followed. -/
def fromMaster (s : State) (m : PtpMsg) : Bool := (s.tport.ptp.best.map fun b => b.sender) == some m.sender

/-- PTP_MESSAGE: a message arrives, is stamped, and feeds the port (R363 to R368). -/
def ptpMessage (s : State) (m : PtpMsg) : State :=
  if !ptpUp s || m.domain.toNat != getF s grnPtpCtrl 24 8 || m.sender == clockId s then s
  else
    let rx := timeFine s.time - (getF s grnTsLatency 16 16 * 65536 / 1000 : Nat)
    let p := s.tport.ptp
    let e2e := !getB s grnPtpCtrl 3
    match m.kind with
    | .announce =>
      let old := p.foreign.find? fun f => f.msg.sender == m.sender
      let f : Foreign := ⟨m, (s.now :: (old.map fun f => f.times).getD []).take 2⟩
      bmca (setPtp s fun p => { p with
        foreign := p.foreign.filter (fun f => f.msg.sender != m.sender) ++ [f]
        annAt := if p.best.isNone || fromMaster s m then some s.now else p.annAt })
    | .sync =>
      if !fromMaster s m then s
      else
      let s := setPtp s fun p => { p with syncAt := some s.now }
      if m.twoStep then setPtp s fun p => { p with sync := some (m.seq.toNat, rx, m.correction) }
      else syncSample s (stampOf m) rx m.correction
    | .followUp =>
      match p.sync with
      | some (q, t2, c) => if fromMaster s m && q == m.seq.toNat then syncSample s (stampOf m) t2 (c + m.correction) else s
      | none => s
    | .delayReq =>
      if e2e && portStatePtp s == 6 then setPtp s fun p => { p with owed := p.owed ++ [(m.sender, m.seq.toNat, rx, m.correction)] } else s
    | .delayResp =>
      match p.dreq, p.down with
      | some (q, t3), some d =>
        if e2e && fromMaster s m && m.requester == clockId s && q == m.seq.toNat then
          newMpd (setPtp s fun p => { p with dreq := none }) ((d + (stampOf m - t3 - m.correction)) / 2)
        else s
      | _, _ => s
    | .pdelayReq => if e2e then s else setPtp s fun p => { p with pdOwed := p.pdOwed ++ [(m.sender, m.seq.toNat, rx)] }
    | .pdelayResp =>
      match p.pdreq with
      | some (q, t1) =>
        if e2e || m.requester != clockId s || q != m.seq.toNat then s
        else if m.twoStep then setPtp s fun p => { p with pdresp := some (q, stampOf m, rx, m.correction) }
        else newMpd (setPtp s fun p => { p with pdreq := none }) ((rx - t1 - m.correction) / 2)
      | none => s
    | .pdelayRespFollowUp =>
      match p.pdreq, p.pdresp with
      | some (_, t1), some (q, t2, t4, c) =>
        if e2e || m.requester != clockId s || q != m.seq.toNat then s
        else newMpd (setPtp s fun p => { p with pdreq := none, pdresp := none }) (((t4 - t1) - (stampOf m - t2) - c - m.correction) / 2)
      | _, _ => s
    | .management => s
    | .signaling => s

/-- Where a message goes: over UDP to the multicast group of its kind, event messages to port 319 and the others to 320; over Ethernet to the address of its kind (R365). -/
def ptpFrame (s : State) (m : PtpMsg) : PtpFrame :=
  let peer := m.kind == .pdelayReq || m.kind == .pdelayResp || m.kind == .pdelayRespFollowUp
  let event := m.kind == .sync || m.kind == .delayReq || m.kind == .pdelayReq || m.kind == .pdelayResp
  if getB s grnPtpCtrl 7 then ⟨m, false, if peer then 0x0180C200000E else 0x011B19000000, 0x88F7⟩
  else ⟨m, true, if peer then 0xE000006B else 0xE0000181, if event then 319 else 320⟩

/-- A message leaves, with a timestamp in 2^-16 ns in its body (R363). -/
def ptpPut (s : State) (k : PtpKind) (seq : Nat) (twoStep : Bool) (stamp correction : Int) (req : DWord) : State :=
  let own := ownAnnounce s
  let t := timeOf stamp
  setPtp s fun p => { p with out := p.out ++ [ptpFrame s { own with
    kind := k, seq := BitVec.ofNat 16 seq, twoStep := twoStep, correction := correction
    tsSec := BitVec.ofNat 48 t.sec, tsNs := BitVec.ofNat 32 t.ns, requester := req }] }

/-- The next sequence number of a kind sent: 0 Announce, 1 Sync, 2 Delay_Req, 3 Pdelay_Req. -/
def takeSeq (s : State) (k : Fin 4) : Nat × State :=
  (s.tport.ptp.seqs[k], setPtp s fun p => { p with
    seqs := vUpd p.seqs k fun n => (n + 1) % 65536, sentAt := vUpd p.sentAt k fun _ => some s.now })

/-- A logarithmic interval of GRN_PTP_INTERVALS, in ns (R364, R378). -/
def ptpInterval (s : State) (lo : Nat) : Nat := logNs (signedOf (getF s grnPtpIntervals lo 8) 8)

/-- The interval of a kind that is sent at intervals has passed since it was sent last (R363). -/
def sendDue (s : State) (k : Fin 4) : Bool :=
  match s.tport.ptp.sentAt[k] with
  | none => true
  | some t => decide (t + ptpInterval s ([8, 0, 16, 16].getD k.val 0) ≤ s.now)

/-- PTP_SEND: an interval timer, or an answer that is owed, sends a message; its stamp is taken at the transmit balls (R363, R366). -/
def ptpSend (s : State) (k : PtpSend) : State :=
  if !ptpUp s then s
  else
    let tx := timeFine s.time + (getF s grnTsLatency 0 16 * 65536 / 1000 : Nat)
    let master := portStatePtp s == 6
    let slave := portStatePtp s == 8 || portStatePtp s == 9
    let e2e := !getB s grnPtpCtrl 3
    match k with
    | .announce =>
      if !master || !sendDue s 0 then s else
        let (q, s) := takeSeq s 0
        ptpPut s .announce q false 0 0 0
    | .sync =>
      if !master || !sendDue s 1 then s else
        let (q, s) := takeSeq s 1
        setPtp (ptpPut s .sync q true 0 0 0) fun p => { p with syncSent := some (q, tx) }
    | .followUp =>
      match s.tport.ptp.syncSent with
      | none => s
      | some (q, t1) => setPtp (ptpPut s .followUp q false t1 (t1 % 65536) 0) fun p => { p with syncSent := none }
    | .delayReq =>
      if !slave || !e2e || !sendDue s 2 then s else
        let (q, s) := takeSeq s 2
        setPtp (ptpPut s .delayReq q false 0 0 0) fun p => { p with dreq := some (q, tx) }
    | .delayResp =>
      match s.tport.ptp.owed with
      | [] => s
      | (r, q, t4, c) :: rest => setPtp (ptpPut s .delayResp q false t4 (c - t4 % 65536) r) fun p => { p with owed := rest }
    | .pdelayReq =>
      if e2e || !sendDue s 3 then s else
        let (q, s) := takeSeq s 3
        setPtp (ptpPut s .pdelayReq q false 0 0 0) fun p => { p with pdreq := some (q, tx) }
    | .pdelayResp =>
      match s.tport.ptp.pdOwed with
      | [] => s
      | (r, q, t2) :: rest =>
        setPtp (ptpPut s .pdelayResp q true t2 (-(t2 % 65536)) r) fun p => { p with pdOwed := rest, pdFollow := p.pdFollow ++ [(r, q, tx)] }
    | .pdelayRespFollowUp =>
      match s.tport.ptp.pdFollow with
      | [] => s
      | (r, q, t3) :: rest => setPtp (ptpPut s .pdelayRespFollowUp q false t3 (t3 % 65536) r) fun p => { p with pdFollow := rest }

/-- No Announce has come for announceReceiptTimeout announce intervals (R364, R368). -/
def announceOver (s : State) : Bool :=
  match s.tport.ptp.annAt with
  | some t => decide (t + getF s grnPtpIntervals 24 8 * ptpInterval s 8 ≤ s.now)
  | none => false

/-- No Sync has come for 3 intervals (R368). -/
def syncOver (s : State) : Bool :=
  match s.tport.ptp.syncAt with
  | some t => decide (t + 3 * ptpInterval s 0 ≤ s.now)
  | none => false

/-- ANNOUNCE_TIMEOUT: the source is lost; without another master the port listens, or becomes master (R363, R368). -/
def announceTimeout (s : State) (k : PtpTimeout) : State :=
  if ptpSource s ≠ 1 || !serves s 15 then s
  else match k with
    | .sync => if syncOver s then servoHold (setPtp s fun p => { p with syncAt := none }) else s
    | .announce =>
      if !announceOver s then s
      else
        let s := setPtp s fun p => { p with foreign := [], best := none, sync := none, down := none, syncAt := none, annAt := some s.now }
        if getB s grnPtpCtrl 4 then setPortStatePtp (servoHold s) 4
        else setServoState (setPortStatePtp s 6) 0

/-- IGMP_REPORT: every 10 s, membership reports for both groups (R365). -/
def igmpReport (s : State) : State :=
  let due := match s.tport.ptp.igmpAt with
    | some t => decide (t + 10000000000 ≤ s.now)
    | none => true
  if due && serves s 15 && macSet s && !getB s grnPtpCtrl 7 && getB s grnTimeLinkStatus 0 then
    setPtp s fun p => { p with igmp := p.igmp ++ [0xE0000181, 0xE000006B], igmpAt := some s.now }
  else s

/-- ARP_REQUEST: one for GRN_IPV4 is answered (R365). -/
def arpRequest (s : State) (ip : Word) (mac : BitVec 48) (sip : Word) : State :=
  if serves s 15 && macSet s && !getB s grnPtpCtrl 7 && getB s grnTimeLinkStatus 0 && ip == readReg s grnIpv4 then
    setPtp s fun p => { p with arp := p.arp ++ [(mac, sip)] }
  else s

/-! Settings (R364, R369, R371, R378). -/

/-- The port starts or stops with SOURCE (R363, R368, R369). -/
def sourceChanged (s : State) (old : Nat) : State :=
  let new := ptpSource s
  if old = new then s
  else
    let s := setTport s fun t => { t with ppsAt := if new = 2 then some s.now else none, ptp := { (default : PtpPort) with
      annAt := some s.now, igmpAt := t.ptp.igmpAt, seqs := t.ptp.seqs, out := t.ptp.out, igmp := t.ptp.igmp, arp := t.ptp.arp } }
    let s := setPortStatePtp s (if new = 1 then 4 else 0)
    if new = 0 then setServoState (setServo s fun x => { x with estimating := false, est := [] }) 0
    else if old = 0 then acquire s else s
where
  /-- The PTP port at its reset values. -/
  default : PtpPort := {}

/-- Bits of GRN_PTP_CTRL whose value lies outside the range of the profile: they stay (R364). -/
def ptpRange (profile : Nat) (old v : Word) : Word :=
  let v := if profile = 0 ∧ 127 < fld v 24 8 then setFld v 24 8 (fld old 24 8) else v
  if profile = 0 then setFld v 7 1 (if flag v 7 then fld old 7 1 else 0) else v

/-- PTP_PROFILE_WRITE: a write of PROFILE loads that profile's reset values (R364). -/
def ptpProfile (s : State) (p : Nat) : State :=
  let s := setF s grnPtpCtrl 2 1 p
  let s := setF s grnPtpCtrl 24 8 (if p = 0 then 127 else 0)
  let s := if p = 0 then setF s grnPtpCtrl 7 1 0 else s
  setReg s grnPtpIntervals (if p = 0 then 0x03FDFEFD else 0x03000100)

/-- A write of GRN_PTP_CTRL: SOURCE and RESTEP act at any time, the other fields only while SOURCE is NONE (R364, R369). -/
def ptpCtrlWrite (s : State) (v : Word) : State :=
  let old := readReg s grnPtpCtrl
  let src := fld old 0 2
  let s :=
    if src ≠ 0 then s
    else
      let s := if fld v 2 1 ≠ fld old 2 1 then ptpProfile s (fld v 2 1) else s
      let cur := readReg s grnPtpCtrl
      let v := if fld v 2 1 ≠ fld old 2 1 && fld v 24 8 == fld old 24 8 then setFld v 24 8 (fld cur 24 8) else v
      let w := ptpRange (fld v 2 1) cur v
      setReg s grnPtpCtrl (setFld (setFld w 0 2 src) 5 1 0)
  let s := if fld v 0 2 ≤ 2 then sourceChanged (setF s grnPtpCtrl 0 2 (fld v 0 2)) src else s
  if flag v 5 && ptpSource s != 0 then acquire s else s

/-- A write of GRN_PTP_INTERVALS: only while SOURCE is NONE; a field outside the profile's range stays (R364). -/
def ptpIntervalsWrite (s : State) (v : Word) : State :=
  if ptpSource s ≠ 0 then s
  else
    let old := readReg s grnPtpIntervals
    let p := getF s grnPtpCtrl 2 1
    let sg (lo : Nat) : Int := signedOf (fld v lo 8) 8
    let keep (ok : Bool) (lo : Nat) (w : Word) : Word := if ok then setFld w lo 8 (fld v lo 8) else w
    let inR (x a b : Int) : Bool := decide (a ≤ x) && decide (x ≤ b)
    let w := keep (if p = 0 then inR (sg 0) (-7) (-1) else inR (sg 0) (-1) 1) 0 old
    let w := keep (if p = 0 then inR (sg 8) (-3) 1 else inR (sg 8) 0 4) 8 w
    let sync := signedOf (fld w 0 8) 8
    let w := keep (if p = 0 then inR (sg 16) sync (sync + 5) else inR (sg 16) 0 5) 16 w
    setReg s grnPtpIntervals (keep (inR (sg 24) 2 10) 24 w)

/-- TIME_SET: the time steps to GRN_TIME_SET, or takes its seconds at the next PPS_IN edge; ignored with SOURCE PTP (R371). -/
def timeSet (s : State) : State :=
  if ptpSource s = 1 then s
  else if ptpSource s = 2 then setServo s fun x => { x with setWaits := true }
  else
    let ns := getF s grnTimeSetNs 0 30
    timeStep s ⟨(readReg s grnTimeSetSecHi).toNat * 2 ^ 32 + (readReg s grnTimeSetSecLo).toNat + ns / 1000000000, ns % 1000000000, 0⟩

/-- TIME_READ: a read of GRN_TIME_SEC_LO latches the rest for its requester (R362). -/
def timeRead (s : State) (q : Requester) : State :=
  let s := setReg s (reqKey q grnTimeSecLo) (BitVec.ofNat 32 s.time.sec)
  let s := setReg s (reqKey q grnTimeSecHi) (BitVec.ofNat 32 (s.time.sec / 2 ^ 32))
  let s := setReg s (reqKey q grnTimeNs) (BitVec.ofNat 32 s.time.ns)
  setReg s (reqKey q grnTimeFrac) (BitVec.ofNat 32 s.time.frac)

/-! Captures and PPS (R366, R376, R377). -/

/-- A stamp at a ball: the time less the board's delay in ps (R366). -/
def ballStamp (s : State) (ps : Nat) : TimeCtr := timeOf (timeFine s.time - (ps * 65536 / 1000 : Nat))

/-- CAPTURE_EDGE: an edge that EDGE selects is stored, or lost with CAPTURE_OVERFLOW at most once per second (R377). -/
def captureEdge (s : State) (n : Fin 4) (rising : Bool) (gap width : Nat) : State :=
  let edge := getF s (grnCapCtrl n.val) 0 2
  let x := s.tport.cap[n]
  if !(if rising then edge == 1 || edge == 3 else edge == 2 || edge == 3) then s
  else if 10 ≤ width ∧ 40 ≤ gap ∧ x.fifo.length < 16 then
    let t := ballStamp s (getF s (grnCapCtrl n.val) 16 16)
    setTport s fun p => { p with cap := vUpd p.cap n fun x => { x with fifo := x.fifo ++ [⟨t.sec, t.ns, t.frac, rising⟩] } }
  else
    let due := match x.lostAt with | none => true | some t => decide (t + 1000000000 ≤ s.now)
    let lost := x.lost + 1
    let s := setTport s fun p => { p with cap := vUpd p.cap n fun x =>
      if due then { x with lost := 0, lostAt := some s.now } else { x with lost := lost } }
    if due then timeEvent s 1 0x0D5 (5 + n.val) (lost % 65536) else s

/-- CAPTURE_READ: the oldest entry is removed and latched for its requester (R377). -/
def captureRead (s : State) (n : Fin 4) (q : Requester) : State :=
  match (s.tport.cap[n]).fifo with
  | [] => setReg s (reqKey q (grnCapNs n.val)) 0
  | e :: r =>
    let s := setTport s fun p => { p with cap := vUpd p.cap n fun x => { x with fifo := r } }
    let s := setReg s (reqKey q (grnCapNs n.val)) (BitVec.ofNat 32 (2 ^ 31 + b2n e.rising * 2 ^ 30 + e.ns))
    let s := setReg s (reqKey q (grnCapSec n.val)) (BitVec.ofNat 32 e.sec)
    setReg s (reqKey q (grnCapFrac n.val)) (BitVec.ofNat 32 e.frac)

/-- PPS_IN_EDGE: the edge that IN_EDGE selects feeds the servo with SOURCE PPS; SET's seconds are applied at it (R370, R371, R377). -/
def ppsInEdge (s : State) (rising : Bool) : State :=
  if getB s grnPpsCtrl 1 == rising then s
  else
    let s := setTport s fun t => { t with ppsAt := some s.now }
    if ptpSource s ≠ 2 then s
    else if s.tport.servo.setWaits then
      let s := setServo s fun x => { x with setWaits := false }
      let n := (readReg s grnTimeSetSecHi).toNat * 2 ^ 32 + (readReg s grnTimeSetSecLo).toNat
      timeStep s (timeOf (timeFine ⟨n, 0, 0⟩ + (getF s (grnCapCtrl 0) 16 16 * 65536 / 1000 : Nat)))
    else
      let t := timeFine (ballStamp s (getF s (grnCapCtrl 0) 16 16))
      let sec : Int := 1000000000 * 65536
      servoSample s (t - (t + sec / 2) / sec * sec)

/-- PPS_IN_LOST: no edge for 2 s with SOURCE PPS: HOLDOVER (R368, R379). -/
def ppsInLost (s : State) : State :=
  match s.tport.ppsAt with
  | some t =>
    if ptpSource s = 2 ∧ t + 2000000000 ≤ s.now then
      timeEvent (servoHold (setTport s fun t => { t with ppsAt := none })) 1 0x0D6 0 0
    else s
  | none => s

/-- PPS_OUT (R376). -/
def ppsOutLevel (s : State) : Bool :=
  match s.tport.ppsHigh with
  | some t => decide (timeNs s.time < t)
  | none => false

/-- PPS_OUT_EDGE: at a whole second the output rises for OUT_WIDTH ms (R376). -/
def ppsOutEdge (s : State) : State :=
  if getB s grnPpsCtrl 0 && s.time.ns == 0 then
    setTport s fun t => { t with ppsHigh := some (timeNs s.time + 1000000 * getF s grnPpsCtrl 8 8) }
  else s

/-! Triggers (R373, R374). -/

/-- START of a trigger in ns: the low 32 bits of its seconds complete the present time's (R374, R378). -/
def trgStart (s : State) (n : Nat) : Nat :=
  let lo := (readReg s (grnTrgStartSec n)).toNat
  let sec := s.time.sec
  let base := sec / 2 ^ 32 * 2 ^ 32 + lo
  base * 1000000000 + getF s (grnTrgStartNs n) 0 30

/-- TRIGGER_ARM: the settings are latched; a pulse in progress completes under the old ones; what R374 forbids leaves the output OFF. -/
def triggerArm (s : State) (n : Fin 4) : State :=
  let k := grnTrgCtrl n.val
  let c : TrigCfg :=
    { mode := getF s k 0 3, start := trgStart s n.val, period := (readReg s (grnTrgPeriod n.val)).toNat
      offset := getF s (grnTrgOffset n.val) 0 24, width := 100 * getF s k 16 16, port := getF s k 10 2 }
  let now := timeNs s.time
  let off := c.mode == 0 || (c.mode == 1 && decide (c.start < now + 1000)) || (c.mode == 2 && decide (c.period < c.width + 100))
  let first := if now < c.start then 0 else (now - c.start) / max 1 c.period + 1
  setTrg s n fun x => { x with
    cfg := if off then none else some c
    k := first
    edges := if !off && c.mode == 1 then [c.start] else [] }

/-- An edge of a trigger becomes due at a time + OFFSET, where its mode is the one named (R373). -/
def triggerDue (s : State) (mode t : Nat) (port : Option Nat) : State :=
  (List.finRange 4).foldl (fun s n =>
    match (s.tport.trg[n]).cfg with
    | some c =>
      if c.mode = mode ∧ (port = none ∨ port = some c.port) then
        setTrg s n fun x => { x with edges := x.edges ++ [t + c.offset], cfg := if mode = 5 then (x.cfg.map fun c => { c with mode := 7 }) else x.cfg }
      else s
    | none => s) s

/-- TRIGGER_FIRE: a SOFT pulse at FIRE + OFFSET (R373). -/
def triggerFire (s : State) (n : Fin 4) : State :=
  match (s.tport.trg[n]).cfg with
  | some c => if c.mode = 6 then setTrg s n fun x => { x with edges := x.edges ++ [timeNs s.time + c.offset] } else s
  | none => s

/-- A write of GRN_TRGn_CTRL: its fields, then ARM, then FIRE (R373, R374, R378). -/
def trgCtrlWrite (s : State) (n : Fin 4) (v : Word) : State :=
  let s := writeKey s (grnTrgCtrl n.val) v
  let s := if flag v 8 then triggerArm s n else s
  if flag v 9 then triggerFire s n else s

/-- A pulse begins with an edge; overlapping pulses merge (R373). -/
def trgPulse (s : State) (n : Fin 4) (t width : Nat) : State :=
  setTrg s n fun x => { x with pulse := some (max (t + width) (x.pulse.getD 0)) }

/-- TRIGGER_EDGE: the edges whose time is reached drive their pulses (R373). -/
def triggerEdge (s : State) (n : Fin 4) : State :=
  let x := s.tport.trg[n]
  let now := timeNs s.time
  match x.cfg with
  | none => s
  | some c =>
    if c.mode = 2 then
      if c.start + x.k * c.period ≤ now then trgPulse (setTrg s n fun x => { x with k := x.k + 1 }) n (c.start + x.k * c.period) c.width
      else s
    else match x.edges.filter fun e => decide (e ≤ now) with
      | [] => s
      | e :: r => trgPulse (setTrg s n fun x => { x with edges := x.edges.filter fun e => decide (now < e) }) n (r.foldl max e) c.width

/-- Level of TRGn: the inactive level that POLARITY gives, or the opposite in a pulse (R373, R374, R378). -/
def trgLevel (s : State) (n : Fin 4) : Bool :=
  let rest := getB s (grnTrgCtrl n.val) 6
  match (s.tport.trg[n]).pulse with
  | some t => if timeNs s.time < t ∧ serves s 15 then !rest else rest
  | none => rest

/-- Garnet drains: captures and armed triggers are lost (R374, R377); the servo's rate goes on (R361). -/
def timeDrained (s : State) : State :=
  setTport s fun t => { t with
    trg := Vector.replicate 4 {}, cap := Vector.replicate 4 {}
    ptp := { out := t.ptp.out, igmp := t.ptp.igmp, arp := t.ptp.arp, igmpAt := t.ptp.igmpAt }
    servo := { r := t.servo.r, r0 := t.servo.r0, i := t.servo.i, estimating := t.servo.estimating, acc := t.servo.acc } }

/-- The counter holds no value while its unit is unpowered; powered again it starts at 0 with r = 0, in FREERUN (R361). -/
def clockUnitOff (s : State) : State :=
  setTport { s with time := {} } fun t => { t with servo := {}, ppsHigh := none }

/-- The retained clock unit is powered (R361). -/
def clockUnitOn (s : State) : Bool := isPowered s 1 || isPowered s 2 || isPowered s 14 || isPowered s 15

/-- The counter advances by n nominal ns at 1 + r × 10^-9 (R361). -/
def timeRun (s : State) (n : Nat) : State :=
  if !clockUnitOn s then s
  else
    let x := s.tport.servo
    let acc := x.acc + x.r * 65536 * n
    let d := acc / 1000000000000000
    setServo { s with time := timeOf (timeFine s.time + 65536 * n + d) } fun x => { x with acc := acc - d * 1000000000000000 }

/-- A frame of audio goes by; AUDIO triggers of the ports that start with it become due (R346, R373). -/
def audioThen (s : State) (f : State → State) : State :=
  (List.finRange 4).foldl (fun t op =>
    if (t.audio.ports[outPort op]).started && !(s.audio.ports[outPort op]).started then triggerDue t 5 (timeNs t.time) (some op.val) else t) (f s)

/-- What audio brings of itself: frames of the PROVIDER ports, clocks that stop, rates measured over the last second (R345, R346, R354). -/
def audioTick (s : State) : State :=
  let s := (List.finRange 4).foldl (fun s op => audioThen s fun s => audioFrame s op) s
  if serves s 15 then (List.range 10).foldl (fun s clk => clockMeasurement (clockStopped s clk) clk) s else s

/-- What the time port and the triggers bring of themselves: messages at their intervals and answers, time-outs, IGMP reports, trigger edges; what was sent before has gone (R363, R365, R368, R373). -/
def timeTick (s : State) : State :=
  if !serves s 15 then s
  else
    let s := setPtp s fun p => { p with out := [], igmp := [], arp := [] }
    let s := [PtpSend.announce, .sync, .followUp, .delayReq, .delayResp, .pdelayReq, .pdelayResp, .pdelayRespFollowUp].foldl ptpSend s
    let s := ppsInLost (igmpReport (announceTimeout (announceTimeout s .sync) .announce))
    (List.finRange 4).foldl triggerEdge s

/-- The whole second that the time has come to since `sec` raises PPS_OUT (R376). -/
def ppsTick (sec : Nat) (s : State) : State :=
  if clockUnitOn s && getB s grnPpsCtrl 0 && s.time.sec == sec + 1 then
    setTport s fun t => { t with ppsHigh := some (s.time.sec * 1000000000 + 1000000 * getF s grnPpsCtrl 8 8) }
  else s

/-! Meanings. -/

/-- PTP_MESSAGE (R367). -/
def execPtpMessage (m : PtpMsg) (s : State) : Out := .next (ptpMessage s m)

/-- PTP_SEND (R363). -/
def execPtpSend (k : PtpSend) (s : State) : Out := .next (ptpSend s k)

/-- ANNOUNCE_TIMEOUT (R368). -/
def execAnnounceTimeout (k : PtpTimeout) (s : State) : Out := .next (announceTimeout s k)

/-- IGMP_REPORT (R365). -/
def execIgmpReport (s : State) : Out := .next (igmpReport s)

/-- ARP_REQUEST (R365). -/
def execArpRequest (ip : Word) (senderMac : BitVec 48) (senderIp : Word) (s : State) : Out := .next (arpRequest s ip senderMac senderIp)

/-- PPS_IN_EDGE (R377). -/
def execPpsInEdge (rising : Bool) (s : State) : Out := .next (whenServes s 15 fun s => ppsInEdge s rising)

/-- PPS_IN_LOST (R368). -/
def execPpsInLost (s : State) : Out := .next (whenServes s 15 ppsInLost)

/-- CAPTURE_EDGE (R377). -/
def execCaptureEdge (n : Fin 4) (rising : Bool) (gapNs widthNs : Nat) (s : State) : Out :=
  .next (whenServes s 15 fun s => captureEdge s n rising gapNs widthNs)

/-- CAPTURE_READ (R377). -/
def execCaptureRead (n : Fin 4) (q : Requester) (s : State) : Out := .next (reqServes s q 15 fun s => captureRead s n q)

/-- TIME_READ (R362). -/
def execTimeRead (q : Requester) (s : State) : Out := .next (reqServes s q 15 fun s => timeRead s q)

/-- TIME_SET (R371). -/
def execTimeSet (q : Requester) (s : State) : Out := .next (reqServes s q 15 timeSet)

/-- RESTEP (R369). -/
def execRestep (q : Requester) (s : State) : Out :=
  .next (reqServes s q 15 fun s => if ptpSource s = 0 then s else acquire s)

/-- PTP_PROFILE_WRITE (R364). -/
def execPtpProfileWrite (q : Requester) (v : Word) (s : State) : Out := .next (reqServes s q 15 fun s => ptpCtrlWrite s v)

/-- TRIGGER_ARM (R374). -/
def execTriggerArm (n : Fin 4) (q : Requester) (v : Word) (s : State) : Out :=
  .next (reqServes s q 15 fun s => trgCtrlWrite s n (v ||| 0x100))

/-- TRIGGER_FIRE (R373). -/
def execTriggerFire (n : Fin 4) (q : Requester) (s : State) : Out := .next (reqServes s q 15 fun s => triggerFire s n)

/-- TRIGGER_EDGE (R373). -/
def execTriggerEdge (n : Fin 4) (s : State) : Out := .next (whenServes s 15 fun s => triggerEdge s n)

/-- PPS_OUT_EDGE: driven from the retained clock unit, also while Garnet is reset (R376). -/
def execPpsOutEdge (s : State) : Out := .next (if clockUnitOn s then ppsOutEdge s else s)

/-- AUDIO_START_TIME (R346, R373). -/
def execAudioStartTime (op : Fin 4) (s : State) : Out := .next (whenServes s 15 fun s => audioThen s fun s => audioStart s op)

/-- AUDIO_FRAME (R345, R356). -/
def execAudioFrame (op : Fin 4) (s : State) : Out := .next (audioThen s fun s => audioFrame s op)

/-- FSYNC_EDGE (R344, R346, R354). -/
def execFsyncEdge (port : Fin 6) (info : FsyncInfo) (s : State) : Out :=
  .next (whenServes s 15 fun s => audioThen s fun s => fsyncEdge s port info)

end Sys2Proof.Machine
end

