-- ==== Sys2Proof/Machine/FrameCore.lean ====
section
/-! DEFINITION. What the frame program rests on: semaphores, actions and the mirror, program loads, starts and stops, checkpoints (R161 to R168, R407 to R411, R436). -/

namespace Sys2Proof.Machine

/-! Semaphores (R161, R436, R469, R477). -/

/-- The place of a host among the two. -/
def hostIdx (h : HostId) : Fin 2 := if h = .a then 0 else 1

/-- A host port's state changed. -/
def setHost (s : State) (h : HostId) (f : HostPort → HostPort) : State :=
  setSlate s fun x => { x with hosts := vUpd x.hosts (hostIdx h) f }

/-- A host port's state. -/
def hostOf (s : State) (h : HostId) : HostPort := s.slate.hosts[hostIdx h]

/-- A bit of a host's SLT_HOST_IRQ_STATUS set by hardware (R473). -/
def hostIrq (s : State) (h : HostId) (bit : Nat) : State := setF s (hostKey h sltHostIrqStatus) bit 1 1

/-- OWNER's code (R477). -/
def ownerCode : Option SemUser → Nat
  | none => 0
  | some (.host .a) => 1
  | some (.host .b) => 2
  | some .frame => 3

/-- A semaphore. -/
def semOf (s : State) (n : Nat) : Sem := s.slate.sems.getD n {}

/-- A semaphore changed; SLT_SEM_OWNER shows its holder (R477). -/
def setSem (s : State) (n : Nat) (f : Sem → Sem) : State :=
  let s := setSlate s fun x => if h : n < 32 then { x with sems := x.sems.set n (f x.sems[n]) } else x
  setF s (if n < 16 then sltSemOwnerLo else sltSemOwnerHi) (2 * (n % 16)) 2 (ownerCode (semOf s n).holder)

/-- A SEMACQ that was queued is granted: the wait ends (R161, R436). -/
def settleSem (s : State) (n : Nat) : State :=
  [FlintId.a, FlintId.b].foldl (fun s f =>
    match (flintOf s f).wait with
    | some (.sem m) => if m = n then mirrorSend (setFlint s f fpNext) f (.granted true) else s
    | _ => s) s

/-- The requester that a user of semaphores is. -/
def semReq (u : SemUser) : Requester :=
  match u with
  | .host h => hostReq h
  | .frame => .fp

/-- A request for a semaphore: 0x08 GRANTED, 0x09 QUEUED, 0x0A REFUSED (R436, R464). -/
def semAsk (s : State) (u : SemUser) (n : Nat) (waiting : Bool) : State × Nat :=
  let s := semMeets s (semReq u) n
  let m := semOf s n
  if m.holder = some u then (s, 8)
  else if m.holder.isNone then (setSem s n fun m => { m with holder := some u }, 8)
  else if !waiting then (s, 10)
  else if m.waiters.contains u then (s, 9)
  else (setSem s n fun m => { m with waiters := m.waiters ++ [u] }, 9)

/-- A semaphore is released; with a waiter it is granted in the same clock to the head of the list. Requests taken before belong to an earlier clock, since a release comes before the requests of its own (R436). -/
def semFree (s : State) (n : Nat) : State :=
  let s := semClockEnds s n
  match (semOf s n).waiters with
  | [] => setSem s n fun m => { m with holder := none }
  | u :: r =>
    let s := setSem s n fun _ => ⟨some u, r⟩
    match u with
    | .host h => hostIrq (setSlate s fun x => { x with grantClock := x.grantClock ++ [(n, h)] }) h 2
    | .frame => settleSem s n

/-- A requester leaves a waiter list (R469). -/
def semLeave (s : State) (u : SemUser) (n : Nat) : State := setSem s n fun m => { m with waiters := m.waiters.erase u }

/-- Every semaphore that the frame program holds is released, and its places in waiter lists end (R166). -/
def semDropFrame (s : State) : State :=
  (List.range 32).foldl (fun s n =>
    let s := if (semOf s n).waiters.contains .frame then semLeave s .frame n else s
    if (semOf s n).holder = some .frame then semFree s n else s) s

/-! The mirror and the actions (R407 to R411). -/

/-- No mirror record is left for a region: none that has arrived, and none of the old holder's on its way (R415, R416). -/
def mirrorDone (s : State) (f : FlintId) : Bool :=
  (flintOf s f).mirror.isEmpty && (shadowed s f || s.ctrl.lease.mirror.isEmpty)

/-- The region follows mirror records: it is in the shadow run, or has taken the lease with records left (R409, R415). -/
def fpFollows (s : State) (f : FlintId) : Bool :=
  (flintOf s f).shadow == .inShadow || (holder s == some f && !mirrorDone s f)

/-- The region carries the program out: it holds the lease and no record is left (R33, R415). -/
def fpLeads (s : State) (f : FlintId) : Bool := holder s == some f && mirrorDone s f

/-- Bytes of an action's digest: the number, the internal address, the data (R411). -/
def actionDigest (n addr : Nat) (data : List Byte) : Word := crc32 (leBytes n 8 ++ leBytes addr 8 ++ data)

/-- LAST_ACTION of a region (R408). -/
def lastAction (s : State) (r : Nat) : Nat := s.ctrl.lease.lastAction.getD r 0

/-- LAST_ACTION of a region set (R408). -/
def setLastAction (s : State) (r n : Nat) : State :=
  setLease s fun l => if h : r < 16 then { l with lastAction := l.lastAction.set r n } else l

/-- The counters of a region's window (R500): actions discarded by R406 and by R408. -/
def nonHolderKey (r : Nat) : Nat := r * 0x100000 + 8
/-- ACTION_DUPLICATES. -/
def duplicatesKey (r : Nat) : Nat := r * 0x100000 + 12

/-- A region receives action `n` of the holder: one whose number is at or below LAST_ACTION is discarded and counted (R408). -/
def regionAction (s : State) (r n : Nat) (f : State → State) : State :=
  if n ≤ lastAction s r then bump s (duplicatesKey r) else f (setLastAction s r n)

/-- A program starts at ENTRY: LAST_ACTION is cleared (R408). -/
def clearActions (s : State) : State := setLease s fun l => { l with lastAction := Vector.replicate 16 0 }

/-! Stops, starts, loads (R164 to R168). -/

/-- The regions that are in service. -/
def flintsUp (s : State) : List FlintId := [FlintId.a, .b].filter fun f => flintUp s f

/-- A region's program stops where it is, its waits abandoned; what the program held is released, unless the other region holds the lease and so runs it (R33, R166, R167). -/
def seqHalt (s : State) (f : FlintId) (st : SeqState) : State :=
  let s := setFlint s f fun x => { x with st := st, wait := none }
  if holder s = some (otherFlint f) then s else semDropFrame s

/-- The state cleared as by step 3 of R166, and the program at ENTRY. -/
def seqClear (x : Flint) (now : Nat) : Flint :=
  { x with
    g := Vector.replicate 32 0, p := 1, e := 0, stack := [], timers := Vector.replicate 4 0
    dmem := memPutList [] 0 x.data, pc := x.entry, wait := none, st := .running, action := 0, wdogAt := now, mirror := [] }

/-- Both regions in service run the program from ENTRY (R165 to R167). -/
def seqStart (s : State) : State :=
  let s := semDropFrame s
  let s := clearActions (setLease s fun l => { l with mirror := [] })
  (flintsUp s).foldl (fun s f => setFlint s f fun x => seqClear x s.now) s

/-- An accepted image takes the place of the program in both regions, and FP_LOADED is raised (R166). -/
def progTake (s : State) (i : ProgImage) : State :=
  let s := (flintsUp s).foldl (fun s f => setFlint s f fun x =>
    { x with code := i.code, entry := i.entry, data := i.data, minor := some i.minor }) s
  let s := seqStart (setCtrl s fun c => { c with ready := none })
  (flintsUp s).foldl (fun s f => flintEvent s f 2 0x100 i.code.length) s

/-- Some region's program runs. -/
def progRuns (s : State) : Bool := (flintsUp s).any fun f => (flintOf s f).st == .running

/-- An accepted image that waits is taken at once where the timing generator is stopped or no program runs (R166). -/
def takeReady (s : State) : State :=
  match s.ctrl.ready with
  | some i => if s.scan.running && progRuns s then s else progTake s i
  | none => s

/-- HALT (R167). -/
def seqHalted (s : State) (f : FlintId) : State :=
  takeReady (flintEvent (seqHalt s f .halted) f 2 0x103 (65536 * ((flintOf s f).pc % 16384)))

/-- A fault stops the program (R167, R168). -/
def seqFault (s : State) (f : FlintId) (cause : Nat) : State :=
  let s := seqHalt (setFlint s f fun x => { x with fault := cause }) f .faulted
  takeReady (flintEvent s f 2 0x102 (cause + 65536 * ((flintOf s f).pc % 16384)))

/-- LOAD written: a load starts, or waits and discards an older waiting one (R165, R166). -/
def progLoad (s : State) (f : FlintId) : State :=
  let r := flintRegion f
  let l : ProgLoad := ⟨getB s (flaProgCtrl r) 1, addr40 s (flaProgAddrLo r) (flaProgAddrHi r)⟩
  if s.ctrl.load.isSome then setCtrl s fun c => { c with loadWait := some l }
  else setCtrl s fun c => { c with load := some l }

/-- STOP: the program stops, without an event; both regions run one program (R162, R167). -/
def progStop (s : State) : State :=
  takeReady ((flintsUp s).foldl (fun s f => if (flintOf s f).st = .running then seqHalt s f .stopped else s) s)

/-- RUN restarts a stopped program at ENTRY (R167). -/
def progRun (s : State) : State :=
  if progRuns s || !((flintsUp s).any fun f => !(flintOf s f).code.isEmpty) then s else seqStart s

/-- A write of FLA_PROG_CTRL or FLB_PROG_CTRL; LOAD written to both in one clock counts as one, by the first (R165, R169, R434). -/
def progCtrlWrite (s : State) (f : FlintId) (v : Word) : State :=
  let s := writeKey s (flaProgCtrl (flintRegion f)) v
  let s := if flag v 3 then progStop s else s
  let s := if flag v 4 then progRun s else s
  let again := match s.ctrl.loadAt with
    | some (g, t) => g != f && t == s.now
    | none => false
  if flag v 0 && !again then progLoad (setCtrl s fun c => { c with loadAt := some (f, s.now) }) f else s

/-! Reading an image (R164, R165, R454). -/

/-- A flash byte; an unlisted one is erased (R438). -/
def flashByte (s : State) (a : Nat) : Byte := smRead (fun _ => 0xFF) s.slate.flash a

/-- Flash bytes. -/
def flashBytes (s : State) (a n : Nat) : List Byte := (List.range n).map fun i => flashByte s (a + i)

/-- The flash port's commands for a task (R438, R476). -/
def flashSend (s : State) (cs : List (Nat × Nat × Nat)) : State := setSlate s fun x => { x with flashPort := cs }

/-- The command that reads the flash: 0x6C where SFDP lists it, else 0x0C (R438). -/
def flashReadCmd (s : State) (a n : Nat) : Nat × Nat × Nat := (if s.slate.flashSfdp.quadRead then 0x6C else 0x0C, a, n)

/-- A read by a DMA or a load must wait: a program or erase runs that cannot be suspended (R476). -/
def flashWaits (s : State) : Bool := s.slate.flashOp.isSome && !s.slate.flashSfdp.suspend

/-- The commands of a read by a DMA or a load: a program or erase that runs is suspended and resumed (R476). -/
def flashReads (s : State) (a n : Nat) : State :=
  flashSend s (if s.slate.flashOp.isSome then [(0x75, 0, 0), flashReadCmd s a n, (0x7A, 0, 0)] else [flashReadCmd s a n])

/-- A flash range lies in one section of the booted slot (R454). -/
def inSections (s : State) (a n : Nat) : Bool :=
  match s.slate.image with
  | none => false
  | some i => i.sections.any fun x => decide (x.2.1 ≤ a) && decide (a + n ≤ x.2.1 + x.2.2.1)

/-- The region in whose name a load is read: Flint-A where it is in service. -/
def loadRegion (s : State) : Nat := if flintUp s .a || !flintUp s .b then 1 else 2

/-- A flash read of `n` bytes from offset `o` of a source meets the flash error at byte `bad` of it (R160, R165). -/
def flashFails (bad : Option (BitVec 32)) (o n : Nat) : Bool :=
  match bad with
  | some k => decide (o ≤ k.toNat) && decide (k.toNat < o + n)
  | none => false

/-- Bytes of the source of a load, and whether they could be read in full; a flash error falls at byte `bad` of the source (R165). -/
def progBytes (s : State) (l : ProgLoad) (bad : Option (BitVec 32)) (o n : Nat) : List Byte × Bool :=
  if l.flash then
    (flashBytes s (l.addr % 2 ^ 32 + o) n, inSections s (l.addr % 2 ^ 32) (o + n) && !flashFails bad o n)
  else (readBytes s (l.addr + o) n, readStatus s (loadRegion s) (l.addr + o) n == 0)

/-- The first instruction that breaks the encoding (R165). -/
def badFpWord (code : List DWord) : Option Nat :=
  (List.range code.length).find? fun i => !fpWordOk (code.getD i 0) i code.length

/-- The checks of R165 in order: the image, or the reason and the failing index. -/
def progCheck (s : State) (l : ProgLoad) (bad : Option (BitVec 32)) : Except (Nat × Nat) ProgImage :=
  let (h, ok) := progBytes s l bad 0 64
  let words := leAt h 8 4
  let bytes := leAt h 16 4
  let off (a b : Nat) : Bool := a != 0 && a != b
  if !ok then .error (1, 0)
  else if leAt h 0 4 ≠ 0x464B5341 ∨ leAt h 6 2 ≠ 64 ∨ !(h.drop 0x19).all (· == 0) then .error (2, 0)
  else if leAt h 4 1 ≠ 1 ∨ 2 < leAt h 5 1 then .error (3, 0)
  else if words = 0 ∨ 16384 < words ∨ words ≤ leAt h 12 4 ∨ 65536 < bytes ∨ bytes % 8 ≠ 0 then .error (4, 0)
  else
    let (rest, ok) := progBytes s l bad 64 (8 * words + bytes + 4)
    let code := (List.range words).map fun i => BitVec.ofNat 64 (leAt rest (8 * i) 8)
    if !ok then .error (1, 0)
    else if crc32 (h ++ rest.take (8 * words + bytes)) ≠ BitVec.ofNat 32 (leAt rest (8 * words + bytes) 4) then .error (5, 0)
    else if off (leAt h 0x14 2) (panelW s) || off (leAt h 0x16 2) (panelH s) || off (leAt h 0x18 1) (panelN s) then .error (6, 0)
    else match badFpWord code with
      | some i => .error (7, i)
      | none => .ok ⟨code, leAt h 12 4, (rest.drop (8 * words)).take bytes, leAt h 5 1⟩

/-- LOAD_REASON of both regions (R170). -/
def loadReason (s : State) (r : Nat) : State :=
  (flintsUp s).foldl (fun s f => setF s (flaSeqStatus (flintRegion f)) 16 8 r) s

/-- Poisoned words that a load from DRAM has met: in the header, and in the rest where that was read (R165, R268). -/
def loadPoison (s : State) (l : ProgLoad) (bad : Option (BitVec 32)) (out : Except (Nat × Nat) ProgImage) : State :=
  let h := progBytes s l bad 0 64
  let rest := match out with
    | .error (r, _) => h.2 && (r == 1 || decide (4 < r))
    | .ok _ => true
  let s := poisonSeen s (loadRegion s) l.addr 64
  if rest then poisonSeen s (loadRegion s) (l.addr + 64) (8 * leAt h.1 8 4 + leAt h.1 16 4 + 4) else s

/-- The load ends: the image waits for FRAME_START, or is taken at once; a refusal is reported; a waiting load runs (R165, R166). -/
def progLoadEnds (s : State) (bad : Option (BitVec 32)) : State :=
  match s.ctrl.load with
  | none => s
  | some l =>
    if l.flash && flashWaits s then s else
    let out := progCheck s l bad
    let s := if l.flash then flashReads s (l.addr % 2 ^ 32) 64 else loadPoison s l bad out
    let s := setCtrl s fun c => { c with load := c.loadWait, loadWait := none }
    match out with
    | .error (r, i) =>
      (flintsUp s).foldl (fun s f => flintEvent s f 2 0x101 (r + 65536 * i)) (loadReason s r)
    | .ok img =>
      let s := loadReason s 0
      if s.scan.running && progRuns s then setCtrl s fun c => { c with ready := some img } else progTake s img

/-! Checkpoints (R163, R410). -/

/-- What CKPT writes: the PC is that of the next instruction. -/
def ckptOf (x : Flint) (tag : Word) : Ckpt :=
  ⟨x.g, x.p, x.e, x.stack, x.timers, x.dmem, x.pc + 1, tag, x.action⟩

/-- A checkpoint loaded: every item it holds is restored (R163, R410, R419). -/
def ckptLoad (x : Flint) (k : Ckpt) (now : Nat) : Flint :=
  { x with
    g := k.g, p := k.p, e := k.e, stack := k.stack, timers := k.timers, dmem := k.dmem, pc := k.pc, action := k.action
    st := .running, wait := none, wdogAt := now }

/-- The bank not written last takes a checkpoint and becomes valid (R163). -/
def bankWrite (x : Flint) (k : Ckpt) : Flint :=
  let b : Fin 2 := if x.lastBank = 0 then 1 else 0
  { x with banks := x.banks.set b (some k), lastBank := b.val }

/-- The newest valid bank (R419). -/
def newestBank (x : Flint) : Option Ckpt :=
  let b : Fin 2 := Fin.ofNat 2 x.lastBank
  match x.banks[b] with
  | some k => some k
  | none => x.banks[(1 - b : Fin 2)]

/-! Meanings. -/

/-- PROG_LOAD: a write of the region's PROG_CTRL with LOAD (R165, R169). -/
def execProgLoad (f : FlintId) (q : Requester) (v : Word) (s : State) : Out :=
  .next (reqServes s q (flintRegion f) fun s => progCtrlWrite s f v)

/-- PROG_LOAD_CHECKED (R165, R166). -/
def execProgLoadChecked (s : State) (flashError : Option (BitVec 32) := none) : Out := .next (progLoadEnds s flashError)

/-- PROG_STOP (R167). -/
def execProgStop (f : FlintId) (q : Requester) (s : State) : Out :=
  .next (reqServes s q (flintRegion f) progStop)

/-- PROG_RUN (R167). -/
def execProgRun (f : FlintId) (q : Requester) (s : State) : Out :=
  .next (reqServes s q (flintRegion f) progRun)

end Sys2Proof.Machine
end

