-- ==== Sys2Proof/Machine/Codec.lean ====
section
/-! DEFINITION. The Borax stream: header, blocks, prediction, canonical codes, the decoder and its failures, the encoder's choices (R221 to R229). -/

namespace Sys2Proof.Machine

/-! Elements and prediction (R223). -/

/-- Size of an element in bytes (R223). -/
def elemSize (elem : Nat) : Nat := [1, 2, 4, 4].getD elem 1

/-- Predicted fields of an element: lowest bit, width (R223). -/
def elemFields (elem : Nat) : List (Nat × Nat) :=
  [[(0, 8)], [(0, 16)], [(0, 10), (10, 10), (20, 10)], [(0, 8), (8, 8), (16, 8), (24, 8)]].getD elem []

/-- The bits of an element carried unpredicted (R223). -/
def elemKeep (elem x : Nat) : Nat := if elem = 2 then x / 2 ^ 30 * 2 ^ 30 else 0

/-- An element of raw data. -/
def elemAt (a : Array Byte) (o z : Nat) : Nat := leNat ((List.range z).map fun i => a.getD (o + i) 0)

/-- The prediction of the field of width `w` at bit `lo` of the element at byte `o` (R223). -/
def predOf (a : Array Byte) (line predict z o lo w : Nat) : Nat :=
  let leftOk := if line = 0 then decide (z ≤ o) else decide (z ≤ o % line)
  let upOk := line != 0 && decide (line ≤ o)
  let above := bitsOf (elemAt a (o - line) z) lo w
  let l := if leftOk then bitsOf (elemAt a (o - z) z) lo w else if upOk then above else 0
  let u := if upOk then above else l
  if predict = 1 then l else if predict = 2 then u else if predict = 3 then (l + u) / 2 else 0

/-- The raw element at byte `o` from its residual (R223). -/
def unpredictElem (a : Array Byte) (elem line predict o r : Nat) : Nat :=
  elemKeep elem r + sumNat ((elemFields elem).map fun f =>
    (bitsOf r f.1 f.2 + predOf a line predict (elemSize elem) o f.1 f.2) % 2 ^ f.2 * 2 ^ f.1)

/-- The residual of the element at byte `o` (R223). -/
def residualElem (a : Array Byte) (elem line predict o : Nat) : Nat :=
  let x := elemAt a o (elemSize elem)
  elemKeep elem x + sumNat ((elemFields elem).map fun f =>
    (bitsOf x f.1 f.2 + 2 ^ f.2 - predOf a line predict (elemSize elem) o f.1 f.2) % 2 ^ f.2 * 2 ^ f.1)

/-- Raw data continued by `n` elements whose residual bytes are given (R223). -/
def unpredict (elem line predict : Nat) : Nat → List Byte → Array Byte → Array Byte
  | 0, _, a => a
  | n + 1, res, a =>
    let z := elemSize elem
    let x := unpredictElem a elem line predict a.size (leNat (res.take z))
    unpredict elem line predict n (res.drop z) (a ++ (leBytes x z).toArray)

/-- The residual bytes of raw bytes [o, o + n) (R223). -/
def residualBytes (a : Array Byte) (elem line predict o n : Nat) : List Byte :=
  let z := elemSize elem
  (List.range (n / z)).flatMap fun k => leBytes (residualElem a elem line predict (o + k * z)) z

/-! Codes (R224 to R227). -/

/-- The static code lengths (R226). -/
def staticLengths : List Nat :=
  3 :: ((List.range 255).map fun i =>
    let m := min (i + 1) (255 - i)
    if m = 1 then 4 else if m ≤ 3 then 6 else if m ≤ 7 then 7 else if m ≤ 15 then 8
    else if m ≤ 31 then 9 else if m ≤ 63 then 10 else 11) ++
  [4, 4, 4, 4, 6, 6, 6, 6, 9, 9, 9, 9, 9, 9, 9, 9]

/-- Number of symbols of a code length. -/
def lenCount (lens : List Nat) (n : Nat) : Nat := (lens.filter (· == n)).length

/-- The first code of length n + 1 (R225: next[1] = 0, next[n] = (next[n − 1] + count[n − 1]) << 1). -/
def firstCode (lens : List Nat) : Nat → Nat
  | 0 => 0
  | n + 1 => 2 * (firstCode lens n + lenCount lens (n + 1))

/-- A canonical code: per length 1 to 15 its first code, and its symbols in increasing order (R225). -/
def canonical (lens : List Nat) : List (Nat × Array Nat) :=
  (List.range 15).map fun n => (firstCode lens n, ((List.range 272).filter fun i => lens.getD i 0 == n + 1).toArray)

/-- The code of a symbol: its length and value (R225). -/
def codeOf (lens : List Nat) (sym : Nat) : Nat × Nat :=
  let n := lens.getD sym 0
  (n, firstCode lens (n - 1) + ((List.range sym).filter fun i => lens.getD i 0 == n).length)

/-- A table of lengths obeys R227. -/
def lengthsOk (lens : List Nat) : Bool :=
  lens.length == 272 && lens.all (fun n => decide (n ≤ 15)) && lens.any (fun n => n != 0) &&
  decide (sumNat (lens.map fun n => if n = 0 then 0 else 2 ^ (15 - n)) ≤ 2 ^ 15)

/-- The lengths that a DYNAMIC block's 136-byte table holds (R227). -/
def tableLengths (bs : List Byte) : List Nat := bs.flatMap fun b => [b.toNat % 16, b.toNat / 16]

/-- The 136-byte table of code lengths (R227). -/
def lengthTable (lens : List Nat) : List Byte :=
  (List.range 136).map fun i => BitVec.ofNat 8 (lens.getD (2 * i) 0 + 16 * lens.getD (2 * i + 1) 0)

/-! The decoder (R228). -/

/-- Bit `p` of the coded bits: bit 0 of the first byte first; none beyond the end (R225). -/
def codedBit (a : Array Byte) (p : Nat) : Option Nat :=
  if p < 8 * a.size then some (bitsOf (a.getD (p / 8) 0).toNat (p % 8) 1) else none

/-- The next symbol, and the position after it: the code's most significant bit first (R225); none where the bits match no code or end (R228). -/
def readSym (a : Array Byte) : List (Nat × Array Nat) → Nat → Nat → Option (Nat × Nat)
  | [], _, _ => none
  | (first, syms) :: r, code, p =>
    match codedBit a p with
    | none => none
    | some b =>
      let c := 2 * code + b
      if first ≤ c ∧ c - first < syms.size then some (syms.getD (c - first) 0, p + 1)
      else readSym a r c (p + 1)

/-- `k` extra bits, least significant first (R225). -/
def readExtra (a : Array Byte) : Nat → Nat → Option Nat
  | 0, _ => some 0
  | k + 1, p =>
    match codedBit a p, readExtra a k (p + 1) with
    | some b, some e => some (b + 2 * e)
    | _, _ => none

/-- `n` residual bytes, in reverse order, or the reason of a failure and the bytes before it (R224, R228). -/
def readResiduals (a : Array Byte) (code : List (Nat × Array Nat)) : Nat → Nat → Nat → List Byte → Except (Nat × List Byte) (List Byte)
  | 0, _, _, acc => .ok acc
  | fuel + 1, n, p, acc =>
    if n = 0 then .ok acc
    else match readSym a code 0 p with
      | none => .error (4, acc)
      | some (sym, p) =>
        if sym < 256 then readResiduals a code fuel (n - 1) p (BitVec.ofNat 8 sym :: acc)
        else match readExtra a (sym - 256) p with
          | none => .error (4, acc)
          | some e =>
            let len := 2 ^ (sym - 256) + 1 + e
            if n < len then .error (5, acc)
            else readResiduals a code fuel (n - len) (p + (sym - 256)) (List.replicate len 0 ++ acc)

/-- A block header's fields: mode, prediction, raw bytes, body bytes, check (R222). -/
structure BlockHead where
  mode : Nat
  predict : Nat
  raw : Nat
  body : Nat
  check : Nat
deriving DecidableEq, Repr

/-- The block header at a byte offset. -/
def blockHead (a : Array Byte) (o : Nat) : BlockHead :=
  ⟨elemAt a o 1, elemAt a (o + 1) 1, elemAt a (o + 4) 4, elemAt a (o + 8) 4, elemAt a (o + 12) 4⟩

/-- A block header obeys R222; `rsv` are its reserved bytes and `z` the element size. -/
def blockOk (h : BlockHead) (rsv z : Nat) : Bool :=
  if rsv ≠ 0 then false
  else if h.mode = 0xFF then h.predict == 0 && h.raw == 0 && h.body == 0
  else
    decide (h.mode ≤ 2) && decide (h.predict ≤ 3) && h.check == 0 && decide (1 ≤ h.raw) && decide (h.raw ≤ 65536) &&
    h.raw % z == 0 && h.body % 8 == 0 &&
    (if h.mode = 0 then h.predict == 0 && h.body == (h.raw + 7) / 8 * 8
     else if h.mode = 1 then decide (8 ≤ h.body) else decide (144 ≤ h.body))

/-- Reason LENGTH where the input has ended before END: more input could go on (R228). -/
def inputEnds : Nat := 0x106

/-- Blocks from byte `o` on, after the raw data `raw` (R222, R228). -/
def decodeBlocks (a : Array Byte) (elem line total : Nat) : Nat → Nat → Array Byte → Except Nat (List Byte)
  | 0, _, _ => .error 6
  | fuel + 1, o, raw =>
    if a.size < o + 16 then .error inputEnds
    else
      let h := blockHead a o
      let z := elemSize elem
      if !blockOk h (elemAt a (o + 2) 2) z then .error 2
      else if h.mode = 0xFF then
        if raw.size ≠ total then .error 6
        else if (crc32 raw.toList).toNat ≠ h.check then .error 7
        else .ok raw.toList
      else if total < raw.size + h.raw then .error 6
      else if a.size < o + 16 + h.body then .error inputEnds
      else
        let body := a.extract (o + 16) (o + 16 + h.body)
        let next := o + 16 + h.body
        if h.mode = 0 then decodeBlocks a elem line total fuel next (raw ++ body.extract 0 h.raw)
        else
          let lens := if h.mode = 1 then staticLengths else tableLengths (body.extract 0 136).toList
          if !lengthsOk lens then .error 3
          else
            let coded := if h.mode = 1 then body else body.extract 136 body.size
            match readResiduals coded (canonical lens) (h.raw + 1) h.raw 0 [] with
            | .error e => .error e.1
            | .ok res => decodeBlocks a elem line total fuel next (unpredict elem line h.predict (h.raw / z) res.reverse raw)

/-- The raw data of a Borax stream from its first bytes, or what stopped the decoder; above 0xFF where more input could go on. -/
def decodeFrom (bs : List Byte) : Except Nat (List Byte) :=
  let a := bs.toArray
  let elem := elemAt a 5 1
  let line := elemAt a 8 4
  let total := elemAt a 12 4
  if a.size < 16 then .error 0x101
  else if elemAt a 0 4 ≠ 0x31585242 ∨ elemAt a 4 1 ≠ 1 ∨ 3 < elem ∨ elemAt a 6 2 ≠ 0 then .error 1
  else if line % elemSize elem ≠ 0 ∨ total < 1 ∨ 268435456 < total ∨ total % elemSize elem ≠ 0 then .error 1
  else decodeBlocks a elem line total (a.size / 16 + 1) 16 #[]

/-- The raw data of a Borax stream, or the reason of R228. -/
def boraxDecode (bs : List Byte) : Except Nat (List Byte) :=
  match decodeFrom bs with
  | .ok raw => .ok raw
  | .error e => .error (e % 256)

/-- The raw bytes of a stream's first block that its first `limit` bytes give, as far as they decode (R228, R239). -/
def decodeUpTo (bs : List Byte) (limit : Nat) : List Byte :=
  let a := (bs.take limit).toArray
  let elem := elemAt a 5 1
  let h := blockHead a 16
  let body := a.extract 32 (32 + h.body)
  if a.size < 32 ∨ !blockOk h (elemAt a 18 2) (elemSize elem) then []
  else if h.mode = 0 then (body.extract 0 h.raw).toList
  else
    let lens := if h.mode = 1 then staticLengths else tableLengths (body.extract 0 136).toList
    if h.mode = 2 ∧ body.size < 136 ∨ !lengthsOk lens then []
    else
      let coded := if h.mode = 1 then body else body.extract 136 body.size
      let res := match readResiduals coded (canonical lens) (h.raw + 1) h.raw 0 [] with
        | .error e => e.2.reverse
        | .ok r => r.reverse
      (unpredict elem (elemAt a 8 4) h.predict (res.length / elemSize elem) res #[]).toList

/-- STORED blocks of a stream from byte `o` on (R222, R233). -/
def storedBlocks (a : Array Byte) : Nat → Nat → Nat
  | 0, _ => 0
  | fuel + 1, o =>
    let h := blockHead a o
    if a.size < o + 16 ∨ h.mode = 0xFF then 0
    else b2n (h.mode == 0) + storedBlocks a fuel (o + 16 + h.body)

/-! The encoder (R224, R225, R229). -/

/-- Residual bytes as symbols with their extra bits, each run of two or more zero bytes as one run symbol: `z` zeros have been seen (R224). DEDUCED: the example after R228 codes the longest run. -/
def symbolsOf : List Byte → Nat → List (Nat × Nat)
  | [], z => zeroRun z
  | b :: r, z => if b = 0 then symbolsOf r (z + 1) else zeroRun z ++ (b.toNat, 0) :: symbolsOf r 0
where
  /-- The symbol of `z` zero bytes (R224). -/
  zeroRun (z : Nat) : List (Nat × Nat) :=
    if z = 0 then [] else if z = 1 then [(0, 0)]
    else [(256 + (z - 1).log2, z - 1 - 2 ^ (z - 1).log2)]

/-- A number's `k` bits, most significant first. -/
def bitsMsb (n : Nat) : Nat → List Bool
  | 0 => []
  | k + 1 => bitAt n k :: bitsMsb n k

/-- A number's bits [j, j + k), least significant first. -/
def bitsLsb (n : Nat) : Nat → Nat → List Bool
  | 0, _ => []
  | k + 1, j => bitAt n j :: bitsLsb n k (j + 1)

/-- The coded bits of symbols (R225). -/
def codeBits (lens : List Nat) (syms : List (Nat × Nat)) : List Bool :=
  syms.flatMap fun s =>
    let c := codeOf lens s.1
    bitsMsb c.2 c.1 ++ (if s.1 < 256 then [] else bitsLsb s.2 (s.1 - 256) 0)

/-- Bits packed from bit 0 of the first byte, eight a byte, `fuel` bytes at most (R225). -/
def packBits : Nat → List Bool → List Byte
  | 0, _ => []
  | fuel + 1, bs =>
    match bs with
    | [] => []
    | _ => BitVec.ofNat 8 ((bs.take 8).foldr (fun b n => b2n b + 2 * n) 0) :: packBits fuel (bs.drop 8)

/-- Number of coded bits of symbols. -/
def codedSize (lens : List Nat) (syms : List (Nat × Nat)) : Nat :=
  sumNat (syms.map fun s => lens.getD s.1 0 + (if s.1 < 256 then 0 else s.1 - 256))

/-- Body bytes for a number of coded bits, a multiple of 8 (R222). -/
def bodyBytes (bits : Nat) : Nat := (bits + 63) / 64 * 8

/-- Bytes padded with 0 to a length. -/
def padTo (bs : List Byte) (n : Nat) : List Byte := bs ++ List.replicate (n - bs.length) 0

/-- How often each symbol occurs. -/
def symbolCounts (syms : List (Nat × Nat)) : List Nat :=
  (List.range 272).map fun i => (syms.filter fun s => s.1 == i).length

/-- The code lengths of a DYNAMIC block: what the open construction gives, where it obeys R227 and covers the symbols that occur; else nine bits for every symbol. -/
def dynamicLengths (syms : List (Nat × Nat)) : List Nat :=
  let lens := Config.codeLengths (symbolCounts syms)
  if lengthsOk lens && syms.all fun s => lens.getD s.1 0 != 0 then lens else List.replicate 272 9

/-- A block header and body (R222). -/
def blockBytes (mode predict raw : Nat) (body : List Byte) : List Byte :=
  [BitVec.ofNat 8 mode, BitVec.ofNat 8 predict, 0, 0] ++ leBytes raw 4 ++ leBytes body.length 4 ++ leBytes 0 4 ++ body

/-- The predictor that AUTO selects: the smallest static body, the lowest value when equal (R229). -/
def autoPredict (a : Array Byte) (elem line o n : Nat) : Nat :=
  let size := fun p => bodyBytes (codedSize staticLengths (symbolsOf (residualBytes a elem line p o n) 0))
  ((List.range 4).foldl (fun (best : Nat × Nat) p =>
    let x := size p
    if x < best.2 then (p, x) else best) (0, size 0)).1

/-- One block of raw bytes [o, o + n) as R229 decides, and whether it was written STORED. -/
def encodeBlock (a : Array Byte) (elem line effort predict o n : Nat) : List Byte × Bool :=
  let raw := (a.extract o (o + n)).toList
  let stored := blockBytes 0 0 n (padTo raw ((n + 7) / 8 * 8))
  if effort = 0 then (stored, true)
  else
    let p := if predict = 4 then autoPredict a elem line o n else predict
    let syms := symbolsOf (residualBytes a elem line p o n) 0
    let dyn := dynamicLengths syms
    let sBody := bodyBytes (codedSize staticLengths syms)
    let dBody := 136 + bodyBytes (codedSize dyn syms)
    let useDyn := effort == 2 || (effort == 3 && decide (dBody < sBody))
    let body := if useDyn then dBody else sBody
    if (n + 7) / 8 * 8 ≤ body then (stored, true)
    else if useDyn then
      (blockBytes 2 p n (lengthTable dyn ++ padTo (packBits (dBody - 136) (codeBits dyn syms)) (dBody - 136)), false)
    else (blockBytes 1 p n (padTo (packBits sBody (codeBits staticLengths syms)) sBody), false)

/-- The blocks of raw bytes from `o` on: 65,536 bytes each, the last the remainder; those of `forced` are written STORED, as self-verify decided (R229, R230). -/
def encodeBlocks (a : Array Byte) (elem line effort predict : Nat) (forced : List Nat) : Nat → Nat → List (List Byte × Bool)
  | 0, _ => []
  | fuel + 1, o =>
    if a.size ≤ o then []
    else encodeBlock a elem line (if forced.contains (o / 65536) then 0 else effort) predict o (min 65536 (a.size - o)) ::
      encodeBlocks a elem line effort predict forced fuel (o + 65536)

/-- The Borax stream of raw data, and how many of its blocks were written STORED (R221, R222, R229). -/
def boraxEncode (raw : List Byte) (elem line effort predict : Nat) (forced : List Nat) : List Byte × Nat :=
  let a := raw.toArray
  let blocks := encodeBlocks a elem line effort predict forced (a.size / 65536 + 1) 0
  let head := leBytes 0x31585242 4 ++ [1, BitVec.ofNat 8 elem, 0, 0] ++ leBytes line 4 ++ leBytes a.size 4
  let end_ := [0xFF, 0, 0, 0] ++ leBytes 0 4 ++ leBytes 0 4 ++ leBytes (crc32 raw).toNat 4
  (head ++ (blocks.flatMap fun b => b.1) ++ end_, (blocks.filter fun b => b.2).length)

end Sys2Proof.Machine
end

