-- ==== Sys2Proof/Machine/GalOps.lean ====
section
/-! DEFINITION. The Galena regions' shared operations: contexts, launches, tiles, kernel faults, units in service, caches (R115, R121 to R126, R130 to R132, R136). -/

namespace Sys2Proof.Machine

/-! Contexts, launches, blocks. -/

/-- The group context `c`, when a group runs in it. -/
def ctxOf (s : State) (c : CtxId) : Option RayCtx := s.ctxs.find? fun x => x.id == c

/-- A context put back. -/
def putCtx (s : State) (x : RayCtx) : State :=
  { s with ctxs := s.ctxs.map fun y => if y.id == x.id then x else y }

/-- Region Galena-g changed. -/
def setGal (s : State) (g : Fin 4) (f : Galena → Galena) : State := { s with gal := vUpd s.gal g f }

/-- A ray block changed. -/
def setBlock (s : State) (g : Fin 4) (b : Fin 12) (f : RayBlock → RayBlock) : State :=
  setGal s g fun x => { x with blocks := vUpd x.blocks b f }

/-- A ray block. -/
def blockOf (s : State) (g : Fin 4) (b : Fin 12) : RayBlock := (s.gal[g]).blocks[b]

/-- The launch with a number. -/
def launchOf (s : State) (g : Fin 4) (id : Nat) : Option Launch := (s.gal[g]).launches.find? fun l => l.id == id

/-- Identifier of region Galena-g (R11). -/
def galRegion (g : Fin 4) : Nat := 4 + g.val

/-! Units in service (R13, R14, R122, R136). -/

/-- A ray block is in service. -/
def rayBlockIn (s : State) (g : Fin 4) (b : Nat) : Bool := serves s (galRegion g) && !isQuarantined s (galRegion g) b

/-- A ray cell is in service. -/
def rayCellIn (s : State) (g : Fin 4) (b c : Nat) : Bool := rayBlockIn s g b && !isRetired s (galRegion g) b c

/-- Cells in service of a block. -/
def cellsOfBlock (s : State) (g : Fin 4) (b : Nat) : Nat := ((List.range 32).filter (rayCellIn s g b)).length

/-- C_n of R122: the ray cells in service in Galena-g, 0 while the region is not in service. -/
def cellsInService (s : State) (g : Fin 4) : Nat := sumNat ((List.range 12).map (cellsOfBlock s g))

/-- C of R122. -/
def cellsTotal (s : State) : Nat := sumNat ((List.finRange 4).map (cellsInService s))

/-- The lowest-numbered Galena region in service. -/
def lowestGalena (s : State) : Option (Fin 4) := (List.finRange 4).find? fun g => serves s (galRegion g)

/-! Kernel faults (R90, R115). -/

/-- A kernel fault of a cell, `n` occurrences: each is counted, and the cell raises the cause at most once per launch; a group that runs again raises none. -/
def kernelFault (s : State) (x : RayCtx) (cause : Nat) (counter : Nat → Nat) (arg n : Nat) : State :=
  if x.retry then s
  else
    let s := bump s (counter (galRegion x.id.gal)) n
    let mark := (x.id.blk.val, x.id.cell.val, cause, x.launch)
    if (s.gal[x.id.gal]).raised.contains mark then s
    else
      raise (setGal s x.id.gal fun g => { g with raised := mark :: g.raised }) 0 (galRegion x.id.gal) cause
        x.id.blk.val x.id.cell.val arg

/-! The constant block (R103). -/

/-- The address, rounded down to a multiple of 4, is below the block's length. -/
def constInRange (consts : List Byte) (a : Nat) : Bool := decide (a / 4 * 4 < consts.length)

/-- The 32-bit constant at an address rounded down to a multiple of 4; a byte at or above the length is 0. -/
def constWord (consts : List Byte) (a : Nat) : Word := BitVec.ofNat 32 (leAt consts (a / 4 * 4) 4)

/-! The end of a group (R104, R105, R126). -/

/-- Key of subpixel j of a group's line in its tile: 192 × line + 3 × pixel + colour (R124). -/
def outKey (group lane : Nat) : Nat := 192 * (group / 24) + 8 * (group % 24) + lane

/-- The tile run that a group belongs to. -/
def isRunOf (x : RayCtx) (t : TileRun) : Bool := t.tile == x.tile && t.launch == x.launch

/-- The group ends: every lane's last emitted value, or the fallback register's, leaves the cell for the tile; EMIT_MISSING is raised for lanes that had not emitted; the context is free (R104, R105, R125). -/
def groupEnd (s : State) (l : Launch) (x : RayCtx) : State :=
  let missing := sumNat ((List.finRange 8).map fun n => if (x.emitted[n]).isNone then 2 ^ n.val else 0)
  let vals := (List.finRange 8).map fun n =>
    match x.emitted[n] with
    | some v => v
    | none => emitValue .f32 ((x.v[Fin.ofNat 64 l.fallbackV])[n])
  let s := setBlock s x.id.gal x.id.blk fun b =>
    { b with tiles := b.tiles.map fun t =>
        if isRunOf x t then
          { t with
            ended := natInsert t.ended x.group
            out := (List.finRange 8).foldl (fun o n => smSet o (outKey x.group n.val) (vals.getD n.val 0)) t.out }
        else t }
  let s := { s with ctxs := s.ctxs.filter fun y => y.id != x.id }
  if missing = 0 then s else kernelFault s x 0x203 galKfaultEmit missing 1

/-! Caches (R130 to R132). -/

/-- An empty set. -/
def emptySet : CacheSet := ⟨Vector.replicate 16 none, 0, []⟩

/-- The set of an index. -/
def cacheSet (c : Cache) (i : Nat) : CacheSet := (smGet? c.sets i).getD emptySet

/-- A set changed. -/
def setCacheSet (c : Cache) (i : Nat) (x : CacheSet) : Cache := { c with sets := smSet c.sets i x }

/-- The way that holds a line. -/
def wayOf (x : CacheSet) (line : Nat) : Option (Fin 16) := (List.finRange 16).find? fun w => x.ways[w] == some line

/-- The tree's bits after an access to a way: on its path every node points away from it. -/
def plruTouch (bits : BitVec 15) (w : Nat) : BitVec 15 :=
  let go (acc : BitVec 15 × Nat) (level : Nat) : BitVec 15 × Nat :=
    let d := bitAt w (3 - level)
    let m : BitVec 15 := BitVec.ofNat 15 (2 ^ acc.2)
    (if d then acc.1 &&& ~~~ m else acc.1 ||| m, 2 * acc.2 + 1 + b2n d)
  ((List.range 4).foldl go (bits, 0)).1

/-- The way that the tree points to. -/
def plruVictim (bits : BitVec 15) : Nat :=
  let go (acc : Nat × Nat) (_ : Nat) : Nat × Nat :=
    let d := bits.getLsbD acc.2
    (2 * acc.1 + b2n d, 2 * acc.2 + 1 + b2n d)
  ((List.range 4).foldl go (0, 0)).1

/-- The way that a fill uses: the lowest way in use that holds nothing, else the tree's, else, when that one is disabled, the lowest enabled way. -/
def fillWay (x : CacheSet) : Option (Fin 16) :=
  let ok (w : Fin 16) : Bool := !x.disabled.contains w.val
  match (List.finRange 16).find? fun w => ok w && (x.ways[w]).isNone with
  | some w => some w
  | none =>
    let v := Fin.ofNat 16 (plruVictim x.plru)
    if ok v then some v else (List.finRange 16).find? ok

/-- A line looked up: present (its way becomes the most recent), or not. -/
def cacheLook (c : Cache) (sets line : Nat) : Option Cache :=
  let x := cacheSet c (line % sets)
  match wayOf x line with
  | some w => some (setCacheSet c (line % sets) { x with plru := plruTouch x.plru w.val })
  | none => none

/-- A line put into its set. -/
def cacheInstall (c : Cache) (sets line : Nat) : Cache :=
  let x := cacheSet c (line % sets)
  if (wayOf x line).isSome then c
  else match fillWay x with
    | none => c
    | some w => setCacheSet c (line % sets) { x with ways := x.ways.set w (some line), plru := plruTouch x.plru w.val }

/-- Every line invalid; disabled ways stay so (R131, R132). -/
def cacheInvalidate (c : Cache) : Cache :=
  { c with sets := (c.sets.filter fun e => !e.2.disabled.isEmpty).map fun e =>
      (e.1, { e.2 with ways := Vector.replicate 16 none }) }

/-- A cache after its region's reset or power-off: empty, nothing being fetched; a disabled way stays so until the next chip reset (R20, R132). -/
def cacheReset (c : Cache) : Cache :=
  { sets := (cacheInvalidate c).sets.map fun e => (e.1, { e.2 with plru := 0 }), drops := c.drops }

/-- The caches of a region after its reset or power-off. -/
def blocksReset (x : Galena) : Vector RayBlock 12 := x.blocks.map fun b => { cache := cacheReset b.cache }

/-- A line with an uncorrectable word leaves its way at time `now`; the fourth drop of a way position within 1 s disables it (R132). -/
def cacheDrop (c : Cache) (sets line now : Nat) : Cache × Option (Nat × Nat) :=
  let i := line % sets
  let x := cacheSet c i
  match wayOf x line with
  | none => (c, none)
  | some w =>
    let recent := (i, w.val, now) :: c.drops.filter fun d => decide (now < d.2.2 + 1000000000)
    let mine := recent.filter fun d => d.1 == i && d.2.1 == w.val
    let x := { x with
      ways := x.ways.set w none
      disabled := if 4 ≤ mine.length then natInsert x.disabled w.val else x.disabled }
    ({ setCacheSet c i x with drops := recent }, some (i, w.val))

/-- Sets of a sample cache (R130). -/
def sampleSets : Nat := 128
/-- Sets of a layer cache (R130). -/
def layerSets : Nat := 2048

/-- A sample cache has an outstanding miss left: 64 lines (R130). -/
def sampleRoom (c : Cache) : Bool := decide (c.missing.length < 64)

/-- A layer cache has an outstanding miss left for a line: 256 on each of the region's 4 router interfaces, by line address bits [4:3] (R130). -/
def layerRoom (c : Cache) (line : Nat) : Bool :=
  decide ((c.missing.filter fun l => bitsOf l 3 2 == bitsOf line 3 2).length < 256)

/-- A line is being fetched, or waits to be: a further request causes no second read (R130). -/
def lineAsked (c : Cache) (line : Nat) : Bool := c.missing.contains line || c.waiting.contains line

/-- A missed line is asked for where the limit leaves room, and waits otherwise (R130). -/
def askLine (c : Cache) (room : Bool) (line : Nat) : Cache :=
  if room then { c with missing := c.missing ++ [line], waiting := c.waiting.erase line }
  else { c with waiting := c.waiting ++ [line] }

/-- A request of a sample cache for a line that it misses: the layer cache answers or misses it in turn (R130). -/
def layerLook (s : State) (g : Fin 4) (line : Nat) : State :=
  let x := s.gal[g]
  match cacheLook x.cache layerSets line with
  | some c => setGal s g fun x => { x with cache := c }
  | none =>
    if lineAsked x.cache line then s
    else bump (setGal s g fun x => { x with cache := askLine x.cache (layerRoom x.cache line) line }) (galLcacheMiss (galRegion g))

/-- A cell's read of a line through its block's sample cache (R130). -/
def touchLine (s : State) (g : Fin 4) (b : Fin 12) (line : Nat) : State :=
  let x := blockOf s g b
  match cacheLook x.cache sampleSets line with
  | some c => setBlock s g b fun x => { x with cache := c }
  | none =>
    if lineAsked x.cache line then s
    else
      let room := sampleRoom x.cache
      let s := bump (setBlock s g b fun x => { x with cache := askLine x.cache room line }) (galScacheMiss (galRegion g))
      if room then layerLook s g line else s

/-- A miss that waited is asked for once the limit leaves room (R130). -/
def issueWaiting (s : State) (g : Fin 4) (b : Option (Fin 12)) : State :=
  match b with
  | some b =>
    let c := (blockOf s g b).cache
    match c.waiting with
    | line :: _ =>
      if sampleRoom c then layerLook (setBlock s g b fun x => { x with cache := askLine x.cache true line }) g line else s
    | [] => s
  | none =>
    match (s.gal[g]).cache.waiting.find? (layerRoom (s.gal[g]).cache) with
    | some line => setGal s g fun x => { x with cache := askLine x.cache true line }
    | none => s

/-- Reads of lines, in order. -/
def touchLines (s : State) (g : Fin 4) (b : Fin 12) (lines : List Nat) : State :=
  lines.foldl (fun s l => touchLine s g b l) s

end Sys2Proof.Machine
end

