-- ==== Sys2Proof/Machine/Sampler.lean ====
section
/-! DEFINITION. The layer sampler (R72, R73, R76, R81, R106 to R111). -/

namespace Sys2Proof.Machine

/-! fp32 arithmetic on bit patterns. -/

/-- fp32 addition (R93). -/
def sAdd (a b : Nat) : Nat := fAdd fp32 a b
/-- fp32 subtraction. -/
def sSub (a b : Nat) : Nat := fSub fp32 a b
/-- fp32 multiplication. -/
def sMul (a b : Nat) : Nat := fMul fp32 a b
/-- fp32 division. -/
def sDiv (a b : Nat) : Nat := fDiv fp32 a b
/-- An integer as fp32. -/
def sOf (n : Nat) : Nat := fOfNat fp32 n
/-- 0.5. -/
def sHalf : Nat := 0x3F000000
/-- 1. -/
def sOne : Nat := 0x3F800000

/-! Descriptors (R81). -/

/-- A layer descriptor's fields; fp32 fields as their bits. -/
structure LayerDesc where
  base : Nat
  kind : Nat
  format : Nat
  planes : Nat
  present : Bool
  width : Nat
  height : Nat
  xMin : Nat
  xMax : Nat
  yMin : Nat
  yMax : Nat
  zNear : Nat
  zFar : Nat
  viewCount : Nat
  viewCols : Nat
  uFirst : Nat
  uStep : Nat
deriving DecidableEq, Repr

/-- The descriptor of a slot of a layer table (R81). -/
def descOf (table : List Byte) (slot : Nat) : LayerDesc :=
  let o := 64 * slot
  { base := leAt table o 8
    kind := leAt table (o + 8) 1
    format := leAt table (o + 9) 1
    planes := leAt table (o + 10) 1
    present := bitAt (leAt table (o + 11) 1) 0
    width := leAt table (o + 12) 2
    height := leAt table (o + 14) 2
    xMin := leAt table (o + 0x10) 4
    xMax := leAt table (o + 0x14) 4
    yMin := leAt table (o + 0x18) 4
    yMax := leAt table (o + 0x1C) 4
    zNear := leAt table (o + 0x20) 4
    zFar := leAt table (o + 0x24) 4
    viewCount := leAt table (o + 0x28) 2
    viewCols := leAt table (o + 0x2A) 2
    uFirst := leAt table (o + 0x2C) 4
    uStep := leAt table (o + 0x30) 4 }

/-! Places in a layer buffer (R76, R108). -/

/-- Layer-tile columns of a width (R73). -/
def layerCols (width : Nat) : Nat := (width + 31) / 32
/-- Layer tiles of a layer (R73). -/
def layerTiles (width height : Nat) : Nat := layerCols width * layerCols height
/-- Offset of the ALPHA plane (R76). -/
def alphaAt (tiles : Nat) : Nat := 4096 * tiles
/-- Offset of the DEPTH plane (R76). -/
def depthAt (tiles planes : Nat) : Nat := tiles * (4096 + 1024 * (planes % 2))
/-- Offset of the TILE_INFO plane (R76). -/
def infoAt (tiles planes : Nat) : Nat := tiles * (4096 + 1024 * (planes % 2) + 2048 * b2n (bitAt planes 1))

/-- The layer tile that holds a pixel of the layer, and the pixel's index in it (R73, R76). -/
def pixelPlace (width px py : Nat) : Nat × Nat := (py / 32 * layerCols width + px / 32, py % 32 * 32 + px % 32)

/-! Reads, with what they leave behind: faults (slot, status), constant addresses out of range, lines read (R103, R111, R130). -/

/-- What the reads of an SMP leave behind, in order, and the region that reads. -/
structure SmpLog where
  region : Nat
  faults : List (Nat × Nat) := []
  consts : List Nat := []
  lines : List Nat := []
deriving DecidableEq, Repr

/-- A read of `n` bytes of a layer word: its value, or none when the 8-byte word's read ends in an error (R111). -/
def layerRead (s : State) (slot a n : Nat) (g : SmpLog) : Option Nat × SmpLog :=
  let st := readStatus s g.region (a / 8 * 8) 8
  let g := { g with lines := if g.lines.contains (a / 256) then g.lines else g.lines ++ [a / 256] }
  if st = 0 then (some (readLe s a n), g) else (none, { g with faults := g.faults ++ [(slot, st)] })

/-- A TILE_INFO entry: OCC, Z_LO, Z_HI; OCC 0b11 is PARTIAL, and an entry lost is PARTIAL from 0 to 65,535 (R73, R111). -/
def tileInfo (s : State) (slot : Nat) (d : LayerDesc) (tile : Nat) (g : SmpLog) : (Nat × Nat × Nat) × SmpLog :=
  let t := layerTiles d.width d.height
  match layerRead s slot (d.base + infoAt t d.planes + 8 * tile) 8 g with
  | (some e, g) => ((if e % 4 = 3 then 1 else e % 4, bitsOf e 32 16, bitsOf e 48 16), g)
  | (none, g) => ((1, 0, 65535), g)

/-! Footprints (R107). -/

/-- The footprint of a texel: fi0 and fj0 as integers, or none when every pixel is outside; the weights a and b. -/
structure Foot where
  base : Option (Int × Int)
  a : Nat
  b : Nat
  w : Nat
  h : Nat
  ox : Nat
  oy : Nat
deriving DecidableEq, Repr

/-- An fp32 value's floor as an integer; none for a NaN or a floor outside −2^24 to +2^24 (R107). -/
def footFloor (x : Nat) : Option Int :=
  if !fFinite fp32 x then none
  else
    let f := fToInt fp32 (fFloor fp32 x) (-33554432) 33554432
    if -16777216 ≤ f ∧ f ≤ 16777216 then some f else none

/-- The footprint of texel(d, view, x, y). -/
def footOf (d : LayerDesc) (view x y : Nat) : Foot :=
  let tiled := d.kind == 2
  let rows := (d.viewCount + d.viewCols - 1) / d.viewCols
  let w := if tiled then d.width / d.viewCols else d.width
  let h := if tiled then d.height / rows else d.height
  let ox := if tiled then view % d.viewCols * w else 0
  let oy := if tiled then view / d.viewCols * h else 0
  let fi := sSub (sDiv (sMul (sSub x d.xMin) (sOf w)) (sSub d.xMax d.xMin)) sHalf
  let fj := sSub (sDiv (sMul (sSub d.yMax y) (sOf h)) (sSub d.yMax d.yMin)) sHalf
  { base := match footFloor fi, footFloor fj with
      | some i, some j => some (i, j)
      | _, _ => none
    a := sSub fi (fFloor fp32 fi)
    b := sSub fj (fFloor fp32 fj)
    w, h, ox, oy }

/-- The four pixels of a footprint, at their place in the layer, or none outside the view; and their weights. -/
def footPixels (f : Foot) : List (Option (Nat × Nat) × Nat) :=
  let na := sSub sOne f.a
  let nb := sSub sOne f.b
  ([((0, 0), sMul na nb), ((1, 0), sMul f.a nb), ((0, 1), sMul na f.b), ((1, 1), sMul f.a f.b)] : List ((Int × Int) × Nat)).map
    fun (e : (Int × Int) × Nat) =>
      (match f.base with
       | none => none
       | some (i, j) =>
         let i := i + e.1.1
         let j := j + e.1.2
         if i < 0 ∨ (f.w : Int) - 1 < i ∨ j < 0 ∨ (f.h : Int) - 1 < j then none
         else some (f.ox + i.toNat, f.oy + j.toNat), e.2)

/-- pixel(): colour and alpha of a layer pixel whose tile is not EMPTY (R107, R108, R111). -/
def layerPixel (s : State) (slot : Nat) (d : LayerDesc) (p : Nat × Nat) (c : Nat) (g : SmpLog) : (Nat × Nat) × SmpLog :=
  let t := layerTiles d.width d.height
  let (tile, idx) := pixelPlace d.width p.1 p.2
  let (cw, g) := layerRead s slot (d.base + 4096 * tile + 4 * idx) 4 g
  let w := cw.getD 0
  let col := if d.format = 1 then sDiv (sOf (bitsOf w (8 * c) 8)) (sOf 255) else sDiv (sOf (bitsOf w (10 * c) 10)) (sOf 1023)
  if d.planes % 2 = 1 then
    let (aw, g) := layerRead s slot (d.base + alphaAt t + 1024 * tile + idx) 1 g
    ((col, sDiv (sOf (aw.getD 0)) (sOf 255)), g)
  else ((col, sOne), g)

/-- What a texel or a layer yields: premultiplied colour, opacity, the sample steps spent, and the log. -/
structure Sampled where
  col : Nat
  al : Nat
  steps : Nat
  log : SmpLog
deriving DecidableEq, Repr

/-- texel(d, view, x, y, c): one sample step, or none when the whole footprint is outside or in EMPTY tiles (R107, R110). -/
def texel (s : State) (slot : Nat) (d : LayerDesc) (view x y c : Nat) (g : SmpLog) : Sampled :=
  let px := footPixels (footOf d view x y)
  let (live, g) := px.foldl (fun (acc : List (Option (Nat × Nat) × Nat) × SmpLog) e =>
    match e.1 with
    | none => (acc.1 ++ [(none, e.2)], acc.2)
    | some p =>
      let (i, g) := tileInfo s slot d (pixelPlace d.width p.1 p.2).1 acc.2
      (acc.1 ++ [(if i.1 = 0 then none else some p, e.2)], g)) ([], g)
  if live.all fun e => e.1.isNone then ⟨0, 0, 0, g⟩
  else
    let (r, g) := live.foldl (fun (acc : (Nat × Nat) × SmpLog) e =>
      let ((col, al), g) := match e.1 with
        | none => ((0, 0), acc.2)
        | some p => layerPixel s slot d p c acc.2
      ((sAdd acc.1.1 (sMul e.2 (sMul al col)), sAdd acc.1.2 (sMul e.2 al)), g)) ((0, 0), g)
    ⟨r.1, r.2, 1, g⟩

/-! DEPTH_SURFACE (R109). -/

/-- zdepth(d, q). -/
def zDepth (d : LayerDesc) (q : Nat) : Nat :=
  sAdd d.zFar (sMul (sDiv (sOf q) (sOf 65535)) (sSub d.zNear d.zFar))

/-- depth(d, x, y): the bilinear interpolation of the DEPTH samples as z; outside the layer, and without a DEPTH plane, the sample is 0 (R108, R109, R111). -/
def depthAtPoint (s : State) (slot : Nat) (d : LayerDesc) (x y : Nat) (g : SmpLog) : Nat × SmpLog :=
  let t := layerTiles d.width d.height
  (footPixels (footOf { d with kind := 1 } 0 x y)).foldl (fun (acc : Nat × SmpLog) e =>
    let (q, g) := match e.1 with
      | none => (0, acc.2)
      | some p =>
        if bitAt d.planes 1 then
          let (tile, idx) := pixelPlace d.width p.1 p.2
          let (v, g) := layerRead s slot (d.base + depthAt t d.planes + 2048 * tile + 2 * idx) 2 acc.2
          (v.getD 0, g)
        else (0, acc.2)
    (sAdd acc.1 (sMul e.2 (zDepth d q)), g)) (0, g)

/-- The real number that an fp32 encoding holds. -/
def realOf (x : Nat) : Ratio := ratOf (fDecode { fp32 with flush := false } x)

/-- The z interval within [lo, hi] over which 32 k ≤ o + m z ≤ 32 k + 32, or none; closed. -/
def slabRange (o m : Ratio) (k : Nat) (lo hi : Ratio) : Option (Ratio × Ratio) :=
  let l := ratSub (ratInt (32 * k)) o
  let h := ratSub (ratInt (32 * k + 32)) o
  if m.n = 0 then (if ratLe l (ratInt 0) && ratLe (ratInt 0) h then some (lo, hi) else none)
  else
    let p := ratDiv l m
    let q := ratDiv h m
    let a := ratMax lo (ratMin p q)
    let b := ratMin hi (ratMax p q)
    if ratLe a b then some (a, b) else none

/-- floor of a rational. -/
def ratFloor (a : Ratio) : Int := a.n / (a.d : Int)

/-- A tile that the path visits: its index and the exact ends of its interval. -/
structure TileVisit where
  tile : Nat
  lo : Ratio
  hi : Ratio

/-- Front to back: larger upper end first, then larger index (R109). -/
def visitBefore (a b : TileVisit) : Bool := ratLt b.hi a.hi || (!ratLt a.hi b.hi && decide (b.tile < a.tile))

/-- A visit put into a list in order. -/
def visitInsert (v : TileVisit) : List TileVisit → List TileVisit
  | [] => [v]
  | w :: r => if visitBefore v w then v :: w :: r else w :: visitInsert v r

/-- Some indices from `a` to `b` within 0 to n − 1. -/
def clampRange (a b : Int) (n : Nat) : List Nat :=
  let lo := (max a 0).toNat
  let hi := (min b (n - 1 : Int)).toNat
  if b < 0 ∨ (n : Int) ≤ a then [] else (List.range (hi + 1 - lo)).map (· + lo)

/-- The tiles visited (R109), in exact arithmetic. A tile counts when the path stands in it, by floor(px / 32) and floor(py / 32), at the middle of its interval: so a path that only touches tiles at a corner or along an edge visits the one with the larger index. -/
def tileWalk (d : LayerDesc) (x0 y0 u w : Nat) : List TileVisit :=
  let vals := [x0, y0, u, w, d.xMin, d.xMax, d.yMin, d.yMax, d.zNear, d.zFar]
  if d.width = 0 ∨ d.height = 0 ∨ !vals.all (fFinite fp32) then []
  else
    let r := realOf
    let dx := ratSub (r d.xMax) (r d.xMin)
    let dy := ratSub (r d.yMax) (r d.yMin)
    if dx.n = 0 ∨ dy.n = 0 ∨ ratLt (r d.zNear) (r d.zFar) then []
    else
      let kx := ratDiv (ratInt d.width) dx
      let ky := ratDiv (ratInt d.height) dy
      let ox := ratMul (ratSub (r x0) (r d.xMin)) kx
      let mx := ratMul (r u) kx
      let oy := ratMul (ratSub (r d.yMax) (r y0)) ky
      let my := ratMul (ratSub (ratInt 0) (r w)) ky
      let lo := r d.zFar
      let hi := r d.zNear
      let at_ (o m z : Ratio) : Ratio := ratAdd o (ratMul m z)
      let cell (v : Ratio) : Int := ratFloor (ratDiv v (ratInt 32))
      let px1 := at_ ox mx lo
      let px2 := at_ ox mx hi
      let py1 := at_ oy my lo
      let py2 := at_ oy my hi
      let cols := layerCols d.width
      let rows := layerCols d.height
      let cs := clampRange (min (cell px1) (cell px2)) (max (cell px1) (cell px2)) cols
      let rs := clampRange (min (cell py1) (cell py2)) (max (cell py1) (cell py2)) rows
      let vs := rs.flatMap fun row => cs.filterMap fun col =>
        match slabRange ox mx col lo hi with
        | none => none
        | some (a, b) =>
          match slabRange oy my row a b with
          | none => none
          | some (a, b) =>
            let mid := ratDiv (ratAdd a b) (ratInt 2)
            if cell (at_ ox mx mid) = (col : Int) ∧ cell (at_ oy my mid) = (row : Int) then some ⟨row * cols + col, a, b⟩
            else none
      vs.foldr visitInsert []

/-- The bisection of the search: `n` refinement steps (R109). -/
def refineSurface (s : State) (slot : Nat) (d : LayerDesc) (x0 y0 u w : Nat) : Nat → Nat → Nat → SmpLog → Nat × Nat × SmpLog
  | 0, a, b, g => (a, b, g)
  | n + 1, a, b, g =>
    let m := sMul (sAdd a b) sHalf
    let (dm, g) := depthAtPoint s slot d (sAdd x0 (sMul u m)) (sAdd y0 (sMul w m)) g
    if fLt fp32 0 (sSub m dm) then refineSurface s slot d x0 y0 u w n m b g
    else refineSurface s slot d x0 y0 u w n a m g

/-- The search of surface() over the tiles still to visit; `steps` counts the steps spent (R109, R110). -/
def searchTiles (s : State) (slot : Nat) (d : LayerDesc) (x0 y0 u w c iters : Nat) : List TileVisit → Nat → SmpLog → Sampled
  | [], steps, g => ⟨0, 0, steps, g⟩
  | v :: r, steps, g =>
    let steps := steps + 1
    let ((occ, qlo, qhi), g) := tileInfo s slot d v.tile g
    if occ = 0 then searchTiles s slot d x0 y0 u w c iters r steps g
    else
      let a := fMin fp32 (ratRound fp32 v.hi) (zDepth d qhi)
      let b := fMax fp32 (ratRound fp32 v.lo) (zDepth d qlo)
      if fLt fp32 a b then searchTiles s slot d x0 y0 u w c iters r steps g
      else
        let steps := steps + 2 + iters
        let (da, g) := depthAtPoint s slot d (sAdd x0 (sMul u a)) (sAdd y0 (sMul w a)) g
        let (db, g) := depthAtPoint s slot d (sAdd x0 (sMul u b)) (sAdd y0 (sMul w b)) g
        let ha := sSub a da
        let hb := sSub b db
        if fLe fp32 ha 0 then
          let t := texel s slot d 0 (sAdd x0 (sMul u a)) (sAdd y0 (sMul w a)) c g
          { t with steps := steps + t.steps }
        else if fLt fp32 0 hb then searchTiles s slot d x0 y0 u w c iters r steps g
        else
          let (a, b, g) := refineSurface s slot d x0 y0 u w iters a b g
          let z := sMul (sAdd a b) sHalf
          let t := texel s slot d 0 (sAdd x0 (sMul u z)) (sAdd y0 (sMul w z)) c g
          { t with steps := steps + t.steps }

/-- sample_layer (R107, R110). A KIND that is none of the four is searched as the pseudocode's last line writes. -/
def sampleLayer (s : State) (slot : Nat) (d : LayerDesc) (x0 y0 u w c iters : Nat) (g : SmpLog) : Sampled :=
  if d.kind = 3 then texel s slot d 0 x0 y0 c g
  else if d.kind = 0 then texel s slot d 0 (sAdd x0 (sMul u d.zNear)) (sAdd y0 (sMul w d.zNear)) c g
  else if d.kind = 2 then
    if d.viewCount = 0 ∨ d.viewCols = 0 then ⟨0, 0, 0, g⟩
    else
      let t0 := if fnEq (fDecode fp32 d.uStep) (fDecode fp32 0) then 0 else sDiv (sSub u d.uFirst) d.uStep
      let t0 := if fLe fp32 0 t0 then t0 else 0
      let t := fMin fp32 t0 (sOf (d.viewCount - 1))
      let i := (fToInt fp32 (fFloor fp32 t) 0 65535).toNat
      let f := sSub t (sOf i)
      let p := texel s slot d i x0 y0 c g
      let q := texel s slot d (min (i + 1) (d.viewCount - 1)) x0 y0 c p.log
      ⟨sAdd p.col (sMul f (sSub q.col p.col)), sAdd p.al (sMul f (sSub q.al p.al)),
       if p.steps = 0 ∧ q.steps = 0 then 0 else 2, q.log⟩
  else searchTiles s slot d x0 y0 u w c iters (tileWalk d x0 y0 u w) 0 g

/-! SMP over the lanes (R106, R107, R110). -/

/-- One lane's pass over the sample list from entry n: the accumulators, the steps of each entry, the log. -/
def smpEntries (s : State) (l : Launch) (list stop x0 y0 u w c iters : Nat) :
    Nat → Nat → Nat → Nat → List Nat → SmpLog → (Nat × Nat) × List Nat × SmpLog
  | 0, _, col, al, steps, g => ((col, al), steps, g)
  | k + 1, n, col, al, steps, g =>
    if fLe fp32 stop al then ((col, al), steps, g)
    else
      let a := list + n
      let inside := decide (a < l.consts.length)
      let slot := if inside then (l.consts.getD a 0).toNat else 255
      let g := if inside then g else { g with consts := g.consts ++ [a] }
      if 64 ≤ slot then ((col, al), steps, g)
      else
        let d := descOf l.table slot
        if !d.present then smpEntries s l list stop x0 y0 u w c iters k (n + 1) col al (steps ++ [1]) g
        else
          let r := sampleLayer s slot d x0 y0 u w c iters g
          let t := sSub sOne al
          smpEntries s l list stop x0 y0 u w c iters k (n + 1)
            (sAdd col (sMul t r.col)) (sAdd al (sMul t r.al)) (steps ++ [1 + r.steps]) r.log

/-- What SMP leaves: the context with its accumulators, the steps charged beyond the issue, the log. -/
structure SmpResult where
  ctx : RayCtx
  steps : Nat
  faults : List (Nat × Nat)
  consts : List Nat
  lines : List Nat

/-- Entry by entry the larger of two step lists. -/
def maxSteps : List Nat → List Nat → List Nat
  | [], b => b
  | a, [] => a
  | x :: a, y :: b => max x y :: maxSteps a b

/-- SMP in every active lane (R106, R107); the charge takes, for each list entry, the largest number of steps of any active lane (R110). -/
def smpLanes (s : State) (l : Launch) (i : RayImm) (x : RayCtx) : SmpResult :=
  let imm := i.imm.toNat
  let reg (k : Nat) (n : Fin 8) : Nat := (vRead x (i.a + BitVec.ofNat 6 k) n).toNat
  let stop := sDiv (sOf (bitsOf imm 0 8)) (sOf 255)
  let go (acc : List (Fin 8 × Nat × Nat) × List Nat × SmpLog) (n : Fin 8) : List (Fin 8 × Nat × Nat) × List Nat × SmpLog :=
    if laneActive x i.pneg i.pidx n.val then
      let (r, st, g) := smpEntries s l (bitsOf imm 12 12) stop (reg 0 n) (reg 1 n) (reg 2 n) (reg 3 n)
        ((x.k[4])[n].toNat) (bitsOf imm 8 4) (bitsOf imm 24 8) 0
        (vRead x i.d n).toNat (vRead x (i.d + 1) n).toNat [] acc.2.2
      (acc.1 ++ [(n, r.1, r.2)], maxSteps acc.2.1 st, g)
    else acc
  let (res, steps, g) := (List.finRange 8).foldl go ([], [], { region := galRegion x.id.gal })
  let val (n : Fin 8) (f : Fin 8 × Nat × Nat → Nat) : Word := wNat (((res.find? fun e => e.1 == n).map f).getD 0)
  let y := vWrite x i.d i.pneg i.pidx fun n => val n fun e => e.2.1
  let y := vWrite y (i.d + 1) i.pneg i.pidx fun n => val n fun e => e.2.2
  ⟨y, sumNat steps, g.faults, g.consts, g.lines⟩

end Sys2Proof.Machine
end

