-- ==== Sys2Proof/Machine/Quartz.lean ====
section
/-! DEFINITION. Quartz: the parser of the Misoeth scene stream, the layer store and its fences, binds (R61 to R87, R549). -/

namespace Sys2Proof.Machine

/-- Quartz changed. -/
def setQuartz (s : State) (f : Quartz → Quartz) : State := { s with quartz := f s.quartz }

/-- A port changed. -/
def setQPort (s : State) (p : Fin 4) (f : QPort → QPort) : State :=
  setQuartz s fun q => { q with ports := vUpd q.ports p f }

/-- A port. -/
def qport (s : State) (p : Fin 4) : QPort := s.quartz.ports[p]

/-- A level-1 event of Quartz (R87). -/
def qtzEvent (s : State) (cause block arg : Nat) : State := raise s 1 3 cause block 0xFF arg

/-- STATE's code (R86). -/
def stateCode (x : PortState) : Nat :=
  match x with
  | .idle => 0
  | .active => 1
  | .stalled => 2
  | .refused => 3

/-- STATE set, in the port and in its status register (R86). -/
def setPortState (s : State) (p : Fin 4) (x : PortState) : State :=
  setF (setQPort s p fun q => { q with state := x }) (qtzPortStatus p.val) 8 2 (stateCode x)

/-! Layers and buffers (R76, R77). -/

/-- Layer `id` of a port changed. -/
def setLayer (s : State) (p : Fin 4) (id : Nat) (f : Layer → Layer) : State :=
  setQPort s p fun q => { q with layers := q.layers.map fun l => if l.decl.id = id then f l else l }

/-- Layer `id` of a port. -/
def layerOf (q : QPort) (id : Nat) : Option Layer := q.layers.find? fun l => l.decl.id == id

/-- The layer's buffer in a role. -/
def bufIn (l : Layer) (r : BufRole) : Option LayerBuf := l.bufs.find? fun b => b.role == r

/-- A layer's buffers in one role put into another (R77). -/
def moveRole (l : Layer) (a b : BufRole) : Layer :=
  { l with bufs := l.bufs.map fun x => if x.role = a then { x with role := b } else x }

/-- A FREE buffer holds no version. -/
def clearFree (l : Layer) : Layer :=
  { l with bufs := l.bufs.map fun x => if x.role = .free then { x with ver := none, lastFrame := none, reported := false } else x }

/-- The WRITING version of a layer changed. -/
def setWriting (s : State) (p : Fin 4) (id : Nat) (f : LayerVer → LayerVer) : State :=
  setLayer s p id fun l => { l with bufs := l.bufs.map fun b =>
    if b.role = .writing then { b with ver := b.ver.map f } else b }

/-- The WRITING version of a layer, with its buffer's base. -/
def writingVer (q : QPort) (id : Nat) : Option (Nat × LayerVer) :=
  match layerOf q id with
  | none => none
  | some l =>
    match bufIn l .writing with
    | none => none
    | some b => b.ver.map fun v => (b.base, v)

/-- Bytes of a buffer of a declared layer (R76). -/
def bufferBytes (d : LayerDecl) : Nat :=
  let t := layerTiles d.maxW d.maxH
  (t * (4096 + 1024 * (d.planes % 2) + 2048 * b2n (bitAt d.planes 1) + 8) + 4095) / 4096 * 4096

/-- The declared layers with their three buffers each, consecutively from `base` (R76). -/
def allocate : List LayerDecl → Nat → List Layer
  | [], _ => []
  | d :: r, base =>
    let n := bufferBytes d
    let buf (k : Nat) : LayerBuf := ⟨base + k * n, n, .free, none, none, false⟩
    ⟨d, [buf 0, buf 1, buf 2], []⟩ :: allocate r (base + 3 * n)

/-- Two buffers overlap. -/
def overlaps (a b : LayerBuf) : Bool := decide (a.base < b.base + b.size) && decide (b.base < a.base + a.size)

/-- Every buffer of an ended stream that is not yet released (R69). -/
def endedBufs (s : State) : List LayerBuf := (List.finRange 4).flatMap fun p => (qport s p).ended

/-- A FREE buffer that can be written: it overlaps no buffer of an ended stream (R77). -/
def freeBuf (s : State) (l : Layer) : Option LayerBuf :=
  l.bufs.find? fun b => b.role == .free && !(endedBufs s).any (overlaps b)

/-! Abandoning (R82). -/

/-- What is abandoned is counted and raised (R82, R87). -/
def tellAbandoned (s : State) (p : Fin 4) (id reason frame : Nat) : State :=
  qtzEvent (bump s (qtzPortAbandoned p.val)) 0x013 p.val (id % 256 + 256 * reason + 65536 * (frame % 65536))

/-- Number of the scene frame in progress. -/
def curFrame (s : State) (p : Fin 4) : Nat := ((qport s p).cur.map fun c => c.number).getD 0

/-- UNDECLARED: the scope is that unit alone, which is skipped (R82). -/
def abandonUnit (s : State) (p : Fin 4) (id : Nat) : State := tellAbandoned s p id 1 (curFrame s p)

/-- The rest of a layer's units in the scene frame in progress are passed over (R82). -/
def dropLayer (s : State) (p : Fin 4) (id : Nat) : State := setQPort s p fun q => { q with dropped := natInsert q.dropped id }

/-- MISMATCH: a version is abandoned with its LAYER_HEADER, before it has a buffer; the version of an older scene frame that is still WRITING stays (R82). -/
def abandonHeader (s : State) (p : Fin 4) (id : Nat) : State := tellAbandoned (dropLayer s p id) p id 2 (curFrame s p)

/-- The WRITING version of a layer is abandoned: its buffer becomes FREE, it is counted and raised (R77, R82, R87). -/
def abandon (s : State) (p : Fin 4) (id reason : Nat) : State :=
  match writingVer (qport s p) id with
  | none => s
  | some (_, v) =>
    let s := setLayer s p id fun l => clearFree (moveRole l .writing .free)
    let s := if ((qport s p).cur.map fun c => c.number) = some v.frame then dropLayer s p id else s
    tellAbandoned s p id reason v.frame

/-- Planes that the version must bring: COLOUR, then the declared ones (R74, R78). -/
def planesOf (planes : Nat) : List Nat :=
  0 :: (List.range 3).filterMap fun i => if bitAt planes i then some (i + 1) else none

/-- Bands of a plane (R74). -/
def bandsOf (h : LayerHdr) (plane : Nat) : Nat := if plane = 3 then 1 else (h.height + 31) / 32

/-- Every band of every declared plane is in a list of (plane, band). -/
def allBands (h : LayerHdr) (have_ : List (Nat × Nat)) : Bool :=
  (planesOf h.planes).all fun pl => (List.range (bandsOf h pl)).all fun b => have_.contains (pl, b)

/-- The versions of the scene frame in progress that are still WRITING are abandoned: those without their last band, or all of them (R82). -/
def closeFrame (s : State) (p : Fin 4) (reason : Nat) (every : Bool) : State :=
  let q := qport s p
  match q.cur with
  | none => s
  | some c =>
    let s := q.layers.foldl (fun s l =>
      match writingVer (qport s p) l.decl.id with
      | some (_, v) =>
        if v.frame = c.number && q.headers.contains l.decl.id && (every || !allBands v.hdr v.got) then abandon s p l.decl.id reason else s
      | none => s) s
    setQPort s p fun q => { q with cur := none, headers := [], dropped := [] }

/-- SEQUENCE: the scene frame in progress is abandoned, and units are skipped (R82). -/
def sequenceFail (s : State) (p : Fin 4) : State :=
  setQPort (closeFrame s p 6 true) p fun q => { q with skipping := true }

/-! Starting and ending a stream (R64 to R69). -/

/-- The declaration entries of a STREAM_START (R64). -/
def declsOf (u : List Byte) : List LayerDecl :=
  (List.range (leAt u 0x0A 1)).map fun i =>
    let o := 0x18 + 8 * i
    { id := leAt u o 1, kind := leAt u (o + 1) 1, format := leAt u (o + 2) 1, planes := leAt u (o + 3) 1 % 8
      maxW := leAt u (o + 4) 2, maxH := leAt u (o + 6) 2 }

/-- No value twice. -/
def noRepeat : List Nat → Bool
  | [] => true
  | a :: r => !r.contains a && noRepeat r

/-- The port's slot range, from the control fields in effect (R85). -/
def slotRange (s : State) (p : Fin 4) : Nat × Nat :=
  let c := (qport s p).ctrl
  (fld c 8 8, fld c 16 8)

/-- The fields of QTZ_PORTn_CTRL take effect: at a STREAM_START, or with a write where the port was, or now is, disabled (R85). -/
def ctrlTakes (s : State) (p : Fin 4) : State :=
  let w := readReg s (qtzPortCtrl p.val)
  setQPort s p fun q => { q with ctrl := w }

/-- Two slot ranges overlap. -/
def rangesMeet (a b : Nat × Nat) : Bool := decide (a.1 < b.1 + b.2) && decide (b.1 < a.1 + a.2) && a.2 != 0 && b.2 != 0

/-- The partition's base and bytes (R67, R76, R501). -/
def partitionOf (s : State) (p : Fin 4) : Nat × Nat :=
  (addr40 s (qtzPortLstoreBaseLo p.val) (qtzPortLstoreBaseHi p.val), (readReg s (qtzPortLstoreSize p.val)).toNat * 4096)

/-- LENGTH keeps R61. -/
def lengthOk (n : Nat) : Bool := n % 8 == 0 && decide (8 ≤ n) && decide (n ≤ 4194328)

/-- SCENE_ASPECT is in 0.05 to 20.0 (R64). -/
def aspectOk (x : Nat) : Bool :=
  fFinite fp32 x && ratLe ⟨1, 20⟩ (realOf x) && ratLe (realOf x) ⟨20, 1⟩

/-- The reason for which a STREAM_START is refused, tested in order; 0 for none (R65, R67). -/
def refusalOf (s : State) (p : Fin 4) (u : List Byte) : Nat :=
  let k := qtzPortCtrl p.val
  let major := leAt u 8 1
  let n := leAt u 0x0A 1
  let fit := leAt u 0x0B 1
  let range := (getF s k 8 8, getF s k 16 8)
  let ds := declsOf u
  let declOk (d : LayerDecl) : Bool :=
    decide (d.kind ≤ 3) && (major != 1 || decide (2 ≤ d.kind)) && decide (d.format ≤ 1) &&
    (major != 1 || d.planes == 0) &&
    decide (1 ≤ d.maxW) && decide (d.maxW ≤ 16384) && decide (1 ≤ d.maxH) && decide (d.maxH ≤ 16384) &&
    (bitAt d.planes 1 == (d.kind == 1))
  if major = 0 ∨ getF s k 1 2 < major then 1
  else if 64 < range.1 + range.2 || (List.finRange 4).any (fun o =>
      o != p && getB s (qtzPortCtrl o.val) 0 && rangesMeet range (slotRange s o)) then 2
  else if n = 0 ∨ (if major = 1 then 16 else 64) < n ∨ range.2 < n then 3
  else if !ds.all (fun d => decide (d.id < range.2)) || !noRepeat (ds.map fun d => d.id) then 4
  else if !ds.all declOk || decide (2 < fit) || (major == 1 && fit != 0) || !aspectOk (leAt u 0x0C 4) ||
      !lengthOk (leAt u 4 4) || leAt u 4 4 != 24 + 8 * n then 5
  else if (if major = 3 then 32 else 16) < leAt u 0x14 1 then 6
  else if (partitionOf s p).2 < sumNat (ds.map fun d => 3 * bufferBytes d) then 7
  else 0

/-- A STREAM_STATUS unit with its SEQ, which it gets when it is sent (R61, R68). -/
def statusUnit (seq : Nat) (x : StatusOut) : List Byte :=
  leBytes 3 2 ++ leBytes seq 2 ++ leBytes 16 4 ++ leBytes x.status 1 ++
  leBytes x.major 1 ++ leBytes x.minor 1 ++ leBytes x.vmax 1 ++ leBytes 0 4

/-- STREAM_STATUS waits to go out on CHANNEL 1; one that refuses has 0 for the accepted version (R68). -/
def sendStatus (s : State) (p : Fin 4) (status major minor : Nat) : State :=
  let vmax := getF s (qtzPortCtrl p.val) 1 2
  setQPort s p fun q => { q with statusOut := q.statusOut ++ [⟨status, major, minor, vmax⟩] }

/-- The port's stream ends: the scene frame in progress is abandoned; FREE, PENDING and WRITING buffers are released, BOUND and RETIRING ones when they become FREE; embedded audio ends (R69, R353). -/
def endStream (s : State) (p : Fin 4) : State :=
  let q := qport s p
  let keep := (q.layers.flatMap fun l => l.bufs).filter fun b => b.role == .bound || b.role == .retiring
  let s := setQPort s p fun q => { q with
    stream := none, layers := [], cur := none, headers := [], dropped := [], begun := []
    skipping := false, held := [], ended := q.ended ++ keep, begins := [], reported := 0, rateRaised := false }
  let s := setQuartz s fun x => { x with ingest := x.ingest.filter fun i => i.port != p }
  embedEnd (setF s (qtzPortStatus p.val) 12 12 0) p

/-- STREAM_START (R67, R549). -/
def startStream (s : State) (p : Fin 4) (u : List Byte) : State :=
  let s := ctrlTakes (endStream s p) p
  let s := setQPort s p fun q => { q with expSeq := 1 }
  let k := qtzPortCtrl p.val
  let major := leAt u 8 1
  let minor := leAt u 9 1
  let r := refusalOf s p u
  if r ≠ 0 then
    let s := setPortState (setF s (qtzPortStatus p.val) 24 8 r) p .refused
    sendStatus (qtzEvent s 0x012 p.val r) p r 0 0
  else
    let st : Stream := {
      major, minor, fit := leAt u 0x0B 1, aspect := BitVec.ofNat 32 (leAt u 0x0C 4), rate := leAt u 0x10 4
      audioChannels := leAt u 0x14 1
      cfg := { slotBase := getF s k 8 8, slotCount := getF s k 16 8, policyDefault := getF s k 4 2
               policyFromStream := getB s k 3, stallTimeout := getF s k 24 4 } }
    let base := ((partitionOf s p).1 + 4095) / 4096 * 4096
    let s := setQPort s p fun q => { q with stream := some st, layers := allocate (declsOf u) base }
    let s := setF (setF s (qtzPortStatus p.val) 12 4 major) (qtzPortStatus p.val) 16 8 minor
    let s := qtzEvent (setPortState s p .active) 0x011 p.val (major + 256 * minor)
    sendStatus s p 0 major minor

/-- STREAM_END (R69). -/
def stopStream (s : State) (p : Fin 4) : State := setPortState (endStream s p) p .idle

/-! Scene frames (R70, R84). -/

/-- The mean interval of the last 8 SCENE_FRAME_BEGIN units, judged (R84). -/
def measureRate (s : State) (p : Fin 4) (declared : Nat) : State :=
  let s := setQPort s p fun q => { q with begins := (s.now :: q.begins).take 8 }
  let q := qport s p
  let span := q.begins.headD 0 - q.begins.getLastD 0
  if q.begins.length < 8 ∨ span = 0 then s
  else
    let rate := (7 * 1000000000000 + span / 2) / span
    let far (ref : Nat) : Bool := decide (7000000000000 < (((span * ref : Nat) : Int) - 7000000000000).natAbs * 100)
    if declared = 0 then
      if q.reported = 0 then setQPort s p fun q => { q with reported := rate }
      else if far q.reported then qtzEvent (setQPort s p fun q => { q with reported := rate }) 0x016 p.val rate
      else s
    else if far declared then
      if q.rateRaised then s
      else qtzEvent (setQPort s p fun q => { q with rateRaised := true, reported := rate }) 0x016 p.val rate
    else setQPort s p fun q => { q with rateRaised := false }

/-- SCENE_FRAME_BEGIN (R70, R82). -/
def beginFrame (s : State) (p : Fin 4) (st : Stream) (u : List Byte) : State :=
  let s := closeFrame s p 5 false
  let f : SceneFrame := {
    number := leAt u 8 4, mask := leAt u 0x0C 8
    presentSec := if st.major < 3 then 0 else leAt u 0x18 8, presentNs := leAt u 0x20 4 }
  let s := setQPort s p fun q => { q with cur := some f, headers := [], dropped := [], begun := f :: q.begun }
  measureRate s p st.rate

/-- SCENE_FRAME_END (R63, R82). -/
def endFrame (s : State) (p : Fin 4) : State :=
  if (qport s p).cur.isNone then sequenceFail s p else closeFrame s p 5 false

/-! Layers (R71, R74, R77). -/

/-- A LAYER_HEADER's fields (R71). -/
def headerOf (u : List Byte) : LayerHdr where
  kind := leAt u 9 1
  format := leAt u 0x0A 1
  planes := leAt u 0x0B 1 % 8
  width := leAt u 0x0C 2
  height := leAt u 0x0E 2
  xMin := BitVec.ofNat 32 (leAt u 0x10 4)
  xMax := BitVec.ofNat 32 (leAt u 0x14 4)
  yMin := BitVec.ofNat 32 (leAt u 0x18 4)
  yMax := BitVec.ofNat 32 (leAt u 0x1C 4)
  zNear := BitVec.ofNat 32 (leAt u 0x20 4)
  zFar := BitVec.ofNat 32 (leAt u 0x24 4)
  policy := leAt u 0x28 1
  viewCount := leAt u 0x2A 2
  viewCols := leAt u 0x2C 2
  uFirst := BitVec.ofNat 32 (leAt u 0x30 4)
  uStep := BitVec.ofNat 32 (leAt u 0x34 4)

/-- A LAYER_HEADER keeps the declaration, R71 and the version (R82). -/
def headerOk (d : LayerDecl) (h : LayerHdr) (major : Nat) : Bool :=
  let rows := (h.viewCount + h.viewCols - 1) / h.viewCols
  h.kind == d.kind && h.format == d.format && h.planes == d.planes &&
  decide (1 ≤ h.width) && decide (h.width ≤ d.maxW) && decide (1 ≤ h.height) && decide (h.height ≤ d.maxH) &&
  fLt fp32 h.xMin.toNat h.xMax.toNat && fLt fp32 h.yMin.toNat h.yMax.toNat &&
  (decide (2 ≤ h.kind) || fLe fp32 h.zFar.toNat h.zNear.toNat) &&
  (major != 3 || decide (h.policy ≤ 3)) &&
  (h.kind != 2 || (decide (2 ≤ h.viewCount) && decide (h.viewCount ≤ 192) && decide (1 ≤ h.viewCols) &&
    decide (h.viewCols ≤ h.viewCount) && h.width % h.viewCols == 0 && h.height % rows == 0))

/-- What a unit comes to: taken, or held by flow control until a buffer can be written (R77). -/
inductive Taken where
  | done (s : State)
  | hold

/-- LAYER_HEADER (R63, R71, R77, R82). -/
def layerHeader (s : State) (p : Fin 4) (st : Stream) (u : List Byte) : Taken :=
  let q := qport s p
  let id := leAt u 8 1
  match q.cur with
  | none => .done (sequenceFail s p)
  | some c =>
    match layerOf q id with
    | none => .done (abandonUnit s p id)
    | some l =>
      if !bitAt c.mask id then .done (abandonUnit s p id)
      else if q.headers.contains id then .done (sequenceFail s p)
      else
        let h := headerOf u
        let ok := headerOk l.decl h st.major
        let note (s : State) : State :=
          setLayer (setQPort s p fun q => { q with headers := natInsert q.headers id }) p id fun l =>
            { l with policies := (c.number, h.policy, ok) :: l.policies }
        if !ok then .done (abandonHeader (note s) p id)
        else if (bufIn l .writing).isSome then .hold
        else match freeBuf s l with
          | none => .hold
          | some b =>
            let v : LayerVer := ⟨c.number, h, [], [], [], 0, s.quartz.stamp⟩
            let s := note (setQuartz s fun x => { x with stamp := x.stamp + 1 })
            .done (setLayer s p id fun l => { l with bufs := l.bufs.map fun x =>
              if x.base = b.base then { x with role := .writing, ver := some v, lastFrame := none, reported := false } else x })

/-- Bytes per pixel of a plane (R72). -/
def bppOf (plane : Nat) : Nat := [4, 1, 2].getD plane 8

/-- Bytes of a band (R74): none where the plane has no such band. -/
def bandBytes (h : LayerHdr) (plane band : Nat) : Option Nat :=
  if plane = 3 then (if band = 0 then some (8 * layerTiles h.width h.height) else none)
  else if band < (h.height + 31) / 32 then some (min 32 (h.height - 32 * band) * h.width * bppOf plane)
  else none

/-- Offset of a plane in its buffer (R76). -/
def planeAt (h : LayerHdr) (plane : Nat) : Nat :=
  let t := layerTiles h.width h.height
  match plane with
  | 0 => 0
  | 1 => alphaAt t
  | 2 => depthAt t h.planes
  | _ => infoAt t h.planes

/-- A band as its layer-tile row stands in the buffer: tile by tile, row-major, zero beyond the layer's edge (R76). -/
def tiledBand (h : LayerHdr) (plane band : Nat) (raw : List Byte) : List Byte :=
  let n := bppOf plane
  let a := raw.toArray
  let rows := min 32 (h.height - 32 * band)
  (List.range (layerCols h.width)).flatMap fun c => (List.range 32).flatMap fun y => (List.range 32).flatMap fun x =>
    let px := 32 * c + x
    (List.range n).map fun k => if px < h.width ∧ y < rows then a.getD ((y * h.width + px) * n + k) 0 else 0

/-- TILE_INFO entries as they are written: the reserved bits 0 (R73). -/
def cleanEntries (raw : List Byte) : List Byte :=
  (List.range (raw.length / 8)).flatMap fun i =>
    let e := leAt raw (8 * i) 8
    leBytes (e % 4 + e / 2 ^ 32 * 2 ^ 32) 8

/-- The tile entry that Quartz forms from a tile's samples in the buffer (R74). -/
def formEntry (s : State) (base : Nat) (h : LayerHdr) (row col : Nat) : Nat :=
  let tile := row * layerCols h.width + col
  let px := (List.range (min 32 (h.height - 32 * row))).flatMap fun y =>
    (List.range (min 32 (h.width - 32 * col))).map fun x => y * 32 + x
  let alphas := px.map fun i => (readByte s (base + planeAt h 1 + 1024 * tile + i)).toNat
  let depths := px.map fun i => readLe s (base + planeAt h 2 + 2048 * tile + 2 * i) 2
  let occ := if h.planes % 2 = 0 then 2 else if alphas.all (· == 0) then 0 else if alphas.all (· == 255) then 2 else 1
  let (lo, hi) := if h.kind = 1 then (depths.foldl min 65535, depths.foldl max 0) else (0, 65535)
  occ + 2 ^ 32 * lo + 2 ^ 48 * hi

/-- A write of the layer store: carried out, with an acknowledgement outstanding (R78). -/
def storeWrite (s : State) (p : Fin 4) (id stamp a : Nat) (bs : List Byte) : State :=
  let (st, s) := dramStore s a bs
  let s := setWriting s p id fun v => { v with acks := v.acks + 1 }
  addAck s (.layer p id stamp) st

/-- A decoded band is written; once band b of every declared plane is written, a layer without TILE_INFO gets the entries of row b (R74, R78). -/
def writeBand (s : State) (p : Fin 4) (id plane band : Nat) (raw : List Byte) : State :=
  match writingVer (qport s p) id with
  | none => s
  | some (base, v) =>
    let h := v.hdr
    let bytes := if plane = 3 then cleanEntries raw else tiledBand h plane band raw
    let at_ := base + planeAt h plane + (if plane = 3 then 0 else band * layerCols h.width * 1024 * bppOf plane)
    let s := storeWrite s p id v.stamp at_ bytes
    let s := setWriting s p id fun v => { v with written := v.written ++ [(plane, band)] }
    let now := v.written ++ [(plane, band)]
    if bitAt h.planes 2 || !(planesOf h.planes).all (fun pl => now.contains (pl, band)) then s
    else
      let entries := (List.range (layerCols h.width)).flatMap fun c => leBytes (formEntry s base h band c) 8
      let s := storeWrite s p id v.stamp (base + planeAt h 3 + 8 * band * layerCols h.width) entries
      setWriting s p id fun v => { v with tiles := natInsert v.tiles band }

/-- PLANE_DATA; a BORAX band that finds Borax out of service is a decode error (R63, R74, R82, R236). -/
def planeUnit (s : State) (p : Fin 4) (u : List Byte) : State :=
  let q := qport s p
  let id := leAt u 8 1
  let plane := leAt u 9 1
  let coding := leAt u 0x0A 1
  let band := leAt u 0x0C 2
  let pay := leAt u 0x10 4
  let size := leAt u 0x14 4
  match q.cur with
  | none => sequenceFail s p
  | some c =>
    if (layerOf q id).isNone || !bitAt c.mask id then abandonUnit s p id
    else if !q.headers.contains id then sequenceFail s p
    else if q.dropped.contains id then s
    else match writingVer q id with
      | none => s
      | some (_, v) =>
        if !(planesOf v.hdr.planes).contains plane then abandon s p id 2
        else if v.got.contains (plane, band) then abandon s p id 4
        else
          let payload := (u.drop 24).take pay
          if bandBytes v.hdr plane band != some size || decide (1 < coding) || pay == 0 || decide (4194304 < pay) ||
              decide (leAt u 4 4 < 24 + pay) || (coding == 0 && pay != size) then abandon s p id 3
          else
            let s := setWriting s p id fun v => { v with got := v.got ++ [(plane, band)] }
            if coding = 0 then writeBand s p id plane band payload
            else if !serves s 12 then abandon s p id 3
            else setQuartz s fun x => { x with ingest := x.ingest ++ [⟨p, id, v.stamp, plane, band, size, payload⟩] }

/-! The parser (R61 to R63, R549). -/

/-- A unit arrives again on a stalled port (R83). -/
def resumePort (s : State) (p : Fin 4) : State :=
  if (qport s p).state = .stalled then qtzEvent (setPortState s p .active) 0x015 p.val 0 else s

/-- The types of R62 that a source sends. -/
def knownType (ty : Nat) : Bool := [0x01, 0x02, 0x10, 0x11, 0x12, 0x13, 0x20].contains ty

/-- A whole unit whose end is known. A unit of another type is counted, also while units are skipped (R62). -/
def takeUnit (s : State) (p : Fin 4) (u : List Byte) : Taken :=
  let q := qport s p
  let ty := leAt u 0 1
  let seq := leAt u 2 2
  let next (s : State) : State := setQPort s p fun q => { q with expSeq := (seq + 1) % 65536 }
  if ty = 1 then .done (startStream s p u)
  else match q.stream with
    | none => .done s
    | some st =>
      let counted := if knownType ty then s else bump s (qtzPortUnknown p.val)
      if q.skipping then
        if ty = 0x10 then .done (beginFrame (next (setQPort s p fun q => { q with skipping := false })) p st u)
        else .done counted
      else if seq ≠ q.expSeq then .done (next (sequenceFail counted p))
      else
        let s := next counted
        match ty with
        | 0x02 => .done (stopStream s p)
        | 0x10 => .done (beginFrame s p st u)
        | 0x11 =>
          match layerHeader s p st u with
          | .done s => .done s
          | .hold => .hold
        | 0x12 => .done (planeUnit s p u)
        | 0x13 => .done (endFrame s p)
        | 0x20 => .done (embedUnit s p u st.audioChannels (st.major == 3))
        | _ => .done s

/-- A header of one of the two kinds that the search takes (R549). -/
def searchHit (bs : List Byte) : Bool :=
  let n := leAt bs 0x0A 1
  (leAt bs 0 1 == 0x10 && leAt bs 4 4 == 40) ||
  (leAt bs 0 1 == 0x01 && leAt bs 4 4 == 24 + 8 * n && decide (1 ≤ n) && decide (n ≤ 64))

/-- A unit whose end cannot be found: a STREAM_START is refused, a unit that would be skipped is passed over, any other is reason SEQUENCE; the parser then searches (R67, R82, R549). -/
def badLength (s : State) (p : Fin 4) (bs : List Byte) : State :=
  let q := qport s p
  let ty := leAt bs 0 1
  let s :=
    if ty = 1 then startStream s p (bs.take (24 + 8 * leAt bs 0x0A 1))
    else if q.stream.isNone then s
    else
      let s := if knownType ty then s else bump s (qtzPortUnknown p.val)
      if q.skipping then s
      else if knownType ty || leAt bs 2 2 != q.expSeq then sequenceFail s p
      else setQPort s p fun q => { q with expSeq := (leAt bs 2 2 + 1) % 65536 }
  setQPort s p fun q => { q with searching := true }

/-- The parser on the bytes that have arrived; a held unit and what follows it wait in the port (R77, R549). -/
def parseBytes (p : Fin 4) : Nat → List Byte → State → State
  | 0, _, s => s
  | fuel + 1, bs, s =>
    if bs.length < 8 then s
    else if (qport s p).searching && !searchHit bs then parseBytes p fuel (bs.drop 8) s
    else
      let s := setQPort s p fun q => { q with searching := false }
      let n := leAt bs 4 4
      if !lengthOk n || (leAt bs 0 1 == 1 && n != 24 + 8 * leAt bs 0x0A 1) then
        parseBytes p fuel (bs.drop 8) (badLength s p bs)
      else match takeUnit s p (sliceBytes bs 0 (min n (bs.length + 64))) with
        | .done s => parseBytes p fuel (bs.drop n) s
        | .hold => setQPort s p fun q => { q with held := q.held ++ [bs] }

/-- The bytes of CHANNEL 0 that the port's link has accepted: whole units go to the parser, in their order, until flow control holds one; the others wait in the receive buffer (R61, R77, R319, R549). -/
def feedUnits (p : Fin 4) : Nat → List Byte → State → State × List Byte
  | 0, bs, s => (s, bs)
  | fuel + 1, bs, s =>
    let searching := (qport s p).searching
    let first := leAt bs 0 1 == 1
    if !(qport s p).held.isEmpty || bs.length < 8 || ((searching || first) && bs.length < 12) then (s, bs)
    else if searching && !searchHit bs then feedUnits p fuel (bs.drop 8) s
    else
      let n := leAt bs 4 4
      if !lengthOk n || (first && n != 24 + 8 * leAt bs 0x0A 1) then
        if first && bs.length < 24 + 8 * leAt bs 0x0A 1 then (s, bs)
        else feedUnits p fuel (bs.drop 8) (badLength (resumePort s p) p bs)
      else if bs.length < n then (s, bs)
      else feedUnits p fuel (bs.drop n) (parseBytes p (n / 8 + 1) (bs.take n) (resumePort s p))

/-- What the receive buffer of CHANNEL 0 holds goes to the parser; a disabled port accepts no stream (R85, R319). -/
def feedRx (s : State) (p : Fin 4) : State :=
  let bs := (s.links.port[p]).rx[0]
  let (s, rest) := if getB s (qtzPortCtrl p.val) 0 then feedUnits p (bs.length / 8 + 1) bs s else (s, [])
  { s with links := { s.links with port := vUpd s.links.port p fun k => { k with rx := k.rx.set 0 rest } } }

/-- Units that flow control held are taken as far as buffers allow, then those behind them in the receive buffer (R77). -/
def retryPort (s : State) (p : Fin 4) : State :=
  let units := (qport s p).held
  if units.isEmpty then s
  else
    let s := setQPort s p fun q => { q with held := [] }
    feedRx (units.foldl (fun s bs =>
      if (qport s p).held.isEmpty then parseBytes p (bs.length / 8 + 1) bs s
      else setQPort s p fun q => { q with held := q.held ++ [bs] }) s) p

/-- A buffer has become FREE: every port that waits is looked at. -/
def retryHeld (s : State) : State := (List.finRange 4).foldl retryPort s

/-- Borax has decoded a band, or reports an error: the band is written, or the layer is abandoned with DECODE (R82). -/
def bandDecoded (s : State) (i : IngestItem) (out : Option (List Byte)) : State :=
  match writingVer (qport s i.port) i.layer with
  | none => s
  | some (_, v) =>
    if v.stamp ≠ i.stamp then s
    else match out with
      | some raw => if raw.length = i.size then writeBand s i.port i.layer i.plane i.band raw else retryHeld (abandon s i.port i.layer 3)
      | none => retryHeld (abandon s i.port i.layer 3)

/-- Bytes of a stream arrive at a port: a disabled port accepts no stream; behind a held unit they wait (R77, R83, R85). -/
def feedPort (s : State) (p : Fin 4) (bs : List Byte) : State :=
  if !serves s 3 || !getB s (qtzPortCtrl p.val) 0 then s
  else
    let s := resumePort s p
    if (qport s p).held.isEmpty then retryHeld (parseBytes p (bs.length / 8 + 1) bs s)
    else setQPort s p fun q => { q with held := q.held ++ [bs] }

/-- A write of QTZ_PORTn_CTRL: clearing ENABLE ends the stream; while ENABLE is 1 the other fields wait for the next STREAM_START (R69, R85). -/
def portCtrlWrite (s : State) (p : Fin 4) (v : Word) : State :=
  let was := getB s (qtzPortCtrl p.val) 0
  let s := writeKey s (qtzPortCtrl p.val) v
  let on := getB s (qtzPortCtrl p.val) 0
  let s := if was && on then s else ctrlTakes s p
  if on then s
  else
    let s := setQPort (stopStream s p) p fun q => { q with searching := false }
    retryHeld s

/-- No unit arrives any more: an ACTIVE port stalls; a stall time of 0 never stalls by time (R83, R85). -/
def stallPort (s : State) (p : Fin 4) (c : StallCause) : State :=
  let q := qport s p
  let never := match q.stream with
    | some st => st.cfg.stallTimeout == 0 && c == .timeout
    | none => true
  if q.state ≠ .active || never then s
  else qtzEvent (setPortState s p .stalled) 0x014 p.val (match c with | .timeout => 0 | .link => 1)

/-! Fences (R78). -/

/-- The slot of a layer of a port. -/
def slotOfLayer (q : QPort) (id : Nat) : Nat := ((q.stream.map fun x => x.cfg.slotBase).getD 0) + id

/-- Every band has been written, the tile entries too, and every write is acknowledged (R78). -/
def fenceReady (v : LayerVer) : Bool :=
  allBands v.hdr v.written && v.acks == 0 &&
  (bitAt v.hdr.planes 2 || decide ((v.hdr.height + 31) / 32 ≤ v.tiles.length))

/-- The fence bit of a slot (R78, R86). -/
def setFence (s : State) (slot : Nat) (b : Bool) : State :=
  setF s (if slot < 32 then qtzFenceLo else qtzFenceHi) (slot % 32) 1 (b2n b)

/-- LAYER_FENCE (R77, R78). -/
def layerFence (s : State) (p : Fin 4) (id : Nat) : State :=
  let q := qport s p
  match layerOf q id, writingVer q id with
  | some l, some (_, v) =>
    if !fenceReady v then s
    else
      let s := if (bufIn l .pending).isSome then bump s (qtzPortSkipped p.val) else s
      let s := setLayer s p id fun l => moveRole (clearFree (moveRole l .pending .free)) .writing .pending
      let slot := slotOfLayer q id
      let s := qtzEvent (setFence s slot true) 0x010 p.val (slot % 256 + 256 * (v.frame % 2 ^ 24))
      retryHeld s
  | _, _ => s

/-- A write of the layer store is acknowledged: one less to wait for, or the layer is abandoned with WRITE_ERROR (R78, R82). -/
def layerAck (s : State) (p : Fin 4) (id stamp status : Nat) : State :=
  match writingVer (qport s p) id with
  | none => s
  | some (_, v) =>
    if v.stamp ≠ stamp then s
    else if status ≠ 0 then retryHeld (abandon s p id 7)
    else setWriting s p id fun v => { v with acks := v.acks - 1 }

/-! Retiring (R69, R77). -/

/-- A RETIRING buffer whose last frame has been reported is FREE. -/
def freeReported (l : Layer) : Layer :=
  clearFree { l with bufs := l.bufs.map fun b => if b.role = .retiring ∧ b.reported then { b with role := .free } else b }

/-- Buffers of ended streams that are RETIRING and reported are released (R69). -/
def sweepEnded (s : State) (p : Fin 4) : State :=
  setQPort s p fun q => { q with
    ended := q.ended.filter fun b => !(b.role == .retiring && b.reported)
    layers := q.layers.map freeReported }

/-- FRAME_RENDERED has been reported for a frame: the buffers last bound to it are marked, and RETIRING ones become FREE (R77, R129). -/
def frameRendered (s : State) (frame : Nat) : State :=
  let mark (b : LayerBuf) : LayerBuf := if b.lastFrame = some frame then { b with reported := true } else b
  let s := (List.finRange 4).foldl (fun s p =>
    sweepEnded (setQPort s p fun q => { q with
      ended := q.ended.map mark
      layers := q.layers.map fun l => { l with bufs := l.bufs.map mark } }) p) s
  retryHeld s

/-! Binds (R75, R79 to R81). -/

/-- S of R75 for x and z, and for y. -/
def fitScale (s : State) (st : Stream) : Ratio × Ratio :=
  let hp : Ratio := ⟨(panelH s * panelPy s : Nat), panelW s * panelPx s⟩
  let r := ratDiv hp (realOf st.aspect.toNat)
  match st.fit with
  | 0 => (ratMin ⟨1, 1⟩ r, ratMin ⟨1, 1⟩ r)
  | 1 => (ratMax ⟨1, 1⟩ r, ratMax ⟨1, 1⟩ r)
  | _ => (⟨1, 1⟩, r)

/-- An fp32 field scaled, rounded once; a field that is not finite stays (R75). -/
def fitField (w : Word) (k : Ratio) : Nat :=
  if fFinite fp32 w.toNat then ratRound fp32 (ratMul (realOf w.toNat) k) else w.toNat

/-- The 64 bytes of a bound slot's descriptor; fields that the layer's kind ignores are open values, numbered by use `n` (R71, R75, R81). -/
def descriptorBytes (s : State) (st : Stream) (b : LayerBuf) (v : LayerVer) (p : Fin 4) (slot flags n : Nat) : List Byte :=
  let (kx, ky) := fitScale s st
  let h := v.hdr
  let z (w : Word) (i : Nat) : Nat := if h.kind < 2 then fitField w kx else Config.freeNat (10 + i) n
  let t (x i : Nat) : Nat := if h.kind = 2 then x else Config.freeNat (10 + i) n
  leBytes b.base 8 ++ leBytes h.kind 1 ++ leBytes h.format 1 ++ leBytes h.planes 1 ++ leBytes flags 1 ++
  leBytes h.width 2 ++ leBytes h.height 2 ++
  leBytes (fitField h.xMin kx) 4 ++ leBytes (fitField h.xMax kx) 4 ++ leBytes (fitField h.yMin ky) 4 ++
  leBytes (fitField h.yMax ky) 4 ++ leBytes (z h.zNear 0) 4 ++ leBytes (z h.zFar 1) 4 ++
  leBytes (t h.viewCount 2) 2 ++ leBytes (t h.viewCols 3) 2 ++ leBytes (t h.uFirst.toNat 4) 4 ++
  leBytes (t h.uStep.toNat 5) 4 ++ leBytes v.frame 4 ++ leBytes p.val 1 ++ leBytes slot 1 ++ leBytes 0 6

/-- The due scene frame at T_F (R79). -/
def dueScene (q : QPort) (tf : Nat) : Option SceneFrame :=
  q.begun.find? fun f => f.presentSec == 0 || decide (f.presentSec * 1000000000 + f.presentNs ≤ tf)

/-- A layer's policy at the bind: 1 REPEAT, 2 DROP, 3 HOLD (R65, R79). -/
def policyOf (st : Stream) (l : Layer) (due : Nat) : Nat :=
  let field := match l.policies.find? fun e => e.1 == due with
    | some e => e.2.1
    | none => ((l.policies.find? fun e => e.2.2).map fun e => e.2.1).getD 0
  if st.major = 3 ∧ st.cfg.policyFromStream ∧ 1 ≤ field ∧ field ≤ 3 then field else st.cfg.policyDefault + 1

/-- The fenced versions of a layer: PENDING and BOUND buffers. -/
def fencedBufs (l : Layer) : List LayerBuf := l.bufs.filter fun b => b.role == .pending || b.role == .bound

/-- A buffer holds the version of scene frame `f`. -/
def holdsFrame (b : LayerBuf) (f : Nat) : Bool := (b.ver.map fun v => v.frame) == some f

/-- The newest fenced version older than the due scene frame (R79 REPEAT). -/
def olderBuf (l : Layer) (due : Nat) : Option LayerBuf :=
  let older := (fencedBufs l).filter fun b => match b.ver with
    | some v => v.frame != due && frameGe due v.frame
    | none => false
  match older.find? (fun b => b.role == .pending) with
  | some b => some b
  | none => older.head?

/-- How a layer is bound: the buffer shown, its flags, and whether the slot counts in BIND_DONE (R79, R87). -/
def bindLayer (st : Stream) (l : Layer) (due : SceneFrame) (hold : Bool) : Option LayerBuf × Nat × Bool :=
  let inMask := bitAt due.mask l.decl.id
  let ready := (fencedBufs l).find? fun b => holdsFrame b due.number
  if hold then
    match bufIn l .bound with
    | some b => (some b, 4, true)
    | none => (none, 0, inMask)
  else if !inMask then (none, 0, false)
  else if (fencedBufs l).isEmpty then (none, 0, true)
  else match ready with
    | some b => (some b, 0, false)
    | none =>
      if policyOf st l due.number = 1 then
        match olderBuf l due.number with
        | some b => (some b, 2, true)
        | none => (none, 0, true)
      else (none, 0, true)

/-- A bound buffer takes its role: a PENDING one becomes BOUND and the old BOUND one RETIRING; its last frame is this one (R77). -/
def takeBuf (l : Layer) (b : LayerBuf) (frame : Nat) : Layer :=
  let l := if b.role = .pending then moveRole l .bound .retiring else l
  freeReported { l with bufs := l.bufs.map fun x =>
    if x.base = b.base then { x with role := .bound, lastFrame := some frame, reported := false } else x }

/-- What a bind adds up: descriptors (slot, bytes), slots whose fence bits go, the count of BIND_DONE. -/
structure BindSum where
  descs : List (Nat × List Byte)
  clear : List Nat
  count : Nat

/-- One slot of a port with a due scene frame (R79). -/
def bindSlot (p : Fin 4) (st : Stream) (due : SceneFrame) (hold : Bool) (frame : Nat) (a : State × BindSum) (i : Nat) : State × BindSum :=
  let (s, acc) := a
  let slot := st.cfg.slotBase + i
  match layerOf (qport s p) i with
  | none => (s, { acc with descs := acc.descs ++ [(slot, List.replicate 64 0)] })
  | some l =>
    let (b, flags, counts) := bindLayer st l due hold
    let acc := { acc with count := acc.count + b2n counts }
    match b with
    | none => (s, { acc with descs := acc.descs ++ [(slot, List.replicate 64 0)] })
    | some b =>
      match b.ver with
      | none => (s, { acc with descs := acc.descs ++ [(slot, List.replicate 64 0)] })
      | some v =>
        let d := descriptorBytes s st b v p slot (flags + 1) s.freeCtr
        let s := setLayer { s with freeCtr := s.freeCtr + 1 } p i fun l => takeBuf l b frame
        (s, { acc with descs := acc.descs ++ [(slot, d)], clear := acc.clear ++ [slot] })

/-- One port's slots (R79, R80). -/
def bindPort (frame tf : Nat) (a : State × BindSum) (p : Fin 4) : State × BindSum :=
  let (s, acc) := a
  let s := sweepEnded (setQPort s p fun q => { q with ended := q.ended.map fun b => if b.role = .bound then { b with role := .retiring } else b }) p
  let q := qport s p
  let absent (base count : Nat) : List (Nat × List Byte) :=
    (List.range count).filterMap fun i => if base + i < 64 then some (base + i, List.replicate 64 0) else none
  match q.stream with
  | none =>
    if !getB s (qtzPortCtrl p.val) 0 then (s, acc)
    else
      let (base, count) := slotRange s p
      (s, { acc with descs := acc.descs ++ absent base count })
  | some st =>
    match dueScene q tf with
    | none => (s, { acc with descs := acc.descs ++ absent st.cfg.slotBase st.cfg.slotCount })
    | some due =>
      let hold := q.layers.any fun l =>
        bitAt due.mask l.decl.id && !(fencedBufs l).any (fun b => holdsFrame b due.number) && policyOf st l due.number == 3
      (List.range st.cfg.slotCount).foldl (bindSlot p st due hold frame) (s, acc)

/-- LAYER_BIND: the bind that runs resolves every slot, writes the table and ends; a waiting request then runs (R79, R80, R87). -/
def layerBind (s : State) : State :=
  match s.quartz.bindRun with
  | none => s
  | some r =>
    let table := s.quartz.nextTable
    let (s, sum) := (List.finRange 4).foldl (bindPort r.frame (r.sec * 1000000000 + r.ns)) (s, ⟨[], [], 0⟩)
    let base := addr40 s qtzBindTableLo qtzBindTableHi + 4096 * table
    let (bad, s) := sum.descs.foldl (fun (a : Bool × State) d =>
      let (st, s) := dramStore a.2 (base + 64 * d.1) d.2
      (a.1 || st != 0, s)) (false, s)
    let s := sum.clear.foldl (fun s slot => setFence s slot false) s
    let s := qtzEvent s 0x017 0xFF (r.frame % 65536 + 65536 * table + 131072 * b2n bad + 2 ^ 24 * min 255 sum.count)
    let s := setQuartz s fun q => { q with bindRun := q.bindWait, bindWait := none, nextTable := 1 - table }
    retryHeld s

/-- A bind request: it runs, or waits in the place of one that waits (R80, R158). -/
def bindRequest (s : State) (r : BindReq) : State :=
  setQuartz s fun q => if q.bindRun.isNone then { q with bindRun := some r } else { q with bindWait := some r }

/-! The meanings. -/

/-- STREAM_START. -/
def execStreamStart (p : Fin 4) (unit : List Byte) (s : State) : Out := .next (feedPort s p unit)

/-- STREAM_END. -/
def execStreamEnd (p : Fin 4) (unit : List Byte) (s : State) : Out := .next (feedPort s p unit)

/-- PORT_ENABLE. -/
def execPortEnable (p : Fin 4) (q : Requester) (v : Word) (s : State) : Out :=
  .next (reqServes s q 3 fun s => portCtrlWrite s p v)

/-- UNKNOWN_UNIT. -/
def execUnknownUnit (p : Fin 4) (unit : List Byte) (s : State) : Out := .next (feedPort s p unit)

/-- SCENE_FRAME_BEGIN. -/
def execSceneFrameBegin (p : Fin 4) (unit : List Byte) (s : State) : Out := .next (feedPort s p unit)

/-- LAYER_HEADER. -/
def execLayerHeader (p : Fin 4) (unit : List Byte) (s : State) : Out := .next (feedPort s p unit)

/-- PLANE_DATA. -/
def execPlaneData (p : Fin 4) (unit : List Byte) (s : State) : Out := .next (feedPort s p unit)

/-- SCENE_FRAME_END. -/
def execSceneFrameEnd (p : Fin 4) (unit : List Byte) (s : State) : Out := .next (feedPort s p unit)

/-- AUDIO_UNIT. -/
def execAudioUnit (p : Fin 4) (unit : List Byte) (s : State) : Out := .next (feedPort s p unit)

/-- LAYER_FENCE. -/
def execLayerFence (p : Fin 4) (layer : Fin 64) (s : State) : Out :=
  .next (whenServes s 3 fun s => layerFence s p layer.val)

/-- PORT_STALLED. -/
def execPortStalled (p : Fin 4) (cause : StallCause) (s : State) : Out :=
  .next (whenServes s 3 fun s => stallPort s p cause)

/-- LAYER_BIND. -/
def execLayerBind (s : State) : Out := .next (whenServes s 3 layerBind)

end Sys2Proof.Machine
end

