-- ==== Sys2Proof/WellFormed.lean ====
section
/-! DEFINITION. Which operands spell an instruction: the ray profile's fields (R96 to R100, R106, R113). The frame profile's and the streams' checks follow in the same file. -/

namespace Sys2Proof

/-- Scalar operands name s0 to s15 (R97). -/
def rayScalarOk (i : RayReg) : Bool :=
  (!i.sa || decide (i.a.toNat < 16)) && (!i.sb || decide (i.b.toNat < 16))

/-- TYPE is one that the opcode table lists (R92, R99). -/
def rayTypeOk (ty : RayType) (allowed : List RayType) : Bool := allowed.contains ty

/-- A register-format instruction of two operands (R97, R99). -/
def rayReg2Ok (i : RayReg) (allowed : List RayType) : Bool := rayScalarOk i && rayTypeOk i.ty allowed

/-- A register-format instruction of one operand: B must be 0 (R99). -/
def rayReg1Ok (i : RayReg) (allowed : List RayType) : Bool := rayReg2Ok i allowed && i.b == 0

/-- An immediate-format vector instruction: under unorm10 IMM[31:10] is 0 (R97). -/
def rayImmOk (i : RayImm) (allowed : List RayType) : Bool :=
  (!i.sa || decide (i.a.toNat < 16)) && rayTypeOk i.ty allowed && (i.ty != .u10 || decide (i.imm.toNat < 1024))

/-- The predicate field is 0b0000 (R100). -/
def predZero (pneg : Bool) (pidx : BitVec 3) : Bool := !pneg && pidx == 0

/-- D names p1 to p7 (R100). -/
def predDest (d : BitVec 6) : Bool := decide (0 < d.toNat) && decide (d.toNat < 8)

/-- ORD and UNORD only under fp32 (R101). -/
def rayCondOk (cond : Nat) (ty : RayType) : Bool := decide (cond < 6) || ty == .f32

/-- A predicate instruction's fields (R100). -/
def rayPredOk (i : RayReg) : Bool :=
  predZero i.pneg i.pidx && predDest i.d && decide (i.a.toNat < 8) && decide (i.b.toNat < 8) && i.ty == .f32

/-- SMP's fields (R106). -/
def raySmpOk (i : RayImm) : Bool :=
  i.ty == .f32 && !i.sa && i.d.toNat % 2 == 0 && i.a.toNat % 4 == 0 &&
  decide (1 ≤ i.imm.toNat / 2 ^ 24) && decide (i.imm.toNat / 2 ^ 24 ≤ 64)

/-- The types f h i u. -/
def tyFHIU : List RayType := [.f32, .f16, .i32, .u10]
/-- The types f h i. -/
def tyFHI : List RayType := [.f32, .f16, .i32]
/-- The types f h. -/
def tyFH : List RayType := [.f32, .f16]
/-- The types f i u. -/
def tyFIU : List RayType := [.f32, .i32, .u10]

/-- A field names a g register (R143). -/
def frG (x : BitVec 6) : Bool := decide (x.toNat < 32)

/-- A field names a predicate (R143). -/
def frP (x : BitVec 6) : Bool := decide (x.toNat < 8)

/-- A register-format instruction of the frame profile over g registers (R142, R143). -/
def frRegOk (i : FrReg) : Bool := frG i.d && frG i.a && frG i.b && frG i.c

/-- A source alone: D, B and C are 0 (R145). -/
def frSrcOk (i : FrReg) : Bool := frRegOk i && i.d == 0 && i.b == 0 && i.c == 0

/-- An immediate-format instruction of the frame profile: bits [43:38] are 0 (R142). -/
def frImmOk (i : FrImm) : Bool := frG i.d && frG i.a && i.x == 0

/-- An instruction over predicates: D is written, the predicate field is 0b0000, and C, unused, names a g register (R143, R145). -/
def frPredOk (i : FrReg) : Bool := predDest i.d && frP i.a && frP i.b && frG i.c && predZero i.pneg i.pidx

/-- A semaphore instruction: IMM is 24 to 31 (R145). -/
def frSemOk (i : FrImm) : Bool := frG i.a && i.x == 0 && decide (24 ≤ i.imm.toNat) && decide (i.imm.toNat < 32)

/-- Which instructions of the two profiles an image may hold: the fields that R96 to R101, R106, R142 and R143 fix (R113, R165). A command that is no instruction has no such check. -/
def Instr.wf : Instr → Bool
  | .rayAdd _ i => rayReg2Ok i tyFHIU
  | .rayAddi _ i => rayImmOk i tyFHIU
  | .raySub _ i => rayReg2Ok i tyFHIU
  | .raySubi _ i => rayImmOk i tyFHIU
  | .rayMul _ i => rayReg2Ok i tyFHIU
  | .rayMuli _ i => rayImmOk i tyFHIU
  | .rayFma _ i => rayReg2Ok i tyFHI
  | .rayMin _ i => rayReg2Ok i tyFHIU
  | .rayMax _ i => rayReg2Ok i tyFHIU
  | .rayMini _ i => rayImmOk i tyFHIU
  | .rayMaxi _ i => rayImmOk i tyFHIU
  | .rayAbs _ i => rayReg1Ok i tyFHI
  | .rayNeg _ i => rayReg1Ok i tyFHI
  | .rayFloor _ i => rayReg1Ok i tyFH
  | .rayFract _ i => rayReg1Ok i tyFH
  | .rayRcp _ i => rayReg1Ok i tyFH
  | .rayRsq _ i => rayReg1Ok i tyFH
  | .raySqrt _ i => rayReg1Ok i tyFH
  | .rayAnd _ i => rayReg2Ok i [.i32]
  | .rayOr _ i => rayReg2Ok i [.i32]
  | .rayXor _ i => rayReg2Ok i [.i32]
  | .rayNot _ i => rayReg1Ok i [.i32]
  | .rayShl _ i => rayReg2Ok i [.i32]
  | .rayShr _ i => rayReg2Ok i [.i32]
  | .rayAsr _ i => rayReg2Ok i [.i32]
  | .rayAndi _ i => rayImmOk i [.i32]
  | .rayOri _ i => rayImmOk i [.i32]
  | .rayXori _ i => rayImmOk i [.i32]
  | .rayShli _ i => rayImmOk i [.i32]
  | .rayShri _ i => rayImmOk i [.i32]
  | .rayAsri _ i => rayImmOk i [.i32]
  | .rayMov _ i => rayReg1Ok i [.f32]
  | .rayMovi _ i => rayImmOk i tyFHIU && i.a == 0 && !i.sa
  | .rayMovk _ i => i.ty == .f32 && !i.sa && i.b == 0 && decide (i.a.toNat < 8)
  | .rayCvt _ i => rayReg2Ok i tyFHIU && decide (i.func.toNat < 4)
  | .raySel _ i => rayReg2Ok i [.f32] && decide (i.func.toNat < 8)
  | .rayCmp _ i => rayReg2Ok i tyFIU && predDest i.d && rayCondOk (i.func.toNat % 8) i.ty
  | .rayCmpi _ i => rayImmOk i tyFIU && predDest i.d && rayCondOk i.cond.toNat i.ty
  | .rayPand _ i => rayPredOk i
  | .rayPor _ i => rayPredOk i
  | .rayPxor _ i => rayPredOk i
  | .rayPnot _ i => rayPredOk i && i.b == 0
  | .rayPmovi _ i => predZero i.pneg i.pidx && predDest i.d && i.ty == .f32 && decide (i.imm.toNat < 256) && i.a == 0
  | .raySmovi _ i => i.ty == .f32 && i.a == 0 && decide (i.d.toNat < 16)
  | .raySadd _ i => i.ty == .f32 && i.sa && i.sb && decide (i.a.toNat < 16) && decide (i.b.toNat < 16) && decide (i.d.toNat < 16)
  | .raySaddi _ i => i.ty == .f32 && i.sa && decide (i.a.toNat < 16) && decide (i.d.toNat < 16)
  | .rayBrany _ i => i.a == 0
  | .rayBrall _ i => i.a == 0
  | .rayLoop _ i => decide (i.a.toNat < 16)
  | .rayLdc _ i => i.ty == .f32 && i.sa && decide (i.a.toNat < 16)
  | .rayLdcv _ i => i.ty == .f32 && !i.sa
  | .raySmp _ i => raySmpOk i
  | .rayEmit _ i => rayReg2Ok i tyFIU && i.d == 0 && i.b == 0
  | .rayEnd _ i => i.ty == .f32 && i.d == 0 && i.a == 0 && i.b == 0 && predZero i.pneg i.pidx
  | .fpAdd _ i => frRegOk i
  | .fpSub _ i => frRegOk i
  | .fpAnd _ i => frRegOk i
  | .fpOr _ i => frRegOk i
  | .fpXor _ i => frRegOk i
  | .fpShl _ i => frRegOk i
  | .fpShr _ i => frRegOk i
  | .fpMul _ i => frRegOk i
  | .fpMov _ i => frRegOk i && i.b == 0
  | .fpAddi _ i => frImmOk i
  | .fpAndi _ i => frImmOk i
  | .fpOri _ i => frImmOk i
  | .fpXori _ i => frImmOk i
  | .fpShli _ i => frImmOk i
  | .fpShri _ i => frImmOk i
  | .fpMovi _ i => frImmOk i && i.a == 0
  | .fpMovhi _ i => frImmOk i && i.a == 0
  | .fpCmp _ i => predDest i.d && frG i.a && frG i.b && i.c == 0
  | .fpCmpi _ i => predDest i.d && frG i.a && i.x.toNat % 4 == 0
  | .fpPand _ i => frPredOk i
  | .fpPor _ i => frPredOk i
  | .fpPxor _ i => frPredOk i
  | .fpPnot _ i => frPredOk i && i.b == 0
  | .fpLd _ i => frImmOk i
  | .fpSt _ i => frImmOk i
  | .fpLd32 _ i => frImmOk i
  | .fpSt32 _ i => frImmOk i
  | .fpRdreg _ i => frImmOk i
  | .fpWrreg _ i => frImmOk i
  | .fpWrblk _ i => frRegOk i && i.d == 0 && i.c == 0 && decide (1 ≤ i.func.toNat) && decide (i.func.toNat ≤ 32)
  | .fpBr _ i => i.a == 0
  | .fpCall _ i => i.a == 0
  | .fpRet _ i => i.a == 0 && i.offset == 0
  | .fpLoop _ i => frG i.a
  | .fpWaite _ i => frG i.d && frG i.a && frG i.b && frP i.c && decide (i.func.toNat < 4)
  | .fpEvclr _ i => frSrcOk i
  | .fpEvset _ i => frSrcOk i
  | .fpEvrd _ i => frRegOk i
  | .fpWaitt _ i => frRegOk i
  | .fpWaitl _ i => frRegOk i
  | .fpRdtime _ i => frRegOk i
  | .fpRdpos _ i => frRegOk i
  | .fpTset _ i => frRegOk i && decide (i.func.toNat < 4)
  | .fpLaunch _ i => frImmOk i && decide (i.imm.toNat < 2 ^ 22) && i.imm.toNat / 1024 % 1024 != 0
  | .fpBind _ i => frRegOk i && i.d == 0 && i.c == 0
  | .fpDma _ i => frImmOk i && i.d == 0 && decide (i.imm.toNat < 4)
  | .fpBrxj _ i => frImmOk i && i.d == 0 && decide (i.imm.toNat < 5)
  | .fpPwr _ i => frImmOk i && i.d == 0 && i.a == 0 && decide (i.imm.toNat < 2 ^ 17) && i.imm &&& 0x4007 == 0
  | .fpSemacq _ i => frSemOk i && i.d == 0
  | .fpSemtry _ i => frSemOk i && predDest i.d
  | .fpSemrel _ i => frSemOk i && i.d == 0
  | .fpCkpt _ i => frImmOk i && i.d == 0 && i.a == 0
  | _ => true

end Sys2Proof
end

