-- ==== Sys2Proof/Machine/RayCode.lean ====
section
/-! DEFINITION. The words of a ray kernel: the instruction that a 64-bit word spells (R96, R97, R99), for the check of a kernel (R113). -/

namespace Sys2Proof.Machine

/-- Field [lo + width - 1 : lo] of an instruction word. -/
def wfld (w : DWord) (lo width : Nat) : Nat := bitsOf w.toNat lo width

/-- The register format's fields (R96). -/
def rayRegOf (w : DWord) : RayReg where
  d := BitVec.ofNat 6 (wfld w 50 6)
  a := BitVec.ofNat 6 (wfld w 44 6)
  b := BitVec.ofNat 6 (wfld w 38 6)
  c := BitVec.ofNat 6 (wfld w 26 6)
  sa := bitAt w.toNat 25
  sb := bitAt w.toNat 24
  pneg := bitAt w.toNat 37
  pidx := BitVec.ofNat 3 (wfld w 34 3)
  ty := typeOfCode (wfld w 32 2)
  func := BitVec.ofNat 8 (wfld w 16 8)

/-- The immediate format's fields (R96). -/
def rayImmOf (w : DWord) : RayImm where
  d := BitVec.ofNat 6 (wfld w 50 6)
  a := BitVec.ofNat 6 (wfld w 44 6)
  sa := bitAt w.toNat 38
  pneg := bitAt w.toNat 37
  pidx := BitVec.ofNat 3 (wfld w 34 3)
  ty := typeOfCode (wfld w 32 2)
  imm := BitVec.ofNat 32 w.toNat
  cond := BitVec.ofNat 3 (wfld w 40 3)

/-- The branch format's fields (R96). -/
def rayBrOf (w : DWord) : RayBr where
  a := BitVec.ofNat 6 (wfld w 44 6)
  pneg := bitAt w.toNat 37
  pidx := BitVec.ofNat 3 (wfld w 34 3)
  offset := BitVec.ofNat 32 w.toNat

/-- The bits that the register format holds at zero (R96). -/
def rayRegZero (w : DWord) : Bool := wfld w 0 16 == 0

/-- The bits that the immediate format holds at zero (R96). -/
def rayImmZero (w : DWord) : Bool := wfld w 39 5 == 0

/-- The bits that the branch format holds at zero (R96). -/
def rayBrZero (w : DWord) : Bool := wfld w 50 6 == 0 && wfld w 38 6 == 0 && wfld w 32 2 == 0

/-- The instruction that a word of a ray kernel spells, in context `c`; none where no opcode of R99 has that value, or a bit that the format holds at zero is set. -/
def rayDecode (c : CtxId) (w : DWord) : Option Instr :=
  let r (f : CtxId → RayReg → Instr) : Option Instr := if rayRegZero w then some (f c (rayRegOf w)) else none
  let m (f : CtxId → RayImm → Instr) : Option Instr := if rayImmZero w then some (f c (rayImmOf w)) else none
  let b (f : CtxId → RayBr → Instr) : Option Instr := if rayBrZero w then some (f c (rayBrOf w)) else none
  match wfld w 56 8 with
  | 0x01 => r .rayAdd
  | 0x02 => m .rayAddi
  | 0x03 => r .raySub
  | 0x04 => m .raySubi
  | 0x05 => r .rayMul
  | 0x06 => m .rayMuli
  | 0x07 => r .rayFma
  | 0x08 => r .rayMin
  | 0x09 => r .rayMax
  | 0x0A => m .rayMini
  | 0x0B => m .rayMaxi
  | 0x0C => r .rayAbs
  | 0x0D => r .rayNeg
  | 0x0E => r .rayFloor
  | 0x0F => r .rayFract
  | 0x10 => r .rayRcp
  | 0x11 => r .rayRsq
  | 0x12 => r .raySqrt
  | 0x18 => r .rayAnd
  | 0x19 => r .rayOr
  | 0x1A => r .rayXor
  | 0x1B => r .rayNot
  | 0x1C => r .rayShl
  | 0x1D => r .rayShr
  | 0x1E => r .rayAsr
  | 0x20 => m .rayAndi
  | 0x21 => m .rayOri
  | 0x22 => m .rayXori
  | 0x23 => m .rayShli
  | 0x24 => m .rayShri
  | 0x25 => m .rayAsri
  | 0x28 => r .rayMov
  | 0x29 => m .rayMovi
  | 0x2A => r .rayMovk
  | 0x2B => r .rayCvt
  | 0x2C => r .raySel
  | 0x30 => r .rayCmp
  | 0x31 => if wfld w 43 1 == 0 && wfld w 39 1 == 0 then some (.rayCmpi c (rayImmOf w)) else none
  | 0x34 => r .rayPand
  | 0x35 => r .rayPor
  | 0x36 => r .rayPxor
  | 0x37 => r .rayPnot
  | 0x38 => m .rayPmovi
  | 0x40 => m .raySmovi
  | 0x41 => r .raySadd
  | 0x42 => m .raySaddi
  | 0x48 => b .rayBrany
  | 0x49 => b .rayBrall
  | 0x4A => b .rayLoop
  | 0x50 => m .rayLdc
  | 0x51 => m .rayLdcv
  | 0x60 => m .raySmp
  | 0x70 => r .rayEmit
  | 0x7F => r .rayEnd
  | 0xF0 => if wfld w 0 56 == 0 then some (.rayNop c) else none
  | _ => none

/-- The target of a branch at index `pc`, or none for an instruction that does not branch (R99, R102). -/
def rayTarget (i : Instr) (pc : Nat) : Option Int :=
  match i with
  | .rayBrany _ b => some (pc + b.offset.toInt)
  | .rayBrall _ b => some (pc + b.offset.toInt)
  | .rayLoop _ b => some (pc + b.offset.toInt)
  | _ => none

/-- A branch target lies from 0 to CODE_WORDS − 1 (R102). -/
def targetOk (t : Int) (words : Nat) : Bool := decide (0 ≤ t) && decide (t < words)

/-- The word at index `pc` of a kernel of `words` words passes check ENCODING (R113). -/
def rayWordOk (w : DWord) (pc words : Nat) : Bool :=
  match rayDecode ⟨0, 0, 0, 0⟩ w with
  | none => false
  | some i => i.wf && (match rayTarget i pc with | none => true | some t => targetOk t words)

end Sys2Proof.Machine
end

