-- ==== Sys2Proof/Machine/RayEngine.lean ====
section
/-! DEFINITION. The ray engine: launches, stripes, tiles, groups, the rendered stripe queue, hand-over (R112, R113, R117 to R135). -/

namespace Sys2Proof.Machine

/-! Stripe order (R120). -/

/-- Stripe (f, p, n) comes before (f', p', n') in stripe order; frame numbers by signed difference (R120, R155). -/
def stripeBefore (a b : Nat × Nat × Nat) : Bool :=
  if a.1 ≠ b.1 then frameGe b.1 a.1
  else if a.2.1 ≠ b.2.1 then decide (a.2.1 < b.2.1)
  else decide (a.2.2 < b.2.2)

/-- The stripe after one, in stripe order (R120). -/
def nextStripe (s : State) (x : Nat × Nat × Nat) : Nat × Nat × Nat :=
  if x.2.2 + 1 < panelStripes s then (x.1, x.2.1, x.2.2 + 1)
  else if x.2.1 + 1 < panelN s then (x.1, x.2.1 + 1, 0)
  else ((x.1 + 1) % 2 ^ 32, 0, 0)

/-- The key of a stripe. -/
def stripeKey (x : Stripe) : Nat × Nat × Nat := (x.frame, x.phase, x.num)

/-- The stripe of a tile. -/
def tileStripe (t : TileId) : Nat × Nat × Nat := (t.frame, t.phase, t.stripe)

/-- The rendered stripe queue changed. -/
def setStripes (s : State) (f : StripeQueue → StripeQueue) : State := { s with stripes := f s.stripes }

/-- A stripe's record. -/
def stripeOf (s : State) (k : Nat × Nat × Nat) : Option Stripe := s.stripes.open_.find? fun x => stripeKey x == k

/-- A stripe's record changed. -/
def setStripe (s : State) (k : Nat × Nat × Nat) (f : Stripe → Stripe) : State :=
  setStripes s fun q => { q with open_ := q.open_.map fun x => if stripeKey x = k then f x else x }

/-- Tile columns of the panel: W_t of R122. -/
def tileColumns (s : State) : Nat := panelW s / 64

/-- The stripe's deadline has passed (R119). -/
def stripePast (s : State) (k : Nat × Nat × Nat) : Bool :=
  match s.stripes.past with
  | none => false
  | some p => k == p || stripeBefore k p

/-- GAL_LAUNCH_STATUS shows the oldest open stripe: a stripe is open until its deadline (R121, R128, R137). -/
def showOldest (s : State) : State :=
  match s.stripes.open_.find? fun x => !stripePast s (stripeKey x) with
  | none => s
  | some x => (List.finRange 4).foldl (fun s g =>
      setF (setF s (galLaunchStatus (galRegion g)) 12 2 x.phase) (galLaunchStatus (galRegion g)) 0 10 x.num) s

/-! Launches (R112, R113, R117 to R121). -/

/-- A launch covers a stripe. -/
def covers (l : Launch) (k : Nat × Nat × Nat) : Bool :=
  l.record.frame.toNat == k.1 && l.record.phase.toNat == k.2.1 && decide (l.record.first.toNat ≤ k.2.2) &&
  decide (k.2.2 < l.record.first.toNat + l.record.count.toNat) && !l.dropped.contains k.2.2

/-- RANGE (R119). -/
def launchRange (s : State) (r : LaunchRec) : Bool :=
  decide (panelN s ≤ r.phase.toNat) || decide (panelStripes s < r.first.toNat + r.count.toNat) ||
  r.kernel.toNat % 64 != 0 || r.table.toNat % 4096 != 0 || r.const.toNat % 4 != 0 || decide (4096 < r.constLen.toNat)

/-- The first instruction of a kernel that check ENCODING refuses (R113). -/
def badWord (code : List DWord) : Option Nat :=
  (List.range code.length).find? fun i => !rayWordOk (code.getD i 0) i code.length

/-- What a region reads of a launch: header, code, table, constants, and the status of the reads, 0 or the first error (R113, R121). -/
structure KernelRead where
  head : List Byte
  code : List DWord
  table : List Byte
  consts : List Byte
  status : Nat

/-- The ranges of DRAM that a launch's acceptance reads, each once: header, code, layer table, constants (R121). -/
def kernelRanges (s : State) (r : LaunchRec) : List (Nat × Nat) :=
  [(r.kernel.toNat, 64), (r.kernel.toNat + 64, 8 * min (readLe s (r.kernel.toNat + 8) 4) 4096),
    (r.table.toNat, 4096), (r.const.toNat, r.constLen.toNat)]

/-- The reads of a launch by Galena-g (R113, R121). -/
def readKernel (s : State) (g : Fin 4) (r : LaunchRec) : KernelRead :=
  let head := readBytes s r.kernel.toNat 64
  let words := min (leAt head 8 4) 4096
  let sts := (kernelRanges s r).map fun e => readStatus s (galRegion g) e.1 e.2
  { head
    code := (List.range words).map fun i => BitVec.ofNat 64 (readLe s (r.kernel.toNat + 64 + 8 * i) 8)
    table := readBytes s r.table.toNat 4096
    consts := readBytes s r.const.toNat r.constLen.toNat
    status := (sts.find? (· != 0)).getD 0 }

/-- The reason of R113, 0 for none, and the index of the failing instruction. -/
def kernelCheck (r : LaunchRec) (k : KernelRead) : Nat × Nat :=
  let h := k.head
  let words := leAt h 8 4
  if k.status ≠ 0 then (8, 0)
  else if leAt h 0 4 != 0x524B5341 || leAt h 6 2 != 64 || leAt h 0x13 1 != 0 || !(h.drop 0x16).all (· == 0) then (1, 0)
  else if leAt h 4 1 ≠ 1 ∨ 2 < leAt h 5 1 then (2, 0)
  else if words = 0 ∨ 4096 < words ∨ words ≤ leAt h 0xC 4 then (3, 0)
  else match badWord k.code with
    | some i => (4, i)
    | none =>
      if leAt h 0x10 2 = 0 ∨ r.allowance.toNat < leAt h 0x10 2 then (5, 0)
      else if 4096 < leAt h 0x14 2 ∨ r.constLen.toNat < leAt h 0x14 2 then (6, 0)
      else if 63 < leAt h 0x12 1 then (7, 0)
      else (0, 0)

/-- LAUNCH_DROPPED for the stripes of a launch that are dropped: each counted, the event once (R119, R138). -/
def launchDropped (s : State) (g : Fin 4) (reason first phase n : Nat) : State :=
  if n = 0 then s
  else
    raise (bump s (galLaunchDropped (galRegion g)) n) 2 (galRegion g) 0x222 0xFF 0xFF
      (reason + 256 * (first % 1024) + 2 ^ 18 * (phase % 4))

/-- LAUNCH_RECORD: the region accepts a record (R113, R119, R121, R137). -/
def acceptLaunch (s : State) (g : Fin 4) (r : LaunchRec) : State :=
  if !serves s (galRegion g) then s
  else
    let s := setGal s g fun x => { x with queue := x.queue.erase r }
    let s := setF s (galLaunchStatus (galRegion g)) 16 16 r.allowance.toNat
    if launchRange s r then launchDropped s g 1 r.first.toNat r.phase.toNat r.count.toNat
    else
      let nums := (List.range r.count.toNat).map (· + r.first.toNat)
      let key (n : Nat) : Nat × Nat × Nat := (r.frame.toNat, r.phase.toNat, n)
      let past := nums.filter fun n => stripePast s (key n)
      let beyond := nums.filter fun n => !past.contains n && (s.gal[g]).launches.any fun l => covers l (key n)
      let dropped := past ++ beyond
      let first := dropped.foldl min (dropped.headD 0)
      let s := launchDropped s g (if past.contains first then 3 else 2) first r.phase.toNat dropped.length
      let k := readKernel s g r
      let s := (kernelRanges s r).foldl (fun s e => poisonSeen s (galRegion g) e.1 e.2) s
      let (reason, idx) := kernelCheck r k
      let s :=
        if reason = 0 then s
        else raise (bump s (galKfaultRefused (galRegion g))) 2 (galRegion g) 0x210 0xFF 0xFF
          (reason + 256 * (if reason = 8 then k.status else 0) + 65536 * idx)
      let s := setGal s g fun x => { x with
        nextLaunch := x.nextLaunch + 1
        launches := x.launches ++ [{
          id := x.nextLaunch, record := r, dropped, refused := reason, code := k.code
          entry := leAt k.head 0xC 4, budget := leAt k.head 0x10 2, fallbackV := leAt k.head 0x12 1
          consts := k.consts, table := k.table }] }
      if dropped.length < nums.length then calLaunched s r.frame.toNat r.phase.toNat else s

/-! Stripes open (R122, R127). -/

/-- The owners of `n` columns by R122: column index and region, from the cells in service of the four regions. -/
def divide (n : Nat) (cells : List Nat) : List (Nat × Nat) :=
  let c := sumNat cells
  if c = 0 then []
  else (List.range n).filterMap fun i =>
    ((List.range 4).find? fun g =>
      let p := sumNat (cells.take g)
      decide (n * p / c ≤ i) && decide (i < n * (p + cells.getD g 0) / c)).map fun g => (i, g)

/-- C_0 to C_3 (R122). -/
def cellCounts (s : State) : List Nat := (List.finRange 4).map (cellsInService s)

/-- A tile put into a region's queue in its place: by stripe order, behind the handed-back tiles of its stripe, then by column (R123). -/
def queueInsert (t : TileId) (back : List TileId) : List TileId → List TileId
  | [] => [t]
  | x :: r =>
    if stripeBefore (tileStripe t) (tileStripe x) || (tileStripe t == tileStripe x && !back.contains x && decide (t.col < x.col)) then t :: x :: r
    else x :: queueInsert t back r

/-- A handed-back tile put ahead of the tiles of its stripe (R123). -/
def queueBack (t : TileId) : List TileId → List TileId
  | [] => [t]
  | x :: r =>
    if stripeBefore (tileStripe t) (tileStripe x) || tileStripe t == tileStripe x then t :: x :: r
    else x :: queueBack t r

/-- A stripe opens: its columns are divided, its tiles stand in their regions' queues, and a throttle step decided before takes effect (R122, R123, R127, R387). -/
def openStripe (s : State) (k : Nat × Nat × Nat) : State :=
  if (stripeOf s k).isSome then s
  else
    let owner := divide (tileColumns s) (cellCounts s)
    let st : Stripe := ⟨k.1, k.2.1, k.2.2, owner, [], false, false, 0⟩
    let s := setStripes s fun q => { q with open_ := q.open_ ++ [st] }
    let s := { s with therm := { s.therm with stepIn := getF s sltThermStatus 29 3 } }
    let s := owner.foldl (fun s o =>
      setGal s (Fin.ofNat 4 o.2) fun x => { x with tileQ := queueInsert ⟨k.1, k.2.1, k.2.2, o.1⟩ x.back x.tileQ }) s
    showOldest s

/-! Completion (R126 to R129). -/

/-- The stripe is the last of its frame (R129). -/
def lastOfFrame (s : State) (k : Nat × Nat × Nat) : Bool :=
  k.2.1 + 1 == panelN s && k.2.2 + 1 == panelStripes s

/-- A stripe has become complete: with the last one of a frame, FRAME_RENDERED is raised and Quartz frees buffers (R77, R129). -/
def stripeDone (s : State) (k : Nat × Nat × Nat) : State :=
  let s := setStripe s k fun x => { x with complete := true }
  if !lastOfFrame s k then s
  else match lowestGalena s with
    | none => s
    | some g => frameRendered (raise s 1 (galRegion g) 0x223 0xFF 0xFF k.1) k.1

/-- Words of a stripe on the panel (R126). -/
def stripeWords (s : State) : Nat := tileColumns s * 8 * 16

/-- Key of a word in the ring. -/
def wordKey (line col word : Nat) : Nat := (line * 240 + col) * 8 + word

/-- The place that a word's position tag names: line [6:3], tile column [14:7], word [2:0] (R126). -/
def tagKey (v : BitVec 256) : Nat :=
  let tag := bitsOf v.toNat 240 16
  wordKey (bitsOf tag 3 4) (bitsOf tag 7 8) (bitsOf tag 0 3)

/-- A word reaches the ring: discarded when the stripe is late or unknown; the last word for a position stays (R127, R128, R134). -/
def ringWord (s : State) (k : Nat × Nat × Nat) (v : BitVec 256) : State :=
  setStripe s k fun x => if x.late then x else { x with words := smSet x.words (tagKey v) v }

/-- The ring line that line L of a stripe uses is free: Obsidian has taken line L of the stripe two before, whose record is kept until its last line is taken (R127). -/
def ringFree (s : State) (k : Nat × Nat × Nat) (line : Nat) : Bool :=
  match s.stripes.open_.find? fun x => nextStripe s (nextStripe s (stripeKey x)) == k with
  | none => true
  | some x => decide (line < x.taken)

/-- The launches whose stripes' deadlines are all past are finished. -/
def dropLaunches (s : State) : State :=
  (List.finRange 4).foldl (fun s g =>
    let old := ((s.gal[g]).launches.filter fun l =>
      stripePast s (l.record.frame.toNat, l.record.phase.toNat, l.record.first.toNat + l.record.count.toNat - 1)).map fun l => l.id
    if old.isEmpty then s
    else setGal s g fun x => { x with
      launches := x.launches.filter fun l => !old.contains l.id
      raised := x.raised.filter fun r => !old.contains r.2.2.2
      blocks := x.blocks.map fun b => { b with launches := b.launches.filter fun i => !old.contains i } }) s

/-- A stripe's tiles are cancelled: groups in cells, tiles in blocks and queues, space in buffers (R128). -/
def cancelStripe (s : State) (k : Nat × Nat × Nat) : State :=
  let s := { s with ctxs := s.ctxs.filter fun x => tileStripe x.tile != k }
  (List.finRange 4).foldl (fun s g => setGal s g fun x => { x with
    tileQ := x.tileQ.filter fun t => tileStripe t != k
    back := x.back.filter fun t => tileStripe t != k
    lost := x.lost.filter fun e => e.2.1 != k
    blocks := x.blocks.map fun b => { b with tiles := b.tiles.filter fun t => tileStripe t.tile != k } }) s

/-- Why a stripe is late: 1 NOT_LAUNCHED, 2 REFUSED, 3 INCOMPLETE (R122, R138). -/
def lateReason (s : State) (st : Stripe) : Nat :=
  let ls := (List.finRange 4).flatMap fun g =>
    if serves s (galRegion g) then (s.gal[g]).launches.filter fun l => covers l (stripeKey st) else []
  if st.owner.isEmpty || ls.isEmpty then 1 else if ls.any fun l => l.refused != 0 then 2 else 3

/-- Tile columns of which a word is missing (R138). -/
def missingCols (s : State) (st : Stripe) : List Nat :=
  (List.range (tileColumns s)).filter fun c =>
    !((List.range 16).all fun l => (List.range 8).all fun w => (smGet? st.words (wordKey l c w)).isSome)

/-- The stripe deadline: Obsidian takes the first line of the stripe; with a word missing it is late (R128). -/
def stripeDeadline (s : State) (k : Nat × Nat × Nat) : State :=
  let s := if (stripeOf s k).isSome then s else setStripes s fun q => { q with open_ := q.open_ ++ [⟨k.1, k.2.1, k.2.2, [], [], false, false, 0⟩] }
  let s := setStripes s fun q => { q with past := some k }
  match stripeOf s k with
  | none => s
  | some st =>
    if st.complete then dropLaunches s
    else
      let reason := lateReason s st
      let miss := missingCols s st
      let who : Option (Fin 4) :=
        if reason = 3 then ((st.owner.find? fun o => o.1 == miss.headD 0).map fun o => Fin.ofNat 4 o.2) else lowestGalena s
      let s := setStripe s k fun x => { x with words := [], late := true }
      let s := cancelStripe s k
      let s := match who with
        | none => s
        | some g =>
          let s := bump s (galStripesLate (galRegion g))
          if (s.gal[g]).lateRaised.contains (k.1, k.2.1) then s
          else raise (setGal s g fun x => { x with lateRaised := [(k.1, k.2.1)] }) 2 (galRegion g) 0x220 0xFF 0xFF
            (k.2.2 % 1024 + 1024 * k.2.1 + 4096 * reason + 65536 * miss.length)
      showOldest (dropLaunches (stripeDone s k))

/-- Obsidian has taken a line of a stripe: its ring line is free; a stripe whose last line is taken leaves the queue (R127). -/
def stripeTaken (s : State) (k : Nat × Nat × Nat) (line : Nat) : State :=
  let s := setStripe s k fun x => { x with taken := line + 1 }
  if line + 1 < 16 then s
  else showOldest (setStripes s fun q => { q with open_ := q.open_.filter fun x => stripeKey x != k })

/-! Tiles (R123, R131). -/

/-- The accepted launch of a tile (R119, R121). -/
def launchFor (s : State) (g : Fin 4) (t : TileId) : Option Launch :=
  (s.gal[g]).launches.find? fun l => l.refused == 0 && covers l (tileStripe t)

/-- The launch contexts of a block after it loads one: at most two, one that no tile of the block uses making room (R121). -/
def loadContext (b : RayBlock) (id : Nat) : Option (List Nat) :=
  if b.launches.contains id then some b.launches
  else if b.launches.length < 2 then some (b.launches ++ [id])
  else match b.launches.find? fun i => !b.tiles.any fun t => t.launch == i with
    | some i => some (b.launches.filter (· != i) ++ [id])
    | none => none

/-- Both caches of a region invalidate every line before the first tile of a later frame (R131). -/
def frameCaches (s : State) (g : Fin 4) (frame : Nat) : State :=
  let x := s.gal[g]
  let newer := match x.cacheFrame with
    | none => true
    | some f => f != frame && frameGe frame f
  if newer then
    setGal s g fun x => { x with
      cacheFrame := some frame
      cache := cacheInvalidate x.cache
      blocks := x.blocks.map fun b => { b with cache := cacheInvalidate b.cache } }
  else s

/-- TILE_TAKE (R121, R123, R126, R131). -/
def tileTake (s : State) (g : Fin 4) (b : Fin 12) : State :=
  let blk := blockOf s g b
  let busy := (blk.tiles.filter fun t => decide (t.ended.length < 384)).length
  if !rayBlockIn s g b.val || decide (2 ≤ busy) || decide (8 ≤ blk.tiles.length) then s
  else match (s.gal[g]).tileQ.find? fun t => (launchFor s g t).isSome with
    | none => s
    | some t =>
      match launchFor s g t with
      | none => s
      | some l =>
        match loadContext blk l.id with
        | none => s
        | some ids =>
          let s := frameCaches s g t.frame
          let s := setGal s g fun x => { x with tileQ := x.tileQ.erase t, back := x.back.erase t, lastBlock := b.val }
          setBlock s g b fun x => { x with
            launches := ids
            tiles := x.tiles ++ [⟨t, l.id, 0, [], [], [], []⟩] }

/-! Groups (R89, R124, R125). -/

/-- Subpixel of lane l of a group: pixel x, line y of the panel, colour (R124). -/
def laneSubpixel (t : TileId) (group lane : Nat) : Nat × Nat × Nat :=
  let j := 8 * (group % 24) + lane
  (64 * t.col + j / 3, 16 * t.stripe + group / 24, j % 3)

/-- A cell of a block that can take a group, in round-robin from `from_`, with its lowest free context (R124, R125). -/
def freeCell (s : State) (g : Fin 4) (b : Fin 12) (from_ : Nat) : Option CtxId :=
  let ids := (List.range 32).flatMap fun i =>
    let c := Fin.ofNat 32 (from_ + i)
    if rayCellIn s g b.val c.val then (List.finRange 4).map fun x => (⟨g, b, c, x⟩ : CtxId) else []
  ids.find? fun i => (ctxOf s i).isNone

/-- The residual words that a group's lanes read, in order, each once (R44). -/
def groupWords (m : MapRec) (t : TileId) (group : Nat) : List (Nat × Nat × Nat × Nat) :=
  let cols := mapU m.head 0x24 2
  ((List.range 8).flatMap fun l =>
    let (x, y, c) := laneSubpixel t group l
    let pos := if mapU m.head 0x11 1 = 1 then 2 - c else c
    residualWords cols x y pos).eraseDups

/-- The reads of residual words: one that ends in an error is lost to the block's ray generator for the stripe, and CALMAP_NODE_POISONED is raised (R59, R60). -/
def residualReads (s : State) (g : Fin 4) (b : Fin 12) (m : MapRec) (t : TileId) (group : Nat) : State :=
  if m.kind ≠ .full then s
  else
    (groupWords m t group).foldl (fun s w =>
      let a := mapBuffer s m.buf + tileBase w.1 + w.2.1
      let s := touchLine s g b (a / 256)
      let mark := (b.val, tileStripe t, w.1, w.2.1)
      if readStatus s (galRegion g) (a / 8 * 8) 8 = 0 || (s.gal[g]).lost.contains mark then s
      else
        raise (setGal s g fun x => { x with lost := mark :: x.lost }) 1 (galRegion g) 0x2C0 b.val 0xFF
          (w.2.2.1 + 65536 * w.2.2.2)) s

/-- A group's start state (R89): the registers zero, the launch's scalars, the lanes' rays. -/
def startCtx (s : State) (id : CtxId) (l : Launch) (t : TileId) (group : Nat) (retry : Bool) : RayCtx :=
  let mp := mapOf s t.frame
  let lost := ((s.gal[id.gal]).lost.filter fun e => e.1 == id.blk.val && e.2.1 == tileStripe t).map fun e => e.2.2
  let ks := (List.range 8).map fun n =>
    let (x, y, c) := laneSubpixel t group n
    lanesK s mp lost x y c t.phase
  { id, tile := t, launch := l.id, group, pc := l.entry
    v := Vector.replicate 64 (Vector.replicate 8 0)
    sc := Vector.ofFn fun i => l.record.scalars.getD i.val 0
    p := (Vector.replicate 8 0).set 0 0xFF
    k := Vector.ofFn fun r => Vector.ofFn fun n => (ks.getD n.val []).getD r.val 0
    charge := 0
    emitted := Vector.replicate 8 none
    retry }

/-- The next group of a tile: one handed back by a retired cell first (R124, R134). -/
def nextOf (t : TileRun) : Option (Nat × TileRun) :=
  match t.again with
  | n :: r => some (n, { t with again := r })
  | [] => if t.nextGroup < 384 then some (t.nextGroup, { t with nextGroup := t.nextGroup + 1 }) else none

/-- GROUP_DISPATCH: the next group goes to a cell with a free context, which starts it from ENTRY (R60, R89, R124, R125). -/
def groupDispatch (s : State) (g : Fin 4) (b : Fin 12) : State :=
  if !rayBlockIn s g b.val then s
  else
    let blk := blockOf s g b
    match blk.tiles.find? fun t => (nextOf t).isSome with
    | none => s
    | some t =>
      match nextOf t, launchOf s g t.launch, freeCell s g b blk.nextCell with
      | some (n, t'), some l, some id =>
        let s := setBlock s g b fun x => { x with
          nextCell := (id.cell.val + 1) % 32
          tiles := x.tiles.map fun y => if y.tile = t.tile ∧ y.launch = t.launch then t' else y }
        let s := match mapOf s t.tile.frame with
          | some m => residualReads s g b m t.tile n
          | none => s
        { s with ctxs := s.ctxs ++ [startCtx s id l t.tile n false] }
      | _, _, _ => s

/-- A cell runs its group again from ENTRY after a retry (R13, R90). -/
def retryCtx (s : State) (id : CtxId) : State :=
  match ctxOf s id with
  | none => s
  | some x =>
    match launchOf s id.gal x.launch with
    | none => s
    | some l => putCtx s { startCtx s id l x.tile x.group true with k := x.k }

/-! Cache fills (R130, R132). -/

/-- SCACHE_LINE_DROPPED or LCACHE_LINE_DROPPED: the line is invalid, counted, and fetched again as a miss (R132). -/
def dropLine (s : State) (g : Fin 4) (b : Option (Fin 12)) (line : Nat) : State :=
  let r := galRegion g
  match b with
  | some b =>
    match cacheDrop (blockOf s g b).cache sampleSets line s.now with
    | (c, some (set, way)) =>
      let s := bump (setBlock s g b fun x => { x with cache := c }) (galCacheDropped r)
      touchLine (raise s 1 r 0x230 b.val 0xFF (set + 256 * way)) g b line
    | (_, none) => s
  | none =>
    match cacheDrop (s.gal[g]).cache layerSets line s.now with
    | (c, some (set, way)) =>
      let s := bump (setGal s g fun x => { x with cache := c }) (galCacheDropped r)
      layerLook (raise s 2 r 0x231 0xFF 0xFF (set + 4096 * way)) g line
    | (_, none) => s

/-- A line read back from the way that holds it, with bits flipped: how many words were corrected, and whether one is uncorrectable (R132). -/
def lineReadBack (s : State) (line : Nat) (flips : List CodedWord) : Nat × Bool :=
  let out := (flips.take 32).zipIdx.map fun e => storeRead e.2 (BitVec.ofNat 64 (readLe s (256 * line + 8 * e.2) 8)) e.1
  ((out.filter fun o => match o with | .corrected _ => true | _ => false).length,
   out.any fun o => match o with | .poisoned => true | .uncorrectable => true | _ => false)

/-- A fill ends at a cache: the line is no longer being fetched; it is cached where its read ended well (R130, R132). -/
def fillEnds (c : Cache) (sets line : Nat) (good : Bool) : Cache :=
  if c.missing.contains line then
    let c := { c with missing := c.missing.filter (· != line) }
    if good then cacheInstall c sets line else c
  else c

/-- A cached line is read back: corrected words are counted (R132). -/
def countBack (c : Cache) (sets line : Nat) (read : Nat × Bool) : Cache :=
  if (wayOf (cacheSet c (line % sets)) line).isSome then { c with corrected := c.corrected + read.1 } else c

/-- What a region's read of a line from memory has ended with: the words of a line whose read failed read so until they are read anew, and a poisoned line is a poisoned read (R24, R111, R268). -/
def lineArrives (s : State) (r line status : Nat) : State :=
  let s := noteFailed s r line [] 0
  if status = 0 then poisonSeen s r (256 * line) 256
  else if readStatus s r (256 * line) 256 = 0 then noteFailed s r line (List.range 32) status
  else s

/-- CACHE_LINE_FILL: a line whose read ended in an error is not cached; a corrected word is counted; a line with an uncorrectable word is dropped and fetched again; a miss that waited is asked for (R111, R130, R132). -/
def cacheLineFill (s : State) (g : Fin 4) (b : Option (Fin 12)) (line : Nat) (flips : List CodedWord) (status : Nat) : State :=
  if !serves s (galRegion g) then s
  else
    let r := galRegion g
    let s := if b.isNone && (s.gal[g]).cache.missing.contains line then lineArrives s r line status else s
    let good := status == 0 && readStatus s r (256 * line) 256 == 0
    let read := lineReadBack s line flips
    let s := match b with
      | some b => setBlock s g b fun x => { x with cache := countBack (fillEnds x.cache sampleSets line good) sampleSets line read }
      | none => setGal s g fun x => { x with cache := countBack (fillEnds x.cache layerSets line good) layerSets line read }
    let s := issueWaiting s g b
    if read.2 then dropLine s g b line else s

/-! Output (R126, R127). -/

/-- The position tag of word w of a line of a tile (R32, R126). -/
def positionTag (t : TileId) (line w : Nat) : Nat := t.stripe % 2 * 2 ^ 15 + t.col % 256 * 2 ^ 7 + line % 16 * 2 ^ 3 + w % 8

/-- Word w of a line of a tile: its position tag at [255:240], subpixel c of pixel p at bits 30p + 10c (R32, R126). -/
def tileWord (t : TileRun) (line w : Nat) : BitVec 256 :=
  BitVec.ofNat 256 (positionTag t.tile line w * 2 ^ 240 +
    sumNat ((List.range 24).map fun i => (smGet? t.out (192 * line + 24 * w + i)).getD 0 % 1024 * 2 ^ (10 * i)))

/-- A line of a tile is sent. -/
def sendLine (s : State) (t : TileRun) (line : Nat) : State :=
  (List.range 8).foldl (fun s w => ringWord s (tileStripe t.tile) (tileWord t line w)) s

/-- A tile can send: all its groups have ended, and the ring line of a line still to be sent is free (R126, R127). -/
def sendable (s : State) (t : TileRun) : Bool :=
  t.ended.length == 384 && (List.range 16).any fun l => !t.sent.contains l && ringFree s (tileStripe t.tile) l

/-- TILE_SEND: a tile with all groups ended sends the lines whose ring lines are free; its space is free once all are sent (R126, R127, R129). -/
def tileSend (s : State) (g : Fin 4) (b : Fin 12) : State :=
  if !rayBlockIn s g b.val then s
  else match (blockOf s g b).tiles.find? (sendable s) with
    | none => s
    | some t =>
      let k := tileStripe t.tile
      let lines := (List.range 16).filter fun l => !t.sent.contains l && ringFree s k l
      let s := lines.foldl (fun s l => sendLine s t l) s
      let sent := t.sent ++ lines
      let rest (l : List TileRun) : List TileRun :=
        if sent.length = 16 then l.filter fun y => !(y.tile == t.tile && y.launch == t.launch)
        else l.map fun y => if y.tile = t.tile ∧ y.launch = t.launch then { y with sent } else y
      let s := setBlock s g b fun x => { x with tiles := rest x.tiles }
      match stripeOf s k with
      | none => s
      | some st => if !st.complete && st.words.length == stripeWords s then stripeDone s k else s

/-! Hand-over (R19, R134, R135). -/

/-- A cell has retired: its groups go back to their tiles, to run again (R134). -/
def handOverCell (s : State) (g : Fin 4) (b : Fin 12) (c : Fin 32) : State :=
  let mine := s.ctxs.filter fun x => x.id.gal == g && x.id.blk == b && x.id.cell == c
  let s := { s with ctxs := s.ctxs.filter fun x => !(x.id.gal == g && x.id.blk == b && x.id.cell == c) }
  setBlock s g b fun k => { k with tiles := k.tiles.map fun t =>
    { t with again := mine.foldl (fun l x => if isRunOf x t then natInsert l x.group else l) t.again } }

/-- A block has quarantined itself: its tiles go back to the heads of their stripes in the region's queue (R134). -/
def handOverBlock (s : State) (g : Fin 4) (b : Fin 12) : State :=
  let tiles := (blockOf s g b).tiles
  let s := { s with ctxs := s.ctxs.filter fun x => !(x.id.gal == g && x.id.blk == b) }
  let s := setBlock s g b fun k => { k with tiles := [] }
  setGal s g fun x => { x with 
    back := (tiles.map fun t => t.tile) ++ x.back
    tileQ := tiles.foldr (fun t q => queueBack t.tile q) x.tileQ }

/-- An owner put into its place by column (R122). -/
def ownerInsert (o : Nat × Nat) : List (Nat × Nat) → List (Nat × Nat)
  | [] => [o]
  | x :: r => if o.1 < x.1 then o :: x :: r else x :: ownerInsert o r

/-- A region begins to drain: its unsent tiles of open stripes are split over the other regions, and TILES_HANDED is raised (R134, R135). The region no longer counts as in service here. -/
def handOverRegion (s : State) (g : Fin 4) : State :=
  let open_ := s.stripes.open_.filter fun x => !x.complete
  let full (x : Stripe) (c : Nat) : Bool :=
    (List.range 16).all fun l => (List.range 8).all fun w => (smGet? x.words (wordKey l c w)).isSome
  let moves := open_.map fun x =>
    (stripeKey x, (x.owner.filter fun o => o.2 == g.val && !full x o.1).map fun o => o.1)
  let n := sumNat (moves.map fun m => m.2.length)
  let s := { s with ctxs := s.ctxs.filter fun x => x.id.gal != g }
  let s := setGal s g fun x => { x with tileQ := [], back := [], blocks := x.blocks.map fun b => { b with tiles := [] } }
  let cells := cellCounts s
  let s := moves.foldl (fun s m =>
    let (k, cols) := m
    let owner := (divide cols.length cells).map fun o => (cols.getD o.1 0, o.2)
    let s := setStripe s k fun x => { x with
      owner := owner.foldl (fun l o => ownerInsert o l) (x.owner.filter fun o => !cols.contains o.1) }
    owner.foldl (fun s o => setGal s (Fin.ofNat 4 o.2) fun x => { x with tileQ := queueInsert ⟨k.1, k.2.1, k.2.2, o.1⟩ x.back x.tileQ }) s) s
  match lowestGalena s with
  | none => s
  | some low =>
    raise (bump s (galTilesHanded (galRegion low)) n) 2 (galRegion low) 0x221 0xFF 0xFF (n % 65536 + 65536 * galRegion g)

/-! The meanings. -/

/-- TILE_TAKE. -/
def execTileTake (g : Fin 4) (b : Fin 12) (s : State) : Out := .next (tileTake s g b)

/-- GROUP_DISPATCH. -/
def execGroupDispatch (g : Fin 4) (b : Fin 12) (s : State) : Out := .next (groupDispatch s g b)

/-- CACHE_LINE_FILL. -/
def execCacheLineFill (g : Fin 4) (b : Option (Fin 12)) (line : BitVec 32) (flips : List CodedWord) (status : Byte) (s : State) : Out :=
  .next (cacheLineFill s g b line.toNat flips status.toNat)

/-- TILE_SEND. -/
def execTileSend (g : Fin 4) (b : Fin 12) (s : State) : Out := .next (tileSend s g b)

end Sys2Proof.Machine
end

