-- ==== Sys2Proof/Machine/Borax.lean ====
section
/-! DEFINITION. Borax: jobs, coder lanes and their users, the shadow frame, the return stream (R229 to R245). -/

namespace Sys2Proof.Machine

/-- Borax changed. -/
def setBorax (s : State) (f : Borax → Borax) : State := { s with borax := f s.borax }

/-- The return stream changed. -/
def setRet (s : State) (f : RetStream → RetStream) : State := setBorax s fun b => { b with ret := f b.ret }

/-- An event of Borax (R245). -/
def brxEvent (s : State) (level cause block cell arg : Nat) : State := raise s level 12 cause block cell arg

/-- Coder lane `i` is in service (R12, R244). -/
def laneUp (s : State) (i : Nat) : Bool := !isQuarantined s 12 (i / 4) && !isRetired s 12 (i / 4) (i % 4)

/-- BRX_SERVICE (R244). -/
def boraxService (s : State) : Word := BitVec.ofNat 32 (sumNat ((List.range 16).map fun i => b2n (laneUp s i) * 2 ^ i))

/-- The depths of BRX_JOB_STATUS show the queues (R244). -/
def boraxStatus (s : State) : State :=
  let depth := sumNat ((List.finRange 4).map fun e => min 15 (s.borax.jobs[e]).length * 16 ^ e.val)
  (List.range 3).foldl (fun s c => setF s (brxJobStatus + 0x1000000 * c) 0 16 depth) s

/-! Jobs (R231 to R234). -/

/-- Engines in service (R12, R234). -/
def enginesUp (s : State) : List (Fin 4) := (List.finRange 4).filter fun e => !isQuarantined s 12 e.val

/-- The engine that a submission naming engine 4 goes to: among those in service the fewest queued, the lowest when equal (R234). -/
def fewestQueued (s : State) : Fin 4 :=
  match enginesUp s with
  | [] => 0
  | x :: r => r.foldl (fun b e => if (s.borax.jobs[e]).length < (s.borax.jobs[b]).length then e else b) x

/-- A descriptor put at the end of an engine's queue. -/
def queueJob (s : State) (e : Fin 4) (j : BxJob) : State :=
  boraxStatus (setBorax s fun b => { b with jobs := vUpd b.jobs e fun q => q ++ [j] })

/-- The engine a submission names: 0 to 3, or the one with the fewest queued; work for a quarantined engine goes to its siblings (R13, R234). -/
def jobEngine (s : State) (engine : Nat) : Fin 4 :=
  if engine = 4 || isQuarantined s 12 engine then fewestQueued s else Fin.ofNat 4 engine

/-- A submission by a register write, of the descriptor at the requester's own copy of BRX_JOB_ADDR (R234, R244, R511). -/
def jobSubmit (s : State) (q : Requester) (v : Word) : State :=
  let engine := fld v 0 3
  let copy := match q with | .ha => 0 | .hb => 1 | .fp => 2
  let k := brxJobStatus + 0x1000000 * copy
  if 4 < engine then s
  else
    let e := jobEngine s engine
    if 8 ≤ (s.borax.jobs[e]).length then setF (bump s brxSubmitRefused) k 31 1 1
    else setF (queueJob s e ⟨addr40 s (brxJobAddrLo + 0x1000000 * copy) (brxJobAddrHi + 0x1000000 * copy), false, s.now⟩) k 31 1 0

/-- A descriptor's fields (R231). -/
structure JobDesc where
  op : Nat
  effort : Nat
  elem : Nat
  predict : Nat
  line : Nat
  src : Nat
  srcBytes : Nat
  dstBytes : Nat
  dst : Nat
  chain : Nat
  result : Nat
  tag : Nat
  flags : Nat
  clean : Bool
deriving DecidableEq, Repr

/-- The descriptor that 64 bytes spell (R231). -/
def jobDesc (b : List Byte) : JobDesc :=
  { op := leAt b 0 1, effort := leAt b 1 1, elem := leAt b 2 1, predict := leAt b 3 1, line := leAt b 4 4
    src := leAt b 8 8, srcBytes := leAt b 0x10 4, dstBytes := leAt b 0x14 4, dst := leAt b 0x18 8
    chain := leAt b 0x20 8, result := leAt b 0x28 8, tag := leAt b 0x30 2, flags := leAt b 0x32 1
    clean := (b.drop 0x33).all fun x => x == 0 }

/-- An area lies inside DRAM (R31, R233). -/
def inDram (s : State) (a n : Nat) : Bool := decide (a + n ≤ dramTop s)

/-- The descriptor keeps R231. -/
def jobDescOk (s : State) (d : JobDesc) : Bool :=
  let comp := d.op == 0
  decide (d.op ≤ 1) && d.clean && decide (d.flags ≤ 1) && d.src % 8 == 0 && d.dst % 8 == 0 && d.dstBytes % 8 == 0 &&
  d.chain % 32 == 0 && d.result % 16 == 0 && inDram s d.result 16 && inDram s d.src d.srcBytes && inDram s d.dst d.dstBytes &&
  (if comp then
    decide (d.effort ≤ 3) && decide (d.elem ≤ 3) && decide (d.predict ≤ 4) && d.line % elemSize d.elem == 0 &&
    decide (1 ≤ d.srcBytes) && decide (d.srcBytes ≤ 268435456) && d.srcBytes % elemSize d.elem == 0
   else d.srcBytes % 8 == 0)

/-- What a chain of buffers is: the buffers, and a status other than 0 where an entry breaks R232 (1) or its read fails (4, with the status of R24 and the entry's address). -/
structure ChainRead where
  bufs : List (Nat × Nat)
  status : Nat
  detail : Nat
  bad : Nat
deriving DecidableEq, Repr

/-- The chain entries from an address on, at most 256 (R232). -/
def readChain (s : State) : Nat → Nat → ChainRead
  | 0, a => ⟨[], if a = 0 then 0 else 1, 0, 0⟩
  | fuel + 1, a =>
    if a = 0 then ⟨[], 0, 0, 0⟩
    else if a % 32 ≠ 0 || !inDram s a 32 then ⟨[], 1, 0, 0⟩
    else
      let st := readStatus s 12 a 32
      if st ≠ 0 then ⟨[], 4, st, a⟩
      else
        let b := readBytes s a 32
        let addr := leAt b 0 8
        let n := leAt b 16 4
        if addr % 8 ≠ 0 || n % 8 ≠ 0 || n < 64 || 16777216 < n || !inDram s addr n || (b.drop 20).any (· != 0) then ⟨[], 1, 0, 0⟩
        else
          let r := readChain s fuel (leAt b 8 8)
          { r with bufs := (addr, n) :: r.bufs }

/-- How the coded side of a decompress job ends: the raw data or the reason of R228, or a buffer whose read failed; and the buffers read. -/
structure SideRead where
  out : Except Nat (List Byte)
  status : Nat
  bad : Nat × Nat
  used : Nat

/-- Buffers are read in order as far as END, and no further (R232, R233). -/
def decodeBufs (s : State) : List (Nat × Nat) → List Byte → Nat → SideRead
  | [], acc, used => ⟨boraxDecode acc, 0, (0, 0), used⟩
  | (a, n) :: r, acc, used =>
    let st := readStatus s 12 a n
    if st ≠ 0 then ⟨.error 0, st, (a, n), used + 1⟩
    else
      let acc := acc ++ readBytes s a n
      match decodeFrom acc with
      | .ok raw => ⟨.ok raw, 0, (0, 0), used + 1⟩
      | .error e => if 255 < e then decodeBufs s r acc (used + 1) else ⟨.error e, 0, (0, 0), used + 1⟩

/-- Bytes written from an address up, line by line, until a write ends in an error: the state, that status, the bytes written (R24, R233). -/
def writeLines (s : State) : Nat → Nat → List Byte → State × Nat × Nat
  | 0, _, _ => (s, 0, 0)
  | fuel + 1, a, bs =>
    if bs.isEmpty then (s, 0, 0)
    else
      let k := 256 - a % 256
      let (st, t) := dramStore s a (bs.take k)
      if st ≠ 0 then (t, st, 0)
      else
        let r := writeLines t fuel (a + k) (bs.drop k)
        (r.1, r.2.1, r.2.2 + min k bs.length)

/-- What a write through buffers comes to: the state, the status of a write that failed, whether the bytes ran past the last buffer, the buffers used, the bytes written. -/
structure SideWrite where
  state : State
  status : Nat
  past : Bool
  used : Nat
  bytes : Nat

/-- Bytes written through buffers in order (R232, R233). -/
def writeBufs (s : State) : List (Nat × Nat) → List Byte → Nat → Nat → SideWrite
  | _, [], used, n => ⟨s, 0, false, used, n⟩
  | [], _, used, n => ⟨s, 0, true, used, n⟩
  | (a, m) :: r, bs, used, n =>
    let x := writeLines s (m / 256 + 2) a (bs.take m)
    if x.2.1 ≠ 0 then ⟨x.1, x.2.1, false, used + 1, n + x.2.2⟩ else writeBufs x.1 r (bs.drop m) (used + 1) (n + x.2.2)

/-- How a job ends (R233). -/
structure JobEnd where
  status : Nat
  detail : Nat
  out : Nat
  crc : Word
  chain : Nat
  stored : Nat
deriving DecidableEq, Repr

/-- A job that has written its output. -/
def sideEnd (w : SideWrite) (raw : List Byte) (chain stored : Nat) : JobEnd :=
  ⟨if w.status ≠ 0 then 4 else if w.past then 2 else 0, w.status, w.bytes, crc32 raw, chain, stored⟩

/-- A job carried out: source read, coded or decoded, destination written; `forced` are the blocks that self-verify had written STORED (R229 to R233). -/
def runJob (s : State) (d : JobDesc) (forced : List Nat) : State × JobEnd :=
  let fail (st det : Nat) : JobEnd := ⟨st, det, 0, 0, 0, 0⟩
  if !jobDescOk s d then (s, fail 1 0)
  else
    let ch := readChain s 256 d.chain
    if ch.status ≠ 0 then (if ch.status = 4 then poisonSeen s 12 ch.bad 32 else s, fail ch.status ch.detail)
    else if d.op = 0 then
      let st := readStatus s 12 d.src d.srcBytes
      if st ≠ 0 then (poisonSeen s 12 d.src d.srcBytes, fail 4 st)
      else
        let raw := readBytes s d.src d.srcBytes
        let (coded, stored) := boraxEncode raw d.elem d.line d.effort d.predict forced
        let w := writeBufs s ((d.dst, d.dstBytes) :: ch.bufs) coded 0 0
        (bump w.state brxStoredBlocks stored, sideEnd w raw (w.used - 1) stored)
    else
      let x := decodeBufs s ((d.src, d.srcBytes) :: ch.bufs) [] 0
      if x.status ≠ 0 then (poisonSeen s 12 x.bad.1 x.bad.2, { fail 4 x.status with chain := x.used - 1 })
      else match x.out with
        | .error e => (s, { fail 3 e with chain := x.used - 1 })
        | .ok raw =>
          let coded := (((d.src, d.srcBytes) :: ch.bufs).take x.used).flatMap fun b => readBytes s b.1 b.2
          let w := writeBufs s [(d.dst, d.dstBytes)] raw 0 0
          (w.state, sideEnd w raw (x.used - 1) (storedBlocks coded.toArray (coded.length / 16) 16))

/-- The 16-byte result record (R233). -/
def jobRecord (e : JobEnd) (engine : Nat) : List Byte :=
  leBytes e.status 1 ++ leBytes e.detail 1 ++ leBytes engine 1 ++ [0] ++ leBytes e.out 4 ++ leBytes e.crc.toNat 4 ++
  leBytes e.chain 2 ++ leBytes e.stored 2

/-- A job has ended: JOB_DONE where asked, e12 for one from BRXJ (R233, R234, R245). -/
def jobEnded (s : State) (engine : Nat) (j : BxJob) (d : JobDesc) (e : JobEnd) : State :=
  let s := bump s brxJobsDone
  let s := if d.flags % 2 = 1 then brxEvent s 1 0x061 engine 0xFF (e.status % 16 + 256 * e.detail + 65536 * d.tag) else s
  if j.byFrame then setFlag s 12 else s

/-- A descriptor job ends: its record is written, and only then it ends (R233). -/
def finishJob (s : State) (engine : Nat) (j : BxJob) (forced : List Nat) : State :=
  let st := readStatus s 12 j.addr 64
  let d := if st = 0 then jobDesc (readBytes s j.addr 64) else jobDesc []
  let (s, e) :=
    if j.addr % 64 ≠ 0 then (s, (⟨1, 0, 0, 0, 0, 0⟩ : JobEnd))
    else if st ≠ 0 then (poisonSeen s 12 j.addr 64, ⟨if st = 3 then 1 else 4, st, 0, 0, 0, 0⟩)
    else runJob s d forced
  let s := if st = 0 && d.result % 16 == 0 && inDram s d.result 16 then dramPut s d.result (jobRecord e engine) else s
  jobEnded s engine j d e

/-! The shadow frame (R237 to R240). -/

/-- SEGS (R237). -/
def shadowSegs (s : State) : Nat := (panelW s + 1023) / 1024

/-- Width of segment `g` in pixels (R237). -/
def segWidth (s : State) (g : Nat) : Nat := min (panelW s) (1024 * (g + 1)) - 1024 * g

/-- SHADOW_BASE (R237, R244). -/
def shadowBase (s : State) : Nat := addr40 s brxShadowBaseLo brxShadowBaseHi / 4096 * 4096

/-- Address of the stream of a segment in a copy (R237). -/
def segAddr (s : State) (copy phase stripe seg : Nat) : Nat :=
  shadowBase s + (((copy * panelN s + phase) * panelStripes s + stripe) * shadowSegs s + seg) * 65600

/-- SHADOW_STRIPE_DROPPED: 1 INCOMPLETE, 2 VERIFY, 3 WRITE; counted, raised at most once per phase (R238). -/
def shadowDropped (s : State) (phase stripe why : Nat) : State :=
  let s := bump s brxShadowDropped
  if s.borax.dropRaised then s
  else brxEvent (setBorax s fun b => { b with dropRaised := true }) 1 0x062 0xFF 0xFF (stripe % 1024 + 1024 * phase + 4096 * why)

/-- The raw bytes of a segment: pixel p's element holds subpixel c in [10c + 9 : 10c] (R237). -/
def segRaw (s : State) (st : ShadowStripe) (seg : Nat) : List Byte :=
  (List.range 16).flatMap fun l =>
    let row := ((st.lines.find? fun e => e.1 == l).map fun e => e.2.toArray).getD #[]
    (List.range (segWidth s seg)).flatMap fun i =>
      let o := 3 * (1024 * seg + i)
      leBytes (row.getD o 0 + 1024 * row.getD (o + 1) 0 + 1048576 * row.getD (o + 2) 0) 4

/-- The codes of the lines of a segment, 3 a pixel (R237, R239). -/
def segCodes (raw : List Byte) (w : Nat) : List (List Nat) :=
  let a := raw.toArray
  (List.range 16).map fun l => (List.range w).flatMap fun i =>
    let x := elemAt a (4 * (l * w + i)) 4
    [bitsOf x 0 10, bitsOf x 10 10, bitsOf x 20 10]

/-- A stripe of the shadow input buffer. -/
def shadowOf (s : State) (f ph st : Nat) : Option ShadowStripe :=
  s.borax.shadow.find? fun x => x.frame == f && x.phase == ph && x.stripe == st

/-- Lines in the shadow input buffer (R238). -/
def shadowLines (s : State) : Nat := sumNat (s.borax.shadow.map fun x => x.lines.length)

/-- The last line of a stripe has passed: its segments wait for coder lanes, or it is dropped (R238). -/
def shadowClose (s : State) (f ph st : Nat) : State :=
  match shadowOf s f ph st with
  | none => s
  | some x =>
    if x.bad || x.lines.length != 16 then
      shadowDropped (setBorax s fun b => { b with shadow := b.shadow.filter fun y => y != x }) ph st 1
    else
      setBorax s fun b => { b with shadowQ := b.shadowQ ++ (List.range (shadowSegs s)).map fun g => .shadowSeg f ph st g }

/-- A composed line reaches Borax, or is missing (`none`); answers whether it was accepted (R192, R193, R238). -/
def shadowLine (s : State) (f ph st l : Nat) (codes : Option (List Nat)) : State × Bool :=
  if !serves s 12 then (s, false)
  else if !s.borax.shadowOn then (s, true)
  else
    let s := if (shadowOf s f ph st).isSome then s
      else
        let x : ShadowStripe := ⟨f, ph, st, [], false, List.range (shadowSegs s), 0⟩
        setBorax s fun b => { b with
          shadow := b.shadow ++ [x]
          dir := if codes.isSome then b.dir.filter fun e => !(e.phase == ph && e.stripe == st && e.copy == f % 2) else b.dir }
    let full := decide (32 ≤ shadowLines s)
    let upd := fun (x : ShadowStripe) => match codes with
      | some c => if full then { x with bad := true } else { x with lines := x.lines ++ [(l, c)] }
      | none => { x with bad := true }
    let s := setBorax s fun b => { b with shadow := b.shadow.map fun x =>
      if x.frame == f && x.phase == ph && x.stripe == st then upd x else x }
    let s := if l = 15 then shadowClose s f ph st else s
    (s, !(full && codes.isSome))

/-- A segment of a stripe is done with, `why` it failed being 0 for a good one; with the last one the stripe is intact, or dropped for the first reason (R238). -/
def segmentEnds (s : State) (x : ShadowStripe) (seg why : Nat) : State :=
  let y := { x with left := x.left.filter (· != seg), why := if x.why = 0 then why else x.why }
  if !y.left.isEmpty then
    setBorax s fun b => { b with shadow := b.shadow.map fun z => if z = x then y else z }
  else
    let s := setBorax s fun b => { b with shadow := b.shadow.filter fun z => z != x }
    if y.why ≠ 0 then shadowDropped s x.phase x.stripe y.why
    else setBorax s fun b => { b with dir :=
      (b.dir.filter fun e => !(e.phase == x.phase && e.stripe == x.stripe && e.copy == x.frame % 2)) ++
        [⟨x.phase, x.stripe, x.frame % 2, x.frame⟩] }

/-- A segment has been coded and is written; one that no lane could verify is not (R230, R237, R238, R245). -/
def shadowCoded (s : State) (f ph st seg : Nat) (forced : List Nat) (verified : Bool) : State :=
  match shadowOf s f ph st with
  | none => s
  | some x =>
    if !verified then segmentEnds s x seg 2
    else
      let (coded, stored) := boraxEncode (segRaw s x seg) 2 (4 * segWidth s seg) (getF s brxShadowCtrl 1 2) 4 forced
      let s := bump s brxStoredBlocks stored
      let (status, s) := dramStore s (segAddr s (f % 2) ph st seg) coded
      segmentEnds s x seg (if status = 0 then 0 else 3)

/-- The panel timing has stopped: a stripe of the input buffer whose last line has not come is incomplete (R238). -/
def shadowStop (s : State) : State :=
  (s.borax.shadow.filter fun x => x.lines.length != 16).foldl (fun s x => shadowClose s x.frame x.phase x.stripe) s

/-- A repeat request: the intact copy with the newer frame number; its segments wait for coder lanes (R194, R239). -/
def repeatRequest (s : State) (k : Nat × Nat × Nat) : State :=
  if !serves s 12 then s
  else
    let es := s.borax.dir.filter fun e => e.phase == k.2.1 && e.stripe == k.2.2
    match es with
    | [] => s
    | e :: r =>
      let best := r.foldl (fun b x => if frameGe x.frame b.frame then x else b) e
      setBorax s fun b => { b with repeatQ := b.repeatQ ++
        (List.range (shadowSegs s)).map fun g => .repeatSeg k.1 k.2.1 k.2.2 best.copy g }

/-- Bytes of a stream before the first word whose read ends in an error (R239). -/
def goodBytes (s : State) (a n : Nat) : Nat :=
  if readStatus s 12 a n = 0 then n
  else 8 * ((List.range (n / 8)).find? fun i => readStatus s 12 (a + 8 * i) 8 != 0).getD (n / 8)

/-- A repeat segment has been decoded into Mica's ring: the lines that do not decode, or that are read with a bad word, are not written; where only CHECK fails, none is (R195, R239). -/
def repeatDone (s : State) (f ph st copy seg : Nat) : State :=
  let a := segAddr s copy ph st seg
  let n := 48 + leAt (readBytes s a 32) 24 4
  if readStatus s 12 a 32 ≠ 0 ∨ 65600 < n then poisonSeen s 12 a 32
  else
    let bs := readBytes s a n
    let limit := goodBytes s a n
    let raw := match boraxDecode bs with
      | .ok raw => if limit = n then raw else decodeUpTo bs limit
      | .error e => if e = 7 ∧ limit = n then [] else decodeUpTo bs limit
    let s := if limit = n then s else poisonSeen s 12 a n
    let w := segWidth s seg
    let rows := ((segCodes raw w).take (raw.length / (4 * max 1 w))).zipIdx.map fun e => ((f, ph, st, 64 * e.2 + seg), e.1)
    if serves s 13 then { s with mica := { s.mica with repeatRing := s.mica.repeatRing ++ rows } } else s

/-! The return stream (R241, R242). -/

/-- DEC of a control word (R244). -/
def retDec (w : Word) : Nat := 2 ^ fld w 3 2

/-- Phases that the stream carries: those selected that the panel has (R241). -/
def retPhases (s : State) (w : Word) : List Nat := (List.range (panelN s)).filter fun ph => bitAt (fld w 8 4) ph

/-- W_r and H_r (R241). -/
def retSize (s : State) (w : Word) : Nat × Nat := (panelW s / retDec w, panelH s / retDec w)

/-- hp of the panel, as fp32 (R75). -/
def panelHp (s : State) : Nat := fRound fp32 false (panelH s * panelPy s) (panelW s * panelPx s) 0

/-- Bytes put into the return ring, wrapping at its end (R241). -/
def retPut (s : State) (bs : List Byte) : State :=
  let size := (readReg s brxRetSize).toNat
  let base := addr40 s brxRetBaseLo brxRetBaseHi / 4096 * 4096
  if size = 0 then s
  else
    let o := s.borax.ret.wr % size
    let s1 := dramPut s (base + o) (bs.take (size - o))
    let s2 := if size - o < bs.length then dramPut s1 base (bs.drop (size - o)) else s1
    setRet s2 fun r => { r with wr := r.wr + bs.length }

/-- A unit of the return stream, padded; its SEQ follows the last (R61, R241). -/
def retUnit (s : State) (type : Nat) (body : List Byte) : State :=
  let n := (8 + body.length + 7) / 8 * 8
  let seq := if type = 1 then 0 else s.borax.ret.seq
  let s := retPut s (padTo ([BitVec.ofNat 8 type, 0] ++ leBytes seq 2 ++ leBytes n 4 ++ body) n)
  setRet s fun r => { r with seq := (seq + 1) % 65536 }

/-- FRAME_RATE of the return stream: the panel's rate × 1,000, rounded (R241). -/
def retRate (s : State) : Nat := (1000 * (timingRate s).1 * 2 + (timingRate s).2) / (2 * (timingRate s).2)

/-- STREAM_START of the return stream under a value of its control register (R64, R241). -/
def retStart (s : State) (w : Word) : State :=
  let ps := retPhases s w
  let (wr, hr) := retSize s w
  let entry (i : Nat) : List Byte := leBytes i 1 ++ [3, 0, 0] ++ leBytes wr 2 ++ leBytes hr 2
  let old := s.borax.ret.ports
  let gone := (old.filter fun p => decide (p.1 ≤ s.borax.ret.rd)).length - 1
  let s := setRet s fun r => { r with ports := old.drop gone ++ [(r.wr, fld w 1 2)] }
  retUnit s 0x01 ([2, 0] ++ leBytes ps.length 1 ++ [0] ++ leBytes (panelHp s) 4 ++ leBytes (retRate s) 4 ++ leBytes 0 4 ++
    (List.range ps.length).flatMap entry)

/-- Bands of a return layer (R74, R241). -/
def retBands (hr : Nat) : Nat := (hr + 31) / 32

/-- Bytes that a return frame may need in the ring (R242). -/
def retNeed (s : State) (w : Word) : Nat :=
  let (wr, hr) := retSize s w
  (retPhases s w).length * (wr * hr * 4 + retBands hr * 4096) + 4096

/-- Bytes free in the ring, those kept for frames begun and not yet written being taken off, so that a frame once begun always fits (R242). -/
def retFree (s : State) : Nat :=
  let r := s.borax.ret
  let kept := sumNat (r.todo.map fun x => match x with | .frame f => retNeed s f.cfg - f.used | _ => 0)
  (readReg s brxRetSize).toNat - (r.wr - r.rd) - kept

/-- The frames in progress changed. -/
def setFrames (s : State) (g : RetFrame → RetFrame) : State :=
  setRet s fun r => { r with todo := r.todo.map fun x => match x with | .frame f => .frame (g f) | y => y }

/-- SCENE_FRAME_BEGIN of a return frame (R70, R241). -/
def retBegin (s : State) (f : RetFrame) : State :=
  retUnit s 0x10 (leBytes f.number 4 ++ leBytes (2 ^ (retPhases s f.cfg).length - 1) 8 ++ leBytes 0 4 ++ leBytes f.light.1 8 ++
    leBytes f.light.2 4 ++ leBytes 0 4)

/-- The LAYER_HEADER of a return layer (R71, R241). -/
def retHeader (s : State) (layer wr hr : Nat) : State :=
  let one := fOne fp32
  let hp := panelHp s
  retUnit s 0x11 (leBytes layer 1 ++ [3, 0, 0] ++ leBytes wr 2 ++ leBytes hr 2 ++ leBytes (fNeg fp32 one) 4 ++ leBytes one 4 ++
    leBytes (fNeg fp32 hp) 4 ++ leBytes hp 4 ++ List.replicate 32 0)

/-- One coded band of a frame, and what stands around it: its layer's header, and the frame's end; answers the frame, none once it is written whole (R241, R242). -/
def retBandOut (s : State) (f : RetFrame) (i : Nat) (bs : List Byte) (raw : Nat) : State × Option RetFrame :=
  let ps := retPhases s f.cfg
  let (wr, hr) := retSize s f.cfg
  let nb := retBands hr
  let s := if i % nb = 0 then retHeader s (i / nb) wr hr else s
  let s := retUnit s 0x12 (leBytes (i / nb) 1 ++ [0, 1, 0] ++ leBytes (i % nb) 2 ++ leBytes 0 2 ++ leBytes bs.length 4 ++ leBytes raw 4 ++ bs)
  if i + 1 < ps.length * nb then (s, some { f with coded := f.coded.filter (fun e => e.1 != i), next := i + 1 })
  else (retUnit s 0x13 (leBytes f.number 4 ++ leBytes (2 + ps.length * (1 + nb)) 4), none)

/-- What is to be written goes into the ring in order: a frame's coded bands in line order within each phase, and in phase order (R241, R242). -/
def retFlush : Nat → State → State
  | 0, s => s
  | fuel + 1, s =>
    let rest := s.borax.ret.todo.drop 1
    let wr := s.borax.ret.wr
    let back (s : State) (f : Option RetFrame) : State := setRet s fun r => { r with todo :=
      match f with
      | some f => .frame { f with used := f.used + (r.wr - wr) } :: rest
      | none => rest }
    match s.borax.ret.todo with
    | [] => s
    | .start w :: _ => retFlush fuel (back (retStart s w) none)
    | .stop :: _ => retFlush fuel (back (retUnit s 0x02 []) none)
    | .frame f :: _ =>
      if !f.begun then retFlush fuel (back (retBegin s f) (some { f with begun := true }))
      else match f.coded.find? fun e => e.1 == f.next with
        | none => s
        | some (i, bs, raw) =>
          let x := retBandOut s f i bs raw
          retFlush fuel (back x.1 x.2)

/-- Bytes of a row that is missing: they are left open (R193). -/
def openRow (s : State) (wr : Nat) : List Byte := (List.range (4 * wr)).map fun i => Config.freeByte (0x2000000 + i) s.freeCtr

/-- A band of a frame goes to a coder lane, its missing rows open (R236, R241). -/
def retGive (s : State) (f : RetFrame) (rank b : Nat) : State :=
  let (wr, hr) := retSize s f.cfg
  let i := rank * retBands hr + b
  let row (j : Nat) : Option (List Byte) := (f.rows.find? fun e => e.1 == (rank, 32 * b + j)).map fun e => e.2
  let js := List.range (min 32 (hr - 32 * b))
  let raw := js.flatMap fun j => (row j).getD (openRow s wr)
  let s := if js.all fun j => (row j).isSome then s else { s with freeCtr := s.freeCtr + 1 }
  let s := setFrames s fun g => if g.id = f.id then
    { g with rows := g.rows.filter (fun e => !(e.1.1 == rank && e.1.2 / 32 == b)), given := g.given ++ [i] } else g
  setBorax s fun x => { x with retQ := x.retQ ++ [.retBand f.id i raw] }

/-- The frame that takes lines: the newest in progress. -/
def retNewest (s : State) : Option RetFrame :=
  (s.borax.ret.todo.filterMap fun x => match x with | .frame f => some f | _ => none).getLast?

/-- A frame's lines are over: bands that have not come whole are given as they are (R193, R241). -/
def retLinesEnd (s : State) : State :=
  match retNewest s with
  | none => s
  | some f =>
    let nb := retBands (retSize s f.cfg).2
    (List.range ((retPhases s f.cfg).length * nb)).foldl (fun s i => if f.given.contains i then s else retGive s f (i / nb) (i % nb)) s

/-- A frame boundary: the stream ends, starts and begins a frame as its control register says; without room the frame is skipped (R241 to R243). -/
def retFrame (s : State) (frame : Nat) (light : Nat × Nat) : State :=
  if !serves s 12 then s
  else
    let on := getB s brxRetCtrl 0
    let w := readReg s brxRetCtrl
    let s := retLinesEnd s
    let s := if s.borax.ret.open_ && (s.borax.ret.changed || !on) then
        setRet s fun r => { r with open_ := false, changed := false, todo := r.todo ++ [.stop] }
      else s
    let s := if !s.borax.ret.open_ && on && !(retPhases s w).isEmpty then
        setRet s fun r => { r with open_ := true, cfg := w, changed := false, number := 0, todo := r.todo ++ [.start w] }
      else s
    let s := retFlush 8192 s
    let r := s.borax.ret
    if !r.open_ || (retPhases s r.cfg).isEmpty then s
    else if retFree s < retNeed s r.cfg then brxEvent (bump s brxRetSkipped) 1 0x063 0xFF 0xFF (frame % 65536)
    else
      let f : RetFrame := ⟨r.nextId, r.cfg, r.number, light, [], [], [], 0, false, 0⟩
      retFlush 8192 (setRet s fun r => { r with todo := r.todo ++ [.frame f], nextId := r.nextId + 1, number := (r.number + 1) % 2 ^ 32 })

/-- A line that Mica has sent, or that is missing, feeds the return frame: every DEC-th pixel of every DEC-th line; 32 rows make a band (R241). A missing row's bytes are left open. -/
def retLine (s : State) (ph y : Nat) (codes : Option (List Nat)) : State :=
  match retNewest s with
  | none => s
  | some f =>
    let dec := retDec f.cfg
    let (wr, hr) := retSize s f.cfg
    match (retPhases s f.cfg).idxOf? ph with
    | none => s
    | some rank =>
      let j := y / dec
      if y % dec ≠ 0 ∨ hr ≤ j ∨ f.given.contains (rank * retBands hr + j / 32) ∨ !serves s 12 then s
      else
        let rows := match codes with
          | some cs =>
            let a := cs.toArray
            f.rows ++ [((rank, j), (List.range wr).flatMap fun i =>
              let o := 3 * dec * i
              leBytes (a.getD o 0 + 1024 * a.getD (o + 1) 0 + 1048576 * a.getD (o + 2) 0) 4)]
          | none => f.rows
        let g := { f with rows := rows }
        let s := setFrames s fun x => if x.id = f.id then g else x
        if j % 32 = 31 ∨ j + 1 = hr then retGive s g rank (j / 32) else s

/-- A return band has been coded under its own stream's settings (R241). -/
def retCoded (s : State) (id i : Nat) (raw : List Byte) (forced : List Nat) : State :=
  match s.borax.ret.todo.findSome? fun x => match x with | .frame f => if f.id = id then some f else none | _ => none with
  | none => s
  | some f =>
    let (coded, stored) := boraxEncode raw 2 (4 * (retSize s f.cfg).1) (fld f.cfg 12 2) 4 forced
    let s := bump s brxStoredBlocks stored
    retFlush 8192 (setFrames s fun g => if g.id = id then { g with coded := g.coded ++ [(i, coded, raw.length)] } else g)

/-- A write of BRX_RET_CTRL: a change while enabled ends the stream at the next frame boundary (R241). -/
def retCtrlWrite (s : State) (v : Word) : State :=
  let old := readReg s brxRetCtrl
  let s := writeKey s brxRetCtrl v
  if s.borax.ret.open_ && readReg s brxRetCtrl != old then setRet s fun r => { r with changed := true } else s

/-! Coder lanes (R230, R236). -/

/-- A repeat fill reads a slot of the shadow frame: phase, stripe, copy (R240). -/
def slotRead (s : State) (ph st copy : Nat) : Bool :=
  let hit (i : BxItem) : Bool := match i with
    | .repeatSeg _ p t c _ => p == ph && t == st && c == copy
    | _ => false
  s.borax.repeatQ.any hit || s.borax.lanes.toList.any fun x => match x with | some i => hit i | none => false

/-- The first shadow segment whose slot no repeat fill reads (R240). -/
def nextShadow (s : State) : Option BxItem :=
  s.borax.shadowQ.find? fun i => match i with
    | .shadowSeg f ph st _ => !slotRead s ph st (f % 2)
    | _ => true

/-- The engine's oldest job, one that a retired lane gave back before its queue's; `old` = one that has waited 1 ms (R13, R236). -/
def nextJob (s : State) (e : Fin 4) (old : Bool) : Option BxItem :=
  match ((s.borax.again.filter fun x => x.1 == e.val).map fun x => x.2) ++ s.borax.jobs[e] with
  | [] => none
  | j :: _ => if !old || decide (j.at_ + 1000000 ≤ s.now) then some (.job e.val j) else none

/-- The item that a lane of engine `e` takes next, in the order of users (R236). -/
def nextItem (s : State) (e : Fin 4) : Option BxItem :=
  (s.borax.repeatQ.head?).orElse fun _ =>
  (nextShadow s).orElse fun _ =>
  (nextJob s e true).orElse fun _ =>
  ((s.quartz.ingest.head?).map fun i => .ingest i).orElse fun _ =>
  (s.borax.retQ.head?).orElse fun _ => nextJob s e false

/-- A job of a quarantined engine takes the room that another engine's queue has (R13, R433). -/
def overJob (s : State) : State :=
  match s.borax.waitRoom with
  | [] => s
  | j :: r =>
    let e := fewestQueued s
    if 8 ≤ (s.borax.jobs[e]).length then s else queueJob (setBorax s fun b => { b with waitRoom := r }) e j

/-- An item leaves its queue. -/
def dropItem (s : State) (i : BxItem) : State :=
  match i with
  | .repeatSeg .. => setBorax s fun b => { b with repeatQ := b.repeatQ.erase i }
  | .shadowSeg .. => setBorax s fun b => { b with shadowQ := b.shadowQ.erase i }
  | .ingest x => setQuartz s fun q => { q with ingest := q.ingest.erase x }
  | .retBand .. => setBorax s fun b => { b with retQ := b.retQ.erase i }
  | .job e j =>
    if s.borax.again.contains (e, j) then setBorax s fun b => { b with again := b.again.erase (e, j) }
    else overJob (boraxStatus (setBorax s fun b => { b with jobs := vUpd b.jobs (Fin.ofNat 4 e) fun q => q.erase j }))

/-- A coder lane's item goes back: to the head of its queue, a job to be taken before its engine's queue (R13, R19). -/
def boraxBack (s : State) (i : Fin 16) : State :=
  match s.borax.lanes[i] with
  | none => s
  | some x =>
    let s := setBorax s fun b => { b with lanes := b.lanes.set i none }
    match x with
    | .repeatSeg .. => setBorax s fun b => { b with repeatQ := x :: b.repeatQ }
    | .shadowSeg .. => setBorax s fun b => { b with shadowQ := x :: b.shadowQ }
    | .ingest y => setQuartz s fun q => { q with ingest := y :: q.ingest }
    | .retBand .. => setBorax s fun b => { b with retQ := x :: b.retQ }
    | .job e j => setBorax s fun b => { b with again := b.again ++ [(e, j)] }

/-- A quarantined engine's jobs go to the others, as their queues have room (R13, R19, R433). -/
def boraxHand (s : State) (e : Fin 4) : State :=
  let s := (List.finRange 4).foldl (fun s l => boraxBack s (Fin.ofNat 16 (4 * e.val + l.val))) s
  let mine := ((s.borax.again.filter fun x => x.1 == e.val).map fun x => x.2) ++ s.borax.jobs[e]
  let s := setBorax s fun b => { b with
    jobs := b.jobs.set e [], again := b.again.filter fun x => x.1 != e.val, waitRoom := b.waitRoom ++ mine }
  boraxStatus (if (enginesUp s).isEmpty then s else (List.range s.borax.waitRoom.length).foldl (fun s _ => overJob s) s)

/-- A free coder lane takes the next item: engine 0, lane 0 upward, skipping lanes out of service (R236). -/
def laneTake (s : State) : List (Fin 16) → State
  | [] => s
  | l :: r =>
    if !laneUp s l.val || (s.borax.lanes[l]).isSome then laneTake s r
    else match nextItem s (Fin.ofNat 4 (l.val / 4)) with
      | none => laneTake s r
      | some i => setBorax (dropItem s i) fun b => { b with lanes := b.lanes.set l (some i) }

/-- CODER_LANE_TAKE_ITEM (R236). -/
def coderTake (s : State) : State := laneTake s (List.finRange 16)

/-- Mismatches found by self-verify: each counted and raised (R230, R245). -/
def verifyMismatches (s : State) (e l : Nat) : Nat → State
  | 0 => s
  | n + 1 =>
    let s := verifyMismatches s e l n
    brxEvent (bump s brxVerifyMismatch) 0 0x060 e l n

/-- A cell retires itself and reports to its block (R13, R35). -/
def retireCell (s : State) (r b c : Nat) : State :=
  if isRetired s r b c then s
  else raise { s with retired := s.retired ++ [⟨r, b, c⟩] } 0 r 0x3F0 b c 0

/-- An item done: its output goes to its user; `forced` are the blocks written STORED after the third retry of self-verify, and `verified` is false where a block stayed unverified (R230, R233, R236 to R242). -/
def itemDone (s : State) (i : BxItem) (forced : List Nat) (verified : Bool) : State :=
  match i with
  | .repeatSeg f ph st c g => repeatDone s f ph st c g
  | .shadowSeg f ph st g => shadowCoded s f ph st g forced verified
  | .ingest x =>
    let out := match boraxDecode x.payload with | .ok raw => some raw | .error _ => none
    if serves s 3 then bandDecoded s x out else s
  | .retBand f n raw => retCoded s f n raw forced
  | .job e j => finishJob s e j forced

/-- Self-verify applies to what a lane codes: not to repeats, ingest and decompress jobs (R230). -/
def codes (s : State) (i : BxItem) : Bool :=
  match i with
  | .repeatSeg .. => false
  | .ingest _ => false
  | .job _ j => readLe s j.addr 1 == 0
  | _ => true

/-- An item that a lane could not verify: a shadow segment drops its stripe; another item is coded again by another lane (R13, R230, R238). -/
def unverified (s : State) (n : Fin 16) (i : BxItem) : State :=
  match i with
  | .shadowSeg .. => itemDone (setBorax s fun b => { b with lanes := b.lanes.set n none }) i [] false
  | _ => boraxBack s n

/-- Corrected errors of a unit counted; more than 16 within 1 s (R13). -/
def correctedBlocks (s : State) (e l : Nat) : Nat → State × Bool
  | 0 => (s, false)
  | n + 1 =>
    let x := correctedBlocks s e l n
    let y := countCorrected (raise x.1 0 12 0x3F6 e l 0) ⟨12, e, l⟩ 1
    (y.1, x.2 || y.2)

/-- CODER_ITEM_DONE: `mismatches` counts the failed verifications of each of its blocks. Up to three are retries; after a fourth the block is written STORED, and the lane retires; a fifth is that comparison failing (R13, R230). -/
def coderDone (s : State) (e l : Fin 4) (mismatches : List Nat) : State :=
  let n : Fin 16 := Fin.ofNat 16 (4 * e.val + l.val)
  match s.borax.lanes[n] with
  | none => s
  | some i =>
    let ms := if codes s i then mismatches.map fun m => min m 5 else []
    let s := ms.foldl (fun s m => verifyMismatches s e.val l.val m) s
    let forced := (List.range ms.length).filter fun k => decide (4 ≤ ms.getD k 0)
    let (s, beyond) := correctedBlocks s e.val l.val (ms.filter fun m => m != 0 && decide (m < 4)).length
    let s := if ms.contains 5 then unverified s n i
      else itemDone (setBorax s fun b => { b with lanes := b.lanes.set n none }) i forced true
    if beyond || !forced.isEmpty then retireCell s 12 e.val l.val else s

/-! Drain (R243). -/

/-- Borax drains: jobs end LOST, ingest items as decode errors, repeat fills unwritten; the input buffer and the directory are cleared; the return stream ends without STREAM_END (R243). -/
def boraxDrained (s : State) : State :=
  let running := s.borax.lanes.toList.filterMap id
  let queued := (List.finRange 4).flatMap fun e => (s.borax.jobs[e]).map fun j => BxItem.job e.val j
  let ingest := s.quartz.ingest.map fun i => BxItem.ingest i
  let s := { s with borax := { s.borax with
    lanes := Vector.replicate 16 none, repeatQ := [], shadow := [], shadowQ := [], retQ := []
    jobs := Vector.replicate 4 [], again := [], waitRoom := [], dir := [], shadowOn := false
    ret := { s.borax.ret with open_ := false, changed := false, todo := [] } } }
  let s := setQuartz s fun q => { q with ingest := [] }
  let s := (running ++ queued ++ ingest).foldl (fun s i => match i with
    | .ingest x => if serves s 3 then bandDecoded s x none else s
    | .job e j =>
      if running.contains i then
        let d := if readStatus s 12 j.addr 64 = 0 then jobDesc (readBytes s j.addr 64) else jobDesc []
        jobEnded s e j d ⟨5, 0, 0, 0, 0, 0⟩
      else s
    | _ => s) s
  boraxStatus s

/-! Meanings. -/

/-- JOB_SUBMIT (R234). -/
def execJobSubmit (q : Requester) (v : Word) (s : State) : Out := .next (reqServes s q 12 fun s => jobSubmit s q v)

/-- CODER_ITEM_DONE (R230). -/
def execCoderItemDone (engine lane : Fin 4) (mismatches : List Nat) (s : State) : Out :=
  .next (whenServes s 12 fun s => coderDone s engine lane mismatches)

/-- RET_CTRL_WRITE (R241). -/
def execRetCtrlWrite (q : Requester) (v : Word) (s : State) : Out := .next (reqServes s q 12 fun s => retCtrlWrite s v)

end Sys2Proof.Machine
end

