-- ==== Sys2Proof/Machine/Links.lean ====
section
/-! DEFINITION. The serial lanes: blocks, training, equalisation, recovery, sparing, and the packet layer of the source ports (R311 to R342). -/

namespace Sys2Proof.Machine

/-- The links changed. -/
def setLinks (s : State) (f : Links → Links) : State := { s with links := f s.links }

/-- A source port's packet layer changed. -/
def setSl (s : State) (p : Fin 4) (f : SlPort → SlPort) : State :=
  setLinks s fun k => { k with port := vUpd k.port p f }

/-- A lane's state. -/
def laneOf (s : State) (l : Lane) : LaneSt :=
  match l with
  | .src p i => (s.links.src[p])[i]
  | .panel g i => (s.links.panel[g])[i]
  | .back i => s.links.back[i]

/-- The unit that a lane is (R334, R342): region, block, cell. -/
def laneUnit : Lane → UnitId
  | .src p i => ⟨3, p.val, i.val⟩
  | .panel g i => ⟨14, g.val, i.val⟩
  | .back i => ⟨14, 14, i.val⟩

/-- A lane has retired (R334). -/
def laneRetired (s : State) (l : Lane) : Bool := s.retired.contains (laneUnit l)

/-- The register that holds a lane's margins, version and test fields (R338, R340). -/
def laneCtrl : Lane → Nat
  | .src p _ => qtzPortLinkCtrl p.val
  | _ => obsLinkCtrl

/-- The region of a lane. -/
def laneRegion (l : Lane) : Nat := (laneUnit l).region

/-- Lanes of a source port, or of a panel lane group. -/
def portLanes (p : Fin 4) : List Lane := (List.finRange 4).map fun i => .src p i

/-- STATE of a link from its lanes' states: that of the slowest lane that is not OFF (R338). -/
def slowest (sts : List Nat) : Nat :=
  let on := sts.filter (· != 0)
  if on.contains 9 then 9 else if on.contains 8 then 8 else if on.contains 7 then 7
  else on.foldl min (on.headD 0)

/-- The spare lane that has been swapped in for a position of a group (R335). -/
def spareFor (s : State) (g : Fin 13) (j : Fin 4) : Option Lane :=
  ((List.finRange 2).find? fun i => (s.links.spare[i]).any fun u => u.group == g.val && u.pos == j.val && !u.waits).map
    fun i => .panel 12 ⟨i.val, by omega⟩

/-- The lane that carries a position of a group: the spare that has been swapped in, otherwise its own, in ACTIVE (R335). -/
def carrierOf (s : State) (g : Fin 13) (j : Fin 4) : Option Lane :=
  [(spareFor s g j).getD (.panel g j)].find? fun l => (laneOf s l).st == 6

/-- Position `j` of a group is carried (R335, R340). -/
def posCarried (s : State) (g : Fin 13) (j : Fin 4) : Bool := (carrierOf s g j).isSome

/-- OBS_LGg_STATUS follows the group's lanes and the spares swapped in (R340). -/
def groupShow (s : State) (g : Fin 13) : State :=
  let s := setF s (obsLgStatus g.val) 16 16 (sumNat ((List.finRange 4).map fun i => (laneOf s (.panel g i)).st * 16 ^ i.val))
  let s := setF s (obsLgStatus g.val) 4 4 (sumNat ((List.finRange 4).map fun i => b2n (posCarried s g i) * 2 ^ i.val))
  setF s (obsLgStatus g.val) 2 2 (sumNat ((List.finRange 2).map fun i =>
    b2n ((s.links.spare[i]).any fun u => u.group == g.val && !u.waits) * 2 ^ i.val))

/-- The status registers of a lane's link follow its lanes; those of the groups that spares carry follow the spares (R338, R340). -/
def laneShow (s : State) (l : Lane) : State :=
  match l with
  | .src p _ => setF s (qtzPortLinkStatus p.val) 28 4 (slowest ((portLanes p).map fun x => (laneOf s x).st))
  | .panel g _ =>
    if g.val < 12 then groupShow s g
    else s.links.spare.toList.foldl (fun s x => match x with
      | some u => groupShow s (Fin.ofNat 13 u.group)
      | none => s) (groupShow s g)
  | .back _ => s

/-- A lane's state changed, and its link's status with it. -/
def setLane (s : State) (l : Lane) (f : LaneSt → LaneSt) : State :=
  laneShow (setLinks s fun k => match l with
    | .src p i => { k with src := vUpd k.src p fun v => vUpd v i f }
    | .panel g i => { k with panel := vUpd k.panel g fun v => vUpd v i f }
    | .back i => { k with back := vUpd k.back i f }) l

/-- A receiver of the P9 adapts its CTLE: the setting that it comes to is open (R311, R331). The panel's data and spare lanes have theirs in the column drivers. -/
def adaptCtle (s : State) (l : Lane) : State :=
  match l with
  | .panel _ _ => s
  | _ =>
    let (v, s) := takeFree s 46
    setLane s l fun x => { x with ctle := v % 16 }

/-- A lane enters a state of R326: lock is sought anew in WAKE and after a change of rate; in EQ, HANDOFF and RECOVERY the receiver adapts its CTLE. -/
def enterLane (s : State) (l : Lane) (st : Nat) : State :=
  let s := setLane s l fun x =>
    let y : LaneSt := match st with
      | 0 => { errs := x.errs }
      | 1 => { errs := x.errs, st := 1, txScr := x.txScr }
      | 3 => { x with st := 3, lock := false, run := 0, hist := [] }
      | 4 => { x with st := 4, widths := [] }
      | 9 => { x with st := 9, handOwn := false, handIn := false, badRounds := 0, out := none }
      | _ => { x with st := st, handOwn := false, handIn := false, badRounds := 0, aligned := false, fifo := [] }
    { y with since := s.now }
  if st = 4 ∨ st = 5 ∨ st = 7 then adaptCtle s l else s

/-- The transmit side of a source port's link changed. -/
def setSrcTx (s : State) (p : Fin 4) (f : LinkTx → LinkTx) : State := setLinks s fun k => { k with srcTx := vUpd k.srcTx p f }

/-- The transmit side of a lane group changed. -/
def setGroupTx (s : State) (g : Fin 13) (f : LinkTx → LinkTx) : State := setLinks s fun k => { k with groupTx := vUpd k.groupTx g f }

/-- The stream of a link starts at position 0: every lane is aligned anew at its next SKIP (R317). -/
def rxAfresh (s : State) (p : Fin 4) : State :=
  (portLanes p).foldl (fun s l => setLane s l fun x => { x with aligned := false, fifo := [] })
    (setLinks s fun k => { k with srcRx := k.srcRx.set p {} })

/-! Links up and down (R326, R327, R336, R342). -/

/-- STATE of a source port's link. -/
def linkState (s : State) (p : Fin 4) : Nat := getF s (qtzPortLinkStatus p.val) 28 4

/-- The link is in service: ACTIVE or RECOVERY (R327). -/
def linkServes (s : State) (p : Fin 4) : Bool := linkState s p == 6 || linkState s p == 7

/-- A source port's lanes all enter a state; an excluded or retired lane stays OFF (R326, R334, R336). -/
def allLanes (s : State) (p : Fin 4) (st : Nat) : State :=
  (portLanes p).foldl (fun s l =>
    let out := (s.links.port[p]).excluded.contains (laneUnit l).cell || laneRetired s l
    enterLane s l (if out then 0 else st)) s

/-- The link leaves service: the port stalls (R83, R327). -/
def leaveService (s : State) (p : Fin 4) (wasIn : Bool) : State := if wasIn then stallPort s p .link else s

/-- The link trains from WAKE (R326). -/
def trainPort (s : State) (p : Fin 4) : State :=
  let was := linkServes s p
  leaveService (allLanes (setF s (qtzPortLinkStatus p.val) 20 4 0) p 1) p was

/-- The link goes to OFF with a reason, and LINK_DOWN is raised (R326, R342). -/
def portFail (s : State) (p : Fin 4) (reason : Nat) : State :=
  let was := linkServes s p
  let s := setF (setF s (qtzPortLinkStatus p.val) 0 8 reason) (qtzPortLinkStatus p.val) 20 4 0
  let s := allLanes s p 0
  leaveService (qtzEvent s 0x021 p.val reason) p was

/-- The packet layer starts afresh when the link enters ACTIVE from training: SEQ 0, the credits of the partner's CAPS, and STREAM_STATUS from SEQ 0 (R68, R320, R322, R328). -/
def freshPort (s : State) (p : Fin 4) (caps : List Byte) : State :=
  let s := setSl s p fun k => { excluded := k.excluded, rateCap := k.rateCap, credit := #v[leAt caps 7 2, leAt caps 9 2] }
  setQPort (setSrcTx s p fun _ => {}) p fun q => { q with statusSeq := 0 }

/-- A panel lane group fails training (R326, R342). -/
def groupFail (s : State) (l : Lane) (reason : Nat) : State :=
  let s := enterLane s l 9
  let u := laneUnit l
  let s := match l with
    | .panel g _ => setF s (obsLgStatus g.val) 8 8 reason
    | _ => s
  raise s 2 14 0x0A0 u.block 0xFF (u.block % 16 + 256 * reason)

/-- A lane ends its training with a failure (R326, R331). -/
def laneFail (s : State) (l : Lane) (reason : Nat) : State :=
  match l with
  | .src p _ =>
    let rate := getF s (qtzPortLinkStatus p.val) 24 2
    if reason = 7 ∧ 0 < rate then
      trainPort (setF (setSl s p fun k => { k with rateCap := rate - 1 }) (qtzPortLinkStatus p.val) 0 8 reason) p
    else portFail s p reason
  | _ => groupFail s l reason

/-- Event LANE_RECOVERY (R342). -/
def recoveryEvent (s : State) (l : Lane) (arg : Nat) : State :=
  let u := laneUnit l
  raise s 0 u.region (if u.region = 3 then 0x022 else 0x0A1) u.block u.cell arg

/-- An idle spare lane that is wired to a group (R335). -/
def idleSpare (s : State) (g : Nat) : Option (Fin 2) :=
  (List.finRange 2).find? fun i =>
    getF s obsSpareMap (4 * i.val) 4 == g && (s.links.spare[i]).isNone &&
    (laneOf s (.panel 12 ⟨i.val, by omega⟩)).st == 6

/-- A lane of a group leaves ACTIVE: an idle spare is swapped in on a chain of version 2.0, and SPARE_SWAP goes out on every lane of the group; otherwise the group re-forms over its working lanes (R335). -/
def spareSwap (s : State) (g : Fin 13) (j : Fin 4) : State :=
  match (if s.links.chain[g] = 2 then idleSpare s g.val else none) with
  | some i =>
    let s := laneShow (setLinks s fun k => { k with spare := k.spare.set i (some ⟨g.val, j.val, true, false⟩) }) (.panel g j)
    setGroupTx s g fun x => { x with swap := some (j.val, i.val) }
  | none => s

/-- A lane in ACTIVE enters RECOVERY with a reason (R314, R316, R321, R332). -/
def laneRecover (s : State) (l : Lane) (reason : Nat) : State :=
  if (laneOf s l).st ≠ 6 then s
  else
    let s := recoveryEvent (setLane (enterLane s l 7) l fun x => { x with reason := reason, lock := false, run := 0, hist := [] }) l reason
    match l with
    | .panel g j => if g.val < 12 then spareSwap s g j else s
    | _ => s

/-- A lane retires: after a failed RECOVERY, or with more than 16 errors in a second (R334 to R336). -/
def laneRetire (s : State) (l : Lane) (reason : Nat) : State :=
  let u := laneUnit l
  let s := retireCell s u.region u.block u.cell
  match l with
  | .src p _ =>
    let used := getF s (qtzPortLinkStatus p.val) 20 4
    let left := (List.range 4).filter fun i => bitAt used i && i != u.cell
    let s := enterLane (setSl s p fun k => { k with excluded := natInsert k.excluded u.cell }) l 9
    if left.isEmpty then portFail s p reason
    else
      let n := if left.length < 2 then 1 else 2
      let s := setF s (qtzPortLinkStatus p.val) 0 8 reason
      qtzEvent (trainPort s p) 0x023 p.val (sumNat ((left.take n).map fun i => 2 ^ i))
  | .panel g _ => raise (setF (enterLane s l 9) (obsLgStatus g.val) 8 8 reason) 1 14 0x0A2 u.block u.cell (u.cell % 4 + 256 * reason)
  | .back _ => raise (enterLane s l 9) 1 14 0x0A2 u.block u.cell (u.cell % 4 + 256 * reason)

/-- An error of a lane: more than 16 within 1 s retire it (R334). -/
def laneError (s : State) (l : Lane) : State :=
  let recent := (s.now :: (laneOf s l).errs).filter fun t => decide (s.now < t + 1000000000)
  if 16 < recent.length ∧ !laneRetired s l then laneRetire (setLane s l fun x => { x with errs := [] }) l 10
  else setLane s l fun x => { x with errs := recent.take 17 }

/-- A lane enters ACTIVE: from RECOVERY with its event, from training as part of its link (R326, R335, R342). -/
def laneEnters (s : State) (l : Lane) : State :=
  let old := laneOf s l
  let s := enterLane s l 6
  let s := if old.st = 7 then recoveryEvent s l (old.reason + 256) else s
  match l with
  | .src p _ =>
    if linkState s p ≠ 6 then s
    else if old.st = 7 then rxAfresh s p
    else
      let st := readReg s (qtzPortLinkStatus p.val)
      qtzEvent (rxAfresh (freshPort s p old.caps) p) 0x020 p.val (fld st 26 2 + 4 * fld st 24 2 + 16 * fld st 20 4)
  | .panel g j =>
    if old.st = 7 then
      setLinks s fun k => { k with spare := k.spare.map fun x => match x with
        | some u => if u.group = g.val ∧ u.pos = j.val then (if u.waits then none else some { u with back := true }) else some u
        | none => none }
    else s
  | .back _ => s

/-! Negotiation (R323, R328, R329). -/

/-- VERSION_MAJOR and VERSION_MINOR as a code of SL_VERSION_MAX: the highest version an end offers. -/
def versionCode (major minor : Nat) : Option Nat :=
  if major = 0 then none else if major = 1 then some (if minor = 0 then 0 else 1) else some 2

/-- Rates that a version has, one bit each (R329). -/
def versionRates (v : Nat) : Nat := [3, 7, 15].getD v 15

/-- The highest rate of the part, as RATE_MAX: 24 Gb/s, or 16 Gb/s on P9-C55-16 (R2, R311). -/
def partRate (p : Part) : Nat :=
  match p with
  | .c24 => 3
  | .c16 => 2

/-- The rates this end offers on a lane's link: every rate up to the lesser of RATE_MAX and the part's limit; on the panel port only RATE (R328). The backchannel runs at its one fixed rate (R311). -/
def ratesOffered (s : State) (l : Lane) : Nat :=
  match l with
  | .src p _ => 2 ^ (min (min (getF s (qtzPortLinkCtrl p.val) 3 2) (partRate s.part)) (s.links.port[p]).rateCap + 1) - 1
  | .panel _ _ => if getF s obsLinkCtrl 3 2 ≤ partRate s.part then 2 ^ getF s obsLinkCtrl 3 2 else 0
  | .back _ => 0

/-- 4, 2 or 1 lanes (R329). -/
def widthOf (n : Nat) : Nat := if 4 ≤ n then 4 else if 2 ≤ n then 2 else 1

/-- A backchannel lane. -/
def isBack : Lane → Bool
  | .back _ => true
  | _ => false

/-- The outcome of R329 for a partner's CAPS: version and rate, or the reason that training fails with. -/
def negotiate (s : State) (l : Lane) (caps : List Byte) : Except Nat (Nat × Nat) :=
  let isSrc := laneRegion l == 3
  let profile := leAt caps 3 1 % 2
  let role := leAt caps 3 1 / 2 % 4
  let own := if isSrc then getF s (laneCtrl l) 1 1 else 2
  let badRole := if isSrc then decide (1 < role) || role == own else role != 3
  if profile ≠ (if isSrc then 0 else 1) then .error 2
  else if badRole then .error 3
  else match versionCode (leAt caps 1 1) (leAt caps 2 1) with
    | none => .error 4
    | some pv =>
      let v := min pv (getF s (laneCtrl l) 5 2)
      if isBack l then .ok (v, 0) else
      let r := ratesOffered s l &&& leAt caps 4 1 &&& versionRates v
      if r = 0 then .error 5 else .ok (v, r.log2)

/-- A lane's CAPS exchange ends: the port's version, rate and lanes are set by the first lane; lanes beyond the common count go to OFF (R329). -/
def capsDone (s : State) (l : Lane) (caps : List Byte) : State :=
  match negotiate s l caps with
  | .error r => laneFail s l r
  | .ok (v, r) =>
    match l with
    | .src p i =>
      let k := qtzPortLinkStatus p.val
      let s :=
        if getF s k 20 4 ≠ 0 then s
        else
          let on := (List.finRange 4).filter fun j => (laneOf s (.src p j)).st != 0
          let n := widthOf (min on.length (leAt caps 5 1))
          let used := on.take n
          let s := setF (setF (setF s k 26 2 v) k 24 2 r) k 20 4 (sumNat (used.map fun j => 2 ^ j.val))
          (on.drop n).foldl (fun s j => enterLane s (.src p j) 0) s
      if (laneOf s (.src p i)).st = 2 then enterLane s l 3 else s
    | .panel g _ => enterLane (setLinks s fun x => { x with chain := x.chain.set g v, rate := x.rate.set g r }) l 3
    | .back _ => enterLane s l 3

/-! Blocks (R312 to R316). -/

/-- A header is valid: of even weight and not 0; Septolink-S has no START_NEG and END_NEG (R312). -/
def blockHeaderOk (l : Lane) (h : Nat) : Bool :=
  headerWeight h % 2 == 0 && h != 0 && !(laneRegion l == 3 && (h == 10 || h == 15))

/-- Lock and 8 TRAIN blocks with READY: WAKE leads to CAPS; lock alone leads from RATE to EQ (R326). -/
def lockStep (s : State) (l : Lane) : State :=
  let x := laneOf s l
  if x.st = 1 ∧ x.lock ∧ 8 ≤ x.ready then enterLane s l 2
  else if x.st = 3 ∧ x.lock then enterLane s l 4
  else s

/-- A header is received: block lock is gained after 64 valid ones in a row, and lost with 16 invalid ones of 64 (R314). -/
def headerSeen (s : State) (l : Lane) (h : Nat) : State :=
  let ok := blockHeaderOk l h
  let s := setLane s l fun x =>
    let run := if ok then min 64 (x.run + 1) else 0
    let hist := ((!ok) :: x.hist).take 64
    let lost := x.lock && decide (16 ≤ hist.countP id)
    { x with run, hist := if lost then [] else hist, lock := if lost then false else x.lock || run == 64 }
  if ok then lockStep s l else laneError s l

/-- A SKIP block: the receiver loads S, and a lane in ACTIVE that is not aligned takes its stream from here on (R313, R315, R317). -/
def skipBlock (s : State) (l : Lane) (payload : List Byte) : State :=
  if controlOk payload 0 && decide (leAt payload 1 4 < 2 ^ 31) then
    setLane s l fun x => { x with scr := leAt payload 1 4, aligned := x.aligned || x.st == 6 }
  else s

/-- A TRAIN block: READY counts in WAKE; HANDOFF_OK of both ends leads to ACTIVE (R315, R326, R331). -/
def trainBlock (s : State) (l : Lane) (payload : List Byte) : State :=
  if !controlOk payload 1 then s
  else
    let f := leAt payload 5 1
    let s := setLane s l fun x => { x with
      asked := leAt payload 4 1
      kept := if x.st = 4 ∧ leAt payload 4 1 ≠ 255 then leAt payload 4 1 else x.kept
      ready := if x.st = 1 ∧ bitAt f 0 then min 8 (x.ready + 1) else x.ready
      handIn := x.handIn || (x.st == 5 && bitAt f 1) }
    let x := laneOf s l
    if x.st = 5 ∧ x.handOwn ∧ x.handIn then laneEnters s l else lockStep s l

/-- A CAPS block: 8 identical ones decide (R326, R329). -/
def capsBlock (s : State) (l : Lane) (payload : List Byte) : State :=
  if !controlOk payload 2 || (laneOf s l).st != 2 then s
  else
    let s := setLane s l fun x =>
      if x.caps = payload then { x with capsN := x.capsN + 1 } else { x with caps := payload, capsN := 1 }
    if 8 ≤ (laneOf s l).capsN then capsDone s l payload else s

/-- The version that a lane's link runs, as SL_VERSION_MAX (R329). -/
def laneVersion (s : State) (l : Lane) : Nat :=
  match l with
  | .src p _ => getF s (qtzPortLinkStatus p.val) 26 2
  | .panel g _ => s.links.chain[g]
  | .back _ => 2

/-- Presets of the version of a lane's link (R329). -/
def presetCount (s : State) (l : Lane) : Nat := if laneVersion s l = 0 then 5 else 11

/-- A preset's eye has been measured; after the last, the widest is chosen, the lower-numbered where two are equal (R331). -/
def eqMeasured (s : State) (l : Lane) (width : Nat) : State :=
  if (laneOf s l).st ≠ 4 then s
  else
    let n := presetCount s l
    let s := setLane s l fun x => { x with widths := x.widths ++ [width] }
    let ws := (laneOf s l).widths
    if ws.length < n then adaptCtle s l
    else
      let best := ws.foldl max 0
      if best < 2 * getF s (laneCtrl l) 8 6 then laneFail s l 6
      else
        let s := setLane s l fun x => { x with preset := (ws.findIdx? (· == best)).getD 0 }
        if n = 5 then laneEnters s l else enterLane s l 5

/-- The number by which a region's EYE_CTRL selects a lane (R338, R340). -/
def eyeNumber : Lane → Nat
  | .src p i => 4 * p.val + i.val
  | .panel g i => 4 * g.val + i.val
  | .back i => 52 + i.val

/-- An eye point runs on the lane, and suspends its background monitor (R333). -/
def eyeRuns (s : State) (l : Lane) : Bool :=
  (s.links.eye[if laneRegion l = 3 then (0 : Fin 2) else 1]) == some (eyeNumber l)

/-- A margin test ends: it decides HANDOFF and RECOVERY; in ACTIVE two rounds with an error in a row lead to RECOVERY (R326, R331, R332). -/
def marginEnds (s : State) (l : Lane) (error : Bool) : State :=
  let x := laneOf s l
  if x.st = 6 ∧ eyeRuns s l then s
  else if x.st = 5 then
    if error then s
    else
      let s := setLane s l fun x => { x with handOwn := true }
      if x.handIn then laneEnters s l else s
  else if x.st = 7 then
    if error || !x.lock then s else laneEnters s l
  else if x.st = 6 then
    if !error then setLane s l fun x => { x with badRounds := 0 }
    else if x.badRounds = 1 then laneRecover s l 11
    else setLane s l fun x => { x with badRounds := 1 }
  else s

/-- A state's bound is reached (R326, R334). -/
def laneTimeout (s : State) (l : Lane) : State :=
  match (laneOf s l).st with
  | 1 => laneFail s l 1
  | 2 => laneFail s l 2
  | 3 => laneFail s l 1
  | 4 => laneFail s l 6
  | 5 => laneFail s l 7
  | 7 => laneRetire s l (laneOf s l).reason
  | _ => s

/-! Packets (R318 to R322). -/

/-- Bytes of CHANNEL 0 that have been accepted: whole units go to the parser; a disabled port takes none (R319, R85). -/
def feedLink (s : State) (p : Fin 4) (body : List Byte) : State :=
  let s := setSl s p fun k => { k with rx := k.rx.set 0 (k.rx[0] ++ body) }
  if (qport s p).held.isEmpty then retryHeld (feedRx s p) else s

/-- Credits of 64-byte units that a length takes (R322). -/
def creditsOf (len : Nat) : Nat := (len + 63) / 64

/-- Blocks take their places in the stream that a port sends (R317). -/
def portQueue (s : State) (p : Fin 4) (bs : List TxBlock) : State := setSrcTx s p fun x => { x with queue := x.queue ++ bs }

/-- ACK, or NAK, of the last SEQ accepted goes out, between packets (R320). -/
def sendAck (s : State) (p : Fin 4) (nak : Bool) (seq : Nat) : State := portQueue s p [⟨6, ackBytes nak seq⟩]

/-- Credits whose bytes have left the buffer go back; CHANNEL 0 waits while the port is held (R77, R322). -/
def creditBack (s : State) (p : Fin 4) : State :=
  (List.finRange 2).foldl (fun s (c : Fin 2) =>
    let n := (s.links.port[p]).owed[c]
    if n = 0 || (c.val == 0 && !(qport s p).held.isEmpty) then s
    else portQueue (setSl s p fun k => { k with owed := k.owed.set c 0 }) p [⟨6, creditBytes c.val n⟩]) s

/-- A packet of the replay buffer as its blocks: KIND STREAM_DATA (R318, R319). -/
def slBlocks (x : SlOut) : List TxBlock := packetBlocks 0 x.seq x.channel x.body false false

/-- A packet leaves: credits are taken at the first transmission and the replay buffer keeps it (R320 to R322). -/
def sendPacket (s : State) (p : Fin 4) (c : Fin 2) (body : List Byte) : State :=
  let x : SlOut := ⟨(s.links.port[p]).seqTx, c.val, body⟩
  portQueue (setSl s p fun k => { k with
    seqTx := (k.seqTx + 1) % 4096
    credit := k.credit.set c (k.credit[c] - creditsOf body.length)
    replay := k.replay ++ [x] }) p (slBlocks x)

/-- A packet of a length may leave on a channel (R320 to R322). -/
def maySend (s : State) (p : Fin 4) (c : Fin 2) (len : Nat) : Bool :=
  let k := s.links.port[p]
  linkState s p == 6 && decide (8 ≤ len) && decide (creditsOf len ≤ k.credit[c]) && decide (k.replay.length < 2048) &&
  decide (sumNat (k.replay.map fun x => x.body.length) + len ≤ 262144)

/-- Bytes of the return ring that wait for the port, each stream going to the PORT it was started under: at most 4,096 (R241, R319). -/
def returnBytes (s : State) (p : Fin 4) : List Byte :=
  let r := s.borax.ret
  let size := (readReg s brxRetSize).toNat
  let mine := (r.ports.filter fun x => decide (x.1 ≤ r.rd)).getLast?
  let next := ((r.ports.find? fun x => decide (r.rd < x.1)).map fun x => x.1).getD r.wr
  if (mine.map fun x => x.2) ≠ some p.val ∨ size = 0 then []
  else (List.range (min 4096 (min r.wr next - r.rd))).map fun i => readByte s (addr40 s brxRetBaseLo brxRetBaseHi / 4096 * 4096 + (r.rd + i) % size)

/-- What waits is sent as credits allow: STREAM_STATUS units on CHANNEL 1, the return stream on CHANNEL 0 (R68, R319, R322). -/
def linkSend (p : Fin 4) : Nat → State → State
  | 0, s => s
  | fuel + 1, s =>
    match (qport s p).statusOut with
    | u :: r =>
      if maySend s p 1 16 then
        linkSend p fuel (sendPacket (setQPort s p fun q => { q with statusOut := r, statusSeq := (q.statusSeq + 1) % 65536 }) p 1
          (statusUnit (qport s p).statusSeq u))
      else s
    | [] =>
      let bs := returnBytes s p
      if !bs.isEmpty && maySend s p 0 bs.length then
        linkSend p fuel (sendPacket (setBorax s fun b => { b with ret := { b.ret with rd := b.ret.rd + bs.length } }) p 0 bs)
      else s

/-- The port returns credits and sends what waits. -/
def linkRun (s : State) (p : Fin 4) : State := linkSend p 64 (creditBack s p)

/-- Every source port does so. -/
def linksRun (s : State) : State := if serves s 3 then (List.finRange 4).foldl linkRun s else s

/-- A packet keeps R319: KIND STREAM_DATA, CHANNEL 0 or 1, LENGTH 8 to 4,096. -/
def packetKept (k : SlPacket) : Bool :=
  leAt k.start 4 1 == 0 && decide (leAt k.start 2 2 / 4096 < 2) && decide (8 ≤ k.body.length) && decide (k.body.length ≤ 4096)

/-- A damaged packet, or one ahead of the expected SEQ, is discarded and answered with one NAK until a packet is accepted (R320). -/
def nakOnce (s : State) (p : Fin 4) : State :=
  let x := s.links.port[p]
  if x.nakSent then s else sendAck (setSl s p fun x => { x with nakSent := true }) p true ((x.seqRx + 4095) % 4096)

/-- A packet arrives on a link in ACTIVE: accepted in SEQ order with an ACK, otherwise discarded (R320). -/
def packetIn (s : State) (p : Fin 4) (k : SlPacket) : State :=
  if linkState s p ≠ 6 || !serves s 3 then s
  else
    let x := s.links.port[p]
    let seq := leAt k.start 2 2 % 4096
    let ahead := (seq + 4096 - x.seqRx) % 4096
    if packetDamaged k || !packetKept k || (ahead != 0 && decide (ahead < 2048)) then nakOnce s p
    else if ahead ≠ 0 then sendAck s p false ((x.seqRx + 4095) % 4096)
    else
      let c : Fin 2 := Fin.ofNat 2 (leAt k.start 2 2 / 4096)
      let s := setSl s p fun x => { x with
        seqRx := (seq + 1) % 4096, nakSent := false, owed := x.owed.set c (x.owed[c] + creditsOf k.body.length) }
      let s := sendAck s p false seq
      linkRun (if c = 0 then feedLink s p k.body else s) p

/-- An ACK frees the packets up to the one it names (R321). -/
def ackIn (s : State) (p : Fin 4) (seq : Nat) : State :=
  let k := s.links.port[p]
  match k.replay.findIdx? fun x => x.seq == seq with
  | none => s
  | some i => linkRun (setSl s p fun k => { k with replay := k.replay.drop (i + 1), resent := 0 }) p

/-- The oldest unacknowledged packet is sent again, and every one after it, in order; after 4 times without progress the link's lanes enter RECOVERY with reason REPLAY (R321). -/
def resend (s : State) (p : Fin 4) : State :=
  let k := s.links.port[p]
  if k.replay.isEmpty then s
  else if 4 ≤ k.resent then
    (portLanes p).foldl (fun s l => laneRecover s l 9) (setSl s p fun k => { k with resent := 0 })
  else portQueue (setSl s p fun k => { k with resent := k.resent + 1 }) p (k.replay.flatMap slBlocks)

/-- A NAK frees what it acknowledges, and every packet after the one named is sent again (R321). -/
def nakIn (s : State) (p : Fin 4) (seq : Nat) : State := resend (ackIn s p seq) p

/-- A CREDIT block returns credits (R322). -/
def creditIn (s : State) (p : Fin 4) (c : Fin 2) (n : Nat) : State :=
  linkRun (setSl s p fun k => { k with credit := k.credit.set c (k.credit[c] + n) }) p

/-! The backchannel's reports (R325). -/

/-- A lane group's share of a LINE_REPORT: damaged LINEs counted, the event once per phase, and the lanes' error bits (R325, R334). -/
def groupReport (s : State) (b : Fin 4) (payload : List Byte) (k : Nat) : State :=
  let g : Fin 13 := Fin.ofNat 13 (3 * b.val + k)
  let mask := leAt payload (3 + 2 * k) 2
  let s :=
    if mask = 0 then s
    else
      let s := bump s obsLineCrcFails
      if s.links.crcRaised.contains g.val then s
      else raise (setLinks s fun x => { x with crcRaised := g.val :: x.crcRaised }) 1 14 0x0A3 g.val 0xFF
        (leAt payload 1 2 + 65536 * mask)
  (List.finRange 4).foldl (fun s j =>
    let l := (spareFor s g j).getD (.panel g j)
    if bitAt (leAt payload 9 2) (4 * k + j.val) then laneRecover (laneError s l) l 1 else s) s

/-- A LINE_REPORT (R325). -/
def lineReportIn (s : State) (b : Fin 4) (payload : List Byte) : State :=
  if controlOk payload 0x83 then (List.range 3).foldl (fun s k => groupReport s b payload k) s else s

/-! The stream that a link receives (R315, R317, R318, R325). -/

/-- A block of a port's stream in its turn: ACK, NAK, CREDIT, or a block of a packet (R315, R318, R320). -/
def portBlock (s : State) (p : Fin 4) (b : TxBlock) : State :=
  if b.header = 6 then
    let v := leAt b.payload 1 2
    if controlOk b.payload 0x80 then ackIn s p (v % 4096)
    else if controlOk b.payload 0x81 then nakIn s p (v % 4096)
    else if controlOk b.payload 0x82 && decide (leAt b.payload 1 1 < 2) then
      creditIn s p (Fin.ofNat 2 (leAt b.payload 1 1)) (leAt b.payload 2 2)
    else s
  else
    let (a, got) := asmBlock (s.links.srcRx[p]).asm b.header b.payload
    let s := setLinks s fun k => { k with srcRx := vUpd k.srcRx p fun x => { x with asm := a } }
    match got with
    | .nothing => s
    | .packet k => packetIn s p k
    | .damaged => nakOnce s p

/-- The lanes in use of a source port's link, in the order of their positions (R317, R338). -/
def usedLanes (s : State) (p : Fin 4) : List (Fin 4) :=
  (List.finRange 4).filter fun i => bitAt (getF s (qtzPortLinkStatus p.val) 20 4) i.val

/-- Block k of the stream is the next block of the lane in position k mod L: the lanes' blocks are taken in that order as far as they have come (R317). -/
def streamTake (p : Fin 4) : Nat → State → State
  | 0, s => s
  | fuel + 1, s =>
    let used := usedLanes s p
    let pos := (s.links.srcRx[p]).pos
    match used[pos]? with
    | none => s
    | some i =>
      match (laneOf s (.src p i)).fifo with
      | [] => s
      | b :: r =>
        let s := setLane s (.src p i) fun x => { x with fifo := r }
        let s := setLinks s fun k => { k with srcRx := vUpd k.srcRx p fun x => { x with pos := (pos + 1) % used.length } }
        streamTake p fuel (portBlock s p b)

/-- A block of a backchannel lane: a LINE_REPORT, or a block of a reply packet, whose body is kept for the driver command it answers (R325). -/
def backBlock (s : State) (b : Fin 4) (h : Nat) (payload : List Byte) : State :=
  if h = 6 then lineReportIn s b payload
  else
    let (a, got) := asmBlock (s.links.backRx[b]).asm h payload
    let s := setLinks s fun k => { k with backRx := vUpd k.backRx b fun x => { x with asm := a } }
    match got with
    | .packet k => if packetDamaged k then s else setLinks s fun x => { x with replies := x.replies ++ [(b, k.body)] }
    | _ => s

/-- A block that has a place in the stream, descrambled; header 0 stands for an invalid one. A source port's lane in ACTIVE, once aligned, keeps it for its turn (R312, R317). -/
def streamIn (s : State) (l : Lane) (h : Nat) (payload : List Byte) : State :=
  match l with
  | .src p _ =>
    if !(laneOf s l).aligned then s
    else
      let s := setLane s l fun x => { x with fifo := x.fifo ++ [⟨h, payload⟩] }
      if linkState s p ≠ 6 then s
      else streamTake p (1 + sumNat ((portLanes p).map fun y => (laneOf s y).fifo.length)) s
  | .back b => backBlock s b h payload
  | .panel _ _ => s

/-- A CONTROL block that belongs to one lane, by its type (R315). -/
def controlBlock (s : State) (l : Lane) (payload : List Byte) : State :=
  capsBlock (trainBlock (skipBlock s l payload) l payload) l payload

/-- A block is received as it stands on the wire (R312 to R315): an invalid one is discarded and leaves its place in the stream empty; loss of lock in ACTIVE leads to RECOVERY; a scrambled payload is descrambled. -/
def blockIn (s : State) (l : Lane) (h : Nat) (payload : List Byte) : State :=
  if (laneOf s l).st = 0 ∨ (laneOf s l).st = 9 then s
  else
    let had := (laneOf s l).lock
    let s := headerSeen s l h
    if had && !(laneOf s l).lock then laneRecover s l 1
    else if !blockHeaderOk l h then (if (laneOf s l).st = 6 then streamIn s l 0 [] else s)
    else if scrambled h then
      let (bs, scr) := scramble (laneOf s l).scr payload
      let s := setLane s l fun x => { x with scr }
      if (laneOf s l).st = 6 then streamIn s l h bs else s
    else if inStream h payload then (if (laneOf s l).st = 6 then streamIn s l h payload else s)
    else controlBlock s l payload

/-- A lane's rate is measured: beyond 650 ppm, or with the clock stopped, it enters RECOVERY (R316). -/
def rateWindow (s : State) (l : Lane) (ppm : Option Int) : State :=
  match ppm with
  | some d => if decide (650 < d) || decide (d < -650) then laneRecover s l 8 else s
  | none => laneRecover s l 8

/-! Enabling, retraining, test, eye (R326, R333, R338, R341). -/

/-- Panel lanes in use per group: L of R274. -/
def panelLanes (s : State) : Nat := 2 ^ getF s obsPanelGeom 8 2

/-- A lane group, or the backchannel, trains from WAKE: L lanes of a group, a spare lane that is wired (R274, R326, R335). -/
def trainGroup (s : State) (l : LinkSel) : State :=
  match l with
  | .port p => trainPort s p
  | .group g =>
    (List.finRange 4).foldl (fun s j =>
      let on := if g.val < 12 then decide (j.val < panelLanes s)
        else decide (j.val < 2) && decide (getF s obsSpareMap (4 * j.val) 4 < 12)
      if on && !laneRetired s (.panel g j) then enterLane s (.panel g j) 1 else s) s
  | .backchannel =>
    (List.finRange 4).foldl (fun s j => if laneRetired s (.back j) then s else enterLane s (.back j) 1) s

/-- Every panel lane goes to OFF (R305). -/
def panelLanesOff (s : State) : State :=
  let s := (List.finRange 13).foldl (fun s g => (List.finRange 4).foldl (fun s j => enterLane s (.panel g j) 0) s) s
  let s := (List.finRange 4).foldl (fun s j => enterLane s (.back j) 0) s
  setLinks s fun k => { k with groupTx := Vector.replicate 13 {}, backRx := Vector.replicate 4 {}, replies := [], spare := k.spare.map fun x => match x with
    | some u => if s.retired.contains ⟨14, u.group, u.pos⟩ then some { u with waits := false } else none
    | none => none }

/-- Every lane group and the backchannel train (R304). -/
def panelTrain (s : State) : State :=
  trainGroup ((List.finRange 13).foldl (fun s g => trainGroup s (.group g)) s) .backchannel

/-- Panel training is done: every lane of the groups that is not retired, and the backchannel, are in ACTIVE (R304, R326). -/
def panelTrained (s : State) : Bool :=
  ((List.finRange 12).all fun g => (List.finRange 4).all fun j =>
    let l : Lane := .panel ⟨g.val, by omega⟩ j
    !decide (j.val < panelLanes s) || laneRetired s l || (laneOf s l).st == 6) &&
  (List.finRange 4).all fun j => laneRetired s (.back j) || (laneOf s (.back j)).st == 6

/-- A lane of a panel group or of the backchannel has failed training (R304). -/
def panelFailed (s : State) : Bool :=
  ((List.finRange 12).any fun g => (List.finRange 4).any fun j =>
    let l : Lane := .panel ⟨g.val, by omega⟩ j
    (laneOf s l).st == 9 && !laneRetired s l) ||
  (List.finRange 4).any fun j => (laneOf s (.back j)).st == 9 && !laneRetired s (.back j)

/-- Swaps take effect from the first slot that starts after them (R335). -/
def sparesSlot (s : State) : State :=
  (List.finRange 2).foldl (fun s i =>
    match s.links.spare[i] with
    | some u =>
      if !u.waits then s
      else
        let s := setLinks s fun k => { k with spare := k.spare.set i (some { u with waits := false }) }
        let s := laneShow s (.panel (Fin.ofNat 13 u.group) 0)
        raise s 1 14 0x088 u.group 0xFF (u.pos + 4 * i.val)
    | none => s) s

/-- At a phase start a recovered lane takes its position back (R335), and LINE_CRC_FAILED may be raised again (R325). -/
def sparesPhase (s : State) : State :=
  let s := setLinks s fun k => { k with crcRaised := [] }
  (List.finRange 2).foldl (fun s i =>
    match s.links.spare[i] with
    | some u =>
      if !u.back then s
      else laneShow (setLinks s fun k => { k with spare := k.spare.set i none }) (.panel (Fin.ofNat 13 u.group) 0)
    | none => s) s

/-- Lanes that carry a group's stream: the largest of 4, 2 and 1 that its carried positions allow; 0 with none (R335). -/
def groupWidth (s : State) (g : Fin 13) : Nat :=
  let n := ((List.finRange 4).filter fun j => posCarried s g j).length
  if n = 0 then 0 else widthOf n

/-! What the transmitters send (R311 to R317, R326, R330, R335). -/

/-- The preset that a transmit lane uses: E2 until the partner asks, what the partner asks in EQ, E0 in HANDOFF and ACTIVE, the one chosen in EQ in RECOVERY until it relocks, and throughout where the version has no HANDOFF; TEST_PRESET in TEST (R311, R326, R329, R341). -/
def txPreset (s : State) (l : Lane) : Nat :=
  let x := laneOf s l
  let plain := laneVersion s l == 0
  match x.st with
  | 4 => if x.asked = 255 then 2 else x.asked
  | 5 => 0
  | 6 => if plain then x.kept else 0
  | 7 => if x.lock && !plain then 0 else x.kept
  | 8 => getF s (laneCtrl l) 20 4
  | _ => 2

/-- The preset that a lane's receiver asks of its partner: in EQ each in turn from E0, then the one it has chosen; 0xFF = none (R315, R331). -/
def presetAsk (x : LaneSt) : Nat :=
  match x.st with
  | 4 => x.widths.length
  | 5 | 6 | 7 => x.preset
  | _ => 255

/-- A rate code of RATE_MAX in Gb/s (R338). -/
def gbpsOf (code : Nat) : Nat := [6, 12, 16, 24].getD code 24

/-- The rate of a lane in Gb/s: 6 in WAKE and CAPS, the negotiated one afterwards (R326, R329). -/
def laneGbps (s : State) (l : Lane) : Nat :=
  let st := (laneOf s l).st
  if st = 1 ∨ st = 2 then 6
  else match l with
    | .src p _ => gbpsOf (getF s (qtzPortLinkStatus p.val) 24 2)
    | .panel g _ => gbpsOf s.links.rate[g]
    | .back _ => 0

/-- The CAPS that the P9 sends on a lane (R66, R322, R323, R328). -/
def capsSent (s : State) (l : Lane) : List Byte :=
  let (major, minor) := [(1, 0), (1, 1), (2, 0)].getD (getF s (laneCtrl l) 5 2) (2, 0)
  match l with
  | .src p _ =>
    let lanes := ((portLanes p).filter fun x => (laneOf s x).st != 0).length
    capsBytes major minor 0 (getF s (laneCtrl l) 1 1) (ratesOffered s l) lanes (getF s (qtzPortCtrl p.val) 1 2) 4096 64
  | _ => capsBytes major minor 1 2 (ratesOffered s l) (panelLanes s) 0 0 0

/-- What a transmit lane sends in a block time, before scrambling: TRAIN or CAPS by its state, one SKIP with S in the common block time, SPARE_SWAP, its block of the stream, or IDLE; none is electrical idle (R315, R316, R317, R326, R335). -/
def laneBlock (s : State) (l : Lane) (skip : Bool) (swap : Option (Nat × Nat)) (b : Option TxBlock) : Option TxBlock :=
  let x := laneOf s l
  let train := trainBytes x.st (laneUnit l).cell (txPreset s l) (presetAsk x) x.lock x.handOwn
  if x.st = 0 ∨ x.st = 9 ∨ (x.st = 3 ∧ s.now < x.since + 10000) then none
  else if skip then some ⟨6, skipBytes x.txScr⟩
  else if x.st = 2 then some ⟨6, capsSent s l⟩
  else if x.st ≠ 6 then some ⟨6, train⟩
  else match swap with
    | some (pos, spare) => some ⟨6, swapBytes pos spare⟩
    | none => some (b.getD ⟨5, List.replicate 16 0⟩)

/-- A lane sends: its payload scrambled where its block is, under its preset's taps and at its rate; in TEST 132 bits of the scrambler's output (R312, R313, R330, R333). -/
def laneSends (s : State) (l : Lane) (skip : Bool) (swap : Option (Nat × Nat)) (b : Option TxBlock) : State :=
  let x := laneOf s l
  let put (h : Nat) (bs : List Byte) (scr : Nat) : State :=
    setLane s l fun x => { x with txScr := scr, out := some ⟨laneGbps s l, presetTaps (txPreset s l), h, bs⟩ }
  if x.st = 8 then
    let (h, y) := scrBits 4 x.txScr
    let (bs, z) := scramble y (List.replicate 16 0)
    put h bs z
  else match laneBlock s l skip swap b with
    | none => setLane s l fun x => { x with out := none }
    | some k =>
      if scrambled k.header then
        let (bs, z) := scramble x.txScr k.payload
        put k.header bs z
      else put k.header k.payload x.txScr

/-- B_g: bits that a lane group needs in a slot (R275). -/
def groupBits (s : State) : Nat := panelW s / 12 * 30 + 256

/-- Group `g` with `lanes` lanes, at the rate that they trained at, meets R275 with a slot time in ps. -/
def groupMeets (s : State) (g lanes slot : Nat) : Bool :=
  decide (groupBits s * 132 * 4096 * 1000 ≤ lanes * gbpsOf s.links.rate[Fin.ofNat 13 g] * 128 * 4095 * slot)

/-- Lanes that a group has for the panel (R275, R335). -/
def groupLanes (s : State) (g : Nat) : Nat := min (panelLanes s) (groupWidth s (Fin.ofNat 13 g))

/-- The slot time of paired scan, whatever scan is in effect (R298). -/
def pairedSlotPs (s : State) : Nat := timingLinePs s * 2 * panelN s / min 2 (panelN s)

/-- Lanes of a group that carry its stream: all that it has in normal scan, in paired scan the fewest that meet R275 (R298). -/
def groupUse (s : State) (g : Nat) : Nat :=
  let n := groupLanes s g
  if s.scan.paired then ([1, 2, 4].find? fun l => decide (l ≤ n) && groupMeets s g l (pairedSlotPs s)).getD n else n

/-- The lanes that carry a group's stream, in the order of their positions; the others rest in electrical idle (R298, R317, R335). -/
def groupCarriers (s : State) (g : Fin 13) : List Lane :=
  (((List.finRange 4).filterMap fun j => carrierOf s g j)).take (groupUse s g.val)

/-- The lanes that run with a group: its own, and the spares wired to it (R335). -/
def groupAll (s : State) (g : Fin 13) : List Lane :=
  ((List.finRange 4).map fun j => Lane.panel g j) ++
  ((List.finRange 2).filter fun i => getF s obsSpareMap (4 * i.val) 4 == g.val).map fun i => Lane.panel 12 ⟨i.val, by omega⟩

/-- The blocks that the lanes of a link send in one block time: those that carry the stream take its blocks in the order of their positions; a lane of a group in ACTIVE that carries none sends IDLE where it is a spare or has a spare in its place, and rests in electrical idle where its group needs it no more (R298, R316, R317, R335). -/
def blockTime (s : State) (tx : LinkTx) (all carry : List Lane) : State × LinkTx :=
  let skip := tx.since == 4095
  let s := all.foldl (fun s l =>
    if (laneOf s l).st = 6 && !carry.contains l then
      (match l with
        | .panel g j =>
          if g.val < 12 ∧ carrierOf s g j = some l then setLane s l fun x => { x with out := none }
          else laneSends s l skip tx.swap none
        | _ => laneSends s l skip none none)
    else if carry.contains l then s
    else laneSends s l skip none none) s
  let hold := skip || tx.swap.isSome
  let (s, queue) := carry.foldl (fun (a : State × List TxBlock) l =>
    if hold then (laneSends a.1 l skip tx.swap none, a.2)
    else (laneSends a.1 l false none a.2.head?, a.2.tail)) (s, tx.queue)
  (s, { tx with since := if skip then 0 else tx.since + 1, queue, swap := if skip then tx.swap else none })

/-- One nanosecond of a link's transmit side: a block time is 132 bits at the link's rate, 6 Gb/s while a lane of it is in WAKE or CAPS (R312, R326). -/
def txRun (s : State) (tx : LinkTx) (all carry : List Lane) : State × LinkTx :=
  let on := all.filter fun l => (laneOf s l).st != 0 && (laneOf s l).st != 9
  if on.isEmpty then (s, tx)
  else
    let rate := on.foldl (fun r l => min r (laneGbps s l)) 24
    if tx.bits + rate < 132 then (s, { tx with bits := tx.bits + rate })
    else blockTime s { tx with bits := tx.bits + rate - 132 } all carry

/-- One nanosecond of the serial transmitters: those of the source ports and of the panel's lane groups (R311, R316, R317). -/
def lanesRun (s : State) : State :=
  let s := if !serves s 3 then s else (List.finRange 4).foldl (fun s p =>
    let carry := if linkState s p = 6 then (usedLanes s p).map fun i => Lane.src p i else []
    let (s, tx) := txRun s s.links.srcTx[p] (portLanes p) carry
    setSrcTx s p fun _ => tx) s
  if !serves s 14 then s else (List.finRange 12).foldl (fun s (g : Fin 12) =>
    let g : Fin 13 := ⟨g.val, by omega⟩
    let (s, tx) := txRun s s.links.groupTx[g] (groupAll s g) (groupCarriers s g)
    setGroupTx s g fun _ => tx) s

/-- A write of TEST in a link control register (R333, R338, R340). -/
def laneTest (s : State) (r : LinkRegion) (p : Fin 4) (old : Word) : State :=
  match r with
  | .quartz =>
    let k := qtzPortLinkCtrl p.val
    let was := linkServes s p
    if getB s k 2 && !flag old 2 then leaveService (allLanes s p 8) p was
    else if !getB s k 2 && flag old 2 then (if getB s k 0 then trainPort s p else allLanes s p 0)
    else s
  | .obsidian =>
    let all (st : Nat) (s : State) : State :=
      let s := (List.finRange 13).foldl (fun s g => (List.finRange 4).foldl (fun s j => enterLane s (.panel g j) st) s) s
      (List.finRange 4).foldl (fun s j => enterLane s (.back j) st) s
    if getB s obsLinkCtrl 2 && !flag old 2 then all 8 s
    else if !getB s obsLinkCtrl 2 && flag old 2 then
      (if s.obs.state = .off ∨ s.obs.state = .safe then all 0 s else panelTrain (all 0 s))
    else s

/-- A write of QTZ_PORTn_LINK_CTRL: ENABLE trains the link or ends it, RETRAIN trains it again, TEST as it says; a role or version takes effect at training (R326, R338). -/
def linkCtrlWrite (s : State) (p : Fin 4) (v : Word) : State :=
  let k := qtzPortLinkCtrl p.val
  let old := readReg s k
  let s := writeKey s k v
  let on := getB s k 0
  let was := linkServes s p
  if flag old 0 && !on then
    leaveService (allLanes (setF s (qtzPortLinkStatus p.val) 20 4 0) p 0) p was
  else if flag old 2 != getB s k 2 then laneTest s .quartz p old
  else if on && (!flag old 0 || flag v 7) then
    trainPort (setSl s p fun x => { x with rateCap := 3 }) p
  else s

/-- A write of OBS_LINK_CTRL (R333, R340). -/
def obsLinkWrite (s : State) (v : Word) : State :=
  let old := readReg s obsLinkCtrl
  laneTest (writeKey s obsLinkCtrl v) .obsidian 0 old

/-- The eye registers of a region. -/
def eyeRegs (r : LinkRegion) : Nat × Nat × Fin 2 :=
  match r with
  | .quartz => (qtzEyeCtrl, qtzEyeResult, 0)
  | .obsidian => (obsEyeCtrl, obsEyeResult, 1)

/-- A write of EYE_CTRL: START samples one point, replacing one that runs (R333, R341). -/
def eyeWrite (s : State) (r : LinkRegion) (v : Word) : State :=
  let (c, res, i) := eyeRegs r
  let s := writeKey s c v
  if !flag v 31 then s
  else setReg (setLinks s fun k => { k with eye := k.eye.set i (some (getF s c 0 6)) }) res 0x80000000

/-- A point has been sampled (R333, R341). -/
def eyeDone (s : State) (r : LinkRegion) (errors : Nat) : State :=
  let (_, res, i) := eyeRegs r
  if (s.links.eye[i]).isNone then s
  else setReg (setLinks s fun k => { k with eye := k.eye.set i none }) res
    (BitVec.ofNat 32 (0x40000000 + min errors (2 ^ 30 - 1)))

/-- The taps of the time port's transmitter: its fixed preset (R311, R337, R341). -/
def timeTaps (s : State) : Int × Int × Int := presetTaps (getF s grnTimeLinkCtrl 2 3)

/-- The time port's link goes up or down (R337, R342). -/
def timeLinkIn (s : State) (up refused : Bool) : State :=
  let up := up && !refused && getB s grnTimeLinkCtrl 0
  raise (setF s grnTimeLinkStatus 0 1 (b2n up)) 1 15 0x0A0 6 0xFF (b2n up + 2 * b2n refused)

end Sys2Proof.Machine
end

