-- ==== Sys2Proof/Machine/Panel.lean ====
section
/-! DEFINITION. The panel: driver commands, the PMIC port and its scripts, the power sequences, the safe panel state, requests for pewter mode (R282, R283, R299, R301 to R310). -/

namespace Sys2Proof.Machine

/-- An event of Obsidian: one of level 1 carries the drive block's index (R36, R310). -/
def obsEvent (s : State) (level cause arg : Nat) : State := raise s level 14 cause (if level = 1 then 13 else 0xFF) 0xFF arg

/-- SAFE to all drivers (R282). -/
def drvSafe : DrvCmd := ⟨12, 2, 0xFF, 0, .bytes []⟩

/-- POL_MODE to all drivers: the pattern in effect, and the scan mode (R282, R284). -/
def drvPolMode (s : State) : DrvCmd := ⟨12, 5, 0xFF, s.obs.pol + 8 * b2n s.scan.paired, .bytes []⟩

/-- STATE's code (R309). -/
def panelCode (x : PanelState) : Nat :=
  match x with
  | .off => 0
  | .poweringOn => 1
  | .on => 2
  | .poweringOff => 3
  | .safe => 4

/-- STATE changes, and OBS_PANEL_STATUS with it (R309). -/
def setPanelState (s : State) (x : PanelState) : State :=
  setF (setObs s fun o => { o with state := x }) obsPanelStatus 29 3 (panelCode x)

/-- Step of the sequence that runs. -/
def setStep (s : State) (x : SeqStep) : State := setObs s fun o => { o with step := x }

/-- The resting level of each GT output: IDLE of its program for the scan in effect (R280). -/
def gtIdle (s : State) : Nat :=
  sumNat ((List.range 12).map fun n => getF s (if s.scan.paired then obsGtPair n else obsGtNorm n) 29 1 * 2 ^ n)

/-- GT outputs take levels; no pulse is in progress. -/
def gtSet (s : State) (level : Nat) : State := setObs s fun o => { o with gtLevel := level, gtPulses := [] }

/-- The level of output GTn at a time in ps from the start of the present slot: that of a pulse, or its resting level (R280). -/
def gtOutput (s : State) (n : Nat) (t : Int) : Bool :=
  match s.obs.gtPulses.find? fun p => p.out == n && decide (p.from_ ≤ t) && decide (t < p.to_) with
  | some p => p.level
  | none => bitAt s.obs.gtLevel n

/-- BLP outputs are low (R281, R304 to R306). -/
def blpLow (s : State) : State :=
  let s := setObs s fun o => { o with blp := none, blpHolds := 0, strobes := [], blpEdges := [], blpDue := [] }
  { s with scan := { s.scan with strobeOff := true } }

/-- RUNNING of the timing registers of the Flint regions (R309). -/
def showRunning (s : State) : State :=
  [1, 2].foldl (fun s r => if serves s r then setF s (flaTimingCtrl r) 0 1 (b2n s.scan.running) else s) s

/-- The timing stops; an accepted image that waits is taken (R166). -/
def timingStop (s : State) : State :=
  let s := if s.scan.running then setCal s fun c => { c with launched := [], stagedFrom := 0, before := c.inUse } else s
  takeReady (drvWaiting (showRunning <| shadowStop { s with scan := { s.scan with running := false, held := false } }))

/-! The PMIC port (R301 to R303). -/

/-- An entry of the script that runs: Slate has its own copy of script 4 (R303, R306). -/
def scriptWord (s : State) (r : ScriptRun) : Word :=
  if r.slate then s.obs.script4.getD r.entry 0 else readReg s (obsPmicScript (16 * r.script + r.entry))

/-- The transaction of a script's entry: WRITE carries a register's value, EXPECT reads a register; WAIT and END use no bus (R302). -/
def entryXfer (s : State) (w : Word) : Option PmicXfer :=
  if flag w 31 then some ⟨fld w 24 7, fld w 16 8, none, getF s obsPmicCtrl 8 2⟩
  else if fld w 29 3 = 2 ∨ fld w 29 3 = 3 then none
  else some ⟨fld w 23 7, fld w 15 8, some (BitVec.ofNat 8 (fld w 0 8)), getF s obsPmicCtrl 8 2⟩

/-- The bytes that a transaction puts on the bus, each after its START, or the repeated START of a read, as one list a START (R302). -/
def xferBytes (x : PmicXfer) : List (List Byte) :=
  match x.value with
  | some v => [[BitVec.ofNat 8 (2 * x.addr), BitVec.ofNat 8 x.reg, v]]
  | none => [[BitVec.ofNat 8 (2 * x.addr), BitVec.ofNat 8 x.reg], [BitVec.ofNat 8 (2 * x.addr + 1)]]

/-- The port's clock in kHz: SPEED (R301, R309). -/
def xferKhz (x : PmicXfer) : Nat := [100, 400, 1000].getD x.speed 100

/-- The script has reached END or run past its sixteenth entry (R302). -/
def scriptAtEnd (s : State) (r : ScriptRun) : Bool := decide (16 ≤ r.entry) || fld (scriptWord s r) 29 3 == 3

/-- The port carries the transaction of the entry that the script has come to (R302). -/
def portShow (s : State) : State :=
  setObs s fun o => { o with port :=
    match s.obs.script with
    | some r => if scriptAtEnd s r then none else entryXfer s (scriptWord s r)
    | none => none }

/-- Slate drives the PMIC port: in the abrupt-loss sequence and in the safe panel state (R301). -/
def slateDrives (s : State) : Bool := s.obs.safeCause.isSome || s.obs.state == .safe

/-- The oldest request starts when no script runs and Obsidian drives the port (R301, R303). -/
def scriptNext (s : State) : State :=
  if slateDrives s then s else
  match s.obs.script, s.obs.scriptQ with
  | none, (n, why) :: r =>
    let s := setObs s fun o => { o with script := some ⟨n, 0, why, false, 0⟩, scriptQ := r }
    portShow (setF s obsPmicCtrl 31 1 1)
  | _, _ => s

/-- A script requested (R303). -/
def scriptAsk (s : State) (n : Nat) (why : ScriptFor) : State :=
  scriptNext (setObs s fun o => { o with scriptQ := o.scriptQ ++ [(n, why)] })

/-- The script that runs has ended: status of the port, PMIC_FAULT on a failure; the next request starts (R303, R309). -/
def scriptOver (s : State) (r : ScriptRun) (status : Nat) : State :=
  let s := setObs s fun o => { o with script := none, port := none }
  let s := setF s obsPmicCtrl 31 1 0
  let s := setF (setF s obsPmicCtrl 30 1 (b2n (status != 0))) obsPmicCtrl 27 3 r.script
  let s := setF (setF s obsPmicCtrl 23 4 (if status = 0 then 0 else r.entry)) obsPmicCtrl 20 3 status
  if status = 0 then s else obsEvent s 2 0x083 (r.script + 16 * r.entry + 256 * status)

/-! The power sequences (R304 to R308). -/

/-- The power-on sequence starts: script 0 (R304). -/
def powerOn (s : State) : State :=
  let s := { s with slate := { s.slate with panelPowered := true } }
  scriptAsk (setStep (setPanelState s .poweringOn) .logicOn) 0 .sequence

/-- A request of ON or OFF; no ON while a reboot or a SLEEP waits for the panel to be off (R304, R305, R307, R308, R459, R480). -/
def powerAsk (s : State) (on : Bool) : State :=
  let hold (s : State) : State := setObs s fun o => { o with heldReq := some on }
  if on && s.obs.afterOff != 0 then s else
  match s.obs.state with
  | .off => if on && s.obs.safeCause.isNone then powerOn s else s
  | .safe => if on && s.obs.safeCause.isNone then powerOn s else s
  | .poweringOn => if on then s else hold s
  | .on =>
    if s.obs.safeCause.isSome then s
    else if s.obs.step = .offRequested then (if on then hold s else s)
    else if on then s
    else setStep s .offRequested
  | .poweringOff => if on then hold s else s

/-- The newest held request runs (R307). -/
def heldRuns (s : State) : State :=
  match s.obs.heldReq with
  | none => s
  | some on => powerAsk (setObs s fun o => { o with heldReq := none }) on

/-- The sequence ends in OFF: lanes in electrical idle, PANEL_OFF (R304, R305). -/
def panelOff (s : State) : State :=
  let s := panelLanesOff (setStep s .idle)
  heldRuns (obsEvent (setPanelState s .off) 2 0x081 0)

/-- Power-on fails: power-off from the last step that succeeded (R304). -/
def powerOnFails (s : State) : State :=
  let was := s.obs.step
  let s := timingStop (blpLow (setPanelState s .poweringOff))
  match was with
  | .logicOn => panelOff s
  | _ => scriptAsk (setStep s .logicOff) 3 .sequence

/-- The settings that CONFIG_WRITE carries are the panel's own: register and value are open (R282, R304). -/
def drvConfig (s : State) : State × DrvCmd :=
  let (a, s) := takeFree s 30
  let (v, s) := takeFree s 31
  (s, ⟨12, 3, 0xFF, a % 2 ^ 32, .bytes (leBytes v 4)⟩)

/-- Panel training ends well: IDENTIFY, CONFIG_WRITE, POL_MODE, and a boot map load (R283, R304). -/
def trainingDone (s : State) : State :=
  if s.obs.step ≠ .training || !panelTrained s then s
  else
    let (s, cfg) := drvConfig (setStep s .identify)
    let s := drvSend s [⟨0, 6, 0, 0, .bytes []⟩, cfg, drvPolMode s]
    let s := setObs s fun o => { o with polTold := (drvPolMode s).arg }
    if s.obs.mapAtTraining then calBoot (setObs s fun o => { o with mapAtTraining := false }) else s

/-- The identity block arrives: the serial is copied, a map that waits for it is checked, and script 1 runs (R54, R283, R304). -/
def identifyReply (s : State) (block : List Byte) : State :=
  if s.obs.step ≠ .identify || block.length != 32 then s
  else
    let s := (List.range 4).foldl (fun s i => setReg s (obsPanelSerial i) (BitVec.ofNat 32 (leAt block (4 * i) 4))) s
    let s := calSerial (setObs s fun o => { o with ident := block, identified := true })
    scriptAsk (setStep s .driveOn) 1 .sequence

/-- Bytes that the FLASH_READ outstanding for a map asked for: the 64-byte header first, then the rest up to 4,096 at a time (R283). -/
def flashAsk (got : List Byte) : Nat :=
  if got.length < 64 then 64 - got.length else min 4096 (min (leAt got 8 4) 0x140000 - got.length)

/-- Bytes of a FLASH_READ arrive; the next read is sent (R283). -/
def flashReply (s : State) (data : List Byte) : State :=
  match s.calmap.load with
  | none => s
  | some st =>
    if st.dram || s.calmap.readDone || !s.calmap.asked then s
    else
      let got := s.calmap.read ++ data.take (flashAsk s.calmap.read)
      let s := setCal s fun c => { c with read := got }
      let n := flashAsk got
      if n = 0 then s
      else drvAsk s (flashRead s got.length n)

/-- The replies that the backchannel has brought go to what asked for them: lane 0 carries driver 0 of group 0, which answers IDENTIFY and FLASH_READ (R282, R283, R325). -/
def drvReplies (s : State) : State :=
  s.links.replies.foldl (fun s r =>
    if r.1 ≠ 0 then s
    else if s.obs.step = .identify ∧ r.2.length = 32 then identifyReply s r.2
    else flashReply s r.2) (setLinks s fun k => { k with replies := [] })

/-- A step of a sequence that ran a script is over, well or not (R304 to R306). -/
def scriptStep (s : State) (ok : Bool) : State :=
  match s.obs.step with
  | .logicOn => if ok then panelTrain (setStep s .training) else powerOnFails s
  | .driveOn => if ok then gtSet (drvSend (setStep s .waitFrame) [drvSafe]) (gtIdle s) else powerOnFails s
  | .driveOff => scriptAsk (setStep (gtSet s (gtIdle s)) .logicOff) 3 .sequence
  | .logicOff => panelOff s
  | .discharge => setStep s .dischargeEnd
  | _ => s

/-- The power-off sequence: 2 ms after the timing stops, script 2 (R305). -/
def driveOffDelay (s : State) : State :=
  if s.obs.step ≠ .offDelay then s else scriptAsk (setStep s .driveOff) 2 .sequence

/-- The timing stops in the power-off sequence: SAFE to all drivers, GT at SAFE levels (R305). -/
def offTimingStop (s : State) : State :=
  let s := timingStop s
  gtSet (drvSend (setStep s .offDelay) [drvSafe]) (getF s obsGtSafe 0 12)

/-- Slate writes a log entry (R14, R38, R306). -/
def logAdd (s : State) (e : LogEntry) : State :=
  { s with slate := { s.slate with log := { s.slate.log with entries := s.slate.log.entries ++ [e] } } }

/-- The abrupt-loss sequence ends: its log entry, and STATE SAFE where it ran whole; a request held meanwhile is gone (R306, R308). -/
def abruptEnds (s : State) (c : SafeCause) (whole : Bool) : State :=
  let s := logAdd (setObs s fun o => { o with safeCause := none, heldReq := none }) (.loss c.reason c.next)
  if whole then setStep (setPanelState s .safe) .idle else s

/-- Only the log entry is written for a cause: PFAIL_N with the panel OFF, and any cause with the panel SAFE (R306, R308). -/
def lossAtOnce (s : State) (reason : Nat) : Bool := s.obs.state == .safe || s.obs.state == .off && reason == 6

/-- Slate aborts every sequence and script, and runs the steps of R306. -/
def abruptLoss (s : State) (c : SafeCause) : State :=
  if lossAtOnce s c.reason then
    let s := abruptEnds (setF (setStep s .idle) obsPmicCtrl 31 1 0) c false
    setObs s fun o => { o with script := none, scriptQ := [], port := none }
  else
    let s := timingStop (blpLow s)
    let s := setObs s fun o => { o with
      safeCause := some c, step := .discharge, heldReq := none, scriptQ := [], script := some ⟨4, 0, .sequence, true, 0⟩ }
    let s := portShow (setF s obsPmicCtrl 31 1 1)
    gtSet (drvSend s (if serves s 14 then [drvSafe] else [])) (fld s.obs.gtSafe 0 12)

/-- The safe panel state is entered for a reason; one that arises while it is entered or held changes nothing (R308). -/
def safePanel (s : State) (reason next : Nat) : State :=
  if s.obs.safeCause.isSome || s.obs.state == .safe then s
  else abruptLoss (obsEvent s 3 0x090 reason) ⟨reason, next⟩

/-- The script that runs ends well or fails, and its user goes on: MONITOR's failure enters the safe panel state (R303). -/
def scriptEnds (s : State) (r : ScriptRun) (status : Nat) : State :=
  let s := scriptOver s r status
  let s := match r.why with
    | .sequence => scriptStep s (status == 0)
    | .monitor => if status = 0 then s else safePanel s 4 0
    | .user => s
  scriptNext s

/-- A step of the present entry is answered: the script moves on, tries again, polls again or fails (R301, R302). -/
def pmicEntry (s : State) (x : PmicResult) : State :=
  match s.obs.script with
  | none => s
  | some r =>
    if scriptAtEnd s r then s
    else
      let w := scriptWord s r
      let on (s : State) : State := portShow (setObs s fun o => { o with script := some { r with entry := r.entry + 1, nacks := 0 } })
      match x with
      | .done => if flag w 31 then s else on s
      | .read v expired =>
        if !flag w 31 then s
        else if v &&& BitVec.ofNat 8 (fld w 8 8) == BitVec.ofNat 8 (fld w 0 8) then on s
        else if expired then scriptEnds s r 3
        else s
      | .nack =>
        if fld w 29 3 = 2 then s
        else if r.nacks < 3 then setObs s fun o => { o with script := some { r with nacks := r.nacks + 1 } }
        else scriptEnds s r 1
      | .stretch => if fld w 29 3 = 2 then s else scriptEnds s r 2

/-- The script has reached its end (R302, R303). -/
def pmicScriptDone (s : State) : State :=
  match s.obs.script with
  | none => s
  | some r => if scriptAtEnd s r then scriptEnds s r 0 else s

/-- A write of OBS_PMIC_CTRL: RUN asks for user script 6 or 7 (R303, R309). -/
def pmicCtrlWrite (s : State) (v : Word) : State :=
  let s := writeKey s obsPmicCtrl v
  if flag v 3 && decide (6 ≤ fld v 0 3) then scriptAsk s (fld v 0 3) .user else s

/-- The MONITOR period has passed: script 5, where Obsidian drives the port (R301, R303). -/
def pmicMonitor (s : State) : State :=
  if getF s obsPmicCtrl 12 8 = 0 || slateDrives s then s
  else scriptAsk s 5 .monitor

/-- A write of OBS_PMIC_SCRIPT_WINDOW: script 4 also goes to Slate's copy (R303). -/
def scriptWrite (s : State) (n : Nat) (v : Word) : State :=
  let s := writeKey s (obsPmicScript n) v
  if 64 ≤ n ∧ n < 80 then setObs s fun o => { o with script4 := o.script4.set (n - 64) v } else s

/-- A write of OBS_GT_SAFE also goes to Slate's copy (R303). -/
def gtSafeWrite (s : State) (v : Word) : State :=
  let s := writeKey s obsGtSafe v
  setObs s fun o => { o with gtSafe := readReg s obsGtSafe }

/-! Pewter requests and waveforms (R296, R299). -/

/-- MODE is written: PEWTER asks to enter at a frame start; NORMAL withdraws that, or asks to leave (R299). -/
def modeAsk (s : State) (m : Nat) : State :=
  if m = 1 then
    if s.scan.paired then setObs s fun o => { o with pewterExit := false } else wantPewter s 1
  else if m = 0 then
    if s.scan.paired then setObs s fun o => { o with pewterExit := true }
    else if s.obs.pewterWhy = 1 then setObs s fun o => { o with pewterWhy := 0 }
    else s
  else s

/-- WAVE_COMMIT waits for the next frame start (R296). -/
def waveCommit (s : State) : State := setObs s fun o => { o with commit := true }

/-- A write of OBS_PANEL_CTRL (R296, R299, R304, R305, R309). -/
def panelCtrlWrite (s : State) (v : Word) : State :=
  let s := modeAsk (writeKey s obsPanelCtrl v) (fld v 2 2)
  let s := if flag v 9 then waveCommit s else s
  if fld v 0 2 = 1 then powerAsk s true else if fld v 0 2 = 2 then powerAsk s false else s

/-- A write of OBS_CALMAP_CTRL: START starts a load (R55, R551). -/
def calCtrlWrite (s : State) (v : Word) : State :=
  let s := writeKey s obsCalmapCtrl v
  if flag v 0 then calStart s else s

/-- The band for a panel temperature in 1/16 °C, from the band before (R294). -/
def bandFor (t : Int) : Nat → Nat → Nat
  | 0, b => b
  | fuel + 1, b =>
    if b < 5 ∧ 160 * ((b : Int) + 1) ≤ t then bandFor t fuel (b + 1)
    else if 0 < b ∧ t < 160 * (b : Int) - 24 then bandFor t fuel (b - 1)
    else b

/-! Meanings. -/

/-- HOLD_TIMEOUT: a hold of 1 ms enters the safe panel state (R289). -/
def execHoldTimeout (s : State) : Out :=
  .next (if s.scan.running && s.scan.held then safePanel s 3 0 else s)

/-- WAVE_COMMIT (R296). -/
def execWaveCommit (q : Requester) (s : State) : Out := .next (reqServes s q 14 waveCommit)

/-- PANEL_MODE (R299). -/
def execPanelMode (q : Requester) (v : Word) (s : State) : Out := .next (reqServes s q 14 fun s => panelCtrlWrite s v)

/-- PANEL_POWER_ON (R304, R307, R308). -/
def execPanelPowerOn (q : Requester) (s : State) : Out := .next (reqServes s q 14 fun s => powerAsk s true)

/-- PANEL_POWER_OFF (R305, R307). -/
def execPanelPowerOff (q : Requester) (s : State) : Out := .next (reqServes s q 14 fun s => powerAsk s false)

/-- PANEL_TRAINING_DONE (R304). -/
def execPanelTrainingDone (s : State) : Out := .next (whenServes s 14 trainingDone)

/-- PANEL_IDENTIFY_REPLY (R54, R283). -/
def execPanelIdentifyReply (block : List Byte) (s : State) : Out := .next (whenServes s 14 fun s => identifyReply s block)

/-- PANEL_FLASH_READ_REPLY (R283). -/
def execPanelFlashReadReply (data : List Byte) (s : State) : Out := .next (whenServes s 14 fun s => flashReply s data)

/-- STATUS_READ_REPLY: the driver's 4-byte register has been read (R282). -/
def execStatusReadReply (group : Fin 12) (driver : Byte) (v : Word) (s : State) : Out :=
  .next (whenServes s 14 fun s => setObs s fun o => { o with statusReply := some (group.val, driver.toNat, v) })

/-- PMIC_RUN (R303). -/
def execPmicRun (q : Requester) (v : Word) (s : State) : Out := .next (reqServes s q 14 fun s => pmicCtrlWrite s v)

/-- PMIC_MONITOR (R303). -/
def execPmicMonitor (s : State) : Out := .next (whenServes s 14 pmicMonitor)

/-- DRIVE_OFF_DELAY (R305). -/
def execDriveOffDelay (s : State) : Out := .next (whenServes s 14 driveOffDelay)

/-- CALMAP_START (R58, R551). -/
def execCalmapStart (q : Requester) (v : Word) (s : State) : Out := .next (reqServes s q 14 fun s => calCtrlWrite s v)

/-- CALMAP_READ_DONE (R54). -/
def execCalmapReadDone (s : State) : Out := .next (whenServes s 14 calReadDone)

/-- CALMAP_READ_TIMEOUT (R52). -/
def execCalmapReadTimeout (s : State) : Out := .next (whenServes s 14 calReadTimeout)

end Sys2Proof.Machine
end

