-- ==== Sys2Proof/Machine/Events.lean ====
section
/-! DEFINITION. The event collector: arrival, merging, overflow, delivery to the log, to the hosts and to the active region (R34 to R38, R150, R417, R471 to R473). -/

namespace Sys2Proof.Machine

/-- The collector changed. -/
def setColl (s : State) (f : Collector → Collector) : State := setSlate s fun x => { x with coll := f x.coll }

/-- EVENT_OVERFLOW's code (R35, R37). -/
def overflowCode : BitVec 16 := evCode 3 0 0x3FA

/-- Entries of the 256 that are taken: EVENT_OVERFLOW has one of its own (R37). -/
def entriesTaken (q : List QueuedEvent) : Nat := (q.filter fun x => x.ev.code != overflowCode).length

/-- Entries that hold events of levels 0 and 1 (R37). -/
def entriesLow (q : List QueuedEvent) : Nat := (q.filter fun x => decide (evLevel x.ev.code < 2)).length

/-- Two events merge: the same code, block and cell (R37). -/
def sameEvent (a b : Event) : Bool := a.code == b.code && a.block == b.block && a.cell == b.cell

/-- The order of events that reach the collector in one clock: higher level first, then lower region, block and cell (R434). -/
def evRank (e : Event) : Nat := (((3 - evLevel e.code) * 16 + evRegion e.code) * 256 + e.block.toNat) * 256 + e.cell.toNat

/-- An entry put at its place: at the end, but before those of its own clock that the order puts after it (R37, R434). -/
def queueInsertEv (q : List QueuedEvent) (x : QueuedEvent) : List QueuedEvent :=
  q.takeWhile (fun y => !(y.clk == x.clk && decide (evRank x.ev < evRank y.ev))) ++ x :: q.dropWhile fun y => !(y.clk == x.clk && decide (evRank x.ev < evRank y.ev))

/-- An event merged into the queued entry, or queued in clock `n` (R37). -/
def queueOrMerge (n : Nat) (q : List QueuedEvent) (e : Event) : List QueuedEvent :=
  if q.any fun x => sameEvent x.ev e then q.map fun x => if sameEvent x.ev e then { x with count := x.count + 1 } else x
  else queueInsertEv q ⟨e, 1, n⟩

/-- The event is merged, queued or dropped; the first drop begins an overflow episode (R37). -/
def eventArrives (s : State) (e : Event) : State :=
  let c := s.slate.coll
  let drop := !(c.queue.any fun x => sameEvent x.ev e) &&
    ((decide (evLevel e.code < 2) && decide (224 ≤ entriesLow c.queue)) || decide (256 ≤ entriesTaken c.queue))
  if !drop then setColl s fun c => { c with queue := queueOrMerge (s.now / 10) c.queue e }
  else
    let s := bump s sltEvtDropped
    if c.episode then s
    else
      let o : Event := ⟨overflowCode, 0xFF, 0xFF, 0, BitVec.ofNat 32 s.time.sec, BitVec.ofNat 32 s.time.ns⟩
      setColl s fun c => { c with queue := queueOrMerge (s.now / 10) c.queue o, episode := true }

/-- EVENT_ARRIVAL: an event leaves the mesh for the collector; the events of one region arrive in the order in which it raised them (R28, R37). -/
def eventLands (s : State) (e : Event) : State :=
  let ahead := s.evNet.find? fun x => evRegion x.code == evRegion e.code
  if ahead.isSome && ahead != some e then s else eventArrives { s with evNet := s.evNet.erase e } e

/-- An event that the Slate log keeps: of level 2 or 3, or a cell's report to its block, the causes of level 0 (R38). -/
def eventLogged (e : Event) : Bool := evLevel e.code != 1

/-- EVENT and FILL of a host follow its event queue (R473, R477). -/
def hostShow (s : State) (h : HostId) : State :=
  let n := (hostOf s h).events.length
  setF (setF s (hostKey h sltHostEvtStatus) 0 7 n) (hostKey h sltHostIrqStatus) 0 1 (b2n (n != 0))

/-- A delivered event at a host: through its mask into its queue, or lost when that is full (R471). -/
def hostEvent (s : State) (h : HostId) (e : Event) : State :=
  let m := hostKey h sltHostEvtMask
  if !(bitAt (getF s m 0 4) (evLevel e.code) && bitAt (getF s m 16 16) (evRegion e.code)) then s
  else if 64 ≤ (hostOf s h).events.length then hostIrq (bump s (hostKey h sltHostEvtLost)) h 1
  else hostShow (setHost s h fun x => { x with events := x.events ++ [e] }) h

/-- Flags that an event's code sets beside the map's (R150). -/
def codeFlags (c : BitVec 16) : List Nat :=
  let is (level cause : Nat) : Bool := evLevel c == level && evCause c == cause
  let gal := decide (4 ≤ evRegion c) && decide (evRegion c < 8)
  (if is 1 0x017 && evRegion c == 3 then [13] else []) ++ (if is 1 0x010 && evRegion c == 3 then [14] else [])
    ++ (if is 1 0x223 && gal then [15] else []) ++ (if is 2 0x220 && gal then [16] else [])
    ++ (if is 2 0x222 && gal then [17] else [])
    ++ (if evLevel c == 2 && evRegion c == 14 && decide (0x0C0 ≤ evCause c) && decide (evCause c ≤ 0x0C3) then [21] else [])

/-- Flags that the entries of FLA_EVMAP set for a code (R150, R171). -/
def mapFlags (s : State) (r : Nat) (c : BitVec 16) : List Nat :=
  ((List.range 32).filter fun n =>
    let w := readReg s (flaEvmap r n)
    fld w 16 16 != 0 && (c &&& BitVec.ofNat 16 (fld w 16 16)) == (BitVec.ofNat 16 (fld w 0 16) &&& BitVec.ofNat 16 (fld w 16 16))).map (· + 32)

/-- An event forwarded to the frame program: its flags, and BIND_DONE's argument, in each Flint region in service; an event of a Flint region only from the holder's (R38, R150, R173). -/
def forwardEvent (s : State) (f : FlintId) (e : Event) : State :=
  let r := evRegion e.code
  if (r == 1 || r == 2) && r != flintRegion f then s
  else
    (flintsUp s).foldl (fun s g =>
      let k := flintRegion g
      let flags := codeFlags e.code ++ mapFlags s k e.code
      let s := if flags.contains 13 then setReg s (flaBindResult k) e.arg else s
      flags.foldl (fun s n => setFlagOf s g n) s) s

/-- The events held while no region had the lease go to the new holder (R417). -/
def forwardHeld (s : State) (f : FlintId) : State :=
  s.slate.coll.forHolder.foldl (fun s e => forwardEvent s f e) (setColl s fun c => { c with forHolder := [] })

/-- EVENT_DELIVERY: the oldest event goes to the log, to both hosts and to the active region; an overflow episode may end (R37, R38, R417). -/
def eventDelivers (s : State) : State :=
  match s.slate.coll.queue with
  | [] => s
  | x :: q =>
    let s := setColl s fun c => { c with
      queue := q, episode := c.episode && !(decide (entriesLow q < 224) && decide (entriesTaken q < 256)) }
    let s := if eventLogged x.ev then logAdd s (.event x.ev x.count) else s
    let s := hostEvent (hostEvent s .a x.ev) .b x.ev
    match holder s with
    | some f => forwardEvent s f x.ev
    | none => setColl s fun c => { c with forHolder := c.forHolder ++ [x.ev] }

/-- A read of SLT_HOST_EVT_0: the oldest entry is removed; its argument and time are latched (R472). The value read stands in the register's copy. -/
def eventQueueRead (s : State) (h : HostId) : State :=
  match (hostOf s h).events with
  | [] => setReg s (hostKey h (sltHostEvt 0)) 0
  | e :: q =>
    let s := hostShow (setHost s h fun x => { x with events := q }) h
    let s := setReg s (hostKey h (sltHostEvt 0)) (BitVec.ofNat 32 (e.code.toNat + 65536 * e.block.toNat + 16777216 * e.cell.toNat))
    let s := setReg s (hostKey h (sltHostEvt 1)) e.arg
    setReg (setReg s (hostKey h (sltHostEvt 2)) e.ns) (hostKey h (sltHostEvt 3)) e.sec

/-! Meanings. -/

/-- EVENT_ARRIVAL (R37). -/
def execEventArrival (e : Event) (s : State) : Out := .next (eventLands s e)

/-- EVENT_DELIVERY (R38). -/
def execEventDelivery (s : State) : Out := .next (eventDelivers s)

/-- EVENT_QUEUE_READ (R472). -/
def execEventQueueRead (h : HostId) (s : State) : Out := .next (reqSlate s (hostReq h) fun s => eventQueueRead s h)

end Sys2Proof.Machine
end

