-- ==== Sys2Proof/Machine/Mesh.lean ====
section
/-! DEFINITION. The mesh between the network interfaces: routes, buffers and credits, router outputs, and the arrival of whole packets (R20, R24 to R30, R429, R433). -/

namespace Sys2Proof.Machine

/-! Routes (R25). The mesh has 8 columns and 5 rows. -/

/-- The neighbour on a side of a router: 0 column + 1, 1 column − 1, 2 row + 1, 3 row − 1 (R25). -/
def neighbour (r : Fin 40) (side : Fin 5) : Option (Fin 40) :=
  let go (ok : Bool) (n : Nat) : Option (Fin 40) := if ok then some (Fin.ofNat 40 n) else none
  match side.val with
  | 0 => go (decide (r.val % 8 < 7)) (r.val + 1)
  | 1 => go (decide (0 < r.val % 8)) (r.val - 1)
  | 2 => go (decide (r.val / 8 < 4)) (r.val + 8)
  | 3 => go (decide (0 < r.val / 8)) (r.val - 8)
  | _ => none

/-- The side by which the neighbour on a side is entered. -/
def facing (side : Fin 5) : Fin 5 :=
  match side.val with
  | 0 => 1
  | 1 => 0
  | 2 => 3
  | 3 => 2
  | _ => 4

/-- The output towards a router: first along the row to its column, then along that column (R25). -/
def routeOf (r dest : Fin 40) : Fin 5 :=
  if r.val % 8 < dest.val % 8 then 0
  else if dest.val % 8 < r.val % 8 then 1
  else if r.val / 8 < dest.val / 8 then 2
  else if dest.val / 8 < r.val / 8 then 3
  else 4

/-! One clock of the network, first half: flits on the links reach their buffers, and credits on the sidebands their senders (R26). -/

/-- The flit that comes into a router by a side in this clock, with its channel. -/
def comingIn (m : Mesh) (r : Fin 40) (side : Fin 5) : Option (Fin 2 × Flit) :=
  match neighbour r side with
  | some q => ((m.nodes[q]).outs[facing side]).wire
  | none => if side = 4 then (m.nodes[r]).iface.wire else none

/-- A sender takes the credits that were on their way; its flit has left the link; `more` is the credit that a flit taken at once gives back (R26). -/
def portLands (p : MeshPort) (more : Option (Fin 2)) : MeshPort :=
  { p with
    wire := none
    credit := vUpd (vUpd p.credit 0 (· + p.back[(0 : Fin 2)])) 1 (· + p.back[(1 : Fin 2)])
    back := match more with
      | some v => (Vector.replicate 2 0).set v 1
      | none => Vector.replicate 2 0 }

/-- A router with its interface after the first half of a clock; the interface sinks a flit in the clock in which it arrives (R26, R429, R433). -/
def nodeLands (m : Mesh) (r : Fin 40) : MeshNode :=
  let n := m.nodes[r]
  let ins := (List.finRange 5).foldl (fun (x : Vector (Vector (List Flit) 2) 5) i =>
    match comingIn m r i with
    | some e => vUpd x i fun b => vUpd b e.1 fun l => l ++ [e.2]
    | none => x) n.ins
  let outs := (List.finRange 5).foldl (fun (x : Vector MeshPort 5) o =>
    vUpd x o fun p => portLands p (if o = 4 then p.wire.map fun e => e.1 else none)) n.outs
  let got := match (n.outs[(4 : Fin 5)]).wire with
    | some e => vUpd n.got e.1 fun l => l ++ [e.2]
    | none => n.got
  let iface := if n.withheld then { n.iface with wire := none } else portLands n.iface none
  { n with ins := ins, outs := outs, got := got, iface := iface }

/-- The first half of a clock. -/
def meshLands (m : Mesh) : Mesh :=
  (List.finRange 40).foldl (fun (x : Mesh) (r : Fin 40) => { x with nodes := vUpd x.nodes r fun _ => nodeLands m r }) m

/-! Second half: each output sends a flit (R27). -/

/-- The input whose flit an output may send on a channel: that of the packet in progress, else the next in turn whose first flit is a header for this output; none without a credit (R26, R27). -/
def mayGo (n : MeshNode) (r : Fin 40) (o : Fin 5) (v : Fin 2) : Option (Fin 5) :=
  let p := n.outs[o]
  if p.credit[v] = 0 then none
  else match p.owner[v] with
    | some i => if ((n.ins[i])[v]).isEmpty then none else some i
    | none =>
      ((List.range 5).map fun k => Fin.ofNat 5 ((p.last[v]).val + 1 + k)).find? fun i =>
        match ((n.ins[i])[v]).head? with
        | some f => f.first && routeOf r f.dest == o
        | none => false

/-- The channel served where the requests and the responses have a flit and a credit or not: responses first, but requests at least once in four clocks (R27). -/
def channelServed (req resp : Bool) (waited : Nat) : Option (Fin 2) :=
  if resp && !(req && decide (3 ≤ waited)) then some 1 else if req then some 0 else none

/-- A flit leaves on a link: a credit is spent; the output stays with the packet until its last flit (R26, R27). -/
def portSends (p : MeshPort) (v : Fin 2) (f : Flit) (i : Fin 5) (reqWaits : Bool) : MeshPort :=
  { p with
    wire := some (v, f)
    credit := vUpd p.credit v (· - 1)
    owner := p.owner.set v (if f.last then none else some i)
    last := p.last.set v i
    waited := if v = 1 && reqWaits then p.waited + 1 else 0 }

/-- A flit has left an input buffer: its credit returns to the sender of that link in the next clock (R26). -/
def flitCredit (m : Mesh) (r : Fin 40) (i : Fin 5) (v : Fin 2) : Mesh :=
  let up (p : MeshPort) : MeshPort := { p with back := vUpd p.back v (· + 1) }
  match neighbour r i with
  | some q => { m with nodes := vUpd m.nodes q fun n => { n with outs := vUpd n.outs (facing i) up } }
  | none => { m with nodes := vUpd m.nodes r fun n => { n with iface := up n.iface } }

/-- One output's clock (R27). -/
def outputSends (r : Fin 40) (m : Mesh) (o : Fin 5) : Mesh :=
  let n := m.nodes[r]
  let req := mayGo n r o 0
  let resp := mayGo n r o 1
  match channelServed req.isSome resp.isSome (n.outs[o]).waited with
  | none => m
  | some v =>
    match if v = 0 then req else resp with
    | none => m
    | some i =>
      match (n.ins[i])[v] with
      | [] => m
      | f :: rest =>
        flitCredit { m with nodes := vUpd m.nodes r fun n => { n with
          ins := vUpd n.ins i fun b => b.set v rest
          outs := vUpd n.outs o fun p => portSends p v f i req.isSome } } r i v

/-- The interface's own link to its router (R26, R27). -/
def ifaceSends (n : MeshNode) : MeshNode :=
  let can (v : Fin 2) : Bool := n.iface.credit[v] != 0 && !(n.queue[v]).isEmpty
  match channelServed (can 0) (can 1) n.iface.waited with
  | none => n
  | some v =>
    match n.queue[v] with
    | [] => n
    | f :: rest => { n with queue := n.queue.set v rest, iface := portSends n.iface v f 4 (can 0) }

/-- The second half of a clock. -/
def meshSends (m : Mesh) : Mesh :=
  (List.finRange 40).foldl (fun m r =>
    let m := (List.finRange 5).foldl (outputSends r) m
    { m with nodes := vUpd m.nodes r ifaceSends }) m

/-! Whole packets (R20, R24, R28, R30). -/

/-- A packet has come whole to the interface of router `r`: the routers answer a request to a region that does not accept one; any other packet waits at its region's interface (R20, R24, R30). -/
def meshArrives (s : State) (r : Fin 40) (fs : List Flit) : State :=
  let reg := routerRegion r.val
  let p := deliveredAs (flitsPacket fs)
  let o := pOpcode p
  if o < 5 && !serves s reg then
    if answered o then
      meshSend s r (mkPacket (pTag p) 0xA reg (pSrc p).val (pAddr p) 0 2 []) (Fin.ofNat 40 (firstRouter (pSrc p).val))
    else s
  else { s with net := s.net ++ [(Fin.ofNat 16 reg, p)] }

/-- Packets that an interface has received to their last flit. -/
def nodeArrives (s : State) (r : Fin 40) : State :=
  [(0 : Fin 2), 1].foldl (fun s v =>
    let fs := (s.mesh.nodes[r]).got[v]
    match fs.getLast? with
    | some f => if f.last then meshArrives (setNode s r fun n => { n with got := n.got.set v [] }) r fs else s
    | none => s) s

/-- Nothing moves on the mesh. -/
def meshIdle (m : Mesh) : Bool :=
  m.nodes.toList.all fun n =>
    n.ins.toList.all (fun b => b.toList.all List.isEmpty) && n.queue.toList.all List.isEmpty
      && (n.iface :: n.outs.toList).all fun p => p.wire.isNone && (n.withheld || p.back.toList.all fun k => k == 0)

/-- One clock of the network. -/
def meshClock (s : State) : State :=
  let s := { s with mesh := meshLands s.mesh }
  let s := (List.finRange 40).foldl nodeArrives s
  { s with mesh := meshSends s.mesh }

/-- `n` clocks. -/
def meshClocks : Nat → State → State
  | 0, s => s
  | n + 1, s => meshClocks n (meshClock s)

/-- The network's clocks of 1.2 GHz in the nanosecond that ends now. -/
def meshRun (s : State) : State :=
  if meshIdle s.mesh then s else meshClocks (s.now * 6 / 5 - (s.now - 1) * 6 / 5) s

/-! Resets (R20, R433). -/

/-- The routers of a region, by number. -/
def routersOf (r : Nat) : List (Fin 40) := (List.finRange 40).filter fun x => routerRegion x.val == r

/-- A region resets: its interfaces drop the packets that they have not begun to send, and its routers withhold the credits of the local links, which count as returning (R433). -/
def ifacesReset (s : State) (r : Nat) : State :=
  let s := setTags s (Fin.ofNat 16 r) fun _ => []
  (routersOf r).foldl (fun s x => setNode s x fun n =>
    let p := n.iface
    { n with
      queue := n.queue.map fun q => q.takeWhile fun f => !f.first
      withheld := true
      iface := { p with
        credit := Vector.replicate 2 0
        back := vUpd (vUpd p.back 0 (· + p.credit[(0 : Fin 2)])) 1 (· + p.credit[(1 : Fin 2)]) } }) s

/-- A region accepts requests again: its interfaces' credits are restored in that clock (R20, R433). -/
def ifacesJoin (s : State) (r : Nat) : State :=
  (routersOf r).foldl (fun s x => setNode s x fun n =>
    if n.withheld then { n with withheld := false, iface := { portLands n.iface none with wire := n.iface.wire } } else n) s

end Sys2Proof.Machine
end

