-- ==== Sys2Proof/Machine/Mica.lean ====
section
/-! DEFINITION. Mica: planes, LUTs, admission, updates, composition, late stripes (R175 to R199). -/

namespace Sys2Proof.Machine

/-! Planes as registers hold them (R182, R197). -/

/-- An overlay plane's fields (R197). -/
structure Plane where
  enabled : Bool
  rgb10 : Bool
  prelut : Nat
  filter : Nat
  everyFrame : Bool
  policy : Nat
  alpha : Nat
  ws : Nat
  hs : Nat
  wd : Nat
  hd : Nat
  x : Int
  y : Int
  pitch : Nat
  buf0 : Nat
  buf1 : Nat
deriving DecidableEq, Repr

/-- The fields of plane `n` in a set (R197). -/
def planeOf (m : MicaSet) (n : Nat) : Plane :=
  let w := fun i => (m.planes.getD n []).getD i 0
  { enabled := n != 0 && flag (w 0) 0, rgb10 := flag (w 0) 1, prelut := fld (w 0) 4 2, filter := fld (w 0) 6 2
    everyFrame := flag (w 0) 9, policy := fld (w 0) 10 2, alpha := fld (w 0) 24 8
    ws := fld (w 1) 0 15, hs := fld (w 1) 16 15, wd := fld (w 2) 0 15, hd := fld (w 2) 16 15
    x := signedOf (fld (w 3) 0 16) 16, y := signedOf (fld (w 3) 16 16) 16, pitch := fld (w 4) 0 20
    buf0 := (w 5).toNat + 2 ^ 32 * fld (w 6) 0 8, buf1 := (w 7).toNat + 2 ^ 32 * fld (w 8) 0 8 }

/-- The staged registers as one set (R188). -/
def micaStaged (s : State) : MicaSet :=
  { planes := (Vector.finRange 8).map fun n => (List.range 9).map fun i => readReg s (mcaPlaneCtrl n.val + 4 * i)
    order := readReg s mcaOrder, compose := readReg s mcaComposeCtrl, refused := [] }

/-- MCA_UPDATE_STATUS (R198). -/
def micaStatus (s : State) : State :=
  let m := s.mica
  setReg s mcaUpdateStatus (BitVec.ofNat 32
    (b2n m.running * 2 ^ 25 + b2n m.pending.isSome * 2 ^ 24 + m.refusedBits % 256 * 65536 + m.front % 256 * 256 + m.marks % 256))

/-! Admission (R184 to R186). -/

/-- Q of a filter (R184). -/
def stripQ (filter : Nat) : Nat := if filter = 0 then 4096 else if filter = 1 then 4095 else 4093

/-- S, the number of blocks a plane needs (R184). -/
def planeStrips (p : Plane) : Nat := if p.ws ≤ 4096 then 1 else (p.ws + stripQ p.filter - 1) / stripQ p.filter

/-- Vertical taps (R183, R186). -/
def planeTaps (p : Plane) : Nat := if p.filter = 0 then 1 else if p.filter = 1 then 2 else 4

/-- WIDTH (R184). -/
def widthBad (m : MicaSet) (n : Nat) : Bool :=
  let p := planeOf m n
  let k := planeStrips p
  decide (4 < k) || decide (7 < n + k - 1) || (List.range (k - 1)).any fun i => (planeOf m (n + 1 + i)).enabled

/-- A surface buffer keeps R182 and lies in DRAM. -/
def bufferOk (s : State) (p : Plane) (b : Nat) : Bool :=
  b % 64 == 0 && decide (b + (p.hs - 1) * p.pitch + 4 * p.ws ≤ dramTop s)

/-- Reasons 0x1 to 0x4, in order; 0 for none (R185). -/
def planeRefusal (s : State) (m : MicaSet) (n : Nat) : Nat :=
  let p := planeOf m n
  let sizeBad (x : Nat) : Bool := x == 0 || decide (16384 < x)
  if widthBad m n then 1
  else if sizeBad p.ws || sizeBad p.hs || sizeBad p.wd || sizeBad p.hd then 2
  else if 4 * p.wd < p.ws ∨ 16 * p.ws < p.wd ∨ 4 * p.hd < p.hs ∨ 16 * p.hs < p.hd then 3
  else if p.pitch % 64 != 0 || decide (p.pitch < 4 * p.ws) || !bufferOk s p p.buf0 || !bufferOk s p p.buf1 then 4
  else 0

/-- B_line (R186). -/
def lineBudget (s : State) : Nat := 24 * timingLinePs s / 1000

/-- The first visible destination line of a plane and their number; none where no pixel is visible (R176, R186). -/
def visibleLines (s : State) (p : Plane) : Option (Nat × Nat) :=
  let top := max 0 p.y
  let bottom := min (panelH s : Int) (p.y + p.hd)
  if top < bottom ∧ p.x < (panelW s : Int) ∧ 0 < p.x + p.wd then some (top.toNat, (bottom - top).toNat) else none

/-- A plane's demands: first line, number of lines, bytes on each, lines counted cyclically in the vertical total (R186). -/
def planeDemand (s : State) (p : Plane) : List (Nat × Nat × Ratio) :=
  match visibleLines s p with
  | none => []
  | some (y, n) =>
    let vt := timingVt s
    [(y, n, ⟨4 * p.ws * p.hs, p.hd⟩), ((y + 64 * vt - 64) % vt, 64, ⟨planeTaps p * p.ws, 16⟩)]

/-- The sum of demands on a line (R186). -/
def demandOn (vt : Nat) (ds : List (Nat × Nat × Ratio)) (line : Nat) : Ratio :=
  ds.foldl (fun a d => if (line + vt - d.1 % vt) % vt < d.2.1 then ratAdd a d.2.2 else a) ⟨0, 1⟩

/-- Every line's sum of demands is within the budget; the largest sum lies where a demand begins (R186). -/
def budgetOk (s : State) (ds : List (Nat × Nat × Ratio)) : Bool :=
  ds.all fun d => ratLe (demandOn (timingVt s) ds d.1) (ratInt (lineBudget s))

/-- The planes refused, with their reasons, of a set: reasons 0x1 to 0x4 for every plane, then BUDGET in increasing number (R185, R186). -/
def admission (s : State) (m : MicaSet) : List (Nat × Nat) :=
  let ns := (List.range 8).filter fun n => (planeOf m n).enabled
  let early := ns.filterMap fun n => let r := planeRefusal s m n; if r = 0 then none else some (n, r)
  let rest := ns.filter fun n => !(early.map fun e => e.1).contains n
  let budget := rest.foldl (fun (a : List (Nat × Nat × Ratio) × List (Nat × Nat)) n =>
    let ds := a.1 ++ planeDemand s (planeOf m n)
    if budgetOk s ds then (ds, a.2) else (a.1, a.2 ++ [(n, 5)])) ([], [])
  early ++ budget.2

/-- UPDATE_REQUEST: the staged registers become the pending update (R188). -/
def updateRequest (s : State) : State :=
  let m := micaStaged s
  let bad := admission s m
  let s := if s.mica.pending.isSome then bump s mcaUpdatesReplaced else s
  let s := setMica s fun x => { x with
    pending := some { m with refused := bad.map fun e => e.1 }
    refusedBits := sumNat (bad.map fun e => 2 ^ e.1) }
  let s := bad.foldl (fun s e => mcaEvent s 0x041 e.1 (e.2 + 256 * (planeStrips (planeOf m e.1) % 8))) s
  micaStatus s

/-- PLANE_MARK (R190). -/
def planeMark (s : State) (v : Word) : State :=
  micaStatus (setMica s fun m => { m with marks := Nat.lor m.marks (v.toNat % 256 / 2 * 2) })

/-- Sets that select LUT banks: the live one and the pending one (R181). -/
def selectingSets (s : State) : List MicaSet := s.mica.live :: s.mica.pending.toList

/-- A LUT entry lies in a bank that a set selects; `o` is the offset in Mica's window (R181). -/
def lutInUse (s : State) (o : Nat) : Bool :=
  if o < 0x80000 then
    let e := (o - 0x40000) / 4
    (selectingSets s).any fun m => (planeOf m (e / 6144)).prelut == e / 3072 % 2 + 1
  else
    let e := (o - 0x80000) / 4
    (selectingSets s).any fun m => fld m.compose 0 2 == e / 12291 + 1

/-- LUT_WRITE: ignored and counted where the bank is in use (R181). -/
def lutWrite (s : State) (key : Nat) (v : Word) : State :=
  let o := key % 0x100000
  if o < 0x40000 ∨ (0x70000 ≤ o ∧ o < 0x80000) ∨ 0x80000 + 4 * 24582 ≤ o ∨ o % 4 ≠ 0 then s
  else if lutInUse s o then bump s mcaLutBlocked
  else writeKey s key v

/-! Update points (R189 to R191). -/

/-- The update point of frame `f` (R189). -/
def updatePoint (s : State) (f : Nat) : State :=
  let s := if s.mica.running then mcaEvent s 0x040 0xFF ((f + 2 ^ 32 - 1) % 2 ^ 32) else s
  let s := setMica s fun m => match m.pending with
    | some p => { m with live := p, pending := none, running := true }
    | none => { m with running := false }
  let m := s.mica
  let ns := (List.range 8).drop 1
  let late := ns.filter fun n => (planeOf m.live n).enabled && (planeOf m.live n).everyFrame && !bitAt m.marks n
  let s := if late.isEmpty then s else bump s mcaNotReady late.length
  let hold := late.any fun n => (planeOf m.live n).policy == 2
  let flips := if hold then [] else ns.filter fun n => bitAt m.marks n
  let bits (l : List Nat) : Nat := sumNat (l.map fun n => 2 ^ n)
  let s := setMica s fun m => { m with
    front := Nat.xor m.front (bits flips)
    marks := if hold then m.marks else 0
    dropped := if hold then [] else late.filter fun n => (planeOf m.live n).policy == 1
    underrunRaised := [] }
  let s := if flips.isEmpty && late.isEmpty then s
    else mcaEvent s 0x042 0xFF (bits flips + 256 * bits late + 65536 * (f % 65536))
  micaStatus s

/-! Blending (R177 to R183). -/

/-- mul16 (R178). -/
def mul16 (p q : Nat) : Nat := (p * q + 32767) / 65535

/-- The pre-blend LUT of plane `n` (R179, R181). -/
def prelutOf (s : State) (n bank ch v : Nat) : Nat :=
  if bank = 0 then (v * 65535 + 511) / 1023
  else fld (readReg s (mcaPrelut (((n * 2 + (bank - 1)) * 3 + ch) * 1024 + v))) 0 16

/-- The post-blend LUT (R180, R181). -/
def postlutOf (s : State) (bank ch x : Nat) : Nat :=
  if bank = 0 then (x * 1023 + 32767) / 65535
  else
    let e := fun i => fld (readReg s (mcaPostlut (((bank - 1) * 3 + ch) * 4097 + i))) 0 16
    let t := (e (x / 16) * (16 - x % 16) + e (x / 16 + 1) * (x % 16) + 8) / 16
    min 1023 ((t + 32) / 64)

/-- Xq of destination pixel `i`, in 1/64 source pixels (R183). -/
def scaleQ (i ws wd : Nat) : Int := (((2 * i + 1) * ws : Nat) - (wd : Int)) * 64 / (2 * wd)

/-- Taps and weights of a filter at a scaled position, before clamping (R183). -/
def scaleTaps (filter : Nat) (q : Int) : List (Int × Int) :=
  let b := q / 64
  let t := q % 64
  if filter = 0 then [((q + 32) / 64, 1024)]
  else if filter = 1 then [(b, (64 - t) * 16), (b + 1, t * 16)]
  else
    let w (n : Int) : Int := (n + 256) / 512
    let a := w (-(t * t * t) + 128 * t * t - 4096 * t)
    let c := w (-(3 * t * t * t) + 256 * t * t + 4096 * t)
    let d := w (t * t * t - 64 * t * t)
    [(b - 1, a), (b, 1024 - a - c - d), (b + 1, c), (b + 2, d)]

/-- The taps as source indices, clamped to the surface (R183). -/
def clampTaps (n : Nat) (ts : List (Int × Int)) : List (Nat × Int) :=
  ts.map fun t => ((max 0 (min ((n : Int) - 1) t.1)).toNat, t.2)

/-- One pass of the scaler: Σ weight × value, rounded and clamped (R183). -/
def filterSum (hi : Int) (vs : List (Int × Int)) : Int :=
  max 0 (min hi ((vs.foldl (fun a v => a + v.1 * v.2) 0 + 512) / 1024))

/-- The buffer that a plane shows: FRONT's (R182, R190). -/
def frontBuf (s : State) (p : Plane) (n : Nat) : Nat := if bitAt s.mica.front n then p.buf1 else p.buf0

/-- A source pixel: red, green, blue and alpha as 16 bits; one in a word that arrives with an error is transparent, its colour open (R182, R187). -/
def sourcePixel (s : State) (p : Plane) (base x y : Nat) : List Int :=
  let a := base + y * p.pitch + 4 * x
  let w := readLe s a 4
  let c8 (v : Nat) : Int := ((v * 4 + v / 64 : Nat) : Int)
  if readStatus s 13 (a / 8 * 8) 8 ≠ 0 then
    (List.range 3).map (fun c => ((Config.freeNat (0x1000000 + 4 * a + c) s.freeCtr % 1024 : Nat) : Int)) ++ [0]
  else if p.rgb10 then [(bitsOf w 0 10 : Int), (bitsOf w 10 10 : Int), (bitsOf w 20 10 : Int), (bitsOf w 30 2 * 21845 : Nat)]
  else [c8 (bitsOf w 0 8), c8 (bitsOf w 8 8), c8 (bitsOf w 16 8), (bitsOf w 24 8 * 257 : Nat)]

/-- The vertical taps of destination line `j` of a plane (R183). -/
def lineTaps (p : Plane) (j : Nat) : List (Nat × Int) := clampTaps p.hs (scaleTaps p.filter (scaleQ j p.hs p.hd))

/-- scaled(n, x, y, ·): the three codes and alpha at destination pixel (i, j), vertically first and then horizontally (R178, R183). -/
def scaledPixel (s : State) (p : Plane) (base i : Nat) (rows : List (Nat × Int)) : List Nat :=
  let cols := clampTaps p.ws (scaleTaps p.filter (scaleQ i p.ws p.wd))
  let hi (c : Nat) : Int := if c = 3 then 65535 else 1023
  let col (x c : Nat) : Int := filterSum (hi c) (rows.map fun r => (r.2, (sourcePixel s p base x r.1).getD c 0))
  (List.range 4).map fun c => (filterSum (hi c) (cols.map fun t => (t.2, col t.1 c))).toNat

/-- A visible line of a plane's destination is `y`, and the plane is shown in this frame (R176, R178, R185, R191). -/
def planeShows (s : State) (n : Nat) (y : Nat) : Bool :=
  let p := planeOf s.mica.live n
  p.enabled && !s.mica.live.refused.contains n && !s.mica.dropped.contains n &&
  (match visibleLines s p with
   | some (y0, k) => decide (y0 ≤ y) && decide (y < y0 + k)
   | none => false)

/-- The bytes of a plane's source lines that output line `y` needs: an address and a length for each (R183, R187). -/
def planeRows (s : State) (n y : Nat) : List (Nat × Nat) :=
  let p := planeOf s.mica.live n
  ((lineTaps p (y - p.y).toNat).map fun r => (frontBuf s p n + r.1 * p.pitch, 4 * p.ws)).eraseDups

/-- Why a plane's source lines fail on output line `y`: 1 LATE = one has not arrived, since its read waits or was never answered with data; 2 ERROR = one holds a word that arrived UNCORRECTABLE or POISONED; 0 none (R24, R187). -/
def planeUnderrun (s : State) (n y : Nat) : Nat :=
  let rows := planeRows s n y
  if rows.any fun r => dramStatus s r.1 r.2 != 0 || readWaits s 13 r.1 r.2 || failedRead s 13 r.1 r.2 == some 5 then 1
  else if rows.any fun r => readStatus s 13 r.1 r.2 != 0 then 2
  else 0

/-- A source line of a plane is fetched for the first output line that needs it: a poisoned word of it is a poisoned read (R186, R268). -/
def planeFetched (s : State) (n y : Nat) : State :=
  let before := if 0 < y ∧ planeShows s n (y - 1) then planeRows s n (y - 1) else []
  ((planeRows s n y).filter fun r => !before.contains r).foldl (fun s r => poisonSeen s 13 r.1 r.2) s

/-- Underruns of the line counted, and PLANE_UNDERRUN at most once per plane per frame (R187, R199). -/
def countUnderruns (s : State) (y : Nat) (bad : List (Nat × Nat)) : State :=
  bad.foldl (fun s e =>
    let s := bump s mcaUnderrun
    if s.mica.underrunRaised.contains e.1 then s
    else mcaEvent (setMica s fun m => { m with underrunRaised := e.1 :: m.underrunRaised }) 0x043 e.1 (e.2 + 65536 * (y % 16384))) s

/-- The value of a subpixel in the ring: code of subpixel (x, c) of line `l` of a stripe (R126, R127). -/
def ringCode (st : Stripe) (l x c : Nat) : Nat :=
  bitsOf ((smGet? st.words (wordKey l (x / 64) (x % 64 / 8))).getD 0).toNat (30 * (x % 8) + 10 * c) 10

/-- The codes of pixel (x, y) of a rendered line (R178). -/
def composePixel (s : State) (st : Stripe) (l x : Nat) (shown : List (Nat × List (Nat × Int))) : List Nat :=
  let m := s.mica.live
  let planes := (List.range 8).filterMap fun z =>
    let n := fld m.order (3 * z) 3
    let p := planeOf m n
    if n = 0 then some (0, p.prelut, [ringCode st l x 0, ringCode st l x 1, ringCode st l x 2, 65535])
    else match shown.find? fun e => e.1 == n with
      | none => none
      | some e =>
        if (x : Int) < p.x ∨ p.x + p.wd ≤ (x : Int) then none
        else
          let v := scaledPixel s p (frontBuf s p n) ((x : Int) - p.x).toNat e.2
          some (n, p.prelut, v.take 3 ++ [mul16 (v.getD 3 0) (p.alpha * 257)])
  (List.range 3).map fun c =>
    let d := planes.foldl (fun d e =>
      let a := e.2.2.getD 3 0
      min 65535 (mul16 (prelutOf s e.1 e.2.1 c (e.2.2.getD c 0)) a + mul16 d (65535 - a))) 0
    postlutOf s (fld m.compose 0 2) c d

/-- A rendered line composed (R178, R187). -/
def composeLine (s : State) (st : Stripe) (l y : Nat) : State × List Nat :=
  let ns := (List.range 8).filter fun n => planeShows s n y
  let bad := ns.filterMap fun n => let r := planeUnderrun s n y; if r = 0 then none else some (n, r)
  let s := countUnderruns (ns.foldl (fun s n => planeFetched s n y) s) y bad
  let shown := (ns.filter fun n => !bad.contains (n, 1)).map fun n =>
    let p := planeOf s.mica.live n
    (n, lineTaps p ((y : Int) - p.y).toNat)
  let out := (List.range (panelW s)).flatMap fun x => composePixel s st l x shown
  (if bad.any fun e => e.2 == 2 then { s with freeCtr := s.freeCtr + 1 } else s, out)

/-! Output and late stripes (R192 to R196). -/

/-- MCA_BACKGROUND on every pixel (R195). -/
def backgroundLine (s : State) : List Nat :=
  let w := readReg s mcaBackground
  (List.replicate (panelW s) [fld w 0 10, fld w 10 10, fld w 20 10]).flatten

/-- The line of a late stripe from the repeat ring, where it is wholly present (R195). -/
def repeatLine (s : State) (k : Nat × Nat × Nat) (l : Nat) : Option (List Nat) :=
  let segs := (List.range (shadowSegs s)).map fun g =>
    (s.mica.repeatRing.find? fun e => e.1 == (k.1, k.2.1, k.2.2, 64 * l + g)).map fun e => e.2
  if segs.all fun x => x.isSome then some (segs.flatMap fun x => x.getD []) else none

/-- REPEAT_FILLED, at most once per phase, with the lines filled of the stripe (R195, R199). -/
def fillReport (s : State) (k : Nat × Nat × Nat) : State :=
  let n := s.mica.filled
  let s := setMica s fun m => { m with filled := 0 }
  if n = 0 ∨ s.mica.fillRaised then s
  else mcaEvent (setMica s fun m => { m with fillRaised := true }) 0x044 0xFF (k.2.2 % 1024 + 1024 * k.2.1 + 65536 * n)

/-- A line that Mica sends: its codes, 3 a pixel; SOURCE and FILL of its words (R192). -/
structure MicaOut where
  codes : List Nat
  repeat_ : Bool
  fill : Bool

/-- Word w of a line: the tag FRAME, PHASE, LINE, SOURCE, FILL, WORD above pixels 32w to 32w + 31 (R32, R192). -/
def micaWord (k : Nat × Nat × Nat) (l : Nat) (o : MicaOut) (codes : Array Nat) (w : Nat) : BitVec 1024 :=
  let tag := k.1 % 2 ^ 32 * 2 ^ 32 + k.2.1 % 4 * 2 ^ 30 + (16 * k.2.2 + l) % 16384 * 2 ^ 16 + b2n o.repeat_ * 2 ^ 15 + b2n o.fill * 2 ^ 14 + w % 512
  BitVec.ofNat 1024 (tag * 2 ^ 960 + (List.range 96).foldr (fun i n => codes.getD (96 * w + i) 0 % 1024 + 1024 * n) 0)

/-- A line as its WIDTH / 32 words, in ascending order (R192). -/
def micaWords (s : State) (k : Nat × Nat × Nat) (l : Nat) (o : MicaOut) : List (BitVec 1024) :=
  let codes := o.codes.toArray
  (List.range (panelW s / 32)).map (micaWord k l o codes)

/-- A line goes out on the paths of R32. -/
def micaSend (s : State) (k : Nat × Nat × Nat) (l : Nat) (o : MicaOut) : State :=
  let words := micaWords s k l o
  setMica s fun m => { m with sent := words }

/-- The line that Mica sends for line `l` of a stripe; none while Mica sends no words (R192, R194 to R196). -/
def micaLine (s : State) (k : Nat × Nat × Nat) (l : Nat) : State × Option MicaOut :=
  let y := 16 * k.2.2 + l
  if !serves s 13 then (s, none)
  else match stripeOf s k with
    | none => (s, none)
    | some st =>
      if !st.late && st.complete then
        let (s, out) := composeLine s st l y
        let o : MicaOut := ⟨out, false, false⟩
        (micaSend s k l o, some o)
      else
        let s := bump s mcaRepeatLines
        let (s, o) := match repeatLine s k l with
          | some codes => (s, (⟨codes, true, false⟩ : MicaOut))
          | none => (bump (setMica s fun m => { m with filled := m.filled + 1 }) mcaFillLines, ⟨backgroundLine s, true, true⟩)
        (micaSend (if l = 15 then fillReport s k else s) k l o, some o)

/-- The line goes to Borax in the same clock; one not accepted is not sent to Borax, is counted, and SHADOW_LINE_DROPPED is raised at most once per phase (R192, R193). -/
def toBorax (s : State) (k : Nat × Nat × Nat) (l : Nat) (codes : Option (List Nat)) : State :=
  let y := 16 * k.2.2 + l
  let (s, ok) := shadowLine s k.1 k.2.1 k.2.2 l codes
  let s := retLine s k.2.1 y (if ok then codes else none)
  if ok || codes.isNone then s
  else
    let s := bump s mcaShadowDropped
    if s.mica.shadowRaised then s
    else mcaEvent (setMica s fun m => { m with shadowRaised := true }) 0x045 0xFF (y % 16384 + 16384 * k.2.1)

/-- The repeat point of a stripe, which it has once: with a word missing, Mica asks Borax for its lines (R194). -/
def repeatPoint (s : State) (k : Nat × Nat × Nat) : State :=
  if !serves s 13 || s.mica.asked.contains k then s
  else
    let s := setMica s fun m => { m with asked := (k :: m.asked).take 2 }
    match stripeOf s k with
    | some st => if st.complete then s else repeatRequest s k
    | none => repeatRequest s k

/-- A stripe's repeat lines are discarded once it has passed (R194). -/
def ringDrop (s : State) (k : Nat × Nat × Nat) : State :=
  setMica s fun m => { m with repeatRing := m.repeatRing.filter fun e => !((e.1.1, e.1.2.1, e.1.2.2.1) == k) }

/-- Events at most once per phase may be raised again. -/
def micaPhase (s : State) : State :=
  setBorax (setMica s fun m => { m with fillRaised := false, shadowRaised := false }) fun b => { b with dropRaised := false }

/-! Drain, reset and rejoin (R196, R214). -/

/-- Mica begins to drain: no more words; open stripes are cancelled; a running blit ends where it stands, how far that is being open (R196, R214). -/
def micaDrained (s : State) : State :=
  let s := setMica s fun m => { m with marks := 0, pending := none, repeatRing := [], filled := 0 }
  let s := (s.stripes.open_.map stripeKey).foldl cancelStripe s
  let s := setStripes s fun q => { q with open_ := [] }
  match s.mica.blit with
  | none => s
  | some b =>
    let (n, s) := takeFree s 20
    (bltRun s b (n % (b.size.1 * b.size.2 + 1))).1

/-- Mica's region reset: staged registers and the state of updates go to their reset values; the live set, FRONT, the LUT banks and the blit's outcome are retained (R196, R214). -/
def micaReset (s : State) : State :=
  let s := setMica s fun m => { live := m.live, front := m.front, blit := m.blit }
  let keep := s.regs.filter fun e => (e.1 / 0x100000 == 13 && decide (0x40000 ≤ e.1 % 0x100000)) || e.1 == mcaBltStatus
  let s := resetWindow s 13
  keep.foldl (fun s e => setReg s e.1 e.2) s

/-- Mica has rejoined: a blit cut short shows RESULT LOST (R196, R214). -/
def micaRejoined (s : State) : State :=
  let s := micaStatus s
  match s.mica.blit with
  | none => s
  | some _ => mcaEvent (bltStatus (setMica s fun m => { m with blit := none }) false 5 0 0) 0x050 8 5

/-- Mica's power is lost: what it retained is lost too (R196, R481). -/
def micaOff (s : State) : State := { s with mica := {} }

/-! Meanings. -/

/-- UPDATE_REQUEST (R188). -/
def execUpdateRequest (q : Requester) (s : State) : Out := .next (reqServes s q 13 updateRequest)

/-- PLANE_MARK (R190). -/
def execPlaneMark (q : Requester) (v : Word) (s : State) : Out := .next (reqServes s q 13 fun s => planeMark s v)

/-- LUT_WRITE (R181). -/
def execLutWrite (q : Requester) (addr : BitVec 24) (v : Word) (s : State) : Out :=
  .next (if addr.toNat / 0x100000 = 13 then reqServes s q 13 fun s => lutWrite s addr.toNat v else s)

end Sys2Proof.Machine
end

