-- ==== Sys2Proof/Machine/Regions.lean ====
section
/-! DEFINITION. Regions, blocks and cells: power, drain, reset, rejoin, retirement and hand-over; the tin lease and its switch-overs; chip reset (R11 to R21, R402 to R420, R479 to R498, R548). -/

namespace Sys2Proof.Machine

/-! What SLT_PWR_STATE and SLT_PWR_STATUS show (R479, R497). -/

/-- STATE of a region: a region that is reset and rejoins stays ON (R20, R497). -/
def phaseCode (c : RegionCtl) : Nat :=
  match c.phase with
  | .off => 0
  | .poweringOn => 1
  | .initialising => if c.rejoining then 2 else 1
  | .on => 2
  | .draining => if c.drainFor = .rejoin then 2 else 3
  | .inReset => 2
  | .poweringOff => 3

/-- Users of the DRAM group (R479). -/
def dramUsers : List Nat := [3, 4, 5, 6, 7, 12, 13]

/-- Bauxite-0 to Bauxite-3. -/
def bauxites : List Nat := [8, 9, 10, 11]

/-- A region is unpowered. -/
def isOff (s : State) (r : Nat) : Bool := (ctlOf s r).phase == .off

/-- MODE (R479, R497). -/
def modeCode (s : State) : Nat :=
  match s.power.mode with
  | .recovery => 1
  | .run => if (dramUsers ++ bauxites).all fun r => isOff s r then 2 else 3
  | _ => 0

/-- SLT_PWR_STATE and SLT_PWR_STATUS follow (R497). -/
def pwrShow (s : State) : State :=
  let s := setReg s sltPwrState (BitVec.ofNat 32 (sumNat ((List.range 16).map fun r => phaseCode (ctlOf s r) * 4 ^ r)))
  let p := s.power
  let held := sumNat ((List.range 16).map fun r => b2n ((p.held.getD r none).isSome) * 2 ^ r)
  setReg s sltPwrStatus (BitVec.ofNat 32 (modeCode s * 2 ^ 29 + b2n p.refclkEn * 2 ^ 28 + b2n p.dramPwrEn * 2 ^ 27
    + b2n p.refclkFault * 2 ^ 26 + b2n p.xtalFault * 2 ^ 25 + b2n p.margin * 2 ^ 24 + held))

/-- Power control changed. -/
def setPwr (s : State) (f : Power → Power) : State := pwrShow { s with power := f s.power }

/-- A region's phase set. -/
def setPhase (s : State) (r : Nat) (p : RegionPhase) : State := pwrShow (setCtl s r fun c => { c with phase := p })

/-- An event of Slate's power block (R498). -/
def powerEvent (s : State) (level cause arg : Nat) : State := raise s level 0 cause 0 0xFF arg

/-- An event of the lease block (R425). -/
def leaseEvent (s : State) (level cause arg : Nat) : State := raise s level 0 cause 1 0xFF arg

/-- RESET_CAUSE (R494, R497). -/
def resetCause (s : State) (c : Nat) : State := setF s sltWakeStatus 24 4 c

/-! Eligibility and the shadow run (R409 to R413). -/

/-- A Flint region is eligible for the lease (R413): in the shadow run, every item passed, in service with no block of it quarantined. -/
def eligible (s : State) (f : FlintId) : Bool :=
  (flintOf s f).shadow == .inShadow && (flintOf s f).selftest % 64 == 63 && flintUp s f
    && !(s.quarantined.any fun q => q.1 == flintRegion f)

/-- SLT_LEASE_STATUS follows eligibility; a change raises ELIGIBILITY_CHANGED (R413). -/
def leaseShow (s : State) : State :=
  let e := b2n (eligible s .a) + 2 * b2n (eligible s .b)
  if e = getF s sltLeaseStatus 28 2 then s
  else leaseEvent (setF s sltLeaseStatus 28 2 e) 2 0x154 e

/-- A standby leaves the shadow run: 1 MIRROR_FULL, 2 MISMATCH, 3 DRAIN (R409, R411, R425). -/
def shadowLose (s : State) (f : FlintId) (why : Nat) : State :=
  if (flintOf s f).shadow ≠ .inShadow then setFlint s f fun x => { x with shadow := .out }
  else
    let s := setLease (setFlint s f fun x => { x with shadow := .out, mirror := [], wait := none }) fun l => { l with mirror := [] }
    leaseShow (flintEvent (bump s (flaShadowLosses (flintRegion f))) f 2 0x111 why)

/-- A region in service beside a holder waits to enter the shadow run (R410, R414). -/
def shadowWait (s : State) (f : FlintId) : State :=
  if flintUp s f && (flintOf s f).shadow == .out && (holder s).isSome && holder s != some f
  then setFlint s f fun x => { x with shadow := .waiting } else s

/-! The lease (R402, R403, R414 to R419). -/

/-- A switch-over ends with the new holder's first line start, or at once while the timing is stopped (R415, R418, R423). -/
def switchEnds (s : State) (f : FlintId) (reason : Nat) : State :=
  let gap := min 65535 ((s.now - s.ctrl.lease.lineAt) / 1000)
  let s := setLease (bump s sltSwitchovers) fun l => { l with step := .idle }
  let s := setF (setF s sltLeaseStatus 24 4 reason) sltLeaseStatus 0 16 gap
  leaseEvent s 3 0x150 (holderCode (some f) + 16 * reason + 65536 * gap)

/-- The lease goes to a region: it leaves the shadow run, carries on from the records it has, and takes the events that were held; the other region waits for a checkpoint (R402, R410, R415 to R417). -/
def leaseGrant (s : State) (f : FlintId) : State :=
  let s := setLease (setHolder s (some f)) fun l => { l with renewedAt := s.now }
  let s := setFlint s f fun x => { x with shadow := .out, lapsed := false }
  leaseShow (forwardHeld (shadowWait s (otherFlint f)) f)

/-- The grant of a switch-over: the first line start is awaited while the timing runs (R415, R416, R419). -/
def switchGrant (s : State) (f : FlintId) (reason : Nat) : State :=
  let s := leaseGrant s f
  if s.scan.running then setLease s fun l => { l with step := .aligning reason } else switchEnds s f reason

/-- The release record: the holder's last action number (R415, R417). -/
def releaseSend (s : State) (f : FlintId) : State := mirrorSend s f (.release (BitVec.ofNat 64 (flintOf s f).action))

/-- The holder gives the lease up, or it lapses: the guard time begins (R405, R415 to R417). -/
def leaseEnds (s : State) (f : FlintId) (reason : Nat) : State :=
  let s := setHolder s none
  let at_ := if s.scan.running then s.ctrl.lease.lineAt else s.now
  let s := setLease s fun l => { l with step := .guard reason, stepAt := s.now, last := some f, mismatch := false, lineAt := at_ }
  leaseShow (setFlint s f fun x => { x with lapsed := true })

/-! Units (R12 to R16). -/

/-- Cells of a block (R12); 0 where there is no such block. -/
def cellsIn (r b : Nat) : Nat :=
  if r = 0 then [32, 1, 1].getD b 0
  else if r ≤ 2 then [5, 16, 2].getD b 0
  else if r = 3 then (if b < 4 then 8 else 0)
  else if r < 8 then (if b < 12 then 32 else 0)
  else if r < 12 then (if b < 8 then 2 else 0)
  else if r = 12 then (if b < 4 then 4 else 0)
  else if r = 13 then (if b < 8 then 4 else if b = 8 then 2 else 0)
  else if r = 14 then (if b < 12 then 4 else if b = 12 then 2 else if b < 15 then 4 else 0)
  else if b < 6 then 16 else if b = 6 then 9 else 0

/-- Retired cells of a block. -/
def retiredIn (s : State) (r b : Nat) : Nat := ((List.range (cellsIn r b)).filter fun c => isRetired s r b c).length

/-- The block's self-quarantine condition (R12). That of the panel's lane groups is R300's. -/
def blockFails (s : State) (r b : Nat) : Bool :=
  let n := retiredIn s r b
  if r = 0 then false
  else if r ≤ 2 ∨ r = 13 then n != 0
  else if r = 3 then (List.range 4).all fun c => isRetired s r b c
  else if r < 8 then decide (8 < n)
  else if r < 12 then n == 2
  else if r = 12 then decide (2 < n)
  else if r = 14 then decide (13 ≤ b) && n != 0
  else if b = 6 then n != 0 else n == 16

/-- Work of a retired cell handed to the block's other cells (R13, R134). -/
def cellHand (s : State) (r b c : Nat) : State :=
  if 4 ≤ r ∧ r < 8 then handOverCell s (Fin.ofNat 4 (r - 4)) (Fin.ofNat 12 b) (Fin.ofNat 32 c)
  else if r = 12 then boraxBack s (Fin.ofNat 16 (4 * b + c))
  else s

/-- Work of a quarantined block handed to its siblings (R13, R134). -/
def blockHand (s : State) (r b : Nat) : State :=
  if 4 ≤ r ∧ r < 8 then handOverBlock s (Fin.ofNat 4 (r - 4)) (Fin.ofNat 12 b)
  else if r = 12 then boraxHand s (Fin.ofNat 4 b)
  else s

/-- A block quarantines itself (R12, R13, R35). -/
def blockQuarantine (s : State) (r b : Nat) : State :=
  if isQuarantined s r b then s
  else blockHand (raise { s with quarantined := s.quarantined ++ [(r, b)] } 1 r 0x3F2 b 0xFF 0) r b

/-! Drain, reset and power-off (R17 to R21, R489, R514). -/

/-- What begins with the drain of a region, at its time 0 (R20, R21, R134, R196, R243, R356, R417). -/
def drainBegins (s : State) (r : Nat) : State :=
  let flint (f : FlintId) : State := if holder s = some f then leaseEnds (releaseSend s f) f 4 else shadowLose s f 3
  if r = 1 then flint .a
  else if r = 2 then flint .b
  else if 4 ≤ r ∧ r < 8 then handOverRegion s (Fin.ofNat 4 (r - 4))
  else if r = 12 then boraxDrained s
  else if r = 13 then micaDrained s
  else if r = 15 then timeDrained (audioDrained s)
  else s

/-- A region in service begins to drain (R20, R35). -/
def startDrain (s : State) (r : Nat) (why : DrainFor) : State :=
  if (ctlOf s r).phase ≠ .on then s
  else
    let s := setCtl s r fun c => { c with drainFor := why, rejoining := why == .rejoin }
    drainBegins (raise (setPhase s r .draining) 2 r 0x3F3 0xFF 0xFF 0) r

/-- The region with an acknowledgement's requester. -/
def ackFrom (a : OutAck) : Option Nat :=
  match a.who with
  | .host .. => none
  | .frame f _ => some (flintRegion f)
  | .layer .. => some 3
  | .other r => some r

/-- Whether a write is outstanding to a region: to its window, or to DRAM behind a Bauxite region; the Bauxite regions power down together (R488). -/
def ackTo (a : OutAck) (r : Nat) : Bool :=
  let bauxite := decide (8 ≤ r) && decide (r < 12)
  match a.who with
  | .host _ addr => if addr < 0x1000000 then addr / 0x100000 == r else bauxite
  | .frame _ addr => if 0xFFF0000000 ≤ addr ∧ addr < 0xFFF1000000 then addr / 0x100000 % 16 == r else bauxite
  | .layer .. => bauxite
  | .other _ => false

/-- The reads that wait in a Bauxite region's channels end with status TIMEOUT (R20). -/
def readsTimeOut (s : State) (r : Nat) : State :=
  (List.finRange 32).foldl (fun s c =>
    if c.val / 8 + 8 = r then
      (s.dram.ch[c]).readQ.foldl (fun s q =>
        answer (noteFailed s q.src.val q.line (List.range 32) 5) r q.src q.tag 8 5 (q.line * 256) []) (setChan s c fun x => { x with readQ := [] })
    else s) s

/-- A host's pending read to the region ends with status TIMEOUT (R20). -/
def hostReadTimesOut (s : State) (r : Nat) (h : HostId) : State :=
  match (hostOf s h).read with
  | some x =>
    let there := if 0xFFF0000000 ≤ x.addr ∧ x.addr < 0xFFF1000000 then x.addr / 0x100000 % 16 == r else decide (8 ≤ r) && decide (r < 12)
    if !x.flash && x.result.isNone && there then setHost s h fun p => { p with read := some { x with result := some ([], 5) } } else s
  | none => s

/-- The drain ends: requests still outstanding to the region end with status TIMEOUT, and its own are gone (R20). -/
def endOutstanding (s : State) (r : Nat) : State :=
  let acks := (s.acks.filter fun a => ackFrom a != some r).map fun a =>
    if ackTo a r then { a with status := 5 } else a
  let s := { s with acks := acks }
  let s := { s with dram := { s.dram with ch := s.dram.ch.map fun c => { c with readQ := c.readQ.filter fun q => q.src.val != r } } }
  let s := hostReadTimesOut (hostReadTimesOut (readsTimeOut s r) r .a) r .b
  [FlintId.a, .b].foldl (fun s f => setFlint s f fun x =>
    match x.wait with
    | some (.read d v st reg off) => { x with wait := some (if reg = r then .read d 0 5 reg off else .read d v st reg off) }
    | _ => x) s

/-- The window's registers go to their reset values, the RW fields keeping theirs: the Garnet settings (R356, R514). -/
def resetKeeping (s : State) (r : Nat) : State :=
  let keep := s.regs.filter fun e => e.1 % 0x1000000 / 0x100000 == r
  keep.foldl (fun s e =>
    let d := regDesc r (e.1 % 0x100000)
    setReg s e.1 (writeByCode { d with w1c := 0 } d.reset e.2)) (resetWindow s r)

/-- The serial lanes of a region are off. -/
def lanesReset (s : State) (r : Nat) : State :=
  if r = 3 then setLinks s fun k => { k with
    src := Vector.replicate 4 (Vector.replicate 4 {}), port := Vector.replicate 4 {}, eye := k.eye.set 0 none
    srcTx := Vector.replicate 4 {}, srcRx := Vector.replicate 4 {} }
  else setLinks s fun k => { k with
    panel := Vector.replicate 13 (Vector.replicate 4 {}), back := Vector.replicate 4 {}
    chain := Vector.replicate 13 0, rate := Vector.replicate 13 0, spare := Vector.replicate 2 none
    groupTx := Vector.replicate 13 {}, backRx := Vector.replicate 4 {}, replies := [], crcRaised := [], eye := k.eye.set 1 none }

/-- A Flint region's reset: its checkpoint banks and the image in its instruction memory stay (R163, R419). -/
def flintReset (x : Flint) : Flint :=
  { banks := x.banks, lastBank := x.lastBank, code := x.code, entry := x.entry, data := x.data, minor := x.minor }

/-- Obsidian's own state after its reset: Slate's copies, the pewter buffer and what the power sequence has reached stay (R297, R303, R308). -/
def obsReset (o : Obsidian) : Obsidian :=
  { state := o.state, step := o.step, afterOff := o.afterOff, script := o.script, port := o.port, safeCause := o.safeCause
    script4 := o.script4, gtSafe := o.gtSafe, gtLevel := o.gtLevel, pewter := o.pewter, pewterEra := o.pewterEra }

/-- Region reset (R20, R69, R196, R356, R514). -/
def regionReset (s : State) (r : Nat) : State :=
  let s := ifacesReset s r
  let s := if r = 13 then micaReset s else if r = 15 then resetKeeping s r else resetWindow s r
  let s := setLastAction s r 0
  if r = 1 then setFlint s .a flintReset
  else if r = 2 then setFlint s .b flintReset
  else if r = 3 then
    let s := (List.finRange 4).foldl endStream s
    lanesReset (setQuartz s fun q => { ports := q.ports.map fun p => { ended := p.ended }, stamp := q.stamp }) 3
  else if 4 ≤ r ∧ r < 8 then
    setGal s (Fin.ofNat 4 (r - 4)) fun x => { x with
      blocks := blocksReset x, lastBlock := 11, cache := cacheReset x.cache, cacheFrame := none, raised := [], lost := [] }
  else if r = 14 then
    let s := lanesReset (setObs s obsReset) 14
    let s := setCal s fun c => { area := c.area, launched := c.launched }
    setF s obsPanelStatus 29 3 (panelCode s.obs.state)
  else if r = 15 then setRate s s.tport.servo.r
  else s

/-- A calibration run ends ABORTED: no constant changes (R398). -/
def calAbort (s : State) : State :=
  match s.therm.cal with
  | none => s
  | some _ =>
    let s := { s with therm := { s.therm with cal := none } }
    let s := setF (setF s sltCalStatus 31 1 0) sltCalStatus 28 3 4
    powerEvent s 2 0x145 (4 + 256 * getF s sltCalStatus 8 8)

/-- The region that an on-die sensor measures (R380). -/
def dieRegion (i : Nat) : Nat := if i < 48 then 4 + i / 12 else [0, 1, 2, 3, 8, 9, 10, 11, 12, 13, 14, 15].getD (i - 48) 0

/-- The on-die sensors of an unpowered region hold no value (R380). -/
def sensorsOff (s : State) (r : Nat) : State :=
  (List.finRange 60).foldl (fun s i =>
    if dieRegion i.val = r then
      let k := sltTemp i.val
      setF (setF { s with therm := { s.therm with die := vUpd s.therm.die i fun d => { d with hist := [], apart := 0 } } } k 31 1 0) k 0 16 0
    else s) s

/-- A region's power is off: its registers and everything it held are lost; the last of the Bauxite regions takes DRAM's power with it, the last of four the time counter's (R163, R297, R361, R481). -/
def powerLost (s : State) (r : Nat) : State :=
  let s := sensorsOff (setPhase (setCtl (resetWindow (ifacesReset s r) r) r fun c => { c with rejoining := false, deferred := [] }) r .off) r
  let s := setLastAction s r 0
  let s :=
    if r = 1 then setFlint s .a fun _ => {}
    else if r = 2 then setFlint s .b fun _ => {}
    else if r = 3 then lanesReset (setQuartz s fun _ => {}) 3
    else if 4 ≤ r ∧ r < 8 then
      setGal { s with ctxs := s.ctxs.filter fun x => galRegion x.id.gal != r } (Fin.ofNat 4 (r - 4)) fun x =>
        { blocks := blocksReset x, cache := cacheReset x.cache }
    else if 8 ≤ r ∧ r < 12 then
      if bauxites.all fun b => isOff s b then setPwr (dramPowerLost s) fun p => { p with dramPwrEn := false } else s
    else if r = 12 then setBorax s fun _ => {}
    else if r = 13 then setStripes (micaOff s) fun q => { q with open_ := [] }
    else if r = 14 then
      let s := lanesReset (timingStop (setObs s obsReset)) 14
      let s := setCal (setObs s fun o => { o with pewter := [], pewterEra := o.pewterEra + 1 }) fun _ => {}
      setF s obsPanelStatus 29 3 (panelCode s.obs.state)
    else if r = 15 then { s with audio := {}, tport := { s.tport with trg := Vector.replicate 4 {}, cap := Vector.replicate 4 {}, ptp := {}, ppsAt := none } }
    else s
  if clockUnitOn s then s else clockUnitOff s

/-- The chip takes a region out of service until the next chip reset: it powers down, whatever of a fault's handling runs (R548). -/
def outOfService (s : State) (r : Nat) : State :=
  let s := powerEvent (setCtl s r fun c => { c with outOfService := true }) 3 0x186 r
  match (ctlOf s r).phase with
  | .on => startDrain s r .outOfService
  | _ => setPhase s r .poweringOff

/-- Whether one more reset would be the fourth within 10 s of the first (R13). -/
def fourthReset (s : State) (r : Nat) : Bool :=
  match (ctlOf s r).resets.drop 2 with
  | t :: _ => decide (s.now ≤ t + 10000000000)
  | [] => false

/-- A region drains, resets and rejoins, unless that reset would be the fourth within 10 s (R13, R20, R548). -/
def startRejoin (s : State) (r : Nat) : State :=
  if (ctlOf s r).phase ≠ .on then s
  else if fourthReset s r then outOfService s r
  else startDrain s r .rejoin

/-- A region's reset counted (R13). -/
def countReset (s : State) (r : Nat) : State := setCtl s r fun c => { c with resets := (s.now :: c.resets).take 4 }

/-- A region-level fault in a region in service: R21's response, or R548's. A region that initialises again starts from a reset, which counts as one (R13, R20). -/
def regionFault (s : State) (r : Nat) : State :=
  match (ctlOf s r).phase with
  | .initialising =>
    if r ≠ 14 && !(decide (8 ≤ r) && decide (r < 12)) && fourthReset s r then outOfService s r
    else setPhase (countReset s r) r .inReset
  | .on =>
    if r = 0 then s
    else if 8 ≤ r ∧ r < 12 then dramOutOfService s (Fin.ofNat 32 (8 * (r - 8))) 3
    else if r = 14 then startDrain (safePanel s 1 0) r .rejoin
    else startRejoin s r
  | _ => s

/-! Reports from cells (R13 to R17). -/

/-- A block's response to a cell's report: the cell is quarantined and its work handed over; the block's own condition is tested (R12, R13, R16). A block of Flint, or Obsidian's drive or backchannel, has no sibling: its region's response follows (R21). -/
def cellQuarantine (s : State) (r b c : Nat) : State :=
  let s := cellHand (raise s 1 r 0x3F1 b c 0) r b c
  if !blockFails s r b then s
  else if 8 ≤ r ∧ r < 12 then checkChannel s (Fin.ofNat 32 (8 * (r - 8) + b))
  else
    let s := leaseShow (blockQuarantine s r b)
    if r = 1 ∨ r = 2 ∨ r = 14 then regionFault s r else s

/-- A report that is not acted on is counted; the log has it as the event CELL_RETIRED (R16, R17, R38). -/
def countReport (s : State) (r : Nat) : State := setCtl s r fun k => { k with reports := k.reports + 1 }

/-- A report reaches the block: counted and not acted on in a quarantined block, counted and held while the region drains or resets (R16, R17). -/
def cellReport (s : State) (r b c : Nat) : State :=
  if !isRetired s r b c then s
  else if isQuarantined s r b then countReport s r
  else match (ctlOf s r).phase with
    | .on => cellQuarantine s r b c
    | .off => s
    | _ => setCtl (countReport s r) r fun k => { k with deferred := k.deferred ++ [(b, c)] }

/-- A cell retires itself: a rank by R264, a lane by R334, any other by R13. -/
def retireUnit (s : State) (r b c : Nat) : State :=
  if 8 ≤ r ∧ r < 12 then retireRank s (r - 8) (2 * b + c)
  else if r = 3 ∧ c < 4 then laneRetire s (.src (Fin.ofNat 4 b) (Fin.ofNat 4 c)) 0x0A
  else if r = 14 ∧ b < 13 then laneRetire s (.panel (Fin.ofNat 13 b) (Fin.ofNat 4 c)) 0x0A
  else if r = 14 ∧ b = 14 then laneRetire s (.back (Fin.ofNat 4 c)) 0x0A
  else retireCell s r b c

/-- CELL_ERROR: corrected in place, corrected by retries (a ray cell runs its group again), or beyond the third retry (R13, R90). -/
def cellError (s : State) (r b c : Nat) (ctx : Fin 4) (e : CellErr) : State :=
  if !(decide (c < cellsIn r b)) || !isPowered s r || isRetired s r b c then s
  else match cellOutcome e with
    | none => s
    | some .exhausted => retireUnit s r b c
    | some .corrected =>
      let (s, beyond) := countCorrected s ⟨r, b, c⟩ 1
      if beyond then retireUnit s r b c else s
    | some _ =>
      let s := raise s 0 r 0x3F6 b c 0
      let s := if 4 ≤ r ∧ r < 8 then retryCtx s ⟨Fin.ofNat 4 (r - 4), Fin.ofNat 12 b, Fin.ofNat 32 c, ctx⟩ else s
      let (s, beyond) := countCorrected s ⟨r, b, c⟩ 1
      if beyond then retireUnit s r b c else s

/-! Switching regions (R488 to R492). -/

/-- A region starts to power up (R490). -/
def powerUp (s : State) (r : Nat) : State :=
  let s := setCtl s r fun c => { c with drainFor := .rejoin, rejoining := false }
  let s := if 8 ≤ r ∧ r < 12 then setPwr s fun p => { p with dramPwrEn := true, dramReadyAt := if p.dramPwrEn then p.dramReadyAt else s.now + 2000000 } else s
  setPhase s r .poweringOn

/-- A region starts to power down: the handling of a fault in progress ends (R18, R489). -/
def powerDown (s : State) (r : Nat) : State :=
  match (ctlOf s r).phase with
  | .on => startDrain s r .powerDown
  | .draining => pwrShow (setCtl s r fun c => if c.drainFor = .rejoin then { c with drainFor := .powerDown } else c)
  | .inReset => setPhase s r .poweringOff
  | .initialising => if (ctlOf s r).rejoining then setPhase s r .poweringOff else s
  | _ => s

/-- A region is on its way up, or down (R492). -/
def inTransition (s : State) (r : Nat) : Option Bool :=
  let c := ctlOf s r
  match c.phase with
  | .poweringOn => some true
  | .initialising => if c.rejoining then none else some true
  | .draining => if c.drainFor = .rejoin then none else some false
  | .poweringOff => some false
  | _ => none

/-- A held request set or dropped (R492). -/
def setHeld (s : State) (r : Nat) (x : Option Bool) : State :=
  setPwr s fun p => { p with held := if h : r < 16 then p.held.set r x else p.held }

/-- A region's held request. -/
def heldOf (s : State) (r : Nat) : Option Bool := s.power.held.getD r none

/-- One region of a request: it starts, is held in a transition, or is ignored (R492). -/
def powerApply (s : State) (r : Nat) (on : Bool) : State :=
  match inTransition s r with
  | some up => if up != on || (heldOf s r).isSome then setHeld s r (some on) else s
  | none => if on then (if isOff s r then powerUp s r else s) else powerDown s r

/-- The state that a region will have when what is asked of it is done. -/
def powerTarget (s : State) (r : Nat) : Bool :=
  match heldOf s r with
  | some on => on
  | none =>
    if s.power.startAfter.contains r then true
    else if s.power.stopAfter.contains r then false
    else match inTransition s r with
      | some up => up
      | none => !isOff s r

/-- Regions that wait for others of their request start when those are there (R491). -/
def powerDeferred (s : State) : State :=
  let s := if !s.power.startAfter.isEmpty && bauxites.all (fun b => (ctlOf s b).phase == .on) then
      s.power.startAfter.foldl (fun s r => powerApply s r true) (setPwr s fun p => { p with startAfter := [] })
    else s
  if !s.power.stopAfter.isEmpty && dramUsers.all (fun u => isOff s u) then
    s.power.stopAfter.foldl (fun s r => powerApply s r false) (setPwr s fun p => { p with stopAfter := [] })
  else s

/-- e20: every region of the last PWR has reached its state and holds no request (R150, R492). -/
def pwrDone (s : State) : State :=
  match s.power.lastPwr with
  | none => s
  | some (rs, on) =>
    let there (r : Nat) : Bool := (heldOf s r).isNone && !s.power.startAfter.contains r && !s.power.stopAfter.contains r
      && (ctlOf s r).phase == (if on then .on else .off)
    if rs.all there then setFlag (setPwr s fun p => { p with lastPwr := none }) 20 else s

/-- Regions of a request taken, Bauxite first on the way up and last on the way down (R491). -/
def powerTake (s : State) (named : List Nat) (on : Bool) : State :=
  let s := setPwr s fun p => { p with
    startAfter := p.startAfter.filter (fun r => !named.contains r), stopAfter := p.stopAfter.filter (fun r => !named.contains r) }
  let order := named.filter (fun r => bauxites.contains r == on) ++ named.filter (fun r => bauxites.contains r != on)
  let s := order.foldl (fun s r =>
    if on && dramUsers.contains r && !(bauxites.all fun b => (ctlOf s b).phase == .on) then
      setPwr s fun p => { p with startAfter := p.startAfter ++ [r] }
    else if !on && bauxites.contains r && !(dramUsers.all fun u => isOff s u) then
      setPwr s fun p => { p with stopAfter := p.stopAfter ++ [r] }
    else powerApply s r on) s
  pwrDone (powerDeferred s)

/-- A write of SLT_PWR_REQ, or a PWR: refused whole, or taken (R488). -/
def powerRequest (s : State) (v : Word) (byFrame : Bool) : State :=
  let on := flag v 16
  let bits := fld v 0 16
  let named := (List.range 16).filter fun r => bitAt bits r && !([0, 1, 2, 14].contains r)
  let after (r : Nat) : Bool := if named.contains r then on else powerTarget s r
  let bx := named.filter fun r => bauxites.contains r
  let reason :=
    if dramUsers.any after && !(bauxites.all after) then 1
    else if bx.length ≠ 0 ∧ bx.length ≠ 4 then 2
    else if s.power.mode = .boot ∨ s.power.mode = .recovery then 3
    else if named.any fun r => (ctlOf s r).outOfService then 4
    else 0
  if reason ≠ 0 then powerEvent s 2 0x181 (bits + 65536 * b2n on + 16777216 * reason)
  else powerTake (if byFrame then setPwr s fun p => { p with lastPwr := some (named, on) } else s) named on

/-- PEWTER_ENTERED powers the DRAM group down, its users first; with reason BOOT nothing is done (R481). -/
def groupDown (s : State) (reason : Nat) : State :=
  if reason = 4 then s else powerTake s (dramUsers ++ bauxites) false

/-! Coming into service (R17, R20, R490). -/

/-- The stripe `n` after one, in stripe order (R117). -/
def stripeAfter (s : State) (k : Nat × Nat × Nat) (n : Nat) : Nat × Nat × Nat :=
  let per := panelStripes s
  let x := k.2.2 + n
  if per = 0 then k
  else
    let ph := k.2.1 + x / per
    ((k.1 + ph / panelN s) % 2 ^ 32, ph % panelN s, x % per)

/-- Mica is in service again while the panel scans: the next two stripes open (R196). -/
def micaOpens (s : State) : State :=
  if s.scan.running && !s.scan.paired then
    let here := (s.scan.frame, s.scan.phase, s.scan.slot / 16)
    let past := panelH s ≤ s.scan.slot
    let base := if past then (s.scan.frame, s.scan.phase, panelStripes s - 1) else here
    let a := stripeAfter s base 1
    let b := stripeAfter s base 2
    repeatPoint (repeatPoint (openStripe (openStripe s a) b) a) b
  else s

/-- A region accepts requests (R20, R196, R356, R410). -/
def regionJoins (s : State) (r : Nat) : State :=
  let s := ifacesJoin (setPhase (setCtl s r fun c => { c with rejoining := false }) r .on) r
  if r = 1 then leaseShow (shadowWait (showRunning s) .a)
  else if r = 2 then leaseShow (shadowWait (showRunning s) .b)
  else if 8 ≤ r ∧ r < 12 then (if getF s bxtStatus 30 2 = 0 then ranksShow s (r - 8) else s)
  else if r = 12 then boraxStatus s
  else if r = 13 then micaOpens (micaRejoined s)
  else if r = 15 then audioRejoined (if ptpSource s = 1 then setPortStatePtp (setPtp s fun p => { p with annAt := some s.now }) 4 else s)
  else s

/-- Reports that were held are acted on where they still hold after the reset (R17). -/
def deferredReports (s : State) (r : Nat) : State :=
  let d := (ctlOf s r).deferred
  d.foldl (fun s x => cellReport s r x.1 x.2) (setCtl s r fun c => { c with deferred := [] })

/-- A transition has ended: a held request runs, waiting regions start (R491, R492). -/
def powerSettled (s : State) (r : Nat) : State :=
  let s := match heldOf s r with
    | some on => if (ctlOf s r).outOfService && on then setHeld s r none else powerApply (setHeld s r none) r on
    | none => s
  pwrDone (powerDeferred s)

/-- The drain has ended (R20, R489, R548). -/
def drainEnds (s : State) (r : Nat) : State :=
  if (ctlOf s r).phase ≠ .draining then s
  else
    let s := endOutstanding s r
    if (ctlOf s r).drainFor = .rejoin then
      setPhase (regionReset (countReset s r) r) r .inReset
    else setPhase (calAbort s) r .poweringOff

/-- Slate isolates every other region at once; a holder holds nothing any more (R306, R480, R487). -/
def isolate (s : State) : State :=
  let s := ((List.range 16).drop 1).foldl (fun s r => if isOff s r then s else powerLost s r) (calAbort s)
  let s := setPwr s fun p => { p with
    held := Vector.replicate 16 none, startAfter := [], stopAfter := [], lastPwr := none, dramPwrEn := false, sleeping := false, sleepHeld := false }
  leaseShow (setLease (setHolder s none) fun l => { lastAction := l.lastAction })

/-! Chip reset (R494, R497, R514). -/

/-- A chip reset with its cause: every register at its reset value, semaphores free, tie bits 0, the lease NONE, event queues empty, time 0; OTP, the Slate log, the flash and the pewter buffer stay, and the retired set is that of the log (R14, R297, R399, R494). -/
def chipReset (s : State) (cause : Nat) : State :=
  let gone := if s.slate.log.clear then [] else s.retired ++ s.quarantined.map fun q => ⟨q.1, q.2, 0xFF⟩
  let log := { s.slate.log with retired := gone, clear := false }
  let keep := s.regs.filter fun e =>
    e.1 == sltThermShutdowns || (cause != 1 && (e.1 == sltWakeCtrl || e.1 == sltWakeTimer))
  let t : State := {
    pending := s.pending, now := s.now, freeCtr := s.freeCtr, part := s.part
    therm := if cause = 1 then { sg := s.therm.sg } else s.therm.kept
    retired := gone.filter fun u => u.cell != 0xFF
    quarantined := (gone.filter fun u => u.cell == 0xFF && !(bauxites.contains u.region)).map fun u => (u.region, u.block)
    power := { pfailLow := s.power.pfailLow, xtalFault := cause != 1 && s.power.xtalFault, wakeHeld := s.power.wakeHeld, resetPin := s.power.resetPin }
    obs := { pewter := s.obs.pewter, pewterEra := s.obs.pewterEra }
    slate := { log := log, otp := s.slate.otp, flash := s.slate.flash, flashSize := s.slate.flashSize, flashSfdp := s.slate.flashSfdp } }
  pwrShow (resetCause (keep.foldl (fun t e => setReg t e.1 e.2) t) cause)

/-! Meanings of the unit and region rows. -/

/-- CELL_ERROR (R13). -/
def execCellError (r : Fin 16) (block cell : Byte) (ctx : Fin 4) (e : CellErr) (s : State) : Out :=
  .next (cellError s r.val block.toNat cell.toNat ctx e)

/-- CELL_QUARANTINED (R16). -/
def execCellQuarantined (r : Fin 16) (block cell : Byte) (s : State) : Out :=
  .next (cellReport s r.val block.toNat cell.toNat)

/-- DRAIN_END (R20). -/
def execDrainEnd (r : Fin 16) (s : State) : Out := .next (drainEnds s r.val)

/-- REGION_REJOINED: no region-level fault of this model takes a unit out of service, so the count is 0 (R14, R17, R20). -/
def execRegionRejoined (r : Fin 16) (s : State) : Out :=
  .next (
    if (ctlOf s r.val).phase = .initialising && (ctlOf s r.val).rejoining then
      deferredReports (powerSettled (raise (regionJoins s r.val) 2 r.val 0x3F4 0xFF 0xFF 0) r.val) r.val
    else s)

/-- PLL_UNLOCK (R485). -/
def execPllUnlock (r : Fin 16) (s : State) : Out := .next (regionFault s r.val)

/-! Meanings of the lease rows. -/

/-- The 64 µs of the lease have passed with no accepted renewal (R403). -/
def leaseOver (s : State) : Bool := decide (s.ctrl.lease.renewedAt + 64000 ≤ s.now)

/-- The agent's conditions for a renewal: its region works, and the pipeline has advanced its heartbeat since the last one. A region in service runs its timing generator whenever the P9's timing runs (R404). -/
def mayRenew (s : State) (f : FlintId) : Bool := holder s == some f && flintUp s f && (flintOf s f).beat

/-- LEASE_RENEWAL: a renewal of the holder's agent that arrives before the expiry is accepted, and acknowledged; the agent counts anew (R403 to R405, R420). -/
def leaseRenewed (s : State) (f : FlintId) : State :=
  if mayRenew s f && !leaseOver s then
    let s := setLease s fun l => { l with renewedAt := s.now }
    setFlint s f fun x => { x with
      beat := false
      lapsed := match s.ctrl.lease.step with
        | .releasing _ => x.lapsed
        | _ => false }
  else s

/-- LEASE_RENEWAL (R403). -/
def execLeaseRenewal (f : FlintId) (s : State) : Out := .next (leaseRenewed s f)

/-- LEASE_EXPIRED: 64 µs have passed since the last accepted renewal (R403, R405, R416). -/
def leaseExpires (s : State) : State :=
  match holder s with
  | some f => if leaseOver s then leaseEnds (leaseEvent (bump s sltLeaseExpiries) 3 0x151 (holderCode (some f))) f 3 else s
  | none => s

/-- LEASE_EXPIRED (R403). -/
def execLeaseExpired (s : State) : Out := .next (leaseExpires s)

/-- AGENT_LAPSE: the agent's count from the last acknowledgement has reached 60 µs (R405). -/
def agentLapses (s : State) (f : FlintId) : State :=
  if holder s = some f ∧ s.ctrl.lease.renewedAt + 60000 ≤ s.now then setFlint s f fun x => { x with lapsed := true } else s

/-- AGENT_LAPSE (R405). -/
def execAgentLapse (f : FlintId) (s : State) : Out := .next (agentLapses s f)

/-- LEASE_GUARD_END: after 8 µs, the standby is granted the lease if it is eligible; otherwise it stays NONE, and a cold takeover is awaited (R405, R415, R416, R419, R420). -/
def leaseGuardEnds (s : State) : State :=
  match s.ctrl.lease.step, s.ctrl.lease.last with
  | .guard reason, some old =>
    if s.now < s.ctrl.lease.stepAt + 8000 then s else
    let s := if reason = 3 then startRejoin s (flintRegion old) else s
    let new := otherFlint old
    if eligible s new then switchGrant s new reason
    else
      let cold := getB s sltLeaseCtrl 4
      leaseEvent (setLease s fun l => { l with step := if cold then .cold else .idle, stepAt := s.now }) 3 0x152 1
  | _, _ => s

/-- LEASE_GUARD_END (R416). -/
def execLeaseGuardEnd (s : State) : Out := .next (leaseGuardEnds s)

/-- SWITCH: from HA or HB (R415, R420). -/
def switchAsk (s : State) (q : Requester) : State :=
  match q, holder s, s.ctrl.lease.step with
  | .fp, _, _ => s
  | _, some f, .idle =>
    if !eligible s (otherFlint f) then leaseEvent s 2 0x153 1
    else
      let s := setLease s fun l => { l with step := .releasing 2 }
      if s.scan.running then s else setFlint s f fun x => { x with lapsed := true }
  | _, _, .idle => leaseEvent s 2 0x153 1
  | _, _, _ => leaseEvent s 2 0x153 2

/-- SWITCH (R415). -/
def execSwitch (q : Requester) (s : State) : Out := .next (reqSlate s q fun s => switchAsk s q)

/-- Writes of a Flint region that are not acknowledged (R148, R415). -/
def fpWrites (s : State) (f : FlintId) : Nat :=
  (s.acks.filter fun a => match a.who with | .frame g _ => g == f | _ => false).length

/-- SWITCH_RELEASE: every earlier action is acknowledged; the release record goes out and the lease is released; with reason MISMATCH the region drains (R411, R415). -/
def switchRelease (s : State) : State :=
  match s.ctrl.lease.step, holder s with
  | .releasing reason, some f =>
    if !(flintOf s f).lapsed || fpWrites s f ≠ 0 then s
    else
      let s := leaseEnds (releaseSend s f) f reason
      if reason = 5 then startRejoin s (flintRegion f) else s
  | _, _ => s

/-- SWITCH_RELEASE (R415). -/
def execSwitchRelease (s : State) : Out := .next (switchRelease s)

/-- A mismatch: 1 DIGEST, 2 TIMING; one reported during a switch-over is discarded, and the round of self-test begins (R411, R420, R425). -/
def mismatchFound (s : State) (standby : FlintId) (why arg : Nat) : State :=
  if s.ctrl.lease.step ≠ .idle || s.ctrl.lease.mismatch then s
  else
    let s := bump s (flaMismatches (flintRegion standby))
    let s := setLease s fun l => { l with mismatch := true }
    let s := (flintsUp s).foldl (fun s f => setFlint s f fun x => { x with rounds := 63 }) s
    flintEvent s standby 2 0x112 (why + 16 * (arg % 2 ^ 28))

/-- The lowest item whose last round did not pass; with none it is open which one failed (R411, R425). -/
def failedItem (s : State) (f : FlintId) : Nat × State :=
  match (List.range 6).find? fun i => !bitAt (flintOf s f).selftest i with
  | some i => (i, s)
  | none =>
    let (n, s) := takeFree s 40
    (n % 6, s)

/-- SELFTEST_ROUND_END: the outcome of R411's table. -/
def roundEnds (s : State) (passedA passedB : Bool) : State :=
  match s.ctrl.lease.mismatch, holder s with
  | true, some f =>
    let s := setLease s fun l => { l with mismatch := false }
    let s := [FlintId.a, .b].foldl (fun s f => setFlint s f fun x => { x with rounds := 0 }) s
    let g := otherFlint f
    let ok (x : FlintId) : Bool := if x = .a then passedA else passedB
    let drop (s : State) : State := startRejoin (shadowLose s g 2) (flintRegion g)
    if ok f then drop s
    else if ok g then
      let s := setLease s fun l => { l with step := .releasing 5 }
      if s.scan.running then s else setFlint s f fun x => { x with lapsed := true }
    else
      let (i, s) := failedItem (drop s) f
      flintEvent s f 2 0x113 i
  | _, _ => s

/-- SELFTEST_ROUND_END (R411). -/
def execSelftestRoundEnd (passedA passedB : Bool) (s : State) : Out := .next (roundEnds s passedA passedB)

/-- SELFTEST: an immediate round of every item begins in both regions (R412). -/
def selftestAsk (s : State) : State :=
  (flintsUp s).foldl (fun s f => setFlint s f fun x => { x with rounds := 63 }) s

/-- SELFTEST (R412). -/
def execSelftest (q : Requester) (s : State) : Out := .next (reqSlate s q selftestAsk)

/-- A write of SLT_LEASE_CTRL (R411, R412, R415, R423). -/
def leaseCtrlWrite (s : State) (q : Requester) (v : Word) : State :=
  let s := writeKey s sltLeaseCtrl v
  let s := if flag v 1 then selftestAsk s else s
  if flag v 0 then switchAsk s q else s

/-- The cold takeover: the region that has rejoined and passed its self-test takes the lease and goes on from its newest valid checkpoint (R419). -/
def coldTakeover (s : State) (f : FlintId) : State :=
  if s.ctrl.lease.step = .cold && flintUp s f && (flintOf s f).selftest &&& 0x33 == 0x33
      && !(s.quarantined.any fun q => q.1 == flintRegion f) then
    let s := match newestBank (flintOf s f) with
      | some k => setFlint s f fun x => ckptLoad { x with mirror := [] } k s.now
      | none => s
    switchGrant s f 6
  else s

/-- A test action of a region that does not hold the lease reaches every region in service, is discarded there and counted (R406, R412). -/
def testAction (s : State) : State :=
  (List.range 16).foldl (fun s r => if serves s r then bump s (nonHolderKey r) else s) s

/-- SELFTEST_ITEM: the item's outcome shows; a failure is raised; eligibility follows, and a pending cold takeover (R412, R413, R419). -/
def selftestItem (s : State) (f : FlintId) (i : Fin 6) (passed : Bool) : State :=
  if !flintUp s f then s
  else
    let b := 2 ^ i.val
    let s := setFlint s f fun x => { x with
      selftest := (if bitAt x.selftest i.val then x.selftest - b else x.selftest) + b * b2n passed
      rounds := if bitAt x.rounds i.val then x.rounds - b else x.rounds }
    let s := if i = 5 ∧ holder s ≠ some f then testAction s else s
    let s := if passed then s else flintEvent s f 2 0x113 i.val
    coldTakeover (leaseShow s) f

/-- SELFTEST_ITEM (R412). -/
def execSelftestItem (f : FlintId) (item : Fin 6) (passed : Bool) (s : State) : Out := .next (selftestItem s f item passed)

/-- COLD_TAKEOVER_TIMEOUT: no grant has come within 1 ms (R419). -/
def coldTimesOut (s : State) : State :=
  if s.ctrl.lease.step = .cold ∧ s.ctrl.lease.stepAt + 1000000 ≤ s.now then leaseEvent (setLease s fun l => { l with step := .idle }) 3 0x152 2
  else s

/-- COLD_TAKEOVER_TIMEOUT (R419). -/
def execColdTakeoverTimeout (s : State) : Out := .next (coldTimesOut s)

end Sys2Proof.Machine
end

