-- ==== Sys2Proof/Machine/Thermal.lean ====
section
/-! DEFINITION. Sensors, throttling, panel temperature, thermal shutdown, calibration of the sensors (R380 to R401). -/

namespace Sys2Proof.Machine

/-- Slate's sensors changed. -/
def setTherm (s : State) (f : Therm → Therm) : State := { s with therm := f s.therm }

/-- A sensor of a powered region that is not broken (R380, R384). -/
def dieValid (s : State) (i : Fin 60) : Bool := isPowered s (dieRegion i.val) && !(s.therm.die[i]).broken

/-- SLT_TEMP_n: VALID, BROKEN and TEMP in 1/16 °C (R400). -/
def showTemp (s : State) (n : Nat) (valid broken : Bool) (t : Int) : State :=
  setReg s (sltTemp n) (BitVec.ofNat 32 (b2n valid * 2 ^ 31 + b2n broken * 2 ^ 30 + wrapInt t 16))

/-- 1/16 °C as 0.1 °C (R401). -/
def tenths (t : Int) : Int := ratNear ⟨t * 10, 16⟩

/-- An on-die reading in 1/16 °C: SG × K_raw / 64 − 273.15 °C, SG in parts per million (R381). -/
def dieTemp (sg raw : Nat) : Int := ratNear ⟨10 * sg * raw - 174816000000, 40000000⟩

/-- A sensor is broken: 1 CONVERSION, 2 RANGE, 3 NEIGHBOURS, 4 OPEN_OR_SHORT (R384, R401). -/
def sensorBroken (s : State) (n why : Nat) : State :=
  powerEvent (showTemp s n false true 0) 1 0x143 (n + 256 * why)

/-! Throttling (R385 to R388). -/

/-- F_MHZ of a throttle step (R386). -/
def stepMhz (n : Nat) : Nat := [1600, 1400, 1200, 1000, 800].getD n 800

/-- The throttle step decided. -/
def thermStep (s : State) : Nat := getF s sltThermStatus 29 3

/-- A throttle step is decided; it takes effect at the next stripe that opens (R386, R387). -/
def setThermStep (s : State) (n : Nat) : State :=
  if n = thermStep s then s else powerEvent (setF s sltThermStatus 29 3 n) 2 0x141 (n + 65536 * stepMhz n)

/-- Mean of a list of updates, in 1/16 °C as a rational (R385, R390). -/
def meanOf (l : List Int) : Ratio := ⟨l.foldl (· + ·) 0, max 1 l.length⟩

/-- The valid sensors with their updates. -/
def dieReadings (s : State) : List (Nat × List Int) :=
  (List.finRange 60).filterMap fun i =>
    let h := (s.therm.die[i]).hist
    if dieValid s i && !h.isEmpty then some (i.val, h) else none

/-- The pair with the highest value, the first of equals. -/
def hottest : List (Nat × Ratio) → Option (Nat × Ratio)
  | [] => none
  | x :: r => match hottest r with
    | some y => some (if ratLt x.2 y.2 then y else x)
    | none => some x

/-- A condition on a value: set at its threshold, cleared below the threshold less 5 °C; in 1/16 °C (R385). -/
def hysteresis (was : Bool) (v : Ratio) (limit : Int) : Bool :=
  if ratLe (ratInt (16 * limit)) v then true
  else if ratLt v (ratInt (16 * limit - 80)) then false
  else was

/-- T_j lies below THROTTLE_C less 5 °C (R386). -/
def junctionCool (s : State) : Bool :=
  decide (signedOf (getF s sltThermStatus 0 16) 16 < 16 * (getF s sltThermCtrl 8 8 : Nat) - 80)

/-- How the clock moves: it falls while the condition holds, rises while it is clear and T_j is low enough, and holds in between (R386). -/
def throttleMoves (s : State) : Nat := if getB s sltThermStatus 28 then 1 else if junctionCool s then 2 else 0

/-- The time of the clock's next step counts from when it begins to move so (R386). -/
def movesShow (s : State) : State :=
  let m := throttleMoves s
  if m = s.therm.moves then s else setTherm s fun t => { t with moves := m, stepFrom := s.now }

/-- The throttle condition: of the junction, or forced by DRAM (R385, R386, R388); newly set, the clock falls one step at once. -/
def throttleShow (s : State) : State :=
  let was := getB s sltThermStatus 28
  let now_ := s.therm.hot || getB s sltThermStatus 26
  let s := movesShow (setF s sltThermStatus 28 1 (b2n now_))
  if now_ && !was then setThermStep s (min 4 (thermStep s + 1)) else s

/-- DRAM_FORCED follows the ranks' reports (R388). -/
def dramForced (s : State) : State :=
  let any := s.dram.ch.toList.any fun c => c.derate.toList.any id
  let s := setTherm s fun t => { t with forcedAt := if any then some (t.forcedAt.getD s.now) else none }
  throttleShow (setF s sltThermStatus 26 1 (b2n any))

/-- T_j, the warning and throttle conditions and DEGRADED follow the sensors, DRAM_FORCED the ranks (R384, R385, R388). -/
def thermJudge (s : State) : State :=
  let rs := dieReadings s
  let s := match hottest (rs.map fun x => (x.1, ratInt (x.2.headD 0))) with
    | some (i, t) => setF (setF s sltThermStatus 16 8 i) sltThermStatus 0 16 (wrapInt t.n 16)
    | none => s
  let s := match hottest (rs.map fun x => (x.1, meanOf x.2)) with
    | none => s
    | some (i, m) =>
      let was := getB s sltThermStatus 27
      let on := hysteresis was m (getF s sltThermCtrl 0 8)
      let s := setTherm (setF s sltThermStatus 27 1 (b2n on)) fun t => { t with hot := hysteresis t.hot m (getF s sltThermCtrl 8 8) }
      if on = was then s
      else powerEvent s 2 0x140 (i + 256 * b2n on + 65536 * wrapInt (tenths (ratNear m)) 16)
  let s := dramForced s
  let few := decide (((List.finRange 60).filter (dieValid s)).length < 40)
  let s := setF s sltThermStatus 25 1 (b2n few)
  if few then setThermStep s 4 else s

/-! Shutdown (R391, R392). -/

/-- °C + 40 of a reading, clamped (R392). -/
def readingByte (t : Int) : Nat := (max 0 (min 255 (t / 16 + 40))).toNat

/-- The shutdown record; the byte of a sensor that holds no value is open (R392). -/
def shutdownRecord (s : State) (cause sensor : Nat) (trip : Nat) : State × List Byte :=
  let (era, s) := takeFree s 41
  let temp (i : Nat) : Word := readReg s (sltTemp i)
  let valid (i : Nat) : Bool := flag (temp i) 31
  let reading (i : Nat) : Nat := if valid i then readingByte (signedOf (fld (temp i) 0 16) 16) else Config.freeNat 42 (era * 64 + i) % 256
  let body := leBytes 0x10 1 ++ leBytes cause 1 ++ leBytes sensor 1 ++ leBytes s.therm.stepIn 1
    ++ leBytes (readReg s sltThermShutdowns).toNat 4 ++ leBytes s.time.sec 8 ++ leBytes s.time.ns 4
    ++ leBytes trip 2 ++ leBytes (wrapInt (tenths (signedOf (getF s sltPanelTemp 0 16) 16)) 16) 2
    ++ leBytes (sumNat ((List.range 64).map fun i => b2n (valid i) * 2 ^ i)) 8
    ++ leBytes (getF s sltThermCtrl 0 24) 3 ++ leBytes s.obs.band 1
    ++ ((List.range 64).flatMap fun i => leBytes (reading i) 1) ++ List.replicate 24 0
  (s, body ++ leBytes (crc32 body).toNat 4)

/-- The shutdown's last steps, once the panel is safe: the record, then every region but Slate unpowered and REFCLK_EN low; the cooling begins (R391, R393, R480). -/
def thermalDown (s : State) : State :=
  let s := match s.therm.trip with
    | some b => logAdd s (.record b)
    | none => s
  let s := isolate s
  let s := setTherm s fun t => { t with
    trip := none, cooling := true, shutdowns := s.now :: t.shutdowns.filter fun x => decide (s.now < x + 3600000000000) }
  resetCause (setPwr s fun p => { p with mode := .standby, refclkEn := false }) 5

/-- A thermal shutdown: cause, sensor, and the tripping value in 0.1 °C as 16 bits, open where none trips (R391). One that is under way, or done, is not begun again. Boot ends (R453). -/
def thermalShutdown (s : State) (cause sensor : Nat) (v : Option Int) : State :=
  if s.therm.trip.isSome || s.power.mode == .standby || s.power.mode == .off then s
  else
    let (n, s) := takeFree s 43
    let trip := match v with | some t => wrapInt t 16 | none => n % 65536
    let s := powerEvent (calAbort s) 3 0x142 (cause + 256 * sensor + 65536 * trip)
    let s := setSlate (bump s sltThermShutdowns) fun x => { x with boot := if s.power.mode = .boot then .idle else x.boot }
    let (s, rec_) := shutdownRecord s cause sensor trip
    let s := setTherm s fun t => { t with trip := some rec_ }
    match s.obs.safeCause with
    | some c => setObs s fun o => { o with safeCause := some { c with next := if c.next = 0 then 4 else c.next } }
    | none =>
      let idle := lossAtOnce s 5
      let s := if s.obs.state == .safe then s else obsEvent s 3 0x090 5
      let s := abruptLoss s ⟨5, 4⟩
      if idle then thermalDown s else s

/-! Updates of the sensors (R381 to R385). -/

/-- Both neighbours of a Galena sensor are valid and differ from it by more than 20 °C (R384). -/
def apartFrom (s : State) (i : Fin 60) (t : Int) : Bool :=
  let nb (d : Nat) : Fin 60 := Fin.ofNat 60 (i.val / 12 * 12 + (i.val % 12 + d) % 12)
  [nb 11, nb 1].all fun j =>
    dieValid s j && (match (s.therm.die[j]).hist with
      | u :: _ => decide (320 < (t - u).natAbs)
      | [] => false)

/-- A sensor's own state changed. -/
def setDie (s : State) (i : Fin 60) (f : DieSensor → DieSensor) : State := setTherm s fun t => { t with die := vUpd t.die i f }

/-- The sensor no longer counts. -/
def breakDie (s : State) (i : Fin 60) (why : Nat) : State :=
  sensorBroken (setDie s i fun d => { d with broken := true, hist := [] }) i.val why

/-- ONDIE_SENSOR_UPDATE: the value is taken or the sensor found broken; the conditions follow (R381, R384, R385, R391). -/
def dieUpdate (s : State) (i : Fin 60) (v : SensorValue) : State :=
  if !dieValid s i then s
  else
    let s := match v with
      | .incomplete => breakDie s i 1
      | .raw k =>
        let t := dieTemp (s.therm.sg[i]) k
        if t < -640 ∨ 2400 < t then breakDie s i 2
        else
          let n := if i.val < 48 && apartFrom s i t then (s.therm.die[i]).apart + 1 else 0
          if 10 ≤ n then breakDie s i 3
          else showTemp (setDie s i fun d => { d with hist := (t :: d.hist).take 16, apart := n }) i.val true false t
    let s := thermJudge s
    let limit : Int := 16 * (getF s sltThermCtrl 16 8 : Nat)
    match (s.therm.die[i]).hist with
    | a :: b :: _ => if limit ≤ a ∧ limit ≤ b then thermalShutdown s 1 i.val (some (tenths a)) else s
    | _ => if !((List.finRange 60).any (dieValid s)) then thermalShutdown s 4 0xFF none else s

/-- A write of SLT_THERM_CTRL: ignored where it would break the order or the bounds of the thresholds (R385). -/
def thermCtrlWrite (s : State) (v : Word) : State :=
  let w := fld v 0 8
  let t := fld v 8 8
  let d := fld v 16 8
  if w < t ∧ t < d ∧ 60 ≤ w ∧ d ≤ 115 then thermJudge (writeKey s sltThermCtrl v) else s

/-- THROTTLE_STEP: one step down 100 ms after the last while the condition holds, one up 1 s after the last while it is clear and T_j is below THROTTLE_C less 5 °C; the lowest while DEGRADED (R384, R386). -/
def throttleStep (s : State) : State :=
  let s := movesShow s
  let n := thermStep s
  let m := s.therm.moves
  let next (s : State) : State := setTherm s fun t => { t with stepFrom := s.now }
  if getB s sltThermStatus 25 then setThermStep s 4
  else if m = 1 ∧ s.therm.stepFrom + 100000000 ≤ s.now then next (setThermStep s (min 4 (n + 1)))
  else if m = 2 ∧ s.therm.stepFrom + 1000000000 ≤ s.now then next (setThermStep s (n - 1))
  else s

/-! The ADC (R382 to R384, R389, R390). -/

/-- A diode's reading in 1/16 °C, codes in 1/16 LSB, G in pV; none with IDEALITY 0 (R382). -/
def diodeTemp (s : State) (n c10 c100 : Nat) : Option Int :=
  let id := getF s (sltRemoteCtrl n) 0 14
  if id = 0 then none
  else some (ratNear ⟨((c100 - c10) * (readReg s sltCalGain).toNat * 8192 * 10 : Nat) - (43704 * id * 198421400 : Nat), id * 198421400 * 10⟩)

/-- A thermistor's reading in 1/16 °C; none where the formula gives no finite number (R383). -/
def pthTemp (s : State) (n pth thref : Nat) : Option Int :=
  let o : Int := getF s sltCalOffset 0 16
  let x := dDiv (dInt (pth - o)) (dInt (thref - o))
  let rt := dDiv (dMul (dInt (10 * (getF s (sltPthPullup n) 0 16 : Nat))) x) (dSub (fOne fp64) x)
  let nominal := dInt (10 * (getF s (sltPthCtrl n) 0 16 : Nat))
  let beta := dInt (getF s (sltPthCtrl n) 16 14 : Nat)
  let c (num den : Nat) : Nat := fRound fp64 false num den 0
  let inv := dAdd (dDiv (fOne fp64) (c 29815 100)) (dDiv (dLn (dDiv rt nominal)) beta)
  let t := dSub (dDiv (fOne fp64) inv) (c 27315 100)
  if fFinite fp64 t then
    let r := ratOf (fDecode fp64 t)
    some (ratNear ⟨16 * r.n, r.d⟩)
  else none

/-- A remote diode's cycle (R382, R384, R389). -/
def diodeCycle (s : State) (n : Fin 4) (c10 c100 : Nat) : State :=
  let k := sltRemoteCtrl n.val
  if !getB s k 14 || (s.therm.diode[n]).broken then s
  else
    let bad (c : Nat) : Bool := decide (c ≤ 256) || decide (65264 ≤ c)
    if bad c10 || bad c100 || decide (c100 ≤ c10) then
      sensorBroken (setTherm s fun t => { t with diode := vUpd t.diode n fun d => { d with broken := true } }) (60 + n.val) 4
    else
      let (free, s) := takeFree s 44
      let t := (diodeTemp s n.val c10 c100).getD (signedOf (free % 65536) 16)
      let limit : Int := 16 * (getF s k 16 8 : Nat)
      let was := (s.therm.diode[n]).beyond
      let beyond := if limit ≤ t then true else if t < limit - 80 then false else was
      let s := setTherm s fun x => { x with diode := vUpd x.diode n fun d => { d with hist := (t :: d.hist).take 16, beyond := beyond } }
      let s := showTemp s (60 + n.val) true false t
      let s := if beyond && !was then powerEvent s 1 0x144 (n.val + 65536 * wrapInt (tenths t) 16) else s
      match (s.therm.diode[n]).hist with
      | a :: b :: _ => if getB s k 15 && decide (limit ≤ a) && decide (limit ≤ b) then thermalShutdown s 2 (60 + n.val) (some (tenths a)) else s
      | _ => s

/-- A thermistor input's cycle (R383, R384). -/
def pthCycle (s : State) (n : Fin 4) (pth thref : Nat) : State :=
  if !getB s (sltPthCtrl n.val) 31 || (s.therm.pth[n]).broken then s
  else
    let o := getF s sltCalOffset 0 16
    let near (a b : Nat) : Bool := decide (((a : Int) - b).natAbs ≤ 256)
    if near pth o || near pth thref then
      sensorBroken (setTherm s fun t => { t with pth := vUpd t.pth n fun d => { d with broken := true } }) (64 + n.val) 4
    else
      let (free, s) := takeFree s 45
      let t := (pthTemp s n.val pth thref).getD (signedOf (free % 65536) 16)
      let s := setTherm s fun x => { x with pth := vUpd x.pth n fun d => { d with hist := (t :: d.hist).take 16 } }
      showTemp s (64 + n.val) true false t

/-- T_p takes a value; BAND_NOW follows (R294, R390). -/
def setPanelTemp (s : State) (t : Int) : State :=
  let b := bandFor t 8 s.obs.bandNow
  let s := setObs s fun o => { o with bandNow := b }
  setF (setF s sltPanelTemp 0 16 (wrapInt t 16)) sltPanelTemp 16 3 b

/-- DEFAULT_C in 1/16 °C (R390, R400). -/
def defaultTemp (s : State) : Int := 16 * signedOf (getF s sltPanelTemp 20 8) 8

/-- T_p from the inputs that count (R390). -/
def panelTemp (s : State) : State :=
  let ins := (List.finRange 4).filter fun n =>
    getB s (sltPthCtrl n.val) 31 && getB s (sltPthCtrl n.val) 30 && !(s.therm.pth[n]).broken && !(s.therm.pth[n]).hist.isEmpty
  if ins.isEmpty then
    if s.therm.measured then setF s sltPanelTemp 31 1 1 else setPanelTemp s (defaultTemp s)
  else
    let sum := ins.foldl (fun a n => ratAdd a (meanOf (s.therm.pth[n]).hist)) (ratInt 0)
    let s := setTherm s fun t => { t with measured := true, heldFor := 0 }
    setPanelTemp (setF s sltPanelTemp 31 1 0) (ratNear (ratDiv sum (ratInt ins.length)))

/-- ADC_CYCLE: not while a calibration run holds the converter, nor in standby (R380, R382, R390, R398). -/
def adcCycle (s : State) (c : AdcCodes) : State :=
  if s.therm.cal.isSome || s.power.mode == .standby || s.power.mode == .off then s
  else
    let s := (List.finRange 4).foldl (fun s n => match c.diodes[n.val]? with
      | some (a, b) => diodeCycle s n a b
      | none => s) s
    let s := (List.finRange 4).foldl (fun s n => match c.pth[n.val]? with
      | some p => pthCycle s n p c.thref
      | none => s) s
    panelTemp s

/-! Calibration (R394 to R399). -/

/-- The middle of three values. -/
def median3 (l : List Ratio) : Ratio :=
  let a := l.getD 0 (ratInt 0)
  let b := l.getD 1 (ratInt 0)
  let c := l.getD 2 (ratInt 0)
  ratMax (ratMin a b) (ratMin (ratMax a b) c)

/-- Largest less smallest. -/
def spread3 (l : List Ratio) : Ratio :=
  let a := l.headD (ratInt 0)
  ratSub (l.foldl ratMax a) (l.foldl ratMin a)

/-- Why an object is rejected: 1 RANGE, 2 JUMP, 3 DISAGREE; 0 accepted (R394, R395). Bounds are absolute. -/
def calReason (force : Bool) (v old spread lo hi jump maxSpread : Ratio) : Nat :=
  if ratLt v lo || ratLt hi v then 1
  else if !force && ratLt jump (ratAbs (ratSub v old)) then 2
  else if ratLt maxSpread spread then 3
  else 0

/-- An object is rejected: counted and raised (R395, R401). -/
def calReject (s : State) (object why : Nat) : State :=
  let s := bump s sltCalCellsRejected
  let s := setF s sltCalStatus 8 8 (min 255 (getF s sltCalStatus 8 8 + 1))
  powerEvent s 1 0x146 (object + 256 * why)

/-- G of the three repetitions, in pV per LSB (R394). -/
def calGain (m : CalMeasure) : List Ratio := m.adc.map fun x => ⟨(20000000000000 : Int), max 1 (x.1 - x.2)⟩

/-- The ADC group: G and O, or the reasons of their rejection (R394, R395). -/
def calAdc (s : State) (m : CalMeasure) (force : Bool) : (Nat × Nat) × (Nat × Nat) :=
  let gs := calGain m
  let g := median3 gs
  let old := ratInt (readReg s sltCalGain).toNat
  let rg := calReason force g old (spread3 gs) ⟨61035160000 * 97, 10000⟩ ⟨61035160000 * 103, 10000⟩ ⟨old.n * 5, 1000⟩ ⟨g.n * 5, g.d * 10000⟩
  let os := m.adc.map fun x => ratInt x.2
  let o := median3 os
  let ro := calReason force o (ratInt (getF s sltCalOffset 0 16)) (spread3 os) (ratInt 0) (ratInt 1024) (ratInt 128) (ratInt 8)
  (((ratNear g).toNat, rg), ((ratNear o).toNat, ro))

/-- The reason for each measured sensor gain, 0 accepted; a sensor that no value came from keeps its gain (R394, R395). -/
def calGains (s : State) (m : CalMeasure) (force : Bool) : List (Fin 60 × Nat × Nat) :=
  (List.finRange 60).filterMap fun i =>
    let vs := (m.gains.getD i.val []).map fun (x : Nat) => ratInt x
    if vs.length < 3 then none
    else
      let v := median3 vs
      some (i, v.n.toNat, calReason force v (ratInt (s.therm.sg[i] : Nat)) (spread3 vs) (ratInt 980000) (ratInt 1020000) (ratInt 5000) (ratInt 500))

/-- The calibration record (R397). -/
def calRecord (s : State) (result : Nat) : List Byte :=
  let sg := s.therm.sg.toList.flatMap fun (x : Nat) => leBytes (wrapInt (ratNear ⟨(x : Int) - 1000000, 200⟩) 8) 1
  let body := leBytes 0x11 1 ++ leBytes result 1 ++ leBytes 0 2 ++ leBytes (readReg s sltCalGain).toNat 4
    ++ leBytes (getF s sltCalOffset 0 16) 2 ++ leBytes 0 2 ++ leBytes s.time.sec 8 ++ leBytes s.time.ns 4 ++ sg ++ List.replicate 40 0
  body ++ leBytes (crc32 body).toNat 4

/-- The run ends with a result, and CAL_DONE is raised (R396, R400). -/
def calFinish (s : State) (result : Nat) : State :=
  let s := setTherm (setF (setF s sltCalStatus 31 1 0) sltCalStatus 28 3 result) fun t => { t with cal := none }
  powerEvent s 2 0x145 (result + 256 * getF s sltCalStatus 8 8)

/-- CAL_DONE: the ADC group first; then the sensor groups; the constants take effect at once, with record and time (R394 to R397). -/
def calRunDone (s : State) (m : CalMeasure) : State :=
  match s.therm.cal with
  | none => s
  | some force =>
    let ((g, rg), (o, ro)) := calAdc s m force
    let s := if rg ≠ 0 then calReject s 0 rg else s
    let s := if ro ≠ 0 then calReject s 1 ro else s
    if rg ≠ 0 ∨ ro ≠ 0 then calFinish s 3
    else
      let gains := calGains s m force
      let bad := gains.filter fun x => x.2.2 != 0
      let s := bad.foldl (fun s x => calReject s (2 + x.1.val) x.2.2) s
      let spoilt (i : Nat) : Bool := decide (3 < (bad.filter fun x => x.1.val / 12 == i / 12).length)
      let s := setF (setReg s sltCalGain (BitVec.ofNat 32 g)) sltCalOffset 0 16 o
      let s := gains.foldl (fun s x =>
        if x.2.2 = 0 && !spoilt x.1.val then setTherm s fun t => { t with sg := t.sg.set x.1 x.2.1 } else s) s
      let result := if bad.isEmpty then 1 else 2
      let s := setF (logAdd s (.record (calRecord s result))) sltCalStatus 27 1 0
      let s := setReg (setReg s sltCalTimeSecLo (BitVec.ofNat 32 s.time.sec)) sltCalTimeSecHi (BitVec.ofNat 32 (s.time.sec / 2 ^ 32))
      calFinish s result

/-- A write of SLT_CAL_CTRL: START from a host begins a run unless one is in progress; CLEAR_RETIRED with its key empties the retired set from the next chip reset (R398, R399). -/
def calCtrlSlate (s : State) (q : Requester) (v : Word) : State :=
  let s := writeKey s sltCalCtrl v
  let s :=
    if flag v 3 && fld v 16 16 == 0xCA1B then logAdd (setSlate s fun x => { x with log := { x.log with clear := true } }) .retiredCleared
    else s
  if flag v 0 && q != .fp && s.therm.cal.isNone then
    let s := setF (setF (bump s sltCalRuns) sltCalStatus 31 1 1) sltCalStatus 8 8 0
    setTherm s fun t => { t with cal := some (getB s sltCalCtrl 2) }
  else s

/-! What time brings (R386, R388, R390, R393). -/

/-- PANEL_TEMP_HOLD_EXPIRED: T_p has been held for 60 s, and takes DEFAULT_C (R390). -/
def holdExpired (s : State) : State :=
  if getB s sltPanelTemp 31 && s.therm.cal.isNone && decide (60000000000 ≤ s.therm.heldFor) then
    setPanelTemp (setF (setTherm s fun t => { t with measured := false, heldFor := 0 }) sltPanelTemp 31 1 0) (defaultTemp s)
  else s

/-- DRAM_OVERTEMP_PERSIST: DRAM has forced the throttle condition for 10 s (R388). -/
def dramPersists (s : State) : State :=
  match s.therm.forcedAt with
  | some t => if getB s sltThermStatus 26 && decide (t + 10000000000 ≤ s.now) then thermalShutdown s 3 0xFF none else s
  | none => s

/-- A nanosecond of Slate's thermal times: T_p held, the clock's steps, DRAM's report that persists (R386, R388, R390). -/
def thermTick (s : State) : State :=
  if s.power.mode == .standby || s.power.mode == .off then s
  else
    let s := if getB s sltPanelTemp 31 && s.therm.cal.isNone then setTherm s fun t => { t with heldFor := t.heldFor + 1 } else s
    dramPersists (throttleStep (holdExpired s))

/-! Meanings. -/

/-- ONDIE_SENSOR_UPDATE (R385). -/
def execOndieSensorUpdate (i : Fin 60) (v : SensorValue) (s : State) : Out := .next (dieUpdate s i v)

/-- THROTTLE_STEP (R386). -/
def execThrottleStep (s : State) : Out := .next (throttleStep s)

/-- ADC_CYCLE (R382, R390). -/
def execAdcCycle (codes : AdcCodes) (s : State) : Out := .next (adcCycle s codes)

/-- PANEL_TEMP_HOLD_EXPIRED (R390). -/
def execPanelTempHoldExpired (s : State) : Out := .next (holdExpired s)

/-- DRAM_OVERTEMP_PERSIST (R388). -/
def execDramOvertempPersist (s : State) : Out := .next (dramPersists s)

/-- CAL_START (R398). -/
def execCalStart (q : Requester) (v : Word) (s : State) : Out := .next (reqSlate s q fun s => calCtrlSlate s q v)

/-- CAL_DONE (R396). -/
def execCalDone (m : CalMeasure) (s : State) : Out := .next (calRunDone s m)

/-- CLEAR_RETIRED (R399). -/
def execClearRetired (q : Requester) (v : Word) (s : State) : Out := .next (reqSlate s q fun s => calCtrlSlate s q v)

end Sys2Proof.Machine
end

