-- ==== Sys2Proof/Machine/Scan.lean ====
section
/-! DEFINITION. The scan: line starts, phases and frames, holds and their recovery, lines and their overdrive, gate and backlight outputs, paired scan (R127, R128, R189, R192, R274 to R300, R304, R305, R372). -/

namespace Sys2Proof.Machine

/-- The scan changed. -/
def setScan (s : State) (f : Scan → Scan) : State := { s with scan := f s.scan }

/-- Blanking slots that a phase may leave out, or insert (R288, R372). -/
def spareSlots (s : State) : Nat := phaseSlots s - activeSlots s - (if s.scan.paired then 16 else 32)

/-- Length of a phase's last slot on schedule, ps: P − (VT − 1) × T_SLOT (R274, R277). -/
def lastSlotPs (s : State) : Int :=
  let (n, d) := framePeriod s
  (((n * 1000) / (d * scanPhases s) : Nat) : Int) - (((phaseSlots s - 1) * slotPs s : Nat) : Int)

/-- What less than one slot of lag or lead remains of a phase's last slot: ps by which it is shortened; negative, lengthened (R288, R372). -/
def lastCut (s : State) : Int :=
  let lag := s.scan.lag
  let t : Int := slotPs s
  if 0 < lag ∧ lag < t then max 0 (min lag (lastSlotPs s - t / 4))
  else if -t < lag ∧ lag < 0 then -(max 0 (min (-lag) (3 * t / 2 - lastSlotPs s)))
  else 0

/-- Length of the present slot as it is delivered, ps (R277, R288). -/
def slotLen (s : State) : Int :=
  if phaseSlots s ≤ s.scan.slot + 1 then lastSlotPs s - lastCut s else slotPs s

/-! The schedule (R276). -/

/-- Phase k of the PTP timescale is scheduled to start at k × P after the epoch, in 2^-16 ns rounded down (R276). -/
def phaseTime (s : State) (k : Nat) : Nat :=
  let (n, d) := framePeriod s
  k * n * 65536 / (d * panelN s)

/-- The number of the newest frame that the schedule has started at a time in 2^-16 ns: frames start at the phases k with k mod N = 0 (R276). -/
def frameAt (s : State) (x : Nat) : Nat :=
  let (n, d) := framePeriod s
  (x * d + d - 1) / (n * 65536)

/-- A frame of the schedule starts in the present nanosecond (R276). -/
def frameNow (s : State) : Bool :=
  decide (nowFine s < phaseTime s (panelN s * frameAt s (nowFine s)) + 65536)

/-! Lanes (R275, R300). -/

/-- Lane groups that fall short for normal scan (R300). -/
def shortGroups (s : State) : List Nat :=
  (List.range 12).filter fun g => !groupMeets s g (groupLanes s g) (timingLinePs s)

/-- The groups that cannot carry even the paired scan quarantine themselves; with none, pewter mode is asked for while a group falls short (R300). -/
def shortShown (s : State) (short : Bool) : List Nat → State
  | [] => if !short || s.scan.paired then s else wantPewter s 3
  | bad => safePanel (bad.foldl (fun s g => blockQuarantine s 14 g) s) 2 0

/-- Every group is checked at a frame start: SHORT shows what falls short (R300). -/
def laneCheck (s : State) : State :=
  let short := shortGroups s
  let s := setF s obsPanelStatus 0 12 (sumNat (short.map fun g => 2 ^ g))
  shortShown s (!short.isEmpty) ((List.range 12).filter fun g => !groupMeets s g (groupLanes s g) (pairedSlotPs s))

/-! Overdrive (R290 to R295). -/

/-- Half-word `i` of the live waveform sets. -/
def waveHalf (s : State) (i : Nat) : Nat := fld ((smGet? s.obs.wave (i / 2)).getD 0) (16 * (i % 2)) 16

/-- T[b][ch][q][k] of the live sets (R295). -/
def waveT (s : State) (b ch q k : Nat) : Nat := waveHalf s (1024 * b + (ch * 16 + q) * 17 + k)

/-- The drive code of a subpixel (R292). -/
def driveCode (s : State) (b ch q n : Nat) : Nat :=
  let k := n / 64
  let f := n % 64
  let t := (waveT s b ch q k * (64 - f) + waveT s b ch q (k + 1) * f + 32) / 64
  min 1023 ((t + 16) / 32)

/-- A strobe entry of the live set: ON_SLOT, OFF_SLOT, DELAY_NS (R295). -/
def strobeEntry (s : State) (n ph : Nat) : Nat × Nat × Nat :=
  let e := if n = 1 then 0 else if n = 2 then 1 + ph else 3 + ph
  let h (i : Nat) : Nat := waveHalf s (1024 * s.obs.band + 816 + 4 * e + i)
  (h 0, h 1, h 2)

/-- Bytes of overdrive history of a line (R291). -/
def histBytes (s : State) : Nat := panelW s * 3 / 2

/-- Address of a line's history (R291). -/
def histAddr (s : State) (y : Nat) : Nat := addr40 s obsOdhistBaseLo obsOdhistBaseHi + y * histBytes s

/-- No history is used: DRAM is not in service, the first phase, or paired scan (R293). -/
def histOff (s : State) : Bool := !dramUp s || s.scan.noDrive || s.scan.paired

/-- The level of a subpixel; none where the read of its 256-byte line of DRAM ends in an error (R24, R291, R293). -/
def histLevel (s : State) (bytes : Array Byte) (a i : Nat) : Option Nat :=
  if readStatus s 14 ((a + i / 2) / 256 * 256) 256 = 0 then some (bitsOf (bytes.getD (i / 2) 0).toNat (4 * (i % 2)) 4) else none

/-- The lines whose history is read in the present slot: those of the next four slots, of the next phase where those run into it, that have not been read (R291). -/
def histWanted (s : State) : List Nat :=
  ((List.range 5).drop 1).filterMap fun d =>
    let n := s.scan.slot + d
    let y := if n < phaseSlots s then n else n - phaseSlots s
    if y < activeSlots s ∧ !(s.obs.hist.any fun h => h.line == y) then some y else none

/-- A line's history is read, in class NORMAL; data that has not come by the time the line is taken is late (R256, R291, R293). -/
def histRead (s : State) (y : Nat) : State :=
  let a := histAddr s y
  let bytes := (readBytes s a (histBytes s)).toArray
  let r : HistRead := ⟨y, readWaits s 14 a (histBytes s), (List.range (3 * panelW s)).map fun i => histLevel s bytes a i⟩
  setObs (poisonSeen s 14 a (histBytes s)) fun o => { o with hist := o.hist ++ [r] }

/-- Four slots before its slot, each line's history is read (R291). -/
def histReads (s : State) : State := if s.scan.paired then s else (histWanted s).foldl histRead s

/-- The history with which a line is written, subpixel by subpixel: none where no history is used; nothing of a read that has not arrived (R293). -/
def histLine (s : State) (y : Nat) : Option (List (Option Nat)) :=
  if histOff s then none
  else match s.obs.hist.find? fun h => h.line == y with
    | some h =>
      if h.late && readWaits s 14 (histAddr s y) (histBytes s) then some (List.replicate (3 * panelW s) none) else some h.levels
    | none => some (List.replicate (3 * panelW s) none)

/-- Two levels a byte, low nibble first (R291). -/
def histPack : List Nat → List Byte
  | a :: b :: r => BitVec.ofNat 8 (a / 64 % 16 + 16 * (b / 64 % 16)) :: histPack r
  | [a] => [BitVec.ofNat 8 (a / 64 % 16)]
  | [] => []

/-- OBS_FILL on every subpixel (R290, R309). -/
def fillLine (s : State) : List Nat :=
  let w := readReg s obsFill
  (List.replicate (panelW s) [fld w 0 10, fld w 10 10, fld w 20 10]).flatten

/-- A line that has not arrived is built from its history or from OBS_FILL, counted, and LINES_MISSING raised at most once per phase (R290). -/
def missingLine (s : State) (y : Nat) (hist : Option (List (Option Nat))) : State × List Nat :=
  let s := bump s obsMissingLines
  let (codes, src) := match hist with
    | some l => if l.all fun q => q.isSome then (l.map fun q => 64 * q.getD 0 + 32, 1) else (fillLine s, 2)
    | none => (fillLine s, 2)
  if s.obs.missRaised then (s, codes)
  else (obsEvent (setObs s fun o => { o with missRaised := true }) 1 0x086 (s.scan.phase % 4 + 4 * src + 65536 * y), codes)

/-- The drive codes of a line; one with a failed history read is counted (R292, R293). -/
def overdrive (s : State) (codes : List Nat) (hist : Option (List (Option Nat))) : State × List Nat :=
  match hist with
  | none => (s, codes.zipIdx.map fun e => driveCode s s.obs.band (e.2 % 3) (e.1 / 64) e.1)
  | some l =>
    let out := (codes.zip l).zipIdx.map fun e => driveCode s s.obs.band (e.2 % 3) (e.1.2.getD (e.1.1 / 64)) e.1.1
    if l.all fun q => q.isSome then (s, out)
    else (setObs (bump s obsOdSkipped) fun o => { o with odLines := o.odLines + 1 }, out)

/-- OVERDRIVE_SKIPPED, once its phase's lines are all taken (R293, R310). -/
def odReport (s : State) : State :=
  if s.obs.odLines = 0 ∨ s.obs.odRaised then s
  else obsEvent (setObs s fun o => { o with odRaised := true }) 1 0x087 (s.obs.odLines % 65536)

/-- The LINE commands of a line: one for each lane group, with its share of the pixels (R275, R282, R285). -/
def lineCmds (s : State) (line : Nat) (codes : List Nat) : List DrvCmd :=
  let n := panelW s / 12 * 3
  let sign := (s.scan.frame + s.scan.phase) % 2
  (List.range 12).map fun g => ⟨g, 1, 0xFF, line + 16384 * sign, .codes ((codes.drop (g * n)).take n)⟩

/-! Lines (R127, R128, R192, R278). -/

/-- Lines are written from OBS_FILL: the two whole frames after a write of OFF (R305). -/
def fillsFrame (s : State) : Bool :=
  match s.obs.step with
  | .fillFrames last => s.scan.frame == last || (s.scan.frame + 1) % 2 ^ 32 == last
  | _ => false

/-- What the start of a stripe brings: its deadline, the opening of the stripe two later, the repeat point of the next (R127, R128, R194). -/
def stripeBegins (s : State) (k : Nat × Nat × Nat) : State :=
  let s := if serves s 13 then openStripe s (stripeAfter s k 2) else s
  repeatPoint (stripeDeadline s k) (stripeAfter s k 1)

/-- The codes of the line that is shown: of OBS_FILL while frames are filled, else those that came, else a missing line's (R278, R290). -/
def takenLine (s : State) (y : Nat) (got : Option (List Nat)) (hist : Option (List (Option Nat))) : State × List Nat :=
  if fillsFrame s then (s, fillLine s)
  else match got with
    | some c => (s, c)
    | none => missingLine s y hist

/-- Active slot of normal scan: the line is taken from Mica, driven and sent; at the last one of a frame Mica's update point passes (R189, R192, R278, R290, R291). -/
def normalLine (s : State) : State :=
  let y := s.scan.slot
  let k := (s.scan.frame, s.scan.phase, y / 16)
  let s := if y % 16 = 0 then stripeBegins s k else s
  let (s, sent) := micaLine s k (y % 16)
  let got := sent.map fun o => o.codes
  let s := toBorax s k (y % 16) got
  let hist := histLine s y
  let s := setObs s fun o => { o with hist := o.hist.filter fun h => h.line != y }
  let (s, codes) := takenLine s y got hist
  let (s, out) := overdrive s codes hist
  let s := if dramUp s then dramPut s (histAddr s y) (histPack codes) else s
  let s := drvSend s (lineCmds s y out)
  let s := stripeTaken s k (y % 16)
  let s := if y % 16 = 15 then ringDrop s k else s
  if y + 1 = panelH s ∧ s.scan.phase + 1 = panelN s ∧ serves s 13 then updatePoint s ((s.scan.frame + 1) % 2 ^ 32) else s

/-- The pewter picture's size, where it keeps R297. -/
def pewterSize (s : State) : Option (Nat × Nat) :=
  let pw := getF s obsPewterSize 0 16
  let ph := getF s obsPewterSize 16 16
  if pw = 0 ∨ ph = 0 ∨ 785408 < pw * ph ∨ panelW s % pw ≠ 0 ∨ panelH s % ph ≠ 0 ∨ panelH s / ph % 2 ≠ 0 then none else some (pw, ph)

/-- A byte of the pewter buffer; one not written since Obsidian was powered up is undefined (R297). -/
def pewterByte (s : State) (a : Nat) : Byte := (smGet? s.obs.pewter a).getD (Config.freeByte (0x4000000 + s.obs.pewterEra) a)

/-- The codes of a line of the stored picture, in the RGB10 layout of its palette (R297). -/
def pewterLine (s : State) (y : Nat) : List Nat :=
  match pewterSize s with
  | none => fillLine s
  | some (pw, ph) =>
    let row := 1024 + y * ph / panelH s * pw
    (List.range (panelW s)).flatMap fun x =>
      let i := (pewterByte s (row + x * pw / panelW s)).toNat
      let w := leNat ((List.range 4).map fun b => pewterByte s (4 * i + b))
      [bitsOf w 0 10, bitsOf w 10 10, bitsOf w 20 10]

/-- Active slot of paired scan: lines 2j and 2j + 1 are written together, without overdrive (R293, R298). -/
def pairedLine (s : State) : State :=
  let j := s.scan.slot
  let codes := if fillsFrame s then fillLine s else pewterLine s (2 * j)
  let (s, out) := overdrive s codes none
  drvSend s (lineCmds s (2 * j) out)

/-! Gate and backlight outputs (R280, R281). -/

/-- A GT output's program in the slot: the pulse that it begins, in ps from the slot's start, at the level opposite to IDLE (R280). -/
def gtBegins (s : State) (n : Nat) : Option GtPulse :=
  let k := s.scan.slot
  let w := readReg s (if s.scan.paired then obsGtPair n else obsGtNorm n)
  let due := match fld w 30 2 with
    | 1 => decide (1 ≤ k) && decide (k ≤ activeSlots s) && (k - 1) % (fld w 24 4 + 1) == fld w 20 4
    | 2 => k == fld w 20 4
    | _ => false
  if due && fld w 0 10 != 0 then some ⟨n, !flag w 29, 8000 * fld w 10 10, 8000 * (fld w 10 10 + fld w 0 10)⟩ else none

/-- Overlapping pulses of one output merge (R280). -/
def gtMerge (l : List GtPulse) (p : GtPulse) : List GtPulse :=
  let meets (q : GtPulse) : Bool := q.out == p.out && q.level == p.level && decide (q.from_ ≤ p.to_) && decide (p.from_ ≤ q.to_)
  let p := (l.filter meets).foldl (fun p q => { p with from_ := min p.from_ q.from_, to_ := max p.to_ q.to_ }) p
  l.filter (fun q => !meets q) ++ [p]

/-- The GT outputs in a slot: their resting levels, and the pulses that have not ended with those that the slot begins (R280). -/
def gtSlot (s : State) : State :=
  setObs s fun o => { o with gtLevel := gtIdle s, gtPulses := ((List.range 12).filterMap (gtBegins s)).foldl gtMerge o.gtPulses }

/-- Pulses in progress at the end of the present slot finish; one that has not begun does not (R287). -/
def gtHold (s : State) : State :=
  setObs s fun o => { o with gtLevel := gtIdle s, gtPulses := o.gtPulses.filter fun p => decide (p.from_ < slotLen s) }

/-- A time that GT outputs' pulses have run, in ps: those that have ended are gone (R280). -/
def gtPasses (s : State) (d : Int) : State :=
  setObs s fun o => { o with gtPulses :=
    (o.gtPulses.map fun p => { p with from_ := p.from_ - d, to_ := p.to_ - d }).filter fun p => decide (0 < p.to_) }

/-- A strobe's edges that count from the present slot: output, level, delay in ps (R281). -/
def strobeDue (x : Strobe) : List (Nat × Bool × Int) :=
  if x.off ≤ x.on then []
  else if x.age = x.on then [(x.out, true, 1000 * x.delay)]
  else if x.age = x.off then [(x.out, false, 1000 * x.delay)]
  else []

/-- Edges in the order of their times. -/
def edgeInsert (e : Nat × Bool × Int) : List (Nat × Bool × Int) → List (Nat × Bool × Int)
  | [] => [e]
  | x :: r => if x.2.2 ≤ e.2.2 then x :: edgeInsert e r else e :: x :: r

/-- One edge falls due: a rise while another output is high first ends that one, with its strobes, and comes 100 ns later; a strobe that ends within those 100 ns does not begin (R281). -/
def blpEdge (o : Obsidian) (e : Nat × Bool × Int) : Obsidian :=
  if e.2.1 then
    match o.blp with
    | none => { o with blp := some e.1, blpHolds := 1, blpEdges := o.blpEdges ++ [e] }
    | some h =>
      if h = e.1 then { o with blpHolds := o.blpHolds + 1 }
      else { o with
        blp := none, blpHolds := 0, blpEdges := o.blpEdges ++ [(h, false, e.2.2)]
        strobes := o.strobes.filter fun x => x.out != h || decide (x.age ≤ x.on)
        blpDue := edgeInsert (e.1, true, e.2.2 + 100000) (o.blpDue.filter fun d => d.1 != h || d.2.1) }
  else if o.blp = some e.1 then
    if 1 < o.blpHolds then { o with blpHolds := o.blpHolds - 1 }
    else { o with blp := none, blpHolds := 0, blpEdges := o.blpEdges ++ [e] }
  else { o with blpDue := o.blpDue.filter fun d => d.1 != e.1 || !d.2.1 || decide (e.2.2 + 100000 < d.2.2) }

/-- The edges due within a slot of length `len`, in the order of their times; the rest wait for later slots (R281). -/
def blpRun (len : Int) : Nat → Obsidian → Obsidian
  | 0, o => o
  | fuel + 1, o =>
    match o.blpDue with
    | e :: r => if e.2.2 < len then blpRun len fuel (blpEdge { o with blpDue := r } e) else o
    | [] => o

/-- The backlight outputs in a slot: the edges that count from it take their places, and those due within it are made (R281). -/
def strobeSlot (s : State) : State :=
  let o := s.obs
  let due := (o.strobes.flatMap strobeDue).foldl (fun l e => edgeInsert e l) o.blpDue
  let rest := (o.strobes.map fun x => { x with age := x.age + 1 }).filter fun x => decide (x.age ≤ x.off)
  setObs s fun o => blpRun (slotLen s) ((due.length + 1) * (due.length + 1)) { o with blpDue := due, blpEdges := [], strobes := rest }

/-- The present slot has passed: times count from the start of the next one (R280, R281). -/
def slotPasses (s : State) (d : Int) : State :=
  setObs (gtPasses s d) fun o => { o with blpDue := o.blpDue.map fun e => (e.1, e.2.1, max 0 (e.2.2 - d)) }

/-- The strobe of a phase is taken from the live set at its start (R281, R296). -/
def strobePhase (s : State) : State :=
  if s.scan.strobeOff then s
  else
    let ph := s.scan.phase
    let (on, off, delay) := strobeEntry s (if s.scan.paired then 2 else panelN s) ph
    if off ≤ on then s
    else setObs s fun o => { o with strobes := o.strobes ++ [⟨ph, on, off, delay, 0⟩] }

/-! Frame starts (R166, R276, R296, R299, R300, R304). -/

/-- The scan mode changes at this frame: at N = 1 an even one (R299). -/
def modeFrame (s : State) : Bool := panelN s != 1 || s.scan.frame % 2 == 0

/-- PAIRED shows (R309). -/
def setPaired (s : State) (p : Bool) : State := setF (setScan s fun x => { x with paired := p }) obsPanelStatus 28 1 (b2n p)

/-- Stripes 0 and 1 of the frame's phase 0 open, and have their repeat points (R127, R194, R278). -/
def openFirst (s : State) : State :=
  if !serves s 13 then s
  else
    let a := (s.scan.frame, 0, 0)
    let b := (s.scan.frame, 0, 1)
    repeatPoint (repeatPoint (setMica (openStripe (openStripe s a) b) fun m => { m with asked := [] }) a) b

/-- Every open stripe is cancelled. -/
def cancelAll (s : State) : State :=
  setStripes ((s.stripes.open_.map stripeKey).foldl cancelStripe s) fun q => { q with open_ := [] }

/-- Pewter mode is entered or left, where a reason or a request waits and can be met (R299, R481). -/
def pewterChange (s : State) : State :=
  if !modeFrame s then s
  else if !s.scan.paired && s.obs.pewterWhy != 0 then
    let why := s.obs.pewterWhy
    let s := setObs (setPaired (cancelAll s) true) fun o => { o with pewterWhy := 0, pewterIn := why, pewterExit := false }
    groupDown (obsEvent s 3 0x091 why) why
  else if s.scan.paired && s.obs.pewterExit && dramUp s && (shortGroups s).isEmpty then
    let s := setObs (setPaired s false) fun o => { o with pewterExit := false, pewterIn := 0 }
    openFirst (obsEvent (setScan s fun x => { x with noDrive := true }) 2 0x092 0)
  else s

/-- A waiting WAVE_COMMIT copies the staging sets (R296). -/
def waveTake (s : State) : State :=
  if !s.obs.commit then s
  else
    let live := (s.regs.filter fun e => decide (obsWave 0 ≤ e.1) && decide (e.1 < obsWave 3072)).map fun e => ((e.1 - obsWave 0) / 4, e.2)
    setObs s fun o => { o with commit := false, wave := live }

/-- The band is latched for the frame; a change is raised (R296, R310). -/
def bandTake (s : State) : State :=
  let old := s.obs.band
  let new := s.obs.bandNow
  if old = new then s
  else
    let t := wrapInt (tenths (signedOf (getF s sltPanelTemp 0 16) 16)) 16
    obsEvent (setF (setObs s fun o => { o with band := new }) obsPanelStatus 25 3 new) 2 0x082 (new + 16 * old + 65536 * t)

/-- POL_PATTERN takes effect at a frame start (R284, R309). -/
def polTake (s : State) : State :=
  let p := getF s obsPanelCtrl 5 3
  setObs s fun o => { o with pol := p }

/-- The scan that the next frame will have as things stand (R299, R300). -/
def pairedNext (s : State) : Bool :=
  if panelN s = 1 ∧ s.scan.frame % 2 = 0 then s.scan.paired
  else if s.scan.paired then !(s.obs.pewterExit && dramUp s && (shortGroups s).isEmpty)
  else s.obs.pewterWhy != 0 || !(shortGroups s).isEmpty

/-- POL_MODE in a blanking slot, when what the drivers were told last is not in effect, or, in a frame's last slot, will not be in the next frame (R282, R284, R324). -/
def polSend (s : State) : State :=
  let final := decide (phaseSlots s ≤ s.scan.slot + 1) && decide (scanPhases s ≤ s.scan.phase + 1)
  let arg := if final then getF s obsPanelCtrl 5 3 + 8 * b2n (pairedNext s) else s.obs.pol + 8 * b2n s.scan.paired
  if arg = s.obs.polTold then s
  else setObs (drvMore s [⟨12, 5, 0xFF, arg, .bytes []⟩]) fun o => { o with polTold := arg }

/-- The start of frame 2 ends the power-on sequence: strobes begin, STATE ON (R304). -/
def panelOnAt (s : State) : State :=
  if s.obs.step = .firstFrames ∧ s.scan.frame = 2 then
    let s := setPanelState (setStep (setScan s fun x => { x with strobeOff := false }) .idle) .on
    heldRuns (obsEvent s 2 0x080 0)
  else s

/-- A frame starts (R57, R166, R241, R244, R296, R299, R300, R304, R373). -/
def frameStart (s : State) : State :=
  let s := match s.ctrl.ready with
    | some i => progTake s i
    | none => s
  let s := calFrameStart s
  let s := pewterChange (laneCheck s)
  if !s.scan.running then s
  else
    let s := polTake (bandTake (waveTake s))
    let s := panelOnAt s
    let s := setBorax s fun b => { b with shadowOn := getB s brxShadowCtrl 0 }
    let s := retFrame s s.scan.frame (s.time.sec, s.time.ns)
    if serves s 15 then triggerDue s 3 (timeNs s.time) none else s

/-- The power-off sequence at a phase start: STATE POWERING_OFF with BLP low, then two whole frames of OBS_FILL, then the timing stops, the position being the last one scanned (R155, R305). -/
def offStep (s : State) : State :=
  match s.obs.step with
  | .offRequested =>
    let f := s.scan.frame
    let last := if s.scan.phase = 0 then f + 1 else f + 2
    setStep (blpLow (setPanelState s .poweringOff)) (.fillFrames (last % 2 ^ 32))
  | .fillFrames last =>
    if s.scan.phase = 0 ∧ s.scan.frame = (last + 1) % 2 ^ 32 then
      offTimingStop (setScan s fun x => { x with frame := last, phase := scanPhases s - 1, slot := phaseSlots s - 1 })
    else s
  | _ => s

/-- A phase starts; the power-off sequence may stop the timing here (R150, R155, R278, R335, R373). -/
def phaseStart (s : State) (first : Bool) : State :=
  let s := setObs (micaPhase (sparesPhase s)) fun o => { o with missRaised := false, odRaised := false, odLines := 0 }
  let s := if first then s else setScan s fun x => { x with noDrive := false }
  let s := offStep s
  if !s.scan.running then s
  else
    let s := if s.scan.phase = 0 then frameStart s else s
    if !s.scan.running then s
    else
      let s := setFlag s 0
      let s := if s.scan.phase = 0 then setFlag s 1 else s
      let s := if serves s 15 then triggerDue s 4 (timeNs s.time) none else s
      strobePhase s

/-! Slots (R277, R278, R287, R288, R372). -/

/-- The scan position as a number of R155's order: phase and line. -/
def scanPos (s : State) : Nat := s.scan.phase * 65536 + s.scan.slot

/-- The scan has reached a WAITL target (R155). -/
def scanReached (s : State) (target : DWord) : Bool :=
  let d := signedOf (s.scan.frame + 2 ^ 32 - bitsOf target.toNat 32 32) 32
  decide (0 < d) || (d == 0 && decide (bitsOf target.toNat 16 2 * 65536 + bitsOf target.toNat 0 14 ≤ scanPos s))

/-- A WAITL that the scan has reached ends; in the shadow run it ends by its mirror record (R155, R410). -/
def settleScan (s : State) (f : FlintId) : State :=
  let x := flintOf s f
  if x.shadow == .inShadow then s else
  match x.wait with
  | some (.scan t) => if scanReached s t then mirrorSend (setFlint s f fpNext) f (.waitEnd 0 false) else s
  | _ => s

/-- LINE_MATCH of each Flint region (R150, R172). -/
def lineMatch (s : State) : State :=
  (flintsUp s).foldl (fun s f =>
    if s.scan.slot = getF s (flaLineMatch (flintRegion f)) 0 14 then setFlagOf s f 2 else s) s

/-- A slot begins: what its place in the phase brings (R150, R278, R280, R281, R293, R335). -/
def slotBegins (s : State) (first : Bool) : State :=
  let s := drvSlotEnds (sparesSlot s)
  let s := if s.scan.slot = 0 then phaseStart s first else s
  if !s.scan.running then s
  else
    let s := lineMatch s
    let s := histReads (strobeSlot (gtSlot s))
    let s := if s.scan.slot < activeSlots s then (if s.scan.paired then pairedLine s else normalLine s) else drvWaiting (polSend s)
    let s := if s.scan.slot = activeSlots s then odReport (setFlag s 3) else s
    settleScan (settleScan s .a) .b

/-- A phase ends: its last slot was shortened or lengthened by what less than one slot of lag or lead remains; SCAN_RECOVERED when that reaches 0; the next phase follows (R155, R277, R288, R372). -/
def nextPhase (s : State) : State :=
  let s := setScan s fun x => { x with lag := x.lag - lastCut s, inserted := 0, slot := 0 }
  let s :=
    if s.scan.recovery = 0 then s
    else if s.scan.lag = 0 then
      obsEvent (setScan s fun x => { x with recovery := 0 }) 1 0x085 (s.scan.recovery % 256)
    else setScan s fun x => { x with recovery := x.recovery + 1 }
  if s.scan.phase + 1 < scanPhases s then setScan s fun x => { x with phase := x.phase + 1 }
  else setScan s fun x => { x with phase := 0, frame := (x.frame + 1) % 2 ^ 32 }

/-- The next slot of the phase: blanking slots before the last one are left out for a lag and inserted for a lead (R288, R372). -/
def nextSlot (s : State) : State :=
  let vt := phaseSlots s
  let t : Int := slotPs s
  let n := s.scan.slot + 1
  let need := min (s.scan.lag / t).toNat (spareSlots s)
  if 0 < s.scan.lag ∧ activeSlots s < n ∧ n < vt - 1 ∧ vt - 1 - n ≤ need then
    setScan s fun x => { x with slot := vt - 1, lag := x.lag - ((vt - 1 - n : Nat) : Int) * t }
  else if n = vt - 1 ∧ s.scan.lag ≤ -t ∧ s.scan.inserted < spareSlots s then
    setScan s fun x => { x with inserted := x.inserted + 1, lag := x.lag + t }
  else setScan s fun x => { x with slot := n }

/-- The scan moves to the slot whose line start has come. -/
def scanMoves (s : State) : State :=
  let s := if s.scan.lag ≠ 0 ∧ s.scan.recovery = 0 then setScan s fun x => { x with recovery := 1 } else s
  if !s.scan.begun then setScan s fun x => { x with begun := true, slot := 0 }
  else
    let s := slotPasses s (slotLen s)
    if phaseSlots s ≤ s.scan.slot + 1 then nextPhase s else nextSlot s

/-- A hold ends with a line start: Λ, SCAN_HELD; GT pulses have run on for as long as the lag has grown (R287). -/
def holdEnds (s : State) (lag : Int) : State :=
  if !s.scan.held then s
  else
    let s := gtPasses s (max 0 (max 0 lag - s.scan.lag))
    let s := setScan s fun x => { x with held := false, lag := max 0 lag }
    obsEvent s 1 0x084 (min 65535 ((max 0 lag).toNat / max 1 (slotPs s)))

/-- The standby's line start for the slot that ends did not come, while the holder's did: a mismatch; the next slot's is awaited (R411). -/
def standbyMissing (s : State) (f : FlintId) : State :=
  let l := s.ctrl.lease
  let g := otherFlint f
  let inRun := (flintOf s g).shadow == .inShadow
  let s := setLease s fun l => { l with lineDue := inRun, lineSeen := l.lineEarly, lineEarly := false }
  if l.lineDue && !l.lineSeen && inRun then mismatchFound s g 2 s.scan.slot else s

/-- A line start of the holder: a switch-over ends with it, or the region gives no more (R278, R279, R287, R415, R418). -/
def holderLine (s : State) (f : FlintId) (skew : Int) : State :=
  let s := match s.ctrl.lease.step with
    | .aligning r => switchEnds s f r
    | _ => s
  let s := standbyMissing (setLease s fun l => { l with lineAt := s.now }) f
  let first := !s.scan.begun
  let s := showLag (slotBegins (scanMoves (holdEnds s skew)) first)
  match s.ctrl.lease.step with
  | .releasing _ => setFlint s f fun x => { x with lapsed := true }
  | _ => s

/-- A line start of the standby is compared with the holder's (R279, R411, R412). -/
def standbyLine (s : State) (f : FlintId) (skew : Int) : State :=
  if (flintOf s f).shadow ≠ .inShadow then s
  else
  let s := setLease s fun l => if skew < 0 then { l with lineEarly := true } else { l with lineSeen := true }
  if skew < -20000 ∨ 20000 < skew then mismatchFound s f 2 s.scan.slot
  else leaseShow (setFlint s f fun x => { x with selftest := Nat.lor x.selftest 4 })

/-- The timing starts with a frame of the schedule: frames from 0, stripes 0 and 1 of frame 0 open (R57, R155, R276, R278, R286, R304). -/
def timingStart (s : State) : State :=
  if s.obs.step ≠ .waitFrame || s.scan.running || (holder s).isNone then s
  else
    let s := setObs s fun o => { o with hist := [] }
    let s := cancelAll s
    let s := setStripes s fun q => { q with past := none }
    let s := (List.finRange 4).foldl (fun s g => setGal s g fun x => { x with cacheFrame := none, lateRaised := [] }) s
    let s := setScan s fun x => { running := true, paired := x.paired }
    let s := calTimingStart (setStep s .firstFrames)
    let s := if s.scan.paired then s else openFirst s
    showLag (showRunning s)

/-! Meanings. -/

/-- The frame start that the power-on sequence waits for has come (R276, R304). -/
def timingDue (s : State) : State := if serves s 14 && frameNow s then timingStart s else s

/-- The time has run on from `t` in 2^-16 ns: a frame of the schedule that has started meanwhile starts the timing that waits for it (R276). -/
def frameTick (t : Nat) (s : State) : State :=
  if serves s 14 && frameAt s t != frameAt s (nowFine s) then timingStart s else s

/-- TIMING_START: acts in the nanosecond in which a frame of the schedule starts (R276, R278, R304). -/
def execTimingStart (s : State) : Out := .next (timingDue s)

/-- A new holder delivers line starts once it has consumed every mirror record that is left (R415, R416). -/
def mayAlign (s : State) (f : FlintId) : Bool :=
  match s.ctrl.lease.step with
  | .aligning _ => mirrorDone s f
  | _ => true

/-- LINE_START (R278, R279). -/
def execLineStart (f : FlintId) (skew : Int) (s : State) : Out :=
  .next (
    if !serves s 14 || !s.scan.running || !flintUp s f then s
    else if holder s = some f then (if (flintOf s f).lapsed || !mayAlign s f then s else holderLine s f skew)
    else standbyLine s f skew)

/-- SCAN_HOLD: GT outputs rest at IDLE, BLP outputs keep their levels, no commands go out (R287, R309). -/
def execScanHold (s : State) : Out :=
  .next (
    if !serves s 14 || !s.scan.running || s.scan.held || !s.scan.begun then s
    else
      let s := bump (setScan s fun x => { x with held := true }) obsHolds
      gtHold (drvSend s []))

end Sys2Proof.Machine
end

