-- ==== Sys2Proof/Machine/Crypto.lean ====
section
/-! DEFINITION. SHA-512 and Ed25519 as RFC 8032 defines it, in its pure form (R443, R456, R457). -/

namespace Sys2Proof.Machine

/-! SHA-512. Its constants are computed from the primes that define them. -/

/-- The integer root of degree `k`, rounded down: a search by halves between `lo` and `hi`. -/
def rootGo (k n : Nat) : Nat → Nat → Nat → Nat
  | 0, lo, _ => lo
  | fuel + 1, lo, hi =>
    let mid := (lo + hi) / 2
    if mid ^ k ≤ n then rootGo k n fuel mid hi else rootGo k n fuel lo mid

/-- The first 64 bits of the fraction of the root of degree `k` of a number below 512. -/
def rootFrac (k p : Nat) : DWord := BitVec.ofNat 64 (rootGo k (p * 2 ^ (64 * k)) 73 0 (2 ^ 73))

/-- The primes below `n`, rising. -/
def primesBelow (n : Nat) : List Nat :=
  ((List.range n).drop 2).filter fun p => (List.range (isqrt p + 1)).all fun d => d < 2 || p % d != 0

/-- The 80 round constants: from the cube roots of the first 80 primes, of which 409 is the last. -/
def shaK : List DWord := (primesBelow 410).map (rootFrac 3)

/-- The initial hash value: from the square roots of the first eight primes. -/
def shaInit : List DWord := (primesBelow 20).map (rootFrac 2)

/-- A word under its rotations to the right, added bit by bit. -/
def turned (w : DWord) (by_ : List Nat) : DWord := by_.foldl (fun x n => x ^^^ w.rotateRight n) 0

/-- The word that follows in the message schedule; the schedule is held newest word first. -/
def shaNext (w : List DWord) : DWord :=
  let near := w.getD 1 0
  let far := w.getD 14 0
  w.getD 15 0 + (turned far [1, 8] ^^^ far >>> 7) + w.getD 6 0 + (turned near [19, 61] ^^^ near >>> 6)

/-- The message schedule, `n` words further. -/
def shaExtend : Nat → List DWord → List DWord
  | 0, w => w
  | n + 1, w => shaExtend n (shaNext w :: w)

/-- One round on the eight working variables: `kw` is the round's constant plus its schedule word. The first and the fifth are new; the others move one place down. -/
def shaRound (x : List DWord) (kw : DWord) : List DWord :=
  let v (i : Nat) : DWord := x.getD i 0
  let choice := v 6 ^^^ (v 4 &&& (v 5 ^^^ v 6))
  let major := (v 0 &&& (v 1 ||| v 2)) ||| (v 1 &&& v 2)
  let t := kw + v 7 + choice + turned (v 4) [14, 18, 41]
  (t + major + turned (v 0) [28, 34, 39]) :: x.take 3 ++ (v 3 + t) :: (x.drop 4).take 3

/-- A block of 128 bytes into the hash value. -/
def shaBlock (h : List DWord) (block : List Byte) : List DWord :=
  let newestFirst := (List.range 16).map fun i => BitVec.ofNat 64 (beNat (sliceBytes block (120 - 8 * i) 8))
  let words := (shaExtend 64 newestFirst).reverse
  let out := (words.zip shaK).foldl (fun x e => shaRound x (e.1 + e.2)) h
  (h.zip out).map fun e => e.1 + e.2

/-- The message with its padding: 0x80, zeros, and the length in bits as 16 bytes. -/
def shaPad (m : List Byte) : List Byte :=
  m ++ 0x80 :: List.replicate ((239 - m.length % 128) % 128) 0 ++ beBytes (8 * m.length) 16

/-- The blocks of a padded message. -/
def shaBlocks : Nat → List Byte → List DWord → List DWord
  | 0, _, h => h
  | n + 1, m, h => shaBlocks n (m.drop 128) (shaBlock h (m.take 128))

/-- SHA-512: 64 bytes. -/
def sha512 (m : List Byte) : List Byte :=
  let p := shaPad m
  (shaBlocks (p.length / 128) p shaInit).flatMap fun w => beBytes w.toNat 8

/-! Ed25519: numbers modulo the field's prime, points in extended coordinates. -/

/-- The field's prime, 2^255 − 19. -/
def edP : Nat := 2 ^ 255 - 19

/-- L, the order of the base point. -/
def edL : Nat := 2 ^ 252 + 27742317777372353535851937790883648493

/-- A power modulo m, from the low `fuel` bits of the exponent. -/
def powMod (m : Nat) : Nat → Nat → Nat → Nat
  | 0, _, _ => 1 % m
  | fuel + 1, b, e =>
    let r := powMod m fuel (b * b % m) (e / 2)
    if e % 2 = 1 then r * b % m else r

/-- A power in the field. -/
def edPow (b e : Nat) : Nat := powMod edP 256 b e

/-- The inverse in the field. -/
def edInv (x : Nat) : Nat := edPow x (edP - 2)

/-- a − b in the field. -/
def edSub (a b : Nat) : Nat := (a + edP - b % edP) % edP

/-- The curve constant d = −121665 / 121666. -/
def edD : Nat := 37095705934669439343138083508754565189542113879843219016388785533085940283555

/-- A point: X, Y, Z, T with x = X / Z, y = Y / Z, x × y = T / Z. -/
structure EdPoint where
  x : Nat
  y : Nat
  z : Nat
  t : Nat
deriving DecidableEq, Repr

/-- The neutral point. -/
def edZero : EdPoint := ⟨0, 1, 1, 0⟩

/-- Sum of two points. -/
def edAdd (p q : EdPoint) : EdPoint :=
  let a := edSub p.y p.x * edSub q.y q.x % edP
  let b := (p.y + p.x) * (q.y + q.x) % edP
  let c := 2 * p.t * q.t * edD % edP
  let d := 2 * p.z * q.z % edP
  let e := edSub b a
  let f := edSub d c
  let g := (d + c) % edP
  let h := (b + a) % edP
  ⟨e * f % edP, g * h % edP, f * g % edP, e * h % edP⟩

/-- A multiple of a point, from the low `fuel` bits of the factor. -/
def edMul : Nat → Nat → EdPoint → EdPoint
  | 0, _, _ => edZero
  | fuel + 1, n, p =>
    let r := edMul fuel (n / 2) (edAdd p p)
    if n % 2 = 1 then edAdd r p else r

/-- The base point B. -/
def edBase : EdPoint :=
  let x := 15112221349535400772501151409588531511454012693041857206046113283949847762202
  let y := 46316835694926478169428394003475163141307993866256225615783033603165251855960
  ⟨x, y, 1, x * y % edP⟩

/-- Two points are the same point. -/
def edSame (p q : EdPoint) : Bool := p.x * q.z % edP == q.x * p.z % edP && p.y * q.z % edP == q.y * p.z % edP

/-- The encoding of a point, 32 bytes. -/
def edEncode (p : EdPoint) : List Byte :=
  let i := edInv p.z
  leBytes (p.y * i % edP + 2 ^ 255 * (p.x * i % edP % 2)) 32

/-- The point that 32 bytes encode, canonically; none otherwise (R443). -/
def edDecode (bs : List Byte) : Option EdPoint :=
  let n := leNat (bs.take 32)
  let sign := n / 2 ^ 255 % 2
  let y := n % 2 ^ 255
  if edP ≤ y then none
  else
    let u := edSub (y * y) 1
    let v := (edD * (y * y % edP) + 1) % edP
    let x := u * edPow v 3 % edP * edPow (u * edPow v 7 % edP) ((edP - 5) / 8) % edP
    let vxx := v * (x * x % edP) % edP
    let root : Option Nat :=
      if vxx = u then some x
      else if vxx = edSub 0 u then some (x * edPow 2 ((edP - 1) / 4) % edP)
      else none
    match root with
    | none => none
    | some x =>
      if x = 0 ∧ sign = 1 then none
      else
        let x := if x % 2 = sign then x else edSub 0 x
        some ⟨x, y, 1, x * y % edP⟩

/-- The secret scalar and the prefix that a seed gives. -/
def edSecret (seed : List Byte) : Nat × List Byte :=
  let h := sha512 seed
  let a := leNat (h.take 32)
  (a % 2 ^ 254 / 8 * 8 + 2 ^ 254, h.drop 32)

/-- The public key of a seed (R456). -/
def edPublic (seed : List Byte) : List Byte := edEncode (edMul 256 (edSecret seed).1 edBase)

/-- The signature of a message under a seed's key: R and S (R443, R457). -/
def edSign (seed m : List Byte) : List Byte :=
  let (a, pre) := edSecret seed
  let r := leNat (sha512 (pre ++ m)) % edL
  let rb := edEncode (edMul 256 r edBase)
  let k := leNat (sha512 (rb ++ edPublic seed ++ m)) % edL
  rb ++ leBytes ((r + k * a) % edL) 32

/-- A signature of a message is accepted under a public key: the cofactorless equation, canonical encodings only (R443). -/
def edVerify (key m sig : List Byte) : Bool :=
  let rb := sig.take 32
  let sn := leNat (sliceBytes sig 32 32)
  match edDecode rb, edDecode key with
  | some r, some a =>
    let k := leNat (sha512 (rb ++ key ++ m)) % edL
    decide (sn < edL) && edSame (edMul 256 sn edBase) (edAdd r (edMul 256 k a))
  | _, _ => false

end Sys2Proof.Machine
end

