-- ==== Sys2Proof/Machine/BootStart.lean ====
section
/-! DEFINITION. The flash image and its checks, the choice of a slot, wakes, the first steps of boot, recovery, the ends of the abrupt-loss sequence, reboot and SLEEP (R306, R438 to R453, R459, R480 to R487, R494, R495, R530). -/

namespace Sys2Proof.Machine

/-! The image (R440 to R446). -/

/-- First flash byte of a slot: 0 = A, 1 = B (R439). -/
def slotBase (s : State) (i : Nat) : Nat := i * (s.slate.flashSize / 2)

/-- The header of a slot (R440). -/
def slotHeader (s : State) (i : Nat) : List Byte := flashBytes s (slotBase s i) 64

/-- Check 0x03 of a header (R440, R449). -/
def imageHeaderOk (s : State) (h : List Byte) : Bool :=
  leAt h 0 4 == 0x4D495047 && leAt h 4 2 == 4 && leAt h 6 2 == 64 && leAt h 0x15 3 == 0
    && decide (leAt h 8 4 ≤ s.slate.flashSize / 2) && decide (2 ≤ leAt h 0x12 1) && decide (leAt h 0x12 1 ≤ 32)

/-- The signed region of a slot: header and section table (R443). -/
def signedRegion (s : State) (i : Nat) : List Byte := flashBytes s (slotBase s i) (64 + 96 * leAt (slotHeader s i) 0x12 1)

/-- The unconfirmed count of a slot whose signed region has this digest (R450). -/
def unconfirmed (s : State) (i : Nat) (digest : List Byte) : Nat :=
  match s.slate.log.slots.getD i none with
  | some (d, n) => if d = digest then n else 0
  | none => 0

/-- The log's entry of a slot set (R450). -/
def setUnconfirmed (s : State) (i : Nat) (digest : List Byte) (n : Nat) : State :=
  setSlate s fun x => { x with log := { x.log with slots := if h : i < 2 then x.log.slots.set i (some (digest, n)) else x.log.slots } }

/-- An image's key is accepted (R446). -/
def keyOk (o : Otp) (slot : Nat) (key : List Byte) : Bool :=
  let d := sha512 key
  match slot with
  | 0 => !o.lock && d == o.vendor
  | 1 => !o.revoked[0] && o.customer[0] == some d
  | 2 => !o.revoked[1] && o.customer[1] == some d
  | _ => false

/-- An entry of the section table: its 96 bytes. -/
def tableEntry (region : List Byte) (j : Nat) : List Byte := sliceBytes region (64 + 96 * j) 96

/-- One entry keeps R441 and its own limits of R442. -/
def entryOk (imageBytes j : Nat) (e : List Byte) : Bool :=
  let ty := leAt e 0 1
  let off := leAt e 4 4
  let len := leAt e 8 4
  let addr := leAt e 0x10 8
  leAt e 1 3 == 0 && leAt e 0x0C 4 == 0 && leAt e 0x18 8 == 0
    && off % 4096 == 0 && decide (4096 ≤ off) && decide (1 ≤ len) && decide (off + len ≤ imageBytes)
    && (if ty = 3 then addr % 8 == 0 && decide (addr < 2 ^ 40) else addr == 0)
    && ((decide (1 ≤ ty) && decide (ty ≤ 7)) || decide (0x80 ≤ ty))
    && (ty == 1) == (j == 0)
    && (ty != 4 || decide (len ≤ 786432)) && (ty != 5 || len == 12288) && (ty != 6 || len == 512)

/-- Check 0x08: the section table (R441, R442). -/
def tableOk (region : List Byte) : Bool :=
  let n := leAt region 0x12 1
  let bytes := leAt region 8 4
  let es := (List.range n).map fun j => tableEntry region j
  let count (ty : Nat) : Nat := (es.filter fun e => leAt e 0 1 == ty).length
  let apart (a b : List Byte) : Bool := decide (leAt a 4 4 + leAt a 8 4 ≤ leAt b 4 4) || decide (leAt b 4 4 + leAt b 8 4 ≤ leAt a 4 4)
  ((List.range n).all fun j => entryOk bytes j (es.getD j []))
    && count 2 == 1 && decide (count 4 ≤ 1) && decide (count 5 ≤ 1) && decide (count 6 ≤ 1) && decide (count 7 ≤ 1)
    && ((List.range n).all fun j => (List.range j).all fun k => apart (es.getD j []) (es.getD k []))

/-- The fields of offset `o` of region `r` that are WO (R169, R198, R217, R244, R270, R309, R338, R341, R358, R378, R400, R423, R459, R477, R497, R501). -/
def woMask (r o : Nat) : Word :=
  if r = 0 then
    if o = 0x200 then 0xFFFF0001 else if o = 0x204 then 0x0001FFFF else if o = 0x300 then 0x3 else if o = 0x640 then 0xFFFF0009
    else if o = 0x800 then 0xFFFF0003 else if o = 0x80C then 0xFFFF0007 else if o = 0xA00 then 0x1 else if o = 0xC3C then 0xFFFFFFFF else 0
  else if r ≤ 2 then (if o = 0x100 then 0x19 else 0)
  else if r = 3 then (if inArr o 0x120 4 0x100 then 0x80 else if o = 0x510 then 0x80000000 else 0)
  else if 8 ≤ r ∧ r < 12 then (if o = 0x100 then 0x1 else 0)
  else if r = 12 then (if o = 0x128 then 0x7 else 0)
  else if r = 13 then (if o = 0x30C then 0x1 else if o = 0x310 then 0xFE else if o = 0x400 then 0xC0000000 else 0)
  else if r = 14 then
    if o = 0x10C then 0x203 else if o = 0x128 then 0xF else if o = 0x200 then 0x1 else if o = 0x308 then 0x80000000 else 0
  else if r = 15 then
    if o = 0x12C then 0x3 else if o = 0x800 then 0x20 else if o = 0x808 then 0x1 else if inArr o 0x900 4 0x20 then 0x300 else 0
  else 0

/-- Regions that an image's BOOT_FLAGS call for (R452). -/
def bootRegions (flags : Nat) : List Nat := if bitAt flags 0 then [8, 9, 10, 11, 1, 2, 14, 15, 3, 4, 5, 6, 7, 12, 13] else [1, 2, 14, 15]

/-- The register entries of a section's bytes: offset and value (R444). -/
def regEntries (bs : List Byte) : List (Nat × Word) :=
  (List.range (bs.length / 8)).map fun i => (leAt bs (8 * i) 4, BitVec.ofNat 32 (leAt bs (8 * i + 4) 4))

/-- A register entry keeps R444. -/
def regEntryOk (flags : Nat) (e : Nat × Word) : Bool :=
  let r := e.1 / 0x100000
  let o := e.1 % 0x100000
  e.1 % 4 == 0 && decide (e.1 < 0x1000000) && (r == 0 || (bootRegions flags).contains r) && e.2 &&& woMask r o == 0
    && !(r == 0 && ([0x800, 0x80C, 0xA00, 0x300, 0x640].contains o || (decide (0x840 ≤ o) && decide (o < 0x880))))

/-- A SETTINGS section keeps R444. -/
def settingsOk (bs : List Byte) : Bool :=
  let n := leAt bs 6 2
  leAt bs 0 4 == 0x54455347 && leAt bs 4 1 == 1 && decide (leAt bs 5 1 < 8) && decide (n ≤ 4095) && bs.length == 16 + 8 * n
    && leAt bs 8 8 % 4096 == 0 && (regEntries (bs.drop 16)).all fun e => regEntryOk (leAt bs 5 1) e

/-- The bytes of a section, given type, flash offset, length, load address and digest. -/
def sectionBytes (s : State) (x : Nat × Nat × Nat × Nat × List Byte) : List Byte := flashBytes s x.2.1 x.2.2.1

/-- A section's SHA-512 is its DIGEST (R441). -/
def sectionGood (s : State) (x : Nat × Nat × Nat × Nat × List Byte) : Bool := sha512 (sectionBytes s x) == x.2.2.2.2

/-- The sections of a slot whose table has passed. -/
def sectionsOf (s : State) (i : Nat) (region : List Byte) : List (Nat × Nat × Nat × Nat × List Byte) :=
  (List.range (leAt region 0x12 1)).map fun j =>
    let e := tableEntry region j
    (leAt e 0 1, slotBase s i + leAt e 4 4, leAt e 8 4, leAt e 0x10 8, sliceBytes e 0x20 64)

/-- Checks 0x02 to 0x08 of a slot, then those of its SETTINGS before any region is powered; the count rises once check 0x06 has passed (R449, R450, R452). -/
def slotCheck (s : State) (i : Nat) : State × Except Nat BootImage :=
  let h := slotHeader s i
  let region := signedRegion s i
  let digest := sha512 region
  let n := unconfirmed s i digest
  let key := sliceBytes h 0x20 32
  let minRev := leAt h 0x10 2
  let s := flashSend s (s.slate.flashPort ++ [flashReadCmd s (slotBase s i) (region.length + 64)])
  if n = 3 then (s, .error 2)
  else if !imageHeaderOk s h then (s, .error 3)
  else if (readReg s sltDeviceRev).toNat % 65536 < minRev then (s, .error 4)
  else if !keyOk s.slate.otp (leAt h 0x13 1) key then (s, .error 5)
  else if !edVerify key region (flashBytes s (slotBase s i + region.length) 64) then (s, .error 6)
  else
    let s := setUnconfirmed s i digest (n + 1)
    if leAt h 0x14 1 < s.slate.otp.rollback then (s, .error 7)
    else if !tableOk region then (s, .error 8)
    else
      let secs := sectionsOf s i region
      match secs with
      | [] => (s, .error 8)
      | set :: _ =>
        let bs := sectionBytes s set
        if !sectionGood s set then (s, .error 9)
        else if !settingsOk bs then (s, .error 10)
        else (s, .ok {
          slot := i, base := slotBase s i, seq := leAt h 0x0C 4, keySlot := leAt h 0x13 1, secVersion := leAt h 0x14 1
          digest := digest, sections := secs, flags := leAt bs 5 1, calmapBase := leAt bs 8 8 })

/-! What the boot registers show (R445, R456, R459). -/

/-- A byte field shown in registers, bytes 4i to 4i + 3 in each (R459). -/
def showBytes (s : State) (key : Nat → Nat) (bs : List Byte) : State :=
  (List.range (bs.length / 4)).foldl (fun s i => setReg s (key i) (BitVec.ofNat 32 (leAt bs (4 * i) 4))) s

/-- SLT_OTP_STATUS follows OTP (R459). -/
def otpShow (s : State) : State :=
  let o := s.slate.otp
  let w := readReg s sltOtpStatus
  setReg s sltOtpStatus (BitVec.ofNat 32 (o.rollback % 256 * 65536 + fld w 8 8 * 256 + b2n o.lock * 128 + b2n o.revoked[1] * 64
    + b2n o.revoked[0] * 32 + b2n o.customer[1].isSome * 16 + b2n o.customer[0].isSome * 8 + b2n s.slate.otpRun.isSome))

/-- SLT_BOOT_STATUS and SLT_BOOT_DIGEST follow the image; the slots' reasons stay (R459). -/
def bootShow (s : State) : State :=
  let st := match s.slate.boot with
    | .done => 1
    | .recovery => 2
    | _ => 0
  let w := setFld (readReg s sltBootStatus) 30 2 st
  match s.slate.image with
  | none => setReg (showBytes s sltBootDigest (List.replicate 64 0)) sltBootStatus (w &&& 0xC0FFFF00)
  | some i =>
    let n := unconfirmed s i.slot i.digest
    let w := setFld (setFld w 29 1 i.slot) 28 1 (b2n (n == 0))
    let w := setFld (setFld (setFld w 26 2 i.keySlot) 24 2 n) 0 8 i.secVersion
    setReg (showBytes s sltBootDigest i.digest) sltBootStatus w

/-- Boot's step changed. -/
def setBoot (s : State) (b : BootStep) : State := bootShow (setSlate s fun x => { x with boot := b })

/-- The newest calibration record whose CRC is good, oldest entry first. -/
def calRecordOf (l : List LogEntry) : Option (List Byte) :=
  (l.filterMap fun e => match e with
    | .record bs => if leAt bs 0 1 = 0x11 ∧ bs.length = 128 ∧ crc32 (bs.take 124) = BitVec.ofNat 32 (leAt bs 124 4) then some bs else none
    | _ => none).getLast?

/-- The calibration constants at boot: the newest record's, or the factory's (R397). -/
def calApply (s : State) : State :=
  match calRecordOf s.slate.log.entries with
  | some bs =>
    let s := setF (setReg s sltCalGain (BitVec.ofNat 32 (leAt bs 4 4))) sltCalOffset 0 16 (leAt bs 8 2)
    let s := setReg (setReg s sltCalTimeSecLo (BitVec.ofNat 32 (leAt bs 12 4))) sltCalTimeSecHi (BitVec.ofNat 32 (leAt bs 16 4))
    let s := setF s sltCalStatus 27 1 0
    setTherm s fun t => { t with sg := Vector.ofFn fun (i : Fin 60) => ((1000000 : Int) + 200 * signedOf (leAt bs (24 + i.val) 1) 8).toNat }
  | none =>
    let s := setF (setReg s sltCalGain (regReset sltCalGain)) sltCalOffset 0 16 (regReset sltCalOffset).toNat
    setF (setTherm s fun t => { t with sg := Vector.replicate 60 1000000 }) sltCalStatus 27 1 1

/-! Choosing a slot, recovery (R448 to R452). -/

/-- The slots in the order in which they are taken; NEXT_SLOT is used once (R448). -/
def slotOrder (s : State) : List Nat × State :=
  let seq (i : Nat) : Int := let h := slotHeader s i; if imageHeaderOk s h then leAt h 0x0C 4 else -1
  match s.slate.log.nextSlot with
  | 0 => (if seq 0 < seq 1 then [1, 0] else [0, 1], s)
  | n =>
    let s := setF (setSlate s fun x => { x with log := { x.log with nextSlot := 0 } }) sltBootCtrl 2 2 0
    (if n = 2 then [1, 0] else [0, 1], s)

/-- A slot has failed: its reason is kept and raised (R451, R460). -/
def slotFailed (s : State) (i reason : Nat) : State :=
  let s := setSlate s fun x => { x with tried := x.tried ++ [i] }
  powerEvent (setF s sltBootStatus (if i = 0 then 8 else 16) 8 reason) 2 0x160 (i + 256 * reason)

/-- Recovery is entered; `flint` tells reason FLINT (R451, R452). -/
def enterRecovery (s : State) (flint : Bool) : State :=
  let s := setSlate s fun x => { x with image := none }
  let s := setPwr (setBoot s .recovery) fun p => { p with mode := .recovery }
  powerEvent s 3 0x161 (getF s sltBootStatus 8 8 + 256 * getF s sltBootStatus 16 8 + 65536 * (if flint then 0x0C else 0))

/-- Step 4: the regions that the image calls for power up (R452). A region out of service stays off (R548). -/
def bootPower (s : State) (img : BootImage) : State :=
  let s := setBoot (setSlate s fun x => { x with image := some img }) .powering
  powerTake s ((bootRegions img.flags).filter fun r => !(ctlOf s r).outOfService) true

/-- Slots are tried in order until one is taken; with none left the P9 enters recovery (R448, R451). -/
def bootSlots (s : State) : List Nat → State
  | [] => enterRecovery s false
  | i :: r =>
    match slotCheck s i with
    | (s, .ok img) => bootPower s img
    | (s, .error reason) => bootSlots (slotFailed s i reason) r

/-- Step 3: the flash is identified and the slots not yet tried are taken in order (R438, R448, R449). -/
def bootChoose (s : State) : State :=
  if s.slate.flashSize < 33554432 ∨ 268435456 < s.slate.flashSize then
    enterRecovery (([0, 1].filter fun i => !s.slate.tried.contains i).foldl (fun s i => slotFailed s i 1) s) false
  else
    let (order, s) := slotOrder (flashSend s [(0x66, 0, 0), (0x99, 0, 0), (0x9F, 0, 0), (0x5A, 0, 0)])
    bootSlots s (order.filter fun i => !s.slate.tried.contains i)

/-- The lease is NONE, with no change of it in progress. -/
def leaseClear (s : State) : State :=
  leaseShow (setLease (setHolder s none) fun l => { lastAction := l.lastAction })

/-- Every region that Slate powered for the slot powers down (R451). -/
def bootUnwind (s : State) : State :=
  powerTake (leaseClear s) (((List.range 16).drop 1).filter fun r => !isOff s r) false

/-- A slot fails once regions are powered: they power down first (R451). -/
def slotUnwinds (s : State) (reason : Nat) : State :=
  match s.slate.image with
  | none => s
  | some i => bootUnwind (setBoot (setSlate (slotFailed s i.slot reason) fun x => { x with image := none }) .unwinding)

/-! Wakes (R393, R482, R530). -/

/-- Steps 2 and 3 of boot: OTP and the log are read, the flash is identified and a slot chosen (R438, R448, R452, R456, R459). -/
def bootSteps (s : State) : State :=
  let o := s.slate.otp
  let s := showBytes (showBytes (showBytes s sltDeviceSerial o.serial) sltDeviceCert o.cert) sltDevicePubkey (edPublic o.seed)
  let s := setF s sltBootCtrl 2 2 s.slate.log.nextSlot
  bootChoose (calApply (otpShow (setBoot s .powering)))

/-- Step 1 of boot ends 2.012 ms after the wake: Slate's clock runs and host ports answer (R452, R482, R484). -/
def clockRuns (s : State) : State := if s.slate.boot = .clock ∧ s.slate.clockAt ≤ s.now then bootSteps s else s

/-- Boot begins at a wake with its source: REFCLK_EN rises (R452, R482). -/
def bootStart (s : State) (src : Nat) : State :=
  let s := setPwr s fun p => { p with
    mode := .boot, refclkEn := true, wakeHeld := none, clockLost := false, sleeping := false, sleepHeld := false }
  let s := setTherm s fun t => { t with cooling := false }
  let s := setObs s fun o => { o with afterOff := 0 }
  let s := setSlate s fun x => { x with
    boot := .clock, clockAt := s.now + 2012000, settings := [], image := none, tried := [], rebootHeld := false, granted := false, panelPowered := false, reports := 0 }
  let s := setReg s sltBootStatus 0
  let s := setF s sltWakeStatus 28 4 src
  powerEvent s 2 0x184 (src + 16 * getF s sltWakeStatus 24 4)

/-- A wake: it is held while PFAIL_N is low and during the cooling after a shutdown; the first that is held acts (R393, R530). -/
def wake (s : State) (src : Nat) : State :=
  if s.power.pfailLow || (s.therm.cooling && src != 8) then
    setPwr s fun p => { p with mode := .standby, wakeHeld := if p.wakeHeld.isSome then p.wakeHeld else some src }
  else bootStart s src

/-- A wake whose source SLT_WAKE_CTRL enables, from STANDBY; while REFCLK is lost the P9 waits for its return (R482, R487). -/
def wakeIf (s : State) (bit src : Nat) : State :=
  if s.power.mode = .standby && !s.power.clockLost && getB s sltWakeCtrl bit then wake s src else s

/-! The ends of the abrupt-loss sequence (R306, R391, R487, R494, R495). -/

/-- The reset of SYS_RESET_N applies; with the pin high again it is also a wake (R494, R495). -/
def sysResetApply (s : State) : State :=
  let s := chipReset s 2
  if s.power.resetPin then s else wake s 2

/-- What follows the abrupt-loss sequence: 1 PFAIL, 2 SYS_RESET, 3 REFCLK, 4 THERMAL (R306, R391, R487, R495). A PFAIL_N that fell meanwhile has its own entry (R391). -/
def lossContinues (s : State) (next : Nat) : State :=
  let waits := s.power.resetWaits
  let s :=
    if next = 1 then resetCause (setPwr (isolate s) fun p => { p with mode := .standby, refclkEn := false, clockLost := false }) 6
    else if next = 2 then sysResetApply s
    else if next = 3 then resetCause (setPwr (isolate s) fun p => { p with mode := .standby, clockLost := true }) 4
    else if next = 4 then thermalDown s
    else s
  let s := if 2 ≤ next && s.power.pfailLow then logAdd s (.loss 6 1) else s
  if waits && next != 2 then sysResetApply s else s

/-- A cause runs the steps of R306, or joins those that run; where only the log entry is written, what follows comes at once. -/
def lossBegins (s : State) (reason next : Nat) : State :=
  match s.obs.safeCause with
  | some c => setObs s fun o => { o with safeCause := some { c with next := if c.next = 0 then next else c.next } }
  | none =>
    let idle := lossAtOnce s reason
    let s := abruptLoss s ⟨reason, next⟩
    if idle then lossContinues s next else s

/-- Boot ends where it is (R453). -/
def bootStops (s : State) : State := if s.power.mode = .boot then setBoot s .idle else s

/-- The abrupt-loss sequence that runs is one that ends in a shutdown or a reset of its own: a fall of PFAIL_N leaves its steps unchanged (R391, R487, R495). -/
def lossBound (s : State) : Bool :=
  match s.obs.safeCause with
  | some c => c.next != 0
  | none => false

/-- PFAIL_N falls, or a monitored rail collapses: the abrupt-loss sequence, from any mode in which Slate is powered (R306, R453, R495, R536). -/
def pfailFalls (s : State) : State :=
  if s.power.mode = .off || s.power.mode = .boot && s.slate.boot == .idle then s
  else
    let fresh := s.power.mode = .boot && !s.slate.panelPowered && s.obs.safeCause.isNone
    let s := bootStops (setObs s fun o => { o with heldReq := none, afterOff := 0 })
    if lossBound s then s
    else if fresh then lossContinues s 1
    else lossBegins (setObs (if lossAtOnce s 6 then s else obsEvent s 3 0x090 6) fun o => { o with safeCause := none }) 6 1

/-- The log entry is written and STATE becomes SAFE (R306). -/
def abruptLossEnds (s : State) : State :=
  match s.obs.safeCause with
  | some c => if s.obs.step = .dischargeEnd then lossContinues (abruptEnds s c true) c.next else s
  | none => s

/-- REFCLK has failed: 1 STOPPED, 2 RATE (R486, R487). -/
def refclkFails (s : State) (cause : Nat) : State :=
  let s := setPwr s fun p => { p with refclkFault := true, clockLost := true }
  let s := powerEvent s 3 0x182 (cause + 65536 * wrapInt s.power.refDev 16)
  let s := bootStops s
  let s := if s.obs.safeCause.isSome || s.obs.state == .safe then s else obsEvent s 3 0x090 1
  lossBegins s 1 3

/-- SYS_RESET_N falls (R495). -/
def sysResetFalls (s : State) : State :=
  let s := setPwr s fun p => { p with resetPin := true }
  if s.power.mode = .off then s
  else if s.obs.safeCause.isSome then setPwr s fun p => { p with resetWaits := true }
  else if s.obs.state == .off || s.obs.state == .safe then sysResetApply s
  else lossBegins (bootStops s) 0 2

/-! Reboot and SLEEP (R305, R453, R459, R480). -/

/-- The reboot itself: chip reset, then boot from step 1 (R459, R494). -/
def rebootNow (s : State) : State := wake (chipReset s 3) 0xA

/-- STANDBY is reached when every other region is off: DRAM_PWR_EN and REFCLK_EN fall (R480). -/
def sleepSettles (s : State) : State :=
  if s.power.sleeping && ((List.range 16).drop 1).all (fun r => isOff s r) then
    let s := leaseClear (setPwr s fun p => { p with mode := .standby, refclkEn := false, dramPwrEn := false, sleeping := false })
    resetCause (setSlate s fun x => { x with boot := .idle }) 7
  else s

/-- Step 2 of R480: every region except Slate powers down. -/
def sleepNow (s : State) : State :=
  let s := calAbort (setPwr (setObs s fun o => { o with afterOff := 0 }) fun p => { p with sleeping := true })
  sleepSettles (powerTake s ((List.range 16).drop 1) false)

/-- A reboot (1) or a SLEEP (2) goes on once the panel is off or in the safe state; a power-on that runs ends first (R305, R307, R459, R480). -/
def afterPanel (s : State) : State :=
  if s.obs.afterOff = 0 || s.obs.safeCause.isSome then s
  else if s.obs.state == .off || s.obs.state == .safe then
    if s.obs.afterOff = 1 then rebootNow s else sleepNow s
  else s

/-- A reboot or a SLEEP is asked for: the panel powers off first. -/
def panelThen (s : State) (what : Nat) : State :=
  let s := setObs s fun o => { o with heldReq := none }
  afterPanel (setObs (powerAsk s false) fun o => { o with afterOff := what })

/-- REBOOT: held during boot (R453, R459). -/
def rebootAsk (s : State) : State :=
  match s.power.mode with
  | .boot => if s.slate.boot == .idle then s else setSlate s fun x => { x with rebootHeld := true }
  | .recovery => panelThen s 1
  | .run => panelThen s 1
  | _ => s

/-- SLEEP: held during boot (R480). -/
def sleepAsk (s : State) : State :=
  match s.power.mode with
  | .boot => if s.slate.boot == .idle then s else setPwr s fun p => { p with sleepHeld := true }
  | .recovery => panelThen s 2
  | .run => if s.obs.afterOff = 1 || s.power.sleeping then s else panelThen s 2
  | _ => s

/-- Boot has ended, in service or in recovery: a held REBOOT acts, else a held SLEEP (R453, R480). -/
def bootEnded (s : State) : State :=
  if s.power.mode = .boot then s
  else if s.slate.rebootHeld then rebootAsk (setSlate s fun x => { x with rebootHeld := false })
  else if s.power.sleepHeld then sleepAsk (setPwr s fun p => { p with sleepHeld := false })
  else s

/-- CONFIRM: the booted slot's count becomes 0; ignored during boot (R450, R453). -/
def confirmSlot (s : State) : State :=
  match s.slate.boot, s.slate.image with
  | .done, some i => bootShow (setUnconfirmed s i.slot i.digest 0)
  | _, _ => s

/-- A write of SLT_BOOT_CTRL (R448, R450, R459). -/
def bootCtrlWrite (s : State) (v : Word) : State :=
  let s := writeKey s sltBootCtrl v
  let s := setSlate s fun x => { x with log := { x.log with nextSlot := getF s sltBootCtrl 2 2 } }
  let s := if flag v 1 then confirmSlot s else s
  if flag v 0 && fld v 16 16 == 0xB007 then rebootAsk s else s

/-- A write of SLT_PWR_CTRL (R480). -/
def pwrCtrlWrite (s : State) (v : Word) : State := if flag v 0 && fld v 16 16 == 0x5EE9 then sleepAsk s else s

end Sys2Proof.Machine
end

