-- ==== Sys2Proof/Machine/Slate.lean ====
section
/-! DEFINITION. Slate's services: OTP actions, attestation, flash operations, doorbells and the mailbox, wake and clock monitoring (R439, R447, R456 to R458, R474 to R476, R486). -/

namespace Sys2Proof.Machine

/-! OTP (R445, R447). -/

/-- The data of SLT_OTP_DATA_0 to SLT_OTP_DATA_15, byte 0 first (R447). -/
def otpData (s : State) : List Byte := (List.range 16).flatMap fun i => leBytes (readReg s (sltOtpData i)).toNat 4

/-- A write of SLT_OTP_CTRL: an action with its key runs unless one does (R447). -/
def otpCtrlWrite (s : State) (v : Word) : State :=
  let a := fld v 0 3
  if fld v 16 16 ≠ 0x5A17 ∨ s.slate.otpRun.isSome ∨ a = 0 ∨ a = 7 then s
  else otpShow (setSlate s fun x => { x with otpRun := some (a, otpData s) })

/-- KEY_SLOT of the booted image. -/
def bootedKey (s : State) : Option Nat := s.slate.image.map fun i => i.keySlot

/-- The effect of an action on OTP; none where it is refused (R447). -/
def otpAction (s : State) (a : Nat) (data : List Byte) : Option Otp :=
  let o := s.slate.otp
  if a = 1 then (if o.customer[0].isSome then none else some { o with customer := o.customer.set 0 (some data) })
  else if a = 2 then (if o.customer[1].isSome then none else some { o with customer := o.customer.set 1 (some data) })
  else if a = 3 then (if bootedKey s = some 1 then none else some { o with revoked := o.revoked.set 0 true })
  else if a = 4 then (if bootedKey s = some 2 then none else some { o with revoked := o.revoked.set 1 true })
  else if a = 5 then
    let usable (i : Fin 2) : Bool := o.customer[i].isSome && !o.revoked[i]
    if bootedKey s = some 0 || !(usable 0 || usable 1) then none else some { o with lock := true }
  else
    match s.slate.image with
    | some i => if i.secVersion ≤ o.rollback then none else some { o with rollback := min 64 i.secVersion }
    | none => none

/-- OTP_WRITTEN: the action's end, or its refusal (R447, R460). -/
def otpWritten (s : State) : State :=
  match s.slate.otpRun with
  | none => s
  | some (a, data) =>
    let out := otpAction s a data
    let result := if out.isSome then 1 else 2
    let s := setSlate s fun x => { x with otpRun := none, otp := out.getD x.otp }
    powerEvent (setF (otpShow s) sltOtpStatus 8 8 result) 2 0x164 (a + 256 * result)

/-! Attestation (R456 to R458). -/

/-- SLT_ATTEST_STATUS of a host: BUSY follows the reports that are being formed (R459). -/
def attestShow (s : State) (h : HostId) : State :=
  setF s (hostKey h sltAttestStatus) 1 1 (b2n (s.slate.attest.any fun x => x.1 == h))

/-- A host's nonce registers. -/
def nonceOf (s : State) (h : HostId) : List Byte := (List.range 8).flatMap fun i => leBytes (readReg s (hostKey h (sltAttestNonce i))).toNat 4

/-- START: a report is asked for, with the nonce as it stands (R458). -/
def attestStart (s : State) (h : HostId) : State :=
  if s.slate.attest.any fun x => x.1 == h then s
  else attestShow (setSlate s fun x => { x with attest := x.attest ++ [(h, nonceOf s h)] }) h

/-- Major and minor of a protocol level, one byte each (R457, R462). -/
def levelBytes (level : Nat) : List Byte := [[0, 0], [1, 0], [2, 0], [2, 1]].getD level [0, 0]

/-- ISA of the loaded frame program (R457). -/
def programIsa (s : State) : List Byte :=
  match (flintOf s .a).minor, (flintOf s .b).minor with
  | some n, _ => [1, BitVec.ofNat 8 n]
  | none, some n => [1, BitVec.ofNat 8 n]
  | none, none => [0, 0]

/-- The first 192 bytes of a report (R457). -/
def attestBody (s : State) (nonce : List Byte) (count : Nat) : List Byte :=
  let o := s.slate.otp
  let i := s.slate.image
  let flags := b2n o.lock + 2 * b2n (getB s sltBootStatus 28 && i.isSome) + 4 * b2n s.scan.paired + 8 * b2n (dramUp s)
    + 16 * getF s sltCalStatus 27 1
  leBytes 0x54544147 4 ++ leBytes 1 2 ++ leBytes 256 2 ++ o.serial ++ leBytes (readReg s sltDeviceRev).toNat 2
    ++ leBytes ((i.map fun x => x.slot).getD 0) 1
    ++ leBytes ((i.map fun x => x.keySlot).getD 0) 1 ++ leBytes ((i.map fun x => x.secVersion).getD 0) 1 ++ leBytes o.rollback 1
    ++ leBytes flags 2 ++ nonce ++ ((i.map fun x => x.digest).getD (List.replicate 64 0))
    ++ leBytes s.time.sec 8 ++ leBytes s.time.ns 4 ++ leBytes count 4 ++ [1, 2] ++ programIsa s
    ++ levelBytes (hostOf s .a).level ++ levelBytes (hostOf s .b).level
    ++ leBytes (holderCode (holder s)) 1 ++ leBytes 4 1 ++ leBytes 0 2
    ++ leBytes (s.retired.length + s.quarantined.length) 4 ++ List.replicate 32 0

/-- ATTEST_DONE: the report is signed and placed, and the next waits (R458, R460). -/
def attestDone (s : State) (h : HostId) : State :=
  match s.slate.attest with
  | [] => s
  | (g, nonce) :: r =>
    if g ≠ h then s
    else
      let n := s.slate.reports + 1
      let body := attestBody s nonce n
      let s := setSlate s fun x => { x with attest := r, reports := n }
      let s := showBytes s (fun i => hostKey h (sltAttestReport i)) (body ++ edSign s.slate.otp.seed body)
      let s := setF (attestShow s h) (hostKey h sltAttestStatus) 0 1 1
      raise s 1 0 0x163 2 0xFF ((if h = .b then 1 else 0) + 256 * n)

/-- A write of a nonce register clears the host's VALID (R458). -/
def nonceWrite (s : State) (k : Nat) (v : Word) : State :=
  let h : HostId := if 0x1000000 ≤ k then .b else .a
  setF (writeKey s k v) (hostKey h sltAttestStatus) 0 1 0

/-! Flash operations (R438, R439, R476). -/

/-- A program or erase of [a, a + n) is refused (R439). -/
def flashProtected (s : State) (a n : Nat) : Bool :=
  match s.power.mode with
  | .boot => true
  | _ =>
    match s.slate.image with
    | none => false
    | some i => decide (a < i.base + s.slate.flashSize / 2) && decide (i.base < a + n)

/-- BUSY of the hosts' SLT_HOST_FLASH_STATUS (R477). -/
def flashShow (s : State) : State :=
  [HostId.a, .b].foldl (fun s h =>
    setF s (hostKey h sltHostFlashStatus) 31 1 (b2n (match s.slate.flashOp with | some o => o.host == h | none => false))) s

/-- The commands of a program or an erase: write enable, the operation, status polling (R476). -/
def flashOpCmds (f : FlashSfdp) (o : FlashOp) : List (Nat × Nat × Nat) :=
  let op : List (Nat × Nat × Nat) := match o.program, o.erase with
    | some (a, bs), _ => [(if f.quadProgram then 0x34 else 0x12, a, bs.length)]
    | none, some (a, n) => [(if n = 4096 then 0x21 else 0xDC, a, 0)]
    | none, none => []
  (0x06, 0, 0) :: op ++ [(0x05, 0, 1)]

/-- A flash operation starts (R476). -/
def flashStart (s : State) (o : FlashOp) : State :=
  flashShow (flashSend (setSlate s fun x => { x with flashOp := some o }) (flashOpCmds s.slate.flashSfdp o))

/-- One byte of the flash changed. -/
def flashPut (s : State) (a : Nat) (b : Byte) : State :=
  setSlate s fun x => { x with flash := smWrite (fun _ => 0xFF) x.flash a b }

/-- The contents after an operation that went well: a program clears bits, an erase sets them. -/
def flashApply (s : State) (o : FlashOp) : State :=
  let s := match o.program with
    | some (a, bs) => (List.range bs.length).foldl (fun s i => flashPut s (a + i) (flashByte s (a + i) &&& bs.getD i 0)) s
    | none => s
  match o.erase with
  | some (a, n) => setSlate s fun x => { x with flash := x.flash.filter fun e => !(decide (a ≤ e.1) && decide (e.1 < a + n)) }
  | none => s

/-- The operation ends: 1 DONE, 2 TIMEOUT, 3 ERROR; what a failed one leaves in its range is open (R476, R477). -/
def flashEnds (s : State) (result : Nat) : State :=
  match s.slate.flashOp with
  | none => s
  | some o =>
    let s :=
      if result = 1 then flashApply s o
      else
        let (era, s) := takeFree s 50
        let (a, n) := match o.program, o.erase with
          | some (a, bs), _ => (a, bs.length)
          | none, some x => x
          | none, none => (0, 0)
        (List.range n).foldl (fun s i => flashPut s (a + i) (Config.freeByte (0x3000000 + era) (a + i))) s
    let s := setSlate s fun x => { x with flashOp := none }
    let s := setF (flashShow s) (hostKey o.host sltHostFlashStatus) 0 8 result
    hostIrq s o.host 4

/-! Doorbells and the mailbox (R474, R475). -/

/-- A doorbell reaches every Flint region in service (R150, R474). -/
def doorbell (s : State) (h : HostId) (v : Word) : State :=
  let lo := if h = .b then 16 else 0
  let s := (flintsUp s).foldl (fun s f =>
    let r := flintRegion f
    let s := setReg s (if h = .b then flaDoorbellHb r else flaDoorbellHa r) v
    setF s (flaDoorbellSeq r) lo 16 (getF s (flaDoorbellSeq r) lo 16 + 1)) s
  setFlag s (if h = .b then 19 else 18)

/-- A frame-program write to FLA_HOST_MAIL: every Flint region keeps the value, and the lease holder raises MAILBOX (R475, R478). -/
def mailbox (s : State) (v : Word) : State :=
  let s := (flintsUp s).foldl (fun s f => setReg s (flaHostMail (flintRegion f)) v) s
  match holder s with
  | some f => flintEvent s f 1 0x120 v.toNat
  | none => s

/-! The clock monitor (R486). -/

/-- A REFCLK window of 32 crystal cycles: `cycles` against 97,656.25 (R486). -/
def refclkWindow (s : State) (cycles : Nat) : State :=
  if !s.power.refclkEn || s.power.clockLost || s.slate.boot == .clock then s
  else
    let d : Int := 4 * (cycles : Int) - 390625
    let ppm := ratNear ⟨d * 1000000, 390625⟩
    let beyond (n : Nat) : Bool := decide (n * 390625 < d.natAbs * 1000000)
    let was := s.power.rateBad
    let said := s.power.marginSaid
    let s := setPwr s fun p => { p with
      refDev := ppm, rateBad := beyond 1000, margin := beyond 300, marginSaid := beyond 300 && (said || !beyond 1000) }
    if beyond 1000 then (if was then refclkFails s 2 else s)
    else if beyond 300 && !said then powerEvent s 2 0x185 (65536 * wrapInt ppm 16)
    else s

/-- No REFCLK edge for 1 µs, after the start time of boot step 1 (R486). -/
def refclkStops (s : State) : State :=
  if !s.power.refclkEn || s.power.clockLost || s.slate.boot == .clock then s else refclkFails s 1

/-- The crystal stops or drifts: it holds until the next power-on reset (R486). -/
def xtalFails (s : State) : State :=
  if s.power.xtalFault || s.power.mode == .off then s else powerEvent (setPwr s fun p => { p with xtalFault := true }) 3 0x183 0

/-! Meanings. -/

/-- REBOOT (R453, R459). -/
def execReboot (q : Requester) (v : Word) (s : State) : Out := .next (reqSlate s q fun s => bootCtrlWrite s v)

/-- CONFIRM (R450). -/
def execConfirm (q : Requester) (s : State) : Out := .next (reqSlate s q confirmSlot)

/-- OTP_WRITE_CUSTOMER (R447). -/
def execOtpWriteCustomer (q : Requester) (v : Word) (s : State) : Out := .next (reqSlate s q fun s => otpCtrlWrite s v)

/-- OTP_REVOKE_CUSTOMER (R447). -/
def execOtpRevokeCustomer (q : Requester) (v : Word) (s : State) : Out := .next (reqSlate s q fun s => otpCtrlWrite s v)

/-- OTP_LOCK (R447). -/
def execOtpLock (q : Requester) (v : Word) (s : State) : Out := .next (reqSlate s q fun s => otpCtrlWrite s v)

/-- OTP_ROLLBACK (R447). -/
def execOtpRollback (q : Requester) (v : Word) (s : State) : Out := .next (reqSlate s q fun s => otpCtrlWrite s v)

/-- OTP_WRITTEN (R447). -/
def execOtpWritten (s : State) : Out := .next (otpWritten s)

/-- ATTEST_START (R458). -/
def execAttestStart (h : HostId) (s : State) : Out := .next (reqSlate s (hostReq h) fun s => attestStart s h)

/-- ATTEST_DONE (R458). -/
def execAttestDone (h : HostId) (s : State) : Out := .next (attestDone s h)

/-- FLASH_DONE (R476). -/
def execFlashDone (ok : Bool) (s : State) : Out := .next (flashEnds s (if ok then 1 else 3))

/-- FLASH_TIMEOUT (R476). -/
def execFlashTimeout (s : State) : Out := .next (flashEnds s 2)

/-- DOORBELL (R474). -/
def execDoorbell (h : HostId) (v : Word) (s : State) : Out := .next (reqSlate s (hostReq h) fun s => doorbell s h v)

/-- SLEEP (R480). -/
def execSleep (q : Requester) (v : Word) (s : State) : Out := .next (reqSlate s q fun s => pwrCtrlWrite s v)

/-- PWR_REQUEST (R488). -/
def execPwrRequest (q : Requester) (v : Word) (s : State) : Out := .next (reqSlate s q fun s => powerRequest s v false)

/-- REFCLK_WINDOW (R486). -/
def execRefclkWindow (cycles : Nat) (s : State) : Out := .next (refclkWindow s cycles)

/-- REFCLK_STOPPED (R486). -/
def execRefclkStopped (s : State) : Out := .next (refclkStops s)

/-- XTAL_FAULT (R486). -/
def execXtalFault (s : State) : Out := .next (xtalFails s)

end Sys2Proof.Machine
end

