-- ==== Sys2Proof/Machine/Bus.lean ====
section
/-! DEFINITION. Register accesses as a region serves them: what a write does, what a read returns and latches (R8, R9, R136, R169 to R172, R251, R274, R424, R499 to R514). -/

namespace Sys2Proof.Machine

/-- The host that a requester is; the frame program is none. -/
def hostOfReq (q : Requester) : Option HostId :=
  match q with
  | .ha => some .a
  | .hb => some .b
  | .fp => none

/-- A field write with no behaviour of its own (R8, R9). -/
def plainWrite (s : State) (q : Requester) (r o : Nat) (v : Word) : State := writeKey s (keyOf q r o) v

/-- What a write reaches is fixed while the panel's STATE is not OFF (R274). -/
def panelFixed (s : State) : Bool := s.obs.state != .off

/-- A write in the Slate window (R502). -/
def slateWrite (s : State) (q : Requester) (o : Nat) (v : Word) : State :=
  if perHost 0 o && q == .fp then s
  else if o = 0x200 then pwrCtrlWrite s v
  else if o = 0x204 then powerRequest s v false
  else if o = 0x300 then leaseCtrlWrite s q v
  else if o = 0x600 then thermCtrlWrite s v
  else if o = 0x640 then calCtrlSlate s q v
  else if o = 0x800 then bootCtrlWrite s v
  else if o = 0x80C then otpCtrlWrite s v
  else match hostOfReq q with
    | none => plainWrite s q 0 o v
    | some h =>
      if o = 0xA00 then (if flag v 0 then attestStart s h else s)
      else if 0xA20 ≤ o ∧ o < 0xA40 then nonceWrite s (keyOf q 0 o) v
      else if o = 0xC3C then doorbell s h v
      else plainWrite s q 0 o v

/-- A write in a Flint window (R503). -/
def flintWrite (s : State) (q : Requester) (f : FlintId) (o : Nat) (v : Word) : State :=
  if o = 0x100 then progCtrlWrite s f v
  else if o = 0x200 ∨ o = 0x204 ∨ o = 0x208 then (if panelFixed s then s else plainWrite s q (flintRegion f) o v)
  else plainWrite s q (flintRegion f) o v

/-- A write in the Quartz window (R504). -/
def quartzWrite (s : State) (q : Requester) (o : Nat) (v : Word) : State :=
  if inArr o 0x100 4 0x100 then portCtrlWrite s (Fin.ofNat 4 ((o - 0x100) / 0x100)) v
  else if inArr o 0x120 4 0x100 then linkCtrlWrite s (Fin.ofNat 4 ((o - 0x120) / 0x100)) v
  else if o = 0x510 then eyeWrite s .quartz v
  else plainWrite s q 3 o v

/-- A write in a Bauxite window: only while STATE is OFF (R251, R270). -/
def bauxiteWrite (s : State) (q : Requester) (r o : Nat) (v : Word) : State :=
  if getF s bxtStatus 30 2 ≠ 0 then s
  else
    let s := plainWrite s q r o v
    if o = 0x100 && flag v 0 then bringUp s else s

/-- A write in the Borax window (R507). -/
def boraxWrite (s : State) (q : Requester) (o : Nat) (v : Word) : State :=
  if o = 0x110 then retCtrlWrite s v
  else if o = 0x128 then jobSubmit s q v
  else plainWrite s q 12 o v

/-- A write in the Mica window (R508). -/
def micaWrite (s : State) (q : Requester) (o : Nat) (v : Word) : State :=
  if o = 0x30C then (if flag v 0 then updateRequest s else s)
  else if o = 0x310 then planeMark s v
  else if o = 0x400 then bltCtrlWrite s v
  else if 0x40000 ≤ o then lutWrite s (keyOf q 13 o) v
  else plainWrite s q 13 o v


/-- Bytes written to the pewter buffer from its byte `a` up (R297, R513). -/
def pewterPut (s : State) (a : Nat) (bs : List Byte) : State :=
  setObs s fun o => { o with pewter := (List.range bs.length).foldl (fun m i => smSet m (a + i) (bs.getD i 0)) o.pewter }

/-- A write in the Obsidian window (R509). -/
def obsidianWrite (s : State) (q : Requester) (o : Nat) (v : Word) : State :=
  if o = 0x100 ∨ o = 0x104 ∨ o = 0x108 then (if panelFixed s then s else plainWrite s q 14 o v)
  else if o = 0x10C then panelCtrlWrite s v
  else if o = 0x114 then gtSafeWrite s v
  else if o = 0x128 then pmicCtrlWrite s v
  else if o = 0x200 then calCtrlWrite s v
  else if o = 0x300 then obsLinkWrite s v
  else if o = 0x308 then eyeWrite s .obsidian v
  else if inArr o 0x10000 128 4 then scriptWrite s ((o - 0x10000) / 4) v
  else if 0x40000 ≤ o then pewterPut s (o - 0x40000) (leBytes v.toNat 4)
  else plainWrite s q 14 o v

/-- A write of GRN_TIME_LINK_CTRL: with ENABLE cleared the link is down (R337, R342). -/
def timeLinkCtrlWrite (s : State) (v : Word) : State :=
  let s := writeKey s grnTimeLinkCtrl v
  if !getB s grnTimeLinkCtrl 0 && getB s grnTimeLinkStatus 0 then timeLinkIn s false false else s

/-- A write in the Garnet window (R510). -/
def garnetWrite (s : State) (q : Requester) (o : Nat) (v : Word) : State :=
  if inArr o 0x100 6 4 then audioPortWrite s (Fin.ofNat 6 ((o - 0x100) / 4)) v
  else if o = 0x118 then lockGroupWrite s v
  else if o = 0x12C then (if flag v 1 then audioStop (if flag v 0 then audioArm s v else s) v else audioArm s v)
  else if o = 0x800 then ptpCtrlWrite s v
  else if o = 0x804 then ptpIntervalsWrite s v
  else if o = 0x808 then (let s := plainWrite s q 15 o v; if flag v 0 then timeSet s else s)
  else if o = 0x860 then timeLinkCtrlWrite s v
  else if inArr o 0x900 4 0x20 then trgCtrlWrite s (Fin.ofNat 4 ((o - 0x900) / 0x20)) v
  else plainWrite s q 15 o v

/-- A write of the register at offset `a` from 0xFF_F000_0000; with no effect in a region that does not serve requests (R24, R499, R512). -/
def busWrite (s : State) (q : Requester) (a : Nat) (v : Word) : State :=
  let r := a / 0x100000
  let o := a % 0x100000
  if !serves s r then s
  else if r = 0 then whenSlate s fun s => slateWrite s q o v
  else if r = 1 then flintWrite s q .a o v
  else if r = 2 then flintWrite s q .b o v
  else if r = 3 then quartzWrite s q o v
  else if r < 8 then s
  else if r < 12 then bauxiteWrite s q r o v
  else if r = 12 then boraxWrite s q o v
  else if r = 13 then micaWrite s q o v
  else if r = 14 then obsidianWrite s q o v
  else garnetWrite s q o v

/-! Reads. -/

/-- FLA_SEQ_STATUS (R170). -/
def seqStatus (s : State) (f : FlintId) : Word :=
  let x := flintOf s f
  let st := match x.st with
    | .stopped => 0
    | .running => 1
    | .faulted => 2
    | .halted => 3
  BitVec.ofNat 32 (st * 2 ^ 30 + b2n s.ctrl.load.isSome * 2 ^ 29 + b2n s.ctrl.loadWait.isSome * 2 ^ 28 + x.fault % 16 * 2 ^ 24
    + getF s (flaSeqStatus (flintRegion f)) 16 8 * 2 ^ 16 + x.pc % 16384)

/-- FLA_SHADOW_STATUS (R424). -/
def shadowStatus (s : State) (f : FlintId) : Word :=
  let x := flintOf s f
  let role := match holder s with
    | some g => if g = f then 1 else if x.shadow = .out then 0 else 2
    | none => if x.shadow = .out then 0 else 2
  let sh := match x.shadow with
    | .out => 0
    | .waiting => 1
    | .inShadow => 2
  BitVec.ofNat 32 (role * 2 ^ 30 + sh * 2 ^ 28 + min 4096 x.mirror.length * 2 ^ 15 + x.selftest % 64 * 2 ^ 8)

/-- GAL_SERVICE (R136). -/
def galServiceWord (s : State) (g : Fin 4) : Word :=
  let r := galRegion g
  BitVec.ofNat 32 (sumNat ((List.range 12).map fun b => b2n (!isQuarantined s r b) * 2 ^ (16 + b)) + cellsInService s g)

/-- GAL_CELL_RETIRED of a block (R136). -/
def galRetiredWord (s : State) (g : Fin 4) (b : Nat) : Word :=
  BitVec.ofNat 32 (sumNat ((List.range 32).map fun c => b2n (isRetired s (galRegion g) b c) * 2 ^ c))

/-- What a register shows a requester; a Slate register kept for HA and HB reads 0 to the frame program (R149, R511, R512). -/
def viewReg (s : State) (q : Requester) (a : Nat) : Word :=
  let r := a / 0x100000
  let o := a % 0x100000
  let flint (f : FlintId) : Word :=
    if o = 0x10C then seqStatus s f
    else if o = 0x300 then shadowStatus s f
    else if o = 0x304 then BitVec.ofNat 32 (flintOf s f).action
    else if o = 0x308 then BitVec.ofNat 32 ((flintOf s f).action / 2 ^ 32)
    else readReg s (keyOf q r o)
  if o = 0 then BitVec.ofNat 32 (lastAction s r)
  else if o = 4 then BitVec.ofNat 32 (lastAction s r / 2 ^ 32)
  else if a = sltTieStatus then BitVec.ofNat 32 (b2n s.slate.tie)
  else if r = 0 then (if perHost 0 o && q == .fp then 0 else readReg s (keyOf q 0 o))
  else if r = 1 then flint .a
  else if r = 2 then flint .b
  else if 4 ≤ r ∧ r < 8 then
    let g : Fin 4 := Fin.ofNat 4 (r - 4)
    if o = 0x104 then galServiceWord s g
    else if inArr o 0x140 12 4 then galRetiredWord s g ((o - 0x140) / 4)
    else readReg s (keyOf q r o)
  else if r = 12 ∧ a = brxService then boraxService s
  else if r = 14 ∧ 0x40000 ≤ o then BitVec.ofNat 32 (leNat ((List.range 4).map fun i => pewterByte s (o - 0x40000 + i)))
  else readReg s (keyOf q r o)

/-- What a read latches or takes before its value is given: event queues, captures, the time (R362, R377, R472). -/
def readActs (s : State) (q : Requester) (a : Nat) : State :=
  match hostOfReq q with
  | some h =>
    if a = sltHostEvt 0 then eventQueueRead s h
    else if a = grnTimeSecLo then timeRead s q
    else if inArr a (grnCapNs 0) 4 0x10 then captureRead s (Fin.ofNat 4 ((a - grnCapNs 0) / 0x10)) q
    else s
  | none =>
    if a = grnTimeSecLo then timeRead s q
    else if inArr a (grnCapNs 0) 4 0x10 then captureRead s (Fin.ofNat 4 ((a - grnCapNs 0) / 0x10)) q
    else s

/-- A read of the register at offset `a` from 0xFF_F000_0000: status, value, state (R24, R499, R512). -/
def busRead (s : State) (q : Requester) (a : Nat) : Nat × Word × State :=
  if !serves s (a / 0x100000) then (2, 0, s)
  else
    let s := readActs s q a
    (0, viewReg s q a, s)

/-! Meanings. -/

/-- REGISTER_WRITE: a requester's write of a register (R8, R9, R512). The frame program never writes the Slate window (R149). -/
def execRegisterWrite (q : Requester) (addr : BitVec 24) (v : Word) (s : State) : Out :=
  .next (if addr.toNat % 4 ≠ 0 ∨ (q = .fp ∧ addr.toNat < 0x100000) then s else busWrite (reqAt s q (addr.toNat / 0x100000)) q addr.toNat v)

end Sys2Proof.Machine
end

