-- ==== Sys2Proof/Machine/Ratings.lean ====
section
/-! DEFINITION. The figures of the electrical chapter as data: supplies, limits, currents, levels, timing, package (R517, R531 to R547). Voltages are in millivolts, or in the unit that a name tells. -/

namespace Sys2Proof.Machine

/-- A rail's figures: nominal, operating minimum and maximum, and the limits that no stress may pass, in 0.1 mV; and the number of its balls (R517, R531, R532). -/
structure RailLimits where
  name : String
  nominal : Nat
  min : Nat
  max : Nat
  stressMax : Nat
  balls : Nat
deriving DecidableEq, Repr

/-- The rails that are fed from outside (R517, R531, R532). Below ground no rail may go beyond -0.3 V. -/
def rails : List RailLimits :=
  [⟨"VDD_GAL", 8000, 7760, 8240, 9500, 175⟩, ⟨"VDD_CORE", 7500, 7280, 7720, 9000, 91⟩, ⟨"VDD_DDR", 7500, 7280, 7720, 9000, 80⟩,
   ⟨"VDDQ_DDR", 5000, 4850, 5150, 6500, 128⟩, ⟨"VDD_SL", 7500, 7280, 7720, 9000, 22⟩, ⟨"VDDH_SL", 12000, 11640, 12360, 14000, 22⟩,
   ⟨"VDDIO_1V8", 18000, 17100, 18900, 21000, 3⟩, ⟨"AVDD_ADC", 18000, 17100, 18900, 21000, 1⟩, ⟨"VHOLD", 33000, 30000, 36000, 40000, 2⟩]

/-- A monitored rail's place in `rails` (R536). -/
def railIndex : Rail → Nat
  | .vddGal => 0
  | .vddCore => 1
  | .vddDdr => 2
  | .vddqDdr => 3
  | .vddSl => 4
  | .vddhSl => 5

/-- A monitored rail's operating minimum, in 0.1 mV (R532). -/
def railMin (r : Rail) : Nat := ((rails.map RailLimits.min).getD (railIndex r) 0)

/-- A rail at level `v`, in microvolts, is more than 5 % below its minimum (R536). -/
def railCollapsed (r : Rail) (v : Nat) : Bool := decide (v < railMin r * 95)

/-- VHOLD at which Slate's power-on reset asserts, and above which it releases, in millivolts (R534). -/
def porLevels : Nat × Nat := (2450, 2700)

/-- VHOLD's minimum during the abrupt-loss sequence, in millivolts, and what it draws then at most, in milliamperes (R532, R534). -/
def holdUp : Nat × Nat := (2500, 60)

/-- The capacitor that an abrupt-loss sequence of `us` microseconds needs, in microfarads rounded up, from `mv` millivolts on VHOLD (R534). -/
def holdCapacitor (us mv : Nat) : Nat := (60 * us + (mv - 2501)) / (mv - 2500)

/-- A rail's currents in milliamperes: full load typical and maximum, pewter mode typical (R533). -/
def currents : List (String × Nat × Nat × Nat) :=
  [("VDD_GAL", 75000, 100000, 0), ("VDD_CORE", 12300, 13900, 1600), ("VDD_DDR", 10700, 13300, 0), ("VDDQ_DDR", 12000, 15000, 0),
   ("VDD_SL", 9600, 11200, 800), ("VDDH_SL", 9000, 10500, 1000), ("VDDIO_1V8", 170, 250, 10), ("AVDD_ADC", 17, 28, 17),
   ("VHOLD", 142, 182, 60)]

/-- Pins' stress limits in millivolts: below, above (R531). -/
def pinLimits : List (String × Int × Int) :=
  [("AON", -300, 2100), ("IO18", -300, 2100), ("ANA", -300, 2100), ("SL", -300, 1500), ("DDR", -300, 800)]

/-- A CMOS input of a bank of supply `v` reads high, low, or is not specified, at level `x` (R537). -/
def cmosLevel (v x : Int) : Option Bool :=
  if 65 * v ≤ 100 * x ∧ x ≤ 2100 then some true else if -300 ≤ x ∧ 100 * x ≤ 35 * v then some false else none

/-- A CMOS output's weakest levels at 8 mA on a bank of supply `v`: high, low (R537). -/
def cmosDrive (v : Int) : Int × Int := (v - 450, 450)

/-- The weak pull-down in ohms: least, typical, greatest (R537). -/
def pullDownOhms : Nat × Nat × Nat := (30000, 50000, 90000)

/-- The serial lanes: transmit swing and input limits in millivolts peak to peak, impedance in ohms (R539). -/
def laneSwing : Nat × Nat := (800, 1100)
/-- Receive sensitivity and the largest input (R539). -/
def laneInput : Nat × Nat := (60, 1200)
/-- Differential impedance (R539). -/
def laneOhms : Nat × Nat := (85, 115)

/-- Host port timing in picoseconds, minimum or maximum (R541). -/
def hostTiming : List (String × Nat) :=
  [("SCK high, low, min", 4500), ("CS_N fall to SCK, min", 5000), ("SCK to CS_N rise, min", 5000), ("CS_N high, min", 20000),
   ("input setup, min", 800), ("input hold, min", 800), ("output valid, min", 500), ("output valid, max", 3500), ("release, max", 6000)]

/-- The largest SCK frequency of a protocol level, in megahertz (R462, R541). -/
def hostSckMhz (level : Nat) : Nat := if level < 2 then 50 else 100

/-- Flash port timing in picoseconds: SCK period, its half and the tolerance, CS_N before and after, output change, read data set-up and hold (R542). -/
def flashTiming : List (String × Nat) :=
  [("period", 7500), ("half", 3750), ("half tolerance", 400), ("CS_N before SCK, min", 5000), ("CS_N after SCK, min", 5000),
   ("output, min", 500), ("output, max", 1500), ("data setup, min", 1500), ("data hold, min", 500)]

/-- Read data keeps the flash port's timing: clock-to-output time and output hold time with the round-trip delay, in picoseconds (R542). -/
def flashReadOk (outputMax holdMin trip : Nat) : Bool := decide (outputMax + trip ≤ 6000) && decide (500 ≤ holdMin + trip)

/-- Audio port timing in picoseconds (R543). -/
def audioTiming : List (String × Nat) :=
  [("BCLK jitter RMS, max", 250), ("output after BCLK fall, max", 8000), ("input setup, min", 5000), ("input hold, min", 3000)]

/-- An edge of a GT, BLP, TRG or PPS_OUT output falls within 2 ns of its scheduled time, both in picoseconds (R544). -/
def edgeWithin (scheduled actual : Int) : Bool := decide ((actual - scheduled).natAbs ≤ 2000)

/-- The package: body in 0.01 mm, height, mass in grams, lid load in newtons (R545). -/
def package : List (String × Nat) :=
  [("body", 5500), ("body tolerance", 15), ("height, max", 420), ("pitch", 100), ("ball diameter", 60), ("stand-off, min", 40),
   ("coplanarity, max", 20), ("mass", 28), ("lid load, max", 300)]

/-- The greatest junction temperature in millidegrees at a power in watts and an ambient in degrees, with the specified heatsink: 0.19 degrees per watt in all (R546). -/
def junctionMax (watts ambient : Nat) : Nat := 1000 * ambient + 190 * watts

/-- An ordering code's marking and its greatest lane rate in Gb/s (R547). -/
def orderCode : Part → String × Nat
  | .c24 => ("P9-C55-24", 24)
  | .c16 => ("P9-C55-16", 16)

end Sys2Proof.Machine
end

