-- ==== Sys2Proof/Machine/Boot.lean ====
section
/-! DEFINITION. Boot from its step 4 on, what ends a region's transition, wakes, resets and the loss of power (R20, R274, R306, R393, R414, R441 to R453, R482 to R495, R530, R534, R536). -/

namespace Sys2Proof.Machine

/-! Step 5 (R274, R444, R452). -/

/-- The panel registers keep R274, in exact arithmetic: P is den × 10^12 / (num × N). -/
def panelOk (s : State) : Bool :=
  let w := panelW s
  let h := panelH s
  let n := panelN s
  let (num, den) := timingRate s
  let vt := timingVt s
  let t := timingLinePs s
  let q := num * n
  let p := den * 1000000000000
  decide (getF s obsPanelGeom 28 2 < 3) && decide (getF s obsPanelGeom 8 2 < 3)
    && decide (3840 ≤ w) && decide (w ≤ 15360) && w % 192 == 0
    && decide (2160 ≤ h) && decide (h ≤ 8640) && h % 16 == 0
    && decide (n * num ≤ 240 * den)
    && vt % 2 == 0 && decide (h + 32 ≤ vt) && decide (vt ≤ 16382)
    && decide (4 * (vt - 1) * t * q + t * q ≤ 4 * p) && decide (2 * p ≤ 2 * (vt - 1) * t * q + 3 * t * q)
    && decide (50000 ≤ panelPx s) && decide (panelPx s ≤ 1000000) && decide (50000 ≤ panelPy s) && decide (panelPy s ≤ 1000000)

/-- The accesses that a register entry stands for: region and offset, and the copies of a register kept for several requesters; an early entry of a FLA register goes to both Flint windows (R444, R511). -/
def entryTargets (e : Nat × Word) (both : Bool) : List (Requester × Nat) :=
  let r := e.1 / 0x100000
  let o := e.1 % 0x100000
  let qs : List Requester := if perHost r o then [.ha, .hb] else if perRequester r o then [.ha, .hb, .fp] else [.ha]
  let addrs := if both && (r == 1 || r == 2) then [0x100000 + o, 0x200000 + o] else [e.1]
  addrs.flatMap fun a => qs.map fun q => (q, a)

/-- A register entry written as a 32-bit register write (R444). -/
def entryWrite (s : State) (e : Nat × Word) (both : Bool) : State :=
  (entryTargets e both).foldl (fun s t => busWrite s t.1 t.2 e.2) s

/-- Slate keeps what it has written, for a region that initialises again (R20). -/
def entryKeep (s : State) (e : Nat × Word) : State :=
  setSlate s fun x => { x with
    settings := x.settings ++ (entryTargets e true).map fun t => (keyOf t.1 (t.2 / 0x100000) (t.2 % 0x100000), e.2) }

/-- No DRAM_DATA section goes past the top of DRAM (R449). -/
def dramDataFits (s : State) (i : BootImage) : Bool :=
  i.sections.all fun x => x.1 != 3 || decide (x.2.2.2.1 + x.2.2.1 ≤ dramTop s)

/-- Steps 4 and 5 of boot once the regions are there: CALMAP_BASE and the early entries, their checks, BRING_UP, and the round of self-test (R412, R449, R452). -/
def bootEarly (s : State) : State :=
  match s.slate.image with
  | none => s
  | some i =>
    let entries := match i.sections with
      | [] => []
      | x :: _ => regEntries ((sectionBytes s x).drop 16)
    let s := setCal s fun c => { c with area := i.calmapBase }
    let s := entries.foldl (fun s e => entryKeep (entryWrite s e true) e) s
    if !panelOk s || !dramDataFits s i then slotUnwinds s 0x0A
    else
      let s := if bitAt i.flags 0 then bringUp s else s
      let s := (flintsUp s).foldl (fun s f => setFlint s f fun x => { x with rounds := x.rounds ||| 0x33 }) s
      setBoot s .selftest

/-- Boot goes on when no region is on its way any more: from step 4, or to the next slot (R451, R452). -/
def bootSettled (s : State) : State :=
  if s.power.mode ≠ .boot then s
  else match s.slate.boot with
    | .powering =>
      let moving := (List.range 16).any fun r => (inTransition s r).isSome
      let waiting := !s.power.startAfter.isEmpty && !(bauxites.any fun b => isOff s b)
      if moving || waiting then s
      else bootEarly (setPwr s fun p => { p with startAfter := [] })
    | .unwinding =>
      if ((List.range 16).drop 1).all fun r => isOff s r then bootEnded (bootChoose s) else s
    | _ => s

/-! The ends of a region's transitions (R20, R489, R490). -/

/-- Slate's settings of a region, written as it initialises (R20, R274). -/
def reloadSettings (s : State) (r : Nat) : State :=
  let was := (ctlOf s r).phase
  let mine := s.slate.settings.filter fun e => e.1 % 0x1000000 / 0x100000 == r
  let fixed (o : Nat) : Bool :=
    if r ≤ 2 then [0x200, 0x204, 0x208].contains o else if r = 14 then [0x100, 0x104, 0x108].contains o else false
  let s := mine.foldl (fun s e =>
    let q : Requester := [Requester.ha, .hb, .fp].getD (e.1 / 0x1000000) .ha
    let a := e.1 % 0x1000000
    if fixed (a % 0x100000) then plainWrite s q r (a % 0x100000) e.2 else busWrite s q a e.2) (setPhase s r .on)
  setPhase s r was

/-- The region's PLL has locked and it initialises; the Garnet registers kept their settings over its reset (R20, R356, R490). -/
def pllLocked (s : State) (r : Nat) : State :=
  let c := ctlOf s r
  match c.phase with
  | .inReset =>
    let s := setPhase s r .initialising
    if r = 15 then s else reloadSettings s r
  | .poweringOn => reloadSettings (setPhase s r .initialising) r
  | _ => s

/-- A region has powered down or up (R489 to R492). -/
def regionPowered (s : State) (r : Nat) : State :=
  let c := ctlOf s r
  match c.phase with
  | .poweringOff => bootSettled (sleepSettles (powerSettled (powerEvent (powerLost s r) 2 0x180 r) r))
  | .initialising =>
    if c.rejoining then s
    else bootSettled (sleepSettles (deferredReports (powerSettled (powerEvent (regionJoins s r) 2 0x180 (r + 32)) r) r))
  | _ => s

/-- REGION_RESET_FAILED: the bound has passed; the region is left unpowered (R20, R490). -/
def resetFails (s : State) (r : Nat) : State :=
  match (ctlOf s r).phase with
  | .inReset | .initialising | .poweringOn =>
    bootSettled (sleepSettles (powerSettled (powerLost (raise s 2 r 0x3F5 0xFF 0xFF 0) r) r))
  | _ => s

/-! The self-test of boot (R412, R414, R452). -/

/-- A Flint region completes its boot self-test: the outcome of its four items shows, and the first that passes is granted the lease. -/
def bootTested (s : State) (f : FlintId) (passed : Bool) : State :=
  let x := flintOf s f
  let testing := s.slate.boot == .selftest || s.slate.boot == .sections
  if s.power.mode ≠ .boot ∨ !testing ∨ !flintUp s f ∨ x.rounds &&& 0x33 = 0 then s
  else
    let s := setFlint s f fun x => { x with
      rounds := x.rounds &&& 0x0C
      selftest := if passed then x.selftest ||| 0x33 else x.selftest &&& 0x0C }
    if !passed then
      let (n, s) := takeFree s 40
      leaseShow (flintEvent s f 2 0x113 ([0, 1, 4, 5].getD (n % 4) 0))
    else if s.slate.granted then leaseShow s
    else
      let s := setF (leaseGrant s f) sltLeaseStatus 24 4 1
      setBoot (setSlate s fun y => { y with granted := true }) .sections

/-- Neither Flint region has passed within 5 ms: recovery with reason FLINT; every region powers down (R451, R452). -/
def selftestLate (s : State) : State :=
  if s.power.mode = .boot ∧ s.slate.boot = .selftest then bootEnded (bootUnwind (enterRecovery s true)) else s

/-! Steps 6 to 8 (R441, R442, R444, R452). -/

/-- A section used at boot once its digest has matched (R442). -/
def sectionUse (s : State) (x : Nat × Nat × Nat × Nat × List Byte) : State :=
  let bs := sectionBytes s x
  if x.1 = 3 then (if dramUp s then dramPut s x.2.2.2.1 bs else s)
  else if x.1 = 4 then pewterPut s 0 bs
  else if x.1 = 5 then
    waveCommit ((List.range (bs.length / 4)).foldl (fun s i => writeKey s (obsWave i) (BitVec.ofNat 32 (leAt bs (4 * i) 4))) s)
  else if x.1 = 6 then
    (List.range (bs.length / 4)).foldl (fun s i => scriptWrite s i (BitVec.ofNat 32 (leAt bs (4 * i) 4))) s
  else s

/-- The sections in table order: each checked against its digest, and a REGISTER_WRITES section against R444, before it is used; the reason of a failure (R449, R452). -/
def sectionsApply (flags : Nat) : List (Nat × Nat × Nat × Nat × List Byte) → State → State × Nat
  | [], s => (s, 0)
  | x :: r, s =>
    if !sectionGood s x then (s, 9)
    else if x.1 = 7 ∧ !(x.2.2.1 % 8 == 0 && (regEntries (sectionBytes s x)).all fun e => regEntryOk flags e) then (s, 10)
    else sectionsApply flags r (sectionUse s x)

/-- Boot is in service: its last steps (R299, R304, R452, R460). -/
def bootInService (s : State) (i : BootImage) : State :=
  let s := setPwr (setBoot s .done) fun p => { p with mode := .run }
  let s := powerEvent s 2 0x162 (i.slot + 4 * i.keySlot + 65536 * (i.seq % 65536))
  let s := if bitAt i.flags 2 then setObs s fun o => { o with mapAtTraining := true } else s
  let s := if bitAt i.flags 0 then s else wantPewter s 4
  bootEnded (if bitAt i.flags 1 then powerAsk s true else s)

/-- Steps 6 and 7: the sections, the REGISTER_WRITES entries, and the first load of the frame program; DRAM is in service, or out of it for good, where the image asks for it (R165, R452). -/
def bootLast (s : State) : State :=
  match s.slate.image with
  | none => s
  | some i =>
    let dramWaits := bitAt i.flags 0 && getF s bxtStatus 30 2 ≠ 2 && getF s bxtStatus 30 2 ≠ 3 && bauxites.all fun r => serves s r
    if s.power.mode ≠ .boot ∨ s.slate.boot ≠ .sections ∨ dramWaits then s
    else
      let (s, reason) := sectionsApply i.flags (i.sections.drop 1) s
      if reason ≠ 0 then slotUnwinds s reason
      else
        let entries := i.sections.flatMap fun x => if x.1 = 7 then regEntries (sectionBytes s x) else []
        let s := entries.foldl (fun s e => entryWrite s e false) s
        match i.sections.find? fun x => x.1 == 2 with
        | none => slotUnwinds s 0x0B
        | some x =>
          match progCheck s ⟨true, x.2.1⟩ none with
          | .error (why, at_) =>
            let s := (flintsUp s).foldl (fun s f => flintEvent s f 2 0x101 (why + 65536 * at_)) (loadReason s why)
            slotUnwinds s 0x0B
          | .ok img => bootInService (progTake (loadReason s 0) img) i

/-! Resets and the loss of power (R393, R482, R494, R495, R530, R534, R536). -/

/-- The Slate power-on reset: Obsidian has been without power, and the pewter buffer is lost (R297, R494). -/
def porReset (s : State) : State :=
  setObs (chipReset s 1) fun o => { o with pewter := [], pewterEra := o.pewterEra + 1 }

/-- The power-on reset asserts: the P9 is OFF (R479, R534). -/
def porAsserts (s : State) : State := setPwr (porReset s) fun p => { p with mode := .off, refclkEn := false }

/-- SYS_RESET_N rises: the held chip reset ends and wakes the P9; a reset still waiting for an abrupt-loss sequence wakes it when it applies (R494, R495). -/
def sysResetRises (s : State) : State :=
  let was := s.power.resetPin
  let s := setPwr s fun p => { p with resetPin := false }
  if was && s.power.mode == .boot && s.slate.boot == .idle && s.obs.safeCause.isNone then wake s 2 else s

/-- The wake timer has counted to 0 in STANDBY (R482, R497). -/
def wakeTimerEnds (s : State) : State :=
  if s.power.mode = .standby ∧ readReg s sltWakeTimer ≠ 0 then wakeIf (setReg s sltWakeTimer 0) 2 6 else s

/-- HA_CS_N or HB_CS_N falls in STANDBY; falls in one clock are one wake, recorded as HOST_A, or as WAKE_PIN with a fall of WAKE_N (R482, R530). -/
def hostWakes (s : State) (a b wakeN : Bool) : State :=
  if a || b then wakeIf s 1 (if wakeN then 3 else if a then 4 else 5) else s

/-- A wake that was held acts. -/
def heldWake (s : State) : State :=
  match s.power.wakeHeld with
  | some src => wake (setPwr s fun p => { p with wakeHeld := none }) src
  | none => s

/-- PFAIL_N has been high again for 10 ms: a held wake acts; else it is a wake after an abrupt loss (R482, R530). -/
def pfailReturns (s : State) : State :=
  let s := setPwr s fun p => { p with pfailLow := false }
  match s.power.wakeHeld with
  | some _ => heldWake s
  | none => if getF s sltWakeStatus 24 4 = 6 then wakeIf s 3 7 else s

/-- REFCLK has stayed in range for 10 ms after a REFCLK_FAULT (R487). -/
def clockReturns (s : State) : State :=
  if s.power.mode = .standby && s.power.clockLost && s.obs.safeCause.isNone then wake s 9 else s

/-- COOL_S has passed since the shutdown and Slate's sensor reads below WARNING_C less 5 °C; with that sensor broken, 2 × COOL_S (R393). -/
def coolEnough (s : State) : Bool :=
  let from_ := s.therm.shutdowns.headD 0
  let cool := 1000000000 * getF s sltThermRestart 0 16
  let x := s.therm.die[48]
  if x.broken then decide (from_ + 2 * cool ≤ s.now)
  else decide (from_ + cool ≤ s.now) && (match x.hist with
    | t :: _ => decide (t < 16 * (getF s sltThermCtrl 0 8 : Nat) - 80)
    | [] => false)

/-- The cooling is over: the P9 starts again, or waits for a wake; a wake that was held acts (R393). -/
def thermalRestarts (s : State) : State :=
  if s.therm.cooling && s.power.mode == .standby && coolEnough s then
    let s := setTherm s fun t => { t with cooling := false }
    let recent := s.therm.shutdowns.filter fun x => decide (s.now < x + 3600000000000)
    if getB s sltThermRestart 16 && decide (recent.length < 3) then wake s 8 else heldWake s
  else s

/-- The script port: Slate drives it for script 4, Obsidian otherwise; what waits for the panel goes on (R301, R303, R305). -/
def pmicStep (s : State) (f : State → State) : State :=
  match s.obs.script with
  | some r => if r.slate || serves s 14 then afterPanel (f s) else s
  | none => s

/-! Meanings. -/

/-- REGION_PLL_LOCKED (R20). -/
def execRegionPllLocked (r : Fin 16) (s : State) : Out := .next (pllLocked s r.val)

/-- REGION_POWERED (R489, R490). -/
def execRegionPowered (r : Fin 16) (s : State) : Out := .next (regionPowered s r.val)

/-- REGION_RESET_FAILED (R20). -/
def execRegionResetFailed (r : Fin 16) (s : State) : Out := .next (resetFails s r.val)

/-- FLINT_SELFTEST_DONE (R414). -/
def execFlintSelftestDone (f : FlintId) (passed : Bool) (s : State) : Out := .next (bootTested s f passed)

/-- FLINT_SELFTEST_TIMEOUT (R452). -/
def execFlintSelftestTimeout (s : State) : Out := .next (selftestLate s)

/-- BOOT_DONE (R452). -/
def execBootDone (s : State) : Out := .next (bootLast s)

/-- POR (R494). -/
def execPor (s : State) : Out := .next (wake (porReset s) 1)

/-- POR_ASSERTED (R534). -/
def execPorAsserted (s : State) : Out := .next (porAsserts s)

/-- SYS_RESET (R495). -/
def execSysReset (s : State) : Out := .next (sysResetFalls s)

/-- SYS_RESET_RELEASE (R494). -/
def execSysResetRelease (s : State) : Out := .next (sysResetRises s)

/-- WAKE_PIN_LOW (R482). -/
def execWakePinLow (s : State) : Out := .next (wakeIf s 0 3)

/-- WAKE_TIMER_EXPIRED (R482). -/
def execWakeTimerExpired (s : State) : Out := .next (wakeTimerEnds s)

/-- HOST_WAKE (R482). -/
def execHostWake (a b : Bool) (s : State) (wakeN : Bool := false) : Out := .next (hostWakes s a b wakeN)

/-- PFAIL_FALL (R306). -/
def execPfailFall (s : State) : Out := .next (pfailFalls (setPwr s fun p => { p with pfailLow := true }))

/-- RAIL_COLLAPSE: the rails are monitored while REFCLK_EN is high; one that has stayed more than 5 % below its minimum for 1 µs acts as a fall of PFAIL_N (R532, R536). -/
def execRailCollapse (rail : Rail) (s : State) (microvolts : Nat := 0) : Out :=
  .next (if s.power.refclkEn && railCollapsed rail microvolts then pfailFalls s else s)

/-- PFAIL_RETURN (R482). -/
def execPfailReturn (s : State) : Out := .next (pfailReturns s)

/-- CLOCK_RETURN (R487). -/
def execClockReturn (s : State) : Out := .next (clockReturns s)

/-- THERMAL_RESTART (R393). -/
def execThermalRestart (s : State) : Out := .next (thermalRestarts s)

/-- ABRUPT_LOSS_END (R306). -/
def execAbruptLossEnd (s : State) : Out := .next (afterPanel (abruptLossEnds s))

/-- PMIC_ENTRY (R302). -/
def execPmicEntry (r : PmicResult) (s : State) : Out := .next (pmicStep s fun s => pmicEntry s r)

/-- PMIC_SCRIPT_DONE (R303). -/
def execPmicScriptDone (s : State) : Out := .next (pmicStep s pmicScriptDone)

end Sys2Proof.Machine
end

