-- ==== Sys2Proof/Machine/FrameProg.lean ====
section
/-! DEFINITION. The frame program: its instructions, what they wait for, its commands, the mirror's end in the standby, checkpoints (R139 to R163, R166 to R168, R406 to R411). -/

namespace Sys2Proof.Machine

/-! Running and following (R141, R162, R409, R415). -/

/-- The oldest mirror record of a region is consumed. -/
def mirrorPop (s : State) (f : FlintId) : State := setFlint s f fun x => { x with mirror := x.mirror.drop 1 }

/-- A release record at the head of what a region follows is consumed: it carries nothing out (R415). -/
def mirrorSkip (s : State) (f : FlintId) : State :=
  match (flintOf s f).mirror with
  | .release _ :: _ => mirrorPop s f
  | _ => s

/-- A region may issue its next instruction: its program runs, waits for nothing, and leads or follows (R139, R145, R162). -/
def fpMayRun (s : State) (f : FlintId) : Bool :=
  flintUp s f && (flintOf s f).st == .running && (flintOf s f).wait.isNone && (fpLeads s f || fpFollows s f)

/-- The record at the head tells of the active region's WATCHDOG fault (R410). -/
def watchdogNext (s : State) (f : FlintId) : Bool :=
  match (flintOf s f).mirror with
  | .watchdog :: _ => true
  | _ => false

/-- One instruction of the program in a region: past the last one it is HALT, and one that is not active completes with no effect (R141, R145, R410). -/
def fpStep (f : FlintId) (pneg : Bool) (pidx : BitVec 3) (body : State → Out) (s : State) : Out :=
  let s := mirrorSkip s f
  if !fpMayRun s f then .next s
  else if watchdogNext s f then .next (seqFault (mirrorPop s f) f 7)
  else
    let x := flintOf s f
    if x.code.length ≤ x.pc then .next (seqHalted s f)
    else if fpPred x pidx.toNat == pneg then .next (setFlint s f fpNext)
    else body s

/-- An instruction whose fields R142 to R146 allow; a word that breaks them is no instruction (R165). -/
def fpExec (ok : Bool) (f : FlintId) (pneg : Bool) (pidx : BitVec 3) (body : State → State) (s : State) : Out :=
  if !ok then .refused .illFormed else fpStep f pneg pidx (fun s => .next (body s)) s

/-- An instruction that works on the region's own registers and memory only, and goes on. -/
def fpLocal (ok : Bool) (f : FlintId) (pneg : Bool) (pidx : BitVec 3) (g : Flint → Flint) (s : State) : Out :=
  fpExec ok f pneg pidx (fun s => setFlint s f fun x => fpNext (g x)) s

/-- sext(IMM) (R143). -/
def fpSext (w : Word) : DWord := w.signExtend 64

/-- zext(IMM) (R143). -/
def fpZext (w : Word) : DWord := w.zeroExtend 64

/-- g[D] := op(a, b) (R145). -/
def fpAlu (op : DWord → DWord → DWord) (i : FrReg) (x : Flint) : Flint :=
  gWrite x i.d.toNat (op (gRead x i.a.toNat) (gRead x i.b.toNat))

/-- g[D] := op(a, IMM) (R145). -/
def fpAluI (op : DWord → Word → DWord) (i : FrImm) (x : Flint) : Flint :=
  gWrite x i.d.toNat (op (gRead x i.a.toNat) i.imm)

/-- The condition of CMP and CMPI (R146). -/
def fpCond (c : Nat) (a b : DWord) : Bool :=
  let lt := if bitAt c 3 then a.slt b else a.ult b
  match c % 8 with
  | 0 => a == b
  | 1 => a != b
  | 2 => lt
  | 3 => lt || a == b
  | 4 => !(lt || a == b)
  | 5 => !lt
  | 6 => a &&& b != 0
  | _ => a &&& b == 0

/-- A branch to an offset from the present index (R145); none where it leaves the code. -/
def fpTarget (x : Flint) (offset : Word) : Option Nat :=
  let t : Int := (x.pc : Int) + offset.toInt
  if 0 ≤ t ∧ t < (x.code.length : Int) then some t.toNat else none

/-- The program continues at an index. -/
def fpGo (s : State) (f : FlintId) (t : Nat) : State := setFlint s f fun x => { x with pc := t }

/-! Data memory (R140, R147). -/

/-- An access of `n` bytes at a data memory byte is aligned and wholly below 65,536 (R147). -/
def dmemOk (a : DWord) (align n : Nat) : Bool := a.toNat % align == 0 && decide (a.toNat + n ≤ 65536)

/-- Bytes of data memory. -/
def dmemBytes (x : Flint) (a n : Nat) : List Byte := (List.range n).map fun i => smRead (fun _ => 0) x.dmem (a + i)

/-- A little-endian value of data memory (R140). -/
def dmemLe (x : Flint) (a n : Nat) : Nat := leNat (dmemBytes x a n)

/-- The address of a data memory access: g[A] + sext(IMM). -/
def dmemAddr (x : Flint) (i : FrImm) : DWord := gRead x i.a.toNat + fpSext i.imm

/-- A load of `n` bytes, zero-extended (R145). -/
def fpLoad (s : State) (f : FlintId) (n : Nat) (i : FrImm) : State :=
  let x := flintOf s f
  let a := dmemAddr x i
  if !dmemOk a n n then seqFault s f 1
  else setFlint s f fun x => fpNext (gWrite x i.d.toNat (BitVec.ofNat 64 (dmemLe x a.toNat n)))

/-- A store of the low `n` bytes of g[D] (R145). -/
def fpStore (s : State) (f : FlintId) (n : Nat) (i : FrImm) : State :=
  let x := flintOf s f
  let a := dmemAddr x i
  if !dmemOk a n n then seqFault s f 1
  else setFlint s f fun x => fpNext { x with dmem := memPutList x.dmem a.toNat (leBytes (gRead x i.d.toNat).toNat n) }

/-! Values from outside (R162, R409). -/

/-- A value that an instruction obtains from outside its region: taken and mirrored, or taken from the mirror, waiting until its record is there. -/
def fpObtain (f : FlintId) (live : State → DWord) (use : Flint → DWord → Flint) (s : State) : State :=
  if fpFollows s f then
    match (flintOf s f).mirror with
    | .value v :: _ => setFlint (mirrorPop s f) f fun x => fpNext (use x v)
    | _ => s
  else
    let v := live s
    mirrorSend (setFlint s f fun x => fpNext (use x v)) f (.value v)

/-- A wait in a region that follows ends by its record (R410). -/
def fpWaitFollow (s : State) (f : FlintId) (use : Flint → DWord → Bool → Flint) : State :=
  match (flintOf s f).mirror with
  | .waitEnd flags out :: _ => setFlint (mirrorPop s f) f fun x => use x flags out
  | _ => s

/-- The instruction at PC waits. -/
def fpWaits (s : State) (f : FlintId) (w : FpWait) : State := setFlint s f fun x => { x with wait := some w }

/-! Actions (R407 to R411). -/

/-- The next action: its number, and its digest to the standby (R407, R411). -/
def actionIssue (s : State) (f : FlintId) (addr : Nat) (data : List Byte) : State :=
  let n := (flintOf s f).action + 1
  mirrorSend (setFlint s f fun x => { x with action := n }) f (.digest (BitVec.ofNat 64 n) (actionDigest n addr data))

/-- The record at the head of what a region follows, after `k`, is a digest. -/
def digestAt (s : State) (f : FlintId) (k : Nat) : Bool :=
  match (flintOf s f).mirror.drop k with
  | .digest .. :: _ => true
  | _ => false

/-- An action that is compared, not carried out: the digest at the head against the region's own (R411, R412). -/
def actionCompare (s : State) (f : FlintId) (addr : Nat) (data : List Byte) : State :=
  let x := flintOf s f
  let n := x.action + 1
  match x.mirror with
  | .digest a c :: _ =>
    let s := setFlint (mirrorPop s f) f fun x => { x with action := n }
    if a.toNat = n ∧ c = actionDigest n addr data then
      leaseShow (setFlint s f fun x => { x with selftest := Nat.lor x.selftest 8 })
    else mismatchFound s f 1 n
  | _ => s

/-- An instruction that is one action and goes on: carried out by the holder unless its agent has lapsed, compared by a region that follows (R405, R407, R411). -/
def fpAction (s : State) (f : FlintId) (addr : Nat) (data : List Byte) (carry : Nat → State → State) : State :=
  if fpFollows s f then
    if digestAt s f 0 then setFlint (actionCompare s f addr data) f fpNext else s
  else if (flintOf s f).lapsed then s
  else
    let s := actionIssue s f addr data
    setFlint (carry (flintOf s f).action s) f fpNext

/-! Register accesses (R144, R148, R149). -/

/-- The internal address of a register access (R144). -/
def regAddr (x : Flint) (i : FrImm) : Nat := (gRead x i.a.toNat + fpSext i.imm).toNat % 2 ^ 40

/-- The offset from 0xFF_F000_0000 of an internal address in a region window (R31). -/
def windowOf (addr : Nat) : Option Nat :=
  if 0xFFF0000000 ≤ addr ∧ addr < 0xFFF1000000 then some (addr - 0xFFF0000000) else none

/-- The region whose window an internal address names. -/
def windowRegion (addr : Nat) : Option Nat := (windowOf addr).map fun a => a / 0x100000

/-- What R149 forbids a write to. -/
def writeForbidden (addr : Nat) : Bool := windowRegion addr == some 0 || windowRegion addr == some 2

/-- FP_ACCESS_ERROR (R149, R173). -/
def accessError (s : State) (f : FlintId) (status addr : Nat) : State :=
  flintEvent s f 1 0x104 (status + 256 * (addr / 0x100000 % 16) + 4096 * (addr % 0x100000))

/-- A frame-program write of the own Flint window, in each Flint region that runs the program (R149, R475). -/
def ownWrite (s : State) (f : FlintId) (o : Nat) (v : Word) : State :=
  if o = 0x40C then mailbox s v
  else
    (flintsUp s).foldl (fun s g =>
      if g ≠ f ∧ o = 0x100 then plainWrite s .fp (flintRegion g) o v
      else busWrite s .fp (flintRegion g * 0x100000 + o) v) s

/-- The Bauxite region that an internal address below the top of DRAM reaches (R31, R250). -/
def dramRegion (s : State) (addr : Nat) : Option Nat :=
  if addr + 4 ≤ dramTop s then (mapAddr s addr).map fun p => 8 + p.quadrant else none

/-- One register write of the holder: an action, and an acknowledgement to come; an address of DRAM is written there, a misaligned one nowhere (R24, R31, R148, R407, R408). -/
def writeIssue (s : State) (f : FlintId) (addr : Nat) (v : Word) : State :=
  let s := actionIssue s f addr (leBytes v.toNat 4)
  let n := (flintOf s f).action
  match windowOf addr with
  | none =>
    match dramRegion s addr with
    | none => addAck s (.frame f addr) 3
    | some r =>
      let st := writeStatus s addr 4
      addAck (regionAction s r n fun s => if addr % 4 = 0 then dramPut s addr (leBytes v.toNat 4) else s) (.frame f addr) st
  | some a =>
    let r := a / 0x100000
    if r = 1 then addAck (regionAction s (flintRegion f) n fun s => ownWrite (reqMeets s .fp (flintRegion f)) f (a % 0x100000) v) (.frame f addr) 0
    else if !serves s r then addAck s (.frame f addr) 2
    else addAck (regionAction s r n fun s => if a % 4 = 0 then busWrite (reqMeets s .fp r) .fp a v else s) (.frame f addr) 0

/-- The writes of one instruction go out together, so that no other source's write comes between them, once not more than 256 will be outstanding; until then the instruction waits (R29, R148). -/
def writesIssue (f : FlintId) (ws : List (Nat × Word)) (s : State) : State :=
  if 256 < fpWrites s f + ws.length then fpWaits s f (.write ws)
  else setFlint (ws.foldl (fun s w => writeIssue s f w.1 w.2) s) f fpNext

/-- Register writes of one instruction, in order (R148, R149, R411). -/
def fpWriteRegs (s : State) (f : FlintId) (ws : List (Nat × Word)) : State :=
  if ws.any fun w => writeForbidden w.1 then seqFault s f 4
  else if fpFollows s f then
    if (List.range ws.length).all fun k => digestAt s f k then
      setFlint (ws.foldl (fun s w => actionCompare s f w.1 (leBytes w.2.toNat 4)) s) f fpNext
    else s
  else if (flintOf s f).lapsed then s
  else writesIssue f ws s

/-- A register that has an RC field, so that reading it is an action (R377, R407, R472). -/
def rcAddr (addr : Nat) : Bool :=
  match windowOf addr with
  | none => false
  | some a => a == sltHostEvt 0 || inArr a (grnCapNs 0) 4 0x10

/-- What a read of the holder gives: status, value, state (R24, R31, R149, R408). -/
def readIssue (s : State) (f : FlintId) (addr : Nat) : Nat × Word × State :=
  match windowOf addr with
  | none =>
    match dramRegion s addr with
    | none => (3, 0, s)
    | some _ =>
      let a := addr / 4 * 4
      (readStatus s (flintRegion f) a 4, BitVec.ofNat 32 (readLe s a 4), poisonSeen s (flintRegion f) a 4)
  | some a =>
    let a := a / 4 * 4
    let a := if a / 0x100000 = 1 then flintRegion f * 0x100000 + a % 0x100000 else a
    let r := a / 0x100000
    if !rcAddr addr then busRead (reqAt s .fp r) .fp a
    else if !serves s r then (2, 0, s)
    else
      let n := (flintOf s f).action
      if n ≤ lastAction s r then (0, viewReg s .fp a, bump s (duplicatesKey r))
      else busRead (reqMeets (setLastAction s r n) .fp r) .fp a

/-- The region that a read of an internal address goes to: the own one behind the Flint-A window, a Bauxite region for DRAM, else the one that the address bits name (R31, R149). -/
def readRegion (s : State) (f : FlintId) (addr : Nat) : Nat :=
  match windowOf addr, dramRegion s addr with
  | some a, _ => if a / 0x100000 = 1 then flintRegion f else a / 0x100000
  | none, some r => r
  | none, none => addr / 0x100000 % 16

/-- RDREG (R149): the read goes out and its response is awaited; a region that follows takes the value from the mirror. -/
def fpRead (s : State) (f : FlintId) (i : FrImm) : State :=
  let addr := regAddr (flintOf s f) i
  let act := rcAddr addr
  if windowRegion addr = some 2 then seqFault s f 4
  else if fpFollows s f then
    if act && !digestAt s f 0 then s
    else match (flintOf s f).mirror.drop (b2n act) with
      | .value v :: _ =>
        let s := if act then actionCompare s f addr [] else s
        setFlint (mirrorPop s f) f fun x => fpNext (gWrite x i.d.toNat v)
      | _ => s
  else if act && (flintOf s f).lapsed then s
  else
    let s := if act then actionIssue s f addr [] else s
    let (st, v, s) := readIssue s f addr
    fpWaits s f (.read i.d.toNat v st (readRegion s f addr) (addr % 0x100000))

/-- The response to the register read that a region waits for has arrived: an error reads 0 and raises FP_ACCESS_ERROR (R149). -/
def readResponse (s : State) (f : FlintId) : State :=
  match (flintOf s f).wait with
  | some (.read d v st r o) =>
    let v : DWord := if st = 0 then fpZext v else 0
    let s := mirrorSend (setFlint s f fun x => fpNext (gWrite x d v)) f (.value v)
    if st = 0 then s else accessError s f st (r * 0x100000 + o)
  | _ => s

/-- What waits for acknowledged writes goes on: further writes, FENCE, the fence of a CKPT (R145, R148, R163). -/
def writesSettle (s : State) (f : FlintId) : State :=
  match (flintOf s f).wait with
  | some (.write ws) => if (flintOf s f).lapsed then s else writesIssue f ws s
  | some .fence => if fpWrites s f = 0 then setFlint s f fpNext else s
  | some (.ckpt t false) => if fpWrites s f = 0 then fpWaits s f (.ckpt t true) else s
  | _ => s

/-! LAUNCH (R118, R133, R156, R157). -/

/-- ALLOWANCE (R133). -/
def allowance (s : State) : Nat :=
  min 65535 (cellsTotal s * 8 * stepMhz s.therm.stepIn * timingLinePs s / (3 * panelW s * 1000000))

/-- The launch block keeps R156 and the 40-bit rule of R147. -/
def launchBlockOk (b : List Byte) : Bool :=
  (List.range 3).all (fun i => leAt b (8 * i + 5) 3 == 0) && decide (leAt b 0x18 4 < 8192) && leAt b 0x1C 4 == 0

/-- The launch record (R117, R157). -/
def launchRecord (s : State) (x : Flint) (i : FrImm) (b : List Byte) : LaunchRec :=
  let n := i.imm.toNat
  { frame := BitVec.ofNat 32 (gRead x i.d.toNat).toNat
    phase := BitVec.ofNat 2 (bitsOf n 20 2), first := BitVec.ofNat 10 (bitsOf n 0 10), count := BitVec.ofNat 10 (bitsOf n 10 10)
    kernel := BitVec.ofNat 40 (leAt b 0 8), table := BitVec.ofNat 40 (leAt b 8 8), const := BitVec.ofNat 40 (leAt b 16 8)
    constLen := BitVec.ofNat 13 (leAt b 0x18 4)
    scalars := (List.range 16).map fun k => BitVec.ofNat 32 (leAt b (0x20 + 4 * k) 4)
    allowance := BitVec.ofNat 16 (allowance s) }

/-- The record is sent where every Galena region in service has a free entry; with none in service nothing is sent; else LAUNCH waits (R118, R157). -/
def launchSend (s : State) (f : FlintId) (r : LaunchRec) : State :=
  let up := (List.finRange 4).filter fun g => serves s (galRegion g)
  if up.isEmpty then mirrorSend (setFlint s f fpNext) f (.sent false)
  else if up.all fun g => decide ((s.gal[g]).queue.length < 8) then
    let n := (flintOf s f).action
    let s := up.foldl (fun s g => regionAction s (galRegion g) n fun s => setGal s g fun x => { x with queue := x.queue ++ [r] }) s
    mirrorSend (setFlint s f fpNext) f (.sent true)
  else fpWaits s f (.launch r)

/-- LAUNCH (R157). -/
def fpLaunch (s : State) (f : FlintId) (i : FrImm) : State :=
  let x := flintOf s f
  let a := gRead x i.a.toNat
  if !dmemOk a 8 96 then seqFault s f 1
  else
    let b := dmemBytes x a.toNat 96
    if !launchBlockOk b then seqFault s f 5
    else
      let data := leBytes (gRead x i.d.toNat).toNat 4 ++ leBytes i.imm.toNat 4 ++ b
      if fpFollows s f then
        match x.mirror.drop 1 with
        | .sent _ :: _ =>
          if digestAt s f 0 then setFlint (mirrorPop (actionCompare s f 0 data) f) f fpNext else s
        | _ => s
      else if x.lapsed then s
      else
        let s := actionIssue s f 0 data
        launchSend s f (launchRecord s x i b)

/-- A LAUNCH that waits goes on when an entry has become free (R118). -/
def launchSettle (s : State) (f : FlintId) : State :=
  match (flintOf s f).wait with
  | some (.launch r) => if (flintOf s f).lapsed then s else launchSend s f r
  | _ => s

/-! DMA (R159, R160). -/

/-- A DMA descriptor's fields (R159). -/
def dmaDesc (b : List Byte) : DmaDesc :=
  { src := BitVec.ofNat 64 (leAt b 0 8), dst := BitVec.ofNat 64 (leAt b 8 8), len := leAt b 0x10 4
    srcSpace := leAt b 0x14 1, dstSpace := leAt b 0x15 1, clean := (b.drop 0x16).all (· == 0) }

/-- The 40-bit rule on the fields that hold device addresses (R147). -/
def dmaAddrOk (d : DmaDesc) : Bool :=
  (d.srcSpace != 0 || decide (d.src.toNat < 2 ^ 40)) && (d.dstSpace != 0 || decide (d.dst.toNat < 2 ^ 40))

/-- STATUS of a channel in FLA_DMA_STATUS, in each Flint region that runs the program (R172). -/
def dmaStatus (s : State) (ch v : Nat) : State :=
  (flintsUp s).foldl (fun s f => setF s (flaDmaStatus (flintRegion f)) (4 * ch) 4 v) s

/-- The descriptor at a data memory byte is read and the channel starts; on a busy channel DMA waits (R159). -/
def dmaStart (s : State) (f : FlintId) (ch : Fin 4) (a : Nat) : State :=
  let x := flintOf s f
  if (x.dma[ch]).isSome then fpWaits s f (.dma ch.val a)
  else
    let d := dmaDesc (dmemBytes x a 32)
    if !dmaAddrOk d then seqFault s f 1
    else
      let s := regionAction s (flintRegion f) x.action fun s =>
        dmaStatus (setFlint s f fun x => { x with dma := x.dma.set ch (some d) }) ch.val 1
      setFlint s f fpNext

/-- DMA (R147, R159). -/
def fpDma (s : State) (f : FlintId) (i : FrImm) : State :=
  let x := flintOf s f
  let a := gRead x i.a.toNat
  let b := dmemBytes x a.toNat 32
  if !dmemOk a 8 32 || !dmaAddrOk (dmaDesc b) then seqFault s f 1
  else
    let data := b ++ leBytes i.imm.toNat 4
    if fpFollows s f then
      if digestAt s f 0 then setFlint (actionCompare s f 0 data) f fpNext else s
    else if x.lapsed then s
    else dmaStart (actionIssue s f 0 data) f (Fin.ofNat 4 i.imm.toNat) a.toNat

/-- The pewter buffer's range of internal addresses (R297, R513). -/
def inPewter (a n : Nat) : Bool := decide (0xFFF0E40000 ≤ a) && decide (a + n ≤ 0xFFF0E40000 + 0xC0000)

/-- A range touches a region window. -/
def touchesWindow (a n : Nat) : Bool := decide (a < 0xFFF1000000) && decide (0xFFF0000000 < a + n)

/-- RANGE (2) or TARGET (3) before anything moves, else 0 (R159, R160, R454). -/
def dmaCheck (s : State) (d : DmaDesc) : Nat :=
  let a := d.src.toNat
  let b := d.dst.toNat
  let dev (x : Nat) : Bool := x % 8 == 0 && decide (x + d.len ≤ 2 ^ 40)
  let srcOk := match d.srcSpace with
    | 0 => dev a
    | 1 => inSections s a d.len
    | 2 => decide (a + d.len ≤ 65536)
    | _ => false
  let dstOk := match d.dstSpace with
    | 0 => dev b
    | 2 => decide (b + d.len ≤ 65536)
    | _ => false
  if d.len < 8 ∨ 16777216 < d.len ∨ d.len % 8 ≠ 0 ∨ !d.clean ∨ !srcOk ∨ !dstOk then 2
  else if (d.srcSpace = 0 ∧ touchesWindow a d.len ∧ !inPewter a d.len) ∨ (d.dstSpace = 0 ∧ touchesWindow b d.len ∧ !inPewter b d.len) then 3
  else 0

/-- Eight bytes of the source, `o` bytes into the transfer, or an error (R24, R160). -/
def dmaRead (s : State) (f : FlintId) (bad : Option (BitVec 32)) (space a o : Nat) : Option (List Byte) :=
  match space with
  | 0 =>
    if inPewter a 8 then (if serves s 14 then some ((List.range 8).map fun i => pewterByte s (a - 0xFFF0E40000 + i)) else none)
    else if readStatus s (flintRegion f) a 8 = 0 then some (readBytes s a 8) else none
  | 1 => if flashFails bad o 8 then none else some (flashBytes s a 8)
  | _ => some (dmemBytes (flintOf s f) a 8)

/-- Eight bytes to the destination, or an error; data memory is that of every region that runs the program (R24, R160, R162). -/
def dmaWrite (s : State) (space a : Nat) (bs : List Byte) : Option State :=
  if space = 0 then
    if inPewter a 8 then (if serves s 14 then some (pewterPut s (a - 0xFFF0E40000) bs) else none)
    else if dramStatus s a 8 = 0 then some (dramPut s a bs) else none
  else some ((flintsUp s).foldl (fun s g => setFlint s g fun x => { x with dmem := memPutList x.dmem a bs }) s)

/-- Words move in ascending order until one ends in an error: the status at the end (R160). -/
def dmaMove (f : FlintId) (d : DmaDesc) (bad : Option (BitVec 32)) : Nat → Nat → State → Nat × State
  | 0, _, s => (0, s)
  | n + 1, o, s =>
    match dmaRead s f bad d.srcSpace (d.src.toNat + o) o with
    | none => (4, if d.srcSpace = 0 then poisonSeen s (flintRegion f) (d.src.toNat + o) 8 else s)
    | some bs =>
      match dmaWrite s d.dstSpace (d.dst.toNat + o) bs with
      | none => (4, s)
      | some s => dmaMove f d bad n (o + 8) s

/-- A DMA ends, unless it must wait for the flash: what it moved, its status, its flag; a DMA that waits for the channel starts (R150, R159, R160). -/
def dmaEnds (s : State) (f : FlintId) (ch : Fin 4) (bad : Option (BitVec 32)) : State :=
  match (flintOf s f).dma[ch] with
  | none => s
  | some d =>
    if d.srcSpace = 1 && flashWaits s then s else
    let c := dmaCheck s d
    let s := if c = 0 && d.srcSpace = 1 then flashReads s d.src.toNat d.len else s
    let (st, s) := if c ≠ 0 then (c, s) else dmaMove f d bad (d.len / 8) 0 s
    let s := setFlint s f fun x => { x with dma := x.dma.set ch none }
    let s := setFlag (dmaStatus s ch.val st) (8 + ch.val)
    match (flintOf s f).wait with
    | some (.dma n a) => if n = ch.val then dmaStart s f ch a else s
    | _ => s

/-! BRXJ (R160, R234). -/

/-- The descriptor is queued, or BRXJ waits while the engine's queue is full (R160, R234). -/
def brxjSend (s : State) (f : FlintId) (addr engine : Nat) : State :=
  if !serves s 12 then setFlint s f fpNext
  else
    let e := jobEngine s engine
    if 8 ≤ (s.borax.jobs[e]).length then fpWaits s f (.brxj addr engine)
    else setFlint (regionAction s 12 (flintOf s f).action fun s => queueJob s e ⟨addr, true, s.now⟩) f fpNext

/-- BRXJ (R160). -/
def fpBrxj (s : State) (f : FlintId) (i : FrImm) : State :=
  let x := flintOf s f
  let addr := (gRead x i.a.toNat).toNat % 2 ^ 40
  let data := leBytes i.imm.toNat 4
  if fpFollows s f then
    if digestAt s f 0 then setFlint (actionCompare s f addr data) f fpNext else s
  else if x.lapsed then s
  else brxjSend (actionIssue s f addr data) f addr (i.imm.toNat % 8)

/-- A BRXJ that waits goes on when a queue has room. -/
def brxjSettle (s : State) (f : FlintId) : State :=
  match (flintOf s f).wait with
  | some (.brxj a e) => if (flintOf s f).lapsed then s else brxjSend s f a e
  | _ => s

/-! Semaphores (R161, R408, R436). -/

/-- A request for a semaphore carried out, or discarded as a duplicate and answered as granted (R408, R436). -/
def semAction (s : State) (f : FlintId) (n : Nat) (waiting : Bool) : State × Nat :=
  let k := (flintOf s f).action
  if k ≤ lastAction s 0 then (bump s (duplicatesKey 0), 8) else semAsk (setLastAction s 0 k) .frame n waiting

/-- A semaphore instruction in a region that follows: its digest and its result from the mirror (R162, R411). -/
def semFollow (s : State) (f : FlintId) (data : List Byte) (use : Flint → Bool → Flint) : State :=
  match (flintOf s f).mirror.drop 1 with
  | .granted b :: _ =>
    if digestAt s f 0 then setFlint (mirrorPop (actionCompare s f 0 data) f) f fun x => fpNext (use x b) else s
  | _ => s

/-- SEMACQ (R145, R161). -/
def fpSemAcq (s : State) (f : FlintId) (i : FrImm) : State :=
  let data := leBytes i.imm.toNat 4
  if fpFollows s f then semFollow s f data fun x _ => x
  else if (flintOf s f).lapsed then s
  else
    let (s, r) := semAction (actionIssue s f 0 data) f i.imm.toNat true
    if r = 8 then mirrorSend (setFlint s f fpNext) f (.granted true) else fpWaits s f (.sem i.imm.toNat)

/-- SEMTRY (R145, R161). -/
def fpSemTry (s : State) (f : FlintId) (i : FrImm) : State :=
  let data := leBytes i.imm.toNat 4
  let use (x : Flint) (b : Bool) : Flint := fpPredSet x i.d.toNat b
  if fpFollows s f then semFollow s f data use
  else if (flintOf s f).lapsed then s
  else
    let (s, r) := semAction (actionIssue s f 0 data) f i.imm.toNat false
    mirrorSend (setFlint s f fun x => fpNext (use x (r == 8))) f (.granted (r == 8))

/-- SEMREL: of a semaphore that the frame program does not hold it is a SEMAPHORE fault, in both regions (R161, R167). -/
def fpSemRel (s : State) (f : FlintId) (i : FrImm) : State :=
  let n := i.imm.toNat
  let data := leBytes n 4
  if fpFollows s f then
    match (flintOf s f).mirror with
    | .granted false :: _ => seqFault (mirrorPop s f) f 3
    | .digest .. :: _ => setFlint (actionCompare s f 0 data) f fpNext
    | _ => s
  else if (flintOf s f).lapsed then s
  else if (semOf s n).holder ≠ some .frame then seqFault (mirrorSend s f (.granted false)) f 3
  else
    let s := actionIssue s f 0 data
    setFlint (regionAction s 0 (flintOf s f).action fun s => semFree s n) f fpNext

/-! Waits (R151, R154, R155). -/

/-- WAITE (R151). -/
def fpWaitE (s : State) (f : FlintId) (i : FrReg) : State :=
  let x := flintOf s f
  let mask := gRead x i.a.toNat
  let all := bitAt i.func.toNat 0
  let clear := bitAt i.func.toNat 1
  let d := i.d.toNat
  let c := i.c.toNat
  if fpFollows s f then fpWaitFollow s f fun x flags out => waitEnds x flags clear d c out
  else
    let b := (gRead x i.b.toNat).toNat
    settleEvents (fpWaits s f (.events mask all clear d c (if b = 0 then none else some (s.now + b)))) f

/-- WAITT (R154). -/
def fpWaitT (s : State) (f : FlintId) (i : FrReg) : State :=
  let a := (gRead (flintOf s f) i.a.toNat).toNat
  if fpFollows s f then fpWaitFollow s f fun x _ _ => fpNext x
  else if bitAt i.func.toNat 0 then
    if a = 0 then mirrorSend (setFlint s f fpNext) f (.waitEnd 0 false) else fpWaits s f (.delay (s.now + a))
  else settleTime (fpWaits s f (.time a)) f

/-- WAITL; a target that no scan reaches is a POSITION fault (R155, R168). -/
def fpWaitL (s : State) (f : FlintId) (i : FrReg) : State :=
  let t := gRead (flintOf s f) i.a.toNat
  if panelN s ≤ bitsOf t.toNat 16 2 ∨ timingVt s ≤ bitsOf t.toNat 0 14 then seqFault s f 6
  else if fpFollows s f then fpWaitFollow s f fun x _ _ => fpNext x
  else
    let s := fpWaits s f (.scan t)
    if s.scan.running then settleScan s f else s

/-- RDPOS (R155). -/
def scanWord (s : State) : DWord := BitVec.ofNat 64 (s.scan.frame * 2 ^ 32 + s.scan.phase * 65536 + s.scan.slot)

/-- A WAITE whose time-out has come ends by it (R151). -/
def waitTimesOut (s : State) (f : FlintId) : State :=
  match (flintOf s f).wait with
  | some (.events mask _ clear d c (some t)) =>
    let flags := (flintOf s f).e &&& mask
    if t ≤ s.now then mirrorSend (setFlint s f fun x => waitEnds x flags clear d c true) f (.waitEnd flags true) else s
  | _ => s

/-- A WAITT whose time has come ends: the PTP-disciplined time is compared with its target, or its span on the Flint clock is over (R154). -/
def timeReached (s : State) (f : FlintId) : State :=
  match (flintOf s f).wait with
  | some (.delay t) => if t ≤ s.now then mirrorSend (setFlint s f fpNext) f (.waitEnd 0 false) else s
  | _ => settleTime s f

/-- A timer reaches 0: it stops and sets its flag (R150, R153). -/
def timerEnds (s : State) (f : FlintId) (t : Fin 4) : State :=
  if !flintUp s f || (flintOf s f).timers[t] == 0 then s
  else setFlagOf (setFlint s f fun x => { x with timers := x.timers.set t 0 }) f (4 + t.val)

/-! Checkpoints, the watchdog, the mirror's end (R163, R168, R409, R410). -/

/-- CKPT: as FENCE, then the bank is written; a region that follows takes no checkpoint of its own (R163, R410). -/
def fpCkpt (s : State) (f : FlintId) (tag : Word) : State :=
  if fpFollows s f then setFlint s f fpNext
  else fpWaits s f (.ckpt tag (fpWrites s f == 0))

/-- A waiting standby loads a checkpoint and enters the shadow run (R410). -/
def shadowEnter (s : State) (f : FlintId) (k : Ckpt) (lead : Flint) : State :=
  let s := setFlint s f fun x =>
    { ckptLoad x k s.now with
      code := lead.code, entry := lead.entry, data := lead.data, minor := lead.minor
      shadow := .inShadow, mirror := [], selftest := Nat.lor x.selftest 12 }
  let s := setLease s fun l => { l with mirror := [] }
  leaseShow (flintEvent s f 2 0x110 k.tag.toNat)

/-- The standby's checkpoint block takes the holder's checkpoint; a waiting standby loads it (R410). -/
def ckptMirror (s : State) (f : FlintId) (k : Ckpt) (lead : Flint) : State :=
  if !flintUp s f then s
  else match (flintOf s f).shadow with
    | .out => s
    | .inShadow => setFlint s f fun x => bankWrite x k
    | .waiting => shadowEnter (setFlint s f fun x => bankWrite x k) f k lead

/-- A checkpoint bank is complete and becomes valid; the watchdog restarts (R163, R168). -/
def ckptDone (s : State) (f : FlintId) : State :=
  let x := flintOf s f
  match x.wait with
  | some (.ckpt tag true) =>
    let k := ckptOf x tag
    let s := setFlint s f fun x => fpNext { bankWrite x k with wdogAt := s.now }
    ckptMirror s (otherFlint f) k x
  | _ => s

/-- No CKPT has completed for FLA_WDOG ms (R168, R172). -/
def wdogOver (s : State) (f : FlintId) : Bool :=
  let ms := getF s (flaWdog (flintRegion f)) 0 8
  ms != 0 && decide ((flintOf s f).wdogAt + 1000000 * ms ≤ s.now)

/-- The watchdog expires: the program stops with a WATCHDOG fault, and the standby learns it by a record (R168, R410). -/
def wdogExpires (s : State) (f : FlintId) : State :=
  if !flintUp s f || (flintOf s f).st != .running || (flintOf s f).shadow == .inShadow || !wdogOver s f then s
  else seqFault (mirrorSend s f .watchdog) f 7

/-- The region that receives mirror records: the one in the shadow run, or the new holder of what is still on its way (R409, R415). -/
def mirrorTo (s : State) : Option FlintId :=
  match [FlintId.a, .b].find? fun f => (flintOf s f).shadow == .inShadow with
  | some f => some f
  | none => holder s

/-- The oldest record on its way reaches the standby; with 4,096 there it leaves the shadow run and waits again (R409, R410). -/
def mirrorArrives (s : State) (r : MirrorRec) : State :=
  match s.ctrl.lease.mirror, mirrorTo s with
  | x :: rest, some f =>
    if x ≠ r then s
    else
      let s := setLease s fun l => { l with mirror := rest }
      if 4096 ≤ (flintOf s f).mirror.length then shadowWait (shadowLose s f 1) f
      else mirrorSkip (setFlint s f fun x => { x with mirror := x.mirror ++ [r] }) f
  | _, _ => s

/-! Meanings of the instructions (R145). -/

/-- ADD: g[D] := a + b. -/
def execFpAdd (f : FlintId) (i : FrReg) (s : State) : Out := fpLocal (Instr.wf (.fpAdd f i)) f i.pneg i.pidx (fpAlu (· + ·) i) s
/-- SUB: g[D] := a − b. -/
def execFpSub (f : FlintId) (i : FrReg) (s : State) : Out := fpLocal (Instr.wf (.fpSub f i)) f i.pneg i.pidx (fpAlu (· - ·) i) s
/-- AND: g[D] := a & b. -/
def execFpAnd (f : FlintId) (i : FrReg) (s : State) : Out := fpLocal (Instr.wf (.fpAnd f i)) f i.pneg i.pidx (fpAlu (· &&& ·) i) s
/-- OR: g[D] := a | b. -/
def execFpOr (f : FlintId) (i : FrReg) (s : State) : Out := fpLocal (Instr.wf (.fpOr f i)) f i.pneg i.pidx (fpAlu (· ||| ·) i) s
/-- XOR: g[D] := a ^ b. -/
def execFpXor (f : FlintId) (i : FrReg) (s : State) : Out := fpLocal (Instr.wf (.fpXor f i)) f i.pneg i.pidx (fpAlu (· ^^^ ·) i) s
/-- SHL: g[D] := a << (b & 63). -/
def execFpShl (f : FlintId) (i : FrReg) (s : State) : Out :=
  fpLocal (Instr.wf (.fpShl f i)) f i.pneg i.pidx (fpAlu (fun a b => a <<< (b.toNat % 64)) i) s
/-- SHR: g[D] := a >> (b & 63). -/
def execFpShr (f : FlintId) (i : FrReg) (s : State) : Out :=
  fpLocal (Instr.wf (.fpShr f i)) f i.pneg i.pidx (fpAlu (fun a b => a >>> (b.toNat % 64)) i) s
/-- MUL: g[D] := low 64 bits of a × b. -/
def execFpMul (f : FlintId) (i : FrReg) (s : State) : Out := fpLocal (Instr.wf (.fpMul f i)) f i.pneg i.pidx (fpAlu (· * ·) i) s
/-- MOV: g[D] := a. -/
def execFpMov (f : FlintId) (i : FrReg) (s : State) : Out := fpLocal (Instr.wf (.fpMov f i)) f i.pneg i.pidx (fpAlu (fun a _ => a) i) s
/-- ADDI: g[D] := a + sext(IMM). -/
def execFpAddi (f : FlintId) (i : FrImm) (s : State) : Out :=
  fpLocal (Instr.wf (.fpAddi f i)) f i.pneg i.pidx (fpAluI (fun a m => a + fpSext m) i) s
/-- ANDI: g[D] := a & zext(IMM). -/
def execFpAndi (f : FlintId) (i : FrImm) (s : State) : Out :=
  fpLocal (Instr.wf (.fpAndi f i)) f i.pneg i.pidx (fpAluI (fun a m => a &&& fpZext m) i) s
/-- ORI: g[D] := a | zext(IMM). -/
def execFpOri (f : FlintId) (i : FrImm) (s : State) : Out :=
  fpLocal (Instr.wf (.fpOri f i)) f i.pneg i.pidx (fpAluI (fun a m => a ||| fpZext m) i) s
/-- XORI: g[D] := a ^ zext(IMM). -/
def execFpXori (f : FlintId) (i : FrImm) (s : State) : Out :=
  fpLocal (Instr.wf (.fpXori f i)) f i.pneg i.pidx (fpAluI (fun a m => a ^^^ fpZext m) i) s
/-- SHLI: g[D] := a << (IMM & 63). -/
def execFpShli (f : FlintId) (i : FrImm) (s : State) : Out :=
  fpLocal (Instr.wf (.fpShli f i)) f i.pneg i.pidx (fpAluI (fun a m => a <<< (m.toNat % 64)) i) s
/-- SHRI: g[D] := a >> (IMM & 63). -/
def execFpShri (f : FlintId) (i : FrImm) (s : State) : Out :=
  fpLocal (Instr.wf (.fpShri f i)) f i.pneg i.pidx (fpAluI (fun a m => a >>> (m.toNat % 64)) i) s
/-- MOVI: g[D] := sext(IMM). -/
def execFpMovi (f : FlintId) (i : FrImm) (s : State) : Out :=
  fpLocal (Instr.wf (.fpMovi f i)) f i.pneg i.pidx (fpAluI (fun _ m => fpSext m) i) s
/-- MOVHI: g[D] := (IMM << 32) | (g[D] & 0xFFFF_FFFF). -/
def execFpMovhi (f : FlintId) (i : FrImm) (s : State) : Out :=
  fpLocal (Instr.wf (.fpMovhi f i)) f i.pneg i.pidx
    (fun x => gWrite x i.d.toNat ((fpZext i.imm <<< 32) ||| (gRead x i.d.toNat &&& 0xFFFFFFFF))) s
/-- CMP: p[D] := cond(FUNC[3:0], a, b). -/
def execFpCmp (f : FlintId) (i : FrReg) (s : State) : Out :=
  fpLocal (Instr.wf (.fpCmp f i)) f i.pneg i.pidx
    (fun x => fpPredSet x i.d.toNat (fpCond (i.func.toNat % 16) (gRead x i.a.toNat) (gRead x i.b.toNat))) s
/-- CMPI: p[D] := cond(X[3:0], a, IMM), IMM sign-extended when X[3] is 1 (R145). -/
def execFpCmpi (f : FlintId) (i : FrImm) (s : State) : Out :=
  fpLocal (Instr.wf (.fpCmpi f i)) f i.pneg i.pidx
    (fun x =>
      let c := i.x.toNat / 4
      fpPredSet x i.d.toNat (fpCond c (gRead x i.a.toNat) (if bitAt c 3 then fpSext i.imm else fpZext i.imm))) s
/-- PAND: p[D] := p[A] & p[B]. -/
def execFpPand (f : FlintId) (i : FrReg) (s : State) : Out :=
  fpLocal (Instr.wf (.fpPand f i)) f i.pneg i.pidx (fun x => fpPredSet x i.d.toNat (fpPred x i.a.toNat && fpPred x i.b.toNat)) s
/-- POR: p[D] := p[A] | p[B]. -/
def execFpPor (f : FlintId) (i : FrReg) (s : State) : Out :=
  fpLocal (Instr.wf (.fpPor f i)) f i.pneg i.pidx (fun x => fpPredSet x i.d.toNat (fpPred x i.a.toNat || fpPred x i.b.toNat)) s
/-- PXOR: p[D] := p[A] ^ p[B]. -/
def execFpPxor (f : FlintId) (i : FrReg) (s : State) : Out :=
  fpLocal (Instr.wf (.fpPxor f i)) f i.pneg i.pidx (fun x => fpPredSet x i.d.toNat (fpPred x i.a.toNat != fpPred x i.b.toNat)) s
/-- PNOT: p[D] := ~p[A]. -/
def execFpPnot (f : FlintId) (i : FrReg) (s : State) : Out :=
  fpLocal (Instr.wf (.fpPnot f i)) f i.pneg i.pidx (fun x => fpPredSet x i.d.toNat (!fpPred x i.a.toNat)) s
/-- LD: g[D] := 64-bit word of data memory. -/
def execFpLd (f : FlintId) (i : FrImm) (s : State) : Out := fpExec (Instr.wf (.fpLd f i)) f i.pneg i.pidx (fun s => fpLoad s f 8 i) s
/-- ST: 64-bit word of data memory := g[D]. -/
def execFpSt (f : FlintId) (i : FrImm) (s : State) : Out := fpExec (Instr.wf (.fpSt f i)) f i.pneg i.pidx (fun s => fpStore s f 8 i) s
/-- LD32: g[D] := zero-extended 32-bit word. -/
def execFpLd32 (f : FlintId) (i : FrImm) (s : State) : Out := fpExec (Instr.wf (.fpLd32 f i)) f i.pneg i.pidx (fun s => fpLoad s f 4 i) s
/-- ST32: 32-bit word := g[D][31:0]. -/
def execFpSt32 (f : FlintId) (i : FrImm) (s : State) : Out := fpExec (Instr.wf (.fpSt32 f i)) f i.pneg i.pidx (fun s => fpStore s f 4 i) s
/-- RDREG (R149). -/
def execFpRdreg (f : FlintId) (i : FrImm) (s : State) : Out := fpExec (Instr.wf (.fpRdreg f i)) f i.pneg i.pidx (fun s => fpRead s f i) s
/-- WRREG (R148, R149). -/
def execFpWrreg (f : FlintId) (i : FrImm) (s : State) : Out :=
  fpExec (Instr.wf (.fpWrreg f i)) f i.pneg i.pidx
    (fun s =>
      let x := flintOf s f
      fpWriteRegs s f [(regAddr x i, BitVec.ofNat 32 (gRead x i.d.toNat).toNat)]) s
/-- WRBLK: registers at a + 4i := 32-bit data memory words at b + 4i (R145, R147 to R149). -/
def execFpWrblk (f : FlintId) (i : FrReg) (s : State) : Out :=
  fpExec (Instr.wf (.fpWrblk f i)) f i.pneg i.pidx
    (fun s =>
      let x := flintOf s f
      let a := (gRead x i.a.toNat).toNat
      let b := gRead x i.b.toNat
      if !dmemOk b 4 (4 * i.func.toNat) then seqFault s f 1
      else fpWriteRegs s f ((List.range i.func.toNat).map fun k => ((a + 4 * k) % 2 ^ 40, BitVec.ofNat 32 (dmemLe x (b.toNat + 4 * k) 4)))) s
/-- A branch that is taken where `go` says so; a target outside the code is no instruction (R145, R165). -/
def fpBranch (ok : Bool) (f : FlintId) (pneg : Bool) (pidx : BitVec 3) (offset : Word) (go : Nat → State → State) (s : State) : Out :=
  if !ok then .refused .illFormed
  else fpStep f pneg pidx (fun s =>
    match fpTarget (flintOf s f) offset with
    | none => .refused .illFormed
    | some t => .next (go t s)) s
/-- BR: continue at this index + OFFSET. -/
def execFpBr (f : FlintId) (i : FrBr) (s : State) : Out :=
  fpBranch (Instr.wf (.fpBr f i)) f i.pneg i.pidx i.offset (fun t s => fpGo s f t) s
/-- CALL: this index + 1 is pushed; a full stack is a STACK fault (R145, R168). -/
def execFpCall (f : FlintId) (i : FrBr) (s : State) : Out :=
  fpBranch (Instr.wf (.fpCall f i)) f i.pneg i.pidx i.offset
    (fun t s =>
      if 16 ≤ (flintOf s f).stack.length then seqFault s f 2
      else setFlint s f fun x => { x with stack := (x.pc + 1) % 16384 :: x.stack, pc := t }) s
/-- RET: an empty stack is a STACK fault (R145, R168). -/
def execFpRet (f : FlintId) (i : FrBr) (s : State) : Out :=
  fpExec (Instr.wf (.fpRet f i)) f i.pneg i.pidx
    (fun s => match (flintOf s f).stack with
      | [] => seqFault s f 2
      | t :: r => setFlint s f fun x => { x with stack := r, pc := t }) s
/-- LOOP: g[A] := g[A] − 1; a branch where g[A], read after the write, is not 0. -/
def execFpLoop (f : FlintId) (i : FrBr) (s : State) : Out :=
  fpBranch (Instr.wf (.fpLoop f i)) f i.pneg i.pidx i.offset
    (fun t s =>
      let s := setFlint s f fun x => gWrite x i.a.toNat (gRead x i.a.toNat - 1)
      if gRead (flintOf s f) i.a.toNat = 0 then setFlint s f fpNext else fpGo s f t) s
/-- WAITE (R151). -/
def execFpWaite (f : FlintId) (i : FrReg) (s : State) : Out := fpExec (Instr.wf (.fpWaite f i)) f i.pneg i.pidx (fun s => fpWaitE s f i) s
/-- EVCLR: clears each e bit set in a. -/
def execFpEvclr (f : FlintId) (i : FrReg) (s : State) : Out :=
  fpLocal (Instr.wf (.fpEvclr f i)) f i.pneg i.pidx (fun x => { x with e := x.e &&& ~~~ (gRead x i.a.toNat) }) s
/-- EVSET: sets each e bit set in a; a bit outside e24 to e31 is a FORBIDDEN fault (R168). -/
def execFpEvset (f : FlintId) (i : FrReg) (s : State) : Out :=
  fpExec (Instr.wf (.fpEvset f i)) f i.pneg i.pidx
    (fun s =>
      let a := gRead (flintOf s f) i.a.toNat
      if a &&& ~~~ (0xFF000000 : DWord) ≠ 0 then seqFault s f 4
      else setFlint s f fun x => fpNext { x with e := x.e ||| a }) s
/-- EVRD: g[D] := the 64 event flags. -/
def execFpEvrd (f : FlintId) (i : FrReg) (s : State) : Out :=
  fpExec (Instr.wf (.fpEvrd f i)) f i.pneg i.pidx (fpObtain f (fun s => (flintOf s f).e) fun x v => gWrite x i.d.toNat v) s
/-- WAITT (R154). -/
def execFpWaitt (f : FlintId) (i : FrReg) (s : State) : Out := fpExec (Instr.wf (.fpWaitt f i)) f i.pneg i.pidx (fun s => fpWaitT s f i) s
/-- WAITL (R155). -/
def execFpWaitl (f : FlintId) (i : FrReg) (s : State) : Out := fpExec (Instr.wf (.fpWaitl f i)) f i.pneg i.pidx (fun s => fpWaitL s f i) s
/-- RDTIME: g[D] := the time of R154. -/
def execFpRdtime (f : FlintId) (i : FrReg) (s : State) : Out :=
  fpExec (Instr.wf (.fpRdtime f i)) f i.pneg i.pidx
    (fpObtain f (fun s => BitVec.ofNat 64 (timeNs s.time)) fun x v => gWrite x i.d.toNat v) s
/-- RDPOS: g[D] := the scan position of R155. -/
def execFpRdpos (f : FlintId) (i : FrReg) (s : State) : Out :=
  fpExec (Instr.wf (.fpRdpos f i)) f i.pneg i.pidx (fpObtain f scanWord fun x v => gWrite x i.d.toNat v) s
/-- TSET: timer FUNC[1:0] := a[31:0] ns (R153). -/
def execFpTset (f : FlintId) (i : FrReg) (s : State) : Out :=
  fpLocal (Instr.wf (.fpTset f i)) f i.pneg i.pidx
    (fun x => { x with timers := x.timers.set (Fin.ofNat 4 i.func.toNat) ((gRead x i.a.toNat).toNat % 2 ^ 32) }) s
/-- LAUNCH (R157). -/
def execFpLaunch (f : FlintId) (i : FrImm) (s : State) : Out := fpExec (Instr.wf (.fpLaunch f i)) f i.pneg i.pidx (fun s => fpLaunch s f i) s
/-- BIND: the layer bind request goes to Quartz (R158). -/
def execFpBind (f : FlintId) (i : FrReg) (s : State) : Out :=
  fpExec (Instr.wf (.fpBind f i)) f i.pneg i.pidx
    (fun s =>
      let x := flintOf s f
      let frame := (gRead x i.a.toNat).toNat % 2 ^ 32
      let t := (gRead x i.b.toNat).toNat
      fpAction s f 0 (leBytes frame 4 ++ leBytes t 8) fun n s =>
        if serves s 3 then regionAction s 3 n fun s => bindRequest s ⟨frame, t / 1000000000, t % 1000000000⟩ else s) s
/-- DMA (R159). -/
def execFpDma (f : FlintId) (i : FrImm) (s : State) : Out := fpExec (Instr.wf (.fpDma f i)) f i.pneg i.pidx (fun s => fpDma s f i) s
/-- BRXJ (R160). -/
def execFpBrxj (f : FlintId) (i : FrImm) (s : State) : Out := fpExec (Instr.wf (.fpBrxj f i)) f i.pneg i.pidx (fun s => fpBrxj s f i) s
/-- PWR: the request goes to Slate (R160, R488). -/
def execFpPwr (f : FlintId) (i : FrImm) (s : State) : Out :=
  fpExec (Instr.wf (.fpPwr f i)) f i.pneg i.pidx
    (fun s => fpAction s f 0 (leBytes i.imm.toNat 4) fun n s => regionAction s 0 n fun s => powerRequest s i.imm true) s
/-- SEMACQ (R161). -/
def execFpSemacq (f : FlintId) (i : FrImm) (s : State) : Out := fpExec (Instr.wf (.fpSemacq f i)) f i.pneg i.pidx (fun s => fpSemAcq s f i) s
/-- SEMTRY (R161). -/
def execFpSemtry (f : FlintId) (i : FrImm) (s : State) : Out := fpExec (Instr.wf (.fpSemtry f i)) f i.pneg i.pidx (fun s => fpSemTry s f i) s
/-- SEMREL (R161). -/
def execFpSemrel (f : FlintId) (i : FrImm) (s : State) : Out := fpExec (Instr.wf (.fpSemrel f i)) f i.pneg i.pidx (fun s => fpSemRel s f i) s
/-- CKPT (R163). -/
def execFpCkpt (f : FlintId) (i : FrImm) (s : State) : Out := fpExec (Instr.wf (.fpCkpt f i)) f i.pneg i.pidx (fun s => fpCkpt s f i.imm) s
/-- NOP. -/
def execFpNop (f : FlintId) (s : State) : Out := fpLocal true f false 0 (fun x => x) s
/-- FENCE: waits until every earlier write is acknowledged; a region that follows has none. -/
def execFpFence (f : FlintId) (s : State) : Out :=
  fpExec true f false 0 (fun s => if fpWrites s f = 0 then setFlint s f fpNext else fpWaits s f .fence) s
/-- HALT (R167). -/
def execFpHalt (f : FlintId) (s : State) : Out := fpExec true f false 0 (fun s => seqHalted s f) s

/-! Meanings of what happens to the program. -/

/-- WAITE_TIMEOUT (R151). -/
def execWaiteTimeout (f : FlintId) (s : State) : Out := .next (waitTimesOut s f)

/-- WAITT_REACHED (R154). -/
def execWaittReached (f : FlintId) (s : State) : Out := .next (timeReached s f)

/-- TIMER_EXPIRED (R153). -/
def execTimerExpired (f : FlintId) (t : Fin 4) (s : State) : Out := .next (timerEnds s f t)

/-- WATCHDOG_EXPIRED (R168). -/
def execWatchdogExpired (f : FlintId) (s : State) : Out := .next (wdogExpires s f)

/-- DMA_END (R160). -/
def execDmaEnd (f : FlintId) (ch : Fin 4) (s : State) (flashError : Option (BitVec 32) := none) : Out := .next (dmaEnds s f ch flashError)

/-- CHECKPOINT_WRITTEN (R163, R410). -/
def execCheckpointWritten (f : FlintId) (s : State) : Out := .next (ckptDone s f)

/-- MIRROR_RECORD (R409). -/
def execMirrorRecord (r : MirrorRec) (s : State) : Out := .next (mirrorArrives s r)

/-- LAUNCH_RECORD: a region accepts a record, and its queue entry is free for a LAUNCH that waits (R113, R118, R119). -/
def execLaunchRecord (g : Fin 4) (r : LaunchRec) (s : State) : Out :=
  .next (launchSettle (launchSettle (acceptLaunch s g r) .a) .b)

/-- CODER_LANE_TAKE_ITEM: free coder lanes take items, and queues have room for a BRXJ that waits (R160, R236). -/
def execCoderLaneTakeItem (s : State) : Out := .next (brxjSettle (brxjSettle (coderTake s) .a) .b)

end Sys2Proof.Machine
end

