-- ==== Sys2Proof/Machine/HostPort.lean ====
section
/-! DEFINITION. The host ports' frames, the responses and acknowledgements that arrive, the mailbox (R148, R149, R461 to R478). -/

namespace Sys2Proof.Machine

/-! Frames (R461 to R465). -/

/-- HA_IRQ_N or HB_IRQ_N is low (R473). -/
def hostIrqLow (s : State) (h : HostId) : Bool :=
  (readReg s (hostKey h sltHostIrqStatus) &&& readReg s (hostKey h sltHostIrqEn)) != 0

/-- The frame ends at the rise of CS_N: a level written takes effect (R462, R477). -/
def frameEnds (s : State) (h : HostId) : State :=
  let l := getF s (hostKey h sltHostProto) 0 2
  let s := setHost s h fun x => { x with level := l }
  setF (setF s (hostKey h sltHostVersion) 4 4 ([0, 1, 2, 2].getD l 0)) (hostKey h sltHostVersion) 0 4 (if l = 3 then 1 else 0)

/-- Bytes on IO3 to IO0: high nibble first (R461). -/
def nibbles (bs : List Byte) : List (BitVec 4) := bs.flatMap fun b => [b.extractLsb' 4 4, b.extractLsb' 0 4]

/-- The port's answer: bytes and status; CRC, FRAME and LEVEL set PROTO_ERROR (R461, R463, R464, R477). -/
def hostAnswer (s : State) (h : HostId) (a : List Byte × Nat) : State :=
  let s := setHost s h fun x => { x with answer := some a, io := nibbles (a.1 ++ leBytes a.2 1) }
  if a.2 = 3 ∨ a.2 = 4 ∨ a.2 = 7 then hostIrq s h 5 else s

/-- The frame gets no answer. -/
def hostSilent (s : State) (h : HostId) : State := setHost s h fun x => { x with answer := none, io := [] }

/-- A frame whose host part is cut short: nothing is done, and its length disagrees with the command (R464, R465, R477). -/
def hostCut (s : State) (h : HostId) : State := hostIrq (hostSilent s h) h 5

/-- The host's bytes of a command with an address or a flash offset, most significant byte first (R461, R463). -/
def addrBytes (cmd : Byte) (a : Word) (rest : List Byte) : List Byte := cmd :: ((leBytes a.toNat 4).reverse ++ rest)

/-- The CRC-16 that follows the host's bytes is the one of R315 over all of them (R463). -/
def crcGood (fr : FrameEnd) (host : List Byte) : Bool := fr.crc == some (BitVec.ofNat 16 (crc16 host))

/-- A frame of a command of at least level `least`, with the host's bytes: its CRC at level 2.1, its level and its form are checked; one that passes is carried out and answered. At level 2.1 a frame that ends before its CRC does nothing, unless the command counts as arrived then. None is answered while Slate's clock does not run (R462 to R465, R482). -/
def hostFrame (s : State) (h : HostId) (fr : FrameEnd) (host : List Byte) (early : Bool) (least : Nat) (formOk : Bool)
    (f : State → State × (List Byte × Nat)) : State :=
  if !slateUp s then hostSilent s h
  else
    let l := (hostOf s h).level
    let s :=
      if fr.cut then hostCut s h
      else if l = 3 ∧ fr.crc.isNone then (if early && formOk then hostSilent (f s).1 h else hostCut s h)
      else if l = 3 ∧ !crcGood fr host then hostAnswer s h ([], 3)
      else if max 1 l < least then hostAnswer s h ([], 7)
      else if !fr.lengthOk || !formOk then hostAnswer s h ([], 4)
      else
        let (s, a) := f s
        hostAnswer s h a
    frameEnds s h

/-! Addresses (R466). -/

/-- APERTURE (R466). -/
def aperture (s : State) (h : HostId) : Nat :=
  (getF s (hostKey h sltHostApertureLo) 20 12) * 1048576 + getF s (hostKey h sltHostApertureHi) 0 8 * 2 ^ 32

/-- The device physical address of a host access to `n` words at host address `a`, or its status: FRAME where the burst leaves its window, UNMAPPED (R464, R466). -/
def hostMap (s : State) (h : HostId) (a n : Nat) : Except Nat Nat :=
  let last := a + 4 * n - 1
  if a < 0x1000000 then (if last / 0x100000 = a / 0x100000 then .ok (0xFFF0000000 + a) else .error 4)
  else if 0x10000000 ≤ a ∧ a < 0x20000000 then
    if 0x20000000 ≤ last then .error 4
    else
      let d := aperture s h + (a - 0x10000000)
      if dramTop s < d + 4 * n then .error 5 else .ok d
  else .error 5

/-- COUNT of READ and WRITE is in range for the level, and the address is aligned (R462, R464). -/
def hostForm (s : State) (h : HostId) (a n : Nat) : Bool :=
  decide (1 ≤ n) && decide (n ≤ if (hostOf s h).level < 2 then 1 else 64) && a % 4 == 0

/-! Writes (R467, R468). -/

/-- One word of a host write: it takes effect in order, and its acknowledgement comes later (R24, R467). -/
def hostPut (s : State) (h : HostId) (a d : Nat) (v : Word) : State :=
  let q := hostReq h
  let s := setHost s h fun x => { x with buffered := x.buffered + 1 }
  if 0xFFF0000000 ≤ d then
    let o := d - 0xFFF0000000
    if serves s (o / 0x100000) then addAck (busWrite (reqAt s q (o / 0x100000)) q o v) (.host h a) 0 else addAck s (.host h a) 2
  else
    let (st, s) := dramStore s d (leBytes v.toNat 4)
    addAck s (.host h a) st

/-- WRITE (R463, R464, R467). -/
def hostWrite (s : State) (h : HostId) (a : Nat) (ws : List Word) : State × (List Byte × Nat) :=
  match hostMap s h a ws.length with
  | .error st => (s, ([], st))
  | .ok d =>
    if 64 < (hostOf s h).buffered + ws.length then (s, ([], 1))
    else ((List.range ws.length).foldl (fun s i => hostPut s h (a + 4 * i) (d + 4 * i) (ws.getD i 0)) s, ([], 0))

/-- The acknowledgement of a host's write: the first error since WRITE_ERROR was cleared is latched and raised (R467, R478). -/
def hostAck (s : State) (h : HostId) (a status : Nat) : State :=
  let s := setHost s h fun x => { x with buffered := x.buffered - 1 }
  if status = 0 || getB s (hostKey h sltHostIrqStatus) 3 then s
  else
    let s := setReg (setReg s (hostKey h sltHostWerrAddr) (BitVec.ofNat 32 a)) (hostKey h sltHostWerrStatus) (BitVec.ofNat 32 status)
    raise (hostIrq s h 3) 1 0 0x171 2 0xFF ((if h = .b then 1 else 0) + 256 * status)

/-! Reads (R463, R466, R467). -/

/-- Register words read in ascending order, each once; the first error is the read's (R466). -/
def regWords (q : Requester) : List Nat → State → Nat × List Byte × State
  | [], s => (0, [], s)
  | a :: r, s =>
    let (st, v, s) := busRead (reqAt s q (a / 0x100000)) q a
    let (rest, bs, s) := regWords q r s
    (if st = 0 then rest else st, leBytes v.toNat 4 ++ bs, s)

/-- The read is carried out: its data, or the status of its error. -/
def hostFetch (s : State) (h : HostId) (r : HostRead) : State × (List Byte × Nat) :=
  if r.flash then (flashSend s [flashReadCmd s r.addr r.count], (flashBytes s r.addr r.count, 0))
  else if 0xFFF0000000 ≤ r.addr then
    let o := r.addr - 0xFFF0000000
    let (st, bs, s) := regWords (hostReq h) ((List.range (r.count / 4)).map fun i => o + 4 * i) s
    (s, (bs, st))
  else
    let st := readStatus s 0 r.addr r.count
    (poisonSeen s 0 r.addr r.count, (if st = 0 then readBytes s r.addr r.count else [], st))

/-- The bytes of an answer with data: the start byte, the data, and at level 2.1 a CRC-16 of both; an error answers its status alone (R463, R464). -/
def dataAnswer (s : State) (h : HostId) (x : List Byte × Nat) : List Byte × Nat :=
  if x.2 ≠ 0 then ([], 0x80 + x.2)
  else
    let bs := 0xA5 :: x.1
    (if (hostOf s h).level = 3 then bs ++ leBytes (crc16 bs) 2 else bs, 0)

/-- The pending read is carried out once no earlier write of the port is unacknowledged (R467). -/
def readRuns (s : State) (h : HostId) : State :=
  match (hostOf s h).read with
  | some r =>
    if r.result.isSome || (hostOf s h).buffered != 0 then s
    else
      let (s, x) := hostFetch s h r
      setHost s h fun p => { p with read := if r.drop then none else some { r with result := some x } }
  | none => s

/-- The pending read is answered with its data where that is there, else PENDING (R463). -/
def readAnswer (s : State) (h : HostId) (ready : Bool) : State × (List Byte × Nat) :=
  let s := if ready then readRuns s h else s
  match (hostOf s h).read with
  | some r =>
    match r.result with
    | some x => (setHost s h fun p => { p with read := none }, dataAnswer s h x)
    | none => (s, ([0x5A], 6))
  | none => (s, ([], 4))

/-- A read is taken unless one is pending (R463, R464). -/
def readTaken (s : State) (h : HostId) (flash ready : Bool) (a n : Nat) : State × (List Byte × Nat) :=
  if (hostOf s h).read.isSome then (s, ([], 2))
  else readAnswer (setHost s h fun p => { p with read := some ⟨flash, a, n, false, none⟩ }) h ready

/-- READ (R463). -/
def hostRead (s : State) (h : HostId) (ready : Bool) (a n : Nat) : State × (List Byte × Nat) :=
  match hostMap s h a n with
  | .error st => (s, ([], st))
  | .ok d => readTaken s h false ready d (4 * n)

/-- A read frame that is cut short: the read is taken and its data discarded when it comes; a FETCH discards the pending read (R465). -/
def readCut (s : State) (h : HostId) : State :=
  let s := setHost s h fun p => { p with read := p.read.map fun r => { r with drop := true } }
  hostSilent (match (hostOf s h).read with
    | some r => if r.result.isSome then setHost s h fun p => { p with read := none } else s
    | none => s) h

/-- A frame of READ or FLASH_READ: where CS_N rises in the answer, its data is lost (R465). -/
def readFrame (s : State) (h : HostId) (fr : FrameEnd) (host : List Byte) (formOk : Bool) (f : State → State × (List Byte × Nat)) : State :=
  let t := hostFrame s h { fr with cut := false } host false 0 formOk f
  if !fr.cut then t
  else if (hostOf s h).read.isSome then hostSilent t h
  else readCut t h

/-- A frame of FETCH: with none pending there is nothing to fetch (R463, R464, R465). -/
def fetchFrame (s : State) (h : HostId) (fr : FrameEnd) (ready : Bool) : State :=
  if fr.cut && slateUp s then frameEnds (readCut s h) h
  else hostFrame s h fr [0x03] false 2 (hostOf s h).read.isSome fun s => readAnswer s h ready

/-- The four bytes of STATUS (R463). -/
def statusBytes (s : State) (h : HostId) : List Byte :=
  let x := hostOf s h
  leBytes (getF s (hostKey h sltHostIrqStatus) 0 8) 1 ++ leBytes x.events.length 1 ++ leBytes (64 - x.buffered) 1
    ++ leBytes (b2n x.read.isSome + 2 * b2n s.slate.flashOp.isSome) 1

/-! Semaphore commands (R436, R469, R470). -/

/-- A semaphore command: a number above 31 is FRAME; it is carried out once its semaphore byte has arrived (R465, R469). -/
def semFrame (s : State) (h : HostId) (fr : FrameEnd) (cmd : Byte) (least : Nat) (n : Nat) (f : State → State × Nat) : State :=
  hostFrame s h fr [cmd, BitVec.ofNat 8 n] true least (decide (n < 32)) fun s => ((f s).1, ([], (f s).2))

/-- SEM_RELEASE (R469). -/
def semGive (s : State) (h : HostId) (n : Nat) : State × Nat :=
  if (semOf s n).holder = some (.host h) then (semFree s n, 0) else (s, 0x0B)

/-- SEM_CANCEL; a grant in the same clock stands (R469). -/
def semCancel (s : State) (h : HostId) (n : Nat) : State × Nat :=
  if (semOf s n).waiters.contains (.host h) then (semLeave s (.host h) n, 0)
  else if s.slate.grantClock.contains (n, h) && (semOf s n).holder == some (.host h) then (s, 8)
  else (s, 0x0B)

/-- SEM_BREAK (R470, R478). -/
def semBreak (s : State) (h : HostId) (n : Nat) : State × Nat :=
  match (semOf s n).holder with
  | some (.host g) =>
    (raise (semFree s n) 1 0 0x170 2 0xFF (n + (if h = .b then 256 else 0) + 4096 * ownerCode (some (.host g))), 0)
  | _ => (s, 0x0B)

/-! Flash commands (R476). -/

/-- A flash range of COUNT bytes lies in the flash (R438, R463). -/
def flashForm (s : State) (a n : Nat) : Bool := decide (1 ≤ n) && decide (a + n ≤ s.slate.flashSize)

/-- A flash command runs unless one does (R476). -/
def flashFree (s : State) (f : State → State × (List Byte × Nat)) : State × (List Byte × Nat) :=
  if s.slate.flashOp.isSome then (s, ([], 2)) else f s

/-- A program or erase starts, or is refused by R439 (R476). -/
def flashChange (s : State) (o : FlashOp) (a n : Nat) : State × (List Byte × Nat) :=
  flashFree s fun s => if flashProtected s a n then (s, ([], 0x0C)) else (flashStart s o, ([], 0))

/-- Bytes that FLASH_ERASE erases (R463). -/
def eraseBytes (size : Nat) : Nat := if size = 0 then 4096 else 65536

/-! Responses and acknowledgements (R148, R149, R467). -/

/-- A register read's response arrives at its requester (R149, R463). -/
def responseArrives (s : State) (q : Requester) : State :=
  match q with
  | .fp => readResponse (readResponse s .a) .b
  | .ha => readRuns s .a
  | .hb => readRuns s .b

/-- The list without its entry `n`. -/
def dropAt {α : Type} : List α → Nat → List α
  | [], _ => []
  | _ :: r, 0 => r
  | x :: r, n + 1 => x :: dropAt r n

/-- The acknowledgement of outstanding write `n`, oldest first, arrives (R24, R78, R82, R148, R149, R467). -/
def ackArrives (s : State) (n : Nat) : State :=
  match s.acks[n]? with
  | none => s
  | some a =>
    let s := { s with acks := dropAt s.acks n }
    match a.who with
    | .host h addr => hostAck s h addr a.status
    | .frame f addr => writesSettle (if a.status = 0 then s else accessError s f a.status addr) f
    | .layer p id stamp => layerAck s p id stamp a.status
    | .other _ => s

/-! Meanings. -/

/-- WRITE (R463). -/
def execWrite (h : HostId) (fr : FrameEnd) (addr : Word) (count : Byte) (data : List Word) (s : State) : Out :=
  .next (hostFrame s h fr (addrBytes 0x01 addr (count :: data.flatMap fun w => leBytes w.toNat 4)) false 0
    (hostForm s h addr.toNat count.toNat && data.length == count.toNat) fun s => hostWrite s h addr.toNat data)

/-- READ (R463). -/
def execRead (h : HostId) (fr : FrameEnd) (addr : Word) (count : Byte) (ready : Bool) (s : State) : Out :=
  .next (readFrame s h fr (addrBytes 0x02 addr [count]) (hostForm s h addr.toNat count.toNat) fun s => hostRead s h ready addr.toNat count.toNat)

/-- FETCH (R463). -/
def execFetch (h : HostId) (fr : FrameEnd) (ready : Bool) (s : State) : Out := .next (fetchFrame s h fr ready)

/-- STATUS (R463). -/
def execStatus (h : HostId) (fr : FrameEnd) (s : State) : Out :=
  .next (hostFrame s h fr [0x04] false 2 true fun s => (s, (statusBytes s h, 0)))

/-- SEM_TRY (R469). -/
def execSemTry (h : HostId) (fr : FrameEnd) (sem : Byte) (s : State) : Out :=
  .next (semFrame s h fr 0x10 0 sem.toNat fun s => semAsk s (.host h) sem.toNat false)

/-- SEM_ACQUIRE (R469). -/
def execSemAcquire (h : HostId) (fr : FrameEnd) (sem : Byte) (s : State) : Out :=
  .next (semFrame s h fr 0x11 3 sem.toNat fun s => semAsk s (.host h) sem.toNat true)

/-- SEM_RELEASE (R436, R469). -/
def execSemRelease (h : HostId) (fr : FrameEnd) (sem : Byte) (s : State) : Out :=
  .next (semFrame s h fr 0x12 0 sem.toNat fun s => semGive s h sem.toNat)

/-- SEM_CANCEL (R469). -/
def execSemCancel (h : HostId) (fr : FrameEnd) (sem : Byte) (s : State) : Out :=
  .next (semFrame s h fr 0x13 2 sem.toNat fun s => semCancel s h sem.toNat)

/-- SEM_BREAK (R470). -/
def execSemBreak (h : HostId) (fr : FrameEnd) (sem : Byte) (s : State) : Out :=
  .next (semFrame s h fr 0x14 0 sem.toNat fun s => semBreak s h sem.toNat)

/-- FLASH_READ (R463, R476). -/
def execFlashRead (h : HostId) (fr : FrameEnd) (offset : Word) (count : Byte) (ready : Bool) (s : State) : Out :=
  .next (readFrame s h fr (addrBytes 0x30 offset [count]) (flashForm s offset.toNat count.toNat) fun s =>
    flashFree s fun s => readTaken s h true ready offset.toNat count.toNat)

/-- FLASH_PROGRAM (R476). -/
def execFlashProgram (h : HostId) (fr : FrameEnd) (offset : Word) (count : Byte) (data : List Byte) (s : State) : Out :=
  let a := offset.toNat
  let n := count.toNat
  .next (hostFrame s h fr (addrBytes 0x31 offset (count :: data)) false 0 (flashForm s a n && data.length == n && decide (a % 256 + n ≤ 256)) fun s =>
    flashChange s ⟨h, some (a, data), none⟩ a n)

/-- FLASH_ERASE (R476). -/
def execFlashErase (h : HostId) (fr : FrameEnd) (offset : Word) (size : Byte) (s : State) : Out :=
  let a := offset.toNat
  let n := eraseBytes size.toNat
  .next (hostFrame s h fr (addrBytes 0x32 offset [size]) false 0 (decide (size.toNat < 2) && a % n == 0 && flashForm s a n) fun s =>
    flashChange s ⟨h, none, some (a, n)⟩ a n)

/-- MAILBOX: the lease holder's frame program writes FLA_HOST_MAIL (R475). -/
def execMailbox (f : FlintId) (v : Word) (s : State) : Out :=
  .next (if flintUp s f && holder s == some f then mailbox s v else s)

/-- REGISTER_READ_RESPONSE (R149). -/
def execRegisterReadResponse (q : Requester) (s : State) : Out := .next (responseArrives s q)

/-- WRITE_ACK (R148). -/
def execWriteAck (n : Nat) (s : State) : Out := .next (ackArrives s n)

end Sys2Proof.Machine
end

