-- ==== Sys2Proof/Machine/LinkRows.lean ====
section
/-! DEFINITION. The meanings of the rows of the serial links (R311 to R342). -/

namespace Sys2Proof.Machine

/-- What a link does while panel training runs: a failed lane group or backchannel lane fails the power-on sequence (R304, R326). -/
def panelJudged (s : State) : State := if s.obs.step == .training && panelFailed s then powerOnFails s else s

/-- A command of a lane: with no effect while its region does not run. -/
def onLane (s : State) (l : Lane) (f : State → State) : State := if serves s (laneRegion l) then panelJudged (f s) else s

/-- The lanes that a link selection names. -/
def selLanes : LinkSel → List Lane
  | .port p => portLanes p
  | .group g => (List.finRange 4).map fun j => .panel g j
  | .backchannel => (List.finRange 4).map fun j => .back j

/-- A link is enabled: ENABLE of a source port is written 1; a lane group or the backchannel trains from OFF (R304, R326, R338). -/
def linkEnables (s : State) (l : LinkSel) : State :=
  match l with
  | .port p => whenServes s 3 fun s => linkCtrlWrite s p (readReg s (qtzPortLinkCtrl p.val) ||| 1)
  | .group _ | .backchannel =>
    whenServes s 14 fun s => if (selLanes l).all fun x => (laneOf s x).st == 0 then trainGroup s l else s

/-- A failed port tries again while ENABLE is 1 (R326). -/
def portRetries (s : State) (p : Fin 4) : State :=
  if getB s (qtzPortLinkCtrl p.val) 0 && linkState s p == 0 then trainPort s p else s

/-! Meanings. -/

/-- LINK_ENABLE (R326). -/
def execLinkEnable (l : LinkSel) (s : State) : Out := .next (linkEnables s l)

/-- LINK_RETRAIN (R338). -/
def execLinkRetrain (p : Fin 4) (q : Requester) (s : State) : Out :=
  .next (reqServes s q 3 fun s => linkCtrlWrite s p (readReg s (qtzPortLinkCtrl p.val) ||| 0x80))

/-- BLOCK_RECEIVED (R312, R314). -/
def execBlockReceived (l : Lane) (header : BitVec 4) (payload : List Byte) (s : State) : Out :=
  .next (onLane s l fun s => drvReplies (blockIn s l header.toNat payload))

/-- SKIP_RECEIVED (R313). -/
def execSkipReceived (l : Lane) (payload : List Byte) (s : State) : Out := .next (onLane s l fun s => skipBlock s l payload)

/-- TRAIN_RECEIVED (R326). -/
def execTrainReceived (l : Lane) (payload : List Byte) (s : State) : Out := .next (onLane s l fun s => trainBlock s l payload)

/-- CAPS_RECEIVED (R329). -/
def execCapsReceived (l : Lane) (payload : List Byte) (s : State) : Out := .next (onLane s l fun s => capsBlock s l payload)

/-- EQ_PRESET_MEASURED (R331). -/
def execEqPresetMeasured (l : Lane) (width : Nat) (s : State) : Out := .next (onLane s l fun s => eqMeasured s l width)

/-- TRAINING_TIMEOUT (R326). -/
def execTrainingTimeout (l : Lane) (s : State) : Out := .next (onLane s l fun s => laneTimeout s l)

/-- TRAINING_RETRY (R326). -/
def execTrainingRetry (p : Fin 4) (s : State) : Out := .next (whenServes s 3 fun s => portRetries s p)

/-- LANE_RATE_WINDOW (R316). -/
def execLaneRateWindow (l : Lane) (ppm : Option Int) (s : State) : Out := .next (onLane s l fun s => rateWindow s l ppm)

/-- MARGIN_ROUND (R332). -/
def execMarginRound (l : Lane) (error : Bool) (s : State) : Out := .next (onLane s l fun s => marginEnds s l error)

/-- PACKET_RECEIVED (R320). -/
def execPacketReceived (p : Fin 4) (pkt : SlPacket) (s : State) : Out := .next (packetIn s p pkt)

/-- ACK_RECEIVED (R321). -/
def execAckReceived (p : Fin 4) (seq : BitVec 12) (s : State) : Out := .next (whenServes s 3 fun s => ackIn s p seq.toNat)

/-- NAK_RECEIVED (R321). -/
def execNakReceived (p : Fin 4) (seq : BitVec 12) (s : State) : Out := .next (whenServes s 3 fun s => nakIn s p seq.toNat)

/-- REPLAY_TIMEOUT (R321). -/
def execReplayTimeout (p : Fin 4) (s : State) : Out := .next (whenServes s 3 fun s => resend s p)

/-- CREDIT_RECEIVED (R322). -/
def execCreditReceived (p : Fin 4) (channel : Fin 2) (credits : BitVec 16) (s : State) : Out :=
  .next (whenServes s 3 fun s => creditIn s p channel credits.toNat)

/-- LINE_REPORT (R325). -/
def execLineReport (b : Fin 4) (payload : List Byte) (s : State) : Out := .next (onLane s (.back b) fun s => lineReportIn s b payload)

/-- EYE_START (R333). -/
def execEyeStart (r : LinkRegion) (q : Requester) (v : Word) (s : State) : Out :=
  .next (reqServes s q (if r = .quartz then 3 else 14) fun s => eyeWrite s r v)

/-- EYE_POINT_DONE (R333). -/
def execEyePointDone (r : LinkRegion) (errors : Nat) (s : State) : Out :=
  .next (whenServes s (if r = .quartz then 3 else 14) fun s => eyeDone s r errors)

/-- TIME_LINK (R337). -/
def execTimeLink (up speedRefused : Bool) (s : State) : Out := .next (whenServes s 15 fun s => timeLinkIn s up speedRefused)

/-- LANE_TEST (R333). -/
def execLaneTest (r : LinkRegion) (p : Fin 4) (q : Requester) (v : Word) (s : State) : Out :=
  .next (match r with
    | .quartz => reqServes s q 3 fun s => linkCtrlWrite s p v
    | .obsidian => reqServes s q 14 fun s => panelJudged (obsLinkWrite s v))

end Sys2Proof.Machine
end

