-- ==== Sys2Proof/Machine/MemRows.lean ====
section
/-! DEFINITION. What packets of the mesh do where they are received, and the meanings of the memory rows (R22 to R31, R250 to R270, R550). -/

namespace Sys2Proof.Machine

/-! The mesh (R20, R22 to R31). -/

/-- A packet comes over a link into router `r`: its words are corrected, or marked poisoned and reported; an unlisted opcode is discarded. It then goes on from there by the network's clocks. A region that drains sends no request, and no request goes out under a tag that is outstanding (R20, R22, R23, R29, R30). -/
def nocRouter (s : State) (r : Fin 40) (p : Packet) : State :=
  let q := headArrives p
  let o := pOpcode q
  let src := pSrc q
  if !packetOk q then s
  else if o < 5 && (!serves s src.val || (answered o && tagTaken s src (pTag q))) then s
  else
    let reg := routerRegion r.val
    let head := linkHead p
    let body := linkWords q
    let n := ((head ++ body).filter fun w => w.2.1).length
    let s := { s with linkCorrected := vUpd s.linkCorrected r fun x => x + n }
    let s := (List.range ((head ++ body).filter fun w => w.2.2).length).foldl (fun s _ => raise s 0 reg 0x3F8 0xFF 0xFF 0) s
    if !opcodeListed o then raise s 1 reg 0x3F9 0xFF 0xFF 0
    else
      let s := if answered o then setTags s src fun l => l ++ [pTag q] else s
      meshSend s r { q with payload := body.map fun w => w.1 } (routerFor s (pDst q).val (pAddr q))

/-- An address in no DRAM range and no region window (R31). -/
def addrUnmapped (s : State) (a : Nat) : Bool :=
  decide (dramTop s ≤ a) && !(decide (0xFFF0000000 ≤ a) && decide (a < 0xFFF1000000))

/-- What a request that carries a class is for (R256). -/
def useOf (src cls : Nat) : Option DramUse :=
  [DramUse.rayRead, .overlayFetch, .repeatFill, .layerWrite, .shadowWrite, .calMap, .dma, .hostAperture, .blitter, .boraxJob, .migration, .other].find? fun u =>
    useClass u == cls && (useRegions u).contains src

/-- The line request that a packet makes (R23, R256). -/
def packetReq (p : Packet) : Option LineReq :=
  (useOf (pSrc p).val (pTag p / 64)).map fun u => ⟨pSrc p, u, BitVec.ofNat 8 (pTag p), pAddr p / 256⟩

/-- The byte enables of a write packet over its line (R23). -/
def packetEnables (p : Packet) : BitVec 256 :=
  let o := pAddr p % 256
  BitVec.ofNat 256 ((if pLength p = 1 then pEnables p else 2 ^ (32 * pLength p) - 1) * 2 ^ o)

/-- The bytes of a write packet over its line. -/
def packetBytes (p : Packet) : List Byte :=
  List.replicate (pAddr p % 256) 0 ++ p.payload.flatMap fun w => leBytes w.data.toNat 8

/-- The words of a write packet that arrived poisoned, over its line (R30). -/
def packetPoison (p : Packet) : BitVec 32 :=
  BitVec.ofNat 32 (sumNat ((List.range p.payload.length).map fun k => b2n (wordPoisoned p k) * 2 ^ k) * 2 ^ (pAddr p % 256 / 8))

/-- The oldest packet that waits at an interface from one source on one channel: packets of one source to one destination on one channel are received in the order sent (R28). -/
def oldestFrom (s : State) (r : Fin 16) (p : Packet) : Option (Fin 16 × Packet) :=
  s.net.find? fun e => e.1 == r && pSrc e.2 == pSrc p && pChannel e.2 == pChannel p

/-- A request at a Bauxite interface for DRAM: a read joins its channel's queue, a write is carried out, with its poisoned words; the second part says that the request is done with (R30, R257, R259). -/
def dramPacket (s : State) (p : Packet) : State × Bool :=
  match packetReq p with
  | none => (s, false)
  | some req =>
    if pOpcode p = 0 then
      match mapAddr s (pAddr p) with
      | none => (s, false)
      | some pl =>
        let c := s.dram.ch[readChan s pl]
        if 64 ≤ c.readQ.length && !c.readQ.contains req && dramUp s then (s, false) else (dramRead s req [], true)
    else dramWrite s req (packetEnables p) (packetBytes p) (packetPoison p) [] (pOpcode p == 2)

/-- An interface consumes a packet that has come to it whole: a response ends its tag; an unmapped address is answered; an event goes to the collector, a DRAM request to its channel. What else a request asks for is that request's own command (R23, R28 to R31, R433). -/
def nocIface (s : State) (r : Fin 16) (p : Packet) : State :=
  if oldestFrom s r p != some (r, p) then s
  else
    let gone (s : State) : State := { s with net := s.net.erase (r, p) }
    let o := pOpcode p
    if 5 ≤ o then gone (setTags s r fun l => l.erase (pTag p))
    else if answered o && addrUnmapped s (pAddr p) then
      answer (gone s) r.val (pSrc p) (BitVec.ofNat 8 (pTag p)) (okOpcode o) 3 (pAddr p) []
    else if o = 3 && r = 0 then eventArrives (gone s) (pEvent p)
    else if 8 ≤ r.val && r.val < 12 && o < 3 && pAddr p < dramTop s then
      let x := dramPacket s p
      if x.2 then gone x.1 else x.1
    else gone s

/-! Meanings. -/

/-- NOC_PACKET (R23). -/
def execNocPacket (at_ : NocAt) (p : Packet) (s : State) : Out :=
  .next (match at_ with
    | .router r => nocRouter s r p
    | .iface r => nocIface s r p)

/-- BRING_UP: a write of BXT_CONFIG (R270, R550). -/
def execBringUp (q : Requester) (v : Word) (s : State) : Out := .next (reqServes s q 8 fun s => bauxiteWrite s q 8 0x100 v)

/-- DRAM_TRAINED (R263). -/
def execDramTrained (ch : Fin 32) (res : TrainResult) (s : State) : Out := .next (dramTrained s ch res)

/-- DRAM_INIT_DONE (R550). -/
def execDramInitDone (s : State) : Out :=
  .next (
    let t := dramInitDone s
    if dramUp t && !dramUp s then calDramUp t else t)

/-- DRAM_READ (R257). -/
def execDramRead (req : LineReq) (flips : LineFlips) (s : State) : Out := .next (dramRead s req flips)

/-- DRAM_WRITE (R259). -/
def execDramWrite (req : LineReq) (enables : BitVec 256) (data : List Byte) (flips : LineFlips) (s : State) (poison : BitVec 32 := 0) : Out :=
  .next (dramWrite s req enables data poison flips false).1

/-- WRITE_DRAIN (R258). -/
def execWriteDrain (ch : Fin 32) (byAge : Bool) (issued : List Nat) (s : State) : Out := .next (writeDrain s ch byAge issued)

/-- MIGRATION_COPY (R265). -/
def execMigrationCopy (quad : Fin 4) (flips : LineFlips) (s : State) : Out := .next (migrationCopy s quad flips)

/-- REFRESH_WINDOW (R260). -/
def execRefreshWindow (s : State) : Out := .next (refreshWindow s)

/-- MR4_READ (R261, R388). -/
def execMr4Read (ch : Fin 32) (rank : Fin 2) (mult : RefreshMult) (derate : Bool) (s : State) : Out :=
  .next (
    let t := mr4Read s ch rank mult derate
    if dramUp s then dramForced t else t)

/-- WCK2DQ_CHECK (R263). -/
def execWck2dqCheck (ch : Fin 32) (drift : Nat) (eyes : Nat × Nat) (s : State) : Out := .next (wck2dqCheck s ch drift eyes.1 eyes.2)

end Sys2Proof.Machine
end

