-- ==== Sys2Proof/Machine/Ray.lean ====
section
/-! DEFINITION. The meanings of the ray profile's instructions (R88 to R111, R114). Each names the group context that executes it. -/

namespace Sys2Proof.Machine

/-- Where execution goes on. -/
inductive RayFlow where
  | onward
  | jump (target : Int)
  | stop
deriving DecidableEq, Repr

/-- What an instruction does to the context that executes it, before the charge and the pc: the machine (faults, cache), the context, the flow. -/
structure RayEffect where
  st : State
  ctx : RayCtx
  flow : RayFlow

/-- The context after the instruction: 1 is charged, and the pc moves (R99, R102). -/
def rayAdvance (x : RayCtx) (f : RayFlow) : RayCtx :=
  { x with
    charge := x.charge + 1
    pc := match f with | .jump t => t.toNat | _ => x.pc + 1 }

/-- Why the group ends after the instruction: END, execution past the last word, which acts as END and is charged as it, or a charge beyond BUDGET (R102, R105, R114). -/
def raySettle (s : State) (l : Launch) (x : RayCtx) (f : RayFlow) : State :=
  let beyond (y : RayCtx) : Bool := decide (l.budget < y.charge)
  let endOver (y : RayCtx) : State :=
    let s' := groupEnd s l y
    if beyond y then kernelFault s' y 0x201 galKfaultBudget ((y.k[6])[0].toNat % 65536 + 65536 * ((y.k[7])[0].toNat % 65536)) 1 else s'
  if f = .stop || beyond x then endOver x
  else if l.code.length ≤ x.pc then endOver { x with charge := x.charge + 1 }
  else putCtx s x

/-- A ray instruction in a group context: nothing where no group runs in it; a word that no accepted kernel holds, or a branch out of the kernel, is no instruction. -/
def rayExec (ok : Bool) (c : CtxId) (f : Launch → RayCtx → State → RayEffect) (s : State) : Out :=
  if !ok then .refused .illFormed
  else match ctxOf s c with
    | none => .next s
    | some x =>
      match launchOf s c.gal x.launch with
      | none => .next s
      | some l =>
        let e := f l x s
        match e.flow with
        | .jump t =>
          if targetOk t l.code.length then .next (raySettle e.st l (rayAdvance e.ctx e.flow) e.flow)
          else .refused .illFormed
        | .onward => .next (raySettle e.st l (rayAdvance e.ctx e.flow) e.flow)
        | .stop => .next (raySettle e.st l (rayAdvance e.ctx e.flow) e.flow)

/-- An instruction that changes only its context's registers. -/
def raySimple (ok : Bool) (c : CtxId) (f : RayCtx → RayCtx) (s : State) : Out :=
  rayExec ok c (fun _ x s => ⟨s, f x, .onward⟩) s

/-- d := op(a, b) in active lanes (R97 to R99). -/
def rayAlu2 (op : RayType → Word → Word → Word) (i : RayReg) (x : RayCtx) : RayCtx :=
  vWrite x i.d i.pneg i.pidx fun l => op i.ty (opRead x i.a i.sa l) (opRead x i.b i.sb l)

/-- d := op(a, IMM) in active lanes. -/
def rayAluI (op : RayType → Word → Word → Word) (i : RayImm) (x : RayCtx) : RayCtx :=
  vWrite x i.d i.pneg i.pidx fun l => op i.ty (opRead x i.a i.sa l) i.imm

/-- d := op(a) in active lanes. -/
def rayAlu1 (op : RayType → Word → Word) (i : RayReg) (x : RayCtx) : RayCtx :=
  vWrite x i.d i.pneg i.pidx fun l => op i.ty (opRead x i.a i.sa l)

/-- d := op(a, b, c) in active lanes. -/
def rayAlu3 (op : RayType → Word → Word → Word → Word) (i : RayReg) (x : RayCtx) : RayCtx :=
  vWrite x i.d i.pneg i.pidx fun l => op i.ty (opRead x i.a i.sa l) (opRead x i.b i.sb l) (vRead x i.c l)

/-- The bits of active lanes of p[D] written (R100). -/
def rayCmpWrite (x : RayCtx) (d : BitVec 6) (pneg : Bool) (pidx : BitVec 3) (f : Fin 8 → Bool) : RayCtx :=
  let old := pRead x d
  pWrite x d (BitVec.ofNat 8 (sumNat ((List.finRange 8).map fun l =>
    if (if laneActive x pneg pidx l.val then f l else old.getLsbD l.val) then 2 ^ l.val else 0)))

/-- A scalar register written when at least one lane is active (R98). -/
def rayScalar (x : RayCtx) (pneg : Bool) (pidx : BitVec 3) (d : BitVec 6) (w : Word) : RayCtx :=
  if anyActive x pneg pidx then sWrite x d w else x

/-- ADD: d := a + b (R99). -/
def execRayAdd (c : CtxId) (i : RayReg) (s : State) : Out :=
  raySimple (Instr.wf (.rayAdd c i)) c (rayAlu2 rayAddOp i) s

/-- ADDI: d := a + IMM (R99). -/
def execRayAddi (c : CtxId) (i : RayImm) (s : State) : Out :=
  raySimple (Instr.wf (.rayAddi c i)) c (rayAluI rayAddOp i) s

/-- SUB: d := a − b (R99). -/
def execRaySub (c : CtxId) (i : RayReg) (s : State) : Out :=
  raySimple (Instr.wf (.raySub c i)) c (rayAlu2 raySubOp i) s

/-- SUBI: d := a − IMM (R99). -/
def execRaySubi (c : CtxId) (i : RayImm) (s : State) : Out :=
  raySimple (Instr.wf (.raySubi c i)) c (rayAluI raySubOp i) s

/-- MUL: d := a × b (R99). -/
def execRayMul (c : CtxId) (i : RayReg) (s : State) : Out :=
  raySimple (Instr.wf (.rayMul c i)) c (rayAlu2 rayMulOp i) s

/-- MULI: d := a × IMM (R99). -/
def execRayMuli (c : CtxId) (i : RayImm) (s : State) : Out :=
  raySimple (Instr.wf (.rayMuli c i)) c (rayAluI rayMulOp i) s

/-- FMA: d := a × b + c, one rounding (R99). -/
def execRayFma (c : CtxId) (i : RayReg) (s : State) : Out :=
  raySimple (Instr.wf (.rayFma c i)) c (rayAlu3 rayFmaOp i) s

/-- MIN (R99). -/
def execRayMin (c : CtxId) (i : RayReg) (s : State) : Out :=
  raySimple (Instr.wf (.rayMin c i)) c (rayAlu2 rayMinOp i) s

/-- MAX (R99). -/
def execRayMax (c : CtxId) (i : RayReg) (s : State) : Out :=
  raySimple (Instr.wf (.rayMax c i)) c (rayAlu2 rayMaxOp i) s

/-- MINI (R99). -/
def execRayMini (c : CtxId) (i : RayImm) (s : State) : Out :=
  raySimple (Instr.wf (.rayMini c i)) c (rayAluI rayMinOp i) s

/-- MAXI (R99). -/
def execRayMaxi (c : CtxId) (i : RayImm) (s : State) : Out :=
  raySimple (Instr.wf (.rayMaxi c i)) c (rayAluI rayMaxOp i) s

/-- ABS (R99). -/
def execRayAbs (c : CtxId) (i : RayReg) (s : State) : Out :=
  raySimple (Instr.wf (.rayAbs c i)) c (rayAlu1 rayAbsOp i) s

/-- NEG (R99). -/
def execRayNeg (c : CtxId) (i : RayReg) (s : State) : Out :=
  raySimple (Instr.wf (.rayNeg c i)) c (rayAlu1 rayNegOp i) s

/-- FLOOR (R93, R99). -/
def execRayFloor (c : CtxId) (i : RayReg) (s : State) : Out :=
  raySimple (Instr.wf (.rayFloor c i)) c (rayAlu1 (rayFloat1 fFloor) i) s

/-- FRACT: a − floor(a) (R93, R99). -/
def execRayFract (c : CtxId) (i : RayReg) (s : State) : Out :=
  raySimple (Instr.wf (.rayFract c i)) c (rayAlu1 (rayFloat1 fFract) i) s

/-- RCP: 1 / a (R93, R99). -/
def execRayRcp (c : CtxId) (i : RayReg) (s : State) : Out :=
  raySimple (Instr.wf (.rayRcp c i)) c (rayAlu1 (rayFloat1 fRcp) i) s

/-- RSQ: 1 / sqrt(a) (R93, R99). -/
def execRayRsq (c : CtxId) (i : RayReg) (s : State) : Out :=
  raySimple (Instr.wf (.rayRsq c i)) c (rayAlu1 (rayFloat1 fRsq) i) s

/-- SQRT (R93, R99). -/
def execRaySqrt (c : CtxId) (i : RayReg) (s : State) : Out :=
  raySimple (Instr.wf (.raySqrt c i)) c (rayAlu1 (rayFloat1 fSqrt) i) s

/-- AND (R99). -/
def execRayAnd (c : CtxId) (i : RayReg) (s : State) : Out :=
  raySimple (Instr.wf (.rayAnd c i)) c (rayAlu2 (fun _ a b => a &&& b) i) s

/-- OR (R99). -/
def execRayOr (c : CtxId) (i : RayReg) (s : State) : Out :=
  raySimple (Instr.wf (.rayOr c i)) c (rayAlu2 (fun _ a b => a ||| b) i) s

/-- XOR (R99). -/
def execRayXor (c : CtxId) (i : RayReg) (s : State) : Out :=
  raySimple (Instr.wf (.rayXor c i)) c (rayAlu2 (fun _ a b => a ^^^ b) i) s

/-- NOT (R99). -/
def execRayNot (c : CtxId) (i : RayReg) (s : State) : Out :=
  raySimple (Instr.wf (.rayNot c i)) c (rayAlu1 (fun _ a => ~~~ a) i) s

/-- SHL: by b & 31 (R99). -/
def execRayShl (c : CtxId) (i : RayReg) (s : State) : Out :=
  raySimple (Instr.wf (.rayShl c i)) c (rayAlu2 rayShlOp i) s

/-- SHR: logical, by b & 31 (R99). -/
def execRayShr (c : CtxId) (i : RayReg) (s : State) : Out :=
  raySimple (Instr.wf (.rayShr c i)) c (rayAlu2 rayShrOp i) s

/-- ASR: arithmetic, by b & 31 (R99). -/
def execRayAsr (c : CtxId) (i : RayReg) (s : State) : Out :=
  raySimple (Instr.wf (.rayAsr c i)) c (rayAlu2 rayAsrOp i) s

/-- ANDI (R99). -/
def execRayAndi (c : CtxId) (i : RayImm) (s : State) : Out :=
  raySimple (Instr.wf (.rayAndi c i)) c (rayAluI (fun _ a b => a &&& b) i) s

/-- ORI (R99). -/
def execRayOri (c : CtxId) (i : RayImm) (s : State) : Out :=
  raySimple (Instr.wf (.rayOri c i)) c (rayAluI (fun _ a b => a ||| b) i) s

/-- XORI (R99). -/
def execRayXori (c : CtxId) (i : RayImm) (s : State) : Out :=
  raySimple (Instr.wf (.rayXori c i)) c (rayAluI (fun _ a b => a ^^^ b) i) s

/-- SHLI: by IMM & 31 (R99). -/
def execRayShli (c : CtxId) (i : RayImm) (s : State) : Out :=
  raySimple (Instr.wf (.rayShli c i)) c (rayAluI rayShlOp i) s

/-- SHRI: logical, by IMM & 31 (R99). -/
def execRayShri (c : CtxId) (i : RayImm) (s : State) : Out :=
  raySimple (Instr.wf (.rayShri c i)) c (rayAluI rayShrOp i) s

/-- ASRI: arithmetic, by IMM & 31 (R99). -/
def execRayAsri (c : CtxId) (i : RayImm) (s : State) : Out :=
  raySimple (Instr.wf (.rayAsri c i)) c (rayAluI rayAsrOp i) s

/-- MOV: raw bits (R99). -/
def execRayMov (c : CtxId) (i : RayReg) (s : State) : Out :=
  raySimple (Instr.wf (.rayMov c i)) c (rayAlu1 (fun _ a => a) i) s

/-- MOVI: d := IMM (R99). -/
def execRayMovi (c : CtxId) (i : RayImm) (s : State) : Out :=
  raySimple (Instr.wf (.rayMovi c i)) c (fun x => vWrite x i.d i.pneg i.pidx fun _ => i.imm) s

/-- MOVK: d := k[A] (R99). -/
def execRayMovk (c : CtxId) (i : RayReg) (s : State) : Out :=
  raySimple (Instr.wf (.rayMovk c i)) c (fun x => vWrite x i.d i.pneg i.pidx fun l => (x.k[Fin.ofNat 8 i.a.toNat])[l]) s

/-- CVT: from type FUNC[1:0] to TYPE (R95, R99). -/
def execRayCvt (c : CtxId) (i : RayReg) (s : State) : Out :=
  raySimple (Instr.wf (.rayCvt c i)) c (rayAlu1 (rayCvtOp (typeOfCode i.func.toNat)) i) s

/-- SEL: a where bit l of p[FUNC[2:0]] is 1, else b (R99). -/
def execRaySel (c : CtxId) (i : RayReg) (s : State) : Out :=
  raySimple (Instr.wf (.raySel c i)) c (fun x => vWrite x i.d i.pneg i.pidx fun l =>
    if (x.p[Fin.ofNat 8 i.func.toNat]).getLsbD l.val then opRead x i.a i.sa l else opRead x i.b i.sb l) s

/-- CMP: bit l of p[D], active lanes only (R99 to R101). -/
def execRayCmp (c : CtxId) (i : RayReg) (s : State) : Out :=
  raySimple (Instr.wf (.rayCmp c i)) c (fun x => rayCmpWrite x i.d i.pneg i.pidx fun l =>
    rayCond i.func.toNat i.ty (opRead x i.a i.sa l) (opRead x i.b i.sb l)) s

/-- CMPI: bit l of p[D], active lanes only (R99 to R101). -/
def execRayCmpi (c : CtxId) (i : RayImm) (s : State) : Out :=
  raySimple (Instr.wf (.rayCmpi c i)) c (fun x => rayCmpWrite x i.d i.pneg i.pidx fun l =>
    rayCond i.cond.toNat i.ty (opRead x i.a i.sa l) i.imm) s

/-- PAND: all 8 bits (R99, R100). -/
def execRayPand (c : CtxId) (i : RayReg) (s : State) : Out :=
  raySimple (Instr.wf (.rayPand c i)) c (fun x => pWrite x i.d (pRead x i.a &&& pRead x i.b)) s

/-- POR: all 8 bits (R99, R100). -/
def execRayPor (c : CtxId) (i : RayReg) (s : State) : Out :=
  raySimple (Instr.wf (.rayPor c i)) c (fun x => pWrite x i.d (pRead x i.a ||| pRead x i.b)) s

/-- PXOR: all 8 bits (R99, R100). -/
def execRayPxor (c : CtxId) (i : RayReg) (s : State) : Out :=
  raySimple (Instr.wf (.rayPxor c i)) c (fun x => pWrite x i.d (pRead x i.a ^^^ pRead x i.b)) s

/-- PNOT: all 8 bits (R99, R100). -/
def execRayPnot (c : CtxId) (i : RayReg) (s : State) : Out :=
  raySimple (Instr.wf (.rayPnot c i)) c (fun x => pWrite x i.d (~~~ pRead x i.a)) s

/-- PMOVI: p[D] := IMM[7:0] (R99, R100). -/
def execRayPmovi (c : CtxId) (i : RayImm) (s : State) : Out :=
  raySimple (Instr.wf (.rayPmovi c i)) c (fun x => pWrite x i.d (BitVec.ofNat 8 i.imm.toNat)) s

/-- SMOVI: s[D] := IMM when a lane is active (R98 to R100). -/
def execRaySmovi (c : CtxId) (i : RayImm) (s : State) : Out :=
  raySimple (Instr.wf (.raySmovi c i)) c (fun x => rayScalar x i.pneg i.pidx i.d i.imm) s

/-- SADD: s[D] := s[A] + s[B], wrapping (R98 to R100). -/
def execRaySadd (c : CtxId) (i : RayReg) (s : State) : Out :=
  raySimple (Instr.wf (.raySadd c i)) c (fun x => rayScalar x i.pneg i.pidx i.d (sRead x i.a + sRead x i.b)) s

/-- SADDI: s[D] := s[A] + IMM, wrapping (R98 to R100). -/
def execRaySaddi (c : CtxId) (i : RayImm) (s : State) : Out :=
  raySimple (Instr.wf (.raySaddi c i)) c (fun x => rayScalar x i.pneg i.pidx i.d (sRead x i.a + i.imm)) s

/-- BRANY: branches when at least one lane is active (R99, R102). -/
def execRayBrany (c : CtxId) (i : RayBr) (s : State) : Out :=
  rayExec (Instr.wf (.rayBrany c i)) c (fun _ x s =>
    ⟨s, x, if anyActive x i.pneg i.pidx then .jump (x.pc + i.offset.toInt) else .onward⟩) s

/-- BRALL: branches when all 8 lanes are active (R99, R102). -/
def execRayBrall (c : CtxId) (i : RayBr) (s : State) : Out :=
  rayExec (Instr.wf (.rayBrall c i)) c (fun _ x s =>
    ⟨s, x, if allActive x i.pneg i.pidx then .jump (x.pc + i.offset.toInt) else .onward⟩) s

/-- LOOP: when at least one lane is active, s[A] := s[A] − 1, and branches while it is not 0 (R98, R99). -/
def execRayLoop (c : CtxId) (i : RayBr) (s : State) : Out :=
  rayExec (Instr.wf (.rayLoop c i)) c (fun _ x s =>
    if anyActive x i.pneg i.pidx then
      let w := sRead x i.a - 1
      ⟨s, sWrite x i.a w, if w = 0 then .onward else .jump (x.pc + i.offset.toInt)⟩
    else ⟨s, x, .onward⟩) s

/-- LDC: the constant at byte s[A] + IMM, the same in all lanes; read, and CONST_RANGE raised, when a lane is active (R98, R103). -/
def execRayLdc (c : CtxId) (i : RayImm) (s : State) : Out :=
  rayExec (Instr.wf (.rayLdc c i)) c (fun l x s =>
    if anyActive x i.pneg i.pidx then
      let a := (sRead x i.a + i.imm).toNat
      let s := if constInRange l.consts a then s else kernelFault s x 0x204 galKfaultConst (a / 4 * 4 % 65536) 1
      ⟨s, vWrite x i.d i.pneg i.pidx fun _ => constWord l.consts a, .onward⟩
    else ⟨s, x, .onward⟩) s

/-- LDCV: the constant at byte a + IMM, per active lane (R103). -/
def execRayLdcv (c : CtxId) (i : RayImm) (s : State) : Out :=
  rayExec (Instr.wf (.rayLdcv c i)) c (fun l x s =>
    let at_ (n : Fin 8) : Nat := (vRead x i.a n + i.imm).toNat
    let bad := (List.finRange 8).filter fun n => laneActive x i.pneg i.pidx n.val && !constInRange l.consts (at_ n)
    let s := match bad with
      | [] => s
      | n :: _ => kernelFault s x 0x204 galKfaultConst (at_ n / 4 * 4 % 65536) bad.length
    ⟨s, vWrite x i.d i.pneg i.pidx fun n => constWord l.consts (at_ n), .onward⟩) s

/-- SMP: the layer sampler (R106 to R111). -/
def execRaySmp (c : CtxId) (i : RayImm) (s : State) : Out :=
  rayExec (Instr.wf (.raySmp c i)) c (fun l x s =>
    let r := smpLanes s l i x
    let s := touchLines s c.gal c.blk r.lines
    let s := match r.consts with
      | [] => s
      | a :: _ => kernelFault s x 0x204 galKfaultConst (a % 65536) r.consts.length
    let s := match r.faults with
      | [] => s
      | (slot, st) :: _ => kernelFault s x 0x202 galKfaultSample (slot + 256 * st) r.faults.length
    ⟨s, { r.ctx with charge := x.charge + r.steps }, .onward⟩) s

/-- EMIT: a 10-bit value for the subpixel of each active lane (R104). -/
def execRayEmit (c : CtxId) (i : RayReg) (s : State) : Out :=
  raySimple (Instr.wf (.rayEmit c i)) c (fun x =>
    { x with emitted := Vector.ofFn fun l =>
        if laneActive x i.pneg i.pidx l.val then some (emitValue i.ty (opRead x i.a i.sa l)) else x.emitted[l] }) s

/-- END: the group ends (R105). -/
def execRayEnd (c : CtxId) (i : RayReg) (s : State) : Out :=
  rayExec (Instr.wf (.rayEnd c i)) c (fun _ x s => ⟨s, x, .stop⟩) s

/-- NOP: nothing, charged 1 (R99). -/
def execRayNop (c : CtxId) (s : State) : Out :=
  raySimple (Instr.wf (.rayNop c)) c (fun x => x) s

end Sys2Proof.Machine
end

