-- ==== Sys2Proof/Machine/Dispatch.lean ====
section
/-! DEFINITION. The dispatch of the commands: one arm for each constructor of Instr. -/

namespace Sys2Proof.Machine

/-- The effect of a command on everything but the queue. -/
def exec (i : Instr) (s : State) : Host.Outcome State Fault Refusal :=
  match i with
  | .registerWrite q addr v => Sys2Proof.Machine.execRegisterWrite q addr v s
  | .cellError r block cell ctx e => Sys2Proof.Machine.execCellError r block cell ctx e s
  | .cellQuarantined r block cell => Sys2Proof.Machine.execCellQuarantined r block cell s
  | .drainEnd r => Sys2Proof.Machine.execDrainEnd r s
  | .regionPllLocked r => Sys2Proof.Machine.execRegionPllLocked r s
  | .regionRejoined r => Sys2Proof.Machine.execRegionRejoined r s
  | .regionResetFailed r => Sys2Proof.Machine.execRegionResetFailed r s
  | .pllUnlock r => Sys2Proof.Machine.execPllUnlock r s
  | .nocPacket at_ pkt => Sys2Proof.Machine.execNocPacket at_ pkt s
  | .eventArrival e => Sys2Proof.Machine.execEventArrival e s
  | .eventDelivery => Sys2Proof.Machine.execEventDelivery s
  | .calmapStart q v => Sys2Proof.Machine.execCalmapStart q v s
  | .calmapReadDone => Sys2Proof.Machine.execCalmapReadDone s
  | .streamStart p unit => Sys2Proof.Machine.execStreamStart p unit s
  | .streamEnd p unit => Sys2Proof.Machine.execStreamEnd p unit s
  | .portEnable p q v => Sys2Proof.Machine.execPortEnable p q v s
  | .unknownUnit p unit => Sys2Proof.Machine.execUnknownUnit p unit s
  | .sceneFrameBegin p unit => Sys2Proof.Machine.execSceneFrameBegin p unit s
  | .layerHeader p unit => Sys2Proof.Machine.execLayerHeader p unit s
  | .planeData p unit => Sys2Proof.Machine.execPlaneData p unit s
  | .sceneFrameEnd p unit => Sys2Proof.Machine.execSceneFrameEnd p unit s
  | .layerFence p layer => Sys2Proof.Machine.execLayerFence p layer s
  | .portStalled p cause => Sys2Proof.Machine.execPortStalled p cause s
  | .layerBind => Sys2Proof.Machine.execLayerBind s
  | .groupDispatch g b => Sys2Proof.Machine.execGroupDispatch g b s
  | .rayAdd c iv => Sys2Proof.Machine.execRayAdd c iv s
  | .rayAddi c iv => Sys2Proof.Machine.execRayAddi c iv s
  | .raySub c iv => Sys2Proof.Machine.execRaySub c iv s
  | .raySubi c iv => Sys2Proof.Machine.execRaySubi c iv s
  | .rayMul c iv => Sys2Proof.Machine.execRayMul c iv s
  | .rayMuli c iv => Sys2Proof.Machine.execRayMuli c iv s
  | .rayFma c iv => Sys2Proof.Machine.execRayFma c iv s
  | .rayMin c iv => Sys2Proof.Machine.execRayMin c iv s
  | .rayMax c iv => Sys2Proof.Machine.execRayMax c iv s
  | .rayMini c iv => Sys2Proof.Machine.execRayMini c iv s
  | .rayMaxi c iv => Sys2Proof.Machine.execRayMaxi c iv s
  | .rayAbs c iv => Sys2Proof.Machine.execRayAbs c iv s
  | .rayNeg c iv => Sys2Proof.Machine.execRayNeg c iv s
  | .rayFloor c iv => Sys2Proof.Machine.execRayFloor c iv s
  | .rayFract c iv => Sys2Proof.Machine.execRayFract c iv s
  | .rayRcp c iv => Sys2Proof.Machine.execRayRcp c iv s
  | .rayRsq c iv => Sys2Proof.Machine.execRayRsq c iv s
  | .raySqrt c iv => Sys2Proof.Machine.execRaySqrt c iv s
  | .rayAnd c iv => Sys2Proof.Machine.execRayAnd c iv s
  | .rayOr c iv => Sys2Proof.Machine.execRayOr c iv s
  | .rayXor c iv => Sys2Proof.Machine.execRayXor c iv s
  | .rayNot c iv => Sys2Proof.Machine.execRayNot c iv s
  | .rayShl c iv => Sys2Proof.Machine.execRayShl c iv s
  | .rayShr c iv => Sys2Proof.Machine.execRayShr c iv s
  | .rayAsr c iv => Sys2Proof.Machine.execRayAsr c iv s
  | .rayAndi c iv => Sys2Proof.Machine.execRayAndi c iv s
  | .rayOri c iv => Sys2Proof.Machine.execRayOri c iv s
  | .rayXori c iv => Sys2Proof.Machine.execRayXori c iv s
  | .rayShli c iv => Sys2Proof.Machine.execRayShli c iv s
  | .rayShri c iv => Sys2Proof.Machine.execRayShri c iv s
  | .rayAsri c iv => Sys2Proof.Machine.execRayAsri c iv s
  | .rayMov c iv => Sys2Proof.Machine.execRayMov c iv s
  | .rayMovi c iv => Sys2Proof.Machine.execRayMovi c iv s
  | .rayMovk c iv => Sys2Proof.Machine.execRayMovk c iv s
  | .rayCvt c iv => Sys2Proof.Machine.execRayCvt c iv s
  | .raySel c iv => Sys2Proof.Machine.execRaySel c iv s
  | .rayCmp c iv => Sys2Proof.Machine.execRayCmp c iv s
  | .rayCmpi c iv => Sys2Proof.Machine.execRayCmpi c iv s
  | .rayPand c iv => Sys2Proof.Machine.execRayPand c iv s
  | .rayPor c iv => Sys2Proof.Machine.execRayPor c iv s
  | .rayPxor c iv => Sys2Proof.Machine.execRayPxor c iv s
  | .rayPnot c iv => Sys2Proof.Machine.execRayPnot c iv s
  | .rayPmovi c iv => Sys2Proof.Machine.execRayPmovi c iv s
  | .raySmovi c iv => Sys2Proof.Machine.execRaySmovi c iv s
  | .raySadd c iv => Sys2Proof.Machine.execRaySadd c iv s
  | .raySaddi c iv => Sys2Proof.Machine.execRaySaddi c iv s
  | .rayBrany c iv => Sys2Proof.Machine.execRayBrany c iv s
  | .rayBrall c iv => Sys2Proof.Machine.execRayBrall c iv s
  | .rayLoop c iv => Sys2Proof.Machine.execRayLoop c iv s
  | .rayLdc c iv => Sys2Proof.Machine.execRayLdc c iv s
  | .rayLdcv c iv => Sys2Proof.Machine.execRayLdcv c iv s
  | .raySmp c iv => Sys2Proof.Machine.execRaySmp c iv s
  | .rayEmit c iv => Sys2Proof.Machine.execRayEmit c iv s
  | .rayEnd c iv => Sys2Proof.Machine.execRayEnd c iv s
  | .rayNop c => Sys2Proof.Machine.execRayNop c s
  | .launchRecord g rec => Sys2Proof.Machine.execLaunchRecord g rec s
  | .tileTake g b => Sys2Proof.Machine.execTileTake g b s
  | .cacheLineFill g b line flips status => Sys2Proof.Machine.execCacheLineFill g b line flips status s
  | .tileSend g b => Sys2Proof.Machine.execTileSend g b s
  | .fpAdd f iv => Sys2Proof.Machine.execFpAdd f iv s
  | .fpSub f iv => Sys2Proof.Machine.execFpSub f iv s
  | .fpAnd f iv => Sys2Proof.Machine.execFpAnd f iv s
  | .fpOr f iv => Sys2Proof.Machine.execFpOr f iv s
  | .fpXor f iv => Sys2Proof.Machine.execFpXor f iv s
  | .fpShl f iv => Sys2Proof.Machine.execFpShl f iv s
  | .fpShr f iv => Sys2Proof.Machine.execFpShr f iv s
  | .fpMul f iv => Sys2Proof.Machine.execFpMul f iv s
  | .fpMov f iv => Sys2Proof.Machine.execFpMov f iv s
  | .fpAddi f iv => Sys2Proof.Machine.execFpAddi f iv s
  | .fpAndi f iv => Sys2Proof.Machine.execFpAndi f iv s
  | .fpOri f iv => Sys2Proof.Machine.execFpOri f iv s
  | .fpXori f iv => Sys2Proof.Machine.execFpXori f iv s
  | .fpShli f iv => Sys2Proof.Machine.execFpShli f iv s
  | .fpShri f iv => Sys2Proof.Machine.execFpShri f iv s
  | .fpMovi f iv => Sys2Proof.Machine.execFpMovi f iv s
  | .fpMovhi f iv => Sys2Proof.Machine.execFpMovhi f iv s
  | .fpCmp f iv => Sys2Proof.Machine.execFpCmp f iv s
  | .fpCmpi f iv => Sys2Proof.Machine.execFpCmpi f iv s
  | .fpPand f iv => Sys2Proof.Machine.execFpPand f iv s
  | .fpPor f iv => Sys2Proof.Machine.execFpPor f iv s
  | .fpPxor f iv => Sys2Proof.Machine.execFpPxor f iv s
  | .fpPnot f iv => Sys2Proof.Machine.execFpPnot f iv s
  | .fpLd f iv => Sys2Proof.Machine.execFpLd f iv s
  | .fpSt f iv => Sys2Proof.Machine.execFpSt f iv s
  | .fpLd32 f iv => Sys2Proof.Machine.execFpLd32 f iv s
  | .fpSt32 f iv => Sys2Proof.Machine.execFpSt32 f iv s
  | .fpRdreg f iv => Sys2Proof.Machine.execFpRdreg f iv s
  | .fpWrreg f iv => Sys2Proof.Machine.execFpWrreg f iv s
  | .fpWrblk f iv => Sys2Proof.Machine.execFpWrblk f iv s
  | .fpBr f iv => Sys2Proof.Machine.execFpBr f iv s
  | .fpCall f iv => Sys2Proof.Machine.execFpCall f iv s
  | .fpRet f iv => Sys2Proof.Machine.execFpRet f iv s
  | .fpLoop f iv => Sys2Proof.Machine.execFpLoop f iv s
  | .fpWaite f iv => Sys2Proof.Machine.execFpWaite f iv s
  | .fpEvclr f iv => Sys2Proof.Machine.execFpEvclr f iv s
  | .fpEvset f iv => Sys2Proof.Machine.execFpEvset f iv s
  | .fpEvrd f iv => Sys2Proof.Machine.execFpEvrd f iv s
  | .fpWaitt f iv => Sys2Proof.Machine.execFpWaitt f iv s
  | .fpWaitl f iv => Sys2Proof.Machine.execFpWaitl f iv s
  | .fpRdtime f iv => Sys2Proof.Machine.execFpRdtime f iv s
  | .fpRdpos f iv => Sys2Proof.Machine.execFpRdpos f iv s
  | .fpTset f iv => Sys2Proof.Machine.execFpTset f iv s
  | .fpLaunch f iv => Sys2Proof.Machine.execFpLaunch f iv s
  | .fpBind f iv => Sys2Proof.Machine.execFpBind f iv s
  | .fpDma f iv => Sys2Proof.Machine.execFpDma f iv s
  | .fpBrxj f iv => Sys2Proof.Machine.execFpBrxj f iv s
  | .fpPwr f iv => Sys2Proof.Machine.execFpPwr f iv s
  | .fpSemacq f iv => Sys2Proof.Machine.execFpSemacq f iv s
  | .fpSemtry f iv => Sys2Proof.Machine.execFpSemtry f iv s
  | .fpSemrel f iv => Sys2Proof.Machine.execFpSemrel f iv s
  | .fpCkpt f iv => Sys2Proof.Machine.execFpCkpt f iv s
  | .fpNop f => Sys2Proof.Machine.execFpNop f s
  | .fpFence f => Sys2Proof.Machine.execFpFence f s
  | .fpHalt f => Sys2Proof.Machine.execFpHalt f s
  | .waiteTimeout f => Sys2Proof.Machine.execWaiteTimeout f s
  | .waittReached f => Sys2Proof.Machine.execWaittReached f s
  | .timerExpired f t => Sys2Proof.Machine.execTimerExpired f t s
  | .watchdogExpired f => Sys2Proof.Machine.execWatchdogExpired f s
  | .registerReadResponse q => Sys2Proof.Machine.execRegisterReadResponse q s
  | .writeAck n => Sys2Proof.Machine.execWriteAck n s
  | .dmaEnd f ch flashError => Sys2Proof.Machine.execDmaEnd f ch s flashError
  | .checkpointWritten f => Sys2Proof.Machine.execCheckpointWritten f s
  | .progLoad f q v => Sys2Proof.Machine.execProgLoad f q v s
  | .progLoadChecked flashError => Sys2Proof.Machine.execProgLoadChecked s flashError
  | .progStop f q => Sys2Proof.Machine.execProgStop f q s
  | .progRun f q => Sys2Proof.Machine.execProgRun f q s
  | .updateRequest q => Sys2Proof.Machine.execUpdateRequest q s
  | .planeMark q v => Sys2Proof.Machine.execPlaneMark q v s
  | .lutWrite q addr v => Sys2Proof.Machine.execLutWrite q addr v s
  | .blitStart q v => Sys2Proof.Machine.execBlitStart q v s
  | .blitAbort q => Sys2Proof.Machine.execBlitAbort q s
  | .blitDone done => Sys2Proof.Machine.execBlitDone done s
  | .jobSubmit q v => Sys2Proof.Machine.execJobSubmit q v s
  | .coderLaneTakeItem => Sys2Proof.Machine.execCoderLaneTakeItem s
  | .coderItemDone engine lane mismatches => Sys2Proof.Machine.execCoderItemDone engine lane mismatches s
  | .retCtrlWrite q v => Sys2Proof.Machine.execRetCtrlWrite q v s
  | .bringUp q v => Sys2Proof.Machine.execBringUp q v s
  | .dramTrained ch res => Sys2Proof.Machine.execDramTrained ch res s
  | .dramInitDone => Sys2Proof.Machine.execDramInitDone s
  | .dramRead req flips => Sys2Proof.Machine.execDramRead req flips s
  | .dramWrite req enables data flips poison => Sys2Proof.Machine.execDramWrite req enables data flips s poison
  | .writeDrain ch byAge issued => Sys2Proof.Machine.execWriteDrain ch byAge issued s
  | .migrationCopy quad flips => Sys2Proof.Machine.execMigrationCopy quad flips s
  | .refreshWindow => Sys2Proof.Machine.execRefreshWindow s
  | .mr4Read ch rank mult derate => Sys2Proof.Machine.execMr4Read ch rank mult derate s
  | .wck2dqCheck ch drift eyes => Sys2Proof.Machine.execWck2dqCheck ch drift eyes s
  | .timingStart => Sys2Proof.Machine.execTimingStart s
  | .lineStart f skew => Sys2Proof.Machine.execLineStart f skew s
  | .scanHold => Sys2Proof.Machine.execScanHold s
  | .holdTimeout => Sys2Proof.Machine.execHoldTimeout s
  | .waveCommit q => Sys2Proof.Machine.execWaveCommit q s
  | .panelMode q v => Sys2Proof.Machine.execPanelMode q v s
  | .panelPowerOn q => Sys2Proof.Machine.execPanelPowerOn q s
  | .panelPowerOff q => Sys2Proof.Machine.execPanelPowerOff q s
  | .panelTrainingDone => Sys2Proof.Machine.execPanelTrainingDone s
  | .panelIdentifyReply block => Sys2Proof.Machine.execPanelIdentifyReply block s
  | .panelFlashReadReply data => Sys2Proof.Machine.execPanelFlashReadReply data s
  | .statusReadReply group driver v => Sys2Proof.Machine.execStatusReadReply group driver v s
  | .pmicRun q v => Sys2Proof.Machine.execPmicRun q v s
  | .pmicMonitor => Sys2Proof.Machine.execPmicMonitor s
  | .pmicEntry r => Sys2Proof.Machine.execPmicEntry r s
  | .pmicScriptDone => Sys2Proof.Machine.execPmicScriptDone s
  | .pfailFall => Sys2Proof.Machine.execPfailFall s
  | .abruptLossEnd => Sys2Proof.Machine.execAbruptLossEnd s
  | .railCollapse rail microvolts => Sys2Proof.Machine.execRailCollapse rail s microvolts
  | .linkEnable l => Sys2Proof.Machine.execLinkEnable l s
  | .linkRetrain p q => Sys2Proof.Machine.execLinkRetrain p q s
  | .blockReceived l header payload => Sys2Proof.Machine.execBlockReceived l header payload s
  | .skipReceived l payload => Sys2Proof.Machine.execSkipReceived l payload s
  | .trainReceived l payload => Sys2Proof.Machine.execTrainReceived l payload s
  | .capsReceived l payload => Sys2Proof.Machine.execCapsReceived l payload s
  | .eqPresetMeasured l width => Sys2Proof.Machine.execEqPresetMeasured l width s
  | .trainingTimeout l => Sys2Proof.Machine.execTrainingTimeout l s
  | .trainingRetry p => Sys2Proof.Machine.execTrainingRetry p s
  | .laneRateWindow l ppm => Sys2Proof.Machine.execLaneRateWindow l ppm s
  | .marginRound l error => Sys2Proof.Machine.execMarginRound l error s
  | .packetReceived p pkt => Sys2Proof.Machine.execPacketReceived p pkt s
  | .ackReceived p seq => Sys2Proof.Machine.execAckReceived p seq s
  | .nakReceived p seq => Sys2Proof.Machine.execNakReceived p seq s
  | .replayTimeout p => Sys2Proof.Machine.execReplayTimeout p s
  | .creditReceived p channel credits => Sys2Proof.Machine.execCreditReceived p channel credits s
  | .lineReport b payload => Sys2Proof.Machine.execLineReport b payload s
  | .eyeStart r q v => Sys2Proof.Machine.execEyeStart r q v s
  | .eyePointDone r errors => Sys2Proof.Machine.execEyePointDone r errors s
  | .timeLink up speedRefused => Sys2Proof.Machine.execTimeLink up speedRefused s
  | .audioPortEnable port q v => Sys2Proof.Machine.execAudioPortEnable port q v s
  | .audioArm q v => Sys2Proof.Machine.execAudioArm q v s
  | .audioStop q v => Sys2Proof.Machine.execAudioStop q v s
  | .audioStartTime op => Sys2Proof.Machine.execAudioStartTime op s
  | .audioFrame op => Sys2Proof.Machine.execAudioFrame op s
  | .underrunRamp op ch => Sys2Proof.Machine.execUnderrunRamp op ch s
  | .fsyncEdge port info => Sys2Proof.Machine.execFsyncEdge port info s
  | .clockStopped clk => Sys2Proof.Machine.execClockStopped clk s
  | .clockMeasurement clk nominal dev => Sys2Proof.Machine.execClockMeasurement clk nominal dev s
  | .lockGroupEnable q v => Sys2Proof.Machine.execLockGroupEnable q v s
  | .asrcAcquired clk => Sys2Proof.Machine.execAsrcAcquired clk s
  | .audioUnit p unit => Sys2Proof.Machine.execAudioUnit p unit s
  | .ptpMessage m => Sys2Proof.Machine.execPtpMessage m s
  | .ptpSend k => Sys2Proof.Machine.execPtpSend k s
  | .announceTimeout k => Sys2Proof.Machine.execAnnounceTimeout k s
  | .igmpReport => Sys2Proof.Machine.execIgmpReport s
  | .arpRequest ip senderMac senderIp => Sys2Proof.Machine.execArpRequest ip senderMac senderIp s
  | .ppsInEdge rising => Sys2Proof.Machine.execPpsInEdge rising s
  | .ppsInLost => Sys2Proof.Machine.execPpsInLost s
  | .captureEdge n rising gapNs widthNs => Sys2Proof.Machine.execCaptureEdge n rising gapNs widthNs s
  | .captureRead n q => Sys2Proof.Machine.execCaptureRead n q s
  | .timeRead q => Sys2Proof.Machine.execTimeRead q s
  | .timeSet q => Sys2Proof.Machine.execTimeSet q s
  | .restep q => Sys2Proof.Machine.execRestep q s
  | .ptpProfileWrite q v => Sys2Proof.Machine.execPtpProfileWrite q v s
  | .triggerArm n q v => Sys2Proof.Machine.execTriggerArm n q v s
  | .triggerFire n q => Sys2Proof.Machine.execTriggerFire n q s
  | .triggerEdge n => Sys2Proof.Machine.execTriggerEdge n s
  | .ppsOutEdge => Sys2Proof.Machine.execPpsOutEdge s
  | .ondieSensorUpdate iv v => Sys2Proof.Machine.execOndieSensorUpdate iv v s
  | .throttleStep => Sys2Proof.Machine.execThrottleStep s
  | .adcCycle codes => Sys2Proof.Machine.execAdcCycle codes s
  | .panelTempHoldExpired => Sys2Proof.Machine.execPanelTempHoldExpired s
  | .dramOvertempPersist => Sys2Proof.Machine.execDramOvertempPersist s
  | .thermalRestart => Sys2Proof.Machine.execThermalRestart s
  | .calStart q v => Sys2Proof.Machine.execCalStart q v s
  | .calDone m => Sys2Proof.Machine.execCalDone m s
  | .clearRetired q v => Sys2Proof.Machine.execClearRetired q v s
  | .leaseRenewal f => Sys2Proof.Machine.execLeaseRenewal f s
  | .leaseExpired => Sys2Proof.Machine.execLeaseExpired s
  | .agentLapse f => Sys2Proof.Machine.execAgentLapse f s
  | .leaseGuardEnd => Sys2Proof.Machine.execLeaseGuardEnd s
  | .switch q => Sys2Proof.Machine.execSwitch q s
  | .switchRelease => Sys2Proof.Machine.execSwitchRelease s
  | .mirrorRecord rec => Sys2Proof.Machine.execMirrorRecord rec s
  | .selftestRoundEnd passedA passedB => Sys2Proof.Machine.execSelftestRoundEnd passedA passedB s
  | .selftest q => Sys2Proof.Machine.execSelftest q s
  | .selftestItem f item passed => Sys2Proof.Machine.execSelftestItem f item passed s
  | .coldTakeoverTimeout => Sys2Proof.Machine.execColdTakeoverTimeout s
  | .por => Sys2Proof.Machine.execPor s
  | .flintSelftestDone f passed => Sys2Proof.Machine.execFlintSelftestDone f passed s
  | .bootDone => Sys2Proof.Machine.execBootDone s
  | .wakePinLow => Sys2Proof.Machine.execWakePinLow s
  | .wakeTimerExpired => Sys2Proof.Machine.execWakeTimerExpired s
  | .pfailReturn => Sys2Proof.Machine.execPfailReturn s
  | .clockReturn => Sys2Proof.Machine.execClockReturn s
  | .reboot q v => Sys2Proof.Machine.execReboot q v s
  | .confirm q => Sys2Proof.Machine.execConfirm q s
  | .otpWriteCustomer q v => Sys2Proof.Machine.execOtpWriteCustomer q v s
  | .otpRevokeCustomer q v => Sys2Proof.Machine.execOtpRevokeCustomer q v s
  | .otpLock q v => Sys2Proof.Machine.execOtpLock q v s
  | .otpRollback q v => Sys2Proof.Machine.execOtpRollback q v s
  | .otpWritten => Sys2Proof.Machine.execOtpWritten s
  | .attestStart h => Sys2Proof.Machine.execAttestStart h s
  | .attestDone h => Sys2Proof.Machine.execAttestDone h s
  | .write h fr addr count data => Sys2Proof.Machine.execWrite h fr addr count data s
  | .read h fr addr count ready => Sys2Proof.Machine.execRead h fr addr count ready s
  | .fetch h fr ready => Sys2Proof.Machine.execFetch h fr ready s
  | .status h fr => Sys2Proof.Machine.execStatus h fr s
  | .semTry h fr sem => Sys2Proof.Machine.execSemTry h fr sem s
  | .semAcquire h fr sem => Sys2Proof.Machine.execSemAcquire h fr sem s
  | .semRelease h fr sem => Sys2Proof.Machine.execSemRelease h fr sem s
  | .semCancel h fr sem => Sys2Proof.Machine.execSemCancel h fr sem s
  | .semBreak h fr sem => Sys2Proof.Machine.execSemBreak h fr sem s
  | .flashRead h fr offset count ready => Sys2Proof.Machine.execFlashRead h fr offset count ready s
  | .flashProgram h fr offset count data => Sys2Proof.Machine.execFlashProgram h fr offset count data s
  | .flashErase h fr offset size => Sys2Proof.Machine.execFlashErase h fr offset size s
  | .flashDone ok => Sys2Proof.Machine.execFlashDone ok s
  | .flashTimeout => Sys2Proof.Machine.execFlashTimeout s
  | .eventQueueRead h => Sys2Proof.Machine.execEventQueueRead h s
  | .doorbell h v => Sys2Proof.Machine.execDoorbell h v s
  | .mailbox f v => Sys2Proof.Machine.execMailbox f v s
  | .sleep q v => Sys2Proof.Machine.execSleep q v s
  | .pwrRequest q v => Sys2Proof.Machine.execPwrRequest q v s
  | .regionPowered r => Sys2Proof.Machine.execRegionPowered r s
  | .refclkWindow cycles => Sys2Proof.Machine.execRefclkWindow cycles s
  | .xtalFault => Sys2Proof.Machine.execXtalFault s
  | .sysReset => Sys2Proof.Machine.execSysReset s
  | .driveOffDelay => Sys2Proof.Machine.execDriveOffDelay s
  | .hostWake a b wakeN => Sys2Proof.Machine.execHostWake a b s wakeN
  | .sysResetRelease => Sys2Proof.Machine.execSysResetRelease s
  | .refclkStopped => Sys2Proof.Machine.execRefclkStopped s
  | .calmapReadTimeout => Sys2Proof.Machine.execCalmapReadTimeout s
  | .flintSelftestTimeout => Sys2Proof.Machine.execFlintSelftestTimeout s
  | .laneTest r p q v => Sys2Proof.Machine.execLaneTest r p q v s
  | .porAsserted => Sys2Proof.Machine.execPorAsserted s

end Sys2Proof.Machine
end

