-- ==== Sys2Proof/Machine/Tick.lean ====
section
/-! DEFINITION. What the block does while no command waits: one nanosecond passes. -/

namespace Sys2Proof.Machine

/-- The guard of the lease, and the wait for a cold takeover, end with time (R405, R419). -/
def leaseTick (s : State) : State := coldTimesOut (leaseGuardEnds s)

/-- One nanosecond on a sequencer timer: it counts down while it runs, and at 0 stops and sets its flag (R153). -/
def timerTick (s : State) (f : FlintId) (t : Fin 4) : State :=
  match (flintOf s f).timers[t] with
  | 0 => s
  | 1 => timerEnds s f t
  | n + 2 => setFlint s f fun x => { x with timers := x.timers.set t (n + 1) }

/-- A Flint region's heartbeat and timers run, what waits for a time that has come ends, the watchdog is compared, and a LAUNCH or BRXJ that waits for a free entry goes on when there is one (R118, R151, R153, R154, R160, R168). -/
def flintTick (s : State) (f : FlintId) : State :=
  if flintUp s f then
    let s := (List.finRange 4).foldl (fun s t => timerTick s f t) (setFlint s f fun x => { x with beat := true })
    let s := wdogExpires (timeReached (waitTimesOut s f) f) f
    brxjSettle (launchSettle s f) f
  else s

/-- SLT_WAKE_TIMER counts down once per second in STANDBY, and wakes at 0; the clock of boot step 1 runs, and a BRING_UP that waits takes effect, when their times have come (R452, R482, R490, R497). -/
def wakeTick (s : State) : State :=
  let v := readReg s sltWakeTimer
  let s :=
    if s.power.mode = .standby ∧ s.now % 1000000000 = 0 then (if 1 < v.toNat then setReg s sltWakeTimer (v - 1) else wakeTimerEnds s)
    else s
  clockRuns (bringUpDue s)

/-- One nanosecond passes: the clocks in which requests met end, the time counter and the timers run, the lease's guard ends, the timing starts with the frame that it waits for, the audio ports send their frames and the time port its messages, PPS_OUT and triggers have their edges, Slate's thermal times run, the links send what they may, the serial transmitters their blocks, and the mesh has its clocks (R25 to R27, R153, R316, R322, R363, R405, R435, R436). -/
def tick (s : State) : State :=
  let s := timeTick (audioTick (ppsTick s.time.sec (frameTick (nowFine s) (timeRun (clocksEnd { s with now := s.now + 1 }) 1))))
  meshRun (lanesRun (linksRun (thermalRestarts (thermTick (wakeTick (leaseTick (flintTick (flintTick s .a) .b)))))))

end Sys2Proof.Machine
end

