-- ==== Sys2Proof/Machine/Balls.lean ====
section
/-! DEFINITION. Which signal or rail stands at each ball (R515 to R528). A ball is its row index and its column, both from 1. -/

namespace Sys2Proof.Machine

/-- The letters of rows 1 to 19 (R515). -/
def rowLetters : List String :=
  ["A", "B", "C", "D", "E", "F", "G", "H", "J", "K", "L", "M", "N", "P", "T", "U", "V", "W", "Y"]

/-- The rows' names, from index 1: A to Y, AA to AY, BA to BT (R515). -/
def rowNames : List String := rowLetters ++ rowLetters.map ("A" ++ ·) ++ (rowLetters.take 15).map ("B" ++ ·)

/-- A ball's name, as in AA42. -/
def ballName (r c : Nat) : String := rowNames.getD (r - 1) "" ++ toString c

/-- The twelve sites without a ball (R515). -/
def noBall (r c : Nat) : Bool :=
  [(1, 1), (1, 2), (2, 1), (1, 52), (1, 53), (2, 53), (52, 1), (53, 1), (53, 2), (52, 53), (53, 52), (53, 53)].contains (r, c)

/-- The zones of the package (R516). -/
inductive Zone where
  | panel | leftMemory | core | rightMemory | port
deriving DecidableEq, Repr

/-- The zone of a site (R516). -/
def zoneOf (r c : Nat) : Zone :=
  if r ≤ 6 then .panel else if 48 ≤ r then .port
  else if c ≤ 20 then .leftMemory else if c ≤ 33 then .core else .rightMemory

/-- Two digits. -/
def twoDigits (n : Nat) : String := toString (n / 10) ++ toString (n % 10)

/-- The tile of a memory channel: row i, position e (R520). -/
def memTile : List (List String) :=
  [["DQ0", "DQ1", "VSS", "DQ2", "DQ3", "VDDQ_DDR", "DQ4", "DQ5", "VSS", "DMI0"],
   ["DQS0_P", "DQS0_M", "VSS", "WCK0_P", "WCK0_M", "VSS", "DQ6", "DQ7", "VDDQ_DDR", "CS0"],
   ["CK_P", "CK_M", "VSS", "CA0", "CA1", "CA2", "CA3", "VDD_DDR", "CA4", "CA5"],
   ["DQS1_P", "DQS1_M", "VSS", "WCK1_P", "WCK1_M", "VDDQ_DDR", "DQ14", "DQ15", "CA6", "CS1"],
   ["DQ8", "DQ9", "VDDQ_DDR", "DQ10", "DQ11", "VDD_DDR", "DQ12", "DQ13", "VSS", "DMI1"]]

/-- A supply rail's name (R517). -/
def isRail (x : String) : Bool :=
  ["VSS", "VDD_GAL", "VDD_CORE", "VDD_DDR", "VDDQ_DDR", "VDD_SL", "VDDH_SL", "VDDIO_1V8", "AVDD_ADC", "VHOLD", "VCAP_AONCORE",
    "VCAP_AONIO"].contains x

/-- Row and column of position (i, e) of the tile of channel `c` (R519). -/
def memPlace (c i e : Nat) : Nat × Nat :=
  let q := c / 8
  let ch := c % 8
  (7 + 20 * (q % 2) + 5 * (ch / 2) + i, if q < 2 then 1 + 10 * (ch % 2) + e else 53 - 10 * (ch % 2) - e)

/-- A ball of a memory band above row BJ: its tile is the one whose place it is (R519, R520). -/
def memBall (r c : Nat) : String :=
  let left := decide (c ≤ 20)
  let x := if left then c - 1 else 53 - c
  let q := (if left then 0 else 2) + (r - 7) / 20
  let ch := 2 * ((r - 7) % 20 / 5) + x / 10
  let n := (memTile.getD ((r - 7) % 5) []).getD (x % 10) ""
  if isRail n then n else "DDR" ++ twoDigits (8 * q + ch) ++ "_" ++ n

/-- Row BJ of the memory bands (R521). -/
def serviceBall (c : Nat) : String :=
  if c ≤ 4 then ["DRAM_Q0_RESET_N", "DDR_RCAL_Q0", "DRAM_Q1_RESET_N", "DDR_RCAL_Q1"].getD (c - 1) ""
  else if 50 ≤ c then ["DRAM_Q2_RESET_N", "DDR_RCAL_Q2", "DRAM_Q3_RESET_N", "DDR_RCAL_Q3"].getD (53 - c) ""
  else if c % 2 = 1 then "VSS" else "VDD_DDR"

/-- A ball of the core zone (R516). -/
def coreBall (r c : Nat) : String := if (r + c) % 2 = 0 then "VSS" else if r ≤ 33 then "VDD_GAL" else "VDD_CORE"

/-- The polarity suffix of a pair's two columns. -/
def pairEnd (x : Nat) : String := if x % 2 = 0 then "_P" else "_M"

/-- A ball of the panel band (R523, R524). -/
def panelBall (r c : Nat) : String :=
  if 3 ≤ c ∧ c ≤ 50 then
    let g := twoDigits ((c - 3) / 4)
    let x := (c - 3) % 4
    if r = 2 ∨ r = 4 then "PNL_TX" ++ g ++ "_" ++ toString (r - 2 + x / 2) ++ pairEnd x
    else if r = 6 then ["VDD_SL", "VSS", "VDDH_SL", "VSS"].getD x ""
    else "VSS"
  else if c ≤ 2 then (if 3 ≤ r then "PNL_RX" ++ toString (r - 3) ++ pairEnd (c - 1) else "VSS")
  else if (r = 3 ∨ r = 5) ∧ c ≤ 52 then "PNL_TX12_" ++ toString ((r - 3) / 2) ++ pairEnd (c - 51)
  else if r = 6 then ["VDD_SL", "VSS", "VDDH_SL"].getD (c - 51) ""
  else "VSS"

/-- A ball of a source port's tile (R525). -/
def sourceBall (r c : Nat) : String :=
  let n := toString ((c - 20) / 8)
  let x := (c - 20) % 8
  if r = 48 then (if x % 4 = 0 then "VDD_SL" else if x % 4 = 2 then "VDDH_SL" else "VSS")
  else if r = 50 then "SP" ++ n ++ "_TX" ++ toString (x / 2) ++ pairEnd x
  else if r = 52 then "SP" ++ n ++ "_RX" ++ toString (x / 2) ++ pairEnd x
  else "VSS"

/-- Columns 1 to 19 of rows BK to BT (R527, R528). -/
def otherBalls : List (List String) :=
  [["AO0_BCLK", "AO0_FSYNC", "AO0_SD", "AO1_BCLK", "AO1_FSYNC", "AO1_SD", "AO2_BCLK", "AO2_FSYNC", "AO2_SD", "AO3_BCLK",
     "AO3_FSYNC", "AO3_SD", "AI0_BCLK", "AI0_FSYNC", "AI0_SD", "AI1_BCLK", "AI1_FSYNC", "AI1_SD", "VDDIO_1V8"],
   ["BLP0", "BLP1", "BLP2", "BLP3", "VDDIO_1V8", "TRG0", "TRG1", "TRG2", "TRG3", "PPS_OUT", "VSS", "CAP0", "CAP1", "CAP2",
     "CAP3", "PPS_IN", "VDDIO_1V8", "VSS", "VSS"],
   ["FL_SCK", "FL_CS_N", "FL_IO0", "FL_IO1", "FL_IO2", "FL_IO3", "VSS", "GT0", "GT1", "GT2", "GT3", "GT4", "GT5", "GT6",
     "GT7", "GT8", "GT9", "GT10", "GT11"],
   ["HA_SCK", "HA_CS_N", "HA_IO0", "HA_IO1", "HA_IO2", "HA_IO3", "HA_IRQ_N", "VSS", "HB_SCK", "HB_CS_N", "HB_IO0", "HB_IO1",
     "HB_IO2", "HB_IO3", "HB_IRQ_N", "VSS", "PMIC_SCL", "PMIC_SDA", "VSS"],
   ["", "VHOLD", "VHOLD", "VCAP_AONCORE", "VCAP_AONIO", "SYS_RESET_N", "WAKE_N", "PFAIL_N", "REFCLK_EN", "DRAM_PWR_EN",
     "TESTMODE", "AVDD_ADC", "PTH0", "PTH1", "PTH2", "PTH3", "THREF", "REFCAL", "VSS"],
   ["", "", "VSS", "REFCLK_P", "REFCLK_M", "VSS", "XTAL_IN", "XTAL_OUT", "VSS", "TD0_P", "TD0_M", "TD1_P", "TD1_M", "TD2_P",
     "TD2_M", "TD3_P", "TD3_M", "VSS", "SL_RCAL"]]

/-- Columns 52 and 53 of rows BK to BT (R527, R528). -/
def edgeBalls : List (List String) :=
  [["VDD_SL", "VDDH_SL"], ["TIME_TX_P", "TIME_TX_M"], ["VSS", "VSS"], ["TIME_RX_P", "TIME_RX_M"], ["VSS", ""], ["", ""]]

/-- A ball of the port band. -/
def portBall (r c : Nat) : String :=
  if c ≤ 19 then (otherBalls.getD (r - 48) []).getD (c - 1) ""
  else if c ≤ 51 then sourceBall r c
  else (edgeBalls.getD (r - 48) []).getD (c - 52) ""

/-- The signal or rail at a site of the 53 by 53 grid; none where there is no ball (R515 to R528). -/
def ballAt (r c : Nat) : Option String :=
  if r = 0 ∨ 53 < r ∨ c = 0 ∨ 53 < c ∨ noBall r c then none
  else some (match zoneOf r c with
    | .panel => panelBall r c
    | .port => portBall r c
    | .core => coreBall r c
    | _ => if r = 47 then serviceBall c else memBall r c)

end Sys2Proof.Machine
end

