-- ==== Sys2Proof/Machine/Pins.lean ====
section
/-! DEFINITION. The pins in groups, and the state that the P9 gives each while it is off, held in reset, in STANDBY or in service (R246, R479, R484, R496, R527). -/

namespace Sys2Proof.Machine

/-- The groups of R496 and R527. -/
inductive PinGroup where
  /-- Transmit lanes of the panel with its spares, of the source ports, of the time port. -/
  | panelTx | sourceTx | timeTx
  /-- Receive lanes of the same. -/
  | panelRx | sourceRx | timeRx
  | refclk
  /-- GT0 to GT11 and BLP0 to BLP3; TRG0 to TRG3 and PPS_OUT; the audio outputs; flash SCK and CS_N; host IO. -/
  | gtBlp | trgPps | audioOut | flashOut | hostIo
  | refclkEn | dramPwrEn
  /-- HA_IRQ_N, HB_IRQ_N; PMIC SCL and SDA. -/
  | hostIrq (h : HostId) | pmic
  | sysResetN | wakeN | pfailN
  | hostCs | hostSck
  /-- CAP0 to CAP3, PPS_IN; the audio inputs. -/
  | capPps | audioIn
  /-- LPDDR5X CK, CA, CS, DQ, DQS, WCK of a Bauxite region; its reset outputs. -/
  | dramPins (q : Fin 4) | dramReset
  | thref
deriving DecidableEq, Repr

/-- What the P9 does with a pin. -/
inductive PinState where
  /-- High impedance, and for an output lane electrical idle. -/
  | highZ
  /-- Tri-stated with a weak pull-down. -/
  | pullDown
  /-- An open drain that is released. -/
  | released
  | driven (high : Bool)
  /-- An input that the P9 looks at. -/
  | monitored
  /-- Its unit is powered and uses it. -/
  | inUse
deriving DecidableEq, Repr

/-- The unpowered column of R496. -/
def pinUnpowered : PinGroup → PinState
  | .gtBlp | .trgPps | .audioOut | .flashOut | .hostIo | .refclkEn | .dramPwrEn | .dramReset => .pullDown
  | .hostIrq _ | .pmic => .released
  | _ => .highZ

/-- The reset column of R496: POR, and SYS_RESET_N low. -/
def pinReset : PinGroup → PinState
  | .refclkEn | .dramPwrEn => .driven false
  | .sysResetN | .wakeN | .pfailN => .monitored
  | g => pinUnpowered g

/-- The STANDBY column of R496. -/
def pinStandby : PinGroup → PinState
  | .hostCs => .monitored
  | .dramReset => .driven false
  | g => pinReset g

/-- The region whose power a group of pins needs; none for Slate's. -/
def pinRegion : PinGroup → Option Nat
  | .panelTx | .panelRx | .gtBlp => some 14
  | .sourceTx | .sourceRx => some 3
  | .timeTx | .timeRx | .trgPps | .audioOut | .audioIn | .capPps => some 15
  | .dramPins q => some (8 + q.val)
  | _ => none

/-- A pin of a unit that is in use, or Slate's own, while the P9 runs. -/
def pinRunning (s : State) : PinGroup → PinState
  | .refclkEn => .driven s.power.refclkEn
  | .dramPwrEn => .driven s.power.dramPwrEn
  | .dramReset => .driven s.power.dramReset
  | .hostIrq h => if hostIrqLow s h then .driven false else .released
  | .sysResetN | .wakeN | .pfailN => .monitored
  | _ => .inUse

/-- The state of a group of pins (R496): a region that is off or isolated leaves its pins in their unpowered states. -/
def pinState (s : State) (g : PinGroup) : PinState :=
  match s.power.mode with
  | .off => pinUnpowered g
  | .standby => pinStandby g
  | m =>
    if s.power.resetPin || (m == .boot && s.slate.boot == .idle) then pinReset g
    else match pinRegion g with
      | none => pinRunning s g
      | some r =>
        match (ctlOf s r).phase with
        | .off | .poweringOff | .poweringOn => pinUnpowered g
        | _ => pinRunning s g

end Sys2Proof.Machine
end

