-- ==== Sys2Proof/Safety.lean ====
section
/-! DEFINITION. What counts as a safe run. -/

namespace Sys2Proof

/-- A step is safe when it answers a next state. -/
def SafeStep (s : Machine.State) : Prop := ∃ t, Machine.step s = .next t

/-- A run of n steps is safe when it stops at no fault and no refusal. -/
def SafeRun (n : Nat) (s : Machine.State) : Prop := ∃ t, core.run n s = .next t

/-- A semaphore as it can come to be: without a holder nobody waits, nobody waits twice, and the holder does not wait (R436). -/
def SemOk (m : Machine.Sem) : Prop :=
  m.waiters.Nodup ∧ ∀ u ∈ m.waiters, m.holder ≠ none ∧ m.holder ≠ some u

/-- What every step keeps: DRAM is listed in its canonical form, and every semaphore is as it can come to be. -/
def Inv (s : Machine.State) : Prop :=
  Machine.Memory.wf s = true ∧ ∀ n : Fin 32, SemOk s.slate.sems[n]

end Sys2Proof
end

