-- ==== Sys2Proof/Certificates/Slice0/Obligations.lean ====
section
/-! DEFINITION. The statements for the provers. Each is a closed proposition about the model; the words they share stand first. -/

namespace Sys2Proof.Says

open Machine

/-! The frame program. -/

/-- Instruction memory holds an instruction at PC, the region is in service and holds the lease, its program runs and waits for nothing, no mirror record is left, and the instruction's predicate lets it act (R33, R139, R141, R145, R162). -/
def fpReady (s : State) (f : FlintId) (pneg : Bool) (pidx : BitVec 3) : Prop :=
  flintUp s f = true ∧ (flintOf s f).st = .running ∧ (flintOf s f).wait = none ∧ holder s = some f ∧
  mirrorDone s f = true ∧ (flintOf s f).shadow ≠ .inShadow ∧ (flintOf s f).pc < (flintOf s f).code.length ∧
  fpPred (flintOf s f) pidx.toNat ≠ pneg

/-- The state in which one Flint region's own state is `x`, everything else as before. -/
def withFlint (s : State) (f : FlintId) (x : Flint) : State :=
  { s with ctrl := { s.ctrl with fl := s.ctrl.fl.set (flIdx f) x } }

/-- g[d] written (g0 never is), PC on the next index, nothing else changed. -/
def wroteG (s : State) (f : FlintId) (d : BitVec 6) (v : DWord) : State :=
  withFlint s f (fpNext (gWrite (flintOf s f) d.toNat v))

/-- p[d] written, PC on the next index, nothing else changed. -/
def wroteP (s : State) (f : FlintId) (d : BitVec 6) (v : Bool) : State :=
  withFlint s f (fpNext (fpPredSet (flintOf s f) d.toNat v))

/-- The condition codes of CMP and CMPI (R146): bit 3 chooses the signed order. -/
def conditionHolds (c : BitVec 4) (a b : DWord) : Bool :=
  let less := if c.getLsbD 3 then a.slt b else a.ult b
  [a == b, a != b, less, less || a == b, !(less || a == b), !less, a &&& b != 0, a &&& b == 0].getD (c.toNat % 8) false

end Sys2Proof.Says

open Sys2Proof Sys2Proof.Machine Sys2Proof.Says

/-! Askix frame profile. -/

/-- For a well-formed instruction that may act in the region that holds the lease, the command answers the next state in which g[D] holds the result (D = 0 keeps g0), PC is on the next index, and everything else is unchanged: ADD a+b, SUB a-b, AND, OR, XOR, SHL and SHR by b mod 64, MUL the low 64 bits, MOV a; ADDI a + sext(IMM), ANDI, ORI and XORI with zext(IMM), SHLI and SHRI by IMM mod 64, MOVI sext(IMM), MOVHI IMM above the low half of g[D]; NOP changes PC only. Here a = g[A] and b = g[B] before the write. -/
def Obligations.FrameArithmeticWritesG : Prop :=
  ∀ (s : State) (f : FlintId),
    (∀ i : FrReg, fpReady s f i.pneg i.pidx →
      let a := gRead (flintOf s f) i.a.toNat
      let b := gRead (flintOf s f) i.b.toNat
      (Instr.wf (.fpAdd f i) = true → exec (.fpAdd f i) s = .next (wroteG s f i.d (a + b))) ∧
      (Instr.wf (.fpSub f i) = true → exec (.fpSub f i) s = .next (wroteG s f i.d (a - b))) ∧
      (Instr.wf (.fpAnd f i) = true → exec (.fpAnd f i) s = .next (wroteG s f i.d (a &&& b))) ∧
      (Instr.wf (.fpOr f i) = true → exec (.fpOr f i) s = .next (wroteG s f i.d (a ||| b))) ∧
      (Instr.wf (.fpXor f i) = true → exec (.fpXor f i) s = .next (wroteG s f i.d (a ^^^ b))) ∧
      (Instr.wf (.fpShl f i) = true → exec (.fpShl f i) s = .next (wroteG s f i.d (a <<< (b.toNat % 64)))) ∧
      (Instr.wf (.fpShr f i) = true → exec (.fpShr f i) s = .next (wroteG s f i.d (a >>> (b.toNat % 64)))) ∧
      (Instr.wf (.fpMul f i) = true → exec (.fpMul f i) s = .next (wroteG s f i.d (a * b))) ∧
      (Instr.wf (.fpMov f i) = true → exec (.fpMov f i) s = .next (wroteG s f i.d a))) ∧
    (∀ i : FrImm, fpReady s f i.pneg i.pidx →
      let a := gRead (flintOf s f) i.a.toNat
      let se : DWord := i.imm.signExtend 64
      let ze : DWord := i.imm.zeroExtend 64
      (Instr.wf (.fpAddi f i) = true → exec (.fpAddi f i) s = .next (wroteG s f i.d (a + se))) ∧
      (Instr.wf (.fpAndi f i) = true → exec (.fpAndi f i) s = .next (wroteG s f i.d (a &&& ze))) ∧
      (Instr.wf (.fpOri f i) = true → exec (.fpOri f i) s = .next (wroteG s f i.d (a ||| ze))) ∧
      (Instr.wf (.fpXori f i) = true → exec (.fpXori f i) s = .next (wroteG s f i.d (a ^^^ ze))) ∧
      (Instr.wf (.fpShli f i) = true → exec (.fpShli f i) s = .next (wroteG s f i.d (a <<< (i.imm.toNat % 64)))) ∧
      (Instr.wf (.fpShri f i) = true → exec (.fpShri f i) s = .next (wroteG s f i.d (a >>> (i.imm.toNat % 64)))) ∧
      (Instr.wf (.fpMovi f i) = true → exec (.fpMovi f i) s = .next (wroteG s f i.d se)) ∧
      (Instr.wf (.fpMovhi f i) = true → exec (.fpMovhi f i) s =
        .next (wroteG s f i.d ((ze <<< 32) ||| (gRead (flintOf s f) i.d.toNat &&& 0xFFFFFFFF))))) ∧
    (fpReady s f false 0 → exec (.fpNop f) s = .next (withFlint s f (fpNext (flintOf s f))))

/-- For a well-formed instruction that may act in the region that holds the lease, the command answers the next state in which p[D] (D is 1 to 7) holds the result, PC is on the next index, and everything else is unchanged. CMP: the condition FUNC[3:0] of g[A] and g[B]; CMPI: the condition X[3:0], bits [43:40] of the instruction, of g[A] and IMM, sign-extended for a signed condition and zero-extended otherwise; PAND, POR, PXOR of p[A] and p[B]; PNOT of p[A]. -/
def Obligations.FrameComparesWriteP : Prop :=
  ∀ (s : State) (f : FlintId),
    (∀ i : FrReg, fpReady s f i.pneg i.pidx →
      let x := flintOf s f
      (Instr.wf (.fpCmp f i) = true → exec (.fpCmp f i) s =
        .next (wroteP s f i.d (conditionHolds (BitVec.ofNat 4 i.func.toNat) (gRead x i.a.toNat) (gRead x i.b.toNat)))) ∧
      (Instr.wf (.fpPand f i) = true → exec (.fpPand f i) s = .next (wroteP s f i.d (fpPred x i.a.toNat && fpPred x i.b.toNat))) ∧
      (Instr.wf (.fpPor f i) = true → exec (.fpPor f i) s = .next (wroteP s f i.d (fpPred x i.a.toNat || fpPred x i.b.toNat))) ∧
      (Instr.wf (.fpPxor f i) = true → exec (.fpPxor f i) s = .next (wroteP s f i.d (fpPred x i.a.toNat != fpPred x i.b.toNat))) ∧
      (Instr.wf (.fpPnot f i) = true → exec (.fpPnot f i) s = .next (wroteP s f i.d (!fpPred x i.a.toNat)))) ∧
    (∀ i : FrImm, fpReady s f i.pneg i.pidx → Instr.wf (.fpCmpi f i) = true →
      let c : BitVec 4 := BitVec.ofNat 4 (i.x.toNat / 4)
      exec (.fpCmpi f i) s =
        .next (wroteP s f i.d (conditionHolds c (gRead (flintOf s f) i.a.toNat)
          (if c.getLsbD 3 then i.imm.signExtend 64 else i.imm.zeroExtend 64))))

namespace Sys2Proof.Says

/-- The instruction at PC waits for something; nothing else of the state has changed. -/
def waits (s : State) (f : FlintId) (w : FpWait) : State := withFlint s f { flintOf s f with wait := some w }

/-- A data memory access of `n` bytes at `a` is aligned to `align` bytes and lies in the 65,536 bytes (R147). -/
def inDataMemory (a : DWord) (align n : Nat) : Prop := a.toNat % align = 0 ∧ a.toNat + n ≤ 65536

end Sys2Proof.Says

/-- What the other statements build on, for every state and region, with no accepted image waiting to be taken. An instruction that completes leaves PC on the next index and waits for nothing. A mirror record is put at the end of what is on its way to the standby where that is in the shadow run; otherwise nothing changes. A fault leaves the program FAULTED with the cause at its PC, waiting for nothing, with every register of the sequencer as it was; unless the other region holds the lease no semaphore is left held by the frame program (with no requester twice among a semaphore's waiters, which StepKeepsTheInvariant keeps); and FP_FAULT (level 2, cause 0x102, cell 0xFF) is raised last with the cause and PC in [31:16]. HALT does the same with HALTED and event 0x103. With an image waiting, the same event is raised and the image is then taken, unless the scan runs and another region's program still does. -/
def Obligations.FrameSharedMoves : Prop :=
  ∀ (s : State) (f : FlintId) (r : MirrorRec) (c : Nat),
    let x := flintOf s f
    fpNext x = { x with pc := x.pc + 1, wait := none } ∧
    mirrorSend s f r = (if (flintOf s (otherFlint f)).shadow = .inShadow then
        { s with ctrl := { s.ctrl with lease := { s.ctrl.lease with mirror := s.ctrl.lease.mirror ++ [r] } } }
      else s) ∧
    (s.ctrl.ready = none →
      flintOf (seqFault s f c) f = { x with fault := c, st := .faulted, wait := none } ∧
      flintOf (seqHalted s f) f = { x with st := .halted, wait := none } ∧
      (holder s ≠ some (otherFlint f) → (∀ n, (semOf s n).waiters.Nodup) → ∀ n, n < 32 →
        (semOf (seqFault s f c) n).holder ≠ some .frame ∧ (semOf (seqHalted s f) n).holder ≠ some .frame) ∧
      (∃ t, seqFault s f c = raise t 2 (flintRegion f) 0x102 0 0xFF (c + 65536 * (x.pc % 16384))) ∧
      (∃ t, seqHalted s f = raise t 2 (flintRegion f) 0x103 0 0xFF (65536 * (x.pc % 16384)))) ∧
    (∀ img, s.ctrl.ready = some img →
      let taken (t : State) : State := if t.scan.running = true ∧ progRuns t = true then t else progTake t img
      (∃ t, seqFault s f c = taken (raise t 2 (flintRegion f) 0x102 0 0xFF (c + 65536 * (x.pc % 16384)))) ∧
      (∃ t, seqHalted s f = taken (raise t 2 (flintRegion f) 0x103 0 0xFF (65536 * (x.pc % 16384)))))

/-- LD, ST, LD32 and ST32 at byte address g[A] + sext(IMM), for a well-formed instruction that may act. Where the address is a multiple of the width and the access ends by 65,536: a load writes g[D] with the little-endian bytes, zero-extended; a store writes the low bytes of g[D] to the region's data memory, every other byte reading as before; PC moves on and nothing else changes. Anywhere else the program stops with fault 1 (DMEM_RANGE) at the instruction. -/
def Obligations.FrameDataMemory : Prop :=
  ∀ (s : State) (f : FlintId) (i : FrImm), fpReady s f i.pneg i.pidx →
    let x := flintOf s f
    let a := gRead x i.a.toNat + i.imm.signExtend 64
    let byte (m : List Host.Cell) (k : Nat) : Byte := smRead (fun _ => 0) m k
    let loaded (n : Nat) : DWord := BitVec.ofNat 64 (leNat ((List.range n).map fun k => byte x.dmem (a.toNat + k)))
    let stored (n : Nat) (t : State) : Prop :=
      ∃ m, t = withFlint s f (fpNext { x with dmem := m }) ∧
        (∀ k, k < n → byte m (a.toNat + k) = BitVec.ofNat 8 ((gRead x i.d.toNat).toNat / 256 ^ k)) ∧
        (∀ k, k < a.toNat ∨ a.toNat + n ≤ k → byte m k = byte x.dmem k)
    (Instr.wf (.fpLd f i) = true → inDataMemory a 8 8 → exec (.fpLd f i) s = .next (wroteG s f i.d (loaded 8))) ∧
    (Instr.wf (.fpLd32 f i) = true → inDataMemory a 4 4 → exec (.fpLd32 f i) s = .next (wroteG s f i.d (loaded 4))) ∧
    (Instr.wf (.fpSt f i) = true → inDataMemory a 8 8 → ∃ t, exec (.fpSt f i) s = .next t ∧ stored 8 t) ∧
    (Instr.wf (.fpSt32 f i) = true → inDataMemory a 4 4 → ∃ t, exec (.fpSt32 f i) s = .next t ∧ stored 4 t) ∧
    (¬ inDataMemory a 8 8 → (Instr.wf (.fpLd f i) = true → exec (.fpLd f i) s = .next (seqFault s f 1)) ∧
      (Instr.wf (.fpSt f i) = true → exec (.fpSt f i) s = .next (seqFault s f 1))) ∧
    (¬ inDataMemory a 4 4 → (Instr.wf (.fpLd32 f i) = true → exec (.fpLd32 f i) s = .next (seqFault s f 1)) ∧
      (Instr.wf (.fpSt32 f i) = true → exec (.fpSt32 f i) s = .next (seqFault s f 1)))

/-- For a well-formed instruction that may act, with t = PC + OFFSET inside the code: BR continues at t; CALL pushes PC + 1 and continues at t while the return stack holds fewer than 16 entries, else it is fault 2 (STACK); RET pops the newest entry and continues there, on an empty stack fault 2; LOOP writes g[A] - 1 and continues at t unless g[A], read after the write, is 0, when PC moves on (so LOOP of g0 never branches). HALT stops the program as FrameSharedMoves says. Nothing else changes. -/
def Obligations.FrameControlFlow : Prop :=
  ∀ (s : State) (f : FlintId),
    let x := flintOf s f
    (∀ (i : FrBr) (t : Nat), fpReady s f i.pneg i.pidx → (x.pc : Int) + i.offset.toInt = t → t < x.code.length →
      (Instr.wf (.fpBr f i) = true → exec (.fpBr f i) s = .next (withFlint s f { x with pc := t })) ∧
      (Instr.wf (.fpCall f i) = true → exec (.fpCall f i) s =
        .next (if x.stack.length < 16 then withFlint s f { x with stack := (x.pc + 1) % 16384 :: x.stack, pc := t } else seqFault s f 2)) ∧
      (Instr.wf (.fpLoop f i) = true →
        let y := gWrite x i.a.toNat (gRead x i.a.toNat - 1)
        exec (.fpLoop f i) s = .next (withFlint s f (if gRead y i.a.toNat = 0 then fpNext y else { y with pc := t })))) ∧
    (∀ i : FrBr, fpReady s f i.pneg i.pidx → Instr.wf (.fpRet f i) = true →
      (∀ t r, x.stack = t :: r → exec (.fpRet f i) s = .next (withFlint s f { x with stack := r, pc := t })) ∧
      (x.stack = [] → exec (.fpRet f i) s = .next (seqFault s f 2))) ∧
    (fpReady s f false 0 → exec (.fpHalt f) s = .next (seqHalted s f))

/-- The frame of every frame-program instruction, shown on NOP, ADD and CKPT. Where the region's program is not running, waits, or the region neither holds the lease nor follows records, the command changes nothing (with no release record to take at the head of the mirror). Where it leads and runs: past the last instruction of the code the program halts as by HALT; an instruction whose predicate is false moves PC on and changes nothing else. -/
def Obligations.FrameInactiveInstructions : Prop :=
  ∀ (s : State) (f : FlintId) (i : FrReg) (k : FrImm), Instr.wf (.fpAdd f i) = true → Instr.wf (.fpCkpt f k) = true →
    let x := flintOf s f
    (x.mirror = [] → (flintUp s f = false ∨ x.st ≠ .running ∨ x.wait ≠ none ∨ (holder s ≠ some f ∧ x.shadow ≠ .inShadow)) →
      exec (.fpNop f) s = .next s ∧ exec (.fpAdd f i) s = .next s ∧ exec (.fpCkpt f k) s = .next s) ∧
    (flintUp s f = true → x.st = .running → x.wait = none → holder s = some f → mirrorDone s f = true →
      (x.code.length ≤ x.pc →
        exec (.fpNop f) s = .next (seqHalted s f) ∧ exec (.fpAdd f i) s = .next (seqHalted s f) ∧ exec (.fpCkpt f k) s = .next (seqHalted s f)) ∧
      (x.pc < x.code.length →
        (fpPred x i.pidx.toNat = i.pneg → exec (.fpAdd f i) s = .next (withFlint s f (fpNext x))) ∧
        (fpPred x k.pidx.toNat = k.pneg → exec (.fpCkpt f k) s = .next (withFlint s f (fpNext x)))))

/-- For a well-formed instruction that may act: EVCLR clears the flags set in g[A]; EVSET sets them where all lie in e24 to e31 and is fault 4 (FORBIDDEN) otherwise; EVRD writes g[D] with the 64 flags, RDTIME with the PTP-disciplined time in ns (seconds times 10^9 plus ns), RDPOS with frame, phase and slot at bits 32, 16 and 0, and each of the three tells the standby the value where that is in the shadow run; TSET sets timer FUNC[1:0] to g[A][31:0] ns. PC moves on and nothing else changes. -/
def Obligations.FrameFlagsAndTime : Prop :=
  ∀ (s : State) (f : FlintId) (i : FrReg), fpReady s f i.pneg i.pidx →
    let x := flintOf s f
    let a := gRead x i.a.toNat
    let time : DWord := BitVec.ofNat 64 (s.time.sec * 1000000000 + s.time.ns)
    let pos : DWord := BitVec.ofNat 64 (s.scan.frame * 2 ^ 32 + s.scan.phase * 2 ^ 16 + s.scan.slot)
    (Instr.wf (.fpEvclr f i) = true → exec (.fpEvclr f i) s = .next (withFlint s f (fpNext { x with e := x.e &&& ~~~a }))) ∧
    (Instr.wf (.fpEvset f i) = true → exec (.fpEvset f i) s =
      .next (if a &&& ~~~(0xFF000000 : DWord) = 0 then withFlint s f (fpNext { x with e := x.e ||| a }) else seqFault s f 4)) ∧
    (Instr.wf (.fpEvrd f i) = true → exec (.fpEvrd f i) s = .next (mirrorSend (wroteG s f i.d x.e) f (.value x.e))) ∧
    (Instr.wf (.fpRdtime f i) = true → exec (.fpRdtime f i) s = .next (mirrorSend (wroteG s f i.d time) f (.value time))) ∧
    (Instr.wf (.fpRdpos f i) = true → exec (.fpRdpos f i) s = .next (mirrorSend (wroteG s f i.d pos) f (.value pos))) ∧
    (Instr.wf (.fpTset f i) = true → exec (.fpTset f i) s =
      .next (withFlint s f (fpNext { x with timers := x.timers.set (Fin.ofNat 4 i.func.toNat) (a.toNat % 2 ^ 32) })))

/-- For a well-formed instruction that may act. WAITE of mask g[A], any flag or (FUNC bit 0) all: where the condition holds, g[D] takes the masked flags, they are cleared where FUNC bit 1 asks, p[C] becomes 0 and PC moves on; else the region waits, with a limit of g[B] ns from now unless g[B] is 0. WAITT for the time g[A], or with FUNC bit 0 for g[A] ns: ends where the time has come or the duration is 0, else waits. WAITL for phase [17:16] and slot [13:0] of frame [63:32]: a phase of N or above or a slot of VT or above is fault 6 (POSITION); else it ends where the scan runs and has reached the position, and otherwise waits. An end is told to the standby in the shadow run; nothing else changes. -/
def Obligations.FrameWaits : Prop :=
  ∀ (s : State) (f : FlintId) (i : FrReg), fpReady s f i.pneg i.pidx →
    let x := flintOf s f
    let a := gRead x i.a.toNat
    let b := (gRead x i.b.toNat).toNat
    let flags := x.e &&& a
    let met : Bool := if bitAt i.func.toNat 0 then flags == a else flags != 0
    let y := gWrite x i.d.toNat flags
    let z := fpPredSet (if bitAt i.func.toNat 1 then { y with e := y.e &&& ~~~flags } else y) i.c.toNat false
    let ended := mirrorSend (withFlint s f (fpNext x)) f (.waitEnd 0 false)
    (Instr.wf (.fpWaite f i) = true →
      exec (.fpWaite f i) s = .next (
        if met then mirrorSend (withFlint s f (fpNext z)) f (.waitEnd flags false)
        else waits s f (.events a (bitAt i.func.toNat 0) (bitAt i.func.toNat 1) i.d.toNat i.c.toNat (if b = 0 then none else some (s.now + b))))) ∧
    (Instr.wf (.fpWaitt f i) = true →
      (bitAt i.func.toNat 0 = true → exec (.fpWaitt f i) s = .next (if a = 0 then ended else waits s f (.delay (s.now + a.toNat)))) ∧
      (bitAt i.func.toNat 0 = false → exec (.fpWaitt f i) s = .next (if a.toNat ≤ timeNs s.time then ended else waits s f (.time a.toNat)))) ∧
    (Instr.wf (.fpWaitl f i) = true →
      exec (.fpWaitl f i) s = .next (
        if panelN s ≤ bitsOf a.toNat 16 2 ∨ timingVt s ≤ bitsOf a.toNat 0 14 then seqFault s f 6
        else if s.scan.running = true ∧ scanReached s a = true then ended
        else waits s f (.scan a)))

/-- Whatever the region waits for otherwise, everything else unchanged. WAITE_TIMEOUT on a WAITE whose limit has come: g[D] takes the masked flags, they are cleared where asked, p[C] becomes 1, PC moves on, and the standby in the shadow run is told. WAITT_REACHED on a WAITT whose PTP time or span has come: PC moves on and the standby is told. Before its time each of the two changes nothing. TIMER_EXPIRED on a running timer of a region in service that no WAITE occupies: the timer stops and event flag 4 + t is set. WATCHDOG_EXPIRED on a running program of a region in service, not in the shadow run, with FLA_WDOG = n not 0: once n ms have passed since the last checkpoint, the standby is told and the program stops with fault 7; before, or with FLA_WDOG 0, nothing happens. -/
def Obligations.FrameWaitsEnd : Prop :=
  ∀ (s : State) (f : FlintId),
    let x := flintOf s f
    (∀ mask all clear d c limit, x.wait = some (.events mask all clear d c (some limit)) →
      let flags := x.e &&& mask
      let y := gWrite x d flags
      exec (.waiteTimeout f) s = .next (if limit ≤ s.now then
        mirrorSend (withFlint s f (fpNext (fpPredSet (if clear then { y with e := y.e &&& ~~~flags } else y) c true))) f (.waitEnd flags true) else s)) ∧
    (∀ till, x.wait = some (.time till) →
      exec (.waittReached f) s = .next (if till ≤ s.time.sec * 1000000000 + s.time.ns then
        mirrorSend (withFlint s f (fpNext x)) f (.waitEnd 0 false) else s)) ∧
    (∀ till, x.wait = some (.delay till) →
      exec (.waittReached f) s = .next (if till ≤ s.now then mirrorSend (withFlint s f (fpNext x)) f (.waitEnd 0 false) else s)) ∧
    (∀ t : Fin 4, flintUp s f = true → x.timers[t] ≠ 0 → (∀ mask all clear d c limit, x.wait ≠ some (.events mask all clear d c limit)) →
      exec (.timerExpired f t) s =
        .next (withFlint s f { x with timers := x.timers.set t 0, e := x.e ||| BitVec.ofNat 64 (2 ^ (4 + t.val)) })) ∧
    (flintUp s f = true → x.st = .running → x.shadow ≠ .inShadow →
      let n := getF s (flaWdog (flintRegion f)) 0 8
      exec (.watchdogExpired f) s = .next (if n ≠ 0 ∧ x.wdogAt + 1000000 * n ≤ s.now then seqFault (mirrorSend s f .watchdog) f 7 else s))

/-- For a well-formed instruction that may act in a region whose agent has not lapsed. WRREG writes g[D][31:0] to the internal address g[A] + sext(IMM) modulo 2^40; WRBLK writes FUNC words of data memory from g[B] to addresses from g[A] up, 4 apart (a misplaced block is fault 1). An address in the Slate or the Flint-B window makes either a FORBIDDEN fault (4) with nothing written. Where all the instruction's writes fit into 256 outstanding ones they go out together, each as the next numbered action, told to the standby by its digest, with one acknowledgement outstanding: status 3 for an address in no window and beyond DRAM, 2 for a region that does not serve requests, else 0, or the status of the DRAM write for an address of DRAM; the region, the own one for the Flint-A window, carries it out where the number is above its last action, which it then becomes, and counts a duplicate where it is not; a misaligned write is acknowledged and writes nothing. Otherwise the instruction waits with its writes. -/
def Obligations.FrameRegisterWrites : Prop :=
  ∀ (s : State) (f : FlintId), (flintOf s f).lapsed = false →
    let x := flintOf s f
    (∀ i : FrImm, fpReady s f i.pneg i.pidx → Instr.wf (.fpWrreg f i) = true →
      let addr := (gRead x i.a.toNat + i.imm.signExtend 64).toNat % 2 ^ 40
      let v : Word := BitVec.ofNat 32 (gRead x i.d.toNat).toNat
      (writeForbidden addr = true → exec (.fpWrreg f i) s = .next (seqFault s f 4)) ∧
      (writeForbidden addr = false → exec (.fpWrreg f i) s = .next (writesIssue f [(addr, v)] s))) ∧
    (∀ i : FrReg, fpReady s f i.pneg i.pidx → Instr.wf (.fpWrblk f i) = true →
      let a := (gRead x i.a.toNat).toNat
      let b := gRead x i.b.toNat
      let ws := (List.range i.func.toNat).map fun k => ((a + 4 * k) % 2 ^ 40, (BitVec.ofNat 32 (dmemLe x (b.toNat + 4 * k) 4) : Word))
      (¬ inDataMemory b 4 (4 * i.func.toNat) → exec (.fpWrblk f i) s = .next (seqFault s f 1)) ∧
      (inDataMemory b 4 (4 * i.func.toNat) → ws.any (fun w => writeForbidden w.1) = true → exec (.fpWrblk f i) s = .next (seqFault s f 4)) ∧
      (inDataMemory b 4 (4 * i.func.toNat) → ws.any (fun w => writeForbidden w.1) = false → exec (.fpWrblk f i) s = .next (writesIssue f ws s))) ∧
    (∀ (t : State) (ws : List (Nat × Word)),
      (256 < fpWrites t f + ws.length → writesIssue f ws t = waits t f (.write ws)) ∧
      (fpWrites t f + ws.length ≤ 256 →
        let u := ws.foldl (fun t w => writeIssue t f w.1 w.2) t
        writesIssue f ws t = withFlint u f (fpNext (flintOf u f)))) ∧
    (∀ (t : State) (addr : Nat) (v : Word),
      let n := (flintOf t f).action + 1
      let u := mirrorSend (withFlint t f { flintOf t f with action := n }) f
        (.digest (BitVec.ofNat 64 n) (crc32 (leBytes n 8 ++ leBytes addr 8 ++ leBytes v.toNat 4)))
      (addr < 0xFFF0000000 ∨ 0xFFF1000000 ≤ addr → dramRegion t addr = none → writeIssue t f addr v = addAck u (.frame f addr) 3) ∧
      (∀ r, addr < 0xFFF0000000 ∨ 0xFFF1000000 ≤ addr → dramRegion t addr = some r →
        (n ≤ lastAction t r → writeIssue t f addr v = addAck (bump u (duplicatesKey r)) (.frame f addr) (writeStatus t addr 4)) ∧
        (lastAction t r < n → writeIssue t f addr v = addAck
          (if addr % 4 = 0 then dramPut (setLastAction u r n) addr (leBytes v.toNat 4) else setLastAction u r n)
          (.frame f addr) (writeStatus t addr 4))) ∧
      (∀ a, addr = 0xFFF0000000 + a → a < 0x1000000 →
        let r := if a / 0x100000 = 1 then flintRegion f else a / 0x100000
        (a / 0x100000 ≠ 1 → serves t r = false → writeIssue t f addr v = addAck u (.frame f addr) 2) ∧
        (a / 0x100000 = 1 ∨ serves t r = true → n ≤ lastAction t r → writeIssue t f addr v = addAck (bump u (duplicatesKey r)) (.frame f addr) 0) ∧
        (a / 0x100000 = 1 → lastAction t r < n →
          writeIssue t f addr v = addAck (ownWrite (reqMeets (setLastAction u r n) .fp r) f (a % 0x100000) v) (.frame f addr) 0) ∧
        (a / 0x100000 ≠ 1 → serves t r = true → lastAction t r < n → writeIssue t f addr v = addAck
          (if a % 4 = 0 then busWrite (reqMeets (setLastAction u r n) .fp r) .fp a v else setLastAction u r n) (.frame f addr) 0)))

/-- For a well-formed RDREG that may act: an address in the Flint-B window is a FORBIDDEN fault. An address in no window and beyond DRAM gives status 3, an address of DRAM the word there with the status of its read, and one of a register that reading leaves as it is (no read-to-clear register) what the region's read gives: status 2 and 0 from a region that does not serve, else status 0 and the register, the own Flint window standing for the region's own; the instruction waits with destination, value, status and place. REGISTER_READ_RESPONSE for the frame program, with the other region reading nothing: g[D] takes the value zero-extended and PC moves on, the standby in the shadow run being told; with an error status g[D] takes 0 and FP_ACCESS_ERROR is raised. -/
def Obligations.FrameRegisterReads : Prop :=
  ∀ (s : State) (f : FlintId),
    let x := flintOf s f
    (∀ i : FrImm, fpReady s f i.pneg i.pidx → Instr.wf (.fpRdreg f i) = true →
      let addr := (gRead x i.a.toNat + i.imm.signExtend 64).toNat % 2 ^ 40
      let wait (v : Word) (st : Nat) : FpWait := .read i.d.toNat v st (readRegion s f addr) (addr % 0x100000)
      (windowRegion addr = some 2 → exec (.fpRdreg f i) s = .next (seqFault s f 4)) ∧
      (addr < 0xFFF0000000 ∨ 0xFFF1000000 ≤ addr → dramRegion s addr = none → exec (.fpRdreg f i) s = .next (waits s f (wait 0 3))) ∧
      (addr < 0xFFF0000000 ∨ 0xFFF1000000 ≤ addr → dramRegion s addr ≠ none →
        let a := addr / 4 * 4
        exec (.fpRdreg f i) s = .next (waits (poisonSeen s (flintRegion f) a 4) f
          (wait (BitVec.ofNat 32 (readLe s a 4)) (readStatus s (flintRegion f) a 4)))) ∧
      (∀ a, addr = 0xFFF0000000 + a → a < 0x1000000 → a / 0x100000 ≠ 2 → rcAddr addr = false →
        let b := a / 4 * 4
        let own := if b / 0x100000 = 1 then flintRegion f * 0x100000 + b % 0x100000 else b
        exec (.fpRdreg f i) s = .next (
          if serves s (own / 0x100000) then
            let t := readActs (reqMeets s .fp (own / 0x100000)) .fp own
            waits t f (wait (viewReg t .fp own) 0)
          else waits s f (wait 0 2)))) ∧
    (∀ d v r o, x.wait = some (.read d v 0 r o) → (∀ d v st r o, (flintOf s (otherFlint f)).wait ≠ some (.read d v st r o)) →
      exec (.registerReadResponse .fp) s =
        .next (mirrorSend (withFlint s f (fpNext (gWrite x d (v.zeroExtend 64)))) f (.value (v.zeroExtend 64)))) ∧
    (∀ d v st r o, st ≠ 0 → x.wait = some (.read d v st r o) → (∀ d v st r o, (flintOf s (otherFlint f)).wait ≠ some (.read d v st r o)) →
      exec (.registerReadResponse .fp) s =
        .next (accessError (mirrorSend (withFlint s f (fpNext (gWrite x d 0))) f (.value 0)) f st (r * 0x100000 + o)))

/-- A FENCE that may act ends at once where the region has no write outstanding and waits otherwise. WRITE_ACK n takes the n-th outstanding acknowledgement away (with none there, nothing happens): a posted write's does nothing else; a host's is handed to its port; a frame-program write's with an error raises FP_ACCESS_ERROR, and then a FENCE of the region ends once no write is outstanding, a CKPT then begins to write its bank, and a WRREG or WRBLK that waits sends what is left unless the agent has lapsed; a layer write's is counted by Quartz. -/
def Obligations.FenceAndAcknowledgements : Prop :=
  ∀ (s : State) (f : FlintId),
    let x := flintOf s f
    (fpReady s f false 0 → exec (.fpFence f) s = .next (if fpWrites s f = 0 then withFlint s f (fpNext x) else waits s f .fence)) ∧
    (∀ n, s.acks.length ≤ n → exec (.writeAck n) s = .next s) ∧
    (∀ n a, s.acks[n]? = some a →
      let t : State := { s with acks := s.acks.eraseIdx n }
      (∀ r, a.who = .other r → exec (.writeAck n) s = .next t) ∧
      (∀ h addr, a.who = .host h addr → exec (.writeAck n) s = .next (hostAck t h addr a.status)) ∧
      (∀ p l k, a.who = .layer p l k → exec (.writeAck n) s = .next (layerAck t p l k a.status)) ∧
      (∀ addr, a.who = .frame f addr →
        let u := if a.status = 0 then t else accessError t f a.status addr
        (x.wait = some .fence → exec (.writeAck n) s = .next (if fpWrites t f = 0 then withFlint u f (fpNext x) else u)) ∧
        (∀ tag, x.wait = some (.ckpt tag false) → exec (.writeAck n) s = .next (if fpWrites t f = 0 then waits u f (.ckpt tag true) else u)) ∧
        (∀ ws, x.wait = some (.write ws) → exec (.writeAck n) s = .next (if x.lapsed then u else writesIssue f ws u)) ∧
        (x.wait = none → exec (.writeAck n) s = .next u)))

/-- For a well-formed LAUNCH that may act in a region whose agent has not lapsed, with the launch block at data memory byte g[A]. A misplaced block of 96 bytes is fault 1; a block whose addresses exceed 40 bits, whose constant length is 8,192 or more or whose reserved word is not 0 is fault 5. Otherwise it is one numbered action with its digest, and the record (frame g[D][31:0]; first stripe IMM[9:0], count IMM[19:10], phase IMM[21:20]; the block's addresses, length and 16 scalars; the allowance) joins the launch queue of every Galena region in service and PC moves on, the standby being told, where each of those queues holds fewer than 8; where one is full the instruction waits with the record; with no Galena region in service nothing is sent. LAUNCH_RECORD: a Galena region in service takes the record off its queue; a record outside the range of the panel or with misplaced addresses joins no launch; any other joins the region's launches under the next number, without its stripes that are past or that a launch covers; a LAUNCH that waits is then tried again. -/
def Obligations.LaunchSendsItsRecord : Prop :=
  (∀ (s : State) (f : FlintId) (i : FrImm), fpReady s f i.pneg i.pidx → Instr.wf (.fpLaunch f i) = true → (flintOf s f).lapsed = false →
    let x := flintOf s f
    let a := gRead x i.a.toNat
    let b := dmemBytes x a.toNat 96
    let n := i.imm.toNat
    let r : LaunchRec := {
      frame := BitVec.ofNat 32 (gRead x i.d.toNat).toNat
      phase := BitVec.ofNat 2 (bitsOf n 20 2), first := BitVec.ofNat 10 (bitsOf n 0 10), count := BitVec.ofNat 10 (bitsOf n 10 10)
      kernel := BitVec.ofNat 40 (leAt b 0 8), table := BitVec.ofNat 40 (leAt b 8 8), const := BitVec.ofNat 40 (leAt b 16 8)
      constLen := BitVec.ofNat 13 (leAt b 0x18 4)
      scalars := (List.range 16).map fun k => BitVec.ofNat 32 (leAt b (0x20 + 4 * k) 4)
      allowance := BitVec.ofNat 16 (allowance s) }
    let u := actionIssue s f 0 (leBytes (gRead x i.d.toNat).toNat 4 ++ leBytes n 4 ++ b)
    let up := (List.finRange 4).filter fun g => serves s (galRegion g)
    (¬ inDataMemory a 8 96 → exec (.fpLaunch f i) s = .next (seqFault s f 1)) ∧
    (inDataMemory a 8 96 → launchBlockOk b = false → exec (.fpLaunch f i) s = .next (seqFault s f 5)) ∧
    (inDataMemory a 8 96 → launchBlockOk b = true →
      (up = [] → exec (.fpLaunch f i) s = .next (mirrorSend (setFlint u f fpNext) f (.sent false))) ∧
      (up ≠ [] → (∃ g ∈ up, 8 ≤ (s.gal[g]).queue.length) → exec (.fpLaunch f i) s = .next (waits u f (.launch r))) ∧
      (up ≠ [] → (∀ g ∈ up, (s.gal[g]).queue.length < 8) →
        exec (.fpLaunch f i) s = .next (mirrorSend (setFlint
          (up.foldl (fun t g => regionAction t (galRegion g) (x.action + 1) fun t => setGal t g fun y => { y with queue := y.queue ++ [r] }) u)
          f fpNext) f (.sent true))))) ∧
  (∀ (s : State) (g : Fin 4) (r : LaunchRec),
    let settled (t : State) : State := launchSettle (launchSettle t .a) .b
    (serves s (galRegion g) = false → exec (.launchRecord g r) s = .next (settled s)) ∧
    (serves s (galRegion g) = true → ∃ t, exec (.launchRecord g r) s = .next (settled t) ∧
      (t.gal[g]).queue = (s.gal[g]).queue.erase r ∧
      (launchRange s r = true → (t.gal[g]).launches = (s.gal[g]).launches) ∧
      (launchRange s r = false → ∃ l, (t.gal[g]).launches = (s.gal[g]).launches ++ [l] ∧ l.record = r ∧ l.id = (s.gal[g]).nextLaunch ∧
        (t.gal[g]).nextLaunch = (s.gal[g]).nextLaunch + 1 ∧
        (∀ k, k ∈ l.dropped ↔ r.first.toNat ≤ k ∧ k < r.first.toNat + r.count.toNat ∧
          (stripePast s (r.frame.toNat, r.phase.toNat, k) = true ∨
            (s.gal[g]).launches.any (fun l => covers l (r.frame.toNat, r.phase.toNat, k)) = true))))) ∧
  (∀ (s : State) (f : FlintId),
    ((∀ r, (flintOf s f).wait ≠ some (.launch r)) → launchSettle s f = s) ∧
    (∀ r, (flintOf s f).wait = some (.launch r) → launchSettle s f = (if (flintOf s f).lapsed then s else launchSend s f r)))

/-- For a well-formed instruction that may act in a region whose agent has not lapsed. BIND (frame g[A][31:0], present time g[B] ns): the next numbered action; Quartz in service runs the request or makes it the one that waits. PWR: the next action; Slate takes the request IMM. BRXJ: the next action; with Borax in service and fewer than 8 jobs in the named engine's queue (for 4, and for one that is quarantined, that of the engine in service with the fewest) the descriptor at g[A] joins it and PC moves on; with 8 there the instruction waits. DMA on channel IMM with the descriptor at data memory byte g[A]: misplaced, or with device addresses above 40 bits, it is fault 1; on a busy channel it waits; else the channel takes the descriptor and FLA_DMA_STATUS shows it RUNNING in each Flint region in service. In every case an action whose number is not above its region's last action is counted there and not carried out again. -/
def Obligations.FrameCommandsAreActions : Prop :=
  ∀ (s : State) (f : FlintId), (flintOf s f).lapsed = false →
    let x := flintOf s f
    let n := x.action + 1
    (∀ i : FrReg, fpReady s f i.pneg i.pidx → Instr.wf (.fpBind f i) = true →
      let frame := (gRead x i.a.toNat).toNat % 2 ^ 32
      let t := (gRead x i.b.toNat).toNat
      let u := actionIssue s f 0 (leBytes frame 4 ++ leBytes t 8)
      (serves s 3 = false → exec (.fpBind f i) s = .next (setFlint u f fpNext)) ∧
      (serves s 3 = true → lastAction s 3 < n →
        exec (.fpBind f i) s = .next (setFlint (setQuartz (setLastAction u 3 n) fun q =>
          if q.bindRun.isNone then { q with bindRun := some ⟨frame, t / 1000000000, t % 1000000000⟩ }
          else { q with bindWait := some ⟨frame, t / 1000000000, t % 1000000000⟩ }) f fpNext)) ∧
      (serves s 3 = true → n ≤ lastAction s 3 → exec (.fpBind f i) s = .next (setFlint (bump u (duplicatesKey 3)) f fpNext))) ∧
    (∀ i : FrImm, fpReady s f i.pneg i.pidx → Instr.wf (.fpPwr f i) = true →
      let u := actionIssue s f 0 (leBytes i.imm.toNat 4)
      (lastAction s 0 < n → exec (.fpPwr f i) s = .next (setFlint (powerRequest (setLastAction u 0 n) i.imm true) f fpNext)) ∧
      (n ≤ lastAction s 0 → exec (.fpPwr f i) s = .next (setFlint (bump u (duplicatesKey 0)) f fpNext))) ∧
    (∀ i : FrImm, fpReady s f i.pneg i.pidx → Instr.wf (.fpBrxj f i) = true →
      let addr := (gRead x i.a.toNat).toNat % 2 ^ 40
      let e := jobEngine s (i.imm.toNat % 8)
      let u := actionIssue s f addr (leBytes i.imm.toNat 4)
      (serves s 12 = false → exec (.fpBrxj f i) s = .next (setFlint u f fpNext)) ∧
      (serves s 12 = true → 8 ≤ (s.borax.jobs[e]).length → exec (.fpBrxj f i) s = .next (waits u f (.brxj addr (i.imm.toNat % 8)))) ∧
      (serves s 12 = true → (s.borax.jobs[e]).length < 8 → lastAction s 12 < n →
        exec (.fpBrxj f i) s = .next (setFlint (queueJob (setLastAction u 12 n) e ⟨addr, true, s.now⟩) f fpNext))) ∧
    (∀ i : FrImm, fpReady s f i.pneg i.pidx → Instr.wf (.fpDma f i) = true →
      let a := gRead x i.a.toNat
      let ch : Fin 4 := Fin.ofNat 4 i.imm.toNat
      let d := dmaDesc (dmemBytes x a.toNat 32)
      let u := actionIssue s f 0 (dmemBytes x a.toNat 32 ++ leBytes i.imm.toNat 4)
      (¬ inDataMemory a 8 32 ∨ dmaAddrOk d = false → exec (.fpDma f i) s = .next (seqFault s f 1)) ∧
      (inDataMemory a 8 32 → x.dma[ch] ≠ none → dmaAddrOk d = true → exec (.fpDma f i) s = .next (waits u f (.dma ch.val a.toNat))) ∧
      (inDataMemory a 8 32 → x.dma[ch] = none → dmaAddrOk d = true → lastAction s (flintRegion f) < n →
        exec (.fpDma f i) s = .next (setFlint (dmaStatus (setFlint (setLastAction u (flintRegion f) n) f fun y =>
          { y with dma := y.dma.set ch (some d) }) ch.val 1) f fpNext)))

/-- DMA_END on an idle channel does nothing, nor on one that reads flash while a program or erase of it runs that cannot be suspended. On another busy one: a descriptor whose length, alignment, reserved bytes or spaces break the range rule ends with status 2 and one that touches a region window outside the pewter buffer with status 3, nothing having moved; otherwise the 8-byte words move from source to destination in ascending order until one ends in an error, and the status is 0, or 4 after an error, a flash error at a byte of the source among them. In each case the channel is free again, the status stands in FLA_DMA_STATUS of each Flint region in service, and event flag 8 + channel is set; a DMA instruction that waits for the channel then starts. A word moves by reading the source space (device memory, flash section or data memory) and writing the destination space. -/
def Obligations.DmaMovesItsWords : Prop :=
  ∀ (s : State) (f : FlintId) (ch : Fin 4) (bad : Option (BitVec 32)),
    ((flintOf s f).dma[ch] = none → exec (.dmaEnd f ch bad) s = .next s) ∧
    (∀ d, (flintOf s f).dma[ch] = some d → d.srcSpace = 1 → flashWaits s = true → exec (.dmaEnd f ch bad) s = .next s) ∧
    (∀ d, (flintOf s f).dma[ch] = some d → (d.srcSpace = 1 → flashWaits s = false) →
      let ended (st : Nat) (t : State) : State :=
        let u := setFlag (dmaStatus (setFlint t f fun x => { x with dma := x.dma.set ch none }) ch.val st) (8 + ch.val)
        match (flintOf u f).wait with
        | some (.dma n a) => if n = ch.val then dmaStart u f ch a else u
        | _ => u
      (dmaCheck s d ≠ 0 → exec (.dmaEnd f ch bad) s = .next (ended (dmaCheck s d) s)) ∧
      (dmaCheck s d = 0 →
        let moved := dmaMove f d bad (d.len / 8) 0 (if d.srcSpace = 1 then flashReads s d.src.toNat d.len else s)
        exec (.dmaEnd f ch bad) s = .next (ended moved.1 moved.2))) ∧
    (∀ (d : DmaDesc) (n o : Nat) (t : State),
      dmaMove f d bad 0 o t = (0, t) ∧
      (dmaRead t f bad d.srcSpace (d.src.toNat + o) o = none →
        dmaMove f d bad (n + 1) o t = (4, if d.srcSpace = 0 then poisonSeen t (flintRegion f) (d.src.toNat + o) 8 else t)) ∧
      (∀ bs, dmaRead t f bad d.srcSpace (d.src.toNat + o) o = some bs →
        (dmaWrite t d.dstSpace (d.dst.toNat + o) bs = none → dmaMove f d bad (n + 1) o t = (4, t)) ∧
        (∀ u, dmaWrite t d.dstSpace (d.dst.toNat + o) bs = some u → dmaMove f d bad (n + 1) o t = dmaMove f d bad n (o + 8) u)) ∧
      (d.srcSpace = 1 → ((dmaRead t f bad d.srcSpace (d.src.toNat + o) o = none) ↔
        ∃ k, bad = some k ∧ o ≤ k.toNat ∧ k.toNat < o + 8)))

/-- For a well-formed instruction on semaphore n (24 to 31) that may act in a region whose agent has not lapsed and whose next action is new to Slate; u is the state after the action is numbered and taken by Slate, v that after the request has met the others of its clock. SEMACQ: a free semaphore, or one the frame program holds, is held by it and PC moves on, the standby being told; held by a host, the frame program joins the waiters once and the instruction waits. SEMTRY: p[D] tells whether the semaphore is now held; nothing is queued. SEMREL of a semaphore the frame program holds: it is freed, or goes to the first waiter, and PC moves on; of one it does not hold: fault 3 (SEMAPHORE), told to the standby by a refused record. -/
def Obligations.FrameSemaphores : Prop :=
  ∀ (s : State) (f : FlintId) (i : FrImm), fpReady s f i.pneg i.pidx → (flintOf s f).lapsed = false →
    lastAction s 0 < (flintOf s f).action + 1 →
    let n := i.imm.toNat
    let m := semOf s n
    let u := setLastAction (actionIssue s f 0 (leBytes n 4)) 0 ((flintOf s f).action + 1)
    let v := semMeets u .fp n
    let held := setSem v n fun m => { m with holder := some .frame }
    (Instr.wf (.fpSemacq f i) = true →
      (m.holder = none → exec (.fpSemacq f i) s = .next (mirrorSend (setFlint held f fpNext) f (.granted true))) ∧
      (m.holder = some .frame → exec (.fpSemacq f i) s = .next (mirrorSend (setFlint v f fpNext) f (.granted true))) ∧
      (∀ h, m.holder = some (.host h) → .frame ∉ m.waiters → exec (.fpSemacq f i) s =
        .next (waits (setSem v n fun m => { m with waiters := m.waiters ++ [.frame] }) f (.sem n)))) ∧
    (Instr.wf (.fpSemtry f i) = true →
      (m.holder = none → exec (.fpSemtry f i) s =
        .next (mirrorSend (setFlint held f fun x => fpNext (fpPredSet x i.d.toNat true)) f (.granted true))) ∧
      (m.holder = some .frame → exec (.fpSemtry f i) s =
        .next (mirrorSend (setFlint v f fun x => fpNext (fpPredSet x i.d.toNat true)) f (.granted true))) ∧
      (∀ h, m.holder = some (.host h) → exec (.fpSemtry f i) s =
        .next (mirrorSend (setFlint v f fun x => fpNext (fpPredSet x i.d.toNat false)) f (.granted false)))) ∧
    (Instr.wf (.fpSemrel f i) = true →
      (m.holder = some .frame → exec (.fpSemrel f i) s = .next (setFlint (semFree u n) f fpNext)) ∧
      (m.holder ≠ some .frame → exec (.fpSemrel f i) s = .next (seqFault (mirrorSend s f (.granted false)) f 3)))

/-- A well-formed CKPT that may act waits, writing its bank where no register write is outstanding, with nothing else changed. CHECKPOINT_WRITTEN while a CKPT writes its bank: with the standby out of the shadow arrangement, the bank not written last holds g, p, e, the return stack, the timers, data memory, the index of the next instruction, the tag and the last action number, and is the one written last; the watchdog restarts now and PC moves on; the other bank, and everything else, is unchanged. A standby in the shadow run has the same checkpoint in a bank of its own; one that waits takes it and enters the shadow run there. With no CKPT writing, nothing happens. -/
def Obligations.CheckpointsHoldTheSequencer : Prop :=
  ∀ (s : State) (f : FlintId),
    let x := flintOf s f
    (∀ i : FrImm, fpReady s f i.pneg i.pidx → Instr.wf (.fpCkpt f i) = true →
      exec (.fpCkpt f i) s = .next (waits s f (.ckpt i.imm (fpWrites s f == 0)))) ∧
    ((∀ tag, x.wait ≠ some (.ckpt tag true)) → exec (.checkpointWritten f) s = .next s) ∧
    (∀ tag, x.wait = some (.ckpt tag true) →
      let k : Ckpt := { g := x.g, p := x.p, e := x.e, stack := x.stack, timers := x.timers, dmem := x.dmem, pc := x.pc + 1, tag, action := x.action }
      let b : Fin 2 := if x.lastBank = 0 then 1 else 0
      let t := withFlint s f { x with banks := x.banks.set b (some k), lastBank := b.val, wdogAt := s.now, pc := x.pc + 1, wait := none }
      let o := otherFlint f
      let y := bankWrite (flintOf s o) k
      (flintUp s o = false ∨ (flintOf s o).shadow = .out → exec (.checkpointWritten f) s = .next t) ∧
      (flintUp s o = true → (flintOf s o).shadow = .inShadow → exec (.checkpointWritten f) s = .next (withFlint t o y)) ∧
      (flintUp s o = true → (flintOf s o).shadow = .waiting →
        ∃ u, exec (.checkpointWritten f) s = .next u ∧ (flintOf u o).shadow = .inShadow ∧ (flintOf u o).g = x.g ∧ (flintOf u o).dmem = x.dmem ∧
          (flintOf u o).pc = k.pc ∧ (flintOf u o).code = x.code ∧ (flintOf u o).st = .running ∧ (flintOf u o).mirror = []))

/-- Each of the three writes first meets the other requests of its clock. PROG_LOAD with LOAD alone set, in a region that serves: the source and address registers are latched, as the load in progress where there is none and else as the only one that waits; LOAD written to the other region in the same clock counts as one with it. PROG_LOAD_CHECKED with a load in progress (one from flash waits for a program or erase that cannot be suspended): a refused image leaves the program as it was, shows its reason in both regions and raises FP_LOAD_REFUSED there; an accepted one waits for the next frame start where the scan and a program run, and else is taken: its code, data and entry in both regions, both cleared and running from the entry, FP_LOADED raised; the load that waited is next. With no load in progress nothing happens. PROG_STOP, with no accepted image waiting, stops a running program in both regions without an event, its waits abandoned and its PC as it was (with no requester twice among a semaphore's waiters); PROG_RUN does nothing while a program runs or none is loaded and else starts it at the entry. In a region that does not serve, the three writes do nothing. -/
def Obligations.ProgramLoadsStopsAndStarts : Prop :=
  ∀ (s : State) (f : FlintId) (q : Requester) (bad : Option (BitVec 32)),
    let u := reqMeets s q (flintRegion f)
    (serves s (flintRegion f) = false →
      (∀ v, exec (.progLoad f q v) s = .next s) ∧ exec (.progStop f q) s = .next s ∧ exec (.progRun f q) s = .next s) ∧
    (serves s (flintRegion f) = true →
      (∀ v : Word, flag v 0 = true → flag v 3 = false → flag v 4 = false →
        let t := writeKey u (flaProgCtrl (flintRegion f)) v
        let l : ProgLoad := ⟨getB t (flaProgCtrl (flintRegion f)) 1, addr40 t (flaProgAddrLo (flintRegion f)) (flaProgAddrHi (flintRegion f))⟩
        let c := { t.ctrl with loadAt := some (f, s.now) }
        exec (.progLoad f q v) s = .next (
          if s.ctrl.loadAt = some (otherFlint f, s.now) then t
          else { t with ctrl := if s.ctrl.load.isSome then { c with loadWait := some l } else { c with load := some l } })) ∧
      (progRuns s = true → exec (.progRun f q) s = .next u) ∧
      (progRuns s = false → (∀ g, (flintOf s g).code = []) → exec (.progRun f q) s = .next u) ∧
      (progRuns s = false → flintUp s f = true → (flintOf s f).code ≠ [] → exec (.progRun f q) s = .next (seqStart u)) ∧
      (s.ctrl.ready = none → ∃ t, exec (.progStop f q) s = .next t ∧ t.evNet = s.evNet ∧
        ∀ g, flintUp s g = true → (flintOf s g).st = .running → (flintOf t g).st = .stopped ∧ (flintOf t g).wait = none ∧
          ((∀ n, (semOf s n).waiters.Nodup) → (flintOf t g).pc = (flintOf s g).pc))) ∧
    (s.ctrl.load = none → exec (.progLoadChecked bad) s = .next s) ∧
    (∀ l, s.ctrl.load = some l → l.flash = true → flashWaits s = true → exec (.progLoadChecked bad) s = .next s) ∧
    (∀ l, s.ctrl.load = some l → (l.flash = true → flashWaits s = false) →
      let u := if l.flash then flashReads s (l.addr % 2 ^ 32) 64 else loadPoison s l bad (progCheck s l bad)
      let t := setCtrl u fun c => { c with load := c.loadWait, loadWait := none }
      (∀ r k, progCheck s l bad = .error (r, k) → exec (.progLoadChecked bad) s =
        .next ((flintsUp t).foldl (fun s g => flintEvent s g 2 0x101 (r + 65536 * k)) (loadReason t r))) ∧
      (∀ img, progCheck s l bad = .ok img → exec (.progLoadChecked bad) s =
        .next (if s.scan.running = true ∧ progRuns s = true then setCtrl (loadReason t 0) fun c => { c with ready := some img }
          else progTake (loadReason t 0) img))) ∧
    (∀ g, flintUp s g = true → let x := flintOf (seqStart s) g
      x.st = .running ∧ x.pc = x.entry ∧ x.wait = none ∧ x.stack = [] ∧ x.e = 0 ∧ x.p = 1 ∧ x.action = 0 ∧ (∀ n, gRead x n = 0))

/-! Askix ray profile. -/

namespace Sys2Proof.Says

/-- Context `c` runs a group `x` of launch `l`, and the instruction at its pc is neither the last word of the code nor the one that the budget runs out on (R102, R114, R125). -/
def rayReady (s : State) (c : CtxId) (x : RayCtx) (l : Launch) : Prop :=
  ctxOf s c = some x ∧ launchOf s c.gal x.launch = some l ∧ x.pc + 1 < l.code.length ∧ x.charge + 1 ≤ l.budget

/-- The context put back as `y` after one instruction: 1 charged, the pc on the next word; nothing else of the state changed. -/
def rayDone (s : State) (y : RayCtx) : State := putCtx s { y with charge := y.charge + 1, pc := y.pc + 1 }

/-- An fp32 word that an operation may give: no nonzero subnormal, and no NaN but the canonical one (R93). -/
def canonicalF32 (w : Word) : Prop :=
  (fld w 23 8 = 0 → fld w 0 23 = 0) ∧ (fld w 23 8 = 255 → fld w 0 23 = 0 ∨ w = 0x7FC00000)

/-- A NaN of fp32. -/
def nanF32 (w : Word) : Prop := fld w 23 8 = 255 ∧ fld w 0 23 ≠ 0

end Sys2Proof.Says

/-- Register files of the sequencer and of a ray context. For every Flint region state and value: reading g0 gives 0 and p0 gives 1 always; a write of g[i] (i below 32) is read back unless i is 0, where the region is unchanged; a write of p[i] (i below 8) is read back unless i is 0, where the region is unchanged; and every other register of the file reads as before. For every context, register and lane: a vector write gives each active lane of v[D] its value and leaves the inactive lanes and every other v register as they were; a scalar write changes that one of s0 to s15 alone; a predicate write of p1 to p7 is read back and changes no other predicate, and one of p0 changes nothing. Lane l is active exactly when bit l of p[PIDX] differs from PNEG, so that with p0 holding all ones and PNEG 0 every lane is active. -/
def Obligations.RegisterFilesKeepWhatIsWritten : Prop :=
  (∀ (x : Flint) (v : DWord) (b : Bool) (i j : Nat), i < 32 → j < 32 →
      gRead x 0 = 0 ∧ fpPred x 0 = true ∧ gWrite x 0 v = x ∧ fpPredSet x 0 b = x ∧
      (i ≠ 0 → gRead (gWrite x i v) i = v) ∧ (i ≠ j → gRead (gWrite x i v) j = gRead x j) ∧
      (i < 8 → i ≠ 0 → fpPred (fpPredSet x i b) i = b) ∧
      (i < 8 → j < 8 → i ≠ j → fpPred (fpPredSet x i b) j = fpPred x j)) ∧
  (∀ (x : RayCtx) (d r : BitVec 6) (pneg : Bool) (pidx : BitVec 3) (f : Fin 8 → Word) (n : Fin 8) (w : Word) (b : Byte),
      vRead (vWrite x d pneg pidx f) d n = (if laneActive x pneg pidx n.val then f n else vRead x d n) ∧
      (r ≠ d → vRead (vWrite x d pneg pidx f) r n = vRead x r n) ∧
      sRead (sWrite x d w) d = w ∧ (r.toNat % 16 ≠ d.toNat % 16 → sRead (sWrite x d w) r = sRead x r) ∧
      (d.toNat % 8 ≠ 0 → pRead (pWrite x d b) d = b) ∧ (r.toNat % 8 ≠ d.toNat % 8 → pRead (pWrite x d b) r = pRead x r) ∧
      (d.toNat % 8 = 0 → pWrite x d b = x) ∧
      (laneActive x pneg pidx n.val = true ↔ (x.p[pidx.toFin]).getLsbD n.val ≠ pneg) ∧
      (x.p[(0 : Fin 8)] = 0xFF → anyActive x false 0 = true ∧ allActive x false 0 = true))

/-- For every pair of words. int32: ADD, SUB, MUL and FMA wrap modulo 2^32, MIN and MAX compare signed, ABS of -2^31 stays -2^31. unorm10 reads bits [9:0] alone and gives values up to 1,023: ADD and SUB saturate, MUL is (a b + 511) / 1023, MIN and MAX compare. CVT of a type to itself copies the word; int32 to unorm10 clamps; unorm10 to int32 zero-extends. Shift counts are the low five bits, SHR is logical and ASR arithmetic. -/
def Obligations.RayIntegerArithmetic : Prop :=
  ∀ (a b c : Word),
    let u (w : Word) : Nat := w.toNat % 1024
    (rayAddOp .i32 a b).toNat = (a.toNat + b.toNat) % 2 ^ 32 ∧ (raySubOp .i32 a b).toNat = (a.toNat + (2 ^ 32 - b.toNat)) % 2 ^ 32 ∧
    (rayMulOp .i32 a b).toNat = a.toNat * b.toNat % 2 ^ 32 ∧ (rayFmaOp .i32 a b c).toNat = (a.toNat * b.toNat + c.toNat) % 2 ^ 32 ∧
    (rayMinOp .i32 a b).toInt = min a.toInt b.toInt ∧ (rayMaxOp .i32 a b).toInt = max a.toInt b.toInt ∧
    (a ≠ 0x80000000 → (rayAbsOp .i32 a).toInt = a.toInt.natAbs) ∧ rayAbsOp .i32 0x80000000 = 0x80000000 ∧
    (rayAddOp .u10 a b).toNat = min 1023 (u a + u b) ∧ (raySubOp .u10 a b).toNat = u a - u b ∧
    (rayMulOp .u10 a b).toNat = (u a * u b + 511) / 1023 ∧ (rayMulOp .u10 a b).toNat ≤ 1023 ∧
    (rayMinOp .u10 a b).toNat = min (u a) (u b) ∧ (rayMaxOp .u10 a b).toNat = max (u a) (u b) ∧
    (∀ t, rayCvtOp t t a = a) ∧ ((rayCvtOp .i32 .u10 a).toNat : Int) = max 0 (min 1023 a.toInt) ∧ (rayCvtOp .u10 .i32 a).toNat = u a ∧
    (rayShlOp .i32 a b).toNat = a.toNat * 2 ^ (b.toNat % 32) % 2 ^ 32 ∧ (rayShrOp .i32 a b).toNat = a.toNat / 2 ^ (b.toNat % 32) ∧
    (rayAsrOp .i32 a b).toInt = a.toInt / (2 ^ (b.toNat % 32) : Nat)

/-- For every operand words a, b, c of fp32: ADD, SUB, MUL, FMA, RCP, RSQ, SQRT, FLOOR, FRACT, NEG, MIN and MAX give no nonzero subnormal and no NaN other than 0x7FC00000; with a NaN operand ADD, SUB, MUL, FMA, RCP, RSQ and SQRT give that NaN; MIN and MAX give the canonical NaN only when both operands are NaN. A subnormal operand acts as the zero of its sign. -/
def Obligations.RayFloatSpecialValues : Prop :=
  ∀ (a b c : Word),
    let zeroed (w : Word) : Word := if fld w 23 8 = 0 then w &&& 0x80000000 else w
    canonicalF32 (rayAddOp .f32 a b) ∧ canonicalF32 (raySubOp .f32 a b) ∧ canonicalF32 (rayMulOp .f32 a b) ∧
    canonicalF32 (rayFmaOp .f32 a b c) ∧ canonicalF32 (rayFloat1 fRcp .f32 a) ∧ canonicalF32 (rayFloat1 fRsq .f32 a) ∧
    canonicalF32 (rayFloat1 fSqrt .f32 a) ∧ canonicalF32 (rayFloat1 fFloor .f32 a) ∧ canonicalF32 (rayFloat1 fFract .f32 a) ∧
    canonicalF32 (rayNegOp .f32 a) ∧ canonicalF32 (rayMinOp .f32 a b) ∧ canonicalF32 (rayMaxOp .f32 a b) ∧
    (nanF32 a ∨ nanF32 b → rayAddOp .f32 a b = 0x7FC00000 ∧ raySubOp .f32 a b = 0x7FC00000 ∧ rayMulOp .f32 a b = 0x7FC00000) ∧
    (nanF32 a ∨ nanF32 b ∨ nanF32 c → rayFmaOp .f32 a b c = 0x7FC00000) ∧
    (nanF32 a → rayFloat1 fRcp .f32 a = 0x7FC00000 ∧ rayFloat1 fRsq .f32 a = 0x7FC00000 ∧ rayFloat1 fSqrt .f32 a = 0x7FC00000) ∧
    (rayMinOp .f32 a b = 0x7FC00000 ↔ nanF32 a ∧ nanF32 b) ∧ (rayMaxOp .f32 a b = 0x7FC00000 ↔ nanF32 a ∧ nanF32 b) ∧
    rayAddOp .f32 (zeroed a) (zeroed b) = rayAddOp .f32 a b ∧ rayMulOp .f32 (zeroed a) (zeroed b) = rayMulOp .f32 a b

/-- For a context that runs a group, at an instruction that is neither the last word nor beyond the budget, with well-formed fields: the command answers the next state in which the active lanes of v[D] hold the element operation of their operands (A and B name v registers, or a scalar broadcast; C a v register), the inactive lanes, every other register and everything else being unchanged, 1 is charged and the pc moves on. So ADD, SUB, MUL, FMA, MIN, MAX, their immediate forms, ABS, NEG, FLOOR, FRACT, RCP, RSQ and SQRT. -/
def Obligations.RayArithmeticWritesV : Prop :=
  ∀ (s : State) (c : CtxId) (x : RayCtx) (l : Launch), rayReady s c x l →
    (∀ i : RayReg,
      let two (op : RayType → Word → Word → Word) : Out := .next (rayDone s (vWrite x i.d i.pneg i.pidx fun n => op i.ty (opRead x i.a i.sa n) (opRead x i.b i.sb n)))
      let one (op : RayType → Word → Word) : Out := .next (rayDone s (vWrite x i.d i.pneg i.pidx fun n => op i.ty (opRead x i.a i.sa n)))
      (Instr.wf (.rayAdd c i) = true → exec (.rayAdd c i) s = two rayAddOp) ∧
      (Instr.wf (.raySub c i) = true → exec (.raySub c i) s = two raySubOp) ∧
      (Instr.wf (.rayMul c i) = true → exec (.rayMul c i) s = two rayMulOp) ∧
      (Instr.wf (.rayMin c i) = true → exec (.rayMin c i) s = two rayMinOp) ∧
      (Instr.wf (.rayMax c i) = true → exec (.rayMax c i) s = two rayMaxOp) ∧
      (Instr.wf (.rayFma c i) = true → exec (.rayFma c i) s =
        .next (rayDone s (vWrite x i.d i.pneg i.pidx fun n => rayFmaOp i.ty (opRead x i.a i.sa n) (opRead x i.b i.sb n) (vRead x i.c n)))) ∧
      (Instr.wf (.rayAbs c i) = true → exec (.rayAbs c i) s = one rayAbsOp) ∧
      (Instr.wf (.rayNeg c i) = true → exec (.rayNeg c i) s = one rayNegOp) ∧
      (Instr.wf (.rayFloor c i) = true → exec (.rayFloor c i) s = one (rayFloat1 fFloor)) ∧
      (Instr.wf (.rayFract c i) = true → exec (.rayFract c i) s = one (rayFloat1 fFract)) ∧
      (Instr.wf (.rayRcp c i) = true → exec (.rayRcp c i) s = one (rayFloat1 fRcp)) ∧
      (Instr.wf (.rayRsq c i) = true → exec (.rayRsq c i) s = one (rayFloat1 fRsq)) ∧
      (Instr.wf (.raySqrt c i) = true → exec (.raySqrt c i) s = one (rayFloat1 fSqrt))) ∧
    (∀ i : RayImm,
      let imm (op : RayType → Word → Word → Word) : Out := .next (rayDone s (vWrite x i.d i.pneg i.pidx fun n => op i.ty (opRead x i.a i.sa n) i.imm))
      (Instr.wf (.rayAddi c i) = true → exec (.rayAddi c i) s = imm rayAddOp) ∧
      (Instr.wf (.raySubi c i) = true → exec (.raySubi c i) s = imm raySubOp) ∧
      (Instr.wf (.rayMuli c i) = true → exec (.rayMuli c i) s = imm rayMulOp) ∧
      (Instr.wf (.rayMini c i) = true → exec (.rayMini c i) s = imm rayMinOp) ∧
      (Instr.wf (.rayMaxi c i) = true → exec (.rayMaxi c i) s = imm rayMaxOp))

/-- Under the same conditions and with the same frame as RayArithmeticWritesV: AND, OR, XOR, NOT, SHL, SHR, ASR and their immediate forms on the 32-bit words; MOV copies the bits; MOVI writes IMM; MOVK writes k[A]; CVT converts from type FUNC[1:0] to TYPE; SEL takes A in the lanes where p[FUNC] is 1 and B in the others; NOP changes nothing but charge and pc. -/
def Obligations.RayLogicAndMovesWriteV : Prop :=
  ∀ (s : State) (c : CtxId) (x : RayCtx) (l : Launch), rayReady s c x l →
    (∀ i : RayReg,
      let put (f : Fin 8 → Word) : Out := .next (rayDone s (vWrite x i.d i.pneg i.pidx f))
      let a (n : Fin 8) : Word := opRead x i.a i.sa n
      let b (n : Fin 8) : Word := opRead x i.b i.sb n
      (Instr.wf (.rayAnd c i) = true → exec (.rayAnd c i) s = put fun n => a n &&& b n) ∧
      (Instr.wf (.rayOr c i) = true → exec (.rayOr c i) s = put fun n => a n ||| b n) ∧
      (Instr.wf (.rayXor c i) = true → exec (.rayXor c i) s = put fun n => a n ^^^ b n) ∧
      (Instr.wf (.rayNot c i) = true → exec (.rayNot c i) s = put fun n => ~~~(a n)) ∧
      (Instr.wf (.rayShl c i) = true → exec (.rayShl c i) s = put fun n => a n <<< ((b n).toNat % 32)) ∧
      (Instr.wf (.rayShr c i) = true → exec (.rayShr c i) s = put fun n => a n >>> ((b n).toNat % 32)) ∧
      (Instr.wf (.rayAsr c i) = true → exec (.rayAsr c i) s = put fun n => (a n).sshiftRight ((b n).toNat % 32)) ∧
      (Instr.wf (.rayMov c i) = true → exec (.rayMov c i) s = put a) ∧
      (Instr.wf (.rayMovk c i) = true → exec (.rayMovk c i) s = put fun n => (x.k[Fin.ofNat 8 i.a.toNat])[n]) ∧
      (Instr.wf (.rayCvt c i) = true → exec (.rayCvt c i) s = put fun n => rayCvtOp (typeOfCode i.func.toNat) i.ty (a n)) ∧
      (Instr.wf (.raySel c i) = true → exec (.raySel c i) s =
        put fun n => if (x.p[Fin.ofNat 8 i.func.toNat]).getLsbD n.val then a n else b n)) ∧
    (∀ i : RayImm,
      let put (f : Fin 8 → Word) : Out := .next (rayDone s (vWrite x i.d i.pneg i.pidx f))
      let a (n : Fin 8) : Word := opRead x i.a i.sa n
      (Instr.wf (.rayAndi c i) = true → exec (.rayAndi c i) s = put fun n => a n &&& i.imm) ∧
      (Instr.wf (.rayOri c i) = true → exec (.rayOri c i) s = put fun n => a n ||| i.imm) ∧
      (Instr.wf (.rayXori c i) = true → exec (.rayXori c i) s = put fun n => a n ^^^ i.imm) ∧
      (Instr.wf (.rayShli c i) = true → exec (.rayShli c i) s = put fun n => a n <<< (i.imm.toNat % 32)) ∧
      (Instr.wf (.rayShri c i) = true → exec (.rayShri c i) s = put fun n => a n >>> (i.imm.toNat % 32)) ∧
      (Instr.wf (.rayAsri c i) = true → exec (.rayAsri c i) s = put fun n => (a n).sshiftRight (i.imm.toNat % 32)) ∧
      (Instr.wf (.rayMovi c i) = true → exec (.rayMovi c i) s = put fun _ => i.imm)) ∧
    exec (.rayNop c) s = .next (rayDone s x)

/-- Under the same conditions as RayArithmeticWritesV. CMP and CMPI give bit l of p[D] (D is 1 to 7) the condition in the active lanes and leave its other bits; PAND, POR, PXOR and PNOT work on all 8 bits of predicates, PMOVI writes IMM[7:0]. SMOVI, SADD and SADDI write s[D] (wrapping) when at least one lane is active and change nothing otherwise. No other register and nothing else changes; 1 is charged and the pc moves on. -/
def Obligations.RayPredicatesAndScalars : Prop :=
  ∀ (s : State) (c : CtxId) (x : RayCtx) (l : Launch), rayReady s c x l →
    let scalar (pneg : Bool) (pidx : BitVec 3) (d : BitVec 6) (w : Word) : Out :=
      .next (rayDone s (if anyActive x pneg pidx then sWrite x d w else x))
    let compared (pneg : Bool) (pidx : BitVec 3) (d : BitVec 6) (cond : Fin 8 → Bool) (o : Out) : Prop :=
      ∃ b : Byte, o = .next (rayDone s (pWrite x d b)) ∧
        ∀ n : Fin 8, b.getLsbD n.val = if laneActive x pneg pidx n.val then cond n else (pRead x d).getLsbD n.val
    (∀ i : RayReg,
      (Instr.wf (.rayCmp c i) = true → compared i.pneg i.pidx i.d
        (fun n => rayCond i.func.toNat i.ty (opRead x i.a i.sa n) (opRead x i.b i.sb n)) (exec (.rayCmp c i) s)) ∧
      (Instr.wf (.rayPand c i) = true → exec (.rayPand c i) s = .next (rayDone s (pWrite x i.d (pRead x i.a &&& pRead x i.b)))) ∧
      (Instr.wf (.rayPor c i) = true → exec (.rayPor c i) s = .next (rayDone s (pWrite x i.d (pRead x i.a ||| pRead x i.b)))) ∧
      (Instr.wf (.rayPxor c i) = true → exec (.rayPxor c i) s = .next (rayDone s (pWrite x i.d (pRead x i.a ^^^ pRead x i.b)))) ∧
      (Instr.wf (.rayPnot c i) = true → exec (.rayPnot c i) s = .next (rayDone s (pWrite x i.d (~~~(pRead x i.a))))) ∧
      (Instr.wf (.raySadd c i) = true → exec (.raySadd c i) s = scalar i.pneg i.pidx i.d (sRead x i.a + sRead x i.b))) ∧
    (∀ i : RayImm,
      (Instr.wf (.rayCmpi c i) = true → compared i.pneg i.pidx i.d
        (fun n => rayCond i.cond.toNat i.ty (opRead x i.a i.sa n) i.imm) (exec (.rayCmpi c i) s)) ∧
      (Instr.wf (.rayPmovi c i) = true → exec (.rayPmovi c i) s = .next (rayDone s (pWrite x i.d (i.imm.setWidth 8)))) ∧
      (Instr.wf (.raySmovi c i) = true → exec (.raySmovi c i) s = scalar i.pneg i.pidx i.d i.imm) ∧
      (Instr.wf (.raySaddi c i) = true → exec (.raySaddi c i) s = scalar i.pneg i.pidx i.d (sRead x i.a + i.imm)))

/-- For a context that runs a group with the charge within the budget, with a target inside the code: BRANY branches when at least one lane is active, BRALL when all are; LOOP, when a lane is active, writes s[A] - 1 and branches while that is not 0; a branch not taken moves on. END ends the group: its context is free, its tile has the values of its lanes (RayEmitsAndEnds) and the group among those ended. NOP at the last word ends the group as END does; an instruction whose charge goes beyond the budget ends it with a BUDGET kernel fault, counted and raised once for its cell and launch, that names lane 0's k6 and k7. -/
def Obligations.RayControlFlow : Prop :=
  ∀ (s : State) (c : CtxId) (x : RayCtx) (l : Launch), ctxOf s c = some x → launchOf s c.gal x.launch = some l →
    let charged : RayCtx := { x with charge := x.charge + 1 }
    (x.charge + 1 ≤ l.budget →
      (∀ (i : RayBr) (t : Nat), (x.pc : Int) + i.offset.toInt = t → t < l.code.length → x.pc + 1 < l.code.length →
        let went (y : RayCtx) (go : Bool) : Out := .next (putCtx s { y with charge := x.charge + 1, pc := if go then t else x.pc + 1 })
        (Instr.wf (.rayBrany c i) = true → exec (.rayBrany c i) s = went x (anyActive x i.pneg i.pidx)) ∧
        (Instr.wf (.rayBrall c i) = true → exec (.rayBrall c i) s = went x (allActive x i.pneg i.pidx)) ∧
        (Instr.wf (.rayLoop c i) = true → exec (.rayLoop c i) s =
          if anyActive x i.pneg i.pidx then went (sWrite x i.a (sRead x i.a - 1)) (sRead x i.a - 1 ≠ 0) else went x false)) ∧
      (∀ i : RayReg, Instr.wf (.rayEnd c i) = true →
        exec (.rayEnd c i) s = .next (groupEnd s l { charged with pc := x.pc + 1 })) ∧
      (x.pc + 1 = l.code.length → x.charge + 2 ≤ l.budget →
        exec (.rayNop c) s = .next (groupEnd s l { x with charge := x.charge + 2, pc := x.pc + 1 }))) ∧
    (l.budget ≤ x.charge →
      exec (.rayNop c) s = .next (kernelFault (groupEnd s l { charged with pc := x.pc + 1 }) { charged with pc := x.pc + 1 } 0x201 galKfaultBudget
        ((x.k[6])[0].toNat % 65536 + 65536 * ((x.k[7])[0].toNat % 65536)) 1))

/-- Under the same conditions as RayArithmeticWritesV. LDC, when a lane is active, writes the constant at byte s[A] + IMM, rounded down to a word, in the active lanes; an address outside the block gives 0 and raises CONST_RANGE. LDCV does so per lane, the first faulting lane naming the fault and every one of them being counted. SMP gives v[D] and v[D + 1] of each active lane the colour and alpha that the list leaves, the samples starting from what the two registers hold, and changes nothing else of the context but the charge, by 1 and its steps; the lines it read pass the caches, and its constant and sample faults are raised; a charge beyond the budget ends the group with a BUDGET fault. EMIT gives each active lane its 10-bit value; the other lanes keep theirs. When a group ends, every lane's value (the one emitted, or the 10-bit value of the lane in the fallback register read as fp32) stands at the lane's place in the tile's output. -/
def Obligations.RayEmitsAndEnds : Prop :=
  ∀ (s : State) (c : CtxId) (x : RayCtx) (l : Launch), rayReady s c x l →
    let word (a : Nat) : Word := if a < l.consts.length then BitVec.ofNat 32 (leAt l.consts a 4) else 0
    (∀ i : RayImm, Instr.wf (.rayLdc c i) = true →
      let a := (sRead x i.a + i.imm).toNat / 4 * 4
      let t := if a < l.consts.length then s else kernelFault s x 0x204 galKfaultConst (a % 65536) 1
      exec (.rayLdc c i) s = .next (if anyActive x i.pneg i.pidx then rayDone t (vWrite x i.d i.pneg i.pidx fun _ => word a) else rayDone s x)) ∧
    (∀ i : RayImm, Instr.wf (.rayLdcv c i) = true →
      let a (n : Fin 8) : Nat := (vRead x i.a n + i.imm).toNat / 4 * 4
      let bad := (List.finRange 8).filter fun n => laneActive x i.pneg i.pidx n.val && !decide (a n < l.consts.length)
      let t := match bad with
        | [] => s
        | n :: _ => kernelFault s x 0x204 galKfaultConst (a n % 65536) bad.length
      exec (.rayLdcv c i) s = .next (rayDone t (vWrite x i.d i.pneg i.pidx fun n => word (a n)))) ∧
    (∀ i : RayImm, Instr.wf (.raySmp c i) = true →
      let r := smpLanes s l i x
      let reg (k : Nat) (n : Fin 8) : Nat := (vRead x (i.a + BitVec.ofNat 6 k) n).toNat
      let imm := i.imm.toNat
      let u := touchLines s c.gal c.blk r.lines
      let u := match r.consts with
        | [] => u
        | a :: _ => kernelFault u x 0x204 galKfaultConst (a % 65536) r.consts.length
      let u := match r.faults with
        | [] => u
        | (slot, st) :: _ => kernelFault u x 0x202 galKfaultSample (slot + 256 * st) r.faults.length
      let y : RayCtx := { r.ctx with charge := x.charge + r.steps + 1, pc := x.pc + 1 }
      (∃ f g, r.ctx = vWrite (vWrite x i.d i.pneg i.pidx f) (i.d + 1) i.pneg i.pidx g) ∧
      (∀ n : Fin 8, laneActive x i.pneg i.pidx n.val = true → ∃ log : SmpLog,
        let e := (smpEntries s l (bitsOf imm 12 12) (sDiv (sOf (bitsOf imm 0 8)) (sOf 255)) (reg 0 n) (reg 1 n) (reg 2 n) (reg 3 n)
          ((x.k[4])[n].toNat) (bitsOf imm 8 4) (bitsOf imm 24 8) 0 (vRead x i.d n).toNat (vRead x (i.d + 1) n).toNat [] log).1
        vRead r.ctx i.d n = wNat e.1 ∧ vRead r.ctx (i.d + 1) n = wNat e.2) ∧
      (x.charge + r.steps + 1 ≤ l.budget → exec (.raySmp c i) s = .next (putCtx u y)) ∧
      (l.budget < x.charge + r.steps + 1 → exec (.raySmp c i) s = .next (kernelFault (groupEnd u l y) y 0x201 galKfaultBudget
        ((y.k[6])[0].toNat % 65536 + 65536 * ((y.k[7])[0].toNat % 65536)) 1))) ∧
    (∀ i : RayReg, Instr.wf (.rayEmit c i) = true → ∃ e : Vector (Option Nat) 8,
      exec (.rayEmit c i) s = .next (rayDone s { x with emitted := e }) ∧
      ∀ n : Fin 8, e[n] = if laneActive x i.pneg i.pidx n.val then some (emitValue i.ty (opRead x i.a i.sa n)) else x.emitted[n]) ∧
    (∀ (n : Fin 8) (t : TileRun), t ∈ (blockOf s x.id.gal x.id.blk).tiles → isRunOf x t = true → ∃ t' ∈ (blockOf (groupEnd s l x) x.id.gal x.id.blk).tiles,
      t'.tile = t.tile ∧ t'.launch = t.launch ∧ x.group ∈ t'.ended ∧ ctxOf (groupEnd s l x) x.id = none ∧
      smGet? t'.out (192 * (x.group / 24) + 8 * (x.group % 24) + n.val) =
        some (match x.emitted[n] with | some v => v | none => emitValue .f32 ((x.v[Fin.ofNat 64 l.fallbackV])[n])))

/-- TILE_TAKE by a block out of service, or with 2 tiles whose groups have not all ended or 8 in all, changes nothing; otherwise the first tile in the region's queue that a launch not refused covers, where the block's launch contexts have room for that launch, leaves the queue and joins the block. GROUP_DISPATCH in a block in service whose oldest tile has a group left and a cell a free context: a context is added for that group, at the kernel's entry, with charge 0, the launch's scalars, v registers 0, p0 all ones and the other predicates 0. TILE_SEND with no finished tile changes nothing; with one whose stripe is open and not late and whose 16 ring lines are free, every word of the tile stands in the stripe's ring and the tile has left the block. CACHE_LINE_FILL in a region out of service changes nothing; of a line that is not being fetched and has no flipped bits it only lets a line that waits for room be asked for; of one that is being fetched, without error, the line stands in the cache and is no longer being fetched. -/
def Obligations.BlocksTakeDispatchAndSend : Prop :=
  ∀ (s : State) (g : Fin 4) (b : Fin 12),
    (rayBlockIn s g b.val = false →
      exec (.tileTake g b) s = .next s ∧ exec (.groupDispatch g b) s = .next s ∧ exec (.tileSend g b) s = .next s) ∧
    (8 ≤ (blockOf s g b).tiles.length → exec (.tileTake g b) s = .next s) ∧
    (∀ t l ids, rayBlockIn s g b.val = true → ((blockOf s g b).tiles.filter fun t => decide (t.ended.length < 384)).length < 2 →
      (blockOf s g b).tiles.length < 8 → (s.gal[g]).tileQ.find? (fun t => (launchFor s g t).isSome) = some t → launchFor s g t = some l →
      loadContext (blockOf s g b) l.id = some ids →
      ∃ u, exec (.tileTake g b) s = .next u ∧ (u.gal[g]).tileQ = (s.gal[g]).tileQ.erase t ∧ (blockOf u g b).launches = ids ∧
        (blockOf u g b).tiles = (blockOf s g b).tiles ++ [⟨t, l.id, 0, [], [], [], []⟩]) ∧
    (∀ t n t' l id, rayBlockIn s g b.val = true → (blockOf s g b).tiles.find? (fun t => (nextOf t).isSome) = some t → nextOf t = some (n, t') →
      launchOf s g t.launch = some l → freeCell s g b (blockOf s g b).nextCell = some id →
      ∃ u x, exec (.groupDispatch g b) s = .next u ∧ u.ctxs = s.ctxs ++ [x] ∧ x.id = id ∧ x.tile = t.tile ∧ x.group = n ∧ x.pc = l.entry ∧
        x.charge = 0 ∧ (∀ r m, vRead x r m = 0) ∧ x.p[(0 : Fin 8)] = 0xFF ∧ (∀ k : Fin 8, k ≠ 0 → x.p[k] = 0) ∧
        (∀ k : Fin 16, x.sc[k] = l.record.scalars.getD k.val 0)) ∧
    ((∀ t ∈ (blockOf s g b).tiles, t.ended.length ≠ 384) → exec (.tileSend g b) s = .next s) ∧
    (∀ t st, rayBlockIn s g b.val = true → (blockOf s g b).tiles.find? (sendable s) = some t → t.sent = [] → t.tile.col < 240 →
      stripeOf s (tileStripe t.tile) = some st → st.late = false → (∀ n, n < 16 → ringFree s (tileStripe t.tile) n = true) →
      ∃ u st', exec (.tileSend g b) s = .next u ∧ stripeOf u (tileStripe t.tile) = some st' ∧
        (∀ n w, n < 16 → w < 8 → smGet? st'.words (wordKey n t.tile.col w) = some (tileWord t n w)) ∧
        (∀ t' ∈ (blockOf u g b).tiles, ¬ (t'.tile = t.tile ∧ t'.launch = t.launch))) ∧
    (∀ blk line flips status, serves s (galRegion g) = false → exec (.cacheLineFill g blk line flips status) s = .next s) ∧
    (∀ line status, serves s (galRegion g) = true → line.toNat ∉ (s.gal[g]).cache.missing →
      exec (.cacheLineFill g none line [] status) s = .next (issueWaiting s g none)) ∧
    (∀ line status, serves s (galRegion g) = true → line.toNat ∉ (blockOf s g b).cache.missing →
      exec (.cacheLineFill g (some b) line [] status) s = .next (issueWaiting s g (some b))) ∧
    ((s.gal[g]).cache.waiting = [] → issueWaiting s g none = s) ∧ ((blockOf s g b).cache.waiting = [] → issueWaiting s g (some b) = s) ∧
    (∀ line, serves s (galRegion g) = true → line.toNat ∈ (s.gal[g]).cache.missing → (s.gal[g]).cache.waiting = [] →
      dramStatus s (256 * line.toNat) 256 = 0 → anyPoison s (256 * line.toNat) 256 = false →
      (wayOf (cacheSet (s.gal[g]).cache (line.toNat % 2048)) line.toNat) = none →
      fillWay (cacheSet (s.gal[g]).cache (line.toNat % 2048)) ≠ none →
      ∃ u, exec (.cacheLineFill g none line [] 0) s = .next u ∧ line.toNat ∉ (u.gal[g]).cache.missing ∧
        (wayOf (cacheSet (u.gal[g]).cache (line.toNat % 2048)) line.toNat).isSome = true)


namespace Sys2Proof.Says

/-! The host ports. -/

/-- A frame whose CS_N rose where it should, with a length that fits its command and, at level 2.1, the CRC-16 of R315 over the host's bytes (R463 to R465). -/
def wholeFrame (s : State) (h : HostId) (host : List Byte) (fr : FrameEnd) : Prop :=
  fr.cut = false ∧ fr.lengthOk = true ∧ ((hostOf s h).level = 3 → fr.crc = some (BitVec.ofNat 16 (crc16 host)))

/-- The state after a frame: the port's answer is these bytes and this status, CRC, FRAME and LEVEL set PROTO_ERROR, and a level written is in effect (R462 to R464). -/
def answered (s : State) (h : HostId) (bytes : List Byte) (status : Nat) : State := frameEnds (hostAnswer s h (bytes, status)) h

/-- What the checks of a frame with the host's bytes `host` answer, for a command of least level `least`: nothing without Slate's clock; CRC, then LEVEL, then FRAME for a wrong length. A frame of level 2.1 that ends before its CRC does nothing and sets PROTO_ERROR, unless it is one of a semaphore (`late`) (R462 to R465, R482). -/
def frameChecked (s : State) (h : HostId) (host : List Byte) (late : Bool) (least : Nat) (c : FrameEnd → Instr) : Prop :=
  ∀ fr : FrameEnd, fr.cut = false →
    let l := (hostOf s h).level
    let right : Option (BitVec 16) := some (BitVec.ofNat 16 (crc16 host))
    (slateUp s = false → exec (c fr) s = .next (hostSilent s h)) ∧
    (slateUp s = true → l = 3 → fr.crc = none → late = false → exec (c fr) s = .next (frameEnds (hostIrq (hostSilent s h) h 5) h)) ∧
    (slateUp s = true → l = 3 → fr.crc ≠ none → fr.crc ≠ right → exec (c fr) s = .next (answered s h [] 3)) ∧
    (slateUp s = true → (l = 3 → fr.crc = right) → max 1 l < least → exec (c fr) s = .next (answered s h [] 7)) ∧
    (slateUp s = true → (l = 3 → fr.crc = right) → least ≤ max 1 l → fr.lengthOk = false → exec (c fr) s = .next (answered s h [] 4))

/-- A semaphore command with code `cmd` leaves `u` and answers `st`; at level 2.1 a frame that ends before its CRC does the same without an answer (R465, R469). -/
def semDoes (s : State) (h : HostId) (cmd n : Byte) (c : FrameEnd → Instr) (u : State) (st : Nat) : Prop :=
  ∀ fr : FrameEnd,
    (wholeFrame s h [cmd, n] fr → exec (c fr) s = .next (answered u h [] st)) ∧
    ((hostOf s h).level = 3 → fr.cut = false → fr.crc = none → exec (c fr) s = .next (frameEnds (hostSilent u h) h))

end Sys2Proof.Says

/-- For each of the twelve host commands and a frame not cut short: while Slate's clock does not run nothing is answered and nothing done; at level 2.1 a wrong CRC answers 0x03, and a frame that ends before its CRC does nothing but, of a semaphore command, what it would; a command above the port's level (1.0 where none has been chosen) answers 0x07; a wrong length answers 0x04; each of them sets PROTO_ERROR and changes nothing else of the command's. A frame of a command without a read answer that is cut short in the host's part gets no answer and sets PROTO_ERROR. The answer of any frame also ends it: its bytes and status stand on IO3 to IO0, high nibble first, and a level written is in effect. -/
def Obligations.HostFramesAreChecked : Prop :=
  ∀ (s : State) (h : HostId) (a : Word) (n : Byte) (ws : List Word) (bs : List Byte) (ready : Bool),
    frameChecked s h (addrBytes 0x01 a (n :: ws.flatMap fun w => leBytes w.toNat 4)) false 0 (fun fr => .write h fr a n ws) ∧
    frameChecked s h (addrBytes 0x02 a [n]) false 0 (fun fr => .read h fr a n ready) ∧
    frameChecked s h [0x03] false 2 (fun fr => .fetch h fr ready) ∧ frameChecked s h [0x04] false 2 (fun fr => .status h fr) ∧
    frameChecked s h [0x10, n] true 0 (fun fr => .semTry h fr n) ∧ frameChecked s h [0x11, n] true 3 (fun fr => .semAcquire h fr n) ∧
    frameChecked s h [0x12, n] true 0 (fun fr => .semRelease h fr n) ∧ frameChecked s h [0x13, n] true 2 (fun fr => .semCancel h fr n) ∧
    frameChecked s h [0x14, n] true 0 (fun fr => .semBreak h fr n) ∧
    frameChecked s h (addrBytes 0x30 a [n]) false 0 (fun fr => .flashRead h fr a n ready) ∧
    frameChecked s h (addrBytes 0x31 a (n :: bs)) false 0 (fun fr => .flashProgram h fr a n bs) ∧
    frameChecked s h (addrBytes 0x32 a [n]) false 0 (fun fr => .flashErase h fr a n) ∧
    addrBytes 0x02 a [n] = [0x02, a.extractLsb' 24 8, a.extractLsb' 16 8, a.extractLsb' 8 8, a.extractLsb' 0 8, n] ∧
    (∀ fr : FrameEnd, slateUp s = true → fr.cut = true →
      let t := frameEnds (hostIrq (hostSilent s h) h 5) h
      exec (.write h fr a n ws) s = .next t ∧ exec (.status h fr) s = .next t ∧ exec (.semTry h fr n) s = .next t ∧
      exec (.semAcquire h fr n) s = .next t ∧ exec (.semRelease h fr n) s = .next t ∧ exec (.semCancel h fr n) s = .next t ∧
      exec (.semBreak h fr n) s = .next t ∧ exec (.flashProgram h fr a n bs) s = .next t ∧ exec (.flashErase h fr a n) s = .next t) ∧
    (∀ (u : State) (x : List Byte) (st : Nat),
      (hostOf (answered u h x st) h).answer = some (x, st) ∧
      (hostOf (answered u h x st) h).io = (x ++ [BitVec.ofNat 8 st]).flatMap (fun b => [b.extractLsb' 4 4, b.extractLsb' 0 4]) ∧
      (hostOf (answered u h x st) h).level = getF u (hostKey h sltHostProto) 0 2 ∧
      (answered u h x st).mem = u.mem ∧ (answered u h x st).slate.sems = u.slate.sems ∧
      hostOf (answered u h x st) (if h = .a then .b else .a) = hostOf u (if h = .a then .b else .a))

/-- For a whole frame while Slate's clock runs, with COUNT in range for the level and an aligned address. WRITE maps its address: outside the windows it answers UNMAPPED, across a window's end FRAME; with too few of the 64 words free it answers FULL and writes nothing; else each word takes effect in ascending order and its acknowledgement is outstanding, with status 2 for a region that does not serve and DRAM's status for DRAM. READ with none pending takes the read: with earlier writes unacknowledged or data not there in time it answers PENDING, else with the data (a start byte 0xA5, and a CRC-16 at level 2.1) or 0x80 plus its error; with one pending it answers BUSY. FETCH answers for the pending read. STATUS answers the interrupt status, the events queued, the write words free, and what is pending. -/
def Obligations.HostReadsAndWrites : Prop :=
  ∀ (s : State) (h : HostId) (fr : FrameEnd), slateUp s = true →
    let p := hostOf s h
    let taken (d n : Nat) (flash : Bool) : State := setHost s h fun x => { x with read := some ⟨flash, d, n, false, none⟩ }
    (∀ (a : Word) (n : Byte) (ws : List Word), wholeFrame s h (addrBytes 0x01 a (n :: ws.flatMap fun w => leBytes w.toNat 4)) fr →
      hostForm s h a.toNat n.toNat = true → ws.length = n.toNat →
      (∀ st, hostMap s h a.toNat n.toNat = .error st → exec (.write h fr a n ws) s = .next (answered s h [] st)) ∧
      (∀ d, hostMap s h a.toNat n.toNat = .ok d →
        (64 < p.buffered + n.toNat → exec (.write h fr a n ws) s = .next (answered s h [] 1)) ∧
        (p.buffered + n.toNat ≤ 64 → exec (.write h fr a n ws) s = .next (answered
          ((List.range n.toNat).foldl (fun t i => hostPut t h (a.toNat + 4 * i) (d + 4 * i) (ws.getD i 0)) s) h [] 0)))) ∧
    (∀ (t : State) (a d : Nat) (v : Word),
      let u := setHost t h fun x => { x with buffered := x.buffered + 1 }
      (d < 0xFFF0000000 → hostPut t h a d v = addAck (dramStore u d (leBytes v.toNat 4)).2 (.host h a) (dramStore u d (leBytes v.toNat 4)).1) ∧
      (∀ o, d = 0xFFF0000000 + o → serves t (o / 0x100000) = true → hostPut t h a d v = addAck (busWrite (reqMeets u (hostReq h) (o / 0x100000)) (hostReq h) o v) (.host h a) 0) ∧
      (∀ o, d = 0xFFF0000000 + o → serves t (o / 0x100000) = false → hostPut t h a d v = addAck u (.host h a) 2)) ∧
    (∀ (a : Word) (n : Byte) (ready : Bool), wholeFrame s h (addrBytes 0x02 a [n]) fr → hostForm s h a.toNat n.toNat = true →
      (∀ st, hostMap s h a.toNat n.toNat = .error st → exec (.read h fr a n ready) s = .next (answered s h [] st)) ∧
      (∀ d, hostMap s h a.toNat n.toNat = .ok d →
        (p.read.isSome = true → exec (.read h fr a n ready) s = .next (answered s h [] 2)) ∧
        (p.read = none → ready = false ∨ p.buffered ≠ 0 → exec (.read h fr a n ready) s = .next (answered (taken d (4 * n.toNat) false) h [0x5A] 6)) ∧
        (p.read = none → ready = true → p.buffered = 0 →
          let u := hostFetch (taken d (4 * n.toNat) false) h ⟨false, d, 4 * n.toNat, false, none⟩
          exec (.read h fr a n ready) s = .next (answered (setHost u.1 h fun x => { x with read := none }) h
            (dataAnswer u.1 h u.2).1 (dataAnswer u.1 h u.2).2)))) ∧
    (∀ (t : State) (d n : Nat) (b : Bool), d < 0xFFF0000000 →
      let st := readStatus t 0 d n
      hostFetch t h ⟨false, d, n, b, none⟩ = (poisonSeen t 0 d n, (if st = 0 then readBytes t d n else [], st))) ∧
    (∀ (t : State) (d n : Nat) (b : Bool), hostFetch t h ⟨true, d, n, b, none⟩ = (flashSend t [flashReadCmd t d n], (flashBytes t d n, 0))) ∧
    (∀ (t : State) (o n : Nat) (b : Bool),
      let x := regWords (hostReq h) ((List.range n).map fun i => o + 4 * i) t
      hostFetch t h ⟨false, 0xFFF0000000 + o, 4 * n, b, none⟩ = (x.2.2, (x.2.1, x.1))) ∧
    (∀ (t : State) (o : Nat) (l : List Nat),
      let x := busRead (reqAt t (hostReq h) (o / 0x100000)) (hostReq h) o
      let r := regWords (hostReq h) l x.2.2
      regWords (hostReq h) [] t = (0, [], t) ∧
      regWords (hostReq h) (o :: l) t = (if x.1 = 0 then r.1 else x.1, leBytes x.2.1.toNat 4 ++ r.2.1, r.2.2)) ∧
    (∀ (bs : List Byte) (st : Nat), st ≠ 0 → dataAnswer s h (bs, st) = ([], 0x80 + st)) ∧
    (∀ bs : List Byte, dataAnswer s h (bs, 0) = (0xA5 :: bs ++ if p.level = 3 then leBytes (crc16 (0xA5 :: bs)) 2 else [], 0)) ∧
    (2 ≤ p.level → wholeFrame s h [0x03] fr →
      (∀ ready, p.read = none → exec (.fetch h fr ready) s = .next (answered s h [] 4)) ∧
      (∀ r x ready, p.read = some r → r.result = some x →
        exec (.fetch h fr ready) s = .next (answered (setHost s h fun y => { y with read := none }) h (dataAnswer s h x).1 (dataAnswer s h x).2)) ∧
      (∀ r ready, p.read = some r → r.result = none → ready = false ∨ p.buffered ≠ 0 → exec (.fetch h fr ready) s = .next (answered s h [0x5A] 6)) ∧
      (∀ r, p.read = some r → r.result = none → r.drop = false → p.buffered = 0 →
        let u := hostFetch s h r
        exec (.fetch h fr true) s = .next (answered (setHost u.1 h fun x => { x with read := none }) h (dataAnswer u.1 h u.2).1 (dataAnswer u.1 h u.2).2))) ∧
    (2 ≤ p.level → wholeFrame s h [0x04] fr →
      exec (.status h fr) s = .next (answered s h
        [BitVec.ofNat 8 (getF s (hostKey h sltHostIrqStatus) 0 8), BitVec.ofNat 8 p.events.length, BitVec.ofNat 8 (64 - p.buffered),
         BitVec.ofNat 8 (b2n p.read.isSome + 2 * b2n s.slate.flashOp.isSome)] 0))

/-- For a frame of a semaphore 0 to 31 while Slate's clock runs and the level knows the command. A SEM_TRY or SEM_ACQUIRE first meets the other requests for the semaphore in its clock. SEM_TRY takes a free semaphore (GRANTED), answers GRANTED to its holder, and REFUSED while another holds it. SEM_ACQUIRE does the same but puts the host at the end of the waiters (QUEUED), once. SEM_RELEASE by the holder frees it, or gives it to the first waiter, which a host learns by its SEM_GRANTED interrupt; by another it answers NOT_HELD. SEM_CANCEL takes the host out of the waiters, or answers GRANTED where it holds by a grant of this clock, else NOT_HELD. SEM_BREAK frees or hands on a semaphore that a host holds, raising SEM_BROKEN, and answers NOT_HELD where it is free or the frame program's. Setting a semaphore changes that one, shows its holder in SLT_SEM_OWNER, and nothing else. When a clock ends in which two requesters met at a semaphore, its tie bit toggles, and no other. -/
def Obligations.HostSemaphores : Prop :=
  ∀ (s : State) (h : HostId) (n : Byte), slateUp s = true → n.toNat < 32 →
    let m := semOf s n.toNat
    let l := (hostOf s h).level
    let me : SemUser := .host h
    let v := semMeets s (hostReq h) n.toNat
    let grant (t : State) : State := setSem t n.toNat fun x => { x with holder := some me }
    let freed (t : State) : State :=
      let t := semClockEnds t n.toNat
      match m.waiters with
      | [] => setSem t n.toNat fun x => { x with holder := none }
      | .host g :: r => hostIrq (setSlate (setSem t n.toNat fun _ => ⟨some (.host g), r⟩) fun x => { x with grantClock := x.grantClock ++ [(n.toNat, g)] }) g 2
      | .frame :: r => settleSem (setSem t n.toNat fun _ => ⟨some .frame, r⟩) n.toNat
    let try_ := semDoes s h 0x10 n (fun fr => .semTry h fr n)
    let acquire := semDoes s h 0x11 n (fun fr => .semAcquire h fr n)
    let release := semDoes s h 0x12 n (fun fr => .semRelease h fr n)
    let cancel := semDoes s h 0x13 n (fun fr => .semCancel h fr n)
    let break_ := semDoes s h 0x14 n (fun fr => .semBreak h fr n)
    (m.holder = none → try_ (grant v) 8) ∧ (m.holder = some me → try_ v 8) ∧ (∀ u, m.holder = some u → u ≠ me → try_ v 0x0A) ∧
    (l = 3 →
      (m.holder = none → acquire (grant v) 8) ∧ (m.holder = some me → acquire v 8) ∧
      (∀ u, m.holder = some u → u ≠ me → m.waiters.contains me = true → acquire v 9) ∧
      (∀ u, m.holder = some u → u ≠ me → m.waiters.contains me = false →
        acquire (setSem v n.toNat fun x => { x with waiters := x.waiters ++ [me] }) 9)) ∧
    (m.holder = some me → release (freed s) 0) ∧ (m.holder ≠ some me → release s 0x0B) ∧
    (2 ≤ l →
      (m.waiters.contains me = true → cancel (setSem s n.toNat fun x => { x with waiters := x.waiters.erase me }) 0) ∧
      (m.waiters.contains me = false → m.holder = some me → (n.toNat, h) ∈ s.slate.grantClock → cancel s 8) ∧
      (m.waiters.contains me = false → m.holder ≠ some me ∨ (n.toNat, h) ∉ s.slate.grantClock → cancel s 0x0B)) ∧
    (∀ g, m.holder = some (.host g) → break_ (raise (freed s) 1 0 0x170 2 0xFF
        (n.toNat + 256 * (if h = .b then 1 else 0) + 4096 * (if g = .b then 2 else 1))) 0) ∧
    (m.holder = none ∨ m.holder = some .frame → break_ s 0x0B) ∧
    (∀ (t : State) (g : Sem → Sem),
      let u := setSem t n.toNat g
      semOf u n.toNat = g (semOf t n.toNat) ∧ (∀ k, k ≠ n.toNat → semOf u k = semOf t k) ∧
      getF u (if n.toNat < 16 then sltSemOwnerLo else sltSemOwnerHi) (2 * (n.toNat % 16)) 2 = ownerCode (g (semOf t n.toNat)).holder ∧
      u.mem = t.mem ∧ u.evNet = t.evNet ∧ u.ctrl = t.ctrl ∧ u.slate.hosts = t.slate.hosts) ∧
    (∀ (t : State) (q : Requester) (k : Nat), k < 32 →
      let u := semClockEnds t k
      (∀ j, semOf u j = semOf t j) ∧ (∀ j, semOf (semMeets t q k) j = semOf t j) ∧
      getB u sltSemTie k = (getB t sltSemTie k != t.slate.semClock.any fun a => t.slate.semClock.any fun b => a.1 == k && b.1 == k && a.2 != b.2) ∧
      (∀ j, j < 32 → j ≠ k → getB u sltSemTie j = getB t sltSemTie j))

/-- For a whole frame of a flash range inside the flash while Slate's clock runs. FLASH_READ with no operation running and no read pending answers the flash's bytes when no earlier write is unacknowledged, else PENDING; with one running BUSY. FLASH_PROGRAM within one page and FLASH_ERASE of an aligned block of 4 KiB or 64 KiB answer BUSY while an operation runs, PROTECTED where R439 refuses the range (during boot, or in the booted slot), and else start, BUSY showing. FLASH_DONE of a good operation: a program clears bits in its bytes and changes no other, an erase sets its range to 0xFF and changes no other; of a failed one, and FLASH_TIMEOUT, what stands in the range is open and no byte outside it changes. The operation is over, its host sees RESULT 1, 3 or 2 and FLASH_DONE. -/
def Obligations.FlashOperations : Prop :=
  ∀ (s : State) (h : HostId),
    (∀ (fr : FrameEnd) (a : Word) (n : Byte), slateUp s = true →
      (wholeFrame s h (addrBytes 0x30 a [n]) fr → flashForm s a.toNat n.toNat = true → s.slate.flashOp.isSome = true → ∀ ready, exec (.flashRead h fr a n ready) s = .next (answered s h [] 2)) ∧
      (wholeFrame s h (addrBytes 0x30 a [n]) fr → flashForm s a.toNat n.toNat = true → s.slate.flashOp = none → (hostOf s h).read = none →
        (∀ ready, ready = false ∨ (hostOf s h).buffered ≠ 0 → exec (.flashRead h fr a n ready) s = .next (answered
          (setHost s h fun x => { x with read := some ⟨true, a.toNat, n.toNat, false, none⟩ }) h [0x5A] 6)) ∧
        ((hostOf s h).buffered = 0 → exec (.flashRead h fr a n true) s = .next (answered (flashSend s [flashReadCmd s a.toNat n.toNat]) h
          (dataAnswer s h (flashBytes s a.toNat n.toNat, 0)).1 0))) ∧
      (∀ bs : List Byte, wholeFrame s h (addrBytes 0x31 a (n :: bs)) fr → flashForm s a.toNat n.toNat = true → bs.length = n.toNat → a.toNat % 256 + n.toNat ≤ 256 →
        (s.slate.flashOp.isSome = true → exec (.flashProgram h fr a n bs) s = .next (answered s h [] 2)) ∧
        (s.slate.flashOp = none → flashProtected s a.toNat n.toNat = true → exec (.flashProgram h fr a n bs) s = .next (answered s h [] 0x0C)) ∧
        (s.slate.flashOp = none → flashProtected s a.toNat n.toNat = false →
          exec (.flashProgram h fr a n bs) s = .next (answered (flashStart s ⟨h, some (a.toNat, bs), none⟩) h [] 0))) ∧
      (∀ z : Byte, wholeFrame s h (addrBytes 0x32 a [z]) fr → z.toNat < 2 →
        let len := if z.toNat = 0 then 4096 else 65536
        a.toNat % len = 0 → flashForm s a.toNat len = true →
        (s.slate.flashOp.isSome = true → exec (.flashErase h fr a z) s = .next (answered s h [] 2)) ∧
        (s.slate.flashOp = none → flashProtected s a.toNat len = true → exec (.flashErase h fr a z) s = .next (answered s h [] 0x0C)) ∧
        (s.slate.flashOp = none → flashProtected s a.toNat len = false →
          exec (.flashErase h fr a z) s = .next (answered (flashStart s ⟨h, none, some (a.toNat, len)⟩) h [] 0)))) ∧
    (∀ (a n : Nat), flashProtected s a n = true ↔ s.power.mode = .boot ∨
      ∃ i, s.slate.image = some i ∧ a < i.base + s.slate.flashSize / 2 ∧ i.base < a + n) ∧
    (∀ o, s.slate.flashOp = some o →
      (∀ a bs, o = ⟨h, some (a, bs), none⟩ → ∃ t, exec (.flashDone true) s = .next t ∧ t.slate.flashOp = none ∧
        getF t (hostKey h sltHostFlashStatus) 0 8 = 1 ∧ getB t (hostKey h sltHostFlashStatus) 31 = false ∧ getB t (hostKey h sltHostIrqStatus) 4 = true ∧
        (∀ i, i < bs.length → flashByte t (a + i) = flashByte s (a + i) &&& bs.getD i 0) ∧
        (∀ k, k < a ∨ a + bs.length ≤ k → flashByte t k = flashByte s k)) ∧
      (∀ a n, o = ⟨h, none, some (a, n)⟩ →
        (∃ t, exec (.flashDone true) s = .next t ∧ t.slate.flashOp = none ∧ getF t (hostKey h sltHostFlashStatus) 0 8 = 1 ∧
          getB t (hostKey h sltHostIrqStatus) 4 = true ∧ ∀ k, flashByte t k = if a ≤ k ∧ k < a + n then 0xFF else flashByte s k) ∧
        (∃ t, exec (.flashDone false) s = .next t ∧ t.slate.flashOp = none ∧ getF t (hostKey h sltHostFlashStatus) 0 8 = 3 ∧
          getB t (hostKey h sltHostIrqStatus) 4 = true ∧ ∀ k, k < a ∨ a + n ≤ k → flashByte t k = flashByte s k) ∧
        (∃ t, exec .flashTimeout s = .next t ∧ t.slate.flashOp = none ∧ getF t (hostKey h sltHostFlashStatus) 0 8 = 2 ∧
          getB t (hostKey h sltHostIrqStatus) 4 = true ∧ ∀ k, k < a ∨ a + n ≤ k → flashByte t k = flashByte s k)))

/-- A frame-program write to FLA_HOST_MAIL (MAILBOX by the holder in service) leaves the value in FLA_HOST_MAIL of the holder's region and one more EVENT packet, MAILBOX of that region with the value as its argument; an event delivered goes into a host's queue where the host's mask lets its level and region through and the queue holds fewer than 64, oldest first, and is counted in EVT_LOST with its bit where it is full. A doorbell of a host leaves its value in FLA_DOORBELL_HA or _HB of each Flint region in service and raises that host's count by one. A read of SLT_HOST_EVT_0 takes the oldest entry off the queue and shows its code, block and cell, latching argument, nanoseconds and seconds; on an empty queue it shows 0 and changes nothing else; without Slate's clock nothing happens. -/
def Obligations.MailboxAndHostEvents : Prop :=
  ∀ (s : State),
    (∀ f v, flintUp s f = true → holder s = some f → ∃ t, exec (.mailbox f v) s = .next t ∧
      readReg t (flaHostMail (flintRegion f)) = v ∧ t.mem = s.mem ∧ t.slate = s.slate ∧
      ∃ e : Event, t.evNet = s.evNet ++ [e] ∧ e.code = evCode 1 (flintRegion f) 0x120 ∧ e.arg = v) ∧
    (∀ (h : HostId) (e : Event),
      let m := readReg s (hostKey h sltHostEvtMask)
      let through := bitAt (fld m 0 4) (evLevel e.code) && bitAt (fld m 16 16) (evRegion e.code)
      (through = false → hostEvent s h e = s) ∧
      (through = true → (hostOf s h).events.length < 64 → (hostOf (hostEvent s h e) h).events = (hostOf s h).events ++ [e]) ∧
      (through = true → 64 ≤ (hostOf s h).events.length →
        (hostOf (hostEvent s h e) h).events = (hostOf s h).events ∧ getB (hostEvent s h e) (hostKey h sltHostIrqStatus) 1 = true)) ∧
    (∀ h v f, slateUp s = true → flintUp s f = true → ∃ t, exec (.doorbell h v) s = .next t ∧
      readReg t (if h = .b then flaDoorbellHb (flintRegion f) else flaDoorbellHa (flintRegion f)) = v ∧
      getF t (flaDoorbellSeq (flintRegion f)) (if h = .b then 16 else 0) 16 =
        (getF s (flaDoorbellSeq (flintRegion f)) (if h = .b then 16 else 0) 16 + 1) % 65536 ∧
      getF t (flaDoorbellSeq (flintRegion f)) (if h = .b then 0 else 16) 16 = getF s (flaDoorbellSeq (flintRegion f)) (if h = .b then 0 else 16) 16) ∧
    (∀ h, slateUp s = true → (hostOf s h).events = [] → exec (.eventQueueRead h) s = .next (setReg (reqMeets s (hostReq h) 0) (hostKey h (sltHostEvt 0)) 0)) ∧
    (∀ h, slateUp s = false → exec (.eventQueueRead h) s = .next s) ∧
    (∀ h e q, slateUp s = true → (hostOf s h).events = e :: q → ∃ t, exec (.eventQueueRead h) s = .next t ∧ (hostOf t h).events = q ∧
      (readReg t (hostKey h (sltHostEvt 0))).toNat = e.code.toNat + 65536 * e.block.toNat + 16777216 * e.cell.toNat ∧
      readReg t (hostKey h (sltHostEvt 1)) = e.arg ∧ readReg t (hostKey h (sltHostEvt 2)) = e.ns ∧ readReg t (hostKey h (sltHostEvt 3)) = e.sec ∧
      getB t (hostKey h sltHostIrqStatus) 0 = !q.isEmpty)

/-- EVENT_ARRIVAL of the oldest event of its region on the mesh, or of one that is not on the mesh, takes the packet off; of a younger one it does nothing, as packets of one source keep their order. An event that equals a queued one in code, block and cell adds one to its count; another of level 2 or 3 joins the queue, behind every entry but those of its own 10 ns clock that R434 ranks after it (higher level first, then the lower region, block and cell), while fewer than 256 entries are taken, of level 0 or 1 also only while fewer than 224 entries hold such events; else it is dropped, EVT_DROPPED counts it, and the first drop of an episode queues EVENT_OVERFLOW, the entry of its own. EVENT_DELIVERY with an empty queue does nothing; else the oldest entry leaves the queue, goes to the log unless its level is 1, then to HA, then to HB, and to the active region (with no holder it is kept for the next one); an episode ends when the entries fall below the limits. -/
def Obligations.CollectorQueuesAndDelivers : Prop :=
  ∀ (s : State) (e : Event),
    let q := s.slate.coll.queue
    let merges := q.any fun x => sameEvent x.ev e
    let full := (evLevel e.code < 2 ∧ 224 ≤ entriesLow q) ∨ 256 ≤ entriesTaken q
    let put (x : QueuedEvent) : List QueuedEvent :=
      let after (y : QueuedEvent) : Bool := y.clk == x.clk && decide (evRank x.ev < evRank y.ev)
      q.takeWhile (fun y => !after y) ++ x :: q.dropWhile fun y => !after y
    let ahead := s.evNet.find? fun x => evRegion x.code == evRegion e.code
    (ahead ≠ none → ahead ≠ some e → exec (.eventArrival e) s = .next s) ∧
    (ahead = none ∨ ahead = some e → ∃ t, exec (.eventArrival e) s = .next t ∧ t.evNet = s.evNet.erase e ∧ t.slate.log = s.slate.log ∧ t.slate.hosts = s.slate.hosts ∧
      (merges = true → t.slate.coll = { s.slate.coll with queue := q.map fun x => if sameEvent x.ev e then { x with count := x.count + 1 } else x } ∧ t.regs = s.regs) ∧
      (merges = false → ¬ full → t.slate.coll = { s.slate.coll with queue := put ⟨e, 1, s.now / 10⟩ } ∧ t.regs = s.regs) ∧
      (merges = false → full → readReg t sltEvtDropped = satAdd (readReg s sltEvtDropped) 1 ∧ t.slate.coll.episode = true ∧
        (s.slate.coll.episode = true → t.slate.coll = s.slate.coll) ∧
        (s.slate.coll.episode = false → q.all (fun x => x.ev.code != evCode 3 0 0x3FA) = true →
          ∃ o : Event, o.code = evCode 3 0 0x3FA ∧ t.slate.coll.queue = put ⟨o, 1, s.now / 10⟩))) ∧
    (q = [] → exec .eventDelivery s = .next s) ∧
    (∀ x r, q = x :: r →
      let still := s.slate.coll.episode && !(decide (entriesLow r < 224) && decide (entriesTaken r < 256))
      let u := setColl s fun c => { c with queue := r, episode := still }
      let u := if evLevel x.ev.code ≠ 1 then logAdd u (.event x.ev x.count) else u
      let u := hostEvent (hostEvent u .a x.ev) .b x.ev
      (∀ f, holder s = some f → exec .eventDelivery s = .next (forwardEvent u f x.ev)) ∧
      (holder s = none → exec .eventDelivery s = .next (setColl u fun c => { c with forHolder := c.forHolder ++ [x.ev] })))


namespace Sys2Proof.Says

/-! Slate's services, power and reset. -/

/-- One event has left for the collector, and it has this code and argument. -/
def oneEvent (s t : State) (code : BitVec 16) (arg : Nat) : Prop :=
  ∃ e : Event, t.evNet = s.evNet ++ [e] ∧ e.code = code ∧ e.arg = BitVec.ofNat 32 arg ∧ e.sec = BitVec.ofNat 32 s.time.sec ∧
    e.ns = BitVec.ofNat 32 s.time.ns

/-- The first event that has left for the collector has this code and argument; others may follow it. -/
def firstEvent (s t : State) (code : BitVec 16) (arg : Nat) : Prop :=
  ∃ (e : Event) (rest : List Event), t.evNet = s.evNet ++ e :: rest ∧ e.code = code ∧ e.arg = BitVec.ofNat 32 arg ∧
    e.sec = BitVec.ofNat 32 s.time.sec ∧ e.ns = BitVec.ofNat 32 s.time.ns

/-- Every region but Slate is unpowered, and no region holds the lease. -/
def allOff (s : State) : Prop := holder s = none ∧ ∀ r, 1 ≤ r → r < 16 → (ctlOf s r).phase = .off

/-- The panel neither is driven nor enters the safe state. -/
def panelIdle (s : State) : Prop := (s.obs.state = .off ∨ s.obs.state = .safe) ∧ s.obs.safeCause = none

/-- The panel is driven, and no abrupt-loss sequence runs. -/
def panelDriven (s : State) : Prop := s.obs.state ≠ .off ∧ s.obs.state ≠ .safe ∧ s.obs.safeCause = none

/-- The steps of R306 run: backlight and timing off, sequences and scripts dropped, script 4 from Slate's copy. -/
def discharging (t : State) (reason next : Nat) : Prop :=
  t.obs.safeCause = some ⟨reason, next⟩ ∧ t.obs.step = .discharge ∧ t.obs.script = some ⟨4, 0, .sequence, true, 0⟩ ∧ t.obs.scriptQ = [] ∧
  t.obs.heldReq = none ∧ t.obs.blp = none ∧ t.scan.running = false ∧ t.obs.gtLevel = fld t.obs.gtSafe 0 12

/-- Boot has begun at a wake at `now`: REFCLK_EN is high, Slate's clock runs 2.012 ms later, and SLT_WAKE_STATUS names the source (R452, R482). -/
def bootsFrom (t : State) (now src : Nat) : Prop :=
  t.power.mode = .boot ∧ t.slate.boot = .clock ∧ t.slate.clockAt = now + 2012000 ∧ t.power.refclkEn = true ∧ t.power.clockLost = false ∧
  t.power.wakeHeld = none ∧ t.therm.cooling = false ∧ getF t sltWakeStatus 28 4 = src

end Sys2Proof.Says

/-- While Slate's registers are reached, each write meets the other accesses of its clock. A write of an action 1 to 6 with KEY 0x5A17 and none running takes the sixteen data words and shows BUSY; with another key, an action 0 or 7, or one running nothing else changes. Before Slate's clock runs nothing happens. At OTP_WRITTEN, BUSY falls, RESULT and the event tell the outcome, and OTP is changed by the action alone: customer digest 0 or 1 programmed where it is not, customer key 0 or 1 revoked unless it booted, the vendor's lock unless the vendor's key booted or no customer key is usable, the rollback count raised to the booted image's SEC_VERSION (at most 64) where that is higher; refused (RESULT 2), OTP stays as it was. -/
def Obligations.OtpActions : Prop :=
  ∀ (s : State) (q : Requester) (v : Word),
    (slateUp s = true →
      let a := fld v 0 3
      let data := (List.range 16).flatMap fun i => leBytes (readReg s (sltOtpData i)).toNat 4
      let u := reqMeets s q 0
      let begins := fld v 16 16 = 0x5A17 ∧ 1 ≤ a ∧ a ≤ 6 ∧ s.slate.otpRun = none
      let t := if begins then otpShow { u with slate := { u.slate with otpRun := some (a, data) } } else u
      exec (.otpWriteCustomer q v) s = .next t ∧ exec (.otpRevokeCustomer q v) s = .next t ∧
      exec (.otpLock q v) s = .next t ∧ exec (.otpRollback q v) s = .next t ∧ (begins → getB t sltOtpStatus 0 = true)) ∧
    (slateUp s = false → exec (.otpWriteCustomer q v) s = .next s ∧ exec (.otpRevokeCustomer q v) s = .next s ∧
      exec (.otpLock q v) s = .next s ∧ exec (.otpRollback q v) s = .next s) ∧
    (∀ a data, s.slate.otpRun = some (a, data) →
      let o := s.slate.otp
      let booted := s.slate.image.map fun i => i.keySlot
      let ends (o' : Otp) (r : Nat) : Prop := ∃ t, exec .otpWritten s = .next t ∧ t.slate.otp = o' ∧ t.slate.otpRun = none ∧
        getB t sltOtpStatus 0 = false ∧ getF t sltOtpStatus 8 8 = r ∧ oneEvent s t (evCode 2 0 0x164) (a + 256 * r) ∧
        t.slate.flash = s.slate.flash ∧ t.mem = s.mem
      (∀ i : Fin 2, a = 1 + i.val →
        (o.customer[i] = none → ends { o with customer := o.customer.set i (some data) } 1) ∧ (o.customer[i].isSome = true → ends o 2)) ∧
      (∀ i : Fin 2, a = 3 + i.val →
        (booted ≠ some (1 + i.val) → ends { o with revoked := o.revoked.set i true } 1) ∧ (booted = some (1 + i.val) → ends o 2)) ∧
      (a = 5 →
        let usable := ∃ i : Fin 2, o.customer[i].isSome = true ∧ o.revoked[i] = false
        (booted ≠ some 0 → usable → ends { o with lock := true } 1) ∧ (booted = some 0 ∨ ¬ usable → ends o 2)) ∧
      (a = 6 →
        (∀ i, s.slate.image = some i → o.rollback < i.secVersion → ends { o with rollback := min 64 i.secVersion } 1) ∧
        (∀ i, s.slate.image = some i → i.secVersion ≤ o.rollback → ends o 2) ∧ (s.slate.image = none → ends o 2)))

/-- While Slate's registers are reached. ATTEST_START with no report of the host being formed takes its nonce and shows BUSY; else nothing. ATTEST_DONE of the oldest takes it off, counts it, shows the 192-byte body over that nonce and its signature in the host's report registers, VALID, and raises ATTEST_DONE. CONFIRM with an image booted makes its unconfirmed count 0. REBOOT with KEY 0xB007 is held during boot; with the panel idle it is a chip reset of cause 3 and a wake of source 0xA; with the panel ON the panel is asked off first; without START or with another key NEXT_SLOT alone is taken. SLEEP with KEY 0x5EE9 is held during boot; with the panel ON it is asked off first; with the panel idle and every region off the P9 is in STANDBY at once, REFCLK_EN and DRAM_PWR_EN low, cause 7. -/
def Obligations.AttestConfirmRebootSleep : Prop :=
  ∀ (s : State), slateUp s = true →
    (∀ h, let mine := s.slate.attest.any fun x => x.1 == h
      (mine = true → exec (.attestStart h) s = .next (reqMeets s (hostReq h) 0)) ∧
      (mine = false → ∃ t, exec (.attestStart h) s = .next t ∧ t.slate.attest = s.slate.attest ++ [(h, nonceOf s h)] ∧
        getB t (hostKey h sltAttestStatus) 1 = true ∧ t.mem = s.mem ∧ t.evNet = s.evNet)) ∧
    (∀ h nonce rest, s.slate.attest = (h, nonce) :: rest → ∃ t, exec (.attestDone h) s = .next t ∧
      t.slate.attest = rest ∧ t.slate.reports = s.slate.reports + 1 ∧ getB t (hostKey h sltAttestStatus) 0 = true ∧
      oneEvent s t (evCode 1 0 0x163) ((if h = .b then 1 else 0) + 256 * (s.slate.reports + 1)) ∧
      (let body := attestBody s nonce (s.slate.reports + 1)
       let report := body ++ edSign s.slate.otp.seed body
       ∀ i, i < 64 → i < report.length / 4 → readReg t (hostKey h (sltAttestReport i)) = BitVec.ofNat 32 (leAt report (4 * i) 4))) ∧
    (∀ q i, s.slate.boot = .done → s.slate.image = some i → i.slot < 2 → ∃ t, exec (.confirm q) s = .next t ∧
      t.slate.log.slots.getD i.slot none = some (i.digest, 0) ∧ getB t sltBootStatus 28 = true ∧ getF t sltBootStatus 24 2 = 0 ∧
      t.slate.log.entries = s.slate.log.entries) ∧
    (∀ q v, flag v 1 = false →
      let w := writeKey (reqMeets s q 0) sltBootCtrl v
      let u : State := { w with slate := { w.slate with log := { w.slate.log with nextSlot := getF w sltBootCtrl 2 2 } } }
      (flag v 0 = false ∨ fld v 16 16 ≠ 0xB007 → exec (.reboot q v) s = .next u) ∧
      (flag v 0 = true → fld v 16 16 = 0xB007 →
        (s.power.mode = .boot → exec (.reboot q v) s = .next { u with slate := { u.slate with rebootHeld := true } }) ∧
        (s.power.mode = .run ∨ s.power.mode = .recovery → panelIdle s → exec (.reboot q v) s = .next (wake (chipReset u 3) 0xA)) ∧
        (s.power.mode = .run → s.obs.state = .on → s.obs.safeCause = none → s.obs.step ≠ .offRequested →
          ∃ t, exec (.reboot q v) s = .next t ∧ t.obs.step = .offRequested ∧ t.obs.afterOff = 1 ∧ t.obs.heldReq = none ∧ t.regs = u.regs))) ∧
    (∀ q v, flag v 0 = true → fld v 16 16 = 0x5EE9 →
      (s.power.mode = .boot → ∃ t, exec (.sleep q v) s = .next t ∧ t.power.sleepHeld = true ∧ t.power.mode = .boot ∧ t.obs = s.obs) ∧
      (s.power.mode = .run → s.obs.afterOff = 0 → s.power.sleeping = false →
        (s.obs.state = .on → s.obs.safeCause = none → s.obs.step ≠ .offRequested →
          ∃ t, exec (.sleep q v) s = .next t ∧ t.obs.step = .offRequested ∧ t.obs.afterOff = 2 ∧ t.power.sleeping = false) ∧
        (panelIdle s → allOff s → s.power.startAfter = [] → s.power.stopAfter = [] → ∃ t, exec (.sleep q v) s = .next t ∧
          t.power.mode = .standby ∧ t.power.refclkEn = false ∧ t.power.dramPwrEn = false ∧ allOff t ∧ getF t sltWakeStatus 24 4 = 7 ∧ t.slate.boot = .idle)))

/-- Resets with the panel idle: SYS_RESET_N's fall applies a chip reset of cause 2 and holds the P9 in it, its rise wakes the P9 with source 2; the power-on reset, asserted, leaves the P9 OFF, and its end is a wake of source 1. After a chip reset every register outside Slate's power registers holds its reset value, except the shutdown count and (unless it is a power-on reset) the wake settings; every semaphore is free, the tie bit 0, no region holds the lease, every queue of events, packets and acknowledgements is empty, time is 0 and DRAM reads 0; the Slate log, OTP, the flash and (but for the power-on reset) the pewter buffer stay, and units and blocks out of service stay in the log and so out of service (a DRAM channel from its training on), unless CLEAR_RETIRED asked otherwise. A driven panel meets SYS_RESET_N's fall with the abrupt-loss steps first. -/
def Obligations.ChipResets : Prop :=
  ∀ (s : State),
    (∀ cause, 1 ≤ cause → cause < 8 →
      let t := chipReset s cause
      (∀ k, k ∉ [sltPwrState, sltPwrStatus, sltWakeStatus, sltThermShutdowns, sltWakeCtrl, sltWakeTimer] → readReg t k = regReset k) ∧
      ((s.regs.map fun e => e.1).Nodup → readReg t sltThermShutdowns = readReg s sltThermShutdowns ∧
        readReg t sltWakeCtrl = (if cause = 1 then regReset sltWakeCtrl else readReg s sltWakeCtrl) ∧
        readReg t sltWakeTimer = (if cause = 1 then regReset sltWakeTimer else readReg s sltWakeTimer)) ∧
      getF t sltWakeStatus 24 4 = cause ∧
      (∀ n, semOf t n = {}) ∧ t.slate.tie = false ∧ holder t = none ∧ t.slate.coll = {} ∧ (∀ h, hostOf t h = {}) ∧
      t.evNet = [] ∧ t.net = [] ∧ t.acks = [] ∧ t.time = {} ∧ (∀ a, readByte t a = 0) ∧ t.poison = [] ∧
      t.slate.otp = s.slate.otp ∧ t.slate.flash = s.slate.flash ∧ t.slate.log.entries = s.slate.log.entries ∧ t.obs.pewter = s.obs.pewter ∧
      (s.slate.log.clear = true → t.retired = [] ∧ t.quarantined = []) ∧
      (s.slate.log.clear = false → (∀ r b, (r, b) ∈ s.quarantined → ⟨r, b, 0xFF⟩ ∈ t.slate.log.retired ∧ (r < 8 ∨ 12 ≤ r → (r, b) ∈ t.quarantined)) ∧
        ∀ u ∈ s.retired, u.cell ≠ 0xFF → u ∈ t.retired) ∧
      t.slate.flashSfdp = s.slate.flashSfdp ∧ t.part = s.part ∧
      t.pending = s.pending) ∧
    (let cold := chipReset s 1
     let lost : State := { cold with obs := { cold.obs with pewter := [], pewterEra := cold.obs.pewterEra + 1 } }
     exec .por s = .next (wake lost 1) ∧
     ∃ t, exec .porAsserted s = .next t ∧ t.power = { lost.power with mode := .off, refclkEn := false } ∧ t.slate = lost.slate ∧ t.obs = lost.obs ∧ t.mem = lost.mem) ∧
    (s.power.mode ≠ .off → panelIdle s →
      exec .sysReset s = .next (chipReset { s with power := { s.power with resetPin := true } } 2)) ∧
    (s.power.mode ≠ .off → panelDriven s → ∃ t, exec .sysReset s = .next t ∧ t.power.resetPin = true ∧ discharging t 0 2) ∧
    (s.power.resetPin = true → s.power.mode = .boot → s.slate.boot = .idle → s.obs.safeCause = none →
      exec .sysResetRelease s = .next (wake (pwrShow { s with power := { s.power with resetPin := false } }) 2))

/-- A wake that arrives while PFAIL_N is low, or during the cooling after a shutdown (unless it is the cooling's own), leaves the P9 in STANDBY and is held, the first one staying; any other begins boot: REFCLK_EN is high, the clock of Slate runs 2.012 ms later, and SLT_WAKE_STATUS names the source; until then no host port answers. In STANDBY with REFCLK not lost, WAKE_N wakes with source 3, HA_CS_N with 4, HB_CS_N with 5 (both in one clock with 4, and with WAKE_N in that clock with 3), the timer at its end (left at 0) with 6, where SLT_WAKE_CTRL enables each, and where it does not WAKE_N changes nothing. PFAIL_N's return wakes with the held source, else, after an abrupt loss and where enabled, with 7; the cooling's end, once its time has passed and the sensor is cool, with 8, where restart is enabled and fewer than three shutdowns fell in the last hour; the clock's return with 9. -/
def Obligations.WakesBeginBoot : Prop :=
  ∀ (s : State),
    (∀ src, src < 16 →
      (s.power.pfailLow = true ∨ s.therm.cooling = true ∧ src ≠ 8 → ∃ p, (wake s src).power = p ∧ p.mode = .standby ∧
        p.wakeHeld = (if s.power.wakeHeld.isSome then s.power.wakeHeld else some src) ∧ (wake s src).slate = s.slate ∧ (wake s src).mem = s.mem) ∧
      (s.power.pfailLow = false → s.therm.cooling = false ∨ src = 8 → bootsFrom (wake s src) s.now src)) ∧
    (s.power.mode = .standby → s.power.clockLost = false →
      (getB s sltWakeCtrl 0 = true → exec .wakePinLow s = .next (wake s 3)) ∧
      (getB s sltWakeCtrl 0 = false → exec .wakePinLow s = .next s) ∧
      (∀ b w, getB s sltWakeCtrl 1 = true → exec (.hostWake true b w) s = .next (wake s (if w then 3 else 4))) ∧
      (∀ w, getB s sltWakeCtrl 1 = true → exec (.hostWake false true w) s = .next (wake s (if w then 3 else 5))) ∧
      (∀ a b w, getB s sltWakeCtrl 1 = false → exec (.hostWake a b w) s = .next s) ∧
      (readReg s sltWakeTimer ≠ 0 → getB s sltWakeCtrl 2 = true → exec .wakeTimerExpired s = .next (wake (setReg s sltWakeTimer 0) 6))) ∧
    (∀ src, s.power.wakeHeld = some src →
      exec .pfailReturn s = .next (wake (pwrShow { s with power := { s.power with pfailLow := false, wakeHeld := none } }) src)) ∧
    (s.power.wakeHeld = none → s.power.mode = .standby → s.power.clockLost = false → getF s sltWakeStatus 24 4 = 6 → getB s sltWakeCtrl 3 = true →
      exec .pfailReturn s = .next (wake (pwrShow { s with power := { s.power with pfailLow := false } }) 7)) ∧
    (s.power.mode = .standby → s.power.clockLost = true → s.obs.safeCause = none → exec .clockReturn s = .next (wake s 9)) ∧
    (coolEnough s = false → exec .thermalRestart s = .next s) ∧
    (s.power.mode = .standby → s.therm.cooling = true → coolEnough s = true →
      let warm : State := { s with therm := { s.therm with cooling := false } }
      let recent := (s.therm.shutdowns.filter fun x => decide (s.now < x + 3600000000000)).length
      (getB s sltThermRestart 16 = true → recent < 3 → exec .thermalRestart s = .next (wake warm 8)) ∧
      (getB s sltThermRestart 16 = false ∨ 3 ≤ recent → s.power.wakeHeld = none → exec .thermalRestart s = .next warm))

/-- In service: a fall of PFAIL_N, or the collapse of a rail more than 5 % below its minimum while REFCLK_EN is high, enters the abrupt-loss steps with cause 6 and SAFE_PANEL_STATE where the panel is driven; with the panel idle it writes the log entry at once, isolates every other region and leaves the P9 in STANDBY, REFCLK_EN low, cause 6; a rail that has not collapsed changes nothing. At the end of the steps the log entry is written, STATE is SAFE, and what was to follow follows. A REFCLK window within 300 ppm shows its deviation; beyond 300 ppm it raises REFCLK_MARGIN once per episode; a second in a row beyond 1,000 ppm, or no edge for 1 microsecond, is REFCLK_FAULT: the panel takes the abrupt-loss steps with reason 1, one in the safe state already leaves the P9 in STANDBY waiting for the clock, cause 4; none of these counts before boot's step 1 has ended. The crystal's fault is raised once and held. -/
def Obligations.LossOfSupplyAndClock : Prop :=
  ∀ (s : State),
    (let driven (t : State) : Prop := discharging t 6 1 ∧ firstEvent s t (evCode 3 14 0x090) 6 ∧ t.power.mode = .run
     let gone (t : State) : Prop := t.slate.log.entries = s.slate.log.entries ++ [.loss 6 1] ∧
        allOff t ∧ t.power.mode = .standby ∧ t.power.refclkEn = false ∧ t.power.dramPwrEn = false ∧ getF t sltWakeStatus 24 4 = 6
     (s.power.mode = .run → panelDriven s → ∃ t, exec .pfailFall s = .next t ∧ t.power.pfailLow = true ∧ driven t) ∧
     (s.power.mode = .run → panelIdle s → s.power.resetWaits = false → ∃ t, exec .pfailFall s = .next t ∧ gone t) ∧
     (∀ rail uv,
       (s.power.refclkEn = false ∨ railCollapsed rail uv = false → exec (.railCollapse rail uv) s = .next s) ∧
       (s.power.refclkEn = true → railCollapsed rail uv = true → s.power.mode = .run →
         (panelDriven s → ∃ t, exec (.railCollapse rail uv) s = .next t ∧ driven t) ∧
         (panelIdle s → s.power.resetWaits = false → ∃ t, exec (.railCollapse rail uv) s = .next t ∧ gone t)))) ∧
    (∀ c, s.obs.safeCause = some c → s.obs.step = .dischargeEnd → s.obs.afterOff = 0 → s.power.resetWaits = false →
      (c.next = 0 → ∃ t, exec .abruptLossEnd s = .next t ∧ t.obs.safeCause = none ∧ t.obs.state = .safe ∧ t.obs.step = .idle ∧
        t.slate.log.entries = s.slate.log.entries ++ [.loss c.reason 0] ∧ t.power = s.power ∧ t.ctl = s.ctl) ∧
      (c.next = 1 → ∃ t, exec .abruptLossEnd s = .next t ∧ t.slate.log.entries = s.slate.log.entries ++ [.loss c.reason 1] ∧
        allOff t ∧ t.power.mode = .standby ∧ t.power.refclkEn = false ∧ getF t sltWakeStatus 24 4 = 6)) ∧
    (s.power.refclkEn = false ∨ s.power.clockLost = true ∨ s.slate.boot = .clock →
      exec .refclkStopped s = .next s ∧ ∀ cycles : Nat, exec (.refclkWindow cycles) s = .next s) ∧
    (s.power.refclkEn = true → s.power.clockLost = false → s.slate.boot ≠ .clock →
      (∀ cycles : Nat,
        let d := (4 * (cycles : Int) - 390625).natAbs
        (d * 1000000 ≤ 300 * 390625 → ∃ t, exec (.refclkWindow cycles) s = .next t ∧ t.power.margin = false ∧ t.power.rateBad = false ∧
          t.power.marginSaid = false ∧ t.evNet = s.evNet ∧ t.obs = s.obs ∧ t.ctl = s.ctl) ∧
        (300 * 390625 < d * 1000000 → d * 1000000 ≤ 1000 * 390625 → ∃ t, exec (.refclkWindow cycles) s = .next t ∧ t.power.margin = true ∧
          t.power.rateBad = false ∧ t.power.marginSaid = true ∧ t.ctl = s.ctl ∧ (s.power.marginSaid = true → t.evNet = s.evNet) ∧
          (s.power.marginSaid = false → ∃ e : Event, t.evNet = s.evNet ++ [e] ∧ e.code = evCode 2 0 0x185)) ∧
        (1000 * 390625 < d * 1000000 → s.power.rateBad = false → ∃ t, exec (.refclkWindow cycles) s = .next t ∧ t.power.rateBad = true ∧ t.evNet = s.evNet)) ∧
      (let failed (t : State) : Prop := t.power.refclkFault = true ∧ t.power.clockLost = true
       let gone (t : State) : Prop := failed t ∧ t.power.mode = .standby ∧ allOff t ∧ getF t sltWakeStatus 24 4 = 4
       s.power.mode = .run → s.obs.safeCause = none →
        (s.obs.state ≠ .safe → ∃ t, exec .refclkStopped s = .next t ∧ failed t ∧ discharging t 1 3) ∧
        (s.obs.state = .safe → s.power.resetWaits = false → ∃ t, exec .refclkStopped s = .next t ∧ gone t) ∧
        (∀ cycles : Nat, s.power.rateBad = true → 1000 * 390625 < (4 * (cycles : Int) - 390625).natAbs * 1000000 →
          (s.obs.state ≠ .safe → ∃ t, exec (.refclkWindow cycles) s = .next t ∧ failed t ∧ discharging t 1 3) ∧
          (s.obs.state = .safe → s.power.resetWaits = false → ∃ t, exec (.refclkWindow cycles) s = .next t ∧ gone t)))) ∧
    (s.power.mode ≠ .off → s.power.xtalFault = false → ∃ t, exec .xtalFault s = .next t ∧ t.power.xtalFault = true ∧ oneEvent s t (evCode 3 0 0x183) 0) ∧
    (s.power.xtalFault = true → exec .xtalFault s = .next s)


namespace Sys2Proof.Says

/-! Regions, units and the lease. -/

/-- A region's phase. -/
def phaseOf (s : State) (r : Nat) : RegionPhase := (ctlOf s r).phase

/-- No request on power is held or waits, no report is held for the region, and neither boot nor SLEEP runs. -/
def powerQuiet (s : State) (r : Nat) : Prop :=
  heldOf s r = none ∧ s.power.startAfter = [] ∧ s.power.stopAfter = [] ∧ s.power.lastPwr = none ∧ s.power.sleeping = false ∧
  s.power.mode = .run ∧ (ctlOf s r).deferred = []

/-- An event of this code and argument is among those that have left. -/
def tells (t : State) (code : BitVec 16) (arg : Nat) : Prop := ∃ e ∈ t.evNet, e.code = code ∧ e.arg = BitVec.ofNat 32 arg

end Sys2Proof.Says

/-- In boot. The first Flint region to pass its boot self-test is granted the lease with reason 1 and boot goes on; a later one only shows its items; a failure shows them not passed and raises SELFTEST_FAILED. With neither passed in time the P9 enters recovery with reason FLINT and every region in service but the DRAM's powers down. BOOT_DONE of an image with settings and one frame program, no DRAM, whose bytes match their digest and whose program is accepted: the Flint regions in service hold the program, the P9 is in service and BOOT_DONE is raised. A section whose bytes do not match fails the slot with reason 9: it is marked tried, its image is given up, and the regions power down before the next slot. -/
def Obligations.BootEnds : Prop :=
  ∀ (s : State), s.power.mode = .boot →
    (∀ f, s.slate.boot = .selftest ∨ s.slate.boot = .sections → flintUp s f = true → (flintOf s f).rounds &&& 0x33 ≠ 0 →
      (s.slate.granted = false → ∃ t, exec (.flintSelftestDone f true) s = .next t ∧ holder t = some f ∧ t.slate.granted = true ∧
        t.slate.boot = .sections ∧ getF t sltLeaseStatus 24 4 = 1 ∧ (flintOf t f).selftest = (flintOf s f).selftest ||| 0x33 ∧ (flintOf t f).lapsed = false) ∧
      (s.slate.granted = true → ∃ t, exec (.flintSelftestDone f true) s = .next t ∧ holder t = holder s ∧ t.slate = s.slate ∧
        (flintOf t f).selftest = (flintOf s f).selftest ||| 0x33) ∧
      (∃ t, exec (.flintSelftestDone f false) s = .next t ∧ holder t = holder s ∧ t.slate.boot = s.slate.boot ∧
        (flintOf t f).selftest = (flintOf s f).selftest &&& 0x0C ∧ ∃ e ∈ t.evNet, e.code = evCode 2 (flintRegion f) 0x113)) ∧
    (s.slate.boot = .selftest → s.slate.rebootHeld = false → s.power.sleepHeld = false → ∃ t, exec .flintSelftestTimeout s = .next t ∧
      t.power.mode = .recovery ∧ t.slate.boot = .recovery ∧ t.slate.image = none ∧ holder t = none ∧
      (∃ e ∈ t.evNet, e.code = evCode 3 0 0x161 ∧ e.arg.toNat / 65536 % 256 = 0x0C) ∧
      (∀ r, 1 ≤ r → r < 16 → r ∉ bauxites → phaseOf s r = .on → phaseOf t r = .draining ∧ (ctlOf t r).drainFor = .powerDown)) ∧
    (∀ (i : BootImage) x0 x1, s.slate.boot = .sections → s.slate.image = some i → i.sections = [x0, x1] → x0.1 = 1 → x1.1 = 2 → i.flags = 0 → i.slot < 2 →
      (sectionGood s x1 = true → s.slate.rebootHeld = false → s.power.sleepHeld = false →
        ∀ img, progCheck s ⟨true, x1.2.1⟩ none = .ok img → ∃ t, exec .bootDone s = .next t ∧ t.power.mode = .run ∧ t.slate.boot = .done ∧
          tells t (evCode 2 0 0x162) (i.slot + 4 * i.keySlot + 65536 * (i.seq % 65536)) ∧
          (∀ f, flintUp s f = true → (flintOf t f).code = img.code ∧ (flintOf t f).entry = img.entry ∧ (flintOf t f).minor = some img.minor)) ∧
      (sectionGood s x1 = false → ∃ t, exec .bootDone s = .next t ∧ t.power.mode = .boot ∧ t.slate.boot = .unwinding ∧ t.slate.image = none ∧
        t.slate.tried = s.slate.tried ++ [i.slot] ∧ getF t sltBootStatus (if i.slot = 0 then 8 else 16) 8 = 9 ∧
        tells t (evCode 2 0 0x160) (i.slot + 256 * 9)))

/-- PWR_REQUEST while Slate's registers are reached: the named regions are those of bits 15:0 but Slate, the Flint regions and Obsidian. A request that would leave a user of DRAM on without every Bauxite region is refused with reason 1, one that names some but not all Bauxite regions with 2, one during boot or recovery with 3, one that names a region out of service with 4: PWR_REFUSED is raised and nothing else happens. In service with nothing held: Garnet off and asked on begins to power up, Garnet on and asked off begins to drain for power-down, Garnet on its way up and asked off holds the request; and with the whole DRAM group off and asked on, DRAM_PWR_EN rises, the Bauxite regions begin to power up and their users wait for them. -/
def Obligations.PowerRequests : Prop :=
  ∀ (s : State) (q : Requester) (v : Word), slateUp s = true →
    let bits := fld v 0 16
    let on := flag v 16
    let named := (List.range 16).filter fun r => bitAt bits r && !([0, 1, 2, 14].contains r)
    let after (r : Nat) : Bool := if named.contains r then on else powerTarget s r
    let orphans := [3, 4, 5, 6, 7, 12, 13].any after && !([8, 9, 10, 11].all after)
    let some8 := named.any (fun r => bauxites.contains r) && !(bauxites.all fun r => named.contains r)
    let starting := s.power.mode = .boot ∨ s.power.mode = .recovery
    let gone := named.any fun r => (ctlOf s r).outOfService
    let refuse (reason : Nat) : Host.Outcome State Fault Refusal := .next (raise (reqMeets s q 0) 2 0 0x181 0 0xFF (bits + 65536 * b2n on + 16777216 * reason))
    (orphans = true → exec (.pwrRequest q v) s = refuse 1) ∧
    (orphans = false → some8 = true → exec (.pwrRequest q v) s = refuse 2) ∧
    (orphans = false → some8 = false → starting → exec (.pwrRequest q v) s = refuse 3) ∧
    (orphans = false → some8 = false → ¬ starting → gone = true → exec (.pwrRequest q v) s = refuse 4) ∧
    (orphans = false → gone = false → s.power.mode = .run → s.power.startAfter = [] → s.power.stopAfter = [] → s.power.lastPwr = none →
      (bits = 0x8000 → on = true → phaseOf s 15 = .off → ∃ t, exec (.pwrRequest q v) s = .next t ∧
        phaseOf t 15 = .poweringOn ∧ (∀ r, r ≠ 15 → ctlOf t r = ctlOf s r) ∧ t.evNet = s.evNet) ∧
      (bits = 0x8000 → on = false → phaseOf s 15 = .on → ∃ t, exec (.pwrRequest q v) s = .next t ∧
        phaseOf t 15 = .draining ∧ (ctlOf t 15).drainFor = .powerDown ∧ (∀ r, r ≠ 15 → ctlOf t r = ctlOf s r) ∧ ∃ e ∈ t.evNet, e.code = evCode 2 15 0x3F3) ∧
      (bits = 0x8000 → on = false → phaseOf s 15 = .poweringOn → ∃ t, exec (.pwrRequest q v) s = .next t ∧
        heldOf t 15 = some false ∧ t.ctl = s.ctl ∧ t.evNet = s.evNet) ∧
      (bits = 0x3FF8 → on = true → (∀ r, 3 ≤ r → r < 14 → phaseOf s r = .off) → ∃ t, exec (.pwrRequest q v) s = .next t ∧
        t.power.dramPwrEn = true ∧ (∀ r ∈ bauxites, phaseOf t r = .poweringOn) ∧ t.power.startAfter = dramUsers ∧
        (∀ r, r ∉ bauxites → ctlOf t r = ctlOf s r)))

/-- For a region other than Slate with nothing held for it while the P9 is in service. REGION_PLL_LOCKED takes a region that powers up or is in reset to initialising. REGION_POWERED takes one that powers down to OFF (REGION_POWERED names it; a Galena region's registers are at their reset values) and one that initialises after power-up to ON (it names it plus 32). REGION_REJOINED takes one that initialises after a reset to ON and raises itself. REGION_RESET_FAILED leaves it OFF and raises itself. DRAIN_END takes a drained one to reset, its reset counted by time, or to powering down, its own writes gone, and the writes to it and the reads of it by a host or a frame program ending with TIMEOUT. PLL_UNLOCK of one in service but Slate, Bauxite and Obsidian drains it for a reset, or for good when it would be the fourth reset in 10 s; one that initialises again is reset again, which counts as a reset; such a Flint, Quartz, Galena, Borax, Mica or Garnet region whose reset would be the fourth in 10 s powers down for good. -/
def Obligations.RegionTransitions : Prop :=
  ∀ (s : State) (r : Fin 16), r.val ≠ 0 → powerQuiet s r.val →
    (phaseOf s r.val = .inReset ∨ phaseOf s r.val = .poweringOn → ∃ t, exec (.regionPllLocked r) s = .next t ∧ phaseOf t r.val = .initialising) ∧
    (phaseOf s r.val = .poweringOff → ∃ t, exec (.regionPowered r) s = .next t ∧ phaseOf t r.val = .off ∧ tells t (evCode 2 0 0x180) r.val ∧
      (4 ≤ r.val → r.val < 8 → ∀ o, o < 0x100000 → readReg t (r.val * 0x100000 + o) = regReset (r.val * 0x100000 + o))) ∧
    (phaseOf s r.val = .initialising → (ctlOf s r.val).rejoining = false → ∃ t, exec (.regionPowered r) s = .next t ∧
      phaseOf t r.val = .on ∧ serves t r.val = true ∧ tells t (evCode 2 0 0x180) (r.val + 32)) ∧
    (phaseOf s r.val = .initialising → (ctlOf s r.val).rejoining = true → ∃ t, exec (.regionRejoined r) s = .next t ∧
      phaseOf t r.val = .on ∧ (ctlOf t r.val).rejoining = false ∧ tells t (evCode 2 r.val 0x3F4) 0) ∧
    (phaseOf s r.val = .inReset ∨ phaseOf s r.val = .initialising ∨ phaseOf s r.val = .poweringOn → ∃ t, exec (.regionResetFailed r) s = .next t ∧
      phaseOf t r.val = .off ∧ tells t (evCode 2 r.val 0x3F5) 0) ∧
    (phaseOf s r.val = .draining → ∃ t, exec (.drainEnd r) s = .next t ∧
      ((ctlOf s r.val).drainFor = .rejoin → phaseOf t r.val = .inReset ∧ (ctlOf t r.val).resets = (s.now :: (ctlOf s r.val).resets).take 4) ∧
      ((ctlOf s r.val).drainFor ≠ .rejoin → phaseOf t r.val = .poweringOff) ∧
      (r.val ≠ 3 → t.acks = (s.acks.filter fun a => ackFrom a != some r.val).map fun a => if ackTo a r.val then { a with status := 5 } else a) ∧
      (∀ h x, (hostOf s h).read = some x → x.flash = false → x.result = none → 0xFFF0000000 ≤ x.addr → x.addr < 0xFFF1000000 →
        x.addr / 0x100000 % 16 = r.val → (hostOf t h).read = some { x with result := some ([], 5) }) ∧
      (∀ f d v st off, r.val ≠ flintRegion f → (flintOf s f).wait = some (.read d v st r.val off) → (flintOf t f).wait = some (.read d 0 5 r.val off))) ∧
    (phaseOf s r.val = .on → r.val ∉ bauxites → r.val ≠ 14 → ∃ t, exec (.pllUnlock r) s = .next t ∧ phaseOf t r.val = .draining ∧
      (∃ e ∈ t.evNet, e.code = evCode 2 r.val 0x3F3) ∧
      (fourthReset s r.val = false → (ctlOf t r.val).drainFor = .rejoin) ∧
      (fourthReset s r.val = true → (ctlOf t r.val).drainFor = .outOfService ∧ (ctlOf t r.val).outOfService = true ∧ tells t (evCode 3 0 0x186) r.val)) ∧
    (phaseOf s r.val = .initialising → fourthReset s r.val = false ∨ r.val = 14 ∨ r.val ∈ bauxites → ∃ t, exec (.pllUnlock r) s = .next t ∧
      phaseOf t r.val = .inReset ∧ (ctlOf t r.val).resets = (s.now :: (ctlOf s r.val).resets).take 4) ∧
    (phaseOf s r.val = .initialising → fourthReset s r.val = true → r.val ≠ 14 → r.val ∉ bauxites → ∃ t, exec (.pllUnlock r) s = .next t ∧
      phaseOf t r.val = .poweringOff ∧ (ctlOf t r.val).outOfService = true ∧ tells t (evCode 3 0 0x186) r.val) ∧
    (phaseOf s r.val = .off → exec (.pllUnlock r) s = .next s ∧ exec (.drainEnd r) s = .next s ∧ exec (.regionPllLocked r) s = .next s)

/-- CELL_ERROR names nothing, and changes nothing, where the block has no such cell, the region has no power, or the cell has retired. A correction is counted for its unit (those older than 1 s of it leave), and with up to 16 in the last second nothing else happens; beyond that, or after the third retry has failed, a cell (outside the lanes and the DRAM ranks, which have rules of their own) retires and CELL_RETIRED is raised; a correction by retries raises CELL_CORRECTED. CELL_QUARANTINED of a retired cell in service raises itself, and where its block's own condition holds (outside Bauxite) the block is quarantined and BLOCK_QUARANTINED raised; while its region is on its way the report is counted and held, and in a quarantined block it is counted and not acted on; of a cell that has not retired it changes nothing. An error given as the word and its flipped bits per attempt is what R252's code makes of it: none, corrected, corrected by retries, or beyond them. -/
def Obligations.CellFaults : Prop :=
  ∀ (s : State) (r : Fin 16) (b c : Byte),
    let u : UnitId := ⟨r.val, b.toNat, c.toNat⟩
    let there := c.toNat < cellsIn r.val b.toNat ∧ isPowered s r.val = true ∧ u ∉ s.retired
    let plain := r.val ≠ 3 ∧ r.val ≠ 14 ∧ r.val ∉ bauxites
    let recent := (u, s.now) :: s.corrected.filter fun x => x.1 != u || decide (s.now < x.2 + 1000000000)
    let many := 16 < (recent.filter fun x => x.1 == u).length
    let gone (t : State) : Prop := t.retired = s.retired ++ [u] ∧
      ∃ e : Event, e ∈ t.evNet ∧ e.code = evCode 0 r.val 0x3F0 ∧ e.block = BitVec.ofNat 8 b.toNat ∧ e.cell = BitVec.ofNat 8 c.toNat
    (¬ there → ∀ ctx e, exec (.cellError r b c ctx e) s = .next s) ∧
    (there → ∀ ctx,
      (¬ many → exec (.cellError r b c ctx .corrected) s = .next { s with corrected := recent }) ∧
      (many → plain → ∃ t, exec (.cellError r b c ctx .corrected) s = .next t ∧ t.corrected = recent ∧ gone t) ∧
      (plain → ∃ t, exec (.cellError r b c ctx .exhausted) s = .next t ∧ t.corrected = s.corrected ∧ gone t ∧ t.regs = s.regs) ∧
      (∀ n, ¬ many → r.val < 4 ∨ 8 ≤ r.val → ∃ t, exec (.cellError r b c ctx (.retried n)) s = .next t ∧ t.corrected = recent ∧ t.retired = s.retired ∧
        ∃ e : Event, t.evNet = s.evNet ++ [e] ∧ e.code = evCode 0 r.val 0x3F6 ∧ e.block = BitVec.ofNat 8 b.toNat ∧ e.cell = BitVec.ofNat 8 c.toNat)) ∧
    (∀ ctx i x fs, (cellOutcome (.word i x fs) = none → exec (.cellError r b c ctx (.word i x fs)) s = .next s) ∧
      (∀ e, cellOutcome (.word i x fs) = some e → (∀ i x fs, e ≠ .word i x fs) →
        exec (.cellError r b c ctx (.word i x fs)) s = exec (.cellError r b c ctx e) s)) ∧
    (u ∉ s.retired → exec (.cellQuarantined r b c) s = .next s) ∧
    (u ∈ s.retired → (r.val, b.toNat) ∈ s.quarantined → ∃ t, exec (.cellQuarantined r b c) s = .next t ∧
      (ctlOf t r.val).reports = (ctlOf s r.val).reports + 1 ∧ (ctlOf t r.val).phase = (ctlOf s r.val).phase ∧ t.quarantined = s.quarantined ∧
      t.retired = s.retired ∧ t.evNet = s.evNet ∧ t.regs = s.regs) ∧
    (u ∈ s.retired → (r.val, b.toNat) ∉ s.quarantined →
      (phaseOf s r.val = .on → ∃ t, exec (.cellQuarantined r b c) s = .next t ∧
        (∃ e : Event, e ∈ t.evNet ∧ e.code = evCode 1 r.val 0x3F1 ∧ e.block = BitVec.ofNat 8 b.toNat ∧ e.cell = BitVec.ofNat 8 c.toNat) ∧
        (blockFails s r.val b.toNat = true → r.val ∉ bauxites → (r.val, b.toNat) ∈ t.quarantined ∧
          ∃ e ∈ t.evNet, e.code = evCode 1 r.val 0x3F2 ∧ e.block = BitVec.ofNat 8 b.toNat)) ∧
      (phaseOf s r.val = .draining ∨ phaseOf s r.val = .inReset ∨ phaseOf s r.val = .initialising →
        ∃ t, exec (.cellQuarantined r b c) s = .next t ∧ (ctlOf t r.val).deferred = (ctlOf s r.val).deferred ++ [(b.toNat, c.toNat)] ∧
          (ctlOf t r.val).reports = (ctlOf s r.val).reports + 1 ∧
          t.quarantined = s.quarantined ∧ t.evNet = s.evNet))

/-- A renewal of the holder in service whose pipeline has beaten since the last one, less than 64 microseconds after it, restarts the 64 microseconds and the agent's count and, unless it gives the lease up, undoes a lapse; any other changes nothing. The agent lapses 60 microseconds after the last one. At expiry, 64 microseconds after it, no region holds the lease, the guard of a fault of reason 3 begins, the old holder is lapsed, and LEASE_EXPIRED is raised and counted. After the guard of 8 microseconds, an eligible other region holds it (aligning while the timing runs); without one the lease stays as it is, NO_ELIGIBLE is raised with 1, and a cold takeover is awaited where SLT_LEASE_CTRL asks for it. SWITCH of a host with a holder and an eligible standby and none running begins the release; with none eligible it is refused with 1, during a change of the lease with 2, changing nothing else. SWITCH_RELEASE, once the lapsed holder's writes are acknowledged, tells the standby its last action and gives the lease up. A cold takeover not taken in 1 ms is given up with reason 2. Before its time none of these happens. -/
def Obligations.LeaseSwitchovers : Prop :=
  ∀ (s : State) (f : FlintId),
    (let renewed := withFlint { s with ctrl := { s.ctrl with lease := { s.ctrl.lease with renewedAt := s.now } } } f
        { flintOf s f with beat := false, lapsed := match s.ctrl.lease.step with | .releasing _ => (flintOf s f).lapsed | _ => false }
     holder s = some f → flintUp s f = true → (flintOf s f).beat = true → s.now < s.ctrl.lease.renewedAt + 64000 →
      exec (.leaseRenewal f) s = .next renewed) ∧
    (holder s ≠ some f ∨ flintUp s f = false ∨ (flintOf s f).beat = false ∨ s.ctrl.lease.renewedAt + 64000 ≤ s.now → exec (.leaseRenewal f) s = .next s) ∧
    (holder s = some f → s.ctrl.lease.renewedAt + 60000 ≤ s.now → exec (.agentLapse f) s = .next (withFlint s f { flintOf s f with lapsed := true })) ∧
    (holder s ≠ some f ∨ s.now < s.ctrl.lease.renewedAt + 60000 → exec (.agentLapse f) s = .next s) ∧
    (holder s = none ∨ s.now < s.ctrl.lease.renewedAt + 64000 → exec .leaseExpired s = .next s) ∧
    (holder s = some f → s.ctrl.lease.renewedAt + 64000 ≤ s.now → ∃ t, exec .leaseExpired s = .next t ∧ holder t = none ∧
      t.ctrl.lease.step = .guard 3 ∧ t.ctrl.lease.stepAt = s.now ∧ t.ctrl.lease.last = some f ∧
      (flintOf t f).lapsed = true ∧ readReg t sltLeaseExpiries = satAdd (readReg s sltLeaseExpiries) 1 ∧ tells t (evCode 3 0 0x151) (if f = .a then 1 else 2)) ∧
    (∀ reason, s.ctrl.lease.step = .guard reason → s.now < s.ctrl.lease.stepAt + 8000 → exec .leaseGuardEnd s = .next s) ∧
    (∀ reason, s.ctrl.lease.step = .guard reason → s.ctrl.lease.last = some f → s.ctrl.lease.stepAt + 8000 ≤ s.now →
      (reason ≠ 3 → reason < 16 → eligible s (otherFlint f) = true → ∃ t, exec .leaseGuardEnd s = .next t ∧ holder t = some (otherFlint f) ∧
        (flintOf t (otherFlint f)).shadow = .out ∧ (flintOf t (otherFlint f)).lapsed = false ∧ t.ctrl.lease.renewedAt = s.now ∧
        (s.scan.running = true → t.ctrl.lease.step = .aligning reason) ∧
        (s.scan.running = false → t.ctrl.lease.step = .idle ∧ getF t sltLeaseStatus 24 4 = reason ∧
          readReg t sltSwitchovers = satAdd (readReg s sltSwitchovers) 1 ∧ ∃ e ∈ t.evNet, e.code = evCode 3 0 0x150)) ∧
      (reason ≠ 3 → eligible s (otherFlint f) = false → ∃ t, exec .leaseGuardEnd s = .next t ∧ t.regs = s.regs ∧ oneEvent s t (evCode 3 0 0x152) 1 ∧
        t.ctrl.lease = { s.ctrl.lease with step := if getB s sltLeaseCtrl 4 then .cold else .idle, stepAt := s.now }) ∧
      (reason = 3 → flintUp s f = true → ∃ t, exec .leaseGuardEnd s = .next t ∧ phaseOf t (flintRegion f) = .draining)) ∧
    (∀ q, q ≠ .fp → slateUp s = true →
      (holder s = some f → s.ctrl.lease.step = .idle → eligible s (otherFlint f) = true → ∃ t, exec (.switch q) s = .next t ∧
        t.ctrl.lease = { s.ctrl.lease with step := .releasing 2 } ∧ holder t = some f ∧ t.evNet = s.evNet ∧
        (flintOf t f).lapsed = ((flintOf s f).lapsed || !s.scan.running)) ∧
      (s.ctrl.lease.step = .idle → (∀ g, holder s = some g → eligible s (otherFlint g) = false) →
        exec (.switch q) s = .next (raise (reqMeets s q 0) 2 0 0x153 1 0xFF 1)) ∧
      (s.ctrl.lease.step ≠ .idle → exec (.switch q) s = .next (raise (reqMeets s q 0) 2 0 0x153 1 0xFF 2))) ∧
    (∀ reason, s.ctrl.lease.step = .releasing reason → holder s = some f → (flintOf s f).lapsed = true →
      (fpWrites s f ≠ 0 → exec .switchRelease s = .next s) ∧
      (fpWrites s f = 0 → reason ≠ 5 → ∃ t, exec .switchRelease s = .next t ∧ holder t = none ∧ t.ctrl.lease.step = .guard reason ∧ t.ctrl.lease.last = some f ∧
        (shadowed s f = true → t.ctrl.lease.mirror = s.ctrl.lease.mirror ++ [.release (BitVec.ofNat 64 (flintOf s f).action)])) ∧
      (fpWrites s f = 0 → reason = 5 → flintUp s f = true → ∃ t, exec .switchRelease s = .next t ∧ holder t = none ∧ phaseOf t (flintRegion f) = .draining)) ∧
    (s.ctrl.lease.step = .cold → s.ctrl.lease.stepAt + 1000000 ≤ s.now → ∃ t, exec .coldTakeoverTimeout s = .next t ∧ t.ctrl.lease = { s.ctrl.lease with step := .idle } ∧
      oneEvent s t (evCode 3 0 0x152) 2) ∧
    (s.ctrl.lease.step ≠ .cold ∨ s.now < s.ctrl.lease.stepAt + 1000000 → exec .coldTakeoverTimeout s = .next s)

/-- The oldest mirror record on its way, arriving at the region that follows, joins the end of its records (a release record carries nothing out and is dropped when nothing stands before it); where 4,096 wait there, that region leaves the shadow run, its records gone. SELFTEST begins a round of all six items in each Flint region in service. SELFTEST_ITEM shows the item's outcome alone (the last item of a region that does not hold the lease being a test action, counted in every region in service), ends its round, and raises SELFTEST_FAILED where it failed. At the end of the round that a mismatch began: where the holder passed, the standby leaves the shadow run and drains for a reset; where only the standby passed, the holder begins to release the lease with reason 5; where neither passed, the standby drains and SELFTEST_FAILED is raised. Without a mismatch the end of a round changes nothing. -/
def Obligations.MirrorAndSelfTests : Prop :=
  ∀ (s : State) (f : FlintId),
    (∀ r rest, s.ctrl.lease.mirror = r :: rest → mirrorTo s = some f →
      ((flintOf s f).mirror.length < 4096 → ∃ t, exec (.mirrorRecord r) s = .next t ∧ t.ctrl.lease.mirror = rest ∧ t.regs = s.regs ∧
        ((∀ a l, (flintOf s f).mirror ++ [r] ≠ .release a :: l) → (flintOf t f).mirror = (flintOf s f).mirror ++ [r]) ∧
        (∀ a l, (flintOf s f).mirror ++ [r] = .release a :: l → (flintOf t f).mirror = l)) ∧
      (4096 ≤ (flintOf s f).mirror.length → (flintOf s f).shadow = .inShadow → ∃ t, exec (.mirrorRecord r) s = .next t ∧
        (flintOf t f).shadow ≠ .inShadow ∧ (flintOf t f).mirror = [] ∧ t.ctrl.lease.mirror = [] ∧ tells t (evCode 2 (flintRegion f) 0x111) 1)) ∧
    (∀ q, slateUp s = true → ∃ t, exec (.selftest q) s = .next t ∧ t.regs = s.regs ∧
      ∀ g, flintOf t g = if flintUp s g then { flintOf s g with rounds := 63 } else flintOf s g) ∧
    (∀ (i : Fin 6) (passed : Bool), flintUp s f = true → s.ctrl.lease.step ≠ .cold → ∃ t, exec (.selftestItem f i passed) s = .next t ∧
      bitAt (flintOf t f).selftest i.val = passed ∧ (∀ k : Fin 6, k ≠ i → bitAt (flintOf t f).selftest k.val = bitAt (flintOf s f).selftest k.val) ∧
      bitAt (flintOf t f).rounds i.val = false ∧ flintOf t (otherFlint f) = flintOf s (otherFlint f) ∧ holder t = holder s ∧
      (passed = false → tells t (evCode 2 (flintRegion f) 0x113) i.val) ∧
      (∀ r, r < 16 → readReg t (r * 0x100000 + 8) =
        if i = 5 ∧ holder s ≠ some f ∧ serves s r = true then satAdd (readReg s (r * 0x100000 + 8)) 1 else readReg s (r * 0x100000 + 8))) ∧
    (s.ctrl.lease.mismatch = true → holder s = some f →
      let g := otherFlint f
      ∀ passed : FlintId → Bool,
        let c : Instr := .selftestRoundEnd (passed .a) (passed .b)
        (passed f = true → flintUp s g = true → ∃ t, exec c s = .next t ∧ t.ctrl.lease.mismatch = false ∧ holder t = some f ∧
          (flintOf t g).shadow = .out ∧ phaseOf t (flintRegion g) = .draining ∧ (flintOf t f).rounds = 0) ∧
        (passed f = false → passed g = true → ∃ t, exec c s = .next t ∧ t.ctrl.lease = { s.ctrl.lease with mismatch := false, step := .releasing 5 } ∧
          holder t = some f ∧ t.evNet = s.evNet ∧ (flintOf t f).rounds = 0 ∧ (flintOf t g).rounds = 0) ∧
        (passed f = false → passed g = false → flintUp s g = true → ∃ t, exec c s = .next t ∧ holder t = some f ∧
          phaseOf t (flintRegion g) = .draining ∧ ∃ e ∈ t.evNet, e.code = evCode 2 (flintRegion f) 0x113)) ∧
    (s.ctrl.lease.mismatch = false → ∀ a b, exec (.selftestRoundEnd a b) s = .next s)


/-- While Mica serves; each access meets the others of its clock. UPDATE_REQUEST makes the staged registers, with the planes that admission refuses, the pending update, counting one it replaces. PLANE_MARK adds marks of planes 1 to 7. A LUT write lands, unless the live or the pending set selects its bank: then it is only counted. BLIT_START sets the other fields and latches every register: with no reason to refuse, that blit runs and BUSY shows; with a blit running it is refused with 1 and the running one stays; else REFUSED and the reason show; each refusal is raised. BLIT_ABORT marks the running blit. A blit that copies the pattern (ROP 0xF0) without a mask, inside DRAM in service and over no poisoned word, done: every pixel of its rectangle holds FG, every byte outside its pixels is as before, the blit is over, RESULT is DONE and it is counted. -/
def Obligations.MicaUpdatesAndBlits : Prop :=
  ∀ (s : State), serves s 13 = true →
    (∀ q, ∃ t, exec (.updateRequest q) s = .next t ∧
      t.mica.pending = some { micaStaged s with refused := (admission s (micaStaged s)).map fun e => e.1 } ∧ t.mica.live = s.mica.live ∧
      t.mica.front = s.mica.front ∧ getB t mcaUpdateStatus 24 = true ∧ t.mem = s.mem ∧
      readReg t mcaUpdatesReplaced = (if s.mica.pending.isSome then satAdd (readReg s mcaUpdatesReplaced) 1 else readReg s mcaUpdatesReplaced)) ∧
    (∀ q v, ∃ t, exec (.planeMark q v) s = .next t ∧ t.mica = { s.mica with marks := s.mica.marks ||| v.toNat % 256 / 2 * 2 } ∧
      getF t mcaUpdateStatus 0 8 = (s.mica.marks ||| v.toNat % 256 / 2 * 2) % 256) ∧
    (∀ q (a : BitVec 24) v,
      let sets := s.mica.live :: s.mica.pending.toList
      (∀ n b i, n < 8 → b < 2 → i < 3072 → a.toNat = 0xD40000 + 4 * (6144 * n + 3072 * b + i) →
        exec (.lutWrite q a v) s = .next (if sets.any fun m => (planeOf m n).prelut == b + 1 then bump (reqMeets s q 13) mcaLutBlocked else writeKey (reqMeets s q 13) a.toNat v)) ∧
      (∀ b i, b < 2 → i < 12291 → a.toNat = 0xD80000 + 4 * (12291 * b + i) →
        exec (.lutWrite q a v) s = .next (if sets.any fun m => fld m.compose 0 2 == b + 1 then bump (reqMeets s q 13) mcaLutBlocked else writeKey (reqMeets s q 13) a.toNat v))) ∧
    (∀ q v, flag v 30 = false →
      let u := writeKey (reqMeets s q 13) mcaBltCtrl (v ||| 0x80000000)
      let b := bltLatch u
      (bltRefusal u b = 0 → s.mica.blit = none ∧ ∃ t, exec (.blitStart q v) s = .next t ∧ t.mica = { s.mica with blit := some b } ∧
        readReg t mcaBltStatus = 0x80000000 ∧ t.mem = s.mem ∧ t.evNet = s.evNet) ∧
      (s.mica.blit.isSome = true → exec (.blitStart q v) s = .next (raise u 1 13 0x051 8 0xFF 1)) ∧
      (s.mica.blit = none → bltRefusal u b ≠ 0 →
        exec (.blitStart q v) s = .next (raise (setReg u mcaBltStatus (BitVec.ofNat 32 (4 * 2 ^ 24 + bltRefusal u b % 256 * 65536))) 1 13 0x051 8 0xFF (bltRefusal u b)))) ∧
    (∀ q, exec (.blitAbort q) s = .next { reqMeets s q 13 with mica := { s.mica with blit := s.mica.blit.map fun b => { b with aborting := true } } }) ∧
    (∀ done, s.mica.blit = none → exec (.blitDone done) s = .next s) ∧
    (∀ b done, s.mica.blit = some b → b.aborting = false → bltRop b = 0xF0 → flag b.ctrl 5 = false → dramUp s = true →
      bltAligned (bltBpp b) b.dst b.dstPitch b.dstPos b.size = true → (bltRange (bltBpp b) b.dst b.dstPitch b.dstPos b.size).2 ≤ dramTop s →
      0 < b.size.1 → 0 < b.size.2 →
      let px (i j : Nat) : Nat := bltAddr (bltBpp b) b.dst b.dstPitch b.dstPos i j
      (∀ w, w ∈ s.poison → ∀ i j, i < b.size.1 → j < b.size.2 → px i j + bltBpp b ≤ 8 * w ∨ 8 * w + 8 ≤ px i j) →
      ∃ t, exec (.blitDone done) s = .next t ∧ t.mica.blit = none ∧ getF t mcaBltStatus 24 7 = 1 ∧
        readReg t mcaBltCount = satAdd (readReg s mcaBltCount) 1 ∧
        (∀ i j, i < b.size.1 → j < b.size.2 → readLe t (px i j) (bltBpp b) = b.fg.toNat % 2 ^ (8 * bltBpp b)) ∧
        (∀ a, (∀ i j, i < b.size.1 → j < b.size.2 → a < px i j ∨ px i j + bltBpp b ≤ a) → readByte t a = readByte s a))

/-- While Obsidian serves. TIMING_START, with a holder, in the power-on step that waits for it and in the nanosecond in which a frame of the schedule starts, starts the scan before slot 0 of frame 0 with backlight off; otherwise nothing. A line start of the unlapsed holder (a new one only once it has consumed its mirror records) while the timing runs, not held and with no lag, begins slot 0 of the first frame, or the next slot, or after the last slot the next phase, or after the last phase the next frame (modulo 2^32); with a lag it leaves out blanking slots, before the last one, for whole slots of it, and with a lead it inserts one; its time is kept. Of a power-off the phase start after the last frame of fill stops the timing, at the last position scanned. A lapsed holder's changes nothing. In the shadow run one of the standby within 20 ns shows its timing item passed, one later, or none at all in a slot of the holder's, is a mismatch. SCAN_HOLD of a scan that has begun holds it, counts, drops commands and rests the gates, but for pulses already begun; a hold of 1 ms brings a driven panel to the safe state with reason 3. WAVE_COMMIT waits for a frame start. MODE asks for pewter mode, or to leave it, at one. -/
def Obligations.ScanProceeds : Prop :=
  ∀ (s : State), serves s 14 = true →
    (s.obs.step = .waitFrame → s.scan.running = false → (holder s).isSome = true → frameNow s = true → ∃ t, exec .timingStart s = .next t ∧
      t.scan = { running := true, paired := s.scan.paired } ∧ t.obs.step = .firstFrames ∧ t.stripes.past = none ∧ t.obs.state = s.obs.state) ∧
    (s.obs.step ≠ .waitFrame ∨ s.scan.running = true ∨ holder s = none ∨ frameNow s = false → exec .timingStart s = .next s) ∧
    (∀ f skew, s.scan.running = true → flintUp s f = true → holder s = some f →
      ((flintOf s f).lapsed = true ∨ mayAlign s f = false → exec (.lineStart f skew) s = .next s) ∧
      ((flintOf s f).lapsed = false → mayAlign s f = true → s.scan.held = false → ∃ t, exec (.lineStart f skew) s = .next t ∧ t.ctrl.lease.lineAt = s.now ∧
        (let place := (t.scan.frame, t.scan.phase, t.scan.slot)
         let n := s.scan.slot + 1
         let vt := phaseSlots s
         let T : Int := slotPs s
         (s.ctrl.lease.lineDue = true → s.ctrl.lease.lineSeen = false → (flintOf s (otherFlint f)).shadow = .inShadow → s.ctrl.lease.step = .idle →
           s.ctrl.lease.mismatch = false → t.ctrl.lease.mismatch = true ∧
           tells t (evCode 2 (flintRegion (otherFlint f)) 0x112) (2 + 16 * (s.scan.slot % 2 ^ 28))) ∧
         (s.scan.begun = false → (∀ last, s.obs.step ≠ .fillFrames last) → place = (s.scan.frame, s.scan.phase, 0) ∧ t.scan.begun = true) ∧
         (∀ last, s.scan.begun = true → vt ≤ n → s.obs.step = .fillFrames last → scanPhases s ≤ s.scan.phase + 1 → (s.scan.frame + 1) % 2 ^ 32 = (last + 1) % 2 ^ 32 →
           t.scan.running = false ∧ place = (last, scanPhases s - 1, vt - 1) ∧ t.obs.step = .offDelay) ∧
         (s.scan.begun = true → vt ≤ n → (∀ last, s.obs.step ≠ .fillFrames last) →
           place = (if s.scan.phase + 1 < scanPhases s then (s.scan.frame, s.scan.phase + 1, 0) else ((s.scan.frame + 1) % 2 ^ 32, 0, 0))) ∧
         (s.scan.begun = true → n < vt → s.scan.lag = 0 → 0 < T → place = (s.scan.frame, s.scan.phase, n) ∧ t.scan.lag = 0) ∧
         (s.scan.begun = true → n < vt - 1 → activeSlots s < n → 0 < s.scan.lag → vt - 1 - n ≤ min (s.scan.lag / T).toNat (spareSlots s) →
           place = (s.scan.frame, s.scan.phase, vt - 1) ∧ t.scan.lag = s.scan.lag - ((vt - 1 - n : Nat) : Int) * T) ∧
         (s.scan.begun = true → 0 < s.scan.slot → n < vt → n = vt - 1 → s.scan.lag ≤ -T → s.scan.lag < 0 → s.scan.inserted < spareSlots s →
           place = (s.scan.frame, s.scan.phase, s.scan.slot) ∧ t.scan.lag = s.scan.lag + T)))) ∧
    (∀ f skew, s.scan.running = true → flintUp s f = true → holder s ≠ some f →
      ((flintOf s f).shadow ≠ .inShadow → exec (.lineStart f skew) s = .next s) ∧
      ((flintOf s f).shadow = .inShadow → -20000 ≤ skew → skew ≤ 20000 → ∃ t, exec (.lineStart f skew) s = .next t ∧
        flintOf t f = { flintOf s f with selftest := (flintOf s f).selftest ||| 4 } ∧ t.scan = s.scan) ∧
      ((flintOf s f).shadow = .inShadow → 20000 < skew → s.ctrl.lease.step = .idle → s.ctrl.lease.mismatch = false → ∃ t, exec (.lineStart f skew) s = .next t ∧
        t.ctrl.lease.mismatch = true ∧ (flintOf t f).rounds = 63 ∧ tells t (evCode 2 (flintRegion f) 0x112) (2 + 16 * (s.scan.slot % 2 ^ 28)))) ∧
    (s.scan.running = true → s.scan.begun = true → s.scan.held = false → ∃ t, exec .scanHold s = .next t ∧ t.scan = { s.scan with held := true } ∧
      readReg t obsHolds = satAdd (readReg s obsHolds) 1 ∧ t.obs.sent = [] ∧ t.obs.gtPulses = (s.obs.gtPulses.filter fun p => decide (p.from_ < slotLen s)) ∧ t.obs.gtLevel = gtIdle s ∧ t.obs.blp = s.obs.blp) ∧
    (s.scan.running = true → s.scan.held = true → panelDriven s → ∃ t, exec .holdTimeout s = .next t ∧ discharging t 3 0 ∧ firstEvent s t (evCode 3 14 0x090) 3) ∧
    (s.scan.running = false ∨ s.scan.held = false → exec .holdTimeout s = .next s) ∧
    (∀ q, exec (.waveCommit q) s = .next { reqMeets s q 14 with obs := { s.obs with commit := true } }) ∧
    (∀ q v, fld v 0 2 = 0 → flag v 9 = false →
      let u := writeKey (reqMeets s q 14) obsPanelCtrl v
      (fld v 2 2 = 1 → s.scan.paired = false → s.obs.pewterWhy = 0 → exec (.panelMode q v) s = .next { u with obs := { s.obs with pewterWhy := 1, pewterExit := false } }) ∧
      (fld v 2 2 = 0 → s.scan.paired = true → exec (.panelMode q v) s = .next { u with obs := { s.obs with pewterExit := true } }))

/-- While Obsidian serves; each access meets the others of its clock. ON with the panel OFF makes it POWERING_ON and asks for script 0; OFF with it ON waits for the next phase start; an opposite request while it powers on is held. Training done in its step sends IDENTIFY, CONFIG_WRITE and POL_MODE; a map load of the boot begins then and reads nothing before IDENTIFY's reply; the identity block gives the serial, asks for script 1, and lets a load from the panel read its header at MAP_OFFSET; a STATUS_READ reply is kept; bytes of the map's FLASH_READ join those read. RUN asks for user script 6 or 7 and MONITOR's period for script 5; asked with none running a script starts, else, or while Slate drives the port, it waits its turn. An entry answered moves the script on; a poll that reads its value moves on, at its end's expiry fails with 3, else polls again; a NACK is tried four times, then fails with 1, a stretch with 2: the port's status shows it and PMIC_FAULT is raised. A script at its end is over: of script 0 the lanes train next, of script 1 SAFE goes to every driver and the gates rest, of the 2 ms after the scan, script 2 runs. -/
def Obligations.PanelPowerAndScripts : Prop :=
  ∀ (s : State), serves s 14 = true →
    let asked (t : State) (n : Nat) (why : ScriptFor) : Prop :=
      (s.obs.script = none → s.obs.scriptQ = [] → slateDrives s = false → t.obs.script = some ⟨n, 0, why, false, 0⟩ ∧ t.obs.scriptQ = [] ∧ getB t obsPmicCtrl 31 = true) ∧
      (s.obs.script.isSome = true ∨ slateDrives s = true → t.obs.script = s.obs.script ∧ t.obs.scriptQ = s.obs.scriptQ ++ [(n, why)])
    (∀ q, s.obs.state = .off → s.obs.safeCause = none → s.obs.afterOff = 0 → ∃ t, exec (.panelPowerOn q) s = .next t ∧ t.obs.state = .poweringOn ∧ t.obs.step = .logicOn ∧
      getF t obsPanelStatus 29 3 = 1 ∧ asked t 0 .sequence) ∧
    (∀ q, s.obs.state = .on → s.obs.safeCause = none → s.obs.step ≠ .offRequested →
      exec (.panelPowerOff q) s = .next { reqMeets s q 14 with obs := { s.obs with step := .offRequested } } ∧ exec (.panelPowerOn q) s = .next (reqMeets s q 14)) ∧
    (∀ q, s.obs.state = .poweringOn → exec (.panelPowerOff q) s = .next { reqMeets s q 14 with obs := { s.obs with heldReq := some false } }) ∧
    (s.obs.step = .training → panelTrained s = true → s.obs.mapAtTraining = false → ∃ t a v, exec .panelTrainingDone s = .next t ∧ t.obs.step = .identify ∧
      t.obs.sent = [⟨0, 6, 0, 0, .bytes []⟩, ⟨12, 3, 0xFF, a, v⟩, ⟨12, 5, 0xFF, s.obs.pol + 8 * b2n s.scan.paired, .bytes []⟩] ∧
      t.obs.polTold = s.obs.pol + 8 * b2n s.scan.paired ∧ t.obs.state = s.obs.state) ∧
    (s.obs.step = .training → panelTrained s = true → s.obs.mapAtTraining = true → s.calmap.load = none → s.obs.identified = false → ∃ t, exec .panelTrainingDone s = .next t ∧
      t.obs.step = .identify ∧ t.obs.mapAtTraining = false ∧ t.calmap.load = some ⟨false, addr40 s obsCalmapAddrLo obsCalmapAddrHi⟩ ∧
      t.calmap.asked = false ∧ t.obs.sent.length = 3) ∧
    (∀ (block : List Byte) st, s.obs.step = .identify → block.length = 32 → s.calmap.load = some st → st.dram = false → s.calmap.readDone = false →
      s.calmap.asked = false → s.calmap.waitDram = false → drvFree s = true → ∃ t, exec (.panelIdentifyReply block) s = .next t ∧ t.calmap.asked = true ∧
      t.obs.sent = s.obs.sent ++ [⟨0, 7, 0, leAt block 20 4, .bytes [64, 0, 0, 0]⟩]) ∧
    (∀ block : List Byte, s.obs.step = .identify → block.length = 32 → s.calmap.load = none → ∃ t, exec (.panelIdentifyReply block) s = .next t ∧
      t.obs.step = .driveOn ∧ t.obs.ident = block ∧ t.obs.identified = true ∧
      (∀ i, i < 4 → readReg t (obsPanelSerial i) = BitVec.ofNat 32 (leAt block (4 * i) 4)) ∧ asked t 1 .sequence) ∧
    (∀ data st, s.calmap.load = some st → st.dram = false → s.calmap.readDone = false → s.calmap.asked = true → ∃ t, exec (.panelFlashReadReply data) s = .next t ∧
      t.calmap = { s.calmap with read := s.calmap.read ++ data.take (flashAsk s.calmap.read) } ∧ t.regs = s.regs) ∧
    (∀ g d v, exec (.statusReadReply g d v) s = .next { s with obs := { s.obs with statusReply := some (g.val, d.toNat, v) } }) ∧
    (∀ q v, flag v 3 = true → 6 ≤ fld v 0 3 → ∃ t, exec (.pmicRun q v) s = .next t ∧ asked t (fld v 0 3) .user) ∧
    (∀ q v, flag v 3 = false → exec (.pmicRun q v) s = .next (writeKey (reqMeets s q 14) obsPmicCtrl v)) ∧
    (getF s obsPmicCtrl 12 8 ≠ 0 → s.obs.safeCause = none → s.obs.state ≠ .safe → ∃ t, exec .pmicMonitor s = .next t ∧ asked t 5 .monitor) ∧
    (s.obs.step = .offDelay → ∃ t, exec .driveOffDelay s = .next t ∧ t.obs.step = .driveOff ∧ asked t 2 .sequence) ∧
    (∀ r, s.obs.script = some r → s.obs.afterOff = 0 →
      let w := scriptWord s r
      let moved : State := portShow { s with obs := { s.obs with script := some { r with entry := r.entry + 1, nacks := 0 } } }
      let failed (x : PmicResult) (st : Nat) : Prop := r.why = .user → s.obs.scriptQ = [] → r.script < 8 → r.entry < 16 → ∃ t, exec (.pmicEntry x) s = .next t ∧
        t.obs.script = none ∧ getB t obsPmicCtrl 31 = false ∧ getF t obsPmicCtrl 20 3 = st ∧ getF t obsPmicCtrl 23 4 = r.entry ∧ getF t obsPmicCtrl 27 3 = r.script ∧
        oneEvent s t (evCode 2 14 0x083) (r.script + 16 * r.entry + 256 * st)
      (scriptAtEnd s r = false →
        (flag w 31 = false → exec (.pmicEntry .done) s = .next moved) ∧
        (∀ v e, flag w 31 = true → v &&& BitVec.ofNat 8 (fld w 8 8) = BitVec.ofNat 8 (fld w 0 8) → exec (.pmicEntry (.read v e)) s = .next moved) ∧
        (∀ v, flag w 31 = true → v &&& BitVec.ofNat 8 (fld w 8 8) ≠ BitVec.ofNat 8 (fld w 0 8) →
          exec (.pmicEntry (.read v false)) s = .next s ∧ failed (.read v true) 3) ∧
        (fld w 29 3 ≠ 2 → r.nacks < 3 → exec (.pmicEntry .nack) s = .next { s with obs := { s.obs with script := some { r with nacks := r.nacks + 1 } } }) ∧
        (fld w 29 3 ≠ 2 → 3 ≤ r.nacks → failed .nack 1) ∧ (fld w 29 3 ≠ 2 → failed .stretch 2) ∧
        exec .pmicScriptDone s = .next s) ∧
      (scriptAtEnd s r = true → s.obs.scriptQ = [] → r.why = .sequence →
        (s.obs.step = .logicOn → ∃ t, exec .pmicScriptDone s = .next t ∧ t.obs.step = .training ∧ t.obs.script = none ∧ getF t obsPmicCtrl 20 3 = 0) ∧
        (s.obs.step = .driveOn → ∃ t, exec .pmicScriptDone s = .next t ∧ t.obs.step = .waitFrame ∧ t.obs.sent = [⟨12, 2, 0xFF, 0, .bytes []⟩] ∧ t.obs.gtLevel = gtIdle t)))

/-- While Obsidian serves. START with no load running latches source and address and begins (from the panel, DRAM in service and its identity block known, with a FLASH_READ of the header at MAP_OFFSET, at once or in the next blanking slot), BUSY showing; with a load running it waits, discarding an older waiting start. With no load, or one that waits for DRAM, a read's end changes nothing. When a panel map's last byte has been read, and the serial is not known, the bytes stand in a buffer that holds neither the map in use nor a staged one, and the checks wait. Otherwise they run on the bytes read, of a DRAM map those of DRAM now; a panel read that times out fails check 1. The outcome: a map that is rejected leaves nothing but the buffer's bytes and the report of the check; an accepted one is staged from the frame being scanned, with CALMAP_LOADED and its size, unless a stripe of its frame or a later one has been launched already: then it takes effect at once; one whose residuals alone fail is staged as parametric unless the newest map is full. The load is then over. -/
def Obligations.CalibrationMapLoads : Prop :=
  ∀ (s : State), serves s 14 = true →
    let serial := sliceBytes s.obs.ident 0 16
    let buf := if s.calmap.readDone then s.calmap.buf else freeBuffer s.calmap
    let kept (t : State) (b : Nat) : Prop := ∀ k, k < mapBuffer s b ∨ mapBuffer s b + 0x140000 ≤ k → readByte t k = readByte s k
    let from_ := if s.scan.running then s.scan.frame else 0
    let f := firstUnlaunched s.calmap.launched (s.calmap.launched.length + 1) from_
    let early := s.gal.toList.any fun g => g.launches.any fun l => frameGe l.record.frame.toNat f
    let staged (t : State) (m : MapRec) : Prop :=
      (early = false → t.calmap.staged = some m ∧ t.calmap.stagedFrom = from_ ∧ t.calmap.inUse = s.calmap.inUse) ∧
      (early = true → t.calmap.staged = none ∧ t.calmap.inUse = some m ∧ t.calmap.before = s.calmap.inUse ∧ readReg t obsCalmapFrame = BitVec.ofNat 32 f ∧
        getF t obsCalmapStatus 26 2 = kindCode m.kind)
    let closed (t : State) : Prop := t.calmap.load = none ∧ t.calmap.read = [] ∧ getB t obsCalmapStatus 31 = false
    let outcome (t : State) (got : List Byte) (failed : Bool) : Prop :=
      let rej := mapRejects s got failed serial
      closed t ∧ kept t buf ∧
      (rej ≠ 0 → t.calmap.staged = s.calmap.staged ∧ t.calmap.inUse = s.calmap.inUse ∧ getF t obsCalmapStatus 24 2 = 3 ∧ getF t obsCalmapStatus 0 4 = rej % 16 ∧
        tells t (evCode 2 14 0x0C2) rej) ∧
      (rej = 0 → mapDrops got ≠ 0 → getF t obsCalmapStatus 24 2 = 2 ∧ tells t (evCode 2 14 0x0C1) (mapDrops got) ∧
        (newestKind s.calmap = .full → t.calmap.staged = s.calmap.staged ∧ t.calmap.inUse = s.calmap.inUse) ∧
        (newestKind s.calmap ≠ .full → staged t ⟨buf, .parametric, 0, got.take 128, []⟩)) ∧
      (rej = 0 → mapDrops got = 0 → getF t obsCalmapStatus 24 2 = 1 ∧ tells t (evCode 2 14 0x0C0) (mapU got 8 4) ∧
        staged t ⟨buf, .full, (mapSubst got).length, got.take 128, mapSubst got⟩)
    (∀ q v, flag v 0 = true →
      let w := writeKey (reqMeets s q 14) obsCalmapCtrl v
      let st : MapStart := ⟨getB w obsCalmapCtrl 1, addr40 w obsCalmapAddrLo obsCalmapAddrHi⟩
      let asks := !st.dram && dramUp s && s.obs.identified
      let header : DrvCmd := ⟨0, 7, 0, leAt s.obs.ident 20 4, .bytes [64, 0, 0, 0]⟩
      (s.calmap.load = none → ∃ t, exec (.calmapStart q v) s = .next t ∧
        t.calmap = { s.calmap with load := some st, read := [], readDone := false, readFailed := false, asked := asks, waitDram := !dramUp s } ∧
        t.obs.sent = s.obs.sent ++ (if asks && drvFree s then [header] else []) ∧
        t.obs.drvWait = s.obs.drvWait ++ (if asks && !drvFree s then [header] else []) ∧ getB t obsCalmapStatus 31 = true) ∧
      (s.calmap.load.isSome = true → ∃ t, exec (.calmapStart q v) s = .next t ∧ t.calmap = { s.calmap with waiting := some st } ∧
        t.obs = s.obs ∧ getB t obsCalmapStatus 30 = true)) ∧
    (s.calmap.load = none ∨ s.calmap.waitDram = true → exec .calmapReadDone s = .next s ∧ exec .calmapReadTimeout s = .next s) ∧
    (∀ st, s.calmap.load = some st → s.calmap.waitDram = false →
      (st.dram = true ∨ s.calmap.readDone = true → exec .calmapReadTimeout s = .next s) ∧
      (st.dram = false → s.calmap.readDone = false → s.obs.identified = false → s.calmap.readFailed = false → ∃ t, exec .calmapReadDone s = .next t ∧
        t.calmap = { s.calmap with readDone := true, buf := buf } ∧ kept t buf ∧
        (dramStatus s (mapBuffer s buf) (s.calmap.read.take 0x140000).length = 0 →
          readBytes t (mapBuffer s buf) (s.calmap.read.take 0x140000).length = s.calmap.read.take 0x140000)) ∧
      (s.calmap.waiting = none →
        (st.dram = false → s.calmap.readDone = false → ∃ t, exec .calmapReadTimeout s = .next t ∧ closed t ∧ t.calmap.staged = s.calmap.staged ∧
          t.calmap.inUse = s.calmap.inUse ∧ t.mem = s.mem ∧ getF t obsCalmapStatus 24 2 = 3 ∧ getF t obsCalmapStatus 0 4 = 1 ∧ tells t (evCode 2 14 0x0C2) 1) ∧
        (s.obs.identified = true → st.dram = false ∨ s.calmap.readDone = true → ∃ t, exec .calmapReadDone s = .next t ∧
          outcome t s.calmap.read s.calmap.readFailed) ∧
        (s.obs.identified = true → st.dram = true → s.calmap.readDone = false →
          let total := if readStatus s 14 st.addr 64 = 0 then max 64 (min (readLe s (st.addr + 8) 4) 0x140000) else 64
          let bad := readStatus s 14 st.addr total != 0
          ∃ t, exec .calmapReadDone s = .next t ∧ outcome t (if bad then [] else readBytes s st.addr total) (s.calmap.readFailed || bad))))

/-- ONDIE_SENSOR_UPDATE of a valid sensor by a raw value in range keeps its temperature (SG times K_raw over 64 less 273.15 degrees) as newest of 16 and shows it, while it does not stand apart from both neighbours and no shutdown follows; an incomplete one breaks it. THROTTLE_STEP is one step slower 100 ms after the last while the condition holds, one faster 1 s after it while it is clear and the junction is cool, the slowest while DEGRADED, and nothing before its time. The ADC cycle with no input connected leaves T_p at its default before any measurement, and holds it after one. The hold's expiry, 60 s held, takes the default. DRAM's over-temperature that has forced the throttle for 10 s shuts down: with the panel safe the record is in the log, every region off, STANDBY, cause 5, cooling; with it on, or off, first the steps of the safe panel state run, the record waiting. CAL_START of a host counts a run and begins it, not of the frame program or while one runs; CLEAR_RETIRED with its key is logged. CAL_DONE whose gain and offset are rejected ends FAILED with the constants as before; accepted, both take effect. -/
def Obligations.ThermalAndCalibration : Prop :=
  ∀ (s : State),
    (∀ i : Fin 60, dieValid s i = true →
      (∀ k, let T := dieTemp (s.therm.sg[i]) k; (-640 ≤ T) → T ≤ 2400 → apartFrom s i T = false →
        (∀ a r, (s.therm.die[i]).hist = a :: r → T < 16 * (getF s sltThermCtrl 16 8 : Nat) ∨ a < 16 * (getF s sltThermCtrl 16 8 : Nat)) →
        ∃ t, exec (.ondieSensorUpdate i (.raw k)) s = .next t ∧ (t.therm.die[i]).hist = (T :: (s.therm.die[i]).hist).take 16 ∧
          (t.therm.die[i]).broken = false ∧ readReg t (sltTemp i.val) = BitVec.ofNat 32 (2 ^ 31 + wrapInt T 16) ∧ t.power.mode = s.power.mode) ∧
      (∃ t, exec (.ondieSensorUpdate i .incomplete) s = .next t ∧ (t.therm.die[i]).broken = true ∧ (t.therm.die[i]).hist = [] ∧
        getF t (sltTemp i.val) 30 2 = 1 ∧ tells t (evCode 1 0 0x143) (i.val + 256))) ∧
    (∀ i v, dieValid s i = false → exec (.ondieSensorUpdate i v) s = .next s) ∧
    (let n := getF s sltThermStatus 29 3
     let m := throttleMoves s
     (getB s sltThermStatus 25 = true → ∃ t, exec .throttleStep s = .next t ∧ getF t sltThermStatus 29 3 = 4) ∧
     (getB s sltThermStatus 25 = false → m = s.therm.moves →
       (getB s sltThermStatus 28 = true → s.therm.stepFrom + 100000000 ≤ s.now → n < 4 → ∃ t, exec .throttleStep s = .next t ∧
         getF t sltThermStatus 29 3 = n + 1 ∧ t.therm.stepFrom = s.now ∧ oneEvent s t (evCode 2 0 0x141) (n + 1 + 65536 * stepMhz (n + 1))) ∧
       (getB s sltThermStatus 28 = false → signedOf (getF s sltThermStatus 0 16) 16 < 16 * (getF s sltThermCtrl 8 8 : Nat) - 80 →
         s.therm.stepFrom + 1000000000 ≤ s.now → 0 < n → ∃ t, exec .throttleStep s = .next t ∧
         getF t sltThermStatus 29 3 = n - 1 ∧ t.therm.stepFrom = s.now ∧ oneEvent s t (evCode 2 0 0x141) (n - 1 + 65536 * stepMhz (n - 1))) ∧
       (m = 0 ∨ (m = 1 ∧ s.now < s.therm.stepFrom + 100000000) ∨ (m = 2 ∧ s.now < s.therm.stepFrom + 1000000000) → exec .throttleStep s = .next s)) ∧
     (getB s sltThermStatus 25 = false → m ≠ s.therm.moves → exec .throttleStep s = .next { s with therm := { s.therm with moves := m, stepFrom := s.now } })) ∧
    (∀ c, s.therm.cal = none → s.power.mode = .run → (∀ n, n < 4 → getB s (sltRemoteCtrl n) 14 = false ∧ getB s (sltPthCtrl n) 31 = false) →
      (s.therm.measured = true → exec (.adcCycle c) s = .next (setF s sltPanelTemp 31 1 1)) ∧
      (s.therm.measured = false → ∃ t, exec (.adcCycle c) s = .next t ∧
        getF t sltPanelTemp 0 16 = wrapInt (16 * signedOf (getF s sltPanelTemp 20 8) 8) 16 ∧ getF t sltPanelTemp 16 3 = t.obs.bandNow % 8)) ∧
    (getB s sltPanelTemp 31 = true → s.therm.cal = none → 60000000000 ≤ s.therm.heldFor → ∃ t, exec .panelTempHoldExpired s = .next t ∧ getB t sltPanelTemp 31 = false ∧
      t.therm.measured = false ∧ getF t sltPanelTemp 0 16 = wrapInt (16 * signedOf (getF s sltPanelTemp 20 8) 8) 16) ∧
    (getB s sltPanelTemp 31 = false ∨ s.therm.heldFor < 60000000000 → exec .panelTempHoldExpired s = .next s) ∧
    (getB s sltThermStatus 26 = false ∨ s.therm.forcedAt = none → exec .dramOvertempPersist s = .next s) ∧
    (∀ since, s.therm.forcedAt = some since → s.now < since + 10000000000 → exec .dramOvertempPersist s = .next s) ∧
    (∀ since, s.therm.forcedAt = some since → since + 10000000000 ≤ s.now → getB s sltThermStatus 26 = true → s.therm.trip = none → s.power.mode = .run → s.obs.safeCause = none →
      (s.obs.state = .safe → s.power.resetWaits = false →
        ∃ t rec_, exec .dramOvertempPersist s = .next t ∧ t.power.mode = .standby ∧ t.power.refclkEn = false ∧ allOff t ∧ t.therm.cooling = true ∧ t.therm.trip = none ∧
          t.slate.log.entries = s.slate.log.entries ++ [.loss 5 4, .record rec_] ∧ rec_.take 3 = [0x10, 3, 0xFF] ∧ getF t sltWakeStatus 24 4 = 5 ∧ s.now ∈ t.therm.shutdowns) ∧
      (s.obs.state ≠ .safe →
        ∃ t rec_, exec .dramOvertempPersist s = .next t ∧ discharging t 5 4 ∧ t.therm.trip = some rec_ ∧ rec_.take 3 = [0x10, 3, 0xFF] ∧ t.power.mode = .run ∧
          tells t (evCode 3 14 0x090) 5)) ∧
    (∀ q v, slateUp s = true → flag v 3 = false →
      (flag v 0 = true → q ≠ .fp → s.therm.cal = none → ∃ t, exec (.calStart q v) s = .next t ∧ t.therm.cal = some (getB t sltCalCtrl 2) ∧
        readReg t sltCalRuns = satAdd (readReg s sltCalRuns) 1 ∧ getB t sltCalStatus 31 = true ∧ getF t sltCalStatus 8 8 = 0) ∧
      (flag v 0 = false ∨ q = .fp ∨ s.therm.cal.isSome = true → exec (.calStart q v) s = .next (writeKey (reqMeets s q 0) sltCalCtrl v))) ∧
    (∀ q v, slateUp s = true → flag v 3 = true → fld v 16 16 = 0xCA1B → flag v 0 = false → ∃ t, exec (.clearRetired q v) s = .next t ∧
      t.slate.log.clear = true ∧ t.slate.log.entries = s.slate.log.entries ++ [.retiredCleared] ∧ t.retired = s.retired ∧ t.quarantined = s.quarantined) ∧
    (∀ m force, s.therm.cal = some force →
      let r := calAdc s m force
      (r.1.2 ≠ 0 ∨ r.2.2 ≠ 0 → ∃ t, exec (.calDone m) s = .next t ∧ t.therm.cal = none ∧ t.therm.sg = s.therm.sg ∧
        readReg t sltCalGain = readReg s sltCalGain ∧ getF t sltCalOffset 0 16 = getF s sltCalOffset 0 16 ∧ getF t sltCalStatus 28 3 = 3 ∧ getB t sltCalStatus 31 = false) ∧
      (r.1.2 = 0 → r.2.2 = 0 → ∃ t, exec (.calDone m) s = .next t ∧ t.therm.cal = none ∧ readReg t sltCalGain = BitVec.ofNat 32 r.1.1 ∧
        getF t sltCalOffset 0 16 = r.2.1 % 65536 ∧ getB t sltCalStatus 31 = false ∧ ∃ bs, LogEntry.record bs ∈ t.slate.log.entries ∧ leAt bs 0 1 = 0x11))


namespace Sys2Proof.Says

/-! Quartz. -/

/-- A whole unit of this type arrives at an enabled port that neither has stalled nor searches, with nothing held at any port (R61, R77, R549). -/
def wholeUnit (s : State) (p : Fin 4) (u : List Byte) (type : Nat) : Prop :=
  serves s 3 = true ∧ getB s (qtzPortCtrl p.val) 0 = true ∧ (qport s p).state ≠ .stalled ∧ (qport s p).searching = false ∧
  (∀ o, (qport s o).held = []) ∧ u.length = leAt u 4 4 ∧ lengthOk u.length = true ∧ leAt u 0 1 = type

/-- It arrives in a stream, with the SEQ expected (R62, R82). -/
def nextUnit (s : State) (p : Fin 4) (u : List Byte) (type : Nat) (st : Stream) : Prop :=
  wholeUnit s p u type ∧ (qport s p).stream = some st ∧ (qport s p).skipping = false ∧ leAt u 2 2 = (qport s p).expSeq

/-- The expected SEQ counts on from the unit's. -/
def seqOn (s : State) (p : Fin 4) (u : List Byte) : State := setQPort s p fun q => { q with expSeq := (leAt u 2 2 + 1) % 65536 }

end Sys2Proof.Says

/-- A whole unit at an enabled port. STREAM_START ends the stream that ran; refused, it leaves the port REFUSED with the reason in status, event and STREAM_STATUS; accepted, ACTIVE with the declared layers in consecutive free buffers. With the SEQ expected: STREAM_END leaves it IDLE; SCENE_FRAME_BEGIN abandons what the last frame left incomplete and begins its own; a right LAYER_HEADER of a declared layer gives a free buffer the new version, one of no declared layer is abandoned as UNDECLARED; a right band is written (STORED) or goes to Borax in service (BORAX); SCENE_FRAME_END closes the frame; an unknown type is counted; audio goes to the embedded path. With another SEQ the frame is abandoned and units are skipped. A disabled port takes nothing; a write that sets ENABLE makes the port's other fields take effect, one while ENABLE is 1 leaves those in effect; clearing ENABLE ends the stream. A version all written and acknowledged is fenced. An active port stalls. A bind writes its table, raises BIND_DONE and makes room for the one that waits. -/
def Obligations.QuartzStreamsAndLayers : Prop :=
  ∀ (s : State) (p : Fin 4) (u : List Byte),
    (wholeUnit s p u 1 → u.length = 24 + 8 * leAt u 0x0A 1 →
      (refusalOf s p u ≠ 0 → ∃ t, exec (.streamStart p u) s = .next t ∧ (qport t p).state = .refused ∧ (qport t p).stream = none ∧
        getF t (qtzPortStatus p.val) 8 2 = 3 ∧ getF t (qtzPortStatus p.val) 24 8 = refusalOf s p u % 256 ∧
        tells t (evCode 1 3 0x012) (refusalOf s p u) ∧ (qport t p).statusOut.length = (qport s p).statusOut.length + 1) ∧
      (refusalOf s p u = 0 → ∃ t st, exec (.streamStart p u) s = .next t ∧ (qport t p).state = .active ∧ (qport t p).stream = some st ∧
        st.major = leAt u 8 1 ∧ st.minor = leAt u 9 1 ∧ st.rate = leAt u 0x10 4 ∧ st.cfg.slotBase = getF s (qtzPortCtrl p.val) 8 8 ∧
        (qport t p).layers = allocate (declsOf u) (((partitionOf s p).1 + 4095) / 4096 * 4096) ∧ (qport t p).expSeq = 1 ∧
        (qport t p).cur = none ∧ tells t (evCode 1 3 0x011) (leAt u 8 1 + 256 * leAt u 9 1))) ∧
    (∀ st, nextUnit s p u 0x02 st → ∃ t, exec (.streamEnd p u) s = .next t ∧ (qport t p).state = .idle ∧ (qport t p).stream = none ∧
      (qport t p).layers = [] ∧ (qport t p).expSeq = (leAt u 2 2 + 1) % 65536 ∧ t.mem = s.mem) ∧
    (∀ st, nextUnit s p u 0x10 st → ∃ t, exec (.sceneFrameBegin p u) s = .next t ∧
      (qport t p).cur = some ⟨leAt u 8 4, leAt u 0x0C 8, if st.major < 3 then 0 else leAt u 0x18 8, leAt u 0x20 4⟩ ∧ (qport t p).headers = [] ∧
      (qport t p).begins = (s.now :: (qport s p).begins).take 8 ∧ t.mem = s.mem) ∧
    (∀ st c l b, nextUnit s p u 0x11 st → (qport s p).cur = some c → layerOf (qport s p) (leAt u 8 1) = some l → bitAt c.mask (leAt u 8 1) = true →
      (qport s p).headers.contains (leAt u 8 1) = false → headerOk l.decl (headerOf u) st.major = true → bufIn l .writing = none → freeBuf s l = some b →
      ∃ t, exec (.layerHeader p u) s = .next t ∧
        writingVer (qport t p) (leAt u 8 1) = some (b.base, ⟨c.number, headerOf u, [], [], [], 0, s.quartz.stamp⟩) ∧
        (qport t p).headers.contains (leAt u 8 1) = true ∧ t.mem = s.mem ∧ t.evNet = s.evNet) ∧
    (∀ st c, nextUnit s p u 0x11 st → (qport s p).cur = some c → layerOf (qport s p) (leAt u 8 1) = none →
      exec (.layerHeader p u) s = .next (abandonUnit (seqOn s p u) p (leAt u 8 1))) ∧
    (∀ st c l base v, nextUnit s p u 0x12 st → (qport s p).cur = some c → layerOf (qport s p) (leAt u 8 1) = some l → bitAt c.mask (leAt u 8 1) = true →
      (qport s p).headers.contains (leAt u 8 1) = true → (qport s p).dropped.contains (leAt u 8 1) = false →
      writingVer (qport s p) (leAt u 8 1) = some (base, v) → (planesOf v.hdr.planes).contains (leAt u 9 1) = true →
      v.got.contains (leAt u 9 1, leAt u 0x0C 2) = false → bandBytes v.hdr (leAt u 9 1) (leAt u 0x0C 2) = some (leAt u 0x14 4) →
      0 < leAt u 0x10 4 → leAt u 0x10 4 ≤ 4194304 → 24 + leAt u 0x10 4 ≤ u.length →
      let got := setWriting (seqOn s p u) p (leAt u 8 1) fun v => { v with got := v.got ++ [(leAt u 9 1, leAt u 0x0C 2)] }
      let payload := (u.drop 24).take (leAt u 0x10 4)
      (leAt u 0x0A 1 = 0 → leAt u 0x10 4 = leAt u 0x14 4 →
        exec (.planeData p u) s = .next (writeBand got p (leAt u 8 1) (leAt u 9 1) (leAt u 0x0C 2) payload)) ∧
      (leAt u 0x0A 1 = 1 → serves s 12 = true → exec (.planeData p u) s = .next { got with quartz := { got.quartz with
        ingest := got.quartz.ingest ++ [⟨p, leAt u 8 1, v.stamp, leAt u 9 1, leAt u 0x0C 2, leAt u 0x14 4, payload⟩] } })) ∧
    (∀ st c, nextUnit s p u 0x13 st → (qport s p).cur = some c →
      exec (.sceneFrameEnd p u) s = .next (closeFrame (seqOn s p u) p 5 false) ∧ (qport (closeFrame (seqOn s p u) p 5 false) p).cur = none) ∧
    (∀ st ty, nextUnit s p u ty st → ty ∉ [1, 2, 0x10, 0x11, 0x12, 0x13, 0x20] → exec (.unknownUnit p u) s = .next (bump (seqOn s p u) (qtzPortUnknown p.val))) ∧
    (∀ st, nextUnit s p u 0x20 st → exec (.audioUnit p u) s = .next (embedUnit (seqOn s p u) p u st.audioChannels (st.major == 3))) ∧
    (∀ st ty, wholeUnit s p u ty → ty ≠ 1 → (qport s p).stream = some st → (qport s p).skipping = false → leAt u 2 2 ≠ (qport s p).expSeq →
      ∃ t, exec (.planeData p u) s = .next t ∧ (qport t p).skipping = true ∧ (qport t p).cur = none ∧ (qport t p).expSeq = (leAt u 2 2 + 1) % 65536) ∧
    (getB s (qtzPortCtrl p.val) 0 = false → exec (.streamStart p u) s = .next s ∧ exec (.planeData p u) s = .next s ∧ exec (.audioUnit p u) s = .next s) ∧
    (serves s 3 = true →
      (∀ q v,
        let t := writeKey (reqMeets s q 3) (qtzPortCtrl p.val) v
        getB t (qtzPortCtrl p.val) 0 = true → exec (.portEnable p q v) s = .next
          (if getB s (qtzPortCtrl p.val) 0 = true then t else setQPort t p fun x => { x with ctrl := readReg t (qtzPortCtrl p.val) })) ∧
      (∀ q v, (∀ o, (qport s o).held = []) → getB (writeKey s (qtzPortCtrl p.val) v) (qtzPortCtrl p.val) 0 = false → ∃ t, exec (.portEnable p q v) s = .next t ∧
        (qport t p).stream = none ∧ (qport t p).state = .idle ∧ (qport t p).searching = false) ∧
      (∀ (layer : Fin 64) l base v, layerOf (qport s p) layer.val = some l → writingVer (qport s p) layer.val = some (base, v) →
        (fenceReady v = false → exec (.layerFence p layer) s = .next s) ∧
        (fenceReady v = true → (∀ o, (qport s o).held = []) → slotOfLayer (qport s p) layer.val < 64 → ∃ t, exec (.layerFence p layer) s = .next t ∧
          writingVer (qport t p) layer.val = none ∧ ((layerOf (qport t p) layer.val).bind fun l => bufIn l .pending).bind (fun b => b.ver) = some v ∧
          (let slot := slotOfLayer (qport s p) layer.val
           getB t (if slot < 32 then qtzFenceLo else qtzFenceHi) (slot % 32) = true ∧ tells t (evCode 1 3 0x010) (slot + 256 * (v.frame % 2 ^ 24))))) ∧
      (∀ c st, (qport s p).state = .active → (qport s p).stream = some st → st.cfg.stallTimeout ≠ 0 ∨ c = .link → ∃ t, exec (.portStalled p c) s = .next t ∧
        (qport t p).state = .stalled ∧ getF t (qtzPortStatus p.val) 8 2 = 2 ∧ oneEvent s t (evCode 1 3 0x014) (if c = .timeout then 0 else 1)) ∧
      (s.quartz.bindRun = none → exec .layerBind s = .next s) ∧
      (∀ r, s.quartz.bindRun = some r → (∀ o, (qport s o).held = []) → ∃ t, exec .layerBind s = .next t ∧ t.quartz.bindRun = s.quartz.bindWait ∧
        t.quartz.bindWait = none ∧ t.quartz.nextTable = 1 - s.quartz.nextTable ∧
        ∃ e ∈ t.evNet, e.code = evCode 1 3 0x017 ∧ e.arg.toNat % 65536 = r.frame % 65536))

namespace Sys2Proof.Says

/-! Memory and Borax. -/

/-- No word of a line is poisoned. -/
def lineSound (s : State) (line : Nat) : Prop := ∀ w, line * 32 ≤ w → w < line * 32 + 32 → isPoisoned s w = false

/-- The payload of a response that carries the line at an address. -/
def linePayload (s : State) (a : Nat) : List CodedWord :=
  payloadOf a ((List.range 32).map fun w => BitVec.ofNat 64 (readLe s (a + 8 * w) 8))

/-- Every word of a packet arrives as it was sent (R22, R30). -/
def packetSound (p : Packet) : Prop :=
  (∀ i : Fin 4, eccDecode p.head[i] 0 = .good) ∧ ∀ e ∈ p.payload.zipIdx, eccDecode e.1 (pAddr p + 8 * e.2) = .good

/-- A router takes the packet from its source's interface: R23 forms it, the source accepts requests, and its tag is not outstanding (R20, R23, R29). -/
def packetAdmitted (s : State) (p : Packet) : Prop :=
  packetOk p = true ∧ (pOpcode p < 5 → serves s (pSrc p).val = true ∧ (pOpcode p < 2 → tagTaken s (pSrc p) (pTag p) = false))

/-- The packet's flits stand last in a router's interface queue, for the router at which it leaves; the tag of a READ or WRITE is outstanding (R25, R29). -/
def packetGoes (s : State) (r : Fin 40) (p : Packet) : State :=
  meshSend (if pOpcode p < 2 then setTags s (pSrc p) fun l => l ++ [pTag p] else s) r p (routerFor s (pDst p).val (pAddr p))

/-- DRAM has left service for a reason of R269: the channel's block is quarantined, the event tells channel and reason, memory is as before. -/
def leftService (s t : State) (ch : Fin 32) (why : Nat) : Prop :=
  getF t bxtStatus 30 2 = 3 ∧ dramUp t = false ∧ isQuarantined t (8 + ch.val / 8) (ch.val % 8) = true ∧ t.mem = s.mem ∧
  tells t (evCode 3 (8 + ch.val / 8) 0x114) (ch.val % 8 + 16 * why)

/-- Flits of a channel on a link. -/
def onWire (p : MeshPort) (v : Fin 2) : Nat := match p.wire with
  | some e => if e.1 = v then 1 else 0
  | none => 0

/-- The sender's credits, the flit on the link, those in the buffer of 8 and the credits returning make 8 for every link and channel, so no buffer overflows; sides without a link hold nothing (R26). -/
def creditsKept (m : Mesh) : Prop :=
  ∀ (r : Fin 40) (v : Fin 2),
    (∀ (i : Fin 5) (q : Fin 40), neighbour r i = some q →
      let p := (m.nodes[q]).outs[facing i]
      p.credit[v] + onWire p v + (((m.nodes[r]).ins[i])[v]).length + p.back[v] = 8) ∧
    (∀ i : Fin 5, i ≠ 4 → neighbour r i = none → ((m.nodes[r]).ins[i])[v] = []) ∧
    (let p := (m.nodes[r]).iface
     p.credit[v] + onWire p v + (((m.nodes[r]).ins[(4 : Fin 5)])[v]).length + p.back[v] = 8) ∧
    (let p := (m.nodes[r]).outs[(4 : Fin 5)]
     p.credit[v] + onWire p v + p.back[v] = 8)

/-- Hops between two routers: columns and rows apart (R25). -/
def hopsApart (a b : Fin 40) : Nat := ((a.val % 8 : Int) - (b.val % 8 : Int)).natAbs + ((a.val / 8 : Int) - (b.val / 8 : Int)).natAbs

end Sys2Proof.Says

/-- BRING_UP writes BXT_CONFIG while STATE is OFF, and with bit 0 and every Bauxite region on, no earlier than 2 ms after DRAM's power, raises RESET_N and starts training; no retired rank shows SERVING. DRAM_TRAINED marks a channel, or takes DRAM out of service where a step, an eye or a device fails R246 or R263; DRAM_INIT_DONE with all trained puts DRAM in service, zeroed. A line outside DRAM is answered UNMAPPED, one out of service REGION_UNAVAILABLE. A read of a sound line answers its bytes, from the write queue at once, else in its turn; with the queue full it waits outside. A write replaces the enabled bytes of its line and no other, joins the queue of every rank that must have it and is acknowledged; a poisoned word that covers its word whole is stored poisoned; a partial write into a poisoned word is answered POISONED. WRITE_DRAIN begins at 48 entries or when the oldest has waited 10 us, and issues the oldest, or one that hits an open row. MIGRATION_COPY, held to its pace, moves P on, and at the last line the slot. REFRESH_WINDOW closes the rows; MR4_READ and WCK2DQ_CHECK act by their rules. A router reports a word it cannot correct and passes it on poisoned, discards an unlisted opcode, and sends a packet towards its destination; an interface takes packets in order, ends their tags, answers UNMAPPED and serves DRAM. Each hop of a route leads one router nearer; the mesh's credits add up to 8 on every link and channel, in every clock. -/
def Obligations.MemoryAndMeshServeRequests : Prop :=
  ∀ s : State,
    let st := getF s bxtStatus 30 2
    (∀ (q : Requester) (v : Word),
      let t := writeKey (reqMeets s q 8) bxtConfig v
      let all := serves s 9 = true ∧ serves s 10 = true ∧ serves s 11 = true
      (serves s 8 = false → exec (.bringUp q v) s = .next s) ∧
      (serves s 8 = true → st ≠ 0 → exec (.bringUp q v) s = .next (reqMeets s q 8)) ∧
      (serves s 8 = true → st = 0 → v.getLsbD 0 = false → exec (.bringUp q v) s = .next t) ∧
      (serves s 8 = true → all → st = 0 → v.getLsbD 0 = true → s.now < s.power.dramReadyAt →
        exec (.bringUp q v) s = .next { t with dram := { t.dram with bringWaits := true } }) ∧
      (serves s 8 = true → all → st = 0 → v.getLsbD 0 = true → s.power.dramReadyAt ≤ s.now → ∃ u, exec (.bringUp q v) s = .next u ∧
        u.power.dramReset = true ∧ u.dram.ch = Vector.replicate 32 {} ∧ u.dram.nextBand = none ∧ u.mem = s.mem ∧
        (s.retired = [] → getF u bxtStatus 30 2 = 1 ∧ u.dram.bringing = true) ∧
        (∀ q r : Nat, q < 4 → r < 16 → isRetired s (8 + q) (r / 2) (r % 2) = true → ¬(spareOf t q = true ∧ r = 15) → rankState u q r = 1 ∨ rankState u q r = 2))) ∧
    (∀ (ch : Fin 32) (res : TrainResult),
      let ok := res.steps = [.zq, .ca, .wck2ck, .readDq, .writeDq] ∧ (∀ e ∈ res.dqEyes, 250 ≤ e) ∧ (∀ e ∈ res.caEyes, 300 ≤ e) ∧ res.refreshManagement = false
      (st ≠ 1 → exec (.dramTrained ch res) s = .next s) ∧
      (st = 1 → ok → exec (.dramTrained ch res) s = .next (setChan s ch fun c => { c with trained := true })) ∧
      (st = 1 → ¬ok → ∃ t, exec (.dramTrained ch res) s = .next t ∧ leftService s t ch 1)) ∧
    (st ≠ 1 ∨ (∃ ch : Fin 32, (s.dram.ch[ch]).trained = false) → exec .dramInitDone s = .next s) ∧
    (st = 1 → (∀ ch : Fin 32, (s.dram.ch[ch]).trained = true) → ∃ t, exec .dramInitDone s = .next t ∧
      t.mem = [] ∧ t.poison = [] ∧ dramUp t = true ∧ dramTop t = dramTop s ∧ t.dram.ch = s.dram.ch ∧ t.calmap.waitDram = false ∧
      readReg t bxtTopLo = BitVec.ofNat 32 (dramTop s) ∧ readReg t bxtTopHi = BitVec.ofNat 32 (dramTop s / 2 ^ 32)) ∧
    (∀ (r : LineReq) (fl : LineFlips) (en : BitVec 256) (data : List Byte) (pz : BitVec 32),
      let a := r.line * 256
      (reqOk r = false → exec (.dramRead r fl) s = .next s ∧ exec (.dramWrite r en data fl pz) s = .next s) ∧
      (reqOk r = true → mapAddr s a = none →
        let t := respond s (8 + r.line % 32 / 8) r.src r.tag 0xA 3 a []
        exec (.dramRead r fl) s = .next t ∧ exec (.dramWrite r en data fl pz) s = .next t) ∧
      (∀ p, reqOk r = true → mapAddr s a = some p → dramUp s = false →
        let t := respond s (8 + p.quadrant) r.src r.tag 0xA 2 a []
        exec (.dramRead r fl) s = .next t ∧ exec (.dramWrite r en data fl pz) s = .next t) ∧
      (∀ p, reqOk r = true → mapAddr s a = some p → dramUp s = true →
        let ch := readChan s p
        let c := s.dram.ch[ch]
        let held := lineQueued s ch r.line
        let sound := lineSound s r.line ∧ ∀ w ∈ (s.dram.quad[Fin.ofNat 4 p.quadrant]).spareBad, w / 32 ≠ r.line
        let u := if c.readQ.contains r then s else setChan s ch fun x => { x with readQ := x.readQ ++ [r] }
        let rows := rowsOf s p (if belowP s p then 15 else servingRank s p)
        let turn := (c.readQ.contains r = true ∨ c.readQ.length < 64) ∧ c.drain = none ∧ mayServe u u.dram.ch[ch] r = true
        let full := ∃ x ∈ writeChans s p, lineQueued s x r.line = false ∧ 64 ≤ (s.dram.ch[x]).writeQ.length
        let partly := ∃ w, w < 32 ∧ isPoisoned s (r.line * 32 + w) = true ∧ wordEnables en.toNat w ≠ 0 ∧ wordEnables en.toNat w ≠ 255
        (held = true → lineSound s r.line →
          exec (.dramRead r fl) s = .next (respond (noteFailed s r.src.val r.line [] 0) (8 + p.quadrant) r.src r.tag 8 0 a (linePayload s a))) ∧
        (held = false → c.readQ.contains r = false → 64 ≤ c.readQ.length → exec (.dramRead r fl) s = .next s) ∧
        (held = false → c.readQ.contains r = true ∨ c.readQ.length < 64 → c.drain.isSome = true ∨ mayServe u u.dram.ch[ch] r = false →
          exec (.dramRead r fl) s = .next u) ∧
        (held = false → turn → sound → exec (.dramRead r []) s = .next
          (respond (noteFailed (setChan u ch fun x => served x r rows) r.src.val r.line [] 1) (8 + p.quadrant) r.src r.tag 8 0 a (linePayload s a))) ∧
        (full → exec (.dramWrite r en data fl pz) s = .next s) ∧
        (¬full → held = false → en ≠ BitVec.allOnes 256 → c.readQ.contains r = true ∨ c.readQ.length < 64 → c.drain.isSome = true ∨ mayServe u u.dram.ch[ch] r = false →
          exec (.dramWrite r en data fl pz) s = .next u) ∧
        (¬full → en = BitVec.allOnes 256 ∨ held = true ∨ turn → sound → ∃ t, exec (.dramWrite r en data [] 0) s = .next t ∧
          (∀ k, readByte t k = if a ≤ k ∧ k < a + 256 ∧ bitAt en.toNat (k - a) = true then data.getD (k - a) 0 else readByte s k) ∧
          t.poison = s.poison ∧ t.mesh = (respond s (8 + p.quadrant) r.src r.tag 9 0 a []).mesh ∧ ∀ x ∈ writeChans s p, lineQueued t x r.line = true) ∧
        (¬full → en = BitVec.allOnes 256 → ∃ t, exec (.dramWrite r en data fl pz) s = .next t ∧
          ∀ w, w < 32 → isPoisoned t (r.line * 32 + w) = bitAt pz.toNat w) ∧
        (¬full → held = true → partly → ∃ t, exec (.dramWrite r en data fl 0) s = .next t ∧
          t.mesh = (respond s (8 + p.quadrant) r.src r.tag 0xA 4 a []).mesh))) ∧
    (∀ (ch : Fin 32) (byAge : Bool) (ls : List Nat),
      let c := s.dram.ch[ch]
      let n := c.writeQ.length
      (c.drain = none → n < 48 → (∀ e, c.writeQ.head? = some e → s.now < e.2 + 10000) → exec (.writeDrain ch byAge ls) s = .next s) ∧
      (c.drain = none → 48 ≤ n → exec (.writeDrain ch true ls) s = .next s ∧ exec (.writeDrain ch false []) s = .next (setChan s ch fun x => { x with drain := some false, wpasses := 0 })) ∧
      (∀ e, c.drain = none → n < 48 → c.writeQ.head? = some e → e.2 + 10000 ≤ s.now →
        exec (.writeDrain ch false ls) s = .next s ∧ exec (.writeDrain ch true []) s = .next (setChan s ch fun x => { x with drain := some true, wpasses := 0 })) ∧
      (∀ m e rest, c.drain = some m → c.writeQ = e :: rest →
        let rows := match mapAddr s (e.1 * 256) with
          | some p => rowsOf s p (if ch = chanOf s p then servingRank s p else 15)
          | none => []
        exec (.writeDrain ch byAge [e.1]) s = .next (setChan s ch fun x => { x with
          writeQ := rest, wpasses := 0, openRows := openThem x.openRows rows
          drain := if rest.length = 16 ∨ (m = true ∧ rest = []) then none else some m })) ∧
      (∀ m l, c.drain = some m → (c.writeQ.head?.map fun e => e.1) ≠ some l → openHit s c l = false ∨ 4 ≤ c.wpasses →
        exec (.writeDrain ch byAge [l]) s = .next s)) ∧
    (∀ (q : Fin 4) (fl : LineFlips),
      let src := migSource s q.val
      let p := migPointer s q.val
      let ch := rankChan q.val src
      let spare := rankChan q.val 15
      (migRunning s q.val = false ∨ dramUp s = false ∨ s.now < (s.dram.quad[q]).migAt + migPace s q.val → exec (.migrationCopy q fl) s = .next s) ∧
      (lineOfSlot s q.val src p = none → exec (.migrationCopy q fl) s = .next s) ∧
      (∀ l, migRunning s q.val = true → dramUp s = true → (s.dram.quad[q]).migAt + migPace s q.val ≤ s.now → lineOfSlot s q.val src p = some l →
        let r : LineReq := ⟨Fin.ofNat 16 (8 + q.val), .migration, 0xC0, l⟩
        let c := s.dram.ch[ch]
        let u := if c.readQ.contains r then s else setChan s ch fun x => { x with readQ := x.readQ ++ [r] }
        (lineQueued s spare l = false → 64 ≤ (s.dram.ch[spare]).writeQ.length → exec (.migrationCopy q fl) s = .next s) ∧
        (lineQueued s spare l = true ∨ (s.dram.ch[spare]).writeQ.length < 64 → c.readQ.contains r = true ∨ c.readQ.length < 64 →
          c.drain = none → mayServe u u.dram.ch[ch] r = true → src ≠ 15 → lineSound s l →
          ∃ t, exec (.migrationCopy q []) s = .next t ∧ t.mem = s.mem ∧ migPointer t q.val = (p + 1) % 2 ^ 23 ∧ lineQueued t spare l = true ∧
            (p + 1 < linesPerRank s → migRunning t q.val = true ∧ t.evNet = s.evNet) ∧
            (linesPerRank s ≤ p + 1 → getF t (bxtMigStatus (8 + q.val)) 30 2 = 2 ∧ (t.dram.quad[q]).moved = some src ∧ rankState t q.val src = 1 ∧
              tells t (evCode 3 (8 + q.val) 0x111) (src + 256 * (s.dram.quad[q]).migPoison))))) ∧
    (st = 0 ∨ st = 3 → exec .refreshWindow s = .next s) ∧
    (st = 1 ∨ st = 2 → ∃ t, exec .refreshWindow s = .next t ∧ t.dram.nextBand = none ∧ t.mem = s.mem ∧
      (∀ c : Fin 32, t.dram.ch[c] = { s.dram.ch[c] with openRows := [], shift := false }) ∧
      getF t bxtStatus 24 2 = (s.dram.nextBand.getD (getF s bxtStatus 24 2)) % 4) ∧
    (∀ (ch : Fin 32) (rk : Fin 2) (m : RefreshMult) (derate : Bool),
      let b := mr4Band m derate
      let t := setChan s ch fun c => { c with mr4 := c.mr4.set rk ((b :: c.mr4[rk]).take 2), derate := c.derate.set rk derate }
      let u := if derate then raise t 2 (8 + ch.val / 8) 0x103 (ch.val % 8) rk.val (2 * (ch.val % 8) + rk.val) else t
      let reads := (t.dram.ch.toList.map fun c => c.mr4.toList).flatten
      let hot := (reads.map fun l => l.headD 0).foldl max 0
      let cool := (reads.map fun l => l.foldl max 0).foldl max 0
      let now := getF s bxtStatus 24 2
      (dramUp s = false → exec (.mr4Read ch rk m derate) s = .next s) ∧
      (dramUp s = true → exec (.mr4Read ch rk m derate) s = .next (dramForced { u with dram := { u.dram with
        nextBand := if now < hot then some hot else if reads.all (fun l => l.length == 2) = true ∧ cool < now then some cool else none } }))) ∧
    (∀ (ch : Fin 32) (drift dq ca : Nat),
      (dramUp s = false ∨ drift ≤ 16 → exec (.wck2dqCheck ch drift (dq, ca)) s = .next s) ∧
      (dramUp s = true → 16 < drift → 250 ≤ dq → 300 ≤ ca → exec (.wck2dqCheck ch drift (dq, ca)) s = .next (setChan s ch fun c => { c with shift := true })) ∧
      (dramUp s = true → 16 < drift → dq < 250 ∨ ca < 300 → ∃ t, exec (.wck2dqCheck ch drift (dq, ca)) s = .next t ∧ leftService s t ch 2)) ∧
    (∀ p : Packet,
      let o := pOpcode p
      (∀ r : Fin 40,
        let reg := routerRegion r.val
        (packetSound p → ¬packetAdmitted s p → exec (.nocPacket (.router r) p) s = .next s) ∧
        (packetSound p → packetAdmitted s p → opcodeListed o = false → exec (.nocPacket (.router r) p) s = .next (raise s 1 reg 0x3F9 0xFF 0xFF 0)) ∧
        (packetSound p → packetAdmitted s p → opcodeListed o = true → exec (.nocPacket (.router r) p) s = .next (packetGoes s r p)) ∧
        (∀ (k : Nat) (h : k < p.payload.length), (∀ i : Fin 4, eccDecode p.head[i] 0 = .good) → eccDecode p.payload[k] (pAddr p + 8 * k) = .uncorrectable →
          (∀ e ∈ p.payload.zipIdx, e.2 ≠ k → eccDecode e.1 (pAddr p + 8 * e.2) = .good) → packetAdmitted s p → opcodeListed o = true →
          exec (.nocPacket (.router r) p) s = .next (packetGoes (raise s 0 reg 0x3F8 0xFF 0xFF 0) r
            { p with payload := p.payload.set k (eccEncode p.payload[k].data (pAddr p + 8 * k) true) }))) ∧
      (∀ r : Fin 16,
        let t := { s with net := s.net.erase (r, p) }
        (oldestFrom s r p ≠ some (r, p) → exec (.nocPacket (.iface r) p) s = .next s) ∧
        (oldestFrom s r p = some (r, p) →
          (5 ≤ o → exec (.nocPacket (.iface r) p) s = .next { t with mesh := { t.mesh with tags := vUpd t.mesh.tags r fun l => l.erase (pTag p) } }) ∧
          (o < 2 → addrUnmapped s (pAddr p) = true →
            exec (.nocPacket (.iface r) p) s = .next (respond t r.val (pSrc p) (BitVec.ofNat 8 (pTag p)) 0xA 3 (pAddr p) [])) ∧
          (o = 3 → r = 0 → exec (.nocPacket (.iface r) p) s = .next (eventArrives t (pEvent p))) ∧
          (o = 4 → exec (.nocPacket (.iface r) p) s = .next t) ∧
          (∀ req place, 8 ≤ r.val → r.val < 12 → o = 0 → packetReq p = some req → mapAddr s (pAddr p) = some place → pAddr p < dramTop s →
            (s.dram.ch[readChan s place]).readQ.length < 64 →
            exec (.nocPacket (.iface r) p) s = .next { dramRead s req [] with net := (dramRead s req []).net.erase (r, p) })))) ∧
    (∀ a b : Fin 40, routeOf b b = 4 ∧ (a ≠ b → ∃ q, neighbour a (routeOf a b) = some q ∧ hopsApart q b + 1 = hopsApart a b)) ∧
    (creditsKept s.mesh → creditsKept (meshClock s).mesh)

/-- JOB_SUBMIT while Borax serves: engine 5 and above does nothing; engine 4, and a quarantined one, means that in service with the fewest jobs; at a full queue of 8 the submission is counted and REFUSED shows in the requester's own copy of the status; else the descriptor at the requester's own job address joins the queue. CODER_LANE_TAKE_ITEM: the lowest lane in service that is free and for which an item waits takes it (repeat segments, then shadow segments whose slot no repeat reads, then jobs that waited 1 ms, ingest, return bands, other jobs), and a BRXJ that waited for room goes on. CODER_ITEM_DONE frees the lane and gives the item's output to its user; each mismatch of a block's self-verify is counted and raised; up to three are corrected errors of the lane; after a fourth that block is written STORED and the lane retires; where that block differs too, a shadow segment drops its stripe and any other item goes back. RET_CTRL_WRITE writes the register; a change while the stream is open ends it at the next frame. -/
def Obligations.BoraxJobsAndLanes : Prop :=
  ∀ s : State,
    (∀ (q : Requester) (v : Word), serves s 12 = false → exec (.jobSubmit q v) s = .next s ∧ exec (.retCtrlWrite q v) s = .next s) ∧
    (∀ (e l : Fin 4) (ms : List Nat), serves s 12 = false → exec (.coderItemDone e l ms) s = .next s) ∧
    (∀ (q : Requester) (v : Word), serves s 12 = true →
      let n := v.toNat % 8
      let u := reqMeets s q 12
      let e := jobEngine s n
      let copy := match q with | .ha => 0 | .hb => 1 | .fp => 2
      let status := brxJobStatus + 0x1000000 * copy
      (4 < n → exec (.jobSubmit q v) s = .next u) ∧
      (n ≤ 4 → 8 ≤ (s.borax.jobs[e]).length → exec (.jobSubmit q v) s = .next (setF (bump u brxSubmitRefused) status 31 1 1)) ∧
      (n ≤ 4 → (s.borax.jobs[e]).length < 8 → exec (.jobSubmit q v) s = .next (setF
        (queueJob u e ⟨addr40 s (brxJobAddrLo + 0x1000000 * copy) (brxJobAddrHi + 0x1000000 * copy), false, s.now⟩) status 31 1 0))) ∧
    (∀ e : Fin 4,
      (isQuarantined s 12 e.val = true → jobEngine s e.val = jobEngine s 4) ∧
      (isQuarantined s 12 e.val = false → jobEngine s e.val = e ∧ isQuarantined s 12 (jobEngine s 4).val = false ∧
        (s.borax.jobs[jobEngine s 4]).length ≤ (s.borax.jobs[e]).length)) ∧
    (∀ (e d : Fin 4) (j : BxJob), (queueJob s e j).borax.jobs[d] = if d = e then s.borax.jobs[d] ++ [j] else s.borax.jobs[d]) ∧
    (let idle (k : Fin 16) : Prop := laneUp s k.val = false ∨ s.borax.lanes[k].isSome = true ∨ nextItem s (Fin.ofNat 4 (k.val / 4)) = none
     let on (t : State) : State := brxjSettle (brxjSettle t .a) .b
     ((∀ k, idle k) → exec .coderLaneTakeItem s = .next (on s)) ∧
     (∀ (l : Fin 16) (i : BxItem), (∀ k, k < l → idle k) → laneUp s l.val = true → s.borax.lanes[l] = none →
       nextItem s (Fin.ofNat 4 (l.val / 4)) = some i →
       exec .coderLaneTakeItem s = .next (on (setBorax (dropItem s i) fun b => { b with lanes := b.lanes.set l (some i) })))) ∧
    (∀ e : Fin 4,
      let mine := ((s.borax.again.filter fun x => x.1 == e.val).map fun x => x.2) ++ s.borax.jobs[e]
      (∀ i r, s.borax.repeatQ = i :: r → nextItem s e = some i) ∧
      (s.borax.repeatQ = [] → ∀ i, nextShadow s = some i → nextItem s e = some i) ∧
      (s.borax.repeatQ = [] → nextShadow s = none → ∀ j r, mine = j :: r → j.at_ + 1000000 ≤ s.now → nextItem s e = some (.job e.val j)) ∧
      (s.borax.repeatQ = [] → nextShadow s = none → (∀ j, mine.head? = some j → s.now < j.at_ + 1000000) →
        (∀ i r, s.quartz.ingest = i :: r → nextItem s e = some (.ingest i)) ∧
        (∀ i r, s.quartz.ingest = [] → s.borax.retQ = i :: r → nextItem s e = some i) ∧
        (s.quartz.ingest = [] → s.borax.retQ = [] → nextItem s e = mine.head?.map fun j => .job e.val j))) ∧
    (∀ (e l : Fin 4), serves s 12 = true →
      let k : Fin 16 := Fin.ofNat 16 (4 * e.val + l.val)
      let freed (t : State) : State := setBorax t fun b => { b with lanes := b.lanes.set k none }
      (∀ ms, s.borax.lanes[k] = none → exec (.coderItemDone e l ms) s = .next s) ∧
      (∀ i, s.borax.lanes[k] = some i →
        (∀ ms, codes s i = false ∨ (∀ m ∈ ms, m = 0) → exec (.coderItemDone e l ms) s = .next (itemDone (freed s) i [] true)) ∧
        (∀ m, codes s i = true → 1 ≤ m → m ≤ 3 →
          let x := countCorrected (raise (verifyMismatches s e.val l.val m) 0 12 0x3F6 e.val l.val 0) ⟨12, e.val, l.val⟩ 1
          let t := itemDone (freed x.1) i [] true
          exec (.coderItemDone e l [m]) s = .next (if x.2 then retireCell t 12 e.val l.val else t)) ∧
        (codes s i = true → exec (.coderItemDone e l [0, 4]) s = .next
          (retireCell (itemDone (freed (verifyMismatches s e.val l.val 4)) i [1] true) 12 e.val l.val)) ∧
        (codes s i = true → (∃ f ph r g, i = .shadowSeg f ph r g) → exec (.coderItemDone e l [5]) s = .next
          (retireCell (itemDone (freed (verifyMismatches s e.val l.val 5)) i [] false) 12 e.val l.val)) ∧
        (codes s i = true → ¬(∃ f ph r g, i = .shadowSeg f ph r g) → exec (.coderItemDone e l [5]) s = .next
          (retireCell (boraxBack (verifyMismatches s e.val l.val 5) k) 12 e.val l.val)) ∧
        (∀ ms, ∃ t, exec (.coderItemDone e l ms) s = .next t))) ∧
    (∀ (q : Requester) (v : Word), serves s 12 = true →
      let t := writeKey (reqMeets s q 12) brxRetCtrl v
      exec (.retCtrlWrite q v) s = .next
        (if s.borax.ret.open_ = true ∧ readReg t brxRetCtrl ≠ readReg s brxRetCtrl then setRet t fun r => { r with changed := true } else t))

namespace Sys2Proof.Says

/-! The serial lanes. -/

/-- The outcome of a lane's command: the state, with a failed panel training judged (R304, R326). -/
def laneTo (t : State) : Out := .next (panelJudged t)

/-- The outcome of a received block: a driver's reply that it completes goes to what asked for it (R283, R325). -/
def blockTo (t : State) : Out := laneTo (drvReplies t)

/-- Stream blocks received one after the other: the packet being received after them, and what each has brought (R318). -/
def assembled (bs : List TxBlock) : Option PktAsm × List Received :=
  bs.foldl (fun a b => ((asmBlock a.1 b.header b.payload).1, a.2 ++ [(asmBlock a.1 b.header b.payload).2])) (none, [])

/-- The next state of a lane after a received header, as far as its own record goes (R314). -/
def headerCounted (ok : Bool) (x : LaneSt) : LaneSt :=
  let hist := ((!ok) :: x.hist).take 64
  let run := if ok then min 64 (x.run + 1) else 0
  if x.lock ∧ 16 ≤ hist.countP id then { x with run := run, hist := [], lock := false }
  else { x with run := run, hist := hist, lock := x.lock || run == 64 }

/-- A write of a source port's link control register by one of its three commands (R326, R333, R338): what follows the write of its fields. -/
def linkCtrlEffect (s t : State) (p : Fin 4) (v : Word) : State :=
  let k := qtzPortLinkCtrl p.val
  if getB s k 0 = true ∧ getB t k 0 = false then leaveService (allLanes (setF t (qtzPortLinkStatus p.val) 20 4 0) p 0) p (linkServes t p)
  else if getB s k 2 = false ∧ getB t k 2 = true then leaveService (allLanes t p 8) p (linkServes t p)
  else if getB s k 2 = true ∧ getB t k 2 = false then (if getB t k 0 = true then trainPort t p else allLanes t p 0)
  else if getB t k 0 = true ∧ (getB s k 0 = false ∨ v.getLsbD 7 = true) then trainPort (setSl t p fun x => { x with rateCap := 3 }) p
  else t

/-- Whether a source lane takes part in training: neither left out nor retired (R334, R336). -/
def laneTakesPart (s : State) (p i : Fin 4) : Prop := i.val ∉ (s.links.port[p]).excluded ∧ laneRetired s (.src p i) = false

/-- The state of every lane of the panel and of the backchannel (R333). -/
def panelAll (s : State) (st : Nat) : State :=
  (List.finRange 4).foldl (fun s j => enterLane s (.back j) st)
    ((List.finRange 13).foldl (fun s g => (List.finRange 4).foldl (fun s j => enterLane s (.panel g j) st) s) s)

end Sys2Proof.Says

/-- A change of a lane changes no other lane. Lane commands of a region that does not serve change nothing. Header bits: 64 valid in a row give lock, 16 invalid of 64 lose it, and losing it in ACTIVE means RECOVERY; an invalid header is an error, and more than 16 errors in 1 s retire the lane. A scrambled block is descrambled and moves the scrambler; in ACTIVE a block of the stream takes its place there, an invalid one leaving its own empty. SKIP loads the scrambler and aligns the lane. TRAIN counts READY; lock and 8 of them lead WAKE to CAPS; lock leads RATE to EQ; HANDOFF_OK of both ends leads HANDOFF to ACTIVE. The eighth identical CAPS decides version and rate or fails the training with its reason. The last preset's measurement fails with reason 6 or chooses the widest eye, the lowest of equals, and leads to HANDOFF, or to ACTIVE in version 1.0. A time-out fails training with its state's reason, or retires a lane in RECOVERY. A rate beyond 650 ppm, or no clock, means RECOVERY. A margin round decides HANDOFF and RECOVERY, and two bad rounds in a row leave ACTIVE. LINK_ENABLE, LINK_RETRAIN and LANE_TEST act by the control register; training puts the lanes that take part into WAKE and the others OFF. Descrambling gives back what was scrambled. A lane in ACTIVE sends SKIP with its S, SPARE_SWAP, its block scrambled, or IDLE, at its rate and under its preset's taps. -/
def Obligations.LanesTrainAndRecover : Prop :=
  ∀ s : State,
    (∀ (l k : Lane) (f : LaneSt → LaneSt), laneOf (setLane s l f) l = f (laneOf s l) ∧ (k ≠ l → laneOf (setLane s l f) k = laneOf s k) ∧
      (setLane s l f).mem = s.mem ∧ (setLane s l f).quartz = s.quartz ∧ (setLane s l f).evNet = s.evNet) ∧
    (∀ (l : Lane) (h : BitVec 4) (pl : List Byte) (w : Nat) (ppm : Option Int) (e : Bool), serves s (laneRegion l) = false →
      exec (.blockReceived l h pl) s = .next s ∧ exec (.skipReceived l pl) s = .next s ∧ exec (.trainReceived l pl) s = .next s ∧
      exec (.capsReceived l pl) s = .next s ∧ exec (.eqPresetMeasured l w) s = .next s ∧ exec (.trainingTimeout l) s = .next s ∧
      exec (.laneRateWindow l ppm) s = .next s ∧ exec (.marginRound l e) s = .next s) ∧
    (∀ l : Lane, serves s (laneRegion l) = true →
      let x := laneOf s l
      (∀ (h : BitVec 4) (pl : List Byte), x.st = 0 ∨ x.st = 9 → exec (.blockReceived l h pl) s = blockTo s) ∧
      (∀ (h : BitVec 4) (pl : List Byte), x.st ≠ 0 → x.st ≠ 9 →
        let ok := blockHeaderOk l h.toNat
        let y := headerCounted ok x
        let t := setLane s l fun _ => y
        let d := scramble x.scr pl
        let moved := setLane t l fun z => { z with scr := d.2 }
        let bad := laneError t l
        (ok = true → x.lock = false ∨ y.lock = true → ¬(x.st = 1 ∧ 8 ≤ x.ready) → x.st ≠ 3 →
          (h ≠ 6 → exec (.blockReceived l h pl) s = blockTo (if x.st = 6 then streamIn moved l h.toNat d.1 else moved)) ∧
          (h = 6 → 0x80 ≤ leAt pl 0 1 → exec (.blockReceived l h pl) s = blockTo (if x.st = 6 then streamIn t l 6 pl else t)) ∧
          (h = 6 → leAt pl 0 1 < 0x80 → exec (.blockReceived l h pl) s = blockTo (controlBlock t l pl))) ∧
        (ok = true → x.st = 3 → x.lock = false → x.run = 63 → h ≠ 6 → ∃ u, exec (.blockReceived l h pl) s = blockTo u ∧
          (laneOf u l).st = 4 ∧ (laneOf u l).lock = true ∧ (laneOf u l).scr = d.2) ∧
        (ok = false → x.lock = false ∨ y.lock = true → exec (.blockReceived l h pl) s = blockTo (if (laneOf bad l).st = 6 then streamIn bad l 0 [] else bad)) ∧
        (ok = false → x.lock = true → y.lock = false → exec (.blockReceived l h pl) s = blockTo (laneRecover bad l 1))) ∧
      (∀ pl : List Byte,
        (controlOk pl 0 = true → leAt pl 1 4 < 2 ^ 31 → exec (.skipReceived l pl) s = laneTo (setLane s l fun y => { y with scr := leAt pl 1 4, aligned := y.aligned || y.st == 6 })) ∧
        (controlOk pl 0 = false ∨ 2 ^ 31 ≤ leAt pl 1 4 → exec (.skipReceived l pl) s = laneTo s) ∧
        (controlOk pl 1 = false → exec (.trainReceived l pl) s = laneTo s) ∧
        (controlOk pl 1 = true →
          let y := { x with asked := leAt pl 4 1, kept := (if x.st = 4 ∧ leAt pl 4 1 ≠ 255 then leAt pl 4 1 else x.kept), ready := (if x.st = 1 ∧ bitAt (leAt pl 5 1) 0 = true then min 8 (x.ready + 1) else x.ready), handIn := x.handIn || (x.st == 5 && bitAt (leAt pl 5 1) 1) }
          let t := setLane s l fun _ => y
          (x.st = 5 → x.handOwn = true → y.handIn = true → exec (.trainReceived l pl) s = laneTo (laneEnters t l)) ∧
          (x.st = 1 → x.lock = true → 8 ≤ y.ready → exec (.trainReceived l pl) s = laneTo (enterLane t l 2)) ∧
          (x.st = 3 → x.lock = true → exec (.trainReceived l pl) s = laneTo (enterLane t l 4)) ∧
          (¬(x.st = 5 ∧ x.handOwn = true ∧ y.handIn = true) → ¬(x.st = 1 ∧ x.lock = true ∧ 8 ≤ y.ready) → ¬(x.st = 3 ∧ x.lock = true) →
            exec (.trainReceived l pl) s = laneTo t)) ∧
        (controlOk pl 2 = false ∨ x.st ≠ 2 → exec (.capsReceived l pl) s = laneTo s) ∧
        (controlOk pl 2 = true → x.st = 2 →
          let n := if x.caps = pl then x.capsN + 1 else 1
          let t := setLane s l fun y => { y with caps := pl, capsN := n }
          (n < 8 → exec (.capsReceived l pl) s = laneTo t) ∧ (8 ≤ n → exec (.capsReceived l pl) s = laneTo (capsDone t l pl)))) ∧
      (∀ w : Nat,
        let ws := x.widths ++ [w]
        let best := ws.foldl max 0
        let t := setLane s l fun y => { y with widths := ws }
        let n := presetCount s l
        let u := setLane t l fun y => { y with preset := (ws.findIdx? (· == best)).getD 0 }
        (x.st ≠ 4 → exec (.eqPresetMeasured l w) s = laneTo s) ∧
        (x.st = 4 → ws.length < n → exec (.eqPresetMeasured l w) s = laneTo (adaptCtle t l)) ∧
        (x.st = 4 → n ≤ ws.length → best < 2 * getF s (laneCtrl l) 8 6 → exec (.eqPresetMeasured l w) s = laneTo (laneFail t l 6)) ∧
        (x.st = 4 → n ≤ ws.length → 2 * getF s (laneCtrl l) 8 6 ≤ best →
          exec (.eqPresetMeasured l w) s = laneTo (if n = 5 then laneEnters u l else enterLane u l 5))) ∧
      (x.st = 1 ∨ x.st = 3 → exec (.trainingTimeout l) s = laneTo (laneFail s l 1)) ∧
      (x.st = 2 → exec (.trainingTimeout l) s = laneTo (laneFail s l 2)) ∧
      (x.st = 4 → exec (.trainingTimeout l) s = laneTo (laneFail s l 6)) ∧
      (x.st = 5 → exec (.trainingTimeout l) s = laneTo (laneFail s l 7)) ∧
      (x.st = 7 → exec (.trainingTimeout l) s = laneTo (laneRetire s l x.reason)) ∧
      (x.st ∉ [1, 2, 3, 4, 5, 7] → exec (.trainingTimeout l) s = laneTo s) ∧
      (∀ d : Int, (-650 : Int) ≤ d → d ≤ 650 → exec (.laneRateWindow l (some d)) s = laneTo s) ∧
      (∀ d : Int, 650 < d ∨ d < (-650 : Int) → exec (.laneRateWindow l (some d)) s = laneTo (laneRecover s l 8)) ∧
      exec (.laneRateWindow l none) s = laneTo (laneRecover s l 8) ∧
      (x.st = 5 → exec (.marginRound l true) s = laneTo s ∧
        (let t := setLane s l fun y => { y with handOwn := true }
         exec (.marginRound l false) s = laneTo (if x.handIn = true then laneEnters t l else t))) ∧
      (x.st = 7 → exec (.marginRound l true) s = laneTo s ∧ exec (.marginRound l false) s = laneTo (if x.lock = true then laneEnters s l else s)) ∧
      (x.st = 6 → eyeRuns s l = true → ∀ e, exec (.marginRound l e) s = laneTo s) ∧
      (x.st = 6 → eyeRuns s l = false → exec (.marginRound l false) s = laneTo (setLane s l fun y => { y with badRounds := 0 }) ∧
        exec (.marginRound l true) s = laneTo (if x.badRounds = 1 then laneRecover s l 11 else setLane s l fun y => { y with badRounds := 1 })) ∧
      (x.st ∉ [5, 6, 7] → ∀ e, exec (.marginRound l e) s = laneTo s)) ∧
    (∀ (l : Lane) (r : Nat),
      let x := laneOf s l
      let recent := (s.now :: x.errs).filter fun t => decide (s.now < t + 1000000000)
      (recent.length ≤ 16 ∨ laneRetired s l = true → laneError s l = setLane s l fun y => { y with errs := recent.take 17 }) ∧
      (16 < recent.length → laneRetired s l = false → laneError s l = laneRetire (setLane s l fun y => { y with errs := [] }) l 10) ∧
      laneRetired (laneRetire s l r) l = true ∧ ((laneOf (laneRetire s l r) l).st = 0 ∨ (laneOf (laneRetire s l r) l).st = 9) ∧
      (x.st ≠ 6 → laneRecover s l r = s) ∧
      (x.st = 6 → (laneOf (laneRecover s l r) l).st = 7 ∧ (laneOf (laneRecover s l r) l).reason = r ∧ (laneOf (laneRecover s l r) l).lock = false ∧
        ∀ k, k ≠ l → laneOf (laneRecover s l r) k = laneOf s k) ∧
      (laneRegion l = 14 → laneFail s l r = groupFail s l r ∧ (laneOf (groupFail s l r) l).st = 9) ∧
      (∀ caps, negotiate s l caps = .error r → capsDone s l caps = laneFail s l r)) ∧
    (∀ (p i : Fin 4) (caps : List Byte),
      let l : Lane := .src p i
      let k := qtzPortLinkStatus p.val
      let role := leAt caps 3 1 / 2 % 4
      let own := getF s (qtzPortLinkCtrl p.val) 1 1
      let plain := leAt caps 3 1 % 2 = 0 ∧ role ≤ 1 ∧ role ≠ own
      (leAt caps 3 1 % 2 = 1 → negotiate s l caps = .error 2) ∧
      (leAt caps 3 1 % 2 = 0 → 1 < role ∨ role = own → negotiate s l caps = .error 3) ∧
      (plain → leAt caps 1 1 = 0 → negotiate s l caps = .error 4) ∧
      (∀ pv, plain → versionCode (leAt caps 1 1) (leAt caps 2 1) = some pv →
        let v := min pv (getF s (qtzPortLinkCtrl p.val) 5 2)
        let rates := ratesOffered s l &&& leAt caps 4 1 &&& versionRates v
        (rates = 0 → negotiate s l caps = .error 5) ∧ (rates ≠ 0 → negotiate s l caps = .ok (v, rates.log2))) ∧
      (∀ v r, negotiate s l caps = .ok (v, r) →
        (getF s k 20 4 = 0 → getF (capsDone s l caps) k 26 2 = v % 4 ∧ getF (capsDone s l caps) k 24 2 = r % 4) ∧
        (getF s k 20 4 ≠ 0 → capsDone s l caps = if (laneOf s l).st = 2 then enterLane s l 3 else s)) ∧
      (∀ r, r ≠ 7 → laneFail s l r = portFail s p r) ∧
      (∀ r, getF (portFail s p r) k 0 8 = r % 256 ∧ (laneOf (portFail s p r) l).st = 0) ∧
      (laneTakesPart s p i → (laneOf (trainPort s p) l).st = 1) ∧ (¬laneTakesPart s p i → (laneOf (trainPort s p) l).st = 0) ∧
      (laneTakesPart s p i → (laneOf (allLanes s p 8) l).st = 8)) ∧
    (∀ (p : Fin 4) (q : Requester) (v : Word),
      let k := qtzPortLinkCtrl p.val
      let on := readReg s k ||| 1
      let again := readReg s k ||| 0x80
      (serves s 3 = false → exec (.linkEnable (.port p)) s = .next s ∧ exec (.linkRetrain p q) s = .next s ∧
        exec (.laneTest .quartz p q v) s = .next s ∧ exec (.trainingRetry p) s = .next s) ∧
      (serves s 3 = true →
        exec (.linkEnable (.port p)) s = .next (linkCtrlEffect s (writeKey s k on) p on) ∧
        exec (.linkRetrain p q) s = .next (linkCtrlEffect s (writeKey (reqMeets s q 3) k again) p again) ∧
        exec (.laneTest .quartz p q v) s = .next (linkCtrlEffect s (writeKey (reqMeets s q 3) k v) p v) ∧
        exec (.trainingRetry p) s = .next (if getB s k 0 = true ∧ linkState s p = 0 then trainPort s p else s)) ∧
      (serves s 14 = false → exec (.laneTest .obsidian p q v) s = .next s ∧ exec (.linkEnable .backchannel) s = .next s) ∧
      (serves s 14 = true →
        let t := writeKey (reqMeets s q 14) obsLinkCtrl v
        let was := getB s obsLinkCtrl 2
        exec (.laneTest .obsidian p q v) s = laneTo
          (if v.getLsbD 2 = true ∧ was = false then panelAll t 8
           else if v.getLsbD 2 = false ∧ was = true then (if s.obs.state = .off ∨ s.obs.state = .safe then panelAll t 0 else panelTrain (panelAll t 0))
           else t))) ∧
    (∀ g : Fin 13,
      (serves s 14 = false → exec (.linkEnable (.group g)) s = .next s) ∧
      (serves s 14 = true → (∃ j : Fin 4, (laneOf s (.panel g j)).st ≠ 0) → exec (.linkEnable (.group g)) s = .next s) ∧
      (serves s 14 = true → (∀ j : Fin 4, (laneOf s (.panel g j)).st = 0) → ∃ t, exec (.linkEnable (.group g)) s = .next t ∧
        ∀ j : Fin 4, g.val < 12 → (laneOf t (.panel g j)).st = if j.val < panelLanes s ∧ laneRetired s (.panel g j) = false then 1 else 0)) ∧
    (serves s 14 = true → (∀ j : Fin 4, (laneOf s (.back j)).st = 0) → ∃ t, exec (.linkEnable .backchannel) s = .next t ∧
      ∀ j : Fin 4, (laneOf t (.back j)).st = if laneRetired s (.back j) = false then 1 else 0) ∧
    (∀ (n : Nat) (pl : List Byte), scramble n (scramble n pl).1 = (pl, (scramble n pl).2)) ∧
    (∀ (l : Lane) (swap : Option (Nat × Nat)), (laneOf s l).st = 6 →
      let x := laneOf s l
      let sent (skip : Bool) (sw : Option (Nat × Nat)) (b : Option TxBlock) : LaneSt := laneOf (laneSends s l skip sw b) l
      let out (h : Nat) (bs : List Byte) : Option LaneOut := some ⟨laneGbps s l, presetTaps (txPreset s l), h, bs⟩
      (∀ b, (sent true swap b).out = out 6 (skipBytes x.txScr) ∧ (sent true swap b).txScr = x.txScr) ∧
      (∀ pos spare b, (sent false (some (pos, spare)) b).out = out 6 (swapBytes pos spare)) ∧
      (∀ k : TxBlock, k.header ≠ 6 → (sent false none (some k)).out = out k.header (scramble x.txScr k.payload).1 ∧
        (sent false none (some k)).txScr = (scramble x.txScr k.payload).2) ∧
      (∀ k : TxBlock, k.header = 6 → (sent false none (some k)).out = out 6 k.payload) ∧
      (sent false none none).out = out 5 (scramble x.txScr (List.replicate 16 0)).1)

/-- A packet on a link not in ACTIVE changes nothing. A damaged one, one that breaks R319, and one ahead of the expected SEQ are discarded with one NAK of the last accepted SEQ until a packet is accepted; one behind is discarded with an ACK; the expected one is accepted with an ACK, its credits are owed, and its bytes of CHANNEL 0 go to the port. An ACK of a packet in the replay buffer frees it and all before it; a NAK does so and sends the rest again; the replay time-out sends all again, and after 4 times without progress the link's lanes enter RECOVERY. CREDIT adds to its channel's credits. The blocks of a packet that is sent, received in their order, are that packet again, undamaged. With nothing owed and nothing waiting a link sends nothing; owed credits go back. ACK, NAK and CREDIT blocks act as their rows. A LINE_REPORT with a good CRC counts each group's damaged LINEs, raises LINE_CRC_FAILED once per phase, and sends a lane with its bit set, or the spare in its place, to RECOVERY. EYE_START with START samples a point in place of one that runs; its end leaves VALID and the count, at most 2^30 - 1. TIME_LINK shows UP and raises its event. -/
def Obligations.LinkPacketsAndReports : Prop :=
  ∀ s : State,
    (∀ (p : Fin 4) (k : SlPacket),
      let x := s.links.port[p]
      let seq := leAt k.start 2 2 % 4096
      let ahead := (seq + 4096 - x.seqRx) % 4096
      let last := (x.seqRx + 4095) % 4096
      let bad := packetDamaged k = true ∨ packetKept k = false ∨ (0 < ahead ∧ ahead < 2048)
      let c : Fin 2 := Fin.ofNat 2 (leAt k.start 2 2 / 4096)
      (serves s 3 = false ∨ linkState s p ≠ 6 → exec (.packetReceived p k) s = .next s) ∧
      (serves s 3 = true → linkState s p = 6 →
        (bad → x.nakSent = true → exec (.packetReceived p k) s = .next s) ∧
        (bad → x.nakSent = false → exec (.packetReceived p k) s = .next (sendAck (setSl s p fun x => { x with nakSent := true }) p true last)) ∧
        (¬bad → 2048 ≤ ahead → exec (.packetReceived p k) s = .next (sendAck s p false last)) ∧
        (¬bad → ahead = 0 →
          let t := sendAck (setSl s p fun x => { x with
            seqRx := (seq + 1) % 4096, nakSent := false, owed := x.owed.set c (x.owed[c] + creditsOf k.body.length) }) p false seq
          exec (.packetReceived p k) s = .next (linkRun (if c = 0 then feedLink t p k.body else t) p)))) ∧
    (∀ (p : Fin 4) (seq : BitVec 12) (c : Fin 2) (n : BitVec 16),
      let x := s.links.port[p]
      (serves s 3 = false → exec (.ackReceived p seq) s = .next s ∧ exec (.nakReceived p seq) s = .next s ∧
        exec (.replayTimeout p) s = .next s ∧ exec (.creditReceived p c n) s = .next s) ∧
      (serves s 3 = true →
        ((∀ o ∈ x.replay, o.seq ≠ seq.toNat) → exec (.ackReceived p seq) s = .next s ∧ exec (.nakReceived p seq) s = .next (resend s p)) ∧
        (∀ i, x.replay.findIdx? (fun o => o.seq == seq.toNat) = some i →
          let t := linkRun (setSl s p fun y => { y with replay := y.replay.drop (i + 1), resent := 0 }) p
          exec (.ackReceived p seq) s = .next t ∧ exec (.nakReceived p seq) s = .next (resend t p)) ∧
        exec (.replayTimeout p) s = .next (resend s p) ∧
        exec (.creditReceived p c n) s = .next (linkRun (setSl s p fun y => { y with credit := y.credit.set c (y.credit[c] + n.toNat) }) p)) ∧
      (x.replay = [] → resend s p = s) ∧
      (x.replay ≠ [] → x.resent < 4 → resend s p = portQueue (setSl s p fun y => { y with resent := y.resent + 1 }) p (x.replay.flatMap slBlocks)) ∧
      (x.replay ≠ [] → 4 ≤ x.resent → (resend s p).links.port[p] = { x with resent := 0 } ∧
        ∀ i : Fin 4, (laneOf s (.src p i)).st = 6 → (laneOf (resend s p) (.src p i)).st = 7 ∧ (laneOf (resend s p) (.src p i)).reason = 9) ∧
      (x.owed = Vector.replicate 2 0 → (qport s p).statusOut = [] → returnBytes s p = [] → linkRun s p = s) ∧
      ((qport s p).held = [] → ((creditBack s p).links.port[p]).owed = Vector.replicate 2 0 ∧
        ((creditBack s p).links.srcTx[p]).queue = (s.links.srcTx[p]).queue ++
          (if x.owed[0] = 0 then [] else [⟨6, creditBytes 0 x.owed[0]⟩]) ++ (if x.owed[1] = 0 then [] else [⟨6, creditBytes 1 x.owed[1]⟩])) ∧
      (maySend s p c n.toNat = true → linkState s p = 6 ∧ creditsOf n.toNat ≤ x.credit[c] ∧ x.replay.length < 2048) ∧
      (∀ body : List Byte, creditsOf body.length ≤ x.credit[c] →
        ((sendPacket s p c body).links.port[p]).credit[c] + creditsOf body.length = x.credit[c] ∧
        ((sendPacket s p c body).links.port[p]).replay = x.replay ++ [⟨x.seqTx, c.val, body⟩] ∧
        ((sendPacket s p c body).links.srcTx[p]).queue = (s.links.srcTx[p]).queue ++ packetBlocks 0 x.seqTx c.val body false false)) ∧
    (∀ (seq ch : Nat) (body : List Byte), seq < 4096 → ch < 2 → 8 ≤ body.length → body.length ≤ 4096 → ∃ k n,
      assembled (packetBlocks 0 seq ch body false false) = (none, List.replicate n .nothing ++ [.packet k]) ∧ k.body = body ∧
      leAt k.start 2 2 = seq + 4096 * ch ∧ packetDamaged k = false ∧ packetKept k = true) ∧
    (∀ (p i : Fin 4) (pl : List Byte),
      let v := leAt pl 1 2
      (controlOk pl 0x80 = true → portBlock s p ⟨6, pl⟩ = ackIn s p (v % 4096)) ∧
      (controlOk pl 0x81 = true → portBlock s p ⟨6, pl⟩ = nakIn s p (v % 4096)) ∧
      (controlOk pl 0x82 = true → leAt pl 1 1 < 2 → portBlock s p ⟨6, pl⟩ = creditIn s p (Fin.ofNat 2 (leAt pl 1 1)) (leAt pl 2 2)) ∧
      backBlock s i 6 pl = lineReportIn s i pl) ∧
    (∀ (b : Fin 4) (pl : List Byte),
      (serves s 14 = false → exec (.lineReport b pl) s = .next s) ∧
      (serves s 14 = true → controlOk pl 0x83 = false → exec (.lineReport b pl) s = laneTo s) ∧
      (serves s 14 = true → controlOk pl 0x83 = true →
        exec (.lineReport b pl) s = laneTo (groupReport (groupReport (groupReport s b pl 0) b pl 1) b pl 2)) ∧
      (∀ k, k < 3 →
        let g : Fin 13 := Fin.ofNat 13 (3 * b.val + k)
        let mask := leAt pl (3 + 2 * k) 2
        let t := bump s obsLineCrcFails
        let lanes (t : State) : State := (List.finRange 4).foldl (fun s j =>
          let l := (spareFor s g j).getD (.panel g j)
          if bitAt (leAt pl 9 2) (4 * k + j.val) then laneRecover (laneError s l) l 1 else s) t
        (mask = 0 → groupReport s b pl k = lanes s) ∧
        (mask ≠ 0 → g.val ∈ s.links.crcRaised → groupReport s b pl k = lanes t) ∧
        (mask ≠ 0 → g.val ∉ s.links.crcRaised → groupReport s b pl k = lanes
          (raise (setLinks t fun x => { x with crcRaised := g.val :: x.crcRaised }) 1 14 0x0A3 g.val 0xFF (leAt pl 1 2 + 65536 * mask))))) ∧
    (∀ (r : LinkRegion) (q : Requester) (v : Word) (n : Nat),
      let reg := if r = .quartz then 3 else 14
      let c := if r = .quartz then qtzEyeCtrl else obsEyeCtrl
      let res := if r = .quartz then qtzEyeResult else obsEyeResult
      let i : Fin 2 := if r = .quartz then 0 else 1
      let t := writeKey (reqMeets s q reg) c v
      (serves s reg = false → exec (.eyeStart r q v) s = .next s ∧ exec (.eyePointDone r n) s = .next s) ∧
      (serves s reg = true →
        (v.getLsbD 31 = false → exec (.eyeStart r q v) s = .next t) ∧
        (v.getLsbD 31 = true → exec (.eyeStart r q v) s = .next
          (setReg (setLinks t fun k => { k with eye := k.eye.set i (some (v.toNat % 64)) }) res 0x80000000)) ∧
        (s.links.eye[i] = none → exec (.eyePointDone r n) s = .next s) ∧
        (s.links.eye[i].isSome = true → exec (.eyePointDone r n) s = .next
          (setReg (setLinks s fun k => { k with eye := k.eye.set i none }) res (BitVec.ofNat 32 (2 ^ 30 + min n (2 ^ 30 - 1))))))) ∧
    (∀ up refused : Bool,
      (serves s 15 = false → exec (.timeLink up refused) s = .next s) ∧
      (serves s 15 = true →
        let on := up && !refused && getB s grnTimeLinkCtrl 0
        exec (.timeLink up refused) s = .next
          (raise (setF s grnTimeLinkStatus 0 1 (if on then 1 else 0)) 1 15 0x0A0 6 0xFF ((if on then 1 else 0) + 2 * (if refused then 1 else 0)))))

namespace Sys2Proof.Says

/-- The commands of a region that does not serve do nothing (R24). -/
def silent (s : State) (cs : List Instr) : Prop := ∀ c ∈ cs, exec c s = .next s

/-- A port's register after a clock measurement: VALID, the nominal rate, the deviation (R354, R358). -/
def measured (m : Word) (nominal : Nat) (dev : Int) : Word :=
  setFld (setFld (setFld m 31 1 1) 24 5 nominal) 0 24 (wrapInt (satInt dev 24) 24)

/-- An armed port that has not started starts with a frame at this instant, in 2^-16 ns (R346). -/
def portBegins (s : State) (op : Fin 4) (instant : Nat) : Prop :=
  getB s grnStartCtrl (8 + op.val) = true ∧ (s.audio.ports[outPort op]).started = false ∧ 65536 * s.audio.startAt ≤ instant

/-- The time-out of a stop has passed: 4 nominal frame periods for a port, LATENCY_US for embedded audio (R354). -/
def stopDue (s : State) (clk : Fin 10) : Prop :=
  ∃ t, (meterOf s clk).since = some t ∧
    t + (if clk.val < 6 then 4 * fineSecond / clkHz s clk else 65536000 * getF s grnEmbedCtrl 0 16) ≤ nowFine s

end Sys2Proof.Says

/-- While Garnet does not serve, audio commands change nothing, except that a PROVIDER port of a powered Garnet keeps its grid and sends zeros. A write of a port's control register clears a port whose ENABLE is 0, starts one whose ENABLE rises within the limits, and refuses it by event 0x0CA with 2 for SLOTS or 1 for BCLK. ARM with a START less than 100 us ahead raises 0x0C8 and arms none; else it arms the named ports that run and have not started. STOP lets the named started output ports stop at their next frame. A port sends the frame of the grid of R345 that has begun and that it has not sent; at the start time an armed port starts, with the AUDIO triggers of its port. A frame of a stopping port is zeros and ends it; of one not started, zeros; of one started, one slot per channel, 0 for a channel with no route; its bits are on SD, and FSYNC, as R343 lays them out. FSYNC of a following output port sends a frame, of an input port takes the samples, and a frame whose interval or BCLK count is wrong counts an error. The ramp begins after 10 ms of underrun. A clock stops by its time-out and its ratio is lost, a measurement reports the nearest rate and the deviation that the frames stamped over a second give, and one that names others does nothing, and ASRC_ACQUIRED shows the ratio tracked. A write of the group's register defines it in MISMATCH until judged, or ends it; its FIFO holds 64 frames and drops the oldest. -/
def Obligations.AudioCommands : Prop :=
  ∀ s : State,
    (∀ (pt : Fin 6) (q : Requester) (v : Word) (op : Fin 4) (ch : Fin 16) (info : FsyncInfo) (clk : Fin 10) (nom : Fin 7) (dev : Int),
      serves s 15 = false → silent s [.audioPortEnable pt q v, .audioArm q v, .audioStop q v, .audioStartTime op,
        .underrunRamp op ch, .fsyncEdge pt info, .clockStopped clk, .clockMeasurement clk nom dev, .lockGroupEnable q v, .asrcAcquired clk]) ∧
    (serves s 15 = true →
      (∀ (pt : Fin 6) (q : Requester) (v : Word),
        let k := grnOpCtrl pt.val
        let t := writeKey (reqMeets s q 15) k v
        let w := readReg t k
        (getB t k 0 = false → exec (.audioPortEnable pt q v) s = .next (setF (setAPort t pt fun _ => {}) k 3 1 0)) ∧
        (getB t k 0 = true → getB s k 0 = true → exec (.audioPortEnable pt q v) s = .next t) ∧
        (getB t k 0 = true → getB s k 0 = false → portRefusal w ≠ 0 → exec (.audioPortEnable pt q v) s = .next (grnEvent t 0x0CA pt.val (portRefusal w))) ∧
        (getB t k 0 = true → getB s k 0 = false → portRefusal w = 0 → exec (.audioPortEnable pt q v) s = .next
          (setMeter (setAPort t pt fun _ => { run := some w, k := some (gridFrame s (rateHz (portRate w))) }) pt.val
            fun _ => { since := if portFollows w = true then some (nowFine s) else none }))) ∧
      (∀ (q : Requester) (v : Word),
        let t := writeKey (reqMeets s q 15) grnStartCtrl v
        let ports := getF t grnStartCtrl 4 4
        let start := ((readReg t grnStartSecHi).toNat * 2 ^ 32 + (readReg t grnStartSecLo).toNat) * 1000000000 + getF t grnStartNs 0 30
        (v.getLsbD 0 = false → exec (.audioArm q v) s = .next t) ∧
        (v.getLsbD 0 = true → start < timeNs s.time + 100000 →
          exec (.audioArm q v) s = .next (grnEvent (setF t grnStartCtrl 8 4 0) 0x0C8 0xFF ports)) ∧
        (v.getLsbD 0 = true → timeNs s.time + 100000 ≤ start →
          exec (.audioArm q v) s = .next (setF (setAudio t fun a => { a with startAt := start }) grnStartCtrl 8 4 (armable t ports))) ∧
        (v.getLsbD 1 = false → exec (.audioStop q v) s = .next t) ∧
        (v.getLsbD 1 = true → ∃ u, exec (.audioStop q v) s = .next u ∧ u.regs = t.regs ∧ u.audio.paths = s.audio.paths ∧
          ∀ i : Fin 6, u.audio.ports[i] = if i.val < 4 ∧ bitAt ports i.val = true
            then { s.audio.ports[i] with stopping := (s.audio.ports[i]).started } else s.audio.ports[i])) ∧
      (∀ op : Fin 4, getB s grnStartCtrl (8 + op.val) = false ∨ timeNs s.time < s.audio.startAt → exec (.audioStartTime op) s = .next s) ∧
      (∀ op : Fin 4, ∃ u, exec (.audioStartTime op) s = .next u ∧ u.mem = s.mem ∧ u.time = s.time ∧ ∀ w : Word,
        let x := s.audio.ports[outPort op]
        let k := gridFrame s (rateHz (portRate w))
        x.run = some w → portFollows w = false → x.k ≠ some k → portBegins s op (gridTime (rateHz (portRate w)) k) → s.audio.startAt ≤ timeNs s.time →
          (u.audio.ports[outPort op]).started = true ∧ (u.audio.ports[outPort op]).k = some k ∧ getB u grnStartCtrl (8 + op.val) = false ∧
          getB u (grnOpCtrl op.val) 3 = true) ∧
      (∀ (op : Fin 4) (ch : Fin 16),
        let x := (s.audio.paths[op])[ch]
        let n := if inLock s op.val ch.val = true then s.audio.lock.under else x.under
        exec (.underrunRamp op ch) s = .next
          (if x.ramp = none ∧ rateHz (portRate (((s.audio.ports[outPort op]).run).getD 0)) ≤ 100 * n.getD 0 then setPath s op ch fun y => { y with ramp := some 0 } else s)) ∧
      (∀ (pt : Fin 6) (info : FsyncInfo),
        let x := s.audio.ports[pt]
        (x.run = none → exec (.fsyncEdge pt info) s = .next s) ∧
        (∀ w, x.run = some w → portFollows w = false → exec (.fsyncEdge pt info) s = .next s) ∧
        (∀ w, x.run = some w → portFollows w = true →
          let t := clockStamp s pt.val 1
          let good := (∀ b, (meterOf s pt.val).seen = some b → intervalOk (nowFine s - b) (clkHz s pt.val) = true) ∧ info.bclks = portSlots w * portWidth w
          let fr := (info.samples.take (portSlots w)).map fun y => if portWidth w = 16 then y.toNat / 256 * 256 else y.toNat
          (∀ h : pt.val < 4,
            let k := gridFrame s (rateHz (portRate w))
            (good → exec (.fsyncEdge pt info) s = .next (audioThen s fun _ => audioOut t ⟨pt.val, h⟩ k (nowFine s))) ∧
            (¬good → exec (.fsyncEdge pt info) s = .next (audioThen s fun _ => audioOut (frameError t pt) ⟨pt.val, h⟩ k (nowFine s)))) ∧
          (4 ≤ pt.val → good → lockOn s = false ∨ lockClk s ≠ pt.val → exec (.fsyncEdge pt info) s = .next (setInput t (pt.val - 4) (some fr))) ∧
          (4 ≤ pt.val → good → lockOn s = true → lockClk s = pt.val →
            exec (.fsyncEdge pt info) s = .next (lockPush (setInput t (pt.val - 4) (some fr)) (lockSlice s fr 0))) ∧
          (4 ≤ pt.val → ¬good → exec (.fsyncEdge pt info) s = .next (frameError (setInput t (pt.val - 4) none) pt)))) ∧
      (∀ clk : Fin 10,
        let k := grnMeas clk.val
        let m := meterOf s clk.val
        (clkStopped s clk.val = true → exec (.clockStopped clk) s = .next s ∧ exec (.asrcAcquired clk) s = .next s) ∧
        (¬stopDue s clk → exec (.clockStopped clk) s = .next s) ∧
        (clkStopped s clk.val = false → stopDue s clk → exec (.clockStopped clk) s = .next
          (grnEvent (setMeter (setF (setF s k 30 1 1) k 29 1 0) clk.val fun _ => {}) 0x0C1 (clkBlock clk.val) clk.val)) ∧
        (clkStopped s clk.val = false → exec (.asrcAcquired clk) s = .next (setF s k 29 1 1)) ∧
        (m.first = none ∨ m.seen = none → ∀ nom dev, exec (.clockMeasurement clk nom dev) s = .next s) ∧
        (∀ a b, m.first = some a → m.seen = some b →
          let isDue := a + fineSecond ≤ nowFine s ∧ m.frames ≠ 0 ∧ a < b
          let c := nearestRate m.frames (b - a)
          let d := rateDev m.frames (b - a) (rateHz c)
          (∀ nom dev, ¬isDue ∨ nom.val ≠ c ∨ dev ≠ d → exec (.clockMeasurement clk nom dev) s = .next s) ∧
          (∀ nom : Fin 7, isDue → nom.val = c → exec (.clockMeasurement clk nom d) s = .next
            (clockReport (setMeter s clk.val fun m => { m with first := m.seen, frames := 0 }) clk.val c d))) ∧
        (∀ (nom : Nat) (dev : Int), nom < 7 → lockOn s = false ∨ lockClk s ≠ clk.val →
          let r := readReg s k
          let before := if r.getLsbD 31 then fld r 24 3 else if clk.val < 6 then portRate (readReg s (grnOpCtrl clk.val)) else nom
          let w := measured r nom dev
          (before = nom → dev.natAbs ≤ 10000 → clockReport s clk.val nom dev = setReg s k w) ∧
          (before ≠ nom ∨ 10000 < dev.natAbs → clockReport s clk.val nom dev =
            grnEvent (setReg s k (setFld w 29 1 0)) 0x0C0 (clkBlock clk.val)
              (clk.val + 16 * nom + 65536 * wrapInt (satInt (dev.tdiv 10) 16) 16)))) ∧
      (∀ (q : Requester) (v : Word),
        let t := setLock (writeKey (reqMeets s q 15) grnLockCtrl v) fun _ => {}
        (lockOn t = false → exec (.lockGroupEnable q v) s = .next (lockFill (setLockState t 0))) ∧
        (lockOn t = true → exec (.lockGroupEnable q v) s = .next (lockJudge (lockFill (setLockState t 3)))))) ∧
    -- frames
    (∀ op : Fin 4,
      let x := s.audio.ports[outPort op]
      (x.run = none → exec (.audioFrame op) s = .next s) ∧
      (∀ w, x.run = some w →
        let hz := rateHz (portRate w)
        let k := gridFrame s hz
        let zero := List.replicate (portSlots w) 0
        let put (y : AudioPort) : AudioPort := { frameOut y w zero with k := some k }
        let begins := portBegins s op (gridTime hz k)
        (portFollows w = true ∨ x.k = some k ∨ (serves s 15 = false ∧ isPowered s 15 = false) → exec (.audioFrame op) s = .next s) ∧
        (portFollows w = false → x.k ≠ some k →
          (serves s 15 = false → isPowered s 15 = true → exec (.audioFrame op) s = .next (setAPort s (outPort op) put)) ∧
          (serves s 15 = true → ¬begins → x.stopping = true → exec (.audioFrame op) s = .next
            (setF (setAPort s (outPort op) fun y => { put y with started := false, stopping := false }) (grnOpCtrl op.val) 3 1 0)) ∧
          (serves s 15 = true → ¬begins → x.stopping = false → x.started = false → exec (.audioFrame op) s = .next (setAPort s (outPort op) put)) ∧
          (serves s 15 = true → begins ∨ (x.stopping = false ∧ x.started = true) → ∃ u, exec (.audioFrame op) s = .next u ∧ u.mem = s.mem ∧
            (u.audio.ports[outPort op]).sd.length = portSlots w ∧ (u.audio.ports[outPort op]).k = some k ∧ (u.audio.ports[outPort op]).started = true) ∧
          (serves s 15 = true → x.stopping = false → x.started = true → lockOn s = false →
            (∀ c : Fin 16, c.val < portSlots w → sourceHas s (readReg s (grnRoute (16 * op.val + c.val))) (timeNs s.time) = none) →
            ∃ u, exec (.audioFrame op) s = .next u ∧ (u.audio.ports[outPort op]).sd = zero ∧ u.regs = s.regs ∧ u.evNet = s.evNet)))) ∧
    (∀ hz k : Nat, 0 < hz → (gridTime hz k ≤ nowFine s ↔ k ≤ gridFrame s hz)) ∧
    (∀ (x : AudioPort) (w : Word) (l : List Nat) (i : Nat), i < l.length * portWidth w →
      let n := portWidth w
      let wire := (frameOut x w l).wire
      (frameOut x w l).sd = l ∧ wire.length = l.length * n ∧
      (w.getLsbD 1 = true → w.getLsbD 12 = false → wire[i]? = some (i == 0, bitAt (l.getD (i / n) 0) (n - 1 - i % n))) ∧
      (w.getLsbD 1 = true → w.getLsbD 12 = true → wire[i]? = some (i == 0, if i = 0 then bitAt (x.sd.getLastD 0) 0 else bitAt (l.getD ((i - 1) / n) 0) (n - 1 - (i - 1) % n))) ∧
      (w.getLsbD 1 = false → wire[i]? = some (decide (n ≤ i), if i = 0 then bitAt (x.sd.getLastD 0) 0 else bitAt (l.getD ((i - 1) / n) 0) (n - 1 - (i - 1) % n)))) ∧
    -- what starts sets off
    (∀ t : State,
      ((∀ op : Fin 4, (t.audio.ports[outPort op]).started = true → (s.audio.ports[outPort op]).started = true) → audioThen s (fun _ => t) = t) ∧
      (∀ (op n : Fin 4) (c : TrigCfg), (t.audio.ports[outPort op]).started = true → (s.audio.ports[outPort op]).started = false →
        (t.tport.trg[n]).cfg = some c → c.mode = 5 → c.port = op.val →
        ((audioThen s (fun _ => t)).tport.trg[n]).edges = (t.tport.trg[n]).edges ++ [timeNs t.time + c.offset] ∧
        ((audioThen s (fun _ => t)).tport.trg[n]).cfg = some { c with mode := 7 })) ∧
    (∀ n span : Nat, 0 < span →
      nearestRate n span < 7 ∧
      (∀ c : Nat, c < 7 → ((n * fineSecond : Nat) - (rateHz (nearestRate n span) * span : Nat) : Int).natAbs ≤ ((n * fineSecond : Nat) - (rateHz c * span : Nat) : Int).natAbs) ∧
      (∀ hz : Nat, 0 < hz → 2 * (rateDev n span hz * (hz * span : Nat) - 10000000 * ((n * fineSecond : Nat) - (hz * span : Nat))).natAbs ≤ hz * span)) ∧
    (∀ (n : Nat) (w : Word),
      (portRefusal w = 2 ↔ w.getLsbD 1 = false ∧ portSlots w ≠ 2) ∧
      (portRefusal w = 1 ↔ (w.getLsbD 1 = true ∨ portSlots w = 2) ∧ 24576000 < rateHz (portRate w) * portSlots w * portWidth w) ∧
      (bitAt (armable s n) 0 = true ↔ bitAt n 0 = true ∧ (s.audio.ports[0]).run.isSome = true ∧ (s.audio.ports[0]).started = false)) ∧
    (∀ fr : List Nat,
      let l := s.audio.lock.fifo
      (lockOn s = false ∨ s.audio.lock.accepted = false → lockPush s fr = s) ∧
      (lockOn s = true → s.audio.lock.accepted = true → l.length < 64 → (lockPush s fr).audio.lock.fifo = l ++ [fr]) ∧
      (lockOn s = true → s.audio.lock.accepted = true → 64 ≤ l.length → (lockPush s fr).audio.lock.fifo = l.drop 1 ++ [fr] ∧
        readReg (lockPush s fr) grnLockDropped = satAdd (readReg s grnLockDropped) 1)) ∧
    (∀ (op : Fin 4) (c : Fin 16) (hz k : Nat) (x : AudioPath),
      ((s.audio.paths[op])[c].under = none → (pathUnder s op c).audio.paths[op][c] = { (s.audio.paths[op])[c] with under := some 1, ramp := none }) ∧
      (x.ramp = none → heldValue x hz = x.last) ∧ (x.ramp = some 0 → 0 < hz → x.last < 2 ^ 24 → heldValue x hz = x.last) ∧
      (x.ramp = some k → hz ≤ 1000 * k → heldValue x hz = 0))

namespace Sys2Proof.Says

/-- The arrival time of a PTP message, corrected for the receive latency, in 2^-16 ns (R366). -/
def arrival (s : State) : Int := timeFine s.time - (getF s grnTsLatency 16 16 * 65536 / 1000 : Nat)

/-- The departure time of a PTP message, corrected for the transmit latency, in 2^-16 ns (R366). -/
def departure (s : State) : Int := timeFine s.time + (getF s grnTsLatency 0 16 * 65536 / 1000 : Nat)

/-- The seconds that GRN_TIME_SET holds (R371). -/
def setSeconds (s : State) : Nat := (readReg s grnTimeSetSecHi).toNat * 2 ^ 32 + (readReg s grnTimeSetSecLo).toNat

/-- An interval of GRN_PTP_INTERVALS has passed `m` times since an instant, where there was one (R363, R364, R368). -/
def passed (s : State) (m lo : Nat) (t : Nat) : Prop := t + m * ptpInterval s lo ≤ s.now

/-- A kind of message sent at intervals is due: 0 Announce, 1 Sync, 2 Delay_Req, 3 Pdelay_Req (R363). -/
def sendsNow (s : State) (i : Fin 4) (lo : Nat) : Prop := ∀ t, s.tport.ptp.sentAt[i] = some t → passed s 1 lo t

/-- A message that the port takes: it runs, the domain is its own, and another clock sent it (R363). -/
def heard (s : State) (m : PtpMsg) : Prop := ptpUp s = true ∧ m.domain.toNat = getF s grnPtpCtrl 24 8 ∧ m.sender ≠ clockId s

end Sys2Proof.Says

/-- While Garnet does not serve its commands change nothing. A message that is not heard changes nothing; an Announce is kept and the master chosen; a Sync or Follow_Up of the master gives t2 - t1 - correction; Delay_Req is owed an answer by a master; the responses give the mean path delay. The port sends by its state and its intervals, numbering each kind, stamps what leaves, and addresses it by its transport. The master's time-outs, once over, hold the servo, make the port listen or master. IGMP reports every 10 s and ARP answers while the port has an address and no layer-2 profile. A step sets the time and raises TIME_STEPPED; SET steps it, waits for PPS with SOURCE PPS, and is ignored with SOURCE PTP. A read of the seconds latches the time for its requester alone. RESTEP acquires anew. PROFILE loads the profile's values while SOURCE is NONE; SOURCE starts and ends the port. A capture edge that EDGE selects joins a FIFO of 16 or is lost, and a read takes the oldest. The PPS edge that IN_EDGE selects feeds the servo with SOURCE PPS, its loss means HOLDOVER, and PPS_OUT rises for OUT_WIDTH ms. ARM latches a trigger, or OFF where R374 forbids it; FIRE makes a SOFT edge due; an edge drives its pulse. -/
def Obligations.NetworkTimeAndTriggers : Prop :=
  ∀ s : State,
    (∀ (m : PtpMsg) (k : PtpSend) (o : PtpTimeout) (ip sip v : Word) (mac : BitVec 48) (up : Bool) (n : Fin 4) (g w : Nat) (q : Requester),
      serves s 15 = false → silent s [.ptpMessage m, .ptpSend k, .announceTimeout o, .igmpReport, .arpRequest ip mac sip, .ppsInEdge up, .ppsInLost,
        .captureEdge n up g w, .captureRead n q, .timeRead q, .timeSet q, .restep q, .ptpProfileWrite q v, .triggerArm n q v, .triggerFire n q, .triggerEdge n]) ∧
    -- messages
    (∀ m : PtpMsg,
      let p := s.tport.ptp
      let e2e : Bool := !getB s grnPtpCtrl 3
      (¬heard s m → exec (.ptpMessage m) s = .next s) ∧
      (heard s m →
        (m.kind = .announce →
          let times := (s.now :: ((p.foreign.find? fun f => f.msg.sender == m.sender).map fun f => f.times).getD []).take 2
          exec (.ptpMessage m) s = .next (bmca (setPtp s fun p => { p with
            foreign := p.foreign.filter (fun f => f.msg.sender != m.sender) ++ [⟨m, times⟩]
            annAt := if p.best = none ∨ fromMaster s m = true then some s.now else p.annAt }))) ∧
        (m.kind = .sync → fromMaster s m = false → exec (.ptpMessage m) s = .next s) ∧
        (m.kind = .sync → fromMaster s m = true → m.twoStep = true →
          exec (.ptpMessage m) s = .next (setPtp s fun p => { p with syncAt := some s.now, sync := some (m.seq.toNat, arrival s, m.correction) })) ∧
        (m.kind = .sync → fromMaster s m = true → m.twoStep = false →
          exec (.ptpMessage m) s = .next (syncSample (setPtp s fun p => { p with syncAt := some s.now }) (stampOf m) (arrival s) m.correction)) ∧
        (∀ t2 c, m.kind = .followUp → fromMaster s m = true → p.sync = some (m.seq.toNat, t2, c) →
          exec (.ptpMessage m) s = .next (syncSample s (stampOf m) t2 (c + m.correction))) ∧
        (m.kind = .delayReq → exec (.ptpMessage m) s = .next (if e2e = true ∧ portStatePtp s = 6
          then setPtp s fun p => { p with owed := p.owed ++ [(m.sender, m.seq.toNat, arrival s, m.correction)] } else s)) ∧
        (∀ t3 d, m.kind = .delayResp → e2e = true → fromMaster s m = true → m.requester = clockId s → p.dreq = some (m.seq.toNat, t3) → p.down = some d →
          exec (.ptpMessage m) s = .next (newMpd (setPtp s fun p => { p with dreq := none }) ((d + (stampOf m - t3 - m.correction)) / 2))) ∧
        (m.kind = .pdelayReq → exec (.ptpMessage m) s = .next (if e2e = true then s
          else setPtp s fun p => { p with pdOwed := p.pdOwed ++ [(m.sender, m.seq.toNat, arrival s)] })) ∧
        (∀ t1, m.kind = .pdelayResp → e2e = false → m.requester = clockId s → p.pdreq = some (m.seq.toNat, t1) → m.twoStep = false →
          exec (.ptpMessage m) s = .next (newMpd (setPtp s fun p => { p with pdreq := none }) ((arrival s - t1 - m.correction) / 2))) ∧
        (m.kind = .management ∨ m.kind = .signaling → exec (.ptpMessage m) s = .next s)) ∧
      (∀ (t1 t2 c : Int), p.mpd = none → (syncSample s t1 t2 c).tport.ptp.down = some (t2 - t1 - c) ∧ (syncSample s t1 t2 c).tport.servo = s.tport.servo) ∧
      (∀ x : Int, x ≤ median p.mpds + 65536000 ∨ p.mpds = [] → (newMpd s x).tport.ptp.mpd = some x ∧
        readReg (newMpd s x) grnPathDelay = BitVec.ofNat 32 (wrapInt (x / 4096) 32)) ∧
      (∀ x : Int, p.mpds ≠ [] → median p.mpds + 65536000 < x → (newMpd s x).tport.ptp.mpd = p.mpd ∧ (newMpd s x).regs = s.regs)) ∧
    (∀ k : PtpSend, ptpUp s = false → exec (.ptpSend k) s = .next s) ∧
    (ptpUp s = true →
      let p := s.tport.ptp
      let master := portStatePtp s = 6
      let slave := portStatePtp s = 8 ∨ portStatePtp s = 9
      let next (i : Fin 4) : State := setPtp s fun p => { p with seqs := p.seqs.set i ((p.seqs[i] + 1) % 65536), sentAt := p.sentAt.set i (some s.now) }
      (¬(master ∧ sendsNow s 0 8) → exec (.ptpSend .announce) s = .next s) ∧
      (¬(master ∧ sendsNow s 1 0) → exec (.ptpSend .sync) s = .next s) ∧
      (master → sendsNow s 0 8 → exec (.ptpSend .announce) s = .next (ptpPut (next 0) .announce p.seqs[0] false 0 0 0)) ∧
      (master → sendsNow s 1 0 →
        exec (.ptpSend .sync) s = .next (setPtp (ptpPut (next 1) .sync p.seqs[1] true 0 0 0) fun p' => { p' with syncSent := some (p.seqs[1], departure s) })) ∧
      (p.syncSent = none → exec (.ptpSend .followUp) s = .next s) ∧
      (∀ q t1, p.syncSent = some (q, t1) →
        exec (.ptpSend .followUp) s = .next (setPtp (ptpPut s .followUp q false t1 (t1 % 65536) 0) fun p => { p with syncSent := none })) ∧
      (slave → getB s grnPtpCtrl 3 = false → sendsNow s 2 16 →
        exec (.ptpSend .delayReq) s = .next (setPtp (ptpPut (next 2) .delayReq p.seqs[2] false 0 0 0) fun p' => { p' with dreq := some (p.seqs[2], departure s) })) ∧
      (¬slave ∨ getB s grnPtpCtrl 3 = true ∨ ¬sendsNow s 2 16 → exec (.ptpSend .delayReq) s = .next s) ∧
      (p.owed = [] → exec (.ptpSend .delayResp) s = .next s) ∧
      (∀ r q t4 c rest, p.owed = (r, q, t4, c) :: rest → exec (.ptpSend .delayResp) s = .next
        (setPtp (ptpPut s .delayResp q false t4 (c - t4 % 65536) r) fun p => { p with owed := rest })) ∧
      (getB s grnPtpCtrl 3 = true → sendsNow s 3 16 →
        exec (.ptpSend .pdelayReq) s = .next (setPtp (ptpPut (next 3) .pdelayReq p.seqs[3] false 0 0 0) fun p' => { p' with pdreq := some (p.seqs[3], departure s) })) ∧
      (getB s grnPtpCtrl 3 = false ∨ ¬sendsNow s 3 16 → exec (.ptpSend .pdelayReq) s = .next s) ∧
      (∀ r q t2 rest, p.pdOwed = (r, q, t2) :: rest → exec (.ptpSend .pdelayResp) s = .next
        (setPtp (ptpPut s .pdelayResp q true t2 (-(t2 % 65536)) r) fun p => { p with pdOwed := rest, pdFollow := p.pdFollow ++ [(r, q, departure s)] })) ∧
      (∀ r q t3 rest, p.pdFollow = (r, q, t3) :: rest → exec (.ptpSend .pdelayRespFollowUp) s = .next
        (setPtp (ptpPut s .pdelayRespFollowUp q false t3 (t3 % 65536) r) fun p => { p with pdFollow := rest })) ∧
      (p.pdOwed = [] → exec (.ptpSend .pdelayResp) s = .next s) ∧ (p.pdFollow = [] → exec (.ptpSend .pdelayRespFollowUp) s = .next s)) ∧
    -- how a message goes out
    (∀ m : PtpMsg,
      let peer := m.kind ∈ [PtpKind.pdelayReq, .pdelayResp, .pdelayRespFollowUp]
      let event := m.kind ∈ [PtpKind.sync, .delayReq, .pdelayReq, .pdelayResp]
      ptpFrame s m = if getB s grnPtpCtrl 7 = true then ⟨m, false, if peer then 0x0180C200000E else 0x011B19000000, 0x88F7⟩
        else ⟨m, true, if peer then 0xE000006B else 0xE0000181, if event then 319 else 320⟩) ∧
    (∀ o : PtpTimeout, ptpSource s ≠ 1 → exec (.announceTimeout o) s = .next s) ∧
    (ptpSource s = 1 → serves s 15 = true →
      let t := setPtp s fun p => { p with foreign := [], best := none, sync := none, down := none, syncAt := none, annAt := some s.now }
      let noSync := ∃ a, s.tport.ptp.syncAt = some a ∧ passed s 3 0 a
      let noAnnounce := ∃ a, s.tport.ptp.annAt = some a ∧ passed s (getF s grnPtpIntervals 24 8) 8 a
      (noSync → exec (.announceTimeout .sync) s = .next (servoHold (setPtp s fun p => { p with syncAt := none }))) ∧
      (¬noSync → exec (.announceTimeout .sync) s = .next s) ∧ (¬noAnnounce → exec (.announceTimeout .announce) s = .next s) ∧
      (noAnnounce → getB s grnPtpCtrl 4 = true → exec (.announceTimeout .announce) s = .next (setPortStatePtp (servoHold t) 4)) ∧
      (noAnnounce → getB s grnPtpCtrl 4 = false → exec (.announceTimeout .announce) s = .next (setServoState (setPortStatePtp t 6) 0))) ∧
    (∀ (ip sip : Word) (mac : BitVec 48),
      let able := serves s 15 = true ∧ macSet s = true ∧ getB s grnPtpCtrl 7 = false ∧ getB s grnTimeLinkStatus 0 = true
      let due := ∀ t, s.tport.ptp.igmpAt = some t → t + 10000000000 ≤ s.now
      (able → due → exec .igmpReport s = .next (setPtp s fun p => { p with igmp := p.igmp ++ [0xE0000181, 0xE000006B], igmpAt := some s.now })) ∧
      (¬able ∨ ¬due → exec .igmpReport s = .next s) ∧
      (able → ip = readReg s grnIpv4 → exec (.arpRequest ip mac sip) s = .next (setPtp s fun p => { p with arp := p.arp ++ [(mac, sip)] })) ∧
      (¬able ∨ ip ≠ readReg s grnIpv4 → exec (.arpRequest ip mac sip) s = .next s)) ∧
    -- the time
    (∀ t : TimeCtr, (timeStep s t).time = t ∧ (timeStep s t).mem = s.mem) ∧
    (serves s 15 = true →
      let src := ptpSource s
      let ns := getF s grnTimeSetNs 0 30
      (∀ q : Requester,
        let m := reqMeets s q 15
        (src = 1 → exec (.timeSet q) s = .next m) ∧ (src = 2 → exec (.timeSet q) s = .next (setServo m fun x => { x with setWaits := true })) ∧
        (src ≠ 1 → src ≠ 2 → exec (.timeSet q) s = .next (timeStep m ⟨setSeconds s + ns / 1000000000, ns % 1000000000, 0⟩)) ∧
        (src = 0 → exec (.restep q) s = .next m) ∧ (src ≠ 0 → exec (.restep q) s = .next (acquire m)) ∧
        (∃ u, exec (.timeRead q) s = .next u ∧ u.time = s.time ∧ u.mem = s.mem ∧
          readReg u (reqKey q grnTimeSecLo) = BitVec.ofNat 32 s.time.sec ∧ readReg u (reqKey q grnTimeSecHi) = BitVec.ofNat 32 (s.time.sec / 2 ^ 32) ∧
          readReg u (reqKey q grnTimeNs) = BitVec.ofNat 32 s.time.ns ∧ readReg u (reqKey q grnTimeFrac) = BitVec.ofNat 32 s.time.frac ∧
          (∀ k, k ∉ [grnTimeSecLo, grnTimeSecHi, grnTimeNs, grnTimeFrac].map (reqKey q) → readReg u k = readReg s k)) ∧
        (∀ v : Word, src ≠ 0 → v.toNat % 4 = src → v.getLsbD 5 = false → ∃ u, exec (.ptpProfileWrite q v) s = .next u ∧
          readReg u grnPtpCtrl = readReg s grnPtpCtrl ∧ readReg u grnPtpIntervals = readReg s grnPtpIntervals ∧ u.tport = s.tport) ∧
        (∀ v : Word, src = 0 → v.toNat % 4 = 0 → v.getLsbD 2 ≠ getB s grnPtpCtrl 2 → ∃ u, exec (.ptpProfileWrite q v) s = .next u ∧
          getB u grnPtpCtrl 2 = v.getLsbD 2 ∧ readReg u grnPtpIntervals = (if v.getLsbD 2 then 0x03000100 else 0x03FDFEFD) ∧ u.tport = s.tport) ∧
        (∀ v : Word, src = 0 → v.toNat % 4 = 1 → ∃ u, exec (.ptpProfileWrite q v) s = .next u ∧
          ptpSource u = 1 ∧ portStatePtp u = 4 ∧ u.tport.servo.estimating = true ∧ u.tport.ptp.best = none) ∧
        (∀ v : Word, src ≠ 0 → v.toNat % 4 = 0 → ∃ u, exec (.ptpProfileWrite q v) s = .next u ∧
          ptpSource u = 0 ∧ portStatePtp u = 0 ∧ servoState u = 0 ∧ u.tport.servo.estimating = false)) ∧
      -- edges
      (∀ (n : Fin 4) (up : Bool) (gap width : Nat),
        let edge := getF s (grnCapCtrl n.val) 0 2
        let x := s.tport.cap[n]
        let on := if up then edge = 1 ∨ edge = 3 else edge = 2 ∨ edge = 3
        let t := ballStamp s (getF s (grnCapCtrl n.val) 16 16)
        let put (y : Capture) : State := setTport s fun p => { p with cap := p.cap.set n y }
        let due := x.lostAt = none ∨ ∃ l, x.lostAt = some l ∧ l + 1000000000 ≤ s.now
        (¬on → exec (.captureEdge n up gap width) s = .next s) ∧
        (on → 10 ≤ width → 40 ≤ gap → x.fifo.length < 16 →
          exec (.captureEdge n up gap width) s = .next (put { x with fifo := x.fifo ++ [⟨t.sec, t.ns, t.frac, up⟩] })) ∧
        (on → width < 10 ∨ gap < 40 ∨ 16 ≤ x.fifo.length → due →
          exec (.captureEdge n up gap width) s = .next (timeEvent (put { x with lost := 0, lostAt := some s.now }) 1 0x0D5 (5 + n.val) ((x.lost + 1) % 65536))) ∧
        (on → width < 10 ∨ gap < 40 ∨ 16 ≤ x.fifo.length → ¬due → exec (.captureEdge n up gap width) s = .next (put { x with lost := x.lost + 1 }))) ∧
      (∀ (n : Fin 4) (q : Requester),
        let x := s.tport.cap[n]
        (x.fifo = [] → exec (.captureRead n q) s = .next (setReg (reqMeets s q 15) (reqKey q (grnCapNs n.val)) 0)) ∧
        (∀ e r, x.fifo = e :: r → ∃ u, exec (.captureRead n q) s = .next u ∧ u.tport.cap[n] = { x with fifo := r } ∧
          readReg u (reqKey q (grnCapNs n.val)) = BitVec.ofNat 32 (2 ^ 31 + (if e.rising then 2 ^ 30 else 0) + e.ns) ∧
          readReg u (reqKey q (grnCapSec n.val)) = BitVec.ofNat 32 e.sec ∧ readReg u (reqKey q (grnCapFrac n.val)) = BitVec.ofNat 32 e.frac)) ∧
      (∀ up : Bool,
        let t := setTport s fun x => { x with ppsAt := some s.now }
        let at_ := timeFine (ballStamp s (getF s (grnCapCtrl 0) 16 16))
        let sec : Int := 1000000000 * 65536
        (getB s grnPpsCtrl 1 = up → exec (.ppsInEdge up) s = .next s) ∧
        (getB s grnPpsCtrl 1 ≠ up → src ≠ 2 → exec (.ppsInEdge up) s = .next t) ∧
        (getB s grnPpsCtrl 1 ≠ up → src = 2 → s.tport.servo.setWaits = true →
          exec (.ppsInEdge up) s = .next (timeStep (setServo t fun x => { x with setWaits := false })
            (timeOf ((setSeconds s * 1000000000 * 65536 + getF s (grnCapCtrl 0) 16 16 * 65536 / 1000 : Nat))))) ∧
        (getB s grnPpsCtrl 1 ≠ up → src = 2 → s.tport.servo.setWaits = false →
          exec (.ppsInEdge up) s = .next (servoSample t (at_ - (at_ + sec / 2) / sec * sec)))) ∧
      (let lost := src = 2 ∧ (∃ t, s.tport.ppsAt = some t ∧ t + 2000000000 ≤ s.now);
        (lost → exec .ppsInLost s = .next (timeEvent (servoHold (setTport s fun t => { t with ppsAt := none })) 1 0x0D6 0 0)) ∧
        (¬lost → exec .ppsInLost s = .next s)) ∧
      -- triggers
      (∀ (n : Fin 4) (q : Requester) (v : Word),
        let x := s.tport.trg[n]
        let m := reqMeets s q 15
        let t := triggerArm (writeKey m (grnTrgCtrl n.val) (v ||| 0x100)) n
        let now := timeNs s.time
        exec (.triggerArm n q v) s = .next (if v.getLsbD 9 then triggerFire t n else t) ∧
        (x.cfg = none → exec (.triggerFire n q) s = .next m ∧ exec (.triggerEdge n) s = .next s) ∧
        (∀ c, x.cfg = some c →
          let pulse (e : Nat) : Option Nat := some (max (e + c.width) (x.pulse.getD 0))
          let edge := c.start + x.k * c.period
          let reached := x.edges.filter (fun e => decide (e ≤ now))
          (c.mode ≠ 6 → exec (.triggerFire n q) s = .next m) ∧
          (c.mode = 6 → exec (.triggerFire n q) s = .next (setTrg m n fun x => { x with edges := x.edges ++ [now + c.offset] })) ∧
          (c.mode = 2 → now < edge → exec (.triggerEdge n) s = .next s) ∧
          (c.mode = 2 → edge ≤ now → exec (.triggerEdge n) s = .next (setTrg s n fun x => { x with k := x.k + 1, pulse := pulse edge })) ∧
          (c.mode ≠ 2 → reached = [] → exec (.triggerEdge n) s = .next s) ∧
          (∀ e, c.mode ≠ 2 → e ∈ reached → (∀ e' ∈ reached, e' ≤ e) →
            exec (.triggerEdge n) s = .next (setTrg s n fun x => { x with edges := x.edges.filter (fun e => decide (now < e)), pulse := pulse e }))) ∧
        (trgLevel s n = true ↔ (getB s (grnTrgCtrl n.val) 6 = true ↔ ¬∃ t, x.pulse = some t ∧ now < t)))) ∧
    (∀ n : Fin 4,
      let k := grnTrgCtrl n.val
      let mode := getF s k 0 3
      let width := 100 * getF s k 16 16
      let now := timeNs s.time
      let period := (readReg s (grnTrgPeriod n.val)).toNat
      let start := trgStart s n.val
      let y := (triggerArm s n).tport.trg[n]
      let off := mode = 0 ∨ (mode = 1 ∧ start < now + 1000) ∨ (mode = 2 ∧ period < width + 100)
      (off → y.cfg = none ∧ y.edges = []) ∧
      (¬off → y.cfg = some ⟨mode, start, period, getF s (grnTrgOffset n.val) 0 24, width, getF s k 10 2⟩ ∧
        (y.edges = if mode = 1 then [start] else []) ∧ (0 < period → now < start + y.k * period ∧ (0 < y.k → start + (y.k - 1) * period ≤ now))) ∧
      y.pulse = (s.tport.trg[n]).pulse) ∧
    (clockUnitOn s = false ∨ getB s grnPpsCtrl 0 = false ∨ s.time.ns ≠ 0 → exec .ppsOutEdge s = .next s) ∧
    (clockUnitOn s = true → getB s grnPpsCtrl 0 = true → s.time.ns = 0 → exec .ppsOutEdge s = .next
      (setTport s fun t => { t with ppsHigh := some (timeNs s.time + 1000000 * getF s grnPpsCtrl 8 8) }))

namespace Sys2Proof.Says

/-! The block as a whole. -/

/-- Registers whose write does something beside writing fields, or where a rule fixes when it may be written, by region and offset. -/
def actingOffset (r o : Nat) : Bool :=
  (r == 0 && (inArr o 0xA20 8 4 || [0xA00, 0xC3C, 0x200, 0x204, 0x300, 0x600, 0x640, 0x800, 0x80C].contains o)) ||
  ((r == 1 || r == 2) && [0x100, 0x200, 0x204, 0x208].contains o) ||
  (r == 3 && (inArr o 0x100 4 0x100 || inArr o 0x120 4 0x100 || o == 0x510)) ||
  (decide (4 ≤ r) && decide (r < 12)) ||
  (r == 12 && [0x110, 0x128].contains o) ||
  (r == 13 && ([0x30C, 0x310, 0x400].contains o || decide (0x40000 ≤ o))) ||
  (r == 14 && ([0x100, 0x104, 0x108, 0x10C, 0x114, 0x128, 0x200, 0x300, 0x308].contains o || inArr o 0x10000 128 4 || decide (0x40000 ≤ o))) ||
  (r == 15 && ([0x118, 0x12C, 0x800, 0x804, 0x808, 0x860].contains o || inArr o 0x100 6 4 || inArr o 0x900 4 0x20))

/-- A bit that a field reaches. -/
def inField (f : RwField) (j : Nat) : Prop := f.lo ≤ j ∧ j < f.lo + f.width

end Sys2Proof.Says

/-- For every command c and every state with c at the front of its queue, a step is exec of c on the state with the queue's rest. On an empty queue the step answers a next state, one nanosecond later by `now`, with the queue still empty: that an empty queue is a nanosecond of running is the model's choice (assumption log, entry 1). -/
def Obligations.StepRunsTheFrontCommand : Prop :=
  (∀ (s : State) (c : Instr) (rest : List Instr), s.pending = c :: rest → step s = exec c { s with pending := rest }) ∧
  (∀ s : State, s.pending = [] → step s = .next (tick s) ∧ (tick s).now = s.now + 1 ∧ (tick s).pending = []) ∧
  (∀ (s : State) (nbits w : Nat), s.withFetchWord nbits w = s)

/-- Right after reset no command waits; every register reads the reset value of the register map, among them FLA_PROG_CTRL 2, FLA_WDOG 50, OBS_PANEL_GEOM 0x2873C200, GRN_PTP_CTRL 0x7F808010 and SLT_WAKE_CTRL 0xB; every byte of DRAM reads 0 and none is poisoned; Slate is on and every other region off; no region holds the lease, both sequencers are stopped, every semaphore is free, the panel is off, the time is 0; no event, acknowledgement or packet is outstanding, the mesh is empty with all its credits at their senders; no cell has retired, no window has taken an access, no read has failed. The pins stand as R496's column for reset gives them, outputs tri-stated, REFCLK_EN and DRAM_PWR_EN low, the interrupts released, and so they stand wherever SYS_RESET_N is low in service; of the 53 by 53 sites the twelve that R515 names carry no ball, and no other. The invariant that every step keeps holds. Values that the spec does not give for reset (general registers, buffers, the mode before any wake) are the model's choice (assumption log, entry 2). -/
def Obligations.ResetHolds : Prop :=
  Inv State.reset ∧ State.reset.pending = [] ∧ (∀ k, readReg State.reset k = regReset k) ∧
  readReg State.reset (flaProgCtrl 1) = 2 ∧ readReg State.reset (flaWdog 2) = 50 ∧ readReg State.reset obsPanelGeom = 0x2873C200 ∧
  readReg State.reset grnPtpCtrl = 0x7F808010 ∧ readReg State.reset sltWakeCtrl = 0xB ∧ readReg State.reset (mcaPlaneCtrl 3) = 0xFF000040 ∧
  (∀ a, readByte State.reset a = 0) ∧ (∀ w, isPoisoned State.reset w = false) ∧
  serves State.reset 0 = true ∧ (∀ r, 0 < r → r < 16 → serves State.reset r = false) ∧
  holder State.reset = none ∧ (∀ f, (flintOf State.reset f).st = .stopped) ∧ (∀ n, (semOf State.reset n).holder = none ∧ (semOf State.reset n).waiters = []) ∧
  State.reset.obs.state = .off ∧ State.reset.time = ⟨0, 0, 0⟩ ∧ State.reset.evNet = [] ∧ State.reset.acks = [] ∧ State.reset.net = [] ∧
  State.reset.retired = [] ∧ State.reset.quarantined = [] ∧ State.reset.failed = [] ∧ State.reset.slate.clock = [] ∧ State.reset.slate.semClock = [] ∧
  creditsKept State.reset.mesh ∧ (∀ r : Fin 16, State.reset.mesh.tags[r] = []) ∧
  (∀ s : State, s = State.reset ∨ (s.power.resetPin = true ∧ s.power.mode = .run) →
    (∀ g ∈ [PinGroup.gtBlp, .trgPps, .audioOut, .flashOut, .hostIo, .dramReset], pinState s g = .pullDown) ∧
    pinState s .refclkEn = .driven false ∧ pinState s .dramPwrEn = .driven false ∧ (∀ h, pinState s (.hostIrq h) = .released) ∧ pinState s .pmic = .released ∧
    (∀ g ∈ [PinGroup.sysResetN, .wakeN, .pfailN], pinState s g = .monitored) ∧
    (∀ g ∈ [PinGroup.panelTx, .sourceTx, .timeTx, .panelRx, .sourceRx, .timeRx, .refclk, .hostCs, .hostSck, .capPps, .audioIn, .thref], pinState s g = .highZ) ∧
    ∀ q, pinState s (.dramPins q) = .highZ) ∧
  (∀ r c : Fin 53, (ballAt (r.val + 1) (c.val + 1) = none ↔
    ballName (r.val + 1) (c.val + 1) ∈ ["A1", "A2", "B1", "A52", "A53", "B53", "BP1", "BT1", "BT2", "BP53", "BT52", "BT53"]))

/-- REGISTER_WRITE answers a next state always. An address that is no multiple of 4, a Slate register written by the frame program, and a window of a region that does not serve change nothing; a Galena window, whose registers are all read-only, and Slate's while its registers are not up, only take the access; an access enters the window's present clock, which the order of C may end, and nothing else. A register without behaviour of its own takes the write by its fields' access codes, on the requester's own copy; one of Bauxite (but bit 0 of its first, which starts training) only while DRAM's STATE is OFF; panel geometry and timing only while the panel is off. By access code: an RW field takes a value that its table lists and keeps its value otherwise; a W1C bit written 1 is cleared; every other bit stays. Other registers, and everything else, stay. HA and HB reach different copies of a register exactly where R511 keeps copies. A read of a region that does not serve ends in status 2 with 0 and changes nothing. -/
def Obligations.RegisterWrites : Prop :=
  ∀ (s : State) (q : Requester) (a : BitVec 24) (v : Word),
    let r := a.toNat / 0x100000
    let o := a.toNat % 0x100000
    let k := keyOf q r o
    let runs := a.toNat % 4 = 0 ∧ ¬(q = .fp ∧ r = 0) ∧ serves s r = true
    let m := reqMeets s q r
    (∃ t, exec (.registerWrite q a v) s = .next t) ∧
    (¬runs → exec (.registerWrite q a v) s = .next s) ∧
    (runs → (4 ≤ r ∧ r < 8) ∨ (r = 0 ∧ slateUp s = false) → exec (.registerWrite q a v) s = .next m) ∧
    { m with slate := s.slate } = s ∧ { m.slate with tie := s.slate.tie, clock := s.slate.clock } = s.slate ∧
    (runs → actingOffset r o = false → r ≠ 0 ∨ slateUp s = true → exec (.registerWrite q a v) s = .next (writeKey m k v)) ∧
    (runs → 8 ≤ r → r < 12 → getF s bxtStatus 30 2 ≠ 0 → exec (.registerWrite q a v) s = .next m) ∧
    (runs → 8 ≤ r → r < 12 → getF s bxtStatus 30 2 = 0 → o ≠ 0x100 ∨ v.getLsbD 0 = false → exec (.registerWrite q a v) s = .next (writeKey m k v)) ∧
    (runs → (r = 14 ∧ o ∈ [0x100, 0x104, 0x108]) ∨ ((r = 1 ∨ r = 2) ∧ o ∈ [0x200, 0x204, 0x208]) →
      exec (.registerWrite q a v) s = .next (if s.obs.state = .off then writeKey m k v else m)) ∧
    (∀ n : Nat,
      let d := regDesc (n % 0x1000000 / 0x100000) (n % 0x100000)
      let old := readReg s n
      let new := readReg (writeKey s n v) n
      (∀ f ∈ d.rw, fld new f.lo f.width = if f.legal.ok (fld v f.lo f.width) = true then fld v f.lo f.width else fld old f.lo f.width) ∧
      (∀ j, j < 32 → (∀ f ∈ d.rw, ¬inField f j) → new.getLsbD j = (old.getLsbD j && !(d.w1c.getLsbD j && v.getLsbD j))) ∧
      (∀ m, m ≠ n → readReg (writeKey s n v) m = readReg s m) ∧
      { writeKey s n v with regs := s.regs } = s) ∧
    (r < 16 → (keyOf .ha r o ≠ keyOf .hb r o ↔ perHost r o = true ∨ perRequester r o = true) ∧
      (perHost r o = false → perRequester r o = false → keyOf .fp r o = keyOf .ha r o) ∧
      (perRequester r o = true → keyOf .fp r o ≠ keyOf .ha r o ∧ keyOf .fp r o ≠ keyOf .hb r o)) ∧
    (serves s r = false → busRead s q a.toNat = (2, 0, s))

/-- From every state, reachable or not, a step answers a next state, or refuses the front command as ill-formed (a ray or frame instruction whose fields or branch target no accepted program can hold); it raises no fault. From every state in which DRAM is listed in its canonical form and every semaphore is as it can come to be (without a holder nobody waits, nobody waits twice, the holder does not wait), the next state is so too. The next state's queue is the queue without its front command: no command adds to the queue or takes from it, and none takes time: time since power-on goes on by 1 ns where no command waits, and stands else. -/
def Obligations.StepKeepsTheInvariant : Prop :=
  ∀ s : State,
    ((∃ t, step s = .next t) ∨ step s = .refused .illFormed) ∧
    (∀ t, step s = .next t → t.pending = s.pending.tail ∧ t.now = (if s.pending = [] then s.now + 1 else s.now) ∧ (Inv s → Inv t))
end

