-- ==== Sys2Proof/Laws/Exec.lean ====
section
/-! SUPPORT. Each command is its meaning: one equation per arm, so that no proof unfolds the dispatch. -/

namespace Sys2Proof.Machine

@[simp] theorem exec_registerWrite : ∀ q addr v s, exec (.registerWrite q addr v) s = execRegisterWrite q addr v s := by intros; rfl
@[simp] theorem exec_cellError : ∀ r block cell ctx e s, exec (.cellError r block cell ctx e) s = execCellError r block cell ctx e s := by intros; rfl
@[simp] theorem exec_cellQuarantined : ∀ r block cell s, exec (.cellQuarantined r block cell) s = execCellQuarantined r block cell s := by intros; rfl
@[simp] theorem exec_drainEnd : ∀ r s, exec (.drainEnd r) s = execDrainEnd r s := by intros; rfl
@[simp] theorem exec_regionPllLocked : ∀ r s, exec (.regionPllLocked r) s = execRegionPllLocked r s := by intros; rfl
@[simp] theorem exec_regionRejoined : ∀ r s, exec (.regionRejoined r) s = execRegionRejoined r s := by intros; rfl
@[simp] theorem exec_regionResetFailed : ∀ r s, exec (.regionResetFailed r) s = execRegionResetFailed r s := by intros; rfl
@[simp] theorem exec_pllUnlock : ∀ r s, exec (.pllUnlock r) s = execPllUnlock r s := by intros; rfl
@[simp] theorem exec_nocPacket : ∀ at_ pkt s, exec (.nocPacket at_ pkt) s = execNocPacket at_ pkt s := by intros; rfl
@[simp] theorem exec_eventArrival : ∀ e s, exec (.eventArrival e) s = execEventArrival e s := by intros; rfl
@[simp] theorem exec_eventDelivery : ∀ s, exec (.eventDelivery) s = execEventDelivery s := by intros; rfl
@[simp] theorem exec_calmapStart : ∀ q v s, exec (.calmapStart q v) s = execCalmapStart q v s := by intros; rfl
@[simp] theorem exec_calmapReadDone : ∀ s, exec (.calmapReadDone) s = execCalmapReadDone s := by intros; rfl
@[simp] theorem exec_streamStart : ∀ p unit s, exec (.streamStart p unit) s = execStreamStart p unit s := by intros; rfl
@[simp] theorem exec_streamEnd : ∀ p unit s, exec (.streamEnd p unit) s = execStreamEnd p unit s := by intros; rfl
@[simp] theorem exec_portEnable : ∀ p q v s, exec (.portEnable p q v) s = execPortEnable p q v s := by intros; rfl
@[simp] theorem exec_unknownUnit : ∀ p unit s, exec (.unknownUnit p unit) s = execUnknownUnit p unit s := by intros; rfl
@[simp] theorem exec_sceneFrameBegin : ∀ p unit s, exec (.sceneFrameBegin p unit) s = execSceneFrameBegin p unit s := by intros; rfl
@[simp] theorem exec_layerHeader : ∀ p unit s, exec (.layerHeader p unit) s = execLayerHeader p unit s := by intros; rfl
@[simp] theorem exec_planeData : ∀ p unit s, exec (.planeData p unit) s = execPlaneData p unit s := by intros; rfl
@[simp] theorem exec_sceneFrameEnd : ∀ p unit s, exec (.sceneFrameEnd p unit) s = execSceneFrameEnd p unit s := by intros; rfl
@[simp] theorem exec_layerFence : ∀ p layer s, exec (.layerFence p layer) s = execLayerFence p layer s := by intros; rfl
@[simp] theorem exec_portStalled : ∀ p cause s, exec (.portStalled p cause) s = execPortStalled p cause s := by intros; rfl
@[simp] theorem exec_layerBind : ∀ s, exec (.layerBind) s = execLayerBind s := by intros; rfl
@[simp] theorem exec_groupDispatch : ∀ g b s, exec (.groupDispatch g b) s = execGroupDispatch g b s := by intros; rfl
@[simp] theorem exec_rayAdd : ∀ c iv s, exec (.rayAdd c iv) s = execRayAdd c iv s := by intros; rfl
@[simp] theorem exec_rayAddi : ∀ c iv s, exec (.rayAddi c iv) s = execRayAddi c iv s := by intros; rfl
@[simp] theorem exec_raySub : ∀ c iv s, exec (.raySub c iv) s = execRaySub c iv s := by intros; rfl
@[simp] theorem exec_raySubi : ∀ c iv s, exec (.raySubi c iv) s = execRaySubi c iv s := by intros; rfl
@[simp] theorem exec_rayMul : ∀ c iv s, exec (.rayMul c iv) s = execRayMul c iv s := by intros; rfl
@[simp] theorem exec_rayMuli : ∀ c iv s, exec (.rayMuli c iv) s = execRayMuli c iv s := by intros; rfl
@[simp] theorem exec_rayFma : ∀ c iv s, exec (.rayFma c iv) s = execRayFma c iv s := by intros; rfl
@[simp] theorem exec_rayMin : ∀ c iv s, exec (.rayMin c iv) s = execRayMin c iv s := by intros; rfl
@[simp] theorem exec_rayMax : ∀ c iv s, exec (.rayMax c iv) s = execRayMax c iv s := by intros; rfl
@[simp] theorem exec_rayMini : ∀ c iv s, exec (.rayMini c iv) s = execRayMini c iv s := by intros; rfl
@[simp] theorem exec_rayMaxi : ∀ c iv s, exec (.rayMaxi c iv) s = execRayMaxi c iv s := by intros; rfl
@[simp] theorem exec_rayAbs : ∀ c iv s, exec (.rayAbs c iv) s = execRayAbs c iv s := by intros; rfl
@[simp] theorem exec_rayNeg : ∀ c iv s, exec (.rayNeg c iv) s = execRayNeg c iv s := by intros; rfl
@[simp] theorem exec_rayFloor : ∀ c iv s, exec (.rayFloor c iv) s = execRayFloor c iv s := by intros; rfl
@[simp] theorem exec_rayFract : ∀ c iv s, exec (.rayFract c iv) s = execRayFract c iv s := by intros; rfl
@[simp] theorem exec_rayRcp : ∀ c iv s, exec (.rayRcp c iv) s = execRayRcp c iv s := by intros; rfl
@[simp] theorem exec_rayRsq : ∀ c iv s, exec (.rayRsq c iv) s = execRayRsq c iv s := by intros; rfl
@[simp] theorem exec_raySqrt : ∀ c iv s, exec (.raySqrt c iv) s = execRaySqrt c iv s := by intros; rfl
@[simp] theorem exec_rayAnd : ∀ c iv s, exec (.rayAnd c iv) s = execRayAnd c iv s := by intros; rfl
@[simp] theorem exec_rayOr : ∀ c iv s, exec (.rayOr c iv) s = execRayOr c iv s := by intros; rfl
@[simp] theorem exec_rayXor : ∀ c iv s, exec (.rayXor c iv) s = execRayXor c iv s := by intros; rfl
@[simp] theorem exec_rayNot : ∀ c iv s, exec (.rayNot c iv) s = execRayNot c iv s := by intros; rfl
@[simp] theorem exec_rayShl : ∀ c iv s, exec (.rayShl c iv) s = execRayShl c iv s := by intros; rfl
@[simp] theorem exec_rayShr : ∀ c iv s, exec (.rayShr c iv) s = execRayShr c iv s := by intros; rfl
@[simp] theorem exec_rayAsr : ∀ c iv s, exec (.rayAsr c iv) s = execRayAsr c iv s := by intros; rfl
@[simp] theorem exec_rayAndi : ∀ c iv s, exec (.rayAndi c iv) s = execRayAndi c iv s := by intros; rfl
@[simp] theorem exec_rayOri : ∀ c iv s, exec (.rayOri c iv) s = execRayOri c iv s := by intros; rfl
@[simp] theorem exec_rayXori : ∀ c iv s, exec (.rayXori c iv) s = execRayXori c iv s := by intros; rfl
@[simp] theorem exec_rayShli : ∀ c iv s, exec (.rayShli c iv) s = execRayShli c iv s := by intros; rfl
@[simp] theorem exec_rayShri : ∀ c iv s, exec (.rayShri c iv) s = execRayShri c iv s := by intros; rfl
@[simp] theorem exec_rayAsri : ∀ c iv s, exec (.rayAsri c iv) s = execRayAsri c iv s := by intros; rfl
@[simp] theorem exec_rayMov : ∀ c iv s, exec (.rayMov c iv) s = execRayMov c iv s := by intros; rfl
@[simp] theorem exec_rayMovi : ∀ c iv s, exec (.rayMovi c iv) s = execRayMovi c iv s := by intros; rfl
@[simp] theorem exec_rayMovk : ∀ c iv s, exec (.rayMovk c iv) s = execRayMovk c iv s := by intros; rfl
@[simp] theorem exec_rayCvt : ∀ c iv s, exec (.rayCvt c iv) s = execRayCvt c iv s := by intros; rfl
@[simp] theorem exec_raySel : ∀ c iv s, exec (.raySel c iv) s = execRaySel c iv s := by intros; rfl
@[simp] theorem exec_rayCmp : ∀ c iv s, exec (.rayCmp c iv) s = execRayCmp c iv s := by intros; rfl
@[simp] theorem exec_rayCmpi : ∀ c iv s, exec (.rayCmpi c iv) s = execRayCmpi c iv s := by intros; rfl
@[simp] theorem exec_rayPand : ∀ c iv s, exec (.rayPand c iv) s = execRayPand c iv s := by intros; rfl
@[simp] theorem exec_rayPor : ∀ c iv s, exec (.rayPor c iv) s = execRayPor c iv s := by intros; rfl
@[simp] theorem exec_rayPxor : ∀ c iv s, exec (.rayPxor c iv) s = execRayPxor c iv s := by intros; rfl
@[simp] theorem exec_rayPnot : ∀ c iv s, exec (.rayPnot c iv) s = execRayPnot c iv s := by intros; rfl
@[simp] theorem exec_rayPmovi : ∀ c iv s, exec (.rayPmovi c iv) s = execRayPmovi c iv s := by intros; rfl
@[simp] theorem exec_raySmovi : ∀ c iv s, exec (.raySmovi c iv) s = execRaySmovi c iv s := by intros; rfl
@[simp] theorem exec_raySadd : ∀ c iv s, exec (.raySadd c iv) s = execRaySadd c iv s := by intros; rfl
@[simp] theorem exec_raySaddi : ∀ c iv s, exec (.raySaddi c iv) s = execRaySaddi c iv s := by intros; rfl
@[simp] theorem exec_rayBrany : ∀ c iv s, exec (.rayBrany c iv) s = execRayBrany c iv s := by intros; rfl
@[simp] theorem exec_rayBrall : ∀ c iv s, exec (.rayBrall c iv) s = execRayBrall c iv s := by intros; rfl
@[simp] theorem exec_rayLoop : ∀ c iv s, exec (.rayLoop c iv) s = execRayLoop c iv s := by intros; rfl
@[simp] theorem exec_rayLdc : ∀ c iv s, exec (.rayLdc c iv) s = execRayLdc c iv s := by intros; rfl
@[simp] theorem exec_rayLdcv : ∀ c iv s, exec (.rayLdcv c iv) s = execRayLdcv c iv s := by intros; rfl
@[simp] theorem exec_raySmp : ∀ c iv s, exec (.raySmp c iv) s = execRaySmp c iv s := by intros; rfl
@[simp] theorem exec_rayEmit : ∀ c iv s, exec (.rayEmit c iv) s = execRayEmit c iv s := by intros; rfl
@[simp] theorem exec_rayEnd : ∀ c iv s, exec (.rayEnd c iv) s = execRayEnd c iv s := by intros; rfl
@[simp] theorem exec_rayNop : ∀ c s, exec (.rayNop c) s = execRayNop c s := by intros; rfl
@[simp] theorem exec_launchRecord : ∀ g rec s, exec (.launchRecord g rec) s = execLaunchRecord g rec s := by intros; rfl
@[simp] theorem exec_tileTake : ∀ g b s, exec (.tileTake g b) s = execTileTake g b s := by intros; rfl
@[simp] theorem exec_cacheLineFill : ∀ g b line flips status s, exec (.cacheLineFill g b line flips status) s = execCacheLineFill g b line flips status s := by intros; rfl
@[simp] theorem exec_tileSend : ∀ g b s, exec (.tileSend g b) s = execTileSend g b s := by intros; rfl
@[simp] theorem exec_fpAdd : ∀ f iv s, exec (.fpAdd f iv) s = execFpAdd f iv s := by intros; rfl
@[simp] theorem exec_fpSub : ∀ f iv s, exec (.fpSub f iv) s = execFpSub f iv s := by intros; rfl
@[simp] theorem exec_fpAnd : ∀ f iv s, exec (.fpAnd f iv) s = execFpAnd f iv s := by intros; rfl
@[simp] theorem exec_fpOr : ∀ f iv s, exec (.fpOr f iv) s = execFpOr f iv s := by intros; rfl
@[simp] theorem exec_fpXor : ∀ f iv s, exec (.fpXor f iv) s = execFpXor f iv s := by intros; rfl
@[simp] theorem exec_fpShl : ∀ f iv s, exec (.fpShl f iv) s = execFpShl f iv s := by intros; rfl
@[simp] theorem exec_fpShr : ∀ f iv s, exec (.fpShr f iv) s = execFpShr f iv s := by intros; rfl
@[simp] theorem exec_fpMul : ∀ f iv s, exec (.fpMul f iv) s = execFpMul f iv s := by intros; rfl
@[simp] theorem exec_fpMov : ∀ f iv s, exec (.fpMov f iv) s = execFpMov f iv s := by intros; rfl
@[simp] theorem exec_fpAddi : ∀ f iv s, exec (.fpAddi f iv) s = execFpAddi f iv s := by intros; rfl
@[simp] theorem exec_fpAndi : ∀ f iv s, exec (.fpAndi f iv) s = execFpAndi f iv s := by intros; rfl
@[simp] theorem exec_fpOri : ∀ f iv s, exec (.fpOri f iv) s = execFpOri f iv s := by intros; rfl
@[simp] theorem exec_fpXori : ∀ f iv s, exec (.fpXori f iv) s = execFpXori f iv s := by intros; rfl
@[simp] theorem exec_fpShli : ∀ f iv s, exec (.fpShli f iv) s = execFpShli f iv s := by intros; rfl
@[simp] theorem exec_fpShri : ∀ f iv s, exec (.fpShri f iv) s = execFpShri f iv s := by intros; rfl
@[simp] theorem exec_fpMovi : ∀ f iv s, exec (.fpMovi f iv) s = execFpMovi f iv s := by intros; rfl
@[simp] theorem exec_fpMovhi : ∀ f iv s, exec (.fpMovhi f iv) s = execFpMovhi f iv s := by intros; rfl
@[simp] theorem exec_fpCmp : ∀ f iv s, exec (.fpCmp f iv) s = execFpCmp f iv s := by intros; rfl
@[simp] theorem exec_fpCmpi : ∀ f iv s, exec (.fpCmpi f iv) s = execFpCmpi f iv s := by intros; rfl
@[simp] theorem exec_fpPand : ∀ f iv s, exec (.fpPand f iv) s = execFpPand f iv s := by intros; rfl
@[simp] theorem exec_fpPor : ∀ f iv s, exec (.fpPor f iv) s = execFpPor f iv s := by intros; rfl
@[simp] theorem exec_fpPxor : ∀ f iv s, exec (.fpPxor f iv) s = execFpPxor f iv s := by intros; rfl
@[simp] theorem exec_fpPnot : ∀ f iv s, exec (.fpPnot f iv) s = execFpPnot f iv s := by intros; rfl
@[simp] theorem exec_fpLd : ∀ f iv s, exec (.fpLd f iv) s = execFpLd f iv s := by intros; rfl
@[simp] theorem exec_fpSt : ∀ f iv s, exec (.fpSt f iv) s = execFpSt f iv s := by intros; rfl
@[simp] theorem exec_fpLd32 : ∀ f iv s, exec (.fpLd32 f iv) s = execFpLd32 f iv s := by intros; rfl
@[simp] theorem exec_fpSt32 : ∀ f iv s, exec (.fpSt32 f iv) s = execFpSt32 f iv s := by intros; rfl
@[simp] theorem exec_fpRdreg : ∀ f iv s, exec (.fpRdreg f iv) s = execFpRdreg f iv s := by intros; rfl
@[simp] theorem exec_fpWrreg : ∀ f iv s, exec (.fpWrreg f iv) s = execFpWrreg f iv s := by intros; rfl
@[simp] theorem exec_fpWrblk : ∀ f iv s, exec (.fpWrblk f iv) s = execFpWrblk f iv s := by intros; rfl
@[simp] theorem exec_fpBr : ∀ f iv s, exec (.fpBr f iv) s = execFpBr f iv s := by intros; rfl
@[simp] theorem exec_fpCall : ∀ f iv s, exec (.fpCall f iv) s = execFpCall f iv s := by intros; rfl
@[simp] theorem exec_fpRet : ∀ f iv s, exec (.fpRet f iv) s = execFpRet f iv s := by intros; rfl
@[simp] theorem exec_fpLoop : ∀ f iv s, exec (.fpLoop f iv) s = execFpLoop f iv s := by intros; rfl
@[simp] theorem exec_fpWaite : ∀ f iv s, exec (.fpWaite f iv) s = execFpWaite f iv s := by intros; rfl
@[simp] theorem exec_fpEvclr : ∀ f iv s, exec (.fpEvclr f iv) s = execFpEvclr f iv s := by intros; rfl
@[simp] theorem exec_fpEvset : ∀ f iv s, exec (.fpEvset f iv) s = execFpEvset f iv s := by intros; rfl
@[simp] theorem exec_fpEvrd : ∀ f iv s, exec (.fpEvrd f iv) s = execFpEvrd f iv s := by intros; rfl
@[simp] theorem exec_fpWaitt : ∀ f iv s, exec (.fpWaitt f iv) s = execFpWaitt f iv s := by intros; rfl
@[simp] theorem exec_fpWaitl : ∀ f iv s, exec (.fpWaitl f iv) s = execFpWaitl f iv s := by intros; rfl
@[simp] theorem exec_fpRdtime : ∀ f iv s, exec (.fpRdtime f iv) s = execFpRdtime f iv s := by intros; rfl
@[simp] theorem exec_fpRdpos : ∀ f iv s, exec (.fpRdpos f iv) s = execFpRdpos f iv s := by intros; rfl
@[simp] theorem exec_fpTset : ∀ f iv s, exec (.fpTset f iv) s = execFpTset f iv s := by intros; rfl
@[simp] theorem exec_fpLaunch : ∀ f iv s, exec (.fpLaunch f iv) s = execFpLaunch f iv s := by intros; rfl
@[simp] theorem exec_fpBind : ∀ f iv s, exec (.fpBind f iv) s = execFpBind f iv s := by intros; rfl
@[simp] theorem exec_fpDma : ∀ f iv s, exec (.fpDma f iv) s = execFpDma f iv s := by intros; rfl
@[simp] theorem exec_fpBrxj : ∀ f iv s, exec (.fpBrxj f iv) s = execFpBrxj f iv s := by intros; rfl
@[simp] theorem exec_fpPwr : ∀ f iv s, exec (.fpPwr f iv) s = execFpPwr f iv s := by intros; rfl
@[simp] theorem exec_fpSemacq : ∀ f iv s, exec (.fpSemacq f iv) s = execFpSemacq f iv s := by intros; rfl
@[simp] theorem exec_fpSemtry : ∀ f iv s, exec (.fpSemtry f iv) s = execFpSemtry f iv s := by intros; rfl
@[simp] theorem exec_fpSemrel : ∀ f iv s, exec (.fpSemrel f iv) s = execFpSemrel f iv s := by intros; rfl
@[simp] theorem exec_fpCkpt : ∀ f iv s, exec (.fpCkpt f iv) s = execFpCkpt f iv s := by intros; rfl
@[simp] theorem exec_fpNop : ∀ f s, exec (.fpNop f) s = execFpNop f s := by intros; rfl
@[simp] theorem exec_fpFence : ∀ f s, exec (.fpFence f) s = execFpFence f s := by intros; rfl
@[simp] theorem exec_fpHalt : ∀ f s, exec (.fpHalt f) s = execFpHalt f s := by intros; rfl
@[simp] theorem exec_waiteTimeout : ∀ f s, exec (.waiteTimeout f) s = execWaiteTimeout f s := by intros; rfl
@[simp] theorem exec_waittReached : ∀ f s, exec (.waittReached f) s = execWaittReached f s := by intros; rfl
@[simp] theorem exec_timerExpired : ∀ f t s, exec (.timerExpired f t) s = execTimerExpired f t s := by intros; rfl
@[simp] theorem exec_watchdogExpired : ∀ f s, exec (.watchdogExpired f) s = execWatchdogExpired f s := by intros; rfl
@[simp] theorem exec_registerReadResponse : ∀ q s, exec (.registerReadResponse q) s = execRegisterReadResponse q s := by intros; rfl
@[simp] theorem exec_writeAck : ∀ n s, exec (.writeAck n) s = execWriteAck n s := by intros; rfl
@[simp] theorem exec_dmaEnd : ∀ f ch flashError s, exec (.dmaEnd f ch flashError) s = execDmaEnd f ch s flashError := by intros; rfl
@[simp] theorem exec_checkpointWritten : ∀ f s, exec (.checkpointWritten f) s = execCheckpointWritten f s := by intros; rfl
@[simp] theorem exec_progLoad : ∀ f q v s, exec (.progLoad f q v) s = execProgLoad f q v s := by intros; rfl
@[simp] theorem exec_progLoadChecked : ∀ flashError s, exec (.progLoadChecked flashError) s = execProgLoadChecked s flashError := by intros; rfl
@[simp] theorem exec_progStop : ∀ f q s, exec (.progStop f q) s = execProgStop f q s := by intros; rfl
@[simp] theorem exec_progRun : ∀ f q s, exec (.progRun f q) s = execProgRun f q s := by intros; rfl
@[simp] theorem exec_updateRequest : ∀ q s, exec (.updateRequest q) s = execUpdateRequest q s := by intros; rfl
@[simp] theorem exec_planeMark : ∀ q v s, exec (.planeMark q v) s = execPlaneMark q v s := by intros; rfl
@[simp] theorem exec_lutWrite : ∀ q addr v s, exec (.lutWrite q addr v) s = execLutWrite q addr v s := by intros; rfl
@[simp] theorem exec_blitStart : ∀ q v s, exec (.blitStart q v) s = execBlitStart q v s := by intros; rfl
@[simp] theorem exec_blitAbort : ∀ q s, exec (.blitAbort q) s = execBlitAbort q s := by intros; rfl
@[simp] theorem exec_blitDone : ∀ done s, exec (.blitDone done) s = execBlitDone done s := by intros; rfl
@[simp] theorem exec_jobSubmit : ∀ q v s, exec (.jobSubmit q v) s = execJobSubmit q v s := by intros; rfl
@[simp] theorem exec_coderLaneTakeItem : ∀ s, exec (.coderLaneTakeItem) s = execCoderLaneTakeItem s := by intros; rfl
@[simp] theorem exec_coderItemDone : ∀ engine lane mismatches s, exec (.coderItemDone engine lane mismatches) s = execCoderItemDone engine lane mismatches s := by intros; rfl
@[simp] theorem exec_retCtrlWrite : ∀ q v s, exec (.retCtrlWrite q v) s = execRetCtrlWrite q v s := by intros; rfl
@[simp] theorem exec_bringUp : ∀ q v s, exec (.bringUp q v) s = execBringUp q v s := by intros; rfl
@[simp] theorem exec_dramTrained : ∀ ch res s, exec (.dramTrained ch res) s = execDramTrained ch res s := by intros; rfl
@[simp] theorem exec_dramInitDone : ∀ s, exec (.dramInitDone) s = execDramInitDone s := by intros; rfl
@[simp] theorem exec_dramRead : ∀ req flips s, exec (.dramRead req flips) s = execDramRead req flips s := by intros; rfl
@[simp] theorem exec_dramWrite : ∀ req enables data flips poison s, exec (.dramWrite req enables data flips poison) s = execDramWrite req enables data flips s poison := by intros; rfl
@[simp] theorem exec_writeDrain : ∀ ch byAge issued s, exec (.writeDrain ch byAge issued) s = execWriteDrain ch byAge issued s := by intros; rfl
@[simp] theorem exec_migrationCopy : ∀ quad flips s, exec (.migrationCopy quad flips) s = execMigrationCopy quad flips s := by intros; rfl
@[simp] theorem exec_refreshWindow : ∀ s, exec (.refreshWindow) s = execRefreshWindow s := by intros; rfl
@[simp] theorem exec_mr4Read : ∀ ch rank mult derate s, exec (.mr4Read ch rank mult derate) s = execMr4Read ch rank mult derate s := by intros; rfl
@[simp] theorem exec_wck2dqCheck : ∀ ch drift eyes s, exec (.wck2dqCheck ch drift eyes) s = execWck2dqCheck ch drift eyes s := by intros; rfl
@[simp] theorem exec_timingStart : ∀ s, exec (.timingStart) s = execTimingStart s := by intros; rfl
@[simp] theorem exec_lineStart : ∀ f skew s, exec (.lineStart f skew) s = execLineStart f skew s := by intros; rfl
@[simp] theorem exec_scanHold : ∀ s, exec (.scanHold) s = execScanHold s := by intros; rfl
@[simp] theorem exec_holdTimeout : ∀ s, exec (.holdTimeout) s = execHoldTimeout s := by intros; rfl
@[simp] theorem exec_waveCommit : ∀ q s, exec (.waveCommit q) s = execWaveCommit q s := by intros; rfl
@[simp] theorem exec_panelMode : ∀ q v s, exec (.panelMode q v) s = execPanelMode q v s := by intros; rfl
@[simp] theorem exec_panelPowerOn : ∀ q s, exec (.panelPowerOn q) s = execPanelPowerOn q s := by intros; rfl
@[simp] theorem exec_panelPowerOff : ∀ q s, exec (.panelPowerOff q) s = execPanelPowerOff q s := by intros; rfl
@[simp] theorem exec_panelTrainingDone : ∀ s, exec (.panelTrainingDone) s = execPanelTrainingDone s := by intros; rfl
@[simp] theorem exec_panelIdentifyReply : ∀ block s, exec (.panelIdentifyReply block) s = execPanelIdentifyReply block s := by intros; rfl
@[simp] theorem exec_panelFlashReadReply : ∀ data s, exec (.panelFlashReadReply data) s = execPanelFlashReadReply data s := by intros; rfl
@[simp] theorem exec_statusReadReply : ∀ group driver v s, exec (.statusReadReply group driver v) s = execStatusReadReply group driver v s := by intros; rfl
@[simp] theorem exec_pmicRun : ∀ q v s, exec (.pmicRun q v) s = execPmicRun q v s := by intros; rfl
@[simp] theorem exec_pmicMonitor : ∀ s, exec (.pmicMonitor) s = execPmicMonitor s := by intros; rfl
@[simp] theorem exec_pmicEntry : ∀ r s, exec (.pmicEntry r) s = execPmicEntry r s := by intros; rfl
@[simp] theorem exec_pmicScriptDone : ∀ s, exec (.pmicScriptDone) s = execPmicScriptDone s := by intros; rfl
@[simp] theorem exec_pfailFall : ∀ s, exec (.pfailFall) s = execPfailFall s := by intros; rfl
@[simp] theorem exec_abruptLossEnd : ∀ s, exec (.abruptLossEnd) s = execAbruptLossEnd s := by intros; rfl
@[simp] theorem exec_railCollapse : ∀ rail microvolts s, exec (.railCollapse rail microvolts) s = execRailCollapse rail s microvolts := by intros; rfl
@[simp] theorem exec_linkEnable : ∀ l s, exec (.linkEnable l) s = execLinkEnable l s := by intros; rfl
@[simp] theorem exec_linkRetrain : ∀ p q s, exec (.linkRetrain p q) s = execLinkRetrain p q s := by intros; rfl
@[simp] theorem exec_blockReceived : ∀ l header payload s, exec (.blockReceived l header payload) s = execBlockReceived l header payload s := by intros; rfl
@[simp] theorem exec_skipReceived : ∀ l payload s, exec (.skipReceived l payload) s = execSkipReceived l payload s := by intros; rfl
@[simp] theorem exec_trainReceived : ∀ l payload s, exec (.trainReceived l payload) s = execTrainReceived l payload s := by intros; rfl
@[simp] theorem exec_capsReceived : ∀ l payload s, exec (.capsReceived l payload) s = execCapsReceived l payload s := by intros; rfl
@[simp] theorem exec_eqPresetMeasured : ∀ l width s, exec (.eqPresetMeasured l width) s = execEqPresetMeasured l width s := by intros; rfl
@[simp] theorem exec_trainingTimeout : ∀ l s, exec (.trainingTimeout l) s = execTrainingTimeout l s := by intros; rfl
@[simp] theorem exec_trainingRetry : ∀ p s, exec (.trainingRetry p) s = execTrainingRetry p s := by intros; rfl
@[simp] theorem exec_laneRateWindow : ∀ l ppm s, exec (.laneRateWindow l ppm) s = execLaneRateWindow l ppm s := by intros; rfl
@[simp] theorem exec_marginRound : ∀ l error s, exec (.marginRound l error) s = execMarginRound l error s := by intros; rfl
@[simp] theorem exec_packetReceived : ∀ p pkt s, exec (.packetReceived p pkt) s = execPacketReceived p pkt s := by intros; rfl
@[simp] theorem exec_ackReceived : ∀ p seq s, exec (.ackReceived p seq) s = execAckReceived p seq s := by intros; rfl
@[simp] theorem exec_nakReceived : ∀ p seq s, exec (.nakReceived p seq) s = execNakReceived p seq s := by intros; rfl
@[simp] theorem exec_replayTimeout : ∀ p s, exec (.replayTimeout p) s = execReplayTimeout p s := by intros; rfl
@[simp] theorem exec_creditReceived : ∀ p channel credits s, exec (.creditReceived p channel credits) s = execCreditReceived p channel credits s := by intros; rfl
@[simp] theorem exec_lineReport : ∀ b payload s, exec (.lineReport b payload) s = execLineReport b payload s := by intros; rfl
@[simp] theorem exec_eyeStart : ∀ r q v s, exec (.eyeStart r q v) s = execEyeStart r q v s := by intros; rfl
@[simp] theorem exec_eyePointDone : ∀ r errors s, exec (.eyePointDone r errors) s = execEyePointDone r errors s := by intros; rfl
@[simp] theorem exec_timeLink : ∀ up speedRefused s, exec (.timeLink up speedRefused) s = execTimeLink up speedRefused s := by intros; rfl
@[simp] theorem exec_audioPortEnable : ∀ port q v s, exec (.audioPortEnable port q v) s = execAudioPortEnable port q v s := by intros; rfl
@[simp] theorem exec_audioArm : ∀ q v s, exec (.audioArm q v) s = execAudioArm q v s := by intros; rfl
@[simp] theorem exec_audioStop : ∀ q v s, exec (.audioStop q v) s = execAudioStop q v s := by intros; rfl
@[simp] theorem exec_audioStartTime : ∀ op s, exec (.audioStartTime op) s = execAudioStartTime op s := by intros; rfl
@[simp] theorem exec_audioFrame : ∀ op s, exec (.audioFrame op) s = execAudioFrame op s := by intros; rfl
@[simp] theorem exec_underrunRamp : ∀ op ch s, exec (.underrunRamp op ch) s = execUnderrunRamp op ch s := by intros; rfl
@[simp] theorem exec_fsyncEdge : ∀ port info s, exec (.fsyncEdge port info) s = execFsyncEdge port info s := by intros; rfl
@[simp] theorem exec_clockStopped : ∀ clk s, exec (.clockStopped clk) s = execClockStopped clk s := by intros; rfl
@[simp] theorem exec_clockMeasurement : ∀ clk nominal dev s, exec (.clockMeasurement clk nominal dev) s = execClockMeasurement clk nominal dev s := by intros; rfl
@[simp] theorem exec_lockGroupEnable : ∀ q v s, exec (.lockGroupEnable q v) s = execLockGroupEnable q v s := by intros; rfl
@[simp] theorem exec_asrcAcquired : ∀ clk s, exec (.asrcAcquired clk) s = execAsrcAcquired clk s := by intros; rfl
@[simp] theorem exec_audioUnit : ∀ p unit s, exec (.audioUnit p unit) s = execAudioUnit p unit s := by intros; rfl
@[simp] theorem exec_ptpMessage : ∀ m s, exec (.ptpMessage m) s = execPtpMessage m s := by intros; rfl
@[simp] theorem exec_ptpSend : ∀ k s, exec (.ptpSend k) s = execPtpSend k s := by intros; rfl
@[simp] theorem exec_announceTimeout : ∀ k s, exec (.announceTimeout k) s = execAnnounceTimeout k s := by intros; rfl
@[simp] theorem exec_igmpReport : ∀ s, exec (.igmpReport) s = execIgmpReport s := by intros; rfl
@[simp] theorem exec_arpRequest : ∀ ip senderMac senderIp s, exec (.arpRequest ip senderMac senderIp) s = execArpRequest ip senderMac senderIp s := by intros; rfl
@[simp] theorem exec_ppsInEdge : ∀ rising s, exec (.ppsInEdge rising) s = execPpsInEdge rising s := by intros; rfl
@[simp] theorem exec_ppsInLost : ∀ s, exec (.ppsInLost) s = execPpsInLost s := by intros; rfl
@[simp] theorem exec_captureEdge : ∀ n rising gapNs widthNs s, exec (.captureEdge n rising gapNs widthNs) s = execCaptureEdge n rising gapNs widthNs s := by intros; rfl
@[simp] theorem exec_captureRead : ∀ n q s, exec (.captureRead n q) s = execCaptureRead n q s := by intros; rfl
@[simp] theorem exec_timeRead : ∀ q s, exec (.timeRead q) s = execTimeRead q s := by intros; rfl
@[simp] theorem exec_timeSet : ∀ q s, exec (.timeSet q) s = execTimeSet q s := by intros; rfl
@[simp] theorem exec_restep : ∀ q s, exec (.restep q) s = execRestep q s := by intros; rfl
@[simp] theorem exec_ptpProfileWrite : ∀ q v s, exec (.ptpProfileWrite q v) s = execPtpProfileWrite q v s := by intros; rfl
@[simp] theorem exec_triggerArm : ∀ n q v s, exec (.triggerArm n q v) s = execTriggerArm n q v s := by intros; rfl
@[simp] theorem exec_triggerFire : ∀ n q s, exec (.triggerFire n q) s = execTriggerFire n q s := by intros; rfl
@[simp] theorem exec_triggerEdge : ∀ n s, exec (.triggerEdge n) s = execTriggerEdge n s := by intros; rfl
@[simp] theorem exec_ppsOutEdge : ∀ s, exec (.ppsOutEdge) s = execPpsOutEdge s := by intros; rfl
@[simp] theorem exec_ondieSensorUpdate : ∀ iv v s, exec (.ondieSensorUpdate iv v) s = execOndieSensorUpdate iv v s := by intros; rfl
@[simp] theorem exec_throttleStep : ∀ s, exec (.throttleStep) s = execThrottleStep s := by intros; rfl
@[simp] theorem exec_adcCycle : ∀ codes s, exec (.adcCycle codes) s = execAdcCycle codes s := by intros; rfl
@[simp] theorem exec_panelTempHoldExpired : ∀ s, exec (.panelTempHoldExpired) s = execPanelTempHoldExpired s := by intros; rfl
@[simp] theorem exec_dramOvertempPersist : ∀ s, exec (.dramOvertempPersist) s = execDramOvertempPersist s := by intros; rfl
@[simp] theorem exec_thermalRestart : ∀ s, exec (.thermalRestart) s = execThermalRestart s := by intros; rfl
@[simp] theorem exec_calStart : ∀ q v s, exec (.calStart q v) s = execCalStart q v s := by intros; rfl
@[simp] theorem exec_calDone : ∀ m s, exec (.calDone m) s = execCalDone m s := by intros; rfl
@[simp] theorem exec_clearRetired : ∀ q v s, exec (.clearRetired q v) s = execClearRetired q v s := by intros; rfl
@[simp] theorem exec_leaseRenewal : ∀ f s, exec (.leaseRenewal f) s = execLeaseRenewal f s := by intros; rfl
@[simp] theorem exec_leaseExpired : ∀ s, exec (.leaseExpired) s = execLeaseExpired s := by intros; rfl
@[simp] theorem exec_agentLapse : ∀ f s, exec (.agentLapse f) s = execAgentLapse f s := by intros; rfl
@[simp] theorem exec_leaseGuardEnd : ∀ s, exec (.leaseGuardEnd) s = execLeaseGuardEnd s := by intros; rfl
@[simp] theorem exec_switch : ∀ q s, exec (.switch q) s = execSwitch q s := by intros; rfl
@[simp] theorem exec_switchRelease : ∀ s, exec (.switchRelease) s = execSwitchRelease s := by intros; rfl
@[simp] theorem exec_mirrorRecord : ∀ rec s, exec (.mirrorRecord rec) s = execMirrorRecord rec s := by intros; rfl
@[simp] theorem exec_selftestRoundEnd : ∀ passedA passedB s, exec (.selftestRoundEnd passedA passedB) s = execSelftestRoundEnd passedA passedB s := by intros; rfl
@[simp] theorem exec_selftest : ∀ q s, exec (.selftest q) s = execSelftest q s := by intros; rfl
@[simp] theorem exec_selftestItem : ∀ f item passed s, exec (.selftestItem f item passed) s = execSelftestItem f item passed s := by intros; rfl
@[simp] theorem exec_coldTakeoverTimeout : ∀ s, exec (.coldTakeoverTimeout) s = execColdTakeoverTimeout s := by intros; rfl
@[simp] theorem exec_por : ∀ s, exec (.por) s = execPor s := by intros; rfl
@[simp] theorem exec_flintSelftestDone : ∀ f passed s, exec (.flintSelftestDone f passed) s = execFlintSelftestDone f passed s := by intros; rfl
@[simp] theorem exec_bootDone : ∀ s, exec (.bootDone) s = execBootDone s := by intros; rfl
@[simp] theorem exec_wakePinLow : ∀ s, exec (.wakePinLow) s = execWakePinLow s := by intros; rfl
@[simp] theorem exec_wakeTimerExpired : ∀ s, exec (.wakeTimerExpired) s = execWakeTimerExpired s := by intros; rfl
@[simp] theorem exec_pfailReturn : ∀ s, exec (.pfailReturn) s = execPfailReturn s := by intros; rfl
@[simp] theorem exec_clockReturn : ∀ s, exec (.clockReturn) s = execClockReturn s := by intros; rfl
@[simp] theorem exec_reboot : ∀ q v s, exec (.reboot q v) s = execReboot q v s := by intros; rfl
@[simp] theorem exec_confirm : ∀ q s, exec (.confirm q) s = execConfirm q s := by intros; rfl
@[simp] theorem exec_otpWriteCustomer : ∀ q v s, exec (.otpWriteCustomer q v) s = execOtpWriteCustomer q v s := by intros; rfl
@[simp] theorem exec_otpRevokeCustomer : ∀ q v s, exec (.otpRevokeCustomer q v) s = execOtpRevokeCustomer q v s := by intros; rfl
@[simp] theorem exec_otpLock : ∀ q v s, exec (.otpLock q v) s = execOtpLock q v s := by intros; rfl
@[simp] theorem exec_otpRollback : ∀ q v s, exec (.otpRollback q v) s = execOtpRollback q v s := by intros; rfl
@[simp] theorem exec_otpWritten : ∀ s, exec (.otpWritten) s = execOtpWritten s := by intros; rfl
@[simp] theorem exec_attestStart : ∀ h s, exec (.attestStart h) s = execAttestStart h s := by intros; rfl
@[simp] theorem exec_attestDone : ∀ h s, exec (.attestDone h) s = execAttestDone h s := by intros; rfl
@[simp] theorem exec_write : ∀ h fr addr count data s, exec (.write h fr addr count data) s = execWrite h fr addr count data s := by intros; rfl
@[simp] theorem exec_read : ∀ h fr addr count ready s, exec (.read h fr addr count ready) s = execRead h fr addr count ready s := by intros; rfl
@[simp] theorem exec_fetch : ∀ h fr ready s, exec (.fetch h fr ready) s = execFetch h fr ready s := by intros; rfl
@[simp] theorem exec_status : ∀ h fr s, exec (.status h fr) s = execStatus h fr s := by intros; rfl
@[simp] theorem exec_semTry : ∀ h fr sem s, exec (.semTry h fr sem) s = execSemTry h fr sem s := by intros; rfl
@[simp] theorem exec_semAcquire : ∀ h fr sem s, exec (.semAcquire h fr sem) s = execSemAcquire h fr sem s := by intros; rfl
@[simp] theorem exec_semRelease : ∀ h fr sem s, exec (.semRelease h fr sem) s = execSemRelease h fr sem s := by intros; rfl
@[simp] theorem exec_semCancel : ∀ h fr sem s, exec (.semCancel h fr sem) s = execSemCancel h fr sem s := by intros; rfl
@[simp] theorem exec_semBreak : ∀ h fr sem s, exec (.semBreak h fr sem) s = execSemBreak h fr sem s := by intros; rfl
@[simp] theorem exec_flashRead : ∀ h fr offset count ready s, exec (.flashRead h fr offset count ready) s = execFlashRead h fr offset count ready s := by intros; rfl
@[simp] theorem exec_flashProgram : ∀ h fr offset count data s, exec (.flashProgram h fr offset count data) s = execFlashProgram h fr offset count data s := by intros; rfl
@[simp] theorem exec_flashErase : ∀ h fr offset size s, exec (.flashErase h fr offset size) s = execFlashErase h fr offset size s := by intros; rfl
@[simp] theorem exec_flashDone : ∀ ok s, exec (.flashDone ok) s = execFlashDone ok s := by intros; rfl
@[simp] theorem exec_flashTimeout : ∀ s, exec (.flashTimeout) s = execFlashTimeout s := by intros; rfl
@[simp] theorem exec_eventQueueRead : ∀ h s, exec (.eventQueueRead h) s = execEventQueueRead h s := by intros; rfl
@[simp] theorem exec_doorbell : ∀ h v s, exec (.doorbell h v) s = execDoorbell h v s := by intros; rfl
@[simp] theorem exec_mailbox : ∀ f v s, exec (.mailbox f v) s = execMailbox f v s := by intros; rfl
@[simp] theorem exec_sleep : ∀ q v s, exec (.sleep q v) s = execSleep q v s := by intros; rfl
@[simp] theorem exec_pwrRequest : ∀ q v s, exec (.pwrRequest q v) s = execPwrRequest q v s := by intros; rfl
@[simp] theorem exec_regionPowered : ∀ r s, exec (.regionPowered r) s = execRegionPowered r s := by intros; rfl
@[simp] theorem exec_refclkWindow : ∀ cycles s, exec (.refclkWindow cycles) s = execRefclkWindow cycles s := by intros; rfl
@[simp] theorem exec_xtalFault : ∀ s, exec (.xtalFault) s = execXtalFault s := by intros; rfl
@[simp] theorem exec_sysReset : ∀ s, exec (.sysReset) s = execSysReset s := by intros; rfl
@[simp] theorem exec_driveOffDelay : ∀ s, exec (.driveOffDelay) s = execDriveOffDelay s := by intros; rfl
@[simp] theorem exec_hostWake : ∀ a b wakeN s, exec (.hostWake a b wakeN) s = execHostWake a b s wakeN := by intros; rfl
@[simp] theorem exec_sysResetRelease : ∀ s, exec (.sysResetRelease) s = execSysResetRelease s := by intros; rfl
@[simp] theorem exec_refclkStopped : ∀ s, exec (.refclkStopped) s = execRefclkStopped s := by intros; rfl
@[simp] theorem exec_calmapReadTimeout : ∀ s, exec (.calmapReadTimeout) s = execCalmapReadTimeout s := by intros; rfl
@[simp] theorem exec_flintSelftestTimeout : ∀ s, exec (.flintSelftestTimeout) s = execFlintSelftestTimeout s := by intros; rfl
@[simp] theorem exec_laneTest : ∀ r p q v s, exec (.laneTest r p q v) s = execLaneTest r p q v s := by intros; rfl
@[simp] theorem exec_porAsserted : ∀ s, exec (.porAsserted) s = execPorAsserted s := by intros; rfl

end Sys2Proof.Machine
end

