-- ==== Sys2Proof/Laws/FrameProg.lean ====
section
/-! SUPPORT. What the frame program's shared operations do, each said once. -/

namespace Sys2Proof.Machine

@[simp] theorem flintOf_setFlint (s : State) (f : FlintId) (g : Flint → Flint) : flintOf (setFlint s f g) f = g (flintOf s f) := by
  simp [flintOf, setFlint, setCtrl, vUpd]

@[simp] theorem flintOf_setFlint_other (s : State) (f : FlintId) (g : Flint → Flint) :
    flintOf (setFlint s f g) (otherFlint f) = flintOf s (otherFlint f) := by
  cases f <;> simp [flintOf, setFlint, setCtrl, vUpd, otherFlint, flIdx]

@[simp] theorem holder_setFlint (s : State) (f : FlintId) (g : Flint → Flint) : holder (setFlint s f g) = holder s := rfl

@[simp] theorem setFlint_setFlint (s : State) (f : FlintId) (g h : Flint → Flint) :
    setFlint (setFlint s f g) f h = setFlint s f fun x => h (g x) := by
  simp [setFlint, setCtrl, vUpd]

/-- Two changes of a region's state that agree on it are the same. -/
theorem setFlint_congr {s : State} {f : FlintId} {g h : Flint → Flint} (e : g (flintOf s f) = h (flintOf s f)) :
    setFlint s f g = setFlint s f h := by
  have e' : g s.ctrl.fl[flIdx f] = h s.ctrl.fl[flIdx f] := e
  simp only [setFlint, setCtrl, vUpd, e']

/-- A mirror record joins what is on its way where the standby is in the shadow run. -/
theorem mirrorSend_eq (s : State) (f : FlintId) (r : MirrorRec) :
    mirrorSend s f r = if (flintOf s (otherFlint f)).shadow = .inShadow then
      { s with ctrl := { s.ctrl with lease := { s.ctrl.lease with mirror := s.ctrl.lease.mirror ++ [r] } } } else s := by
  by_cases h : (flintOf s (otherFlint f)).shadow = .inShadow <;> simp [mirrorSend, shadowed, h, setLease, setCtrl]

/-- A region that leads does not follow. -/
theorem fpFollows_eq_false {s : State} {f : FlintId} (hm : mirrorDone s f = true) (hs : (flintOf s f).shadow ≠ .inShadow) :
    fpFollows s f = false := by
  simp [fpFollows, hm, hs]

/-- Where the region leads, its program runs and waits for nothing, PC is in the code, and the predicate holds, a step is the instruction's body. -/
theorem fpStep_active {s : State} {f : FlintId} {pneg : Bool} {pidx : BitVec 3} {body : State → Out}
    (h1 : flintUp s f = true) (h2 : (flintOf s f).st = .running) (h3 : (flintOf s f).wait = none) (h4 : holder s = some f)
    (h5 : mirrorDone s f = true) (h6 : (flintOf s f).pc < (flintOf s f).code.length)
    (h7 : fpPred (flintOf s f) pidx.toNat ≠ pneg) : fpStep f pneg pidx body s = body s := by
  have h8 : (flintOf s f).mirror = [] := by simp only [mirrorDone, Bool.and_eq_true, List.isEmpty_iff] at h5; exact h5.1
  have hs : mirrorSkip s f = s := by simp [mirrorSkip, h8]
  have hm : fpMayRun s f = true := by simp [fpMayRun, fpLeads, h1, h2, h3, h4, h5]
  have hw : watchdogNext s f = false := by simp [watchdogNext, h8]
  simp [fpStep, hs, hm, hw, Nat.not_le.mpr h6, h7]

/-! Semaphores that the frame program holds. -/

theorem semOf_setSem_ne (s : State) {n m : Nat} (f : Sem → Sem) (h : n ≠ m) : semOf (setSem s n f) m = semOf s m := by
  unfold setSem
  by_cases hn : n < 32
  · simp [semOf, setSlate, hn, setF, setReg, Vector.getD, Array.getElem?_set_ne, h]
  · simp [semOf, setSlate, hn, setF, setReg]

theorem semOf_setSem (s : State) {n : Nat} (f : Sem → Sem) (h : n < 32) : semOf (setSem s n f) n = f (semOf s n) := by
  simp [setSem, semOf, setSlate, h, setF, setReg, Vector.getD]

end Sys2Proof.Machine
end

