-- ==== Sys2Proof/Laws/Memory.lean ====
section
/-! SUPPORT. Sparse maps, DRAM and registers: what a write leaves at every address, and that every write keeps the canonical form. -/

namespace Sys2Proof.Machine

variable {α : Type}

/-! Sparse maps, whatever their form. -/

theorem smGet?_smSet (m : List (Nat × α)) (k a : Nat) (v : α) : smGet? (smSet m k v) a = if a = k then some v else smGet? m a := by
  induction m with
  | nil => by_cases h : k = a <;> simp [smSet, smGet?, h, eq_comm]
  | cons e r ih =>
    obtain ⟨b, w⟩ := e
    simp only [smSet]
    split
    · by_cases h : k = a <;> simp [smGet?, h, eq_comm]
    · split
      · rename_i h; subst h; by_cases h : k = a <;> simp [smGet?, h, eq_comm]
      · rename_i h
        simp only [smGet?, ih]
        by_cases h1 : b = a
        · have : a ≠ k := fun e => h (e ▸ h1.symm)
          simp [h1, this]
        · simp [h1]

theorem smGet?_smErase (m : List (Nat × α)) (k a : Nat) : smGet? (smErase m k) a = if a = k then none else smGet? m a := by
  induction m with
  | nil => simp [smErase, smGet?]
  | cons e r ih =>
    obtain ⟨b, w⟩ := e
    have ih' : smGet? (r.filter fun e => e.1 != k) a = if a = k then none else smGet? r a := ih
    by_cases h : b = k
    · subst h
      simp only [smErase, List.filter_cons, bne_self_eq_false, Bool.false_eq_true, if_false, ih', smGet?]
      by_cases ha : a = b
      · simp [ha]
      · simp [ha, Ne.symm ha]
    · have h2 : (b != k) = true := by simp [h]
      simp only [smErase, List.filter_cons, h2, if_true, smGet?, ih']
      by_cases hb : b = a
      · have : a ≠ k := fun e => h (hb.trans e)
        simp [hb, this]
      · simp [hb]

/-- A write is read back, and changes no other address. -/
theorem smRead_smWrite [DecidableEq α] (d : Nat → α) (m : List (Nat × α)) (k a : Nat) (v : α) :
    smRead d (smWrite d m k v) a = if a = k then v else smRead d m a := by
  unfold smRead smWrite
  split
  · rename_i h; rw [smGet?_smErase]; by_cases ha : a = k <;> simp [ha, h]
  · rw [smGet?_smSet]; by_cases ha : a = k <;> simp [ha]

/-- Many writes: each address of the run holds its value, every other address what it held. -/
theorem smRead_smWriteList [DecidableEq α] (d : Nat → α) (vs : List α) (m : List (Nat × α)) (k a : Nat) :
    smRead d (smWriteList d m k vs) a = if h : k ≤ a ∧ a - k < vs.length then vs[a - k]'h.2 else smRead d m a := by
  induction vs generalizing m k with
  | nil => simp [smWriteList]
  | cons v r ih =>
    rw [smWriteList, ih, smRead_smWrite]
    by_cases h1 : a = k
    · subst h1; simp
    · by_cases h2 : k + 1 ≤ a ∧ a - (k + 1) < r.length
      · have h3 : k ≤ a ∧ a - k < (v :: r).length := ⟨by omega, by simp; omega⟩
        have h4 : a - k = a - (k + 1) + 1 := by omega
        simp only [dif_pos h2, dif_pos h3]
        simp [h4]
      · have h3 : ¬(k ≤ a ∧ a - k < (v :: r).length) := by simp; omega
        rw [dif_neg h2, dif_neg h3, if_neg h1]

/-! The canonical form. -/

theorem smSorted_iff (m : List (Nat × α)) : smSorted m = true ↔ m.Pairwise fun a b => a.1 < b.1 := by
  induction m with
  | nil => simp [smSorted]
  | cons e r ih =>
    cases r with
    | nil => simp [smSorted]
    | cons f r =>
      obtain ⟨a, x⟩ := e
      obtain ⟨b, y⟩ := f
      rw [smSorted, Bool.and_eq_true, decide_eq_true_iff, ih, List.pairwise_cons (a := (a, x))]
      constructor
      · rintro ⟨h1, h2⟩
        refine ⟨fun e he => ?_, h2⟩
        rcases List.mem_cons.1 he with h | h
        · subst h; exact h1
        · exact h1.trans ((List.pairwise_cons.1 h2).1 e h)
      · rintro ⟨h1, h2⟩
        exact ⟨h1 (b, y) (by simp), h2⟩

theorem mem_smSet {m : List (Nat × α)} {k : Nat} {v : α} {e : Nat × α} (h : e ∈ smSet m k v) : e = (k, v) ∨ e ∈ m := by
  induction m with
  | nil => simpa [smSet] using h
  | cons f r ih =>
    obtain ⟨b, w⟩ := f
    simp only [smSet] at h
    split at h
    · simpa using h
    · split at h
      · rcases List.mem_cons.1 h with h | h
        · exact .inl h
        · exact .inr (List.mem_cons_of_mem _ h)
      · rcases List.mem_cons.1 h with h | h
        · exact .inr (h ▸ List.mem_cons_self)
        · rcases ih h with h | h
          · exact .inl h
          · exact .inr (List.mem_cons_of_mem _ h)

theorem smSet_pairwise {m : List (Nat × α)} (k : Nat) (v : α) (h : m.Pairwise fun a b => a.1 < b.1) :
    (smSet m k v).Pairwise fun a b => a.1 < b.1 := by
  induction m with
  | nil => simp [smSet]
  | cons f r ih =>
    obtain ⟨b, w⟩ := f
    have h' := List.pairwise_cons.1 h
    simp only [smSet]
    split
    · rename_i hk
      refine List.pairwise_cons.2 ⟨fun e he => ?_, h⟩
      rcases List.mem_cons.1 he with he | he
      · subst he; exact hk
      · exact lt_trans hk (h'.1 e he)
    · split
      · rename_i hk; subst hk
        exact List.pairwise_cons.2 ⟨h'.1, h'.2⟩
      · refine List.pairwise_cons.2 ⟨fun e he => ?_, ih h'.2⟩
        rcases mem_smSet he with he | he
        · subst he; simp only; omega
        · exact h'.1 e he

/-- A write keeps the canonical form. -/
theorem smWf_smWrite [DecidableEq α] {d : Nat → α} {m : List (Nat × α)} (k : Nat) (v : α) (h : smWf d m = true) :
    smWf d (smWrite d m k v) = true := by
  simp only [smWf, Bool.and_eq_true, smSorted_iff, smNoDefault, List.all_eq_true, decide_eq_true_iff] at h ⊢
  unfold smWrite
  split
  · exact ⟨h.1.filter _, fun e he => h.2 e (List.mem_filter.1 he).1⟩
  · rename_i hv
    refine ⟨smSet_pairwise k v h.1, fun e he => ?_⟩
    rcases mem_smSet he with he | he
    · subst he; exact hv
    · exact h.2 e he

/-- Many writes keep the canonical form. -/
theorem smWf_smWriteList [DecidableEq α] {d : Nat → α} (vs : List α) {m : List (Nat × α)} (k : Nat) (h : smWf d m = true) :
    smWf d (smWriteList d m k vs) = true := by
  induction vs generalizing m k with
  | nil => exact h
  | cons v r ih => exact ih _ (smWf_smWrite k v h)

/-! DRAM. -/

/-- Bytes put into DRAM keep its canonical form. -/
theorem memPutList_wf {m : List Host.Cell} (a : Nat) (bs : List Byte) (h : smWf (fun _ => (0 : Byte)) m = true) :
    smWf (fun _ => (0 : Byte)) (memPutList m a bs) = true := smWf_smWriteList bs a h

theorem writeBytes_wf {s : State} (a : Nat) (bs : List Byte) (h : Memory.wf s = true) : Memory.wf (writeBytes s a bs) = true :=
  memPutList_wf a bs h

theorem dramStore_wf {s : State} (a : Nat) (bs : List Byte) (h : Memory.wf s = true) : Memory.wf (dramStore s a bs).2 = true := by
  unfold dramStore
  dsimp only
  split
  · exact h
  · exact writeBytes_wf a bs h

theorem dramPut_wf {s : State} (a : Nat) (bs : List Byte) (h : Memory.wf s = true) : Memory.wf (dramPut s a bs) = true :=
  dramStore_wf a bs h

theorem reset_wf : Memory.wf State.reset = true := rfl

/-- What a byte of DRAM is after bytes are put there. -/
theorem readByte_writeBytes (s : State) (a k : Nat) (bs : List Byte) :
    readByte (writeBytes s a bs) k = if h : a ≤ k ∧ k - a < bs.length then bs[k - a]'h.2 else readByte s k :=
  smRead_smWriteList _ bs s.mem a k

/-! Fields of a register word. -/

theorem testBit_fld (w : Word) (lo n i : Nat) : (fld w lo n).testBit i = (decide (i < n) && w.getLsbD (lo + i)) := by
  simp [fld, bitsOf, Nat.testBit_mod_two_pow, Nat.testBit_div_two_pow, BitVec.getLsbD, Nat.add_comm]

theorem getLsbD_setFld (w : Word) (lo n v i : Nat) (hi : i < 32) :
    (setFld w lo n v).getLsbD i = if lo ≤ i ∧ i < lo + n then v.testBit (i - lo) else w.getLsbD i := by
  simp only [setFld, fldMask, BitVec.getLsbD_or, BitVec.getLsbD_and, BitVec.getLsbD_not, BitVec.getLsbD_ofNat, hi, decide_true, Bool.true_and,
    Nat.testBit_mul_two_pow, Nat.testBit_two_pow_sub_one, Nat.testBit_mod_two_pow]
  by_cases h1 : lo ≤ i <;> by_cases h2 : i - lo < n
  · have h3 : i < lo + n := by omega
    simp [h1, h2, h3]
  · have h3 : ¬ i < lo + n := by omega
    simp [h1, h2, h3]
  · simp [h1]
  · simp [h1]

theorem fld_lt (w : Word) (lo n : Nat) : fld w lo n < 2 ^ n := Nat.mod_lt _ (Nat.two_pow_pos n)

/-- A field that is set reads back, modulo its width. -/
theorem fld_setFld (w : Word) {lo n : Nat} (v : Nat) (h : lo + n ≤ 32) : fld (setFld w lo n v) lo n = v % 2 ^ n := by
  apply Nat.eq_of_testBit_eq
  intro i
  rw [testBit_fld, Nat.testBit_mod_two_pow]
  by_cases hi : i < n
  · rw [getLsbD_setFld _ _ _ _ _ (by omega)]
    have h1 : lo + i < lo + n := by omega
    simp [hi]
  · simp [hi]

/-- A field that shares no bit with the one that is set keeps its value. -/
theorem fld_setFld_ne (w : Word) {lo n lo' n' : Nat} (v : Nat) (h : lo' + n' ≤ 32) (hd : lo' + n' ≤ lo ∨ lo + n ≤ lo') :
    fld (setFld w lo n v) lo' n' = fld w lo' n' := by
  apply Nat.eq_of_testBit_eq
  intro i
  rw [testBit_fld, testBit_fld]
  by_cases hi : i < n'
  · rw [getLsbD_setFld _ _ _ _ _ (by omega)]
    have h1 : ¬(lo ≤ lo' + i ∧ lo' + i < lo + n) := by omega
    simp [h1]
  · simp [hi]

/-! Registers. -/

theorem readReg_setReg (s : State) (k a : Nat) (v : Word) : readReg (setReg s k v) a = if a = k then v else readReg s a :=
  smRead_smWrite _ _ _ _ _

@[simp] theorem readReg_setReg_self (s : State) (k : Nat) (v : Word) : readReg (setReg s k v) k = v := by simp [readReg_setReg]

theorem readReg_setReg_ne (s : State) {k a : Nat} (v : Word) (h : a ≠ k) : readReg (setReg s k v) a = readReg s a := by simp [readReg_setReg, h]

theorem getF_setF (s : State) (k : Nat) {lo n : Nat} (v : Nat) (h : lo + n ≤ 32) : getF (setF s k lo n v) k lo n = v % 2 ^ n := by
  simp [getF, setF, fld_setFld _ v h]

theorem getF_setF_ne (s : State) (k : Nat) {lo n lo' n' : Nat} (v : Nat) (h : lo' + n' ≤ 32) (hd : lo' + n' ≤ lo ∨ lo + n ≤ lo') :
    getF (setF s k lo n v) k lo' n' = getF s k lo' n' := by
  simp [getF, setF, fld_setFld_ne _ v h hd]

theorem readReg_setF_ne (s : State) {k a : Nat} (lo n v : Nat) (h : a ≠ k) : readReg (setF s k lo n v) a = readReg s a :=
  readReg_setReg_ne s _ h

theorem readReg_bump_ne (s : State) {k a : Nat} (n : Nat) (h : a ≠ k) : readReg (bump s k n) a = readReg s a := readReg_setReg_ne s _ h

theorem readReg_bump (s : State) (k n : Nat) : readReg (bump s k n) k = satAdd (readReg s k) n := by simp [bump]

theorem readReg_reset (k : Nat) : readReg State.reset k = regReset k := rfl

end Sys2Proof.Machine
end

