-- ==== Sys2Proof/Laws/Kept.lean ====
section
/-! SUPPORT. What every operation keeps: the queue, the time since power-on, DRAM's canonical form, the semaphores. Here the relation and its rules; the lemma of each operation stands in the Kept files that follow. -/

namespace Sys2Proof.Machine

/-- The queue and the time since power-on are `q.2`; and where `q.1` holds, DRAM is listed in its canonical form and every semaphore is as it can come to be: as a property of the four parts. -/
def KeptParts (q : Prop × List Instr × Nat) (m : List Host.Cell) (p : List Instr) (n : Nat) (w : Vector Sem 32) : Prop :=
  (q.1 → smWf (fun _ => (0 : Byte)) m = true) ∧ (p, n) = q.2 ∧ (q.1 → ∀ n : Fin 32, SemOk w[n])

/-- The queue and the time since power-on are `q.2`; and where `q.1` holds, DRAM is listed in its canonical form and every semaphore is as it can come to be. -/
def Kept (q : Prop × List Instr × Nat) (s : State) : Prop := KeptParts q s.mem s.pending s.now s.slate.sems

/-- What a command answers, where it answers a next state, keeps them. -/
def KeptOut (q : Prop × List Instr × Nat) (o : Out) : Prop := ∀ t, o = .next t → Kept q t

theorem kept_inv (l : List Instr) (n : Nat) (s : State) : Kept (True, l, n) s ↔ Inv s ∧ s.pending = l ∧ s.now = n := by
  simp only [Kept, KeptParts, Inv, Memory.wf, Prod.mk.injEq]
  tauto

theorem kept_queue (l : List Instr) (n : Nat) (s : State) : Kept (False, l, n) s ↔ s.pending = l ∧ s.now = n := by
  simp [Kept, KeptParts]

variable {q : Prop × List Instr × Nat} {s : State}

theorem kept_parts (h : Kept q s) : KeptParts q s.mem s.pending s.now s.slate.sems := h

theorem kept_rec {pending now freeCtr regs mem poison failed evNet acks net mesh part retired quarantined corrected ctl power time dram calmap quartz gal ctxs stripes scan obs mica audio ctrl borax slate tport links therm linkCorrected} (h : KeptParts q mem pending now slate.sems) : Kept q ⟨pending, now, freeCtr, regs, mem, poison, failed, evNet, acks, net, mesh, part, retired, quarantined, corrected, ctl, power, time, dram, calmap, quartz, gal, ctxs, stripes, scan, obs, mica, audio, ctrl, borax, slate, tport, links, therm, linkCorrected⟩ := h

theorem kept_mem {m : List Host.Cell} {p : List Instr} {n : Nat} {w : Vector Sem 32} (a : Nat) (bs : List Byte) (h : KeptParts q m p n w) :
    KeptParts q (memPutList m a bs) p n w := ⟨fun b => memPutList_wf a bs (h.1 b), h.2⟩

theorem kept_nil {m : List Host.Cell} {p : List Instr} {n : Nat} {w : Vector Sem 32} (h : KeptParts q m p n w) : KeptParts q [] p n w := ⟨fun _ => rfl, h.2⟩

theorem kept_ite {c : Prop} [Decidable c] {a b : State} (ha : Kept q a) (hb : Kept q b) : Kept q (if c then a else b) := by
  split <;> assumption

theorem kept_next {t : State} (h : Kept q t) : KeptOut q (.next t) := by
  intro u e
  cases e
  exact h

theorem kept_refused {r : Refusal} : KeptOut q (.refused r) := by
  intro u e
  cases e

theorem kept_foldl {α : Type} {f : State → α → State} {l : List α} (h : Kept q s) (hf : ∀ t x, Kept q t → Kept q (f t x)) :
    Kept q (l.foldl f s) := by
  induction l generalizing s with
  | nil => exact h
  | cons x r ih => exact ih (hf s x h)

theorem kept_foldl_fst {α β : Type} {f : State × β → α → State × β} {l : List α} {x : State × β} (h : Kept q x.1)
    (hf : ∀ y a, Kept q y.1 → Kept q (f y a).1) : Kept q (l.foldl f x).1 := by
  induction l generalizing x with
  | nil => exact h
  | cons a r ih => exact ih (hf x a h)

theorem kept_fst {β : Type} {x : State × β} {t : State} {b : β} (e : x = (t, b)) (h : Kept q x.1) : Kept q t := by subst e; exact h

theorem kept_snd {β : Type} {x : β × State} {t : State} {b : β} (e : x = (b, t)) (h : Kept q x.2) : Kept q t := by subst e; exact h

/-- An operation that leaves memory, queue, time since power-on and semaphores alone. -/
theorem kept_same {t : State} (h : Kept q s) (hm : t.mem = s.mem) (hp : t.pending = s.pending) (hn : t.now = s.now) (hw : t.slate.sems = s.slate.sems) : Kept q t := by
  unfold Kept
  rw [hm, hp, hn, hw]
  exact h

end Sys2Proof.Machine
end

