-- ==== Sys2Proof/Laws/Kept1.lean ====
section
/-! SUPPORT. What each operation keeps, part 1 of 5, in the order in which one calls the other. -/

namespace Sys2Proof.Machine

variable {q : Prop × List Instr × Nat} {s : State}


/-- The third part of a triple. -/
theorem kept_trd {α β : Type} {x : α × β × State} {t : State} {a : α} {b : β} (e : x = (a, b, t)) (h : Kept q x.2.2) : Kept q t := by subst e; exact h

theorem kept_some {x : Option State} {t : State} (e : x = some t) (h : ∀ u, x = some u → Kept q u) : Kept q t := h t e
theorem kept_foldl_snd {α β : Type} {f : β × State → α → β × State} {l : List α} {x : β × State} (h : Kept q x.2)
    (hf : ∀ y a, Kept q y.2 → Kept q (f y a).2) : Kept q (l.foldl f x).2 := by
  induction l generalizing x with
  | nil => exact h
  | cons a r ih => exact ih (hf x a h)
theorem kept_setAudio (h : Kept q s) : ∀ a1, Kept q (setAudio s a1) := by
  intro a1
  unfold setAudio
  refine kept_rec ?_
  apply kept_parts
  exact h

theorem kept_setAPort (h : Kept q s) : ∀ a1 a2, Kept q (setAPort s a1 a2) := by
  intro a1 a2
  unfold setAPort
  apply kept_setAudio
  exact h

theorem kept_setPath (h : Kept q s) : ∀ a1 a2 a3, Kept q (setPath s a1 a2 a3) := by
  intro a1 a2 a3
  unfold setPath
  apply kept_setAudio
  exact h

theorem kept_setLock (h : Kept q s) : ∀ a1, Kept q (setLock s a1) := by
  intro a1
  unfold setLock
  apply kept_setAudio
  exact h

theorem kept_raise (h : Kept q s) : ∀ a1 a2 a3 a4 a5 a6, Kept q (raise s a1 a2 a3 a4 a5 a6) := by
  intro a1 a2 a3 a4 a5 a6
  unfold raise
  refine kept_rec ?_
  apply kept_parts
  exact h

theorem kept_grnEvent (h : Kept q s) : ∀ a1 a2 a3, Kept q (grnEvent s a1 a2 a3) := by
  intro a1 a2 a3
  unfold grnEvent
  apply kept_raise
  exact h

theorem kept_setMeter (h : Kept q s) : ∀ a1 a2, Kept q (setMeter s a1 a2) := by
  intro a1 a2
  unfold setMeter
  apply kept_setAudio
  exact h

theorem kept_setReg (h : Kept q s) : ∀ a1 a2, Kept q (setReg s a1 a2) := by
  intro a1 a2
  unfold setReg
  refine kept_rec ?_
  apply kept_parts
  exact h

theorem kept_writeKey (h : Kept q s) : ∀ a1 a2, Kept q (writeKey s a1 a2) := by
  intro a1 a2
  unfold writeKey
  apply kept_setReg
  exact h

theorem kept_setF (h : Kept q s) : ∀ a1 a2 a3 a4, Kept q (setF s a1 a2 a3 a4) := by
  intro a1 a2 a3 a4
  unfold setF
  apply kept_setReg
  exact h

theorem kept_audioPortWrite (h : Kept q s) : ∀ a1 a2, Kept q (audioPortWrite s a1 a2) := by
  intro a1 a2
  unfold audioPortWrite
  extract_lets v0 v1 v2 v3 v4 v5 v6
  have h7 : Kept q v2 := by
    unfold v2
    apply kept_writeKey
    exact h
  clear_value v2
  have h8 : Kept q v4 := by
    unfold v4
    apply kept_setAPort
    exact h7
  clear_value v4
  refine kept_ite ?_ ?_
  · apply kept_setF
    exact h8
  · refine kept_ite ?_ ?_
    · exact h7
    · refine kept_ite ?_ ?_
      · apply kept_setMeter
        apply kept_setAPort
        exact h7
      · apply kept_grnEvent
        exact h7

theorem kept_audioArm (h : Kept q s) : ∀ a1, Kept q (audioArm s a1) := by
  intro a1
  unfold audioArm
  extract_lets v0 v1 v2
  have h3 : Kept q v0 := by
    unfold v0
    apply kept_writeKey
    exact h
  clear_value v0
  refine kept_ite ?_ ?_
  · exact h3
  · refine kept_ite ?_ ?_
    · apply kept_grnEvent
      apply kept_setF
      exact h3
    · apply kept_setF
      apply kept_setAudio
      exact h3

theorem kept_audioStop (h : Kept q s) : ∀ a1, Kept q (audioStop s a1) := by
  intro a1
  unfold audioStop
  extract_lets v0 v1 v2
  have h3 : Kept q v0 := by
    unfold v0
    apply kept_writeKey
    exact h
  clear_value v0
  refine kept_ite ?_ ?_
  · exact h3
  · apply kept_setAudio
    exact h3

theorem kept_bump (h : Kept q s) : ∀ a1 a2, Kept q (bump s a1 a2) := by
  intro a1 a2
  unfold bump
  apply kept_setReg
  exact h

theorem kept_pathUnder (h : Kept q s) : ∀ a1 a2, Kept q (pathUnder s a1 a2) := by
  intro a1 a2
  unfold pathUnder
  extract_lets v0 v1
  have h2 : Kept q v1 := by
    unfold v1
    apply kept_setPath
    exact h
  clear_value v1
  split
  · apply kept_setPath
    exact h
  · apply kept_grnEvent
    apply kept_bump
    exact h2

theorem kept_pathSample (h : Kept q s) : ∀ a1 a2 a3, Kept q (pathSample s a1 a2 a3) := by
  intro a1 a2 a3
  unfold pathSample
  extract_lets v0 v1
  have h2 : Kept q v1 := by
    unfold v1
    apply kept_setPath
    exact h
  clear_value v1
  split
  · exact h2
  · apply kept_grnEvent
    exact h2

theorem kept_dropPast (h : Kept q s) : ∀ a1 a2, Kept q (dropPast s a1 a2) := by
  intro a1 a2
  unfold dropPast
  extract_lets v0
  apply kept_setAudio
  exact h

theorem kept_setLockState (h : Kept q s) : ∀ a1, Kept q (setLockState s a1) := by
  intro a1
  unfold setLockState
  apply kept_setF
  exact h

theorem kept_lockFill (h : Kept q s) : Kept q (lockFill s) := by
  unfold lockFill
  apply kept_setF
  exact h

theorem kept_lockPush (h : Kept q s) : ∀ a1, Kept q (lockPush s a1) := by
  intro a1
  unfold lockPush
  extract_lets v0 v1
  have h2 : Kept q v1 := by
    unfold v1
    apply kept_setLock
    exact h
  clear_value v1
  refine kept_ite ?_ ?_
  · exact h
  · apply kept_lockFill
    refine kept_ite ?_ ?_
    · apply kept_bump
      exact h2
    · exact h2

theorem kept_lockFrame (h : Kept q s) : Kept q (lockFrame s).2 := by
  unfold lockFrame
  extract_lets v0 v1 v2 v3 v4 v5
  have h6 : Kept q v3 := by
    unfold v3
    apply kept_bump
    exact h
  clear_value v3
  have h7 : Kept q v4 := by
    unfold v4
    apply kept_setLock
    exact h6
  clear_value v4
  have h8 : Kept q v5 := by
    unfold v5
    refine kept_ite ?_ ?_
    · apply kept_setLockState
      exact h7
    · exact h7
  clear_value v5
  split
  · exact h
  · split
    · extract_lets v9 v10
      have h11 : Kept q v9 := by
        unfold v9
        apply kept_lockFill
        apply kept_setLock
        exact h
      clear_value v9
      have h12 : Kept q v10 := by
        unfold v10
        refine kept_ite ?_ ?_
        · apply kept_setLockState
          exact h11
        · exact h11
      clear_value v10
      split
      · exact h11
      · dsimp only
        apply kept_grnEvent
        exact h12
    · split
      · dsimp only
        apply kept_setLock
        exact h
      · split
        · dsimp only
          apply kept_setLock
          exact h6
        · dsimp only
          apply kept_grnEvent
          apply kept_bump
          exact h8

theorem kept_takeFree (h : Kept q s) : ∀ a1, Kept q (takeFree s a1).2 := by
  intro a1
  unfold takeFree
  dsimp only
  refine kept_rec ?_
  apply kept_parts
  exact h

theorem kept_asrcSample (h : Kept q s) : Kept q (asrcSample s).2 := by
  unfold asrcSample
  split
  dsimp only
  refine kept_snd (by assumption) ?_
  apply kept_takeFree
  exact h

theorem kept_channelFrame (h : Kept q s) : ∀ a1 a2 a3 a4 a5, Kept q (channelFrame a1 a2 a3 a4 a5 s).2 := by
  intro a1 a2 a3 a4 a5
  unfold channelFrame
  split
  · split
    · extract_lets v0
      dsimp only
      apply kept_setPath
      exact h
    · dsimp only
      apply kept_setPath
      exact h
  · split
    · dsimp only
      apply kept_setPath
      exact h
    · split
      dsimp only
      apply kept_pathSample
      refine kept_snd (by assumption) ?_
      apply kept_asrcSample
      exact h
    · dsimp only
      apply kept_pathUnder
      exact h

theorem kept_underrunRamp (h : Kept q s) : ∀ a1 a2, Kept q (underrunRamp s a1 a2) := by
  intro a1 a2
  unfold underrunRamp
  extract_lets v0 v1 v2
  refine kept_ite ?_ ?_
  · apply kept_setPath
    exact h
  · exact h

theorem kept_channelFrames (h : Kept q s) : ∀ a b c d l, Kept q (channelFrames a b c d l s).2 := by
  intro a b c d l
  induction l generalizing s with
  | nil => exact h
  | cons x r ih =>
    unfold channelFrames
    exact ih (kept_channelFrame (kept_underrunRamp h _ _) _ _ _ _ _)

theorem kept_lockFeed (h : Kept q s) : ∀ a1 a2, Kept q (lockFeed s a1 a2) := by
  intro a1 a2
  unfold lockFeed
  extract_lets v0 v1 v2
  refine kept_ite ?_ ?_
  · apply kept_foldl
    · exact h
    · intro x3 x4 h5
      apply kept_setLock
      apply kept_lockPush
      exact h5
  · exact h

theorem kept_portStarts (h : Kept q s) : ∀ a1 a2 a3, Kept q (portStarts s a1 a2 a3) := by
  intro a1 a2 a3
  unfold portStarts
  extract_lets v0 v1
  have h2 : Kept q v1 := by
    unfold v1
    apply kept_setAPort
    apply kept_setF
    exact h
  clear_value v1
  refine kept_ite ?_ ?_
  · apply kept_grnEvent
    apply kept_setF
    exact h2
  · exact h

theorem kept_audioOut (h : Kept q s) : ∀ a1 a2 a3, Kept q (audioOut s a1 a2 a3) := by
  intro a1 a2 a3
  unfold audioOut
  extract_lets v0 v1 v2 v3
  have h4 : Kept q v0 := by
    unfold v0
    apply kept_portStarts
    exact h
  clear_value v0
  have h5 : Kept q v3 := by
    unfold v3
    apply kept_lockFeed
    exact h4
  clear_value v3
  split
  · exact h
  · extract_lets v6 v7 v8
    refine kept_ite ?_ ?_
    · apply kept_setF
      apply kept_setAPort
      exact h4
    · refine kept_ite ?_ ?_
      · apply kept_setAPort
        exact h4
      · split
        split
        extract_lets v9
        have h10 : Kept q v9 := by
          unfold v9
          apply kept_foldl
          · refine kept_snd (by assumption) ?_
            apply kept_channelFrames
            refine kept_snd (by assumption) ?_
            split
            · apply kept_lockFrame
              exact h5
            · exact h5
          · intro x11 x12 h13
            apply kept_dropPast
            exact h13
        clear_value v9
        apply kept_setAPort
        exact h10

theorem kept_audioFrame (h : Kept q s) : ∀ a1, Kept q (audioFrame s a1) := by
  intro a1
  unfold audioFrame
  extract_lets v0
  split
  · exact h
  · extract_lets v1 v2
    refine kept_ite ?_ ?_
    · exact h
    · refine kept_ite ?_ ?_
      · apply kept_audioOut
        exact h
      · refine kept_ite ?_ ?_
        · apply kept_setAPort
          exact h
        · exact h

theorem kept_audioStart (h : Kept q s) : ∀ a1, Kept q (audioStart s a1) := by
  intro a1
  unfold audioStart
  refine kept_ite ?_ ?_
  · apply kept_audioFrame
    exact h
  · exact h

theorem kept_clockSeen (h : Kept q s) : ∀ a1, Kept q (clockSeen s a1) := by
  intro a1
  unfold clockSeen
  refine kept_ite ?_ ?_
  · apply kept_grnEvent
    apply kept_setF
    exact h
  · exact h

theorem kept_clockStamp (h : Kept q s) : ∀ a1 a2, Kept q (clockStamp s a1 a2) := by
  intro a1 a2
  unfold clockStamp
  extract_lets v0
  apply kept_setMeter
  apply kept_clockSeen
  exact h

theorem kept_clockStopped (h : Kept q s) : ∀ a1, Kept q (clockStopped s a1) := by
  intro a1
  unfold clockStopped
  extract_lets v0
  have h1 : Kept q v0 := by
    unfold v0
    apply kept_setF
    apply kept_setF
    exact h
  clear_value v0
  refine kept_ite ?_ ?_
  · exact h
  · apply kept_grnEvent
    apply kept_setMeter
    exact h1

theorem kept_frameError (h : Kept q s) : ∀ a1, Kept q (frameError s a1) := by
  intro a1
  unfold frameError
  extract_lets v0 v1 v2 v3 v4
  have h5 : Kept q v0 := by
    unfold v0
    apply kept_bump
    exact h
  clear_value v0
  have h6 : Kept q v4 := by
    unfold v4
    apply kept_setAPort
    exact h5
  clear_value v4
  refine kept_ite ?_ ?_
  · apply kept_grnEvent
    exact h6
  · exact h6

theorem kept_setInput (h : Kept q s) : ∀ a1 a2, Kept q (setInput s a1 a2) := by
  intro a1 a2
  unfold setInput
  apply kept_setAudio
  exact h

theorem kept_fsyncEdge (h : Kept q s) : ∀ a1 a2, Kept q (fsyncEdge s a1 a2) := by
  intro a1 a2
  unfold fsyncEdge
  extract_lets v0
  have h1 : Kept q v0 := by
    unfold v0
    apply kept_clockStamp
    exact h
  clear_value v0
  split
  · exact h
  · extract_lets v2 v3 v4
    have h5 : Kept q v4 := by
      unfold v4
      apply kept_setInput
      exact h1
    clear_value v4
    refine kept_ite ?_ ?_
    · exact h
    · split
      · apply kept_audioOut
        refine kept_ite ?_ ?_
        · exact h1
        · apply kept_frameError
          exact h1
      · refine kept_ite ?_ ?_
        · refine kept_ite ?_ ?_
          · apply kept_lockPush
            exact h5
          · exact h5
        · apply kept_frameError
          apply kept_setInput
          exact h1

theorem kept_lockJudge (h : Kept q s) : Kept q (lockJudge s) := by
  unfold lockJudge
  refine kept_ite ?_ ?_
  · exact h
  · refine kept_ite ?_ ?_
    · refine kept_ite ?_ ?_
      · apply kept_setLockState
        apply kept_setLock
        exact h
      · exact h
    · refine kept_ite ?_ ?_
      · exact h
      · apply kept_grnEvent
        apply kept_setLockState
        exact h

theorem kept_clockReport (h : Kept q s) : ∀ a1 a2 a3, Kept q (clockReport s a1 a2 a3) := by
  intro a1 a2 a3
  unfold clockReport
  extract_lets v0 v1 v2 v3 v4 v5 v6
  have h7 : Kept q v5 := by
    unfold v5
    apply kept_setReg
    exact h
  clear_value v5
  have h8 : Kept q v6 := by
    unfold v6
    refine kept_ite ?_ ?_
    · apply kept_grnEvent
      exact h7
    · exact h7
  clear_value v6
  refine kept_ite ?_ ?_
  · refine kept_ite ?_ ?_
    · apply kept_setLockState
      exact h8
    · apply kept_lockJudge
      exact h8
  · exact h8

theorem kept_clockMeasurement (h : Kept q s) : ∀ a1, Kept q (clockMeasurement s a1) := by
  intro a1
  unfold clockMeasurement
  split
  · apply kept_clockReport
    apply kept_setMeter
    exact h
  · exact h

theorem kept_lockGroupWrite (h : Kept q s) : ∀ a1, Kept q (lockGroupWrite s a1) := by
  intro a1
  unfold lockGroupWrite
  extract_lets v0 v1
  have h2 : Kept q v0 := by
    unfold v0
    apply kept_writeKey
    exact h
  clear_value v0
  have h3 : Kept q v1 := by
    unfold v1
    apply kept_setLock
    exact h2
  clear_value v1
  refine kept_ite ?_ ?_
  · apply kept_lockJudge
    apply kept_lockFill
    apply kept_setLockState
    exact h3
  · apply kept_lockFill
    apply kept_setLockState
    exact h3

theorem kept_asrcAcquired (h : Kept q s) : ∀ a1, Kept q (asrcAcquired s a1) := by
  intro a1
  unfold asrcAcquired
  refine kept_ite ?_ ?_
  · exact h
  · apply kept_setF
    exact h

theorem kept_embedUnit (h : Kept q s) : ∀ a1 a2 a3 a4, Kept q (embedUnit s a1 a2 a3 a4) := by
  intro a1 a2 a3 a4
  unfold embedUnit
  extract_lets v0 v1 v2 v3 v4
  have h5 : Kept q v0 := by
    unfold v0
    apply kept_clockStamp
    exact h
  clear_value v0
  have h6 : Kept q v3 := by
    unfold v3
    apply kept_setAudio
    exact h5
  clear_value v3
  refine kept_ite ?_ ?_
  · exact h
  · refine kept_ite ?_ ?_
    · apply kept_grnEvent
      apply kept_bump
      exact h
    · refine kept_ite ?_ ?_
      · exact h6
      · apply kept_grnEvent
        apply kept_bump
        exact h6

theorem kept_embedEnd (h : Kept q s) : ∀ a1, Kept q (embedEnd s a1) := by
  intro a1
  unfold embedEnd
  apply kept_setAudio
  exact h

theorem kept_audioDrained (h : Kept q s) : Kept q (audioDrained s) := by
  unfold audioDrained
  apply kept_setAudio
  exact h

theorem kept_audioRejoined (h : Kept q s) : Kept q (audioRejoined s) := by
  unfold audioRejoined
  extract_lets v0 v1
  have h2 : Kept q v0 := by
    unfold v0
    apply kept_foldl
    · exact h
    · intro x3 x4 h5
      apply kept_setF
      exact h5
  clear_value v0
  have h6 : Kept q v1 := by
    unfold v1
    apply kept_setAudio
    exact h2
  clear_value v1
  apply kept_foldl
  · exact h6
  · intro x7 x8 h9
    extract_lets v10
    split
    · refine kept_ite ?_ ?_
      · apply kept_grnEvent
        exact h9
      · exact h9
    · exact h9

theorem kept_setSlate (h : Kept q s) : ∀ f, (∀ x, (f x).sems = x.sems) → Kept q (setSlate s f) := by
  intro f hf
  exact kept_same h rfl rfl rfl (hf s.slate)

theorem kept_busClockEnds (h : Kept q s) : ∀ a1, Kept q (busClockEnds s a1) := by
  intro a1
  unfold busClockEnds
  apply kept_setSlate
  · exact h
  · intro x0
    rfl

theorem kept_reqMeets (h : Kept q s) : ∀ a1 a2, Kept q (reqMeets s a1 a2) := by
  intro a1 a2
  unfold reqMeets
  extract_lets v0
  have h1 : Kept q v0 := by
    unfold v0
    refine kept_ite ?_ ?_
    · apply kept_busClockEnds
      exact h
    · exact h
  clear_value v0
  apply kept_setSlate
  · exact h1
  · intro x2
    rfl

theorem kept_reqServes (h : Kept q s) : ∀ u a f, (∀ t, Kept q t → Kept q (f t)) → Kept q (reqServes s u a f) := by
  intro u a f hf
  unfold reqServes
  refine kept_ite ?_ ?_
  · apply hf
    apply kept_reqMeets
    exact h
  · exact h

theorem kept_execAudioPortEnable (h : Kept q s) : ∀ a1 a2 a3, KeptOut q (execAudioPortEnable a1 a2 a3 s) := by
  intro a1 a2 a3
  unfold execAudioPortEnable
  apply kept_next
  apply kept_reqServes
  · exact h
  · intro x0 h1
    apply kept_audioPortWrite
    exact h1

theorem kept_execAudioArm (h : Kept q s) : ∀ a1 a2, KeptOut q (execAudioArm a1 a2 s) := by
  intro a1 a2
  unfold execAudioArm
  apply kept_next
  apply kept_reqServes
  · exact h
  · intro x0 h1
    apply kept_audioArm
    exact h1

theorem kept_execAudioStop (h : Kept q s) : ∀ a1 a2, KeptOut q (execAudioStop a1 a2 s) := by
  intro a1 a2
  unfold execAudioStop
  apply kept_next
  apply kept_reqServes
  · exact h
  · intro x0 h1
    apply kept_audioStop
    exact h1

theorem kept_whenServes (h : Kept q s) : ∀ a f, (∀ t, Kept q t → Kept q (f t)) → Kept q (whenServes s a f) := by
  intro a f hf
  unfold whenServes
  refine kept_ite ?_ ?_
  · apply hf
    exact h
  · exact h

theorem kept_execUnderrunRamp (h : Kept q s) : ∀ a1 a2, KeptOut q (execUnderrunRamp a1 a2 s) := by
  intro a1 a2
  unfold execUnderrunRamp
  apply kept_next
  apply kept_whenServes
  · exact h
  · intro x0 h1
    apply kept_underrunRamp
    exact h1

theorem kept_execClockStopped (h : Kept q s) : ∀ a1, KeptOut q (execClockStopped a1 s) := by
  intro a1
  unfold execClockStopped
  apply kept_next
  apply kept_whenServes
  · exact h
  · intro x0 h1
    apply kept_clockStopped
    exact h1

theorem kept_execClockMeasurement (h : Kept q s) : ∀ a1 a2 a3, KeptOut q (execClockMeasurement a1 a2 a3 s) := by
  intro a1 a2 a3
  unfold execClockMeasurement
  apply kept_next
  apply kept_whenServes
  · exact h
  · intro x0 h1
    refine kept_ite ?_ ?_
    · apply kept_clockMeasurement
      exact h1
    · exact h1

theorem kept_execLockGroupEnable (h : Kept q s) : ∀ a1 a2, KeptOut q (execLockGroupEnable a1 a2 s) := by
  intro a1 a2
  unfold execLockGroupEnable
  apply kept_next
  apply kept_reqServes
  · exact h
  · intro x0 h1
    apply kept_lockGroupWrite
    exact h1

theorem kept_execAsrcAcquired (h : Kept q s) : ∀ a1, KeptOut q (execAsrcAcquired a1 s) := by
  intro a1
  unfold execAsrcAcquired
  apply kept_next
  apply kept_whenServes
  · exact h
  · intro x0 h1
    apply kept_asrcAcquired
    exact h1

theorem kept_setMica (h : Kept q s) : ∀ a1, Kept q (setMica s a1) := by
  intro a1
  unfold setMica
  refine kept_rec ?_
  apply kept_parts
  exact h

theorem kept_mcaEvent (h : Kept q s) : ∀ a1 a2 a3, Kept q (mcaEvent s a1 a2 a3) := by
  intro a1 a2 a3
  unfold mcaEvent
  apply kept_raise
  exact h

theorem kept_bltStatus (h : Kept q s) : ∀ a1 a2 a3 a4, Kept q (bltStatus s a1 a2 a3 a4) := by
  intro a1 a2 a3 a4
  unfold bltStatus
  apply kept_setReg
  exact h

theorem kept_blitStart (h : Kept q s) : ∀ a1, Kept q (blitStart s a1) := by
  intro a1
  unfold blitStart
  extract_lets v0 v1 v2 v3
  have h4 : Kept q v0 := by
    unfold v0
    apply kept_writeKey
    exact h
  clear_value v0
  have h5 : Kept q v3 := by
    unfold v3
    refine kept_ite ?_ ?_
    · exact h4
    · apply kept_bltStatus
      exact h4
  clear_value v3
  refine kept_ite ?_ ?_
  · apply kept_bltStatus
    apply kept_setMica
    exact h4
  · apply kept_mcaEvent
    exact h5

theorem kept_blitAbort (h : Kept q s) : Kept q (blitAbort s) := by
  unfold blitAbort
  apply kept_setMica
  exact h

theorem kept_clearPoison (h : Kept q s) : ∀ a1 a2, Kept q (clearPoison s a1 a2) := by
  intro a1 a2
  unfold clearPoison
  refine kept_rec ?_
  apply kept_parts
  exact h

theorem kept_writeBytes (h : Kept q s) : ∀ a1 a2, Kept q (writeBytes s a1 a2) := by
  intro a1 a2
  unfold writeBytes
  apply kept_clearPoison
  refine kept_rec ?_
  apply kept_mem
  apply kept_parts
  exact h

theorem kept_dramStore (h : Kept q s) : ∀ a1 a2, Kept q (dramStore s a1 a2).2 := by
  intro a1 a2
  unfold dramStore
  extract_lets v0
  split
  · exact h
  · dsimp only
    apply kept_writeBytes
    exact h

theorem kept_putRuns (h : Kept q s) : ∀ l, Kept q (putRuns s l).1 := by
  intro l
  induction l generalizing s with
  | nil => exact h
  | cons x r ih =>
    obtain ⟨a, bs⟩ := x
    have h1 : Kept q (dramStore s a bs).2 := kept_dramStore h _ _
    unfold putRuns
    dsimp only
    split
    · exact h1
    · exact ih h1

theorem kept_bltLine (h : Kept q s) : ∀ a1 a2 a3 a4, Kept q (bltLine s a1 a2 a3 a4).1 := by
  intro a1 a2 a3 a4
  unfold bltLine
  extract_lets v0 v1 v2 v3
  apply kept_putRuns
  exact h

theorem kept_poisonRead (h : Kept q s) : ∀ a1 a2 a3 a4, Kept q (poisonRead s a1 a2 a3 a4) := by
  intro a1 a2 a3 a4
  unfold poisonRead
  apply kept_raise
  apply kept_bump
  exact h

theorem kept_poisonSeen (h : Kept q s) : ∀ a1 a2 a3, Kept q (poisonSeen s a1 a2 a3) := by
  intro a1 a2 a3
  unfold poisonSeen
  extract_lets v0
  refine kept_ite ?_ ?_
  · exact h
  · apply kept_foldl
    · exact h
    · intro x1 x2 h3
      split
      · apply kept_poisonRead
        exact h3
      · exact h3

theorem kept_bltLines (h : Kept q s) : ∀ b c l n, Kept q (bltLines b c l n s).1 := by
  intro b c l
  induction l generalizing s with
  | nil => intro n; exact h
  | cons j r ih =>
    intro n
    have h1 : Kept q (bltLine s b j (min (bltGood s b j c).1 n) c).1 := kept_bltLine h _ _ _ _
    unfold bltLines
    dsimp only
    split
    · exact h
    split
    · exact h1
    split
    · split
      · exact kept_poisonSeen h1 _ _ _
      · exact ih h1 _
    · exact ih h1 _

theorem kept_bltRun (h : Kept q s) : ∀ a1 a2, Kept q (bltRun s a1 a2).1 := by
  intro a1 a2
  unfold bltRun
  extract_lets v0 v1 v2
  apply kept_bltLines
  exact h

theorem kept_bltEnd (h : Kept q s) : ∀ a1 a2 a3, Kept q (bltEnd s a1 a2 a3) := by
  intro a1 a2 a3
  unfold bltEnd
  extract_lets v0 v1
  have h2 : Kept q v0 := by
    unfold v0
    apply kept_setMica
    exact h
  clear_value v0
  have h3 : Kept q v1 := by
    unfold v1
    apply kept_bump
    apply kept_bltStatus
    exact h2
  clear_value v1
  apply kept_mcaEvent
  exact h3

theorem kept_blitDone (h : Kept q s) : ∀ a1, Kept q (blitDone s a1) := by
  intro a1
  unfold blitDone
  split
  · exact h
  · split
    refine kept_ite ?_ ?_
    · apply kept_bltEnd
      refine kept_fst (by assumption) ?_
      apply kept_bltRun
      exact h
    · apply kept_bltEnd
      refine kept_fst (by assumption) ?_
      apply kept_bltRun
      exact h

theorem kept_bltCtrlWrite (h : Kept q s) : ∀ a1, Kept q (bltCtrlWrite s a1) := by
  intro a1
  unfold bltCtrlWrite
  extract_lets v0
  have h1 : Kept q v0 := by
    unfold v0
    refine kept_ite ?_ ?_
    · apply kept_blitStart
      exact h
    · apply kept_writeKey
      exact h
  clear_value v0
  refine kept_ite ?_ ?_
  · apply kept_blitAbort
    exact h1
  · exact h1

theorem kept_execBlitStart (h : Kept q s) : ∀ a1 a2, KeptOut q (execBlitStart a1 a2 s) := by
  intro a1 a2
  unfold execBlitStart
  apply kept_next
  apply kept_reqServes
  · exact h
  · intro x0 h1
    apply kept_bltCtrlWrite
    exact h1

theorem kept_execBlitAbort (h : Kept q s) : ∀ a1, KeptOut q (execBlitAbort a1 s) := by
  intro a1
  unfold execBlitAbort
  apply kept_next
  apply kept_reqServes
  · exact h
  · intro x0 h1
    apply kept_blitAbort
    exact h1

theorem kept_execBlitDone (h : Kept q s) : ∀ a1, KeptOut q (execBlitDone a1 s) := by
  intro a1
  unfold execBlitDone
  apply kept_next
  apply kept_whenServes
  · exact h
  · intro x0 h1
    apply kept_blitDone
    exact h1

theorem kept_whenSlate (h : Kept q s) : ∀ f, (∀ t, Kept q t → Kept q (f t)) → Kept q (whenSlate s f) := by
  intro f hf
  unfold whenSlate
  refine kept_ite ?_ ?_
  · apply hf
    exact h
  · exact h

theorem kept_pwrShow (h : Kept q s) : Kept q (pwrShow s) := by
  unfold pwrShow
  extract_lets v0 v1 v2
  have h3 : Kept q v0 := by
    unfold v0
    apply kept_setReg
    exact h
  clear_value v0
  apply kept_setReg
  exact h3

theorem kept_setPwr (h : Kept q s) : ∀ a1, Kept q (setPwr s a1) := by
  intro a1
  unfold setPwr
  apply kept_pwrShow
  refine kept_rec ?_
  apply kept_parts
  exact h

theorem kept_setObs (h : Kept q s) : ∀ a1, Kept q (setObs s a1) := by
  intro a1
  unfold setObs
  refine kept_rec ?_
  apply kept_parts
  exact h

theorem kept_setTherm (h : Kept q s) : ∀ a1, Kept q (setTherm s a1) := by
  intro a1
  unfold setTherm
  refine kept_rec ?_
  apply kept_parts
  exact h

theorem kept_powerEvent (h : Kept q s) : ∀ a1 a2 a3, Kept q (powerEvent s a1 a2 a3) := by
  intro a1 a2 a3
  unfold powerEvent
  apply kept_raise
  exact h

theorem kept_bootStart (h : Kept q s) : ∀ a1, Kept q (bootStart s a1) := by
  intro a1
  unfold bootStart
  extract_lets v0 v1 v2 v3 v4 v5
  have h6 : Kept q v0 := by
    unfold v0
    apply kept_setPwr
    exact h
  clear_value v0
  have h7 : Kept q v1 := by
    unfold v1
    apply kept_setTherm
    exact h6
  clear_value v1
  have h8 : Kept q v2 := by
    unfold v2
    apply kept_setObs
    exact h7
  clear_value v2
  have h9 : Kept q v3 := by
    unfold v3
    apply kept_setSlate
    · exact h8
    · intro x10
      rfl
  clear_value v3
  have h11 : Kept q v4 := by
    unfold v4
    apply kept_setReg
    exact h9
  clear_value v4
  have h12 : Kept q v5 := by
    unfold v5
    apply kept_setF
    exact h11
  clear_value v5
  apply kept_powerEvent
  exact h12

theorem kept_wake (h : Kept q s) : ∀ a1, Kept q (wake s a1) := by
  intro a1
  unfold wake
  refine kept_ite ?_ ?_
  · apply kept_setPwr
    exact h
  · apply kept_bootStart
    exact h

theorem kept_resetCause (h : Kept q s) : ∀ a1, Kept q (resetCause s a1) := by
  intro a1
  unfold resetCause
  apply kept_setF
  exact h

theorem kept_chipReset (h : Kept q s) : ∀ c, Kept q (chipReset s c) := by
  intro c
  unfold chipReset
  extract_lets gone old log keep t
  have ht : Kept q t := kept_rec ⟨fun _ => rfl, h.2.1, fun _ n => by simp [SemOk]⟩
  clear_value t
  apply kept_pwrShow
  apply kept_resetCause
  apply kept_foldl ht
  intro y a hy
  exact kept_setReg hy _ _

theorem kept_rebootNow (h : Kept q s) : Kept q (rebootNow s) := by
  unfold rebootNow
  apply kept_wake
  apply kept_chipReset
  exact h

theorem kept_calAbort (h : Kept q s) : Kept q (calAbort s) := by
  unfold calAbort
  extract_lets v0 v1 v2
  have h3 : Kept q v1 := by
    unfold v1
    refine kept_rec ?_
    apply kept_parts
    exact h
  clear_value v1
  have h4 : Kept q v2 := by
    unfold v2
    apply kept_setF
    apply kept_setF
    exact h3
  clear_value v2
  split
  · exact h
  · apply kept_powerEvent
    exact h4

theorem kept_leaseEvent (h : Kept q s) : ∀ a1 a2 a3, Kept q (leaseEvent s a1 a2 a3) := by
  intro a1 a2 a3
  unfold leaseEvent
  apply kept_raise
  exact h

theorem kept_leaseShow (h : Kept q s) : Kept q (leaseShow s) := by
  unfold leaseShow
  extract_lets v0
  refine kept_ite ?_ ?_
  · exact h
  · apply kept_leaseEvent
    apply kept_setF
    exact h

theorem kept_setCtrl (h : Kept q s) : ∀ a1, Kept q (setCtrl s a1) := by
  intro a1
  unfold setCtrl
  refine kept_rec ?_
  apply kept_parts
  exact h

theorem kept_setLease (h : Kept q s) : ∀ a1, Kept q (setLease s a1) := by
  intro a1
  unfold setLease
  apply kept_setCtrl
  exact h

theorem kept_setHolder (h : Kept q s) : ∀ a1, Kept q (setHolder s a1) := by
  intro a1
  unfold setHolder
  apply kept_setF
  exact h

theorem kept_leaseClear (h : Kept q s) : Kept q (leaseClear s) := by
  unfold leaseClear
  apply kept_leaseShow
  apply kept_setLease
  apply kept_setHolder
  exact h

theorem kept_sleepSettles (h : Kept q s) : Kept q (sleepSettles s) := by
  unfold sleepSettles
  extract_lets v0
  have h1 : Kept q v0 := by
    unfold v0
    apply kept_leaseClear
    apply kept_setPwr
    exact h
  clear_value v0
  refine kept_ite ?_ ?_
  · apply kept_resetCause
    apply kept_setSlate
    · exact h1
    · intro x2
      rfl
  · exact h

theorem kept_setHeld (h : Kept q s) : ∀ a1 a2, Kept q (setHeld s a1 a2) := by
  intro a1 a2
  unfold setHeld
  apply kept_setPwr
  exact h

theorem kept_setCtl (h : Kept q s) : ∀ a1 a2, Kept q (setCtl s a1 a2) := by
  intro a1 a2
  unfold setCtl
  split
  · refine kept_rec ?_
    apply kept_parts
    exact h
  · exact h

theorem kept_setPhase (h : Kept q s) : ∀ a1 a2, Kept q (setPhase s a1 a2) := by
  intro a1 a2
  unfold setPhase
  apply kept_pwrShow
  apply kept_setCtl
  exact h

theorem kept_powerUp (h : Kept q s) : ∀ a1, Kept q (powerUp s a1) := by
  intro a1
  unfold powerUp
  extract_lets v0 v1
  have h2 : Kept q v0 := by
    unfold v0
    apply kept_setCtl
    exact h
  clear_value v0
  have h3 : Kept q v1 := by
    unfold v1
    refine kept_ite ?_ ?_
    · apply kept_setPwr
      exact h2
    · exact h2
  clear_value v1
  apply kept_setPhase
  exact h3

theorem kept_setFlint (h : Kept q s) : ∀ a1 a2, Kept q (setFlint s a1 a2) := by
  intro a1 a2
  unfold setFlint
  apply kept_setCtrl
  exact h

theorem kept_leaseEnds (h : Kept q s) : ∀ a1 a2, Kept q (leaseEnds s a1 a2) := by
  intro a1 a2
  unfold leaseEnds
  extract_lets v0 v1 v2
  have h3 : Kept q v0 := by
    unfold v0
    apply kept_setHolder
    exact h
  clear_value v0
  have h4 : Kept q v2 := by
    unfold v2
    apply kept_setLease
    exact h3
  clear_value v2
  apply kept_leaseShow
  apply kept_setFlint
  exact h4

theorem kept_mirrorSend (h : Kept q s) : ∀ a1 a2, Kept q (mirrorSend s a1 a2) := by
  intro a1 a2
  unfold mirrorSend
  refine kept_ite ?_ ?_
  · apply kept_setLease
    exact h
  · exact h

theorem kept_releaseSend (h : Kept q s) : ∀ a1, Kept q (releaseSend s a1) := by
  intro a1
  unfold releaseSend
  apply kept_mirrorSend
  exact h

theorem kept_flintEvent (h : Kept q s) : ∀ a1 a2 a3 a4, Kept q (flintEvent s a1 a2 a3 a4) := by
  intro a1 a2 a3 a4
  unfold flintEvent
  apply kept_raise
  exact h

theorem kept_shadowLose (h : Kept q s) : ∀ a1 a2, Kept q (shadowLose s a1 a2) := by
  intro a1 a2
  unfold shadowLose
  extract_lets v0
  have h1 : Kept q v0 := by
    unfold v0
    apply kept_setLease
    apply kept_setFlint
    exact h
  clear_value v0
  refine kept_ite ?_ ?_
  · apply kept_setFlint
    exact h
  · apply kept_leaseShow
    apply kept_flintEvent
    apply kept_bump
    exact h1

theorem kept_setGal (h : Kept q s) : ∀ a1 a2, Kept q (setGal s a1 a2) := by
  intro a1 a2
  unfold setGal
  refine kept_rec ?_
  apply kept_parts
  exact h

theorem kept_setStripes (h : Kept q s) : ∀ a1, Kept q (setStripes s a1) := by
  intro a1
  unfold setStripes
  refine kept_rec ?_
  apply kept_parts
  exact h

theorem kept_setStripe (h : Kept q s) : ∀ a1 a2, Kept q (setStripe s a1 a2) := by
  intro a1 a2
  unfold setStripe
  apply kept_setStripes
  exact h

theorem kept_handOverRegion (h : Kept q s) : ∀ a1, Kept q (handOverRegion s a1) := by
  intro a1
  unfold handOverRegion
  extract_lets v0 v1 v2 v3 v4 v5 v6 v7
  have h8 : Kept q v4 := by
    unfold v4
    refine kept_rec ?_
    apply kept_parts
    exact h
  clear_value v4
  have h9 : Kept q v5 := by
    unfold v5
    apply kept_setGal
    exact h8
  clear_value v5
  have h10 : Kept q v7 := by
    unfold v7
    apply kept_foldl
    · exact h9
    · intro x11 x12 h13
      split
      extract_lets v14 v15
      have h16 : Kept q v15 := by
        unfold v15
        apply kept_setStripe
        exact h13
      clear_value v15
      apply kept_foldl
      · exact h16
      · intro x17 x18 h19
        apply kept_setGal
        exact h19
  clear_value v7
  split
  · exact h10
  · apply kept_raise
    apply kept_bump
    exact h10

theorem kept_setQuartz (h : Kept q s) : ∀ a1, Kept q (setQuartz s a1) := by
  intro a1
  unfold setQuartz
  refine kept_rec ?_
  apply kept_parts
  exact h

theorem kept_setQPort (h : Kept q s) : ∀ a1 a2, Kept q (setQPort s a1 a2) := by
  intro a1 a2
  unfold setQPort
  apply kept_setQuartz
  exact h

theorem kept_setLayer (h : Kept q s) : ∀ a1 a2 a3, Kept q (setLayer s a1 a2 a3) := by
  intro a1 a2 a3
  unfold setLayer
  apply kept_setQPort
  exact h

theorem kept_setWriting (h : Kept q s) : ∀ a1 a2 a3, Kept q (setWriting s a1 a2 a3) := by
  intro a1 a2 a3
  unfold setWriting
  apply kept_setLayer
  exact h

theorem kept_addAck (h : Kept q s) : ∀ a1 a2, Kept q (addAck s a1 a2) := by
  intro a1 a2
  unfold addAck
  refine kept_rec ?_
  apply kept_parts
  exact h

theorem kept_storeWrite (h : Kept q s) : ∀ a1 a2 a3 a4 a5, Kept q (storeWrite s a1 a2 a3 a4 a5) := by
  intro a1 a2 a3 a4 a5
  unfold storeWrite
  split
  extract_lets v0
  have h1 : Kept q v0 := by
    unfold v0
    apply kept_setWriting
    refine kept_snd (by assumption) ?_
    apply kept_dramStore
    exact h
  clear_value v0
  apply kept_addAck
  exact h1

theorem kept_writeBand (h : Kept q s) : ∀ a1 a2 a3 a4 a5, Kept q (writeBand s a1 a2 a3 a4 a5) := by
  intro a1 a2 a3 a4 a5
  unfold writeBand
  split
  · exact h
  · extract_lets v0 v1 v2 v3 v4 v5 v6 v7
    have h8 : Kept q v3 := by
      unfold v3
      apply kept_storeWrite
      exact h
    clear_value v3
    have h9 : Kept q v4 := by
      unfold v4
      apply kept_setWriting
      exact h8
    clear_value v4
    have h10 : Kept q v7 := by
      unfold v7
      apply kept_storeWrite
      exact h9
    clear_value v7
    refine kept_ite ?_ ?_
    · exact h9
    · apply kept_setWriting
      exact h10

theorem kept_ctrlTakes (h : Kept q s) : ∀ a1, Kept q (ctrlTakes s a1) := by
  intro a1
  unfold ctrlTakes
  extract_lets v0
  apply kept_setQPort
  exact h

theorem kept_endStream (h : Kept q s) : ∀ a1, Kept q (endStream s a1) := by
  intro a1
  unfold endStream
  extract_lets v0 v1 v2 v3
  have h4 : Kept q v2 := by
    unfold v2
    apply kept_setQPort
    exact h
  clear_value v2
  have h5 : Kept q v3 := by
    unfold v3
    apply kept_setQuartz
    exact h4
  clear_value v3
  apply kept_embedEnd
  apply kept_setF
  exact h5

theorem kept_setPortState (h : Kept q s) : ∀ a1 a2, Kept q (setPortState s a1 a2) := by
  intro a1 a2
  unfold setPortState
  apply kept_setF
  apply kept_setQPort
  exact h

theorem kept_sendStatus (h : Kept q s) : ∀ a1 a2 a3 a4, Kept q (sendStatus s a1 a2 a3 a4) := by
  intro a1 a2 a3 a4
  unfold sendStatus
  extract_lets v0
  apply kept_setQPort
  exact h

theorem kept_qtzEvent (h : Kept q s) : ∀ a1 a2 a3, Kept q (qtzEvent s a1 a2 a3) := by
  intro a1 a2 a3
  unfold qtzEvent
  apply kept_raise
  exact h

theorem kept_startStream (h : Kept q s) : ∀ a1 a2, Kept q (startStream s a1 a2) := by
  intro a1 a2
  unfold startStream
  extract_lets v0 v1 v2 v3 v4 v5 v6 v7 v8 v9 v10 v11
  have h12 : Kept q v0 := by
    unfold v0
    apply kept_ctrlTakes
    apply kept_endStream
    exact h
  clear_value v0
  have h13 : Kept q v1 := by
    unfold v1
    apply kept_setQPort
    exact h12
  clear_value v1
  have h14 : Kept q v6 := by
    unfold v6
    apply kept_setPortState
    apply kept_setF
    exact h13
  clear_value v6
  have h15 : Kept q v9 := by
    unfold v9
    apply kept_setQPort
    exact h13
  clear_value v9
  have h16 : Kept q v10 := by
    unfold v10
    apply kept_setF
    apply kept_setF
    exact h15
  clear_value v10
  have h17 : Kept q v11 := by
    unfold v11
    apply kept_qtzEvent
    apply kept_setPortState
    exact h16
  clear_value v11
  refine kept_ite ?_ ?_
  · apply kept_sendStatus
    apply kept_qtzEvent
    exact h14
  · apply kept_sendStatus
    exact h17

theorem kept_dropLayer (h : Kept q s) : ∀ a1 a2, Kept q (dropLayer s a1 a2) := by
  intro a1 a2
  unfold dropLayer
  apply kept_setQPort
  exact h

theorem kept_tellAbandoned (h : Kept q s) : ∀ a1 a2 a3 a4, Kept q (tellAbandoned s a1 a2 a3 a4) := by
  intro a1 a2 a3 a4
  unfold tellAbandoned
  apply kept_qtzEvent
  apply kept_bump
  exact h

theorem kept_abandon (h : Kept q s) : ∀ a1 a2 a3, Kept q (abandon s a1 a2 a3) := by
  intro a1 a2 a3
  unfold abandon
  extract_lets v0
  have h1 : Kept q v0 := by
    unfold v0
    apply kept_setLayer
    exact h
  clear_value v0
  split
  · exact h
  · extract_lets v2
    have h3 : Kept q v2 := by
      unfold v2
      refine kept_ite ?_ ?_
      · apply kept_dropLayer
        exact h1
      · exact h1
    clear_value v2
    apply kept_tellAbandoned
    exact h3

theorem kept_closeFrame (h : Kept q s) : ∀ a1 a2 a3, Kept q (closeFrame s a1 a2 a3) := by
  intro a1 a2 a3
  unfold closeFrame
  extract_lets v0
  split
  · exact h
  · extract_lets v1
    have h2 : Kept q v1 := by
      unfold v1
      apply kept_foldl
      · exact h
      · intro x3 x4 h5
        split
        · refine kept_ite ?_ ?_
          · apply kept_abandon
            exact h5
          · exact h5
        · exact h5
    clear_value v1
    apply kept_setQPort
    exact h2

theorem kept_sequenceFail (h : Kept q s) : ∀ a1, Kept q (sequenceFail s a1) := by
  intro a1
  unfold sequenceFail
  apply kept_setQPort
  apply kept_closeFrame
  exact h

theorem kept_badLength (h : Kept q s) : ∀ a1 a2, Kept q (badLength s a1 a2) := by
  intro a1 a2
  unfold badLength
  extract_lets v0 v1 v2 v3
  have h4 : Kept q v2 := by
    unfold v2
    refine kept_ite ?_ ?_
    · exact h
    · apply kept_bump
      exact h
  clear_value v2
  have h5 : Kept q v3 := by
    unfold v3
    refine kept_ite ?_ ?_
    · apply kept_startStream
      exact h
    · refine kept_ite ?_ ?_
      · exact h
      · refine kept_ite ?_ ?_
        · exact h4
        · refine kept_ite ?_ ?_
          · apply kept_sequenceFail
            exact h4
          · apply kept_setQPort
            exact h4
  clear_value v3
  apply kept_setQPort
  exact h5

theorem kept_resumePort (h : Kept q s) : ∀ a1, Kept q (resumePort s a1) := by
  intro a1
  unfold resumePort
  refine kept_ite ?_ ?_
  · apply kept_qtzEvent
    apply kept_setPortState
    exact h
  · exact h

theorem kept_measureRate (h : Kept q s) : ∀ a1 a2, Kept q (measureRate s a1 a2) := by
  intro a1 a2
  unfold measureRate
  extract_lets v0 v1 v2 v3 v4
  have h5 : Kept q v0 := by
    unfold v0
    apply kept_setQPort
    exact h
  clear_value v0
  refine kept_ite ?_ ?_
  · exact h5
  · refine kept_ite ?_ ?_
    · refine kept_ite ?_ ?_
      · apply kept_setQPort
        exact h5
      · refine kept_ite ?_ ?_
        · apply kept_qtzEvent
          apply kept_setQPort
          exact h5
        · exact h5
    · refine kept_ite ?_ ?_
      · refine kept_ite ?_ ?_
        · exact h5
        · apply kept_qtzEvent
          apply kept_setQPort
          exact h5
      · apply kept_setQPort
        exact h5

theorem kept_beginFrame (h : Kept q s) : ∀ a1 a2 a3, Kept q (beginFrame s a1 a2 a3) := by
  intro a1 a2 a3
  unfold beginFrame
  extract_lets v0 v1 v2
  have h3 : Kept q v0 := by
    unfold v0
    apply kept_closeFrame
    exact h
  clear_value v0
  have h4 : Kept q v2 := by
    unfold v2
    apply kept_setQPort
    exact h3
  clear_value v2
  apply kept_measureRate
  exact h4

theorem kept_stopStream (h : Kept q s) : ∀ a1, Kept q (stopStream s a1) := by
  intro a1
  unfold stopStream
  apply kept_setPortState
  apply kept_endStream
  exact h

theorem kept_abandonUnit (h : Kept q s) : ∀ a1 a2, Kept q (abandonUnit s a1 a2) := by
  intro a1 a2
  unfold abandonUnit
  apply kept_tellAbandoned
  exact h

theorem kept_abandonHeader (h : Kept q s) : ∀ a1 a2, Kept q (abandonHeader s a1 a2) := by
  intro a1 a2
  unfold abandonHeader
  apply kept_tellAbandoned
  apply kept_dropLayer
  exact h

theorem kept_layerHeader (h : Kept q s) : ∀ p st u t, layerHeader s p st u = .done t → Kept q t := by
  intro p st u t e
  unfold layerHeader at e
  extract_lets q0 id at e
  split at e
  · cases e; exact kept_sequenceFail h _
  split at e
  · cases e; exact kept_abandonUnit h _ _
  split at e
  · cases e; exact kept_abandonUnit h _ _
  split at e
  · cases e; exact kept_sequenceFail h _
  extract_lets hd note ver v at e
  have hn : ∀ s, Kept q s → Kept q (note s) := fun s hs => kept_setLayer (kept_setQPort hs _ _) _ _ _
  have hv : Kept q v := hn _ (kept_setQuartz h _)
  clear_value v note
  split at e
  · cases e; exact kept_abandonHeader (hn _ h) _ _
  split at e
  · cases e
  split at e
  · cases e
  · cases e; exact kept_setLayer hv _ _ _

theorem kept_planeUnit (h : Kept q s) : ∀ a1 a2, Kept q (planeUnit s a1 a2) := by
  intro a1 a2
  unfold planeUnit
  extract_lets v0 v1 v2 v3 v4 v5 v6 v7 v8
  have h9 : Kept q v8 := by
    unfold v8
    apply kept_setWriting
    exact h
  clear_value v8
  split
  · apply kept_sequenceFail
    exact h
  · refine kept_ite ?_ ?_
    · apply kept_abandonUnit
      exact h
    · refine kept_ite ?_ ?_
      · apply kept_sequenceFail
        exact h
      · refine kept_ite ?_ ?_
        · exact h
        · split
          · exact h
          · refine kept_ite ?_ ?_
            · apply kept_abandon
              exact h
            · refine kept_ite ?_ ?_
              · apply kept_abandon
                exact h
              · refine kept_ite ?_ ?_
                · apply kept_abandon
                  exact h
                · refine kept_ite ?_ ?_
                  · apply kept_writeBand
                    exact h9
                  · refine kept_ite ?_ ?_
                    · apply kept_abandon
                      exact h9
                    · apply kept_setQuartz
                      exact h9

theorem kept_endFrame (h : Kept q s) : ∀ a1, Kept q (endFrame s a1) := by
  intro a1
  unfold endFrame
  refine kept_ite ?_ ?_
  · apply kept_sequenceFail
    exact h
  · apply kept_closeFrame
    exact h

theorem kept_takeUnit (h : Kept q s) : ∀ p u t, takeUnit s p u = .done t → Kept q t := by
  intro p u t e
  have hn : ∀ s seq, Kept q s → Kept q (setQPort s p fun q => { q with expSeq := (seq + 1) % 65536 }) := fun s seq hs => kept_setQPort hs _ _
  unfold takeUnit at e
  extract_lets q0 ty seq next counted v at e
  split at e
  · cases e; exact kept_startStream h _ _
  split at e
  · cases e; exact h
  have hc : Kept q counted := kept_ite h (kept_bump h _ _)
  have hv : Kept q v := hn _ _ hc
  clear_value v counted
  split at e
  · split at e
    · cases e; exact kept_beginFrame (hn _ _ (kept_setQPort h _ _)) _ _ _
    · cases e; exact hc
  split at e
  · cases e; exact hn _ _ (kept_sequenceFail hc _)
  clear_value next ty
  split at e
  · cases e; exact kept_stopStream hv _
  · cases e; exact kept_beginFrame hv _ _ _
  · split at e
    · rename_i e2
      cases e; exact kept_layerHeader hv _ _ _ _ e2
    · cases e
  · cases e; exact kept_planeUnit hv _ _
  · cases e; exact kept_endFrame hv _
  · cases e; exact kept_embedUnit hv _ _ _ _
  · cases e; exact hv

theorem kept_parseBytes (h : Kept q s) : ∀ p n b, Kept q (parseBytes p n b s) := by
  intro p n
  induction n generalizing s with
  | zero => intro b; exact h
  | succ n ih =>
    intro b
    unfold parseBytes
    split
    · exact h
    split
    · exact ih h _
    extract_lets v k
    have hv : Kept q v := kept_setQPort h _ _
    clear_value v
    split
    · exact ih (kept_badLength hv _ _) _
    split
    · rename_i e
      exact ih (kept_takeUnit hv _ _ _ e) _
    · exact kept_setQPort hv _ _

theorem kept_feedUnits (h : Kept q s) : ∀ p n b, Kept q (feedUnits p n b s).1 := by
  intro p n
  induction n generalizing s with
  | zero => intro b; exact h
  | succ n ih =>
    intro b
    unfold feedUnits
    extract_lets v1 v2 v3
    clear_value v1 v2 v3
    split
    · exact h
    split
    · exact ih h _
    split
    · split
      · exact h
      · exact ih (kept_badLength (kept_resumePort h _) _ _) _
    split
    · exact h
    · exact ih (kept_parseBytes (kept_resumePort h _) _ _ _) _

theorem kept_feedRx (h : Kept q s) : ∀ a1, Kept q (feedRx s a1) := by
  intro a1
  unfold feedRx
  extract_lets v0
  split
  extract_lets v1
  refine kept_rec ?_
  apply kept_parts
  refine kept_fst (by assumption) ?_
  split
  · apply kept_feedUnits
    exact h
  · exact h

theorem kept_retryPort (h : Kept q s) : ∀ a1, Kept q (retryPort s a1) := by
  intro a1
  unfold retryPort
  extract_lets v0 v1
  have h2 : Kept q v1 := by
    unfold v1
    apply kept_setQPort
    exact h
  clear_value v1
  refine kept_ite ?_ ?_
  · exact h
  · apply kept_feedRx
    apply kept_foldl
    · exact h2
    · intro x3 x4 h5
      refine kept_ite ?_ ?_
      · apply kept_parseBytes
        exact h5
      · apply kept_setQPort
        exact h5

theorem kept_retryHeld (h : Kept q s) : Kept q (retryHeld s) := by
  unfold retryHeld
  apply kept_foldl
  · exact h
  · intro x0 x1 h2
    apply kept_retryPort
    exact h2

theorem kept_bandDecoded (h : Kept q s) : ∀ a1 a2, Kept q (bandDecoded s a1 a2) := by
  intro a1 a2
  unfold bandDecoded
  split
  · exact h
  · refine kept_ite ?_ ?_
    · exact h
    · split
      · refine kept_ite ?_ ?_
        · apply kept_writeBand
          exact h
        · apply kept_retryHeld
          apply kept_abandon
          exact h
      · apply kept_retryHeld
        apply kept_abandon
        exact h

theorem kept_brxEvent (h : Kept q s) : ∀ a1 a2 a3 a4 a5, Kept q (brxEvent s a1 a2 a3 a4 a5) := by
  intro a1 a2 a3 a4 a5
  unfold brxEvent
  apply kept_raise
  exact h

theorem kept_settleEvents (h : Kept q s) : ∀ a1, Kept q (settleEvents s a1) := by
  intro a1
  unfold settleEvents
  extract_lets v0
  refine kept_ite ?_ ?_
  · exact h
  · split
    · extract_lets v1
      refine kept_ite ?_ ?_
      · apply kept_mirrorSend
        apply kept_setFlint
        exact h
      · exact h
    · exact h

theorem kept_setFlagOf (h : Kept q s) : ∀ a1 a2, Kept q (setFlagOf s a1 a2) := by
  intro a1 a2
  unfold setFlagOf
  apply kept_settleEvents
  apply kept_setFlint
  exact h

theorem kept_setFlag (h : Kept q s) : ∀ a1, Kept q (setFlag s a1) := by
  intro a1
  unfold setFlag
  extract_lets v0
  have h1 : Kept q v0 := by
    unfold v0
    refine kept_ite ?_ ?_
    · apply kept_setFlagOf
      exact h
    · exact h
  clear_value v0
  refine kept_ite ?_ ?_
  · apply kept_setFlagOf
    exact h1
  · exact h1

theorem kept_jobEnded (h : Kept q s) : ∀ a1 a2 a3 a4, Kept q (jobEnded s a1 a2 a3 a4) := by
  intro a1 a2 a3 a4
  unfold jobEnded
  extract_lets v0 v1
  have h2 : Kept q v0 := by
    unfold v0
    apply kept_bump
    exact h
  clear_value v0
  have h3 : Kept q v1 := by
    unfold v1
    refine kept_ite ?_ ?_
    · apply kept_brxEvent
      exact h2
    · exact h2
  clear_value v1
  refine kept_ite ?_ ?_
  · apply kept_setFlag
    exact h3
  · exact h3

theorem kept_boraxStatus (h : Kept q s) : Kept q (boraxStatus s) := by
  unfold boraxStatus
  extract_lets v0
  apply kept_foldl
  · exact h
  · intro x1 x2 h3
    apply kept_setF
    exact h3

theorem kept_boraxDrained (h : Kept q s) : Kept q (boraxDrained s) := by
  unfold boraxDrained
  extract_lets v0 v1 v2 v3 v4 v5 v6 v7
  have h8 : Kept q v5 := by
    unfold v5
    refine kept_rec ?_
    apply kept_parts
    exact h
  clear_value v5
  have h9 : Kept q v6 := by
    unfold v6
    apply kept_setQuartz
    exact h8
  clear_value v6
  have h10 : Kept q v7 := by
    unfold v7
    apply kept_foldl
    · exact h9
    · intro x11 x12 h13
      split
      · refine kept_ite ?_ ?_
        · apply kept_bandDecoded
          exact h13
        · exact h13
      · extract_lets v14
        refine kept_ite ?_ ?_
        · apply kept_jobEnded
          exact h13
        · exact h13
      · exact h13
  clear_value v7
  apply kept_boraxStatus
  exact h10

theorem kept_cancelStripe (h : Kept q s) : ∀ a1, Kept q (cancelStripe s a1) := by
  intro a1
  unfold cancelStripe
  extract_lets v0
  have h1 : Kept q v0 := by
    unfold v0
    refine kept_rec ?_
    apply kept_parts
    exact h
  clear_value v0
  apply kept_foldl
  · exact h1
  · intro x2 x3 h4
    apply kept_setGal
    exact h4

theorem kept_micaDrained (h : Kept q s) : Kept q (micaDrained s) := by
  unfold micaDrained
  extract_lets v0 v1 v2
  have h3 : Kept q v0 := by
    unfold v0
    apply kept_setMica
    exact h
  clear_value v0
  have h4 : Kept q v1 := by
    unfold v1
    apply kept_foldl
    · exact h3
    · intro x5 x6 h7
      apply kept_cancelStripe
      exact h7
  clear_value v1
  have h8 : Kept q v2 := by
    unfold v2
    apply kept_setStripes
    exact h4
  clear_value v2
  split
  · exact h8
  · split
    apply kept_bltRun
    refine kept_snd (by assumption) ?_
    apply kept_takeFree
    exact h8

theorem kept_setTport (h : Kept q s) : ∀ a1, Kept q (setTport s a1) := by
  intro a1
  unfold setTport
  refine kept_rec ?_
  apply kept_parts
  exact h

theorem kept_timeDrained (h : Kept q s) : Kept q (timeDrained s) := by
  unfold timeDrained
  apply kept_setTport
  exact h

theorem kept_drainBegins (h : Kept q s) : ∀ a1, Kept q (drainBegins s a1) := by
  intro a1
  unfold drainBegins
  extract_lets v0
  refine kept_ite ?_ ?_
  · unfold v0
    refine kept_ite ?_ ?_
    · apply kept_leaseEnds
      apply kept_releaseSend
      exact h
    · apply kept_shadowLose
      exact h
  · refine kept_ite ?_ ?_
    · unfold v0
      refine kept_ite ?_ ?_
      · apply kept_leaseEnds
        apply kept_releaseSend
        exact h
      · apply kept_shadowLose
        exact h
    · refine kept_ite ?_ ?_
      · apply kept_handOverRegion
        exact h
      · refine kept_ite ?_ ?_
        · apply kept_boraxDrained
          exact h
        · refine kept_ite ?_ ?_
          · apply kept_micaDrained
            exact h
          · refine kept_ite ?_ ?_
            · apply kept_timeDrained
              apply kept_audioDrained
              exact h
            · exact h

theorem kept_startDrain (h : Kept q s) : ∀ a1 a2, Kept q (startDrain s a1 a2) := by
  intro a1 a2
  unfold startDrain
  extract_lets v0
  have h1 : Kept q v0 := by
    unfold v0
    apply kept_setCtl
    exact h
  clear_value v0
  refine kept_ite ?_ ?_
  · exact h
  · apply kept_drainBegins
    apply kept_raise
    apply kept_setPhase
    exact h1

theorem kept_powerDown (h : Kept q s) : ∀ a1, Kept q (powerDown s a1) := by
  intro a1
  unfold powerDown
  split
  · apply kept_startDrain
    exact h
  · apply kept_pwrShow
    apply kept_setCtl
    exact h
  · apply kept_setPhase
    exact h
  · refine kept_ite ?_ ?_
    · apply kept_setPhase
      exact h
    · exact h
  · exact h

theorem kept_powerApply (h : Kept q s) : ∀ a1 a2, Kept q (powerApply s a1 a2) := by
  intro a1 a2
  unfold powerApply
  split
  · refine kept_ite ?_ ?_
    · apply kept_setHeld
      exact h
    · exact h
  · refine kept_ite ?_ ?_
    · refine kept_ite ?_ ?_
      · apply kept_powerUp
        exact h
      · exact h
    · apply kept_powerDown
      exact h

theorem kept_pwrDone (h : Kept q s) : Kept q (pwrDone s) := by
  unfold pwrDone
  split
  · exact h
  · extract_lets v0
    refine kept_ite ?_ ?_
    · apply kept_setFlag
      apply kept_setPwr
      exact h
    · exact h

theorem kept_powerDeferred (h : Kept q s) : Kept q (powerDeferred s) := by
  unfold powerDeferred
  extract_lets v0
  have h1 : Kept q v0 := by
    unfold v0
    refine kept_ite ?_ ?_
    · apply kept_foldl
      · apply kept_setPwr
        exact h
      · intro x2 x3 h4
        apply kept_powerApply
        exact h4
    · exact h
  clear_value v0
  refine kept_ite ?_ ?_
  · apply kept_foldl
    · apply kept_setPwr
      exact h1
    · intro x5 x6 h7
      apply kept_powerApply
      exact h7
  · exact h1

theorem kept_powerTake (h : Kept q s) : ∀ a1 a2, Kept q (powerTake s a1 a2) := by
  intro a1 a2
  unfold powerTake
  extract_lets v0 v1 v2
  have h3 : Kept q v0 := by
    unfold v0
    apply kept_setPwr
    exact h
  clear_value v0
  have h4 : Kept q v2 := by
    unfold v2
    apply kept_foldl
    · exact h3
    · intro x5 x6 h7
      refine kept_ite ?_ ?_
      · apply kept_setPwr
        exact h7
      · refine kept_ite ?_ ?_
        · apply kept_setPwr
          exact h7
        · apply kept_powerApply
          exact h7
  clear_value v2
  apply kept_pwrDone
  apply kept_powerDeferred
  exact h4

theorem kept_sleepNow (h : Kept q s) : Kept q (sleepNow s) := by
  unfold sleepNow
  extract_lets v0
  have h1 : Kept q v0 := by
    unfold v0
    apply kept_calAbort
    apply kept_setPwr
    apply kept_setObs
    exact h
  clear_value v0
  apply kept_sleepSettles
  apply kept_powerTake
  exact h1

theorem kept_afterPanel (h : Kept q s) : Kept q (afterPanel s) := by
  unfold afterPanel
  refine kept_ite ?_ ?_
  · exact h
  · refine kept_ite ?_ ?_
    · refine kept_ite ?_ ?_
      · apply kept_rebootNow
        exact h
      · apply kept_sleepNow
        exact h
    · exact h

theorem kept_portShow (h : Kept q s) : Kept q (portShow s) := by
  unfold portShow
  apply kept_setObs
  exact h

theorem kept_scriptNext (h : Kept q s) : Kept q (scriptNext s) := by
  unfold scriptNext
  refine kept_ite ?_ ?_
  · exact h
  · split
    · extract_lets v0
      have h1 : Kept q v0 := by
        unfold v0
        apply kept_setObs
        exact h
      clear_value v0
      apply kept_portShow
      apply kept_setF
      exact h1
    · exact h

theorem kept_scriptAsk (h : Kept q s) : ∀ a1 a2, Kept q (scriptAsk s a1 a2) := by
  intro a1 a2
  unfold scriptAsk
  apply kept_scriptNext
  apply kept_setObs
  exact h

theorem kept_setStep (h : Kept q s) : ∀ a1, Kept q (setStep s a1) := by
  intro a1
  unfold setStep
  apply kept_setObs
  exact h

theorem kept_setPanelState (h : Kept q s) : ∀ a1, Kept q (setPanelState s a1) := by
  intro a1
  unfold setPanelState
  apply kept_setF
  apply kept_setObs
  exact h

theorem kept_powerOn (h : Kept q s) : Kept q (powerOn s) := by
  unfold powerOn
  extract_lets v0 v1
  have h2 : Kept q v1 := by
    unfold v1
    refine kept_rec ?_
    apply kept_parts
    exact h
  clear_value v1
  apply kept_scriptAsk
  apply kept_setStep
  apply kept_setPanelState
  exact h2

theorem kept_powerAsk (h : Kept q s) : ∀ a1, Kept q (powerAsk s a1) := by
  intro a1
  unfold powerAsk
  extract_lets v0
  refine kept_ite ?_ ?_
  · exact h
  · split
    · refine kept_ite ?_ ?_
      · apply kept_powerOn
        exact h
      · exact h
    · refine kept_ite ?_ ?_
      · apply kept_powerOn
        exact h
      · exact h
    · refine kept_ite ?_ ?_
      · exact h
      · unfold v0
        apply kept_setObs
        exact h
    · refine kept_ite ?_ ?_
      · exact h
      · refine kept_ite ?_ ?_
        · refine kept_ite ?_ ?_
          · unfold v0
            apply kept_setObs
            exact h
          · exact h
        · refine kept_ite ?_ ?_
          · exact h
          · apply kept_setStep
            exact h
    · refine kept_ite ?_ ?_
      · unfold v0
        apply kept_setObs
        exact h
      · exact h

theorem kept_panelThen (h : Kept q s) : ∀ a1, Kept q (panelThen s a1) := by
  intro a1
  unfold panelThen
  extract_lets v0
  have h1 : Kept q v0 := by
    unfold v0
    apply kept_setObs
    exact h
  clear_value v0
  apply kept_afterPanel
  apply kept_setObs
  apply kept_powerAsk
  exact h1

theorem kept_sleepAsk (h : Kept q s) : Kept q (sleepAsk s) := by
  unfold sleepAsk
  split
  · refine kept_ite ?_ ?_
    · exact h
    · apply kept_setPwr
      exact h
  · apply kept_panelThen
    exact h
  · refine kept_ite ?_ ?_
    · exact h
    · apply kept_panelThen
      exact h
  · exact h

theorem kept_pwrCtrlWrite (h : Kept q s) : ∀ a1, Kept q (pwrCtrlWrite s a1) := by
  intro a1
  unfold pwrCtrlWrite
  refine kept_ite ?_ ?_
  · apply kept_sleepAsk
    exact h
  · exact h

theorem kept_powerRequest (h : Kept q s) : ∀ a1 a2, Kept q (powerRequest s a1 a2) := by
  intro a1 a2
  unfold powerRequest
  extract_lets v0 v1 v2 v3 v4 v5
  refine kept_ite ?_ ?_
  · apply kept_powerEvent
    exact h
  · apply kept_powerTake
    refine kept_ite ?_ ?_
    · apply kept_setPwr
      exact h
    · exact h

theorem kept_selftestAsk (h : Kept q s) : Kept q (selftestAsk s) := by
  unfold selftestAsk
  apply kept_foldl
  · exact h
  · intro x0 x1 h2
    apply kept_setFlint
    exact h2

theorem kept_switchAsk (h : Kept q s) : ∀ a1, Kept q (switchAsk s a1) := by
  intro a1
  unfold switchAsk
  extract_lets v0
  have h1 : Kept q v0 := by
    unfold v0
    apply kept_setLease
    exact h
  clear_value v0
  split
  · exact h
  · refine kept_ite ?_ ?_
    · apply kept_leaseEvent
      exact h
    · refine kept_ite ?_ ?_
      · exact h1
      · apply kept_setFlint
        exact h1
  · apply kept_leaseEvent
    exact h
  · apply kept_leaseEvent
    exact h

theorem kept_leaseCtrlWrite (h : Kept q s) : ∀ a1 a2, Kept q (leaseCtrlWrite s a1 a2) := by
  intro a1 a2
  unfold leaseCtrlWrite
  extract_lets v0 v1
  have h2 : Kept q v0 := by
    unfold v0
    apply kept_writeKey
    exact h
  clear_value v0
  have h3 : Kept q v1 := by
    unfold v1
    refine kept_ite ?_ ?_
    · apply kept_selftestAsk
      exact h2
    · exact h2
  clear_value v1
  refine kept_ite ?_ ?_
  · apply kept_switchAsk
    exact h3
  · exact h3

theorem kept_movesShow (h : Kept q s) : Kept q (movesShow s) := by
  unfold movesShow
  extract_lets v0
  refine kept_ite ?_ ?_
  · exact h
  · apply kept_setTherm
    exact h

theorem kept_setThermStep (h : Kept q s) : ∀ a1, Kept q (setThermStep s a1) := by
  intro a1
  unfold setThermStep
  refine kept_ite ?_ ?_
  · exact h
  · apply kept_powerEvent
    apply kept_setF
    exact h

theorem kept_throttleShow (h : Kept q s) : Kept q (throttleShow s) := by
  unfold throttleShow
  extract_lets v0 v1 v2
  have h3 : Kept q v2 := by
    unfold v2
    apply kept_movesShow
    apply kept_setF
    exact h
  clear_value v2
  refine kept_ite ?_ ?_
  · apply kept_setThermStep
    exact h3
  · exact h3

theorem kept_dramForced (h : Kept q s) : Kept q (dramForced s) := by
  unfold dramForced
  extract_lets v0 v1
  have h2 : Kept q v1 := by
    unfold v1
    apply kept_setTherm
    exact h
  clear_value v1
  apply kept_throttleShow
  apply kept_setF
  exact h2

theorem kept_thermJudge (h : Kept q s) : Kept q (thermJudge s) := by
  unfold thermJudge
  extract_lets v0 v1 v2 v3 v4 v5 v6
  have h7 : Kept q v1 := by
    unfold v1
    split
    · apply kept_setF
      apply kept_setF
      exact h
    · exact h
  clear_value v1
  have h8 : Kept q v3 := by
    unfold v3
    split
    · exact h7
    · extract_lets v9 v10
      have h11 : Kept q v10 := by
        unfold v10
        apply kept_setTherm
        apply kept_setF
        exact h7
      clear_value v10
      refine kept_ite ?_ ?_
      · exact h11
      · apply kept_powerEvent
        exact h11
  clear_value v3
  have h12 : Kept q v4 := by
    unfold v4
    apply kept_dramForced
    exact h8
  clear_value v4
  have h13 : Kept q v6 := by
    unfold v6
    apply kept_setF
    exact h12
  clear_value v6
  refine kept_ite ?_ ?_
  · apply kept_setThermStep
    exact h13
  · exact h13

theorem kept_thermCtrlWrite (h : Kept q s) : ∀ a1, Kept q (thermCtrlWrite s a1) := by
  intro a1
  unfold thermCtrlWrite
  extract_lets v0 v1 v2
  refine kept_ite ?_ ?_
  · apply kept_thermJudge
    apply kept_writeKey
    exact h
  · exact h

theorem kept_logAdd (h : Kept q s) : ∀ a1, Kept q (logAdd s a1) := by
  intro a1
  unfold logAdd
  extract_lets v0 v1
  refine kept_rec ?_
  apply kept_parts
  exact h

theorem kept_calCtrlSlate (h : Kept q s) : ∀ a1 a2, Kept q (calCtrlSlate s a1 a2) := by
  intro a1 a2
  unfold calCtrlSlate
  extract_lets v0 v1 v2
  have h3 : Kept q v0 := by
    unfold v0
    apply kept_writeKey
    exact h
  clear_value v0
  have h4 : Kept q v1 := by
    unfold v1
    refine kept_ite ?_ ?_
    · apply kept_logAdd
      apply kept_setSlate
      · exact h3
      · intro x5
        rfl
    · exact h3
  clear_value v1
  have h6 : Kept q v2 := by
    unfold v2
    apply kept_setF
    apply kept_setF
    apply kept_bump
    exact h4
  clear_value v2
  refine kept_ite ?_ ?_
  · apply kept_setTherm
    exact h6
  · exact h4

theorem kept_showBytes (h : Kept q s) : ∀ a1 a2, Kept q (showBytes s a1 a2) := by
  intro a1 a2
  unfold showBytes
  apply kept_foldl
  · exact h
  · intro x0 x1 h2
    apply kept_setReg
    exact h2

theorem kept_bootShow (h : Kept q s) : Kept q (bootShow s) := by
  unfold bootShow
  extract_lets v0 v1
  split
  · apply kept_setReg
    apply kept_showBytes
    exact h
  · extract_lets v2 v3 v4
    apply kept_setReg
    apply kept_showBytes
    exact h

theorem kept_setUnconfirmed (h : Kept q s) : ∀ a1 a2 a3, Kept q (setUnconfirmed s a1 a2 a3) := by
  intro a1 a2 a3
  unfold setUnconfirmed
  apply kept_setSlate
  · exact h
  · intro x0
    rfl

theorem kept_confirmSlot (h : Kept q s) : Kept q (confirmSlot s) := by
  unfold confirmSlot
  split
  · apply kept_bootShow
    apply kept_setUnconfirmed
    exact h
  · exact h

theorem kept_rebootAsk (h : Kept q s) : Kept q (rebootAsk s) := by
  unfold rebootAsk
  split
  · refine kept_ite ?_ ?_
    · exact h
    · apply kept_setSlate
      · exact h
      · intro x0
        rfl
  · apply kept_panelThen
    exact h
  · apply kept_panelThen
    exact h
  · exact h

theorem kept_bootCtrlWrite (h : Kept q s) : ∀ a1, Kept q (bootCtrlWrite s a1) := by
  intro a1
  unfold bootCtrlWrite
  extract_lets v0 v1 v2
  have h3 : Kept q v0 := by
    unfold v0
    apply kept_writeKey
    exact h
  clear_value v0
  have h4 : Kept q v1 := by
    unfold v1
    apply kept_setSlate
    · exact h3
    · intro x5
      rfl
  clear_value v1
  have h6 : Kept q v2 := by
    unfold v2
    refine kept_ite ?_ ?_
    · apply kept_confirmSlot
      exact h4
    · exact h4
  clear_value v2
  refine kept_ite ?_ ?_
  · apply kept_rebootAsk
    exact h6
  · exact h6

theorem kept_otpShow (h : Kept q s) : Kept q (otpShow s) := by
  unfold otpShow
  extract_lets v0 v1
  apply kept_setReg
  exact h

theorem kept_otpCtrlWrite (h : Kept q s) : ∀ a1, Kept q (otpCtrlWrite s a1) := by
  intro a1
  unfold otpCtrlWrite
  extract_lets v0
  refine kept_ite ?_ ?_
  · exact h
  · apply kept_otpShow
    apply kept_setSlate
    · exact h
    · intro x1
      rfl

theorem kept_plainWrite (h : Kept q s) : ∀ a1 a2 a3 a4, Kept q (plainWrite s a1 a2 a3 a4) := by
  intro a1 a2 a3 a4
  unfold plainWrite
  apply kept_writeKey
  exact h

theorem kept_attestShow (h : Kept q s) : ∀ a1, Kept q (attestShow s a1) := by
  intro a1
  unfold attestShow
  apply kept_setF
  exact h

theorem kept_attestStart (h : Kept q s) : ∀ a1, Kept q (attestStart s a1) := by
  intro a1
  unfold attestStart
  refine kept_ite ?_ ?_
  · exact h
  · apply kept_attestShow
    apply kept_setSlate
    · exact h
    · intro x0
      rfl

theorem kept_nonceWrite (h : Kept q s) : ∀ a1 a2, Kept q (nonceWrite s a1 a2) := by
  intro a1 a2
  unfold nonceWrite
  extract_lets v0
  apply kept_setF
  apply kept_writeKey
  exact h

theorem kept_doorbell (h : Kept q s) : ∀ a1 a2, Kept q (doorbell s a1 a2) := by
  intro a1 a2
  unfold doorbell
  extract_lets v0 v1
  have h2 : Kept q v1 := by
    unfold v1
    apply kept_foldl
    · exact h
    · intro x3 x4 h5
      extract_lets v6 v7
      have h8 : Kept q v7 := by
        unfold v7
        apply kept_setReg
        exact h5
      clear_value v7
      apply kept_setF
      exact h8
  clear_value v1
  apply kept_setFlag
  exact h2

theorem kept_slateWrite (h : Kept q s) : ∀ a1 a2 a3, Kept q (slateWrite s a1 a2 a3) := by
  intro a1 a2 a3
  unfold slateWrite
  refine kept_ite ?_ ?_
  · exact h
  · refine kept_ite ?_ ?_
    · apply kept_pwrCtrlWrite
      exact h
    · refine kept_ite ?_ ?_
      · apply kept_powerRequest
        exact h
      · refine kept_ite ?_ ?_
        · apply kept_leaseCtrlWrite
          exact h
        · refine kept_ite ?_ ?_
          · apply kept_thermCtrlWrite
            exact h
          · refine kept_ite ?_ ?_
            · apply kept_calCtrlSlate
              exact h
            · refine kept_ite ?_ ?_
              · apply kept_bootCtrlWrite
                exact h
              · refine kept_ite ?_ ?_
                · apply kept_otpCtrlWrite
                  exact h
                · split
                  · apply kept_plainWrite
                    exact h
                  · refine kept_ite ?_ ?_
                    · refine kept_ite ?_ ?_
                      · apply kept_attestStart
                        exact h
                      · exact h
                    · refine kept_ite ?_ ?_
                      · apply kept_nonceWrite
                        exact h
                      · refine kept_ite ?_ ?_
                        · apply kept_doorbell
                          exact h
                        · apply kept_plainWrite
                          exact h

theorem semOf_get (n : Nat) (hn : n < 32) : semOf s n = s.slate.sems[n] := by
  simp [semOf, Vector.getD, hn]

theorem kept_setSem (h : Kept q s) : ∀ n f, (n < 32 → SemOk (semOf s n) → SemOk (f (semOf s n))) → Kept q (setSem s n f) := by
  intro n f hf
  unfold setSem
  extract_lets v
  apply kept_setF
  refine ⟨h.1, h.2.1, fun b k => ?_⟩
  have hk := h.2.2 b k
  change SemOk (v.slate.sems[k])
  by_cases hn : n < 32
  · have hv : v.slate.sems = s.slate.sems.set n (f s.slate.sems[n]) := by simp [v, setSlate, hn]
    rw [hv]
    by_cases e : n = k.val
    · subst e
      have h1 := hf hn
      rw [semOf_get k.val hn] at h1
      simpa using h1 hk
    · simpa [Vector.getElem_set, e] using hk
  · have hv : v.slate.sems = s.slate.sems := by simp [v, setSlate, hn]
    rw [hv]
    exact hk

theorem kept_semLeave (h : Kept q s) : ∀ u n, Kept q (semLeave s u n) := by
  intro u n
  unfold semLeave
  apply kept_setSem h
  intro _ hm
  exact ⟨hm.1.erase u, fun x hx => hm.2 x (List.mem_of_mem_erase hx)⟩

theorem kept_semClockEnds (h : Kept q s) : ∀ a1, Kept q (semClockEnds s a1) := by
  intro a1
  unfold semClockEnds
  extract_lets v0
  have h1 : Kept q v0 := by
    unfold v0
    refine kept_ite ?_ ?_
    · apply kept_setF
      exact h
    · exact h
  clear_value v0
  apply kept_setSlate
  · exact h1
  · intro x2
    rfl

theorem kept_hostIrq (h : Kept q s) : ∀ a1 a2, Kept q (hostIrq s a1 a2) := by
  intro a1 a2
  unfold hostIrq
  apply kept_setF
  exact h

theorem kept_settleSem (h : Kept q s) : ∀ a1, Kept q (settleSem s a1) := by
  intro a1
  unfold settleSem
  apply kept_foldl
  · exact h
  · intro x0 x1 h2
    split
    · refine kept_ite ?_ ?_
      · apply kept_mirrorSend
        apply kept_setFlint
        exact h2
      · exact h2
    · exact h2

theorem kept_semFree (h : Kept q s) : ∀ n, Kept q (semFree s n) := by
  intro n
  unfold semFree
  extract_lets w
  have hw : Kept q w := kept_semClockEnds h _
  clear_value w
  split
  · rename_i e
    apply kept_setSem hw
    intro _ _
    simp [SemOk, e]
  · rename_i u r e
    extract_lets v
    have h1 : Kept q v := by
      apply kept_setSem hw
      intro _ hm
      rw [SemOk, e] at hm
      have h2 := List.nodup_cons.mp hm.1
      exact ⟨h2.2, fun x hx => ⟨Option.some_ne_none u, fun ex => h2.1 (Option.some.inj ex ▸ hx)⟩⟩
    clear_value v
    split
    · apply kept_hostIrq
      exact kept_setSlate h1 _ fun _ => rfl
    · exact kept_settleSem h1 _

theorem kept_semDropFrame (h : Kept q s) : Kept q (semDropFrame s) := by
  unfold semDropFrame
  apply kept_foldl
  · exact h
  · intro x0 x1 h2
    extract_lets v3
    have h4 : Kept q v3 := by
      unfold v3
      refine kept_ite ?_ ?_
      · apply kept_semLeave
        exact h2
      · exact h2
    clear_value v3
    refine kept_ite ?_ ?_
    · apply kept_semFree
      exact h4
    · exact h4

theorem kept_clearActions (h : Kept q s) : Kept q (clearActions s) := by
  unfold clearActions
  apply kept_setLease
  exact h

theorem kept_seqStart (h : Kept q s) : Kept q (seqStart s) := by
  unfold seqStart
  extract_lets v0 v1
  have h2 : Kept q v0 := by
    unfold v0
    apply kept_semDropFrame
    exact h
  clear_value v0
  have h3 : Kept q v1 := by
    unfold v1
    apply kept_clearActions
    apply kept_setLease
    exact h2
  clear_value v1
  apply kept_foldl
  · exact h3
  · intro x4 x5 h6
    apply kept_setFlint
    exact h6

theorem kept_progTake (h : Kept q s) : ∀ a1, Kept q (progTake s a1) := by
  intro a1
  unfold progTake
  extract_lets v0 v1
  have h2 : Kept q v0 := by
    unfold v0
    apply kept_foldl
    · exact h
    · intro x3 x4 h5
      apply kept_setFlint
      exact h5
  clear_value v0
  have h6 : Kept q v1 := by
    unfold v1
    apply kept_seqStart
    apply kept_setCtrl
    exact h2
  clear_value v1
  apply kept_foldl
  · exact h6
  · intro x7 x8 h9
    apply kept_flintEvent
    exact h9

theorem kept_takeReady (h : Kept q s) : Kept q (takeReady s) := by
  unfold takeReady
  split
  · refine kept_ite ?_ ?_
    · exact h
    · apply kept_progTake
      exact h
  · exact h

theorem kept_seqHalt (h : Kept q s) : ∀ a1 a2, Kept q (seqHalt s a1 a2) := by
  intro a1 a2
  unfold seqHalt
  extract_lets v0
  have h1 : Kept q v0 := by
    unfold v0
    apply kept_setFlint
    exact h
  clear_value v0
  refine kept_ite ?_ ?_
  · exact h1
  · apply kept_semDropFrame
    exact h1

theorem kept_progStop (h : Kept q s) : Kept q (progStop s) := by
  unfold progStop
  apply kept_takeReady
  apply kept_foldl
  · exact h
  · intro x0 x1 h2
    refine kept_ite ?_ ?_
    · apply kept_seqHalt
      exact h2
    · exact h2

theorem kept_progRun (h : Kept q s) : Kept q (progRun s) := by
  unfold progRun
  refine kept_ite ?_ ?_
  · exact h
  · apply kept_seqStart
    exact h

theorem kept_progLoad (h : Kept q s) : ∀ a1, Kept q (progLoad s a1) := by
  intro a1
  unfold progLoad
  extract_lets v0 v1
  refine kept_ite ?_ ?_
  · apply kept_setCtrl
    exact h
  · apply kept_setCtrl
    exact h

theorem kept_progCtrlWrite (h : Kept q s) : ∀ a1 a2, Kept q (progCtrlWrite s a1 a2) := by
  intro a1 a2
  unfold progCtrlWrite
  extract_lets v0 v1 v2 v3
  have h4 : Kept q v0 := by
    unfold v0
    apply kept_writeKey
    exact h
  clear_value v0
  have h5 : Kept q v1 := by
    unfold v1
    refine kept_ite ?_ ?_
    · apply kept_progStop
      exact h4
    · exact h4
  clear_value v1
  have h6 : Kept q v2 := by
    unfold v2
    refine kept_ite ?_ ?_
    · apply kept_progRun
      exact h5
    · exact h5
  clear_value v2
  refine kept_ite ?_ ?_
  · apply kept_progLoad
    apply kept_setCtrl
    exact h6
  · exact h6

theorem kept_flintWrite (h : Kept q s) : ∀ a1 a2 a3 a4, Kept q (flintWrite s a1 a2 a3 a4) := by
  intro a1 a2 a3 a4
  unfold flintWrite
  refine kept_ite ?_ ?_
  · apply kept_progCtrlWrite
    exact h
  · refine kept_ite ?_ ?_
    · refine kept_ite ?_ ?_
      · exact h
      · apply kept_plainWrite
        exact h
    · apply kept_plainWrite
      exact h

theorem kept_portCtrlWrite (h : Kept q s) : ∀ a1 a2, Kept q (portCtrlWrite s a1 a2) := by
  intro a1 a2
  unfold portCtrlWrite
  extract_lets v0 v1 v2 v3 v4
  have h5 : Kept q v1 := by
    unfold v1
    apply kept_writeKey
    exact h
  clear_value v1
  have h6 : Kept q v3 := by
    unfold v3
    refine kept_ite ?_ ?_
    · exact h5
    · apply kept_ctrlTakes
      exact h5
  clear_value v3
  have h7 : Kept q v4 := by
    unfold v4
    apply kept_setQPort
    apply kept_stopStream
    exact h6
  clear_value v4
  refine kept_ite ?_ ?_
  · exact h6
  · apply kept_retryHeld
    exact h7

theorem kept_stallPort (h : Kept q s) : ∀ a1 a2, Kept q (stallPort s a1 a2) := by
  intro a1 a2
  unfold stallPort
  extract_lets v0 v1
  refine kept_ite ?_ ?_
  · exact h
  · apply kept_qtzEvent
    apply kept_setPortState
    exact h

theorem kept_leaveService (h : Kept q s) : ∀ a1 a2, Kept q (leaveService s a1 a2) := by
  intro a1 a2
  unfold leaveService
  refine kept_ite ?_ ?_
  · apply kept_stallPort
    exact h
  · exact h

theorem kept_groupShow (h : Kept q s) : ∀ a1, Kept q (groupShow s a1) := by
  intro a1
  unfold groupShow
  extract_lets v0 v1
  have h2 : Kept q v0 := by
    unfold v0
    apply kept_setF
    exact h
  clear_value v0
  have h3 : Kept q v1 := by
    unfold v1
    apply kept_setF
    exact h2
  clear_value v1
  apply kept_setF
  exact h3

theorem kept_laneShow (h : Kept q s) : ∀ a1, Kept q (laneShow s a1) := by
  intro a1
  unfold laneShow
  split
  · apply kept_setF
    exact h
  · refine kept_ite ?_ ?_
    · apply kept_groupShow
      exact h
    · apply kept_foldl
      · apply kept_groupShow
        exact h
      · intro x0 x1 h2
        split
        · apply kept_groupShow
          exact h2
        · exact h2
  · exact h

theorem kept_setLinks (h : Kept q s) : ∀ a1, Kept q (setLinks s a1) := by
  intro a1
  unfold setLinks
  refine kept_rec ?_
  apply kept_parts
  exact h

theorem kept_setLane (h : Kept q s) : ∀ a1 a2, Kept q (setLane s a1 a2) := by
  intro a1 a2
  unfold setLane
  apply kept_laneShow
  apply kept_setLinks
  exact h

theorem kept_adaptCtle (h : Kept q s) : ∀ a1, Kept q (adaptCtle s a1) := by
  intro a1
  unfold adaptCtle
  split
  · exact h
  · split
    apply kept_setLane
    refine kept_snd (by assumption) ?_
    apply kept_takeFree
    exact h

theorem kept_enterLane (h : Kept q s) : ∀ a1 a2, Kept q (enterLane s a1 a2) := by
  intro a1 a2
  unfold enterLane
  extract_lets v0
  have h1 : Kept q v0 := by
    unfold v0
    apply kept_setLane
    exact h
  clear_value v0
  refine kept_ite ?_ ?_
  · apply kept_adaptCtle
    exact h1
  · exact h1

theorem kept_allLanes (h : Kept q s) : ∀ a1 a2, Kept q (allLanes s a1 a2) := by
  intro a1 a2
  unfold allLanes
  apply kept_foldl
  · exact h
  · intro x0 x1 h2
    extract_lets v3
    apply kept_enterLane
    exact h2

theorem kept_trainPort (h : Kept q s) : ∀ a1, Kept q (trainPort s a1) := by
  intro a1
  unfold trainPort
  extract_lets v0
  apply kept_leaveService
  apply kept_allLanes
  apply kept_setF
  exact h

theorem kept_trainGroup (h : Kept q s) : ∀ a1, Kept q (trainGroup s a1) := by
  intro a1
  unfold trainGroup
  split
  · apply kept_trainPort
    exact h
  · apply kept_foldl
    · exact h
    · intro x0 x1 h2
      extract_lets v3
      refine kept_ite ?_ ?_
      · apply kept_enterLane
        exact h2
      · exact h2
  · apply kept_foldl
    · exact h
    · intro x4 x5 h6
      refine kept_ite ?_ ?_
      · exact h6
      · apply kept_enterLane
        exact h6

theorem kept_panelTrain (h : Kept q s) : Kept q (panelTrain s) := by
  unfold panelTrain
  apply kept_trainGroup
  apply kept_foldl
  · exact h
  · intro x0 x1 h2
    apply kept_trainGroup
    exact h2

theorem kept_laneTest (h : Kept q s) : ∀ a1 a2 a3, Kept q (laneTest s a1 a2 a3) := by
  intro a1 a2 a3
  unfold laneTest
  extract_lets v0 v1 v2
  split
  · refine kept_ite ?_ ?_
    · apply kept_leaveService
      apply kept_allLanes
      exact h
    · refine kept_ite ?_ ?_
      · refine kept_ite ?_ ?_
        · apply kept_trainPort
          exact h
        · apply kept_allLanes
          exact h
      · exact h
  · refine kept_ite ?_ ?_
    · unfold v2
      extract_lets v3
      have h4 : Kept q v3 := by
        unfold v3
        apply kept_foldl
        · exact h
        · intro x5 x6 h7
          apply kept_foldl
          · exact h7
          · intro x8 x9 h10
            apply kept_enterLane
            exact h10
      clear_value v3
      apply kept_foldl
      · exact h4
      · intro x11 x12 h13
        apply kept_enterLane
        exact h13
    · refine kept_ite ?_ ?_
      · refine kept_ite ?_ ?_
        · unfold v2
          extract_lets v14
          have h15 : Kept q v14 := by
            unfold v14
            apply kept_foldl
            · exact h
            · intro x16 x17 h18
              apply kept_foldl
              · exact h18
              · intro x19 x20 h21
                apply kept_enterLane
                exact h21
          clear_value v14
          apply kept_foldl
          · exact h15
          · intro x22 x23 h24
            apply kept_enterLane
            exact h24
        · apply kept_panelTrain
          unfold v2
          extract_lets v25
          have h26 : Kept q v25 := by
            unfold v25
            apply kept_foldl
            · exact h
            · intro x27 x28 h29
              apply kept_foldl
              · exact h29
              · intro x30 x31 h32
                apply kept_enterLane
                exact h32
          clear_value v25
          apply kept_foldl
          · exact h26
          · intro x33 x34 h35
            apply kept_enterLane
            exact h35
      · exact h

end Sys2Proof.Machine
end

