-- ==== Sys2Proof/Laws/Kept2.lean ====
section
/-! SUPPORT. What each operation keeps, part 2 of 5, in the order in which one calls the other. -/

namespace Sys2Proof.Machine

variable {q : Prop × List Instr × Nat} {s : State}

theorem kept_setSl (h : Kept q s) : ∀ a1 a2, Kept q (setSl s a1 a2) := by
  intro a1 a2
  unfold setSl
  apply kept_setLinks
  exact h

theorem kept_linkCtrlWrite (h : Kept q s) : ∀ a1 a2, Kept q (linkCtrlWrite s a1 a2) := by
  intro a1 a2
  unfold linkCtrlWrite
  extract_lets v0 v1 v2 v3 v4
  have h5 : Kept q v2 := by
    unfold v2
    apply kept_writeKey
    exact h
  clear_value v2
  refine kept_ite ?_ ?_
  · apply kept_leaveService
    apply kept_allLanes
    apply kept_setF
    exact h5
  · refine kept_ite ?_ ?_
    · apply kept_laneTest
      exact h5
    · refine kept_ite ?_ ?_
      · apply kept_trainPort
        apply kept_setSl
        exact h5
      · exact h5

theorem kept_eyeWrite (h : Kept q s) : ∀ a1 a2, Kept q (eyeWrite s a1 a2) := by
  intro a1 a2
  unfold eyeWrite
  split
  extract_lets v0
  have h1 : Kept q v0 := by
    unfold v0
    apply kept_writeKey
    exact h
  clear_value v0
  refine kept_ite ?_ ?_
  · exact h1
  · apply kept_setReg
    apply kept_setLinks
    exact h1

theorem kept_quartzWrite (h : Kept q s) : ∀ a1 a2 a3, Kept q (quartzWrite s a1 a2 a3) := by
  intro a1 a2 a3
  unfold quartzWrite
  refine kept_ite ?_ ?_
  · apply kept_portCtrlWrite
    exact h
  · refine kept_ite ?_ ?_
    · apply kept_linkCtrlWrite
      exact h
    · refine kept_ite ?_ ?_
      · apply kept_eyeWrite
        exact h
      · apply kept_plainWrite
        exact h

theorem kept_channelQuarantine (h : Kept q s) : ∀ a1, Kept q (channelQuarantine s a1) := by
  intro a1
  unfold channelQuarantine
  extract_lets v0
  refine kept_ite ?_ ?_
  · exact h
  · apply kept_raise
    refine kept_rec ?_
    apply kept_parts
    exact h

theorem kept_wantPewter (h : Kept q s) : ∀ a1, Kept q (wantPewter s a1) := by
  intro a1
  unfold wantPewter
  extract_lets v0
  refine kept_ite ?_ ?_
  · exact h
  · refine kept_rec ?_
    apply kept_parts
    exact h

theorem kept_dramOutOfService (h : Kept q s) : ∀ a1 a2, Kept q (dramOutOfService s a1 a2) := by
  intro a1 a2
  unfold dramOutOfService
  extract_lets v0 v1 v2 v3
  have h4 : Kept q v0 := by
    unfold v0
    apply kept_channelQuarantine
    exact h
  clear_value v0
  have h5 : Kept q v1 := by
    unfold v1
    apply kept_setF
    exact h4
  clear_value v1
  have h6 : Kept q v3 := by
    unfold v3
    refine kept_rec ?_
    apply kept_parts
    exact h5
  clear_value v3
  refine kept_ite ?_ ?_
  · exact h4
  · apply kept_raise
    apply kept_wantPewter
    exact h6

theorem kept_checkChannel (h : Kept q s) : ∀ a1, Kept q (checkChannel s a1) := by
  intro a1
  unfold checkChannel
  extract_lets v0
  refine kept_ite ?_ ?_
  · apply kept_dramOutOfService
    exact h
  · exact h

theorem kept_setQuad (h : Kept q s) : ∀ a1 a2, Kept q (setQuad s a1 a2) := by
  intro a1 a2
  unfold setQuad
  extract_lets v0
  refine kept_rec ?_
  apply kept_parts
  exact h

theorem kept_setRankState (h : Kept q s) : ∀ a1 a2 a3, Kept q (setRankState s a1 a2 a3) := by
  intro a1 a2 a3
  unfold setRankState
  apply kept_setF
  exact h

theorem kept_ranksShow (h : Kept q s) : ∀ a1, Kept q (ranksShow s a1) := by
  intro a1
  unfold ranksShow
  extract_lets v0 v1 v2 v3 v4
  have h5 : Kept q v4 := by
    unfold v4
    apply kept_setQuad
    exact h
  clear_value v4
  apply kept_foldl
  · exact h5
  · intro x6 x7 h8
    apply kept_setRankState
    exact h8

theorem kept_bringUpNow (h : Kept q s) : Kept q (bringUpNow s) := by
  unfold bringUpNow
  extract_lets v0 v1 v2 v3
  have h4 : Kept q v0 := by
    unfold v0
    apply kept_setF
    exact h
  clear_value v0
  have h5 : Kept q v3 := by
    unfold v3
    refine kept_rec ?_
    apply kept_parts
    exact h4
  clear_value v3
  refine kept_ite ?_ ?_
  · apply kept_foldl
    · apply kept_foldl
      · exact h5
      · intro x6 x7 h8
        apply kept_ranksShow
        exact h8
    · intro x9 x10 h11
      apply kept_checkChannel
      exact h11
  · exact h

theorem kept_bringUp (h : Kept q s) : Kept q (bringUp s) := by
  unfold bringUp
  extract_lets v0
  refine kept_ite ?_ ?_
  · apply kept_bringUpNow
    exact h
  · refine kept_ite ?_ ?_
    · refine kept_rec ?_
      apply kept_parts
      exact h
    · exact h

theorem kept_bauxiteWrite (h : Kept q s) : ∀ a1 a2 a3 a4, Kept q (bauxiteWrite s a1 a2 a3 a4) := by
  intro a1 a2 a3 a4
  unfold bauxiteWrite
  extract_lets v0
  have h1 : Kept q v0 := by
    unfold v0
    apply kept_plainWrite
    exact h
  clear_value v0
  refine kept_ite ?_ ?_
  · exact h
  · refine kept_ite ?_ ?_
    · apply kept_bringUp
      exact h1
    · exact h1

theorem kept_setBorax (h : Kept q s) : ∀ a1, Kept q (setBorax s a1) := by
  intro a1
  unfold setBorax
  refine kept_rec ?_
  apply kept_parts
  exact h

theorem kept_setRet (h : Kept q s) : ∀ a1, Kept q (setRet s a1) := by
  intro a1
  unfold setRet
  apply kept_setBorax
  exact h

theorem kept_retCtrlWrite (h : Kept q s) : ∀ a1, Kept q (retCtrlWrite s a1) := by
  intro a1
  unfold retCtrlWrite
  extract_lets v0 v1
  have h2 : Kept q v1 := by
    unfold v1
    apply kept_writeKey
    exact h
  clear_value v1
  refine kept_ite ?_ ?_
  · apply kept_setRet
    exact h2
  · exact h2

theorem kept_queueJob (h : Kept q s) : ∀ a1 a2, Kept q (queueJob s a1 a2) := by
  intro a1 a2
  unfold queueJob
  apply kept_boraxStatus
  apply kept_setBorax
  exact h

theorem kept_jobSubmit (h : Kept q s) : ∀ a1 a2, Kept q (jobSubmit s a1 a2) := by
  intro a1 a2
  unfold jobSubmit
  extract_lets v0 v1 v2 v3
  refine kept_ite ?_ ?_
  · exact h
  · refine kept_ite ?_ ?_
    · apply kept_setF
      apply kept_bump
      exact h
    · apply kept_setF
      apply kept_queueJob
      exact h

theorem kept_boraxWrite (h : Kept q s) : ∀ a1 a2 a3, Kept q (boraxWrite s a1 a2 a3) := by
  intro a1 a2 a3
  unfold boraxWrite
  refine kept_ite ?_ ?_
  · apply kept_retCtrlWrite
    exact h
  · refine kept_ite ?_ ?_
    · apply kept_jobSubmit
      exact h
    · apply kept_plainWrite
      exact h

theorem kept_micaStatus (h : Kept q s) : Kept q (micaStatus s) := by
  unfold micaStatus
  extract_lets v0
  apply kept_setReg
  exact h

theorem kept_updateRequest (h : Kept q s) : Kept q (updateRequest s) := by
  unfold updateRequest
  extract_lets v0 v1 v2 v3 v4
  have h5 : Kept q v2 := by
    unfold v2
    refine kept_ite ?_ ?_
    · apply kept_bump
      exact h
    · exact h
  clear_value v2
  have h6 : Kept q v3 := by
    unfold v3
    apply kept_setMica
    exact h5
  clear_value v3
  have h7 : Kept q v4 := by
    unfold v4
    apply kept_foldl
    · exact h6
    · intro x8 x9 h10
      apply kept_mcaEvent
      exact h10
  clear_value v4
  apply kept_micaStatus
  exact h7

theorem kept_planeMark (h : Kept q s) : ∀ a1, Kept q (planeMark s a1) := by
  intro a1
  unfold planeMark
  apply kept_micaStatus
  apply kept_setMica
  exact h

theorem kept_lutWrite (h : Kept q s) : ∀ a1 a2, Kept q (lutWrite s a1 a2) := by
  intro a1 a2
  unfold lutWrite
  extract_lets v0
  refine kept_ite ?_ ?_
  · exact h
  · refine kept_ite ?_ ?_
    · apply kept_bump
      exact h
    · apply kept_writeKey
      exact h

theorem kept_micaWrite (h : Kept q s) : ∀ a1 a2 a3, Kept q (micaWrite s a1 a2 a3) := by
  intro a1 a2 a3
  unfold micaWrite
  refine kept_ite ?_ ?_
  · refine kept_ite ?_ ?_
    · apply kept_updateRequest
      exact h
    · exact h
  · refine kept_ite ?_ ?_
    · apply kept_planeMark
      exact h
    · refine kept_ite ?_ ?_
      · apply kept_bltCtrlWrite
        exact h
      · refine kept_ite ?_ ?_
        · apply kept_lutWrite
          exact h
        · apply kept_plainWrite
          exact h

theorem kept_modeAsk (h : Kept q s) : ∀ a1, Kept q (modeAsk s a1) := by
  intro a1
  unfold modeAsk
  refine kept_ite ?_ ?_
  · refine kept_ite ?_ ?_
    · apply kept_setObs
      exact h
    · apply kept_wantPewter
      exact h
  · refine kept_ite ?_ ?_
    · refine kept_ite ?_ ?_
      · apply kept_setObs
        exact h
      · refine kept_ite ?_ ?_
        · apply kept_setObs
          exact h
        · exact h
    · exact h

theorem kept_waveCommit (h : Kept q s) : Kept q (waveCommit s) := by
  unfold waveCommit
  apply kept_setObs
  exact h

theorem kept_panelCtrlWrite (h : Kept q s) : ∀ a1, Kept q (panelCtrlWrite s a1) := by
  intro a1
  unfold panelCtrlWrite
  extract_lets v0 v1
  have h2 : Kept q v0 := by
    unfold v0
    apply kept_modeAsk
    apply kept_writeKey
    exact h
  clear_value v0
  have h3 : Kept q v1 := by
    unfold v1
    refine kept_ite ?_ ?_
    · apply kept_waveCommit
      exact h2
    · exact h2
  clear_value v1
  refine kept_ite ?_ ?_
  · apply kept_powerAsk
    exact h3
  · refine kept_ite ?_ ?_
    · apply kept_powerAsk
      exact h3
    · exact h3

theorem kept_gtSafeWrite (h : Kept q s) : ∀ a1, Kept q (gtSafeWrite s a1) := by
  intro a1
  unfold gtSafeWrite
  extract_lets v0
  have h1 : Kept q v0 := by
    unfold v0
    apply kept_writeKey
    exact h
  clear_value v0
  apply kept_setObs
  exact h1

theorem kept_pmicCtrlWrite (h : Kept q s) : ∀ a1, Kept q (pmicCtrlWrite s a1) := by
  intro a1
  unfold pmicCtrlWrite
  extract_lets v0
  have h1 : Kept q v0 := by
    unfold v0
    apply kept_writeKey
    exact h
  clear_value v0
  refine kept_ite ?_ ?_
  · apply kept_scriptAsk
    exact h1
  · exact h1

theorem kept_calStatus (h : Kept q s) : Kept q (calStatus s) := by
  unfold calStatus
  extract_lets v0
  have h1 : Kept q v0 := by
    unfold v0
    apply kept_setF
    exact h
  clear_value v0
  apply kept_setF
  exact h1

theorem kept_setCal (h : Kept q s) : ∀ a1, Kept q (setCal s a1) := by
  intro a1
  unfold setCal
  refine kept_rec ?_
  apply kept_parts
  exact h

theorem kept_drvMore (h : Kept q s) : ∀ a1, Kept q (drvMore s a1) := by
  intro a1
  unfold drvMore
  extract_lets v0
  have h1 : Kept q v0 := by
    unfold v0
    apply kept_setObs
    exact h
  clear_value v0
  apply kept_foldl
  · exact h1
  · intro x2 x3 h4
    apply kept_foldl
    · exact h4
    · intro x5 x6 h7
      extract_lets v8
      refine kept_rec ?_
      apply kept_parts
      exact h7

theorem kept_drvAsk (h : Kept q s) : ∀ a1, Kept q (drvAsk s a1) := by
  intro a1
  unfold drvAsk
  refine kept_ite ?_ ?_
  · apply kept_drvMore
    exact h
  · apply kept_setObs
    exact h

theorem kept_calFirstRead (h : Kept q s) : Kept q (calFirstRead s) := by
  unfold calFirstRead
  extract_lets v0
  have h1 : Kept q v0 := by
    unfold v0
    apply kept_setCal
    exact h
  clear_value v0
  split
  · exact h
  · refine kept_ite ?_ ?_
    · exact h
    · apply kept_drvAsk
      exact h1

theorem kept_calBegin (h : Kept q s) : ∀ a1, Kept q (calBegin s a1) := by
  intro a1
  unfold calBegin
  apply kept_calStatus
  apply kept_calFirstRead
  apply kept_setCal
  exact h

theorem kept_calAsk (h : Kept q s) : ∀ a1, Kept q (calAsk s a1) := by
  intro a1
  unfold calAsk
  refine kept_ite ?_ ?_
  · apply kept_calStatus
    apply kept_setCal
    exact h
  · apply kept_calBegin
    exact h

theorem kept_calStart (h : Kept q s) : Kept q (calStart s) := by
  unfold calStart
  apply kept_calAsk
  exact h

theorem kept_calCtrlWrite (h : Kept q s) : ∀ a1, Kept q (calCtrlWrite s a1) := by
  intro a1
  unfold calCtrlWrite
  extract_lets v0
  have h1 : Kept q v0 := by
    unfold v0
    apply kept_writeKey
    exact h
  clear_value v0
  refine kept_ite ?_ ?_
  · apply kept_calStart
    exact h1
  · exact h1

theorem kept_obsLinkWrite (h : Kept q s) : ∀ a1, Kept q (obsLinkWrite s a1) := by
  intro a1
  unfold obsLinkWrite
  extract_lets v0
  apply kept_laneTest
  apply kept_writeKey
  exact h

theorem kept_scriptWrite (h : Kept q s) : ∀ a1 a2, Kept q (scriptWrite s a1 a2) := by
  intro a1 a2
  unfold scriptWrite
  extract_lets v0
  have h1 : Kept q v0 := by
    unfold v0
    apply kept_writeKey
    exact h
  clear_value v0
  refine kept_ite ?_ ?_
  · apply kept_setObs
    exact h1
  · exact h1

theorem kept_pewterPut (h : Kept q s) : ∀ a1 a2, Kept q (pewterPut s a1 a2) := by
  intro a1 a2
  unfold pewterPut
  apply kept_setObs
  exact h

theorem kept_obsidianWrite (h : Kept q s) : ∀ a1 a2 a3, Kept q (obsidianWrite s a1 a2 a3) := by
  intro a1 a2 a3
  unfold obsidianWrite
  refine kept_ite ?_ ?_
  · refine kept_ite ?_ ?_
    · exact h
    · apply kept_plainWrite
      exact h
  · refine kept_ite ?_ ?_
    · apply kept_panelCtrlWrite
      exact h
    · refine kept_ite ?_ ?_
      · apply kept_gtSafeWrite
        exact h
      · refine kept_ite ?_ ?_
        · apply kept_pmicCtrlWrite
          exact h
        · refine kept_ite ?_ ?_
          · apply kept_calCtrlWrite
            exact h
          · refine kept_ite ?_ ?_
            · apply kept_obsLinkWrite
              exact h
            · refine kept_ite ?_ ?_
              · apply kept_eyeWrite
                exact h
              · refine kept_ite ?_ ?_
                · apply kept_scriptWrite
                  exact h
                · refine kept_ite ?_ ?_
                  · apply kept_pewterPut
                    exact h
                  · apply kept_plainWrite
                    exact h

theorem kept_ptpProfile (h : Kept q s) : ∀ a1, Kept q (ptpProfile s a1) := by
  intro a1
  unfold ptpProfile
  extract_lets v0 v1 v2
  have h3 : Kept q v0 := by
    unfold v0
    apply kept_setF
    exact h
  clear_value v0
  have h4 : Kept q v1 := by
    unfold v1
    apply kept_setF
    exact h3
  clear_value v1
  have h5 : Kept q v2 := by
    unfold v2
    refine kept_ite ?_ ?_
    · apply kept_setF
      exact h4
    · exact h4
  clear_value v2
  apply kept_setReg
  exact h5

theorem kept_setPortStatePtp (h : Kept q s) : ∀ a1, Kept q (setPortStatePtp s a1) := by
  intro a1
  unfold setPortStatePtp
  apply kept_setF
  exact h

theorem kept_timeEvent (h : Kept q s) : ∀ a1 a2 a3 a4, Kept q (timeEvent s a1 a2 a3 a4) := by
  intro a1 a2 a3 a4
  unfold timeEvent
  apply kept_raise
  exact h

theorem kept_setServo (h : Kept q s) : ∀ a1, Kept q (setServo s a1) := by
  intro a1
  unfold setServo
  apply kept_setTport
  exact h

theorem kept_setServoState (h : Kept q s) : ∀ a1, Kept q (setServoState s a1) := by
  intro a1
  unfold setServoState
  extract_lets v0 v1
  have h2 : Kept q v1 := by
    unfold v1
    apply kept_setF
    exact h
  clear_value v1
  refine kept_ite ?_ ?_
  · exact h
  · apply kept_timeEvent
    apply kept_setServo
    exact h2

theorem kept_acquire (h : Kept q s) : Kept q (acquire s) := by
  unfold acquire
  apply kept_setF
  apply kept_setServo
  exact h

theorem kept_sourceChanged (h : Kept q s) : ∀ a1, Kept q (sourceChanged s a1) := by
  intro a1
  unfold sourceChanged
  extract_lets v0 v1 v2 v3
  have h4 : Kept q v2 := by
    unfold v2
    apply kept_setTport
    exact h
  clear_value v2
  have h5 : Kept q v3 := by
    unfold v3
    apply kept_setPortStatePtp
    exact h4
  clear_value v3
  refine kept_ite ?_ ?_
  · exact h
  · refine kept_ite ?_ ?_
    · apply kept_setServoState
      apply kept_setServo
      exact h5
    · refine kept_ite ?_ ?_
      · apply kept_acquire
        exact h5
      · exact h5

theorem kept_ptpCtrlWrite (h : Kept q s) : ∀ a1, Kept q (ptpCtrlWrite s a1) := by
  intro a1
  unfold ptpCtrlWrite
  extract_lets v0 v1 v2 v3 v4 v5 v6 v7
  have h8 : Kept q v2 := by
    unfold v2
    refine kept_ite ?_ ?_
    · apply kept_ptpProfile
      exact h
    · exact h
  clear_value v2
  have h9 : Kept q v6 := by
    unfold v6
    refine kept_ite ?_ ?_
    · exact h
    · apply kept_setReg
      exact h8
  clear_value v6
  have h10 : Kept q v7 := by
    unfold v7
    refine kept_ite ?_ ?_
    · apply kept_sourceChanged
      apply kept_setF
      exact h9
    · exact h9
  clear_value v7
  refine kept_ite ?_ ?_
  · apply kept_acquire
    exact h10
  · exact h10

theorem kept_ptpIntervalsWrite (h : Kept q s) : ∀ a1, Kept q (ptpIntervalsWrite s a1) := by
  intro a1
  unfold ptpIntervalsWrite
  extract_lets v0 v1 v2 v3 v4 v5 v6 v7 v8
  refine kept_ite ?_ ?_
  · exact h
  · apply kept_setReg
    exact h

theorem kept_stepPending (h : Kept q s) : ∀ a1, Kept q (stepPending s a1) := by
  intro a1
  unfold stepPending
  extract_lets v0 v1 v2
  have h3 : Kept q v2 := by
    unfold v2
    apply kept_setTport
    exact h
  clear_value v2
  apply kept_setAudio
  exact h3

theorem kept_settleTime (h : Kept q s) : ∀ a1, Kept q (settleTime s a1) := by
  intro a1
  unfold settleTime
  split
  · refine kept_ite ?_ ?_
    · apply kept_mirrorSend
      apply kept_setFlint
      exact h
    · exact h
  · exact h

theorem kept_setTrg (h : Kept q s) : ∀ a1 a2, Kept q (setTrg s a1 a2) := by
  intro a1 a2
  unfold setTrg
  apply kept_setTport
  exact h

theorem kept_stepTrigger (h : Kept q s) : ∀ a1 a2 a3, Kept q (stepTrigger s a1 a2 a3) := by
  intro a1 a2 a3
  unfold stepTrigger
  extract_lets v0
  split
  · exact h
  · extract_lets v1 v2
    refine kept_ite ?_ ?_
    · refine kept_ite ?_ ?_
      · apply kept_timeEvent
        apply kept_setTrg
        exact h
      · refine kept_ite ?_ ?_
        · apply kept_setTrg
          exact h
        · exact h
    · refine kept_ite ?_ ?_
      · refine kept_ite ?_ ?_
        · apply kept_timeEvent
          apply kept_setTrg
          exact h
        · refine kept_ite ?_ ?_
          · apply kept_setTrg
            exact h
          · exact h
      · exact h

theorem kept_showLag (h : Kept q s) : Kept q (showLag s) := by
  unfold showLag
  extract_lets v0
  apply kept_setF
  exact h

theorem kept_timeStep (h : Kept q s) : ∀ a1, Kept q (timeStep s a1) := by
  intro a1
  unfold timeStep
  extract_lets v0 v1 v2 v3 v4 v5 v6
  have h7 : Kept q v2 := by
    unfold v2
    apply kept_stepPending
    refine kept_rec ?_
    apply kept_parts
    exact h
  clear_value v2
  have h8 : Kept q v3 := by
    unfold v3
    apply kept_timeEvent
    exact h7
  clear_value v3
  have h9 : Kept q v4 := by
    unfold v4
    apply kept_settleTime
    apply kept_settleTime
    exact h8
  clear_value v4
  have h10 : Kept q v5 := by
    unfold v5
    refine kept_ite ?_ ?_
    · apply kept_foldl
      · exact h9
      · intro x11 x12 h13
        apply kept_stepTrigger
        exact h13
    · exact h9
  clear_value v5
  refine kept_ite ?_ ?_
  · apply kept_showLag
    refine kept_rec ?_
    apply kept_parts
    exact h10
  · exact h10

theorem kept_timeSet (h : Kept q s) : Kept q (timeSet s) := by
  unfold timeSet
  extract_lets v0
  refine kept_ite ?_ ?_
  · exact h
  · refine kept_ite ?_ ?_
    · apply kept_setServo
      exact h
    · apply kept_timeStep
      exact h

theorem kept_timeLinkIn (h : Kept q s) : ∀ a1 a2, Kept q (timeLinkIn s a1 a2) := by
  intro a1 a2
  unfold timeLinkIn
  extract_lets v0
  apply kept_raise
  apply kept_setF
  exact h

theorem kept_timeLinkCtrlWrite (h : Kept q s) : ∀ a1, Kept q (timeLinkCtrlWrite s a1) := by
  intro a1
  unfold timeLinkCtrlWrite
  extract_lets v0
  have h1 : Kept q v0 := by
    unfold v0
    apply kept_writeKey
    exact h
  clear_value v0
  refine kept_ite ?_ ?_
  · apply kept_timeLinkIn
    exact h1
  · exact h1

theorem kept_triggerArm (h : Kept q s) : ∀ a1, Kept q (triggerArm s a1) := by
  intro a1
  unfold triggerArm
  extract_lets v0 v1 v2 v3 v4
  apply kept_setTrg
  exact h

theorem kept_triggerFire (h : Kept q s) : ∀ a1, Kept q (triggerFire s a1) := by
  intro a1
  unfold triggerFire
  split
  · refine kept_ite ?_ ?_
    · apply kept_setTrg
      exact h
    · exact h
  · exact h

theorem kept_trgCtrlWrite (h : Kept q s) : ∀ a1 a2, Kept q (trgCtrlWrite s a1 a2) := by
  intro a1 a2
  unfold trgCtrlWrite
  extract_lets v0 v1
  have h2 : Kept q v0 := by
    unfold v0
    apply kept_writeKey
    exact h
  clear_value v0
  have h3 : Kept q v1 := by
    unfold v1
    refine kept_ite ?_ ?_
    · apply kept_triggerArm
      exact h2
    · exact h2
  clear_value v1
  refine kept_ite ?_ ?_
  · apply kept_triggerFire
    exact h3
  · exact h3

theorem kept_garnetWrite (h : Kept q s) : ∀ a1 a2 a3, Kept q (garnetWrite s a1 a2 a3) := by
  intro a1 a2 a3
  unfold garnetWrite
  extract_lets v0
  have h1 : Kept q v0 := by
    unfold v0
    apply kept_plainWrite
    exact h
  clear_value v0
  refine kept_ite ?_ ?_
  · apply kept_audioPortWrite
    exact h
  · refine kept_ite ?_ ?_
    · apply kept_lockGroupWrite
      exact h
    · refine kept_ite ?_ ?_
      · refine kept_ite ?_ ?_
        · apply kept_audioStop
          refine kept_ite ?_ ?_
          · apply kept_audioArm
            exact h
          · exact h
        · apply kept_audioArm
          exact h
      · refine kept_ite ?_ ?_
        · apply kept_ptpCtrlWrite
          exact h
        · refine kept_ite ?_ ?_
          · apply kept_ptpIntervalsWrite
            exact h
          · refine kept_ite ?_ ?_
            · refine kept_ite ?_ ?_
              · apply kept_timeSet
                exact h1
              · exact h1
            · refine kept_ite ?_ ?_
              · apply kept_timeLinkCtrlWrite
                exact h
              · refine kept_ite ?_ ?_
                · apply kept_trgCtrlWrite
                  exact h
                · apply kept_plainWrite
                  exact h

theorem kept_busWrite (h : Kept q s) : ∀ a1 a2 a3, Kept q (busWrite s a1 a2 a3) := by
  intro a1 a2 a3
  unfold busWrite
  extract_lets v0 v1
  refine kept_ite ?_ ?_
  · exact h
  · refine kept_ite ?_ ?_
    · apply kept_whenSlate
      · exact h
      · intro x2 h3
        apply kept_slateWrite
        exact h3
    · refine kept_ite ?_ ?_
      · apply kept_flintWrite
        exact h
      · refine kept_ite ?_ ?_
        · apply kept_flintWrite
          exact h
        · refine kept_ite ?_ ?_
          · apply kept_quartzWrite
            exact h
          · refine kept_ite ?_ ?_
            · exact h
            · refine kept_ite ?_ ?_
              · apply kept_bauxiteWrite
                exact h
              · refine kept_ite ?_ ?_
                · apply kept_boraxWrite
                  exact h
                · refine kept_ite ?_ ?_
                  · apply kept_micaWrite
                    exact h
                  · refine kept_ite ?_ ?_
                    · apply kept_obsidianWrite
                      exact h
                    · apply kept_garnetWrite
                      exact h

theorem kept_entryWrite (h : Kept q s) : ∀ a1 a2, Kept q (entryWrite s a1 a2) := by
  intro a1 a2
  unfold entryWrite
  apply kept_foldl
  · exact h
  · intro x0 x1 h2
    apply kept_busWrite
    exact h2

theorem kept_entryKeep (h : Kept q s) : ∀ a1, Kept q (entryKeep s a1) := by
  intro a1
  unfold entryKeep
  apply kept_setSlate
  · exact h
  · intro x0
    rfl

theorem kept_bootUnwind (h : Kept q s) : Kept q (bootUnwind s) := by
  unfold bootUnwind
  apply kept_powerTake
  apply kept_leaseClear
  exact h

theorem kept_setBoot (h : Kept q s) : ∀ a1, Kept q (setBoot s a1) := by
  intro a1
  unfold setBoot
  apply kept_bootShow
  apply kept_setSlate
  · exact h
  · intro x0
    rfl

theorem kept_slotFailed (h : Kept q s) : ∀ a1 a2, Kept q (slotFailed s a1 a2) := by
  intro a1 a2
  unfold slotFailed
  extract_lets v0
  have h1 : Kept q v0 := by
    unfold v0
    apply kept_setSlate
    · exact h
    · intro x2
      rfl
  clear_value v0
  apply kept_powerEvent
  apply kept_setF
  exact h1

theorem kept_slotUnwinds (h : Kept q s) : ∀ a1, Kept q (slotUnwinds s a1) := by
  intro a1
  unfold slotUnwinds
  split
  · exact h
  · apply kept_bootUnwind
    apply kept_setBoot
    apply kept_setSlate
    · apply kept_slotFailed
      exact h
    · intro x0
      rfl

theorem kept_bootEarly (h : Kept q s) : Kept q (bootEarly s) := by
  unfold bootEarly
  split
  · exact h
  · extract_lets v0 v1 v2 v3 v4
    have h5 : Kept q v1 := by
      unfold v1
      apply kept_setCal
      exact h
    clear_value v1
    have h6 : Kept q v2 := by
      unfold v2
      apply kept_foldl
      · exact h5
      · intro x7 x8 h9
        apply kept_entryKeep
        apply kept_entryWrite
        exact h9
    clear_value v2
    have h10 : Kept q v3 := by
      unfold v3
      refine kept_ite ?_ ?_
      · apply kept_bringUp
        exact h6
      · exact h6
    clear_value v3
    have h11 : Kept q v4 := by
      unfold v4
      apply kept_foldl
      · exact h10
      · intro x12 x13 h14
        apply kept_setFlint
        exact h14
    clear_value v4
    refine kept_ite ?_ ?_
    · apply kept_slotUnwinds
      exact h6
    · apply kept_setBoot
      exact h11

theorem kept_bootEnded (h : Kept q s) : Kept q (bootEnded s) := by
  unfold bootEnded
  refine kept_ite ?_ ?_
  · exact h
  · refine kept_ite ?_ ?_
    · apply kept_rebootAsk
      apply kept_setSlate
      · exact h
      · intro x0
        rfl
    · refine kept_ite ?_ ?_
      · apply kept_sleepAsk
        apply kept_setPwr
        exact h
      · exact h

theorem kept_enterRecovery (h : Kept q s) : ∀ a1, Kept q (enterRecovery s a1) := by
  intro a1
  unfold enterRecovery
  extract_lets v0 v1
  have h2 : Kept q v0 := by
    unfold v0
    apply kept_setSlate
    · exact h
    · intro x3
      rfl
  clear_value v0
  have h4 : Kept q v1 := by
    unfold v1
    apply kept_setPwr
    apply kept_setBoot
    exact h2
  clear_value v1
  apply kept_powerEvent
  exact h4

theorem kept_slotOrder (h : Kept q s) : Kept q (slotOrder s).2 := by
  unfold slotOrder
  extract_lets v0 v1
  have h2 : Kept q v1 := by
    unfold v1
    apply kept_setF
    apply kept_setSlate
    · exact h
    · intro x3
      rfl
  clear_value v1
  split
  · exact h
  · exact h2

theorem kept_flashSend (h : Kept q s) : ∀ a1, Kept q (flashSend s a1) := by
  intro a1
  unfold flashSend
  apply kept_setSlate
  · exact h
  · intro x0
    rfl

theorem kept_slotCheck (h : Kept q s) : ∀ i, Kept q (slotCheck s i).1 := by
  intro i
  unfold slotCheck
  extract_lets v1 v2 v3 v4 v5 v6 w t secs
  have hw : Kept q w := kept_flashSend h _
  clear_value w
  split
  · exact hw
  split
  · exact hw
  split
  · exact hw
  split
  · exact hw
  split
  · exact hw
  have ht : Kept q t := kept_setUnconfirmed hw _ _ _
  clear_value t
  split
  · exact ht
  split
  · exact ht
  clear_value secs
  split
  · exact ht
  · extract_lets
    split
    · exact ht
    split
    · exact ht
    · exact ht

theorem kept_bootPower (h : Kept q s) : ∀ a1, Kept q (bootPower s a1) := by
  intro a1
  unfold bootPower
  extract_lets v0
  have h1 : Kept q v0 := by
    unfold v0
    apply kept_setBoot
    apply kept_setSlate
    · exact h
    · intro x2
      rfl
  clear_value v0
  apply kept_powerTake
  exact h1

theorem kept_bootSlots (h : Kept q s) : ∀ l, Kept q (bootSlots s l) := by
  intro l
  induction l generalizing s with
  | nil => exact kept_enterRecovery h _
  | cons i r ih =>
    unfold bootSlots
    split
    · rename_i e
      exact kept_bootPower (kept_fst e (kept_slotCheck h _)) _
    · rename_i e
      exact ih (kept_slotFailed (kept_fst e (kept_slotCheck h _)) _ _)

theorem kept_bootChoose (h : Kept q s) : Kept q (bootChoose s) := by
  unfold bootChoose
  refine kept_ite ?_ ?_
  · apply kept_enterRecovery
    apply kept_foldl
    · exact h
    · intro x0 x1 h2
      apply kept_slotFailed
      exact h2
  · split
    apply kept_bootSlots
    refine kept_snd (by assumption) ?_
    apply kept_slotOrder
    apply kept_flashSend
    exact h

theorem kept_bootSettled (h : Kept q s) : Kept q (bootSettled s) := by
  unfold bootSettled
  extract_lets v0 v1
  refine kept_ite ?_ ?_
  · exact h
  · split
    · refine kept_ite ?_ ?_
      · exact h
      · apply kept_bootEarly
        apply kept_setPwr
        exact h
    · refine kept_ite ?_ ?_
      · apply kept_bootEnded
        apply kept_bootChoose
        exact h
      · exact h
    · exact h

theorem kept_reloadSettings (h : Kept q s) : ∀ a1, Kept q (reloadSettings s a1) := by
  intro a1
  unfold reloadSettings
  extract_lets v0 v1 v2 v3
  have h4 : Kept q v3 := by
    unfold v3
    apply kept_foldl
    · apply kept_setPhase
      exact h
    · intro x5 x6 h7
      extract_lets v8 v9
      refine kept_ite ?_ ?_
      · apply kept_plainWrite
        exact h7
      · apply kept_busWrite
        exact h7
  clear_value v3
  apply kept_setPhase
  exact h4

theorem kept_pllLocked (h : Kept q s) : ∀ a1, Kept q (pllLocked s a1) := by
  intro a1
  unfold pllLocked
  extract_lets v0 v1
  have h2 : Kept q v1 := by
    unfold v1
    apply kept_setPhase
    exact h
  clear_value v1
  split
  · refine kept_ite ?_ ?_
    · exact h2
    · apply kept_reloadSettings
      exact h2
  · apply kept_reloadSettings
    apply kept_setPhase
    exact h
  · exact h

theorem kept_powerSettled (h : Kept q s) : ∀ a1, Kept q (powerSettled s a1) := by
  intro a1
  unfold powerSettled
  extract_lets v0
  have h1 : Kept q v0 := by
    unfold v0
    split
    · refine kept_ite ?_ ?_
      · apply kept_setHeld
        exact h
      · apply kept_powerApply
        apply kept_setHeld
        exact h
    · exact h
  clear_value v0
  apply kept_pwrDone
  apply kept_powerDeferred
  exact h1

theorem kept_sensorsOff (h : Kept q s) : ∀ a1, Kept q (sensorsOff s a1) := by
  intro a1
  unfold sensorsOff
  apply kept_foldl
  · exact h
  · intro x0 x1 h2
    extract_lets v3 v4
    refine kept_ite ?_ ?_
    · apply kept_setF
      apply kept_setF
      refine kept_rec ?_
      apply kept_parts
      exact h2
    · exact h2

theorem kept_resetWindow (h : Kept q s) : ∀ a1, Kept q (resetWindow s a1) := by
  intro a1
  unfold resetWindow
  refine kept_rec ?_
  apply kept_parts
  exact h

theorem kept_setTags (h : Kept q s) : ∀ a1 a2, Kept q (setTags s a1 a2) := by
  intro a1 a2
  unfold setTags
  extract_lets v0
  refine kept_rec ?_
  apply kept_parts
  exact h

theorem kept_setNode (h : Kept q s) : ∀ a1 a2, Kept q (setNode s a1 a2) := by
  intro a1 a2
  unfold setNode
  extract_lets v0
  refine kept_rec ?_
  apply kept_parts
  exact h

theorem kept_ifacesReset (h : Kept q s) : ∀ a1, Kept q (ifacesReset s a1) := by
  intro a1
  unfold ifacesReset
  extract_lets v0
  have h1 : Kept q v0 := by
    unfold v0
    apply kept_setTags
    exact h
  clear_value v0
  apply kept_foldl
  · exact h1
  · intro x2 x3 h4
    apply kept_setNode
    exact h4

theorem kept_setLastAction (h : Kept q s) : ∀ a1 a2, Kept q (setLastAction s a1 a2) := by
  intro a1 a2
  unfold setLastAction
  apply kept_setLease
  exact h

theorem kept_lanesReset (h : Kept q s) : ∀ a1, Kept q (lanesReset s a1) := by
  intro a1
  unfold lanesReset
  refine kept_ite ?_ ?_
  · apply kept_setLinks
    exact h
  · apply kept_setLinks
    exact h

theorem kept_dramPowerLost (h : Kept q s) : Kept q (dramPowerLost s) := by
  unfold dramPowerLost
  extract_lets v0 v1 v2
  have h3 : Kept q v2 := by
    unfold v2
    refine kept_rec ?_
    apply kept_nil
    apply kept_parts
    exact h
  clear_value v2
  refine kept_ite ?_ ?_
  · exact h3
  · apply kept_setReg
    exact h3

theorem kept_micaOff (h : Kept q s) : Kept q (micaOff s) := by
  unfold micaOff
  refine kept_rec ?_
  apply kept_parts
  exact h

theorem kept_drvWaiting (h : Kept q s) : Kept q (drvWaiting s) := by
  unfold drvWaiting
  refine kept_ite ?_ ?_
  · exact h
  · apply kept_drvMore
    apply kept_setObs
    exact h

theorem kept_showRunning (h : Kept q s) : Kept q (showRunning s) := by
  unfold showRunning
  apply kept_foldl
  · exact h
  · intro x0 x1 h2
    refine kept_ite ?_ ?_
    · apply kept_setF
      exact h2
    · exact h2

theorem kept_shadowDropped (h : Kept q s) : ∀ a1 a2 a3, Kept q (shadowDropped s a1 a2 a3) := by
  intro a1 a2 a3
  unfold shadowDropped
  extract_lets v0
  have h1 : Kept q v0 := by
    unfold v0
    apply kept_bump
    exact h
  clear_value v0
  refine kept_ite ?_ ?_
  · exact h1
  · apply kept_brxEvent
    apply kept_setBorax
    exact h1

theorem kept_shadowClose (h : Kept q s) : ∀ a1 a2 a3, Kept q (shadowClose s a1 a2 a3) := by
  intro a1 a2 a3
  unfold shadowClose
  split
  · exact h
  · refine kept_ite ?_ ?_
    · apply kept_shadowDropped
      apply kept_setBorax
      exact h
    · apply kept_setBorax
      exact h

theorem kept_shadowStop (h : Kept q s) : Kept q (shadowStop s) := by
  unfold shadowStop
  apply kept_foldl
  · exact h
  · intro x0 x1 h2
    apply kept_shadowClose
    exact h2

theorem kept_timingStop (h : Kept q s) : Kept q (timingStop s) := by
  unfold timingStop
  extract_lets v0 v1
  have h2 : Kept q v0 := by
    unfold v0
    refine kept_ite ?_ ?_
    · apply kept_setCal
      exact h
    · exact h
  clear_value v0
  apply kept_takeReady
  apply kept_drvWaiting
  apply kept_showRunning
  apply kept_shadowStop
  refine kept_rec ?_
  apply kept_parts
  exact h2

theorem kept_clockUnitOff (h : Kept q s) : Kept q (clockUnitOff s) := by
  unfold clockUnitOff
  apply kept_setTport
  refine kept_rec ?_
  apply kept_parts
  exact h

theorem kept_powerLost (h : Kept q s) : ∀ a1, Kept q (powerLost s a1) := by
  intro a1
  unfold powerLost
  extract_lets v0 v1 v2 v3 v4 v5
  have h6 : Kept q v0 := by
    unfold v0
    apply kept_sensorsOff
    apply kept_setPhase
    apply kept_setCtl
    apply kept_resetWindow
    apply kept_ifacesReset
    exact h
  clear_value v0
  have h7 : Kept q v1 := by
    unfold v1
    apply kept_setLastAction
    exact h6
  clear_value v1
  have h8 : Kept q v2 := by
    unfold v2
    apply kept_lanesReset
    apply kept_timingStop
    apply kept_setObs
    exact h7
  clear_value v2
  have h9 : Kept q v3 := by
    unfold v3
    apply kept_setCal
    apply kept_setObs
    exact h8
  clear_value v3
  have h10 : Kept q v5 := by
    unfold v5
    refine kept_ite ?_ ?_
    · apply kept_setFlint
      exact h7
    · refine kept_ite ?_ ?_
      · apply kept_setFlint
        exact h7
      · refine kept_ite ?_ ?_
        · apply kept_lanesReset
          apply kept_setQuartz
          exact h7
        · refine kept_ite ?_ ?_
          · apply kept_setGal
            refine kept_rec ?_
            apply kept_parts
            exact h7
          · refine kept_ite ?_ ?_
            · refine kept_ite ?_ ?_
              · apply kept_setPwr
                apply kept_dramPowerLost
                exact h7
              · exact h7
            · refine kept_ite ?_ ?_
              · apply kept_setBorax
                exact h7
              · refine kept_ite ?_ ?_
                · apply kept_setStripes
                  apply kept_micaOff
                  exact h7
                · refine kept_ite ?_ ?_
                  · apply kept_setF
                    exact h9
                  · refine kept_ite ?_ ?_
                    · refine kept_rec ?_
                      apply kept_parts
                      exact h7
                    · exact h7
  clear_value v5
  refine kept_ite ?_ ?_
  · exact h10
  · apply kept_clockUnitOff
    exact h10

theorem kept_countReport (h : Kept q s) : ∀ a1, Kept q (countReport s a1) := by
  intro a1
  unfold countReport
  apply kept_setCtl
  exact h

theorem kept_setBlock (h : Kept q s) : ∀ a1 a2 a3, Kept q (setBlock s a1 a2 a3) := by
  intro a1 a2 a3
  unfold setBlock
  apply kept_setGal
  exact h

theorem kept_handOverCell (h : Kept q s) : ∀ a1 a2 a3, Kept q (handOverCell s a1 a2 a3) := by
  intro a1 a2 a3
  unfold handOverCell
  extract_lets v0 v1
  have h2 : Kept q v1 := by
    unfold v1
    refine kept_rec ?_
    apply kept_parts
    exact h
  clear_value v1
  apply kept_setBlock
  exact h2

theorem kept_boraxBack (h : Kept q s) : ∀ a1, Kept q (boraxBack s a1) := by
  intro a1
  unfold boraxBack
  extract_lets v0
  have h1 : Kept q v0 := by
    unfold v0
    apply kept_setBorax
    exact h
  clear_value v0
  split
  · exact h
  · split
    · apply kept_setBorax
      exact h1
    · apply kept_setBorax
      exact h1
    · apply kept_setQuartz
      exact h1
    · apply kept_setBorax
      exact h1
    · apply kept_setBorax
      exact h1

theorem kept_cellHand (h : Kept q s) : ∀ a1 a2 a3, Kept q (cellHand s a1 a2 a3) := by
  intro a1 a2 a3
  unfold cellHand
  refine kept_ite ?_ ?_
  · apply kept_handOverCell
    exact h
  · refine kept_ite ?_ ?_
    · apply kept_boraxBack
      exact h
    · exact h

theorem kept_handOverBlock (h : Kept q s) : ∀ a1 a2, Kept q (handOverBlock s a1 a2) := by
  intro a1 a2
  unfold handOverBlock
  extract_lets v0 v1 v2
  have h3 : Kept q v1 := by
    unfold v1
    refine kept_rec ?_
    apply kept_parts
    exact h
  clear_value v1
  have h4 : Kept q v2 := by
    unfold v2
    apply kept_setBlock
    exact h3
  clear_value v2
  apply kept_setGal
  exact h4

theorem kept_overJob (h : Kept q s) : Kept q (overJob s) := by
  unfold overJob
  extract_lets v0
  split
  · exact h
  · refine kept_ite ?_ ?_
    · exact h
    · apply kept_queueJob
      apply kept_setBorax
      exact h

theorem kept_boraxHand (h : Kept q s) : ∀ a1, Kept q (boraxHand s a1) := by
  intro a1
  unfold boraxHand
  extract_lets v0 v1 v2
  have h3 : Kept q v0 := by
    unfold v0
    apply kept_foldl
    · exact h
    · intro x4 x5 h6
      apply kept_boraxBack
      exact h6
  clear_value v0
  have h7 : Kept q v2 := by
    unfold v2
    apply kept_setBorax
    exact h3
  clear_value v2
  apply kept_boraxStatus
  refine kept_ite ?_ ?_
  · exact h7
  · apply kept_foldl
    · exact h7
    · intro x8 x9 h10
      apply kept_overJob
      exact h10

theorem kept_blockHand (h : Kept q s) : ∀ a1 a2, Kept q (blockHand s a1 a2) := by
  intro a1 a2
  unfold blockHand
  refine kept_ite ?_ ?_
  · apply kept_handOverBlock
    exact h
  · refine kept_ite ?_ ?_
    · apply kept_boraxHand
      exact h
    · exact h

theorem kept_blockQuarantine (h : Kept q s) : ∀ a1 a2, Kept q (blockQuarantine s a1 a2) := by
  intro a1 a2
  unfold blockQuarantine
  refine kept_ite ?_ ?_
  · exact h
  · apply kept_blockHand
    apply kept_raise
    refine kept_rec ?_
    apply kept_parts
    exact h

theorem kept_outOfService (h : Kept q s) : ∀ a1, Kept q (outOfService s a1) := by
  intro a1
  unfold outOfService
  extract_lets v0
  have h1 : Kept q v0 := by
    unfold v0
    apply kept_powerEvent
    apply kept_setCtl
    exact h
  clear_value v0
  split
  · apply kept_startDrain
    exact h1
  · apply kept_setPhase
    exact h1

theorem kept_countReset (h : Kept q s) : ∀ a1, Kept q (countReset s a1) := by
  intro a1
  unfold countReset
  apply kept_setCtl
  exact h

theorem kept_abruptEnds (h : Kept q s) : ∀ a1 a2, Kept q (abruptEnds s a1 a2) := by
  intro a1 a2
  unfold abruptEnds
  extract_lets v0
  have h1 : Kept q v0 := by
    unfold v0
    apply kept_logAdd
    apply kept_setObs
    exact h
  clear_value v0
  refine kept_ite ?_ ?_
  · apply kept_setStep
    apply kept_setPanelState
    exact h1
  · exact h1

theorem kept_blpLow (h : Kept q s) : Kept q (blpLow s) := by
  unfold blpLow
  extract_lets v0 v1
  have h2 : Kept q v0 := by
    unfold v0
    apply kept_setObs
    exact h
  clear_value v0
  refine kept_rec ?_
  apply kept_parts
  exact h2

theorem kept_gtSet (h : Kept q s) : ∀ a1, Kept q (gtSet s a1) := by
  intro a1
  unfold gtSet
  apply kept_setObs
  exact h

theorem kept_drvSend (h : Kept q s) : ∀ a1, Kept q (drvSend s a1) := by
  intro a1
  unfold drvSend
  apply kept_drvMore
  apply kept_setObs
  exact h

theorem kept_abruptLoss (h : Kept q s) : ∀ a1, Kept q (abruptLoss s a1) := by
  intro a1
  unfold abruptLoss
  extract_lets v0 v1 v2 v3
  have h4 : Kept q v0 := by
    unfold v0
    apply kept_abruptEnds
    apply kept_setF
    apply kept_setStep
    exact h
  clear_value v0
  have h5 : Kept q v1 := by
    unfold v1
    apply kept_timingStop
    apply kept_blpLow
    exact h
  clear_value v1
  have h6 : Kept q v2 := by
    unfold v2
    apply kept_setObs
    exact h5
  clear_value v2
  have h7 : Kept q v3 := by
    unfold v3
    apply kept_portShow
    apply kept_setF
    exact h6
  clear_value v3
  refine kept_ite ?_ ?_
  · apply kept_setObs
    exact h4
  · apply kept_gtSet
    apply kept_drvSend
    exact h7

theorem kept_obsEvent (h : Kept q s) : ∀ a1 a2 a3, Kept q (obsEvent s a1 a2 a3) := by
  intro a1 a2 a3
  unfold obsEvent
  apply kept_raise
  exact h

theorem kept_safePanel (h : Kept q s) : ∀ a1 a2, Kept q (safePanel s a1 a2) := by
  intro a1 a2
  unfold safePanel
  refine kept_ite ?_ ?_
  · exact h
  · apply kept_abruptLoss
    apply kept_obsEvent
    exact h

theorem kept_startRejoin (h : Kept q s) : ∀ a1, Kept q (startRejoin s a1) := by
  intro a1
  unfold startRejoin
  refine kept_ite ?_ ?_
  · exact h
  · refine kept_ite ?_ ?_
    · apply kept_outOfService
      exact h
    · apply kept_startDrain
      exact h

theorem kept_regionFault (h : Kept q s) : ∀ a1, Kept q (regionFault s a1) := by
  intro a1
  unfold regionFault
  split
  · refine kept_ite ?_ ?_
    · apply kept_outOfService
      exact h
    · apply kept_setPhase
      apply kept_countReset
      exact h
  · refine kept_ite ?_ ?_
    · exact h
    · refine kept_ite ?_ ?_
      · apply kept_dramOutOfService
        exact h
      · refine kept_ite ?_ ?_
        · apply kept_startDrain
          apply kept_safePanel
          exact h
        · apply kept_startRejoin
          exact h
  · exact h

theorem kept_cellQuarantine (h : Kept q s) : ∀ a1 a2 a3, Kept q (cellQuarantine s a1 a2 a3) := by
  intro a1 a2 a3
  unfold cellQuarantine
  extract_lets v0 v1
  have h2 : Kept q v0 := by
    unfold v0
    apply kept_cellHand
    apply kept_raise
    exact h
  clear_value v0
  have h3 : Kept q v1 := by
    unfold v1
    apply kept_leaseShow
    apply kept_blockQuarantine
    exact h2
  clear_value v1
  refine kept_ite ?_ ?_
  · exact h2
  · refine kept_ite ?_ ?_
    · apply kept_checkChannel
      exact h2
    · refine kept_ite ?_ ?_
      · apply kept_regionFault
        exact h3
      · exact h3

theorem kept_cellReport (h : Kept q s) : ∀ a1 a2 a3, Kept q (cellReport s a1 a2 a3) := by
  intro a1 a2 a3
  unfold cellReport
  refine kept_ite ?_ ?_
  · exact h
  · refine kept_ite ?_ ?_
    · apply kept_countReport
      exact h
    · split
      · apply kept_cellQuarantine
        exact h
      · exact h
      · apply kept_setCtl
        apply kept_countReport
        exact h

theorem kept_deferredReports (h : Kept q s) : ∀ a1, Kept q (deferredReports s a1) := by
  intro a1
  unfold deferredReports
  extract_lets v0
  apply kept_foldl
  · apply kept_setCtl
    exact h
  · intro x1 x2 h3
    apply kept_cellReport
    exact h3

theorem kept_ifacesJoin (h : Kept q s) : ∀ a1, Kept q (ifacesJoin s a1) := by
  intro a1
  unfold ifacesJoin
  apply kept_foldl
  · exact h
  · intro x0 x1 h2
    apply kept_setNode
    exact h2

theorem kept_shadowWait (h : Kept q s) : ∀ a1, Kept q (shadowWait s a1) := by
  intro a1
  unfold shadowWait
  refine kept_ite ?_ ?_
  · apply kept_setFlint
    exact h
  · exact h

theorem kept_repeatRequest (h : Kept q s) : ∀ a1, Kept q (repeatRequest s a1) := by
  intro a1
  unfold repeatRequest
  extract_lets v0
  refine kept_ite ?_ ?_
  · exact h
  · clear_value v0
    split
    · exact h
    · extract_lets v1
      apply kept_setBorax
      exact h

theorem kept_repeatPoint (h : Kept q s) : ∀ a1, Kept q (repeatPoint s a1) := by
  intro a1
  unfold repeatPoint
  extract_lets v0
  have h1 : Kept q v0 := by
    unfold v0
    apply kept_setMica
    exact h
  clear_value v0
  refine kept_ite ?_ ?_
  · exact h
  · split
    · refine kept_ite ?_ ?_
      · exact h1
      · apply kept_repeatRequest
        exact h1
    · apply kept_repeatRequest
      exact h1

theorem kept_showOldest (h : Kept q s) : Kept q (showOldest s) := by
  unfold showOldest
  split
  · exact h
  · apply kept_foldl
    · exact h
    · intro x0 x1 h2
      apply kept_setF
      apply kept_setF
      exact h2

theorem kept_openStripe (h : Kept q s) : ∀ a1, Kept q (openStripe s a1) := by
  intro a1
  unfold openStripe
  extract_lets v0 v1 v2 v3 v4 v5
  have h6 : Kept q v2 := by
    unfold v2
    apply kept_setStripes
    exact h
  clear_value v2
  have h7 : Kept q v4 := by
    unfold v4
    refine kept_rec ?_
    apply kept_parts
    exact h6
  clear_value v4
  have h8 : Kept q v5 := by
    unfold v5
    apply kept_foldl
    · exact h7
    · intro x9 x10 h11
      apply kept_setGal
      exact h11
  clear_value v5
  refine kept_ite ?_ ?_
  · exact h
  · apply kept_showOldest
    exact h8

theorem kept_micaOpens (h : Kept q s) : Kept q (micaOpens s) := by
  unfold micaOpens
  extract_lets v0 v1 v2 v3 v4
  refine kept_ite ?_ ?_
  · apply kept_repeatPoint
    apply kept_repeatPoint
    apply kept_openStripe
    apply kept_openStripe
    exact h
  · exact h

theorem kept_micaRejoined (h : Kept q s) : Kept q (micaRejoined s) := by
  unfold micaRejoined
  extract_lets v0
  have h1 : Kept q v0 := by
    unfold v0
    apply kept_micaStatus
    exact h
  clear_value v0
  split
  · exact h1
  · apply kept_mcaEvent
    apply kept_bltStatus
    apply kept_setMica
    exact h1

theorem kept_setPtp (h : Kept q s) : ∀ a1, Kept q (setPtp s a1) := by
  intro a1
  unfold setPtp
  apply kept_setTport
  exact h

theorem kept_regionJoins (h : Kept q s) : ∀ a1, Kept q (regionJoins s a1) := by
  intro a1
  unfold regionJoins
  extract_lets v0
  have h1 : Kept q v0 := by
    unfold v0
    apply kept_ifacesJoin
    apply kept_setPhase
    apply kept_setCtl
    exact h
  clear_value v0
  refine kept_ite ?_ ?_
  · apply kept_leaseShow
    apply kept_shadowWait
    apply kept_showRunning
    exact h1
  · refine kept_ite ?_ ?_
    · apply kept_leaseShow
      apply kept_shadowWait
      apply kept_showRunning
      exact h1
    · refine kept_ite ?_ ?_
      · refine kept_ite ?_ ?_
        · apply kept_ranksShow
          exact h1
        · exact h1
      · refine kept_ite ?_ ?_
        · apply kept_boraxStatus
          exact h1
        · refine kept_ite ?_ ?_
          · apply kept_micaOpens
            apply kept_micaRejoined
            exact h1
          · refine kept_ite ?_ ?_
            · apply kept_audioRejoined
              refine kept_ite ?_ ?_
              · apply kept_setPortStatePtp
                apply kept_setPtp
                exact h1
              · exact h1
            · exact h1

theorem kept_regionPowered (h : Kept q s) : ∀ a1, Kept q (regionPowered s a1) := by
  intro a1
  unfold regionPowered
  extract_lets v0
  split
  · apply kept_bootSettled
    apply kept_sleepSettles
    apply kept_powerSettled
    apply kept_powerEvent
    apply kept_powerLost
    exact h
  · refine kept_ite ?_ ?_
    · exact h
    · apply kept_bootSettled
      apply kept_sleepSettles
      apply kept_deferredReports
      apply kept_powerSettled
      apply kept_powerEvent
      apply kept_regionJoins
      exact h
  · exact h

theorem kept_resetFails (h : Kept q s) : ∀ a1, Kept q (resetFails s a1) := by
  intro a1
  unfold resetFails
  split
  · apply kept_bootSettled
    apply kept_sleepSettles
    apply kept_powerSettled
    apply kept_powerLost
    apply kept_raise
    exact h
  · apply kept_bootSettled
    apply kept_sleepSettles
    apply kept_powerSettled
    apply kept_powerLost
    apply kept_raise
    exact h
  · apply kept_bootSettled
    apply kept_sleepSettles
    apply kept_powerSettled
    apply kept_powerLost
    apply kept_raise
    exact h
  · exact h

theorem kept_forwardEvent (h : Kept q s) : ∀ a1 a2, Kept q (forwardEvent s a1 a2) := by
  intro a1 a2
  unfold forwardEvent
  extract_lets v0
  refine kept_ite ?_ ?_
  · exact h
  · apply kept_foldl
    · exact h
    · intro x1 x2 h3
      extract_lets v4 v5 v6
      have h7 : Kept q v6 := by
        unfold v6
        refine kept_ite ?_ ?_
        · apply kept_setReg
          exact h3
        · exact h3
      clear_value v6
      apply kept_foldl
      · exact h7
      · intro x8 x9 h10
        apply kept_setFlagOf
        exact h10

theorem kept_setColl (h : Kept q s) : ∀ a1, Kept q (setColl s a1) := by
  intro a1
  unfold setColl
  apply kept_setSlate
  · exact h
  · intro x0
    rfl

theorem kept_forwardHeld (h : Kept q s) : ∀ a1, Kept q (forwardHeld s a1) := by
  intro a1
  unfold forwardHeld
  apply kept_foldl
  · apply kept_setColl
    exact h
  · intro x0 x1 h2
    apply kept_forwardEvent
    exact h2

theorem kept_leaseGrant (h : Kept q s) : ∀ a1, Kept q (leaseGrant s a1) := by
  intro a1
  unfold leaseGrant
  extract_lets v0 v1
  have h2 : Kept q v0 := by
    unfold v0
    apply kept_setLease
    apply kept_setHolder
    exact h
  clear_value v0
  have h3 : Kept q v1 := by
    unfold v1
    apply kept_setFlint
    exact h2
  clear_value v1
  apply kept_leaseShow
  apply kept_forwardHeld
  apply kept_shadowWait
  exact h3

theorem kept_bootTested (h : Kept q s) : ∀ a1 a2, Kept q (bootTested s a1 a2) := by
  intro a1 a2
  unfold bootTested
  extract_lets v0 v1 v2 v3
  have h4 : Kept q v2 := by
    unfold v2
    apply kept_setFlint
    exact h
  clear_value v2
  have h5 : Kept q v3 := by
    unfold v3
    apply kept_setF
    apply kept_leaseGrant
    exact h4
  clear_value v3
  refine kept_ite ?_ ?_
  · exact h
  · refine kept_ite ?_ ?_
    · split
      apply kept_leaseShow
      apply kept_flintEvent
      refine kept_snd (by assumption) ?_
      apply kept_takeFree
      exact h4
    · refine kept_ite ?_ ?_
      · apply kept_leaseShow
        exact h4
      · apply kept_setBoot
        apply kept_setSlate
        · exact h5
        · intro x6
          rfl

theorem kept_selftestLate (h : Kept q s) : Kept q (selftestLate s) := by
  unfold selftestLate
  refine kept_ite ?_ ?_
  · apply kept_bootEnded
    apply kept_bootUnwind
    apply kept_enterRecovery
    exact h
  · exact h

theorem kept_dramPut (h : Kept q s) : ∀ a1 a2, Kept q (dramPut s a1 a2) := by
  intro a1 a2
  unfold dramPut
  apply kept_dramStore
  exact h

theorem kept_sectionUse (h : Kept q s) : ∀ a1, Kept q (sectionUse s a1) := by
  intro a1
  unfold sectionUse
  extract_lets v0
  refine kept_ite ?_ ?_
  · refine kept_ite ?_ ?_
    · apply kept_dramPut
      exact h
    · exact h
  · refine kept_ite ?_ ?_
    · apply kept_pewterPut
      exact h
    · refine kept_ite ?_ ?_
      · apply kept_waveCommit
        apply kept_foldl
        · exact h
        · intro x1 x2 h3
          apply kept_writeKey
          exact h3
      · refine kept_ite ?_ ?_
        · apply kept_foldl
          · exact h
          · intro x4 x5 h6
            apply kept_scriptWrite
            exact h6
        · exact h

theorem kept_sectionsApply (h : Kept q s) : ∀ f l, Kept q (sectionsApply f l s).1 := by
  intro f l
  induction l generalizing s with
  | nil => exact h
  | cons x r ih =>
    unfold sectionsApply
    split
    · exact h
    split
    · exact h
    · exact ih (kept_sectionUse h _)

theorem kept_bootInService (h : Kept q s) : ∀ a1, Kept q (bootInService s a1) := by
  intro a1
  unfold bootInService
  extract_lets v0 v1 v2 v3
  have h4 : Kept q v0 := by
    unfold v0
    apply kept_setPwr
    apply kept_setBoot
    exact h
  clear_value v0
  have h5 : Kept q v1 := by
    unfold v1
    apply kept_powerEvent
    exact h4
  clear_value v1
  have h6 : Kept q v2 := by
    unfold v2
    refine kept_ite ?_ ?_
    · apply kept_setObs
      exact h5
    · exact h5
  clear_value v2
  have h7 : Kept q v3 := by
    unfold v3
    refine kept_ite ?_ ?_
    · exact h6
    · apply kept_wantPewter
      exact h6
  clear_value v3
  apply kept_bootEnded
  refine kept_ite ?_ ?_
  · apply kept_powerAsk
    exact h7
  · exact h7

theorem kept_loadReason (h : Kept q s) : ∀ a1, Kept q (loadReason s a1) := by
  intro a1
  unfold loadReason
  apply kept_foldl
  · exact h
  · intro x0 x1 h2
    apply kept_setF
    exact h2

theorem kept_bootLast (h : Kept q s) : Kept q (bootLast s) := by
  unfold bootLast
  split
  · exact h
  · extract_lets v0
    refine kept_ite ?_ ?_
    · exact h
    · split
      extract_lets v1 v2
      have h3 : Kept q v2 := by
        unfold v2
        apply kept_foldl
        · refine kept_fst (by assumption) ?_
          apply kept_sectionsApply
          exact h
        · intro x4 x5 h6
          apply kept_entryWrite
          exact h6
      clear_value v2
      refine kept_ite ?_ ?_
      · apply kept_slotUnwinds
        refine kept_fst (by assumption) ?_
        apply kept_sectionsApply
        exact h
      · split
        · apply kept_slotUnwinds
          exact h3
        · split
          · extract_lets v7
            have h8 : Kept q v7 := by
              unfold v7
              apply kept_foldl
              · apply kept_loadReason
                exact h3
              · intro x9 x10 h11
                apply kept_flintEvent
                exact h11
            clear_value v7
            apply kept_slotUnwinds
            exact h8
          · apply kept_bootInService
            apply kept_progTake
            apply kept_loadReason
            exact h3

theorem kept_porReset (h : Kept q s) : Kept q (porReset s) := by
  unfold porReset
  apply kept_setObs
  apply kept_chipReset
  exact h

theorem kept_porAsserts (h : Kept q s) : Kept q (porAsserts s) := by
  unfold porAsserts
  apply kept_setPwr
  apply kept_porReset
  exact h

theorem kept_sysResetRises (h : Kept q s) : Kept q (sysResetRises s) := by
  unfold sysResetRises
  extract_lets v0 v1
  have h2 : Kept q v1 := by
    unfold v1
    apply kept_setPwr
    exact h
  clear_value v1
  refine kept_ite ?_ ?_
  · apply kept_wake
    exact h2
  · exact h2

theorem kept_wakeIf (h : Kept q s) : ∀ a1 a2, Kept q (wakeIf s a1 a2) := by
  intro a1 a2
  unfold wakeIf
  refine kept_ite ?_ ?_
  · apply kept_wake
    exact h
  · exact h

theorem kept_wakeTimerEnds (h : Kept q s) : Kept q (wakeTimerEnds s) := by
  unfold wakeTimerEnds
  refine kept_ite ?_ ?_
  · apply kept_wakeIf
    apply kept_setReg
    exact h
  · exact h

theorem kept_hostWakes (h : Kept q s) : ∀ a1 a2 a3, Kept q (hostWakes s a1 a2 a3) := by
  intro a1 a2 a3
  unfold hostWakes
  refine kept_ite ?_ ?_
  · apply kept_wakeIf
    exact h
  · exact h

theorem kept_heldWake (h : Kept q s) : Kept q (heldWake s) := by
  unfold heldWake
  split
  · apply kept_wake
    apply kept_setPwr
    exact h
  · exact h

theorem kept_pfailReturns (h : Kept q s) : Kept q (pfailReturns s) := by
  unfold pfailReturns
  extract_lets v0
  have h1 : Kept q v0 := by
    unfold v0
    apply kept_setPwr
    exact h
  clear_value v0
  split
  · apply kept_heldWake
    exact h1
  · refine kept_ite ?_ ?_
    · apply kept_wakeIf
      exact h1
    · exact h1

theorem kept_clockReturns (h : Kept q s) : Kept q (clockReturns s) := by
  unfold clockReturns
  refine kept_ite ?_ ?_
  · apply kept_wake
    exact h
  · exact h

theorem kept_thermalRestarts (h : Kept q s) : Kept q (thermalRestarts s) := by
  unfold thermalRestarts
  extract_lets v0 v1
  have h2 : Kept q v0 := by
    unfold v0
    apply kept_setTherm
    exact h
  clear_value v0
  refine kept_ite ?_ ?_
  · refine kept_ite ?_ ?_
    · apply kept_wake
      exact h2
    · apply kept_heldWake
      exact h2
  · exact h

theorem kept_pmicStep (h : Kept q s) : ∀ f, (∀ t, Kept q t → Kept q (f t)) → Kept q (pmicStep s f) := by
  intro f hf
  unfold pmicStep
  split
  · refine kept_ite ?_ ?_
    · apply kept_afterPanel
      apply hf
      exact h
    · exact h
  · exact h

theorem kept_execRegionPllLocked (h : Kept q s) : ∀ a1, KeptOut q (execRegionPllLocked a1 s) := by
  intro a1
  unfold execRegionPllLocked
  apply kept_next
  apply kept_pllLocked
  exact h

theorem kept_execRegionPowered (h : Kept q s) : ∀ a1, KeptOut q (execRegionPowered a1 s) := by
  intro a1
  unfold execRegionPowered
  apply kept_next
  apply kept_regionPowered
  exact h

theorem kept_execRegionResetFailed (h : Kept q s) : ∀ a1, KeptOut q (execRegionResetFailed a1 s) := by
  intro a1
  unfold execRegionResetFailed
  apply kept_next
  apply kept_resetFails
  exact h

theorem kept_execFlintSelftestDone (h : Kept q s) : ∀ a1 a2, KeptOut q (execFlintSelftestDone a1 a2 s) := by
  intro a1 a2
  unfold execFlintSelftestDone
  apply kept_next
  apply kept_bootTested
  exact h

theorem kept_execFlintSelftestTimeout (h : Kept q s) : KeptOut q (execFlintSelftestTimeout s) := by
  unfold execFlintSelftestTimeout
  apply kept_next
  apply kept_selftestLate
  exact h

theorem kept_execBootDone (h : Kept q s) : KeptOut q (execBootDone s) := by
  unfold execBootDone
  apply kept_next
  apply kept_bootLast
  exact h

theorem kept_execPor (h : Kept q s) : KeptOut q (execPor s) := by
  unfold execPor
  apply kept_next
  apply kept_wake
  apply kept_porReset
  exact h

theorem kept_execPorAsserted (h : Kept q s) : KeptOut q (execPorAsserted s) := by
  unfold execPorAsserted
  apply kept_next
  apply kept_porAsserts
  exact h

theorem kept_sysResetApply (h : Kept q s) : Kept q (sysResetApply s) := by
  unfold sysResetApply
  extract_lets v0
  have h1 : Kept q v0 := by
    unfold v0
    apply kept_chipReset
    exact h
  clear_value v0
  refine kept_ite ?_ ?_
  · exact h1
  · apply kept_wake
    exact h1

theorem kept_isolate (h : Kept q s) : Kept q (isolate s) := by
  unfold isolate
  extract_lets v0 v1
  have h2 : Kept q v0 := by
    unfold v0
    apply kept_foldl
    · apply kept_calAbort
      exact h
    · intro x3 x4 h5
      refine kept_ite ?_ ?_
      · exact h5
      · apply kept_powerLost
        exact h5
  clear_value v0
  have h6 : Kept q v1 := by
    unfold v1
    apply kept_setPwr
    exact h2
  clear_value v1
  apply kept_leaseShow
  apply kept_setLease
  apply kept_setHolder
  exact h6

theorem kept_thermalDown (h : Kept q s) : Kept q (thermalDown s) := by
  unfold thermalDown
  extract_lets v0 v1 v2
  have h3 : Kept q v0 := by
    unfold v0
    split
    · apply kept_logAdd
      exact h
    · exact h
  clear_value v0
  have h4 : Kept q v1 := by
    unfold v1
    apply kept_isolate
    exact h3
  clear_value v1
  have h5 : Kept q v2 := by
    unfold v2
    apply kept_setTherm
    exact h4
  clear_value v2
  apply kept_resetCause
  apply kept_setPwr
  exact h5

theorem kept_lossContinues (h : Kept q s) : ∀ a1, Kept q (lossContinues s a1) := by
  intro a1
  unfold lossContinues
  extract_lets v0 v1 v2
  have h3 : Kept q v1 := by
    unfold v1
    refine kept_ite ?_ ?_
    · apply kept_resetCause
      apply kept_setPwr
      apply kept_isolate
      exact h
    · refine kept_ite ?_ ?_
      · apply kept_sysResetApply
        exact h
      · refine kept_ite ?_ ?_
        · apply kept_resetCause
          apply kept_setPwr
          apply kept_isolate
          exact h
        · refine kept_ite ?_ ?_
          · apply kept_thermalDown
            exact h
          · exact h
  clear_value v1
  have h4 : Kept q v2 := by
    unfold v2
    refine kept_ite ?_ ?_
    · apply kept_logAdd
      exact h3
    · exact h3
  clear_value v2
  refine kept_ite ?_ ?_
  · apply kept_sysResetApply
    exact h4
  · exact h4

theorem kept_lossBegins (h : Kept q s) : ∀ a1 a2, Kept q (lossBegins s a1 a2) := by
  intro a1 a2
  unfold lossBegins
  extract_lets v0 v1
  have h2 : Kept q v1 := by
    unfold v1
    apply kept_abruptLoss
    exact h
  clear_value v1
  split
  · apply kept_setObs
    exact h
  · refine kept_ite ?_ ?_
    · apply kept_lossContinues
      exact h2
    · exact h2

theorem kept_bootStops (h : Kept q s) : Kept q (bootStops s) := by
  unfold bootStops
  refine kept_ite ?_ ?_
  · apply kept_setBoot
    exact h
  · exact h

theorem kept_sysResetFalls (h : Kept q s) : Kept q (sysResetFalls s) := by
  unfold sysResetFalls
  extract_lets v0
  have h1 : Kept q v0 := by
    unfold v0
    apply kept_setPwr
    exact h
  clear_value v0
  refine kept_ite ?_ ?_
  · exact h1
  · refine kept_ite ?_ ?_
    · apply kept_setPwr
      exact h1
    · refine kept_ite ?_ ?_
      · apply kept_sysResetApply
        exact h1
      · apply kept_lossBegins
        apply kept_bootStops
        exact h1

theorem kept_execSysReset (h : Kept q s) : KeptOut q (execSysReset s) := by
  unfold execSysReset
  apply kept_next
  apply kept_sysResetFalls
  exact h

theorem kept_execSysResetRelease (h : Kept q s) : KeptOut q (execSysResetRelease s) := by
  unfold execSysResetRelease
  apply kept_next
  apply kept_sysResetRises
  exact h

theorem kept_execWakePinLow (h : Kept q s) : KeptOut q (execWakePinLow s) := by
  unfold execWakePinLow
  apply kept_next
  apply kept_wakeIf
  exact h

theorem kept_execWakeTimerExpired (h : Kept q s) : KeptOut q (execWakeTimerExpired s) := by
  unfold execWakeTimerExpired
  apply kept_next
  apply kept_wakeTimerEnds
  exact h

theorem kept_execHostWake (h : Kept q s) : ∀ a1 a2 a3, KeptOut q (execHostWake a1 a2 s a3) := by
  intro a1 a2 a3
  unfold execHostWake
  apply kept_next
  apply kept_hostWakes
  exact h

theorem kept_pfailFalls (h : Kept q s) : Kept q (pfailFalls s) := by
  unfold pfailFalls
  extract_lets v0 v1
  have h2 : Kept q v1 := by
    unfold v1
    apply kept_bootStops
    apply kept_setObs
    exact h
  clear_value v1
  refine kept_ite ?_ ?_
  · exact h
  · refine kept_ite ?_ ?_
    · exact h2
    · refine kept_ite ?_ ?_
      · apply kept_lossContinues
        exact h2
      · apply kept_lossBegins
        apply kept_setObs
        refine kept_ite ?_ ?_
        · exact h2
        · apply kept_obsEvent
          exact h2

theorem kept_execPfailFall (h : Kept q s) : KeptOut q (execPfailFall s) := by
  unfold execPfailFall
  apply kept_next
  apply kept_pfailFalls
  apply kept_setPwr
  exact h

theorem kept_execRailCollapse (h : Kept q s) : ∀ a1 a2, KeptOut q (execRailCollapse a1 s a2) := by
  intro a1 a2
  unfold execRailCollapse
  apply kept_next
  refine kept_ite ?_ ?_
  · apply kept_pfailFalls
    exact h
  · exact h

theorem kept_execPfailReturn (h : Kept q s) : KeptOut q (execPfailReturn s) := by
  unfold execPfailReturn
  apply kept_next
  apply kept_pfailReturns
  exact h

theorem kept_execClockReturn (h : Kept q s) : KeptOut q (execClockReturn s) := by
  unfold execClockReturn
  apply kept_next
  apply kept_clockReturns
  exact h

theorem kept_execThermalRestart (h : Kept q s) : KeptOut q (execThermalRestart s) := by
  unfold execThermalRestart
  apply kept_next
  apply kept_thermalRestarts
  exact h

theorem kept_abruptLossEnds (h : Kept q s) : Kept q (abruptLossEnds s) := by
  unfold abruptLossEnds
  split
  · refine kept_ite ?_ ?_
    · apply kept_lossContinues
      apply kept_abruptEnds
      exact h
    · exact h
  · exact h

theorem kept_execAbruptLossEnd (h : Kept q s) : KeptOut q (execAbruptLossEnd s) := by
  unfold execAbruptLossEnd
  apply kept_next
  apply kept_afterPanel
  apply kept_abruptLossEnds
  exact h

theorem kept_scriptOver (h : Kept q s) : ∀ a1 a2, Kept q (scriptOver s a1 a2) := by
  intro a1 a2
  unfold scriptOver
  extract_lets v0 v1 v2 v3
  have h4 : Kept q v0 := by
    unfold v0
    apply kept_setObs
    exact h
  clear_value v0
  have h5 : Kept q v1 := by
    unfold v1
    apply kept_setF
    exact h4
  clear_value v1
  have h6 : Kept q v2 := by
    unfold v2
    apply kept_setF
    apply kept_setF
    exact h5
  clear_value v2
  have h7 : Kept q v3 := by
    unfold v3
    apply kept_setF
    apply kept_setF
    exact h6
  clear_value v3
  refine kept_ite ?_ ?_
  · exact h7
  · apply kept_obsEvent
    exact h7

theorem kept_panelLanesOff (h : Kept q s) : Kept q (panelLanesOff s) := by
  unfold panelLanesOff
  extract_lets v0 v1
  have h2 : Kept q v0 := by
    unfold v0
    apply kept_foldl
    · exact h
    · intro x3 x4 h5
      apply kept_foldl
      · exact h5
      · intro x6 x7 h8
        apply kept_enterLane
        exact h8
  clear_value v0
  have h9 : Kept q v1 := by
    unfold v1
    apply kept_foldl
    · exact h2
    · intro x10 x11 h12
      apply kept_enterLane
      exact h12
  clear_value v1
  apply kept_setLinks
  exact h9

theorem kept_heldRuns (h : Kept q s) : Kept q (heldRuns s) := by
  unfold heldRuns
  split
  · exact h
  · apply kept_powerAsk
    apply kept_setObs
    exact h

theorem kept_panelOff (h : Kept q s) : Kept q (panelOff s) := by
  unfold panelOff
  extract_lets v0
  have h1 : Kept q v0 := by
    unfold v0
    apply kept_panelLanesOff
    apply kept_setStep
    exact h
  clear_value v0
  apply kept_heldRuns
  apply kept_obsEvent
  apply kept_setPanelState
  exact h1

theorem kept_powerOnFails (h : Kept q s) : Kept q (powerOnFails s) := by
  unfold powerOnFails
  extract_lets v0 v1
  have h2 : Kept q v1 := by
    unfold v1
    apply kept_timingStop
    apply kept_blpLow
    apply kept_setPanelState
    exact h
  clear_value v1
  clear_value v0
  split
  · apply kept_panelOff
    exact h2
  · apply kept_scriptAsk
    apply kept_setStep
    exact h2

theorem kept_scriptStep (h : Kept q s) : ∀ a1, Kept q (scriptStep s a1) := by
  intro a1
  unfold scriptStep
  split
  · refine kept_ite ?_ ?_
    · apply kept_panelTrain
      apply kept_setStep
      exact h
    · apply kept_powerOnFails
      exact h
  · refine kept_ite ?_ ?_
    · apply kept_gtSet
      apply kept_drvSend
      apply kept_setStep
      exact h
    · apply kept_powerOnFails
      exact h
  · apply kept_scriptAsk
    apply kept_setStep
    apply kept_gtSet
    exact h
  · apply kept_panelOff
    exact h
  · apply kept_setStep
    exact h
  · exact h

theorem kept_scriptEnds (h : Kept q s) : ∀ a1 a2, Kept q (scriptEnds s a1 a2) := by
  intro a1 a2
  unfold scriptEnds
  extract_lets v0 v1
  have h2 : Kept q v0 := by
    unfold v0
    apply kept_scriptOver
    exact h
  clear_value v0
  have h3 : Kept q v1 := by
    unfold v1
    split
    · apply kept_scriptStep
      exact h2
    · refine kept_ite ?_ ?_
      · exact h2
      · apply kept_safePanel
        exact h2
    · exact h2
  clear_value v1
  apply kept_scriptNext
  exact h3

theorem kept_pmicEntry (h : Kept q s) : ∀ a1, Kept q (pmicEntry s a1) := by
  intro a1
  unfold pmicEntry
  split
  · exact h
  · extract_lets v0 v1
    refine kept_ite ?_ ?_
    · exact h
    · split
      · refine kept_ite ?_ ?_
        · exact h
        · unfold v1
          apply kept_portShow
          apply kept_setObs
          exact h
      · refine kept_ite ?_ ?_
        · exact h
        · refine kept_ite ?_ ?_
          · unfold v1
            apply kept_portShow
            apply kept_setObs
            exact h
          · refine kept_ite ?_ ?_
            · apply kept_scriptEnds
              exact h
            · exact h
      · refine kept_ite ?_ ?_
        · exact h
        · refine kept_ite ?_ ?_
          · apply kept_setObs
            exact h
          · apply kept_scriptEnds
            exact h
      · refine kept_ite ?_ ?_
        · exact h
        · apply kept_scriptEnds
          exact h

theorem kept_execPmicEntry (h : Kept q s) : ∀ a1, KeptOut q (execPmicEntry a1 s) := by
  intro a1
  unfold execPmicEntry
  apply kept_next
  apply kept_pmicStep
  · exact h
  · intro x0 h1
    apply kept_pmicEntry
    exact h1

theorem kept_pmicScriptDone (h : Kept q s) : Kept q (pmicScriptDone s) := by
  unfold pmicScriptDone
  split
  · exact h
  · refine kept_ite ?_ ?_
    · apply kept_scriptEnds
      exact h
    · exact h

theorem kept_execPmicScriptDone (h : Kept q s) : KeptOut q (execPmicScriptDone s) := by
  unfold execPmicScriptDone
  apply kept_next
  apply kept_pmicStep
  · exact h
  · intro x0 h1
    apply kept_pmicScriptDone
    exact h1

theorem kept_calApply (h : Kept q s) : Kept q (calApply s) := by
  unfold calApply
  extract_lets v0
  have h1 : Kept q v0 := by
    unfold v0
    apply kept_setF
    apply kept_setReg
    exact h
  clear_value v0
  split
  · extract_lets v2 v3 v4
    have h5 : Kept q v2 := by
      unfold v2
      apply kept_setF
      apply kept_setReg
      exact h
    clear_value v2
    have h6 : Kept q v3 := by
      unfold v3
      apply kept_setReg
      apply kept_setReg
      exact h5
    clear_value v3
    have h7 : Kept q v4 := by
      unfold v4
      apply kept_setF
      exact h6
    clear_value v4
    apply kept_setTherm
    exact h7
  · apply kept_setF
    apply kept_setTherm
    exact h1

theorem kept_bootSteps (h : Kept q s) : Kept q (bootSteps s) := by
  unfold bootSteps
  extract_lets v0 v1 v2
  have h3 : Kept q v1 := by
    unfold v1
    apply kept_showBytes
    apply kept_showBytes
    apply kept_showBytes
    exact h
  clear_value v1
  have h4 : Kept q v2 := by
    unfold v2
    apply kept_setF
    exact h3
  clear_value v2
  apply kept_bootChoose
  apply kept_calApply
  apply kept_otpShow
  apply kept_setBoot
  exact h4

theorem kept_clockRuns (h : Kept q s) : Kept q (clockRuns s) := by
  unfold clockRuns
  refine kept_ite ?_ ?_
  · apply kept_bootSteps
    exact h
  · exact h

theorem kept_refclkFails (h : Kept q s) : ∀ a1, Kept q (refclkFails s a1) := by
  intro a1
  unfold refclkFails
  extract_lets v0 v1 v2 v3
  have h4 : Kept q v0 := by
    unfold v0
    apply kept_setPwr
    exact h
  clear_value v0
  have h5 : Kept q v1 := by
    unfold v1
    apply kept_powerEvent
    exact h4
  clear_value v1
  have h6 : Kept q v2 := by
    unfold v2
    apply kept_bootStops
    exact h5
  clear_value v2
  have h7 : Kept q v3 := by
    unfold v3
    refine kept_ite ?_ ?_
    · exact h6
    · apply kept_obsEvent
      exact h6
  clear_value v3
  apply kept_lossBegins
  exact h7

theorem kept_writeLines (h : Kept q s) : ∀ n a b, Kept q (writeLines s n a b).1 := by
  intro n
  induction n generalizing s with
  | zero => intro a b; exact h
  | succ n ih =>
    intro a b
    have h1 : Kept q (dramStore s a (b.take (256 - a % 256))).2 := kept_dramStore h _ _
    unfold writeLines
    dsimp only
    split
    · exact h
    split
    · exact h1
    · exact ih h1 _ _

theorem kept_writeBufs (h : Kept q s) : ∀ l b n m, Kept q (writeBufs s l b n m).state := by
  intro l
  induction l generalizing s with
  | nil => intro b n m; cases b <;> exact h
  | cons x r ih =>
    intro b n m
    cases b with
    | nil => exact h
    | cons y b =>
      obtain ⟨a, k⟩ := x
      have h1 : Kept q (writeLines s (k / 256 + 2) a ((y :: b).take k)).1 := kept_writeLines h _ _ _
      unfold writeBufs
      dsimp only
      split
      · exact h1
      · exact ih h1 _ _ _

theorem kept_runJob (h : Kept q s) : ∀ d l, Kept q (runJob s d l).1 := by
  intro d l
  unfold runJob
  dsimp only
  repeat' split
  all_goals first
    | exact h
    | exact kept_poisonSeen h _ _ _
    | exact kept_bump (kept_writeBufs h _ _ _ _) _ _
    | exact kept_writeBufs h _ _ _ _

theorem kept_finishJob (h : Kept q s) : ∀ a1 a2 a3, Kept q (finishJob s a1 a2 a3) := by
  intro a1 a2 a3
  unfold finishJob
  extract_lets v0 v1
  split
  extract_lets v2
  have h3 : Kept q v2 := by
    unfold v2
    refine kept_ite ?_ ?_
    · apply kept_dramPut
      refine kept_fst (by assumption) ?_
      split
      · exact h
      · split
        · dsimp only
          apply kept_poisonSeen
          exact h
        · apply kept_runJob
          exact h
    · refine kept_fst (by assumption) ?_
      split
      · exact h
      · split
        · dsimp only
          apply kept_poisonSeen
          exact h
        · apply kept_runJob
          exact h
  clear_value v2
  apply kept_jobEnded
  exact h3

theorem kept_shadowLine (h : Kept q s) : ∀ a1 a2 a3 a4 a5, Kept q (shadowLine s a1 a2 a3 a4 a5).1 := by
  intro a1 a2 a3 a4 a5
  unfold shadowLine
  extract_lets v0 v1 v2 v3 v4 v5
  have h6 : Kept q v1 := by
    unfold v1
    refine kept_ite ?_ ?_
    · exact h
    · apply kept_setBorax
      exact h
  clear_value v1
  have h7 : Kept q v4 := by
    unfold v4
    apply kept_setBorax
    exact h6
  clear_value v4
  have h8 : Kept q v5 := by
    unfold v5
    refine kept_ite ?_ ?_
    · apply kept_shadowClose
      exact h7
    · exact h7
  clear_value v5
  split
  · exact h
  · split
    · exact h
    · exact h8

theorem kept_segmentEnds (h : Kept q s) : ∀ a1 a2 a3, Kept q (segmentEnds s a1 a2 a3) := by
  intro a1 a2 a3
  unfold segmentEnds
  extract_lets v0 v1
  have h2 : Kept q v1 := by
    unfold v1
    apply kept_setBorax
    exact h
  clear_value v1
  refine kept_ite ?_ ?_
  · apply kept_setBorax
    exact h
  · refine kept_ite ?_ ?_
    · apply kept_shadowDropped
      exact h2
    · apply kept_setBorax
      exact h2

theorem kept_shadowCoded (h : Kept q s) : ∀ a1 a2 a3 a4 a5 a6, Kept q (shadowCoded s a1 a2 a3 a4 a5 a6) := by
  intro a1 a2 a3 a4 a5 a6
  unfold shadowCoded
  split
  · exact h
  · refine kept_ite ?_ ?_
    · apply kept_segmentEnds
      exact h
    · split
      extract_lets v0
      have h1 : Kept q v0 := by
        unfold v0
        apply kept_bump
        exact h
      clear_value v0
      split
      apply kept_segmentEnds
      refine kept_snd (by assumption) ?_
      apply kept_dramStore
      exact h1

theorem kept_repeatDone (h : Kept q s) : ∀ a1 a2 a3 a4 a5, Kept q (repeatDone s a1 a2 a3 a4 a5) := by
  intro a1 a2 a3 a4 a5
  unfold repeatDone
  extract_lets v0 v1 v2 v3 v4 v5 v6 v7 v8
  have h9 : Kept q v5 := by
    unfold v5
    refine kept_ite ?_ ?_
    · exact h
    · apply kept_poisonSeen
      exact h
  clear_value v5
  refine kept_ite ?_ ?_
  · apply kept_poisonSeen
    exact h
  · refine kept_ite ?_ ?_
    · refine kept_rec ?_
      apply kept_parts
      exact h9
    · exact h9

end Sys2Proof.Machine
end

