-- ==== Sys2Proof/Laws/Kept3.lean ====
section
/-! SUPPORT. What each operation keeps, part 3 of 5, in the order in which one calls the other. -/

namespace Sys2Proof.Machine

variable {q : Prop × List Instr × Nat} {s : State}

theorem kept_retPut (h : Kept q s) : ∀ a1, Kept q (retPut s a1) := by
  intro a1
  unfold retPut
  extract_lets v0 v1 v2 v3 v4
  have h5 : Kept q v3 := by
    unfold v3
    apply kept_dramPut
    exact h
  clear_value v3
  have h6 : Kept q v4 := by
    unfold v4
    refine kept_ite ?_ ?_
    · apply kept_dramPut
      exact h5
    · exact h5
  clear_value v4
  refine kept_ite ?_ ?_
  · exact h
  · apply kept_setRet
    exact h6

theorem kept_retUnit (h : Kept q s) : ∀ a1 a2, Kept q (retUnit s a1 a2) := by
  intro a1 a2
  unfold retUnit
  extract_lets v0 v1 v2
  have h3 : Kept q v2 := by
    unfold v2
    apply kept_retPut
    exact h
  clear_value v2
  apply kept_setRet
  exact h3

theorem kept_retStart (h : Kept q s) : ∀ a1, Kept q (retStart s a1) := by
  intro a1
  unfold retStart
  extract_lets v0 v1 v2 v3
  have h4 : Kept q v3 := by
    unfold v3
    apply kept_setRet
    exact h
  clear_value v3
  split
  extract_lets v5
  apply kept_retUnit
  exact h4

theorem kept_setFrames (h : Kept q s) : ∀ a1, Kept q (setFrames s a1) := by
  intro a1
  unfold setFrames
  apply kept_setRet
  exact h

theorem kept_retBegin (h : Kept q s) : ∀ a1, Kept q (retBegin s a1) := by
  intro a1
  unfold retBegin
  apply kept_retUnit
  exact h

theorem kept_retHeader (h : Kept q s) : ∀ a1 a2 a3, Kept q (retHeader s a1 a2 a3) := by
  intro a1 a2 a3
  unfold retHeader
  extract_lets v0 v1
  apply kept_retUnit
  exact h

theorem kept_retBandOut (h : Kept q s) : ∀ a1 a2 a3 a4, Kept q (retBandOut s a1 a2 a3 a4).1 := by
  intro a1 a2 a3 a4
  unfold retBandOut
  extract_lets v0
  split
  extract_lets v1 v2 v3
  have h4 : Kept q v2 := by
    unfold v2
    refine kept_ite ?_ ?_
    · apply kept_retHeader
      exact h
    · exact h
  clear_value v2
  have h5 : Kept q v3 := by
    unfold v3
    apply kept_retUnit
    exact h4
  clear_value v3
  split
  · exact h5
  · dsimp only
    apply kept_retUnit
    exact h5

theorem kept_retFlush (h : Kept q s) : ∀ n, Kept q (retFlush n s) := by
  intro n
  induction n generalizing s with
  | zero => exact h
  | succ n ih =>
    unfold retFlush
    extract_lets v0 v1 v2
    split
    · exact h
    · apply ih
      unfold v2
      apply kept_setRet
      apply kept_retStart
      exact h
    · apply ih
      unfold v2
      apply kept_setRet
      apply kept_retUnit
      exact h
    · refine kept_ite ?_ ?_
      · apply ih
        unfold v2
        apply kept_setRet
        apply kept_retBegin
        exact h
      · split
        · exact h
        · extract_lets v3
          have h4 : Kept q v3.1 := by
            unfold v3
            apply kept_retBandOut
            exact h
          clear_value v3
          apply ih
          unfold v2
          apply kept_setRet
          exact h4

theorem kept_retGive (h : Kept q s) : ∀ a1 a2 a3, Kept q (retGive s a1 a2 a3) := by
  intro a1 a2 a3
  unfold retGive
  extract_lets v0
  split
  extract_lets v1 v2 v3 v4 v5
  have h6 : Kept q v4 := by
    unfold v4
    refine kept_ite ?_ ?_
    · exact h
    · refine kept_rec ?_
      apply kept_parts
      exact h
  clear_value v4
  have h7 : Kept q v5 := by
    unfold v5
    apply kept_setFrames
    exact h6
  clear_value v5
  apply kept_setBorax
  exact h7

theorem kept_retLinesEnd (h : Kept q s) : Kept q (retLinesEnd s) := by
  unfold retLinesEnd
  split
  · exact h
  · extract_lets v0
    apply kept_foldl
    · exact h
    · intro x1 x2 h3
      refine kept_ite ?_ ?_
      · exact h3
      · apply kept_retGive
        exact h3

theorem kept_retFrame (h : Kept q s) : ∀ a1 a2, Kept q (retFrame s a1 a2) := by
  intro a1 a2
  unfold retFrame
  extract_lets v0 v1 v2 v3 v4 v5 v6 v7
  have h8 : Kept q v2 := by
    unfold v2
    apply kept_retLinesEnd
    exact h
  clear_value v2
  have h9 : Kept q v3 := by
    unfold v3
    refine kept_ite ?_ ?_
    · apply kept_setRet
      exact h8
    · exact h8
  clear_value v3
  have h10 : Kept q v4 := by
    unfold v4
    refine kept_ite ?_ ?_
    · apply kept_setRet
      exact h9
    · exact h9
  clear_value v4
  have h11 : Kept q v5 := by
    unfold v5
    apply kept_retFlush
    exact h10
  clear_value v5
  refine kept_ite ?_ ?_
  · exact h
  · refine kept_ite ?_ ?_
    · exact h11
    · refine kept_ite ?_ ?_
      · apply kept_brxEvent
        apply kept_bump
        exact h11
      · apply kept_retFlush
        apply kept_setRet
        exact h11

theorem kept_retLine (h : Kept q s) : ∀ a1 a2 a3, Kept q (retLine s a1 a2 a3) := by
  intro a1 a2 a3
  unfold retLine
  split
  · exact h
  · extract_lets v0 v1
    split
    split
    · exact h
    · extract_lets v2 v3 v4
      have h5 : Kept q v4 := by
        unfold v4
        apply kept_setFrames
        exact h
      clear_value v4
      refine kept_ite ?_ ?_
      · exact h
      · refine kept_ite ?_ ?_
        · apply kept_retGive
          exact h5
        · exact h5

theorem kept_retCoded (h : Kept q s) : ∀ a1 a2 a3 a4, Kept q (retCoded s a1 a2 a3 a4) := by
  intro a1 a2 a3 a4
  unfold retCoded
  split
  · exact h
  · split
    extract_lets v0
    have h1 : Kept q v0 := by
      unfold v0
      apply kept_bump
      exact h
    clear_value v0
    apply kept_retFlush
    apply kept_setFrames
    exact h1

theorem kept_dropItem (h : Kept q s) : ∀ a1, Kept q (dropItem s a1) := by
  intro a1
  unfold dropItem
  split
  · apply kept_setBorax
    exact h
  · apply kept_setBorax
    exact h
  · apply kept_setQuartz
    exact h
  · apply kept_setBorax
    exact h
  · refine kept_ite ?_ ?_
    · apply kept_setBorax
      exact h
    · apply kept_overJob
      apply kept_boraxStatus
      apply kept_setBorax
      exact h

theorem kept_laneTake (h : Kept q s) : ∀ l, Kept q (laneTake s l) := by
  intro l
  induction l with
  | nil => exact h
  | cons x r ih =>
    unfold laneTake
    refine kept_ite ?_ ?_
    · exact ih
    · split
      · exact ih
      · apply kept_setBorax
        apply kept_dropItem
        exact h

theorem kept_coderTake (h : Kept q s) : Kept q (coderTake s) := by
  unfold coderTake
  apply kept_laneTake
  exact h

theorem kept_verifyMismatches (h : Kept q s) : ∀ a b n, Kept q (verifyMismatches s a b n) := by
  intro a b n
  induction n with
  | zero => exact h
  | succ n ih =>
    unfold verifyMismatches
    extract_lets v0
    have h1 : Kept q v0 := by
      unfold v0
      exact ih
    clear_value v0
    apply kept_brxEvent
    apply kept_bump
    exact h1

theorem kept_retireCell (h : Kept q s) : ∀ a1 a2 a3, Kept q (retireCell s a1 a2 a3) := by
  intro a1 a2 a3
  unfold retireCell
  refine kept_ite ?_ ?_
  · exact h
  · apply kept_raise
    refine kept_rec ?_
    apply kept_parts
    exact h

theorem kept_itemDone (h : Kept q s) : ∀ a1 a2 a3, Kept q (itemDone s a1 a2 a3) := by
  intro a1 a2 a3
  unfold itemDone
  split
  · apply kept_repeatDone
    exact h
  · apply kept_shadowCoded
    exact h
  · extract_lets v0
    refine kept_ite ?_ ?_
    · apply kept_bandDecoded
      exact h
    · exact h
  · apply kept_retCoded
    exact h
  · apply kept_finishJob
    exact h

theorem kept_unverified (h : Kept q s) : ∀ a1 a2, Kept q (unverified s a1 a2) := by
  intro a1 a2
  unfold unverified
  split
  · apply kept_itemDone
    apply kept_setBorax
    exact h
  · apply kept_boraxBack
    exact h

theorem kept_countCorrected (h : Kept q s) : ∀ a1 a2, Kept q (countCorrected s a1 a2).1 := by
  intro a1 a2
  unfold countCorrected
  extract_lets v0 v1
  dsimp only
  refine kept_rec ?_
  apply kept_parts
  exact h

theorem kept_correctedBlocks (h : Kept q s) : ∀ a b n, Kept q (correctedBlocks s a b n).1 := by
  intro a b n
  induction n generalizing s with
  | zero => exact h
  | succ n ih =>
    unfold correctedBlocks
    exact kept_countCorrected (kept_raise (ih h) _ _ _ _ _ _) _ _

theorem kept_coderDone (h : Kept q s) : ∀ a1 a2 a3, Kept q (coderDone s a1 a2 a3) := by
  intro a1 a2 a3
  unfold coderDone
  extract_lets v0
  split
  · exact h
  · extract_lets v1 v2 v3
    have h4 : Kept q v2 := by
      unfold v2
      apply kept_foldl
      · exact h
      · intro x5 x6 h7
        apply kept_verifyMismatches
        exact h7
    clear_value v2
    split
    extract_lets v8
    have h9 : Kept q v8 := by
      unfold v8
      refine kept_ite ?_ ?_
      · apply kept_unverified
        refine kept_fst (by assumption) ?_
        apply kept_correctedBlocks
        exact h4
      · apply kept_itemDone
        apply kept_setBorax
        refine kept_fst (by assumption) ?_
        apply kept_correctedBlocks
        exact h4
    clear_value v8
    refine kept_ite ?_ ?_
    · apply kept_retireCell
      exact h9
    · exact h9

theorem kept_execJobSubmit (h : Kept q s) : ∀ a1 a2, KeptOut q (execJobSubmit a1 a2 s) := by
  intro a1 a2
  unfold execJobSubmit
  apply kept_next
  apply kept_reqServes
  · exact h
  · intro x0 h1
    apply kept_jobSubmit
    exact h1

theorem kept_execCoderItemDone (h : Kept q s) : ∀ a1 a2 a3, KeptOut q (execCoderItemDone a1 a2 a3 s) := by
  intro a1 a2 a3
  unfold execCoderItemDone
  apply kept_next
  apply kept_whenServes
  · exact h
  · intro x0 h1
    apply kept_coderDone
    exact h1

theorem kept_execRetCtrlWrite (h : Kept q s) : ∀ a1 a2, KeptOut q (execRetCtrlWrite a1 a2 s) := by
  intro a1 a2
  unfold execRetCtrlWrite
  apply kept_next
  apply kept_reqServes
  · exact h
  · intro x0 h1
    apply kept_retCtrlWrite
    exact h1

theorem kept_hostShow (h : Kept q s) : ∀ a1, Kept q (hostShow s a1) := by
  intro a1
  unfold hostShow
  extract_lets v0
  apply kept_setF
  apply kept_setF
  exact h

theorem kept_setHost (h : Kept q s) : ∀ a1 a2, Kept q (setHost s a1 a2) := by
  intro a1 a2
  unfold setHost
  apply kept_setSlate
  · exact h
  · intro x0
    rfl

theorem kept_eventQueueRead (h : Kept q s) : ∀ a1, Kept q (eventQueueRead s a1) := by
  intro a1
  unfold eventQueueRead
  split
  · apply kept_setReg
    exact h
  · extract_lets v0 v1 v2
    have h3 : Kept q v0 := by
      unfold v0
      apply kept_hostShow
      apply kept_setHost
      exact h
    clear_value v0
    have h4 : Kept q v1 := by
      unfold v1
      apply kept_setReg
      exact h3
    clear_value v1
    have h5 : Kept q v2 := by
      unfold v2
      apply kept_setReg
      exact h4
    clear_value v2
    apply kept_setReg
    apply kept_setReg
    exact h5

theorem kept_timeRead (h : Kept q s) : ∀ a1, Kept q (timeRead s a1) := by
  intro a1
  unfold timeRead
  extract_lets v0 v1 v2
  have h3 : Kept q v0 := by
    unfold v0
    apply kept_setReg
    exact h
  clear_value v0
  have h4 : Kept q v1 := by
    unfold v1
    apply kept_setReg
    exact h3
  clear_value v1
  have h5 : Kept q v2 := by
    unfold v2
    apply kept_setReg
    exact h4
  clear_value v2
  apply kept_setReg
  exact h5

theorem kept_captureRead (h : Kept q s) : ∀ a1 a2, Kept q (captureRead s a1 a2) := by
  intro a1 a2
  unfold captureRead
  split
  · apply kept_setReg
    exact h
  · extract_lets v0 v1 v2
    have h3 : Kept q v0 := by
      unfold v0
      apply kept_setTport
      exact h
    clear_value v0
    have h4 : Kept q v1 := by
      unfold v1
      apply kept_setReg
      exact h3
    clear_value v1
    have h5 : Kept q v2 := by
      unfold v2
      apply kept_setReg
      exact h4
    clear_value v2
    apply kept_setReg
    exact h5

theorem kept_readActs (h : Kept q s) : ∀ a1 a2, Kept q (readActs s a1 a2) := by
  intro a1 a2
  unfold readActs
  split
  · refine kept_ite ?_ ?_
    · apply kept_eventQueueRead
      exact h
    · refine kept_ite ?_ ?_
      · apply kept_timeRead
        exact h
      · refine kept_ite ?_ ?_
        · apply kept_captureRead
          exact h
        · exact h
  · refine kept_ite ?_ ?_
    · apply kept_timeRead
      exact h
    · refine kept_ite ?_ ?_
      · apply kept_captureRead
        exact h
      · exact h

theorem kept_busRead (h : Kept q s) : ∀ r a, Kept q (busRead s r a).2.2 := by
  intro r a
  unfold busRead
  split
  · exact h
  · exact kept_readActs h _ _

theorem kept_reqAt (h : Kept q s) : ∀ a1 a2, Kept q (reqAt s a1 a2) := by
  intro a1 a2
  unfold reqAt
  refine kept_ite ?_ ?_
  · apply kept_reqMeets
    exact h
  · exact h

theorem kept_execRegisterWrite (h : Kept q s) : ∀ a1 a2 a3, KeptOut q (execRegisterWrite a1 a2 a3 s) := by
  intro a1 a2 a3
  unfold execRegisterWrite
  apply kept_next
  refine kept_ite ?_ ?_
  · exact h
  · apply kept_busWrite
    apply kept_reqAt
    exact h

theorem kept_calBoot (h : Kept q s) : Kept q (calBoot s) := by
  unfold calBoot
  apply kept_calAsk
  exact h

theorem kept_calDramRead (h : Kept q s) : ∀ a1, Kept q (calDramRead s a1) := by
  intro a1
  unfold calDramRead
  extract_lets v0 v1 v2
  apply kept_setCal
  apply kept_poisonSeen
  exact h

theorem kept_calStore (h : Kept q s) : Kept q (calStore s) := by
  unfold calStore
  extract_lets v0
  apply kept_dramPut
  apply kept_setCal
  exact h

theorem kept_calTake (h : Kept q s) : ∀ a1, Kept q (calTake s a1) := by
  intro a1
  unfold calTake
  split
  · exact h
  · extract_lets v0 v1 v2
    have h3 : Kept q v0 := by
      unfold v0
      apply kept_setCal
      exact h
    clear_value v0
    have h4 : Kept q v1 := by
      unfold v1
      apply kept_setF
      exact h3
    clear_value v1
    have h5 : Kept q v2 := by
      unfold v2
      apply kept_setReg
      exact h4
    clear_value v2
    apply kept_setReg
    exact h5

theorem kept_calStage (h : Kept q s) : ∀ a1, Kept q (calStage s a1) := by
  intro a1
  unfold calStage
  extract_lets v0 v1
  have h2 : Kept q v0 := by
    unfold v0
    apply kept_setCal
    exact h
  clear_value v0
  refine kept_ite ?_ ?_
  · apply kept_calTake
    exact h2
  · exact h2

theorem kept_calEnd (h : Kept q s) : ∀ a1 a2 a3 a4, Kept q (calEnd s a1 a2 a3 a4) := by
  intro a1 a2 a3 a4
  unfold calEnd
  extract_lets v0 v1 v2 v3
  have h4 : Kept q v0 := by
    unfold v0
    apply kept_setF
    apply kept_setF
    exact h
  clear_value v0
  have h5 : Kept q v1 := by
    unfold v1
    apply kept_raise
    exact h4
  clear_value v1
  have h6 : Kept q v3 := by
    unfold v3
    apply kept_setCal
    exact h5
  clear_value v3
  clear_value v2
  split
  · apply kept_calBegin
    exact h6
  · apply kept_calStatus
    exact h6

theorem kept_calCheck (h : Kept q s) : Kept q (calCheck s) := by
  unfold calCheck
  extract_lets v0 v1 v2 v3 v4 v5 v6 v7 v8
  have h9 : Kept q v5 := by
    unfold v5
    refine kept_ite ?_ ?_
    · exact h
    · apply kept_calStage
      exact h
  clear_value v5
  have h10 : Kept q v7 := by
    unfold v7
    apply kept_calStage
    exact h
  clear_value v7
  have h11 : Kept q v8 := by
    unfold v8
    refine kept_ite ?_ ?_
    · exact h10
    · apply kept_raise
      exact h10
  clear_value v8
  refine kept_ite ?_ ?_
  · apply kept_calEnd
    exact h
  · refine kept_ite ?_ ?_
    · apply kept_calEnd
      exact h9
    · apply kept_calEnd
      exact h11

theorem kept_calReadDone (h : Kept q s) : Kept q (calReadDone s) := by
  unfold calReadDone
  extract_lets v0 v1
  have h2 : Kept q v0 := by
    unfold v0
    split
    · refine kept_ite ?_ ?_
      · apply kept_calDramRead
        exact h
      · exact h
    · exact h
  clear_value v0
  have h3 : Kept q v1 := by
    unfold v1
    refine kept_ite ?_ ?_
    · exact h2
    · apply kept_calStore
      apply kept_setCal
      exact h2
  clear_value v1
  refine kept_ite ?_ ?_
  · exact h
  · refine kept_ite ?_ ?_
    · apply kept_calCheck
      exact h3
    · exact h3

theorem kept_calReadTimeout (h : Kept q s) : Kept q (calReadTimeout s) := by
  unfold calReadTimeout
  split
  · refine kept_ite ?_ ?_
    · exact h
    · apply kept_calCheck
      apply kept_setCal
      exact h
  · exact h

theorem kept_calSerial (h : Kept q s) : Kept q (calSerial s) := by
  unfold calSerial
  refine kept_ite ?_ ?_
  · apply kept_calCheck
    exact h
  · apply kept_calFirstRead
    exact h

theorem kept_calDramUp (h : Kept q s) : Kept q (calDramUp s) := by
  unfold calDramUp
  apply kept_calFirstRead
  apply kept_setCal
  exact h

theorem kept_calLaunched (h : Kept q s) : ∀ a1 a2, Kept q (calLaunched s a1 a2) := by
  intro a1 a2
  unfold calLaunched
  extract_lets v0 v1
  have h2 : Kept q v1 := by
    unfold v1
    refine kept_ite ?_ ?_
    · apply kept_calTake
      exact h
    · exact h
  clear_value v1
  refine kept_ite ?_ ?_
  · apply kept_setCal
    exact h2
  · exact h2

theorem kept_calTimingStart (h : Kept q s) : Kept q (calTimingStart s) := by
  unfold calTimingStart
  extract_lets v0
  have h1 : Kept q v0 := by
    unfold v0
    apply kept_setCal
    exact h
  clear_value v0
  refine kept_ite ?_ ?_
  · apply kept_calTake
    exact h1
  · exact h1

theorem kept_calFrameStart (h : Kept q s) : Kept q (calFrameStart s) := by
  unfold calFrameStart
  refine kept_ite ?_ ?_
  · apply kept_setCal
    exact h
  · exact h

theorem kept_abandonMigration (h : Kept q s) : ∀ a1, Kept q (abandonMigration s a1) := by
  intro a1
  unfold abandonMigration
  extract_lets v0 v1 v2 v3
  have h4 : Kept q v2 := by
    unfold v2
    apply kept_setQuad
    apply kept_setF
    exact h
  clear_value v2
  have h5 : Kept q v3 := by
    unfold v3
    apply kept_setRankState
    apply kept_setRankState
    exact h4
  clear_value v3
  apply kept_raise
  exact h5

theorem kept_rankFailing (h : Kept q s) : ∀ a1 a2, Kept q (rankFailing s a1 a2) := by
  intro a1 a2
  unfold rankFailing
  apply kept_raise
  apply kept_setRankState
  exact h

theorem kept_startMigration (h : Kept q s) : ∀ a1 a2, Kept q (startMigration s a1 a2) := by
  intro a1 a2
  unfold startMigration
  extract_lets v0 v1 v2 v3
  have h4 : Kept q v0 := by
    unfold v0
    apply kept_setRankState
    exact h
  clear_value v0
  have h5 : Kept q v2 := by
    unfold v2
    apply kept_setReg
    exact h4
  clear_value v2
  have h6 : Kept q v3 := by
    unfold v3
    apply kept_setQuad
    exact h5
  clear_value v3
  apply kept_raise
  exact h6

theorem kept_retireRank (h : Kept q s) : ∀ a1 a2, Kept q (retireRank s a1 a2) := by
  intro a1 a2
  unfold retireRank
  extract_lets v0 v1 v2
  have h3 : Kept q v0 := by
    unfold v0
    refine kept_rec ?_
    apply kept_parts
    exact h
  clear_value v0
  have h4 : Kept q v1 := by
    unfold v1
    apply kept_raise
    exact h3
  clear_value v1
  have h5 : Kept q v2 := by
    unfold v2
    refine kept_ite ?_ ?_
    · refine kept_ite ?_ ?_
      · apply kept_abandonMigration
        exact h4
      · refine kept_ite ?_ ?_
        · apply kept_rankFailing
          exact h4
        · apply kept_setRankState
          exact h4
    · refine kept_ite ?_ ?_
      · apply kept_startMigration
        exact h4
      · apply kept_rankFailing
        exact h4
  clear_value v2
  refine kept_ite ?_ ?_
  · exact h
  · apply kept_checkChannel
    exact h5

theorem kept_portFail (h : Kept q s) : ∀ a1 a2, Kept q (portFail s a1 a2) := by
  intro a1 a2
  unfold portFail
  extract_lets v0 v1 v2
  have h3 : Kept q v1 := by
    unfold v1
    apply kept_setF
    apply kept_setF
    exact h
  clear_value v1
  have h4 : Kept q v2 := by
    unfold v2
    apply kept_allLanes
    exact h3
  clear_value v2
  apply kept_leaveService
  apply kept_qtzEvent
  exact h4

theorem kept_laneRetire (h : Kept q s) : ∀ a1 a2, Kept q (laneRetire s a1 a2) := by
  intro a1 a2
  unfold laneRetire
  extract_lets v0 v1
  have h2 : Kept q v1 := by
    unfold v1
    apply kept_retireCell
    exact h
  clear_value v1
  split
  · extract_lets v3 v4 v5 v6 v7
    have h8 : Kept q v5 := by
      unfold v5
      apply kept_enterLane
      apply kept_setSl
      exact h2
    clear_value v5
    have h9 : Kept q v7 := by
      unfold v7
      apply kept_setF
      exact h8
    clear_value v7
    refine kept_ite ?_ ?_
    · apply kept_portFail
      exact h8
    · apply kept_qtzEvent
      apply kept_trainPort
      exact h9
  · apply kept_raise
    apply kept_setF
    apply kept_enterLane
    exact h2
  · apply kept_raise
    apply kept_enterLane
    exact h2

theorem kept_retireUnit (h : Kept q s) : ∀ a1 a2 a3, Kept q (retireUnit s a1 a2 a3) := by
  intro a1 a2 a3
  unfold retireUnit
  refine kept_ite ?_ ?_
  · apply kept_retireRank
    exact h
  · refine kept_ite ?_ ?_
    · apply kept_laneRetire
      exact h
    · refine kept_ite ?_ ?_
      · apply kept_laneRetire
        exact h
      · refine kept_ite ?_ ?_
        · apply kept_laneRetire
          exact h
        · apply kept_retireCell
          exact h

theorem kept_putCtx (h : Kept q s) : ∀ a1, Kept q (putCtx s a1) := by
  intro a1
  unfold putCtx
  refine kept_rec ?_
  apply kept_parts
  exact h

theorem kept_retryCtx (h : Kept q s) : ∀ a1, Kept q (retryCtx s a1) := by
  intro a1
  unfold retryCtx
  split
  · exact h
  · split
    · exact h
    · extract_lets v0
      apply kept_putCtx
      exact h

theorem kept_cellError (h : Kept q s) : ∀ a1 a2 a3 a4 a5, Kept q (cellError s a1 a2 a3 a4 a5) := by
  intro a1 a2 a3 a4 a5
  unfold cellError
  extract_lets v0 v1
  have h2 : Kept q v0 := by
    unfold v0
    apply kept_raise
    exact h
  clear_value v0
  have h3 : Kept q v1 := by
    unfold v1
    refine kept_ite ?_ ?_
    · apply kept_retryCtx
      exact h2
    · exact h2
  clear_value v1
  refine kept_ite ?_ ?_
  · exact h
  · split
    · exact h
    · apply kept_retireUnit
      exact h
    · split
      refine kept_ite ?_ ?_
      · apply kept_retireUnit
        refine kept_fst (by assumption) ?_
        apply kept_countCorrected
        exact h
      · refine kept_fst (by assumption) ?_
        apply kept_countCorrected
        exact h
    · split
      refine kept_ite ?_ ?_
      · apply kept_retireUnit
        refine kept_fst (by assumption) ?_
        apply kept_countCorrected
        exact h3
      · refine kept_fst (by assumption) ?_
        apply kept_countCorrected
        exact h3

theorem kept_execCellError (h : Kept q s) : ∀ a1 a2 a3 a4 a5, KeptOut q (execCellError a1 a2 a3 a4 a5 s) := by
  intro a1 a2 a3 a4 a5
  unfold execCellError
  apply kept_next
  apply kept_cellError
  exact h

theorem kept_execCellQuarantined (h : Kept q s) : ∀ a1 a2 a3, KeptOut q (execCellQuarantined a1 a2 a3 s) := by
  intro a1 a2 a3
  unfold execCellQuarantined
  apply kept_next
  apply kept_cellReport
  exact h

theorem kept_hostReadTimesOut (h : Kept q s) : ∀ a1 a2, Kept q (hostReadTimesOut s a1 a2) := by
  intro a1 a2
  unfold hostReadTimesOut
  split
  · extract_lets v0
    refine kept_ite ?_ ?_
    · apply kept_setHost
      exact h
    · exact h
  · exact h

theorem kept_meshSend (h : Kept q s) : ∀ a1 a2 a3, Kept q (meshSend s a1 a2 a3) := by
  intro a1 a2 a3
  unfold meshSend
  apply kept_setNode
  exact h

theorem kept_respond (h : Kept q s) : ∀ a1 a2 a3 a4 a5 a6 a7, Kept q (respond s a1 a2 a3 a4 a5 a6 a7) := by
  intro a1 a2 a3 a4 a5 a6 a7
  unfold respond
  apply kept_meshSend
  exact h

theorem kept_answer (h : Kept q s) : ∀ a1 a2 a3 a4 a5 a6 a7, Kept q (answer s a1 a2 a3 a4 a5 a6 a7) := by
  intro a1 a2 a3 a4 a5 a6 a7
  unfold answer
  refine kept_ite ?_ ?_
  · apply kept_respond
    exact h
  · apply kept_respond
    exact h

theorem kept_noteFailed (h : Kept q s) : ∀ a1 a2 a3 a4, Kept q (noteFailed s a1 a2 a3 a4) := by
  intro a1 a2 a3 a4
  unfold noteFailed
  refine kept_rec ?_
  apply kept_parts
  exact h

theorem kept_setChan (h : Kept q s) : ∀ a1 a2, Kept q (setChan s a1 a2) := by
  intro a1 a2
  unfold setChan
  extract_lets v0
  refine kept_rec ?_
  apply kept_parts
  exact h

theorem kept_readsTimeOut (h : Kept q s) : ∀ a1, Kept q (readsTimeOut s a1) := by
  intro a1
  unfold readsTimeOut
  apply kept_foldl
  · exact h
  · intro x0 x1 h2
    refine kept_ite ?_ ?_
    · apply kept_foldl
      · apply kept_setChan
        exact h2
      · intro x3 x4 h5
        apply kept_answer
        apply kept_noteFailed
        exact h5
    · exact h2

theorem kept_endOutstanding (h : Kept q s) : ∀ a1, Kept q (endOutstanding s a1) := by
  intro a1
  unfold endOutstanding
  extract_lets v0 v1 v2 v3 v4
  have h5 : Kept q v1 := by
    unfold v1
    refine kept_rec ?_
    apply kept_parts
    exact h
  clear_value v1
  have h6 : Kept q v3 := by
    unfold v3
    refine kept_rec ?_
    apply kept_parts
    exact h5
  clear_value v3
  have h7 : Kept q v4 := by
    unfold v4
    apply kept_hostReadTimesOut
    apply kept_hostReadTimesOut
    apply kept_readsTimeOut
    exact h6
  clear_value v4
  apply kept_foldl
  · exact h7
  · intro x8 x9 h10
    apply kept_setFlint
    exact h10

theorem kept_micaReset (h : Kept q s) : Kept q (micaReset s) := by
  unfold micaReset
  extract_lets v0 v1 v2
  have h3 : Kept q v0 := by
    unfold v0
    apply kept_setMica
    exact h
  clear_value v0
  have h4 : Kept q v2 := by
    unfold v2
    apply kept_resetWindow
    exact h3
  clear_value v2
  apply kept_foldl
  · exact h4
  · intro x5 x6 h7
    apply kept_setReg
    exact h7

theorem kept_resetKeeping (h : Kept q s) : ∀ a1, Kept q (resetKeeping s a1) := by
  intro a1
  unfold resetKeeping
  extract_lets v0
  apply kept_foldl
  · apply kept_resetWindow
    exact h
  · intro x1 x2 h3
    extract_lets v4
    apply kept_setReg
    exact h3

theorem kept_setRate (h : Kept q s) : ∀ a1, Kept q (setRate s a1) := by
  intro a1
  unfold setRate
  apply kept_setReg
  apply kept_setServo
  exact h

theorem kept_regionReset (h : Kept q s) : ∀ a1, Kept q (regionReset s a1) := by
  intro a1
  unfold regionReset
  extract_lets v0 v1 v2 v3 v4 v5
  have h6 : Kept q v0 := by
    unfold v0
    apply kept_ifacesReset
    exact h
  clear_value v0
  have h7 : Kept q v1 := by
    unfold v1
    refine kept_ite ?_ ?_
    · apply kept_micaReset
      exact h6
    · refine kept_ite ?_ ?_
      · apply kept_resetKeeping
        exact h6
      · apply kept_resetWindow
        exact h6
  clear_value v1
  have h8 : Kept q v2 := by
    unfold v2
    apply kept_setLastAction
    exact h7
  clear_value v2
  have h9 : Kept q v3 := by
    unfold v3
    apply kept_foldl
    · exact h8
    · intro x10 x11 h12
      apply kept_endStream
      exact h12
  clear_value v3
  have h13 : Kept q v4 := by
    unfold v4
    apply kept_lanesReset
    apply kept_setObs
    exact h8
  clear_value v4
  have h14 : Kept q v5 := by
    unfold v5
    apply kept_setCal
    exact h13
  clear_value v5
  refine kept_ite ?_ ?_
  · apply kept_setFlint
    exact h8
  · refine kept_ite ?_ ?_
    · apply kept_setFlint
      exact h8
    · refine kept_ite ?_ ?_
      · apply kept_lanesReset
        apply kept_setQuartz
        exact h9
      · refine kept_ite ?_ ?_
        · apply kept_setGal
          exact h8
        · refine kept_ite ?_ ?_
          · apply kept_setF
            exact h14
          · refine kept_ite ?_ ?_
            · apply kept_setRate
              exact h8
            · exact h8

theorem kept_drainEnds (h : Kept q s) : ∀ a1, Kept q (drainEnds s a1) := by
  intro a1
  unfold drainEnds
  extract_lets v0
  have h1 : Kept q v0 := by
    unfold v0
    apply kept_endOutstanding
    exact h
  clear_value v0
  refine kept_ite ?_ ?_
  · exact h
  · refine kept_ite ?_ ?_
    · apply kept_setPhase
      apply kept_regionReset
      apply kept_countReset
      exact h1
    · apply kept_setPhase
      apply kept_calAbort
      exact h1

theorem kept_execDrainEnd (h : Kept q s) : ∀ a1, KeptOut q (execDrainEnd a1 s) := by
  intro a1
  unfold execDrainEnd
  apply kept_next
  apply kept_drainEnds
  exact h

theorem kept_execRegionRejoined (h : Kept q s) : ∀ a1, KeptOut q (execRegionRejoined a1 s) := by
  intro a1
  unfold execRegionRejoined
  apply kept_next
  refine kept_ite ?_ ?_
  · apply kept_deferredReports
    apply kept_powerSettled
    apply kept_raise
    apply kept_regionJoins
    exact h
  · exact h

theorem kept_execPllUnlock (h : Kept q s) : ∀ a1, KeptOut q (execPllUnlock a1 s) := by
  intro a1
  unfold execPllUnlock
  apply kept_next
  apply kept_regionFault
  exact h

theorem kept_nocRouter (h : Kept q s) : ∀ a1 a2, Kept q (nocRouter s a1 a2) := by
  intro a1 a2
  unfold nocRouter
  extract_lets v0 v1 v2 v3 v4 v5 v6 v7 v8 v9
  have h10 : Kept q v7 := by
    unfold v7
    refine kept_rec ?_
    apply kept_parts
    exact h
  clear_value v7
  have h11 : Kept q v8 := by
    unfold v8
    apply kept_foldl
    · exact h10
    · intro x12 x13 h14
      apply kept_raise
      exact h14
  clear_value v8
  have h15 : Kept q v9 := by
    unfold v9
    refine kept_ite ?_ ?_
    · apply kept_setTags
      exact h11
    · exact h11
  clear_value v9
  refine kept_ite ?_ ?_
  · exact h
  · refine kept_ite ?_ ?_
    · exact h
    · refine kept_ite ?_ ?_
      · apply kept_raise
        exact h11
      · apply kept_meshSend
        exact h15

theorem kept_eventArrives (h : Kept q s) : ∀ a1, Kept q (eventArrives s a1) := by
  intro a1
  unfold eventArrives
  extract_lets v0 v1 v2 v3
  have h4 : Kept q v2 := by
    unfold v2
    apply kept_bump
    exact h
  clear_value v2
  refine kept_ite ?_ ?_
  · apply kept_setColl
    exact h
  · refine kept_ite ?_ ?_
    · exact h4
    · apply kept_setColl
      exact h4

theorem kept_readTurn (h : Kept q s) : ∀ a1 a2 a3, Kept q (readTurn s a1 a2 a3).1 := by
  intro a1 a2 a3
  unfold readTurn
  extract_lets v0 v1
  have h2 : Kept q v1 := by
    unfold v1
    refine kept_ite ?_ ?_
    · exact h
    · apply kept_setChan
      exact h
  clear_value v1
  split
  · exact h
  · split
    · exact h2
    · dsimp only
      apply kept_setChan
      exact h2

theorem kept_reportCorrected (h : Kept q s) : ∀ a1 a2 a3, Kept q (reportCorrected s a1 a2 a3) := by
  intro a1 a2 a3
  unfold reportCorrected
  extract_lets v0 v1 v2 v3 v4 v5
  have h6 : Kept q v5 := by
    unfold v5
    apply kept_setChan
    exact h
  clear_value v5
  refine kept_ite ?_ ?_
  · exact h
  · refine kept_ite ?_ ?_
    · apply kept_raise
      exact h6
    · exact h6

theorem kept_rankCorrected (h : Kept q s) : ∀ a1 a2 a3, Kept q (rankCorrected s a1 a2 a3) := by
  intro a1 a2 a3
  unfold rankCorrected
  extract_lets v0 v1
  have h2 : Kept q v0 := by
    unfold v0
    apply kept_bump
    exact h
  clear_value v0
  have h3 : Kept q v1 := by
    unfold v1
    apply kept_reportCorrected
    exact h2
  clear_value v1
  refine kept_ite ?_ ?_
  · exact h
  · split
    refine kept_ite ?_ ?_
    · apply kept_retireRank
      refine kept_fst (by assumption) ?_
      apply kept_countCorrected
      exact h3
    · refine kept_fst (by assumption) ?_
      apply kept_countCorrected
      exact h3

theorem kept_readRank (h : Kept q s) : ∀ a1 a2 a3 a4 a5 a6, Kept q (readRank s a1 a2 a3 a4 a5 a6).1 := by
  intro a1 a2 a3 a4 a5 a6
  unfold readRank
  extract_lets v0
  split
  extract_lets v1 v2 v3 v4 v5
  have h6 : Kept q v1 := by
    unfold v1
    apply kept_rankCorrected
    exact h
  clear_value v1
  have h7 : Kept q v2 := by
    unfold v2
    refine kept_ite ?_ ?_
    · apply kept_poisonRead
      exact h6
    · exact h6
  clear_value v2
  have h8 : Kept q v3 := by
    unfold v3
    apply kept_bump
    exact h7
  clear_value v3
  have h9 : Kept q v4 := by
    unfold v4
    refine kept_ite ?_ ?_
    · exact h8
    · apply kept_retireRank
      exact h8
  clear_value v4
  have h10 : Kept q v5 := by
    unfold v5
    refine kept_ite ?_ ?_
    · exact h7
    · apply kept_raise
      exact h7
  clear_value v5
  split
  · exact h9
  · exact h10

theorem kept_readPlace (h : Kept q s) : ∀ a1 a2 a3 a4 a5, Kept q (readPlace s a1 a2 a3 a4 a5).1 := by
  intro a1 a2 a3 a4 a5
  unfold readPlace
  extract_lets v0 v1 v2
  have h3 : Kept q v2.1 := by
    unfold v2
    apply kept_readRank
    exact h
  clear_value v2
  split
  · split
    · apply kept_readRank
      exact h3
    · exact h3
  · apply kept_readRank
    exact h

theorem kept_dramRead (h : Kept q s) : ∀ a1 a2, Kept q (dramRead s a1 a2) := by
  intro a1 a2
  unfold dramRead
  extract_lets v0 v1
  refine kept_ite ?_ ?_
  · exact h
  · split
    · apply kept_answer
      exact h
    · extract_lets v2 v3
      refine kept_ite ?_ ?_
      · apply kept_answer
        exact h
      · refine kept_ite ?_ ?_
        · split
          · apply kept_answer
            apply kept_poisonRead
            exact h
          · apply kept_answer
            apply kept_noteFailed
            exact h
        · split
          refine kept_ite ?_ ?_
          · refine kept_fst (by assumption) ?_
            apply kept_readTurn
            exact h
          · split
            extract_lets v4
            have h5 : Kept q v4 := by
              unfold v4
              apply kept_noteFailed
              refine kept_fst (by assumption) ?_
              apply kept_readPlace
              refine kept_fst (by assumption) ?_
              apply kept_readTurn
              exact h
            clear_value v4
            apply kept_answer
            exact h5

theorem kept_poisonWord (h : Kept q s) : ∀ a1, Kept q (poisonWord s a1) := by
  intro a1
  unfold poisonWord
  refine kept_rec ?_
  apply kept_parts
  exact h

theorem kept_lineStore (h : Kept q s) : ∀ a1 a2 a3 a4 a5 a6, Kept q (lineStore s a1 a2 a3 a4 a5 a6).2 := by
  intro a1 a2 a3 a4 a5 a6
  unfold lineStore
  extract_lets v0 v1 v2 v3 v4 v5 v6 v7 v8
  have h9 : Kept q v4 := by
    unfold v4
    refine kept_rec ?_
    apply kept_mem
    apply kept_parts
    exact h
  clear_value v4
  have h10 : Kept q v5 := by
    unfold v5
    apply kept_clearPoison
    exact h9
  clear_value v5
  have h11 : Kept q v7 := by
    unfold v7
    apply kept_foldl
    · exact h10
    · intro x12 x13 h14
      apply kept_poisonWord
      exact h14
  clear_value v7
  have h15 : Kept q v8 := by
    unfold v8
    split
    · apply kept_setQuad
      exact h11
    · exact h11
  clear_value v8
  exact h15

theorem kept_writeEnters (h : Kept q s) : ∀ a1 a2, Kept q (writeEnters s a1 a2) := by
  intro a1 a2
  unfold writeEnters
  refine kept_ite ?_ ?_
  · exact h
  · apply kept_setChan
    exact h

theorem kept_dramWrite (h : Kept q s) : ∀ r e d p fs w, Kept q (dramWrite s r e d p fs w).1 := by
  intro r e d p fs w
  unfold dramWrite
  extract_lets a st reply
  have hr : ∀ t b c, Kept q t → Kept q (reply t b c) := fun t b c ht => kept_ite ht (kept_answer ht _ _ _ _ _ _ _)
  clear_value reply
  split
  · exact h
  split
  · exact hr _ _ _ h
  extract_lets home cs c done
  have hd : ∀ t old bad, Kept q t → Kept q (done t old bad).1 := by
    intro t old bad ht
    have h1 := kept_lineStore ht r.line e.toNat d p.toNat old bad
    apply hr
    apply kept_foldl h1
    intro u x hu
    exact kept_writeEnters hu _ _
  clear_value done
  split
  · exact hr _ _ _ h
  split
  · exact h
  split
  · exact hd _ _ _ h
  split
  rename_i e
  have h1 := kept_fst e (kept_readTurn h _ _ _)
  split
  · exact h1
  split
  rename_i e
  exact hd _ _ _ (kept_fst e (kept_readPlace h1 _ _ _ _ _))

theorem kept_dramPacket (h : Kept q s) : ∀ a1, Kept q (dramPacket s a1).1 := by
  intro a1
  unfold dramPacket
  split
  · exact h
  · split
    · split
      · exact h
      · extract_lets v0
        split
        · exact h
        · dsimp only
          apply kept_dramRead
          exact h
    · apply kept_dramWrite
      exact h

theorem kept_nocIface (h : Kept q s) : ∀ a1 a2, Kept q (nocIface s a1 a2) := by
  intro a1 a2
  unfold nocIface
  extract_lets v0 v1 v2
  have h3 : Kept q v2.1 := by
    unfold v2
    apply kept_dramPacket
    exact h
  clear_value v2
  refine kept_ite ?_ ?_
  · exact h
  · refine kept_ite ?_ ?_
    · unfold v0
      refine kept_rec ?_
      apply kept_parts
      apply kept_setTags
      exact h
    · refine kept_ite ?_ ?_
      · apply kept_answer
        unfold v0
        refine kept_rec ?_
        apply kept_parts
        exact h
      · refine kept_ite ?_ ?_
        · apply kept_eventArrives
          unfold v0
          refine kept_rec ?_
          apply kept_parts
          exact h
        · refine kept_ite ?_ ?_
          · refine kept_ite ?_ ?_
            · unfold v0
              refine kept_rec ?_
              apply kept_parts
              exact h3
            · exact h3
          · unfold v0
            refine kept_rec ?_
            apply kept_parts
            exact h

theorem kept_execNocPacket (h : Kept q s) : ∀ a1 a2, KeptOut q (execNocPacket a1 a2 s) := by
  intro a1 a2
  unfold execNocPacket
  apply kept_next
  split
  · apply kept_nocRouter
    exact h
  · apply kept_nocIface
    exact h

theorem kept_eventLands (h : Kept q s) : ∀ a1, Kept q (eventLands s a1) := by
  intro a1
  unfold eventLands
  extract_lets v0
  refine kept_ite ?_ ?_
  · exact h
  · apply kept_eventArrives
    refine kept_rec ?_
    apply kept_parts
    exact h

theorem kept_execEventArrival (h : Kept q s) : ∀ a1, KeptOut q (execEventArrival a1 s) := by
  intro a1
  unfold execEventArrival
  apply kept_next
  apply kept_eventLands
  exact h

theorem kept_hostEvent (h : Kept q s) : ∀ a1 a2, Kept q (hostEvent s a1 a2) := by
  intro a1 a2
  unfold hostEvent
  extract_lets v0
  refine kept_ite ?_ ?_
  · exact h
  · refine kept_ite ?_ ?_
    · apply kept_hostIrq
      apply kept_bump
      exact h
    · apply kept_hostShow
      apply kept_setHost
      exact h

theorem kept_eventDelivers (h : Kept q s) : Kept q (eventDelivers s) := by
  unfold eventDelivers
  split
  · exact h
  · extract_lets v0 v1 v2
    have h3 : Kept q v0 := by
      unfold v0
      apply kept_setColl
      exact h
    clear_value v0
    have h4 : Kept q v1 := by
      unfold v1
      refine kept_ite ?_ ?_
      · apply kept_logAdd
        exact h3
      · exact h3
    clear_value v1
    have h5 : Kept q v2 := by
      unfold v2
      apply kept_hostEvent
      apply kept_hostEvent
      exact h4
    clear_value v2
    split
    · apply kept_forwardEvent
      exact h5
    · apply kept_setColl
      exact h5

theorem kept_execEventDelivery (h : Kept q s) : KeptOut q (execEventDelivery s) := by
  unfold execEventDelivery
  apply kept_next
  apply kept_eventDelivers
  exact h

theorem kept_execCalmapStart (h : Kept q s) : ∀ a1 a2, KeptOut q (execCalmapStart a1 a2 s) := by
  intro a1 a2
  unfold execCalmapStart
  apply kept_next
  apply kept_reqServes
  · exact h
  · intro x0 h1
    apply kept_calCtrlWrite
    exact h1

theorem kept_execCalmapReadDone (h : Kept q s) : KeptOut q (execCalmapReadDone s) := by
  unfold execCalmapReadDone
  apply kept_next
  apply kept_whenServes
  · exact h
  · intro x0 h1
    apply kept_calReadDone
    exact h1

theorem kept_feedPort (h : Kept q s) : ∀ p b, Kept q (feedPort s p b) := by
  intro p b
  unfold feedPort
  split
  · exact h
  extract_lets v
  have hv : Kept q v := kept_resumePort h _
  clear_value v
  split
  · exact kept_retryHeld (kept_parseBytes hv _ _ _)
  · exact kept_setQPort hv _ _

theorem kept_execStreamStart (h : Kept q s) : ∀ a1 a2, KeptOut q (execStreamStart a1 a2 s) := by
  intro a1 a2
  unfold execStreamStart
  apply kept_next
  apply kept_feedPort
  exact h

theorem kept_execStreamEnd (h : Kept q s) : ∀ a1 a2, KeptOut q (execStreamEnd a1 a2 s) := by
  intro a1 a2
  unfold execStreamEnd
  apply kept_next
  apply kept_feedPort
  exact h

theorem kept_execPortEnable (h : Kept q s) : ∀ a1 a2 a3, KeptOut q (execPortEnable a1 a2 a3 s) := by
  intro a1 a2 a3
  unfold execPortEnable
  apply kept_next
  apply kept_reqServes
  · exact h
  · intro x0 h1
    apply kept_portCtrlWrite
    exact h1

theorem kept_execUnknownUnit (h : Kept q s) : ∀ a1 a2, KeptOut q (execUnknownUnit a1 a2 s) := by
  intro a1 a2
  unfold execUnknownUnit
  apply kept_next
  apply kept_feedPort
  exact h

theorem kept_execSceneFrameBegin (h : Kept q s) : ∀ a1 a2, KeptOut q (execSceneFrameBegin a1 a2 s) := by
  intro a1 a2
  unfold execSceneFrameBegin
  apply kept_next
  apply kept_feedPort
  exact h

theorem kept_execLayerHeader (h : Kept q s) : ∀ a1 a2, KeptOut q (execLayerHeader a1 a2 s) := by
  intro a1 a2
  unfold execLayerHeader
  apply kept_next
  apply kept_feedPort
  exact h

theorem kept_execPlaneData (h : Kept q s) : ∀ a1 a2, KeptOut q (execPlaneData a1 a2 s) := by
  intro a1 a2
  unfold execPlaneData
  apply kept_next
  apply kept_feedPort
  exact h

theorem kept_execSceneFrameEnd (h : Kept q s) : ∀ a1 a2, KeptOut q (execSceneFrameEnd a1 a2 s) := by
  intro a1 a2
  unfold execSceneFrameEnd
  apply kept_next
  apply kept_feedPort
  exact h

theorem kept_setFence (h : Kept q s) : ∀ a1 a2, Kept q (setFence s a1 a2) := by
  intro a1 a2
  unfold setFence
  apply kept_setF
  exact h

theorem kept_layerFence (h : Kept q s) : ∀ a1 a2, Kept q (layerFence s a1 a2) := by
  intro a1 a2
  unfold layerFence
  extract_lets v0 v1
  split
  · extract_lets v2 v3 v4
    have h5 : Kept q v2 := by
      unfold v2
      refine kept_ite ?_ ?_
      · apply kept_bump
        exact h
      · exact h
    clear_value v2
    have h6 : Kept q v3 := by
      unfold v3
      apply kept_setLayer
      exact h5
    clear_value v3
    have h7 : Kept q v4 := by
      unfold v4
      apply kept_qtzEvent
      apply kept_setFence
      exact h6
    clear_value v4
    refine kept_ite ?_ ?_
    · exact h
    · apply kept_retryHeld
      exact h7
  · exact h

theorem kept_execLayerFence (h : Kept q s) : ∀ a1 a2, KeptOut q (execLayerFence a1 a2 s) := by
  intro a1 a2
  unfold execLayerFence
  apply kept_next
  apply kept_whenServes
  · exact h
  · intro x0 h1
    apply kept_layerFence
    exact h1

theorem kept_execPortStalled (h : Kept q s) : ∀ a1 a2, KeptOut q (execPortStalled a1 a2 s) := by
  intro a1 a2
  unfold execPortStalled
  apply kept_next
  apply kept_whenServes
  · exact h
  · intro x0 h1
    apply kept_stallPort
    exact h1

theorem kept_sweepEnded (h : Kept q s) : ∀ a1, Kept q (sweepEnded s a1) := by
  intro a1
  unfold sweepEnded
  apply kept_setQPort
  exact h

theorem kept_bindSlot : ∀ p st d b n (a : State × BindSum) i, Kept q a.1 → Kept q (bindSlot p st d b n a i).1 := by
  intro p st d b n a i h
  obtain ⟨s, acc⟩ := a
  unfold bindSlot
  dsimp only
  repeat' split
  all_goals first
    | exact h
    | exact kept_setLayer (kept_rec (kept_parts h)) _ _ _

theorem kept_bindPort : ∀ n t (a : State × BindSum) p, Kept q a.1 → Kept q (bindPort n t a p).1 := by
  intro n t a p h
  obtain ⟨s, acc⟩ := a
  unfold bindPort
  dsimp only
  have hv := kept_sweepEnded (kept_setQPort h p fun q => { q with ended := q.ended.map fun b => if b.role = .bound then { b with role := .retiring } else b }) p
  repeat' split
  all_goals first
    | exact hv
    | (refine kept_foldl_fst ?_ ?_
       · exact hv
       intro y a hy
       exact kept_bindSlot _ _ _ _ _ _ _ hy)

theorem kept_layerBind (h : Kept q s) : Kept q (layerBind s) := by
  unfold layerBind
  split
  · exact h
  · extract_lets t
    split
    rename_i v sum e
    have hv : Kept q v := by
      apply kept_fst e
      apply kept_foldl_fst h
      intro y a hy
      exact kept_bindPort _ _ _ _ hy
    extract_lets base
    split
    rename_i bad u e2
    have hu : Kept q u := by
      apply kept_snd e2
      apply kept_foldl_snd hv
      intro y a hy
      exact kept_dramStore hy _ _
    extract_lets v2 v3 v4
    have h2 : Kept q v2 := by
      apply kept_foldl hu
      intro y a hy
      exact kept_setFence hy _ _
    exact kept_retryHeld (kept_setQuartz (kept_qtzEvent h2 _ _ _) _)

theorem kept_execLayerBind (h : Kept q s) : KeptOut q (execLayerBind s) := by
  unfold execLayerBind
  apply kept_next
  apply kept_whenServes
  · exact h
  · intro x0 h1
    apply kept_layerBind
    exact h1

theorem kept_layerLook (h : Kept q s) : ∀ a1 a2, Kept q (layerLook s a1 a2) := by
  intro a1 a2
  unfold layerLook
  extract_lets v0
  split
  · apply kept_setGal
    exact h
  · refine kept_ite ?_ ?_
    · exact h
    · apply kept_bump
      apply kept_setGal
      exact h

theorem kept_touchLine (h : Kept q s) : ∀ a1 a2 a3, Kept q (touchLine s a1 a2 a3) := by
  intro a1 a2 a3
  unfold touchLine
  extract_lets v0 v1 v2
  have h3 : Kept q v2 := by
    unfold v2
    apply kept_bump
    apply kept_setBlock
    exact h
  clear_value v2
  split
  · apply kept_setBlock
    exact h
  · refine kept_ite ?_ ?_
    · exact h
    · refine kept_ite ?_ ?_
      · apply kept_layerLook
        exact h3
      · exact h3

theorem kept_residualReads (h : Kept q s) : ∀ a1 a2 a3 a4 a5, Kept q (residualReads s a1 a2 a3 a4 a5) := by
  intro a1 a2 a3 a4 a5
  unfold residualReads
  refine kept_ite ?_ ?_
  · exact h
  · apply kept_foldl
    · exact h
    · intro x0 x1 h2
      extract_lets v3 v4 v5
      have h6 : Kept q v4 := by
        unfold v4
        apply kept_touchLine
        exact h2
      clear_value v4
      refine kept_ite ?_ ?_
      · exact h6
      · apply kept_raise
        apply kept_setGal
        exact h6

theorem kept_groupDispatch (h : Kept q s) : ∀ a1 a2, Kept q (groupDispatch s a1 a2) := by
  intro a1 a2
  unfold groupDispatch
  extract_lets v0
  refine kept_ite ?_ ?_
  · exact h
  · split
    · exact h
    · split
      · extract_lets v1 v2
        have h3 : Kept q v1 := by
          unfold v1
          apply kept_setBlock
          exact h
        clear_value v1
        have h4 : Kept q v2 := by
          unfold v2
          split
          · apply kept_residualReads
            exact h3
          · exact h3
        clear_value v2
        refine kept_rec ?_
        apply kept_parts
        exact h4
      · exact h

theorem kept_execGroupDispatch (h : Kept q s) : ∀ a1 a2, KeptOut q (execGroupDispatch a1 a2 s) := by
  intro a1 a2
  unfold execGroupDispatch
  apply kept_next
  apply kept_groupDispatch
  exact h

theorem kept_kernelFault (h : Kept q s) : ∀ a1 a2 a3 a4 a5, Kept q (kernelFault s a1 a2 a3 a4 a5) := by
  intro a1 a2 a3 a4 a5
  unfold kernelFault
  extract_lets v0 v1
  have h2 : Kept q v0 := by
    unfold v0
    apply kept_bump
    exact h
  clear_value v0
  refine kept_ite ?_ ?_
  · exact h
  · refine kept_ite ?_ ?_
    · exact h2
    · apply kept_raise
      apply kept_setGal
      exact h2

theorem kept_groupEnd (h : Kept q s) : ∀ a1 a2, Kept q (groupEnd s a1 a2) := by
  intro a1 a2
  unfold groupEnd
  extract_lets v0 v1 v2 v3
  have h4 : Kept q v2 := by
    unfold v2
    apply kept_setBlock
    exact h
  clear_value v2
  have h5 : Kept q v3 := by
    unfold v3
    refine kept_rec ?_
    apply kept_parts
    exact h4
  clear_value v3
  refine kept_ite ?_ ?_
  · exact h5
  · apply kept_kernelFault
    exact h5

theorem kept_raySettle (h : Kept q s) : ∀ a1 a2 a3, Kept q (raySettle s a1 a2 a3) := by
  intro a1 a2 a3
  unfold raySettle
  extract_lets v0 v1
  refine kept_ite ?_ ?_
  · unfold v1
    extract_lets v2
    have h3 : Kept q v2 := by
      unfold v2
      apply kept_groupEnd
      exact h
    clear_value v2
    refine kept_ite ?_ ?_
    · apply kept_kernelFault
      exact h3
    · exact h3
  · refine kept_ite ?_ ?_
    · unfold v1
      extract_lets v4
      have h5 : Kept q v4 := by
        unfold v4
        apply kept_groupEnd
        exact h
      clear_value v4
      refine kept_ite ?_ ?_
      · apply kept_kernelFault
        exact h5
      · exact h5
    · apply kept_putCtx
      exact h

theorem kept_rayExec (h : Kept q s) : ∀ o c f, (∀ l x t, Kept q t → Kept q (f l x t).st) → KeptOut q (rayExec o c f s) := by
  intro o c f hf
  unfold rayExec
  split
  · exact kept_refused
  · split
    · apply kept_next
      exact h
    · split
      · apply kept_next
        exact h
      · extract_lets v0
        split
        · split
          · apply kept_next
            apply kept_raySettle
            unfold v0
            apply hf
            exact h
          · exact kept_refused
        · apply kept_next
          apply kept_raySettle
          unfold v0
          apply hf
          exact h
        · apply kept_next
          apply kept_raySettle
          unfold v0
          apply hf
          exact h

theorem kept_raySimple (h : Kept q s) : ∀ a1 a2 a3, KeptOut q (raySimple a1 a2 a3 s) := by
  intro a1 a2 a3
  unfold raySimple
  apply kept_rayExec
  · exact h
  · intro x0 x1 x2 h3
    exact h3

theorem kept_execRayAdd (h : Kept q s) : ∀ a1 a2, KeptOut q (execRayAdd a1 a2 s) := by
  intro a1 a2
  unfold execRayAdd
  apply kept_raySimple
  exact h

theorem kept_execRayAddi (h : Kept q s) : ∀ a1 a2, KeptOut q (execRayAddi a1 a2 s) := by
  intro a1 a2
  unfold execRayAddi
  apply kept_raySimple
  exact h

theorem kept_execRaySub (h : Kept q s) : ∀ a1 a2, KeptOut q (execRaySub a1 a2 s) := by
  intro a1 a2
  unfold execRaySub
  apply kept_raySimple
  exact h

theorem kept_execRaySubi (h : Kept q s) : ∀ a1 a2, KeptOut q (execRaySubi a1 a2 s) := by
  intro a1 a2
  unfold execRaySubi
  apply kept_raySimple
  exact h

theorem kept_execRayMul (h : Kept q s) : ∀ a1 a2, KeptOut q (execRayMul a1 a2 s) := by
  intro a1 a2
  unfold execRayMul
  apply kept_raySimple
  exact h

theorem kept_execRayMuli (h : Kept q s) : ∀ a1 a2, KeptOut q (execRayMuli a1 a2 s) := by
  intro a1 a2
  unfold execRayMuli
  apply kept_raySimple
  exact h

theorem kept_execRayFma (h : Kept q s) : ∀ a1 a2, KeptOut q (execRayFma a1 a2 s) := by
  intro a1 a2
  unfold execRayFma
  apply kept_raySimple
  exact h

theorem kept_execRayMin (h : Kept q s) : ∀ a1 a2, KeptOut q (execRayMin a1 a2 s) := by
  intro a1 a2
  unfold execRayMin
  apply kept_raySimple
  exact h

theorem kept_execRayMax (h : Kept q s) : ∀ a1 a2, KeptOut q (execRayMax a1 a2 s) := by
  intro a1 a2
  unfold execRayMax
  apply kept_raySimple
  exact h

theorem kept_execRayMini (h : Kept q s) : ∀ a1 a2, KeptOut q (execRayMini a1 a2 s) := by
  intro a1 a2
  unfold execRayMini
  apply kept_raySimple
  exact h

theorem kept_execRayMaxi (h : Kept q s) : ∀ a1 a2, KeptOut q (execRayMaxi a1 a2 s) := by
  intro a1 a2
  unfold execRayMaxi
  apply kept_raySimple
  exact h

theorem kept_execRayAbs (h : Kept q s) : ∀ a1 a2, KeptOut q (execRayAbs a1 a2 s) := by
  intro a1 a2
  unfold execRayAbs
  apply kept_raySimple
  exact h

theorem kept_execRayNeg (h : Kept q s) : ∀ a1 a2, KeptOut q (execRayNeg a1 a2 s) := by
  intro a1 a2
  unfold execRayNeg
  apply kept_raySimple
  exact h

theorem kept_execRayFloor (h : Kept q s) : ∀ a1 a2, KeptOut q (execRayFloor a1 a2 s) := by
  intro a1 a2
  unfold execRayFloor
  apply kept_raySimple
  exact h

theorem kept_execRayFract (h : Kept q s) : ∀ a1 a2, KeptOut q (execRayFract a1 a2 s) := by
  intro a1 a2
  unfold execRayFract
  apply kept_raySimple
  exact h

theorem kept_execRayRcp (h : Kept q s) : ∀ a1 a2, KeptOut q (execRayRcp a1 a2 s) := by
  intro a1 a2
  unfold execRayRcp
  apply kept_raySimple
  exact h

theorem kept_execRayRsq (h : Kept q s) : ∀ a1 a2, KeptOut q (execRayRsq a1 a2 s) := by
  intro a1 a2
  unfold execRayRsq
  apply kept_raySimple
  exact h

theorem kept_execRaySqrt (h : Kept q s) : ∀ a1 a2, KeptOut q (execRaySqrt a1 a2 s) := by
  intro a1 a2
  unfold execRaySqrt
  apply kept_raySimple
  exact h

theorem kept_execRayAnd (h : Kept q s) : ∀ a1 a2, KeptOut q (execRayAnd a1 a2 s) := by
  intro a1 a2
  unfold execRayAnd
  apply kept_raySimple
  exact h

theorem kept_execRayOr (h : Kept q s) : ∀ a1 a2, KeptOut q (execRayOr a1 a2 s) := by
  intro a1 a2
  unfold execRayOr
  apply kept_raySimple
  exact h

theorem kept_execRayXor (h : Kept q s) : ∀ a1 a2, KeptOut q (execRayXor a1 a2 s) := by
  intro a1 a2
  unfold execRayXor
  apply kept_raySimple
  exact h

theorem kept_execRayNot (h : Kept q s) : ∀ a1 a2, KeptOut q (execRayNot a1 a2 s) := by
  intro a1 a2
  unfold execRayNot
  apply kept_raySimple
  exact h

theorem kept_execRayShl (h : Kept q s) : ∀ a1 a2, KeptOut q (execRayShl a1 a2 s) := by
  intro a1 a2
  unfold execRayShl
  apply kept_raySimple
  exact h

theorem kept_execRayShr (h : Kept q s) : ∀ a1 a2, KeptOut q (execRayShr a1 a2 s) := by
  intro a1 a2
  unfold execRayShr
  apply kept_raySimple
  exact h

theorem kept_execRayAsr (h : Kept q s) : ∀ a1 a2, KeptOut q (execRayAsr a1 a2 s) := by
  intro a1 a2
  unfold execRayAsr
  apply kept_raySimple
  exact h

theorem kept_execRayAndi (h : Kept q s) : ∀ a1 a2, KeptOut q (execRayAndi a1 a2 s) := by
  intro a1 a2
  unfold execRayAndi
  apply kept_raySimple
  exact h

theorem kept_execRayOri (h : Kept q s) : ∀ a1 a2, KeptOut q (execRayOri a1 a2 s) := by
  intro a1 a2
  unfold execRayOri
  apply kept_raySimple
  exact h

theorem kept_execRayXori (h : Kept q s) : ∀ a1 a2, KeptOut q (execRayXori a1 a2 s) := by
  intro a1 a2
  unfold execRayXori
  apply kept_raySimple
  exact h

theorem kept_execRayShli (h : Kept q s) : ∀ a1 a2, KeptOut q (execRayShli a1 a2 s) := by
  intro a1 a2
  unfold execRayShli
  apply kept_raySimple
  exact h

theorem kept_execRayShri (h : Kept q s) : ∀ a1 a2, KeptOut q (execRayShri a1 a2 s) := by
  intro a1 a2
  unfold execRayShri
  apply kept_raySimple
  exact h

theorem kept_execRayAsri (h : Kept q s) : ∀ a1 a2, KeptOut q (execRayAsri a1 a2 s) := by
  intro a1 a2
  unfold execRayAsri
  apply kept_raySimple
  exact h

theorem kept_execRayMov (h : Kept q s) : ∀ a1 a2, KeptOut q (execRayMov a1 a2 s) := by
  intro a1 a2
  unfold execRayMov
  apply kept_raySimple
  exact h

theorem kept_execRayMovi (h : Kept q s) : ∀ a1 a2, KeptOut q (execRayMovi a1 a2 s) := by
  intro a1 a2
  unfold execRayMovi
  apply kept_raySimple
  exact h

theorem kept_execRayMovk (h : Kept q s) : ∀ a1 a2, KeptOut q (execRayMovk a1 a2 s) := by
  intro a1 a2
  unfold execRayMovk
  apply kept_raySimple
  exact h

theorem kept_execRayCvt (h : Kept q s) : ∀ a1 a2, KeptOut q (execRayCvt a1 a2 s) := by
  intro a1 a2
  unfold execRayCvt
  apply kept_raySimple
  exact h

theorem kept_execRaySel (h : Kept q s) : ∀ a1 a2, KeptOut q (execRaySel a1 a2 s) := by
  intro a1 a2
  unfold execRaySel
  apply kept_raySimple
  exact h

theorem kept_execRayCmp (h : Kept q s) : ∀ a1 a2, KeptOut q (execRayCmp a1 a2 s) := by
  intro a1 a2
  unfold execRayCmp
  apply kept_raySimple
  exact h

theorem kept_execRayCmpi (h : Kept q s) : ∀ a1 a2, KeptOut q (execRayCmpi a1 a2 s) := by
  intro a1 a2
  unfold execRayCmpi
  apply kept_raySimple
  exact h

theorem kept_execRayPand (h : Kept q s) : ∀ a1 a2, KeptOut q (execRayPand a1 a2 s) := by
  intro a1 a2
  unfold execRayPand
  apply kept_raySimple
  exact h

theorem kept_execRayPor (h : Kept q s) : ∀ a1 a2, KeptOut q (execRayPor a1 a2 s) := by
  intro a1 a2
  unfold execRayPor
  apply kept_raySimple
  exact h

theorem kept_execRayPxor (h : Kept q s) : ∀ a1 a2, KeptOut q (execRayPxor a1 a2 s) := by
  intro a1 a2
  unfold execRayPxor
  apply kept_raySimple
  exact h

theorem kept_execRayPnot (h : Kept q s) : ∀ a1 a2, KeptOut q (execRayPnot a1 a2 s) := by
  intro a1 a2
  unfold execRayPnot
  apply kept_raySimple
  exact h

theorem kept_execRayPmovi (h : Kept q s) : ∀ a1 a2, KeptOut q (execRayPmovi a1 a2 s) := by
  intro a1 a2
  unfold execRayPmovi
  apply kept_raySimple
  exact h

theorem kept_execRaySmovi (h : Kept q s) : ∀ a1 a2, KeptOut q (execRaySmovi a1 a2 s) := by
  intro a1 a2
  unfold execRaySmovi
  apply kept_raySimple
  exact h

theorem kept_execRaySadd (h : Kept q s) : ∀ a1 a2, KeptOut q (execRaySadd a1 a2 s) := by
  intro a1 a2
  unfold execRaySadd
  apply kept_raySimple
  exact h

theorem kept_execRaySaddi (h : Kept q s) : ∀ a1 a2, KeptOut q (execRaySaddi a1 a2 s) := by
  intro a1 a2
  unfold execRaySaddi
  apply kept_raySimple
  exact h

theorem kept_execRayBrany (h : Kept q s) : ∀ a1 a2, KeptOut q (execRayBrany a1 a2 s) := by
  intro a1 a2
  unfold execRayBrany
  apply kept_rayExec
  · exact h
  · intro x0 x1 x2 h3
    exact h3

theorem kept_execRayBrall (h : Kept q s) : ∀ a1 a2, KeptOut q (execRayBrall a1 a2 s) := by
  intro a1 a2
  unfold execRayBrall
  apply kept_rayExec
  · exact h
  · intro x0 x1 x2 h3
    exact h3

theorem kept_execRayLoop (h : Kept q s) : ∀ a1 a2, KeptOut q (execRayLoop a1 a2 s) := by
  intro a1 a2
  unfold execRayLoop
  apply kept_rayExec
  · exact h
  · intro x0 x1 x2 h3
    split
    · exact h3
    · exact h3

theorem kept_execRayLdc (h : Kept q s) : ∀ a1 a2, KeptOut q (execRayLdc a1 a2 s) := by
  intro a1 a2
  unfold execRayLdc
  apply kept_rayExec
  · exact h
  · intro x0 x1 x2 h3
    split
    · extract_lets v4 v5
      have h6 : Kept q v5 := by
        unfold v5
        refine kept_ite ?_ ?_
        · exact h3
        · apply kept_kernelFault
          exact h3
      clear_value v5
      exact h6
    · exact h3

theorem kept_execRayLdcv (h : Kept q s) : ∀ a1 a2, KeptOut q (execRayLdcv a1 a2 s) := by
  intro a1 a2
  unfold execRayLdcv
  apply kept_rayExec
  · exact h
  · intro x0 x1 x2 h3
    extract_lets v4 v5 v6
    have h7 : Kept q v6 := by
      unfold v6
      clear_value v5
      split
      · exact h3
      · apply kept_kernelFault
        exact h3
    clear_value v6
    exact h7

theorem kept_touchLines (h : Kept q s) : ∀ a1 a2 a3, Kept q (touchLines s a1 a2 a3) := by
  intro a1 a2 a3
  unfold touchLines
  apply kept_foldl
  · exact h
  · intro x0 x1 h2
    apply kept_touchLine
    exact h2

theorem kept_execRaySmp (h : Kept q s) : ∀ a1 a2, KeptOut q (execRaySmp a1 a2 s) := by
  intro a1 a2
  unfold execRaySmp
  apply kept_rayExec
  · exact h
  · intro x0 x1 x2 h3
    extract_lets v4 v5 v6 v7 v8
    have h9 : Kept q v5 := by
      unfold v5
      apply kept_touchLines
      exact h3
    clear_value v5
    have h10 : Kept q v6 := by
      unfold v6
      split
      · exact h9
      · apply kept_kernelFault
        exact h9
    clear_value v6
    have h11 : Kept q v7 := by
      unfold v7
      split
      · exact h10
      · apply kept_kernelFault
        exact h10
    clear_value v7
    exact h11

theorem kept_execRayEmit (h : Kept q s) : ∀ a1 a2, KeptOut q (execRayEmit a1 a2 s) := by
  intro a1 a2
  unfold execRayEmit
  apply kept_raySimple
  exact h

theorem kept_execRayEnd (h : Kept q s) : ∀ a1 a2, KeptOut q (execRayEnd a1 a2 s) := by
  intro a1 a2
  unfold execRayEnd
  apply kept_rayExec
  · exact h
  · intro x0 x1 x2 h3
    exact h3

theorem kept_execRayNop (h : Kept q s) : ∀ a1, KeptOut q (execRayNop a1 s) := by
  intro a1
  unfold execRayNop
  apply kept_raySimple
  exact h

theorem kept_regionAction (h : Kept q s) : ∀ r n f, (∀ t, Kept q t → Kept q (f t)) → Kept q (regionAction s r n f) := by
  intro r n f hf
  unfold regionAction
  refine kept_ite ?_ ?_
  · apply kept_bump
    exact h
  · apply hf
    apply kept_setLastAction
    exact h

theorem kept_fpWaits (h : Kept q s) : ∀ a1 a2, Kept q (fpWaits s a1 a2) := by
  intro a1 a2
  unfold fpWaits
  apply kept_setFlint
  exact h

theorem kept_launchSend (h : Kept q s) : ∀ a1 a2, Kept q (launchSend s a1 a2) := by
  intro a1 a2
  unfold launchSend
  extract_lets v0 v1 v2
  have h3 : Kept q v2 := by
    unfold v2
    apply kept_foldl
    · exact h
    · intro x4 x5 h6
      apply kept_regionAction
      · exact h6
      · intro x7 h8
        apply kept_setGal
        exact h8
  clear_value v2
  refine kept_ite ?_ ?_
  · apply kept_mirrorSend
    apply kept_setFlint
    exact h
  · refine kept_ite ?_ ?_
    · apply kept_mirrorSend
      apply kept_setFlint
      exact h3
    · apply kept_fpWaits
      exact h

theorem kept_launchSettle (h : Kept q s) : ∀ a1, Kept q (launchSettle s a1) := by
  intro a1
  unfold launchSettle
  split
  · refine kept_ite ?_ ?_
    · exact h
    · apply kept_launchSend
      exact h
  · exact h

theorem kept_launchDropped (h : Kept q s) : ∀ a1 a2 a3 a4 a5, Kept q (launchDropped s a1 a2 a3 a4 a5) := by
  intro a1 a2 a3 a4 a5
  unfold launchDropped
  refine kept_ite ?_ ?_
  · exact h
  · apply kept_raise
    apply kept_bump
    exact h

theorem kept_acceptLaunch (h : Kept q s) : ∀ a1 a2, Kept q (acceptLaunch s a1 a2) := by
  intro a1 a2
  unfold acceptLaunch
  extract_lets v0 v1 v2 v3 v4 v5 v6 v7 v8 v9 v10
  have h11 : Kept q v0 := by
    unfold v0
    apply kept_setGal
    exact h
  clear_value v0
  have h12 : Kept q v1 := by
    unfold v1
    apply kept_setF
    exact h11
  clear_value v1
  have h13 : Kept q v8 := by
    unfold v8
    apply kept_launchDropped
    exact h12
  clear_value v8
  have h14 : Kept q v10 := by
    unfold v10
    apply kept_foldl
    · exact h13
    · intro x15 x16 h17
      apply kept_poisonSeen
      exact h17
  clear_value v10
  refine kept_ite ?_ ?_
  · exact h
  · refine kept_ite ?_ ?_
    · apply kept_launchDropped
      exact h12
    · split
      extract_lets v18 v19
      have h20 : Kept q v18 := by
        unfold v18
        refine kept_ite ?_ ?_
        · exact h14
        · apply kept_raise
          apply kept_bump
          exact h14
      clear_value v18
      have h21 : Kept q v19 := by
        unfold v19
        apply kept_setGal
        exact h20
      clear_value v19
      refine kept_ite ?_ ?_
      · apply kept_calLaunched
        exact h21
      · exact h21

theorem kept_execLaunchRecord (h : Kept q s) : ∀ a1 a2, KeptOut q (execLaunchRecord a1 a2 s) := by
  intro a1 a2
  unfold execLaunchRecord
  apply kept_next
  apply kept_launchSettle
  apply kept_launchSettle
  apply kept_acceptLaunch
  exact h

theorem kept_frameCaches (h : Kept q s) : ∀ a1 a2, Kept q (frameCaches s a1 a2) := by
  intro a1 a2
  unfold frameCaches
  extract_lets v0 v1
  refine kept_ite ?_ ?_
  · apply kept_setGal
    exact h
  · exact h

theorem kept_tileTake (h : Kept q s) : ∀ a1 a2, Kept q (tileTake s a1 a2) := by
  intro a1 a2
  unfold tileTake
  extract_lets v0 v1
  refine kept_ite ?_ ?_
  · exact h
  · split
    · exact h
    · extract_lets v2 v3
      have h4 : Kept q v2 := by
        unfold v2
        apply kept_frameCaches
        exact h
      clear_value v2
      have h5 : Kept q v3 := by
        unfold v3
        apply kept_setGal
        exact h4
      clear_value v3
      split
      · exact h
      · split
        · exact h
        · apply kept_setBlock
          exact h5

theorem kept_execTileTake (h : Kept q s) : ∀ a1 a2, KeptOut q (execTileTake a1 a2 s) := by
  intro a1 a2
  unfold execTileTake
  apply kept_next
  apply kept_tileTake
  exact h

theorem kept_lineArrives (h : Kept q s) : ∀ a1 a2 a3, Kept q (lineArrives s a1 a2 a3) := by
  intro a1 a2 a3
  unfold lineArrives
  extract_lets v0
  have h1 : Kept q v0 := by
    unfold v0
    apply kept_noteFailed
    exact h
  clear_value v0
  refine kept_ite ?_ ?_
  · apply kept_poisonSeen
    exact h1
  · refine kept_ite ?_ ?_
    · apply kept_noteFailed
      exact h1
    · exact h1

theorem kept_issueWaiting (h : Kept q s) : ∀ a1 a2, Kept q (issueWaiting s a1 a2) := by
  intro a1 a2
  unfold issueWaiting
  split
  · extract_lets v0
    split
    · refine kept_ite ?_ ?_
      · apply kept_layerLook
        apply kept_setBlock
        exact h
      · exact h
    · exact h
  · split
    · apply kept_setGal
      exact h
    · exact h

theorem kept_dropLine (h : Kept q s) : ∀ a1 a2 a3, Kept q (dropLine s a1 a2 a3) := by
  intro a1 a2 a3
  unfold dropLine
  extract_lets v0
  split
  · split
    · extract_lets v1
      have h2 : Kept q v1 := by
        unfold v1
        apply kept_bump
        apply kept_setBlock
        exact h
      clear_value v1
      apply kept_touchLine
      apply kept_raise
      exact h2
    · exact h
  · split
    · extract_lets v3
      have h4 : Kept q v3 := by
        unfold v3
        apply kept_bump
        apply kept_setGal
        exact h
      clear_value v3
      apply kept_layerLook
      apply kept_raise
      exact h4
    · exact h

theorem kept_cacheLineFill (h : Kept q s) : ∀ a1 a2 a3 a4 a5, Kept q (cacheLineFill s a1 a2 a3 a4 a5) := by
  intro a1 a2 a3 a4 a5
  unfold cacheLineFill
  extract_lets v0 v1 v2 v3 v4 v5
  have h6 : Kept q v1 := by
    unfold v1
    refine kept_ite ?_ ?_
    · apply kept_lineArrives
      exact h
    · exact h
  clear_value v1
  have h7 : Kept q v4 := by
    unfold v4
    split
    · apply kept_setBlock
      exact h6
    · apply kept_setGal
      exact h6
  clear_value v4
  have h8 : Kept q v5 := by
    unfold v5
    apply kept_issueWaiting
    exact h7
  clear_value v5
  refine kept_ite ?_ ?_
  · exact h
  · refine kept_ite ?_ ?_
    · apply kept_dropLine
      exact h8
    · exact h8

theorem kept_execCacheLineFill (h : Kept q s) : ∀ a1 a2 a3 a4 a5, KeptOut q (execCacheLineFill a1 a2 a3 a4 a5 s) := by
  intro a1 a2 a3 a4 a5
  unfold execCacheLineFill
  apply kept_next
  apply kept_cacheLineFill
  exact h

theorem kept_ringWord (h : Kept q s) : ∀ a1 a2, Kept q (ringWord s a1 a2) := by
  intro a1 a2
  unfold ringWord
  apply kept_setStripe
  exact h

theorem kept_sendLine (h : Kept q s) : ∀ a1 a2, Kept q (sendLine s a1 a2) := by
  intro a1 a2
  unfold sendLine
  apply kept_foldl
  · exact h
  · intro x0 x1 h2
    apply kept_ringWord
    exact h2

theorem kept_frameRendered (h : Kept q s) : ∀ a1, Kept q (frameRendered s a1) := by
  intro a1
  unfold frameRendered
  extract_lets v0 v1
  have h2 : Kept q v1 := by
    unfold v1
    apply kept_foldl
    · exact h
    · intro x3 x4 h5
      apply kept_sweepEnded
      apply kept_setQPort
      exact h5
  clear_value v1
  apply kept_retryHeld
  exact h2

theorem kept_stripeDone (h : Kept q s) : ∀ a1, Kept q (stripeDone s a1) := by
  intro a1
  unfold stripeDone
  extract_lets v0
  have h1 : Kept q v0 := by
    unfold v0
    apply kept_setStripe
    exact h
  clear_value v0
  refine kept_ite ?_ ?_
  · exact h1
  · split
    · exact h1
    · apply kept_frameRendered
      apply kept_raise
      exact h1

theorem kept_tileSend (h : Kept q s) : ∀ a1 a2, Kept q (tileSend s a1 a2) := by
  intro a1 a2
  unfold tileSend
  refine kept_ite ?_ ?_
  · exact h
  · split
    · exact h
    · extract_lets v0 v1 v2 v3 v4 v5
      have h6 : Kept q v2 := by
        unfold v2
        apply kept_foldl
        · exact h
        · intro x7 x8 h9
          apply kept_sendLine
          exact h9
      clear_value v2
      have h10 : Kept q v5 := by
        unfold v5
        apply kept_setBlock
        exact h6
      clear_value v5
      split
      · exact h10
      · refine kept_ite ?_ ?_
        · apply kept_stripeDone
          exact h10
        · exact h10

theorem kept_execTileSend (h : Kept q s) : ∀ a1 a2, KeptOut q (execTileSend a1 a2 s) := by
  intro a1 a2
  unfold execTileSend
  apply kept_next
  apply kept_tileSend
  exact h

theorem kept_mirrorPop (h : Kept q s) : ∀ a1, Kept q (mirrorPop s a1) := by
  intro a1
  unfold mirrorPop
  apply kept_setFlint
  exact h

theorem kept_mirrorSkip (h : Kept q s) : ∀ a1, Kept q (mirrorSkip s a1) := by
  intro a1
  unfold mirrorSkip
  split
  · apply kept_mirrorPop
    exact h
  · exact h

theorem kept_seqFault (h : Kept q s) : ∀ a1 a2, Kept q (seqFault s a1 a2) := by
  intro a1 a2
  unfold seqFault
  extract_lets v0
  have h1 : Kept q v0 := by
    unfold v0
    apply kept_seqHalt
    apply kept_setFlint
    exact h
  clear_value v0
  apply kept_takeReady
  apply kept_flintEvent
  exact h1

theorem kept_seqHalted (h : Kept q s) : ∀ a1, Kept q (seqHalted s a1) := by
  intro a1
  unfold seqHalted
  apply kept_takeReady
  apply kept_flintEvent
  apply kept_seqHalt
  exact h

theorem kept_fpStep (h : Kept q s) : ∀ a b c f, (∀ t, Kept q t → KeptOut q (f t)) → KeptOut q (fpStep a b c f s) := by
  intro a b c f hf
  unfold fpStep
  extract_lets v0 v1
  have h2 : Kept q v0 := by
    unfold v0
    apply kept_mirrorSkip
    exact h
  clear_value v0
  split
  · apply kept_next
    exact h2
  · split
    · apply kept_next
      apply kept_seqFault
      apply kept_mirrorPop
      exact h2
    · split
      · apply kept_next
        apply kept_seqHalted
        exact h2
      · split
        · apply kept_next
          apply kept_setFlint
          exact h2
        · apply hf
          exact h2

theorem kept_fpExec (h : Kept q s) : ∀ o a b c f, (∀ t, Kept q t → Kept q (f t)) → KeptOut q (fpExec o a b c f s) := by
  intro o a b c f hf
  unfold fpExec
  split
  · exact kept_refused
  · apply kept_fpStep
    · exact h
    · intro x0 h1
      apply kept_next
      apply hf
      exact h1

theorem kept_fpLocal (h : Kept q s) : ∀ a1 a2 a3 a4 a5, KeptOut q (fpLocal a1 a2 a3 a4 a5 s) := by
  intro a1 a2 a3 a4 a5
  unfold fpLocal
  apply kept_fpExec
  · exact h
  · intro x0 h1
    apply kept_setFlint
    exact h1

theorem kept_execFpAdd (h : Kept q s) : ∀ a1 a2, KeptOut q (execFpAdd a1 a2 s) := by
  intro a1 a2
  unfold execFpAdd
  apply kept_fpLocal
  exact h

theorem kept_execFpSub (h : Kept q s) : ∀ a1 a2, KeptOut q (execFpSub a1 a2 s) := by
  intro a1 a2
  unfold execFpSub
  apply kept_fpLocal
  exact h

theorem kept_execFpAnd (h : Kept q s) : ∀ a1 a2, KeptOut q (execFpAnd a1 a2 s) := by
  intro a1 a2
  unfold execFpAnd
  apply kept_fpLocal
  exact h

theorem kept_execFpOr (h : Kept q s) : ∀ a1 a2, KeptOut q (execFpOr a1 a2 s) := by
  intro a1 a2
  unfold execFpOr
  apply kept_fpLocal
  exact h

theorem kept_execFpXor (h : Kept q s) : ∀ a1 a2, KeptOut q (execFpXor a1 a2 s) := by
  intro a1 a2
  unfold execFpXor
  apply kept_fpLocal
  exact h

theorem kept_execFpShl (h : Kept q s) : ∀ a1 a2, KeptOut q (execFpShl a1 a2 s) := by
  intro a1 a2
  unfold execFpShl
  apply kept_fpLocal
  exact h

theorem kept_execFpShr (h : Kept q s) : ∀ a1 a2, KeptOut q (execFpShr a1 a2 s) := by
  intro a1 a2
  unfold execFpShr
  apply kept_fpLocal
  exact h

theorem kept_execFpMul (h : Kept q s) : ∀ a1 a2, KeptOut q (execFpMul a1 a2 s) := by
  intro a1 a2
  unfold execFpMul
  apply kept_fpLocal
  exact h

theorem kept_execFpMov (h : Kept q s) : ∀ a1 a2, KeptOut q (execFpMov a1 a2 s) := by
  intro a1 a2
  unfold execFpMov
  apply kept_fpLocal
  exact h

theorem kept_execFpAddi (h : Kept q s) : ∀ a1 a2, KeptOut q (execFpAddi a1 a2 s) := by
  intro a1 a2
  unfold execFpAddi
  apply kept_fpLocal
  exact h

theorem kept_execFpAndi (h : Kept q s) : ∀ a1 a2, KeptOut q (execFpAndi a1 a2 s) := by
  intro a1 a2
  unfold execFpAndi
  apply kept_fpLocal
  exact h

theorem kept_execFpOri (h : Kept q s) : ∀ a1 a2, KeptOut q (execFpOri a1 a2 s) := by
  intro a1 a2
  unfold execFpOri
  apply kept_fpLocal
  exact h

theorem kept_execFpXori (h : Kept q s) : ∀ a1 a2, KeptOut q (execFpXori a1 a2 s) := by
  intro a1 a2
  unfold execFpXori
  apply kept_fpLocal
  exact h

theorem kept_execFpShli (h : Kept q s) : ∀ a1 a2, KeptOut q (execFpShli a1 a2 s) := by
  intro a1 a2
  unfold execFpShli
  apply kept_fpLocal
  exact h

theorem kept_execFpShri (h : Kept q s) : ∀ a1 a2, KeptOut q (execFpShri a1 a2 s) := by
  intro a1 a2
  unfold execFpShri
  apply kept_fpLocal
  exact h

theorem kept_execFpMovi (h : Kept q s) : ∀ a1 a2, KeptOut q (execFpMovi a1 a2 s) := by
  intro a1 a2
  unfold execFpMovi
  apply kept_fpLocal
  exact h

theorem kept_execFpMovhi (h : Kept q s) : ∀ a1 a2, KeptOut q (execFpMovhi a1 a2 s) := by
  intro a1 a2
  unfold execFpMovhi
  apply kept_fpLocal
  exact h

theorem kept_execFpCmp (h : Kept q s) : ∀ a1 a2, KeptOut q (execFpCmp a1 a2 s) := by
  intro a1 a2
  unfold execFpCmp
  apply kept_fpLocal
  exact h

theorem kept_execFpCmpi (h : Kept q s) : ∀ a1 a2, KeptOut q (execFpCmpi a1 a2 s) := by
  intro a1 a2
  unfold execFpCmpi
  extract_lets v0
  apply kept_fpLocal
  exact h

theorem kept_execFpPand (h : Kept q s) : ∀ a1 a2, KeptOut q (execFpPand a1 a2 s) := by
  intro a1 a2
  unfold execFpPand
  apply kept_fpLocal
  exact h

theorem kept_execFpPor (h : Kept q s) : ∀ a1 a2, KeptOut q (execFpPor a1 a2 s) := by
  intro a1 a2
  unfold execFpPor
  apply kept_fpLocal
  exact h

theorem kept_execFpPxor (h : Kept q s) : ∀ a1 a2, KeptOut q (execFpPxor a1 a2 s) := by
  intro a1 a2
  unfold execFpPxor
  apply kept_fpLocal
  exact h

theorem kept_execFpPnot (h : Kept q s) : ∀ a1 a2, KeptOut q (execFpPnot a1 a2 s) := by
  intro a1 a2
  unfold execFpPnot
  apply kept_fpLocal
  exact h

theorem kept_fpLoad (h : Kept q s) : ∀ a1 a2 a3, Kept q (fpLoad s a1 a2 a3) := by
  intro a1 a2 a3
  unfold fpLoad
  extract_lets v0 v1
  refine kept_ite ?_ ?_
  · apply kept_seqFault
    exact h
  · apply kept_setFlint
    exact h

theorem kept_execFpLd (h : Kept q s) : ∀ a1 a2, KeptOut q (execFpLd a1 a2 s) := by
  intro a1 a2
  unfold execFpLd
  apply kept_fpExec
  · exact h
  · intro x0 h1
    apply kept_fpLoad
    exact h1

theorem kept_fpStore (h : Kept q s) : ∀ a1 a2 a3, Kept q (fpStore s a1 a2 a3) := by
  intro a1 a2 a3
  unfold fpStore
  extract_lets v0 v1
  refine kept_ite ?_ ?_
  · apply kept_seqFault
    exact h
  · apply kept_setFlint
    exact h

theorem kept_execFpSt (h : Kept q s) : ∀ a1 a2, KeptOut q (execFpSt a1 a2 s) := by
  intro a1 a2
  unfold execFpSt
  apply kept_fpExec
  · exact h
  · intro x0 h1
    apply kept_fpStore
    exact h1

theorem kept_execFpLd32 (h : Kept q s) : ∀ a1 a2, KeptOut q (execFpLd32 a1 a2 s) := by
  intro a1 a2
  unfold execFpLd32
  apply kept_fpExec
  · exact h
  · intro x0 h1
    apply kept_fpLoad
    exact h1

theorem kept_execFpSt32 (h : Kept q s) : ∀ a1 a2, KeptOut q (execFpSt32 a1 a2 s) := by
  intro a1 a2
  unfold execFpSt32
  apply kept_fpExec
  · exact h
  · intro x0 h1
    apply kept_fpStore
    exact h1

theorem kept_mismatchFound (h : Kept q s) : ∀ a1 a2 a3, Kept q (mismatchFound s a1 a2 a3) := by
  intro a1 a2 a3
  unfold mismatchFound
  extract_lets v0 v1 v2
  have h3 : Kept q v0 := by
    unfold v0
    apply kept_bump
    exact h
  clear_value v0
  have h4 : Kept q v1 := by
    unfold v1
    apply kept_setLease
    exact h3
  clear_value v1
  have h5 : Kept q v2 := by
    unfold v2
    apply kept_foldl
    · exact h4
    · intro x6 x7 h8
      apply kept_setFlint
      exact h8
  clear_value v2
  refine kept_ite ?_ ?_
  · exact h
  · apply kept_flintEvent
    exact h5

theorem kept_actionCompare (h : Kept q s) : ∀ a1 a2 a3, Kept q (actionCompare s a1 a2 a3) := by
  intro a1 a2 a3
  unfold actionCompare
  extract_lets v0 v1 v2
  have h3 : Kept q v2 := by
    unfold v2
    apply kept_setFlint
    apply kept_mirrorPop
    exact h
  clear_value v2
  split
  · refine kept_ite ?_ ?_
    · apply kept_leaseShow
      apply kept_setFlint
      exact h3
    · apply kept_mismatchFound
      exact h3
  · exact h

theorem kept_actionIssue (h : Kept q s) : ∀ a1 a2 a3, Kept q (actionIssue s a1 a2 a3) := by
  intro a1 a2 a3
  unfold actionIssue
  extract_lets v0
  apply kept_mirrorSend
  apply kept_setFlint
  exact h

theorem kept_readIssue (h : Kept q s) : ∀ f a, Kept q (readIssue s f a).2.2 := by
  intro f a
  unfold readIssue
  split
  · split
    · exact h
    · exact kept_poisonSeen h _ _ _
  · extract_lets
    split
    · exact kept_busRead (kept_reqAt h _ _) _ _
    split
    · exact h
    split
    · exact kept_bump h _ _
    · exact kept_busRead (kept_reqMeets (kept_setLastAction h _ _) _ _) _ _

end Sys2Proof.Machine
end

