-- ==== Sys2Proof/Laws/Kept4.lean ====
section
/-! SUPPORT. What each operation keeps, part 4 of 5, in the order in which one calls the other. -/

namespace Sys2Proof.Machine

variable {q : Prop × List Instr × Nat} {s : State}

theorem kept_fpRead (h : Kept q s) : ∀ f i, Kept q (fpRead s f i) := by
  intro f i
  unfold fpRead
  extract_lets v1 v2 v3 v4 v5 v6
  split
  · exact kept_seqFault h _ _
  split
  · split
    · exact h
    · split
      · apply kept_setFlint
        apply kept_mirrorPop
        unfold v3
        split
        · exact kept_actionCompare h _ _ _
        · exact h
      · exact h
  split
  · exact h
  · apply kept_fpWaits
    apply kept_readIssue
    unfold v4
    split
    · exact kept_actionIssue h _ _ _
    · exact h

theorem kept_execFpRdreg (h : Kept q s) : ∀ a1 a2, KeptOut q (execFpRdreg a1 a2 s) := by
  intro a1 a2
  unfold execFpRdreg
  apply kept_fpExec
  · exact h
  · intro x0 h1
    apply kept_fpRead
    exact h1

theorem kept_mailbox (h : Kept q s) : ∀ a1, Kept q (mailbox s a1) := by
  intro a1
  unfold mailbox
  extract_lets v0
  have h1 : Kept q v0 := by
    unfold v0
    apply kept_foldl
    · exact h
    · intro x2 x3 h4
      apply kept_setReg
      exact h4
  clear_value v0
  split
  · apply kept_flintEvent
    exact h1
  · exact h1

theorem kept_ownWrite (h : Kept q s) : ∀ a1 a2 a3, Kept q (ownWrite s a1 a2 a3) := by
  intro a1 a2 a3
  unfold ownWrite
  refine kept_ite ?_ ?_
  · apply kept_mailbox
    exact h
  · apply kept_foldl
    · exact h
    · intro x0 x1 h2
      refine kept_ite ?_ ?_
      · apply kept_plainWrite
        exact h2
      · apply kept_busWrite
        exact h2

theorem kept_writeIssue (h : Kept q s) : ∀ a1 a2 a3, Kept q (writeIssue s a1 a2 a3) := by
  intro a1 a2 a3
  unfold writeIssue
  extract_lets v0 v1 v2
  have h3 : Kept q v0 := by
    unfold v0
    apply kept_actionIssue
    exact h
  clear_value v0
  split
  · split
    · apply kept_addAck
      exact h3
    · apply kept_addAck
      apply kept_regionAction
      · exact h3
      · intro x4 h5
        refine kept_ite ?_ ?_
        · apply kept_dramPut
          exact h5
        · exact h5
  · extract_lets v6
    refine kept_ite ?_ ?_
    · apply kept_addAck
      apply kept_regionAction
      · exact h3
      · intro x7 h8
        apply kept_ownWrite
        apply kept_reqMeets
        exact h8
    · refine kept_ite ?_ ?_
      · apply kept_addAck
        exact h3
      · apply kept_addAck
        apply kept_regionAction
        · exact h3
        · intro x9 h10
          refine kept_ite ?_ ?_
          · apply kept_busWrite
            apply kept_reqMeets
            exact h10
          · exact h10

theorem kept_writesIssue (h : Kept q s) : ∀ f l, Kept q (writesIssue f l s) := by
  intro f l
  unfold writesIssue
  refine kept_ite ?_ ?_
  · apply kept_fpWaits
    exact h
  · apply kept_setFlint
    apply kept_foldl
    · exact h
    · intro x0 x1 h2
      apply kept_writeIssue
      exact h2

theorem kept_fpWriteRegs (h : Kept q s) : ∀ a1 a2, Kept q (fpWriteRegs s a1 a2) := by
  intro a1 a2
  unfold fpWriteRegs
  refine kept_ite ?_ ?_
  · apply kept_seqFault
    exact h
  · refine kept_ite ?_ ?_
    · refine kept_ite ?_ ?_
      · apply kept_setFlint
        apply kept_foldl
        · exact h
        · intro x0 x1 h2
          apply kept_actionCompare
          exact h2
      · exact h
    · refine kept_ite ?_ ?_
      · exact h
      · apply kept_writesIssue
        exact h

theorem kept_execFpWrreg (h : Kept q s) : ∀ a1 a2, KeptOut q (execFpWrreg a1 a2 s) := by
  intro a1 a2
  unfold execFpWrreg
  apply kept_fpExec
  · exact h
  · intro x0 h1
    extract_lets v2
    apply kept_fpWriteRegs
    exact h1

theorem kept_execFpWrblk (h : Kept q s) : ∀ a1 a2, KeptOut q (execFpWrblk a1 a2 s) := by
  intro a1 a2
  unfold execFpWrblk
  apply kept_fpExec
  · exact h
  · intro x0 h1
    extract_lets v2 v3 v4
    refine kept_ite ?_ ?_
    · apply kept_seqFault
      exact h1
    · apply kept_fpWriteRegs
      exact h1

theorem kept_fpBranch (h : Kept q s) : ∀ o a b c d f, (∀ n t, Kept q t → Kept q (f n t)) → KeptOut q (fpBranch o a b c d f s) := by
  intro o a b c d f hf
  unfold fpBranch
  split
  · exact kept_refused
  · apply kept_fpStep
    · exact h
    · intro x0 h1
      split
      · exact kept_refused
      · apply kept_next
        apply hf
        exact h1

theorem kept_fpGo (h : Kept q s) : ∀ a1 a2, Kept q (fpGo s a1 a2) := by
  intro a1 a2
  unfold fpGo
  apply kept_setFlint
  exact h

theorem kept_execFpBr (h : Kept q s) : ∀ a1 a2, KeptOut q (execFpBr a1 a2 s) := by
  intro a1 a2
  unfold execFpBr
  apply kept_fpBranch
  · exact h
  · intro x0 x1 h2
    apply kept_fpGo
    exact h2

theorem kept_execFpCall (h : Kept q s) : ∀ a1 a2, KeptOut q (execFpCall a1 a2 s) := by
  intro a1 a2
  unfold execFpCall
  apply kept_fpBranch
  · exact h
  · intro x0 x1 h2
    refine kept_ite ?_ ?_
    · apply kept_seqFault
      exact h2
    · apply kept_setFlint
      exact h2

theorem kept_execFpRet (h : Kept q s) : ∀ a1 a2, KeptOut q (execFpRet a1 a2 s) := by
  intro a1 a2
  unfold execFpRet
  apply kept_fpExec
  · exact h
  · intro x0 h1
    split
    · apply kept_seqFault
      exact h1
    · apply kept_setFlint
      exact h1

theorem kept_execFpLoop (h : Kept q s) : ∀ a1 a2, KeptOut q (execFpLoop a1 a2 s) := by
  intro a1 a2
  unfold execFpLoop
  apply kept_fpBranch
  · exact h
  · intro x0 x1 h2
    extract_lets v3
    have h4 : Kept q v3 := by
      unfold v3
      apply kept_setFlint
      exact h2
    clear_value v3
    refine kept_ite ?_ ?_
    · apply kept_setFlint
      exact h4
    · apply kept_fpGo
      exact h4

theorem kept_fpWaitFollow (h : Kept q s) : ∀ a1 a2, Kept q (fpWaitFollow s a1 a2) := by
  intro a1 a2
  unfold fpWaitFollow
  split
  · apply kept_setFlint
    apply kept_mirrorPop
    exact h
  · exact h

theorem kept_fpWaitE (h : Kept q s) : ∀ a1 a2, Kept q (fpWaitE s a1 a2) := by
  intro a1 a2
  unfold fpWaitE
  extract_lets v0 v1 v2 v3 v4 v5 v6
  refine kept_ite ?_ ?_
  · apply kept_fpWaitFollow
    exact h
  · apply kept_settleEvents
    apply kept_fpWaits
    exact h

theorem kept_execFpWaite (h : Kept q s) : ∀ a1 a2, KeptOut q (execFpWaite a1 a2 s) := by
  intro a1 a2
  unfold execFpWaite
  apply kept_fpExec
  · exact h
  · intro x0 h1
    apply kept_fpWaitE
    exact h1

theorem kept_execFpEvclr (h : Kept q s) : ∀ a1 a2, KeptOut q (execFpEvclr a1 a2 s) := by
  intro a1 a2
  unfold execFpEvclr
  apply kept_fpLocal
  exact h

theorem kept_execFpEvset (h : Kept q s) : ∀ a1 a2, KeptOut q (execFpEvset a1 a2 s) := by
  intro a1 a2
  unfold execFpEvset
  apply kept_fpExec
  · exact h
  · intro x0 h1
    extract_lets v2
    refine kept_ite ?_ ?_
    · apply kept_seqFault
      exact h1
    · apply kept_setFlint
      exact h1

theorem kept_fpObtain (h : Kept q s) : ∀ a1 a2 a3, Kept q (fpObtain a1 a2 a3 s) := by
  intro a1 a2 a3
  unfold fpObtain
  extract_lets v0
  refine kept_ite ?_ ?_
  · split
    · apply kept_setFlint
      apply kept_mirrorPop
      exact h
    · exact h
  · apply kept_mirrorSend
    apply kept_setFlint
    exact h

theorem kept_execFpEvrd (h : Kept q s) : ∀ a1 a2, KeptOut q (execFpEvrd a1 a2 s) := by
  intro a1 a2
  unfold execFpEvrd
  apply kept_fpExec
  · exact h
  · intro x0 h1
    apply kept_fpObtain
    exact h1

theorem kept_fpWaitT (h : Kept q s) : ∀ a1 a2, Kept q (fpWaitT s a1 a2) := by
  intro a1 a2
  unfold fpWaitT
  extract_lets v0
  refine kept_ite ?_ ?_
  · apply kept_fpWaitFollow
    exact h
  · refine kept_ite ?_ ?_
    · refine kept_ite ?_ ?_
      · apply kept_mirrorSend
        apply kept_setFlint
        exact h
      · apply kept_fpWaits
        exact h
    · apply kept_settleTime
      apply kept_fpWaits
      exact h

theorem kept_execFpWaitt (h : Kept q s) : ∀ a1 a2, KeptOut q (execFpWaitt a1 a2 s) := by
  intro a1 a2
  unfold execFpWaitt
  apply kept_fpExec
  · exact h
  · intro x0 h1
    apply kept_fpWaitT
    exact h1

theorem kept_settleScan (h : Kept q s) : ∀ a1, Kept q (settleScan s a1) := by
  intro a1
  unfold settleScan
  extract_lets v0
  refine kept_ite ?_ ?_
  · exact h
  · split
    · refine kept_ite ?_ ?_
      · apply kept_mirrorSend
        apply kept_setFlint
        exact h
      · exact h
    · exact h

theorem kept_fpWaitL (h : Kept q s) : ∀ a1 a2, Kept q (fpWaitL s a1 a2) := by
  intro a1 a2
  unfold fpWaitL
  extract_lets v0 v1
  have h2 : Kept q v1 := by
    unfold v1
    apply kept_fpWaits
    exact h
  clear_value v1
  refine kept_ite ?_ ?_
  · apply kept_seqFault
    exact h
  · refine kept_ite ?_ ?_
    · apply kept_fpWaitFollow
      exact h
    · refine kept_ite ?_ ?_
      · apply kept_settleScan
        exact h2
      · exact h2

theorem kept_execFpWaitl (h : Kept q s) : ∀ a1 a2, KeptOut q (execFpWaitl a1 a2 s) := by
  intro a1 a2
  unfold execFpWaitl
  apply kept_fpExec
  · exact h
  · intro x0 h1
    apply kept_fpWaitL
    exact h1

theorem kept_execFpRdtime (h : Kept q s) : ∀ a1 a2, KeptOut q (execFpRdtime a1 a2 s) := by
  intro a1 a2
  unfold execFpRdtime
  apply kept_fpExec
  · exact h
  · intro x0 h1
    apply kept_fpObtain
    exact h1

theorem kept_execFpRdpos (h : Kept q s) : ∀ a1 a2, KeptOut q (execFpRdpos a1 a2 s) := by
  intro a1 a2
  unfold execFpRdpos
  apply kept_fpExec
  · exact h
  · intro x0 h1
    apply kept_fpObtain
    exact h1

theorem kept_execFpTset (h : Kept q s) : ∀ a1 a2, KeptOut q (execFpTset a1 a2 s) := by
  intro a1 a2
  unfold execFpTset
  apply kept_fpLocal
  exact h

theorem kept_fpLaunch (h : Kept q s) : ∀ a1 a2, Kept q (fpLaunch s a1 a2) := by
  intro a1 a2
  unfold fpLaunch
  extract_lets v0 v1 v2 v3 v4
  have h5 : Kept q v4 := by
    unfold v4
    apply kept_actionIssue
    exact h
  clear_value v4
  refine kept_ite ?_ ?_
  · apply kept_seqFault
    exact h
  · refine kept_ite ?_ ?_
    · apply kept_seqFault
      exact h
    · refine kept_ite ?_ ?_
      · split
        · refine kept_ite ?_ ?_
          · apply kept_setFlint
            apply kept_mirrorPop
            apply kept_actionCompare
            exact h
          · exact h
        · exact h
      · refine kept_ite ?_ ?_
        · exact h
        · apply kept_launchSend
          exact h5

theorem kept_execFpLaunch (h : Kept q s) : ∀ a1 a2, KeptOut q (execFpLaunch a1 a2 s) := by
  intro a1 a2
  unfold execFpLaunch
  apply kept_fpExec
  · exact h
  · intro x0 h1
    apply kept_fpLaunch
    exact h1

theorem kept_fpAction (h : Kept q s) : ∀ a b c f, (∀ n t, Kept q t → Kept q (f n t)) → Kept q (fpAction s a b c f) := by
  intro a b c f hf
  unfold fpAction
  extract_lets v0
  have h1 : Kept q v0 := by
    unfold v0
    apply kept_actionIssue
    exact h
  clear_value v0
  refine kept_ite ?_ ?_
  · refine kept_ite ?_ ?_
    · apply kept_setFlint
      apply kept_actionCompare
      exact h
    · exact h
  · refine kept_ite ?_ ?_
    · exact h
    · apply kept_setFlint
      apply hf
      exact h1

theorem kept_bindRequest (h : Kept q s) : ∀ a1, Kept q (bindRequest s a1) := by
  intro a1
  unfold bindRequest
  apply kept_setQuartz
  exact h

theorem kept_execFpBind (h : Kept q s) : ∀ a1 a2, KeptOut q (execFpBind a1 a2 s) := by
  intro a1 a2
  unfold execFpBind
  apply kept_fpExec
  · exact h
  · intro x0 h1
    extract_lets v2 v3 v4
    apply kept_fpAction
    · exact h1
    · intro x5 x6 h7
      refine kept_ite ?_ ?_
      · apply kept_regionAction
        · exact h7
        · intro x8 h9
          apply kept_bindRequest
          exact h9
      · exact h7

theorem kept_dmaStatus (h : Kept q s) : ∀ a1 a2, Kept q (dmaStatus s a1 a2) := by
  intro a1 a2
  unfold dmaStatus
  apply kept_foldl
  · exact h
  · intro x0 x1 h2
    apply kept_setF
    exact h2

theorem kept_dmaStart (h : Kept q s) : ∀ a1 a2 a3, Kept q (dmaStart s a1 a2 a3) := by
  intro a1 a2 a3
  unfold dmaStart
  extract_lets v0 v1 v2
  have h3 : Kept q v2 := by
    unfold v2
    apply kept_regionAction
    · exact h
    · intro x4 h5
      apply kept_dmaStatus
      apply kept_setFlint
      exact h5
  clear_value v2
  refine kept_ite ?_ ?_
  · apply kept_fpWaits
    exact h
  · refine kept_ite ?_ ?_
    · apply kept_seqFault
      exact h
    · apply kept_setFlint
      exact h3

theorem kept_fpDma (h : Kept q s) : ∀ a1 a2, Kept q (fpDma s a1 a2) := by
  intro a1 a2
  unfold fpDma
  extract_lets v0 v1 v2 v3
  refine kept_ite ?_ ?_
  · apply kept_seqFault
    exact h
  · refine kept_ite ?_ ?_
    · refine kept_ite ?_ ?_
      · apply kept_setFlint
        apply kept_actionCompare
        exact h
      · exact h
    · refine kept_ite ?_ ?_
      · exact h
      · apply kept_dmaStart
        apply kept_actionIssue
        exact h

theorem kept_execFpDma (h : Kept q s) : ∀ a1 a2, KeptOut q (execFpDma a1 a2 s) := by
  intro a1 a2
  unfold execFpDma
  apply kept_fpExec
  · exact h
  · intro x0 h1
    apply kept_fpDma
    exact h1

theorem kept_brxjSend (h : Kept q s) : ∀ a1 a2 a3, Kept q (brxjSend s a1 a2 a3) := by
  intro a1 a2 a3
  unfold brxjSend
  extract_lets v0
  refine kept_ite ?_ ?_
  · apply kept_setFlint
    exact h
  · refine kept_ite ?_ ?_
    · apply kept_fpWaits
      exact h
    · apply kept_setFlint
      apply kept_regionAction
      · exact h
      · intro x1 h2
        apply kept_queueJob
        exact h2

theorem kept_fpBrxj (h : Kept q s) : ∀ a1 a2, Kept q (fpBrxj s a1 a2) := by
  intro a1 a2
  unfold fpBrxj
  extract_lets v0 v1 v2
  refine kept_ite ?_ ?_
  · refine kept_ite ?_ ?_
    · apply kept_setFlint
      apply kept_actionCompare
      exact h
    · exact h
  · refine kept_ite ?_ ?_
    · exact h
    · apply kept_brxjSend
      apply kept_actionIssue
      exact h

theorem kept_execFpBrxj (h : Kept q s) : ∀ a1 a2, KeptOut q (execFpBrxj a1 a2 s) := by
  intro a1 a2
  unfold execFpBrxj
  apply kept_fpExec
  · exact h
  · intro x0 h1
    apply kept_fpBrxj
    exact h1

theorem kept_execFpPwr (h : Kept q s) : ∀ a1 a2, KeptOut q (execFpPwr a1 a2 s) := by
  intro a1 a2
  unfold execFpPwr
  apply kept_fpExec
  · exact h
  · intro x0 h1
    apply kept_fpAction
    · exact h1
    · intro x2 x3 h4
      apply kept_regionAction
      · exact h4
      · intro x5 h6
        apply kept_powerRequest
        exact h6

theorem kept_semFollow (h : Kept q s) : ∀ a1 a2 a3, Kept q (semFollow s a1 a2 a3) := by
  intro a1 a2 a3
  unfold semFollow
  split
  · refine kept_ite ?_ ?_
    · apply kept_setFlint
      apply kept_mirrorPop
      apply kept_actionCompare
      exact h
    · exact h
  · exact h

theorem kept_semMeets (h : Kept q s) : ∀ a1 a2, Kept q (semMeets s a1 a2) := by
  intro a1 a2
  unfold semMeets
  extract_lets v0
  have h1 : Kept q v0 := by
    unfold v0
    refine kept_ite ?_ ?_
    · apply kept_semClockEnds
      exact h
    · exact h
  clear_value v0
  apply kept_setSlate
  · exact h1
  · intro x2
    rfl

theorem kept_semAsk (h : Kept q s) : ∀ u n w, Kept q (semAsk s u n w).1 := by
  intro u n w
  unfold semAsk
  extract_lets v m
  have h : Kept q v := kept_semMeets h _ _
  clear_value v
  split
  · exact h
  split
  · rename_i h1 h2
    dsimp only
    apply kept_setSem h
    intro _ hm
    exact ⟨hm.1, fun x hx => absurd (Option.isNone_iff_eq_none.mp h2) (hm.2 x hx).1⟩
  split
  · exact h
  split
  · exact h
  · rename_i h1 h2 _ h3
    dsimp only
    apply kept_setSem h
    intro _ hm
    have h4 : u ∉ (semOf v n).waiters := fun hu => h3 (List.contains_iff_mem.mpr hu)
    refine ⟨List.nodup_append.mpr ⟨hm.1, List.nodup_singleton u, fun a ha b hb e => ?_⟩, fun x hx => ?_⟩
    · exact h4 (List.mem_singleton.mp hb ▸ e ▸ ha)
    · rcases List.mem_append.mp hx with hx | hx
      · exact hm.2 x hx
      · obtain rfl := List.mem_singleton.mp hx
        exact ⟨fun e => h2 (Option.isNone_iff_eq_none.mpr e), h1⟩

theorem kept_semAction (h : Kept q s) : ∀ a1 a2 a3, Kept q (semAction s a1 a2 a3).1 := by
  intro a1 a2 a3
  unfold semAction
  extract_lets v0
  split
  · dsimp only
    apply kept_bump
    exact h
  · apply kept_semAsk
    apply kept_setLastAction
    exact h

theorem kept_fpSemAcq (h : Kept q s) : ∀ a1 a2, Kept q (fpSemAcq s a1 a2) := by
  intro a1 a2
  unfold fpSemAcq
  extract_lets v0
  refine kept_ite ?_ ?_
  · apply kept_semFollow
    exact h
  · refine kept_ite ?_ ?_
    · exact h
    · split
      refine kept_ite ?_ ?_
      · apply kept_mirrorSend
        apply kept_setFlint
        refine kept_fst (by assumption) ?_
        apply kept_semAction
        apply kept_actionIssue
        exact h
      · apply kept_fpWaits
        refine kept_fst (by assumption) ?_
        apply kept_semAction
        apply kept_actionIssue
        exact h

theorem kept_execFpSemacq (h : Kept q s) : ∀ a1 a2, KeptOut q (execFpSemacq a1 a2 s) := by
  intro a1 a2
  unfold execFpSemacq
  apply kept_fpExec
  · exact h
  · intro x0 h1
    apply kept_fpSemAcq
    exact h1

theorem kept_fpSemTry (h : Kept q s) : ∀ a1 a2, Kept q (fpSemTry s a1 a2) := by
  intro a1 a2
  unfold fpSemTry
  extract_lets v0 v1
  refine kept_ite ?_ ?_
  · apply kept_semFollow
    exact h
  · refine kept_ite ?_ ?_
    · exact h
    · split
      apply kept_mirrorSend
      apply kept_setFlint
      refine kept_fst (by assumption) ?_
      apply kept_semAction
      apply kept_actionIssue
      exact h

theorem kept_execFpSemtry (h : Kept q s) : ∀ a1 a2, KeptOut q (execFpSemtry a1 a2 s) := by
  intro a1 a2
  unfold execFpSemtry
  apply kept_fpExec
  · exact h
  · intro x0 h1
    apply kept_fpSemTry
    exact h1

theorem kept_fpSemRel (h : Kept q s) : ∀ a1 a2, Kept q (fpSemRel s a1 a2) := by
  intro a1 a2
  unfold fpSemRel
  extract_lets v0 v1 v2
  have h3 : Kept q v2 := by
    unfold v2
    apply kept_actionIssue
    exact h
  clear_value v2
  refine kept_ite ?_ ?_
  · split
    · apply kept_seqFault
      apply kept_mirrorPop
      exact h
    · apply kept_setFlint
      apply kept_actionCompare
      exact h
    · exact h
  · refine kept_ite ?_ ?_
    · exact h
    · refine kept_ite ?_ ?_
      · apply kept_seqFault
        apply kept_mirrorSend
        exact h
      · apply kept_setFlint
        apply kept_regionAction
        · exact h3
        · intro x4 h5
          apply kept_semFree
          exact h5

theorem kept_execFpSemrel (h : Kept q s) : ∀ a1 a2, KeptOut q (execFpSemrel a1 a2 s) := by
  intro a1 a2
  unfold execFpSemrel
  apply kept_fpExec
  · exact h
  · intro x0 h1
    apply kept_fpSemRel
    exact h1

theorem kept_fpCkpt (h : Kept q s) : ∀ a1 a2, Kept q (fpCkpt s a1 a2) := by
  intro a1 a2
  unfold fpCkpt
  refine kept_ite ?_ ?_
  · apply kept_setFlint
    exact h
  · apply kept_fpWaits
    exact h

theorem kept_execFpCkpt (h : Kept q s) : ∀ a1 a2, KeptOut q (execFpCkpt a1 a2 s) := by
  intro a1 a2
  unfold execFpCkpt
  apply kept_fpExec
  · exact h
  · intro x0 h1
    apply kept_fpCkpt
    exact h1

theorem kept_execFpNop (h : Kept q s) : ∀ a1, KeptOut q (execFpNop a1 s) := by
  intro a1
  unfold execFpNop
  apply kept_fpLocal
  exact h

theorem kept_execFpFence (h : Kept q s) : ∀ a1, KeptOut q (execFpFence a1 s) := by
  intro a1
  unfold execFpFence
  apply kept_fpExec
  · exact h
  · intro x0 h1
    refine kept_ite ?_ ?_
    · apply kept_setFlint
      exact h1
    · apply kept_fpWaits
      exact h1

theorem kept_execFpHalt (h : Kept q s) : ∀ a1, KeptOut q (execFpHalt a1 s) := by
  intro a1
  unfold execFpHalt
  apply kept_fpExec
  · exact h
  · intro x0 h1
    apply kept_seqHalted
    exact h1

theorem kept_waitTimesOut (h : Kept q s) : ∀ a1, Kept q (waitTimesOut s a1) := by
  intro a1
  unfold waitTimesOut
  split
  · extract_lets v0
    refine kept_ite ?_ ?_
    · apply kept_mirrorSend
      apply kept_setFlint
      exact h
    · exact h
  · exact h

theorem kept_execWaiteTimeout (h : Kept q s) : ∀ a1, KeptOut q (execWaiteTimeout a1 s) := by
  intro a1
  unfold execWaiteTimeout
  apply kept_next
  apply kept_waitTimesOut
  exact h

theorem kept_timeReached (h : Kept q s) : ∀ a1, Kept q (timeReached s a1) := by
  intro a1
  unfold timeReached
  split
  · refine kept_ite ?_ ?_
    · apply kept_mirrorSend
      apply kept_setFlint
      exact h
    · exact h
  · apply kept_settleTime
    exact h

theorem kept_execWaittReached (h : Kept q s) : ∀ a1, KeptOut q (execWaittReached a1 s) := by
  intro a1
  unfold execWaittReached
  apply kept_next
  apply kept_timeReached
  exact h

theorem kept_timerEnds (h : Kept q s) : ∀ a1 a2, Kept q (timerEnds s a1 a2) := by
  intro a1 a2
  unfold timerEnds
  refine kept_ite ?_ ?_
  · exact h
  · apply kept_setFlagOf
    apply kept_setFlint
    exact h

theorem kept_execTimerExpired (h : Kept q s) : ∀ a1 a2, KeptOut q (execTimerExpired a1 a2 s) := by
  intro a1 a2
  unfold execTimerExpired
  apply kept_next
  apply kept_timerEnds
  exact h

theorem kept_wdogExpires (h : Kept q s) : ∀ a1, Kept q (wdogExpires s a1) := by
  intro a1
  unfold wdogExpires
  refine kept_ite ?_ ?_
  · exact h
  · apply kept_seqFault
    apply kept_mirrorSend
    exact h

theorem kept_execWatchdogExpired (h : Kept q s) : ∀ a1, KeptOut q (execWatchdogExpired a1 s) := by
  intro a1
  unfold execWatchdogExpired
  apply kept_next
  apply kept_wdogExpires
  exact h

theorem kept_accessError (h : Kept q s) : ∀ a1 a2 a3, Kept q (accessError s a1 a2 a3) := by
  intro a1 a2 a3
  unfold accessError
  apply kept_flintEvent
  exact h

theorem kept_readResponse (h : Kept q s) : ∀ a1, Kept q (readResponse s a1) := by
  intro a1
  unfold readResponse
  split
  · extract_lets v0 v1
    have h2 : Kept q v1 := by
      unfold v1
      apply kept_mirrorSend
      apply kept_setFlint
      exact h
    clear_value v1
    refine kept_ite ?_ ?_
    · exact h2
    · apply kept_accessError
      exact h2
  · exact h

theorem kept_regWords (h : Kept q s) : ∀ u l, Kept q (regWords u l s).2.2 := by
  intro u l
  induction l generalizing s with
  | nil => exact h
  | cons a l ih =>
    unfold regWords
    exact ih (kept_busRead (kept_reqAt h _ _) _ _)

theorem kept_hostFetch (h : Kept q s) : ∀ a b, Kept q (hostFetch s a b).1 := by
  intro a b
  unfold hostFetch
  split
  · exact kept_flashSend h _
  split
  · extract_lets
    exact kept_regWords h _ _
  · exact kept_poisonSeen h _ _ _

theorem kept_readRuns (h : Kept q s) : ∀ a1, Kept q (readRuns s a1) := by
  intro a1
  unfold readRuns
  split
  · refine kept_ite ?_ ?_
    · exact h
    · split
      apply kept_setHost
      refine kept_fst (by assumption) ?_
      apply kept_hostFetch
      exact h
  · exact h

theorem kept_responseArrives (h : Kept q s) : ∀ a1, Kept q (responseArrives s a1) := by
  intro a1
  unfold responseArrives
  split
  · apply kept_readResponse
    apply kept_readResponse
    exact h
  · apply kept_readRuns
    exact h
  · apply kept_readRuns
    exact h

theorem kept_execRegisterReadResponse (h : Kept q s) : ∀ a1, KeptOut q (execRegisterReadResponse a1 s) := by
  intro a1
  unfold execRegisterReadResponse
  apply kept_next
  apply kept_responseArrives
  exact h

theorem kept_hostAck (h : Kept q s) : ∀ a1 a2 a3, Kept q (hostAck s a1 a2 a3) := by
  intro a1 a2 a3
  unfold hostAck
  extract_lets v0 v1
  have h2 : Kept q v0 := by
    unfold v0
    apply kept_setHost
    exact h
  clear_value v0
  have h3 : Kept q v1 := by
    unfold v1
    apply kept_setReg
    apply kept_setReg
    exact h2
  clear_value v1
  refine kept_ite ?_ ?_
  · exact h2
  · apply kept_raise
    apply kept_hostIrq
    exact h3

theorem kept_writesSettle (h : Kept q s) : ∀ a1, Kept q (writesSettle s a1) := by
  intro a1
  unfold writesSettle
  split
  · refine kept_ite ?_ ?_
    · exact h
    · apply kept_writesIssue
      exact h
  · refine kept_ite ?_ ?_
    · apply kept_setFlint
      exact h
    · exact h
  · refine kept_ite ?_ ?_
    · apply kept_fpWaits
      exact h
    · exact h
  · exact h

theorem kept_layerAck (h : Kept q s) : ∀ a1 a2 a3 a4, Kept q (layerAck s a1 a2 a3 a4) := by
  intro a1 a2 a3 a4
  unfold layerAck
  split
  · exact h
  · refine kept_ite ?_ ?_
    · exact h
    · refine kept_ite ?_ ?_
      · apply kept_retryHeld
        apply kept_abandon
        exact h
      · apply kept_setWriting
        exact h

theorem kept_ackArrives (h : Kept q s) : ∀ a1, Kept q (ackArrives s a1) := by
  intro a1
  unfold ackArrives
  extract_lets v0
  have h1 : Kept q v0 := by
    unfold v0
    refine kept_rec ?_
    apply kept_parts
    exact h
  clear_value v0
  split
  · exact h
  · split
    · apply kept_hostAck
      exact h1
    · apply kept_writesSettle
      refine kept_ite ?_ ?_
      · exact h1
      · apply kept_accessError
        exact h1
    · apply kept_layerAck
      exact h1
    · exact h1

theorem kept_execWriteAck (h : Kept q s) : ∀ a1, KeptOut q (execWriteAck a1 s) := by
  intro a1
  unfold execWriteAck
  apply kept_next
  apply kept_ackArrives
  exact h

theorem kept_flashReads (h : Kept q s) : ∀ a1 a2, Kept q (flashReads s a1 a2) := by
  intro a1 a2
  unfold flashReads
  apply kept_flashSend
  exact h

theorem kept_dmaWrite (h : Kept q s) : ∀ a b c u, dmaWrite s a b c = some u → Kept q u := by
  intro a b c u e
  unfold dmaWrite at e
  split at e
  · split at e
    · split at e
      · cases e
        exact kept_pewterPut h _ _
      · cases e
    · split at e
      · cases e
        exact kept_dramPut h _ _
      · cases e
  · cases e
    apply kept_foldl h
    intro t x ht
    exact kept_setFlint ht _ _

theorem kept_dmaMove (h : Kept q s) : ∀ f d b n o, Kept q (dmaMove f d b n o s).2 := by
  intro f d b n
  induction n generalizing s with
  | zero => intro o; exact h
  | succ n ih =>
    intro o
    unfold dmaMove
    split
    · exact kept_ite (kept_poisonSeen h _ _ _) h
    · split
      · exact h
      · rename_i u e
        exact ih (kept_dmaWrite h _ _ _ u e) _

theorem kept_dmaEnds (h : Kept q s) : ∀ a1 a2 a3, Kept q (dmaEnds s a1 a2 a3) := by
  intro a1 a2 a3
  unfold dmaEnds
  split
  · exact h
  · extract_lets v0 v1
    have h2 : Kept q v1 := by
      unfold v1
      refine kept_ite ?_ ?_
      · apply kept_flashReads
        exact h
      · exact h
    clear_value v1
    refine kept_ite ?_ ?_
    · exact h
    · split
      extract_lets v3 v4
      have h5 : Kept q v3 := by
        unfold v3
        apply kept_setFlint
        refine kept_snd (by assumption) ?_
        split
        · exact h2
        · apply kept_dmaMove
          exact h2
      clear_value v3
      have h6 : Kept q v4 := by
        unfold v4
        apply kept_setFlag
        apply kept_dmaStatus
        exact h5
      clear_value v4
      split
      · refine kept_ite ?_ ?_
        · apply kept_dmaStart
          exact h6
        · exact h6
      · exact h6

theorem kept_execDmaEnd (h : Kept q s) : ∀ a1 a2 a3, KeptOut q (execDmaEnd a1 a2 s a3) := by
  intro a1 a2 a3
  unfold execDmaEnd
  apply kept_next
  apply kept_dmaEnds
  exact h

theorem kept_shadowEnter (h : Kept q s) : ∀ a1 a2 a3, Kept q (shadowEnter s a1 a2 a3) := by
  intro a1 a2 a3
  unfold shadowEnter
  extract_lets v0 v1
  have h2 : Kept q v0 := by
    unfold v0
    apply kept_setFlint
    exact h
  clear_value v0
  have h3 : Kept q v1 := by
    unfold v1
    apply kept_setLease
    exact h2
  clear_value v1
  apply kept_leaseShow
  apply kept_flintEvent
  exact h3

theorem kept_ckptMirror (h : Kept q s) : ∀ a1 a2 a3, Kept q (ckptMirror s a1 a2 a3) := by
  intro a1 a2 a3
  unfold ckptMirror
  refine kept_ite ?_ ?_
  · exact h
  · split
    · exact h
    · apply kept_setFlint
      exact h
    · apply kept_shadowEnter
      apply kept_setFlint
      exact h

theorem kept_ckptDone (h : Kept q s) : ∀ a1, Kept q (ckptDone s a1) := by
  intro a1
  unfold ckptDone
  extract_lets v0
  split
  · extract_lets v1 v2
    have h3 : Kept q v2 := by
      unfold v2
      apply kept_setFlint
      exact h
    clear_value v2
    apply kept_ckptMirror
    exact h3
  · exact h

theorem kept_execCheckpointWritten (h : Kept q s) : ∀ a1, KeptOut q (execCheckpointWritten a1 s) := by
  intro a1
  unfold execCheckpointWritten
  apply kept_next
  apply kept_ckptDone
  exact h

theorem kept_execProgLoad (h : Kept q s) : ∀ a1 a2 a3, KeptOut q (execProgLoad a1 a2 a3 s) := by
  intro a1 a2 a3
  unfold execProgLoad
  apply kept_next
  apply kept_reqServes
  · exact h
  · intro x0 h1
    apply kept_progCtrlWrite
    exact h1

theorem kept_loadPoison (h : Kept q s) : ∀ a1 a2 a3, Kept q (loadPoison s a1 a2 a3) := by
  intro a1 a2 a3
  unfold loadPoison
  extract_lets v0 v1 v2
  have h3 : Kept q v2 := by
    unfold v2
    apply kept_poisonSeen
    exact h
  clear_value v2
  refine kept_ite ?_ ?_
  · apply kept_poisonSeen
    exact h3
  · exact h3

theorem kept_progLoadEnds (h : Kept q s) : ∀ a1, Kept q (progLoadEnds s a1) := by
  intro a1
  unfold progLoadEnds
  split
  · exact h
  · extract_lets v0 v1 v2 v3
    have h4 : Kept q v1 := by
      unfold v1
      refine kept_ite ?_ ?_
      · apply kept_flashReads
        exact h
      · apply kept_loadPoison
        exact h
    clear_value v1
    have h5 : Kept q v2 := by
      unfold v2
      apply kept_setCtrl
      exact h4
    clear_value v2
    have h6 : Kept q v3 := by
      unfold v3
      apply kept_loadReason
      exact h5
    clear_value v3
    refine kept_ite ?_ ?_
    · exact h
    · clear_value v0
      split
      · apply kept_foldl
        · apply kept_loadReason
          exact h5
        · intro x7 x8 h9
          apply kept_flintEvent
          exact h9
      · refine kept_ite ?_ ?_
        · apply kept_setCtrl
          exact h6
        · apply kept_progTake
          exact h6

theorem kept_execProgLoadChecked (h : Kept q s) : ∀ a1, KeptOut q (execProgLoadChecked s a1) := by
  intro a1
  unfold execProgLoadChecked
  apply kept_next
  apply kept_progLoadEnds
  exact h

theorem kept_execProgStop (h : Kept q s) : ∀ a1 a2, KeptOut q (execProgStop a1 a2 s) := by
  intro a1 a2
  unfold execProgStop
  apply kept_next
  apply kept_reqServes
  · exact h
  · intro x0 h1
    apply kept_progStop
    exact h1

theorem kept_execProgRun (h : Kept q s) : ∀ a1 a2, KeptOut q (execProgRun a1 a2 s) := by
  intro a1 a2
  unfold execProgRun
  apply kept_next
  apply kept_reqServes
  · exact h
  · intro x0 h1
    apply kept_progRun
    exact h1

theorem kept_execUpdateRequest (h : Kept q s) : ∀ a1, KeptOut q (execUpdateRequest a1 s) := by
  intro a1
  unfold execUpdateRequest
  apply kept_next
  apply kept_reqServes
  · exact h
  · intro x0 h1
    apply kept_updateRequest
    exact h1

theorem kept_execPlaneMark (h : Kept q s) : ∀ a1 a2, KeptOut q (execPlaneMark a1 a2 s) := by
  intro a1 a2
  unfold execPlaneMark
  apply kept_next
  apply kept_reqServes
  · exact h
  · intro x0 h1
    apply kept_planeMark
    exact h1

theorem kept_execLutWrite (h : Kept q s) : ∀ a1 a2 a3, KeptOut q (execLutWrite a1 a2 a3 s) := by
  intro a1 a2 a3
  unfold execLutWrite
  apply kept_next
  refine kept_ite ?_ ?_
  · apply kept_reqServes
    · exact h
    · intro x0 h1
      apply kept_lutWrite
      exact h1
  · exact h

theorem kept_brxjSettle (h : Kept q s) : ∀ a1, Kept q (brxjSettle s a1) := by
  intro a1
  unfold brxjSettle
  split
  · refine kept_ite ?_ ?_
    · exact h
    · apply kept_brxjSend
      exact h
  · exact h

theorem kept_execCoderLaneTakeItem (h : Kept q s) : KeptOut q (execCoderLaneTakeItem s) := by
  unfold execCoderLaneTakeItem
  apply kept_next
  apply kept_brxjSettle
  apply kept_brxjSettle
  apply kept_coderTake
  exact h

theorem kept_execBringUp (h : Kept q s) : ∀ a1 a2, KeptOut q (execBringUp a1 a2 s) := by
  intro a1 a2
  unfold execBringUp
  apply kept_next
  apply kept_reqServes
  · exact h
  · intro x0 h1
    apply kept_bauxiteWrite
    exact h1

theorem kept_dramTrained (h : Kept q s) : ∀ a1 a2, Kept q (dramTrained s a1 a2) := by
  intro a1 a2
  unfold dramTrained
  refine kept_ite ?_ ?_
  · exact h
  · refine kept_ite ?_ ?_
    · apply kept_setChan
      exact h
    · apply kept_dramOutOfService
      exact h

theorem kept_execDramTrained (h : Kept q s) : ∀ a1 a2, KeptOut q (execDramTrained a1 a2 s) := by
  intro a1 a2
  unfold execDramTrained
  apply kept_next
  apply kept_dramTrained
  exact h

theorem kept_dramInitDone (h : Kept q s) : Kept q (dramInitDone s) := by
  unfold dramInitDone
  extract_lets v0 v1 v2 v3 v4
  have h5 : Kept q v1 := by
    unfold v1
    refine kept_rec ?_
    apply kept_nil
    apply kept_parts
    exact h
  clear_value v1
  have h6 : Kept q v2 := by
    unfold v2
    apply kept_setF
    exact h5
  clear_value v2
  have h7 : Kept q v3 := by
    unfold v3
    apply kept_setF
    exact h6
  clear_value v3
  refine kept_ite ?_ ?_
  · exact h
  · apply kept_setReg
    apply kept_setReg
    exact h7

theorem kept_execDramInitDone (h : Kept q s) : KeptOut q (execDramInitDone s) := by
  unfold execDramInitDone
  extract_lets v0
  have h1 : Kept q v0 := by
    unfold v0
    apply kept_dramInitDone
    exact h
  clear_value v0
  apply kept_next
  refine kept_ite ?_ ?_
  · apply kept_calDramUp
    exact h1
  · exact h1

theorem kept_execDramRead (h : Kept q s) : ∀ a1 a2, KeptOut q (execDramRead a1 a2 s) := by
  intro a1 a2
  unfold execDramRead
  apply kept_next
  apply kept_dramRead
  exact h

theorem kept_execDramWrite (h : Kept q s) : ∀ a1 a2 a3 a4 a5, KeptOut q (execDramWrite a1 a2 a3 a4 s a5) := by
  intro a1 a2 a3 a4 a5
  unfold execDramWrite
  apply kept_next
  apply kept_dramWrite
  exact h

theorem kept_drainOne (h : Kept q s) : ∀ a1 a2, Kept q (drainOne s a1 a2) := by
  intro a1 a2
  unfold drainOne
  extract_lets v0 v1 v2
  split
  · extract_lets v3
    refine kept_ite ?_ ?_
    · exact h
    · apply kept_setChan
      exact h
  · exact h

theorem kept_writeDrain (h : Kept q s) : ∀ a1 a2 a3, Kept q (writeDrain s a1 a2 a3) := by
  intro a1 a2 a3
  unfold writeDrain
  extract_lets v0 v1
  have h2 : Kept q v1 := by
    unfold v1
    refine kept_ite ?_ ?_
    · apply kept_setChan
      exact h
    · exact h
  clear_value v1
  apply kept_foldl
  · exact h2
  · intro x3 x4 h5
    apply kept_drainOne
    exact h5

theorem kept_execWriteDrain (h : Kept q s) : ∀ a1 a2 a3, KeptOut q (execWriteDrain a1 a2 a3 s) := by
  intro a1 a2 a3
  unfold execWriteDrain
  apply kept_next
  apply kept_writeDrain
  exact h

theorem kept_copyLine (h : Kept q s) : ∀ a1 a2 a3 a4, Kept q (copyLine s a1 a2 a3 a4) := by
  intro a1 a2 a3 a4
  unfold copyLine
  extract_lets v0 v1 v2 v3 v4 v5 v6 v7
  have h8 : Kept q v3 := by
    unfold v3
    apply kept_setQuad
    exact h
  clear_value v3
  have h9 : Kept q v4 := by
    unfold v4
    apply kept_setF
    apply kept_writeEnters
    exact h8
  clear_value v4
  have h10 : Kept q v5 := by
    unfold v5
    apply kept_setRankState
    apply kept_setF
    exact h9
  clear_value v5
  have h11 : Kept q v6 := by
    unfold v6
    apply kept_foldl
    · exact h10
    · intro x12 x13 h14
      apply kept_poisonWord
      exact h14
  clear_value v6
  have h15 : Kept q v7 := by
    unfold v7
    apply kept_setQuad
    exact h11
  clear_value v7
  refine kept_ite ?_ ?_
  · exact h9
  · apply kept_raise
    exact h15

theorem kept_migrationCopy (h : Kept q s) : ∀ a1 a2, Kept q (migrationCopy s a1 a2) := by
  intro a1 a2
  unfold migrationCopy
  extract_lets v0 v1
  refine kept_ite ?_ ?_
  · exact h
  · split
    · exact h
    · extract_lets v2
      refine kept_ite ?_ ?_
      · exact h
      · split
        refine kept_ite ?_ ?_
        · refine kept_fst (by assumption) ?_
          apply kept_readTurn
          exact h
        · split
          refine kept_ite ?_ ?_
          · refine kept_fst (by assumption) ?_
            apply kept_readRank
            refine kept_fst (by assumption) ?_
            apply kept_readTurn
            exact h
          · apply kept_copyLine
            refine kept_fst (by assumption) ?_
            apply kept_readRank
            refine kept_fst (by assumption) ?_
            apply kept_readTurn
            exact h

theorem kept_execMigrationCopy (h : Kept q s) : ∀ a1 a2, KeptOut q (execMigrationCopy a1 a2 s) := by
  intro a1 a2
  unfold execMigrationCopy
  apply kept_next
  apply kept_migrationCopy
  exact h

theorem kept_refreshWindow (h : Kept q s) : Kept q (refreshWindow s) := by
  unfold refreshWindow
  extract_lets v0 v1 v2 v3
  have h4 : Kept q v1 := by
    unfold v1
    split
    · exact h
    · extract_lets v5
      have h6 : Kept q v5 := by
        unfold v5
        apply kept_setF
        exact h
      clear_value v5
      refine kept_ite ?_ ?_
      · exact h6
      · apply kept_raise
        exact h6
  clear_value v1
  have h7 : Kept q v2 := by
    unfold v2
    apply kept_foldl
    · exact h4
    · intro x8 x9 h10
      refine kept_ite ?_ ?_
      · apply kept_bump
        exact h10
      · exact h10
  clear_value v2
  refine kept_ite ?_ ?_
  · exact h
  · refine kept_rec ?_
    apply kept_parts
    exact h7

theorem kept_execRefreshWindow (h : Kept q s) : KeptOut q (execRefreshWindow s) := by
  unfold execRefreshWindow
  apply kept_next
  apply kept_refreshWindow
  exact h

theorem kept_mr4Read (h : Kept q s) : ∀ a1 a2 a3 a4, Kept q (mr4Read s a1 a2 a3 a4) := by
  intro a1 a2 a3 a4
  unfold mr4Read
  extract_lets v0 v1 v2 v3 v4 v5 v6 v7 v8 v9
  have h10 : Kept q v1 := by
    unfold v1
    apply kept_setChan
    exact h
  clear_value v1
  have h11 : Kept q v2 := by
    unfold v2
    refine kept_ite ?_ ?_
    · apply kept_raise
      exact h10
    · exact h10
  clear_value v2
  refine kept_ite ?_ ?_
  · exact h
  · refine kept_rec ?_
    apply kept_parts
    exact h11

theorem kept_execMr4Read (h : Kept q s) : ∀ a1 a2 a3 a4, KeptOut q (execMr4Read a1 a2 a3 a4 s) := by
  intro a1 a2 a3 a4
  unfold execMr4Read
  extract_lets v0
  have h1 : Kept q v0 := by
    unfold v0
    apply kept_mr4Read
    exact h
  clear_value v0
  apply kept_next
  refine kept_ite ?_ ?_
  · apply kept_dramForced
    exact h1
  · exact h1

theorem kept_wck2dqCheck (h : Kept q s) : ∀ a1 a2 a3 a4, Kept q (wck2dqCheck s a1 a2 a3 a4) := by
  intro a1 a2 a3 a4
  unfold wck2dqCheck
  refine kept_ite ?_ ?_
  · exact h
  · refine kept_ite ?_ ?_
    · apply kept_setChan
      exact h
    · apply kept_dramOutOfService
      exact h

theorem kept_execWck2dqCheck (h : Kept q s) : ∀ a1 a2 a3, KeptOut q (execWck2dqCheck a1 a2 a3 s) := by
  intro a1 a2 a3
  unfold execWck2dqCheck
  apply kept_next
  apply kept_wck2dqCheck
  exact h

theorem kept_cancelAll (h : Kept q s) : Kept q (cancelAll s) := by
  unfold cancelAll
  apply kept_setStripes
  apply kept_foldl
  · exact h
  · intro x0 x1 h2
    apply kept_cancelStripe
    exact h2

theorem kept_setScan (h : Kept q s) : ∀ a1, Kept q (setScan s a1) := by
  intro a1
  unfold setScan
  refine kept_rec ?_
  apply kept_parts
  exact h

theorem kept_openFirst (h : Kept q s) : Kept q (openFirst s) := by
  unfold openFirst
  extract_lets v0 v1
  refine kept_ite ?_ ?_
  · exact h
  · apply kept_repeatPoint
    apply kept_repeatPoint
    apply kept_setMica
    apply kept_openStripe
    apply kept_openStripe
    exact h

theorem kept_timingStart (h : Kept q s) : Kept q (timingStart s) := by
  unfold timingStart
  extract_lets v0 v1 v2 v3 v4 v5 v6
  have h7 : Kept q v0 := by
    unfold v0
    apply kept_setObs
    exact h
  clear_value v0
  have h8 : Kept q v1 := by
    unfold v1
    apply kept_cancelAll
    exact h7
  clear_value v1
  have h9 : Kept q v2 := by
    unfold v2
    apply kept_setStripes
    exact h8
  clear_value v2
  have h10 : Kept q v3 := by
    unfold v3
    apply kept_foldl
    · exact h9
    · intro x11 x12 h13
      apply kept_setGal
      exact h13
  clear_value v3
  have h14 : Kept q v4 := by
    unfold v4
    apply kept_setScan
    exact h10
  clear_value v4
  have h15 : Kept q v5 := by
    unfold v5
    apply kept_calTimingStart
    apply kept_setStep
    exact h14
  clear_value v5
  have h16 : Kept q v6 := by
    unfold v6
    refine kept_ite ?_ ?_
    · exact h15
    · apply kept_openFirst
      exact h15
  clear_value v6
  refine kept_ite ?_ ?_
  · exact h
  · apply kept_showLag
    apply kept_showRunning
    exact h16

theorem kept_timingDue (h : Kept q s) : Kept q (timingDue s) := by
  unfold timingDue
  refine kept_ite ?_ ?_
  · apply kept_timingStart
    exact h
  · exact h

theorem kept_execTimingStart (h : Kept q s) : KeptOut q (execTimingStart s) := by
  unfold execTimingStart
  apply kept_next
  apply kept_timingDue
  exact h

theorem kept_switchEnds (h : Kept q s) : ∀ a1 a2, Kept q (switchEnds s a1 a2) := by
  intro a1 a2
  unfold switchEnds
  extract_lets v0 v1 v2
  have h3 : Kept q v1 := by
    unfold v1
    apply kept_setLease
    apply kept_bump
    exact h
  clear_value v1
  have h4 : Kept q v2 := by
    unfold v2
    apply kept_setF
    apply kept_setF
    exact h3
  clear_value v2
  apply kept_leaseEvent
  exact h4

theorem kept_standbyMissing (h : Kept q s) : ∀ a1, Kept q (standbyMissing s a1) := by
  intro a1
  unfold standbyMissing
  extract_lets v0 v1 v2 v3
  have h4 : Kept q v3 := by
    unfold v3
    apply kept_setLease
    exact h
  clear_value v3
  refine kept_ite ?_ ?_
  · apply kept_mismatchFound
    exact h4
  · exact h4

theorem kept_drvSlotEnds (h : Kept q s) : Kept q (drvSlotEnds s) := by
  unfold drvSlotEnds
  extract_lets v0
  apply kept_setObs
  refine kept_rec ?_
  apply kept_parts
  exact h

theorem kept_sparesSlot (h : Kept q s) : Kept q (sparesSlot s) := by
  unfold sparesSlot
  apply kept_foldl
  · exact h
  · intro x0 x1 h2
    split
    · extract_lets v3 v4
      have h5 : Kept q v3 := by
        unfold v3
        apply kept_setLinks
        exact h2
      clear_value v3
      have h6 : Kept q v4 := by
        unfold v4
        apply kept_laneShow
        exact h5
      clear_value v4
      refine kept_ite ?_ ?_
      · exact h2
      · apply kept_raise
        exact h6
    · exact h2

theorem kept_micaPhase (h : Kept q s) : Kept q (micaPhase s) := by
  unfold micaPhase
  apply kept_setBorax
  apply kept_setMica
  exact h

theorem kept_sparesPhase (h : Kept q s) : Kept q (sparesPhase s) := by
  unfold sparesPhase
  extract_lets v0
  have h1 : Kept q v0 := by
    unfold v0
    apply kept_setLinks
    exact h
  clear_value v0
  apply kept_foldl
  · exact h1
  · intro x2 x3 h4
    split
    · refine kept_ite ?_ ?_
      · exact h4
      · apply kept_laneShow
        apply kept_setLinks
        exact h4
    · exact h4

theorem kept_offTimingStop (h : Kept q s) : Kept q (offTimingStop s) := by
  unfold offTimingStop
  extract_lets v0
  have h1 : Kept q v0 := by
    unfold v0
    apply kept_timingStop
    exact h
  clear_value v0
  apply kept_gtSet
  apply kept_drvSend
  apply kept_setStep
  exact h1

theorem kept_offStep (h : Kept q s) : Kept q (offStep s) := by
  unfold offStep
  extract_lets v0 v1
  split
  · apply kept_setStep
    apply kept_blpLow
    apply kept_setPanelState
    exact h
  · refine kept_ite ?_ ?_
    · apply kept_offTimingStop
      apply kept_setScan
      exact h
    · exact h
  · exact h

theorem kept_setPaired (h : Kept q s) : ∀ a1, Kept q (setPaired s a1) := by
  intro a1
  unfold setPaired
  apply kept_setF
  apply kept_setScan
  exact h

theorem kept_groupDown (h : Kept q s) : ∀ a1, Kept q (groupDown s a1) := by
  intro a1
  unfold groupDown
  refine kept_ite ?_ ?_
  · exact h
  · apply kept_powerTake
    exact h

theorem kept_pewterChange (h : Kept q s) : Kept q (pewterChange s) := by
  unfold pewterChange
  extract_lets v0 v1 v2
  have h3 : Kept q v1 := by
    unfold v1
    apply kept_setObs
    apply kept_setPaired
    apply kept_cancelAll
    exact h
  clear_value v1
  have h4 : Kept q v2 := by
    unfold v2
    apply kept_setObs
    apply kept_setPaired
    exact h
  clear_value v2
  refine kept_ite ?_ ?_
  · exact h
  · refine kept_ite ?_ ?_
    · apply kept_groupDown
      apply kept_obsEvent
      exact h3
    · refine kept_ite ?_ ?_
      · apply kept_openFirst
        apply kept_obsEvent
        apply kept_setScan
        exact h4
      · exact h

theorem kept_shortShown (h : Kept q s) : ∀ b l, Kept q (shortShown s b l) := by
  intro b l
  cases l with
  | nil =>
    unfold shortShown
    refine kept_ite h ?_
    exact kept_wantPewter h _
  | cons g r =>
    unfold shortShown
    apply kept_safePanel
    apply kept_foldl h
    intro t x ht
    exact kept_blockQuarantine ht _ _

theorem kept_laneCheck (h : Kept q s) : Kept q (laneCheck s) := by
  unfold laneCheck
  extract_lets short v
  exact kept_shortShown (kept_setF h _ _ _ _) _ _

theorem kept_polTake (h : Kept q s) : Kept q (polTake s) := by
  unfold polTake
  extract_lets v0
  apply kept_setObs
  exact h

theorem kept_bandTake (h : Kept q s) : Kept q (bandTake s) := by
  unfold bandTake
  extract_lets v0 v1 v2
  refine kept_ite ?_ ?_
  · exact h
  · apply kept_obsEvent
    apply kept_setF
    apply kept_setObs
    exact h

theorem kept_waveTake (h : Kept q s) : Kept q (waveTake s) := by
  unfold waveTake
  extract_lets v0
  refine kept_ite ?_ ?_
  · exact h
  · apply kept_setObs
    exact h

theorem kept_panelOnAt (h : Kept q s) : Kept q (panelOnAt s) := by
  unfold panelOnAt
  extract_lets v0
  have h1 : Kept q v0 := by
    unfold v0
    apply kept_setPanelState
    apply kept_setStep
    apply kept_setScan
    exact h
  clear_value v0
  refine kept_ite ?_ ?_
  · apply kept_heldRuns
    apply kept_obsEvent
    exact h1
  · exact h

theorem kept_triggerDue (h : Kept q s) : ∀ a1 a2 a3, Kept q (triggerDue s a1 a2 a3) := by
  intro a1 a2 a3
  unfold triggerDue
  apply kept_foldl
  · exact h
  · intro x0 x1 h2
    split
    · refine kept_ite ?_ ?_
      · apply kept_setTrg
        exact h2
      · exact h2
    · exact h2

theorem kept_frameStart (h : Kept q s) : Kept q (frameStart s) := by
  unfold frameStart
  extract_lets v0 v1 v2 v3 v4 v5 v6
  have h7 : Kept q v0 := by
    unfold v0
    split
    · apply kept_progTake
      exact h
    · exact h
  clear_value v0
  have h8 : Kept q v1 := by
    unfold v1
    apply kept_calFrameStart
    exact h7
  clear_value v1
  have h9 : Kept q v2 := by
    unfold v2
    apply kept_pewterChange
    apply kept_laneCheck
    exact h8
  clear_value v2
  have h10 : Kept q v3 := by
    unfold v3
    apply kept_polTake
    apply kept_bandTake
    apply kept_waveTake
    exact h9
  clear_value v3
  have h11 : Kept q v4 := by
    unfold v4
    apply kept_panelOnAt
    exact h10
  clear_value v4
  have h12 : Kept q v5 := by
    unfold v5
    apply kept_setBorax
    exact h11
  clear_value v5
  have h13 : Kept q v6 := by
    unfold v6
    apply kept_retFrame
    exact h12
  clear_value v6
  refine kept_ite ?_ ?_
  · exact h9
  · refine kept_ite ?_ ?_
    · apply kept_triggerDue
      exact h13
    · exact h13

theorem kept_strobePhase (h : Kept q s) : Kept q (strobePhase s) := by
  unfold strobePhase
  extract_lets v0
  refine kept_ite ?_ ?_
  · exact h
  · split
    refine kept_ite ?_ ?_
    · exact h
    · apply kept_setObs
      exact h

theorem kept_phaseStart (h : Kept q s) : ∀ a1, Kept q (phaseStart s a1) := by
  intro a1
  unfold phaseStart
  extract_lets v0 v1 v2 v3 v4 v5 v6
  have h7 : Kept q v0 := by
    unfold v0
    apply kept_setObs
    apply kept_micaPhase
    apply kept_sparesPhase
    exact h
  clear_value v0
  have h8 : Kept q v1 := by
    unfold v1
    refine kept_ite ?_ ?_
    · exact h7
    · apply kept_setScan
      exact h7
  clear_value v1
  have h9 : Kept q v2 := by
    unfold v2
    apply kept_offStep
    exact h8
  clear_value v2
  have h10 : Kept q v3 := by
    unfold v3
    refine kept_ite ?_ ?_
    · apply kept_frameStart
      exact h9
    · exact h9
  clear_value v3
  have h11 : Kept q v4 := by
    unfold v4
    apply kept_setFlag
    exact h10
  clear_value v4
  have h12 : Kept q v5 := by
    unfold v5
    refine kept_ite ?_ ?_
    · apply kept_setFlag
      exact h11
    · exact h11
  clear_value v5
  have h13 : Kept q v6 := by
    unfold v6
    refine kept_ite ?_ ?_
    · apply kept_triggerDue
      exact h12
    · exact h12
  clear_value v6
  refine kept_ite ?_ ?_
  · exact h9
  · refine kept_ite ?_ ?_
    · exact h10
    · apply kept_strobePhase
      exact h13

theorem kept_lineMatch (h : Kept q s) : Kept q (lineMatch s) := by
  unfold lineMatch
  apply kept_foldl
  · exact h
  · intro x0 x1 h2
    refine kept_ite ?_ ?_
    · apply kept_setFlagOf
      exact h2
    · exact h2

theorem kept_histRead (h : Kept q s) : ∀ a1, Kept q (histRead s a1) := by
  intro a1
  unfold histRead
  extract_lets v0 v1 v2
  apply kept_setObs
  apply kept_poisonSeen
  exact h

theorem kept_histReads (h : Kept q s) : Kept q (histReads s) := by
  unfold histReads
  refine kept_ite ?_ ?_
  · exact h
  · apply kept_foldl
    · exact h
    · intro x0 x1 h2
      apply kept_histRead
      exact h2

theorem kept_strobeSlot (h : Kept q s) : Kept q (strobeSlot s) := by
  unfold strobeSlot
  extract_lets v0 v1 v2
  apply kept_setObs
  exact h

theorem kept_gtSlot (h : Kept q s) : Kept q (gtSlot s) := by
  unfold gtSlot
  apply kept_setObs
  exact h

theorem kept_overdrive (h : Kept q s) : ∀ a1 a2, Kept q (overdrive s a1 a2).1 := by
  intro a1 a2
  unfold overdrive
  split
  · exact h
  · extract_lets v0
    split
    · exact h
    · dsimp only
      apply kept_setObs
      apply kept_bump
      exact h

theorem kept_pairedLine (h : Kept q s) : Kept q (pairedLine s) := by
  unfold pairedLine
  extract_lets v0 v1
  split
  apply kept_drvSend
  refine kept_fst (by assumption) ?_
  apply kept_overdrive
  exact h

theorem kept_dropLaunches (h : Kept q s) : Kept q (dropLaunches s) := by
  unfold dropLaunches
  apply kept_foldl
  · exact h
  · intro x0 x1 h2
    extract_lets v3
    refine kept_ite ?_ ?_
    · exact h2
    · apply kept_setGal
      exact h2

theorem kept_stripeDeadline (h : Kept q s) : ∀ a1, Kept q (stripeDeadline s a1) := by
  intro a1
  unfold stripeDeadline
  extract_lets v0 v1 v2 v3
  have h4 : Kept q v0 := by
    unfold v0
    refine kept_ite ?_ ?_
    · exact h
    · apply kept_setStripes
      exact h
  clear_value v0
  have h5 : Kept q v1 := by
    unfold v1
    apply kept_setStripes
    exact h4
  clear_value v1
  have h6 : Kept q v2 := by
    unfold v2
    apply kept_setStripe
    exact h5
  clear_value v2
  have h7 : Kept q v3 := by
    unfold v3
    apply kept_cancelStripe
    exact h6
  clear_value v3
  split
  · exact h5
  · extract_lets v8 v9 v10 v11
    have h12 : Kept q v11 := by
      unfold v11
      clear_value v10
      split
      · exact h7
      · extract_lets v13
        have h14 : Kept q v13 := by
          unfold v13
          apply kept_bump
          exact h7
        clear_value v13
        refine kept_ite ?_ ?_
        · exact h14
        · apply kept_raise
          apply kept_setGal
          exact h14
    clear_value v11
    refine kept_ite ?_ ?_
    · apply kept_dropLaunches
      exact h5
    · apply kept_showOldest
      apply kept_dropLaunches
      apply kept_stripeDone
      exact h12

theorem kept_stripeBegins (h : Kept q s) : ∀ a1, Kept q (stripeBegins s a1) := by
  intro a1
  unfold stripeBegins
  extract_lets v0
  have h1 : Kept q v0 := by
    unfold v0
    refine kept_ite ?_ ?_
    · apply kept_openStripe
      exact h
    · exact h
  clear_value v0
  apply kept_repeatPoint
  apply kept_stripeDeadline
  exact h1

theorem kept_countUnderruns (h : Kept q s) : ∀ a1 a2, Kept q (countUnderruns s a1 a2) := by
  intro a1 a2
  unfold countUnderruns
  apply kept_foldl
  · exact h
  · intro x0 x1 h2
    extract_lets v3
    have h4 : Kept q v3 := by
      unfold v3
      apply kept_bump
      exact h2
    clear_value v3
    refine kept_ite ?_ ?_
    · exact h4
    · apply kept_mcaEvent
      apply kept_setMica
      exact h4

theorem kept_planeFetched (h : Kept q s) : ∀ a1 a2, Kept q (planeFetched s a1 a2) := by
  intro a1 a2
  unfold planeFetched
  extract_lets v0
  apply kept_foldl
  · exact h
  · intro x1 x2 h3
    apply kept_poisonSeen
    exact h3

theorem kept_composeLine (h : Kept q s) : ∀ a1 a2 a3, Kept q (composeLine s a1 a2 a3).1 := by
  intro a1 a2 a3
  unfold composeLine
  extract_lets v0 v1 v2 v3 v4
  have h5 : Kept q v2 := by
    unfold v2
    apply kept_countUnderruns
    apply kept_foldl
    · exact h
    · intro x6 x7 h8
      apply kept_planeFetched
      exact h8
  clear_value v2
  dsimp only
  refine kept_ite ?_ ?_
  · refine kept_rec ?_
    apply kept_parts
    exact h5
  · exact h5

theorem kept_micaSend (h : Kept q s) : ∀ a1 a2 a3, Kept q (micaSend s a1 a2 a3) := by
  intro a1 a2 a3
  unfold micaSend
  extract_lets v0
  apply kept_setMica
  exact h

theorem kept_fillReport (h : Kept q s) : ∀ a1, Kept q (fillReport s a1) := by
  intro a1
  unfold fillReport
  extract_lets v0 v1
  have h2 : Kept q v1 := by
    unfold v1
    apply kept_setMica
    exact h
  clear_value v1
  refine kept_ite ?_ ?_
  · exact h2
  · apply kept_mcaEvent
    apply kept_setMica
    exact h2

theorem kept_micaLine (h : Kept q s) : ∀ a1 a2, Kept q (micaLine s a1 a2).1 := by
  intro a1 a2
  unfold micaLine
  extract_lets v0 v1
  have h2 : Kept q v1 := by
    unfold v1
    apply kept_bump
    exact h
  clear_value v1
  split
  · exact h
  · split
    · exact h
    · split
      · split
        extract_lets v3
        dsimp only
        apply kept_micaSend
        refine kept_fst (by assumption) ?_
        apply kept_composeLine
        exact h
      · split
        dsimp only
        apply kept_micaSend
        refine kept_ite ?_ ?_
        · apply kept_fillReport
          refine kept_fst (by assumption) ?_
          split
          · exact h2
          · dsimp only
            apply kept_bump
            apply kept_setMica
            exact h2
        · refine kept_fst (by assumption) ?_
          split
          · exact h2
          · dsimp only
            apply kept_bump
            apply kept_setMica
            exact h2

theorem kept_toBorax (h : Kept q s) : ∀ a1 a2 a3, Kept q (toBorax s a1 a2 a3) := by
  intro a1 a2 a3
  unfold toBorax
  extract_lets v0
  split
  extract_lets v1 v2
  have h3 : Kept q v1 := by
    unfold v1
    apply kept_retLine
    refine kept_fst (by assumption) ?_
    apply kept_shadowLine
    exact h
  clear_value v1
  have h4 : Kept q v2 := by
    unfold v2
    apply kept_bump
    exact h3
  clear_value v2
  refine kept_ite ?_ ?_
  · exact h3
  · refine kept_ite ?_ ?_
    · exact h4
    · apply kept_mcaEvent
      apply kept_setMica
      exact h4

theorem kept_missingLine (h : Kept q s) : ∀ a1 a2, Kept q (missingLine s a1 a2).1 := by
  intro a1 a2
  unfold missingLine
  extract_lets v0
  have h1 : Kept q v0 := by
    unfold v0
    apply kept_bump
    exact h
  clear_value v0
  split
  split
  · exact h1
  · dsimp only
    apply kept_obsEvent
    apply kept_setObs
    exact h1

theorem kept_takenLine (h : Kept q s) : ∀ a1 a2 a3, Kept q (takenLine s a1 a2 a3).1 := by
  intro a1 a2 a3
  unfold takenLine
  split
  · exact h
  · split
    · exact h
    · apply kept_missingLine
      exact h

theorem kept_stripeTaken (h : Kept q s) : ∀ a1 a2, Kept q (stripeTaken s a1 a2) := by
  intro a1 a2
  unfold stripeTaken
  extract_lets v0
  have h1 : Kept q v0 := by
    unfold v0
    apply kept_setStripe
    exact h
  clear_value v0
  refine kept_ite ?_ ?_
  · exact h1
  · apply kept_showOldest
    apply kept_setStripes
    exact h1

theorem kept_ringDrop (h : Kept q s) : ∀ a1, Kept q (ringDrop s a1) := by
  intro a1
  unfold ringDrop
  apply kept_setMica
  exact h

theorem kept_updatePoint (h : Kept q s) : ∀ a1, Kept q (updatePoint s a1) := by
  intro a1
  unfold updatePoint
  extract_lets v0 v1 v2 v3 v4 v5 v6 v7 v8 v9 v10
  have h11 : Kept q v0 := by
    unfold v0
    refine kept_ite ?_ ?_
    · apply kept_mcaEvent
      exact h
    · exact h
  clear_value v0
  have h12 : Kept q v1 := by
    unfold v1
    apply kept_setMica
    exact h11
  clear_value v1
  have h13 : Kept q v5 := by
    unfold v5
    refine kept_ite ?_ ?_
    · exact h12
    · apply kept_bump
      exact h12
  clear_value v5
  have h14 : Kept q v9 := by
    unfold v9
    apply kept_setMica
    exact h13
  clear_value v9
  have h15 : Kept q v10 := by
    unfold v10
    refine kept_ite ?_ ?_
    · exact h14
    · apply kept_mcaEvent
      exact h14
  clear_value v10
  apply kept_micaStatus
  exact h15

theorem kept_normalLine (h : Kept q s) : Kept q (normalLine s) := by
  unfold normalLine
  extract_lets v0 v1 v2
  have h3 : Kept q v2 := by
    unfold v2
    refine kept_ite ?_ ?_
    · apply kept_stripeBegins
      exact h
    · exact h
  clear_value v2
  split
  extract_lets v4 v5 v6 v7
  have h8 : Kept q v5 := by
    unfold v5
    apply kept_toBorax
    refine kept_fst (by assumption) ?_
    apply kept_micaLine
    exact h3
  clear_value v5
  have h9 : Kept q v7 := by
    unfold v7
    apply kept_setObs
    exact h8
  clear_value v7
  split
  split
  extract_lets v10 v11 v12 v13
  have h14 : Kept q v10 := by
    unfold v10
    refine kept_ite ?_ ?_
    · apply kept_dramPut
      refine kept_fst (by assumption) ?_
      apply kept_overdrive
      refine kept_fst (by assumption) ?_
      apply kept_takenLine
      exact h9
    · refine kept_fst (by assumption) ?_
      apply kept_overdrive
      refine kept_fst (by assumption) ?_
      apply kept_takenLine
      exact h9
  clear_value v10
  have h15 : Kept q v11 := by
    unfold v11
    apply kept_drvSend
    exact h14
  clear_value v11
  have h16 : Kept q v12 := by
    unfold v12
    apply kept_stripeTaken
    exact h15
  clear_value v12
  have h17 : Kept q v13 := by
    unfold v13
    refine kept_ite ?_ ?_
    · apply kept_ringDrop
      exact h16
    · exact h16
  clear_value v13
  refine kept_ite ?_ ?_
  · apply kept_updatePoint
    exact h17
  · exact h17

theorem kept_polSend (h : Kept q s) : Kept q (polSend s) := by
  unfold polSend
  extract_lets v0 v1
  refine kept_ite ?_ ?_
  · exact h
  · apply kept_setObs
    apply kept_drvMore
    exact h

theorem kept_odReport (h : Kept q s) : Kept q (odReport s) := by
  unfold odReport
  refine kept_ite ?_ ?_
  · exact h
  · apply kept_obsEvent
    apply kept_setObs
    exact h

theorem kept_slotBegins (h : Kept q s) : ∀ a1, Kept q (slotBegins s a1) := by
  intro a1
  unfold slotBegins
  extract_lets v0 v1 v2 v3 v4 v5
  have h6 : Kept q v0 := by
    unfold v0
    apply kept_drvSlotEnds
    apply kept_sparesSlot
    exact h
  clear_value v0
  have h7 : Kept q v1 := by
    unfold v1
    refine kept_ite ?_ ?_
    · apply kept_phaseStart
      exact h6
    · exact h6
  clear_value v1
  have h8 : Kept q v2 := by
    unfold v2
    apply kept_lineMatch
    exact h7
  clear_value v2
  have h9 : Kept q v3 := by
    unfold v3
    apply kept_histReads
    apply kept_strobeSlot
    apply kept_gtSlot
    exact h8
  clear_value v3
  have h10 : Kept q v4 := by
    unfold v4
    refine kept_ite ?_ ?_
    · refine kept_ite ?_ ?_
      · apply kept_pairedLine
        exact h9
      · apply kept_normalLine
        exact h9
    · apply kept_drvWaiting
      apply kept_polSend
      exact h9
  clear_value v4
  have h11 : Kept q v5 := by
    unfold v5
    refine kept_ite ?_ ?_
    · apply kept_odReport
      apply kept_setFlag
      exact h10
    · exact h10
  clear_value v5
  refine kept_ite ?_ ?_
  · exact h7
  · apply kept_settleScan
    apply kept_settleScan
    exact h11

theorem kept_gtPasses (h : Kept q s) : ∀ a1, Kept q (gtPasses s a1) := by
  intro a1
  unfold gtPasses
  apply kept_setObs
  exact h

theorem kept_slotPasses (h : Kept q s) : ∀ a1, Kept q (slotPasses s a1) := by
  intro a1
  unfold slotPasses
  apply kept_setObs
  apply kept_gtPasses
  exact h

theorem kept_nextPhase (h : Kept q s) : Kept q (nextPhase s) := by
  unfold nextPhase
  extract_lets v0 v1
  have h2 : Kept q v0 := by
    unfold v0
    apply kept_setScan
    exact h
  clear_value v0
  have h3 : Kept q v1 := by
    unfold v1
    refine kept_ite ?_ ?_
    · exact h2
    · refine kept_ite ?_ ?_
      · apply kept_obsEvent
        apply kept_setScan
        exact h2
      · apply kept_setScan
        exact h2
  clear_value v1
  refine kept_ite ?_ ?_
  · apply kept_setScan
    exact h3
  · apply kept_setScan
    exact h3

theorem kept_nextSlot (h : Kept q s) : Kept q (nextSlot s) := by
  unfold nextSlot
  extract_lets v0 v1 v2 v3
  refine kept_ite ?_ ?_
  · apply kept_setScan
    exact h
  · refine kept_ite ?_ ?_
    · apply kept_setScan
      exact h
    · apply kept_setScan
      exact h

theorem kept_scanMoves (h : Kept q s) : Kept q (scanMoves s) := by
  unfold scanMoves
  extract_lets v0 v1
  have h2 : Kept q v0 := by
    unfold v0
    refine kept_ite ?_ ?_
    · apply kept_setScan
      exact h
    · exact h
  clear_value v0
  have h3 : Kept q v1 := by
    unfold v1
    apply kept_slotPasses
    exact h2
  clear_value v1
  refine kept_ite ?_ ?_
  · apply kept_setScan
    exact h2
  · refine kept_ite ?_ ?_
    · apply kept_nextPhase
      exact h3
    · apply kept_nextSlot
      exact h3

theorem kept_holdEnds (h : Kept q s) : ∀ a1, Kept q (holdEnds s a1) := by
  intro a1
  unfold holdEnds
  extract_lets v0 v1
  have h2 : Kept q v0 := by
    unfold v0
    apply kept_gtPasses
    exact h
  clear_value v0
  have h3 : Kept q v1 := by
    unfold v1
    apply kept_setScan
    exact h2
  clear_value v1
  refine kept_ite ?_ ?_
  · exact h
  · apply kept_obsEvent
    exact h3

theorem kept_holderLine (h : Kept q s) : ∀ a1 a2, Kept q (holderLine s a1 a2) := by
  intro a1 a2
  unfold holderLine
  extract_lets v0 v1 v2 v3
  have h4 : Kept q v0 := by
    unfold v0
    split
    · apply kept_switchEnds
      exact h
    · exact h
  clear_value v0
  have h5 : Kept q v1 := by
    unfold v1
    apply kept_standbyMissing
    apply kept_setLease
    exact h4
  clear_value v1
  have h6 : Kept q v3 := by
    unfold v3
    apply kept_showLag
    apply kept_slotBegins
    apply kept_scanMoves
    apply kept_holdEnds
    exact h5
  clear_value v3
  split
  · apply kept_setFlint
    exact h6
  · exact h6

theorem kept_standbyLine (h : Kept q s) : ∀ a1 a2, Kept q (standbyLine s a1 a2) := by
  intro a1 a2
  unfold standbyLine
  extract_lets v0
  have h1 : Kept q v0 := by
    unfold v0
    apply kept_setLease
    exact h
  clear_value v0
  refine kept_ite ?_ ?_
  · exact h
  · refine kept_ite ?_ ?_
    · apply kept_mismatchFound
      exact h1
    · apply kept_leaseShow
      apply kept_setFlint
      exact h1

theorem kept_execLineStart (h : Kept q s) : ∀ a1 a2, KeptOut q (execLineStart a1 a2 s) := by
  intro a1 a2
  unfold execLineStart
  apply kept_next
  refine kept_ite ?_ ?_
  · exact h
  · refine kept_ite ?_ ?_
    · refine kept_ite ?_ ?_
      · exact h
      · apply kept_holderLine
        exact h
    · apply kept_standbyLine
      exact h

theorem kept_gtHold (h : Kept q s) : Kept q (gtHold s) := by
  unfold gtHold
  apply kept_setObs
  exact h

theorem kept_execScanHold (h : Kept q s) : KeptOut q (execScanHold s) := by
  unfold execScanHold
  extract_lets v0
  have h1 : Kept q v0 := by
    unfold v0
    apply kept_bump
    apply kept_setScan
    exact h
  clear_value v0
  apply kept_next
  refine kept_ite ?_ ?_
  · exact h
  · apply kept_gtHold
    apply kept_drvSend
    exact h1

theorem kept_execHoldTimeout (h : Kept q s) : KeptOut q (execHoldTimeout s) := by
  unfold execHoldTimeout
  apply kept_next
  refine kept_ite ?_ ?_
  · apply kept_safePanel
    exact h
  · exact h

theorem kept_execWaveCommit (h : Kept q s) : ∀ a1, KeptOut q (execWaveCommit a1 s) := by
  intro a1
  unfold execWaveCommit
  apply kept_next
  apply kept_reqServes
  · exact h
  · intro x0 h1
    apply kept_waveCommit
    exact h1

theorem kept_execPanelMode (h : Kept q s) : ∀ a1 a2, KeptOut q (execPanelMode a1 a2 s) := by
  intro a1 a2
  unfold execPanelMode
  apply kept_next
  apply kept_reqServes
  · exact h
  · intro x0 h1
    apply kept_panelCtrlWrite
    exact h1

theorem kept_execPanelPowerOn (h : Kept q s) : ∀ a1, KeptOut q (execPanelPowerOn a1 s) := by
  intro a1
  unfold execPanelPowerOn
  apply kept_next
  apply kept_reqServes
  · exact h
  · intro x0 h1
    apply kept_powerAsk
    exact h1

theorem kept_execPanelPowerOff (h : Kept q s) : ∀ a1, KeptOut q (execPanelPowerOff a1 s) := by
  intro a1
  unfold execPanelPowerOff
  apply kept_next
  apply kept_reqServes
  · exact h
  · intro x0 h1
    apply kept_powerAsk
    exact h1

theorem kept_drvConfig (h : Kept q s) : Kept q (drvConfig s).1 := by
  unfold drvConfig
  split
  split
  dsimp only
  refine kept_snd (by assumption) ?_
  apply kept_takeFree
  refine kept_snd (by assumption) ?_
  apply kept_takeFree
  exact h

theorem kept_trainingDone (h : Kept q s) : Kept q (trainingDone s) := by
  unfold trainingDone
  refine kept_ite ?_ ?_
  · exact h
  · split
    extract_lets v0 v1
    have h2 : Kept q v0 := by
      unfold v0
      apply kept_drvSend
      refine kept_fst (by assumption) ?_
      apply kept_drvConfig
      apply kept_setStep
      exact h
    clear_value v0
    have h3 : Kept q v1 := by
      unfold v1
      apply kept_setObs
      exact h2
    clear_value v1
    refine kept_ite ?_ ?_
    · apply kept_calBoot
      apply kept_setObs
      exact h3
    · exact h3

theorem kept_execPanelTrainingDone (h : Kept q s) : KeptOut q (execPanelTrainingDone s) := by
  unfold execPanelTrainingDone
  apply kept_next
  apply kept_whenServes
  · exact h
  · intro x0 h1
    apply kept_trainingDone
    exact h1

theorem kept_identifyReply (h : Kept q s) : ∀ a1, Kept q (identifyReply s a1) := by
  intro a1
  unfold identifyReply
  extract_lets v0 v1
  have h2 : Kept q v0 := by
    unfold v0
    apply kept_foldl
    · exact h
    · intro x3 x4 h5
      apply kept_setReg
      exact h5
  clear_value v0
  have h6 : Kept q v1 := by
    unfold v1
    apply kept_calSerial
    apply kept_setObs
    exact h2
  clear_value v1
  refine kept_ite ?_ ?_
  · exact h
  · apply kept_scriptAsk
    apply kept_setStep
    exact h6

theorem kept_execPanelIdentifyReply (h : Kept q s) : ∀ a1, KeptOut q (execPanelIdentifyReply a1 s) := by
  intro a1
  unfold execPanelIdentifyReply
  apply kept_next
  apply kept_whenServes
  · exact h
  · intro x0 h1
    apply kept_identifyReply
    exact h1

theorem kept_flashReply (h : Kept q s) : ∀ a1, Kept q (flashReply s a1) := by
  intro a1
  unfold flashReply
  extract_lets v0 v1 v2
  have h3 : Kept q v1 := by
    unfold v1
    apply kept_setCal
    exact h
  clear_value v1
  split
  · exact h
  · refine kept_ite ?_ ?_
    · exact h
    · refine kept_ite ?_ ?_
      · exact h3
      · apply kept_drvAsk
        exact h3

theorem kept_execPanelFlashReadReply (h : Kept q s) : ∀ a1, KeptOut q (execPanelFlashReadReply a1 s) := by
  intro a1
  unfold execPanelFlashReadReply
  apply kept_next
  apply kept_whenServes
  · exact h
  · intro x0 h1
    apply kept_flashReply
    exact h1

theorem kept_execStatusReadReply (h : Kept q s) : ∀ a1 a2 a3, KeptOut q (execStatusReadReply a1 a2 a3 s) := by
  intro a1 a2 a3
  unfold execStatusReadReply
  apply kept_next
  apply kept_whenServes
  · exact h
  · intro x0 h1
    apply kept_setObs
    exact h1

theorem kept_execPmicRun (h : Kept q s) : ∀ a1 a2, KeptOut q (execPmicRun a1 a2 s) := by
  intro a1 a2
  unfold execPmicRun
  apply kept_next
  apply kept_reqServes
  · exact h
  · intro x0 h1
    apply kept_pmicCtrlWrite
    exact h1

theorem kept_pmicMonitor (h : Kept q s) : Kept q (pmicMonitor s) := by
  unfold pmicMonitor
  refine kept_ite ?_ ?_
  · exact h
  · apply kept_scriptAsk
    exact h

theorem kept_execPmicMonitor (h : Kept q s) : KeptOut q (execPmicMonitor s) := by
  unfold execPmicMonitor
  apply kept_next
  apply kept_whenServes
  · exact h
  · intro x0 h1
    apply kept_pmicMonitor
    exact h1

theorem kept_linkEnables (h : Kept q s) : ∀ a1, Kept q (linkEnables s a1) := by
  intro a1
  unfold linkEnables
  split
  · apply kept_whenServes
    · exact h
    · intro x0 h1
      apply kept_linkCtrlWrite
      exact h1
  · apply kept_whenServes
    · exact h
    · intro x2 h3
      refine kept_ite ?_ ?_
      · apply kept_trainGroup
        exact h3
      · exact h3
  · apply kept_whenServes
    · exact h
    · intro x4 h5
      refine kept_ite ?_ ?_
      · apply kept_trainGroup
        exact h5
      · exact h5

theorem kept_execLinkEnable (h : Kept q s) : ∀ a1, KeptOut q (execLinkEnable a1 s) := by
  intro a1
  unfold execLinkEnable
  apply kept_next
  apply kept_linkEnables
  exact h

theorem kept_execLinkRetrain (h : Kept q s) : ∀ a1 a2, KeptOut q (execLinkRetrain a1 a2 s) := by
  intro a1 a2
  unfold execLinkRetrain
  apply kept_next
  apply kept_reqServes
  · exact h
  · intro x0 h1
    apply kept_linkCtrlWrite
    exact h1

theorem kept_panelJudged (h : Kept q s) : Kept q (panelJudged s) := by
  unfold panelJudged
  refine kept_ite ?_ ?_
  · apply kept_powerOnFails
    exact h
  · exact h

theorem kept_onLane (h : Kept q s) : ∀ l f, (∀ t, Kept q t → Kept q (f t)) → Kept q (onLane s l f) := by
  intro l f hf
  unfold onLane
  refine kept_ite ?_ ?_
  · apply kept_panelJudged
    apply hf
    exact h
  · exact h

theorem kept_drvReplies (h : Kept q s) : Kept q (drvReplies s) := by
  unfold drvReplies
  apply kept_foldl
  · apply kept_setLinks
    exact h
  · intro x0 x1 h2
    refine kept_ite ?_ ?_
    · exact h2
    · refine kept_ite ?_ ?_
      · apply kept_identifyReply
        exact h2
      · apply kept_flashReply
        exact h2

theorem kept_lockStep (h : Kept q s) : ∀ a1, Kept q (lockStep s a1) := by
  intro a1
  unfold lockStep
  extract_lets v0
  refine kept_ite ?_ ?_
  · apply kept_enterLane
    exact h
  · refine kept_ite ?_ ?_
    · apply kept_enterLane
      exact h
    · exact h

theorem kept_laneError (h : Kept q s) : ∀ a1, Kept q (laneError s a1) := by
  intro a1
  unfold laneError
  extract_lets v0
  refine kept_ite ?_ ?_
  · apply kept_laneRetire
    apply kept_setLane
    exact h
  · apply kept_setLane
    exact h

theorem kept_headerSeen (h : Kept q s) : ∀ a1 a2, Kept q (headerSeen s a1 a2) := by
  intro a1 a2
  unfold headerSeen
  extract_lets v0 v1
  have h2 : Kept q v1 := by
    unfold v1
    apply kept_setLane
    exact h
  clear_value v1
  refine kept_ite ?_ ?_
  · apply kept_lockStep
    exact h2
  · apply kept_laneError
    exact h2

theorem kept_recoveryEvent (h : Kept q s) : ∀ a1 a2, Kept q (recoveryEvent s a1 a2) := by
  intro a1 a2
  unfold recoveryEvent
  extract_lets v0
  apply kept_raise
  exact h

theorem kept_setGroupTx (h : Kept q s) : ∀ a1 a2, Kept q (setGroupTx s a1 a2) := by
  intro a1 a2
  unfold setGroupTx
  apply kept_setLinks
  exact h

theorem kept_spareSwap (h : Kept q s) : ∀ a1 a2, Kept q (spareSwap s a1 a2) := by
  intro a1 a2
  unfold spareSwap
  split
  · extract_lets v0
    have h1 : Kept q v0 := by
      unfold v0
      apply kept_laneShow
      apply kept_setLinks
      exact h
    clear_value v0
    apply kept_setGroupTx
    exact h1
  · exact h

theorem kept_laneRecover (h : Kept q s) : ∀ a1 a2, Kept q (laneRecover s a1 a2) := by
  intro a1 a2
  unfold laneRecover
  extract_lets v0
  have h1 : Kept q v0 := by
    unfold v0
    apply kept_recoveryEvent
    apply kept_setLane
    apply kept_enterLane
    exact h
  clear_value v0
  refine kept_ite ?_ ?_
  · exact h
  · split
    · refine kept_ite ?_ ?_
      · apply kept_spareSwap
        exact h1
      · exact h1
    · exact h1

theorem kept_setSrcTx (h : Kept q s) : ∀ a1 a2, Kept q (setSrcTx s a1 a2) := by
  intro a1 a2
  unfold setSrcTx
  apply kept_setLinks
  exact h

theorem kept_portQueue (h : Kept q s) : ∀ a1 a2, Kept q (portQueue s a1 a2) := by
  intro a1 a2
  unfold portQueue
  apply kept_setSrcTx
  exact h

theorem kept_sendPacket (h : Kept q s) : ∀ a1 a2 a3, Kept q (sendPacket s a1 a2 a3) := by
  intro a1 a2 a3
  unfold sendPacket
  extract_lets v0
  apply kept_portQueue
  apply kept_setSl
  exact h

theorem kept_linkSend (h : Kept q s) : ∀ p n, Kept q (linkSend p n s) := by
  intro p n
  induction n generalizing s with
  | zero => exact h
  | succ n ih =>
    unfold linkSend
    extract_lets v0
    split
    · refine kept_ite ?_ ?_
      · apply ih
        apply kept_sendPacket
        apply kept_setQPort
        exact h
      · exact h
    · refine kept_ite ?_ ?_
      · apply ih
        apply kept_sendPacket
        apply kept_setBorax
        exact h
      · exact h

theorem kept_creditBack (h : Kept q s) : ∀ a1, Kept q (creditBack s a1) := by
  intro a1
  unfold creditBack
  apply kept_foldl
  · exact h
  · intro x0 x1 h2
    extract_lets v3
    refine kept_ite ?_ ?_
    · exact h2
    · apply kept_portQueue
      apply kept_setSl
      exact h2

theorem kept_linkRun (h : Kept q s) : ∀ a1, Kept q (linkRun s a1) := by
  intro a1
  unfold linkRun
  apply kept_linkSend
  apply kept_creditBack
  exact h

theorem kept_ackIn (h : Kept q s) : ∀ a1 a2, Kept q (ackIn s a1 a2) := by
  intro a1 a2
  unfold ackIn
  extract_lets v0
  split
  · exact h
  · apply kept_linkRun
    apply kept_setSl
    exact h

theorem kept_resend (h : Kept q s) : ∀ a1, Kept q (resend s a1) := by
  intro a1
  unfold resend
  extract_lets v0
  refine kept_ite ?_ ?_
  · exact h
  · refine kept_ite ?_ ?_
    · apply kept_foldl
      · apply kept_setSl
        exact h
      · intro x1 x2 h3
        apply kept_laneRecover
        exact h3
    · apply kept_portQueue
      apply kept_setSl
      exact h

theorem kept_nakIn (h : Kept q s) : ∀ a1 a2, Kept q (nakIn s a1 a2) := by
  intro a1 a2
  unfold nakIn
  apply kept_resend
  apply kept_ackIn
  exact h

theorem kept_creditIn (h : Kept q s) : ∀ a1 a2 a3, Kept q (creditIn s a1 a2 a3) := by
  intro a1 a2 a3
  unfold creditIn
  apply kept_linkRun
  apply kept_setSl
  exact h

theorem kept_sendAck (h : Kept q s) : ∀ a1 a2 a3, Kept q (sendAck s a1 a2 a3) := by
  intro a1 a2 a3
  unfold sendAck
  apply kept_portQueue
  exact h

theorem kept_nakOnce (h : Kept q s) : ∀ a1, Kept q (nakOnce s a1) := by
  intro a1
  unfold nakOnce
  extract_lets v0
  refine kept_ite ?_ ?_
  · exact h
  · apply kept_sendAck
    apply kept_setSl
    exact h

theorem kept_feedLink (h : Kept q s) : ∀ a1 a2, Kept q (feedLink s a1 a2) := by
  intro a1 a2
  unfold feedLink
  extract_lets v0
  have h1 : Kept q v0 := by
    unfold v0
    apply kept_setSl
    exact h
  clear_value v0
  refine kept_ite ?_ ?_
  · apply kept_retryHeld
    apply kept_feedRx
    exact h1
  · exact h1

theorem kept_packetIn (h : Kept q s) : ∀ a1 a2, Kept q (packetIn s a1 a2) := by
  intro a1 a2
  unfold packetIn
  extract_lets v0 v1 v2 v3 v4 v5
  have h6 : Kept q v4 := by
    unfold v4
    apply kept_setSl
    exact h
  clear_value v4
  have h7 : Kept q v5 := by
    unfold v5
    apply kept_sendAck
    exact h6
  clear_value v5
  refine kept_ite ?_ ?_
  · exact h
  · refine kept_ite ?_ ?_
    · apply kept_nakOnce
      exact h
    · refine kept_ite ?_ ?_
      · apply kept_sendAck
        exact h
      · apply kept_linkRun
        refine kept_ite ?_ ?_
        · apply kept_feedLink
          exact h7
        · exact h7

end Sys2Proof.Machine
end

