-- ==== Sys2Proof/Laws/Kept5.lean ====
section
/-! SUPPORT. What each operation keeps, part 5 of 5, in the order in which one calls the other. -/

namespace Sys2Proof.Machine

variable {q : Prop × List Instr × Nat} {s : State}

theorem kept_portBlock (h : Kept q s) : ∀ a1 a2, Kept q (portBlock s a1 a2) := by
  intro a1 a2
  unfold portBlock
  extract_lets v0
  refine kept_ite ?_ ?_
  · refine kept_ite ?_ ?_
    · apply kept_ackIn
      exact h
    · refine kept_ite ?_ ?_
      · apply kept_nakIn
        exact h
      · refine kept_ite ?_ ?_
        · apply kept_creditIn
          exact h
        · exact h
  · split
    extract_lets v1
    have h2 : Kept q v1 := by
      unfold v1
      apply kept_setLinks
      exact h
    clear_value v1
    split
    · exact h2
    · apply kept_packetIn
      exact h2
    · apply kept_nakOnce
      exact h2

theorem kept_streamTake (h : Kept q s) : ∀ p n, Kept q (streamTake p n s) := by
  intro p n
  induction n generalizing s with
  | zero => exact h
  | succ n ih =>
    unfold streamTake
    extract_lets v1 v2
    split
    · exact h
    split
    · exact h
    · exact ih (kept_portBlock (kept_setLinks (kept_setLane h _ _) _) _ _)

theorem kept_groupReport (h : Kept q s) : ∀ a1 a2 a3, Kept q (groupReport s a1 a2 a3) := by
  intro a1 a2 a3
  unfold groupReport
  extract_lets v0 v1 v2 v3
  have h4 : Kept q v2 := by
    unfold v2
    apply kept_bump
    exact h
  clear_value v2
  have h5 : Kept q v3 := by
    unfold v3
    refine kept_ite ?_ ?_
    · exact h
    · refine kept_ite ?_ ?_
      · exact h4
      · apply kept_raise
        apply kept_setLinks
        exact h4
  clear_value v3
  apply kept_foldl
  · exact h5
  · intro x6 x7 h8
    extract_lets v9
    refine kept_ite ?_ ?_
    · apply kept_laneRecover
      apply kept_laneError
      exact h8
    · exact h8

theorem kept_lineReportIn (h : Kept q s) : ∀ a1 a2, Kept q (lineReportIn s a1 a2) := by
  intro a1 a2
  unfold lineReportIn
  refine kept_ite ?_ ?_
  · apply kept_foldl
    · exact h
    · intro x0 x1 h2
      apply kept_groupReport
      exact h2
  · exact h

theorem kept_backBlock (h : Kept q s) : ∀ a1 a2 a3, Kept q (backBlock s a1 a2 a3) := by
  intro a1 a2 a3
  unfold backBlock
  refine kept_ite ?_ ?_
  · apply kept_lineReportIn
    exact h
  · split
    extract_lets v0
    have h1 : Kept q v0 := by
      unfold v0
      apply kept_setLinks
      exact h
    clear_value v0
    split
    · refine kept_ite ?_ ?_
      · exact h1
      · apply kept_setLinks
        exact h1
    · exact h1

theorem kept_streamIn (h : Kept q s) : ∀ a1 a2 a3, Kept q (streamIn s a1 a2 a3) := by
  intro a1 a2 a3
  unfold streamIn
  extract_lets v0
  have h1 : Kept q v0 := by
    unfold v0
    apply kept_setLane
    exact h
  clear_value v0
  split
  · refine kept_ite ?_ ?_
    · exact h
    · refine kept_ite ?_ ?_
      · exact h1
      · apply kept_streamTake
        exact h1
  · apply kept_backBlock
    exact h
  · exact h

theorem kept_groupFail (h : Kept q s) : ∀ a1 a2, Kept q (groupFail s a1 a2) := by
  intro a1 a2
  unfold groupFail
  extract_lets v0 v1 v2
  have h3 : Kept q v0 := by
    unfold v0
    apply kept_enterLane
    exact h
  clear_value v0
  have h4 : Kept q v2 := by
    unfold v2
    split
    · apply kept_setF
      exact h3
    · exact h3
  clear_value v2
  apply kept_raise
  exact h4

theorem kept_laneFail (h : Kept q s) : ∀ a1 a2, Kept q (laneFail s a1 a2) := by
  intro a1 a2
  unfold laneFail
  split
  · extract_lets v0
    refine kept_ite ?_ ?_
    · apply kept_trainPort
      apply kept_setF
      apply kept_setSl
      exact h
    · apply kept_portFail
      exact h
  · apply kept_groupFail
    exact h

theorem kept_capsDone (h : Kept q s) : ∀ a1 a2, Kept q (capsDone s a1 a2) := by
  intro a1 a2
  unfold capsDone
  split
  · apply kept_laneFail
    exact h
  · split
    · extract_lets v0 v1 v2 v3 v4 v5
      have h6 : Kept q v4 := by
        unfold v4
        apply kept_setF
        apply kept_setF
        apply kept_setF
        exact h
      clear_value v4
      have h7 : Kept q v5 := by
        unfold v5
        refine kept_ite ?_ ?_
        · exact h
        · apply kept_foldl
          · exact h6
          · intro x8 x9 h10
            apply kept_enterLane
            exact h10
      clear_value v5
      refine kept_ite ?_ ?_
      · apply kept_enterLane
        exact h7
      · exact h7
    · apply kept_enterLane
      apply kept_setLinks
      exact h
    · apply kept_enterLane
      exact h

theorem kept_capsBlock (h : Kept q s) : ∀ a1 a2, Kept q (capsBlock s a1 a2) := by
  intro a1 a2
  unfold capsBlock
  extract_lets v0
  have h1 : Kept q v0 := by
    unfold v0
    apply kept_setLane
    exact h
  clear_value v0
  refine kept_ite ?_ ?_
  · exact h
  · refine kept_ite ?_ ?_
    · apply kept_capsDone
      exact h1
    · exact h1

theorem kept_rxAfresh (h : Kept q s) : ∀ a1, Kept q (rxAfresh s a1) := by
  intro a1
  unfold rxAfresh
  apply kept_foldl
  · apply kept_setLinks
    exact h
  · intro x0 x1 h2
    apply kept_setLane
    exact h2

theorem kept_freshPort (h : Kept q s) : ∀ a1 a2, Kept q (freshPort s a1 a2) := by
  intro a1 a2
  unfold freshPort
  extract_lets v0
  have h1 : Kept q v0 := by
    unfold v0
    apply kept_setSl
    exact h
  clear_value v0
  apply kept_setQPort
  apply kept_setSrcTx
  exact h1

theorem kept_laneEnters (h : Kept q s) : ∀ a1, Kept q (laneEnters s a1) := by
  intro a1
  unfold laneEnters
  extract_lets v0 v1 v2
  have h3 : Kept q v1 := by
    unfold v1
    apply kept_enterLane
    exact h
  clear_value v1
  have h4 : Kept q v2 := by
    unfold v2
    refine kept_ite ?_ ?_
    · apply kept_recoveryEvent
      exact h3
    · exact h3
  clear_value v2
  split
  · extract_lets v5
    refine kept_ite ?_ ?_
    · exact h4
    · refine kept_ite ?_ ?_
      · apply kept_rxAfresh
        exact h4
      · apply kept_qtzEvent
        apply kept_rxAfresh
        apply kept_freshPort
        exact h4
  · refine kept_ite ?_ ?_
    · apply kept_setLinks
      exact h4
    · exact h4
  · exact h4

theorem kept_trainBlock (h : Kept q s) : ∀ a1 a2, Kept q (trainBlock s a1 a2) := by
  intro a1 a2
  unfold trainBlock
  extract_lets v0 v1 v2
  have h3 : Kept q v1 := by
    unfold v1
    apply kept_setLane
    exact h
  clear_value v1
  refine kept_ite ?_ ?_
  · exact h
  · refine kept_ite ?_ ?_
    · apply kept_laneEnters
      exact h3
    · apply kept_lockStep
      exact h3

theorem kept_skipBlock (h : Kept q s) : ∀ a1 a2, Kept q (skipBlock s a1 a2) := by
  intro a1 a2
  unfold skipBlock
  refine kept_ite ?_ ?_
  · apply kept_setLane
    exact h
  · exact h

theorem kept_controlBlock (h : Kept q s) : ∀ a1 a2, Kept q (controlBlock s a1 a2) := by
  intro a1 a2
  unfold controlBlock
  apply kept_capsBlock
  apply kept_trainBlock
  apply kept_skipBlock
  exact h

theorem kept_blockIn (h : Kept q s) : ∀ a1 a2 a3, Kept q (blockIn s a1 a2 a3) := by
  intro a1 a2 a3
  unfold blockIn
  extract_lets v0 v1
  have h2 : Kept q v1 := by
    unfold v1
    apply kept_headerSeen
    exact h
  clear_value v1
  refine kept_ite ?_ ?_
  · exact h
  · refine kept_ite ?_ ?_
    · apply kept_laneRecover
      exact h2
    · refine kept_ite ?_ ?_
      · refine kept_ite ?_ ?_
        · apply kept_streamIn
          exact h2
        · exact h2
      · refine kept_ite ?_ ?_
        · split
          extract_lets v3
          have h4 : Kept q v3 := by
            unfold v3
            apply kept_setLane
            exact h2
          clear_value v3
          refine kept_ite ?_ ?_
          · apply kept_streamIn
            exact h4
          · exact h4
        · refine kept_ite ?_ ?_
          · refine kept_ite ?_ ?_
            · apply kept_streamIn
              exact h2
            · exact h2
          · apply kept_controlBlock
            exact h2

theorem kept_execBlockReceived (h : Kept q s) : ∀ a1 a2 a3, KeptOut q (execBlockReceived a1 a2 a3 s) := by
  intro a1 a2 a3
  unfold execBlockReceived
  apply kept_next
  apply kept_onLane
  · exact h
  · intro x0 h1
    apply kept_drvReplies
    apply kept_blockIn
    exact h1

theorem kept_execSkipReceived (h : Kept q s) : ∀ a1 a2, KeptOut q (execSkipReceived a1 a2 s) := by
  intro a1 a2
  unfold execSkipReceived
  apply kept_next
  apply kept_onLane
  · exact h
  · intro x0 h1
    apply kept_skipBlock
    exact h1

theorem kept_execTrainReceived (h : Kept q s) : ∀ a1 a2, KeptOut q (execTrainReceived a1 a2 s) := by
  intro a1 a2
  unfold execTrainReceived
  apply kept_next
  apply kept_onLane
  · exact h
  · intro x0 h1
    apply kept_trainBlock
    exact h1

theorem kept_execCapsReceived (h : Kept q s) : ∀ a1 a2, KeptOut q (execCapsReceived a1 a2 s) := by
  intro a1 a2
  unfold execCapsReceived
  apply kept_next
  apply kept_onLane
  · exact h
  · intro x0 h1
    apply kept_capsBlock
    exact h1

theorem kept_eqMeasured (h : Kept q s) : ∀ a1 a2, Kept q (eqMeasured s a1 a2) := by
  intro a1 a2
  unfold eqMeasured
  extract_lets v0 v1 v2 v3 v4
  have h5 : Kept q v1 := by
    unfold v1
    apply kept_setLane
    exact h
  clear_value v1
  have h6 : Kept q v4 := by
    unfold v4
    apply kept_setLane
    exact h5
  clear_value v4
  refine kept_ite ?_ ?_
  · exact h
  · refine kept_ite ?_ ?_
    · apply kept_adaptCtle
      exact h5
    · refine kept_ite ?_ ?_
      · apply kept_laneFail
        exact h5
      · refine kept_ite ?_ ?_
        · apply kept_laneEnters
          exact h6
        · apply kept_enterLane
          exact h6

theorem kept_execEqPresetMeasured (h : Kept q s) : ∀ a1 a2, KeptOut q (execEqPresetMeasured a1 a2 s) := by
  intro a1 a2
  unfold execEqPresetMeasured
  apply kept_next
  apply kept_onLane
  · exact h
  · intro x0 h1
    apply kept_eqMeasured
    exact h1

theorem kept_laneTimeout (h : Kept q s) : ∀ a1, Kept q (laneTimeout s a1) := by
  intro a1
  unfold laneTimeout
  split
  · apply kept_laneFail
    exact h
  · apply kept_laneFail
    exact h
  · apply kept_laneFail
    exact h
  · apply kept_laneFail
    exact h
  · apply kept_laneFail
    exact h
  · apply kept_laneRetire
    exact h
  · exact h

theorem kept_execTrainingTimeout (h : Kept q s) : ∀ a1, KeptOut q (execTrainingTimeout a1 s) := by
  intro a1
  unfold execTrainingTimeout
  apply kept_next
  apply kept_onLane
  · exact h
  · intro x0 h1
    apply kept_laneTimeout
    exact h1

theorem kept_portRetries (h : Kept q s) : ∀ a1, Kept q (portRetries s a1) := by
  intro a1
  unfold portRetries
  refine kept_ite ?_ ?_
  · apply kept_trainPort
    exact h
  · exact h

theorem kept_execTrainingRetry (h : Kept q s) : ∀ a1, KeptOut q (execTrainingRetry a1 s) := by
  intro a1
  unfold execTrainingRetry
  apply kept_next
  apply kept_whenServes
  · exact h
  · intro x0 h1
    apply kept_portRetries
    exact h1

theorem kept_rateWindow (h : Kept q s) : ∀ a1 a2, Kept q (rateWindow s a1 a2) := by
  intro a1 a2
  unfold rateWindow
  split
  · refine kept_ite ?_ ?_
    · apply kept_laneRecover
      exact h
    · exact h
  · apply kept_laneRecover
    exact h

theorem kept_execLaneRateWindow (h : Kept q s) : ∀ a1 a2, KeptOut q (execLaneRateWindow a1 a2 s) := by
  intro a1 a2
  unfold execLaneRateWindow
  apply kept_next
  apply kept_onLane
  · exact h
  · intro x0 h1
    apply kept_rateWindow
    exact h1

theorem kept_marginEnds (h : Kept q s) : ∀ a1 a2, Kept q (marginEnds s a1 a2) := by
  intro a1 a2
  unfold marginEnds
  extract_lets v0 v1
  have h2 : Kept q v1 := by
    unfold v1
    apply kept_setLane
    exact h
  clear_value v1
  refine kept_ite ?_ ?_
  · exact h
  · refine kept_ite ?_ ?_
    · refine kept_ite ?_ ?_
      · exact h
      · refine kept_ite ?_ ?_
        · apply kept_laneEnters
          exact h2
        · exact h2
    · refine kept_ite ?_ ?_
      · refine kept_ite ?_ ?_
        · exact h
        · apply kept_laneEnters
          exact h
      · refine kept_ite ?_ ?_
        · refine kept_ite ?_ ?_
          · apply kept_setLane
            exact h
          · refine kept_ite ?_ ?_
            · apply kept_laneRecover
              exact h
            · apply kept_setLane
              exact h
        · exact h

theorem kept_execMarginRound (h : Kept q s) : ∀ a1 a2, KeptOut q (execMarginRound a1 a2 s) := by
  intro a1 a2
  unfold execMarginRound
  apply kept_next
  apply kept_onLane
  · exact h
  · intro x0 h1
    apply kept_marginEnds
    exact h1

theorem kept_execPacketReceived (h : Kept q s) : ∀ a1 a2, KeptOut q (execPacketReceived a1 a2 s) := by
  intro a1 a2
  unfold execPacketReceived
  apply kept_next
  apply kept_packetIn
  exact h

theorem kept_execAckReceived (h : Kept q s) : ∀ a1 a2, KeptOut q (execAckReceived a1 a2 s) := by
  intro a1 a2
  unfold execAckReceived
  apply kept_next
  apply kept_whenServes
  · exact h
  · intro x0 h1
    apply kept_ackIn
    exact h1

theorem kept_execNakReceived (h : Kept q s) : ∀ a1 a2, KeptOut q (execNakReceived a1 a2 s) := by
  intro a1 a2
  unfold execNakReceived
  apply kept_next
  apply kept_whenServes
  · exact h
  · intro x0 h1
    apply kept_nakIn
    exact h1

theorem kept_execReplayTimeout (h : Kept q s) : ∀ a1, KeptOut q (execReplayTimeout a1 s) := by
  intro a1
  unfold execReplayTimeout
  apply kept_next
  apply kept_whenServes
  · exact h
  · intro x0 h1
    apply kept_resend
    exact h1

theorem kept_execCreditReceived (h : Kept q s) : ∀ a1 a2 a3, KeptOut q (execCreditReceived a1 a2 a3 s) := by
  intro a1 a2 a3
  unfold execCreditReceived
  apply kept_next
  apply kept_whenServes
  · exact h
  · intro x0 h1
    apply kept_creditIn
    exact h1

theorem kept_execLineReport (h : Kept q s) : ∀ a1 a2, KeptOut q (execLineReport a1 a2 s) := by
  intro a1 a2
  unfold execLineReport
  apply kept_next
  apply kept_onLane
  · exact h
  · intro x0 h1
    apply kept_lineReportIn
    exact h1

theorem kept_execEyeStart (h : Kept q s) : ∀ a1 a2 a3, KeptOut q (execEyeStart a1 a2 a3 s) := by
  intro a1 a2 a3
  unfold execEyeStart
  apply kept_next
  apply kept_reqServes
  · exact h
  · intro x0 h1
    apply kept_eyeWrite
    exact h1

theorem kept_eyeDone (h : Kept q s) : ∀ a1 a2, Kept q (eyeDone s a1 a2) := by
  intro a1 a2
  unfold eyeDone
  split
  refine kept_ite ?_ ?_
  · exact h
  · apply kept_setReg
    apply kept_setLinks
    exact h

theorem kept_execEyePointDone (h : Kept q s) : ∀ a1 a2, KeptOut q (execEyePointDone a1 a2 s) := by
  intro a1 a2
  unfold execEyePointDone
  apply kept_next
  apply kept_whenServes
  · exact h
  · intro x0 h1
    apply kept_eyeDone
    exact h1

theorem kept_execTimeLink (h : Kept q s) : ∀ a1 a2, KeptOut q (execTimeLink a1 a2 s) := by
  intro a1 a2
  unfold execTimeLink
  apply kept_next
  apply kept_whenServes
  · exact h
  · intro x0 h1
    apply kept_timeLinkIn
    exact h1

theorem kept_audioThen (h : Kept q s) : ∀ f, (∀ t, Kept q t → Kept q (f t)) → Kept q (audioThen s f) := by
  intro f hf
  unfold audioThen
  apply kept_foldl (hf _ h)
  intro t x ht
  split
  · exact kept_triggerDue ht _ _ _
  · exact ht

theorem kept_execAudioStartTime (h : Kept q s) : ∀ a1, KeptOut q (execAudioStartTime a1 s) := by
  intro a1
  unfold execAudioStartTime
  apply kept_next
  apply kept_whenServes
  · exact h
  · intro x0 h1
    apply kept_audioThen
    · exact h1
    · intro x2 h3
      apply kept_audioStart
      exact h3

theorem kept_execAudioFrame (h : Kept q s) : ∀ a1, KeptOut q (execAudioFrame a1 s) := by
  intro a1
  unfold execAudioFrame
  apply kept_next
  apply kept_audioThen
  · exact h
  · intro x0 h1
    apply kept_audioFrame
    exact h1

theorem kept_execFsyncEdge (h : Kept q s) : ∀ a1 a2, KeptOut q (execFsyncEdge a1 a2 s) := by
  intro a1 a2
  unfold execFsyncEdge
  apply kept_next
  apply kept_whenServes
  · exact h
  · intro x0 h1
    apply kept_audioThen
    · exact h1
    · intro x2 h3
      apply kept_fsyncEdge
      exact h3

theorem kept_execAudioUnit (h : Kept q s) : ∀ a1 a2, KeptOut q (execAudioUnit a1 a2 s) := by
  intro a1 a2
  unfold execAudioUnit
  apply kept_next
  apply kept_feedPort
  exact h

theorem kept_followMaster (h : Kept q s) : ∀ a1, Kept q (followMaster s a1) := by
  intro a1
  unfold followMaster
  extract_lets v0 v1 v2 v3 v4
  have h5 : Kept q v1 := by
    unfold v1
    apply kept_setPtp
    exact h
  clear_value v1
  have h6 : Kept q v2 := by
    unfold v2
    apply kept_setReg
    exact h5
  clear_value v2
  have h7 : Kept q v3 := by
    unfold v3
    apply kept_setReg
    apply kept_setReg
    exact h6
  clear_value v3
  have h8 : Kept q v4 := by
    unfold v4
    apply kept_timeEvent
    exact h7
  clear_value v4
  refine kept_ite ?_ ?_
  · exact h6
  · refine kept_ite ?_ ?_
    · apply kept_acquire
      exact h8
    · exact h8

theorem kept_bmca (h : Kept q s) : Kept q (bmca s) := by
  unfold bmca
  extract_lets v0 v1
  clear_value v1
  split
  · exact h
  · extract_lets v2
    have h3 : Kept q v2 := by
      unfold v2
      apply kept_followMaster
      exact h
    clear_value v2
    refine kept_ite ?_ ?_
    · apply kept_setServoState
      apply kept_setPortStatePtp
      apply kept_setPtp
      exact h
    · apply kept_setPortStatePtp
      exact h3

theorem kept_servoLock (h : Kept q s) : ∀ a1, Kept q (servoLock s a1) := by
  intro a1
  unfold servoLock
  extract_lets v0 v1
  have h2 : Kept q v1 := by
    unfold v1
    apply kept_setServo
    exact h
  clear_value v1
  refine kept_ite ?_ ?_
  · apply kept_setServoState
    exact h2
  · refine kept_ite ?_ ?_
    · apply kept_setServoState
      exact h2
    · exact h2

theorem kept_servoSample (h : Kept q s) : ∀ a1, Kept q (servoSample s a1) := by
  intro a1
  unfold servoSample
  extract_lets v0 v1 v2 v3 v4 v5 v6 v7 v8 v9 v10
  have h11 : Kept q v0 := by
    unfold v0
    apply kept_setReg
    exact h
  clear_value v0
  have h12 : Kept q v1 := by
    unfold v1
    refine kept_ite ?_ ?_
    · apply kept_setServoState
      exact h11
    · exact h11
  clear_value v1
  have h13 : Kept q v4 := by
    unfold v4
    apply kept_setServo
    exact h12
  clear_value v4
  have h14 : Kept q v7 := by
    unfold v7
    apply kept_setServo
    exact h13
  clear_value v7
  have h15 : Kept q v8 := by
    unfold v8
    apply kept_setF
    apply kept_setRate
    exact h14
  clear_value v8
  have h16 : Kept q v10 := by
    unfold v10
    refine kept_ite ?_ ?_
    · refine kept_ite ?_ ?_
      · apply kept_setServo
        exact h13
      · refine kept_ite ?_ ?_
        · apply kept_timeStep
          exact h15
        · exact h15
    · split
      extract_lets v17 v18 v19 v20 v21
      have h22 : Kept q v19 := by
        unfold v19
        apply kept_setRate
        apply kept_setServo
        exact h13
      clear_value v19
      have h23 : Kept q v21 := by
        unfold v21
        apply kept_setServo
        exact h22
      clear_value v21
      refine kept_ite ?_ ?_
      · apply kept_timeEvent
        exact h23
      · exact h23
  clear_value v10
  apply kept_servoLock
  exact h16

theorem kept_syncSample (h : Kept q s) : ∀ a1 a2 a3, Kept q (syncSample s a1 a2 a3) := by
  intro a1 a2 a3
  unfold syncSample
  extract_lets v0
  have h1 : Kept q v0 := by
    unfold v0
    apply kept_setPtp
    exact h
  clear_value v0
  split
  · exact h1
  · apply kept_bmca
    apply kept_servoSample
    exact h1

theorem kept_newMpd (h : Kept q s) : ∀ a1, Kept q (newMpd s a1) := by
  intro a1
  unfold newMpd
  extract_lets v0 v1 v2
  have h3 : Kept q v2 := by
    unfold v2
    apply kept_setPtp
    exact h
  clear_value v2
  refine kept_ite ?_ ?_
  · apply kept_setReg
    apply kept_setPtp
    exact h3
  · exact h3

theorem kept_ptpMessage (h : Kept q s) : ∀ a1, Kept q (ptpMessage s a1) := by
  intro a1
  unfold ptpMessage
  extract_lets v0 v1 v2 v3 v4 v5
  have h6 : Kept q v5 := by
    unfold v5
    apply kept_setPtp
    exact h
  clear_value v5
  refine kept_ite ?_ ?_
  · exact h
  · split
    · apply kept_bmca
      apply kept_setPtp
      exact h
    · refine kept_ite ?_ ?_
      · exact h
      · refine kept_ite ?_ ?_
        · apply kept_setPtp
          exact h6
        · apply kept_syncSample
          exact h6
    · split
      · refine kept_ite ?_ ?_
        · apply kept_syncSample
          exact h
        · exact h
      · exact h
    · refine kept_ite ?_ ?_
      · apply kept_setPtp
        exact h
      · exact h
    · split
      · refine kept_ite ?_ ?_
        · apply kept_newMpd
          apply kept_setPtp
          exact h
        · exact h
      · exact h
    · refine kept_ite ?_ ?_
      · exact h
      · apply kept_setPtp
        exact h
    · split
      · refine kept_ite ?_ ?_
        · exact h
        · refine kept_ite ?_ ?_
          · apply kept_setPtp
            exact h
          · apply kept_newMpd
            apply kept_setPtp
            exact h
      · exact h
    · split
      · refine kept_ite ?_ ?_
        · exact h
        · apply kept_newMpd
          apply kept_setPtp
          exact h
      · exact h
    · exact h
    · exact h

theorem kept_execPtpMessage (h : Kept q s) : ∀ a1, KeptOut q (execPtpMessage a1 s) := by
  intro a1
  unfold execPtpMessage
  apply kept_next
  apply kept_ptpMessage
  exact h

theorem kept_takeSeq (h : Kept q s) : ∀ a1, Kept q (takeSeq s a1).2 := by
  intro a1
  unfold takeSeq
  dsimp only
  apply kept_setPtp
  exact h

theorem kept_ptpPut (h : Kept q s) : ∀ a1 a2 a3 a4 a5 a6, Kept q (ptpPut s a1 a2 a3 a4 a5 a6) := by
  intro a1 a2 a3 a4 a5 a6
  unfold ptpPut
  extract_lets v0 v1
  apply kept_setPtp
  exact h

theorem kept_ptpSend (h : Kept q s) : ∀ a1, Kept q (ptpSend s a1) := by
  intro a1
  unfold ptpSend
  extract_lets v0 v1 v2 v3
  refine kept_ite ?_ ?_
  · exact h
  · split
    · refine kept_ite ?_ ?_
      · exact h
      · split
        apply kept_ptpPut
        refine kept_snd (by assumption) ?_
        apply kept_takeSeq
        exact h
    · refine kept_ite ?_ ?_
      · exact h
      · split
        apply kept_setPtp
        apply kept_ptpPut
        refine kept_snd (by assumption) ?_
        apply kept_takeSeq
        exact h
    · split
      · exact h
      · apply kept_setPtp
        apply kept_ptpPut
        exact h
    · refine kept_ite ?_ ?_
      · exact h
      · split
        apply kept_setPtp
        apply kept_ptpPut
        refine kept_snd (by assumption) ?_
        apply kept_takeSeq
        exact h
    · split
      · exact h
      · apply kept_setPtp
        apply kept_ptpPut
        exact h
    · refine kept_ite ?_ ?_
      · exact h
      · split
        apply kept_setPtp
        apply kept_ptpPut
        refine kept_snd (by assumption) ?_
        apply kept_takeSeq
        exact h
    · split
      · exact h
      · apply kept_setPtp
        apply kept_ptpPut
        exact h
    · split
      · exact h
      · apply kept_setPtp
        apply kept_ptpPut
        exact h

theorem kept_execPtpSend (h : Kept q s) : ∀ a1, KeptOut q (execPtpSend a1 s) := by
  intro a1
  unfold execPtpSend
  apply kept_next
  apply kept_ptpSend
  exact h

theorem kept_servoHold (h : Kept q s) : Kept q (servoHold s) := by
  unfold servoHold
  refine kept_ite ?_ ?_
  · apply kept_setServoState
    apply kept_setRate
    exact h
  · exact h

theorem kept_announceTimeout (h : Kept q s) : ∀ a1, Kept q (announceTimeout s a1) := by
  intro a1
  unfold announceTimeout
  extract_lets v0
  have h1 : Kept q v0 := by
    unfold v0
    apply kept_setPtp
    exact h
  clear_value v0
  refine kept_ite ?_ ?_
  · exact h
  · split
    · refine kept_ite ?_ ?_
      · apply kept_servoHold
        apply kept_setPtp
        exact h
      · exact h
    · refine kept_ite ?_ ?_
      · exact h
      · refine kept_ite ?_ ?_
        · apply kept_setPortStatePtp
          apply kept_servoHold
          exact h1
        · apply kept_setServoState
          apply kept_setPortStatePtp
          exact h1

theorem kept_execAnnounceTimeout (h : Kept q s) : ∀ a1, KeptOut q (execAnnounceTimeout a1 s) := by
  intro a1
  unfold execAnnounceTimeout
  apply kept_next
  apply kept_announceTimeout
  exact h

theorem kept_igmpReport (h : Kept q s) : Kept q (igmpReport s) := by
  unfold igmpReport
  extract_lets v0
  refine kept_ite ?_ ?_
  · apply kept_setPtp
    exact h
  · exact h

theorem kept_execIgmpReport (h : Kept q s) : KeptOut q (execIgmpReport s) := by
  unfold execIgmpReport
  apply kept_next
  apply kept_igmpReport
  exact h

theorem kept_arpRequest (h : Kept q s) : ∀ a1 a2 a3, Kept q (arpRequest s a1 a2 a3) := by
  intro a1 a2 a3
  unfold arpRequest
  refine kept_ite ?_ ?_
  · apply kept_setPtp
    exact h
  · exact h

theorem kept_execArpRequest (h : Kept q s) : ∀ a1 a2 a3, KeptOut q (execArpRequest a1 a2 a3 s) := by
  intro a1 a2 a3
  unfold execArpRequest
  apply kept_next
  apply kept_arpRequest
  exact h

theorem kept_ppsInEdge (h : Kept q s) : ∀ a1, Kept q (ppsInEdge s a1) := by
  intro a1
  unfold ppsInEdge
  extract_lets v0 v1 v2 v3 v4
  have h5 : Kept q v0 := by
    unfold v0
    apply kept_setTport
    exact h
  clear_value v0
  have h6 : Kept q v1 := by
    unfold v1
    apply kept_setServo
    exact h5
  clear_value v1
  refine kept_ite ?_ ?_
  · exact h
  · refine kept_ite ?_ ?_
    · exact h5
    · refine kept_ite ?_ ?_
      · apply kept_timeStep
        exact h6
      · apply kept_servoSample
        exact h5

theorem kept_execPpsInEdge (h : Kept q s) : ∀ a1, KeptOut q (execPpsInEdge a1 s) := by
  intro a1
  unfold execPpsInEdge
  apply kept_next
  apply kept_whenServes
  · exact h
  · intro x0 h1
    apply kept_ppsInEdge
    exact h1

theorem kept_ppsInLost (h : Kept q s) : Kept q (ppsInLost s) := by
  unfold ppsInLost
  split
  · refine kept_ite ?_ ?_
    · apply kept_timeEvent
      apply kept_servoHold
      apply kept_setTport
      exact h
    · exact h
  · exact h

theorem kept_execPpsInLost (h : Kept q s) : KeptOut q (execPpsInLost s) := by
  unfold execPpsInLost
  apply kept_next
  apply kept_whenServes
  · exact h
  · intro x0 h1
    apply kept_ppsInLost
    exact h1

theorem kept_captureEdge (h : Kept q s) : ∀ a1 a2 a3 a4, Kept q (captureEdge s a1 a2 a3 a4) := by
  intro a1 a2 a3 a4
  unfold captureEdge
  extract_lets v0 v1 v2 v3 v4 v5
  have h6 : Kept q v5 := by
    unfold v5
    apply kept_setTport
    exact h
  clear_value v5
  refine kept_ite ?_ ?_
  · exact h
  · refine kept_ite ?_ ?_
    · apply kept_setTport
      exact h
    · refine kept_ite ?_ ?_
      · apply kept_timeEvent
        exact h6
      · exact h6

theorem kept_execCaptureEdge (h : Kept q s) : ∀ a1 a2 a3 a4, KeptOut q (execCaptureEdge a1 a2 a3 a4 s) := by
  intro a1 a2 a3 a4
  unfold execCaptureEdge
  apply kept_next
  apply kept_whenServes
  · exact h
  · intro x0 h1
    apply kept_captureEdge
    exact h1

theorem kept_execCaptureRead (h : Kept q s) : ∀ a1 a2, KeptOut q (execCaptureRead a1 a2 s) := by
  intro a1 a2
  unfold execCaptureRead
  apply kept_next
  apply kept_reqServes
  · exact h
  · intro x0 h1
    apply kept_captureRead
    exact h1

theorem kept_execTimeRead (h : Kept q s) : ∀ a1, KeptOut q (execTimeRead a1 s) := by
  intro a1
  unfold execTimeRead
  apply kept_next
  apply kept_reqServes
  · exact h
  · intro x0 h1
    apply kept_timeRead
    exact h1

theorem kept_execTimeSet (h : Kept q s) : ∀ a1, KeptOut q (execTimeSet a1 s) := by
  intro a1
  unfold execTimeSet
  apply kept_next
  apply kept_reqServes
  · exact h
  · intro x0 h1
    apply kept_timeSet
    exact h1

theorem kept_execRestep (h : Kept q s) : ∀ a1, KeptOut q (execRestep a1 s) := by
  intro a1
  unfold execRestep
  apply kept_next
  apply kept_reqServes
  · exact h
  · intro x0 h1
    refine kept_ite ?_ ?_
    · exact h1
    · apply kept_acquire
      exact h1

theorem kept_execPtpProfileWrite (h : Kept q s) : ∀ a1 a2, KeptOut q (execPtpProfileWrite a1 a2 s) := by
  intro a1 a2
  unfold execPtpProfileWrite
  apply kept_next
  apply kept_reqServes
  · exact h
  · intro x0 h1
    apply kept_ptpCtrlWrite
    exact h1

theorem kept_execTriggerArm (h : Kept q s) : ∀ a1 a2 a3, KeptOut q (execTriggerArm a1 a2 a3 s) := by
  intro a1 a2 a3
  unfold execTriggerArm
  apply kept_next
  apply kept_reqServes
  · exact h
  · intro x0 h1
    apply kept_trgCtrlWrite
    exact h1

theorem kept_execTriggerFire (h : Kept q s) : ∀ a1 a2, KeptOut q (execTriggerFire a1 a2 s) := by
  intro a1 a2
  unfold execTriggerFire
  apply kept_next
  apply kept_reqServes
  · exact h
  · intro x0 h1
    apply kept_triggerFire
    exact h1

theorem kept_trgPulse (h : Kept q s) : ∀ a1 a2 a3, Kept q (trgPulse s a1 a2 a3) := by
  intro a1 a2 a3
  unfold trgPulse
  apply kept_setTrg
  exact h

theorem kept_triggerEdge (h : Kept q s) : ∀ a1, Kept q (triggerEdge s a1) := by
  intro a1
  unfold triggerEdge
  extract_lets v0 v1
  split
  · exact h
  · refine kept_ite ?_ ?_
    · refine kept_ite ?_ ?_
      · apply kept_trgPulse
        apply kept_setTrg
        exact h
      · exact h
    · split
      · exact h
      · apply kept_trgPulse
        apply kept_setTrg
        exact h

theorem kept_execTriggerEdge (h : Kept q s) : ∀ a1, KeptOut q (execTriggerEdge a1 s) := by
  intro a1
  unfold execTriggerEdge
  apply kept_next
  apply kept_whenServes
  · exact h
  · intro x0 h1
    apply kept_triggerEdge
    exact h1

theorem kept_ppsOutEdge (h : Kept q s) : Kept q (ppsOutEdge s) := by
  unfold ppsOutEdge
  refine kept_ite ?_ ?_
  · apply kept_setTport
    exact h
  · exact h

theorem kept_execPpsOutEdge (h : Kept q s) : KeptOut q (execPpsOutEdge s) := by
  unfold execPpsOutEdge
  apply kept_next
  refine kept_ite ?_ ?_
  · apply kept_ppsOutEdge
    exact h
  · exact h

theorem kept_showTemp (h : Kept q s) : ∀ a1 a2 a3 a4, Kept q (showTemp s a1 a2 a3 a4) := by
  intro a1 a2 a3 a4
  unfold showTemp
  apply kept_setReg
  exact h

theorem kept_sensorBroken (h : Kept q s) : ∀ a1 a2, Kept q (sensorBroken s a1 a2) := by
  intro a1 a2
  unfold sensorBroken
  apply kept_powerEvent
  apply kept_showTemp
  exact h

theorem kept_setDie (h : Kept q s) : ∀ a1 a2, Kept q (setDie s a1 a2) := by
  intro a1 a2
  unfold setDie
  apply kept_setTherm
  exact h

theorem kept_breakDie (h : Kept q s) : ∀ a1 a2, Kept q (breakDie s a1 a2) := by
  intro a1 a2
  unfold breakDie
  apply kept_sensorBroken
  apply kept_setDie
  exact h

theorem kept_shutdownRecord (h : Kept q s) : ∀ a1 a2 a3, Kept q (shutdownRecord s a1 a2 a3).1 := by
  intro a1 a2 a3
  unfold shutdownRecord
  split
  extract_lets v0 v1 v2 v3
  dsimp only
  refine kept_snd (by assumption) ?_
  apply kept_takeFree
  exact h

theorem kept_thermalShutdown (h : Kept q s) : ∀ a1 a2 a3, Kept q (thermalShutdown s a1 a2 a3) := by
  intro a1 a2 a3
  unfold thermalShutdown
  refine kept_ite ?_ ?_
  · exact h
  · split
    extract_lets v0 v1 v2
    have h3 : Kept q v1 := by
      unfold v1
      apply kept_powerEvent
      apply kept_calAbort
      refine kept_snd (by assumption) ?_
      apply kept_takeFree
      exact h
    clear_value v1
    have h4 : Kept q v2 := by
      unfold v2
      apply kept_setSlate
      · apply kept_bump
        exact h3
      · intro x5
        rfl
    clear_value v2
    split
    extract_lets v6 v7 v8 v9
    have h10 : Kept q v6 := by
      unfold v6
      apply kept_setTherm
      refine kept_fst (by assumption) ?_
      apply kept_shutdownRecord
      exact h4
    clear_value v6
    have h11 : Kept q v8 := by
      unfold v8
      refine kept_ite ?_ ?_
      · exact h10
      · apply kept_obsEvent
        exact h10
    clear_value v8
    have h12 : Kept q v9 := by
      unfold v9
      apply kept_abruptLoss
      exact h11
    clear_value v9
    split
    · apply kept_setObs
      exact h10
    · refine kept_ite ?_ ?_
      · apply kept_thermalDown
        exact h12
      · exact h12

theorem kept_dieUpdate (h : Kept q s) : ∀ a1 a2, Kept q (dieUpdate s a1 a2) := by
  intro a1 a2
  unfold dieUpdate
  extract_lets v0 v1 v2
  have h3 : Kept q v0 := by
    unfold v0
    split
    · apply kept_breakDie
      exact h
    · extract_lets v4 v5
      refine kept_ite ?_ ?_
      · apply kept_breakDie
        exact h
      · refine kept_ite ?_ ?_
        · apply kept_breakDie
          exact h
        · apply kept_showTemp
          apply kept_setDie
          exact h
  clear_value v0
  have h6 : Kept q v1 := by
    unfold v1
    apply kept_thermJudge
    exact h3
  clear_value v1
  refine kept_ite ?_ ?_
  · exact h
  · split
    · refine kept_ite ?_ ?_
      · apply kept_thermalShutdown
        exact h6
      · exact h6
    · refine kept_ite ?_ ?_
      · apply kept_thermalShutdown
        exact h6
      · exact h6

theorem kept_execOndieSensorUpdate (h : Kept q s) : ∀ a1 a2, KeptOut q (execOndieSensorUpdate a1 a2 s) := by
  intro a1 a2
  unfold execOndieSensorUpdate
  apply kept_next
  apply kept_dieUpdate
  exact h

theorem kept_throttleStep (h : Kept q s) : Kept q (throttleStep s) := by
  unfold throttleStep
  extract_lets v0 v1 v2 v3
  have h4 : Kept q v0 := by
    unfold v0
    apply kept_movesShow
    exact h
  clear_value v0
  refine kept_ite ?_ ?_
  · apply kept_setThermStep
    exact h4
  · refine kept_ite ?_ ?_
    · unfold v3
      apply kept_setTherm
      apply kept_setThermStep
      exact h4
    · refine kept_ite ?_ ?_
      · unfold v3
        apply kept_setTherm
        apply kept_setThermStep
        exact h4
      · exact h4

theorem kept_execThrottleStep (h : Kept q s) : KeptOut q (execThrottleStep s) := by
  unfold execThrottleStep
  apply kept_next
  apply kept_throttleStep
  exact h

theorem kept_diodeCycle (h : Kept q s) : ∀ a1 a2 a3, Kept q (diodeCycle s a1 a2 a3) := by
  intro a1 a2 a3
  unfold diodeCycle
  extract_lets v0 v1
  refine kept_ite ?_ ?_
  · exact h
  · refine kept_ite ?_ ?_
    · apply kept_sensorBroken
      apply kept_setTherm
      exact h
    · split
      extract_lets v2 v3 v4 v5 v6 v7 v8
      have h9 : Kept q v6 := by
        unfold v6
        apply kept_setTherm
        refine kept_snd (by assumption) ?_
        apply kept_takeFree
        exact h
      clear_value v6
      have h10 : Kept q v7 := by
        unfold v7
        apply kept_showTemp
        exact h9
      clear_value v7
      have h11 : Kept q v8 := by
        unfold v8
        refine kept_ite ?_ ?_
        · apply kept_powerEvent
          exact h10
        · exact h10
      clear_value v8
      split
      · refine kept_ite ?_ ?_
        · apply kept_thermalShutdown
          exact h11
        · exact h11
      · exact h11

theorem kept_pthCycle (h : Kept q s) : ∀ a1 a2 a3, Kept q (pthCycle s a1 a2 a3) := by
  intro a1 a2 a3
  unfold pthCycle
  extract_lets v0 v1
  refine kept_ite ?_ ?_
  · exact h
  · refine kept_ite ?_ ?_
    · apply kept_sensorBroken
      apply kept_setTherm
      exact h
    · split
      extract_lets v2 v3
      have h4 : Kept q v3 := by
        unfold v3
        apply kept_setTherm
        refine kept_snd (by assumption) ?_
        apply kept_takeFree
        exact h
      clear_value v3
      apply kept_showTemp
      exact h4

theorem kept_setPanelTemp (h : Kept q s) : ∀ a1, Kept q (setPanelTemp s a1) := by
  intro a1
  unfold setPanelTemp
  extract_lets v0 v1
  have h2 : Kept q v1 := by
    unfold v1
    apply kept_setObs
    exact h
  clear_value v1
  apply kept_setF
  apply kept_setF
  exact h2

theorem kept_panelTemp (h : Kept q s) : Kept q (panelTemp s) := by
  unfold panelTemp
  extract_lets v0 v1 v2
  have h3 : Kept q v2 := by
    unfold v2
    apply kept_setTherm
    exact h
  clear_value v2
  refine kept_ite ?_ ?_
  · refine kept_ite ?_ ?_
    · apply kept_setF
      exact h
    · apply kept_setPanelTemp
      exact h
  · apply kept_setPanelTemp
    apply kept_setF
    exact h3

theorem kept_adcCycle (h : Kept q s) : ∀ a1, Kept q (adcCycle s a1) := by
  intro a1
  unfold adcCycle
  extract_lets v0 v1
  have h2 : Kept q v0 := by
    unfold v0
    apply kept_foldl
    · exact h
    · intro x3 x4 h5
      split
      · apply kept_diodeCycle
        exact h5
      · exact h5
  clear_value v0
  have h6 : Kept q v1 := by
    unfold v1
    apply kept_foldl
    · exact h2
    · intro x7 x8 h9
      split
      · apply kept_pthCycle
        exact h9
      · exact h9
  clear_value v1
  refine kept_ite ?_ ?_
  · exact h
  · apply kept_panelTemp
    exact h6

theorem kept_execAdcCycle (h : Kept q s) : ∀ a1, KeptOut q (execAdcCycle a1 s) := by
  intro a1
  unfold execAdcCycle
  apply kept_next
  apply kept_adcCycle
  exact h

theorem kept_holdExpired (h : Kept q s) : Kept q (holdExpired s) := by
  unfold holdExpired
  refine kept_ite ?_ ?_
  · apply kept_setPanelTemp
    apply kept_setF
    apply kept_setTherm
    exact h
  · exact h

theorem kept_execPanelTempHoldExpired (h : Kept q s) : KeptOut q (execPanelTempHoldExpired s) := by
  unfold execPanelTempHoldExpired
  apply kept_next
  apply kept_holdExpired
  exact h

theorem kept_dramPersists (h : Kept q s) : Kept q (dramPersists s) := by
  unfold dramPersists
  split
  · refine kept_ite ?_ ?_
    · apply kept_thermalShutdown
      exact h
    · exact h
  · exact h

theorem kept_execDramOvertempPersist (h : Kept q s) : KeptOut q (execDramOvertempPersist s) := by
  unfold execDramOvertempPersist
  apply kept_next
  apply kept_dramPersists
  exact h

theorem kept_reqSlate (h : Kept q s) : ∀ u f, (∀ t, Kept q t → Kept q (f t)) → Kept q (reqSlate s u f) := by
  intro u f hf
  unfold reqSlate
  refine kept_ite ?_ ?_
  · apply hf
    apply kept_reqMeets
    exact h
  · exact h

theorem kept_execCalStart (h : Kept q s) : ∀ a1 a2, KeptOut q (execCalStart a1 a2 s) := by
  intro a1 a2
  unfold execCalStart
  apply kept_next
  apply kept_reqSlate
  · exact h
  · intro x0 h1
    apply kept_calCtrlSlate
    exact h1

theorem kept_calReject (h : Kept q s) : ∀ a1 a2, Kept q (calReject s a1 a2) := by
  intro a1 a2
  unfold calReject
  extract_lets v0 v1
  have h2 : Kept q v0 := by
    unfold v0
    apply kept_bump
    exact h
  clear_value v0
  have h3 : Kept q v1 := by
    unfold v1
    apply kept_setF
    exact h2
  clear_value v1
  apply kept_powerEvent
  exact h3

theorem kept_calFinish (h : Kept q s) : ∀ a1, Kept q (calFinish s a1) := by
  intro a1
  unfold calFinish
  extract_lets v0
  have h1 : Kept q v0 := by
    unfold v0
    apply kept_setTherm
    apply kept_setF
    apply kept_setF
    exact h
  clear_value v0
  apply kept_powerEvent
  exact h1

theorem kept_calRunDone (h : Kept q s) : ∀ a1, Kept q (calRunDone s a1) := by
  intro a1
  unfold calRunDone
  split
  · exact h
  · split
    extract_lets v0 v1 v2 v3 v4 v5 v6 v7 v8 v9 v10
    have h11 : Kept q v0 := by
      unfold v0
      refine kept_ite ?_ ?_
      · apply kept_calReject
        exact h
      · exact h
    clear_value v0
    have h12 : Kept q v1 := by
      unfold v1
      refine kept_ite ?_ ?_
      · apply kept_calReject
        exact h11
      · exact h11
    clear_value v1
    have h13 : Kept q v4 := by
      unfold v4
      apply kept_foldl
      · exact h12
      · intro x14 x15 h16
        apply kept_calReject
        exact h16
    clear_value v4
    have h17 : Kept q v6 := by
      unfold v6
      apply kept_setF
      apply kept_setReg
      exact h13
    clear_value v6
    have h18 : Kept q v7 := by
      unfold v7
      apply kept_foldl
      · exact h17
      · intro x19 x20 h21
        refine kept_ite ?_ ?_
        · apply kept_setTherm
          exact h21
        · exact h21
    clear_value v7
    have h22 : Kept q v9 := by
      unfold v9
      apply kept_setF
      apply kept_logAdd
      exact h18
    clear_value v9
    have h23 : Kept q v10 := by
      unfold v10
      apply kept_setReg
      apply kept_setReg
      exact h22
    clear_value v10
    refine kept_ite ?_ ?_
    · apply kept_calFinish
      exact h12
    · apply kept_calFinish
      exact h23

theorem kept_execCalDone (h : Kept q s) : ∀ a1, KeptOut q (execCalDone a1 s) := by
  intro a1
  unfold execCalDone
  apply kept_next
  apply kept_calRunDone
  exact h

theorem kept_execClearRetired (h : Kept q s) : ∀ a1 a2, KeptOut q (execClearRetired a1 a2 s) := by
  intro a1 a2
  unfold execClearRetired
  apply kept_next
  apply kept_reqSlate
  · exact h
  · intro x0 h1
    apply kept_calCtrlSlate
    exact h1

theorem kept_leaseRenewed (h : Kept q s) : ∀ a1, Kept q (leaseRenewed s a1) := by
  intro a1
  unfold leaseRenewed
  extract_lets v0
  have h1 : Kept q v0 := by
    unfold v0
    apply kept_setLease
    exact h
  clear_value v0
  refine kept_ite ?_ ?_
  · apply kept_setFlint
    exact h1
  · exact h

theorem kept_execLeaseRenewal (h : Kept q s) : ∀ a1, KeptOut q (execLeaseRenewal a1 s) := by
  intro a1
  unfold execLeaseRenewal
  apply kept_next
  apply kept_leaseRenewed
  exact h

theorem kept_leaseExpires (h : Kept q s) : Kept q (leaseExpires s) := by
  unfold leaseExpires
  split
  · refine kept_ite ?_ ?_
    · apply kept_leaseEnds
      apply kept_leaseEvent
      apply kept_bump
      exact h
    · exact h
  · exact h

theorem kept_execLeaseExpired (h : Kept q s) : KeptOut q (execLeaseExpired s) := by
  unfold execLeaseExpired
  apply kept_next
  apply kept_leaseExpires
  exact h

theorem kept_agentLapses (h : Kept q s) : ∀ a1, Kept q (agentLapses s a1) := by
  intro a1
  unfold agentLapses
  refine kept_ite ?_ ?_
  · apply kept_setFlint
    exact h
  · exact h

theorem kept_execAgentLapse (h : Kept q s) : ∀ a1, KeptOut q (execAgentLapse a1 s) := by
  intro a1
  unfold execAgentLapse
  apply kept_next
  apply kept_agentLapses
  exact h

theorem kept_switchGrant (h : Kept q s) : ∀ a1 a2, Kept q (switchGrant s a1 a2) := by
  intro a1 a2
  unfold switchGrant
  extract_lets v0
  have h1 : Kept q v0 := by
    unfold v0
    apply kept_leaseGrant
    exact h
  clear_value v0
  refine kept_ite ?_ ?_
  · apply kept_setLease
    exact h1
  · apply kept_switchEnds
    exact h1

theorem kept_leaseGuardEnds (h : Kept q s) : Kept q (leaseGuardEnds s) := by
  unfold leaseGuardEnds
  split
  · extract_lets v0 v1 v2
    have h3 : Kept q v0 := by
      unfold v0
      refine kept_ite ?_ ?_
      · apply kept_startRejoin
        exact h
      · exact h
    clear_value v0
    refine kept_ite ?_ ?_
    · exact h
    · refine kept_ite ?_ ?_
      · apply kept_switchGrant
        exact h3
      · apply kept_leaseEvent
        apply kept_setLease
        exact h3
  · exact h

theorem kept_execLeaseGuardEnd (h : Kept q s) : KeptOut q (execLeaseGuardEnd s) := by
  unfold execLeaseGuardEnd
  apply kept_next
  apply kept_leaseGuardEnds
  exact h

theorem kept_execSwitch (h : Kept q s) : ∀ a1, KeptOut q (execSwitch a1 s) := by
  intro a1
  unfold execSwitch
  apply kept_next
  apply kept_reqSlate
  · exact h
  · intro x0 h1
    apply kept_switchAsk
    exact h1

theorem kept_switchRelease (h : Kept q s) : Kept q (switchRelease s) := by
  unfold switchRelease
  split
  · extract_lets v0
    have h1 : Kept q v0 := by
      unfold v0
      apply kept_leaseEnds
      apply kept_releaseSend
      exact h
    clear_value v0
    refine kept_ite ?_ ?_
    · exact h
    · refine kept_ite ?_ ?_
      · apply kept_startRejoin
        exact h1
      · exact h1
  · exact h

theorem kept_execSwitchRelease (h : Kept q s) : KeptOut q (execSwitchRelease s) := by
  unfold execSwitchRelease
  apply kept_next
  apply kept_switchRelease
  exact h

theorem kept_mirrorArrives (h : Kept q s) : ∀ a1, Kept q (mirrorArrives s a1) := by
  intro a1
  unfold mirrorArrives
  split
  · extract_lets v0
    have h1 : Kept q v0 := by
      unfold v0
      apply kept_setLease
      exact h
    clear_value v0
    refine kept_ite ?_ ?_
    · exact h
    · refine kept_ite ?_ ?_
      · apply kept_shadowWait
        apply kept_shadowLose
        exact h1
      · apply kept_mirrorSkip
        apply kept_setFlint
        exact h1
  · exact h

theorem kept_execMirrorRecord (h : Kept q s) : ∀ a1, KeptOut q (execMirrorRecord a1 s) := by
  intro a1
  unfold execMirrorRecord
  apply kept_next
  apply kept_mirrorArrives
  exact h

theorem kept_failedItem (h : Kept q s) : ∀ a1, Kept q (failedItem s a1).2 := by
  intro a1
  unfold failedItem
  split
  · exact h
  · split
    dsimp only
    refine kept_snd (by assumption) ?_
    apply kept_takeFree
    exact h

theorem kept_roundEnds (h : Kept q s) : ∀ a1 a2, Kept q (roundEnds s a1 a2) := by
  intro a1 a2
  unfold roundEnds
  extract_lets v0 v1 v2 v3
  have h4 : Kept q v0 := by
    unfold v0
    apply kept_setLease
    exact h
  clear_value v0
  have h5 : Kept q v1 := by
    unfold v1
    apply kept_foldl
    · exact h4
    · intro x6 x7 h8
      apply kept_setFlint
      exact h8
  clear_value v1
  have h9 : Kept q v3 := by
    unfold v3
    apply kept_setLease
    exact h5
  clear_value v3
  split
  · extract_lets v10 v11
    refine kept_ite ?_ ?_
    · unfold v11
      apply kept_startRejoin
      apply kept_shadowLose
      exact h5
    · refine kept_ite ?_ ?_
      · refine kept_ite ?_ ?_
        · exact h9
        · apply kept_setFlint
          exact h9
      · split
        apply kept_flintEvent
        refine kept_snd (by assumption) ?_
        apply kept_failedItem
        unfold v11
        apply kept_startRejoin
        apply kept_shadowLose
        exact h5
  · exact h

theorem kept_execSelftestRoundEnd (h : Kept q s) : ∀ a1 a2, KeptOut q (execSelftestRoundEnd a1 a2 s) := by
  intro a1 a2
  unfold execSelftestRoundEnd
  apply kept_next
  apply kept_roundEnds
  exact h

theorem kept_execSelftest (h : Kept q s) : ∀ a1, KeptOut q (execSelftest a1 s) := by
  intro a1
  unfold execSelftest
  apply kept_next
  apply kept_reqSlate
  · exact h
  · intro x0 h1
    apply kept_selftestAsk
    exact h1

theorem kept_testAction (h : Kept q s) : Kept q (testAction s) := by
  unfold testAction
  apply kept_foldl
  · exact h
  · intro x0 x1 h2
    refine kept_ite ?_ ?_
    · apply kept_bump
      exact h2
    · exact h2

theorem kept_coldTakeover (h : Kept q s) : ∀ a1, Kept q (coldTakeover s a1) := by
  intro a1
  unfold coldTakeover
  extract_lets v0
  have h1 : Kept q v0 := by
    unfold v0
    split
    · apply kept_setFlint
      exact h
    · exact h
  clear_value v0
  refine kept_ite ?_ ?_
  · apply kept_switchGrant
    exact h1
  · exact h

theorem kept_selftestItem (h : Kept q s) : ∀ a1 a2 a3, Kept q (selftestItem s a1 a2 a3) := by
  intro a1 a2 a3
  unfold selftestItem
  extract_lets v0 v1 v2 v3
  have h4 : Kept q v1 := by
    unfold v1
    apply kept_setFlint
    exact h
  clear_value v1
  have h5 : Kept q v2 := by
    unfold v2
    refine kept_ite ?_ ?_
    · apply kept_testAction
      exact h4
    · exact h4
  clear_value v2
  have h6 : Kept q v3 := by
    unfold v3
    refine kept_ite ?_ ?_
    · exact h5
    · apply kept_flintEvent
      exact h5
  clear_value v3
  refine kept_ite ?_ ?_
  · exact h
  · apply kept_coldTakeover
    apply kept_leaseShow
    exact h6

theorem kept_execSelftestItem (h : Kept q s) : ∀ a1 a2 a3, KeptOut q (execSelftestItem a1 a2 a3 s) := by
  intro a1 a2 a3
  unfold execSelftestItem
  apply kept_next
  apply kept_selftestItem
  exact h

theorem kept_coldTimesOut (h : Kept q s) : Kept q (coldTimesOut s) := by
  unfold coldTimesOut
  refine kept_ite ?_ ?_
  · apply kept_leaseEvent
    apply kept_setLease
    exact h
  · exact h

theorem kept_execColdTakeoverTimeout (h : Kept q s) : KeptOut q (execColdTakeoverTimeout s) := by
  unfold execColdTakeoverTimeout
  apply kept_next
  apply kept_coldTimesOut
  exact h

theorem kept_execReboot (h : Kept q s) : ∀ a1 a2, KeptOut q (execReboot a1 a2 s) := by
  intro a1 a2
  unfold execReboot
  apply kept_next
  apply kept_reqSlate
  · exact h
  · intro x0 h1
    apply kept_bootCtrlWrite
    exact h1

theorem kept_execConfirm (h : Kept q s) : ∀ a1, KeptOut q (execConfirm a1 s) := by
  intro a1
  unfold execConfirm
  apply kept_next
  apply kept_reqSlate
  · exact h
  · intro x0 h1
    apply kept_confirmSlot
    exact h1

theorem kept_execOtpWriteCustomer (h : Kept q s) : ∀ a1 a2, KeptOut q (execOtpWriteCustomer a1 a2 s) := by
  intro a1 a2
  unfold execOtpWriteCustomer
  apply kept_next
  apply kept_reqSlate
  · exact h
  · intro x0 h1
    apply kept_otpCtrlWrite
    exact h1

theorem kept_execOtpRevokeCustomer (h : Kept q s) : ∀ a1 a2, KeptOut q (execOtpRevokeCustomer a1 a2 s) := by
  intro a1 a2
  unfold execOtpRevokeCustomer
  apply kept_next
  apply kept_reqSlate
  · exact h
  · intro x0 h1
    apply kept_otpCtrlWrite
    exact h1

theorem kept_execOtpLock (h : Kept q s) : ∀ a1 a2, KeptOut q (execOtpLock a1 a2 s) := by
  intro a1 a2
  unfold execOtpLock
  apply kept_next
  apply kept_reqSlate
  · exact h
  · intro x0 h1
    apply kept_otpCtrlWrite
    exact h1

theorem kept_execOtpRollback (h : Kept q s) : ∀ a1 a2, KeptOut q (execOtpRollback a1 a2 s) := by
  intro a1 a2
  unfold execOtpRollback
  apply kept_next
  apply kept_reqSlate
  · exact h
  · intro x0 h1
    apply kept_otpCtrlWrite
    exact h1

theorem kept_otpWritten (h : Kept q s) : Kept q (otpWritten s) := by
  unfold otpWritten
  split
  · exact h
  · extract_lets v0 v1 v2
    have h3 : Kept q v2 := by
      unfold v2
      apply kept_setSlate
      · exact h
      · intro x4
        rfl
    clear_value v2
    apply kept_powerEvent
    apply kept_setF
    apply kept_otpShow
    exact h3

theorem kept_execOtpWritten (h : Kept q s) : KeptOut q (execOtpWritten s) := by
  unfold execOtpWritten
  apply kept_next
  apply kept_otpWritten
  exact h

theorem kept_execAttestStart (h : Kept q s) : ∀ a1, KeptOut q (execAttestStart a1 s) := by
  intro a1
  unfold execAttestStart
  apply kept_next
  apply kept_reqSlate
  · exact h
  · intro x0 h1
    apply kept_attestStart
    exact h1

theorem kept_attestDone (h : Kept q s) : ∀ a1, Kept q (attestDone s a1) := by
  intro a1
  unfold attestDone
  extract_lets v0
  split
  · exact h
  · extract_lets v1 v2 v3 v4
    have h5 : Kept q v2 := by
      unfold v2
      apply kept_setSlate
      · exact h
      · intro x6
        rfl
    clear_value v2
    have h7 : Kept q v3 := by
      unfold v3
      apply kept_showBytes
      exact h5
    clear_value v3
    have h8 : Kept q v4 := by
      unfold v4
      apply kept_setF
      apply kept_attestShow
      exact h7
    clear_value v4
    refine kept_ite ?_ ?_
    · exact h
    · apply kept_raise
      exact h8

theorem kept_execAttestDone (h : Kept q s) : ∀ a1, KeptOut q (execAttestDone a1 s) := by
  intro a1
  unfold execAttestDone
  apply kept_next
  apply kept_attestDone
  exact h

theorem kept_hostSilent (h : Kept q s) : ∀ a1, Kept q (hostSilent s a1) := by
  intro a1
  unfold hostSilent
  apply kept_setHost
  exact h

theorem kept_hostCut (h : Kept q s) : ∀ a1, Kept q (hostCut s a1) := by
  intro a1
  unfold hostCut
  apply kept_hostIrq
  apply kept_hostSilent
  exact h

theorem kept_hostAnswer (h : Kept q s) : ∀ a1 a2, Kept q (hostAnswer s a1 a2) := by
  intro a1 a2
  unfold hostAnswer
  extract_lets v0
  have h1 : Kept q v0 := by
    unfold v0
    apply kept_setHost
    exact h
  clear_value v0
  refine kept_ite ?_ ?_
  · apply kept_hostIrq
    exact h1
  · exact h1

theorem kept_frameEnds (h : Kept q s) : ∀ a1, Kept q (frameEnds s a1) := by
  intro a1
  unfold frameEnds
  extract_lets v0 v1
  have h2 : Kept q v1 := by
    unfold v1
    apply kept_setHost
    exact h
  clear_value v1
  apply kept_setF
  apply kept_setF
  exact h2

theorem kept_hostFrame (h : Kept q s) : ∀ a b c d e i f, (∀ t, Kept q t → Kept q (f t).1) → Kept q (hostFrame s a b c d e i f) := by
  intro a b c d e i f hf
  unfold hostFrame
  extract_lets v0 v1
  have h2 : Kept q v1 := by
    unfold v1
    refine kept_ite ?_ ?_
    · apply kept_hostCut
      exact h
    · refine kept_ite ?_ ?_
      · refine kept_ite ?_ ?_
        · apply kept_hostSilent
          apply hf
          exact h
        · apply kept_hostCut
          exact h
      · refine kept_ite ?_ ?_
        · apply kept_hostAnswer
          exact h
        · refine kept_ite ?_ ?_
          · apply kept_hostAnswer
            exact h
          · refine kept_ite ?_ ?_
            · apply kept_hostAnswer
              exact h
            · split
              apply kept_hostAnswer
              refine kept_fst (by assumption) ?_
              apply hf
              exact h
  clear_value v1
  refine kept_ite ?_ ?_
  · apply kept_hostSilent
    exact h
  · apply kept_frameEnds
    exact h2

theorem kept_hostPut (h : Kept q s) : ∀ a1 a2 a3 a4, Kept q (hostPut s a1 a2 a3 a4) := by
  intro a1 a2 a3 a4
  unfold hostPut
  extract_lets v0 v1 v2
  have h3 : Kept q v1 := by
    unfold v1
    apply kept_setHost
    exact h
  clear_value v1
  refine kept_ite ?_ ?_
  · refine kept_ite ?_ ?_
    · apply kept_addAck
      apply kept_busWrite
      apply kept_reqAt
      exact h3
    · apply kept_addAck
      exact h3
  · split
    apply kept_addAck
    refine kept_snd (by assumption) ?_
    apply kept_dramStore
    exact h3

theorem kept_hostWrite (h : Kept q s) : ∀ a1 a2 a3, Kept q (hostWrite s a1 a2 a3).1 := by
  intro a1 a2 a3
  unfold hostWrite
  split
  · exact h
  · split
    · exact h
    · dsimp only
      apply kept_foldl
      · exact h
      · intro x0 x1 h2
        apply kept_hostPut
        exact h2

theorem kept_execWrite (h : Kept q s) : ∀ a1 a2 a3 a4 a5, KeptOut q (execWrite a1 a2 a3 a4 a5 s) := by
  intro a1 a2 a3 a4 a5
  unfold execWrite
  apply kept_next
  apply kept_hostFrame
  · exact h
  · intro x0 h1
    apply kept_hostWrite
    exact h1

theorem kept_readCut (h : Kept q s) : ∀ a1, Kept q (readCut s a1) := by
  intro a1
  unfold readCut
  extract_lets v0
  have h1 : Kept q v0 := by
    unfold v0
    apply kept_setHost
    exact h
  clear_value v0
  apply kept_hostSilent
  split
  · refine kept_ite ?_ ?_
    · apply kept_setHost
      exact h1
    · exact h1
  · exact h1

theorem kept_readFrame (h : Kept q s) : ∀ a b c d f, (∀ t, Kept q t → Kept q (f t).1) → Kept q (readFrame s a b c d f) := by
  intro a b c d f hf
  unfold readFrame
  extract_lets v0
  have h1 : Kept q v0 := by
    unfold v0
    apply kept_hostFrame
    · exact h
    · intro x2 h3
      apply hf
      exact h3
  clear_value v0
  refine kept_ite ?_ ?_
  · exact h1
  · refine kept_ite ?_ ?_
    · apply kept_hostSilent
      exact h1
    · apply kept_readCut
      exact h1

theorem kept_readAnswer (h : Kept q s) : ∀ a1 a2, Kept q (readAnswer s a1 a2).1 := by
  intro a1 a2
  unfold readAnswer
  extract_lets v0
  have h1 : Kept q v0 := by
    unfold v0
    refine kept_ite ?_ ?_
    · apply kept_readRuns
      exact h
    · exact h
  clear_value v0
  split
  · split
    · dsimp only
      apply kept_setHost
      exact h1
    · exact h1
  · exact h1

theorem kept_readTaken (h : Kept q s) : ∀ a1 a2 a3 a4 a5, Kept q (readTaken s a1 a2 a3 a4 a5).1 := by
  intro a1 a2 a3 a4 a5
  unfold readTaken
  split
  · exact h
  · apply kept_readAnswer
    apply kept_setHost
    exact h

theorem kept_hostRead (h : Kept q s) : ∀ a1 a2 a3 a4, Kept q (hostRead s a1 a2 a3 a4).1 := by
  intro a1 a2 a3 a4
  unfold hostRead
  split
  · exact h
  · apply kept_readTaken
    exact h

theorem kept_execRead (h : Kept q s) : ∀ a1 a2 a3 a4 a5, KeptOut q (execRead a1 a2 a3 a4 a5 s) := by
  intro a1 a2 a3 a4 a5
  unfold execRead
  apply kept_next
  apply kept_readFrame
  · exact h
  · intro x0 h1
    apply kept_hostRead
    exact h1

theorem kept_fetchFrame (h : Kept q s) : ∀ a1 a2 a3, Kept q (fetchFrame s a1 a2 a3) := by
  intro a1 a2 a3
  unfold fetchFrame
  refine kept_ite ?_ ?_
  · apply kept_frameEnds
    apply kept_readCut
    exact h
  · apply kept_hostFrame
    · exact h
    · intro x0 h1
      apply kept_readAnswer
      exact h1

theorem kept_execFetch (h : Kept q s) : ∀ a1 a2 a3, KeptOut q (execFetch a1 a2 a3 s) := by
  intro a1 a2 a3
  unfold execFetch
  apply kept_next
  apply kept_fetchFrame
  exact h

theorem kept_execStatus (h : Kept q s) : ∀ a1 a2, KeptOut q (execStatus a1 a2 s) := by
  intro a1 a2
  unfold execStatus
  apply kept_next
  apply kept_hostFrame
  · exact h
  · intro x0 h1
    exact h1

theorem kept_semFrame (h : Kept q s) : ∀ a b c d e f, (∀ t, Kept q t → Kept q (f t).1) → Kept q (semFrame s a b c d e f) := by
  intro a b c d e f hf
  unfold semFrame
  apply kept_hostFrame
  · exact h
  · intro x0 h1
    dsimp only
    apply hf
    exact h1

theorem kept_execSemTry (h : Kept q s) : ∀ a1 a2 a3, KeptOut q (execSemTry a1 a2 a3 s) := by
  intro a1 a2 a3
  unfold execSemTry
  apply kept_next
  apply kept_semFrame
  · exact h
  · intro x0 h1
    apply kept_semAsk
    exact h1

theorem kept_execSemAcquire (h : Kept q s) : ∀ a1 a2 a3, KeptOut q (execSemAcquire a1 a2 a3 s) := by
  intro a1 a2 a3
  unfold execSemAcquire
  apply kept_next
  apply kept_semFrame
  · exact h
  · intro x0 h1
    apply kept_semAsk
    exact h1

theorem kept_semGive (h : Kept q s) : ∀ a1 a2, Kept q (semGive s a1 a2).1 := by
  intro a1 a2
  unfold semGive
  split
  · dsimp only
    apply kept_semFree
    exact h
  · exact h

theorem kept_execSemRelease (h : Kept q s) : ∀ a1 a2 a3, KeptOut q (execSemRelease a1 a2 a3 s) := by
  intro a1 a2 a3
  unfold execSemRelease
  apply kept_next
  apply kept_semFrame
  · exact h
  · intro x0 h1
    apply kept_semGive
    exact h1

theorem kept_semCancel (h : Kept q s) : ∀ a1 a2, Kept q (semCancel s a1 a2).1 := by
  intro a1 a2
  unfold semCancel
  split
  · dsimp only
    apply kept_semLeave
    exact h
  · split
    · exact h
    · exact h

theorem kept_execSemCancel (h : Kept q s) : ∀ a1 a2 a3, KeptOut q (execSemCancel a1 a2 a3 s) := by
  intro a1 a2 a3
  unfold execSemCancel
  apply kept_next
  apply kept_semFrame
  · exact h
  · intro x0 h1
    apply kept_semCancel
    exact h1

theorem kept_semBreak (h : Kept q s) : ∀ a1 a2, Kept q (semBreak s a1 a2).1 := by
  intro a1 a2
  unfold semBreak
  split
  · dsimp only
    apply kept_raise
    apply kept_semFree
    exact h
  · exact h

theorem kept_execSemBreak (h : Kept q s) : ∀ a1 a2 a3, KeptOut q (execSemBreak a1 a2 a3 s) := by
  intro a1 a2 a3
  unfold execSemBreak
  apply kept_next
  apply kept_semFrame
  · exact h
  · intro x0 h1
    apply kept_semBreak
    exact h1

theorem kept_flashFree (h : Kept q s) : ∀ f, (∀ t, Kept q t → Kept q (f t).1) → Kept q (flashFree s f).1 := by
  intro f hf
  unfold flashFree
  split
  · exact h
  · apply hf
    exact h

theorem kept_execFlashRead (h : Kept q s) : ∀ a1 a2 a3 a4 a5, KeptOut q (execFlashRead a1 a2 a3 a4 a5 s) := by
  intro a1 a2 a3 a4 a5
  unfold execFlashRead
  apply kept_next
  apply kept_readFrame
  · exact h
  · intro x0 h1
    apply kept_flashFree
    · exact h1
    · intro x2 h3
      apply kept_readTaken
      exact h3

theorem kept_flashShow (h : Kept q s) : Kept q (flashShow s) := by
  unfold flashShow
  apply kept_foldl
  · exact h
  · intro x0 x1 h2
    apply kept_setF
    exact h2

theorem kept_flashStart (h : Kept q s) : ∀ a1, Kept q (flashStart s a1) := by
  intro a1
  unfold flashStart
  apply kept_flashShow
  apply kept_flashSend
  apply kept_setSlate
  · exact h
  · intro x0
    rfl

theorem kept_flashChange (h : Kept q s) : ∀ a1 a2 a3, Kept q (flashChange s a1 a2 a3).1 := by
  intro a1 a2 a3
  unfold flashChange
  apply kept_flashFree
  · exact h
  · intro x0 h1
    split
    · exact h1
    · dsimp only
      apply kept_flashStart
      exact h1

theorem kept_execFlashProgram (h : Kept q s) : ∀ a1 a2 a3 a4 a5, KeptOut q (execFlashProgram a1 a2 a3 a4 a5 s) := by
  intro a1 a2 a3 a4 a5
  unfold execFlashProgram
  extract_lets v0 v1
  apply kept_next
  apply kept_hostFrame
  · exact h
  · intro x2 h3
    apply kept_flashChange
    exact h3

theorem kept_execFlashErase (h : Kept q s) : ∀ a1 a2 a3 a4, KeptOut q (execFlashErase a1 a2 a3 a4 s) := by
  intro a1 a2 a3 a4
  unfold execFlashErase
  extract_lets v0 v1
  apply kept_next
  apply kept_hostFrame
  · exact h
  · intro x2 h3
    apply kept_flashChange
    exact h3

theorem kept_flashPut (h : Kept q s) : ∀ a1 a2, Kept q (flashPut s a1 a2) := by
  intro a1 a2
  unfold flashPut
  apply kept_setSlate
  · exact h
  · intro x0
    rfl

theorem kept_flashApply (h : Kept q s) : ∀ a1, Kept q (flashApply s a1) := by
  intro a1
  unfold flashApply
  extract_lets v0
  have h1 : Kept q v0 := by
    unfold v0
    split
    · apply kept_foldl
      · exact h
      · intro x2 x3 h4
        apply kept_flashPut
        exact h4
    · exact h
  clear_value v0
  split
  · apply kept_setSlate
    · exact h1
    · intro x5
      rfl
  · exact h1

theorem kept_flashEnds (h : Kept q s) : ∀ a1, Kept q (flashEnds s a1) := by
  intro a1
  unfold flashEnds
  split
  · exact h
  · extract_lets v0 v1 v2
    have h3 : Kept q v0 := by
      unfold v0
      refine kept_ite ?_ ?_
      · apply kept_flashApply
        exact h
      · split
        split
        apply kept_foldl
        · refine kept_snd (by assumption) ?_
          apply kept_takeFree
          exact h
        · intro x4 x5 h6
          apply kept_flashPut
          exact h6
    clear_value v0
    have h7 : Kept q v1 := by
      unfold v1
      apply kept_setSlate
      · exact h3
      · intro x8
        rfl
    clear_value v1
    have h9 : Kept q v2 := by
      unfold v2
      apply kept_setF
      apply kept_flashShow
      exact h7
    clear_value v2
    apply kept_hostIrq
    exact h9

theorem kept_execFlashDone (h : Kept q s) : ∀ a1, KeptOut q (execFlashDone a1 s) := by
  intro a1
  unfold execFlashDone
  apply kept_next
  apply kept_flashEnds
  exact h

theorem kept_execFlashTimeout (h : Kept q s) : KeptOut q (execFlashTimeout s) := by
  unfold execFlashTimeout
  apply kept_next
  apply kept_flashEnds
  exact h

theorem kept_execEventQueueRead (h : Kept q s) : ∀ a1, KeptOut q (execEventQueueRead a1 s) := by
  intro a1
  unfold execEventQueueRead
  apply kept_next
  apply kept_reqSlate
  · exact h
  · intro x0 h1
    apply kept_eventQueueRead
    exact h1

theorem kept_execDoorbell (h : Kept q s) : ∀ a1 a2, KeptOut q (execDoorbell a1 a2 s) := by
  intro a1 a2
  unfold execDoorbell
  apply kept_next
  apply kept_reqSlate
  · exact h
  · intro x0 h1
    apply kept_doorbell
    exact h1

theorem kept_execMailbox (h : Kept q s) : ∀ a1 a2, KeptOut q (execMailbox a1 a2 s) := by
  intro a1 a2
  unfold execMailbox
  apply kept_next
  refine kept_ite ?_ ?_
  · apply kept_mailbox
    exact h
  · exact h

theorem kept_execSleep (h : Kept q s) : ∀ a1 a2, KeptOut q (execSleep a1 a2 s) := by
  intro a1 a2
  unfold execSleep
  apply kept_next
  apply kept_reqSlate
  · exact h
  · intro x0 h1
    apply kept_pwrCtrlWrite
    exact h1

theorem kept_execPwrRequest (h : Kept q s) : ∀ a1 a2, KeptOut q (execPwrRequest a1 a2 s) := by
  intro a1 a2
  unfold execPwrRequest
  apply kept_next
  apply kept_reqSlate
  · exact h
  · intro x0 h1
    apply kept_powerRequest
    exact h1

theorem kept_refclkWindow (h : Kept q s) : ∀ a1, Kept q (refclkWindow s a1) := by
  intro a1
  unfold refclkWindow
  extract_lets v0 v1 v2 v3 v4 v5
  have h6 : Kept q v5 := by
    unfold v5
    apply kept_setPwr
    exact h
  clear_value v5
  refine kept_ite ?_ ?_
  · exact h
  · refine kept_ite ?_ ?_
    · refine kept_ite ?_ ?_
      · apply kept_refclkFails
        exact h6
      · exact h6
    · refine kept_ite ?_ ?_
      · apply kept_powerEvent
        exact h6
      · exact h6

theorem kept_execRefclkWindow (h : Kept q s) : ∀ a1, KeptOut q (execRefclkWindow a1 s) := by
  intro a1
  unfold execRefclkWindow
  apply kept_next
  apply kept_refclkWindow
  exact h

theorem kept_xtalFails (h : Kept q s) : Kept q (xtalFails s) := by
  unfold xtalFails
  refine kept_ite ?_ ?_
  · exact h
  · apply kept_powerEvent
    apply kept_setPwr
    exact h

theorem kept_execXtalFault (h : Kept q s) : KeptOut q (execXtalFault s) := by
  unfold execXtalFault
  apply kept_next
  apply kept_xtalFails
  exact h

theorem kept_driveOffDelay (h : Kept q s) : Kept q (driveOffDelay s) := by
  unfold driveOffDelay
  refine kept_ite ?_ ?_
  · exact h
  · apply kept_scriptAsk
    apply kept_setStep
    exact h

theorem kept_execDriveOffDelay (h : Kept q s) : KeptOut q (execDriveOffDelay s) := by
  unfold execDriveOffDelay
  apply kept_next
  apply kept_whenServes
  · exact h
  · intro x0 h1
    apply kept_driveOffDelay
    exact h1

theorem kept_refclkStops (h : Kept q s) : Kept q (refclkStops s) := by
  unfold refclkStops
  refine kept_ite ?_ ?_
  · exact h
  · apply kept_refclkFails
    exact h

theorem kept_execRefclkStopped (h : Kept q s) : KeptOut q (execRefclkStopped s) := by
  unfold execRefclkStopped
  apply kept_next
  apply kept_refclkStops
  exact h

theorem kept_execCalmapReadTimeout (h : Kept q s) : KeptOut q (execCalmapReadTimeout s) := by
  unfold execCalmapReadTimeout
  apply kept_next
  apply kept_whenServes
  · exact h
  · intro x0 h1
    apply kept_calReadTimeout
    exact h1

theorem kept_execLaneTest (h : Kept q s) : ∀ a1 a2 a3 a4, KeptOut q (execLaneTest a1 a2 a3 a4 s) := by
  intro a1 a2 a3 a4
  unfold execLaneTest
  apply kept_next
  split
  · apply kept_reqServes
    · exact h
    · intro x0 h1
      apply kept_linkCtrlWrite
      exact h1
  · apply kept_reqServes
    · exact h
    · intro x2 h3
      apply kept_panelJudged
      apply kept_obsLinkWrite
      exact h3

theorem kept_linksRun (h : Kept q s) : Kept q (linksRun s) := by
  unfold linksRun
  refine kept_ite ?_ ?_
  · apply kept_foldl
    · exact h
    · intro x0 x1 h2
      apply kept_linkRun
      exact h2
  · exact h

theorem kept_laneSends (h : Kept q s) : ∀ a1 a2 a3 a4, Kept q (laneSends s a1 a2 a3 a4) := by
  intro a1 a2 a3 a4
  unfold laneSends
  extract_lets v0 v1
  refine kept_ite ?_ ?_
  · split
    split
    unfold v1
    apply kept_setLane
    exact h
  · split
    · apply kept_setLane
      exact h
    · refine kept_ite ?_ ?_
      · split
        unfold v1
        apply kept_setLane
        exact h
      · unfold v1
        apply kept_setLane
        exact h

theorem kept_blockTime (h : Kept q s) : ∀ a1 a2 a3, Kept q (blockTime s a1 a2 a3).1 := by
  intro a1 a2 a3
  unfold blockTime
  extract_lets v0 v1 v2
  have h3 : Kept q v1 := by
    unfold v1
    apply kept_foldl
    · exact h
    · intro x4 x5 h6
      refine kept_ite ?_ ?_
      · split
        · refine kept_ite ?_ ?_
          · apply kept_setLane
            exact h6
          · apply kept_laneSends
            exact h6
        · apply kept_laneSends
          exact h6
      · refine kept_ite ?_ ?_
        · exact h6
        · apply kept_laneSends
          exact h6
  clear_value v1
  split
  dsimp only
  refine kept_fst (by assumption) ?_
  apply kept_foldl_fst
  · exact h3
  · intro x7 x8 h9
    split
    · dsimp only
      apply kept_laneSends
      exact h9
    · dsimp only
      apply kept_laneSends
      exact h9

theorem kept_txRun (h : Kept q s) : ∀ a1 a2 a3, Kept q (txRun s a1 a2 a3).1 := by
  intro a1 a2 a3
  unfold txRun
  extract_lets v0 v1
  split
  · exact h
  · split
    · exact h
    · apply kept_blockTime
      exact h

theorem kept_lanesRun (h : Kept q s) : Kept q (lanesRun s) := by
  unfold lanesRun
  extract_lets v0
  have h1 : Kept q v0 := by
    unfold v0
    refine kept_ite ?_ ?_
    · exact h
    · apply kept_foldl
      · exact h
      · intro x2 x3 h4
        extract_lets v5
        split
        apply kept_setSrcTx
        refine kept_fst (by assumption) ?_
        apply kept_txRun
        exact h4
  clear_value v0
  refine kept_ite ?_ ?_
  · exact h1
  · apply kept_foldl
    · exact h1
    · intro x6 x7 h8
      extract_lets v9
      split
      apply kept_setGroupTx
      refine kept_fst (by assumption) ?_
      apply kept_txRun
      exact h8

theorem kept_bringUpDue (h : Kept q s) : Kept q (bringUpDue s) := by
  unfold bringUpDue
  extract_lets v0
  refine kept_ite ?_ ?_
  · apply kept_bringUpNow
    refine kept_rec ?_
    apply kept_parts
    exact h
  · exact h

theorem kept_meshArrives (h : Kept q s) : ∀ a1 a2, Kept q (meshArrives s a1 a2) := by
  intro a1 a2
  unfold meshArrives
  extract_lets v0 v1 v2
  refine kept_ite ?_ ?_
  · refine kept_ite ?_ ?_
    · apply kept_meshSend
      exact h
    · exact h
  · refine kept_rec ?_
    apply kept_parts
    exact h

theorem kept_nodeArrives (h : Kept q s) : ∀ a1, Kept q (nodeArrives s a1) := by
  intro a1
  unfold nodeArrives
  apply kept_foldl
  · exact h
  · intro x0 x1 h2
    extract_lets v3
    split
    · refine kept_ite ?_ ?_
      · apply kept_meshArrives
        apply kept_setNode
        exact h2
      · exact h2
    · exact h2

theorem kept_meshClock (h : Kept q s) : Kept q (meshClock s) := by
  unfold meshClock
  extract_lets v0 v1
  have h2 : Kept q v0 := by
    unfold v0
    refine kept_rec ?_
    apply kept_parts
    exact h
  clear_value v0
  have h3 : Kept q v1 := by
    unfold v1
    apply kept_foldl
    · exact h2
    · intro x4 x5 h6
      apply kept_nodeArrives
      exact h6
  clear_value v1
  refine kept_rec ?_
  apply kept_parts
  exact h3

theorem kept_meshClocks (h : Kept q s) : ∀ n, Kept q (meshClocks n s) := by
  intro n
  induction n generalizing s with
  | zero => exact h
  | succ n ih => exact ih (kept_meshClock h)

theorem kept_meshRun (h : Kept q s) : Kept q (meshRun s) := by
  unfold meshRun
  refine kept_ite ?_ ?_
  · exact h
  · apply kept_meshClocks
    exact h

theorem kept_clocksEnd (h : Kept q s) : Kept q (clocksEnd s) := by
  unfold clocksEnd
  extract_lets v0 v1
  have h2 : Kept q v0 := by
    unfold v0
    apply kept_busClockEnds
    exact h
  clear_value v0
  have h3 : Kept q v1 := by
    unfold v1
    apply kept_foldl
    · exact h2
    · intro x4 x5 h6
      apply kept_semClockEnds
      exact h6
  clear_value v1
  refine kept_ite ?_ ?_
  · apply kept_busClockEnds
    exact h
  · apply kept_setSlate
    · exact h3
    · intro x7
      rfl

theorem kept_frameTick (h : Kept q s) : ∀ a1, Kept q (frameTick a1 s) := by
  intro a1
  unfold frameTick
  refine kept_ite ?_ ?_
  · apply kept_timingStart
    exact h
  · exact h

theorem kept_timeTick (h : Kept q s) : Kept q (timeTick s) := by
  unfold timeTick
  extract_lets v0 v1 v2
  have h3 : Kept q v0 := by
    unfold v0
    apply kept_setPtp
    exact h
  clear_value v0
  have h4 : Kept q v1 := by
    unfold v1
    apply kept_foldl
    · exact h3
    · intro x5 x6 h7
      apply kept_ptpSend
      exact h7
  clear_value v1
  have h8 : Kept q v2 := by
    unfold v2
    apply kept_ppsInLost
    apply kept_igmpReport
    apply kept_announceTimeout
    apply kept_announceTimeout
    exact h4
  clear_value v2
  refine kept_ite ?_ ?_
  · exact h
  · apply kept_foldl
    · exact h8
    · intro x9 x10 h11
      apply kept_triggerEdge
      exact h11

theorem kept_audioTick (h : Kept q s) : Kept q (audioTick s) := by
  unfold audioTick
  extract_lets v0
  have h1 : Kept q v0 := by
    unfold v0
    apply kept_foldl
    · exact h
    · intro x2 x3 h4
      apply kept_audioThen
      · exact h4
      · intro x5 h6
        apply kept_audioFrame
        exact h6
  clear_value v0
  refine kept_ite ?_ ?_
  · apply kept_foldl
    · exact h1
    · intro x7 x8 h9
      apply kept_clockMeasurement
      apply kept_clockStopped
      exact h9
  · exact h1

theorem kept_ppsTick (h : Kept q s) : ∀ a1, Kept q (ppsTick a1 s) := by
  intro a1
  unfold ppsTick
  refine kept_ite ?_ ?_
  · apply kept_setTport
    exact h
  · exact h

theorem kept_timeRun (h : Kept q s) : ∀ a1, Kept q (timeRun s a1) := by
  intro a1
  unfold timeRun
  extract_lets v0 v1 v2
  refine kept_ite ?_ ?_
  · exact h
  · apply kept_setServo
    refine kept_rec ?_
    apply kept_parts
    exact h

theorem kept_thermTick (h : Kept q s) : Kept q (thermTick s) := by
  unfold thermTick
  extract_lets v0
  have h1 : Kept q v0 := by
    unfold v0
    refine kept_ite ?_ ?_
    · apply kept_setTherm
      exact h
    · exact h
  clear_value v0
  refine kept_ite ?_ ?_
  · exact h
  · apply kept_dramPersists
    apply kept_throttleStep
    apply kept_holdExpired
    exact h1

theorem kept_wakeTick (h : Kept q s) : Kept q (wakeTick s) := by
  unfold wakeTick
  extract_lets v0 v1
  have h2 : Kept q v1 := by
    unfold v1
    refine kept_ite ?_ ?_
    · refine kept_ite ?_ ?_
      · apply kept_setReg
        exact h
      · apply kept_wakeTimerEnds
        exact h
    · exact h
  clear_value v1
  apply kept_clockRuns
  apply kept_bringUpDue
  exact h2

theorem kept_leaseTick (h : Kept q s) : Kept q (leaseTick s) := by
  unfold leaseTick
  apply kept_coldTimesOut
  apply kept_leaseGuardEnds
  exact h

theorem kept_timerTick (h : Kept q s) : ∀ a1 a2, Kept q (timerTick s a1 a2) := by
  intro a1 a2
  unfold timerTick
  split
  · exact h
  · apply kept_timerEnds
    exact h
  · apply kept_setFlint
    exact h

theorem kept_flintTick (h : Kept q s) : ∀ a1, Kept q (flintTick s a1) := by
  intro a1
  unfold flintTick
  extract_lets v0 v1
  have h2 : Kept q v0 := by
    unfold v0
    apply kept_foldl
    · apply kept_setFlint
      exact h
    · intro x3 x4 h5
      apply kept_timerTick
      exact h5
  clear_value v0
  have h6 : Kept q v1 := by
    unfold v1
    apply kept_wdogExpires
    apply kept_timeReached
    apply kept_waitTimesOut
    exact h2
  clear_value v1
  refine kept_ite ?_ ?_
  · apply kept_brxjSettle
    apply kept_launchSettle
    exact h6
  · exact h

theorem kept_tick {b : Prop} {l : List Instr} {n : Nat} (h : Kept (b, l, n) s) : Kept (b, l, n + 1) (tick s) := by
  unfold tick
  have h0 : Kept (b, l, n + 1) { s with now := s.now + 1 } := by
    obtain ⟨h1, h2, h3⟩ := h
    refine ⟨h1, ?_, h3⟩
    simp only [Prod.mk.injEq] at h2 ⊢
    exact ⟨h2.1, by omega⟩
  extract_lets v0
  have h1 : Kept (b, l, n + 1) v0 := by
    unfold v0
    apply kept_timeTick
    apply kept_audioTick
    apply kept_ppsTick
    apply kept_frameTick
    apply kept_timeRun
    apply kept_clocksEnd
    exact h0
  clear_value v0
  apply kept_meshRun
  apply kept_lanesRun
  apply kept_linksRun
  apply kept_thermalRestarts
  apply kept_thermTick
  apply kept_wakeTick
  apply kept_leaseTick
  apply kept_flintTick
  apply kept_flintTick
  exact h1

end Sys2Proof.Machine
end

