-- ==== Sys2Proof/Laws/State.lean ====
section
/-! SUPPORT. What the named updates of State leave alone, one lemma per field, so that no proof unfolds a record update. -/

namespace Sys2Proof.Machine

section
variable (s : State)

/-! setReg. -/

@[simp] theorem setReg_pending (k : Nat) (v : Word) : (setReg s k v).pending = s.pending := rfl
@[simp] theorem setReg_now (k : Nat) (v : Word) : (setReg s k v).now = s.now := rfl
@[simp] theorem setReg_freeCtr (k : Nat) (v : Word) : (setReg s k v).freeCtr = s.freeCtr := rfl
@[simp] theorem setReg_mem (k : Nat) (v : Word) : (setReg s k v).mem = s.mem := rfl
@[simp] theorem setReg_poison (k : Nat) (v : Word) : (setReg s k v).poison = s.poison := rfl
@[simp] theorem setReg_failed (k : Nat) (v : Word) : (setReg s k v).failed = s.failed := rfl
@[simp] theorem setReg_evNet (k : Nat) (v : Word) : (setReg s k v).evNet = s.evNet := rfl
@[simp] theorem setReg_acks (k : Nat) (v : Word) : (setReg s k v).acks = s.acks := rfl
@[simp] theorem setReg_net (k : Nat) (v : Word) : (setReg s k v).net = s.net := rfl
@[simp] theorem setReg_mesh (k : Nat) (v : Word) : (setReg s k v).mesh = s.mesh := rfl
@[simp] theorem setReg_part (k : Nat) (v : Word) : (setReg s k v).part = s.part := rfl
@[simp] theorem setReg_retired (k : Nat) (v : Word) : (setReg s k v).retired = s.retired := rfl
@[simp] theorem setReg_quarantined (k : Nat) (v : Word) : (setReg s k v).quarantined = s.quarantined := rfl
@[simp] theorem setReg_corrected (k : Nat) (v : Word) : (setReg s k v).corrected = s.corrected := rfl
@[simp] theorem setReg_ctl (k : Nat) (v : Word) : (setReg s k v).ctl = s.ctl := rfl
@[simp] theorem setReg_power (k : Nat) (v : Word) : (setReg s k v).power = s.power := rfl
@[simp] theorem setReg_time (k : Nat) (v : Word) : (setReg s k v).time = s.time := rfl
@[simp] theorem setReg_dram (k : Nat) (v : Word) : (setReg s k v).dram = s.dram := rfl
@[simp] theorem setReg_calmap (k : Nat) (v : Word) : (setReg s k v).calmap = s.calmap := rfl
@[simp] theorem setReg_quartz (k : Nat) (v : Word) : (setReg s k v).quartz = s.quartz := rfl
@[simp] theorem setReg_gal (k : Nat) (v : Word) : (setReg s k v).gal = s.gal := rfl
@[simp] theorem setReg_ctxs (k : Nat) (v : Word) : (setReg s k v).ctxs = s.ctxs := rfl
@[simp] theorem setReg_stripes (k : Nat) (v : Word) : (setReg s k v).stripes = s.stripes := rfl
@[simp] theorem setReg_scan (k : Nat) (v : Word) : (setReg s k v).scan = s.scan := rfl
@[simp] theorem setReg_obs (k : Nat) (v : Word) : (setReg s k v).obs = s.obs := rfl
@[simp] theorem setReg_mica (k : Nat) (v : Word) : (setReg s k v).mica = s.mica := rfl
@[simp] theorem setReg_audio (k : Nat) (v : Word) : (setReg s k v).audio = s.audio := rfl
@[simp] theorem setReg_ctrl (k : Nat) (v : Word) : (setReg s k v).ctrl = s.ctrl := rfl
@[simp] theorem setReg_borax (k : Nat) (v : Word) : (setReg s k v).borax = s.borax := rfl
@[simp] theorem setReg_slate (k : Nat) (v : Word) : (setReg s k v).slate = s.slate := rfl
@[simp] theorem setReg_tport (k : Nat) (v : Word) : (setReg s k v).tport = s.tport := rfl
@[simp] theorem setReg_links (k : Nat) (v : Word) : (setReg s k v).links = s.links := rfl
@[simp] theorem setReg_therm (k : Nat) (v : Word) : (setReg s k v).therm = s.therm := rfl
@[simp] theorem setReg_linkCorrected (k : Nat) (v : Word) : (setReg s k v).linkCorrected = s.linkCorrected := rfl

/-! setF. -/

@[simp] theorem setF_pending (k lo width v : Nat) : (setF s k lo width v).pending = s.pending := rfl
@[simp] theorem setF_now (k lo width v : Nat) : (setF s k lo width v).now = s.now := rfl
@[simp] theorem setF_freeCtr (k lo width v : Nat) : (setF s k lo width v).freeCtr = s.freeCtr := rfl
@[simp] theorem setF_mem (k lo width v : Nat) : (setF s k lo width v).mem = s.mem := rfl
@[simp] theorem setF_poison (k lo width v : Nat) : (setF s k lo width v).poison = s.poison := rfl
@[simp] theorem setF_failed (k lo width v : Nat) : (setF s k lo width v).failed = s.failed := rfl
@[simp] theorem setF_evNet (k lo width v : Nat) : (setF s k lo width v).evNet = s.evNet := rfl
@[simp] theorem setF_acks (k lo width v : Nat) : (setF s k lo width v).acks = s.acks := rfl
@[simp] theorem setF_net (k lo width v : Nat) : (setF s k lo width v).net = s.net := rfl
@[simp] theorem setF_mesh (k lo width v : Nat) : (setF s k lo width v).mesh = s.mesh := rfl
@[simp] theorem setF_part (k lo width v : Nat) : (setF s k lo width v).part = s.part := rfl
@[simp] theorem setF_retired (k lo width v : Nat) : (setF s k lo width v).retired = s.retired := rfl
@[simp] theorem setF_quarantined (k lo width v : Nat) : (setF s k lo width v).quarantined = s.quarantined := rfl
@[simp] theorem setF_corrected (k lo width v : Nat) : (setF s k lo width v).corrected = s.corrected := rfl
@[simp] theorem setF_ctl (k lo width v : Nat) : (setF s k lo width v).ctl = s.ctl := rfl
@[simp] theorem setF_power (k lo width v : Nat) : (setF s k lo width v).power = s.power := rfl
@[simp] theorem setF_time (k lo width v : Nat) : (setF s k lo width v).time = s.time := rfl
@[simp] theorem setF_dram (k lo width v : Nat) : (setF s k lo width v).dram = s.dram := rfl
@[simp] theorem setF_calmap (k lo width v : Nat) : (setF s k lo width v).calmap = s.calmap := rfl
@[simp] theorem setF_quartz (k lo width v : Nat) : (setF s k lo width v).quartz = s.quartz := rfl
@[simp] theorem setF_gal (k lo width v : Nat) : (setF s k lo width v).gal = s.gal := rfl
@[simp] theorem setF_ctxs (k lo width v : Nat) : (setF s k lo width v).ctxs = s.ctxs := rfl
@[simp] theorem setF_stripes (k lo width v : Nat) : (setF s k lo width v).stripes = s.stripes := rfl
@[simp] theorem setF_scan (k lo width v : Nat) : (setF s k lo width v).scan = s.scan := rfl
@[simp] theorem setF_obs (k lo width v : Nat) : (setF s k lo width v).obs = s.obs := rfl
@[simp] theorem setF_mica (k lo width v : Nat) : (setF s k lo width v).mica = s.mica := rfl
@[simp] theorem setF_audio (k lo width v : Nat) : (setF s k lo width v).audio = s.audio := rfl
@[simp] theorem setF_ctrl (k lo width v : Nat) : (setF s k lo width v).ctrl = s.ctrl := rfl
@[simp] theorem setF_borax (k lo width v : Nat) : (setF s k lo width v).borax = s.borax := rfl
@[simp] theorem setF_slate (k lo width v : Nat) : (setF s k lo width v).slate = s.slate := rfl
@[simp] theorem setF_tport (k lo width v : Nat) : (setF s k lo width v).tport = s.tport := rfl
@[simp] theorem setF_links (k lo width v : Nat) : (setF s k lo width v).links = s.links := rfl
@[simp] theorem setF_therm (k lo width v : Nat) : (setF s k lo width v).therm = s.therm := rfl
@[simp] theorem setF_linkCorrected (k lo width v : Nat) : (setF s k lo width v).linkCorrected = s.linkCorrected := rfl

/-! bump. -/

@[simp] theorem bump_pending (k n : Nat) : (bump s k n).pending = s.pending := rfl
@[simp] theorem bump_now (k n : Nat) : (bump s k n).now = s.now := rfl
@[simp] theorem bump_freeCtr (k n : Nat) : (bump s k n).freeCtr = s.freeCtr := rfl
@[simp] theorem bump_mem (k n : Nat) : (bump s k n).mem = s.mem := rfl
@[simp] theorem bump_poison (k n : Nat) : (bump s k n).poison = s.poison := rfl
@[simp] theorem bump_failed (k n : Nat) : (bump s k n).failed = s.failed := rfl
@[simp] theorem bump_evNet (k n : Nat) : (bump s k n).evNet = s.evNet := rfl
@[simp] theorem bump_acks (k n : Nat) : (bump s k n).acks = s.acks := rfl
@[simp] theorem bump_net (k n : Nat) : (bump s k n).net = s.net := rfl
@[simp] theorem bump_mesh (k n : Nat) : (bump s k n).mesh = s.mesh := rfl
@[simp] theorem bump_part (k n : Nat) : (bump s k n).part = s.part := rfl
@[simp] theorem bump_retired (k n : Nat) : (bump s k n).retired = s.retired := rfl
@[simp] theorem bump_quarantined (k n : Nat) : (bump s k n).quarantined = s.quarantined := rfl
@[simp] theorem bump_corrected (k n : Nat) : (bump s k n).corrected = s.corrected := rfl
@[simp] theorem bump_ctl (k n : Nat) : (bump s k n).ctl = s.ctl := rfl
@[simp] theorem bump_power (k n : Nat) : (bump s k n).power = s.power := rfl
@[simp] theorem bump_time (k n : Nat) : (bump s k n).time = s.time := rfl
@[simp] theorem bump_dram (k n : Nat) : (bump s k n).dram = s.dram := rfl
@[simp] theorem bump_calmap (k n : Nat) : (bump s k n).calmap = s.calmap := rfl
@[simp] theorem bump_quartz (k n : Nat) : (bump s k n).quartz = s.quartz := rfl
@[simp] theorem bump_gal (k n : Nat) : (bump s k n).gal = s.gal := rfl
@[simp] theorem bump_ctxs (k n : Nat) : (bump s k n).ctxs = s.ctxs := rfl
@[simp] theorem bump_stripes (k n : Nat) : (bump s k n).stripes = s.stripes := rfl
@[simp] theorem bump_scan (k n : Nat) : (bump s k n).scan = s.scan := rfl
@[simp] theorem bump_obs (k n : Nat) : (bump s k n).obs = s.obs := rfl
@[simp] theorem bump_mica (k n : Nat) : (bump s k n).mica = s.mica := rfl
@[simp] theorem bump_audio (k n : Nat) : (bump s k n).audio = s.audio := rfl
@[simp] theorem bump_ctrl (k n : Nat) : (bump s k n).ctrl = s.ctrl := rfl
@[simp] theorem bump_borax (k n : Nat) : (bump s k n).borax = s.borax := rfl
@[simp] theorem bump_slate (k n : Nat) : (bump s k n).slate = s.slate := rfl
@[simp] theorem bump_tport (k n : Nat) : (bump s k n).tport = s.tport := rfl
@[simp] theorem bump_links (k n : Nat) : (bump s k n).links = s.links := rfl
@[simp] theorem bump_therm (k n : Nat) : (bump s k n).therm = s.therm := rfl
@[simp] theorem bump_linkCorrected (k n : Nat) : (bump s k n).linkCorrected = s.linkCorrected := rfl

/-! writeKey. -/

@[simp] theorem writeKey_pending (k : Nat) (v : Word) : (writeKey s k v).pending = s.pending := rfl
@[simp] theorem writeKey_now (k : Nat) (v : Word) : (writeKey s k v).now = s.now := rfl
@[simp] theorem writeKey_freeCtr (k : Nat) (v : Word) : (writeKey s k v).freeCtr = s.freeCtr := rfl
@[simp] theorem writeKey_mem (k : Nat) (v : Word) : (writeKey s k v).mem = s.mem := rfl
@[simp] theorem writeKey_poison (k : Nat) (v : Word) : (writeKey s k v).poison = s.poison := rfl
@[simp] theorem writeKey_failed (k : Nat) (v : Word) : (writeKey s k v).failed = s.failed := rfl
@[simp] theorem writeKey_evNet (k : Nat) (v : Word) : (writeKey s k v).evNet = s.evNet := rfl
@[simp] theorem writeKey_acks (k : Nat) (v : Word) : (writeKey s k v).acks = s.acks := rfl
@[simp] theorem writeKey_net (k : Nat) (v : Word) : (writeKey s k v).net = s.net := rfl
@[simp] theorem writeKey_mesh (k : Nat) (v : Word) : (writeKey s k v).mesh = s.mesh := rfl
@[simp] theorem writeKey_part (k : Nat) (v : Word) : (writeKey s k v).part = s.part := rfl
@[simp] theorem writeKey_retired (k : Nat) (v : Word) : (writeKey s k v).retired = s.retired := rfl
@[simp] theorem writeKey_quarantined (k : Nat) (v : Word) : (writeKey s k v).quarantined = s.quarantined := rfl
@[simp] theorem writeKey_corrected (k : Nat) (v : Word) : (writeKey s k v).corrected = s.corrected := rfl
@[simp] theorem writeKey_ctl (k : Nat) (v : Word) : (writeKey s k v).ctl = s.ctl := rfl
@[simp] theorem writeKey_power (k : Nat) (v : Word) : (writeKey s k v).power = s.power := rfl
@[simp] theorem writeKey_time (k : Nat) (v : Word) : (writeKey s k v).time = s.time := rfl
@[simp] theorem writeKey_dram (k : Nat) (v : Word) : (writeKey s k v).dram = s.dram := rfl
@[simp] theorem writeKey_calmap (k : Nat) (v : Word) : (writeKey s k v).calmap = s.calmap := rfl
@[simp] theorem writeKey_quartz (k : Nat) (v : Word) : (writeKey s k v).quartz = s.quartz := rfl
@[simp] theorem writeKey_gal (k : Nat) (v : Word) : (writeKey s k v).gal = s.gal := rfl
@[simp] theorem writeKey_ctxs (k : Nat) (v : Word) : (writeKey s k v).ctxs = s.ctxs := rfl
@[simp] theorem writeKey_stripes (k : Nat) (v : Word) : (writeKey s k v).stripes = s.stripes := rfl
@[simp] theorem writeKey_scan (k : Nat) (v : Word) : (writeKey s k v).scan = s.scan := rfl
@[simp] theorem writeKey_obs (k : Nat) (v : Word) : (writeKey s k v).obs = s.obs := rfl
@[simp] theorem writeKey_mica (k : Nat) (v : Word) : (writeKey s k v).mica = s.mica := rfl
@[simp] theorem writeKey_audio (k : Nat) (v : Word) : (writeKey s k v).audio = s.audio := rfl
@[simp] theorem writeKey_ctrl (k : Nat) (v : Word) : (writeKey s k v).ctrl = s.ctrl := rfl
@[simp] theorem writeKey_borax (k : Nat) (v : Word) : (writeKey s k v).borax = s.borax := rfl
@[simp] theorem writeKey_slate (k : Nat) (v : Word) : (writeKey s k v).slate = s.slate := rfl
@[simp] theorem writeKey_tport (k : Nat) (v : Word) : (writeKey s k v).tport = s.tport := rfl
@[simp] theorem writeKey_links (k : Nat) (v : Word) : (writeKey s k v).links = s.links := rfl
@[simp] theorem writeKey_therm (k : Nat) (v : Word) : (writeKey s k v).therm = s.therm := rfl
@[simp] theorem writeKey_linkCorrected (k : Nat) (v : Word) : (writeKey s k v).linkCorrected = s.linkCorrected := rfl

/-! raise. -/

@[simp] theorem raise_pending (level region cause block cell arg : Nat) : (raise s level region cause block cell arg).pending = s.pending := rfl
@[simp] theorem raise_now (level region cause block cell arg : Nat) : (raise s level region cause block cell arg).now = s.now := rfl
@[simp] theorem raise_freeCtr (level region cause block cell arg : Nat) : (raise s level region cause block cell arg).freeCtr = s.freeCtr := rfl
@[simp] theorem raise_regs (level region cause block cell arg : Nat) : (raise s level region cause block cell arg).regs = s.regs := rfl
@[simp] theorem raise_mem (level region cause block cell arg : Nat) : (raise s level region cause block cell arg).mem = s.mem := rfl
@[simp] theorem raise_poison (level region cause block cell arg : Nat) : (raise s level region cause block cell arg).poison = s.poison := rfl
@[simp] theorem raise_failed (level region cause block cell arg : Nat) : (raise s level region cause block cell arg).failed = s.failed := rfl
@[simp] theorem raise_acks (level region cause block cell arg : Nat) : (raise s level region cause block cell arg).acks = s.acks := rfl
@[simp] theorem raise_net (level region cause block cell arg : Nat) : (raise s level region cause block cell arg).net = s.net := rfl
@[simp] theorem raise_mesh (level region cause block cell arg : Nat) : (raise s level region cause block cell arg).mesh = s.mesh := rfl
@[simp] theorem raise_part (level region cause block cell arg : Nat) : (raise s level region cause block cell arg).part = s.part := rfl
@[simp] theorem raise_retired (level region cause block cell arg : Nat) : (raise s level region cause block cell arg).retired = s.retired := rfl
@[simp] theorem raise_quarantined (level region cause block cell arg : Nat) : (raise s level region cause block cell arg).quarantined = s.quarantined := rfl
@[simp] theorem raise_corrected (level region cause block cell arg : Nat) : (raise s level region cause block cell arg).corrected = s.corrected := rfl
@[simp] theorem raise_ctl (level region cause block cell arg : Nat) : (raise s level region cause block cell arg).ctl = s.ctl := rfl
@[simp] theorem raise_power (level region cause block cell arg : Nat) : (raise s level region cause block cell arg).power = s.power := rfl
@[simp] theorem raise_time (level region cause block cell arg : Nat) : (raise s level region cause block cell arg).time = s.time := rfl
@[simp] theorem raise_dram (level region cause block cell arg : Nat) : (raise s level region cause block cell arg).dram = s.dram := rfl
@[simp] theorem raise_calmap (level region cause block cell arg : Nat) : (raise s level region cause block cell arg).calmap = s.calmap := rfl
@[simp] theorem raise_quartz (level region cause block cell arg : Nat) : (raise s level region cause block cell arg).quartz = s.quartz := rfl
@[simp] theorem raise_gal (level region cause block cell arg : Nat) : (raise s level region cause block cell arg).gal = s.gal := rfl
@[simp] theorem raise_ctxs (level region cause block cell arg : Nat) : (raise s level region cause block cell arg).ctxs = s.ctxs := rfl
@[simp] theorem raise_stripes (level region cause block cell arg : Nat) : (raise s level region cause block cell arg).stripes = s.stripes := rfl
@[simp] theorem raise_scan (level region cause block cell arg : Nat) : (raise s level region cause block cell arg).scan = s.scan := rfl
@[simp] theorem raise_obs (level region cause block cell arg : Nat) : (raise s level region cause block cell arg).obs = s.obs := rfl
@[simp] theorem raise_mica (level region cause block cell arg : Nat) : (raise s level region cause block cell arg).mica = s.mica := rfl
@[simp] theorem raise_audio (level region cause block cell arg : Nat) : (raise s level region cause block cell arg).audio = s.audio := rfl
@[simp] theorem raise_ctrl (level region cause block cell arg : Nat) : (raise s level region cause block cell arg).ctrl = s.ctrl := rfl
@[simp] theorem raise_borax (level region cause block cell arg : Nat) : (raise s level region cause block cell arg).borax = s.borax := rfl
@[simp] theorem raise_slate (level region cause block cell arg : Nat) : (raise s level region cause block cell arg).slate = s.slate := rfl
@[simp] theorem raise_tport (level region cause block cell arg : Nat) : (raise s level region cause block cell arg).tport = s.tport := rfl
@[simp] theorem raise_links (level region cause block cell arg : Nat) : (raise s level region cause block cell arg).links = s.links := rfl
@[simp] theorem raise_therm (level region cause block cell arg : Nat) : (raise s level region cause block cell arg).therm = s.therm := rfl
@[simp] theorem raise_linkCorrected (level region cause block cell arg : Nat) : (raise s level region cause block cell arg).linkCorrected = s.linkCorrected := rfl

/-! addAck. -/

@[simp] theorem addAck_acks (who : AckFor) (status : Nat) : (addAck s who status).acks = s.acks ++ [⟨who, status⟩] := rfl
@[simp] theorem addAck_pending (who : AckFor) (status : Nat) : (addAck s who status).pending = s.pending := rfl
@[simp] theorem addAck_now (who : AckFor) (status : Nat) : (addAck s who status).now = s.now := rfl
@[simp] theorem addAck_freeCtr (who : AckFor) (status : Nat) : (addAck s who status).freeCtr = s.freeCtr := rfl
@[simp] theorem addAck_regs (who : AckFor) (status : Nat) : (addAck s who status).regs = s.regs := rfl
@[simp] theorem addAck_mem (who : AckFor) (status : Nat) : (addAck s who status).mem = s.mem := rfl
@[simp] theorem addAck_poison (who : AckFor) (status : Nat) : (addAck s who status).poison = s.poison := rfl
@[simp] theorem addAck_failed (who : AckFor) (status : Nat) : (addAck s who status).failed = s.failed := rfl
@[simp] theorem addAck_evNet (who : AckFor) (status : Nat) : (addAck s who status).evNet = s.evNet := rfl
@[simp] theorem addAck_net (who : AckFor) (status : Nat) : (addAck s who status).net = s.net := rfl
@[simp] theorem addAck_mesh (who : AckFor) (status : Nat) : (addAck s who status).mesh = s.mesh := rfl
@[simp] theorem addAck_part (who : AckFor) (status : Nat) : (addAck s who status).part = s.part := rfl
@[simp] theorem addAck_retired (who : AckFor) (status : Nat) : (addAck s who status).retired = s.retired := rfl
@[simp] theorem addAck_quarantined (who : AckFor) (status : Nat) : (addAck s who status).quarantined = s.quarantined := rfl
@[simp] theorem addAck_corrected (who : AckFor) (status : Nat) : (addAck s who status).corrected = s.corrected := rfl
@[simp] theorem addAck_ctl (who : AckFor) (status : Nat) : (addAck s who status).ctl = s.ctl := rfl
@[simp] theorem addAck_power (who : AckFor) (status : Nat) : (addAck s who status).power = s.power := rfl
@[simp] theorem addAck_time (who : AckFor) (status : Nat) : (addAck s who status).time = s.time := rfl
@[simp] theorem addAck_dram (who : AckFor) (status : Nat) : (addAck s who status).dram = s.dram := rfl
@[simp] theorem addAck_calmap (who : AckFor) (status : Nat) : (addAck s who status).calmap = s.calmap := rfl
@[simp] theorem addAck_quartz (who : AckFor) (status : Nat) : (addAck s who status).quartz = s.quartz := rfl
@[simp] theorem addAck_gal (who : AckFor) (status : Nat) : (addAck s who status).gal = s.gal := rfl
@[simp] theorem addAck_ctxs (who : AckFor) (status : Nat) : (addAck s who status).ctxs = s.ctxs := rfl
@[simp] theorem addAck_stripes (who : AckFor) (status : Nat) : (addAck s who status).stripes = s.stripes := rfl
@[simp] theorem addAck_scan (who : AckFor) (status : Nat) : (addAck s who status).scan = s.scan := rfl
@[simp] theorem addAck_obs (who : AckFor) (status : Nat) : (addAck s who status).obs = s.obs := rfl
@[simp] theorem addAck_mica (who : AckFor) (status : Nat) : (addAck s who status).mica = s.mica := rfl
@[simp] theorem addAck_audio (who : AckFor) (status : Nat) : (addAck s who status).audio = s.audio := rfl
@[simp] theorem addAck_ctrl (who : AckFor) (status : Nat) : (addAck s who status).ctrl = s.ctrl := rfl
@[simp] theorem addAck_borax (who : AckFor) (status : Nat) : (addAck s who status).borax = s.borax := rfl
@[simp] theorem addAck_slate (who : AckFor) (status : Nat) : (addAck s who status).slate = s.slate := rfl
@[simp] theorem addAck_tport (who : AckFor) (status : Nat) : (addAck s who status).tport = s.tport := rfl
@[simp] theorem addAck_links (who : AckFor) (status : Nat) : (addAck s who status).links = s.links := rfl
@[simp] theorem addAck_therm (who : AckFor) (status : Nat) : (addAck s who status).therm = s.therm := rfl
@[simp] theorem addAck_linkCorrected (who : AckFor) (status : Nat) : (addAck s who status).linkCorrected = s.linkCorrected := rfl

/-! setCtl. -/

@[simp] theorem setCtl_pending (r : Nat) (f : RegionCtl → RegionCtl) : (setCtl s r f).pending = s.pending := by unfold setCtl; split <;> rfl
@[simp] theorem setCtl_now (r : Nat) (f : RegionCtl → RegionCtl) : (setCtl s r f).now = s.now := by unfold setCtl; split <;> rfl
@[simp] theorem setCtl_freeCtr (r : Nat) (f : RegionCtl → RegionCtl) : (setCtl s r f).freeCtr = s.freeCtr := by unfold setCtl; split <;> rfl
@[simp] theorem setCtl_regs (r : Nat) (f : RegionCtl → RegionCtl) : (setCtl s r f).regs = s.regs := by unfold setCtl; split <;> rfl
@[simp] theorem setCtl_mem (r : Nat) (f : RegionCtl → RegionCtl) : (setCtl s r f).mem = s.mem := by unfold setCtl; split <;> rfl
@[simp] theorem setCtl_poison (r : Nat) (f : RegionCtl → RegionCtl) : (setCtl s r f).poison = s.poison := by unfold setCtl; split <;> rfl
@[simp] theorem setCtl_failed (r : Nat) (f : RegionCtl → RegionCtl) : (setCtl s r f).failed = s.failed := by unfold setCtl; split <;> rfl
@[simp] theorem setCtl_evNet (r : Nat) (f : RegionCtl → RegionCtl) : (setCtl s r f).evNet = s.evNet := by unfold setCtl; split <;> rfl
@[simp] theorem setCtl_acks (r : Nat) (f : RegionCtl → RegionCtl) : (setCtl s r f).acks = s.acks := by unfold setCtl; split <;> rfl
@[simp] theorem setCtl_net (r : Nat) (f : RegionCtl → RegionCtl) : (setCtl s r f).net = s.net := by unfold setCtl; split <;> rfl
@[simp] theorem setCtl_mesh (r : Nat) (f : RegionCtl → RegionCtl) : (setCtl s r f).mesh = s.mesh := by unfold setCtl; split <;> rfl
@[simp] theorem setCtl_part (r : Nat) (f : RegionCtl → RegionCtl) : (setCtl s r f).part = s.part := by unfold setCtl; split <;> rfl
@[simp] theorem setCtl_retired (r : Nat) (f : RegionCtl → RegionCtl) : (setCtl s r f).retired = s.retired := by unfold setCtl; split <;> rfl
@[simp] theorem setCtl_quarantined (r : Nat) (f : RegionCtl → RegionCtl) : (setCtl s r f).quarantined = s.quarantined := by unfold setCtl; split <;> rfl
@[simp] theorem setCtl_corrected (r : Nat) (f : RegionCtl → RegionCtl) : (setCtl s r f).corrected = s.corrected := by unfold setCtl; split <;> rfl
@[simp] theorem setCtl_power (r : Nat) (f : RegionCtl → RegionCtl) : (setCtl s r f).power = s.power := by unfold setCtl; split <;> rfl
@[simp] theorem setCtl_time (r : Nat) (f : RegionCtl → RegionCtl) : (setCtl s r f).time = s.time := by unfold setCtl; split <;> rfl
@[simp] theorem setCtl_dram (r : Nat) (f : RegionCtl → RegionCtl) : (setCtl s r f).dram = s.dram := by unfold setCtl; split <;> rfl
@[simp] theorem setCtl_calmap (r : Nat) (f : RegionCtl → RegionCtl) : (setCtl s r f).calmap = s.calmap := by unfold setCtl; split <;> rfl
@[simp] theorem setCtl_quartz (r : Nat) (f : RegionCtl → RegionCtl) : (setCtl s r f).quartz = s.quartz := by unfold setCtl; split <;> rfl
@[simp] theorem setCtl_gal (r : Nat) (f : RegionCtl → RegionCtl) : (setCtl s r f).gal = s.gal := by unfold setCtl; split <;> rfl
@[simp] theorem setCtl_ctxs (r : Nat) (f : RegionCtl → RegionCtl) : (setCtl s r f).ctxs = s.ctxs := by unfold setCtl; split <;> rfl
@[simp] theorem setCtl_stripes (r : Nat) (f : RegionCtl → RegionCtl) : (setCtl s r f).stripes = s.stripes := by unfold setCtl; split <;> rfl
@[simp] theorem setCtl_scan (r : Nat) (f : RegionCtl → RegionCtl) : (setCtl s r f).scan = s.scan := by unfold setCtl; split <;> rfl
@[simp] theorem setCtl_obs (r : Nat) (f : RegionCtl → RegionCtl) : (setCtl s r f).obs = s.obs := by unfold setCtl; split <;> rfl
@[simp] theorem setCtl_mica (r : Nat) (f : RegionCtl → RegionCtl) : (setCtl s r f).mica = s.mica := by unfold setCtl; split <;> rfl
@[simp] theorem setCtl_audio (r : Nat) (f : RegionCtl → RegionCtl) : (setCtl s r f).audio = s.audio := by unfold setCtl; split <;> rfl
@[simp] theorem setCtl_ctrl (r : Nat) (f : RegionCtl → RegionCtl) : (setCtl s r f).ctrl = s.ctrl := by unfold setCtl; split <;> rfl
@[simp] theorem setCtl_borax (r : Nat) (f : RegionCtl → RegionCtl) : (setCtl s r f).borax = s.borax := by unfold setCtl; split <;> rfl
@[simp] theorem setCtl_slate (r : Nat) (f : RegionCtl → RegionCtl) : (setCtl s r f).slate = s.slate := by unfold setCtl; split <;> rfl
@[simp] theorem setCtl_tport (r : Nat) (f : RegionCtl → RegionCtl) : (setCtl s r f).tport = s.tport := by unfold setCtl; split <;> rfl
@[simp] theorem setCtl_links (r : Nat) (f : RegionCtl → RegionCtl) : (setCtl s r f).links = s.links := by unfold setCtl; split <;> rfl
@[simp] theorem setCtl_therm (r : Nat) (f : RegionCtl → RegionCtl) : (setCtl s r f).therm = s.therm := by unfold setCtl; split <;> rfl
@[simp] theorem setCtl_linkCorrected (r : Nat) (f : RegionCtl → RegionCtl) : (setCtl s r f).linkCorrected = s.linkCorrected := by unfold setCtl; split <;> rfl

/-! setGal. -/

@[simp] theorem setGal_pending (g : Fin 4) (f : Galena → Galena) : (setGal s g f).pending = s.pending := rfl
@[simp] theorem setGal_now (g : Fin 4) (f : Galena → Galena) : (setGal s g f).now = s.now := rfl
@[simp] theorem setGal_freeCtr (g : Fin 4) (f : Galena → Galena) : (setGal s g f).freeCtr = s.freeCtr := rfl
@[simp] theorem setGal_regs (g : Fin 4) (f : Galena → Galena) : (setGal s g f).regs = s.regs := rfl
@[simp] theorem setGal_mem (g : Fin 4) (f : Galena → Galena) : (setGal s g f).mem = s.mem := rfl
@[simp] theorem setGal_poison (g : Fin 4) (f : Galena → Galena) : (setGal s g f).poison = s.poison := rfl
@[simp] theorem setGal_failed (g : Fin 4) (f : Galena → Galena) : (setGal s g f).failed = s.failed := rfl
@[simp] theorem setGal_evNet (g : Fin 4) (f : Galena → Galena) : (setGal s g f).evNet = s.evNet := rfl
@[simp] theorem setGal_acks (g : Fin 4) (f : Galena → Galena) : (setGal s g f).acks = s.acks := rfl
@[simp] theorem setGal_net (g : Fin 4) (f : Galena → Galena) : (setGal s g f).net = s.net := rfl
@[simp] theorem setGal_mesh (g : Fin 4) (f : Galena → Galena) : (setGal s g f).mesh = s.mesh := rfl
@[simp] theorem setGal_part (g : Fin 4) (f : Galena → Galena) : (setGal s g f).part = s.part := rfl
@[simp] theorem setGal_retired (g : Fin 4) (f : Galena → Galena) : (setGal s g f).retired = s.retired := rfl
@[simp] theorem setGal_quarantined (g : Fin 4) (f : Galena → Galena) : (setGal s g f).quarantined = s.quarantined := rfl
@[simp] theorem setGal_corrected (g : Fin 4) (f : Galena → Galena) : (setGal s g f).corrected = s.corrected := rfl
@[simp] theorem setGal_ctl (g : Fin 4) (f : Galena → Galena) : (setGal s g f).ctl = s.ctl := rfl
@[simp] theorem setGal_power (g : Fin 4) (f : Galena → Galena) : (setGal s g f).power = s.power := rfl
@[simp] theorem setGal_time (g : Fin 4) (f : Galena → Galena) : (setGal s g f).time = s.time := rfl
@[simp] theorem setGal_dram (g : Fin 4) (f : Galena → Galena) : (setGal s g f).dram = s.dram := rfl
@[simp] theorem setGal_calmap (g : Fin 4) (f : Galena → Galena) : (setGal s g f).calmap = s.calmap := rfl
@[simp] theorem setGal_quartz (g : Fin 4) (f : Galena → Galena) : (setGal s g f).quartz = s.quartz := rfl
@[simp] theorem setGal_ctxs (g : Fin 4) (f : Galena → Galena) : (setGal s g f).ctxs = s.ctxs := rfl
@[simp] theorem setGal_stripes (g : Fin 4) (f : Galena → Galena) : (setGal s g f).stripes = s.stripes := rfl
@[simp] theorem setGal_scan (g : Fin 4) (f : Galena → Galena) : (setGal s g f).scan = s.scan := rfl
@[simp] theorem setGal_obs (g : Fin 4) (f : Galena → Galena) : (setGal s g f).obs = s.obs := rfl
@[simp] theorem setGal_mica (g : Fin 4) (f : Galena → Galena) : (setGal s g f).mica = s.mica := rfl
@[simp] theorem setGal_audio (g : Fin 4) (f : Galena → Galena) : (setGal s g f).audio = s.audio := rfl
@[simp] theorem setGal_ctrl (g : Fin 4) (f : Galena → Galena) : (setGal s g f).ctrl = s.ctrl := rfl
@[simp] theorem setGal_borax (g : Fin 4) (f : Galena → Galena) : (setGal s g f).borax = s.borax := rfl
@[simp] theorem setGal_slate (g : Fin 4) (f : Galena → Galena) : (setGal s g f).slate = s.slate := rfl
@[simp] theorem setGal_tport (g : Fin 4) (f : Galena → Galena) : (setGal s g f).tport = s.tport := rfl
@[simp] theorem setGal_links (g : Fin 4) (f : Galena → Galena) : (setGal s g f).links = s.links := rfl
@[simp] theorem setGal_therm (g : Fin 4) (f : Galena → Galena) : (setGal s g f).therm = s.therm := rfl
@[simp] theorem setGal_linkCorrected (g : Fin 4) (f : Galena → Galena) : (setGal s g f).linkCorrected = s.linkCorrected := rfl

/-! setBlock. -/

@[simp] theorem setBlock_pending (g : Fin 4) (b : Fin 12) (f : RayBlock → RayBlock) : (setBlock s g b f).pending = s.pending := rfl
@[simp] theorem setBlock_now (g : Fin 4) (b : Fin 12) (f : RayBlock → RayBlock) : (setBlock s g b f).now = s.now := rfl
@[simp] theorem setBlock_freeCtr (g : Fin 4) (b : Fin 12) (f : RayBlock → RayBlock) : (setBlock s g b f).freeCtr = s.freeCtr := rfl
@[simp] theorem setBlock_regs (g : Fin 4) (b : Fin 12) (f : RayBlock → RayBlock) : (setBlock s g b f).regs = s.regs := rfl
@[simp] theorem setBlock_mem (g : Fin 4) (b : Fin 12) (f : RayBlock → RayBlock) : (setBlock s g b f).mem = s.mem := rfl
@[simp] theorem setBlock_poison (g : Fin 4) (b : Fin 12) (f : RayBlock → RayBlock) : (setBlock s g b f).poison = s.poison := rfl
@[simp] theorem setBlock_failed (g : Fin 4) (b : Fin 12) (f : RayBlock → RayBlock) : (setBlock s g b f).failed = s.failed := rfl
@[simp] theorem setBlock_evNet (g : Fin 4) (b : Fin 12) (f : RayBlock → RayBlock) : (setBlock s g b f).evNet = s.evNet := rfl
@[simp] theorem setBlock_acks (g : Fin 4) (b : Fin 12) (f : RayBlock → RayBlock) : (setBlock s g b f).acks = s.acks := rfl
@[simp] theorem setBlock_net (g : Fin 4) (b : Fin 12) (f : RayBlock → RayBlock) : (setBlock s g b f).net = s.net := rfl
@[simp] theorem setBlock_mesh (g : Fin 4) (b : Fin 12) (f : RayBlock → RayBlock) : (setBlock s g b f).mesh = s.mesh := rfl
@[simp] theorem setBlock_part (g : Fin 4) (b : Fin 12) (f : RayBlock → RayBlock) : (setBlock s g b f).part = s.part := rfl
@[simp] theorem setBlock_retired (g : Fin 4) (b : Fin 12) (f : RayBlock → RayBlock) : (setBlock s g b f).retired = s.retired := rfl
@[simp] theorem setBlock_quarantined (g : Fin 4) (b : Fin 12) (f : RayBlock → RayBlock) : (setBlock s g b f).quarantined = s.quarantined := rfl
@[simp] theorem setBlock_corrected (g : Fin 4) (b : Fin 12) (f : RayBlock → RayBlock) : (setBlock s g b f).corrected = s.corrected := rfl
@[simp] theorem setBlock_ctl (g : Fin 4) (b : Fin 12) (f : RayBlock → RayBlock) : (setBlock s g b f).ctl = s.ctl := rfl
@[simp] theorem setBlock_power (g : Fin 4) (b : Fin 12) (f : RayBlock → RayBlock) : (setBlock s g b f).power = s.power := rfl
@[simp] theorem setBlock_time (g : Fin 4) (b : Fin 12) (f : RayBlock → RayBlock) : (setBlock s g b f).time = s.time := rfl
@[simp] theorem setBlock_dram (g : Fin 4) (b : Fin 12) (f : RayBlock → RayBlock) : (setBlock s g b f).dram = s.dram := rfl
@[simp] theorem setBlock_calmap (g : Fin 4) (b : Fin 12) (f : RayBlock → RayBlock) : (setBlock s g b f).calmap = s.calmap := rfl
@[simp] theorem setBlock_quartz (g : Fin 4) (b : Fin 12) (f : RayBlock → RayBlock) : (setBlock s g b f).quartz = s.quartz := rfl
@[simp] theorem setBlock_ctxs (g : Fin 4) (b : Fin 12) (f : RayBlock → RayBlock) : (setBlock s g b f).ctxs = s.ctxs := rfl
@[simp] theorem setBlock_stripes (g : Fin 4) (b : Fin 12) (f : RayBlock → RayBlock) : (setBlock s g b f).stripes = s.stripes := rfl
@[simp] theorem setBlock_scan (g : Fin 4) (b : Fin 12) (f : RayBlock → RayBlock) : (setBlock s g b f).scan = s.scan := rfl
@[simp] theorem setBlock_obs (g : Fin 4) (b : Fin 12) (f : RayBlock → RayBlock) : (setBlock s g b f).obs = s.obs := rfl
@[simp] theorem setBlock_mica (g : Fin 4) (b : Fin 12) (f : RayBlock → RayBlock) : (setBlock s g b f).mica = s.mica := rfl
@[simp] theorem setBlock_audio (g : Fin 4) (b : Fin 12) (f : RayBlock → RayBlock) : (setBlock s g b f).audio = s.audio := rfl
@[simp] theorem setBlock_ctrl (g : Fin 4) (b : Fin 12) (f : RayBlock → RayBlock) : (setBlock s g b f).ctrl = s.ctrl := rfl
@[simp] theorem setBlock_borax (g : Fin 4) (b : Fin 12) (f : RayBlock → RayBlock) : (setBlock s g b f).borax = s.borax := rfl
@[simp] theorem setBlock_slate (g : Fin 4) (b : Fin 12) (f : RayBlock → RayBlock) : (setBlock s g b f).slate = s.slate := rfl
@[simp] theorem setBlock_tport (g : Fin 4) (b : Fin 12) (f : RayBlock → RayBlock) : (setBlock s g b f).tport = s.tport := rfl
@[simp] theorem setBlock_links (g : Fin 4) (b : Fin 12) (f : RayBlock → RayBlock) : (setBlock s g b f).links = s.links := rfl
@[simp] theorem setBlock_therm (g : Fin 4) (b : Fin 12) (f : RayBlock → RayBlock) : (setBlock s g b f).therm = s.therm := rfl
@[simp] theorem setBlock_linkCorrected (g : Fin 4) (b : Fin 12) (f : RayBlock → RayBlock) : (setBlock s g b f).linkCorrected = s.linkCorrected := rfl

/-! setStripes. -/

@[simp] theorem setStripes_stripes (f : StripeQueue → StripeQueue) : (setStripes s f).stripes = f s.stripes := rfl
@[simp] theorem setStripes_pending (f : StripeQueue → StripeQueue) : (setStripes s f).pending = s.pending := rfl
@[simp] theorem setStripes_now (f : StripeQueue → StripeQueue) : (setStripes s f).now = s.now := rfl
@[simp] theorem setStripes_freeCtr (f : StripeQueue → StripeQueue) : (setStripes s f).freeCtr = s.freeCtr := rfl
@[simp] theorem setStripes_regs (f : StripeQueue → StripeQueue) : (setStripes s f).regs = s.regs := rfl
@[simp] theorem setStripes_mem (f : StripeQueue → StripeQueue) : (setStripes s f).mem = s.mem := rfl
@[simp] theorem setStripes_poison (f : StripeQueue → StripeQueue) : (setStripes s f).poison = s.poison := rfl
@[simp] theorem setStripes_failed (f : StripeQueue → StripeQueue) : (setStripes s f).failed = s.failed := rfl
@[simp] theorem setStripes_evNet (f : StripeQueue → StripeQueue) : (setStripes s f).evNet = s.evNet := rfl
@[simp] theorem setStripes_acks (f : StripeQueue → StripeQueue) : (setStripes s f).acks = s.acks := rfl
@[simp] theorem setStripes_net (f : StripeQueue → StripeQueue) : (setStripes s f).net = s.net := rfl
@[simp] theorem setStripes_mesh (f : StripeQueue → StripeQueue) : (setStripes s f).mesh = s.mesh := rfl
@[simp] theorem setStripes_part (f : StripeQueue → StripeQueue) : (setStripes s f).part = s.part := rfl
@[simp] theorem setStripes_retired (f : StripeQueue → StripeQueue) : (setStripes s f).retired = s.retired := rfl
@[simp] theorem setStripes_quarantined (f : StripeQueue → StripeQueue) : (setStripes s f).quarantined = s.quarantined := rfl
@[simp] theorem setStripes_corrected (f : StripeQueue → StripeQueue) : (setStripes s f).corrected = s.corrected := rfl
@[simp] theorem setStripes_ctl (f : StripeQueue → StripeQueue) : (setStripes s f).ctl = s.ctl := rfl
@[simp] theorem setStripes_power (f : StripeQueue → StripeQueue) : (setStripes s f).power = s.power := rfl
@[simp] theorem setStripes_time (f : StripeQueue → StripeQueue) : (setStripes s f).time = s.time := rfl
@[simp] theorem setStripes_dram (f : StripeQueue → StripeQueue) : (setStripes s f).dram = s.dram := rfl
@[simp] theorem setStripes_calmap (f : StripeQueue → StripeQueue) : (setStripes s f).calmap = s.calmap := rfl
@[simp] theorem setStripes_quartz (f : StripeQueue → StripeQueue) : (setStripes s f).quartz = s.quartz := rfl
@[simp] theorem setStripes_gal (f : StripeQueue → StripeQueue) : (setStripes s f).gal = s.gal := rfl
@[simp] theorem setStripes_ctxs (f : StripeQueue → StripeQueue) : (setStripes s f).ctxs = s.ctxs := rfl
@[simp] theorem setStripes_scan (f : StripeQueue → StripeQueue) : (setStripes s f).scan = s.scan := rfl
@[simp] theorem setStripes_obs (f : StripeQueue → StripeQueue) : (setStripes s f).obs = s.obs := rfl
@[simp] theorem setStripes_mica (f : StripeQueue → StripeQueue) : (setStripes s f).mica = s.mica := rfl
@[simp] theorem setStripes_audio (f : StripeQueue → StripeQueue) : (setStripes s f).audio = s.audio := rfl
@[simp] theorem setStripes_ctrl (f : StripeQueue → StripeQueue) : (setStripes s f).ctrl = s.ctrl := rfl
@[simp] theorem setStripes_borax (f : StripeQueue → StripeQueue) : (setStripes s f).borax = s.borax := rfl
@[simp] theorem setStripes_slate (f : StripeQueue → StripeQueue) : (setStripes s f).slate = s.slate := rfl
@[simp] theorem setStripes_tport (f : StripeQueue → StripeQueue) : (setStripes s f).tport = s.tport := rfl
@[simp] theorem setStripes_links (f : StripeQueue → StripeQueue) : (setStripes s f).links = s.links := rfl
@[simp] theorem setStripes_therm (f : StripeQueue → StripeQueue) : (setStripes s f).therm = s.therm := rfl
@[simp] theorem setStripes_linkCorrected (f : StripeQueue → StripeQueue) : (setStripes s f).linkCorrected = s.linkCorrected := rfl

/-! setScan. -/

@[simp] theorem setScan_scan (f : Scan → Scan) : (setScan s f).scan = f s.scan := rfl
@[simp] theorem setScan_pending (f : Scan → Scan) : (setScan s f).pending = s.pending := rfl
@[simp] theorem setScan_now (f : Scan → Scan) : (setScan s f).now = s.now := rfl
@[simp] theorem setScan_freeCtr (f : Scan → Scan) : (setScan s f).freeCtr = s.freeCtr := rfl
@[simp] theorem setScan_regs (f : Scan → Scan) : (setScan s f).regs = s.regs := rfl
@[simp] theorem setScan_mem (f : Scan → Scan) : (setScan s f).mem = s.mem := rfl
@[simp] theorem setScan_poison (f : Scan → Scan) : (setScan s f).poison = s.poison := rfl
@[simp] theorem setScan_failed (f : Scan → Scan) : (setScan s f).failed = s.failed := rfl
@[simp] theorem setScan_evNet (f : Scan → Scan) : (setScan s f).evNet = s.evNet := rfl
@[simp] theorem setScan_acks (f : Scan → Scan) : (setScan s f).acks = s.acks := rfl
@[simp] theorem setScan_net (f : Scan → Scan) : (setScan s f).net = s.net := rfl
@[simp] theorem setScan_mesh (f : Scan → Scan) : (setScan s f).mesh = s.mesh := rfl
@[simp] theorem setScan_part (f : Scan → Scan) : (setScan s f).part = s.part := rfl
@[simp] theorem setScan_retired (f : Scan → Scan) : (setScan s f).retired = s.retired := rfl
@[simp] theorem setScan_quarantined (f : Scan → Scan) : (setScan s f).quarantined = s.quarantined := rfl
@[simp] theorem setScan_corrected (f : Scan → Scan) : (setScan s f).corrected = s.corrected := rfl
@[simp] theorem setScan_ctl (f : Scan → Scan) : (setScan s f).ctl = s.ctl := rfl
@[simp] theorem setScan_power (f : Scan → Scan) : (setScan s f).power = s.power := rfl
@[simp] theorem setScan_time (f : Scan → Scan) : (setScan s f).time = s.time := rfl
@[simp] theorem setScan_dram (f : Scan → Scan) : (setScan s f).dram = s.dram := rfl
@[simp] theorem setScan_calmap (f : Scan → Scan) : (setScan s f).calmap = s.calmap := rfl
@[simp] theorem setScan_quartz (f : Scan → Scan) : (setScan s f).quartz = s.quartz := rfl
@[simp] theorem setScan_gal (f : Scan → Scan) : (setScan s f).gal = s.gal := rfl
@[simp] theorem setScan_ctxs (f : Scan → Scan) : (setScan s f).ctxs = s.ctxs := rfl
@[simp] theorem setScan_stripes (f : Scan → Scan) : (setScan s f).stripes = s.stripes := rfl
@[simp] theorem setScan_obs (f : Scan → Scan) : (setScan s f).obs = s.obs := rfl
@[simp] theorem setScan_mica (f : Scan → Scan) : (setScan s f).mica = s.mica := rfl
@[simp] theorem setScan_audio (f : Scan → Scan) : (setScan s f).audio = s.audio := rfl
@[simp] theorem setScan_ctrl (f : Scan → Scan) : (setScan s f).ctrl = s.ctrl := rfl
@[simp] theorem setScan_borax (f : Scan → Scan) : (setScan s f).borax = s.borax := rfl
@[simp] theorem setScan_slate (f : Scan → Scan) : (setScan s f).slate = s.slate := rfl
@[simp] theorem setScan_tport (f : Scan → Scan) : (setScan s f).tport = s.tport := rfl
@[simp] theorem setScan_links (f : Scan → Scan) : (setScan s f).links = s.links := rfl
@[simp] theorem setScan_therm (f : Scan → Scan) : (setScan s f).therm = s.therm := rfl
@[simp] theorem setScan_linkCorrected (f : Scan → Scan) : (setScan s f).linkCorrected = s.linkCorrected := rfl

/-! setObs. -/

@[simp] theorem setObs_obs (f : Obsidian → Obsidian) : (setObs s f).obs = f s.obs := rfl
@[simp] theorem setObs_pending (f : Obsidian → Obsidian) : (setObs s f).pending = s.pending := rfl
@[simp] theorem setObs_now (f : Obsidian → Obsidian) : (setObs s f).now = s.now := rfl
@[simp] theorem setObs_freeCtr (f : Obsidian → Obsidian) : (setObs s f).freeCtr = s.freeCtr := rfl
@[simp] theorem setObs_regs (f : Obsidian → Obsidian) : (setObs s f).regs = s.regs := rfl
@[simp] theorem setObs_mem (f : Obsidian → Obsidian) : (setObs s f).mem = s.mem := rfl
@[simp] theorem setObs_poison (f : Obsidian → Obsidian) : (setObs s f).poison = s.poison := rfl
@[simp] theorem setObs_failed (f : Obsidian → Obsidian) : (setObs s f).failed = s.failed := rfl
@[simp] theorem setObs_evNet (f : Obsidian → Obsidian) : (setObs s f).evNet = s.evNet := rfl
@[simp] theorem setObs_acks (f : Obsidian → Obsidian) : (setObs s f).acks = s.acks := rfl
@[simp] theorem setObs_net (f : Obsidian → Obsidian) : (setObs s f).net = s.net := rfl
@[simp] theorem setObs_mesh (f : Obsidian → Obsidian) : (setObs s f).mesh = s.mesh := rfl
@[simp] theorem setObs_part (f : Obsidian → Obsidian) : (setObs s f).part = s.part := rfl
@[simp] theorem setObs_retired (f : Obsidian → Obsidian) : (setObs s f).retired = s.retired := rfl
@[simp] theorem setObs_quarantined (f : Obsidian → Obsidian) : (setObs s f).quarantined = s.quarantined := rfl
@[simp] theorem setObs_corrected (f : Obsidian → Obsidian) : (setObs s f).corrected = s.corrected := rfl
@[simp] theorem setObs_ctl (f : Obsidian → Obsidian) : (setObs s f).ctl = s.ctl := rfl
@[simp] theorem setObs_power (f : Obsidian → Obsidian) : (setObs s f).power = s.power := rfl
@[simp] theorem setObs_time (f : Obsidian → Obsidian) : (setObs s f).time = s.time := rfl
@[simp] theorem setObs_dram (f : Obsidian → Obsidian) : (setObs s f).dram = s.dram := rfl
@[simp] theorem setObs_calmap (f : Obsidian → Obsidian) : (setObs s f).calmap = s.calmap := rfl
@[simp] theorem setObs_quartz (f : Obsidian → Obsidian) : (setObs s f).quartz = s.quartz := rfl
@[simp] theorem setObs_gal (f : Obsidian → Obsidian) : (setObs s f).gal = s.gal := rfl
@[simp] theorem setObs_ctxs (f : Obsidian → Obsidian) : (setObs s f).ctxs = s.ctxs := rfl
@[simp] theorem setObs_stripes (f : Obsidian → Obsidian) : (setObs s f).stripes = s.stripes := rfl
@[simp] theorem setObs_scan (f : Obsidian → Obsidian) : (setObs s f).scan = s.scan := rfl
@[simp] theorem setObs_mica (f : Obsidian → Obsidian) : (setObs s f).mica = s.mica := rfl
@[simp] theorem setObs_audio (f : Obsidian → Obsidian) : (setObs s f).audio = s.audio := rfl
@[simp] theorem setObs_ctrl (f : Obsidian → Obsidian) : (setObs s f).ctrl = s.ctrl := rfl
@[simp] theorem setObs_borax (f : Obsidian → Obsidian) : (setObs s f).borax = s.borax := rfl
@[simp] theorem setObs_slate (f : Obsidian → Obsidian) : (setObs s f).slate = s.slate := rfl
@[simp] theorem setObs_tport (f : Obsidian → Obsidian) : (setObs s f).tport = s.tport := rfl
@[simp] theorem setObs_links (f : Obsidian → Obsidian) : (setObs s f).links = s.links := rfl
@[simp] theorem setObs_therm (f : Obsidian → Obsidian) : (setObs s f).therm = s.therm := rfl
@[simp] theorem setObs_linkCorrected (f : Obsidian → Obsidian) : (setObs s f).linkCorrected = s.linkCorrected := rfl

/-! setCal. -/

@[simp] theorem setCal_calmap (f : CalMap → CalMap) : (setCal s f).calmap = f s.calmap := rfl
@[simp] theorem setCal_pending (f : CalMap → CalMap) : (setCal s f).pending = s.pending := rfl
@[simp] theorem setCal_now (f : CalMap → CalMap) : (setCal s f).now = s.now := rfl
@[simp] theorem setCal_freeCtr (f : CalMap → CalMap) : (setCal s f).freeCtr = s.freeCtr := rfl
@[simp] theorem setCal_regs (f : CalMap → CalMap) : (setCal s f).regs = s.regs := rfl
@[simp] theorem setCal_mem (f : CalMap → CalMap) : (setCal s f).mem = s.mem := rfl
@[simp] theorem setCal_poison (f : CalMap → CalMap) : (setCal s f).poison = s.poison := rfl
@[simp] theorem setCal_failed (f : CalMap → CalMap) : (setCal s f).failed = s.failed := rfl
@[simp] theorem setCal_evNet (f : CalMap → CalMap) : (setCal s f).evNet = s.evNet := rfl
@[simp] theorem setCal_acks (f : CalMap → CalMap) : (setCal s f).acks = s.acks := rfl
@[simp] theorem setCal_net (f : CalMap → CalMap) : (setCal s f).net = s.net := rfl
@[simp] theorem setCal_mesh (f : CalMap → CalMap) : (setCal s f).mesh = s.mesh := rfl
@[simp] theorem setCal_part (f : CalMap → CalMap) : (setCal s f).part = s.part := rfl
@[simp] theorem setCal_retired (f : CalMap → CalMap) : (setCal s f).retired = s.retired := rfl
@[simp] theorem setCal_quarantined (f : CalMap → CalMap) : (setCal s f).quarantined = s.quarantined := rfl
@[simp] theorem setCal_corrected (f : CalMap → CalMap) : (setCal s f).corrected = s.corrected := rfl
@[simp] theorem setCal_ctl (f : CalMap → CalMap) : (setCal s f).ctl = s.ctl := rfl
@[simp] theorem setCal_power (f : CalMap → CalMap) : (setCal s f).power = s.power := rfl
@[simp] theorem setCal_time (f : CalMap → CalMap) : (setCal s f).time = s.time := rfl
@[simp] theorem setCal_dram (f : CalMap → CalMap) : (setCal s f).dram = s.dram := rfl
@[simp] theorem setCal_quartz (f : CalMap → CalMap) : (setCal s f).quartz = s.quartz := rfl
@[simp] theorem setCal_gal (f : CalMap → CalMap) : (setCal s f).gal = s.gal := rfl
@[simp] theorem setCal_ctxs (f : CalMap → CalMap) : (setCal s f).ctxs = s.ctxs := rfl
@[simp] theorem setCal_stripes (f : CalMap → CalMap) : (setCal s f).stripes = s.stripes := rfl
@[simp] theorem setCal_scan (f : CalMap → CalMap) : (setCal s f).scan = s.scan := rfl
@[simp] theorem setCal_obs (f : CalMap → CalMap) : (setCal s f).obs = s.obs := rfl
@[simp] theorem setCal_mica (f : CalMap → CalMap) : (setCal s f).mica = s.mica := rfl
@[simp] theorem setCal_audio (f : CalMap → CalMap) : (setCal s f).audio = s.audio := rfl
@[simp] theorem setCal_ctrl (f : CalMap → CalMap) : (setCal s f).ctrl = s.ctrl := rfl
@[simp] theorem setCal_borax (f : CalMap → CalMap) : (setCal s f).borax = s.borax := rfl
@[simp] theorem setCal_slate (f : CalMap → CalMap) : (setCal s f).slate = s.slate := rfl
@[simp] theorem setCal_tport (f : CalMap → CalMap) : (setCal s f).tport = s.tport := rfl
@[simp] theorem setCal_links (f : CalMap → CalMap) : (setCal s f).links = s.links := rfl
@[simp] theorem setCal_therm (f : CalMap → CalMap) : (setCal s f).therm = s.therm := rfl
@[simp] theorem setCal_linkCorrected (f : CalMap → CalMap) : (setCal s f).linkCorrected = s.linkCorrected := rfl

/-! setMica. -/

@[simp] theorem setMica_mica (f : Mica → Mica) : (setMica s f).mica = f s.mica := rfl
@[simp] theorem setMica_pending (f : Mica → Mica) : (setMica s f).pending = s.pending := rfl
@[simp] theorem setMica_now (f : Mica → Mica) : (setMica s f).now = s.now := rfl
@[simp] theorem setMica_freeCtr (f : Mica → Mica) : (setMica s f).freeCtr = s.freeCtr := rfl
@[simp] theorem setMica_regs (f : Mica → Mica) : (setMica s f).regs = s.regs := rfl
@[simp] theorem setMica_mem (f : Mica → Mica) : (setMica s f).mem = s.mem := rfl
@[simp] theorem setMica_poison (f : Mica → Mica) : (setMica s f).poison = s.poison := rfl
@[simp] theorem setMica_failed (f : Mica → Mica) : (setMica s f).failed = s.failed := rfl
@[simp] theorem setMica_evNet (f : Mica → Mica) : (setMica s f).evNet = s.evNet := rfl
@[simp] theorem setMica_acks (f : Mica → Mica) : (setMica s f).acks = s.acks := rfl
@[simp] theorem setMica_net (f : Mica → Mica) : (setMica s f).net = s.net := rfl
@[simp] theorem setMica_mesh (f : Mica → Mica) : (setMica s f).mesh = s.mesh := rfl
@[simp] theorem setMica_part (f : Mica → Mica) : (setMica s f).part = s.part := rfl
@[simp] theorem setMica_retired (f : Mica → Mica) : (setMica s f).retired = s.retired := rfl
@[simp] theorem setMica_quarantined (f : Mica → Mica) : (setMica s f).quarantined = s.quarantined := rfl
@[simp] theorem setMica_corrected (f : Mica → Mica) : (setMica s f).corrected = s.corrected := rfl
@[simp] theorem setMica_ctl (f : Mica → Mica) : (setMica s f).ctl = s.ctl := rfl
@[simp] theorem setMica_power (f : Mica → Mica) : (setMica s f).power = s.power := rfl
@[simp] theorem setMica_time (f : Mica → Mica) : (setMica s f).time = s.time := rfl
@[simp] theorem setMica_dram (f : Mica → Mica) : (setMica s f).dram = s.dram := rfl
@[simp] theorem setMica_calmap (f : Mica → Mica) : (setMica s f).calmap = s.calmap := rfl
@[simp] theorem setMica_quartz (f : Mica → Mica) : (setMica s f).quartz = s.quartz := rfl
@[simp] theorem setMica_gal (f : Mica → Mica) : (setMica s f).gal = s.gal := rfl
@[simp] theorem setMica_ctxs (f : Mica → Mica) : (setMica s f).ctxs = s.ctxs := rfl
@[simp] theorem setMica_stripes (f : Mica → Mica) : (setMica s f).stripes = s.stripes := rfl
@[simp] theorem setMica_scan (f : Mica → Mica) : (setMica s f).scan = s.scan := rfl
@[simp] theorem setMica_obs (f : Mica → Mica) : (setMica s f).obs = s.obs := rfl
@[simp] theorem setMica_audio (f : Mica → Mica) : (setMica s f).audio = s.audio := rfl
@[simp] theorem setMica_ctrl (f : Mica → Mica) : (setMica s f).ctrl = s.ctrl := rfl
@[simp] theorem setMica_borax (f : Mica → Mica) : (setMica s f).borax = s.borax := rfl
@[simp] theorem setMica_slate (f : Mica → Mica) : (setMica s f).slate = s.slate := rfl
@[simp] theorem setMica_tport (f : Mica → Mica) : (setMica s f).tport = s.tport := rfl
@[simp] theorem setMica_links (f : Mica → Mica) : (setMica s f).links = s.links := rfl
@[simp] theorem setMica_therm (f : Mica → Mica) : (setMica s f).therm = s.therm := rfl
@[simp] theorem setMica_linkCorrected (f : Mica → Mica) : (setMica s f).linkCorrected = s.linkCorrected := rfl

/-! setAudio. -/

@[simp] theorem setAudio_audio (f : Audio → Audio) : (setAudio s f).audio = f s.audio := rfl
@[simp] theorem setAudio_pending (f : Audio → Audio) : (setAudio s f).pending = s.pending := rfl
@[simp] theorem setAudio_now (f : Audio → Audio) : (setAudio s f).now = s.now := rfl
@[simp] theorem setAudio_freeCtr (f : Audio → Audio) : (setAudio s f).freeCtr = s.freeCtr := rfl
@[simp] theorem setAudio_regs (f : Audio → Audio) : (setAudio s f).regs = s.regs := rfl
@[simp] theorem setAudio_mem (f : Audio → Audio) : (setAudio s f).mem = s.mem := rfl
@[simp] theorem setAudio_poison (f : Audio → Audio) : (setAudio s f).poison = s.poison := rfl
@[simp] theorem setAudio_failed (f : Audio → Audio) : (setAudio s f).failed = s.failed := rfl
@[simp] theorem setAudio_evNet (f : Audio → Audio) : (setAudio s f).evNet = s.evNet := rfl
@[simp] theorem setAudio_acks (f : Audio → Audio) : (setAudio s f).acks = s.acks := rfl
@[simp] theorem setAudio_net (f : Audio → Audio) : (setAudio s f).net = s.net := rfl
@[simp] theorem setAudio_mesh (f : Audio → Audio) : (setAudio s f).mesh = s.mesh := rfl
@[simp] theorem setAudio_part (f : Audio → Audio) : (setAudio s f).part = s.part := rfl
@[simp] theorem setAudio_retired (f : Audio → Audio) : (setAudio s f).retired = s.retired := rfl
@[simp] theorem setAudio_quarantined (f : Audio → Audio) : (setAudio s f).quarantined = s.quarantined := rfl
@[simp] theorem setAudio_corrected (f : Audio → Audio) : (setAudio s f).corrected = s.corrected := rfl
@[simp] theorem setAudio_ctl (f : Audio → Audio) : (setAudio s f).ctl = s.ctl := rfl
@[simp] theorem setAudio_power (f : Audio → Audio) : (setAudio s f).power = s.power := rfl
@[simp] theorem setAudio_time (f : Audio → Audio) : (setAudio s f).time = s.time := rfl
@[simp] theorem setAudio_dram (f : Audio → Audio) : (setAudio s f).dram = s.dram := rfl
@[simp] theorem setAudio_calmap (f : Audio → Audio) : (setAudio s f).calmap = s.calmap := rfl
@[simp] theorem setAudio_quartz (f : Audio → Audio) : (setAudio s f).quartz = s.quartz := rfl
@[simp] theorem setAudio_gal (f : Audio → Audio) : (setAudio s f).gal = s.gal := rfl
@[simp] theorem setAudio_ctxs (f : Audio → Audio) : (setAudio s f).ctxs = s.ctxs := rfl
@[simp] theorem setAudio_stripes (f : Audio → Audio) : (setAudio s f).stripes = s.stripes := rfl
@[simp] theorem setAudio_scan (f : Audio → Audio) : (setAudio s f).scan = s.scan := rfl
@[simp] theorem setAudio_obs (f : Audio → Audio) : (setAudio s f).obs = s.obs := rfl
@[simp] theorem setAudio_mica (f : Audio → Audio) : (setAudio s f).mica = s.mica := rfl
@[simp] theorem setAudio_ctrl (f : Audio → Audio) : (setAudio s f).ctrl = s.ctrl := rfl
@[simp] theorem setAudio_borax (f : Audio → Audio) : (setAudio s f).borax = s.borax := rfl
@[simp] theorem setAudio_slate (f : Audio → Audio) : (setAudio s f).slate = s.slate := rfl
@[simp] theorem setAudio_tport (f : Audio → Audio) : (setAudio s f).tport = s.tport := rfl
@[simp] theorem setAudio_links (f : Audio → Audio) : (setAudio s f).links = s.links := rfl
@[simp] theorem setAudio_therm (f : Audio → Audio) : (setAudio s f).therm = s.therm := rfl
@[simp] theorem setAudio_linkCorrected (f : Audio → Audio) : (setAudio s f).linkCorrected = s.linkCorrected := rfl

/-! setCtrl. -/

@[simp] theorem setCtrl_ctrl (f : Control → Control) : (setCtrl s f).ctrl = f s.ctrl := rfl
@[simp] theorem setCtrl_pending (f : Control → Control) : (setCtrl s f).pending = s.pending := rfl
@[simp] theorem setCtrl_now (f : Control → Control) : (setCtrl s f).now = s.now := rfl
@[simp] theorem setCtrl_freeCtr (f : Control → Control) : (setCtrl s f).freeCtr = s.freeCtr := rfl
@[simp] theorem setCtrl_regs (f : Control → Control) : (setCtrl s f).regs = s.regs := rfl
@[simp] theorem setCtrl_mem (f : Control → Control) : (setCtrl s f).mem = s.mem := rfl
@[simp] theorem setCtrl_poison (f : Control → Control) : (setCtrl s f).poison = s.poison := rfl
@[simp] theorem setCtrl_failed (f : Control → Control) : (setCtrl s f).failed = s.failed := rfl
@[simp] theorem setCtrl_evNet (f : Control → Control) : (setCtrl s f).evNet = s.evNet := rfl
@[simp] theorem setCtrl_acks (f : Control → Control) : (setCtrl s f).acks = s.acks := rfl
@[simp] theorem setCtrl_net (f : Control → Control) : (setCtrl s f).net = s.net := rfl
@[simp] theorem setCtrl_mesh (f : Control → Control) : (setCtrl s f).mesh = s.mesh := rfl
@[simp] theorem setCtrl_part (f : Control → Control) : (setCtrl s f).part = s.part := rfl
@[simp] theorem setCtrl_retired (f : Control → Control) : (setCtrl s f).retired = s.retired := rfl
@[simp] theorem setCtrl_quarantined (f : Control → Control) : (setCtrl s f).quarantined = s.quarantined := rfl
@[simp] theorem setCtrl_corrected (f : Control → Control) : (setCtrl s f).corrected = s.corrected := rfl
@[simp] theorem setCtrl_ctl (f : Control → Control) : (setCtrl s f).ctl = s.ctl := rfl
@[simp] theorem setCtrl_power (f : Control → Control) : (setCtrl s f).power = s.power := rfl
@[simp] theorem setCtrl_time (f : Control → Control) : (setCtrl s f).time = s.time := rfl
@[simp] theorem setCtrl_dram (f : Control → Control) : (setCtrl s f).dram = s.dram := rfl
@[simp] theorem setCtrl_calmap (f : Control → Control) : (setCtrl s f).calmap = s.calmap := rfl
@[simp] theorem setCtrl_quartz (f : Control → Control) : (setCtrl s f).quartz = s.quartz := rfl
@[simp] theorem setCtrl_gal (f : Control → Control) : (setCtrl s f).gal = s.gal := rfl
@[simp] theorem setCtrl_ctxs (f : Control → Control) : (setCtrl s f).ctxs = s.ctxs := rfl
@[simp] theorem setCtrl_stripes (f : Control → Control) : (setCtrl s f).stripes = s.stripes := rfl
@[simp] theorem setCtrl_scan (f : Control → Control) : (setCtrl s f).scan = s.scan := rfl
@[simp] theorem setCtrl_obs (f : Control → Control) : (setCtrl s f).obs = s.obs := rfl
@[simp] theorem setCtrl_mica (f : Control → Control) : (setCtrl s f).mica = s.mica := rfl
@[simp] theorem setCtrl_audio (f : Control → Control) : (setCtrl s f).audio = s.audio := rfl
@[simp] theorem setCtrl_borax (f : Control → Control) : (setCtrl s f).borax = s.borax := rfl
@[simp] theorem setCtrl_slate (f : Control → Control) : (setCtrl s f).slate = s.slate := rfl
@[simp] theorem setCtrl_tport (f : Control → Control) : (setCtrl s f).tport = s.tport := rfl
@[simp] theorem setCtrl_links (f : Control → Control) : (setCtrl s f).links = s.links := rfl
@[simp] theorem setCtrl_therm (f : Control → Control) : (setCtrl s f).therm = s.therm := rfl
@[simp] theorem setCtrl_linkCorrected (f : Control → Control) : (setCtrl s f).linkCorrected = s.linkCorrected := rfl

/-! setFlint. -/

@[simp] theorem setFlint_pending (f : FlintId) (g : Flint → Flint) : (setFlint s f g).pending = s.pending := rfl
@[simp] theorem setFlint_now (f : FlintId) (g : Flint → Flint) : (setFlint s f g).now = s.now := rfl
@[simp] theorem setFlint_freeCtr (f : FlintId) (g : Flint → Flint) : (setFlint s f g).freeCtr = s.freeCtr := rfl
@[simp] theorem setFlint_regs (f : FlintId) (g : Flint → Flint) : (setFlint s f g).regs = s.regs := rfl
@[simp] theorem setFlint_mem (f : FlintId) (g : Flint → Flint) : (setFlint s f g).mem = s.mem := rfl
@[simp] theorem setFlint_poison (f : FlintId) (g : Flint → Flint) : (setFlint s f g).poison = s.poison := rfl
@[simp] theorem setFlint_failed (f : FlintId) (g : Flint → Flint) : (setFlint s f g).failed = s.failed := rfl
@[simp] theorem setFlint_evNet (f : FlintId) (g : Flint → Flint) : (setFlint s f g).evNet = s.evNet := rfl
@[simp] theorem setFlint_acks (f : FlintId) (g : Flint → Flint) : (setFlint s f g).acks = s.acks := rfl
@[simp] theorem setFlint_net (f : FlintId) (g : Flint → Flint) : (setFlint s f g).net = s.net := rfl
@[simp] theorem setFlint_mesh (f : FlintId) (g : Flint → Flint) : (setFlint s f g).mesh = s.mesh := rfl
@[simp] theorem setFlint_part (f : FlintId) (g : Flint → Flint) : (setFlint s f g).part = s.part := rfl
@[simp] theorem setFlint_retired (f : FlintId) (g : Flint → Flint) : (setFlint s f g).retired = s.retired := rfl
@[simp] theorem setFlint_quarantined (f : FlintId) (g : Flint → Flint) : (setFlint s f g).quarantined = s.quarantined := rfl
@[simp] theorem setFlint_corrected (f : FlintId) (g : Flint → Flint) : (setFlint s f g).corrected = s.corrected := rfl
@[simp] theorem setFlint_ctl (f : FlintId) (g : Flint → Flint) : (setFlint s f g).ctl = s.ctl := rfl
@[simp] theorem setFlint_power (f : FlintId) (g : Flint → Flint) : (setFlint s f g).power = s.power := rfl
@[simp] theorem setFlint_time (f : FlintId) (g : Flint → Flint) : (setFlint s f g).time = s.time := rfl
@[simp] theorem setFlint_dram (f : FlintId) (g : Flint → Flint) : (setFlint s f g).dram = s.dram := rfl
@[simp] theorem setFlint_calmap (f : FlintId) (g : Flint → Flint) : (setFlint s f g).calmap = s.calmap := rfl
@[simp] theorem setFlint_quartz (f : FlintId) (g : Flint → Flint) : (setFlint s f g).quartz = s.quartz := rfl
@[simp] theorem setFlint_gal (f : FlintId) (g : Flint → Flint) : (setFlint s f g).gal = s.gal := rfl
@[simp] theorem setFlint_ctxs (f : FlintId) (g : Flint → Flint) : (setFlint s f g).ctxs = s.ctxs := rfl
@[simp] theorem setFlint_stripes (f : FlintId) (g : Flint → Flint) : (setFlint s f g).stripes = s.stripes := rfl
@[simp] theorem setFlint_scan (f : FlintId) (g : Flint → Flint) : (setFlint s f g).scan = s.scan := rfl
@[simp] theorem setFlint_obs (f : FlintId) (g : Flint → Flint) : (setFlint s f g).obs = s.obs := rfl
@[simp] theorem setFlint_mica (f : FlintId) (g : Flint → Flint) : (setFlint s f g).mica = s.mica := rfl
@[simp] theorem setFlint_audio (f : FlintId) (g : Flint → Flint) : (setFlint s f g).audio = s.audio := rfl
@[simp] theorem setFlint_borax (f : FlintId) (g : Flint → Flint) : (setFlint s f g).borax = s.borax := rfl
@[simp] theorem setFlint_slate (f : FlintId) (g : Flint → Flint) : (setFlint s f g).slate = s.slate := rfl
@[simp] theorem setFlint_tport (f : FlintId) (g : Flint → Flint) : (setFlint s f g).tport = s.tport := rfl
@[simp] theorem setFlint_links (f : FlintId) (g : Flint → Flint) : (setFlint s f g).links = s.links := rfl
@[simp] theorem setFlint_therm (f : FlintId) (g : Flint → Flint) : (setFlint s f g).therm = s.therm := rfl
@[simp] theorem setFlint_linkCorrected (f : FlintId) (g : Flint → Flint) : (setFlint s f g).linkCorrected = s.linkCorrected := rfl

/-! setLease. -/

@[simp] theorem setLease_pending (g : Lease → Lease) : (setLease s g).pending = s.pending := rfl
@[simp] theorem setLease_now (g : Lease → Lease) : (setLease s g).now = s.now := rfl
@[simp] theorem setLease_freeCtr (g : Lease → Lease) : (setLease s g).freeCtr = s.freeCtr := rfl
@[simp] theorem setLease_regs (g : Lease → Lease) : (setLease s g).regs = s.regs := rfl
@[simp] theorem setLease_mem (g : Lease → Lease) : (setLease s g).mem = s.mem := rfl
@[simp] theorem setLease_poison (g : Lease → Lease) : (setLease s g).poison = s.poison := rfl
@[simp] theorem setLease_failed (g : Lease → Lease) : (setLease s g).failed = s.failed := rfl
@[simp] theorem setLease_evNet (g : Lease → Lease) : (setLease s g).evNet = s.evNet := rfl
@[simp] theorem setLease_acks (g : Lease → Lease) : (setLease s g).acks = s.acks := rfl
@[simp] theorem setLease_net (g : Lease → Lease) : (setLease s g).net = s.net := rfl
@[simp] theorem setLease_mesh (g : Lease → Lease) : (setLease s g).mesh = s.mesh := rfl
@[simp] theorem setLease_part (g : Lease → Lease) : (setLease s g).part = s.part := rfl
@[simp] theorem setLease_retired (g : Lease → Lease) : (setLease s g).retired = s.retired := rfl
@[simp] theorem setLease_quarantined (g : Lease → Lease) : (setLease s g).quarantined = s.quarantined := rfl
@[simp] theorem setLease_corrected (g : Lease → Lease) : (setLease s g).corrected = s.corrected := rfl
@[simp] theorem setLease_ctl (g : Lease → Lease) : (setLease s g).ctl = s.ctl := rfl
@[simp] theorem setLease_power (g : Lease → Lease) : (setLease s g).power = s.power := rfl
@[simp] theorem setLease_time (g : Lease → Lease) : (setLease s g).time = s.time := rfl
@[simp] theorem setLease_dram (g : Lease → Lease) : (setLease s g).dram = s.dram := rfl
@[simp] theorem setLease_calmap (g : Lease → Lease) : (setLease s g).calmap = s.calmap := rfl
@[simp] theorem setLease_quartz (g : Lease → Lease) : (setLease s g).quartz = s.quartz := rfl
@[simp] theorem setLease_gal (g : Lease → Lease) : (setLease s g).gal = s.gal := rfl
@[simp] theorem setLease_ctxs (g : Lease → Lease) : (setLease s g).ctxs = s.ctxs := rfl
@[simp] theorem setLease_stripes (g : Lease → Lease) : (setLease s g).stripes = s.stripes := rfl
@[simp] theorem setLease_scan (g : Lease → Lease) : (setLease s g).scan = s.scan := rfl
@[simp] theorem setLease_obs (g : Lease → Lease) : (setLease s g).obs = s.obs := rfl
@[simp] theorem setLease_mica (g : Lease → Lease) : (setLease s g).mica = s.mica := rfl
@[simp] theorem setLease_audio (g : Lease → Lease) : (setLease s g).audio = s.audio := rfl
@[simp] theorem setLease_borax (g : Lease → Lease) : (setLease s g).borax = s.borax := rfl
@[simp] theorem setLease_slate (g : Lease → Lease) : (setLease s g).slate = s.slate := rfl
@[simp] theorem setLease_tport (g : Lease → Lease) : (setLease s g).tport = s.tport := rfl
@[simp] theorem setLease_links (g : Lease → Lease) : (setLease s g).links = s.links := rfl
@[simp] theorem setLease_therm (g : Lease → Lease) : (setLease s g).therm = s.therm := rfl
@[simp] theorem setLease_linkCorrected (g : Lease → Lease) : (setLease s g).linkCorrected = s.linkCorrected := rfl

/-! setBorax. -/

@[simp] theorem setBorax_borax (f : Borax → Borax) : (setBorax s f).borax = f s.borax := rfl
@[simp] theorem setBorax_pending (f : Borax → Borax) : (setBorax s f).pending = s.pending := rfl
@[simp] theorem setBorax_now (f : Borax → Borax) : (setBorax s f).now = s.now := rfl
@[simp] theorem setBorax_freeCtr (f : Borax → Borax) : (setBorax s f).freeCtr = s.freeCtr := rfl
@[simp] theorem setBorax_regs (f : Borax → Borax) : (setBorax s f).regs = s.regs := rfl
@[simp] theorem setBorax_mem (f : Borax → Borax) : (setBorax s f).mem = s.mem := rfl
@[simp] theorem setBorax_poison (f : Borax → Borax) : (setBorax s f).poison = s.poison := rfl
@[simp] theorem setBorax_failed (f : Borax → Borax) : (setBorax s f).failed = s.failed := rfl
@[simp] theorem setBorax_evNet (f : Borax → Borax) : (setBorax s f).evNet = s.evNet := rfl
@[simp] theorem setBorax_acks (f : Borax → Borax) : (setBorax s f).acks = s.acks := rfl
@[simp] theorem setBorax_net (f : Borax → Borax) : (setBorax s f).net = s.net := rfl
@[simp] theorem setBorax_mesh (f : Borax → Borax) : (setBorax s f).mesh = s.mesh := rfl
@[simp] theorem setBorax_part (f : Borax → Borax) : (setBorax s f).part = s.part := rfl
@[simp] theorem setBorax_retired (f : Borax → Borax) : (setBorax s f).retired = s.retired := rfl
@[simp] theorem setBorax_quarantined (f : Borax → Borax) : (setBorax s f).quarantined = s.quarantined := rfl
@[simp] theorem setBorax_corrected (f : Borax → Borax) : (setBorax s f).corrected = s.corrected := rfl
@[simp] theorem setBorax_ctl (f : Borax → Borax) : (setBorax s f).ctl = s.ctl := rfl
@[simp] theorem setBorax_power (f : Borax → Borax) : (setBorax s f).power = s.power := rfl
@[simp] theorem setBorax_time (f : Borax → Borax) : (setBorax s f).time = s.time := rfl
@[simp] theorem setBorax_dram (f : Borax → Borax) : (setBorax s f).dram = s.dram := rfl
@[simp] theorem setBorax_calmap (f : Borax → Borax) : (setBorax s f).calmap = s.calmap := rfl
@[simp] theorem setBorax_quartz (f : Borax → Borax) : (setBorax s f).quartz = s.quartz := rfl
@[simp] theorem setBorax_gal (f : Borax → Borax) : (setBorax s f).gal = s.gal := rfl
@[simp] theorem setBorax_ctxs (f : Borax → Borax) : (setBorax s f).ctxs = s.ctxs := rfl
@[simp] theorem setBorax_stripes (f : Borax → Borax) : (setBorax s f).stripes = s.stripes := rfl
@[simp] theorem setBorax_scan (f : Borax → Borax) : (setBorax s f).scan = s.scan := rfl
@[simp] theorem setBorax_obs (f : Borax → Borax) : (setBorax s f).obs = s.obs := rfl
@[simp] theorem setBorax_mica (f : Borax → Borax) : (setBorax s f).mica = s.mica := rfl
@[simp] theorem setBorax_audio (f : Borax → Borax) : (setBorax s f).audio = s.audio := rfl
@[simp] theorem setBorax_ctrl (f : Borax → Borax) : (setBorax s f).ctrl = s.ctrl := rfl
@[simp] theorem setBorax_slate (f : Borax → Borax) : (setBorax s f).slate = s.slate := rfl
@[simp] theorem setBorax_tport (f : Borax → Borax) : (setBorax s f).tport = s.tport := rfl
@[simp] theorem setBorax_links (f : Borax → Borax) : (setBorax s f).links = s.links := rfl
@[simp] theorem setBorax_therm (f : Borax → Borax) : (setBorax s f).therm = s.therm := rfl
@[simp] theorem setBorax_linkCorrected (f : Borax → Borax) : (setBorax s f).linkCorrected = s.linkCorrected := rfl

/-! setSlate. -/

@[simp] theorem setSlate_slate (f : Slate → Slate) : (setSlate s f).slate = f s.slate := rfl
@[simp] theorem setSlate_pending (f : Slate → Slate) : (setSlate s f).pending = s.pending := rfl
@[simp] theorem setSlate_now (f : Slate → Slate) : (setSlate s f).now = s.now := rfl
@[simp] theorem setSlate_freeCtr (f : Slate → Slate) : (setSlate s f).freeCtr = s.freeCtr := rfl
@[simp] theorem setSlate_regs (f : Slate → Slate) : (setSlate s f).regs = s.regs := rfl
@[simp] theorem setSlate_mem (f : Slate → Slate) : (setSlate s f).mem = s.mem := rfl
@[simp] theorem setSlate_poison (f : Slate → Slate) : (setSlate s f).poison = s.poison := rfl
@[simp] theorem setSlate_failed (f : Slate → Slate) : (setSlate s f).failed = s.failed := rfl
@[simp] theorem setSlate_evNet (f : Slate → Slate) : (setSlate s f).evNet = s.evNet := rfl
@[simp] theorem setSlate_acks (f : Slate → Slate) : (setSlate s f).acks = s.acks := rfl
@[simp] theorem setSlate_net (f : Slate → Slate) : (setSlate s f).net = s.net := rfl
@[simp] theorem setSlate_mesh (f : Slate → Slate) : (setSlate s f).mesh = s.mesh := rfl
@[simp] theorem setSlate_part (f : Slate → Slate) : (setSlate s f).part = s.part := rfl
@[simp] theorem setSlate_retired (f : Slate → Slate) : (setSlate s f).retired = s.retired := rfl
@[simp] theorem setSlate_quarantined (f : Slate → Slate) : (setSlate s f).quarantined = s.quarantined := rfl
@[simp] theorem setSlate_corrected (f : Slate → Slate) : (setSlate s f).corrected = s.corrected := rfl
@[simp] theorem setSlate_ctl (f : Slate → Slate) : (setSlate s f).ctl = s.ctl := rfl
@[simp] theorem setSlate_power (f : Slate → Slate) : (setSlate s f).power = s.power := rfl
@[simp] theorem setSlate_time (f : Slate → Slate) : (setSlate s f).time = s.time := rfl
@[simp] theorem setSlate_dram (f : Slate → Slate) : (setSlate s f).dram = s.dram := rfl
@[simp] theorem setSlate_calmap (f : Slate → Slate) : (setSlate s f).calmap = s.calmap := rfl
@[simp] theorem setSlate_quartz (f : Slate → Slate) : (setSlate s f).quartz = s.quartz := rfl
@[simp] theorem setSlate_gal (f : Slate → Slate) : (setSlate s f).gal = s.gal := rfl
@[simp] theorem setSlate_ctxs (f : Slate → Slate) : (setSlate s f).ctxs = s.ctxs := rfl
@[simp] theorem setSlate_stripes (f : Slate → Slate) : (setSlate s f).stripes = s.stripes := rfl
@[simp] theorem setSlate_scan (f : Slate → Slate) : (setSlate s f).scan = s.scan := rfl
@[simp] theorem setSlate_obs (f : Slate → Slate) : (setSlate s f).obs = s.obs := rfl
@[simp] theorem setSlate_mica (f : Slate → Slate) : (setSlate s f).mica = s.mica := rfl
@[simp] theorem setSlate_audio (f : Slate → Slate) : (setSlate s f).audio = s.audio := rfl
@[simp] theorem setSlate_ctrl (f : Slate → Slate) : (setSlate s f).ctrl = s.ctrl := rfl
@[simp] theorem setSlate_borax (f : Slate → Slate) : (setSlate s f).borax = s.borax := rfl
@[simp] theorem setSlate_tport (f : Slate → Slate) : (setSlate s f).tport = s.tport := rfl
@[simp] theorem setSlate_links (f : Slate → Slate) : (setSlate s f).links = s.links := rfl
@[simp] theorem setSlate_therm (f : Slate → Slate) : (setSlate s f).therm = s.therm := rfl
@[simp] theorem setSlate_linkCorrected (f : Slate → Slate) : (setSlate s f).linkCorrected = s.linkCorrected := rfl

/-! setQuartz. -/

@[simp] theorem setQuartz_quartz (f : Quartz → Quartz) : (setQuartz s f).quartz = f s.quartz := rfl
@[simp] theorem setQuartz_pending (f : Quartz → Quartz) : (setQuartz s f).pending = s.pending := rfl
@[simp] theorem setQuartz_now (f : Quartz → Quartz) : (setQuartz s f).now = s.now := rfl
@[simp] theorem setQuartz_freeCtr (f : Quartz → Quartz) : (setQuartz s f).freeCtr = s.freeCtr := rfl
@[simp] theorem setQuartz_regs (f : Quartz → Quartz) : (setQuartz s f).regs = s.regs := rfl
@[simp] theorem setQuartz_mem (f : Quartz → Quartz) : (setQuartz s f).mem = s.mem := rfl
@[simp] theorem setQuartz_poison (f : Quartz → Quartz) : (setQuartz s f).poison = s.poison := rfl
@[simp] theorem setQuartz_failed (f : Quartz → Quartz) : (setQuartz s f).failed = s.failed := rfl
@[simp] theorem setQuartz_evNet (f : Quartz → Quartz) : (setQuartz s f).evNet = s.evNet := rfl
@[simp] theorem setQuartz_acks (f : Quartz → Quartz) : (setQuartz s f).acks = s.acks := rfl
@[simp] theorem setQuartz_net (f : Quartz → Quartz) : (setQuartz s f).net = s.net := rfl
@[simp] theorem setQuartz_mesh (f : Quartz → Quartz) : (setQuartz s f).mesh = s.mesh := rfl
@[simp] theorem setQuartz_part (f : Quartz → Quartz) : (setQuartz s f).part = s.part := rfl
@[simp] theorem setQuartz_retired (f : Quartz → Quartz) : (setQuartz s f).retired = s.retired := rfl
@[simp] theorem setQuartz_quarantined (f : Quartz → Quartz) : (setQuartz s f).quarantined = s.quarantined := rfl
@[simp] theorem setQuartz_corrected (f : Quartz → Quartz) : (setQuartz s f).corrected = s.corrected := rfl
@[simp] theorem setQuartz_ctl (f : Quartz → Quartz) : (setQuartz s f).ctl = s.ctl := rfl
@[simp] theorem setQuartz_power (f : Quartz → Quartz) : (setQuartz s f).power = s.power := rfl
@[simp] theorem setQuartz_time (f : Quartz → Quartz) : (setQuartz s f).time = s.time := rfl
@[simp] theorem setQuartz_dram (f : Quartz → Quartz) : (setQuartz s f).dram = s.dram := rfl
@[simp] theorem setQuartz_calmap (f : Quartz → Quartz) : (setQuartz s f).calmap = s.calmap := rfl
@[simp] theorem setQuartz_gal (f : Quartz → Quartz) : (setQuartz s f).gal = s.gal := rfl
@[simp] theorem setQuartz_ctxs (f : Quartz → Quartz) : (setQuartz s f).ctxs = s.ctxs := rfl
@[simp] theorem setQuartz_stripes (f : Quartz → Quartz) : (setQuartz s f).stripes = s.stripes := rfl
@[simp] theorem setQuartz_scan (f : Quartz → Quartz) : (setQuartz s f).scan = s.scan := rfl
@[simp] theorem setQuartz_obs (f : Quartz → Quartz) : (setQuartz s f).obs = s.obs := rfl
@[simp] theorem setQuartz_mica (f : Quartz → Quartz) : (setQuartz s f).mica = s.mica := rfl
@[simp] theorem setQuartz_audio (f : Quartz → Quartz) : (setQuartz s f).audio = s.audio := rfl
@[simp] theorem setQuartz_ctrl (f : Quartz → Quartz) : (setQuartz s f).ctrl = s.ctrl := rfl
@[simp] theorem setQuartz_borax (f : Quartz → Quartz) : (setQuartz s f).borax = s.borax := rfl
@[simp] theorem setQuartz_slate (f : Quartz → Quartz) : (setQuartz s f).slate = s.slate := rfl
@[simp] theorem setQuartz_tport (f : Quartz → Quartz) : (setQuartz s f).tport = s.tport := rfl
@[simp] theorem setQuartz_links (f : Quartz → Quartz) : (setQuartz s f).links = s.links := rfl
@[simp] theorem setQuartz_therm (f : Quartz → Quartz) : (setQuartz s f).therm = s.therm := rfl
@[simp] theorem setQuartz_linkCorrected (f : Quartz → Quartz) : (setQuartz s f).linkCorrected = s.linkCorrected := rfl

/-! setQPort. -/

@[simp] theorem setQPort_pending (p : Fin 4) (f : QPort → QPort) : (setQPort s p f).pending = s.pending := rfl
@[simp] theorem setQPort_now (p : Fin 4) (f : QPort → QPort) : (setQPort s p f).now = s.now := rfl
@[simp] theorem setQPort_freeCtr (p : Fin 4) (f : QPort → QPort) : (setQPort s p f).freeCtr = s.freeCtr := rfl
@[simp] theorem setQPort_regs (p : Fin 4) (f : QPort → QPort) : (setQPort s p f).regs = s.regs := rfl
@[simp] theorem setQPort_mem (p : Fin 4) (f : QPort → QPort) : (setQPort s p f).mem = s.mem := rfl
@[simp] theorem setQPort_poison (p : Fin 4) (f : QPort → QPort) : (setQPort s p f).poison = s.poison := rfl
@[simp] theorem setQPort_failed (p : Fin 4) (f : QPort → QPort) : (setQPort s p f).failed = s.failed := rfl
@[simp] theorem setQPort_evNet (p : Fin 4) (f : QPort → QPort) : (setQPort s p f).evNet = s.evNet := rfl
@[simp] theorem setQPort_acks (p : Fin 4) (f : QPort → QPort) : (setQPort s p f).acks = s.acks := rfl
@[simp] theorem setQPort_net (p : Fin 4) (f : QPort → QPort) : (setQPort s p f).net = s.net := rfl
@[simp] theorem setQPort_mesh (p : Fin 4) (f : QPort → QPort) : (setQPort s p f).mesh = s.mesh := rfl
@[simp] theorem setQPort_part (p : Fin 4) (f : QPort → QPort) : (setQPort s p f).part = s.part := rfl
@[simp] theorem setQPort_retired (p : Fin 4) (f : QPort → QPort) : (setQPort s p f).retired = s.retired := rfl
@[simp] theorem setQPort_quarantined (p : Fin 4) (f : QPort → QPort) : (setQPort s p f).quarantined = s.quarantined := rfl
@[simp] theorem setQPort_corrected (p : Fin 4) (f : QPort → QPort) : (setQPort s p f).corrected = s.corrected := rfl
@[simp] theorem setQPort_ctl (p : Fin 4) (f : QPort → QPort) : (setQPort s p f).ctl = s.ctl := rfl
@[simp] theorem setQPort_power (p : Fin 4) (f : QPort → QPort) : (setQPort s p f).power = s.power := rfl
@[simp] theorem setQPort_time (p : Fin 4) (f : QPort → QPort) : (setQPort s p f).time = s.time := rfl
@[simp] theorem setQPort_dram (p : Fin 4) (f : QPort → QPort) : (setQPort s p f).dram = s.dram := rfl
@[simp] theorem setQPort_calmap (p : Fin 4) (f : QPort → QPort) : (setQPort s p f).calmap = s.calmap := rfl
@[simp] theorem setQPort_gal (p : Fin 4) (f : QPort → QPort) : (setQPort s p f).gal = s.gal := rfl
@[simp] theorem setQPort_ctxs (p : Fin 4) (f : QPort → QPort) : (setQPort s p f).ctxs = s.ctxs := rfl
@[simp] theorem setQPort_stripes (p : Fin 4) (f : QPort → QPort) : (setQPort s p f).stripes = s.stripes := rfl
@[simp] theorem setQPort_scan (p : Fin 4) (f : QPort → QPort) : (setQPort s p f).scan = s.scan := rfl
@[simp] theorem setQPort_obs (p : Fin 4) (f : QPort → QPort) : (setQPort s p f).obs = s.obs := rfl
@[simp] theorem setQPort_mica (p : Fin 4) (f : QPort → QPort) : (setQPort s p f).mica = s.mica := rfl
@[simp] theorem setQPort_audio (p : Fin 4) (f : QPort → QPort) : (setQPort s p f).audio = s.audio := rfl
@[simp] theorem setQPort_ctrl (p : Fin 4) (f : QPort → QPort) : (setQPort s p f).ctrl = s.ctrl := rfl
@[simp] theorem setQPort_borax (p : Fin 4) (f : QPort → QPort) : (setQPort s p f).borax = s.borax := rfl
@[simp] theorem setQPort_slate (p : Fin 4) (f : QPort → QPort) : (setQPort s p f).slate = s.slate := rfl
@[simp] theorem setQPort_tport (p : Fin 4) (f : QPort → QPort) : (setQPort s p f).tport = s.tport := rfl
@[simp] theorem setQPort_links (p : Fin 4) (f : QPort → QPort) : (setQPort s p f).links = s.links := rfl
@[simp] theorem setQPort_therm (p : Fin 4) (f : QPort → QPort) : (setQPort s p f).therm = s.therm := rfl
@[simp] theorem setQPort_linkCorrected (p : Fin 4) (f : QPort → QPort) : (setQPort s p f).linkCorrected = s.linkCorrected := rfl

/-! setChan. -/

@[simp] theorem setChan_pending (c : Fin 32) (f : Chan → Chan) : (setChan s c f).pending = s.pending := rfl
@[simp] theorem setChan_now (c : Fin 32) (f : Chan → Chan) : (setChan s c f).now = s.now := rfl
@[simp] theorem setChan_freeCtr (c : Fin 32) (f : Chan → Chan) : (setChan s c f).freeCtr = s.freeCtr := rfl
@[simp] theorem setChan_regs (c : Fin 32) (f : Chan → Chan) : (setChan s c f).regs = s.regs := rfl
@[simp] theorem setChan_mem (c : Fin 32) (f : Chan → Chan) : (setChan s c f).mem = s.mem := rfl
@[simp] theorem setChan_poison (c : Fin 32) (f : Chan → Chan) : (setChan s c f).poison = s.poison := rfl
@[simp] theorem setChan_failed (c : Fin 32) (f : Chan → Chan) : (setChan s c f).failed = s.failed := rfl
@[simp] theorem setChan_evNet (c : Fin 32) (f : Chan → Chan) : (setChan s c f).evNet = s.evNet := rfl
@[simp] theorem setChan_acks (c : Fin 32) (f : Chan → Chan) : (setChan s c f).acks = s.acks := rfl
@[simp] theorem setChan_net (c : Fin 32) (f : Chan → Chan) : (setChan s c f).net = s.net := rfl
@[simp] theorem setChan_mesh (c : Fin 32) (f : Chan → Chan) : (setChan s c f).mesh = s.mesh := rfl
@[simp] theorem setChan_part (c : Fin 32) (f : Chan → Chan) : (setChan s c f).part = s.part := rfl
@[simp] theorem setChan_retired (c : Fin 32) (f : Chan → Chan) : (setChan s c f).retired = s.retired := rfl
@[simp] theorem setChan_quarantined (c : Fin 32) (f : Chan → Chan) : (setChan s c f).quarantined = s.quarantined := rfl
@[simp] theorem setChan_corrected (c : Fin 32) (f : Chan → Chan) : (setChan s c f).corrected = s.corrected := rfl
@[simp] theorem setChan_ctl (c : Fin 32) (f : Chan → Chan) : (setChan s c f).ctl = s.ctl := rfl
@[simp] theorem setChan_power (c : Fin 32) (f : Chan → Chan) : (setChan s c f).power = s.power := rfl
@[simp] theorem setChan_time (c : Fin 32) (f : Chan → Chan) : (setChan s c f).time = s.time := rfl
@[simp] theorem setChan_calmap (c : Fin 32) (f : Chan → Chan) : (setChan s c f).calmap = s.calmap := rfl
@[simp] theorem setChan_quartz (c : Fin 32) (f : Chan → Chan) : (setChan s c f).quartz = s.quartz := rfl
@[simp] theorem setChan_gal (c : Fin 32) (f : Chan → Chan) : (setChan s c f).gal = s.gal := rfl
@[simp] theorem setChan_ctxs (c : Fin 32) (f : Chan → Chan) : (setChan s c f).ctxs = s.ctxs := rfl
@[simp] theorem setChan_stripes (c : Fin 32) (f : Chan → Chan) : (setChan s c f).stripes = s.stripes := rfl
@[simp] theorem setChan_scan (c : Fin 32) (f : Chan → Chan) : (setChan s c f).scan = s.scan := rfl
@[simp] theorem setChan_obs (c : Fin 32) (f : Chan → Chan) : (setChan s c f).obs = s.obs := rfl
@[simp] theorem setChan_mica (c : Fin 32) (f : Chan → Chan) : (setChan s c f).mica = s.mica := rfl
@[simp] theorem setChan_audio (c : Fin 32) (f : Chan → Chan) : (setChan s c f).audio = s.audio := rfl
@[simp] theorem setChan_ctrl (c : Fin 32) (f : Chan → Chan) : (setChan s c f).ctrl = s.ctrl := rfl
@[simp] theorem setChan_borax (c : Fin 32) (f : Chan → Chan) : (setChan s c f).borax = s.borax := rfl
@[simp] theorem setChan_slate (c : Fin 32) (f : Chan → Chan) : (setChan s c f).slate = s.slate := rfl
@[simp] theorem setChan_tport (c : Fin 32) (f : Chan → Chan) : (setChan s c f).tport = s.tport := rfl
@[simp] theorem setChan_links (c : Fin 32) (f : Chan → Chan) : (setChan s c f).links = s.links := rfl
@[simp] theorem setChan_therm (c : Fin 32) (f : Chan → Chan) : (setChan s c f).therm = s.therm := rfl
@[simp] theorem setChan_linkCorrected (c : Fin 32) (f : Chan → Chan) : (setChan s c f).linkCorrected = s.linkCorrected := rfl

/-! setLinks. -/

@[simp] theorem setLinks_links (f : Links → Links) : (setLinks s f).links = f s.links := rfl
@[simp] theorem setLinks_pending (f : Links → Links) : (setLinks s f).pending = s.pending := rfl
@[simp] theorem setLinks_now (f : Links → Links) : (setLinks s f).now = s.now := rfl
@[simp] theorem setLinks_freeCtr (f : Links → Links) : (setLinks s f).freeCtr = s.freeCtr := rfl
@[simp] theorem setLinks_regs (f : Links → Links) : (setLinks s f).regs = s.regs := rfl
@[simp] theorem setLinks_mem (f : Links → Links) : (setLinks s f).mem = s.mem := rfl
@[simp] theorem setLinks_poison (f : Links → Links) : (setLinks s f).poison = s.poison := rfl
@[simp] theorem setLinks_failed (f : Links → Links) : (setLinks s f).failed = s.failed := rfl
@[simp] theorem setLinks_evNet (f : Links → Links) : (setLinks s f).evNet = s.evNet := rfl
@[simp] theorem setLinks_acks (f : Links → Links) : (setLinks s f).acks = s.acks := rfl
@[simp] theorem setLinks_net (f : Links → Links) : (setLinks s f).net = s.net := rfl
@[simp] theorem setLinks_mesh (f : Links → Links) : (setLinks s f).mesh = s.mesh := rfl
@[simp] theorem setLinks_part (f : Links → Links) : (setLinks s f).part = s.part := rfl
@[simp] theorem setLinks_retired (f : Links → Links) : (setLinks s f).retired = s.retired := rfl
@[simp] theorem setLinks_quarantined (f : Links → Links) : (setLinks s f).quarantined = s.quarantined := rfl
@[simp] theorem setLinks_corrected (f : Links → Links) : (setLinks s f).corrected = s.corrected := rfl
@[simp] theorem setLinks_ctl (f : Links → Links) : (setLinks s f).ctl = s.ctl := rfl
@[simp] theorem setLinks_power (f : Links → Links) : (setLinks s f).power = s.power := rfl
@[simp] theorem setLinks_time (f : Links → Links) : (setLinks s f).time = s.time := rfl
@[simp] theorem setLinks_dram (f : Links → Links) : (setLinks s f).dram = s.dram := rfl
@[simp] theorem setLinks_calmap (f : Links → Links) : (setLinks s f).calmap = s.calmap := rfl
@[simp] theorem setLinks_quartz (f : Links → Links) : (setLinks s f).quartz = s.quartz := rfl
@[simp] theorem setLinks_gal (f : Links → Links) : (setLinks s f).gal = s.gal := rfl
@[simp] theorem setLinks_ctxs (f : Links → Links) : (setLinks s f).ctxs = s.ctxs := rfl
@[simp] theorem setLinks_stripes (f : Links → Links) : (setLinks s f).stripes = s.stripes := rfl
@[simp] theorem setLinks_scan (f : Links → Links) : (setLinks s f).scan = s.scan := rfl
@[simp] theorem setLinks_obs (f : Links → Links) : (setLinks s f).obs = s.obs := rfl
@[simp] theorem setLinks_mica (f : Links → Links) : (setLinks s f).mica = s.mica := rfl
@[simp] theorem setLinks_audio (f : Links → Links) : (setLinks s f).audio = s.audio := rfl
@[simp] theorem setLinks_ctrl (f : Links → Links) : (setLinks s f).ctrl = s.ctrl := rfl
@[simp] theorem setLinks_borax (f : Links → Links) : (setLinks s f).borax = s.borax := rfl
@[simp] theorem setLinks_slate (f : Links → Links) : (setLinks s f).slate = s.slate := rfl
@[simp] theorem setLinks_tport (f : Links → Links) : (setLinks s f).tport = s.tport := rfl
@[simp] theorem setLinks_therm (f : Links → Links) : (setLinks s f).therm = s.therm := rfl
@[simp] theorem setLinks_linkCorrected (f : Links → Links) : (setLinks s f).linkCorrected = s.linkCorrected := rfl

/-! setTport. -/

@[simp] theorem setTport_tport (f : TimePort → TimePort) : (setTport s f).tport = f s.tport := rfl
@[simp] theorem setTport_pending (f : TimePort → TimePort) : (setTport s f).pending = s.pending := rfl
@[simp] theorem setTport_now (f : TimePort → TimePort) : (setTport s f).now = s.now := rfl
@[simp] theorem setTport_freeCtr (f : TimePort → TimePort) : (setTport s f).freeCtr = s.freeCtr := rfl
@[simp] theorem setTport_regs (f : TimePort → TimePort) : (setTport s f).regs = s.regs := rfl
@[simp] theorem setTport_mem (f : TimePort → TimePort) : (setTport s f).mem = s.mem := rfl
@[simp] theorem setTport_poison (f : TimePort → TimePort) : (setTport s f).poison = s.poison := rfl
@[simp] theorem setTport_failed (f : TimePort → TimePort) : (setTport s f).failed = s.failed := rfl
@[simp] theorem setTport_evNet (f : TimePort → TimePort) : (setTport s f).evNet = s.evNet := rfl
@[simp] theorem setTport_acks (f : TimePort → TimePort) : (setTport s f).acks = s.acks := rfl
@[simp] theorem setTport_net (f : TimePort → TimePort) : (setTport s f).net = s.net := rfl
@[simp] theorem setTport_mesh (f : TimePort → TimePort) : (setTport s f).mesh = s.mesh := rfl
@[simp] theorem setTport_part (f : TimePort → TimePort) : (setTport s f).part = s.part := rfl
@[simp] theorem setTport_retired (f : TimePort → TimePort) : (setTport s f).retired = s.retired := rfl
@[simp] theorem setTport_quarantined (f : TimePort → TimePort) : (setTport s f).quarantined = s.quarantined := rfl
@[simp] theorem setTport_corrected (f : TimePort → TimePort) : (setTport s f).corrected = s.corrected := rfl
@[simp] theorem setTport_ctl (f : TimePort → TimePort) : (setTport s f).ctl = s.ctl := rfl
@[simp] theorem setTport_power (f : TimePort → TimePort) : (setTport s f).power = s.power := rfl
@[simp] theorem setTport_time (f : TimePort → TimePort) : (setTport s f).time = s.time := rfl
@[simp] theorem setTport_dram (f : TimePort → TimePort) : (setTport s f).dram = s.dram := rfl
@[simp] theorem setTport_calmap (f : TimePort → TimePort) : (setTport s f).calmap = s.calmap := rfl
@[simp] theorem setTport_quartz (f : TimePort → TimePort) : (setTport s f).quartz = s.quartz := rfl
@[simp] theorem setTport_gal (f : TimePort → TimePort) : (setTport s f).gal = s.gal := rfl
@[simp] theorem setTport_ctxs (f : TimePort → TimePort) : (setTport s f).ctxs = s.ctxs := rfl
@[simp] theorem setTport_stripes (f : TimePort → TimePort) : (setTport s f).stripes = s.stripes := rfl
@[simp] theorem setTport_scan (f : TimePort → TimePort) : (setTport s f).scan = s.scan := rfl
@[simp] theorem setTport_obs (f : TimePort → TimePort) : (setTport s f).obs = s.obs := rfl
@[simp] theorem setTport_mica (f : TimePort → TimePort) : (setTport s f).mica = s.mica := rfl
@[simp] theorem setTport_audio (f : TimePort → TimePort) : (setTport s f).audio = s.audio := rfl
@[simp] theorem setTport_ctrl (f : TimePort → TimePort) : (setTport s f).ctrl = s.ctrl := rfl
@[simp] theorem setTport_borax (f : TimePort → TimePort) : (setTport s f).borax = s.borax := rfl
@[simp] theorem setTport_slate (f : TimePort → TimePort) : (setTport s f).slate = s.slate := rfl
@[simp] theorem setTport_links (f : TimePort → TimePort) : (setTport s f).links = s.links := rfl
@[simp] theorem setTport_therm (f : TimePort → TimePort) : (setTport s f).therm = s.therm := rfl
@[simp] theorem setTport_linkCorrected (f : TimePort → TimePort) : (setTport s f).linkCorrected = s.linkCorrected := rfl

/-! setTherm. -/

@[simp] theorem setTherm_therm (f : Therm → Therm) : (setTherm s f).therm = f s.therm := rfl
@[simp] theorem setTherm_pending (f : Therm → Therm) : (setTherm s f).pending = s.pending := rfl
@[simp] theorem setTherm_now (f : Therm → Therm) : (setTherm s f).now = s.now := rfl
@[simp] theorem setTherm_freeCtr (f : Therm → Therm) : (setTherm s f).freeCtr = s.freeCtr := rfl
@[simp] theorem setTherm_regs (f : Therm → Therm) : (setTherm s f).regs = s.regs := rfl
@[simp] theorem setTherm_mem (f : Therm → Therm) : (setTherm s f).mem = s.mem := rfl
@[simp] theorem setTherm_poison (f : Therm → Therm) : (setTherm s f).poison = s.poison := rfl
@[simp] theorem setTherm_failed (f : Therm → Therm) : (setTherm s f).failed = s.failed := rfl
@[simp] theorem setTherm_evNet (f : Therm → Therm) : (setTherm s f).evNet = s.evNet := rfl
@[simp] theorem setTherm_acks (f : Therm → Therm) : (setTherm s f).acks = s.acks := rfl
@[simp] theorem setTherm_net (f : Therm → Therm) : (setTherm s f).net = s.net := rfl
@[simp] theorem setTherm_mesh (f : Therm → Therm) : (setTherm s f).mesh = s.mesh := rfl
@[simp] theorem setTherm_part (f : Therm → Therm) : (setTherm s f).part = s.part := rfl
@[simp] theorem setTherm_retired (f : Therm → Therm) : (setTherm s f).retired = s.retired := rfl
@[simp] theorem setTherm_quarantined (f : Therm → Therm) : (setTherm s f).quarantined = s.quarantined := rfl
@[simp] theorem setTherm_corrected (f : Therm → Therm) : (setTherm s f).corrected = s.corrected := rfl
@[simp] theorem setTherm_ctl (f : Therm → Therm) : (setTherm s f).ctl = s.ctl := rfl
@[simp] theorem setTherm_power (f : Therm → Therm) : (setTherm s f).power = s.power := rfl
@[simp] theorem setTherm_time (f : Therm → Therm) : (setTherm s f).time = s.time := rfl
@[simp] theorem setTherm_dram (f : Therm → Therm) : (setTherm s f).dram = s.dram := rfl
@[simp] theorem setTherm_calmap (f : Therm → Therm) : (setTherm s f).calmap = s.calmap := rfl
@[simp] theorem setTherm_quartz (f : Therm → Therm) : (setTherm s f).quartz = s.quartz := rfl
@[simp] theorem setTherm_gal (f : Therm → Therm) : (setTherm s f).gal = s.gal := rfl
@[simp] theorem setTherm_ctxs (f : Therm → Therm) : (setTherm s f).ctxs = s.ctxs := rfl
@[simp] theorem setTherm_stripes (f : Therm → Therm) : (setTherm s f).stripes = s.stripes := rfl
@[simp] theorem setTherm_scan (f : Therm → Therm) : (setTherm s f).scan = s.scan := rfl
@[simp] theorem setTherm_obs (f : Therm → Therm) : (setTherm s f).obs = s.obs := rfl
@[simp] theorem setTherm_mica (f : Therm → Therm) : (setTherm s f).mica = s.mica := rfl
@[simp] theorem setTherm_audio (f : Therm → Therm) : (setTherm s f).audio = s.audio := rfl
@[simp] theorem setTherm_ctrl (f : Therm → Therm) : (setTherm s f).ctrl = s.ctrl := rfl
@[simp] theorem setTherm_borax (f : Therm → Therm) : (setTherm s f).borax = s.borax := rfl
@[simp] theorem setTherm_slate (f : Therm → Therm) : (setTherm s f).slate = s.slate := rfl
@[simp] theorem setTherm_tport (f : Therm → Therm) : (setTherm s f).tport = s.tport := rfl
@[simp] theorem setTherm_links (f : Therm → Therm) : (setTherm s f).links = s.links := rfl
@[simp] theorem setTherm_linkCorrected (f : Therm → Therm) : (setTherm s f).linkCorrected = s.linkCorrected := rfl

end

end Sys2Proof.Machine
end

