-- ==== Sys2Proof/Tests/Slice0.lean ====
section
/-! SUPPORT. Small states and named theorems: each check of WellFormed refuses an ill-formed instruction, and the hypotheses of each statement are met together by a concrete state. -/

namespace Sys2Proof.Tests

open Machine Says

-- One theorem at a time: each kernel evaluation would otherwise hold a thread of its own while it waits for those before it.
set_option Elab.async false

/-! Ill-formed instructions, one for each check (R97, R99 to R101, R106, R142, R143, R145, R161). -/

/-- A register-format ray instruction with every field 0. -/
def rr : RayReg := ⟨0, 0, 0, 0, false, false, false, 0, .f32, 0⟩
/-- An immediate-format ray instruction with every field 0. -/
def ri : RayImm := ⟨0, 0, false, false, 0, .f32, 0, 0⟩
/-- The context all ray tests use. -/
def cx : CtxId := ⟨0, 0, 0, 0⟩
/-- A register-format frame instruction with every field 0. -/
def fr : FrReg := ⟨0, 0, 0, 0, false, 0, 0⟩
/-- An immediate-format frame instruction with every field 0. -/
def fi : FrImm := ⟨0, 0, 0, false, 0, 0⟩

theorem test_wf_scalar : Instr.wf (.rayAdd cx { rr with a := 16, sa := true }) = false := by decide
theorem test_wf_type : Instr.wf (.rayAnd cx rr) = false := by decide
theorem test_wf_one_operand : Instr.wf (.rayNeg cx { rr with b := 1 }) = false := by decide
theorem test_wf_unorm_imm : Instr.wf (.rayAddi cx { ri with ty := .u10, imm := 1024 }) = false := by decide
theorem test_wf_movk : Instr.wf (.rayMovk cx { rr with a := 8 }) = false := by decide
theorem test_wf_cvt : Instr.wf (.rayCvt cx { rr with func := 4 }) = false := by decide
theorem test_wf_sel : Instr.wf (.raySel cx { rr with func := 8 }) = false := by decide
theorem test_wf_cmp_p0 : Instr.wf (.rayCmp cx rr) = false := by decide
theorem test_wf_cmp_ord : Instr.wf (.rayCmp cx { rr with d := 1, func := 6, ty := .i32 }) = false := by decide
theorem test_wf_pand : Instr.wf (.rayPand cx { rr with d := 1, pidx := 1 }) = false := by decide
theorem test_wf_smovi : Instr.wf (.raySmovi cx { ri with d := 16 }) = false := by decide
theorem test_wf_branch : Instr.wf (.rayBrany cx ⟨1, false, 0, 0⟩) = false := by decide
theorem test_wf_loop : Instr.wf (.rayLoop cx ⟨16, false, 0, 0⟩) = false := by decide
theorem test_wf_ldcv : Instr.wf (.rayLdcv cx { ri with sa := true }) = false := by decide
theorem test_wf_smp : Instr.wf (.raySmp cx { ri with imm := 65 * 2 ^ 24 }) = false := by decide
theorem test_wf_emit : Instr.wf (.rayEmit cx { rr with ty := .f16 }) = false := by decide
theorem test_wf_end : Instr.wf (.rayEnd cx { rr with pneg := true }) = false := by decide
theorem test_wf_g : Instr.wf (.fpAdd .a { fr with d := 32 }) = false := by decide
theorem test_wf_imm_x : Instr.wf (.fpAddi .a { fi with x := 1 }) = false := by decide
theorem test_wf_predicate : Instr.wf (.fpCmp .a fr) = false := by decide
theorem test_wf_fpand : Instr.wf (.fpPand .a { fr with d := 1, c := 32 }) = false := by decide
theorem test_wf_cmpi : Instr.wf (.fpCmpi .a { fi with d := 1, x := 1 }) = false := by decide
theorem test_wf_wrblk : Instr.wf (.fpWrblk .a { fr with func := 33 }) = false := by decide
theorem test_wf_ret : Instr.wf (.fpRet .a ⟨0, false, 0, 1⟩) = false := by decide
theorem test_wf_waite : Instr.wf (.fpWaite .a { fr with c := 8 }) = false := by decide
theorem test_wf_tset : Instr.wf (.fpTset .a { fr with func := 4 }) = false := by decide
theorem test_wf_launch : Instr.wf (.fpLaunch .a fi) = false := by decide
theorem test_wf_dma : Instr.wf (.fpDma .a { fi with imm := 4 }) = false := by decide
theorem test_wf_brxj : Instr.wf (.fpBrxj .a { fi with imm := 5 }) = false := by decide
theorem test_wf_pwr : Instr.wf (.fpPwr .a { fi with imm := 0x4000 }) = false := by decide
theorem test_wf_sem : Instr.wf (.fpSemacq .a { fi with imm := 23 }) = false := by decide
theorem test_wf_ckpt : Instr.wf (.fpCkpt .a { fi with a := 1 }) = false := by decide

/-- An ill-formed word is refused. -/
theorem test_refused : exec (.rayAnd cx rr) State.reset = .refused .illFormed := rfl

/-! The states. -/

/-- Every region in service, the P9 in service, nothing held. -/
def up : State :=
  { State.reset with ctl := Vector.replicate 16 { phase := .on }, power := { mode := .run, refclkEn := true, dramPwrEn := true }, slate := { boot := .done } }

/-- Flint-A holds the lease; Flint-A is `x`, Flint-B is `y`. -/
def leads (x y : Flint) : State :=
  { up with ctrl := { fl := #v[x, y] }, regs := [(sltLeaseStatus, 0x40000000)] }

/-- A sequencer that runs the word at PC 0 of two. -/
def seqRun : Flint := { st := .running, code := [0, 0] }

/-- Flint-A leads and runs. -/
def fpS : State := leads seqRun {}

/-! The frame program. -/

theorem witness_FrameArithmeticWritesG :
    fpReady fpS .a fr.pneg fr.pidx ∧ fpReady fpS .a false 0 ∧ Instr.wf (.fpAdd .a { fr with d := 31, a := 31, b := 31 }) = true ∧ Instr.wf (.fpSub .a fr) = true ∧
    Instr.wf (.fpAnd .a fr) = true ∧ Instr.wf (.fpOr .a fr) = true ∧ Instr.wf (.fpXor .a fr) = true ∧ Instr.wf (.fpShl .a fr) = true ∧
    Instr.wf (.fpShr .a fr) = true ∧ Instr.wf (.fpMul .a fr) = true ∧ Instr.wf (.fpMov .a fr) = true ∧ Instr.wf (.fpAddi .a fi) = true ∧
    Instr.wf (.fpAndi .a fi) = true ∧ Instr.wf (.fpOri .a fi) = true ∧ Instr.wf (.fpXori .a fi) = true ∧ Instr.wf (.fpShli .a fi) = true ∧
    Instr.wf (.fpShri .a fi) = true ∧ Instr.wf (.fpMovi .a { fi with d := 31 }) = true ∧ Instr.wf (.fpMovhi .a fi) = true := by
  unfold fpReady; decide +kernel

theorem witness_FrameComparesWriteP :
    fpReady fpS .a false 0 ∧ Instr.wf (.fpCmp .a { fr with d := 7, func := 15 }) = true ∧ Instr.wf (.fpPand .a { fr with d := 1 }) = true ∧
    Instr.wf (.fpPor .a { fr with d := 1 }) = true ∧ Instr.wf (.fpPxor .a { fr with d := 1 }) = true ∧ Instr.wf (.fpPnot .a { fr with d := 7 }) = true ∧
    Instr.wf (.fpCmpi .a { fi with d := 1, x := 60 }) = true := by
  unfold fpReady; decide +kernel

/-- Immediate 65528: the last 8 bytes of data memory; 65532: the last 4. -/
theorem witness_FrameDataMemory :
    fpReady fpS .a false 0 ∧ (let x := flintOf fpS .a
      Instr.wf (.fpLd .a { fi with imm := 65528 }) = true ∧ Instr.wf (.fpSt .a { fi with imm := 65528 }) = true ∧
      inDataMemory (gRead x 0 + (65528 : Word).signExtend 64) 8 8 ∧ ¬inDataMemory (gRead x 0 + (65532 : Word).signExtend 64) 8 8 ∧
      Instr.wf (.fpLd32 .a { fi with imm := 65532 }) = true ∧ Instr.wf (.fpSt32 .a { fi with imm := 65532 }) = true ∧
      inDataMemory (gRead x 0 + (65532 : Word).signExtend 64) 4 4 ∧ ¬inDataMemory (gRead x 0 + (2 : Word).signExtend 64) 4 4) := by
  unfold fpReady inDataMemory; decide +kernel

theorem witness_FrameControlFlow :
    fpReady fpS .a false 0 ∧ Instr.wf (.fpBr .a ⟨0, false, 0, 1⟩) = true ∧ Instr.wf (.fpCall .a ⟨0, false, 0, 1⟩) = true ∧
    Instr.wf (.fpLoop .a ⟨31, false, 0, 1⟩) = true ∧ Instr.wf (.fpRet .a ⟨0, false, 0, 0⟩) = true ∧
    ((flintOf fpS .a).pc : Int) + (1 : Word).toInt = 1 ∧ 1 < (flintOf fpS .a).code.length ∧ (flintOf fpS .a).stack = [] ∧
    (let s := leads { seqRun with stack := [1] } {}
     fpReady s .a false 0 ∧ (flintOf s .a).stack = 1 :: []) := by
  unfold fpReady; decide +kernel

theorem witness_FrameSharedMoves :
    holder fpS = some .a ∧ holder fpS ≠ some (otherFlint .a) ∧ (∀ n : Fin 32, (semOf fpS n.val).waiters.Nodup) ∧ fpReady fpS .a false 0 ∧ fpS.ctrl.ready = none ∧
    ({ fpS with ctrl := { fpS.ctrl with ready := some ⟨[0], 0, [], 0⟩ } } : State).ctrl.ready = some ⟨[0], 0, [], 0⟩ := by
  unfold fpReady; decide +kernel

/-- Each of the four reasons not to issue; past the code; an instruction whose predicate is false. -/
theorem witness_FrameInactiveInstructions :
    Instr.wf (.fpAdd .a fr) = true ∧ Instr.wf (.fpCkpt .a fi) = true ∧ (flintOf up .a).mirror = [] ∧
    flintUp State.reset .a = false ∧ (flintOf up .a).st ≠ .running ∧ (flintOf (leads { seqRun with wait := some .fence } {}) .a).wait ≠ none ∧
    (holder fpS ≠ some .b ∧ (flintOf fpS .b).shadow ≠ .inShadow) ∧
    (flintUp fpS .a = true ∧ holder fpS = some .a ∧ (flintOf fpS .a).st = .running ∧ (flintOf fpS .a).wait = none ∧ (flintOf fpS .a).mirror = []) ∧
    (flintOf fpS .a).pc < (flintOf fpS .a).code.length ∧ (let x := flintOf (leads { seqRun with pc := 2 } {}) .a; x.code.length ≤ x.pc) ∧
    fpPred (flintOf fpS .a) 1 = false := by
  decide +kernel

theorem witness_FrameFlagsAndTime :
    fpReady fpS .a false 0 ∧ Instr.wf (.fpEvclr .a fr) = true ∧ Instr.wf (.fpEvset .a fr) = true ∧ Instr.wf (.fpEvrd .a fr) = true ∧
    Instr.wf (.fpRdtime .a fr) = true ∧ Instr.wf (.fpRdpos .a fr) = true ∧ Instr.wf (.fpTset .a { fr with func := 3 }) = true := by
  unfold fpReady; decide +kernel

theorem witness_FrameWaits :
    fpReady fpS .a false 0 ∧ Instr.wf (.fpWaite .a { fr with c := 7, func := 3 }) = true ∧ Instr.wf (.fpWaitt .a { fr with func := 1 }) = true ∧
    bitAt (1 : Byte).toNat 0 = true ∧ Instr.wf (.fpWaitt .a fr) = true ∧ bitAt (0 : Byte).toNat 0 = false ∧ Instr.wf (.fpWaitl .a fr) = true := by
  unfold fpReady; decide +kernel

theorem witness_FrameWaitsEnd :
    (flintOf (leads { seqRun with wait := some (.events 1 false false 1 1 (some 5)) } {}) .a).wait = some (.events 1 false false 1 1 (some 5)) ∧
    (flintOf (leads { seqRun with wait := some (.time 5) } {}) .a).wait = some (.time 5) ∧
    (flintOf (leads { seqRun with wait := some (.delay 5) } {}) .a).wait = some (.delay 5) ∧
    (let s := leads { seqRun with timers := Vector.replicate 4 9 } {}
     flintUp s .a = true ∧ (∀ t : Fin 4, (flintOf s .a).timers[t] ≠ 0) ∧ (flintOf s .a).wait = none) ∧
    (flintUp fpS .a = true ∧ (flintOf fpS .a).st = .running ∧ (flintOf fpS .a).shadow ≠ .inShadow ∧ getF fpS (flaWdog (flintRegion .a)) 0 8 ≠ 0) ∧
    (let s : State := { fpS with now := 50000000 }
     (flintOf s .a).wdogAt + 1000000 * getF s (flaWdog (flintRegion .a)) 0 8 ≤ s.now) ∧ (5 : Nat) ≤ ({ up with now := 5 } : State).now := by
  decide +kernel

/-- g1 names Quartz's window (a region in service), g2 an address in no window, g3 the Slate window, g4 a data memory block. -/
def wrS : State :=
  leads { seqRun with g := (((Vector.replicate 32 (0 : DWord)).set 1 0xFFF0300500).set 2 0x1000).set 3 0xFFF0000000 } {}

theorem witness_FrameRegisterWrites :
    (flintOf wrS .a).lapsed = false ∧ fpReady wrS .a false 0 ∧ Instr.wf (.fpWrreg .a { fi with a := 1 }) = true ∧
    writeForbidden ((gRead (flintOf wrS .a) 1).toNat) = false ∧ writeForbidden ((gRead (flintOf wrS .a) 3).toNat) = true ∧
    Instr.wf (.fpWrblk .a { fr with a := 2, func := 1 }) = true ∧ inDataMemory (gRead (flintOf wrS .a) 0) 4 4 ∧
    ¬inDataMemory (gRead (flintOf wrS .a) 2 + 61438) 4 4 ∧ writeForbidden 0x1000 = false ∧
    fpWrites wrS .a + 1 ≤ 256 ∧ 256 < 1 + fpWrites { wrS with acks := List.replicate 256 ⟨.frame .a 0, 0⟩ } .a ∧
    serves wrS 3 = true ∧ serves State.reset 3 = false ∧ lastAction wrS 3 < (flintOf wrS .a).action + 1 ∧
    (let s := { wrS with ctrl := { wrS.ctrl with lease := { lastAction := Vector.replicate 16 1 } } }
     (flintOf s .a).action + 1 ≤ lastAction s 3) ∧ dramRegion wrS 0x1000 = some 10 ∧ lastAction wrS 10 < (flintOf wrS .a).action + 1 := by
  unfold fpReady inDataMemory; decide +kernel

theorem witness_FrameRegisterReads :
    fpReady wrS .a false 0 ∧ Instr.wf (.fpRdreg .a { fi with a := 1 }) = true ∧ windowRegion 0xFFF0200000 = some 2 ∧
    rcAddr 0x300500 = false ∧ 0x300500 / 0x100000 ≠ 2 ∧ dramRegion wrS 0x1D00000000 = none ∧ dramRegion wrS 0 = some 8 ∧
    (let s := leads { seqRun with wait := some (.read 1 7 0 3 0x500) } {}
     (flintOf s .a).wait = some (.read 1 7 0 3 0x500) ∧ (flintOf s (otherFlint .a)).wait = none) ∧
    (flintOf (leads { seqRun with wait := some (.read 1 0 2 3 0x500) } {}) .a).wait = some (.read 1 0 2 3 0x500) := by
  unfold fpReady; decide +kernel

/-- One acknowledgement of each kind is outstanding; Flint-A waits as said. -/
def ackS (w : Option FpWait) : State :=
  { leads { seqRun with wait := w } {} with acks := [⟨.frame .a 0x300500, 2⟩, ⟨.host .a 0, 0⟩, ⟨.layer 0 1 2, 0⟩, ⟨.other 3, 0⟩] }

theorem witness_FenceAndAcknowledgements :
    fpReady fpS .a false 0 ∧ (ackS none).acks.length ≤ 4 ∧ (ackS none).acks[0]? = some ⟨.frame .a 0x300500, 2⟩ ∧ (ackS none).acks[1]? = some ⟨.host .a 0, 0⟩ ∧
    (ackS none).acks[2]? = some ⟨.layer 0 1 2, 0⟩ ∧ (ackS none).acks[3]? = some ⟨.other 3, 0⟩ ∧ (flintOf (ackS none) .a).wait = none ∧
    (flintOf (ackS (some .fence)) .a).wait = some .fence ∧ (flintOf (ackS (some (.ckpt 1 false))) .a).wait = some (.ckpt 1 false) ∧
    (flintOf (ackS (some (.write [(0, 0)]))) .a).wait = some (.write [(0, 0)]) := by
  unfold fpReady; decide +kernel

theorem witness_LaunchSendsItsRecord :
    fpReady fpS .a false 0 ∧ Instr.wf (.fpLaunch .a { fi with imm := 1024 }) = true ∧ (flintOf fpS .a).lapsed = false ∧
    inDataMemory (gRead (flintOf fpS .a) 0) 8 96 ∧ ¬inDataMemory (4 : DWord) 8 96 ∧ launchBlockOk (dmemBytes (flintOf fpS .a) 0 96) = true ∧
    launchBlockOk (List.replicate 96 0xFF) = false ∧ ((List.finRange 4).filter fun g => serves fpS (galRegion g)) ≠ [] ∧
    ((List.finRange 4).filter fun g => serves { fpS with ctl := fpS.ctl.set 4 {} |>.set 5 {} |>.set 6 {} |>.set 7 {} } (galRegion g)) = [] ∧
    (∀ g : Fin 4, (fpS.gal[g]).queue.length < 8) ∧
    (let r : LaunchRec := ⟨0, 0, 0, 1, 0, 0, 0, 0, [], 0⟩
     8 ≤ (({ fpS with gal := Vector.replicate 4 { queue := List.replicate 8 r } } : State).gal[(0 : Fin 4)]).queue.length) ∧
    (flintOf fpS .a).wait = none ∧ serves fpS (galRegion 0) = true ∧ serves State.reset (galRegion 0) = false ∧
    (let r : LaunchRec := ⟨0, 0, 0, 1, 0, 0, 0, 0, List.replicate 16 0, 0⟩
     launchRange fpS r = false ∧ launchRange fpS { r with first := 1023, count := 1023 } = true ∧
     (flintOf (leads { seqRun with wait := some (.launch r) } {}) .a).wait = some (.launch r)) := by
  unfold fpReady inDataMemory; decide +kernel

theorem witness_FrameCommandsAreActions :
    (flintOf fpS .a).lapsed = false ∧ fpReady fpS .a false 0 ∧ Instr.wf (.fpBind .a fr) = true ∧ Instr.wf (.fpPwr .a { fi with imm := 0x8000 }) = true ∧
    Instr.wf (.fpBrxj .a { fi with imm := 4 }) = true ∧ Instr.wf (.fpDma .a { fi with imm := 3 }) = true ∧
    serves fpS 3 = true ∧ lastAction fpS 3 < (flintOf fpS .a).action + 1 ∧ lastAction fpS 0 < (flintOf fpS .a).action + 1 ∧
    serves fpS 12 = true ∧ (fpS.borax.jobs[jobEngine fpS 4]).length < 8 ∧ lastAction fpS 12 < (flintOf fpS .a).action + 1 ∧
    inDataMemory (gRead (flintOf fpS .a) 0) 8 32 ∧ (flintOf fpS .a).dma[(3 : Fin 4)] = none ∧ dmaAddrOk (dmaDesc (dmemBytes (flintOf fpS .a) 0 32)) = true ∧
    lastAction fpS (flintRegion .a) < (flintOf fpS .a).action + 1 ∧ dmaAddrOk ⟨-1, 0, 0, 0, 0, true⟩ = false ∧ ¬inDataMemory (4 : DWord) 8 32 ∧
    serves State.reset 3 = false ∧ serves State.reset 12 = false ∧
    (let s := { fpS with ctrl := { fpS.ctrl with lease := { lastAction := Vector.replicate 16 1 } } }
     (flintOf s .a).action + 1 ≤ lastAction s 3 ∧ (flintOf s .a).action + 1 ≤ lastAction s 0) ∧
    8 ≤ (({ fpS with borax := { jobs := Vector.replicate 4 (List.replicate 8 ⟨0, false, 0⟩) } } : State).borax.jobs[(0 : Fin 4)]).length := by
  unfold fpReady inDataMemory; decide +kernel

/-- A descriptor of 8 bytes within data memory. -/
def dma8 : DmaDesc := ⟨0, 8, 8, 2, 2, true⟩

theorem witness_DmaMovesItsWords :
    (flintOf fpS .a).dma[(0 : Fin 4)] = none ∧
    (let s := leads { seqRun with dma := Vector.replicate 4 (some dma8) } {}
     (flintOf s .a).dma[(0 : Fin 4)] = some dma8 ∧ (∀ g, (flintOf s g).wait = none) ∧ dmaCheck s dma8 = 0 ∧ dmaCheck s { dma8 with clean := false } ≠ 0 ∧
     (dmaRead s .a none 2 0 0).isSome = true ∧ dmaRead s .a (some 7) 1 0 0 = none ∧ flashWaits s = false ∧
     flashWaits { s with slate := { s.slate with flashOp := some ⟨.a, some (0, []), none⟩, flashSfdp := { s.slate.flashSfdp with suspend := false } } } = true ∧ (dmaWrite s 2 8 (List.replicate 8 0)).isSome = true) := by
  refine ⟨by decide +kernel, by decide +kernel, ?_, by decide +kernel⟩
  intro g; cases g <;> decide +kernel

theorem witness_FrameSemaphores :
    fpReady fpS .a false 0 ∧ (flintOf fpS .a).lapsed = false ∧ lastAction fpS 0 < (flintOf fpS .a).action + 1 ∧
    Instr.wf (.fpSemacq .a { fi with imm := 31 }) = true ∧ Instr.wf (.fpSemtry .a { fi with d := 1, imm := 24 }) = true ∧
    Instr.wf (.fpSemrel .a { fi with imm := 24 }) = true ∧ (semOf fpS 24).holder = none ∧
    (semOf (setSem fpS 24 fun m => { m with holder := some .frame }) 24).holder = some .frame ∧
    (let s := setSem fpS 24 fun m => { m with holder := some (.host .a) }
     (semOf s 24).holder = some (.host .a) ∧ .frame ∉ (semOf s 24).waiters ∧ fpReady s .a false 0) := by
  unfold fpReady; decide +kernel

theorem witness_CheckpointsHoldTheSequencer :
    fpReady fpS .a false 0 ∧ Instr.wf (.fpCkpt .a { fi with imm := 7 }) = true ∧ (flintOf fpS .a).wait = none ∧
    (let s := leads { seqRun with wait := some (.ckpt 7 true) } {}
     (flintOf s .a).wait = some (.ckpt 7 true) ∧ (flintOf s .b).shadow = .out) ∧
    (let s := leads { seqRun with wait := some (.ckpt 7 true) } { shadow := .inShadow }
     flintUp s .b = true ∧ (flintOf s .b).shadow = .inShadow) ∧
    (let s := leads { seqRun with wait := some (.ckpt 7 true) } { shadow := .waiting }
     flintUp s .b = true ∧ (flintOf s .b).shadow = .waiting) := by
  unfold fpReady; decide +kernel

theorem witness_ProgramLoadsStopsAndStarts :
    serves State.reset (flintRegion .a) = false ∧ serves fpS (flintRegion .a) = true ∧ flag (1 : Word) 0 = true ∧ flag (1 : Word) 3 = false ∧
    flag (1 : Word) 4 = false ∧ progRuns fpS = true ∧ progRuns up = false ∧ (flintOf up .a).code = [] ∧ (flintOf up .b).code = [] ∧
    (let s := leads { seqRun with st := .stopped } {}
     progRuns s = false ∧ (flintOf s .a).code ≠ []) ∧ up.ctrl.load = none ∧
    ({ up with ctrl := { load := some ⟨false, 0⟩ } } : State).ctrl.load = some ⟨false, 0⟩ ∧ (flintOf fpS .a).st = .running ∧ fpS.ctrl.ready = none ∧
    ({ up with ctrl := { loadAt := some (.b, 0) } } : State).ctrl.loadAt = some (otherFlint .a, up.now) ∧ flashWaits fpS = false := by
  decide +kernel

/-- A program that is refused: DRAM not in service, where it would stand. -/
theorem witness_program_refused : ∃ r k, progCheck up ⟨false, 0⟩ none = .error (r, k) := by
  cases h : progCheck up ⟨false, 0⟩ none with
  | error e => exact ⟨e.1, e.2, rfl⟩
  | ok img =>
    have : (match progCheck up ⟨false, 0⟩ none with | .error _ => true | .ok _ => false) = true := by decide +kernel
    rw [h] at this; cases this

/-- Bytes from an address up. -/
def cells (a : Nat) (bs : List Byte) : List Host.Cell := bs.zipIdx.map fun e => (a + e.2, e.1)

/-- A program of one NOP, in the format of R164; the last four bytes are its CRC-32. -/
def image : List Byte :=
  [0x41, 0x53, 0x4B, 0x46, 1, 0, 64, 0, 1, 0, 0, 0, 0, 0, 0, 0, 0, 0, 0, 0] ++ List.replicate 44 0 ++ [0, 0, 0, 0, 0, 0, 0, 0xF0] ++ [0x4D, 0x0E, 0xB3, 0xE4]

/-- SHA-512 of the program, computed outside the model. -/
def imageSha : List Byte :=
  [0x89, 0x63, 0x8D, 0x1F, 0xB2, 0xEC, 0x50, 0x9C, 0x10, 0x35, 0xFF, 0x03, 0xDD, 0x1C, 0xF7, 0xD7, 0x6E, 0xC8, 0x74, 0xB6, 0x5A, 0xB1,
   0xC0, 0x98, 0x4E, 0xFA, 0x80, 0xE7, 0x15, 0x0E, 0x38, 0x69, 0x56, 0x78, 0xFE, 0x8B, 0x67, 0xC6, 0x63, 0x64, 0xB5, 0x9E, 0xB4, 0xB1,
   0x24, 0x68, 0x54, 0x9D, 0x36, 0x70, 0x0A, 0xDF, 0x46, 0xFC, 0xFA, 0xC1, 0x8F, 0xF3, 0x8D, 0xF0, 0x47, 0x3C, 0x95, 0xAB]

/-- A booted slot with settings and that program, whose digest is `sha`. -/
def booted (sha : List Byte) : BootImage :=
  ⟨0, 0, 1, 0, 0, [], [(1, 0x800, 8, 0, []), (2, 0x1000, 76, 0, sha)], 0, 0⟩

/-- The program stands in the flash. -/
def flashS : State := { fpS with slate := { fpS.slate with flash := cells 0x1000 image, image := some (booted imageSha) } }

/-- It is accepted. -/
theorem witness_program_accepted : progCheck flashS ⟨true, 0x1000⟩ none = .ok ⟨[0xF000000000000000], 0, [], 0⟩ := by decide +kernel

/-- The section's bytes have the digest that another implementation gives. -/
theorem test_sha512 : sectionGood flashS (2, 0x1000, 76, 0, imageSha) = true := by decide +kernel

/-! The ray profile. -/

/-- A launch of one stripe with a code of three words and eight constant bytes. -/
def launch1 : Launch :=
  ⟨0, ⟨0, 0, 0, 1, 0, 0, 0, 8, List.replicate 16 0, 0⟩, [], 0, [0, 0, 0], 0, 8, 0, List.replicate 8 0, []⟩

/-- A context at word `pc` of that launch, in group 0 of tile 0, every lane of p0 on. -/
def ctx1 (pc charge : Nat) : RayCtx :=
  ⟨cx, ⟨0, 0, 0, 0⟩, 0, 0, pc, Vector.replicate 64 (Vector.replicate 8 0), Vector.replicate 16 0, (Vector.replicate 8 (0 : Byte)).set 0 0xFF,
    Vector.replicate 8 (Vector.replicate 8 0), charge, Vector.replicate 8 none, false⟩

/-- Tile 0 of the launch, with groups that have ended. -/
def tile1 (ended : List Nat) : TileRun := ⟨⟨0, 0, 0, 0⟩, 0, 0, [], ended, [], []⟩

/-- Block 0 of Galena-0 with these tiles, those tiles waiting, and the context. -/
def rayS (pc charge : Nat) (tiles : List TileRun) (waiting : List TileId) : State :=
  { up with ctxs := [ctx1 pc charge]
            gal := (Vector.replicate 4 ({} : Galena)).set 0 { launches := [launch1], tileQ := waiting, blocks := (Vector.replicate 12 ({} : RayBlock)).set 0 { tiles := tiles } } }

theorem witness_rayReady : rayReady (rayS 0 0 [] []) cx (ctx1 0 0) launch1 := by unfold rayReady; decide +kernel

theorem witness_RegisterFilesKeepWhatIsWritten :
    (ctx1 0 0).p[(0 : Fin 8)] = 0xFF ∧ (1 : BitVec 6).toNat % 8 ≠ 0 ∧ (8 : BitVec 6).toNat % 8 = 0 ∧ (16 : BitVec 6).toNat % 16 ≠ (15 : BitVec 6).toNat % 16 := by decide +kernel

theorem witness_RayIntegerArithmetic : (0x7FFFFFFF : Word) ≠ 0x80000000 := by decide

theorem witness_RayFloatSpecialValues : nanF32 0x7FC00000 ∧ nanF32 0xFF800001 := by unfold nanF32; decide

theorem witness_RayArithmeticWritesV :
    Instr.wf (.rayAdd cx { rr with ty := .u10 }) = true ∧ Instr.wf (.raySub cx rr) = true ∧ Instr.wf (.rayMul cx rr) = true ∧ Instr.wf (.rayMin cx rr) = true ∧
    Instr.wf (.rayMax cx rr) = true ∧ Instr.wf (.rayFma cx { rr with ty := .i32 }) = true ∧ Instr.wf (.rayAbs cx rr) = true ∧ Instr.wf (.rayNeg cx rr) = true ∧
    Instr.wf (.rayFloor cx rr) = true ∧ Instr.wf (.rayFract cx rr) = true ∧ Instr.wf (.rayRcp cx rr) = true ∧ Instr.wf (.rayRsq cx rr) = true ∧
    Instr.wf (.raySqrt cx { rr with ty := .f16 }) = true ∧ Instr.wf (.rayAddi cx { ri with ty := .u10, imm := 1023 }) = true ∧ Instr.wf (.raySubi cx ri) = true ∧
    Instr.wf (.rayMuli cx ri) = true ∧ Instr.wf (.rayMini cx ri) = true ∧ Instr.wf (.rayMaxi cx ri) = true := by decide

theorem witness_RayLogicAndMovesWriteV :
    (let w := { rr with ty := .i32 }
     Instr.wf (.rayAnd cx w) = true ∧ Instr.wf (.rayOr cx w) = true ∧ Instr.wf (.rayXor cx w) = true ∧ Instr.wf (.rayNot cx w) = true ∧
     Instr.wf (.rayShl cx w) = true ∧ Instr.wf (.rayShr cx w) = true ∧ Instr.wf (.rayAsr cx w) = true) ∧
    (let w := { ri with ty := .i32 }
     Instr.wf (.rayAndi cx w) = true ∧ Instr.wf (.rayOri cx w) = true ∧ Instr.wf (.rayXori cx w) = true ∧ Instr.wf (.rayShli cx w) = true ∧
     Instr.wf (.rayShri cx w) = true ∧ Instr.wf (.rayAsri cx w) = true) ∧
    Instr.wf (.rayMov cx rr) = true ∧ Instr.wf (.rayMovi cx ri) = true ∧ Instr.wf (.rayMovk cx { rr with a := 7 }) = true ∧
    Instr.wf (.rayCvt cx { rr with func := 3 }) = true ∧ Instr.wf (.raySel cx { rr with func := 7 }) = true := by decide

theorem witness_RayPredicatesAndScalars :
    Instr.wf (.rayCmp cx { rr with d := 7, func := 7 }) = true ∧ Instr.wf (.rayCmpi cx { ri with d := 1, cond := 7 }) = true ∧
    (let w := { rr with d := 1, a := 7, b := 7 }
     Instr.wf (.rayPand cx w) = true ∧ Instr.wf (.rayPor cx w) = true ∧ Instr.wf (.rayPxor cx w) = true ∧ Instr.wf (.rayPnot cx { w with b := 0 }) = true) ∧
    Instr.wf (.rayPmovi cx { ri with d := 7, imm := 255 }) = true ∧ Instr.wf (.raySmovi cx { ri with d := 15 }) = true ∧
    Instr.wf (.raySadd cx { rr with sa := true, sb := true }) = true ∧ Instr.wf (.raySaddi cx { ri with sa := true }) = true := by decide

theorem witness_RayControlFlow :
    ctxOf (rayS 2 0 [] []) cx = some (ctx1 2 0) ∧ launchOf (rayS 2 0 [] []) cx.gal (ctx1 2 0).launch = some launch1 ∧
    (ctx1 2 0).charge + 2 ≤ launch1.budget ∧ (ctx1 2 0).pc + 1 = launch1.code.length ∧ (ctx1 0 0).pc + 1 < launch1.code.length ∧
    ((ctx1 0 0).pc : Int) + (2 : Word).toInt = 2 ∧ 2 < launch1.code.length ∧ launch1.budget ≤ (ctx1 0 8).charge ∧
    Instr.wf (.rayBrany cx ⟨0, false, 0, 2⟩) = true ∧ Instr.wf (.rayBrall cx ⟨0, false, 0, 2⟩) = true ∧ Instr.wf (.rayLoop cx ⟨15, false, 0, 2⟩) = true ∧
    Instr.wf (.rayEnd cx rr) = true := by decide +kernel

theorem witness_RayEmitsAndEnds :
    Instr.wf (.rayLdc cx { ri with sa := true }) = true ∧ Instr.wf (.rayLdcv cx { ri with imm := 4 }) = true ∧
    (∀ n : Fin 8, (vRead (ctx1 0 0) 0 n + 4).toNat / 4 * 4 < launch1.consts.length) ∧
    Instr.wf (.rayEmit cx rr) = true ∧
    (let i : RayImm := { ri with imm := 2 ^ 24, pidx := 1 }
     let r := smpLanes (rayS 0 0 [] []) launch1 i (ctx1 0 0)
     Instr.wf (.raySmp cx i) = true ∧ r.consts = [] ∧ r.faults = [] ∧ (ctx1 0 0).charge + r.steps + 1 ≤ launch1.budget) ∧
    (tile1 [] ∈ (blockOf (rayS 0 0 [tile1 []] []) 0 0).tiles ∧ isRunOf (ctx1 0 0) (tile1 []) = true) := by decide +kernel

/-- A stripe of which nothing is owed yet. -/
def stripe0 : Stripe := ⟨0, 0, 0, [], [], false, false, 0⟩

theorem witness_BlocksTakeDispatchAndSend :
    rayBlockIn State.reset 0 0 = false ∧ 8 ≤ (blockOf (rayS 0 0 (List.replicate 8 (tile1 [])) []) 0 0).tiles.length ∧
    (let s := rayS 0 0 [] [⟨0, 0, 0, 0⟩]
     rayBlockIn s 0 0 = true ∧ ((blockOf s 0 0).tiles.filter fun t => decide (t.ended.length < 384)).length < 2 ∧ (blockOf s 0 0).tiles.length < 8 ∧
     (s.gal[(0 : Fin 4)]).tileQ.find? (fun t => (launchFor s 0 t).isSome) = some ⟨0, 0, 0, 0⟩ ∧ launchFor s 0 ⟨0, 0, 0, 0⟩ = some launch1 ∧ loadContext (blockOf s 0 0) launch1.id = some [0]) ∧
    (let s := rayS 0 0 [tile1 []] []
     (blockOf s 0 0).tiles.find? (fun t => (nextOf t).isSome) = some (tile1 []) ∧ (nextOf (tile1 [])).isSome = true ∧ launchOf s 0 (tile1 []).launch = some launch1 ∧
     freeCell s 0 0 (blockOf s 0 0).nextCell = some ⟨0, 0, 0, 1⟩ ∧ (tile1 []).ended.length ≠ 384) ∧
    (let t := tile1 (List.replicate 384 0)
     let s := { rayS 0 0 [t] [] with stripes := { open_ := [stripe0] } }
     (blockOf s 0 0).tiles.find? (sendable s) = some t ∧ t.sent = [] ∧ t.tile.col < 240 ∧ stripeOf s (tileStripe t.tile) = some stripe0 ∧ stripe0.late = false ∧
     ringFree s (tileStripe t.tile) 15 = true) ∧
    serves State.reset (galRegion 0) = false ∧ serves up (galRegion 0) = true ∧ (5 : Nat) ∉ (up.gal[(0 : Fin 4)]).cache.missing ∧
    (let s := { up with gal := Vector.replicate 4 { cache := { missing := [5] } } }
     5 ∈ (s.gal[(0 : Fin 4)]).cache.missing ∧ (s.gal[(0 : Fin 4)]).cache.waiting = [] ∧ (blockOf s 0 0).cache.waiting = [] ∧ anyPoison s (256 * 5) 256 = false ∧ wayOf (cacheSet (s.gal[(0 : Fin 4)]).cache (5 % 2048)) 5 = none ∧
     fillWay (cacheSet (s.gal[(0 : Fin 4)]).cache (5 % 2048)) ≠ none) ∧
    dramStatus { up with regs := [(bxtStatus, 0x80000000)] } (256 * 5) 256 = 0 := by decide +kernel

/-! The host ports and Slate. -/

/-- A frame that is whole, without a CRC. -/
def whole : FrameEnd := ⟨none, true, false⟩
/-- A frame of level 2.1 that is whole: with the CRC of these bytes. -/
def wholeCrc (bs : List Byte) : FrameEnd := ⟨some (BitVec.ofNat 16 (crc16 bs)), true, false⟩
/-- Host A at a level, with a port changed. -/
def hostS (f : HostPort → HostPort) : State := { up with slate := { up.slate with hosts := (Vector.replicate 2 ({} : HostPort)).set 0 (f {}) } }

theorem witness_HostFramesAreChecked :
    slateUp up = true ∧ slateUp { up with power := { mode := .standby } } = false ∧ whole.cut = false ∧ (hostOf (hostS fun x => { x with level := 3 }) .a).level = 3 ∧
    max 1 (hostOf up .a).level < 2 ∧ 3 ≤ max 1 (hostOf (hostS fun x => { x with level := 3 }) .a).level ∧ whole.crc = none ∧
    (wholeCrc [4]).crc ≠ none ∧ (wholeCrc [4]).crc ≠ (wholeCrc [3]).crc ∧ (hostOf up .a).level ≠ 3 := by decide +kernel

theorem witness_HostReadsAndWrites :
    slateUp up = true ∧ wholeFrame up .a (addrBytes 0x01 0x300500 (1 :: leBytes 0 4)) whole ∧ wholeFrame up .a (addrBytes 0x02 0x300500 [1]) whole ∧
    wholeFrame (hostS fun x => { x with level := 2 }) .a [3] whole ∧ hostForm up .a 0x300500 1 = true ∧ hostMap up .a 0x300500 1 = .ok 0xFFF0300500 ∧ hostMap up .a 0x1000000 1 = .error 5 ∧
    (hostOf up .a).buffered + 1 ≤ 64 ∧ 64 < (hostOf (hostS fun x => { x with buffered := 64 }) .a).buffered + 1 ∧ (hostOf up .a).read = none ∧
    (hostOf up .a).buffered = 0 ∧ serves up 3 = true ∧ serves State.reset 3 = false ∧
    (let r (x : Option (List Byte × Nat)) : HostRead := ⟨false, 0xFFF0300500, 4, false, x⟩
     let s := hostS fun x => { x with level := 2, read := some (r none) }
     let t := hostS fun x => { x with level := 2, read := some (r (some ([0], 0))) }
     2 ≤ (hostOf s .a).level ∧ (hostOf s .a).read = some (r none) ∧ (r none).result = none ∧ (r none).drop = false ∧ (hostOf s .a).buffered = 0 ∧
     (hostOf t .a).read = some (r (some ([0], 0))) ∧ (hostOf s .a).read.isSome = true) := by unfold wholeFrame; decide +kernel

/-- Semaphore 31 held and waited for as said; host A's level is 2.1. -/
def semS (m : Sem) : State :=
  { up with slate := { up.slate with hosts := Vector.replicate 2 { level := 3 }, sems := (Vector.replicate 32 ({} : Sem)).set 31 m } }

theorem witness_HostSemaphores :
    slateUp (semS {}) = true ∧ wholeFrame (semS {}) .a [0x10, 31] (wholeCrc [0x10, 31]) ∧ (31, HostId.a) ∉ (semS {}).slate.grantClock ∧ (31 : Byte).toNat < 32 ∧ (hostOf (semS {}) .a).level = 3 ∧ (semOf (semS {}) 31).holder = none ∧
    (semOf (semS ⟨some (.host .a), []⟩) 31).holder = some (.host .a) ∧ (semOf (semS ⟨some .frame, []⟩) 31).holder = some .frame ∧
    (let s := semS ⟨some (.host .b), [.host .a]⟩
     (semOf s 31).holder = some (.host .b) ∧ (.host .b : SemUser) ≠ .host .a ∧ (semOf s 31).waiters.contains (.host .a) = true) ∧
    (semOf (semS ⟨some (.host .b), []⟩) 31).waiters.contains (.host .a) = false := by unfold wholeFrame; decide +kernel

/-- A flash operation of host A runs. -/
def flashOpS (o : FlashOp) : State := { up with slate := { up.slate with flashOp := some o } }

theorem witness_FlashOperations :
    slateUp up = true ∧ wholeFrame up .a (addrBytes 0x30 0 [255]) whole ∧ wholeFrame up .a (addrBytes 0x32 0 [1]) whole ∧ flashForm up 0 255 = true ∧ up.slate.flashOp = none ∧ (hostOf up .a).read = none ∧ (hostOf up .a).buffered = 0 ∧
    (0 : Nat) % 256 + 255 ≤ 256 ∧ flashProtected up 0 255 = false ∧ flashProtected State.reset 0 255 = true ∧ (1 : Byte).toNat < 2 ∧ 0x10000 % 65536 = 0 ∧
    flashForm up 0x10000 65536 = true ∧ flashForm up (33554432 - 65536) 65536 = true ∧ flashProtected flashS 0 1 = true ∧
    (flashOpS ⟨.a, some (0, [1]), none⟩).slate.flashOp = some ⟨.a, some (0, [1]), none⟩ ∧
    (flashOpS ⟨.a, none, some (0, 4096)⟩).slate.flashOp = some ⟨.a, none, some (0, 4096)⟩ := by unfold wholeFrame; decide +kernel

/-- An event of level 2 of Flint-A. -/
def event1 : Event := ⟨0x8110, 0, 0, 0, 0, 0⟩

theorem witness_MailboxAndHostEvents :
    (flintUp fpS .a = true ∧ holder fpS = some .a) ∧
    (let m := readReg { up with regs := [(hostKey .a sltHostEvtMask, 0)] } (hostKey .a sltHostEvtMask)
     (bitAt (fld m 0 4) (evLevel event1.code) && bitAt (fld m 16 16) (evRegion event1.code)) = false) ∧
    (let s := { up with regs := [(hostKey .a sltHostEvtMask, 0xFFFF000F)] }
     let m := readReg s (hostKey .a sltHostEvtMask)
     (bitAt (fld m 0 4) (evLevel event1.code) && bitAt (fld m 16 16) (evRegion event1.code)) = true ∧ (hostOf s .a).events.length < 64) ∧
    64 ≤ (hostOf (hostS fun x => { x with events := List.replicate 64 event1 }) .a).events.length ∧ slateUp up = true ∧ flintUp up .b = true ∧
    (hostOf up .a).events = [] ∧ (hostOf (hostS fun x => { x with events := [event1] }) .a).events = [event1] := by decide +kernel

/-- The collector's queue holds these. -/
def collS (q : List QueuedEvent) (e : Bool) : State := { up with slate := { up.slate with coll := { queue := q, episode := e } } }

theorem witness_CollectorQueuesAndDelivers :
    (let q := (collS [⟨event1, 1, 0⟩] false).slate.coll.queue
     (q.any fun x => sameEvent x.ev event1) = true) ∧
    (let q := (collS [] false).slate.coll.queue
     (q.any fun x => sameEvent x.ev event1) = false ∧ ¬((evLevel event1.code < 2 ∧ 224 ≤ entriesLow q) ∨ 256 ≤ entriesTaken q)) ∧
    (let s := collS (List.replicate 256 ⟨{ event1 with cell := 9 }, 1, 0⟩) false
     (s.slate.coll.queue.any fun x => sameEvent x.ev event1) = false ∧ 256 ≤ entriesTaken s.slate.coll.queue ∧ s.slate.coll.episode = false ∧
     (s.slate.coll.queue.all fun x => x.ev.code != evCode 3 0 0x3FA) = true) ∧
    (collS [] true).slate.coll.episode = true ∧ holder fpS = some .a ∧ holder up = none ∧ up.slate.coll.queue = [] := by decide +kernel

theorem witness_OtpActions :
    slateUp up = true ∧ (let v : Word := 0x5A170006; fld v 16 16 = 0x5A17 ∧ 1 ≤ fld v 0 3 ∧ fld v 0 3 ≤ 6) ∧ up.slate.otpRun = none ∧
    fld (0x5A170007 : Word) 0 3 = 7 ∧ fld (0 : Word) 16 16 ≠ 0x5A17 ∧
    (let s (a : Nat) (o : Otp) : State := { up with slate := { up.slate with otpRun := some (a, []), otp := o } }
     (s 1 {}).slate.otpRun = some (1, []) ∧ ((s 1 {}).slate.otp.customer[(0 : Fin 2)]) = none ∧
     ((s 2 { customer := Vector.replicate 2 (some []) }).slate.otp.customer[(1 : Fin 2)]).isSome = true ∧
     (s 3 {}).slate.image.map (fun i => i.keySlot) ≠ some 1 ∧ (booted []).keySlot = 0 ∧
     (let o := (s 5 { customer := Vector.replicate 2 (some []) }).slate.otp
      o.customer[(0 : Fin 2)].isSome = true ∧ o.revoked[(0 : Fin 2)] = false) ∧
     ({ booted [] with secVersion := 3 } : BootImage).secVersion > (s 6 {}).slate.otp.rollback ∧ (s 6 {}).slate.image = none) := by decide +kernel

theorem witness_AttestConfirmRebootSleep :
    slateUp up = true ∧ (up.slate.attest.any fun x => x.1 == .a) = false ∧
    (({ up with slate := { up.slate with attest := [(.a, [])] } } : State).slate.attest.any fun x => x.1 == .a) = true ∧
    (up.slate.boot = .done ∧ flashS.slate.image = some (booted imageSha) ∧ (booted imageSha).slot < 2) ∧
    (let v : Word := 0xB0070001; flag v 1 = false ∧ flag v 0 = true ∧ fld v 16 16 = 0xB007) ∧ flag (0 : Word) 0 = false ∧
    State.reset.power.mode = .boot ∧ up.power.mode = .run ∧ panelIdle up ∧
    (let s := { up with obs := { up.obs with state := .on } }
     s.obs.state = .on ∧ s.obs.safeCause = none ∧ s.obs.step ≠ .offRequested ∧ s.obs.afterOff = 0 ∧ s.power.sleeping = false) ∧
    (let v : Word := 0x5EE90001; flag v 0 = true ∧ fld v 16 16 = 0x5EE9) ∧
    (let s := { up with ctl := State.reset.ctl }
     holder s = none ∧ (∀ r : Fin 16, 1 ≤ r.val → (ctlOf s r.val).phase = .off) ∧ s.power.startAfter = [] ∧ s.power.stopAfter = []) := by
  unfold panelIdle; decide +kernel

theorem witness_ChipResets :
    (up.regs.map fun e => e.1).Nodup ∧ up.slate.log.clear = false ∧ ({ up with slate := { up.slate with log := { clear := true } } } : State).slate.log.clear = true ∧
    up.power.mode ≠ .off ∧ panelIdle up ∧ panelDriven { up with obs := { up.obs with state := .on } } ∧
    (let s := { State.reset with power := { resetPin := true } }
     s.power.resetPin = true ∧ s.power.mode = .boot ∧ s.slate.boot = .idle ∧ s.obs.safeCause = none) ∧ (7 : Nat) < 8 := by
  unfold panelIdle panelDriven; decide +kernel

/-- In STANDBY, with these power fields and registers. -/
def standbyS (p : Power) (regs : List (Nat × Word)) : State := { State.reset with power := { p with mode := .standby }, regs := regs }

theorem witness_WakesBeginBoot :
    (standbyS { pfailLow := true } []).power.pfailLow = true ∧ (standbyS {} []).power.pfailLow = false ∧ (standbyS {} []).therm.cooling = false ∧
    (let s := standbyS {} []
     s.power.mode = .standby ∧ s.power.clockLost = false ∧ getB s sltWakeCtrl 0 = true ∧ getB s sltWakeCtrl 1 = true ∧ getB s sltWakeCtrl 3 = true ∧ s.power.wakeHeld = none) ∧
    getB (standbyS {} [(sltWakeCtrl, 0)]) sltWakeCtrl 0 = false ∧
    (let s := standbyS {} [(sltWakeCtrl, 4), (sltWakeTimer, 1)]
     readReg s sltWakeTimer ≠ 0 ∧ getB s sltWakeCtrl 2 = true) ∧
    (standbyS { wakeHeld := some 3 } []).power.wakeHeld = some 3 ∧ getF (standbyS {} [(sltWakeStatus, 0x06000000)]) sltWakeStatus 24 4 = 6 ∧
    (let s := standbyS { clockLost := true } []
     s.power.clockLost = true ∧ s.obs.safeCause = none) ∧
    (let s := { standbyS {} [(sltThermRestart, 0x10001)] with now := 3000000000, therm := { cooling := true, shutdowns := [0], die := Vector.replicate 60 { broken := true } } }
     s.therm.cooling = true ∧ coolEnough s = true ∧ getB s sltThermRestart 16 = true ∧ (s.therm.shutdowns.filter fun x => decide (s.now < x + 3600000000000)).length < 3) ∧
    getB (standbyS {} [(sltThermRestart, 0)]) sltThermRestart 16 = false ∧ coolEnough (standbyS {} []) = false := by decide +kernel

/-- The panel is driven. -/
def onS : State := { up with obs := { up.obs with state := .on } }

theorem witness_LossOfSupplyAndClock :
    up.power.refclkEn = true ∧ up.power.mode = .run ∧ panelDriven onS ∧ panelIdle up ∧ up.power.resetWaits = false ∧
    (let s (n : Nat) : State := { onS with obs := { onS.obs with safeCause := some ⟨6, n⟩, step := .dischargeEnd } }
     (s 1).obs.safeCause = some ⟨6, 1⟩ ∧ (s 0).obs.safeCause = some ⟨6, 0⟩ ∧ (s 1).obs.step = .dischargeEnd ∧ (s 1).obs.afterOff = 0) ∧
    railCollapsed .vddCore 0 = true ∧ railCollapsed .vddCore 5000000 = false ∧ up.slate.boot ≠ .clock ∧ up.obs.safeCause = none ∧ up.obs.state ≠ .safe ∧
    ({ up with obs := { up.obs with state := .safe } } : State).obs.state = .safe ∧ up.power.marginSaid = false ∧
    up.power.clockLost = false ∧ (4 * (97656 : Int) - 390625).natAbs * 1000000 ≤ 300 * 390625 ∧
    (300 * 390625 < (4 * (97700 : Int) - 390625).natAbs * 1000000 ∧ (4 * (97700 : Int) - 390625).natAbs * 1000000 ≤ 1000 * 390625) ∧
    1000 * 390625 < (4 * (97800 : Int) - 390625).natAbs * 1000000 ∧ up.power.rateBad = false ∧
    ({ up with power := { up.power with rateBad := true } } : State).power.rateBad = true ∧ up.power.margin = false ∧
    up.power.mode ≠ .off ∧ up.power.xtalFault = false := by unfold panelIdle panelDriven; decide +kernel

/-! Regions, units, the lease. -/

/-- Boot has come so far, with everything in service. -/
def bootS (b : BootStep) (x : Flint) : State :=
  { leads x {} with power := { mode := .boot, refclkEn := true, dramPwrEn := true }, slate := { boot := b, flash := cells 0x1000 image, image := some (booted imageSha) } }

theorem witness_BootEnds :
    (bootS .selftest { rounds := 0x33 }).power.mode = .boot ∧
    (let s := bootS .selftest { rounds := 0x33 }
     s.slate.boot = .selftest ∧ flintUp s .a = true ∧ (flintOf s .a).rounds &&& 0x33 ≠ 0 ∧ s.slate.granted = false ∧ s.slate.rebootHeld = false ∧ s.power.sleepHeld = false) ∧
    (let s := bootS .sections {}
     let x1 := (2, 0x1000, 76, 0, imageSha)
     s.slate.boot = .sections ∧ s.slate.image = some (booted imageSha) ∧ (booted imageSha).sections = [(1, 0x800, 8, 0, []), x1] ∧
     (booted imageSha).flags = 0 ∧ (booted imageSha).slot < 2 ∧ sectionGood s x1 = true ∧
     progCheck s ⟨true, 0x1000⟩ none = .ok ⟨[0xF000000000000000], 0, [], 0⟩ ∧ sectionGood s (2, 0x1000, 76, 0, []) = false) := by decide +kernel

theorem witness_PowerRequests :
    slateUp up = true ∧
    (let named (v : Word) := (List.range 16).filter fun r => bitAt (fld v 0 16) r && !([0, 1, 2, 14].contains r)
     let after (v : Word) (r : Nat) : Bool := if (named v).contains r then flag v 16 else powerTarget up r
     let orphans (v : Word) := [3, 4, 5, 6, 7, 12, 13].any (after v) && !([8, 9, 10, 11].all (after v))
     let some8 (v : Word) := (named v).any (fun r => bauxites.contains r) && !(bauxites.all fun r => (named v).contains r)
     orphans 0x00F00 = true ∧ orphans 0x10100 = false ∧ some8 0x10100 = true ∧ orphans 0x18000 = false ∧ some8 0x18000 = false) ∧
    State.reset.power.mode = .boot ∧ up.power.mode = .run ∧ up.power.startAfter = [] ∧ up.power.stopAfter = [] ∧ up.power.lastPwr = none ∧
    (fld (0x18000 : Word) 0 16 = 0x8000 ∧ flag (0x18000 : Word) 16 = true ∧ phaseOf { up with ctl := up.ctl.set 15 {} } 15 = .off) ∧
    (flag (0x8000 : Word) 16 = false ∧ phaseOf up 15 = .on) ∧ phaseOf { up with ctl := up.ctl.set 15 { phase := .poweringOn } } 15 = .poweringOn ∧
    (fld (0x13FF8 : Word) 0 16 = 0x3FF8 ∧ (let s := { up with ctl := State.reset.ctl }; ∀ r : Fin 11, phaseOf s (3 + r.val) = .off)) ∧
    (ctlOf { up with ctl := up.ctl.set 15 { outOfService := true } } 15).outOfService = true := by decide +kernel

/-- Galena-0 in a phase. -/
def galS (c : RegionCtl) : State := { up with ctl := up.ctl.set 4 c }

theorem witness_RegionTransitions :
    (4 : Fin 16).val ≠ 0 ∧ powerQuiet (galS {}) 4 ∧ phaseOf (galS { phase := .inReset }) 4 = .inReset ∧ phaseOf (galS { phase := .poweringOn }) 4 = .poweringOn ∧
    phaseOf (galS { phase := .poweringOff }) 4 = .poweringOff ∧
    (phaseOf (galS { phase := .initialising }) 4 = .initialising ∧ (ctlOf (galS { phase := .initialising }) 4).rejoining = false ∧ fourthReset (galS { phase := .initialising }) 4 = false ∧
     fourthReset (galS { phase := .initialising, resets := [0, 0, 0] }) 4 = true) ∧
    (ctlOf (galS { phase := .initialising, rejoining := true }) 4).rejoining = true ∧ phaseOf (galS { phase := .draining }) 4 = .draining ∧
    (phaseOf (galS { phase := .on }) 4 = .on ∧ (4 : Nat) ∉ bauxites ∧ fourthReset (galS { phase := .on }) 4 = false ∧
     fourthReset (galS { phase := .on, resets := [0, 0, 0] }) 4 = true) ∧ phaseOf (galS {}) 4 = .off := by
  unfold powerQuiet; decide +kernel

theorem witness_CellFaults :
    (let u : UnitId := ⟨4, 0, 31⟩
     (31 : Byte).toNat < cellsIn 4 0 ∧ isPowered up 4 = true ∧ u ∉ up.retired ∧ ¬((32 : Byte).toNat < cellsIn 4 0) ∧
     (4 ≠ 3 ∧ 4 ≠ 14 ∧ 4 ∉ bauxites) ∧
     ¬(16 < (((u, up.now) :: up.corrected.filter fun x => x.1 != u || decide (up.now < x.2 + 1000000000)).filter fun x => x.1 == u).length) ∧
     (let s := { up with corrected := List.replicate 16 (u, 0) }
      16 < (((u, s.now) :: s.corrected.filter fun x => x.1 != u || decide (s.now < x.2 + 1000000000)).filter fun x => x.1 == u).length) ∧
     (let s := { up with retired := [⟨2, 0, 0⟩] }
      (⟨2, 0, 0⟩ : UnitId) ∈ s.retired ∧ (2, 0) ∉ s.quarantined ∧ phaseOf s 2 = .on ∧ blockFails s 2 0 = true ∧ 2 ∉ bauxites) ∧
     (let s := { up with retired := [u], quarantined := [(4, 0)] }
      u ∈ s.retired ∧ ((4 : Nat), (0 : Nat)) ∈ s.quarantined) ∧ cellOutcome (.word 0 0 []) = none ∧ cellOutcome (.word 0 0 [⟨1, 0⟩]) = some .corrected ∧
     (let s := { galS { phase := .draining } with retired := [u] }
      u ∈ s.retired ∧ phaseOf s 4 = .draining)) := by decide +kernel

/-- The lease is in this step; nobody holds it, Flint-A was last. -/
def freeS (st : LeaseStep) (y : Flint) : State := { up with ctrl := { fl := #v[{}, y], lease := { step := st, last := some .a } } }
/-- A standby that may take the lease. -/
def standby : Flint := { shadow := .inShadow, selftest := 63 }

theorem witness_LeaseSwitchovers :
    (let s := leads { seqRun with beat := true } {}
     holder s = some .a ∧ flintUp s .a = true ∧ holder s ≠ some .b ∧ (flintOf s .a).beat = true ∧ s.now < s.ctrl.lease.renewedAt + 64000 ∧ (flintOf fpS .a).beat = false) ∧
    (let s : State := { fpS with now := 64000 }
     s.ctrl.lease.renewedAt + 60000 ≤ s.now ∧ s.ctrl.lease.renewedAt + 64000 ≤ s.now ∧ (freeS (.guard 2) {}).ctrl.lease.stepAt + 8000 ≤ s.now ∧
     (freeS .cold {}).ctrl.lease.stepAt + 1000000 ≤ ({ up with now := 1000000 } : State).now ∧ (freeS (.guard 2) {}).now < 8000) ∧
    (let s := freeS (.guard 2) standby
     s.ctrl.lease.step = .guard 2 ∧ s.ctrl.lease.last = some .a ∧ eligible s (otherFlint .a) = true ∧ s.scan.running = false ∧
     ({ s with scan := { running := true } } : State).scan.running = true) ∧
    eligible (freeS (.guard 2) {}) (otherFlint .a) = false ∧ (freeS (.guard 3) {}).ctrl.lease.step = .guard 3 ∧
    ((.ha : Requester) ≠ .fp ∧ slateUp fpS = true ∧
     (let s := leads {} standby
      holder s = some .a ∧ s.ctrl.lease.step = .idle ∧ eligible s (otherFlint .a) = true) ∧
     eligible fpS (otherFlint .a) = false ∧ (freeS .cold {}).ctrl.lease.step ≠ .idle) ∧
    (let s : State := { leads { lapsed := true } standby with ctrl := { fl := #v[{ lapsed := true }, standby], lease := { step := .releasing 2 } } }
     s.ctrl.lease.step = .releasing 2 ∧ holder s = some .a ∧ (flintOf s .a).lapsed = true ∧ fpWrites s .a = 0 ∧ shadowed s .a = true ∧
     fpWrites { s with acks := [⟨.frame .a 0, 0⟩] } .a ≠ 0) ∧
    (let s : State := { leads {} {} with ctrl := { fl := #v[{ lapsed := true }, {}], lease := { step := .releasing 5 } } }
     s.ctrl.lease.step = .releasing 5 ∧ flintUp s .a = true) ∧
    (freeS .cold {}).ctrl.lease.step = .cold ∧ fpS.ctrl.lease.step ≠ .cold := by decide +kernel

theorem witness_MirrorAndSelfTests :
    (let s : State := { leads {} standby with ctrl := { fl := #v[{}, standby], lease := { mirror := [.watchdog] } } }
     s.ctrl.lease.mirror = [.watchdog] ∧ mirrorTo s = some .b ∧ (flintOf s .b).mirror.length < 4096) ∧
    (let y := { standby with mirror := List.replicate 4096 .watchdog }
     let s : State := { leads {} y with ctrl := { fl := #v[{}, y], lease := { mirror := [.watchdog] } } }
     4096 ≤ (flintOf s .b).mirror.length ∧ (flintOf s .b).shadow = .inShadow) ∧
    slateUp up = true ∧ flintUp up .a = true ∧ up.ctrl.lease.step ≠ .cold ∧
    (let s : State := { leads {} standby with ctrl := { fl := #v[{}, standby], lease := { mismatch := true } } }
     s.ctrl.lease.mismatch = true ∧ holder s = some .a ∧ flintUp s .b = true) ∧ up.ctrl.lease.mismatch = false := by decide +kernel

/-! Mica, Obsidian, temperature. -/

/-- A blit of two pixels of 4 bytes at address 0 with the pattern. -/
def blit1 : Blit := ⟨0x00F00042, 0, 0, (0, 0), 0, 64, (0, 0), (2, 1), 7, 0, 0, false⟩
/-- It runs; DRAM is in service. -/
def blitS : State := { up with mica := { blit := some blit1 }, regs := [(bxtStatus, 0x80000000)] }

theorem witness_MicaUpdatesAndBlits :
    serves up 13 = true ∧ (0xD40000 + 4 * (6144 * 7 + 3072 + 3071)) < 2 ^ 24 ∧ (0xD80000 + 4 * (12291 + 12290)) < 2 ^ 24 ∧ flag (0 : Word) 30 = false ∧
    blitS.mica.blit.isSome = true ∧ up.mica.blit = none ∧ bltRefusal up (bltLatch up) ≠ 0 ∧
    (blitS.mica.blit = some blit1 ∧ blit1.aborting = false ∧ bltRop blit1 = 0xF0 ∧ flag blit1.ctrl 5 = false ∧ dramUp blitS = true ∧
     bltAligned (bltBpp blit1) blit1.dst blit1.dstPitch blit1.dstPos blit1.size = true ∧
     (bltRange (bltBpp blit1) blit1.dst blit1.dstPitch blit1.dstPos blit1.size).2 ≤ dramTop blitS ∧ 0 < blit1.size.1 ∧ 0 < blit1.size.2) := by decide +kernel

/-- Obsidian's own state and the scan's, with Flint-A leading. -/
def panS (o : Obsidian) (c : Scan) : State := { fpS with obs := o, scan := c }

theorem witness_ScanProceeds :
    serves (panS {} {}) 14 = true ∧
    (let s := panS { step := .waitFrame } {}
     s.obs.step = .waitFrame ∧ s.scan.running = false ∧ (holder s).isSome = true ∧ frameNow s = true ∧ frameNow { s with time := ⟨0, 5, 0⟩ } = false) ∧ fpS.obs.step ≠ .waitFrame ∧
    (let s := panS {} { running := true }
     s.scan.running = true ∧ flintUp s .a = true ∧ holder s = some .a ∧ (flintOf s .a).lapsed = false ∧ s.scan.held = false ∧ s.scan.begun = false ∧ holder s ≠ some .b ∧ mayAlign s .a = true ∧
     mayAlign { s with ctrl := { fl := #v[{ seqRun with mirror := [.watchdog] }, {}], lease := { step := .aligning 0 } } } .a = false ∧ (flintOf { s with ctrl := { fl := #v[{ lapsed := true }, {}] } } .a).lapsed = true) ∧
    (let s : State := { panS {} { running := true, begun := true } with ctrl := { fl := #v[seqRun, { shadow := .inShadow }], lease := { lineDue := true } } }
     s.ctrl.lease.lineDue = true ∧ s.ctrl.lease.lineSeen = false ∧ (flintOf s (otherFlint .a)).shadow = .inShadow ∧ s.ctrl.lease.step = .idle ∧ s.ctrl.lease.mismatch = false) ∧
    (let s := panS { step := .fillFrames 5 } { running := true, begun := true, slot := 16383, phase := 1000, frame := 5 }
     phaseSlots s ≤ s.scan.slot + 1 ∧ s.obs.step = .fillFrames 5 ∧ scanPhases s ≤ s.scan.phase + 1 ∧ (s.scan.frame + 1) % 2 ^ 32 = (5 + 1) % 2 ^ 32) ∧
    (let s := panS {} { running := true, begun := true, slot := 0 }
     s.scan.slot + 1 < phaseSlots s ∧ s.scan.lag = 0 ∧ 0 < slotPs s) ∧
    (let s := panS {} { running := true, begun := true, slot := 16383 }
     phaseSlots s ≤ s.scan.slot + 1) ∧
    (let s := panS {} { running := true, begun := true, slot := phaseSlots fpS - 4, lag := 1000000000000 }
     s.scan.slot + 1 < phaseSlots s - 1 ∧ activeSlots s < s.scan.slot + 1 ∧ 0 < s.scan.lag ∧
     phaseSlots s - 1 - (s.scan.slot + 1) ≤ min (s.scan.lag / slotPs s).toNat (spareSlots s)) ∧
    (let s := panS {} { running := true, begun := true, slot := phaseSlots fpS - 2, lag := -1000000000000 }
     s.scan.slot + 1 = phaseSlots s - 1 ∧ s.scan.lag ≤ -(slotPs s : Int) ∧ s.scan.inserted < spareSlots s) ∧
    (let s := { panS {} { running := true } with ctrl := { fl := #v[seqRun, { shadow := .inShadow }] } }
     holder s ≠ some .b ∧ (flintOf s .b).shadow = .inShadow ∧ s.ctrl.lease.step = .idle ∧ s.ctrl.lease.mismatch = false) ∧
    (let s := panS { state := .on } { running := true, held := true, begun := true }
     s.scan.held = true ∧ panelDriven s) ∧
    (let v : Word := 4
     fld v 0 2 = 0 ∧ flag v 9 = false ∧ fld v 2 2 = 1) ∧ up.scan.paired = false ∧ up.obs.pewterWhy = 0 ∧ fld (0 : Word) 2 2 = 0 ∧
    (panS {} { paired := true }).scan.paired = true := by
  unfold panelDriven
  refine ⟨?_, ?_, ?_, ?_, ?_, ?_, ?_, ?_, ?_, ?_, ?_, ?_, ?_, ?_, ?_, ?_, ?_⟩ <;> decide +kernel

/-- A script entry at which a script runs. -/
def scriptS (st : SeqStep) (r : ScriptRun) (regs : List (Nat × Word)) : State := { panS { step := st, script := some r } {} with regs := regs }

theorem witness_PanelPowerAndScripts :
    serves up 14 = true ∧ up.obs.script = none ∧ up.obs.scriptQ = [] ∧ (up.obs.state = .off ∧ up.obs.afterOff = 0 ∧ up.obs.safeCause = none ∧ slateDrives up = false) ∧
    (onS.obs.state = .on ∧ onS.obs.safeCause = none ∧ onS.obs.step ≠ .offRequested) ∧ (panS { state := .poweringOn } {}).obs.state = .poweringOn ∧
    (let s : State := { panS { step := .training } {} with links := { panel := Vector.replicate 13 (Vector.replicate 4 { st := 6 }), back := Vector.replicate 4 { st := 6 } } }
     s.obs.step = .training ∧ panelTrained s = true ∧ s.obs.mapAtTraining = false ∧ ({ s with obs := { s.obs with mapAtTraining := true } } : State).obs.mapAtTraining = true ∧ s.calmap.load = none ∧ s.obs.identified = false) ∧
    ((panS { step := .identify } {}).obs.step = .identify ∧ (List.replicate 32 (0 : Byte)).length = 32 ∧ up.calmap.load = none) ∧
    (let s : State := { up with calmap := { load := some ⟨false, 0⟩ } }
     s.calmap.load = some ⟨false, 0⟩ ∧ s.calmap.readDone = false ∧ s.calmap.asked = false ∧ s.calmap.waitDram = false ∧ drvFree s = true ∧
     ({ s with calmap := { s.calmap with asked := true } } : State).calmap.asked = true) ∧
    (flag (0xE : Word) 3 = true ∧ 6 ≤ fld (0xE : Word) 0 3) ∧ flag (6 : Word) 3 = false ∧
    (let s : State := { up with regs := [(obsPmicCtrl, 0x1000)] }
     getF s obsPmicCtrl 12 8 ≠ 0 ∧ s.obs.safeCause = none ∧ s.obs.state ≠ .safe) ∧ (panS { step := .offDelay } {}).obs.step = .offDelay ∧
    (let r : ScriptRun := ⟨6, 15, .user, false, 0⟩
     let s := scriptS .idle r [(obsPmicScript 111, 0x8000FF01)]
     s.obs.script = some r ∧ s.obs.afterOff = 0 ∧ scriptAtEnd s r = false ∧ flag (scriptWord s r) 31 = true ∧ s.obs.scriptQ = [] ∧
     (1 : Byte) &&& BitVec.ofNat 8 (fld (scriptWord s r) 8 8) = BitVec.ofNat 8 (fld (scriptWord s r) 0 8) ∧
     (0 : Byte) &&& BitVec.ofNat 8 (fld (scriptWord s r) 8 8) ≠ BitVec.ofNat 8 (fld (scriptWord s r) 0 8) ∧ fld (scriptWord s r) 29 3 ≠ 2) ∧
    (let r : ScriptRun := ⟨6, 0, .user, false, 3⟩
     let s := scriptS .idle r [(obsPmicScript 96, 1)]
     flag (scriptWord s r) 31 = false ∧ 3 ≤ r.nacks ∧ fld (scriptWord s r) 29 3 ≠ 2) ∧
    (let r : ScriptRun := ⟨0, 16, .sequence, false, 0⟩
     scriptAtEnd (scriptS .logicOn r []) r = true ∧ scriptAtEnd (scriptS .driveOn r []) r = true) := by decide +kernel

theorem witness_CalibrationMapLoads :
    serves up 14 = true ∧ flag (1 : Word) 0 = true ∧ up.calmap.load = none ∧
    (let s : State := { up with calmap := { load := some ⟨false, 0⟩ } }
     s.calmap.load.isSome = true ∧ s.calmap.waitDram = false ∧ s.obs.identified = false ∧ s.calmap.readFailed = false ∧ s.calmap.waiting = none ∧ s.calmap.readDone = false) ∧
    (let s : State := { up with calmap := { load := some ⟨true, 0⟩, waitDram := true } }
     s.calmap.load = some ⟨true, 0⟩ ∧ s.calmap.waitDram = true) ∧
    (let s : State := { up with calmap := { load := some ⟨false, 0⟩, readDone := true }, obs := { identified := true } }
     s.obs.identified = true ∧ mapRejects s s.calmap.read s.calmap.readFailed (sliceBytes s.obs.ident 0 16) ≠ 0) := by decide +kernel

/-- Everything in service and die sensor 0 with a reading of 20 degrees. -/
def dieS : State := { up with therm := { die := (Vector.replicate 60 ({} : DieSensor)).set 0 { hist := [320] } } }

theorem witness_ThermalAndCalibration :
    dieValid dieS 0 = true ∧ (let T := dieTemp (dieS.therm.sg[(0 : Fin 60)]) 18762; -640 ≤ T ∧ T ≤ 2400 ∧ apartFrom dieS 0 T = false ∧ T < 16 * (getF dieS sltThermCtrl 16 8 : Nat)) ∧
    dieValid State.reset 59 = false ∧ getB { up with regs := [(sltThermStatus, 0x02000000)] } sltThermStatus 25 = true ∧
    (let s := { up with regs := [(sltThermStatus, 0x10000000)] }
     getB s sltThermStatus 25 = false ∧ getB s sltThermStatus 28 = true ∧ getF s sltThermStatus 29 3 < 4 ∧ throttleMoves s ≠ s.therm.moves ∧
     (let t : State := { s with now := 100000000, therm := { moves := throttleMoves s } }
      throttleMoves t = t.therm.moves ∧ t.therm.stepFrom + 100000000 ≤ t.now)) ∧
    (let s : State := { up with now := 1000000000, regs := [(sltThermStatus, 0x20000000)] }
     getB s sltThermStatus 28 = false ∧ signedOf (getF s sltThermStatus 0 16) 16 < 16 * (getF s sltThermCtrl 8 8 : Nat) - 80 ∧ 0 < getF s sltThermStatus 29 3 ∧
     (let t : State := { s with therm := { moves := throttleMoves s } }
      throttleMoves t = t.therm.moves ∧ t.therm.stepFrom + 1000000000 ≤ t.now)) ∧ throttleMoves { up with regs := [(sltThermStatus, 0x670)] } = 0 ∧
    (up.therm.cal = none ∧ up.power.mode = .run ∧ ∀ n : Fin 4, getB up (sltRemoteCtrl n.val) 14 = false ∧ getB up (sltPthCtrl n.val) 31 = false) ∧
    up.therm.measured = false ∧ ({ up with therm := { measured := true } } : State).therm.measured = true ∧
    getB { up with regs := [(sltPanelTemp, 0x80000000)] } sltPanelTemp 31 = true ∧ up.therm.heldFor < 60000000000 ∧
    60000000000 ≤ ({ up with therm := { heldFor := 60000000000 } } : State).therm.heldFor ∧ getB up sltThermStatus 26 = false ∧
    (getB { up with regs := [(sltThermStatus, 0x04000000)] } sltThermStatus 26 = true ∧ up.therm.trip = none ∧ up.obs.state ≠ .safe ∧ up.power.resetWaits = false ∧
     (let s : State := { up with now := 10000000000, therm := { forcedAt := some 0 } }
      s.therm.forcedAt = some 0 ∧ 0 + 10000000000 ≤ s.now ∧ up.now < 0 + 10000000000)) ∧
    (slateUp up = true ∧ flag (1 : Word) 3 = false ∧ flag (1 : Word) 0 = true ∧ (.ha : Requester) ≠ .fp) ∧
    (let v : Word := 0xCA1B0008
     flag v 3 = true ∧ fld v 16 16 = 0xCA1B ∧ flag v 0 = false) ∧
    (let s : State := { up with therm := { cal := some false } }
     s.therm.cal = some false) := by decide +kernel

/-- All but the CRC of a map for a panel of one tile column and one tile row, N = 1, with no residuals (R47 to R52). -/
def mapBody : List Byte :=
  let head : List Byte := [0x47, 0x4C, 0x43, 0x4D, 1, 0, 64, 0] ++ leBytes 652 4 ++ leBytes 64 2 ++ leBytes 16 2 ++ [1, 0, 0, 0] ++ leBytes 100000 4 ++ leBytes 100000 4 ++
    leBytes 64 4 ++ leBytes 128 4 ++ leBytes 1 2 ++ leBytes 1 2 ++ List.replicate 24 0 ++ leBytes (3 * 2 ^ 24) 4 ++ leBytes 0 8 ++ leBytes (2 ^ 30) 4 ++ leBytes 0 4 ++ [48]
  head ++ List.replicate (648 - head.length) 0

/-- The map. -/
def mapBytes : List Byte := mapBody ++ leBytes (crc32 mapBody).toNat 4

/-- That map has been read from the panel. -/
def mapS (bs : List Byte) : State :=
  { up with regs := [(obsPanelGeom, 0x00040400)], calmap := { load := some ⟨false, 0⟩, read := bs, readDone := true }, obs := { identified := true, ident := List.replicate 32 0 } }

/-- The field that ends a list of bytes. -/
theorem leAt_tail (l : List Byte) (n : Nat) (h : n < 2 ^ 32) : leAt (l ++ leBytes n 4) l.length 4 = n := by
  simp [leAt, sliceBytes, List.range_succ, leBytes, leNat]
  omega

/-- The map's CRC is right. -/
theorem mapBytes_crc : ¬BitVec.ofNat 32 (leAt mapBytes 648 4) ≠ crc32 (mapBytes.take 648) := by
  have hl : mapBody.length = 648 := by decide +kernel
  have h := leAt_tail mapBody (crc32 mapBody).toNat (crc32 mapBody).isLt
  rw [hl] at h
  have ht : mapBytes.take 648 = mapBody := List.take_left' hl
  rw [ht, show leAt mapBytes 648 4 = (crc32 mapBody).toNat from h]
  simp

/-- The checks accept it. -/
theorem witness_map_accepted :
    (let s := mapS mapBytes
     mapRejects s s.calmap.read s.calmap.readFailed (sliceBytes s.obs.ident 0 16) = 0) := by
  show mapRejects (mapS mapBytes) mapBytes false (sliceBytes (mapS mapBytes).obs.ident 0 16) = 0
  unfold mapRejects
  dsimp only
  have ht : 128 + tileCols (mapU mapBytes 12 2) * tileRows (mapU mapBytes 14 2) * 520 + 4 = 652 := by decide +kernel
  rw [ht]
  refine (if_neg (by decide)).trans ?_
  refine (if_neg (by decide +kernel)).trans ?_
  refine (if_neg (by decide +kernel)).trans ?_
  refine (if_neg mapBytes_crc).trans ?_
  refine (if_neg (by decide +kernel)).trans ?_
  refine (if_neg (by decide +kernel)).trans ?_
  refine (if_neg (by decide +kernel)).trans ?_
  refine (if_neg (by decide +kernel)).trans ?_
  refine (if_neg (by decide +kernel)).trans ?_
  exact if_neg (by decide +kernel)

/-- A blit that starts: one pixel of a byte, with the pattern. -/
theorem witness_blit_starts :
    (let s : State := { up with regs := [(mcaBltSize, 0x00010001), (mcaBltDstPitch, 16)] }
     let u := writeKey s mcaBltCtrl 0x80F00040
     bltRefusal u (bltLatch u) = 0) := by decide +kernel

/-- Three equal repetitions of the ADC, near the nominal gain: accepted; no repetition: rejected. -/
theorem witness_calibration_accepted :
    (let s : State := { up with therm := { cal := some false }, regs := [(sltCalGain, 611770500), (sltCalOffset, 100)] }
     let r := calAdc s ⟨List.replicate 3 (32692 + 100, 100), []⟩ true
     r.1.2 = 0 ∧ r.2.2 = 0 ∧ (calAdc s ⟨[], []⟩ true).1.2 ≠ 0) := by decide +kernel

/-! Quartz, memory, Borax. -/

/-- A unit of `n` bytes: TYPE, SEQ and LENGTH, then these bytes, then zeros (R61, R62). -/
def unit (type seq n : Nat) (bs : List Byte) : List Byte :=
  let h := [BitVec.ofNat 8 type, 0] ++ leBytes seq 2 ++ leBytes n 4 ++ bs
  h ++ List.replicate (n - h.length) 0

/-- A stream with one colour layer of 32 by 32 in slots from 0. -/
def stream1 : Stream := ⟨1, 0, 0, 0x3F800000, 60000, 0, ⟨0, 1, 0, false, 5⟩⟩
/-- Its declaration. -/
def decl1 : LayerDecl := ⟨0, 2, 0, 0, 32, 32⟩
/-- A header of that layer: 2 views of 16 columns, coordinates 0 to 1. -/
def hdrUnit : List Byte :=
  unit 0x11 0 72 ([0, 2, 0, 0] ++ leBytes 32 2 ++ leBytes 32 2 ++ leBytes 0 4 ++ leBytes 0x3F800000 4 ++ leBytes 0 4 ++ leBytes 0x3F800000 4 ++ leBytes 0 8 ++
    [0, 0] ++ leBytes 2 2 ++ leBytes 2 2)
/-- The layer with these buffers. -/
def layer1 (bufs : List LayerBuf) : Layer := ⟨decl1, bufs, []⟩
/-- A buffer in a role. -/
def buf1 (r : BufRole) (v : Option LayerVer) : LayerBuf := ⟨0, 4096, r, v, none, false⟩
/-- A version of frame 1 with bands. -/
def ver1 (got written : List (Nat × Nat)) (tiles : List Nat) : LayerVer := ⟨1, headerOf hdrUnit, got, written, tiles, 0, 0⟩
/-- Port 0 enabled, with this state of its own. -/
def qS (q : QPort) : State :=
  { up with quartz := { ports := (Vector.replicate 4 ({} : QPort)).set 0 q }, regs := [(qtzPortCtrl 0, 0x00010003), (qtzPortLstoreSize 0, 64)] }
/-- In a stream, inside scene frame 1, with these buffers of the layer. -/
def framed (bufs : List LayerBuf) (headers : List Nat) : QPort :=
  { state := .active, stream := some stream1, cur := some ⟨1, 1, 0, 0⟩, layers := [layer1 bufs], headers := headers }
/-- STREAM_START of version 1 with that declaration. -/
def startUnit : List Byte :=
  unit 1 0 32 ([1, 0, 1, 0] ++ leBytes 0x3F800000 4 ++ leBytes 60000 4 ++ [0, 0, 0, 0] ++ [0, 2, 0, 0] ++ leBytes 32 2 ++ leBytes 32 2)

theorem witness_QuartzStreamsAndLayers :
    (wholeUnit (qS {}) 0 startUnit 1 ∧ startUnit.length = 24 + 8 * leAt startUnit 0x0A 1 ∧ refusalOf (qS {}) 0 startUnit = 0 ∧
     refusalOf (qS {}) 0 (startUnit.set 8 2) ≠ 0) ∧
    nextUnit (qS (framed [] [])) 0 (unit 2 0 8 []) 2 stream1 ∧ nextUnit (qS (framed [] [])) 0 (unit 0x10 0 40 []) 0x10 stream1 ∧
    (let q := framed [buf1 .free none] []
     nextUnit (qS q) 0 hdrUnit 0x11 stream1 ∧ q.cur = some ⟨1, 1, 0, 0⟩ ∧ layerOf q 0 = some (layer1 [buf1 .free none]) ∧ bitAt 1 0 = true ∧ q.headers.contains 0 = false ∧
     headerOk decl1 (headerOf hdrUnit) 1 = true ∧ bufIn (layer1 [buf1 .free none]) .writing = none ∧ freeBuf (qS q) (layer1 [buf1 .free none]) = some (buf1 .free none) ∧
     layerOf q 1 = none) ∧
    (let u := unit 0x12 0 32 ([0, 0, 1, 0] ++ leBytes 0 2 ++ leBytes 0 2 ++ leBytes 8 4 ++ leBytes (32 * 32 * 4) 4)
     let v := ver1 [] [] []
     let q := framed [buf1 .writing (some v)] [0]
     nextUnit (qS q) 0 u 0x12 stream1 ∧ q.headers.contains (leAt u 8 1) = true ∧ q.dropped.contains (leAt u 8 1) = false ∧ writingVer q 0 = some (0, v) ∧
     (planesOf v.hdr.planes).contains (leAt u 9 1) = true ∧ v.got.contains (leAt u 9 1, leAt u 0x0C 2) = false ∧
     bandBytes v.hdr 0 0 = some (leAt u 0x14 4) ∧ 0 < leAt u 0x10 4 ∧ 24 + leAt u 0x10 4 ≤ u.length ∧ leAt u 0x0A 1 = 1 ∧ serves (qS q) 12 = true) ∧
    nextUnit (qS (framed [] [])) 0 (unit 0x13 0 8 []) 0x13 stream1 ∧ nextUnit (qS (framed [] [])) 0 (unit 0x55 0 8 []) 0x55 stream1 ∧ (0x55 : Nat) ∉ [1, 2, 0x10, 0x11, 0x12, 0x13, 0x20] ∧
    nextUnit (qS (framed [] [])) 0 (unit 0x20 0 8 []) 0x20 stream1 ∧
    (wholeUnit (qS (framed [] [])) 0 (unit 0x12 9 8 []) 0x12 ∧ leAt (unit 0x12 9 8 []) 2 2 ≠ (framed [] []).expSeq) ∧ getB up (qtzPortCtrl 0) 0 = false ∧
    (getB (writeKey (qS {}) (qtzPortCtrl 0) 1) (qtzPortCtrl 0) 0 = true ∧ getB (writeKey (qS {}) (qtzPortCtrl 0) 0) (qtzPortCtrl 0) 0 = false) ∧
    (let v := ver1 [(0, 0)] [(0, 0)] [0]
     let q := framed [buf1 .writing (some v)] [0]
     writingVer q 0 = some (0, v) ∧ fenceReady v = true ∧ slotOfLayer q 0 < 64 ∧ fenceReady (ver1 [] [] []) = false) ∧
    (let s : State := { up with quartz := { bindRun := some ⟨1, 0, 0⟩ } }
     s.quartz.bindRun = some ⟨1, 0, 0⟩ ∧ ∀ o : Fin 4, (qport s o).held = []) ∧ up.quartz.bindRun = none := by
  unfold nextUnit wholeUnit
  refine ⟨?_, ?_, ?_, ?_, ?_, ?_, ?_, ?_, ?_, ?_, ?_, ?_, ?_, ?_⟩ <;> decide +kernel

/-- A raw band: 32 rows of 32 pixels. -/
theorem witness_raw_band :
    (let u := unit 0x12 0 (24 + 4096) ([0, 0, 0, 0] ++ leBytes 0 2 ++ leBytes 0 2 ++ leBytes 4096 4 ++ leBytes 4096 4)
     leAt u 0x0A 1 = 0 ∧ leAt u 0x10 4 = leAt u 0x14 4 ∧ lengthOk (24 + 4096) = true ∧ bandBytes (headerOf hdrUnit) 0 0 = some 4096) := by decide +kernel

/-- DRAM in service. -/
def dramS (f : Dram → Dram) : State := { up with dram := f {}, regs := [(bxtStatus, 0x80000000)] }

/-- A request of Borax for line 0. -/
def line0 : LineReq := ⟨12, .boraxJob, 0x80, 0⟩
/-- DRAM in service, every channel in a state. -/
def chanS (c : Chan) : State := dramS fun d => { d with ch := Vector.replicate 32 c }
/-- A read of Bauxite-0's first word by Borax. -/
def read0 : Packet := mkPacket 0x80 0 12 8 0 0 0 []

theorem witness_MemoryAndMeshServeRequests :
    (serves State.reset 8 = false ∧ serves up 8 = true ∧ serves up 9 = true ∧ serves up 10 = true ∧ serves up 11 = true ∧ getF up bxtStatus 30 2 = 0 ∧
     getF (dramS id) bxtStatus 30 2 ≠ 0 ∧ (1 : Word).getLsbD 0 = true ∧ (0 : Word).getLsbD 0 = false ∧ up.retired = [] ∧ up.power.dramReadyAt ≤ up.now ∧
     ({ up with power := { dramReadyAt := 1 } } : State).now < 1) ∧
    (let s : State := { up with regs := [(bxtStatus, 0x40000000)], dram := { ch := Vector.replicate 32 { trained := true } } }
     getF s bxtStatus 30 2 = 1 ∧ (∀ ch : Fin 32, (s.dram.ch[ch]).trained = true)) ∧
    (mapAddr up 0xFFFFFFFF00 = none ∧ reqOk { line0 with line := 0xFFFFFFFF } = true ∧ reqOk { line0 with tag := 0 } = false ∧ reqOk line0 = true ∧
     (mapAddr up 0).isSome = true ∧ dramUp up = false ∧ dramUp (dramS id) = true) ∧
    ((mapAddr (dramS id) 0).map (fun p => (p.quadrant, (readChan (dramS id) p).val)) = some (0, 0) ∧
     lineQueued (chanS { writeQ := [(0, 0)] }) 0 0 = true ∧ lineQueued (dramS id) 0 0 = false ∧
     64 ≤ ((chanS { readQ := List.replicate 64 { line0 with line := 1 } }).dram.ch[(0 : Fin 32)]).readQ.length ∧
     ((chanS { readQ := [line0] }).dram.ch[(0 : Fin 32)]).readQ.contains line0 = true ∧ ((chanS { drain := some false }).dram.ch[(0 : Fin 32)]).drain.isSome = true ∧
     ((dramS id).dram.ch[(0 : Fin 32)]).drain = none ∧
     (let u := setChan (dramS id) 0 fun x => { x with readQ := [line0] }
      mayServe u u.dram.ch[(0 : Fin 32)] line0 = true) ∧
     64 ≤ ((chanS { writeQ := List.replicate 64 (1, 0) }).dram.ch[(0 : Fin 32)]).writeQ.length ∧ (1 : BitVec 256) ≠ BitVec.allOnes 256) ∧
    ((∀ w : Fin 32, isPoisoned (dramS id) w.val = false) ∧
     (let s : State := { chanS { writeQ := [(0, 0)] } with poison := [0] }
      isPoisoned s 0 = true ∧ wordEnables 1 0 ≠ 0 ∧ wordEnables 1 0 ≠ 255)) ∧
    (48 ≤ ((chanS { writeQ := List.replicate 48 (0, 0) }).dram.ch[(0 : Fin 32)]).writeQ.length ∧
     (0 : Nat) + 10000 ≤ ({ up with now := 10000 } : State).now ∧ ((chanS { writeQ := [(0, 0)], drain := some true }).dram.ch[(0 : Fin 32)]).drain = some true ∧
     openHit (chanS { writeQ := [(0, 0), (1, 0)] }) ((chanS { writeQ := [(0, 0), (1, 0)] }).dram.ch[(0 : Fin 32)]) 1 = false) ∧
    (let s : State := { dramS id with regs := [(bxtStatus, 0x80000000), (bxtMigStatus 8, 0x40000000)] }
     migRunning s 0 = true ∧ dramUp s = true ∧ (s.dram.quad[(0 : Fin 4)]).migAt + migPace s 0 ≤ s.now ∧ (lineOfSlot s 0 (migSource s 0) (migPointer s 0)).isSome = true ∧
     migPointer s 0 + 1 < linesPerRank s ∧ migSource s 0 ≠ 15 ∧ migRunning up 0 = false) ∧
    (opcodeListed 6 = false ∧ opcodeListed 8 = true ∧ serves State.reset 9 = false ∧ packetOk read0 = true ∧ pOpcode read0 = 0 ∧ pSrc read0 = 12 ∧ pDst read0 = 8 ∧
     tagTaken up 12 (pTag read0) = false ∧ packetReq read0 = some line0 ∧ eccDecode (headCode 0) 0 = .good ∧ (∀ i : Fin 4, eccDecode read0.head[i] 0 = .good) ∧
     oldestFrom { up with net := [(8, read0)] } 8 read0 = some (8, read0) ∧ oldestFrom up 8 read0 = none ∧ pAddr read0 < dramTop up) := by
  refine ⟨?_, ?_, ?_, ?_, ?_, ?_, ?_, ?_⟩ <;> decide +kernel

/-- Right after reset every link's credits make 8. -/
theorem witness_credits : ∀ (r : Fin 40) (v : Fin 2), (((({} : Mesh).nodes[r]).iface).credit[v] + onWire (({} : Mesh).nodes[r]).iface v) = 8 := by decide +kernel

theorem witness_BoraxJobsAndLanes :
    serves State.reset 12 = false ∧ serves up 12 = true ∧ (5 : Word).toNat % 8 = 5 ∧ (up.borax.jobs[jobEngine up 4]).length < 8 ∧
    8 ≤ (({ up with borax := { jobs := Vector.replicate 4 (List.replicate 8 ⟨0, false, 0⟩) } } : State).borax.jobs[(0 : Fin 4)]).length ∧
    (let s : State := { up with borax := { jobs := Vector.replicate 4 [⟨0, false, 0⟩] } }
     laneUp s 0 = true ∧ s.borax.lanes[(0 : Fin 16)] = none ∧ nextItem s 0 = some (.job 0 ⟨0, false, 0⟩) ∧ nextShadow s = none ∧ s.borax.repeatQ = [] ∧
     (⟨0, false, 0⟩ : BxJob).at_ + 1000000 ≤ ({ s with now := 1000000 } : State).now) ∧
    nextItem up 0 = none ∧
    (let s : State := { up with borax := { repeatQ := [.repeatSeg 0 0 0 0 0] } }
     s.borax.repeatQ = [.repeatSeg 0 0 0 0 0]) ∧
    (let i : BxItem := .shadowSeg 0 0 0 0
     let s : State := { up with borax := { lanes := (Vector.replicate 16 (none : Option BxItem)).set 0 (some i) } }
     s.borax.lanes[(0 : Fin 16)] = some i ∧ codes s i = true ∧ codes s (.repeatSeg 0 0 0 0 0) = false) ∧
    (let s : State := { up with quarantined := [(12, 0)] }
     isQuarantined s 12 0 = true ∧ isQuarantined s 12 1 = false ∧ s.quartz.ingest = [] ∧ s.borax.retQ = [] ∧ s.borax.again = []) ∧
    (let s : State := { up with borax := { ret := { open_ := true } } }
     s.borax.ret.open_ = true ∧ readReg (writeKey s brxRetCtrl 1) brxRetCtrl ≠ readReg s brxRetCtrl) := by decide +kernel

/-! The serial lanes, audio, time, the block as a whole. -/

/-- A control block's payload: its type, data, and the CRC (R315). -/
def control (bs : List Byte) : List Byte :=
  let b := bs ++ List.replicate (14 - bs.length) 0
  b ++ leBytes (crc16 b) 2

/-- Lane 0 of port 0 in a state; the other lanes are OFF. -/
def laneS (x : LaneSt) : State :=
  { up with links := { src := (Vector.replicate 4 (Vector.replicate 4 ({} : LaneSt))).set 0 ((Vector.replicate 4 ({} : LaneSt)).set 0 x) } }

/-- That lane. -/
def ln0 : Lane := .src 0 0

theorem witness_LanesTrainAndRecover :
    (serves State.reset (laneRegion ln0) = false ∧ serves up (laneRegion ln0) = true ∧ (laneOf up ln0).st = 0 ∧ laneRetired up ln0 = false) ∧
    (let x : LaneSt := { st := 3, run := 63 }
     laneOf (laneS x) ln0 = x ∧ blockHeaderOk ln0 6 = true ∧ blockHeaderOk ln0 1 = false ∧ x.lock = false ∧ (headerCounted true x).lock = true ∧ (9 : Nat) ≠ 6 ∧
     blockHeaderOk ln0 9 = true) ∧
    (let x : LaneSt := { st := 6, lock := true, hist := List.replicate 15 true }
     x.lock = true ∧ (headerCounted false x).lock = false ∧ (headerCounted false { x with hist := [] }).lock = true) ∧
    (controlOk (control [0, 1, 2, 3, 4]) 0 = true ∧ leAt (control [0, 1, 2, 3, 4]) 1 4 < 2 ^ 31 ∧ 2 ^ 31 ≤ leAt (control [0, 0, 0, 0, 0x80]) 1 4 ∧ controlOk [] 0 = false) ∧
    (let pl := control [1, 0, 0, 0, 0, 3]
     controlOk pl 1 = true ∧ bitAt (leAt pl 5 1) 0 = true ∧ bitAt (leAt pl 5 1) 1 = true) ∧
    (controlOk (control [2, 2]) 2 = true ∧ (laneOf (laneS { st := 2, caps := control [2, 2], capsN := 7 }) ln0).capsN + 1 = 8) ∧
    (presetCount up ln0 = 5 ∧ (let s (w : Word) : State := { up with regs := [(qtzPortLinkCtrl 0, w)] }
      9 < 2 * getF (s 0x3F00) (laneCtrl ln0) 8 6 ∧ 2 * getF (s 0) (laneCtrl ln0) 8 6 ≤ 9)) ∧
    (16 < ((0 :: List.replicate 16 0).filter fun t => decide (0 < t + 1000000000)).length) ∧
    (let caps := control [2, 1, 0, 0, 3]
     leAt caps 3 1 % 2 = 0 ∧ versionCode (leAt caps 1 1) (leAt caps 2 1) = some 0 ∧
     (let s : State := { up with regs := [(qtzPortLinkCtrl 0, 2)] }
      leAt caps 3 1 / 2 % 4 ≠ getF s (qtzPortLinkCtrl 0) 1 1 ∧ (negotiate s ln0 caps).toOption = some (0, 0) ∧ getF s (qtzPortLinkStatus 0) 20 4 = 0)) ∧
    (laneTakesPart up 0 0 ∧ ¬laneTakesPart { up with retired := [⟨3, 0, 0⟩] } 0 0) ∧
    (serves up 14 = true ∧ (∀ j : Fin 4, (laneOf up (.panel 11 j)).st = 0) ∧ (∀ j : Fin 4, (laneOf up (.back j)).st = 0)) := by
  unfold laneTakesPart; decide +kernel

/-- An ACTIVE lane, with a margin round at its last level and without; a packet's blocks; a packet assembled again. -/
theorem witness_links_more :
    (laneOf (laneS { st := 6 }) ln0).st = 6 ∧ eyeRuns (laneS { st := 6 }) ln0 = false ∧
    eyeRuns { laneS { st := 6 } with links := { (laneS { st := 6 }).links with eye := Vector.replicate 2 (some 0) } } ln0 = true ∧
    laneRetired { up with retired := [⟨3, 0, 0⟩] } ln0 = true ∧ (assembled (packetBlocks 0 0 0 (List.replicate 8 1) false false)).1 = none := by decide +kernel

/-- A packet of channel 0 with SEQ and 8 bytes. -/
def packet (seq : Nat) : SlPacket :=
  let body : List Byte := List.replicate 8 0
  let a := leBytes 8 2 ++ leBytes seq 2 ++ [0, 0]
  ⟨a ++ leBytes (crc16 (a ++ body)) 2 ++ body, body, crc32 body⟩

/-- Port 0's link in ACTIVE, with this end of it. -/
def linkS (x : SlPort) : State := { up with regs := [(qtzPortLinkStatus 0, 0x60000000)], links := { port := (Vector.replicate 4 ({} : SlPort)).set 0 x } }

theorem witness_LinkPacketsAndReports :
    (serves State.reset 3 = false ∧ linkState up 0 ≠ 6 ∧ serves (linkS {}) 3 = true ∧ linkState (linkS {}) 0 = 6) ∧
    (packetDamaged (packet 0) = false ∧ packetKept (packet 0) = true ∧ packetDamaged ⟨[], [], 1⟩ = true ∧
     (leAt (packet 0).start 2 2 % 4096 + 4096 - 0) % 4096 = 0 ∧ 0 < (leAt (packet 2047).start 2 2 % 4096 + 4096 - 0) % 4096 ∧
     (leAt (packet 2047).start 2 2 % 4096 + 4096 - 0) % 4096 < 2048 ∧ 2048 ≤ (leAt (packet 2048).start 2 2 % 4096 + 4096 - 0) % 4096) ∧
    (let s := linkS { replay := [⟨5, 0, []⟩, ⟨6, 0, []⟩] }
     (s.links.port[(0 : Fin 4)]).replay.findIdx? (fun o => o.seq == 5) = some 0 ∧ (s.links.port[(0 : Fin 4)]).replay ≠ [] ∧ (s.links.port[(0 : Fin 4)]).resent < 4 ∧
     (∀ o ∈ (s.links.port[(0 : Fin 4)]).replay, o.seq ≠ 7)) ∧
    4 ≤ ((linkS { resent := 4 }).links.port[(0 : Fin 4)]).resent ∧
    ((up.links.port[(0 : Fin 4)]).owed = Vector.replicate 2 0 ∧ (qport up 0).statusOut = [] ∧ returnBytes up 0 = [] ∧ (qport up 0).held = []) ∧
    maySend (linkS { credit := Vector.replicate 2 9 }) 0 1 8 = true ∧
    (controlOk (control [0x80, 5]) 0x80 = true ∧ controlOk (control [0x81, 5]) 0x81 = true ∧ controlOk (control [0x83]) 0x83 = true) ∧
    (leAt (control [0x83, 0, 0, 1, 0]) 3 2 ≠ 0 ∧ leAt (control [0x83]) 3 2 = 0 ∧ (0 : Nat) ∉ up.links.crcRaised) ∧
    ((0x80000000 : Word).getLsbD 31 = true ∧ up.links.eye[(0 : Fin 2)] = none ∧
     (({ up with links := { eye := Vector.replicate 2 (some 0) } } : State).links.eye[(1 : Fin 2)]).isSome = true) := by decide +kernel

/-- Output port 0 as said; Garnet in service. -/
def audS (p : AudioPort) (regs : List (Nat × Word)) : State := { up with audio := { ports := Vector.replicate 6 p }, regs := regs }

theorem witness_AudioCommands :
    (serves State.reset 15 = false ∧ serves up 15 = true ∧ portRefusal 1 = 0 ∧ portRefusal 0xFFFFFFFF ≠ 0) ∧
    (let k := grnOpCtrl 0
     getB (writeKey up k 1) k 0 = true ∧ getB up k 0 = false ∧ getB (writeKey up k 0) k 0 = false ∧ getB (audS {} [(grnOpCtrl 0, 1)]) k 0 = true) ∧
    ((1 : Word).getLsbD 0 = true ∧ (2 : Word).getLsbD 1 = true ∧ 0 < timeNs up.time + 100000 ∧
     (let t := writeKey { up with regs := [(grnStartSecLo, 1)] } grnStartCtrl 1
      timeNs up.time + 100000 ≤ ((readReg t grnStartSecHi).toNat * 2 ^ 32 + (readReg t grnStartSecLo).toNat) * 1000000000 + getF t grnStartNs 0 30)) ∧
    (let s := audS { run := some 1 } [(grnStartCtrl, 0x100)]
     (s.audio.ports[outPort 0]).run = some 1 ∧ (s.audio.ports[outPort 0]).k ≠ some (gridFrame s (rateHz (portRate 1))) ∧
     portBegins s 0 (gridTime (rateHz (portRate 1)) (gridFrame s (rateHz (portRate 1)))) ∧ s.audio.startAt ≤ timeNs s.time ∧
     (s.audio.ports[outPort 0]).stopping = false ∧ (∀ op : Fin 4, getB up grnStartCtrl (8 + op.val) = false) ∧ serves State.reset 15 = false ∧
     isPowered State.reset 15 = false ∧ serves (audS {} []) 15 = true ∧ isPowered { up with ctl := up.ctl.set 15 { phase := .draining } } 15 = true ∧
     serves { up with ctl := up.ctl.set 15 { phase := .draining } } 15 = false) ∧
    (let s := audS { run := some 1, started := true } []
     portFollows 1 = false ∧ (s.audio.ports[outPort 0]).started = true ∧ lockOn s = false ∧
     (∀ c : Fin 16, sourceHas s (readReg s (grnRoute (16 * 0 + c.val))) (timeNs s.time) = none)) ∧
    ((audS { run := some 1, started := true, stopping := true } []).audio.ports[outPort 0]).stopping = true ∧ portFollows 5 = true ∧
    (let s : State := { up with audio := { paths := Vector.replicate 4 (Vector.replicate 16 { under := some 0 }) } }
     ((s.audio.paths[(3 : Fin 4)])[(15 : Fin 16)]).under.isSome = true ∧ ((s.audio.paths[(3 : Fin 4)])[(15 : Fin 16)]).ramp = none) ∧
    (let w : Word := 5
     let i : FsyncInfo := ⟨portSlots w * portWidth w, []⟩
     i.bclks = portSlots w * portWidth w ∧ (meterOf up 0).seen = none ∧ intervalOk (65536 * 1000000000 / 48000) 48000 = true ∧ intervalOk 0 48000 = false) ∧
    (let s : State := { up with time := ⟨1, 0, 0⟩, audio := { meters := Vector.replicate 10 { since := some 0, first := some 0, seen := some 65536, frames := 1 } } }
     (meterOf s 9).since = some 0 ∧ 0 + 65536000 * getF s grnEmbedCtrl 0 16 ≤ nowFine s ∧ (meterOf s 0).since = some 0 ∧ 0 + 4 * fineSecond / clkHz s 0 ≤ nowFine s ∧
     (meterOf s 9).first = some 0 ∧ (meterOf s 9).seen = some 65536 ∧ 0 + fineSecond ≤ nowFine s ∧ (meterOf s 9).frames ≠ 0 ∧ (0 : Nat) < 65536 ∧ nearestRate 1 65536 < 7) ∧
    (let t : State := { audS { run := some 1, started := true } [] with tport := { trg := Vector.replicate 4 { cfg := some ⟨5, 0, 0, 0, 100, 0⟩ } } }
     (t.audio.ports[outPort 0]).started = true ∧ (up.audio.ports[outPort 0]).started = false ∧ (t.tport.trg[(3 : Fin 4)]).cfg = some ⟨5, 0, 0, 0, 100, 0⟩) ∧
    (clkStopped up 9 = false ∧ clkStopped { up with regs := [(grnMeas 9, 0x40000000)] } 9 = true) ∧
    (let s : State := { up with regs := [(grnLockCtrl, 1)] }
     lockOn s = true ∧ lockClk s = 4 ∧ s.audio.lock.accepted = false ∧ s.audio.lock.fifo.length < 64 ∧
     (let u (n : Nat) : State := { s with audio := { lock := { accepted := true, fifo := List.replicate n [] } } }
      lockOn (u 64) = true ∧ (u 63).audio.lock.accepted = true ∧ (u 63).audio.lock.fifo.length < 64 ∧ 64 ≤ ((u 64).audio.lock.fifo).length)) := by
  unfold portBegins; refine ⟨?_, ?_, ?_, ?_, ?_, ?_, ?_, ?_, ?_, ?_, ?_, ?_, ?_⟩ <;> decide +kernel

/-- Garnet with SOURCE PTP, an address, the time link up, and the port in a state; `p` its own state. -/
def ptpS (st : Nat) (p2p : Bool) (p : PtpPort) : State :=
  { up with tport := { ptp := p }
            regs := [(grnPtpCtrl, if p2p then 0x00800019 else 0x00800011), (grnMacLo, 1), (grnTimeLinkStatus, 1), (grnServoStatus, BitVec.ofNat 32 (st * 2 ^ 26))] }

/-- A message of another clock. -/
def msg (k : PtpKind) : PtpMsg :=
  { ownAnnounce up with kind := k, sender := 7, domain := 0, requester := clockId (ptpS 9 false {}) }

theorem witness_NetworkTimeAndTriggers :
    (serves State.reset 15 = false ∧ heard (ptpS 9 false {}) (msg .announce) ∧ ¬heard up (msg .announce)) ∧
    (let s := ptpS 9 false { best := some (msg .announce), sync := some (0, 0, 0), dreq := some (0, 0), down := some 0 }
     heard s (msg .sync) ∧ fromMaster s (msg .sync) = true ∧ (msg .sync).twoStep = false ∧ ({ msg .sync with twoStep := true } : PtpMsg).twoStep = true ∧
     s.tport.ptp.sync = some ((msg .followUp).seq.toNat, 0, 0) ∧ s.tport.ptp.dreq = some ((msg .delayResp).seq.toNat, 0) ∧ s.tport.ptp.down = some 0 ∧
     (msg .delayResp).requester = clockId s ∧ getB s grnPtpCtrl 3 = false) ∧
    (let s := ptpS 9 true { pdreq := some (0, 0) }
     heard s (msg .pdelayResp) ∧ getB s grnPtpCtrl 3 = true ∧ s.tport.ptp.pdreq = some ((msg .pdelayResp).seq.toNat, 0) ∧ (msg .pdelayResp).requester = clockId s) ∧
    (ptpUp up = false ∧ ptpUp (ptpS 6 false {}) = true ∧ portStatePtp (ptpS 6 false {}) = 6 ∧ portStatePtp (ptpS 9 false {}) = 9) ∧
    (let s := ptpS 6 false { syncSent := some (1, 2), owed := [(7, 1, 2, 3)], pdOwed := [(7, 1, 2)], pdFollow := [(7, 1, 2)] }
     s.tport.ptp.syncSent = some (1, 2) ∧ s.tport.ptp.owed = [(7, 1, 2, 3)] ∧ s.tport.ptp.sentAt[(0 : Fin 4)] = none ∧
     (let late (a : Nat) : State := { ptpS 9 false { sentAt := Vector.replicate 4 (some 0), annAt := some 0, syncAt := some 0, igmpAt := some 0 } with now := a }
      passed (late 10000000000) 1 8 0 ∧ passed (late 10000000000) 3 0 0 ∧ passed (late 10000000000) (getF (late 0) grnPtpIntervals 24 8) 8 0 ∧ ¬passed (late 0) 1 8 0)) ∧
    (ptpSource up ≠ 1 ∧ ptpSource (ptpS 9 false {}) = 1 ∧ getB (ptpS 9 false {}) grnPtpCtrl 4 = true ∧ macSet (ptpS 9 false {}) = true ∧
     getB (ptpS 9 false {}) grnPtpCtrl 7 = false ∧ getB (ptpS 9 false {}) grnTimeLinkStatus 0 = true ∧ readReg up grnIpv4 = 0) ∧
    (ptpSource up = 0 ∧ ptpSource { up with regs := [(grnPtpCtrl, 2)] } = 2 ∧ (4 : Word).getLsbD 2 ≠ getB up grnPtpCtrl 2 ∧ (4 : Word).toNat % 4 = 0) ∧
    (getF { up with regs := [(grnCapCtrl 0, 3)] } (grnCapCtrl 0) 0 2 = 3 ∧ getF up (grnCapCtrl 0) 0 2 = 0 ∧ (up.tport.cap[(0 : Fin 4)]).fifo.length < 16 ∧
     (up.tport.cap[(0 : Fin 4)]).lostAt = none ∧ 16 ≤ (({ up with tport := { cap := Vector.replicate 4 { fifo := List.replicate 16 ⟨0, 0, 0, true⟩ } } } : State).tport.cap[(0 : Fin 4)]).fifo.length) ∧
    (getB up grnPpsCtrl 1 = false ∧ getB up grnPpsCtrl 0 = false ∧ up.time.ns = 0 ∧ 0 + 2000000000 ≤ ({ up with now := 2000000000, tport := { ppsAt := some 0 } } : State).now ∧ getB { up with regs := [(grnPpsCtrl, 1)] } grnPpsCtrl 0 = true ∧ clockUnitOn up = true ∧ clockUnitOn State.reset = false) ∧
    (let t (mode : Nat) (edges : List Nat) : State := { up with tport := { trg := Vector.replicate 4 { cfg := some ⟨mode, 0, 1000, 0, 100, 0⟩, edges := edges } } }
     ((t 6 []).tport.trg[(3 : Fin 4)]).cfg = some ⟨6, 0, 1000, 0, 100, 0⟩ ∧ ((t 1 [0, 5]).tport.trg[(3 : Fin 4)]).edges.filter (fun e => decide (e ≤ timeNs up.time)) = [0] ∧
     (up.tport.trg[(0 : Fin 4)]).cfg = none ∧ timeNs up.time < 0 + 1 * 1000) ∧
    (getF up (grnTrgCtrl 0) 0 3 = 0 ∧ trgStart up 0 < timeNs up.time + 1000) := by
  unfold heard passed; refine ⟨?_, ?_, ?_, ?_, ?_, ?_, ?_, ?_, ?_, ?_, ?_⟩ <;> decide +kernel

theorem witness_StepRunsTheFrontCommand :
    ({ up with pending := [.waveCommit .ha] } : State).pending = [.waveCommit .ha] ∧ up.pending = [] := by decide

theorem witness_RegisterWrites :
    ((0x300500 : BitVec 24).toNat % 4 = 0 ∧ serves up 3 = true ∧ actingOffset 3 0x500 = false ∧ (3 : Nat) ≠ 0 ∧ serves State.reset 3 = false) ∧
    (slateUp up = true ∧ actingOffset 0 0x330 = false) ∧ (getF up bxtStatus 30 2 = 0 ∧ getF (dramS id) bxtStatus 30 2 ≠ 0 ∧ serves up 11 = true) ∧
    (up.obs.state = .off ∧ onS.obs.state ≠ .off ∧ serves up 14 = true) ∧ perHost 0 0xC00 = true ∧ perRequester 12 0x120 = true := by decide +kernel

/-- The invariant's states: one with a listed byte and a semaphore that is held and waited for. -/
theorem witness_StepKeepsTheInvariant : Inv { semS ⟨some (.host .b), [.host .a]⟩ with mem := [(0, 1)] } := by
  unfold Inv SemOk
  refine ⟨by decide +kernel, ?_⟩
  decide +kernel

/-- Balls that R515 and R524 name: B2, F51, F53 and A51, and the site A1, which carries none. -/
theorem test_balls :
    ballName 53 53 = "BT53" ∧ ballAt 1 1 = none ∧ ballAt 2 2 = some "VSS" ∧ ballAt 1 51 = some "VSS" ∧ ballAt 6 51 = some "VDD_SL" ∧
    ballAt 6 53 = some "VDDH_SL" := by decide +kernel

theorem witness_ResetHolds : (let s := { up with power := { up.power with resetPin := true } }
    s.power.resetPin = true ∧ s.power.mode = .run) := by decide

end Sys2Proof.Tests
end

section
/-! PROOFS. Register writes: what the access codes do to a word, what an access to a window leaves alone, what each window does with a register that has no behaviour of its own, and the statement on REGISTER_WRITE. -/

namespace Sys2Proof.Machine

open Says

/-! The register map's fields (R8): they lie within the word, no two share a bit, and none holds a W1C bit. -/

/-- Two fields that share no bit. -/
abbrev RwField.Apart (f g : RwField) : Prop := f.lo + f.width ≤ g.lo ∨ g.lo + g.width ≤ f.lo

/-- A row whose fields lie within the word, apart from one another and from the W1C bits. -/
def RegDesc.fieldsOk (d : RegDesc) : Bool :=
  d.rw.all (fun f => decide (f.lo + f.width ≤ 32) && fld d.w1c f.lo f.width == 0) && decide (d.rw.Pairwise RwField.Apart)

theorem RegDesc.fieldsOk_iff (d : RegDesc) :
    d.fieldsOk = true ↔ (∀ f ∈ d.rw, f.lo + f.width ≤ 32 ∧ fld d.w1c f.lo f.width = 0) ∧ d.rw.Pairwise RwField.Apart := by
  simp [RegDesc.fieldsOk]

theorem RegDesc.fieldsOk_ite {p : Prop} [Decidable p] {d e : RegDesc} (hd : d.fieldsOk = true) (he : e.fieldsOk = true) :
    (if p then d else e).fieldsOk = true := by
  split <;> assumption

theorem RegDesc.fieldsOk_mk {rw : List RwField} {w1c : Word} (reset : Word) (h : (RegDesc.mk rw w1c 0).fieldsOk = true) :
    (RegDesc.mk rw w1c reset).fieldsOk = true := h

/-- Every row of the map: the chain of its rows is taken apart, and each row is evaluated. -/
theorem regDesc_fieldsOk (r o : Nat) : (regDesc r o).fieldsOk = true := by
  unfold regDesc descSlate descFlint descQuartz descGalena descBauxiteChip descBauxite descBorax descMica descObsidian descGarnet waveDesc
  repeat' apply RegDesc.fieldsOk_ite
  all_goals exact RegDesc.fieldsOk_mk _ rfl

/-! Writing a word by its fields' access codes (R8, R9). -/

/-- One RW field of a word written: it takes the written value where its table lists it. -/
def takeField (v w : Word) (f : RwField) : Word :=
  if f.legal.ok (fld v f.lo f.width) then setFld w f.lo f.width (fld v f.lo f.width) else w

theorem writeByCode_eq (d : RegDesc) (old v : Word) : writeByCode d old v = d.rw.foldl (takeField v) old &&& ~~~(v &&& d.w1c) := rfl

theorem fld_takeField (v w : Word) {f : RwField} (h : f.lo + f.width ≤ 32) :
    fld (takeField v w f) f.lo f.width = if f.legal.ok (fld v f.lo f.width) = true then fld v f.lo f.width else fld w f.lo f.width := by
  unfold takeField
  split
  · rw [fld_setFld _ _ h, Nat.mod_eq_of_lt (fld_lt _ _ _)]
  · rfl

theorem fld_takeField_of_apart (v w : Word) {f g : RwField} (h : f.lo + f.width ≤ 32) (hd : f.Apart g) :
    fld (takeField v w g) f.lo f.width = fld w f.lo f.width := by
  unfold takeField
  split
  · exact fld_setFld_ne _ _ h hd
  · rfl

theorem getLsbD_takeField (v w : Word) {f : RwField} {j : Nat} (hj : j < 32) (h : ¬inField f j) : (takeField v w f).getLsbD j = w.getLsbD j := by
  unfold takeField
  split
  · rw [getLsbD_setFld _ _ _ _ _ hj, if_neg (by simpa [inField] using h)]
  · rfl

theorem fld_foldl_takeField_of_apart (v w : Word) {fs : List RwField} {f : RwField} (h : f.lo + f.width ≤ 32) (hd : ∀ g ∈ fs, f.Apart g) :
    fld (fs.foldl (takeField v) w) f.lo f.width = fld w f.lo f.width := by
  induction fs generalizing w with
  | nil => rfl
  | cons g fs ih =>
    obtain ⟨hg, hfs⟩ := List.forall_mem_cons.1 hd
    rw [List.foldl_cons, ih _ hfs, fld_takeField_of_apart v w h hg]

/-- Of fields apart from one another, each takes its own part of the written value. -/
theorem fld_foldl_takeField (v w : Word) {fs : List RwField} {f : RwField} (hw : ∀ g ∈ fs, g.lo + g.width ≤ 32) (hd : fs.Pairwise RwField.Apart)
    (hf : f ∈ fs) : fld (fs.foldl (takeField v) w) f.lo f.width =
      if f.legal.ok (fld v f.lo f.width) = true then fld v f.lo f.width else fld w f.lo f.width := by
  induction fs generalizing w with
  | nil => cases hf
  | cons g fs ih =>
    obtain ⟨hg, hfs⟩ := List.forall_mem_cons.1 hw
    obtain ⟨hga, hda⟩ := List.pairwise_cons.1 hd
    rw [List.foldl_cons]
    rcases List.mem_cons.1 hf with rfl | hf
    · rw [fld_foldl_takeField_of_apart _ _ hg hga, fld_takeField v w hg]
    · rw [ih _ hfs hda hf, fld_takeField_of_apart v w (hfs f hf) (hga f hf).symm]

theorem getLsbD_foldl_takeField (v w : Word) {fs : List RwField} {j : Nat} (hj : j < 32) (h : ∀ f ∈ fs, ¬inField f j) :
    (fs.foldl (takeField v) w).getLsbD j = w.getLsbD j := by
  induction fs generalizing w with
  | nil => rfl
  | cons g fs ih =>
    obtain ⟨hg, hfs⟩ := List.forall_mem_cons.1 h
    rw [List.foldl_cons, ih _ hfs, getLsbD_takeField v w hj hg]

/-- A bit of a field, by the field's value. -/
theorem getLsbD_of_fld_eq_zero {w : Word} {lo n i : Nat} (h : fld w lo n = 0) (hi : i < n) : w.getLsbD (lo + i) = false := by
  have ht := testBit_fld w lo n i
  simpa [h, hi] using ht.symm

/-- Clearing W1C bits leaves a field that holds none of them. -/
theorem fld_and_not_w1c (w v : Word) {w1c : Word} {lo n : Nat} (hn : lo + n ≤ 32) (h : fld w1c lo n = 0) :
    fld (w &&& ~~~(v &&& w1c)) lo n = fld w lo n := by
  apply Nat.eq_of_testBit_eq
  intro i
  rw [testBit_fld, testBit_fld]
  by_cases hi : i < n
  · have hin : lo + i < 32 := by omega
    simp only [BitVec.getLsbD_and, BitVec.getLsbD_not, getLsbD_of_fld_eq_zero h hi, hin, decide_true, Bool.and_false, Bool.not_false, Bool.and_true]
  · simp [hi]

theorem fld_writeByCode {d : RegDesc} (hd : d.fieldsOk = true) (old v : Word) {f : RwField} (hf : f ∈ d.rw) :
    fld (writeByCode d old v) f.lo f.width =
      if f.legal.ok (fld v f.lo f.width) = true then fld v f.lo f.width else fld old f.lo f.width := by
  obtain ⟨hw, ha⟩ := d.fieldsOk_iff.1 hd
  rw [writeByCode_eq, fld_and_not_w1c _ _ (hw f hf).1 (hw f hf).2, fld_foldl_takeField v old (fun g hg => (hw g hg).1) ha hf]

theorem getLsbD_writeByCode (d : RegDesc) (old v : Word) {j : Nat} (hj : j < 32) (h : ∀ f ∈ d.rw, ¬inField f j) :
    (writeByCode d old v).getLsbD j = (old.getLsbD j && !(d.w1c.getLsbD j && v.getLsbD j)) := by
  rw [writeByCode_eq, BitVec.getLsbD_and, getLsbD_foldl_takeField v old hj h, BitVec.getLsbD_not, BitVec.getLsbD_and, decide_eq_true hj, Bool.true_and,
    Bool.and_comm (v.getLsbD j)]

theorem flag_zero_eq_getLsbD (v : Word) : flag v 0 = v.getLsbD 0 := by
  have h := testBit_fld v 0 1 0
  have hlt := fld_lt v 0 1
  simp only [flag]
  interval_cases fld v 0 1 <;> simpa using h

/-! The requester's copy (R511). -/

/-- The registers kept for each requester stand in Borax and Garnet, those kept for each host in Slate. -/
theorem perHost_eq_false_of_perRequester {r o : Nat} (h : perRequester r o = true) : perHost r o = false := by
  have hr : r ≠ 0 := by
    rintro rfl
    simp [perRequester] at h
  simp [perHost, hr]

theorem keyOf_eq_iff (q p : Requester) (r o : Nat) : keyOf q r o = keyOf p r o ↔ copyOf q r o = copyOf p r o := by
  simp [keyOf]

theorem copyOf_perRequester {r o : Nat} (h : perRequester r o = true) : copyOf .ha r o = 0 ∧ copyOf .hb r o = 1 ∧ copyOf .fp r o = 2 := by
  simp [copyOf, perHost_eq_false_of_perRequester h, h]

theorem copyOf_perHost {r o : Nat} (q : Requester) (h : perHost r o = true) : copyOf q r o = if q = .hb then 1 else 0 := if_pos h

theorem copyOf_shared {r o : Nat} (q : Requester) (hh : perHost r o = false) (hr : perRequester r o = false) : copyOf q r o = 0 := by
  simp [copyOf, hh, hr]

theorem keyOf_hosts_ne_iff (r o : Nat) : keyOf .ha r o ≠ keyOf .hb r o ↔ perHost r o = true ∨ perRequester r o = true := by
  rw [ne_eq, keyOf_eq_iff]
  cases hr : perRequester r o
  · cases hh : perHost r o
    · simp [copyOf_shared _ hh hr]
    · simp [copyOf_perHost _ hh]
  · simp [copyOf_perRequester hr]

theorem keyOf_fp_eq_of_shared {r o : Nat} (hh : perHost r o = false) (hr : perRequester r o = false) : keyOf .fp r o = keyOf .ha r o := by
  rw [keyOf_eq_iff, copyOf_shared _ hh hr, copyOf_shared _ hh hr]

theorem keyOf_fp_ne_of_perRequester {r o : Nat} (h : perRequester r o = true) :
    keyOf .fp r o ≠ keyOf .ha r o ∧ keyOf .fp r o ≠ keyOf .hb r o := by
  simp [keyOf_eq_iff, copyOf_perRequester h]

/-! An access to a window (R435): it touches the window's clock and the tie bit alone. -/

theorem reqMeets_slate_only (s : State) (q : Requester) (r : Nat) : { reqMeets s q r with slate := s.slate } = s := by
  unfold reqMeets
  split <;> rfl

theorem reqMeets_clock_only (s : State) (q : Requester) (r : Nat) :
    { (reqMeets s q r).slate with tie := s.slate.tie, clock := s.slate.clock } = s.slate := by
  unfold reqMeets
  split <;> rfl

@[simp] theorem reqMeets_regs (s : State) (q : Requester) (r : Nat) : (reqMeets s q r).regs = s.regs :=
  (congrArg State.regs (reqMeets_slate_only s q r) :)

@[simp] theorem reqMeets_ctl (s : State) (q : Requester) (r : Nat) : (reqMeets s q r).ctl = s.ctl :=
  (congrArg State.ctl (reqMeets_slate_only s q r) :)

@[simp] theorem reqMeets_power (s : State) (q : Requester) (r : Nat) : (reqMeets s q r).power = s.power :=
  (congrArg State.power (reqMeets_slate_only s q r) :)

@[simp] theorem reqMeets_obs (s : State) (q : Requester) (r : Nat) : (reqMeets s q r).obs = s.obs :=
  (congrArg State.obs (reqMeets_slate_only s q r) :)

@[simp] theorem reqMeets_boot (s : State) (q : Requester) (r : Nat) : (reqMeets s q r).slate.boot = s.slate.boot :=
  (congrArg Slate.boot (reqMeets_clock_only s q r) :)

@[simp] theorem serves_reqMeets (s : State) (q : Requester) (r n : Nat) : serves (reqMeets s q r) n = serves s n := by simp [serves, ctlOf]

@[simp] theorem slateUp_reqMeets (s : State) (q : Requester) (r : Nat) : slateUp (reqMeets s q r) = slateUp s := by simp [slateUp]

@[simp] theorem readReg_reqMeets (s : State) (q : Requester) (r n : Nat) : readReg (reqMeets s q r) n = readReg s n := by simp [readReg]

@[simp] theorem getF_reqMeets (s : State) (q : Requester) (r n lo width : Nat) : getF (reqMeets s q r) n lo width = getF s n lo width := by simp [getF]

/-! What a window does with a write, once its region serves. -/

/-- A write of the register at offset `o` of region `r`, whose window takes it. -/
def windowWrite (s : State) (q : Requester) (r o : Nat) (v : Word) : State :=
  if r = 0 then whenSlate s fun s => slateWrite s q o v
  else if r = 1 then flintWrite s q .a o v
  else if r = 2 then flintWrite s q .b o v
  else if r = 3 then quartzWrite s q o v
  else if r < 8 then s
  else if r < 12 then bauxiteWrite s q r o v
  else if r = 12 then boraxWrite s q o v
  else if r = 13 then micaWrite s q o v
  else if r = 14 then obsidianWrite s q o v
  else garnetWrite s q o v

theorem busWrite_eq (s : State) (q : Requester) (a : Nat) (v : Word) :
    busWrite s q a v = if serves s (a / 0x100000) = true then windowWrite s q (a / 0x100000) (a % 0x100000) v else s := by
  cases h : serves s (a / 0x100000) <;> simp [busWrite, windowWrite, h]

/-! A window's write is a chain of tests for the registers with behaviour of their own: where `actingOffset` names none of them, each test fails, and the chain ends in the plain write. -/

theorem slateWrite_plain {o : Nat} (s : State) {q : Requester} (v : Word) (hq : q ≠ .fp) (ho : o % 4 = 0) (h : actingOffset 0 o = false) :
    slateWrite s q o v = writeKey s (keyOf q 0 o) v := by
  have hn : ¬(0xA20 ≤ o ∧ o < 0xA40) := by
    intro hc
    have harr : inArr o 0xA20 8 4 = true := by simp [inArr]; omega
    simp [actingOffset, harr] at h
  cases q <;> simp_all [actingOffset, slateWrite, hostOfReq, plainWrite]

theorem flintWrite_plain {o : Nat} (s : State) (q : Requester) (f : FlintId) (v : Word) (h : actingOffset (flintRegion f) o = false) :
    flintWrite s q f o v = writeKey s (keyOf q (flintRegion f) o) v := by
  cases f <;> simp_all [actingOffset, flintWrite, flintRegion, plainWrite]

theorem quartzWrite_plain {o : Nat} (s : State) (q : Requester) (v : Word) (h : actingOffset 3 o = false) :
    quartzWrite s q o v = writeKey s (keyOf q 3 o) v := by
  simp_all [actingOffset, quartzWrite, plainWrite]

theorem boraxWrite_plain {o : Nat} (s : State) (q : Requester) (v : Word) (h : actingOffset 12 o = false) :
    boraxWrite s q o v = writeKey s (keyOf q 12 o) v := by
  simp_all [actingOffset, boraxWrite, plainWrite]

theorem micaWrite_plain {o : Nat} (s : State) (q : Requester) (v : Word) (h : actingOffset 13 o = false) :
    micaWrite s q o v = writeKey s (keyOf q 13 o) v := by
  simp_all [actingOffset, micaWrite, plainWrite]

theorem obsidianWrite_plain {o : Nat} (s : State) (q : Requester) (v : Word) (h : actingOffset 14 o = false) :
    obsidianWrite s q o v = writeKey s (keyOf q 14 o) v := by
  simp_all [actingOffset, obsidianWrite, plainWrite]

theorem garnetWrite_plain {o : Nat} (s : State) (q : Requester) (v : Word) (h : actingOffset 15 o = false) :
    garnetWrite s q o v = writeKey s (keyOf q 15 o) v := by
  simp_all [actingOffset, garnetWrite, plainWrite]

/-- A register without behaviour of its own takes the write by its access codes. -/
theorem windowWrite_plain {s : State} {q : Requester} {r o : Nat} (v : Word) (hr : r < 16) (hq : ¬(q = .fp ∧ r = 0)) (ho : o % 4 = 0)
    (hu : r ≠ 0 ∨ slateUp s = true) (h : actingOffset r o = false) : windowWrite s q r o v = writeKey s (keyOf q r o) v := by
  have hmid : ¬(4 ≤ r ∧ r < 12) := fun hc => by simp [actingOffset, hc] at h
  have hwin : r = 0 ∨ r = 1 ∨ r = 2 ∨ r = 3 ∨ r = 12 ∨ r = 13 ∨ r = 14 ∨ r = 15 := by omega
  rcases hwin with rfl | rfl | rfl | rfl | rfl | rfl | rfl | rfl
  · have hup : slateUp s = true := hu.resolve_left (not_not_intro rfl)
    simpa [windowWrite, whenSlate, hup] using slateWrite_plain s v (by simpa using hq) ho h
  · exact flintWrite_plain s q .a v h
  · exact flintWrite_plain s q .b v h
  · exact quartzWrite_plain s q v h
  · exact boraxWrite_plain s q v h
  · exact micaWrite_plain s q v h
  · exact obsidianWrite_plain s q v h
  · exact garnetWrite_plain s q v h

/-! The windows with a rule on when they may be written: Galena is read-only, Slate may be down, DRAM and the panel may be on (R136, R251, R274, R482). -/

theorem windowWrite_galena (s : State) (q : Requester) {r : Nat} (o : Nat) (v : Word) (hl : 4 ≤ r) (hu : r < 8) : windowWrite s q r o v = s := by
  interval_cases r <;> rfl

theorem windowWrite_slate_of_down {s : State} (q : Requester) (o : Nat) (v : Word) (h : slateUp s = false) : windowWrite s q 0 o v = s := by
  simp [windowWrite, whenSlate, h]

theorem windowWrite_bauxite (s : State) (q : Requester) {r : Nat} (o : Nat) (v : Word) (hl : 8 ≤ r) (hu : r < 12) :
    windowWrite s q r o v = bauxiteWrite s q r o v := by
  interval_cases r <;> rfl

theorem bauxiteWrite_of_on {s : State} (q : Requester) (r o : Nat) (v : Word) (h : getF s bxtStatus 30 2 ≠ 0) : bauxiteWrite s q r o v = s :=
  if_pos h

theorem bauxiteWrite_of_off {s : State} (q : Requester) (r : Nat) {o : Nat} {v : Word} (h : getF s bxtStatus 30 2 = 0)
    (ht : o ≠ 0x100 ∨ v.getLsbD 0 = false) : bauxiteWrite s q r o v = writeKey s (keyOf q r o) v := by
  have hstart : ¬(o = 0x100 ∧ flag v 0 = true) := by
    rw [flag_zero_eq_getLsbD]
    rintro ⟨ho, hv⟩
    rcases ht with ht | ht
    · exact ht ho
    · exact Bool.false_ne_true (ht.symm.trans hv)
  simp [bauxiteWrite, h, hstart, plainWrite]

/-- The registers of the panel's geometry and timing, by region and offset (R274). -/
def panelOffset (r o : Nat) : Prop := (r = 14 ∧ o ∈ [0x100, 0x104, 0x108]) ∨ ((r = 1 ∨ r = 2) ∧ o ∈ [0x200, 0x204, 0x208])

theorem windowWrite_panel (s : State) (q : Requester) {r o : Nat} (v : Word) (h : panelOffset r o) :
    windowWrite s q r o v = if s.obs.state = .off then writeKey s (keyOf q r o) v else s := by
  have hw : windowWrite s q r o v = if panelFixed s = true then s else writeKey s (keyOf q r o) v := by
    rcases h with ⟨rfl, ho⟩ | ⟨rfl | rfl, ho⟩ <;> simp only [List.mem_cons, List.not_mem_nil, or_false] at ho <;>
      rcases ho with rfl | rfl | rfl <;> rfl
  by_cases hoff : s.obs.state = .off <;> simp [hw, panelFixed, hoff]

/-! The command. -/

/-- A write that reaches its window: the address is a register's, the frame program stays out of Slate's window (R149), and the region serves. -/
def writeRuns (s : State) (q : Requester) (a : BitVec 24) : Prop :=
  a.toNat % 4 = 0 ∧ ¬(q = .fp ∧ a.toNat / 0x100000 = 0) ∧ serves s (a.toNat / 0x100000) = true

theorem execRegisterWrite_of_runs {s : State} {q : Requester} {a : BitVec 24} (v : Word) (h : writeRuns s q a) :
    execRegisterWrite q a v s = .next (windowWrite (reqMeets s q (a.toNat / 0x100000)) q (a.toNat / 0x100000) (a.toNat % 0x100000) v) := by
  obtain ⟨ha, hq, hs⟩ := h
  have hfp : ¬(q = .fp ∧ a.toNat < 0x100000) := fun ⟨hq', hlt⟩ => hq ⟨hq', Nat.div_eq_of_lt hlt⟩
  simp only [execRegisterWrite, ha, hfp, busWrite_eq, reqAt, hs, serves_reqMeets, ne_eq, not_true, or_self, if_true, if_false]

theorem execRegisterWrite_of_not_runs {s : State} {q : Requester} {a : BitVec 24} (v : Word) (h : ¬writeRuns s q a) :
    execRegisterWrite q a v s = .next s := by
  unfold execRegisterWrite
  split
  · rfl
  · next hc =>
    have hs : serves s (a.toNat / 0x100000) = false := by
      by_contra hs
      exact h ⟨by omega, fun ⟨hq, hr⟩ => hc (.inr ⟨hq, by omega⟩), by simpa using hs⟩
    simp [busWrite_eq, reqAt, hs]

theorem busRead_of_not_serves {s : State} (q : Requester) {a : Nat} (h : serves s (a / 0x100000) = false) : busRead s q a = (2, 0, s) := by
  simp [busRead, h]

/-- Settles O59: a write that reaches its window is that window's write after the access has entered its clock, and a register without behaviour of its own is written by its fields' access codes, which the map keeps apart. -/
theorem registerWrites : Obligations.RegisterWrites := by
  intro s q a v r o k runs m
  have hr : r < 16 := Nat.div_lt_of_lt_mul a.isLt
  have run (h : runs) : exec (.registerWrite q a v) s = .next (windowWrite m q r o v) :=
    (exec_registerWrite q a v s).trans (execRegisterWrite_of_runs v h)
  refine ⟨⟨_, rfl⟩, ?notRuns, ?readOnly, reqMeets_slate_only s q r, reqMeets_clock_only s q r, ?plain, ?dramOn, ?dramOff, ?panel, ?codes,
    fun _ => ⟨keyOf_hosts_ne_iff r o, keyOf_fp_eq_of_shared, keyOf_fp_ne_of_perRequester⟩, busRead_of_not_serves q⟩
  case notRuns => exact fun h => (exec_registerWrite q a v s).trans (execRegisterWrite_of_not_runs v h)
  case readOnly =>
    rintro h (⟨hl, hu⟩ | ⟨h0, hd⟩)
    · rw [run h, windowWrite_galena m q o v hl hu]
    · rw [run h, h0, windowWrite_slate_of_down q o v ((slateUp_reqMeets s q r).trans hd)]
  case plain =>
    intro h hp hu
    have ⟨ha, hq, _⟩ := h
    have ho : o % 4 = 0 := by omega
    rw [run h, windowWrite_plain v hr hq ho (by rwa [slateUp_reqMeets]) hp]
  case dramOn =>
    intro h hl hu hon
    rw [run h, windowWrite_bauxite m q o v hl hu, bauxiteWrite_of_on q r o v (by rwa [getF_reqMeets])]
  case dramOff =>
    intro h hl hu hoff ht
    rw [run h, windowWrite_bauxite m q o v hl hu, bauxiteWrite_of_off q r (by rwa [getF_reqMeets]) ht]
  case panel =>
    intro h hp
    rw [run h, windowWrite_panel m q v hp, reqMeets_obs]
  case codes =>
    intro n
    have hnew : readReg (writeKey s n v) n = writeByCode (regDesc (n % 0x1000000 / 0x100000) (n % 0x100000)) (readReg s n) v :=
      readReg_setReg_self s n _
    refine ⟨fun f hf => ?_, fun j hj hf => ?_, fun m hm => readReg_setReg_ne s _ hm, rfl⟩
    · rw [hnew, fld_writeByCode (regDesc_fieldsOk _ _) _ _ hf]
    · rw [hnew, getLsbD_writeByCode _ _ _ hj hf]

end Sys2Proof.Machine
end

section
/-! PROOFS. The package's balls, the state after reset, and the statement on what reset leaves. -/

namespace Sys2Proof.Machine

open Says

/-! The package (R515): a ball's name tells its site. -/

theorem rowNames_nodup : rowNames.Nodup := by decide +kernel

theorem rowNames_length : rowNames.length = 53 := rfl

theorem not_isDigit_of_mem_rowName : ∀ x ∈ rowNames, ∀ c ∈ x.toList, c.isDigit = false := by
  simp [rowNames, rowLetters]

theorem isDigit_of_mem_toString (n : Nat) : ∀ c ∈ (toString n).toList, c.isDigit = true := by
  intro c hc
  rw [Nat.toString_eq_repr, Nat.toList_repr] at hc
  exact Nat.isDigit_of_mem_toDigits (by omega) (by omega) hc

/-- Row and column can be told apart in a ball's name: letters, then digits. -/
theorem filter_isDigit_ballName {x : String} (hx : x ∈ rowNames) (n : Nat) :
    (x ++ toString n).toList.filter Char.isDigit = (toString n).toList := by
  rw [String.toList_append, List.filter_append, List.filter_eq_nil_iff.2 (by simpa using not_isDigit_of_mem_rowName x hx), List.nil_append,
    List.filter_eq_self.2 (isDigit_of_mem_toString n)]

theorem ballName_eq {r : Nat} (hr : r < rowNames.length) (c : Nat) : ballName (r + 1) c = rowNames[r] ++ toString c := by
  rw [ballName, Nat.add_sub_cancel, List.getD_eq_getElem _ _ hr]

theorem ballName_inj {r r' c c' : Nat} (hr : r < 53) (hr' : r' < 53) (h : ballName (r + 1) c = ballName (r' + 1) c') : r = r' ∧ c = c' := by
  rw [← rowNames_length] at hr hr'
  rw [ballName_eq hr, ballName_eq hr'] at h
  have hd := congrArg (List.filter Char.isDigit ·.toList) h
  simp only [filter_isDigit_ballName (List.getElem_mem _)] at hd
  have hc : toString c = toString c' := String.toList_injective hd
  rw [hc, String.append_left_inj] at h
  rw [Nat.toString_eq_repr, Nat.toString_eq_repr, Nat.repr_inj] at hc
  exact ⟨rowNames_nodup.getElem_inj_iff.1 h, hc⟩

/-- The sites without a ball, by row and column from 0. -/
def bareSites : List (Nat × Nat) :=
  [(0, 0), (0, 1), (1, 0), (0, 51), (0, 52), (1, 52), (51, 0), (52, 0), (52, 1), (51, 52), (52, 51), (52, 52)]

theorem ballName_bareSites : bareSites.map (fun x => ballName (x.1 + 1) (x.2 + 1)) =
    ["A1", "A2", "B1", "A52", "A53", "B53", "BP1", "BT1", "BT2", "BP53", "BT52", "BT53"] := by decide +kernel

theorem bareSites_row_lt : ∀ x ∈ bareSites, x.1 < 53 := by decide

theorem noBall_iff (r c : Nat) : noBall (r + 1) (c + 1) = true ↔ (r, c) ∈ bareSites := by
  simp [noBall, bareSites]

theorem ballAt_eq_none_iff (r c : Fin 53) : ballAt (r.val + 1) (c.val + 1) = none ↔ (r.val, c.val) ∈ bareSites := by
  rw [← noBall_iff]
  have hr := r.isLt
  have hc := c.isLt
  have hin : ¬(r.val + 1 = 0 ∨ 53 < r.val + 1 ∨ c.val + 1 = 0 ∨ 53 < c.val + 1) := by omega
  simp only [not_or] at hin
  simp [ballAt, hin]

theorem ballName_mem_bare_iff (r c : Fin 53) : ballName (r.val + 1) (c.val + 1) ∈ bareSites.map (fun x => ballName (x.1 + 1) (x.2 + 1)) ↔
    (r.val, c.val) ∈ bareSites := by
  rw [List.mem_map]
  refine ⟨fun ⟨x, hx, h⟩ => ?_, fun h => ⟨_, h, rfl⟩⟩
  obtain ⟨hr, hc⟩ := ballName_inj (bareSites_row_lt x hx) r.isLt h
  rwa [← hr, ← Nat.succ.inj hc]

/-! The state after reset. -/

theorem serves_reset_eq_false {r : Nat} (h0 : 0 < r) (hr : r < 16) : serves State.reset r = false := by
  interval_cases r <;> rfl

theorem semOf_reset (n : Nat) : semOf State.reset n = {} := by
  simp only [semOf, State.reset, Vector.getD, Array.getD_eq_getD_getElem?, Vector.toArray_replicate, Array.getElem?_replicate]
  split <;> rfl

theorem creditsKept_reset : creditsKept State.reset.mesh := by
  intro r v
  simp [State.reset, onWire]

/-- The column for reset stands right after reset and wherever SYS_RESET_N is low in service (R496). -/
theorem pinState_eq_pinReset {s : State} (h : s = State.reset ∨ (s.power.resetPin = true ∧ s.power.mode = .run)) (g : PinGroup) :
    pinState s g = pinReset g := by
  rcases h with rfl | ⟨hp, hm⟩
  · rfl
  · simp [pinState, hp, hm]

/-- Settles O58: what is read after reset is the reset value of each part of the state, and a ball's name tells its site. -/
theorem resetHolds : Obligations.ResetHolds := by
  have sems (n : Nat) : (semOf State.reset n).holder = none ∧ (semOf State.reset n).waiters = [] := by simp [semOf_reset]
  refine ⟨⟨reset_wf, fun n => ?_⟩, rfl, readReg_reset, rfl, rfl, rfl, rfl, rfl, rfl, fun _ => rfl, fun _ => rfl, rfl,
    fun _ => serves_reset_eq_false, rfl, fun f => by cases f <;> rfl, sems, rfl, rfl, rfl, rfl, rfl, rfl, rfl, rfl, rfl, rfl, creditsKept_reset,
    fun r => Vector.getElem_replicate .., fun s h => ?_, fun r c => ?_⟩
  · simp [SemOk, State.reset]
  · simp only [pinState_eq_pinReset h]
    simp [pinReset, pinUnpowered]
  · rw [ballAt_eq_none_iff, ← ballName_bareSites, ballName_mem_bare_iff]

end Sys2Proof.Machine
end

section
/-! PROOFS. The event collector: merging, queueing, dropping and delivery, and the statement on them. -/

namespace Sys2Proof.Machine

open Says

/-! An event at the collector (R37). -/

/-- The collector drops an event: it equals no queued one, and its level's entries are all taken. -/
def collDrops (c : Collector) (e : Event) : Bool :=
  !(c.queue.any fun x => sameEvent x.ev e) &&
    ((decide (evLevel e.code < 2) && decide (224 ≤ entriesLow c.queue)) || decide (256 ≤ entriesTaken c.queue))

theorem collDrops_iff (c : Collector) (e : Event) : collDrops c e = true ↔
    (c.queue.any fun x => sameEvent x.ev e) = false ∧ ((evLevel e.code < 2 ∧ 224 ≤ entriesLow c.queue) ∨ 256 ≤ entriesTaken c.queue) := by
  simp only [collDrops, Bool.and_eq_true, Bool.not_eq_true', Bool.or_eq_true, decide_eq_true_eq]

/-- The entry of an overflow episode that begins now. -/
def overflowEvent (s : State) : Event := ⟨overflowCode, 0xFF, 0xFF, 0, BitVec.ofNat 32 s.time.sec, BitVec.ofNat 32 s.time.ns⟩

theorem eventArrives_of_not_drops {s : State} {e : Event} (h : collDrops s.slate.coll e = false) :
    eventArrives s e = setColl s fun c => { c with queue := queueOrMerge (s.now / 10) c.queue e } :=
  if_pos (congrArg Bool.not h)

theorem eventArrives_of_drops {s : State} {e : Event} (h : collDrops s.slate.coll e = true) :
    eventArrives s e = if s.slate.coll.episode = true then bump s sltEvtDropped else
      setColl (bump s sltEvtDropped) fun c => { c with queue := queueOrMerge (s.now / 10) c.queue (overflowEvent s), episode := true } :=
  if_neg (Bool.eq_false_iff.1 (congrArg Bool.not h))

theorem eventArrives_frame (s : State) (e : Event) : (eventArrives s e).evNet = s.evNet ∧ (eventArrives s e).slate.log = s.slate.log ∧
    (eventArrives s e).slate.hosts = s.slate.hosts := by
  dsimp only [eventArrives]
  split
  · exact ⟨rfl, rfl, rfl⟩
  · split <;> exact ⟨rfl, rfl, rfl⟩

theorem readReg_setColl (s : State) (f : Collector → Collector) (k : Nat) : readReg (setColl s f) k = readReg s k := rfl

theorem readReg_eventArrives_of_drops {s : State} {e : Event} (h : collDrops s.slate.coll e = true) :
    readReg (eventArrives s e) sltEvtDropped = satAdd (readReg s sltEvtDropped) 1 := by
  rw [eventArrives_of_drops h]
  split
  · exact readReg_bump _ _ _
  · rw [readReg_setColl, readReg_bump]

theorem coll_eventArrives_of_episode {s : State} {e : Event} (h : collDrops s.slate.coll e = true) (hp : s.slate.coll.episode = true) :
    (eventArrives s e).slate.coll = s.slate.coll := by
  rw [eventArrives_of_drops h, if_pos hp]
  rfl

theorem coll_eventArrives_of_first_drop {s : State} {e : Event} (h : collDrops s.slate.coll e = true) (hp : s.slate.coll.episode = false) :
    (eventArrives s e).slate.coll =
      { s.slate.coll with queue := queueOrMerge (s.now / 10) s.slate.coll.queue (overflowEvent s), episode := true } := by
  rw [eventArrives_of_drops h, if_neg (by simp [hp])]
  rfl

theorem queueOrMerge_of_any {q : List QueuedEvent} {e : Event} (n : Nat) (h : (q.any fun x => sameEvent x.ev e) = true) :
    queueOrMerge n q e = q.map fun x => if sameEvent x.ev e then { x with count := x.count + 1 } else x := if_pos h

theorem queueOrMerge_of_not_any {q : List QueuedEvent} {e : Event} (n : Nat) (h : (q.any fun x => sameEvent x.ev e) = false) :
    queueOrMerge n q e = queueInsertEv q ⟨e, 1, n⟩ := by
  simp [queueOrMerge, h]

theorem not_any_sameEvent_of_code {q : List QueuedEvent} {e : Event} (h : q.all (fun x => x.ev.code != e.code) = true) :
    (q.any fun x => sameEvent x.ev e) = false := by
  rw [List.all_eq_true] at h
  rw [List.any_eq_false]
  intro x hx
  have hc : (x.ev.code == e.code) = false := by simpa using h x hx
  simp [sameEvent, hc]

/-! The mesh takes an event off in its region's order (R28). -/

theorem eventLands_of_younger {s : State} {e : Event} (h : (s.evNet.find? fun x => evRegion x.code == evRegion e.code) ≠ none)
    (he : (s.evNet.find? fun x => evRegion x.code == evRegion e.code) ≠ some e) : eventLands s e = s := by
  simp [eventLands, Option.isSome_iff_ne_none.2 h, he]

theorem eventLands_of_oldest {s : State} {e : Event}
    (h : (s.evNet.find? fun x => evRegion x.code == evRegion e.code) = none ∨ (s.evNet.find? fun x => evRegion x.code == evRegion e.code) = some e) :
    eventLands s e = eventArrives { s with evNet := s.evNet.erase e } e := by
  rcases h with h | h <;> simp [eventLands, h]

/-! Delivery (R38, R417, R471). -/

theorem readReg_hostIrq_ne (s : State) (h : HostId) (bit : Nat) {k : Nat} (hk : k ≠ hostKey h sltHostIrqStatus) :
    readReg (hostIrq s h bit) k = readReg s k := readReg_setF_ne _ _ _ _ hk

theorem readReg_hostShow_ne (s : State) (h : HostId) {k : Nat} (h1 : k ≠ hostKey h sltHostEvtStatus) (h2 : k ≠ hostKey h sltHostIrqStatus) :
    readReg (hostShow s h) k = readReg s k := by
  simp only [hostShow, readReg_setF_ne _ _ _ _ h2, readReg_setF_ne _ _ _ _ h1]

theorem holder_congr {s t : State} (h : readReg t sltLeaseStatus = readReg s sltLeaseStatus) : holder t = holder s := by
  simp [holder, getF, h]

/-- A host takes an event into its queue, or loses it: the lease is as before. -/
theorem holder_hostEvent (s : State) (h : HostId) (e : Event) : holder (hostEvent s h e) = holder s := by
  apply holder_congr
  dsimp only [hostEvent]
  split
  · rfl
  · split
    · rw [readReg_hostIrq_ne _ _ _ (by cases h <;> decide), readReg_bump_ne _ _ (by cases h <;> decide)]
    · rw [readReg_hostShow_ne _ _ (by cases h <;> decide) (by cases h <;> decide)]
      rfl

theorem eventDelivers_of_nil {s : State} (h : s.slate.coll.queue = []) : eventDelivers s = s := by
  simp [eventDelivers, h]

/-- The state after the oldest entry has left the queue for the log and the hosts. -/
def deliveredOut (s : State) (x : QueuedEvent) (q : List QueuedEvent) : State :=
  let s := setColl s fun c => { c with queue := q, episode := c.episode && !(decide (entriesLow q < 224) && decide (entriesTaken q < 256)) }
  let s := if evLevel x.ev.code ≠ 1 then logAdd s (.event x.ev x.count) else s
  hostEvent (hostEvent s .a x.ev) .b x.ev

theorem holder_deliveredOut (s : State) (x : QueuedEvent) (q : List QueuedEvent) : holder (deliveredOut s x q) = holder s := by
  simp only [deliveredOut, holder_hostEvent]
  split <;> rfl

theorem eventDelivers_of_cons {s : State} {x : QueuedEvent} {q : List QueuedEvent} (h : s.slate.coll.queue = x :: q) :
    eventDelivers s = match holder s with
      | some f => forwardEvent (deliveredOut s x q) f x.ev
      | none => setColl (deliveredOut s x q) fun c => { c with forHolder := c.forHolder ++ [x.ev] } := by
  have hl : (eventLogged x.ev = true) = (evLevel x.ev.code ≠ 1) := by simp [eventLogged]
  rw [← holder_deliveredOut s x q]
  simp only [eventDelivers, h, hl]
  rfl

/-- Settles O33: the mesh keeps a region's order; the collector merges an event, queues it at its place, or drops it; and the oldest entry goes to the log, the hosts and the holder. -/
theorem collectorQueuesAndDelivers : Obligations.CollectorQueuesAndDelivers := by
  intro s e q merges full put ahead
  have drops_iff : collDrops s.slate.coll e = true ↔ merges = false ∧ full := collDrops_iff _ _
  refine ⟨fun h he => congrArg Host.Outcome.next (eventLands_of_younger h he), fun h => ?_,
    fun h => congrArg Host.Outcome.next (eventDelivers_of_nil h), fun x r h => ⟨fun f hf => ?_, fun hn => ?_⟩⟩
  · let m : State := { s with evNet := s.evNet.erase e }
    obtain ⟨hev, hlog, hhosts⟩ := eventArrives_frame m e
    refine ⟨eventArrives m e, congrArg Host.Outcome.next (eventLands_of_oldest h), hev, hlog, hhosts, fun hm => ?_, fun hm hf => ?_, fun hm hf => ?_⟩
    · rw [eventArrives_of_not_drops (s := m) (by simpa [hm] using drops_iff.not)]
      exact ⟨congrArg (fun q => { s.slate.coll with queue := q }) (queueOrMerge_of_any _ hm), rfl⟩
    · rw [eventArrives_of_not_drops (s := m) (by simpa [hf] using drops_iff.not)]
      exact ⟨congrArg (fun q => { s.slate.coll with queue := q }) (queueOrMerge_of_not_any _ hm), rfl⟩
    · have hd : collDrops m.slate.coll e = true := drops_iff.2 ⟨hm, hf⟩
      refine ⟨readReg_eventArrives_of_drops hd, ?_, coll_eventArrives_of_episode hd, fun hp hc => ⟨overflowEvent m, rfl, ?_⟩⟩
      · cases hp : m.slate.coll.episode
        · rw [coll_eventArrives_of_first_drop hd hp]
        · rw [coll_eventArrives_of_episode hd hp, hp]
      · rw [coll_eventArrives_of_first_drop hd hp]
        exact queueOrMerge_of_not_any _ (not_any_sameEvent_of_code (e := overflowEvent m) hc)
  · rw [exec_eventDelivery, execEventDelivery, eventDelivers_of_cons h, hf]
    rfl
  · rw [exec_eventDelivery, execEventDelivery, eventDelivers_of_cons h, hn]
    rfl

end Sys2Proof.Machine
end

section
/-! PROOFS. What the operations of the units leave alone: the regions' control state, power, the panel and its timing, the units out of service; events only join those that have left. -/

namespace Sys2Proof.Machine

/-- The panel's state but for what its drivers have been sent. -/
def panelCore (o : Obsidian) : Obsidian := { o with sent := [], drvWait := [] }

/-- The parts of a state are those of `r`, but that more events may have left. -/
def QuietParts (r : State) (ctl : Vector RegionCtl 16) (power : Power) (scan : Scan) (obs : Obsidian) (retired : List UnitId)
    (quarantined : List (Nat × Nat)) (evNet : List Event) : Prop :=
  ctl = r.ctl ∧ power = r.power ∧ scan = r.scan ∧ panelCore obs = panelCore r.obs ∧ retired = r.retired ∧ quarantined = r.quarantined ∧
    r.evNet <+: evNet

/-- A state has the regions, power, panel, timing and units of `r`, and its events before others. -/
def Quiet (r s : State) : Prop := QuietParts r s.ctl s.power s.scan s.obs s.retired s.quarantined s.evNet

namespace Quiet

theorem refl (s : State) : Quiet s s := ⟨rfl, rfl, rfl, rfl, rfl, rfl, List.prefix_rfl⟩

variable {r s t : State}

theorem parts (h : Quiet r s) : QuietParts r s.ctl s.power s.scan s.obs s.retired s.quarantined s.evNet := h

theorem trans (h : Quiet r s) (h' : Quiet s t) : Quiet r t := by
  obtain ⟨a, b, c, d, e, f, g⟩ := h
  obtain ⟨a', b', c', d', e', f', g'⟩ := h'
  exact ⟨a'.trans a, b'.trans b, c'.trans c, d'.trans d, e'.trans e, f'.trans f, g.trans g'⟩

theorem ite {c : Prop} [Decidable c] (hs : Quiet r s) (ht : Quiet r t) : Quiet r (if c then s else t) := by
  split <;> assumption

theorem foldl {α : Type} {f : State → α → State} (hf : ∀ t x, Quiet r t → Quiet r (f t x)) (l : List α) (h : Quiet r s) : Quiet r (l.foldl f s) := by
  induction l generalizing s with
  | nil => exact h
  | cons x l ih => exact ih (hf s x h)

/-- An operation that leaves each of the parts. -/
theorem same (h : Quiet r s) (hc : t.ctl = s.ctl) (hp : t.power = s.power) (hs : t.scan = s.scan) (ho : panelCore t.obs = panelCore s.obs)
    (hr : t.retired = s.retired) (hq : t.quarantined = s.quarantined) (he : t.evNet = s.evNet) : Quiet r t := by
  unfold Quiet
  rw [hc, hp, hs, hr, hq, he]
  obtain ⟨a, b, c, d, e, f, g⟩ := h
  exact ⟨a, b, c, ho.trans d, e, f, g⟩

end Quiet

section
variable {r s : State}

theorem quiet_raise {level region cause block cell arg : Nat} (h : Quiet r s) : Quiet r (raise s level region cause block cell arg) := by
  obtain ⟨a, b, c, d, e, f, g⟩ := h
  exact ⟨a, b, c, d, e, f, g.trans (List.prefix_append _ _)⟩

/-! The updates of the state's parts. -/

theorem quiet_setReg {k : Nat} {v : Word} (h : Quiet r s) : Quiet r (setReg s k v) := h
theorem quiet_setF {k lo width v : Nat} (h : Quiet r s) : Quiet r (setF s k lo width v) := h
theorem quiet_bump {k n : Nat} (h : Quiet r s) : Quiet r (bump s k n) := h
theorem quiet_resetWindow {n : Nat} (h : Quiet r s) : Quiet r (resetWindow s n) := h
theorem quiet_takeFree {n : Nat} (h : Quiet r s) : Quiet r (takeFree s n).2 := h
theorem quiet_addAck {w : AckFor} {st : Nat} (h : Quiet r s) : Quiet r (addAck s w st) := h
theorem quiet_setSlate {f : Slate → Slate} (h : Quiet r s) : Quiet r (setSlate s f) := h
theorem quiet_writeBytes {a : Nat} {bs : List Byte} (h : Quiet r s) : Quiet r (writeBytes s a bs) := h
theorem quiet_setAudio {f : Audio → Audio} (h : Quiet r s) : Quiet r (setAudio s f) := h
theorem quiet_setCtrl {g : Control → Control} (h : Quiet r s) : Quiet r (setCtrl s g) := h
theorem quiet_setFlint {f : FlintId} {g : Flint → Flint} (h : Quiet r s) : Quiet r (setFlint s f g) := h
theorem quiet_setLease {g : Lease → Lease} (h : Quiet r s) : Quiet r (setLease s g) := h
theorem quiet_setHolder {f : Option FlintId} (h : Quiet r s) : Quiet r (setHolder s f) := h
theorem quiet_setQuartz {f : Quartz → Quartz} (h : Quiet r s) : Quiet r (setQuartz s f) := h
theorem quiet_setQPort {p : Fin 4} {f : QPort → QPort} (h : Quiet r s) : Quiet r (setQPort s p f) := h
theorem quiet_setBorax {f : Borax → Borax} (h : Quiet r s) : Quiet r (setBorax s f) := h
theorem quiet_setMica {f : Mica → Mica} (h : Quiet r s) : Quiet r (setMica s f) := h
theorem quiet_setGal {g : Fin 4} {f : Galena → Galena} (h : Quiet r s) : Quiet r (setGal s g f) := h
theorem quiet_setBlock {g : Fin 4} {b : Fin 12} {f : RayBlock → RayBlock} (h : Quiet r s) : Quiet r (setBlock s g b f) := h
theorem quiet_setStripes {f : StripeQueue → StripeQueue} (h : Quiet r s) : Quiet r (setStripes s f) := h
theorem quiet_setLinks {f : Links → Links} (h : Quiet r s) : Quiet r (setLinks s f) := h
theorem quiet_setTport {f : TimePort → TimePort} (h : Quiet r s) : Quiet r (setTport s f) := h
theorem quiet_setCal {f : CalMap → CalMap} (h : Quiet r s) : Quiet r (setCal s f) := h
theorem quiet_setChan {c : Fin 32} {f : Chan → Chan} (h : Quiet r s) : Quiet r (setChan s c f) := h
theorem quiet_setQuad {q : Nat} {f : Quad → Quad} (h : Quiet r s) : Quiet r (setQuad s q f) := h
theorem quiet_setNode {x : Fin 40} {f : MeshNode → MeshNode} (h : Quiet r s) : Quiet r (setNode s x f) := h
theorem quiet_setTags {x : Fin 16} {f : List Nat → List Nat} (h : Quiet r s) : Quiet r (setTags s x f) := h
theorem quiet_ctxs {l : List RayCtx} (h : Quiet r s) : Quiet r { s with ctxs := l } := h
theorem quiet_links {l : Links} (h : Quiet r s) : Quiet r { s with links := l } := h
theorem quiet_therm {x : Therm} (h : Quiet r s) : Quiet r { s with therm := x } := h
theorem quiet_dram {x : Dram} (h : Quiet r s) : Quiet r { s with dram := x } := h
theorem quiet_time {x : TimeCtr} (h : Quiet r s) : Quiet r { s with time := x } := h
theorem quiet_mica {x : Mica} (h : Quiet r s) : Quiet r { s with mica := x } := h
theorem quiet_borax {x : Borax} (h : Quiet r s) : Quiet r { s with borax := x } := h

/-! Events. -/

theorem quiet_leaseEvent {a b c : Nat} (h : Quiet r s) : Quiet r (leaseEvent s a b c) := quiet_raise h
theorem quiet_flintEvent {f : FlintId} {a b c : Nat} (h : Quiet r s) : Quiet r (flintEvent s f a b c) := quiet_raise h
theorem quiet_qtzEvent {a b c : Nat} (h : Quiet r s) : Quiet r (qtzEvent s a b c) := quiet_raise h
theorem quiet_grnEvent {a b c : Nat} (h : Quiet r s) : Quiet r (grnEvent s a b c) := quiet_raise h
theorem quiet_mcaEvent {a b c : Nat} (h : Quiet r s) : Quiet r (mcaEvent s a b c) := quiet_raise h
theorem quiet_brxEvent {a b c d e : Nat} (h : Quiet r s) : Quiet r (brxEvent s a b c d e) := quiet_raise h
theorem quiet_obsEvent {a b c : Nat} (h : Quiet r s) : Quiet r (obsEvent s a b c) := quiet_raise h

/-! The mesh and DRAM. -/

theorem quiet_meshSend {x : Fin 40} {p : Packet} {l : Fin 40} (h : Quiet r s) : Quiet r (meshSend s x p l) := quiet_setNode h

theorem quiet_respond {a b c : Nat} {d : Fin 16} {t : Byte} {e : Nat} {l : List CodedWord} (h : Quiet r s) : Quiet r (respond s e d t a b c l) :=
  quiet_meshSend h

theorem quiet_answer {a b c : Nat} {d : Fin 16} {t : Byte} {e : Nat} {l : List CodedWord} (h : Quiet r s) : Quiet r (answer s e d t a b c l) :=
  .ite (quiet_respond h) (quiet_respond h)

theorem quiet_noteFailed {a b c : Nat} {l : List Nat} (h : Quiet r s) : Quiet r (noteFailed s a b l c) := h

theorem quiet_dramStore {a : Nat} {bs : List Byte} (h : Quiet r s) : Quiet r (dramStore s a bs).2 := by
  dsimp only [dramStore]
  split
  · exact h
  · exact quiet_writeBytes h

theorem quiet_poisonRead {a b c d : Nat} (h : Quiet r s) : Quiet r (poisonRead s a b c d) := quiet_raise (quiet_bump h)

theorem quiet_poisonSeen {a b c : Nat} (h : Quiet r s) : Quiet r (poisonSeen s a b c) := by
  refine .ite h (.foldl (fun t x ht => ?_) _ h)
  split
  · exact quiet_poisonRead ht
  · exact ht

theorem quiet_ifacesReset {n : Nat} (h : Quiet r s) : Quiet r (ifacesReset s n) := .foldl (fun _ _ ht => quiet_setNode ht) _ (quiet_setTags h)

theorem quiet_ifacesJoin {n : Nat} (h : Quiet r s) : Quiet r (ifacesJoin s n) := .foldl (fun _ _ ht => quiet_setNode ht) _ h

theorem quiet_ranksShow {q : Nat} (h : Quiet r s) : Quiet r (ranksShow s q) := .foldl (fun _ _ ht => quiet_setF ht) _ (quiet_setQuad h)

/-! The frame program and the lease. -/

theorem quiet_leaseShow (h : Quiet r s) : Quiet r (leaseShow s) := .ite h (quiet_leaseEvent (quiet_setF h))

theorem quiet_leaseEnds {f : FlintId} {n : Nat} (h : Quiet r s) : Quiet r (leaseEnds s f n) :=
  quiet_leaseShow (quiet_setFlint (quiet_setLease (quiet_setHolder h)))

theorem quiet_shadowLose {f : FlintId} {n : Nat} (h : Quiet r s) : Quiet r (shadowLose s f n) :=
  .ite (quiet_setFlint h) (quiet_leaseShow (quiet_flintEvent (quiet_bump (quiet_setLease (quiet_setFlint h)))))

theorem quiet_shadowWait {f : FlintId} (h : Quiet r s) : Quiet r (shadowWait s f) := .ite (quiet_setFlint h) h

theorem quiet_mirrorSend {f : FlintId} {m : MirrorRec} (h : Quiet r s) : Quiet r (mirrorSend s f m) := .ite (quiet_setLease h) h

theorem quiet_releaseSend {f : FlintId} (h : Quiet r s) : Quiet r (releaseSend s f) := quiet_mirrorSend h

theorem quiet_setLastAction {n m : Nat} (h : Quiet r s) : Quiet r (setLastAction s n m) := quiet_setLease h

theorem quiet_settleEvents {f : FlintId} (h : Quiet r s) : Quiet r (settleEvents s f) := by
  refine .ite h ?_
  split
  · exact .ite (quiet_mirrorSend (quiet_setFlint h)) h
  · exact h

theorem quiet_setFlagOf {f : FlintId} {n : Nat} (h : Quiet r s) : Quiet r (setFlagOf s f n) := quiet_settleEvents (quiet_setFlint h)

theorem quiet_setFlag {n : Nat} (h : Quiet r s) : Quiet r (setFlag s n) :=
  have ha : Quiet r (if flintUp s .a then setFlagOf s .a n else s) := .ite (quiet_setFlagOf h) h
  .ite (quiet_setFlagOf ha) ha

theorem quiet_hostIrq {p : HostId} {n : Nat} (h : Quiet r s) : Quiet r (hostIrq s p n) := quiet_setF h

theorem quiet_setSem {n : Nat} {f : Sem → Sem} (h : Quiet r s) : Quiet r (setSem s n f) := quiet_setF (quiet_setSlate h)

theorem quiet_semClockEnds {n : Nat} (h : Quiet r s) : Quiet r (semClockEnds s n) := quiet_setSlate (.ite (quiet_setF h) h)

theorem quiet_settleSem {n : Nat} (h : Quiet r s) : Quiet r (settleSem s n) := by
  refine .foldl (fun t f ht => ?_) _ h
  split
  · exact .ite (quiet_mirrorSend (quiet_setFlint ht)) ht
  · exact ht

theorem quiet_semFree {n : Nat} (h : Quiet r s) : Quiet r (semFree s n) := by
  have hc : Quiet r (semClockEnds s n) := quiet_semClockEnds h
  unfold semFree
  dsimp only
  split
  · exact quiet_setSem hc
  · split
    · exact quiet_hostIrq (quiet_setSlate (quiet_setSem hc))
    · exact quiet_settleSem (quiet_setSem hc)

theorem quiet_semDropFrame (h : Quiet r s) : Quiet r (semDropFrame s) :=
  .foldl (fun t n ht =>
    have hl : Quiet r (if (semOf t n).waiters.contains .frame then semLeave t .frame n else t) := .ite (quiet_setSem ht) ht
    .ite (quiet_semFree hl) hl) _ h

theorem quiet_seqStart (h : Quiet r s) : Quiet r (seqStart s) :=
  .foldl (fun _ _ ht => quiet_setFlint ht) _ (quiet_setLease (quiet_setLease (quiet_semDropFrame h)))

theorem quiet_progTake {i : ProgImage} (h : Quiet r s) : Quiet r (progTake s i) :=
  .foldl (fun _ _ ht => quiet_flintEvent ht) _ (quiet_seqStart (quiet_setCtrl (.foldl (fun _ _ ht => quiet_setFlint ht) _ h)))

theorem quiet_takeReady (h : Quiet r s) : Quiet r (takeReady s) := by
  unfold takeReady
  split
  · exact .ite h (quiet_progTake h)
  · exact h

/-! The panel's drivers. -/

theorem quiet_drvMore {cmds : List DrvCmd} (h : Quiet r s) : Quiet r (drvMore s cmds) := by
  have h0 : Quiet r (setObs s fun o => { o with sent := o.sent ++ cmds }) := h.same rfl rfl rfl rfl rfl rfl rfl
  exact .foldl (fun t c ht => .foldl (fun t g ht => quiet_links ht) _ ht) _ h0

theorem quiet_drvSend {cmds : List DrvCmd} (h : Quiet r s) : Quiet r (drvSend s cmds) := quiet_drvMore (h.same rfl rfl rfl rfl rfl rfl rfl)

theorem quiet_drvWaiting (h : Quiet r s) : Quiet r (drvWaiting s) := .ite h (quiet_drvMore (h.same rfl rfl rfl rfl rfl rfl rfl))

theorem quiet_showRunning (h : Quiet r s) : Quiet r (showRunning s) := .foldl (fun _ _ ht => .ite (quiet_setF ht) ht) _ h

/-! Garnet. -/

theorem quiet_clockSeen {c : Nat} (h : Quiet r s) : Quiet r (clockSeen s c) := .ite (quiet_grnEvent (quiet_setF h)) h

theorem quiet_clockStamp {c n : Nat} (h : Quiet r s) : Quiet r (clockStamp s c n) := quiet_setAudio (quiet_clockSeen h)

theorem quiet_embedUnit {sp : Fin 4} {u : List Byte} {n : Nat} {v : Bool} (h : Quiet r s) : Quiet r (embedUnit s sp u n v) :=
  have ha := quiet_setAudio (quiet_clockStamp h)
  .ite h (.ite (quiet_grnEvent (quiet_bump h)) (.ite ha (quiet_grnEvent (quiet_bump ha))))

theorem quiet_embedEnd {sp : Fin 4} (h : Quiet r s) : Quiet r (embedEnd s sp) := quiet_setAudio h

theorem quiet_audioDrained (h : Quiet r s) : Quiet r (audioDrained s) := quiet_setAudio h

theorem quiet_timeDrained (h : Quiet r s) : Quiet r (timeDrained s) := quiet_setTport h

theorem quiet_audioRejoined (h : Quiet r s) : Quiet r (audioRejoined s) := by
  refine .foldl (fun t x ht => ?_) _ (quiet_setAudio (.foldl (fun _ _ ht => quiet_setF ht) _ h))
  dsimp only
  split
  · exact .ite (quiet_grnEvent ht) ht
  · exact ht

/-! Quartz. -/

theorem quiet_tellAbandoned {p : Fin 4} {a b c : Nat} (h : Quiet r s) : Quiet r (tellAbandoned s p a b c) := quiet_qtzEvent (quiet_bump h)

theorem quiet_setPortState {p : Fin 4} {x : PortState} (h : Quiet r s) : Quiet r (setPortState s p x) := quiet_setF (quiet_setQPort h)

theorem quiet_setLayer {p : Fin 4} {n : Nat} {f : Layer → Layer} (h : Quiet r s) : Quiet r (setLayer s p n f) := quiet_setQPort h

theorem quiet_setWriting {p : Fin 4} {n : Nat} {f : LayerVer → LayerVer} (h : Quiet r s) : Quiet r (setWriting s p n f) := quiet_setLayer h

theorem quiet_sendStatus {p : Fin 4} {a b c : Nat} (h : Quiet r s) : Quiet r (sendStatus s p a b c) := quiet_setQPort h

theorem quiet_ctrlTakes {p : Fin 4} (h : Quiet r s) : Quiet r (ctrlTakes s p) := quiet_setQPort h

theorem quiet_dropLayer {p : Fin 4} {n : Nat} (h : Quiet r s) : Quiet r (dropLayer s p n) := quiet_setQPort h

theorem quiet_endStream {p : Fin 4} (h : Quiet r s) : Quiet r (endStream s p) :=
  quiet_embedEnd (quiet_setF (quiet_setQuartz (quiet_setQPort h)))

theorem quiet_abandon {p : Fin 4} {a b : Nat} (h : Quiet r s) : Quiet r (abandon s p a b) := by
  unfold abandon
  split
  · exact h
  · exact quiet_tellAbandoned (.ite (quiet_dropLayer (quiet_setLayer h)) (quiet_setLayer h))

theorem quiet_closeFrame {p : Fin 4} {a : Nat} {b : Bool} (h : Quiet r s) : Quiet r (closeFrame s p a b) := by
  unfold closeFrame
  dsimp only
  split
  · exact h
  · refine quiet_setQPort (.foldl (fun t l ht => ?_) _ h)
    split
    · exact .ite (quiet_abandon ht) ht
    · exact ht

theorem quiet_sequenceFail {p : Fin 4} (h : Quiet r s) : Quiet r (sequenceFail s p) := quiet_setQPort (quiet_closeFrame h)

theorem quiet_startStream {p : Fin 4} {u : List Byte} (h : Quiet r s) : Quiet r (startStream s p u) :=
  have h' := quiet_setQPort (quiet_ctrlTakes (quiet_endStream h))
  .ite (quiet_sendStatus (quiet_qtzEvent (quiet_setPortState (quiet_setF h'))))
    (quiet_sendStatus (quiet_qtzEvent (quiet_setPortState (quiet_setF (quiet_setF (quiet_setQPort h'))))))

theorem quiet_measureRate {p : Fin 4} {n : Nat} (h : Quiet r s) : Quiet r (measureRate s p n) :=
  have h' := quiet_setQPort h
  .ite h' (.ite (.ite (quiet_setQPort h') (.ite (quiet_qtzEvent (quiet_setQPort h')) h'))
    (.ite (.ite h' (quiet_qtzEvent (quiet_setQPort h'))) (quiet_setQPort h')))

theorem quiet_beginFrame {p : Fin 4} {st : Stream} {u : List Byte} (h : Quiet r s) : Quiet r (beginFrame s p st u) :=
  quiet_measureRate (quiet_setQPort (quiet_closeFrame h))

theorem quiet_endFrame {p : Fin 4} (h : Quiet r s) : Quiet r (endFrame s p) := .ite (quiet_sequenceFail h) (quiet_closeFrame h)

theorem quiet_storeWrite {p : Fin 4} {a b c : Nat} {bs : List Byte} (h : Quiet r s) : Quiet r (storeWrite s p a b c bs) :=
  quiet_addAck (quiet_setWriting (quiet_dramStore h))

theorem quiet_writeBand {p : Fin 4} {a b c : Nat} {bs : List Byte} (h : Quiet r s) : Quiet r (writeBand s p a b c bs) := by
  unfold writeBand
  split
  · exact h
  · exact
      have h' := quiet_setWriting (quiet_storeWrite h)
      .ite h' (quiet_setWriting (quiet_storeWrite h'))

theorem quiet_planeUnit {p : Fin 4} {u : List Byte} (h : Quiet r s) : Quiet r (planeUnit s p u) := by
  unfold planeUnit
  dsimp only
  split
  · exact quiet_sequenceFail h
  · refine .ite (quiet_tellAbandoned h) (.ite (quiet_sequenceFail h) (.ite h ?_))
    split
    · exact h
    · exact
        have h' := quiet_setWriting h
        .ite (quiet_abandon h) (.ite (quiet_abandon h) (.ite (quiet_abandon h)
          (.ite (quiet_writeBand h') (.ite (quiet_abandon h') (quiet_setQuartz h')))))

theorem quiet_layerHeader {p : Fin 4} {st : Stream} {u : List Byte} {t : State} (h : Quiet r s) (ht : layerHeader s p st u = .done t) : Quiet r t := by
  unfold layerHeader at ht
  dsimp only at ht
  split at ht
  · cases ht
    exact quiet_sequenceFail h
  · split at ht
    · cases ht
      exact quiet_tellAbandoned h
    · split at ht
      · cases ht
        exact quiet_tellAbandoned h
      · split at ht
        · cases ht
          exact quiet_sequenceFail h
        · split at ht
          · cases ht
            exact quiet_tellAbandoned (quiet_dropLayer (quiet_setLayer (quiet_setQPort h)))
          · split at ht
            · cases ht
            · split at ht
              · cases ht
              · cases ht
                exact quiet_setLayer (quiet_setLayer (quiet_setQPort (quiet_setQuartz h)))

theorem quiet_takeUnit {p : Fin 4} {u : List Byte} {t : State} (h : Quiet r s) (ht : takeUnit s p u = .done t) : Quiet r t := by
  have counted {c : Bool} : Quiet r (if c then s else bump s (qtzPortUnknown p.val)) := .ite h (quiet_bump h)
  unfold takeUnit at ht
  dsimp only at ht
  split at ht
  · cases ht
    exact quiet_startStream h
  · split at ht
    · cases ht
      exact h
    · split at ht
      · split at ht
        · cases ht
          exact quiet_beginFrame (quiet_setQPort (quiet_setQPort h))
        · cases ht
          exact counted
      · split at ht
        · cases ht
          exact quiet_setQPort (quiet_sequenceFail counted)
        · have h' := quiet_setQPort (p := p) (f := fun q => { q with expSeq := (leAt u 2 2 + 1) % 65536 }) (counted (c := knownType (leAt u 0 1)))
          split at ht
          · cases ht
            exact quiet_setPortState (quiet_endStream h')
          · cases ht
            exact quiet_beginFrame h'
          · split at ht
            next hl =>
              cases ht
              exact quiet_layerHeader h' hl
            next => cases ht
          · cases ht
            exact quiet_planeUnit h'
          · cases ht
            exact quiet_endFrame h'
          · cases ht
            exact quiet_embedUnit h'
          · cases ht
            exact h'

theorem quiet_resumePort {p : Fin 4} (h : Quiet r s) : Quiet r (resumePort s p) := .ite (quiet_qtzEvent (quiet_setPortState h)) h

theorem quiet_badLength {p : Fin 4} {bs : List Byte} (h : Quiet r s) : Quiet r (badLength s p bs) :=
  have h' {c : Bool} : Quiet r (if c then s else bump s (qtzPortUnknown p.val)) := .ite h (quiet_bump h)
  quiet_setQPort (.ite (quiet_startStream h) (.ite h (.ite h' (.ite (quiet_sequenceFail h') (quiet_setQPort h')))))

theorem quiet_parseBytes {p : Fin 4} {n : Nat} {bs : List Byte} (h : Quiet r s) : Quiet r (parseBytes p n bs s) := by
  induction n generalizing bs s with
  | zero => exact h
  | succ n ih =>
    refine .ite h (.ite (ih h) (.ite (ih (quiet_badLength (quiet_setQPort h))) ?_))
    split
    next ht => exact ih (quiet_takeUnit (quiet_setQPort h) ht)
    next => exact quiet_setQPort (quiet_setQPort h)

theorem quiet_feedUnits {p : Fin 4} {n : Nat} {bs : List Byte} (h : Quiet r s) : Quiet r (feedUnits p n bs s).1 := by
  induction n generalizing bs s with
  | zero => exact h
  | succ n ih =>
    unfold feedUnits
    dsimp only
    split
    · exact h
    · split
      · exact ih h
      · split
        · split
          · exact h
          · exact ih (quiet_badLength (quiet_resumePort h))
        · split
          · exact h
          · exact ih (quiet_parseBytes (quiet_resumePort h))

theorem quiet_feedRx {p : Fin 4} (h : Quiet r s) : Quiet r (feedRx s p) := by
  unfold feedRx
  dsimp only
  split
  · exact quiet_links (quiet_feedUnits h)
  · exact quiet_links h

theorem quiet_retryPort {p : Fin 4} (h : Quiet r s) : Quiet r (retryPort s p) :=
  .ite h (quiet_feedRx (.foldl (fun _ _ ht => .ite (quiet_parseBytes ht) (quiet_setQPort ht)) _ (quiet_setQPort h)))

theorem quiet_retryHeld (h : Quiet r s) : Quiet r (retryHeld s) := .foldl (fun _ _ ht => quiet_retryPort ht) _ h

theorem quiet_bandDecoded {i : IngestItem} {out : Option (List Byte)} (h : Quiet r s) : Quiet r (bandDecoded s i out) := by
  unfold bandDecoded
  split
  · exact h
  · refine .ite h ?_
    split
    · exact .ite (quiet_writeBand h) (quiet_retryHeld (quiet_abandon h))
    · exact quiet_retryHeld (quiet_abandon h)

/-! Galena: tiles handed over. -/

theorem quiet_cancelStripe {k : Nat × Nat × Nat} (h : Quiet r s) : Quiet r (cancelStripe s k) := .foldl (fun _ _ ht => quiet_setGal ht) _ (quiet_ctxs h)

theorem quiet_handOverCell {g : Fin 4} {b : Fin 12} {c : Fin 32} (h : Quiet r s) : Quiet r (handOverCell s g b c) := quiet_setBlock (quiet_ctxs h)

theorem quiet_handOverBlock {g : Fin 4} {b : Fin 12} (h : Quiet r s) : Quiet r (handOverBlock s g b) :=
  quiet_setGal (quiet_setBlock (quiet_ctxs h))

theorem quiet_handOverRegion {g : Fin 4} (h : Quiet r s) : Quiet r (handOverRegion s g) := by
  have moved {l : List ((Nat × Nat × Nat) × List Nat)} {f : State → (Nat × Nat × Nat) × List Nat → State}
      (hf : ∀ t x, Quiet r t → Quiet r (f t x)) {f' : Galena → Galena} {c : List RayCtx} :
      Quiet r (l.foldl f (setGal { s with ctxs := c } g f')) := .foldl hf _ (quiet_setGal (quiet_ctxs h))
  unfold handOverRegion
  dsimp only
  split
  · exact moved fun t x ht => .foldl (fun _ _ ht => quiet_setGal ht) _ (quiet_setStripes ht)
  · exact quiet_raise (quiet_bump (moved fun t x ht => .foldl (fun _ _ ht => quiet_setGal ht) _ (quiet_setStripes ht)))

theorem quiet_showOldest (h : Quiet r s) : Quiet r (showOldest s) := by
  unfold showOldest
  split
  · exact h
  · exact .foldl (fun _ _ ht => quiet_setF (quiet_setF ht)) _ h

theorem quiet_openStripe {k : Nat × Nat × Nat} (h : Quiet r s) : Quiet r (openStripe s k) :=
  .ite h (quiet_showOldest (.foldl (fun _ _ ht => quiet_setGal ht) _ (quiet_therm (quiet_setStripes h))))

/-! Borax. -/

theorem quiet_boraxStatus (h : Quiet r s) : Quiet r (boraxStatus s) := .foldl (fun _ _ ht => quiet_setF ht) _ h

theorem quiet_queueJob {e : Fin 4} {j : BxJob} (h : Quiet r s) : Quiet r (queueJob s e j) := quiet_boraxStatus (quiet_setBorax h)

theorem quiet_jobEnded {n : Nat} {j : BxJob} {d : JobDesc} {e : JobEnd} (h : Quiet r s) : Quiet r (jobEnded s n j d e) :=
  have h' : Quiet r (if d.flags % 2 = 1 then brxEvent (bump s brxJobsDone) 1 0x061 n 0xFF (e.status % 16 + 256 * e.detail + 65536 * d.tag)
      else bump s brxJobsDone) := .ite (quiet_brxEvent (quiet_bump h)) (quiet_bump h)
  .ite (quiet_setFlag h') h'

theorem quiet_shadowDropped {a b c : Nat} (h : Quiet r s) : Quiet r (shadowDropped s a b c) :=
  .ite (quiet_bump h) (quiet_brxEvent (quiet_setBorax (quiet_bump h)))

theorem quiet_shadowClose {a b c : Nat} (h : Quiet r s) : Quiet r (shadowClose s a b c) := by
  unfold shadowClose
  split
  · exact h
  · exact .ite (quiet_shadowDropped (quiet_setBorax h)) (quiet_setBorax h)

theorem quiet_shadowStop (h : Quiet r s) : Quiet r (shadowStop s) := .foldl (fun _ _ ht => quiet_shadowClose ht) _ h

theorem quiet_repeatRequest {k : Nat × Nat × Nat} (h : Quiet r s) : Quiet r (repeatRequest s k) := by
  refine .ite h ?_
  dsimp only
  split
  · exact h
  · exact quiet_setBorax h

theorem quiet_overJob (h : Quiet r s) : Quiet r (overJob s) := by
  unfold overJob
  split
  · exact h
  · exact .ite h (quiet_queueJob (quiet_setBorax h))

theorem quiet_boraxBack {i : Fin 16} (h : Quiet r s) : Quiet r (boraxBack s i) := by
  unfold boraxBack
  split
  · exact h
  · dsimp only
    split
    · exact quiet_setBorax (quiet_setBorax h)
    · exact quiet_setBorax (quiet_setBorax h)
    · exact quiet_setQuartz (quiet_setBorax h)
    · exact quiet_setBorax (quiet_setBorax h)
    · exact quiet_setBorax (quiet_setBorax h)

theorem quiet_boraxHand {e : Fin 4} (h : Quiet r s) : Quiet r (boraxHand s e) :=
  have h' := quiet_setBorax (.foldl (fun _ _ ht => quiet_boraxBack ht) _ h)
  quiet_boraxStatus (.ite h' (.foldl (fun _ _ ht => quiet_overJob ht) _ h'))

theorem quiet_boraxDrained (h : Quiet r s) : Quiet r (boraxDrained s) := by
  refine quiet_boraxStatus (.foldl (fun t i ht => ?_) _ (quiet_setQuartz (quiet_borax h)))
  split
  · exact .ite (quiet_bandDecoded ht) ht
  · exact .ite (quiet_jobEnded ht) ht
  · exact ht

/-! Mica. -/

theorem quiet_putRuns {l : List (Nat × List Byte)} (h : Quiet r s) : Quiet r (putRuns s l).1 := by
  induction l generalizing s with
  | nil => exact h
  | cons x l ih =>
    unfold putRuns
    dsimp only
    split
    · exact quiet_dramStore h
    · exact ih (quiet_dramStore h)

theorem quiet_bltLine {b : Blit} {j n : Nat} {back : Bool} (h : Quiet r s) : Quiet r (bltLine s b j n back).1 := quiet_putRuns h

theorem quiet_bltLines {b : Blit} {back : Bool} {l : List Nat} {n : Nat} (h : Quiet r s) : Quiet r (bltLines b back l n s).1 := by
  induction l generalizing n s with
  | nil => exact h
  | cons j l ih =>
    unfold bltLines
    split
    · exact h
    · dsimp only
      split
      · exact quiet_bltLine h
      · split
        · split
          · exact quiet_poisonSeen (quiet_bltLine h)
          · exact ih (quiet_bltLine h)
        · exact ih (quiet_bltLine h)

theorem quiet_bltRun {b : Blit} {n : Nat} (h : Quiet r s) : Quiet r (bltRun s b n).1 := quiet_bltLines h

theorem quiet_micaDrained (h : Quiet r s) : Quiet r (micaDrained s) := by
  have h' {f : Mica → Mica} {l : List (Nat × Nat × Nat)} {g : StripeQueue → StripeQueue} :
      Quiet r (setStripes (l.foldl cancelStripe (setMica s f)) g) :=
    quiet_setStripes (.foldl (fun _ _ ht => quiet_cancelStripe ht) _ (quiet_setMica h))
  unfold micaDrained
  dsimp only
  split
  · exact h'
  · exact quiet_bltRun (quiet_takeFree h')

theorem quiet_micaStatus (h : Quiet r s) : Quiet r (micaStatus s) := quiet_setReg h

theorem quiet_micaRejoined (h : Quiet r s) : Quiet r (micaRejoined s) := by
  unfold micaRejoined
  dsimp only
  split
  · exact quiet_micaStatus h
  · exact quiet_mcaEvent (quiet_setReg (quiet_setMica (quiet_micaStatus h)))

theorem quiet_repeatPoint {k : Nat × Nat × Nat} (h : Quiet r s) : Quiet r (repeatPoint s k) := by
  refine .ite h ?_
  dsimp only
  split
  · exact .ite (quiet_setMica h) (quiet_repeatRequest (quiet_setMica h))
  · exact quiet_repeatRequest (quiet_setMica h)

theorem quiet_micaOpens (h : Quiet r s) : Quiet r (micaOpens s) :=
  .ite (quiet_repeatPoint (quiet_repeatPoint (quiet_openStripe (quiet_openStripe h)))) h

/-! Regions: what begins with a drain, and what a cell's or a block's work is handed to. -/

theorem quiet_pwrShow (h : Quiet r s) : Quiet r (pwrShow s) := quiet_setReg (quiet_setReg h)

theorem quiet_cellHand {n b c : Nat} (h : Quiet r s) : Quiet r (cellHand s n b c) :=
  .ite (quiet_handOverCell h) (.ite (quiet_boraxBack h) h)

theorem quiet_blockHand {n b : Nat} (h : Quiet r s) : Quiet r (blockHand s n b) :=
  .ite (quiet_handOverBlock h) (.ite (quiet_boraxHand h) h)

theorem quiet_drainBegins {n : Nat} (h : Quiet r s) : Quiet r (drainBegins s n) :=
  have flint {f : FlintId} : Quiet r (if holder s = some f then leaseEnds (releaseSend s f) f 4 else shadowLose s f 3) :=
    .ite (quiet_leaseEnds (quiet_releaseSend h)) (quiet_shadowLose h)
  .ite flint (.ite flint (.ite (quiet_handOverRegion h) (.ite (quiet_boraxDrained h) (.ite (quiet_micaDrained h)
    (.ite (quiet_timeDrained (quiet_audioDrained h)) h)))))

end

end Sys2Proof.Machine
end

section
/-! PROOFS. Regions: their control state, and what power, drain, reset and faults leave of the events, the quarantined blocks and the requests on power. -/

namespace Sys2Proof.Machine

open Says

section
variable {r s t : State}

/-! The control state of a region. -/

theorem ctlOf_setCtl {n : Nat} (s : State) (f : RegionCtl → RegionCtl) (hn : n < 16) : ctlOf (setCtl s n f) n = f (ctlOf s n) := by
  simp [ctlOf, setCtl, hn, Vector.getD]

theorem ctlOf_congr (h : t.ctl = s.ctl) (n : Nat) : ctlOf t n = ctlOf s n := by simp [ctlOf, h]

@[simp] theorem pwrShow_ctl (s : State) : (pwrShow s).ctl = s.ctl := by
  unfold pwrShow
  exact (setReg_ctl ..).trans (setReg_ctl ..)
@[simp] theorem pwrShow_power (s : State) : (pwrShow s).power = s.power := by
  unfold pwrShow
  exact (setReg_power ..).trans (setReg_power ..)
@[simp] theorem pwrShow_evNet (s : State) : (pwrShow s).evNet = s.evNet := by
  unfold pwrShow
  exact (setReg_evNet ..).trans (setReg_evNet ..)
@[simp] theorem pwrShow_quarantined (s : State) : (pwrShow s).quarantined = s.quarantined := by
  unfold pwrShow
  exact (setReg_quarantined ..).trans (setReg_quarantined ..)

theorem ctlOf_setPhase {n : Nat} (s : State) (p : RegionPhase) (hn : n < 16) : ctlOf (setPhase s n p) n = { ctlOf s n with phase := p } := by
  rw [setPhase, ctlOf_congr (pwrShow_ctl _), ctlOf_setCtl s _ hn]

theorem phaseOf_setPhase {n : Nat} (s : State) (p : RegionPhase) (hn : n < 16) : phaseOf (setPhase s n p) n = p := by
  rw [phaseOf, ctlOf_setPhase s p hn]

theorem ctlOf_countReset {n : Nat} (s : State) (hn : n < 16) :
    ctlOf (countReset s n) n = { ctlOf s n with resets := (s.now :: (ctlOf s n).resets).take 4 } := ctlOf_setCtl s _ hn

/-! Events and quarantined blocks: what has come stays. -/

/-- The events that have left and the quarantined blocks of `r` are among those of `s`. -/
def Retains (r s : State) : Prop := r.evNet <+: s.evNet ∧ r.quarantined <+: s.quarantined

theorem Retains.trans (h : Retains r s) (h' : Retains s t) : Retains r t := ⟨h.1.trans h'.1, h.2.trans h'.2⟩

theorem Retains.same (h : Retains r s) (he : t.evNet = s.evNet) (hq : t.quarantined = s.quarantined) : Retains r t := by
  unfold Retains
  rw [he, hq]
  exact h

theorem Retains.raise {level region cause block cell arg : Nat} (h : Retains r s) : Retains r (raise s level region cause block cell arg) :=
  ⟨h.1.trans (List.prefix_append _ _), h.2⟩

theorem Retains.ite {c : Prop} [Decidable c] (hs : Retains r s) (ht : Retains r t) : Retains r (if c then s else t) := by
  split <;> assumption

theorem Retains.event {e : Event} (h : Retains r s) (he : e ∈ r.evNet) : e ∈ s.evNet := h.1.subset he

theorem Retains.tells {code : BitVec 16} {arg : Nat} (h : Retains r s) (he : tells r code arg) : tells s code arg := by
  obtain ⟨e, hm, hc, ha⟩ := he
  exact ⟨e, h.event hm, hc, ha⟩

theorem Quiet.retains (h : Quiet r s) : Retains r s := by
  obtain ⟨_, _, _, _, _, hq, he⟩ := h
  exact ⟨he, hq ▸ List.prefix_rfl⟩

theorem retains_setCtl {n : Nat} {f : RegionCtl → RegionCtl} (h : Retains r s) : Retains r (setCtl s n f) :=
  h.same (setCtl_evNet s n f) (setCtl_quarantined s n f)

theorem retains_setPhase {n : Nat} {p : RegionPhase} (h : Retains r s) : Retains r (setPhase s n p) :=
  (retains_setCtl h).same (pwrShow_evNet _) (pwrShow_quarantined _)

theorem tells_raise (s : State) (level region cause block cell arg : Nat) : tells (raise s level region cause block cell arg) (evCode level region cause) arg :=
  ⟨_, List.mem_append_right _ (List.mem_singleton_self _), rfl, rfl⟩

/-! The requests on power. -/

/-- Power control but for DRAM's supply. -/
def powerAsks (p : Power) : Power := { p with dramPwrEn := false, dramReset := false }

/-- The regions' control state and the requests on power are those of `r`, and what has come stays. -/
def Steady (r s : State) : Prop := s.ctl = r.ctl ∧ powerAsks s.power = powerAsks r.power ∧ Retains r s

theorem Steady.trans (h : Steady r s) (h' : Steady s t) : Steady r t := by
  obtain ⟨hc, hp, hr⟩ := h
  obtain ⟨hc', hp', hr'⟩ := h'
  exact ⟨hc'.trans hc, hp'.trans hp, hr.trans hr'⟩

theorem Steady.refl (s : State) : Steady s s := ⟨rfl, rfl, List.prefix_rfl, List.prefix_rfl⟩

theorem Steady.ite {c : Prop} [Decidable c] (hs : Steady r s) (ht : Steady r t) : Steady r (if c then s else t) := by
  split <;> assumption

theorem Steady.same (h : Steady r s) (hc : t.ctl = s.ctl) (hp : powerAsks t.power = powerAsks s.power) (he : t.evNet = s.evNet)
    (hq : t.quarantined = s.quarantined) : Steady r t :=
  ⟨hc.trans h.1, hp.trans h.2.1, h.2.2.same he hq⟩

theorem Quiet.steady (h : Quiet r s) : Steady r s := by
  have hr := h.retains
  obtain ⟨hc, hp, _⟩ := h
  exact ⟨hc, congrArg powerAsks hp, hr⟩

theorem Steady.quiet (h : Steady r s) (h' : Quiet s t) : Steady r t := h.trans h'.steady

/-! The panel's stop. -/

theorem steady_timingStop (h : Steady r s) : Steady r (timingStop s) := by
  have stop {t : State} {x : Scan} (ht : Steady r t) :
      Steady r (takeReady (drvWaiting (showRunning (shadowStop { t with scan := x })))) :=
    Steady.quiet (s := { t with scan := x }) (ht.same rfl rfl rfl rfl) (quiet_takeReady (quiet_drvWaiting (quiet_showRunning (quiet_shadowStop (.refl _)))))
  unfold timingStop
  dsimp only
  split
  · exact stop (h.quiet (quiet_setCal (.refl _)))
  · exact stop h

/-! The panel's abrupt loss (R306). -/

theorem steady_setF {k lo width v : Nat} (h : Steady r s) : Steady r (setF s k lo width v) := h.quiet (quiet_setF (.refl s))

theorem steady_setObs {f : Obsidian → Obsidian} (h : Steady r s) : Steady r (setObs s f) := h.same rfl rfl rfl rfl

theorem steady_setPanelState {x : PanelState} (h : Steady r s) : Steady r (setPanelState s x) := steady_setF (steady_setObs h)

theorem steady_logAdd {e : LogEntry} (h : Steady r s) : Steady r (logAdd s e) := h.same rfl rfl rfl rfl

theorem steady_abruptEnds {c : SafeCause} {w : Bool} (h : Steady r s) : Steady r (abruptEnds s c w) :=
  have h' := steady_logAdd (steady_setObs h)
  .ite (steady_setObs (steady_setPanelState h')) h'

theorem steady_blpLow (h : Steady r s) : Steady r (blpLow s) := h.same rfl rfl rfl rfl

theorem steady_abruptLoss {c : SafeCause} (h : Steady r s) : Steady r (abruptLoss s c) := by
  refine .ite (steady_setObs (steady_abruptEnds (steady_setF (steady_setObs h)))) (steady_setObs (Steady.quiet ?_ (quiet_drvSend (.refl _))))
  exact steady_setObs (steady_setF (steady_setObs (steady_timingStop (steady_blpLow h))))

theorem steady_safePanel {a b : Nat} (h : Steady r s) : Steady r (safePanel s a b) :=
  .ite h (steady_abruptLoss (h.quiet (quiet_obsEvent (.refl s))))

/-! Drains and faults. -/

theorem retains_of_quiet (h : Retains r s) (h' : Quiet s t) : Retains r t := h.trans h'.retains

theorem retains_startDrain {n : Nat} {w : DrainFor} (h : Retains r s) : Retains r (startDrain s n w) :=
  .ite h (retains_of_quiet (.raise (retains_setPhase (retains_setCtl h))) (quiet_drainBegins (.refl _)))

theorem retains_outOfService {n : Nat} (h : Retains r s) : Retains r (outOfService s n) := by
  have h' {a : Nat} : Retains r (powerEvent (setCtl s n fun c => { c with outOfService := true }) 3 a n) := .raise (retains_setCtl h)
  unfold outOfService
  dsimp only
  split
  · exact retains_startDrain h'
  · exact retains_setPhase h'

theorem retains_startRejoin {n : Nat} (h : Retains r s) : Retains r (startRejoin s n) :=
  .ite h (.ite (retains_outOfService h) (retains_startDrain h))

theorem retains_channelQuarantine {c : Fin 32} (h : Retains r s) : Retains r (channelQuarantine s c) :=
  .ite h (.raise ⟨h.1, h.2.trans (List.prefix_append _ _)⟩)

theorem retains_dramOutOfService {c : Fin 32} {n : Nat} (h : Retains r s) : Retains r (dramOutOfService s c n) := by
  have hw {t : State} {k : Nat} (ht : Retains r t) : Retains r (wantPewter t k) := .ite ht (ht.same rfl rfl)
  exact .ite (retains_channelQuarantine h) (.raise (hw (retains_of_quiet (retains_channelQuarantine h) (quiet_dram (quiet_setF (.refl _))))))

theorem retains_checkChannel {c : Fin 32} (h : Retains r s) : Retains r (checkChannel s c) := .ite (retains_dramOutOfService h) h

theorem retains_regionFault {n : Nat} (h : Retains r s) : Retains r (regionFault s n) := by
  unfold regionFault
  split
  · exact .ite (retains_outOfService h) (retains_setPhase (retains_setCtl h))
  · exact .ite h (.ite (retains_dramOutOfService h) (.ite (retains_startDrain (h.trans (steady_safePanel (.refl s)).2.2)) (retains_startRejoin h)))
  · exact h

/-! Power lost, and a region that joins. -/

theorem steady_setPwr_asks {f : Power → Power} (h : Steady r s) (hf : powerAsks (f s.power) = powerAsks s.power) : Steady r (setPwr s f) :=
  Steady.quiet (s := { s with power := f s.power }) (h.same rfl hf rfl rfl) (quiet_pwrShow (.refl _))

theorem quiet_sensorsOff {n : Nat} (h : Quiet r s) : Quiet r (sensorsOff s n) :=
  .foldl (fun _ _ ht => .ite (quiet_setF (quiet_setF (quiet_therm ht))) ht) _ h

theorem quiet_lanesReset {n : Nat} (h : Quiet r s) : Quiet r (lanesReset s n) := .ite (quiet_setLinks h) (quiet_setLinks h)

theorem steady_dramPowerLost (h : Steady r s) : Steady r (dramPowerLost s) := by
  refine .ite (h.same rfl rfl rfl rfl) (Steady.quiet ?_ (quiet_setReg (.refl _)))
  exact h.same rfl rfl rfl rfl

/-- The state in which a region's phase is off and nothing is held for it: what else its loss of power does leaves the control state alone. -/
def phaseLost (s : State) (n : Nat) : State := setPhase (setCtl (resetWindow (ifacesReset s n) n) n fun c => { c with rejoining := false, deferred := [] }) n .off

theorem quiet_garnetOff {a : Audio} {f : TimePort} (h : Quiet r s) : Quiet r { s with audio := a, tport := f } := h

theorem steady_powerLost (s : State) (n : Nat) : Steady (phaseLost s n) (powerLost s n) := by
  unfold powerLost
  extract_lets t0 t1 p1 p2 tp t2
  have h : Steady (phaseLost s n) t1 := (quiet_setLastAction (quiet_sensorsOff (.refl _))).steady
  clear_value t1
  have h2 : Steady (phaseLost s n) t2 := by
    have panelOff : Steady (phaseLost s n) p2 :=
      Steady.quiet (s := setObs p1 fun o => { o with pewter := [], pewterEra := o.pewterEra + 1 })
        (steady_setObs ((steady_timingStop (steady_setObs h)).quiet (quiet_lanesReset (.refl _)))) (quiet_setCal (.refl _))
    have dramOff : Steady (phaseLost s n) (setPwr (dramPowerLost t1) fun p => { p with dramPwrEn := false }) :=
      steady_setPwr_asks (steady_dramPowerLost h) rfl
    clear_value p2
    exact .ite (h.quiet (quiet_setFlint (.refl _))) (.ite (h.quiet (quiet_setFlint (.refl _)))
      (.ite (h.quiet (quiet_lanesReset (quiet_setQuartz (.refl _)))) (.ite (h.quiet (quiet_setGal (quiet_ctxs (.refl _))))
      (.ite (.ite dramOff h) (.ite (h.quiet (quiet_setBorax (.refl _)))
      (.ite (h.quiet (quiet_setStripes (quiet_mica (.refl _)))) (.ite (panelOff.quiet (quiet_setF (.refl _)))
      (.ite (h.quiet (quiet_garnetOff (.refl _))) h))))))))
  clear_value t2
  exact .ite h2 (h2.quiet (quiet_setTport (quiet_time (.refl _))))

theorem ctlOf_phaseLost {n : Nat} (s : State) (hn : n < 16) :
    ctlOf (phaseLost s n) n = { ctlOf s n with phase := .off, rejoining := false, deferred := [] } := by
  rw [phaseLost, ctlOf_setPhase _ _ hn, ctlOf_setCtl _ _ hn, ctlOf_congr (quiet_resetWindow (quiet_ifacesReset (.refl s))).1]

theorem retains_phaseLost {n : Nat} (h : Retains r s) : Retains r (phaseLost s n) :=
  retains_setPhase (retains_setCtl (retains_of_quiet h (quiet_resetWindow (quiet_ifacesReset (.refl s)))))

theorem retains_powerLost {n : Nat} (h : Retains r s) : Retains r (powerLost s n) := (retains_phaseLost h).trans (steady_powerLost s n).2.2

theorem ctlOf_powerLost {n : Nat} (s : State) (hn : n < 16) :
    ctlOf (powerLost s n) n = { ctlOf s n with phase := .off, rejoining := false, deferred := [] } := by
  rw [ctlOf_congr (steady_powerLost s n).1, ctlOf_phaseLost s hn]

/-- The state in which a region's phase is on again. -/
def phaseJoined (s : State) (n : Nat) : State := setPhase (setCtl s n fun c => { c with rejoining := false }) n .on

theorem quiet_regionJoins (s : State) (n : Nat) : Quiet (phaseJoined s n) (regionJoins s n) := by
  have h : Quiet (phaseJoined s n) (ifacesJoin (phaseJoined s n) n) := quiet_ifacesJoin (.refl _)
  have flint {f : FlintId} : Quiet (phaseJoined s n) (leaseShow (shadowWait (showRunning (ifacesJoin (phaseJoined s n) n)) f)) :=
    quiet_leaseShow (quiet_shadowWait (quiet_showRunning h))
  exact .ite flint (.ite flint (.ite (.ite (quiet_ranksShow h) h) (.ite (quiet_boraxStatus h) (.ite (quiet_micaOpens (quiet_micaRejoined h))
    (.ite (quiet_audioRejoined (.ite (quiet_setF (quiet_setTport h)) h)) h)))))

theorem ctlOf_phaseJoined {n : Nat} (s : State) (hn : n < 16) : ctlOf (phaseJoined s n) n = { ctlOf s n with phase := .on, rejoining := false } := by
  rw [phaseJoined, ctlOf_setPhase _ _ hn, ctlOf_setCtl _ _ hn]

/-! A transition that nothing waits for (R491, R492). -/

/-- No request on power is held for the region, waits, or is to be reported. -/
def asksNothing (p : Power) (n : Nat) : Prop :=
  p.held.getD n none = none ∧ p.startAfter = [] ∧ p.stopAfter = [] ∧ p.lastPwr = none ∧ p.sleeping = false ∧ p.mode = .run

theorem asksNothing_congr {p q : Power} {n : Nat} (h : powerAsks p = powerAsks q) (hq : asksNothing q n) : asksNothing p n := by
  have e : p.held = q.held ∧ p.startAfter = q.startAfter ∧ p.stopAfter = q.stopAfter ∧ p.lastPwr = q.lastPwr ∧ p.sleeping = q.sleeping ∧
      p.mode = q.mode := by
    simp only [powerAsks, Power.mk.injEq] at h
    obtain ⟨hm, _, _, _, _, hh, h1, h2, h3, _, h4, _⟩ := h
    exact ⟨hh, h1, h2, h3, h4, hm⟩
  obtain ⟨hh, h1, h2, h3, h4, hm⟩ := e
  unfold asksNothing
  rw [hh, h1, h2, h3, h4, hm]
  exact hq

theorem powerSettled_of_asksNothing {n : Nat} (h : asksNothing s.power n) : powerSettled s n = s := by
  obtain ⟨hh, h1, h2, h3, _⟩ := h
  simp [powerSettled, heldOf, powerDeferred, pwrDone, hh, h1, h2, h3]

theorem sleepSettles_of_asksNothing {n : Nat} (h : asksNothing s.power n) : sleepSettles s = s := by
  obtain ⟨_, _, _, _, hs, _⟩ := h
  simp [sleepSettles, hs]

theorem bootSettled_of_asksNothing {n : Nat} (h : asksNothing s.power n) : bootSettled s = s := by
  obtain ⟨_, _, _, _, _, hm⟩ := h
  simp [bootSettled, hm]

theorem deferredReports_of_nil {n : Nat} (h : (ctlOf s n).deferred = []) : deferredReports s n = setCtl s n fun c => { c with deferred := [] } := by
  simp [deferredReports, h]

end

end Sys2Proof.Machine
end

section
/-! PROOFS. Errors of cells: counting, retirement, reports to the block, and the statement on them. -/

namespace Sys2Proof.Machine

open Says

section
variable {s : State} {r b c : Nat}

/-! Counting corrected errors (R13). -/

/-- The corrected errors kept once one more of a unit has come: those of the last second of it. -/
def errorsWith (s : State) (u : UnitId) : List (UnitId × Nat) :=
  (u, s.now) :: s.corrected.filter fun x => x.1 != u || decide (s.now < x.2 + 1000000000)

/-- More than 16 of them are the unit's. -/
def tooMany (s : State) (u : UnitId) : Bool := decide (16 < ((errorsWith s u).filter fun x => x.1 == u).length)

theorem countCorrected_one (s : State) (u : UnitId) : countCorrected s u 1 = ({ s with corrected := errorsWith s u }, tooMany s u) := rfl

theorem isRetired_iff (s : State) (r b c : Nat) : isRetired s r b c = true ↔ (⟨r, b, c⟩ : UnitId) ∈ s.retired := by
  simp [isRetired]

theorem isQuarantined_iff (s : State) (r b : Nat) : isQuarantined s r b = true ↔ (r, b) ∈ s.quarantined := by
  simp [isQuarantined]

/-! Retirement (R13, R35). -/

/-- The state after a unit has retired. -/
def unitRetired (s : State) (r b c : Nat) : State := raise { s with retired := s.retired ++ [⟨r, b, c⟩] } 0 r 0x3F0 b c 0

theorem retireCell_of_not_retired (h : isRetired s r b c = false) : retireCell s r b c = unitRetired s r b c := by
  simp [retireCell, h, unitRetired]

/-- Cells outside the serial lanes and the DRAM ranks retire by R13. -/
theorem retireUnit_of_plain (h3 : r ≠ 3) (h14 : r ≠ 14) (hb : r ∉ bauxites) : retireUnit s r b c = retireCell s r b c := by
  have hb' : ¬(8 ≤ r ∧ r < 12) := by
    rintro ⟨hl, hu⟩
    interval_cases r <;> simp [bauxites] at hb
  simp [retireUnit, h3, h14, hb']

theorem isRetired_congr {t : State} (h : t.retired = s.retired) : isRetired t r b c = isRetired s r b c := by simp [isRetired, h]

/-! CELL_ERROR, by the outcome of the error. -/

/-- A cell in service: its block has it, its region has power, and it has not retired. -/
def cellThere (s : State) (r b c : Nat) : Prop := c < cellsIn r b ∧ isPowered s r = true ∧ isRetired s r b c = false

theorem cellError_of_not_there (h : ¬cellThere s r b c) (ctx : Fin 4) (e : CellErr) : cellError s r b c ctx e = s := by
  refine if_pos ?_
  simp only [cellThere, not_and, Bool.not_eq_false] at h
  by_cases hc : c < cellsIn r b <;> by_cases hp : isPowered s r = true <;> simp_all

theorem cellError_congr {e e' : CellErr} (h : cellOutcome e = cellOutcome e') (ctx : Fin 4) : cellError s r b c ctx e = cellError s r b c ctx e' := by
  simp only [cellError, h]

theorem cellError_of_outcome_none {e : CellErr} (h : cellOutcome e = none) (ctx : Fin 4) : cellError s r b c ctx e = s := by
  simp [cellError, h]

theorem cellError_exhausted (h : cellThere s r b c) (ctx : Fin 4) : cellError s r b c ctx .exhausted = retireUnit s r b c := by
  obtain ⟨hc, hp, hr⟩ := h
  simp [cellError, hc, hp, hr, cellOutcome]

theorem cellError_corrected (h : cellThere s r b c) (ctx : Fin 4) : cellError s r b c ctx .corrected =
    if tooMany s ⟨r, b, c⟩ then retireUnit { s with corrected := errorsWith s ⟨r, b, c⟩ } r b c else { s with corrected := errorsWith s ⟨r, b, c⟩ } := by
  obtain ⟨hc, hp, hr⟩ := h
  simp only [cellError, hc, hp, hr, cellOutcome, countCorrected_one]
  rfl

theorem cellError_retried (h : cellThere s r b c) (ctx : Fin 4) (n : Fin 3) (hm : tooMany s ⟨r, b, c⟩ = false) (hg : r < 4 ∨ 8 ≤ r) :
    cellError s r b c ctx (.retried n) = { raise s 0 r 0x3F6 b c 0 with corrected := errorsWith s ⟨r, b, c⟩ } := by
  have hg' : ¬(4 ≤ r ∧ r < 8) := by omega
  have hm' : tooMany (raise s 0 r 0x3F6 b c 0) ⟨r, b, c⟩ = false := hm
  obtain ⟨hc, hp, hr⟩ := h
  simp only [cellError, hc, hp, hr, cellOutcome, if_neg hg', countCorrected_one, hm']
  rfl

/-! CELL_QUARANTINED (R12, R16, R17). -/

theorem cellReport_of_not_retired (h : isRetired s r b c = false) : cellReport s r b c = s := by simp [cellReport, h]

theorem cellReport_of_quarantined (h : isRetired s r b c = true) (hq : isQuarantined s r b = true) : cellReport s r b c = countReport s r := by
  simp [cellReport, h, hq]

theorem cellReport_of_on (h : isRetired s r b c = true) (hq : isQuarantined s r b = false) (hp : phaseOf s r = .on) :
    cellReport s r b c = cellQuarantine s r b c := by
  rw [phaseOf] at hp
  simp [cellReport, h, hq, hp]

theorem cellReport_of_moving (h : isRetired s r b c = true) (hq : isQuarantined s r b = false)
    (hp : phaseOf s r = .draining ∨ phaseOf s r = .inReset ∨ phaseOf s r = .initialising) :
    cellReport s r b c = setCtl (countReport s r) r fun k => { k with deferred := k.deferred ++ [(b, c)] } := by
  simp only [phaseOf] at hp
  rcases hp with hp | hp | hp <;> simp [cellReport, h, hq, hp]

/-- The cell's own response: its report, and its work handed over. -/
def cellLeaves (s : State) (r b c : Nat) : State := cellHand (raise s 1 r 0x3F1 b c 0) r b c

theorem quiet_cellLeaves (s : State) (r b c : Nat) : Quiet (raise s 1 r 0x3F1 b c 0) (cellLeaves s r b c) := quiet_cellHand (.refl _)

/-- The block's response: it is quarantined, and a region with no sibling for it responds. -/
def blockLeaves (s : State) (r b : Nat) : State :=
  let s := leaseShow (blockQuarantine s r b)
  if r = 1 ∨ r = 2 ∨ r = 14 then regionFault s r else s

theorem retains_quarantine {q : State} {l : List (Nat × Nat)} (h : Retains q s) : Retains q { s with quarantined := s.quarantined ++ l } :=
  ⟨h.1, h.2.trans (List.prefix_append _ _)⟩

theorem retains_blockQuarantine {q : State} (h : Retains q s) : Retains q (blockQuarantine s r b) :=
  .ite h (retains_of_quiet (.raise (retains_quarantine h)) (quiet_blockHand (.refl _)))

theorem retains_blockLeaves {q : State} (h : Retains q (blockQuarantine s r b)) : Retains q (blockLeaves s r b) :=
  have h' := retains_of_quiet h (quiet_leaseShow (.refl _))
  .ite (retains_regionFault h') h'

theorem cellQuarantine_eq (s : State) (r b c : Nat) : cellQuarantine s r b c =
    if !blockFails (cellLeaves s r b c) r b then cellLeaves s r b c
    else if 8 ≤ r ∧ r < 12 then checkChannel (cellLeaves s r b c) (Fin.ofNat 32 (8 * (r - 8) + b))
    else blockLeaves (cellLeaves s r b c) r b := rfl

theorem retains_cellQuarantine (s : State) (r b c : Nat) : Retains (raise s 1 r 0x3F1 b c 0) (cellQuarantine s r b c) := by
  rw [cellQuarantine_eq]
  have h := (quiet_cellLeaves s r b c).retains
  exact .ite h (.ite (retains_checkChannel h) (retains_blockLeaves (retains_blockQuarantine h)))

theorem blockFails_congr {t : State} (h : t.retired = s.retired) : blockFails t r b = blockFails s r b := by
  simp [blockFails, retiredIn, isRetired, h]

theorem blockQuarantine_of_not (h : isQuarantined s r b = false) :
    blockQuarantine s r b = blockHand (raise { s with quarantined := s.quarantined ++ [(r, b)] } 1 r 0x3F2 b 0xFF 0) r b := by
  simp [blockQuarantine, h]

theorem retains_cellQuarantine_of_fails (hq : isQuarantined s r b = false) (hf : blockFails s r b = true) (hb : ¬(8 ≤ r ∧ r < 12)) :
    Retains (raise { cellLeaves s r b c with quarantined := s.quarantined ++ [(r, b)] } 1 r 0x3F2 b 0xFF 0) (cellQuarantine s r b c) := by
  obtain ⟨_, _, _, _, hr, hqu, _⟩ := quiet_cellLeaves s r b c
  have hq' : isQuarantined (cellLeaves s r b c) r b = false := by
    rw [← hq]
    simp only [isQuarantined, hqu, raise_quarantined]
  have hf' : blockFails (cellLeaves s r b c) r b = true := (blockFails_congr hr).trans hf
  rw [cellQuarantine_eq, if_neg (by simp [hf']), if_neg hb]
  apply retains_blockLeaves
  rw [blockQuarantine_of_not hq', hqu]
  exact (quiet_blockHand (.refl _)).retains

end

/-- Settles O42: a cell that is there has its error counted or retires; its report is counted, held, or acted on by its block, whose own condition quarantines it. -/
theorem cellFaults : Obligations.CellFaults := by
  intro s r b c u there plain recent many gone
  have there_iff : there ↔ cellThere s r.val b.toNat c.toNat := by
    rw [cellThere, ← Bool.not_eq_true, isRetired_iff]
  have many_iff : many ↔ tooMany s u = true := by
    rw [tooMany, decide_eq_true_iff]
    rfl
  have retired (t : State) (ht : t.retired = s.retired) : gone (unitRetired t r.val b.toNat c.toNat) :=
    ⟨congrArg (· ++ [u]) ht, _, List.mem_append_right _ (List.mem_singleton_self _), rfl, rfl, rfl⟩
  refine ⟨fun h ctx e => ?notThere, fun h ctx => ?there, fun ctx i x fs => ⟨fun h => ?noError, fun e he hw => ?asSaid⟩, fun h => ?notRetired,
    fun h hq => ?inQuarantine, fun h hq => ⟨fun hp => ?acted, fun hp => ?held⟩⟩
  case notThere => exact congrArg Host.Outcome.next (cellError_of_not_there (there_iff.not.1 h) ctx e)
  case there =>
    have hc := there_iff.1 h
    have hret := hc.2.2
    have plainRetires (hp : plain) (t : State) (ht : t.retired = s.retired) :
        retireUnit t r.val b.toNat c.toNat = unitRetired t r.val b.toNat c.toNat := by
      rw [retireUnit_of_plain hp.1 hp.2.1 hp.2.2, retireCell_of_not_retired ((isRetired_congr ht).trans hret)]
    refine ⟨fun hm => ?_, fun hm hp => ?_, fun hp => ?_, fun n hm hg => ?_⟩
    · rw [exec_cellError, execCellError, cellError_corrected hc, if_neg (many_iff.not.1 hm)]
      rfl
    · refine ⟨unitRetired { s with corrected := recent } r.val b.toNat c.toNat, ?_, rfl, retired _ rfl⟩
      rw [exec_cellError, execCellError, cellError_corrected hc, if_pos (many_iff.1 hm)]
      exact congrArg Host.Outcome.next (plainRetires hp { s with corrected := recent } rfl)
    · refine ⟨unitRetired s r.val b.toNat c.toNat, ?_, rfl, retired _ rfl, rfl⟩
      rw [exec_cellError, execCellError, cellError_exhausted hc, plainRetires hp s rfl]
    · refine ⟨{ raise s 0 r.val 0x3F6 b.toNat c.toNat 0 with corrected := recent }, ?_, rfl, rfl, _, rfl, rfl, rfl, rfl⟩
      rw [exec_cellError, execCellError, cellError_retried hc ctx n (by simpa using many_iff.not.1 hm) hg]
      rfl
  case noError => exact congrArg Host.Outcome.next (cellError_of_outcome_none h ctx)
  case asSaid =>
    refine congrArg Host.Outcome.next (cellError_congr (he.trans ?_) ctx)
    cases e with
    | word i x fs => exact absurd rfl (hw i x fs)
    | corrected | retried | exhausted => rfl
  case notRetired =>
    have hr : isRetired s r.val b.toNat c.toNat = false := by rw [← Bool.not_eq_true, isRetired_iff]; exact h
    exact congrArg Host.Outcome.next (cellReport_of_not_retired hr)
  case inQuarantine =>
    refine ⟨_, congrArg Host.Outcome.next (cellReport_of_quarantined ((isRetired_iff ..).2 h) ((isQuarantined_iff ..).2 hq)), ?_⟩
    simp [countReport, ctlOf_setCtl _ _ r.isLt]
  all_goals
    have hr : isRetired s r.val b.toNat c.toNat = true := (isRetired_iff ..).2 h
    have hq' : isQuarantined s r.val b.toNat = false := by rw [← Bool.not_eq_true, isQuarantined_iff]; exact hq
  case acted =>
    refine ⟨_, congrArg Host.Outcome.next (cellReport_of_on hr hq' hp), ?_, fun hf hb => ?_⟩
    · exact ⟨_, (retains_cellQuarantine ..).event (List.mem_append_right _ (List.mem_singleton_self _)), rfl, rfl, rfl⟩
    · have hb' : ¬(8 ≤ r.val ∧ r.val < 12) := by
        rintro ⟨hl, hu⟩
        have hmem : r.val ∈ bauxites := by simp [bauxites]; omega
        exact hb hmem
      have hk := retains_cellQuarantine_of_fails (c := c.toNat) hq' hf hb'
      refine ⟨hk.2.subset (List.mem_append_right _ (List.mem_singleton_self _)), _, hk.event (List.mem_append_right _ (List.mem_singleton_self _)), rfl, ?_⟩
      rfl
  case held =>
    refine ⟨_, congrArg Host.Outcome.next (cellReport_of_moving hr hq' hp), ?_⟩
    simp [countReport, ctlOf_setCtl _ _ r.isLt]

end Sys2Proof.Machine
end

section
/-! PROOFS. A region's way through power, drain, reset and rejoin: what the end of a drain does to outstanding requests, and the statement on the transitions. -/

namespace Sys2Proof.Machine

open Says

/-! Outstanding requests: acknowledgements, the hosts' reads, and the Flint regions but region `n`. -/

/-- The parts of a state that hold outstanding requests are those of `r`. -/
def AsksParts (n : Nat) (r : State) (acks : List OutAck) (hosts : Vector HostPort 2) (fl : Vector Flint 2) : Prop :=
  acks = r.acks ∧ hosts = r.slate.hosts ∧ ∀ f : FlintId, flintRegion f ≠ n → fl[flIdx f] = r.ctrl.fl[flIdx f]

/-- A state has the outstanding requests of `r`, those of the Flint region `n` left out. -/
def Asks (n : Nat) (r s : State) : Prop := AsksParts n r s.acks s.slate.hosts s.ctrl.fl

theorem Asks.refl (n : Nat) (s : State) : Asks n s s := ⟨rfl, rfl, fun _ _ => rfl⟩

section
variable {n : Nat} {r s t : State}

theorem Asks.ite {c : Prop} [Decidable c] (hs : Asks n r s) (ht : Asks n r t) : Asks n r (if c then s else t) := by
  split <;> assumption

theorem Asks.foldl {α : Type} {f : State → α → State} (hf : ∀ t x, Asks n r t → Asks n r (f t x)) (l : List α) (h : Asks n r s) : Asks n r (l.foldl f s) := by
  induction l generalizing s with
  | nil => exact h
  | cons x l ih => exact ih (hf s x h)

theorem Asks.same (h : Asks n r s) (ha : t.acks = s.acks) (hh : t.slate.hosts = s.slate.hosts) (hf : t.ctrl.fl = s.ctrl.fl) : Asks n r t := by
  unfold Asks
  rw [ha, hh, hf]
  exact h

theorem asks_setReg {k : Nat} {v : Word} (h : Asks n r s) : Asks n r (setReg s k v) := h
theorem asks_setF {k lo width v : Nat} (h : Asks n r s) : Asks n r (setF s k lo width v) := h
theorem asks_raise {a b c d e g : Nat} (h : Asks n r s) : Asks n r (raise s a b c d e g) := h
theorem asks_resetWindow {m : Nat} (h : Asks n r s) : Asks n r (resetWindow s m) := h
theorem asks_setNode {x : Fin 40} {f : MeshNode → MeshNode} (h : Asks n r s) : Asks n r (setNode s x f) := h
theorem asks_setTags {x : Fin 16} {f : List Nat → List Nat} (h : Asks n r s) : Asks n r (setTags s x f) := h
theorem asks_setMica {f : Mica → Mica} (h : Asks n r s) : Asks n r (setMica s f) := h
theorem asks_setLease {f : Lease → Lease} (h : Asks n r s) : Asks n r (setLease s f) := h
theorem asks_setQuartz {f : Quartz → Quartz} (h : Asks n r s) : Asks n r (setQuartz s f) := h
theorem asks_setQPort {p : Fin 4} {f : QPort → QPort} (h : Asks n r s) : Asks n r (setQPort s p f) := h
theorem asks_setAudio {f : Audio → Audio} (h : Asks n r s) : Asks n r (setAudio s f) := h
theorem asks_setLinks {f : Links → Links} (h : Asks n r s) : Asks n r (setLinks s f) := h
theorem asks_setGal {g : Fin 4} {f : Galena → Galena} (h : Asks n r s) : Asks n r (setGal s g f) := h
theorem asks_setObs {f : Obsidian → Obsidian} (h : Asks n r s) : Asks n r (setObs s f) := h
theorem asks_setCal {f : CalMap → CalMap} (h : Asks n r s) : Asks n r (setCal s f) := h
theorem asks_setTport {f : TimePort → TimePort} (h : Asks n r s) : Asks n r (setTport s f) := h
theorem asks_setChan {c : Fin 32} {f : Chan → Chan} (h : Asks n r s) : Asks n r (setChan s c f) := h
theorem asks_noteFailed {a b c : Nat} {l : List Nat} (h : Asks n r s) : Asks n r (noteFailed s a b l c) := h
theorem asks_therm {x : Therm} (h : Asks n r s) : Asks n r { s with therm := x } := h
theorem asks_dram {x : Dram} (h : Asks n r s) : Asks n r { s with dram := x } := h

theorem asks_setCtl {m : Nat} {f : RegionCtl → RegionCtl} (h : Asks n r s) : Asks n r (setCtl s m f) := by
  unfold setCtl
  split
  · exact h
  · exact h

theorem flIdx_inj {f g : FlintId} (h : flIdx f = flIdx g) : f = g := by
  cases f <;> cases g <;> simp [flIdx] at h ⊢

theorem asks_setFlint {f : FlintId} {g : Flint → Flint} (hf : flintRegion f = n) (h : Asks n r s) : Asks n r (setFlint s f g) := by
  obtain ⟨ha, hh, hfl⟩ := h
  refine ⟨ha, hh, fun f' hf' => Eq.trans ?_ (hfl f' hf')⟩
  have hne : (flIdx f).val ≠ (flIdx f').val := fun e => hf' (flIdx_inj (Fin.ext e) ▸ hf)
  exact Vector.getElem_set_ne (flIdx f).isLt (flIdx f').isLt hne

theorem asks_pwrShow (h : Asks n r s) : Asks n r (pwrShow s) := asks_setReg (asks_setReg h)

theorem asks_setPhase {m : Nat} {p : RegionPhase} (h : Asks n r s) : Asks n r (setPhase s m p) := asks_pwrShow (asks_setCtl h)

theorem asks_answer {a b c : Nat} {d : Fin 16} {x : Byte} {e : Nat} {l : List CodedWord} (h : Asks n r s) : Asks n r (answer s e d x a b c l) :=
  .ite (asks_setNode h) (asks_setNode h)

theorem asks_ifacesReset {m : Nat} (h : Asks n r s) : Asks n r (ifacesReset s m) := .foldl (fun _ _ ht => asks_setNode ht) _ (asks_setTags h)

theorem asks_lanesReset {m : Nat} (h : Asks n r s) : Asks n r (lanesReset s m) := .ite (asks_setLinks h) (asks_setLinks h)

theorem asks_endStream {p : Fin 4} (h : Asks n r s) : Asks n r (endStream s p) := asks_setAudio (asks_setF (asks_setQuartz (asks_setQPort h)))

theorem asks_micaReset (h : Asks n r s) : Asks n r (micaReset s) := .foldl (fun _ _ ht => asks_setReg ht) _ (asks_resetWindow (asks_setMica h))

theorem asks_resetKeeping {m : Nat} (h : Asks n r s) : Asks n r (resetKeeping s m) := .foldl (fun _ _ ht => asks_setReg ht) _ (asks_resetWindow h)

theorem asks_calAbort (h : Asks n r s) : Asks n r (calAbort s) := by
  unfold calAbort
  split
  · exact h
  · exact asks_raise (asks_setF (asks_setF (asks_therm h)))

theorem asks_readsTimeOut {m : Nat} (h : Asks n r s) : Asks n r (readsTimeOut s m) :=
  .foldl (fun _ _ ht => .ite (.foldl (fun _ _ hu => asks_answer (asks_noteFailed hu)) _ (asks_setChan ht)) ht) _ h

theorem asks_regionReset (h : Asks n r s) : Asks n r (regionReset s n) := by
  unfold regionReset
  extract_lets t1 t2 t3 q1 o1 o2
  have h1 : Asks n r t1 := asks_ifacesReset h
  have h3 : Asks n r t3 := asks_setLease (.ite (asks_micaReset h1) (.ite (asks_resetKeeping h1) (asks_resetWindow h1)))
  clear_value t3
  have hq : Asks n r q1 := .foldl (fun _ _ ht => asks_endStream ht) _ h3
  have ho : Asks n r o2 := asks_setCal (asks_lanesReset (asks_setObs h3))
  clear_value q1 o2
  split
  next hn => exact asks_setFlint hn.symm h3
  split
  next hn => exact asks_setFlint hn.symm h3
  exact .ite (asks_lanesReset (asks_setQuartz hq)) (.ite (asks_setGal h3) (.ite (asks_setF ho) (.ite (asks_setReg (asks_setTport h3)) h3)))

/-! The end of a drain (R20). -/

/-- The acknowledgements after a region's drain has ended. -/
def acksEnded (s : State) (n : Nat) : List OutAck :=
  (s.acks.filter fun a => ackFrom a != some n).map fun a => if ackTo a n then { a with status := 5 } else a

/-- A Flint region's read of the drained region ends with TIMEOUT. -/
def readEnded (n : Nat) (x : Flint) : Flint :=
  match x.wait with
  | some (.read d v st reg off) => { x with wait := some (if reg = n then .read d 0 5 reg off else .read d v st reg off) }
  | _ => x

/-- The state before the hosts' and the Flint regions' reads end. -/
def acksEnd (s : State) (n : Nat) : State :=
  readsTimeOut { s with
    acks := acksEnded s n, dram := { s.dram with ch := s.dram.ch.map fun c => { c with readQ := c.readQ.filter fun q => q.src.val != n } } } n

theorem endOutstanding_eq (s : State) (n : Nat) : endOutstanding s n =
    setFlint (setFlint (hostReadTimesOut (hostReadTimesOut (acksEnd s n) n .a) n .b) .a (readEnded n)) .b (readEnded n) := rfl

theorem asks_acksEnd (s : State) (n m : Nat) : Asks m { s with acks := acksEnded s n } (acksEnd s n) :=
  asks_readsTimeOut (asks_dram (.refl m _))

/-- A host's read ends with TIMEOUT, or nothing of it changes. -/
theorem hostReadTimesOut_cases (s : State) (m : Nat) (h : HostId) :
    hostReadTimesOut s m h = s ∨ ∃ x : HostRead, hostReadTimesOut s m h = setHost s h fun p => { p with read := some { x with result := some ([], 5) } } := by
  unfold hostReadTimesOut
  split
  next x _ =>
    dsimp only
    generalize (!x.flash && x.result.isNone && if 0xFFF0000000 ≤ x.addr ∧ x.addr < 0xFFF1000000 then x.addr / 0x100000 % 16 == m
      else decide (8 ≤ m) && decide (m < 12)) = there
    cases there
    · exact .inl rfl
    · exact .inr ⟨x, rfl⟩
  next => exact .inl rfl

theorem quiet_hostReadTimesOut {m : Nat} {h : HostId} (hs : Quiet r s) : Quiet r (hostReadTimesOut s m h) := by
  rcases hostReadTimesOut_cases s m h with e | ⟨x, e⟩ <;> rw [e]
  · exact hs
  · exact quiet_setSlate hs

theorem quiet_readsTimeOut {m : Nat} (h : Quiet r s) : Quiet r (readsTimeOut s m) :=
  .foldl (fun _ _ ht => .ite (.foldl (fun _ _ hu => quiet_answer (quiet_noteFailed hu)) _ (quiet_setChan ht)) ht) _ h

theorem quiet_acksEnd (s : State) (m : Nat) : Quiet s (acksEnd s m) := by
  unfold acksEnd
  exact quiet_readsTimeOut (.same (.refl s) rfl rfl rfl rfl rfl rfl rfl)

theorem quiet_endOutstanding (s : State) (m : Nat) : Quiet s (endOutstanding s m) := by
  rw [endOutstanding_eq]
  exact quiet_setFlint (quiet_setFlint (quiet_hostReadTimesOut (quiet_hostReadTimesOut (quiet_acksEnd s m))))

theorem hostReadTimesOut_frame (s : State) (m : Nat) (h : HostId) :
    (hostReadTimesOut s m h).acks = s.acks ∧ (hostReadTimesOut s m h).ctrl = s.ctrl := by
  rcases hostReadTimesOut_cases s m h with e | ⟨x, e⟩ <;> rw [e] <;> exact ⟨rfl, rfl⟩

theorem acks_endOutstanding (s : State) (n : Nat) : (endOutstanding s n).acks = acksEnded s n := by
  rw [endOutstanding_eq, setFlint_acks, setFlint_acks, (hostReadTimesOut_frame ..).1, (hostReadTimesOut_frame ..).1]
  exact (asks_acksEnd s n n).1

theorem flintOf_endOutstanding (s : State) (n : Nat) (f : FlintId) : flintOf (endOutstanding s n) f = readEnded n (flintOf s f) := by
  have h : flintOf (hostReadTimesOut (hostReadTimesOut (acksEnd s n) n .a) n .b) f = flintOf s f := by
    rw [flintOf, (hostReadTimesOut_frame ..).2, (hostReadTimesOut_frame ..).2]
    exact (asks_acksEnd s n 0).2.2 f (by cases f <;> decide)
  rw [endOutstanding_eq, ← h]
  cases f
  · exact (flintOf_setFlint_other _ .b _).trans (flintOf_setFlint ..)
  · exact (flintOf_setFlint _ .b _).trans (congrArg _ (flintOf_setFlint_other _ .a _))

theorem hostOf_setHost (s : State) (h : HostId) (f : HostPort → HostPort) : hostOf (setHost s h f) h = f (hostOf s h) := by
  simp [hostOf, setHost, vUpd]

theorem hostIdx_inj {h k : HostId} (e : hostIdx h = hostIdx k) : h = k := by
  cases h <;> cases k <;> simp [hostIdx] at e ⊢

theorem hostOf_setHost_ne (s : State) {h k : HostId} (f : HostPort → HostPort) (hk : h ≠ k) : hostOf (setHost s h f) k = hostOf s k := by
  have hne : (hostIdx h).val ≠ (hostIdx k).val := fun e => hk (hostIdx_inj (Fin.ext e))
  exact Vector.getElem_set_ne (hostIdx h).isLt (hostIdx k).isLt hne

theorem hostOf_hostReadTimesOut_ne (s : State) (m : Nat) {h k : HostId} (hk : h ≠ k) : hostOf (hostReadTimesOut s m h) k = hostOf s k := by
  rcases hostReadTimesOut_cases s m h with e | ⟨x, e⟩ <;> rw [e]
  exact hostOf_setHost_ne s _ hk

/-- A host's pending read of the region's window. -/
def readsWindow (p : HostPort) (x : HostRead) (m : Nat) : Prop :=
  p.read = some x ∧ x.flash = false ∧ x.result = none ∧ 0xFFF0000000 ≤ x.addr ∧ x.addr < 0xFFF1000000 ∧ x.addr / 0x100000 % 16 = m

theorem hostOf_hostReadTimesOut {m : Nat} {h : HostId} {x : HostRead} (hx : readsWindow (hostOf s h) x m) :
    (hostOf (hostReadTimesOut s m h) h).read = some { x with result := some ([], 5) } := by
  obtain ⟨hr, hf, hn, hl, hu, hm⟩ := hx
  simp [hostReadTimesOut, hr, hf, hn, hl, hu, hm, hostOf_setHost]

theorem hostOf_endOutstanding {m : Nat} {h : HostId} {x : HostRead} (hx : readsWindow (hostOf s h) x m) :
    (hostOf (endOutstanding s m) h).read = some { x with result := some ([], 5) } := by
  have h0 (k : HostId) : hostOf (acksEnd s m) k = hostOf s k := congrArg (fun v => v[hostIdx k]) (asks_acksEnd s m m).2.1
  rw [← h0] at hx
  have h1 (u : State) : hostOf (setFlint (setFlint u .a (readEnded m)) .b (readEnded m)) h = hostOf u h := rfl
  rw [endOutstanding_eq, h1]
  cases h
  · rw [hostOf_hostReadTimesOut_ne _ _ (h := .b) (k := .a) nofun]
    exact hostOf_hostReadTimesOut hx
  · refine hostOf_hostReadTimesOut ?_
    rwa [hostOf_hostReadTimesOut_ne _ _ (h := .a) (k := .b) nofun]

theorem steady_regionReset (h : Steady r s) : Steady r (regionReset s n) := by
  unfold regionReset
  extract_lets t1 t2 t3 q1 o1 o2
  have h1 : Quiet s t1 := quiet_ifacesReset (.refl s)
  have h3 : Quiet s t3 := quiet_setLastAction (.ite (.foldl (fun _ _ ht => quiet_setReg ht) _ (quiet_resetWindow (quiet_setMica h1)))
    (.ite (.foldl (fun _ _ ht => quiet_setReg ht) _ (quiet_resetWindow h1)) (quiet_resetWindow h1)))
  clear_value t3
  have hq : Quiet s q1 := .foldl (fun _ _ ht => quiet_endStream ht) _ h3
  have ho : Steady r o2 := Steady.quiet (s := setObs t3 obsReset) (steady_setObs (h.quiet h3)) (quiet_setCal (quiet_lanesReset (.refl _)))
  clear_value q1 o2
  have hf {f : FlintId} : Steady r (setFlint t3 f flintReset) := h.quiet (quiet_setFlint h3)
  exact .ite hf (.ite hf (.ite (h.quiet (quiet_lanesReset (quiet_setQuartz hq))) (.ite (h.quiet (quiet_setGal h3))
    (.ite (ho.quiet (quiet_setF (.refl _))) (.ite (h.quiet (quiet_setReg (quiet_setTport h3))) (h.quiet h3))))))

/-- What the end of a drain leads to. -/
theorem drainEnds_of_draining (h : phaseOf s n = .draining) : drainEnds s n =
    if (ctlOf (endOutstanding s n) n).drainFor = .rejoin then setPhase (regionReset (countReset (endOutstanding s n) n) n) n .inReset
    else setPhase (calAbort (endOutstanding s n)) n .poweringOff := if_neg (by simpa [phaseOf] using h)

theorem ctlOf_endOutstanding (s : State) (n m : Nat) : ctlOf (endOutstanding s n) m = ctlOf s m :=
  ctlOf_congr (quiet_endOutstanding s n).1 m

theorem now_endOutstanding (s : State) (n : Nat) : (endOutstanding s n).now = s.now :=
  ((kept_queue ..).1 (kept_endOutstanding ((kept_queue s.pending s.now s).2 ⟨rfl, rfl⟩) n)).2

/-- After a drain's end the outstanding requests are as `endOutstanding` leaves them. -/
theorem asks_drainEnds (h : phaseOf s n = .draining) : Asks n (endOutstanding s n) (drainEnds s n) := by
  rw [drainEnds_of_draining h]
  exact .ite (asks_setPhase (asks_regionReset (asks_setCtl (.refl ..)))) (asks_setPhase (asks_calAbort (.refl ..)))

/-! What a region-level fault leads to (R13, R21, R548). -/

theorem outOfService_of_on (hn : n < 16) (h : phaseOf s n = .on) : outOfService s n =
    startDrain (powerEvent (setCtl s n fun c => { c with outOfService := true }) 3 0x186 n) n .outOfService := by
  have hp : (ctlOf (powerEvent (setCtl s n fun c => { c with outOfService := true }) 3 0x186 n) n).phase = .on := by
    rw [powerEvent, ctlOf_congr (raise_ctl ..), ctlOf_setCtl s _ hn]
    exact h
  simp only [outOfService, hp]

theorem ctlOf_startDrain (hn : n < 16) (h : phaseOf s n = .on) (w : DrainFor) : ctlOf (startDrain s n w) n =
    { ctlOf s n with phase := .draining, drainFor := w, rejoining := w == .rejoin } := by
  have hq : Quiet _ (startDrain s n w) := (if_neg (by simpa [phaseOf] using h) : startDrain s n w = _) ▸ quiet_drainBegins (.refl _)
  rw [ctlOf_congr hq.1, ctlOf_congr (raise_ctl ..), ctlOf_setPhase _ _ hn, ctlOf_setCtl _ _ hn]

theorem drained_startDrain (h : phaseOf s n = .on) (w : DrainFor) : ∃ e ∈ (startDrain s n w).evNet, e.code = evCode 2 n 0x3F3 := by
  have hq : Quiet _ (startDrain s n w) := (if_neg (by simpa [phaseOf] using h) : startDrain s n w = _) ▸ quiet_drainBegins (.refl _)
  exact ⟨_, hq.retains.event (List.mem_append_right _ (List.mem_singleton_self _)), rfl⟩

theorem startRejoin_of_on (h : phaseOf s n = .on) : startRejoin s n = if fourthReset s n then outOfService s n else startDrain s n .rejoin :=
  if_neg (by simpa [phaseOf] using h)

theorem regionFault_of_on (h : phaseOf s n = .on) (h0 : n ≠ 0) (hb : n ∉ bauxites) (ho : n ≠ 14) : regionFault s n = startRejoin s n := by
  have hb' : ¬ (8 ≤ n ∧ n < 12) := by simp [bauxites] at hb; omega
  rw [phaseOf] at h
  simp [regionFault, h, h0, hb', ho]

theorem regionFault_of_initialising (h : phaseOf s n = .initialising) : regionFault s n =
    if n ≠ 14 && !(decide (8 ≤ n) && decide (n < 12)) && fourthReset s n then outOfService s n else setPhase (countReset s n) n .inReset := by
  rw [phaseOf] at h
  simp only [regionFault, h]

theorem outOfService_of_initialising (hn : n < 16) (h : phaseOf s n = .initialising) : outOfService s n =
    setPhase (powerEvent (setCtl s n fun c => { c with outOfService := true }) 3 0x186 n) n .poweringOff := by
  have hp : (ctlOf (powerEvent (setCtl s n fun c => { c with outOfService := true }) 3 0x186 n) n).phase = .initialising := by
    rw [powerEvent, ctlOf_congr (raise_ctl ..), ctlOf_setCtl s _ hn]
    exact h
  simp only [outOfService, hp]

theorem ctlOf_outOfServiceEvent (hn : n < 16) : ctlOf (powerEvent (setCtl s n fun c => { c with outOfService := true }) 3 0x186 n) n =
    { ctlOf s n with outOfService := true } := by
  rw [powerEvent, ctlOf_congr (raise_ctl ..), ctlOf_setCtl s _ hn]

theorem outOfService_initialising (hn : n < 16) (h : phaseOf s n = .initialising) : phaseOf (outOfService s n) n = .poweringOff ∧
    (ctlOf (outOfService s n) n).outOfService = true ∧ tells (outOfService s n) (evCode 3 0 0x186) n := by
  rw [outOfService_of_initialising hn h]
  refine ⟨phaseOf_setPhase _ _ hn, ?_, Retains.tells (retains_setPhase ⟨List.prefix_rfl, List.prefix_rfl⟩) (tells_raise ..)⟩
  rw [ctlOf_setPhase _ _ hn, ctlOf_outOfServiceEvent hn]

theorem outOfService_on (hn : n < 16) (h : phaseOf s n = .on) : phaseOf (outOfService s n) n = .draining ∧
    (∃ e ∈ (outOfService s n).evNet, e.code = evCode 2 n 0x3F3) ∧ (ctlOf (outOfService s n) n).drainFor = .outOfService ∧
    (ctlOf (outOfService s n) n).outOfService = true ∧ tells (outOfService s n) (evCode 3 0 0x186) n := by
  have hp : phaseOf (powerEvent (setCtl s n fun c => { c with outOfService := true }) 3 0x186 n) n = .on := by
    rw [phaseOf, ctlOf_outOfServiceEvent hn]
    exact h
  rw [outOfService_of_on hn h]
  refine ⟨?_, drained_startDrain hp _, ?_, ?_, Retains.tells (retains_startDrain ⟨List.prefix_rfl, List.prefix_rfl⟩) (tells_raise ..)⟩
  · rw [phaseOf, ctlOf_startDrain hn hp]
  · rw [ctlOf_startDrain hn hp]
  · rw [ctlOf_startDrain hn hp, ctlOf_outOfServiceEvent hn]

/-! Registers of an unpowered region (R20). -/

/-- A listed key stays listed through a filter on keys where the filter keeps it. -/
theorem smGet?_filter_key {α : Type} (m : List (Nat × α)) (p : Nat → Bool) (k : Nat) :
    smGet? (m.filter fun e => p e.1) k = if p k then smGet? m k else none := by
  induction m with
  | nil => simp [smGet?]
  | cons e m ih =>
    by_cases hk : e.1 = k <;> by_cases hp : p e.1 <;> simp_all [smGet?]

theorem readReg_resetWindow (s : State) (n k : Nat) : readReg (resetWindow s n) k =
    if k % 0x1000000 / 0x100000 = n ∧ ¬ (8 ≤ n ∧ n < 12 ∧ 0x100 ≤ k % 0x100000 ∧ k % 0x100000 < 0x200) then regReset k else readReg s k := by
  have h := smGet?_filter_key s.regs (fun k => !((k % 0x1000000) / 0x100000 == n && !(8 ≤ n && n < 12 && 0x100 ≤ k % 0x100000 && k % 0x100000 < 0x200))) k
  unfold readReg smRead resetWindow
  rw [h]
  split <;> split <;> simp_all

/-- The registers outside Slate's window are those of `r`. -/
def UnitRegs (r s : State) : Prop := ∀ k, 0x100000 ≤ k → readReg s k = readReg r k

theorem UnitRegs.ite {c : Prop} [Decidable c] (hs : UnitRegs r s) (ht : UnitRegs r t) : UnitRegs r (if c then s else t) := by
  split <;> assumption

theorem UnitRegs.foldl {α : Type} {f : State → α → State} (hf : ∀ t x, UnitRegs r t → UnitRegs r (f t x)) (l : List α) (h : UnitRegs r s) :
    UnitRegs r (l.foldl f s) := by
  induction l generalizing s with
  | nil => exact h
  | cons x l ih => exact ih (hf s x h)

theorem unitRegs_setReg {k : Nat} {v : Word} (hk : k < 0x100000) (h : UnitRegs r s) : UnitRegs r (setReg s k v) := fun m hm =>
  (readReg_setReg_ne s v (by omega)).trans (h m hm)

theorem unitRegs_setF {k lo width v : Nat} (hk : k < 0x100000) (h : UnitRegs r s) : UnitRegs r (setF s k lo width v) := unitRegs_setReg hk h

theorem unitRegs_sensorsOff (h : UnitRegs r s) : UnitRegs r (sensorsOff s n) := by
  refine .foldl (fun t i ht => ?_) _ h
  have hi : sltTemp i.val < 0x100000 := by
    have := i.isLt
    simp only [sltTemp]
    omega
  exact .ite (unitRegs_setF hi (unitRegs_setF hi ht)) ht

theorem unitRegs_setCtl {m : Nat} {f : RegionCtl → RegionCtl} (h : UnitRegs r s) : UnitRegs r (setCtl s m f) := fun k hk =>
  Eq.trans (congrArg (smRead regReset · k) (setCtl_regs ..)) (h k hk)

theorem unitRegs_setLastAction {m a : Nat} (h : UnitRegs r s) : UnitRegs r (setLastAction s m a) := h

theorem regs_ifacesReset (s : State) (n : Nat) : (ifacesReset s n).regs = s.regs := by
  unfold ifacesReset
  extract_lets t
  have h : t.regs = s.regs := rfl
  clear_value t
  induction routersOf n generalizing t with
  | nil => exact h
  | cons x l ih => exact ih _ h

theorem unitRegs_setPhase {m : Nat} {p : RegionPhase} (h : UnitRegs r s) : UnitRegs r (setPhase s m p) := by
  exact unitRegs_setReg (by decide) (unitRegs_setReg (by decide) (unitRegs_setCtl h))

/-- Where power is lost in a Galena region, its registers are those that its window's reset leaves. -/
theorem unitRegs_powerLost (s : State) (h4 : 4 ≤ n) (h8 : n < 8) : UnitRegs (resetWindow s n) (powerLost s n) := by
  have hw : UnitRegs (resetWindow s n) (resetWindow (ifacesReset s n) n) := fun k _ =>
    congrArg (smRead regReset · k) (show (resetWindow (ifacesReset s n) n).regs = (resetWindow s n).regs by simp [resetWindow, regs_ifacesReset])
  unfold powerLost
  extract_lets t0 t1 p1 p2 tp t2
  have h1 : UnitRegs (resetWindow s n) t1 := unitRegs_setLastAction (unitRegs_sensorsOff (unitRegs_setPhase (unitRegs_setCtl hw)))
  clear_value t1
  have h2 : UnitRegs (resetWindow s n) t2 := by
    clear_value p2
    have e : t2 = setGal { t1 with ctxs := t1.ctxs.filter fun x => galRegion x.id.gal != n } (Fin.ofNat 4 (n - 4)) fun x =>
        { blocks := blocksReset x, cache := cacheReset x.cache } :=
      (if_neg (by omega)).trans ((if_neg (by omega)).trans ((if_neg (by omega)).trans (if_pos ⟨h4, h8⟩)))
    rw [e]
    exact h1
  clear_value t2
  exact .ite h2 h2

theorem galenaRegs_powerLost (s : State) (h4 : 4 ≤ n) (h8 : n < 8) (o : Nat) (ho : o < 0x100000) :
    readReg (powerLost s n) (n * 0x100000 + o) = regReset (n * 0x100000 + o) := by
  rw [unitRegs_powerLost s h4 h8 _ (by omega), readReg_resetWindow]
  exact if_pos ⟨by omega, by omega⟩

/-! The transitions (R20, R489 to R492). -/

theorem pllLocked_phase (hn : n < 16) (h : phaseOf s n = .inReset ∨ phaseOf s n = .poweringOn) : phaseOf (pllLocked s n) n = .initialising := by
  have reload {t : State} (ht : phaseOf t n = .initialising) : phaseOf (reloadSettings t n) n = .initialising := by
    unfold reloadSettings
    exact (phaseOf_setPhase _ _ hn).trans ht
  have h0 := phaseOf_setPhase s .initialising hn
  unfold pllLocked
  rcases h with h | h <;> rw [phaseOf] at h <;> simp only [h]
  · split
    · exact h0
    · exact reload h0
  · exact reload h0

theorem asksNothing_of_powerQuiet (h : powerQuiet s n) : asksNothing s.power n := by
  obtain ⟨hh, h1, h2, h3, h4, h5, _⟩ := h
  exact ⟨hh, h1, h2, h3, h4, h5⟩

theorem asksNothing_powerLost (h : asksNothing s.power n) : asksNothing (powerLost s n).power n := by
  refine asksNothing_congr (steady_powerLost s n).2.1 ?_
  have e : (phaseLost s n).power = s.power := (pwrShow_power _).trans ((setCtl_power ..).trans ((setCtl_power ..).trans
    (quiet_resetWindow (quiet_ifacesReset (.refl s))).2.1))
  rwa [e]

theorem asksNothing_regionJoins (h : asksNothing s.power n) : asksNothing (regionJoins s n).power n := by
  have e : (phaseJoined s n).power = s.power := (pwrShow_power _).trans ((setCtl_power ..).trans (setCtl_power ..))
  rwa [(quiet_regionJoins s n).2.1, e]

theorem deferred_regionJoins (hn : n < 16) (h : (ctlOf s n).deferred = []) : (ctlOf (regionJoins s n) n).deferred = [] := by
  rw [ctlOf_congr (quiet_regionJoins s n).1, ctlOf_phaseJoined s hn]
  exact h

theorem regionPowered_poweringOff (hq : powerQuiet s n) (h : phaseOf s n = .poweringOff) :
    regionPowered s n = powerEvent (powerLost s n) 2 0x180 n := by
  have ha : asksNothing (powerEvent (powerLost s n) 2 0x180 n).power n := asksNothing_powerLost (asksNothing_of_powerQuiet hq)
  rw [phaseOf] at h
  simp only [regionPowered, h]
  rw [powerSettled_of_asksNothing ha, sleepSettles_of_asksNothing ha, bootSettled_of_asksNothing ha]

theorem deferredReports_raise_regionJoins {a b c d e g : Nat} (hn : n < 16) (h : (ctlOf s n).deferred = []) :
    deferredReports (raise (regionJoins s n) a b c d e g) n = setCtl (raise (regionJoins s n) a b c d e g) n fun c => { c with deferred := [] } :=
  deferredReports_of_nil (Eq.trans (congrArg RegionCtl.deferred (ctlOf_congr (raise_ctl ..) n)) (deferred_regionJoins hn h))

theorem regionPowered_initialising (hn : n < 16) (hq : powerQuiet s n) (h : phaseOf s n = .initialising) (hr : (ctlOf s n).rejoining = false) :
    regionPowered s n = setCtl (powerEvent (regionJoins s n) 2 0x180 (n + 32)) n fun c => { c with deferred := [] } := by
  have ha : asksNothing (powerEvent (regionJoins s n) 2 0x180 (n + 32)).power n := asksNothing_regionJoins (asksNothing_of_powerQuiet hq)
  have ha' : asksNothing (setCtl (powerEvent (regionJoins s n) 2 0x180 (n + 32)) n fun c => { c with deferred := [] }).power n := by
    rwa [setCtl_power]
  obtain ⟨_, _, _, _, _, _, hd⟩ := hq
  rw [phaseOf] at h
  simp only [regionPowered, h, hr]
  rw [if_neg nofun, powerSettled_of_asksNothing ha, powerEvent, deferredReports_raise_regionJoins hn hd]
  exact (congrArg bootSettled (sleepSettles_of_asksNothing ha')).trans (bootSettled_of_asksNothing ha')

theorem execRegionRejoined_eq {m : Fin 16} (hq : powerQuiet s m.val) (h : phaseOf s m.val = .initialising) (hr : (ctlOf s m.val).rejoining = true) :
    execRegionRejoined m s = .next (setCtl (raise (regionJoins s m.val) 2 m.val 0x3F4 0xFF 0xFF 0) m.val fun c => { c with deferred := [] }) := by
  have ha : asksNothing (raise (regionJoins s m.val) 2 m.val 0x3F4 0xFF 0xFF 0).power m.val := asksNothing_regionJoins (asksNothing_of_powerQuiet hq)
  obtain ⟨_, _, _, _, _, _, hd⟩ := hq
  rw [phaseOf] at h
  rw [execRegionRejoined, if_pos (by simp [h, hr]), powerSettled_of_asksNothing ha, deferredReports_raise_regionJoins m.isLt hd]

theorem resetFails_eq (hq : powerQuiet s n) (h : phaseOf s n = .inReset ∨ phaseOf s n = .initialising ∨ phaseOf s n = .poweringOn) :
    resetFails s n = powerLost (raise s 2 n 0x3F5 0xFF 0xFF 0) n := by
  have ha : asksNothing (powerLost (raise s 2 n 0x3F5 0xFF 0xFF 0) n).power n := asksNothing_powerLost (s := raise s 2 n 0x3F5 0xFF 0xFF 0) (asksNothing_of_powerQuiet hq)
  have e : resetFails s n = bootSettled (sleepSettles (powerSettled (powerLost (raise s 2 n 0x3F5 0xFF 0xFF 0) n) n)) := by
    unfold resetFails
    rcases h with h | h | h <;> rw [phaseOf] at h <;> simp only [h]
  rw [e, powerSettled_of_asksNothing ha, sleepSettles_of_asksNothing ha, bootSettled_of_asksNothing ha]

/-- The end of a drain: where the region goes. -/
theorem drainEnds_rejoin (hn : n < 16) (h : phaseOf s n = .draining) (hd : (ctlOf s n).drainFor = .rejoin) :
    phaseOf (drainEnds s n) n = .inReset ∧ (ctlOf (drainEnds s n) n).resets = (s.now :: (ctlOf s n).resets).take 4 := by
  rw [drainEnds_of_draining h, if_pos (by rw [ctlOf_endOutstanding, hd])]
  refine ⟨phaseOf_setPhase _ _ hn, ?_⟩
  rw [ctlOf_setPhase _ _ hn, ctlOf_congr (steady_regionReset (.refl _)).1, ctlOf_countReset _ hn, ctlOf_endOutstanding, now_endOutstanding]

theorem drainEnds_off (hn : n < 16) (h : phaseOf s n = .draining) (hd : (ctlOf s n).drainFor ≠ .rejoin) : phaseOf (drainEnds s n) n = .poweringOff := by
  rw [drainEnds_of_draining h, if_neg (by rwa [ctlOf_endOutstanding])]
  exact phaseOf_setPhase _ _ hn

/-- The end of a drain: what becomes of the requests outstanding to the region. -/
theorem drainEnds_outstanding (h : phaseOf s n = .draining) : (drainEnds s n).acks = acksEnded s n ∧
    (∀ k x, readsWindow (hostOf s k) x n → (hostOf (drainEnds s n) k).read = some { x with result := some ([], 5) }) ∧
    ∀ f, n ≠ flintRegion f → flintOf (drainEnds s n) f = readEnded n (flintOf s f) := by
  obtain ⟨ha, hh, hf⟩ := asks_drainEnds h
  refine ⟨ha.trans (acks_endOutstanding s n), fun k x hx => ?_, fun f hn => ?_⟩
  · have e : hostOf (drainEnds s n) k = hostOf (endOutstanding s n) k := congrArg (fun v => v[hostIdx k]) hh
    rw [e]
    exact hostOf_endOutstanding hx
  · exact (hf f hn.symm).trans (flintOf_endOutstanding s n f)

/-! A region-level fault's outcomes by the region's phase (R13, R21, R485). -/

theorem regionFault_on (hn : n < 16) (h : phaseOf s n = .on) (h0 : n ≠ 0) (hb : n ∉ bauxites) (ho : n ≠ 14) :
    phaseOf (regionFault s n) n = .draining ∧ (∃ e ∈ (regionFault s n).evNet, e.code = evCode 2 n 0x3F3) ∧
    (fourthReset s n = false → (ctlOf (regionFault s n) n).drainFor = .rejoin) ∧
    (fourthReset s n = true → (ctlOf (regionFault s n) n).drainFor = .outOfService ∧ (ctlOf (regionFault s n) n).outOfService = true ∧
      tells (regionFault s n) (evCode 3 0 0x186) n) := by
  rw [regionFault_of_on h h0 hb ho, startRejoin_of_on h]
  cases hf : fourthReset s n
  · refine ⟨?_, drained_startDrain h _, fun _ => ?_, nofun⟩
    · exact congrArg RegionCtl.phase (ctlOf_startDrain hn h _)
    · exact congrArg RegionCtl.drainFor (ctlOf_startDrain hn h _)
  · obtain ⟨hp, he, hd, hs, ht⟩ := outOfService_on hn h
    exact ⟨hp, he, nofun, fun _ => ⟨hd, hs, ht⟩⟩

theorem regionFault_resets (hn : n < 16) (h : phaseOf s n = .initialising) (hf : fourthReset s n = false ∨ n = 14 ∨ n ∈ bauxites) :
    phaseOf (regionFault s n) n = .inReset ∧ (ctlOf (regionFault s n) n).resets = (s.now :: (ctlOf s n).resets).take 4 := by
  have hc : ¬ (n ≠ 14 && !(decide (8 ≤ n) && decide (n < 12)) && fourthReset s n) = true := by
    rcases hf with hf | hf | hf
    · simp [hf]
    · simp [hf]
    · have : 8 ≤ n ∧ n < 12 := by simp [bauxites] at hf; omega
      simp [this]
  rw [regionFault_of_initialising h, if_neg hc, phaseOf_setPhase _ _ hn, ctlOf_setPhase _ _ hn, ctlOf_countReset _ hn]
  exact ⟨rfl, rfl⟩

theorem regionFault_powersDown (hn : n < 16) (h : phaseOf s n = .initialising) (hf : fourthReset s n = true) (ho : n ≠ 14) (hb : n ∉ bauxites) :
    phaseOf (regionFault s n) n = .poweringOff ∧ (ctlOf (regionFault s n) n).outOfService = true ∧ tells (regionFault s n) (evCode 3 0 0x186) n := by
  have hb' : ¬ (8 ≤ n ∧ n < 12) := by simp [bauxites] at hb; omega
  rw [regionFault_of_initialising h, if_pos (by simp [hf, ho]; omega)]
  exact outOfService_initialising hn h

end

/-- Settles O41: each command leads to the region's last change of phase, behind which the units' own operations leave the phases and what is held alone. -/
theorem regionTransitions : Obligations.RegionTransitions := by
  intro s r h0 hq
  have hn := r.isLt
  refine ⟨fun h => ⟨_, rfl, pllLocked_phase hn h⟩, fun h => ?off, fun h hr => ?on, fun h hr => ?rejoined, fun h => ?failed, fun h => ?drained,
    fun h hb ho => ⟨_, rfl, regionFault_on hn h h0 hb ho⟩, fun h hf => ⟨_, rfl, regionFault_resets hn h hf⟩,
    fun h hf ho hb => ⟨_, rfl, regionFault_powersDown hn h hf ho hb⟩, fun h => ?gone⟩
  case off =>
    refine ⟨_, congrArg Host.Outcome.next (regionPowered_poweringOff hq h), ?_, tells_raise .., fun h4 h8 o ho => galenaRegs_powerLost s h4 h8 o ho⟩
    exact congrArg RegionCtl.phase (ctlOf_powerLost s hn)
  case on =>
    have hp : phaseOf (setCtl (powerEvent (regionJoins s r.val) 2 0x180 (r.val + 32)) r.val fun c => { c with deferred := [] }) r.val = .on := by
      rw [phaseOf, ctlOf_setCtl _ _ hn, powerEvent, ctlOf_congr (raise_ctl ..), ctlOf_congr (quiet_regionJoins s r.val).1, ctlOf_phaseJoined s hn]
    refine ⟨_, congrArg Host.Outcome.next (regionPowered_initialising hn hq h hr), hp, ?_, Retains.tells (retains_setCtl ⟨List.prefix_rfl, List.prefix_rfl⟩) (tells_raise ..)⟩
    rw [phaseOf] at hp
    simp [serves, hp]
  case rejoined =>
    have hc : ctlOf (setCtl (raise (regionJoins s r.val) 2 r.val 0x3F4 0xFF 0xFF 0) r.val fun c => { c with deferred := [] }) r.val =
        { ctlOf s r.val with phase := .on, rejoining := false, deferred := [] } := by
      rw [ctlOf_setCtl _ _ hn, ctlOf_congr (raise_ctl ..), ctlOf_congr (quiet_regionJoins s r.val).1, ctlOf_phaseJoined s hn]
    exact ⟨_, execRegionRejoined_eq hq h hr, congrArg RegionCtl.phase hc, congrArg RegionCtl.rejoining hc,
      Retains.tells (retains_setCtl ⟨List.prefix_rfl, List.prefix_rfl⟩) (tells_raise ..)⟩
  case failed =>
    refine ⟨_, congrArg Host.Outcome.next (resetFails_eq hq h), congrArg RegionCtl.phase (ctlOf_powerLost _ hn), ?_⟩
    exact Retains.tells (retains_powerLost ⟨List.prefix_rfl, List.prefix_rfl⟩) (tells_raise ..)
  case drained =>
    obtain ⟨ha, hh, hf⟩ := drainEnds_outstanding h
    refine ⟨_, rfl, drainEnds_rejoin hn h, drainEnds_off hn h, fun _ => ha, fun k x h1 h2 h3 h4 h5 h6 => hh k x ⟨h1, h2, h3, h4, h5, h6⟩,
      fun f d v st off hne hw => ?_⟩
    rw [hf f hne]
    simp [readEnded, hw]
  case gone =>
    rw [phaseOf] at h
    refine ⟨congrArg Host.Outcome.next ?_, congrArg Host.Outcome.next ?_, congrArg Host.Outcome.next ?_⟩
    · simp [regionFault, h]
    · simp [drainEnds, h]
    · simp [pllLocked, h]

end Sys2Proof.Machine
end

section
/-! PROOFS. Chip resets: what one clears and keeps, and the statement on POR and SYS_RESET_N. -/

namespace Sys2Proof.Machine

open Says

section
variable {r s t : State}

/-! States that differ in their registers only. -/

/-- A state is `r` but for its registers. -/
def OnlyRegs (r s : State) : Prop := ∃ g, s = { r with regs := g }

theorem OnlyRegs.refl (s : State) : OnlyRegs s s := ⟨s.regs, rfl⟩

theorem onlyRegs_setReg {k : Nat} {v : Word} (h : OnlyRegs r s) : OnlyRegs r (setReg s k v) := by
  obtain ⟨g, rfl⟩ := h
  exact ⟨_, rfl⟩

theorem onlyRegs_pwrShow (h : OnlyRegs r s) : OnlyRegs r (pwrShow s) := onlyRegs_setReg (onlyRegs_setReg h)

/-- Listed registers set in a state. -/
def setRegs (s : State) (l : List (Nat × Word)) : State := l.foldl (fun t e => setReg t e.1 e.2) s

theorem onlyRegs_setRegs (l : List (Nat × Word)) (h : OnlyRegs r s) : OnlyRegs r (setRegs s l) := by
  induction l generalizing s with
  | nil => exact h
  | cons e l ih => exact ih (onlyRegs_setReg h)

theorem readReg_setRegs_of_notMem {l : List (Nat × Word)} {k : Nat} (h : k ∉ l.map Prod.fst) : readReg (setRegs s l) k = readReg s k := by
  induction l generalizing s with
  | nil => rfl
  | cons e l ih =>
    rw [List.map_cons, List.mem_cons, not_or] at h
    exact (ih h.2).trans (readReg_setReg_ne s e.2 h.1)

/-- Where each register is listed once, it is set to its entry. -/
theorem readReg_setRegs {l : List (Nat × Word)} (h : (l.map Prod.fst).Nodup) (k : Nat) : readReg (setRegs s l) k = (smGet? l k).getD (readReg s k) := by
  induction l generalizing s with
  | nil => rfl
  | cons e l ih =>
    obtain ⟨a, v⟩ := e
    obtain ⟨ha, hl⟩ := List.nodup_cons.1 h
    by_cases hk : a = k
    · subst hk
      exact (readReg_setRegs_of_notMem ha).trans (by simp [smGet?])
    · refine (ih (s := setReg s a v) hl).trans ?_
      simp [smGet?, hk, readReg_setReg_ne s v (Ne.symm hk)]

/-! A chip reset (R399, R435, R494). -/

/-- Whether a chip reset keeps the register. -/
def resetKeeps (cause k : Nat) : Bool := k == sltThermShutdowns || (cause != 1 && (k == sltWakeCtrl || k == sltWakeTimer))

/-- The units that stay out of service. -/
def stayOut (s : State) : List UnitId := if s.slate.log.clear then [] else s.retired ++ s.quarantined.map fun q => ⟨q.1, q.2, 0xFF⟩

/-- The state after a chip reset but for its registers, which are reset. -/
def resetBase (s : State) (cause : Nat) : State :=
  { pending := s.pending, now := s.now, freeCtr := s.freeCtr, part := s.part
    therm := if cause = 1 then { sg := s.therm.sg } else s.therm.kept
    retired := (stayOut s).filter fun u => u.cell != 0xFF
    quarantined := ((stayOut s).filter fun u => u.cell == 0xFF && !(bauxites.contains u.region)).map fun u => (u.region, u.block)
    power := { pfailLow := s.power.pfailLow, xtalFault := cause != 1 && s.power.xtalFault, wakeHeld := s.power.wakeHeld, resetPin := s.power.resetPin }
    obs := { pewter := s.obs.pewter, pewterEra := s.obs.pewterEra }
    slate := { log := { s.slate.log with retired := stayOut s, clear := false }, otp := s.slate.otp, flash := s.slate.flash,
               flashSize := s.slate.flashSize, flashSfdp := s.slate.flashSfdp } }

theorem chipReset_eq (s : State) (cause : Nat) : chipReset s cause =
    pwrShow (resetCause (setRegs (resetBase s cause) (s.regs.filter fun e => resetKeeps cause e.1)) cause) := rfl

theorem onlyRegs_chipReset (s : State) (cause : Nat) : OnlyRegs (resetBase s cause) (chipReset s cause) :=
  onlyRegs_pwrShow (onlyRegs_setReg (onlyRegs_setRegs _ (.refl _)))

theorem readReg_chipReset (s : State) {cause k : Nat} (h1 : k ≠ sltPwrState) (h2 : k ≠ sltPwrStatus) (h3 : k ≠ sltWakeStatus) :
    readReg (chipReset s cause) k = readReg (setRegs (resetBase s cause) (s.regs.filter fun e => resetKeeps cause e.1)) k := by
  rw [chipReset_eq]
  unfold pwrShow
  exact (readReg_setReg_ne _ _ h2).trans ((readReg_setReg_ne _ _ h1).trans (readReg_setF_ne _ _ _ _ h3))

theorem readReg_chipReset_reset (s : State) {cause k : Nat} (h1 : k ≠ sltPwrState) (h2 : k ≠ sltPwrStatus) (h3 : k ≠ sltWakeStatus)
    (hk : resetKeeps cause k = false) : readReg (chipReset s cause) k = regReset k := by
  rw [readReg_chipReset s h1 h2 h3, readReg_setRegs_of_notMem]
  · rfl
  · intro hm
    obtain ⟨e, he, rfl⟩ := List.mem_map.1 hm
    rw [(List.mem_filter.1 he).2] at hk
    exact nomatch hk

theorem readReg_chipReset_kept (s : State) {cause k : Nat} (h1 : k ≠ sltPwrState) (h2 : k ≠ sltPwrStatus) (h3 : k ≠ sltWakeStatus)
    (hk : resetKeeps cause k = true) (hn : (s.regs.map Prod.fst).Nodup) : readReg (chipReset s cause) k = readReg s k := by
  rw [readReg_chipReset s h1 h2 h3, readReg_setRegs (hn.sublist (List.filter_sublist.map _)), smGet?_filter_key s.regs (resetKeeps cause), if_pos hk]
  rfl

theorem resetCause_chipReset (s : State) {cause : Nat} (h : cause < 16) : getF (chipReset s cause) sltWakeStatus 24 4 = cause := by
  have e : readReg (chipReset s cause) sltWakeStatus = readReg (resetCause (setRegs (resetBase s cause) (s.regs.filter fun e => resetKeeps cause e.1)) cause) sltWakeStatus := by
    rw [chipReset_eq]
    unfold pwrShow
    exact (readReg_setReg_ne _ _ (by decide)).trans (readReg_setReg_ne _ _ (by decide))
  rw [getF, e]
  exact (getF_setF _ _ _ (by decide)).trans (Nat.mod_eq_of_lt h)

theorem filter_smSet {α : Type} (m : List (Nat × α)) {p : Nat → Bool} {k : Nat} (v : α) (hk : p k = false) :
    (smSet m k v).filter (fun e => p e.1) = m.filter fun e => p e.1 := by
  induction m with
  | nil => simp [smSet, hk]
  | cons e m ih =>
    obtain ⟨a, w⟩ := e
    unfold smSet
    split
    · simp [hk]
    split
    next ha => subst ha; simp [hk]
    · rw [List.filter_cons, ih, List.filter_cons]

theorem filter_smErase {α : Type} (m : List (Nat × α)) {p : Nat → Bool} {k : Nat} (hk : p k = false) :
    (smErase m k).filter (fun e => p e.1) = m.filter fun e => p e.1 := by
  rw [smErase, List.filter_filter]
  refine List.filter_congr fun e _ => ?_
  by_cases h : e.1 = k
  · simp [h, hk]
  · simp [h]

/-- A register that a chip reset does not keep does not matter to it. -/
theorem chipReset_setReg (s : State) {cause k : Nat} (v : Word) (hk : resetKeeps cause k = false) : chipReset (setReg s k v) cause = chipReset s cause := by
  have e : (setReg s k v).regs.filter (fun e => resetKeeps cause e.1) = s.regs.filter fun e => resetKeeps cause e.1 := by
    show (smWrite regReset s.regs k v).filter (fun e => resetKeeps cause e.1) = _
    unfold smWrite
    split
    · exact filter_smErase _ hk
    · exact filter_smSet _ v hk
  have b : resetBase (setReg s k v) cause = resetBase s cause := rfl
  rw [chipReset_eq, chipReset_eq, e, b]

theorem chipReset_pwrShow (s : State) (cause : Nat) : chipReset (pwrShow s) cause = chipReset s cause := by
  have hk (k : Nat) (h1 : k = sltPwrState ∨ k = sltPwrStatus) : resetKeeps cause k = false := by
    rcases h1 with rfl | rfl <;> simp [resetKeeps, sltPwrState, sltPwrStatus, sltThermShutdowns, sltWakeCtrl, sltWakeTimer]
  unfold pwrShow
  exact (chipReset_setReg _ _ (hk _ (.inr rfl))).trans (chipReset_setReg _ _ (hk _ (.inl rfl)))

/-! SYS_RESET_N (R495). -/

theorem pwrShow_obs (s : State) : (pwrShow s).obs = s.obs := by
  unfold pwrShow
  exact (setReg_obs ..).trans (setReg_obs ..)

theorem pwrShow_slate (s : State) : (pwrShow s).slate = s.slate := by
  unfold pwrShow
  exact (setReg_slate ..).trans (setReg_slate ..)

theorem pwrShow_mem (s : State) : (pwrShow s).mem = s.mem := by
  unfold pwrShow
  exact (setReg_mem ..).trans (setReg_mem ..)

theorem sysResetApply_of_pin (h : s.power.resetPin = true) : sysResetApply s = chipReset s 2 := by
  obtain ⟨g, e⟩ := onlyRegs_chipReset s 2
  have hp : (chipReset s 2).power.resetPin = true := by rw [e]; exact h
  exact if_pos hp

/-- The state in which SYS_RESET_N is low. -/
def pinFell (s : State) : State := { s with power := { s.power with resetPin := true } }

theorem sysResetFalls_eq (hm : s.power.mode ≠ .off) (hc : s.obs.safeCause = none) : sysResetFalls s =
    if s.obs.state == .off || s.obs.state == .safe then sysResetApply (pwrShow (pinFell s)) else lossBegins (bootStops (pwrShow (pinFell s))) 0 2 := by
  have hm' : (pwrShow (pinFell s)).power.mode ≠ .off := by rwa [pwrShow_power]
  have hc' : ¬ (pwrShow (pinFell s)).obs.safeCause.isSome = true := by rw [pwrShow_obs]; simp [pinFell, hc]
  have ho : (pwrShow (pinFell s)).obs = s.obs := pwrShow_obs _
  rw [sysResetFalls, setPwr]
  refine (if_neg hm').trans ((if_neg hc').trans ?_)
  rw [← pinFell, ho]

theorem quiet_bootShow (h : Quiet r s) : Quiet r (bootShow s) := by
  have bytes {t : State} {k : Nat → Nat} {bs : List Byte} (ht : Quiet r t) : Quiet r (showBytes t k bs) := .foldl (fun _ _ hu => quiet_setReg hu) _ ht
  unfold bootShow
  dsimp only
  split
  · exact quiet_setReg (bytes h)
  · exact quiet_setReg (bytes h)

theorem quiet_bootStops (h : Quiet r s) : Quiet r (bootStops s) := .ite (quiet_bootShow (quiet_setSlate h)) h

/-! The panel's abrupt loss (R306). -/

theorem timingStop_stops (s : State) : (timingStop s).scan.running = false ∧ panelCore (timingStop s).obs = panelCore s.obs := by
  have stop (t : State) : (takeReady (drvWaiting (showRunning (shadowStop { t with scan := { t.scan with running := false, held := false } })))).scan.running = false ∧
      panelCore (takeReady (drvWaiting (showRunning (shadowStop { t with scan := { t.scan with running := false, held := false } })))).obs = panelCore t.obs := by
    have h : Quiet { t with scan := { t.scan with running := false, held := false } } (takeReady (drvWaiting (showRunning (shadowStop
        { t with scan := { t.scan with running := false, held := false } })))) := quiet_takeReady (quiet_drvWaiting (quiet_showRunning (quiet_shadowStop (.refl _))))
    obtain ⟨_, _, hs, ho, _⟩ := h
    exact ⟨congrArg Scan.running hs, ho⟩
  unfold timingStop
  dsimp only
  split
  · exact stop (setCal s _)
  · exact stop s

/-- The steps of R306 begin with the timing stopped. -/
def lossSteps (s : State) (c : SafeCause) : State :=
  portShow (setF (setObs s fun o => { o with
    safeCause := some c, step := .discharge, heldReq := none, scriptQ := [], script := some ⟨4, 0, .sequence, true, 0⟩ }) obsPmicCtrl 31 1 1)

theorem lossSteps_parts (s : State) (c : SafeCause) : (lossSteps s c).scan = s.scan ∧ ∃ p, (lossSteps s c).obs = { s.obs with
    safeCause := some c, step := .discharge, heldReq := none, scriptQ := [], script := some ⟨4, 0, .sequence, true, 0⟩, port := p } :=
  ⟨rfl, _, rfl⟩

theorem abruptLoss_of_driven {c : SafeCause} (h : lossAtOnce s c.reason = false) : abruptLoss s c =
    let t := lossSteps (timingStop (blpLow s)) c
    gtSet (drvSend t (if serves t 14 then [drvSafe] else [])) (fld t.obs.gtSafe 0 12) :=
  if_neg (by simp [h])

/-- What the drivers have been sent is no part of the panel's core. -/
theorem eq_of_panelCore {o p : Obsidian} (h : panelCore o = panelCore p) : o.blp = p.blp ∧ o.state = p.state ∧ o.safeCause = p.safeCause := by
  have part {α : Type} (f : Obsidian → α) := congrArg f h
  exact ⟨part Obsidian.blp, part Obsidian.state, part Obsidian.safeCause⟩

theorem discharging_gtSet {u : State} {c : SafeCause} {w : Word} {o : Obsidian} {p : Option PmicXfer} (hrun : u.scan.running = false)
    (hb : o.blp = none) (hw : w = o.gtSafe)
    (ho : panelCore u.obs = panelCore { o with
      safeCause := some c, step := .discharge, heldReq := none, scriptQ := [], script := some ⟨4, 0, .sequence, true, 0⟩, port := p }) :
    discharging (gtSet u (fld w 0 12)) c.reason c.next := by
  have part {α : Type} (f : Obsidian → α) := congrArg f ho
  refine ⟨part Obsidian.safeCause, part Obsidian.step, part Obsidian.script, part Obsidian.scriptQ, part Obsidian.heldReq,
    (part Obsidian.blp).trans hb, hrun, ?_⟩
  rw [hw]
  exact congrArg (fld · 0 12) (part Obsidian.gtSafe).symm

theorem discharging_abruptLoss {c : SafeCause} (h : lossAtOnce s c.reason = false) : discharging (abruptLoss s c) c.reason c.next := by
  obtain ⟨hrun, hobs⟩ := timingStop_stops (blpLow s)
  have hb : (timingStop (blpLow s)).obs.blp = none := (eq_of_panelCore hobs).1
  rw [abruptLoss_of_driven h]
  generalize timingStop (blpLow s) = v at hrun hb
  obtain ⟨hs, p, ho⟩ := lossSteps_parts v c
  dsimp only
  generalize lossSteps v c = t at hs ho
  have hq : Quiet t (drvSend t (if serves t 14 then [drvSafe] else [])) := quiet_drvSend (.refl _)
  generalize drvSend t (if serves t 14 then [drvSafe] else []) = u at hq
  obtain ⟨_, _, hs', ho', _⟩ := hq
  rw [ho] at ho'
  exact discharging_gtSet (by rw [hs', hs, hrun]) hb (by rw [ho]) ho'

theorem lossBegins_of_driven {reason next : Nat} (hc : s.obs.safeCause = none) (h : lossAtOnce s reason = false) :
    lossBegins s reason next = abruptLoss s ⟨reason, next⟩ := by
  simp [lossBegins, hc, h]

theorem sysReset_driven (hm : s.power.mode ≠ .off) (h : panelDriven s) : (sysResetFalls s).power.resetPin = true ∧ discharging (sysResetFalls s) 0 2 := by
  obtain ⟨h1, h2, hc⟩ := h
  obtain ⟨_, hp, _, ho, _⟩ := quiet_bootStops (Quiet.refl (pwrShow (pinFell s)))
  rw [pwrShow_obs] at ho
  rw [pwrShow_power] at hp
  have e : sysResetFalls s = lossBegins (bootStops (pwrShow (pinFell s))) 0 2 := (sysResetFalls_eq hm hc).trans (if_neg (by simp [h1, h2]))
  rw [e]
  generalize bootStops (pwrShow (pinFell s)) = u at hp ho
  obtain ⟨_, hs', hc'⟩ := eq_of_panelCore ho
  replace hc' : u.obs.safeCause = none := hc'.trans hc
  replace hs' : u.obs.state = s.obs.state := hs'
  have hl : lossAtOnce u 0 = false := by simp [lossAtOnce, hs', h2]
  rw [lossBegins_of_driven hc' hl]
  refine ⟨?_, discharging_abruptLoss hl⟩
  obtain ⟨_, ha, _⟩ := steady_abruptLoss (c := ⟨0, 2⟩) (Steady.refl u)
  have hr : (powerAsks (abruptLoss u ⟨0, 2⟩).power).resetPin = (powerAsks u.power).resetPin := by rw [ha]
  refine hr.trans ?_
  rw [hp]
  rfl

theorem sysReset_idle (hm : s.power.mode ≠ .off) (h : panelIdle s) : sysResetFalls s = chipReset (pinFell s) 2 := by
  obtain ⟨hs, hc⟩ := h
  have hp : (pwrShow (pinFell s)).power.resetPin = true := by rw [pwrShow_power]; rfl
  rw [sysResetFalls_eq hm hc, if_pos (by simpa using hs), sysResetApply_of_pin hp, chipReset_pwrShow]

theorem sysReset_rises (h1 : s.power.resetPin = true) (h2 : s.power.mode = .boot) (h3 : s.slate.boot = .idle) (h4 : s.obs.safeCause = none) :
    sysResetRises s = wake (pwrShow { s with power := { s.power with resetPin := false } }) 2 := by
  refine if_pos ?_
  rw [setPwr, pwrShow_power, pwrShow_obs, pwrShow_slate]
  simp [h1, h2, h3, h4]

/-! What is empty after a chip reset. -/

theorem holder_chipReset (s : State) (cause : Nat) : holder (chipReset s cause) = none := by
  have h : readReg (chipReset s cause) sltLeaseStatus = regReset sltLeaseStatus :=
    readReg_chipReset_reset s (by decide) (by decide) (by decide) (by simp [resetKeeps, sltLeaseStatus, sltThermShutdowns, sltWakeCtrl, sltWakeTimer])
  rw [holder, getF, h]
  rfl

theorem stayOut_of_clear (h : s.slate.log.clear = true) : stayOut s = [] := if_pos h

theorem mem_stayOut (h : s.slate.log.clear = false) {u : UnitId} : u ∈ stayOut s ↔ u ∈ s.retired ∨ ∃ q ∈ s.quarantined, ⟨q.1, q.2, 0xFF⟩ = u := by
  simp [stayOut, h]

/-- What the base state holds, and any that differs from it in registers only. -/
theorem resetBase_clears {cause : Nat} (e : OnlyRegs (resetBase s cause) t) : (∀ n, semOf t n = {}) ∧ t.slate.tie = false ∧ t.slate.coll = {} ∧
    (∀ h, hostOf t h = {}) ∧ t.evNet = [] ∧ t.net = [] ∧ t.acks = [] ∧ t.time = {} ∧ (∀ a, readByte t a = 0) ∧ t.poison = [] := by
  obtain ⟨g, rfl⟩ := e
  exact ⟨semOf_reset, rfl, rfl, fun h => by cases h <;> rfl, rfl, rfl, rfl, rfl, fun _ => rfl, rfl⟩

theorem resetBase_keeps {cause : Nat} (e : OnlyRegs (resetBase s cause) t) : t.slate.otp = s.slate.otp ∧ t.slate.flash = s.slate.flash ∧
    t.slate.log.entries = s.slate.log.entries ∧ t.obs.pewter = s.obs.pewter ∧ t.slate.flashSfdp = s.slate.flashSfdp ∧ t.part = s.part ∧
    t.pending = s.pending := by
  obtain ⟨g, rfl⟩ := e
  exact ⟨rfl, rfl, rfl, rfl, rfl, rfl, rfl⟩

theorem resetBase_of_clear {cause : Nat} (e : OnlyRegs (resetBase s cause) t) (h : s.slate.log.clear = true) : t.retired = [] ∧ t.quarantined = [] := by
  obtain ⟨g, rfl⟩ := e
  simp [resetBase, stayOut_of_clear h]

theorem resetBase_outOfService {cause : Nat} (e : OnlyRegs (resetBase s cause) t) (hc : s.slate.log.clear = false) :
    (∀ r b, (r, b) ∈ s.quarantined → ⟨r, b, 0xFF⟩ ∈ t.slate.log.retired ∧ (r < 8 ∨ 12 ≤ r → (r, b) ∈ t.quarantined)) ∧
    ∀ u ∈ s.retired, u.cell ≠ 0xFF → u ∈ t.retired := by
  obtain ⟨g, rfl⟩ := e
  refine ⟨fun r b hq => ⟨(mem_stayOut hc).2 (.inr ⟨_, hq, rfl⟩), fun hr => ?_⟩, fun u hu hcell => ?_⟩
  · refine List.mem_map.2 ⟨⟨r, b, 0xFF⟩, List.mem_filter.2 ⟨(mem_stayOut hc).2 (.inr ⟨_, hq, rfl⟩), ?_⟩, rfl⟩
    simp [bauxites]
    omega
  · exact List.mem_filter.2 ⟨(mem_stayOut hc).2 (.inl hu), by simpa using hcell⟩

theorem keptRegs_chipReset (s : State) (cause : Nat) (hn : (s.regs.map Prod.fst).Nodup) :
    readReg (chipReset s cause) sltThermShutdowns = readReg s sltThermShutdowns ∧
    readReg (chipReset s cause) sltWakeCtrl = (if cause = 1 then regReset sltWakeCtrl else readReg s sltWakeCtrl) ∧
    readReg (chipReset s cause) sltWakeTimer = (if cause = 1 then regReset sltWakeTimer else readReg s sltWakeTimer) := by
  refine ⟨?_, ?_, ?_⟩
  · exact readReg_chipReset_kept s (by decide) (by decide) (by decide) (by simp [resetKeeps]) hn
  · split
    next h => exact readReg_chipReset_reset s (by decide) (by decide) (by decide) (by simp [resetKeeps, h, sltThermShutdowns, sltWakeCtrl])
    next h => exact readReg_chipReset_kept s (by decide) (by decide) (by decide) (by simp [resetKeeps, h]) hn
  · split
    next h => exact readReg_chipReset_reset s (by decide) (by decide) (by decide) (by simp [resetKeeps, h, sltThermShutdowns, sltWakeTimer])
    next h => exact readReg_chipReset_kept s (by decide) (by decide) (by decide) (by simp [resetKeeps, h]) hn

theorem porAsserts_parts (s : State) : (porAsserts s).power = { (porReset s).power with mode := .off, refclkEn := false } ∧
    (porAsserts s).slate = (porReset s).slate ∧ (porAsserts s).obs = (porReset s).obs ∧ (porAsserts s).mem = (porReset s).mem := by
  unfold porAsserts setPwr
  exact ⟨pwrShow_power _, pwrShow_slate _, pwrShow_obs _, pwrShow_mem _⟩

end

/-- Settles O36: a chip reset is its base state with three registers kept, and the pins' commands lead to one or to the steps of R306. -/
theorem chipResets : Obligations.ChipResets := by
  intro s
  refine ⟨fun cause hc1 hc8 => ?reset, ⟨rfl, _, rfl, porAsserts_parts s⟩, fun hm h => congrArg Host.Outcome.next (sysReset_idle hm h),
    fun hm h => ⟨_, rfl, sysReset_driven hm h⟩, fun h1 h2 h3 h4 => congrArg Host.Outcome.next (sysReset_rises h1 h2 h3 h4)⟩
  have e := onlyRegs_chipReset s cause
  obtain ⟨hsem, htie, hcoll, hhost, hev, hnet, hack, htime, hmem, hpoison⟩ := resetBase_clears e
  obtain ⟨hotp, hflash, hlog, hpewter, hsfdp, hpart, hpending⟩ := resetBase_keeps e
  refine ⟨fun k hk => ?_, keptRegs_chipReset s cause, resetCause_chipReset s (by omega), hsem, htie, holder_chipReset s cause, hcoll, hhost, hev, hnet, hack,
    htime, hmem, hpoison, hotp, hflash, hlog, hpewter, resetBase_of_clear e, resetBase_outOfService e, hsfdp, hpart, hpending⟩
  simp only [List.mem_cons, List.not_mem_nil, or_false, not_or] at hk
  obtain ⟨h1, h2, h3, h4, h5, h6⟩ := hk
  exact readReg_chipReset_reset s h1 h2 h3 (by simp [resetKeeps, h4, h5, h6])

end Sys2Proof.Machine
end

section
/-! PROOFS. The end of a DMA: its words, its status, and the statement on it. -/

namespace Sys2Proof.Machine

open Says

section
variable {s t u : State} {f : FlintId} {ch : Fin 4} {bad : Option (BitVec 32)} {d : DmaDesc}

/-- A DMA instruction that waits for the channel starts. -/
def waitGoesOn (f : FlintId) (ch : Fin 4) (u : State) (w : Option FpWait) : State := match w with
  | some (.dma n a) => if n = ch.val then dmaStart u f ch a else u
  | _ => u

/-- The channel is free again, the status and the flag stand, and a DMA that waits for the channel starts. -/
def dmaFrees (f : FlintId) (ch : Fin 4) (st : Nat) (t : State) : State :=
  let u := setFlag (dmaStatus (setFlint t f fun x => { x with dma := x.dma.set ch none }) ch.val st) (8 + ch.val)
  waitGoesOn f ch u (flintOf u f).wait

/-! What a DMA_END does, by its channel (R160). -/

theorem dmaEnds_of_idle (h : (flintOf s f).dma[ch] = none) : dmaEnds s f ch bad = s := by
  simp only [dmaEnds, h]

theorem dmaEnds_of_waits (h : (flintOf s f).dma[ch] = some d) (h1 : d.srcSpace = 1) (hw : flashWaits s = true) : dmaEnds s f ch bad = s := by
  simp [dmaEnds, h, h1, hw]

/-- The status at the end of the words, and the state: nothing has moved where the descriptor is refused. -/
def dmaMoved (s : State) (f : FlintId) (bad : Option (BitVec 32)) (d : DmaDesc) : Nat × State :=
  let t := if dmaCheck s d = 0 && d.srcSpace = 1 then flashReads s d.src.toNat d.len else s
  if dmaCheck s d ≠ 0 then (dmaCheck s d, t) else dmaMove f d bad (d.len / 8) 0 t

theorem dmaEnds_of_busy (h : (flintOf s f).dma[ch] = some d) (hw : d.srcSpace = 1 → flashWaits s = false) :
    dmaEnds s f ch bad = dmaFrees f ch (dmaMoved s f bad d).1 (dmaMoved s f bad d).2 := by
  have hw' : ¬ (d.srcSpace = 1 && flashWaits s) = true := by simpa using hw
  unfold dmaEnds
  rw [h]
  dsimp only
  rw [if_neg hw', ← dmaMoved]
  obtain ⟨st, t⟩ := dmaMoved s f bad d
  unfold dmaFrees
  dsimp only
  generalize setFlag _ _ = u
  rcases (flintOf u f).wait with _ | w
  · rfl
  · cases w <;> rfl

theorem dmaMoved_of_refused (hc : dmaCheck s d ≠ 0) : dmaMoved s f bad d = (dmaCheck s d, s) := by
  simp [dmaMoved, hc]

theorem dmaMoved_of_accepted (hc : dmaCheck s d = 0) : dmaMoved s f bad d =
    dmaMove f d bad (d.len / 8) 0 (if d.srcSpace = 1 then flashReads s d.src.toNat d.len else s) := by
  simp [dmaMoved, hc]

/-! The words (R160). -/

theorem dmaMove_of_readError {n o : Nat} (h : dmaRead t f bad d.srcSpace (d.src.toNat + o) o = none) : dmaMove f d bad (n + 1) o t =
    (4, if d.srcSpace = 0 then poisonSeen t (flintRegion f) (d.src.toNat + o) 8 else t) := by
  simp only [dmaMove, h]

theorem dmaMove_of_writeError {n o : Nat} {bs : List Byte} (h : dmaRead t f bad d.srcSpace (d.src.toNat + o) o = some bs)
    (hw : dmaWrite t d.dstSpace (d.dst.toNat + o) bs = none) : dmaMove f d bad (n + 1) o t = (4, t) := by
  simp only [dmaMove, h, hw]

theorem dmaMove_of_write {n o : Nat} {bs : List Byte} (h : dmaRead t f bad d.srcSpace (d.src.toNat + o) o = some bs)
    (hw : dmaWrite t d.dstSpace (d.dst.toNat + o) bs = some u) : dmaMove f d bad (n + 1) o t = dmaMove f d bad n (o + 8) u := by
  simp only [dmaMove, h, hw]

/-- A read of flash ends in an error at a word that holds the byte of the flash error. -/
theorem dmaRead_flash_eq_none_iff {a o : Nat} : dmaRead t f bad 1 a o = none ↔ ∃ k, bad = some k ∧ o ≤ k.toNat ∧ k.toNat < o + 8 := by
  cases bad <;> simp [dmaRead, flashFails]

end

/-- Settles O15: the channel's state and the descriptor's check decide what DMA_END does; its words move one by one. -/
theorem dmaMovesItsWords : Obligations.DmaMovesItsWords := by
  intro s f ch bad
  refine ⟨fun h => ?_, fun d h h1 hw => ?_, fun d h hw => ?_,
    fun d n o t => ⟨rfl, dmaMove_of_readError, fun bs hr => ⟨dmaMove_of_writeError hr, fun u => dmaMove_of_write hr⟩, fun h1 => ?_⟩⟩
  · exact congrArg Host.Outcome.next (dmaEnds_of_idle h)
  · exact congrArg Host.Outcome.next (dmaEnds_of_waits h h1 hw)
  · intro ended
    have frees (st : Nat) (t : State) : dmaFrees f ch st t = ended st t := by
      unfold dmaFrees ended
      dsimp only
      generalize setFlag _ _ = u
      rcases (flintOf u f).wait with _ | w
      · rfl
      · cases w <;> rfl
    clear_value ended
    rw [exec_dmaEnd, execDmaEnd, dmaEnds_of_busy h hw]
    refine ⟨fun hc => ?_, fun hc => ?_⟩
    · rw [dmaMoved_of_refused hc, frees]
    · rw [dmaMoved_of_accepted hc, frees]
  · rw [h1]
    exact dmaRead_flash_eq_none_iff

end Sys2Proof.Machine
end

section
/-! PROOFS. The frame program's register accesses: writes that go out, reads and their responses, and the statements on them. -/

namespace Sys2Proof.Machine

open Says

section
variable {s t : State} {f : FlintId}

theorem setFlint_eq_withFlint (s : State) (f : FlintId) (g : Flint → Flint) : setFlint s f g = withFlint s f (g (flintOf s f)) := rfl

theorem fpWaits_eq_waits (s : State) (f : FlintId) (w : FpWait) : fpWaits s f w = waits s f w := rfl

/-- A well-formed instruction that may act is its body. -/
theorem fpExec_of_ready {ok pneg : Bool} {pidx : BitVec 3} {body : State → State} (hok : ok = true) (h : fpReady s f pneg pidx) :
    fpExec ok f pneg pidx body s = .next (body s) := by
  obtain ⟨h1, h2, h3, h4, h5, _, h6, h7⟩ := h
  rw [fpExec, hok]
  exact (if_neg (by simp)).trans (fpStep_active h1 h2 h3 h4 h5 h6 h7)

theorem fpFollows_of_ready {pneg : Bool} {pidx : BitVec 3} (h : fpReady s f pneg pidx) : fpFollows s f = false := by
  obtain ⟨_, _, _, _, h5, h6, _⟩ := h
  exact fpFollows_eq_false h5 h6

theorem dmemOk_iff {a : DWord} {align n : Nat} : dmemOk a align n = true ↔ inDataMemory a align n := by
  simp [dmemOk, inDataMemory]

/-! The region of a DRAM address rests on four registers only (R248, R250). -/

theorem dramRegion_congr (h : ∀ k, k % 0x100000 ≠ 0x214 → readReg t k = readReg s k) (a : Nat) : dramRegion t a = dramRegion s a := by
  have hc : readReg t bxtConfig = readReg s bxtConfig := h _ (by decide)
  have hq (q : Nat) : readReg t (bxtQuadConfig q) = readReg s (bxtQuadConfig q) := h _ (by simp only [bxtQuadConfig]; omega)
  have hch : (List.range 5).map (fun i => (readReg t (bxtChHash i)).toNat) = (List.range 5).map fun i => (readReg s (bxtChHash i)).toNat :=
    List.map_congr_left fun i hi => by rw [h _ (by have := List.mem_range.1 hi; simp only [bxtChHash]; omega)]
  have hbank : (List.range 4).map (fun i => (readReg t (bxtBankHash i)).toNat) = (List.range 4).map fun i => (readReg s (bxtBankHash i)).toNat :=
    List.map_congr_left fun i hi => by rw [h _ (by have := List.mem_range.1 hi; simp only [bxtBankHash]; omega)]
  have hrows : dataRows t = dataRows s := by rw [dataRows, dataRows, getB, getB, hc]
  have hspare (q : Nat) : spareOf t q = spareOf s q := by rw [spareOf, spareOf, getB, getB, hq]
  have hslot : slot1Channels t = slot1Channels s := by simp only [slot1Channels, hspare]
  have htop : dramTop t = dramTop s := by rw [dramTop, dramTop, linesPerRank, linesPerRank, hrows, hslot]
  have hmap : mapAddr t a = mapAddr s a := by
    unfold mapAddr linesPerRank
    rw [hrows, hslot, hch, hbank]
  rw [dramRegion, dramRegion, htop, hmap]

/-! Writes go out (R148, R407, R408). -/

/-- A write is numbered and told to the standby. -/
def actionSent (t : State) (f : FlintId) (addr : Nat) (v : Word) : State :=
  mirrorSend (withFlint t f { flintOf t f with action := (flintOf t f).action + 1 }) f
    (.digest (BitVec.ofNat 64 ((flintOf t f).action + 1)) (crc32 (leBytes ((flintOf t f).action + 1) 8 ++ leBytes addr 8 ++ leBytes v.toNat 4)))

theorem mirrorSend_cases (s : State) (f : FlintId) (r : MirrorRec) :
    ∃ m, mirrorSend s f r = { s with ctrl := { s.ctrl with lease := { s.ctrl.lease with mirror := m } } } := by
  unfold mirrorSend
  split
  · exact ⟨_, rfl⟩
  · exact ⟨s.ctrl.lease.mirror, rfl⟩

theorem actionSent_frame (t : State) (f : FlintId) (addr : Nat) (v : Word) : (flintOf (actionSent t f addr v) f).action = (flintOf t f).action + 1 ∧
    (∀ r, lastAction (actionSent t f addr v) r = lastAction t r) ∧ (∀ r, serves (actionSent t f addr v) r = serves t r) ∧
    dramRegion (actionSent t f addr v) addr = dramRegion t addr ∧ writeStatus (actionSent t f addr v) addr 4 = writeStatus t addr 4 := by
  have ha : (flintOf (withFlint t f { flintOf t f with action := (flintOf t f).action + 1 }) f).action = (flintOf t f).action + 1 :=
    congrArg Flint.action (flintOf_setFlint t f fun x => { x with action := x.action + 1 })
  unfold actionSent
  obtain ⟨m, e⟩ := mirrorSend_cases (withFlint t f { flintOf t f with action := (flintOf t f).action + 1 }) f
    (.digest (BitVec.ofNat 64 ((flintOf t f).action + 1)) (crc32 (leBytes ((flintOf t f).action + 1) 8 ++ leBytes addr 8 ++ leBytes v.toNat 4)))
  rw [e]
  exact ⟨ha, fun _ => rfl, fun _ => rfl, dramRegion_congr (fun _ _ => rfl) addr, rfl⟩

theorem windowOf_eq_none {addr : Nat} (h : addr < 0xFFF0000000 ∨ 0xFFF1000000 ≤ addr) : windowOf addr = none := if_neg (by omega)

theorem windowOf_add {a : Nat} (h : a < 0x1000000) : windowOf (0xFFF0000000 + a) = some a := by
  rw [windowOf, if_pos (by omega), Nat.add_sub_cancel_left]

/-- A region discards an action that it has taken, and carries out a new one. -/
theorem regionAction_of_le {r n : Nat} {g : State → State} (h : n ≤ lastAction s r) : regionAction s r n g = bump s (duplicatesKey r) := if_pos h

theorem regionAction_of_lt {r n : Nat} {g : State → State} (h : lastAction s r < n) : regionAction s r n g = g (setLastAction s r n) :=
  if_neg (by omega)

theorem writeIssue_eq (t : State) (f : FlintId) (addr : Nat) (v : Word) : writeIssue t f addr v =
    let u := actionSent t f addr v
    let n := (flintOf t f).action + 1
    match windowOf addr with
    | none =>
      match dramRegion t addr with
      | none => addAck u (.frame f addr) 3
      | some r => addAck (regionAction u r n fun s => if addr % 4 = 0 then dramPut s addr (leBytes v.toNat 4) else s) (.frame f addr) (writeStatus t addr 4)
    | some a =>
      let r := a / 0x100000
      if r = 1 then addAck (regionAction u (flintRegion f) n fun s => ownWrite (reqMeets s .fp (flintRegion f)) f (a % 0x100000) v) (.frame f addr) 0
      else if !serves t r then addAck u (.frame f addr) 2
      else addAck (regionAction u r n fun s => if a % 4 = 0 then busWrite (reqMeets s .fp r) .fp a v else s) (.frame f addr) 0 := by
  have hu : actionIssue t f addr (leBytes v.toNat 4) = actionSent t f addr v := rfl
  obtain ⟨ha, _, hs, hd, hw⟩ := actionSent_frame t f addr v
  unfold writeIssue
  rw [hu]
  dsimp only
  rw [ha, hd, hw]
  simp only [hs] <;> rfl

theorem writeIssue_unmapped {addr : Nat} (v : Word) (h : addr < 0xFFF0000000 ∨ 0xFFF1000000 ≤ addr) (hd : dramRegion t addr = none) :
    writeIssue t f addr v = addAck (actionSent t f addr v) (.frame f addr) 3 := by
  simp only [writeIssue_eq, windowOf_eq_none h, hd]

theorem writeIssue_dram {addr r : Nat} (v : Word) (h : addr < 0xFFF0000000 ∨ 0xFFF1000000 ≤ addr) (hd : dramRegion t addr = some r) :
    writeIssue t f addr v = addAck (regionAction (actionSent t f addr v) r ((flintOf t f).action + 1) fun s =>
      if addr % 4 = 0 then dramPut s addr (leBytes v.toNat 4) else s) (.frame f addr) (writeStatus t addr 4) := by
  simp only [writeIssue_eq, windowOf_eq_none h, hd]

theorem writeIssue_own {a : Nat} (v : Word) (h : a < 0x1000000) (h1 : a / 0x100000 = 1) : writeIssue t f (0xFFF0000000 + a) v =
    addAck (regionAction (actionSent t f (0xFFF0000000 + a) v) (flintRegion f) ((flintOf t f).action + 1) fun s =>
      ownWrite (reqMeets s .fp (flintRegion f)) f (a % 0x100000) v) (.frame f (0xFFF0000000 + a)) 0 := by
  rw [writeIssue_eq, windowOf_add h]
  exact if_pos h1

theorem writeIssue_unserved {a : Nat} (v : Word) (h : a < 0x1000000) (h1 : a / 0x100000 ≠ 1) (hs : serves t (a / 0x100000) = false) :
    writeIssue t f (0xFFF0000000 + a) v = addAck (actionSent t f (0xFFF0000000 + a) v) (.frame f (0xFFF0000000 + a)) 2 := by
  rw [writeIssue_eq, windowOf_add h]
  exact (if_neg h1).trans (if_pos (by simp [hs]))

theorem writeIssue_window {a : Nat} (v : Word) (h : a < 0x1000000) (h1 : a / 0x100000 ≠ 1) (hs : serves t (a / 0x100000) = true) :
    writeIssue t f (0xFFF0000000 + a) v = addAck (regionAction (actionSent t f (0xFFF0000000 + a) v) (a / 0x100000) ((flintOf t f).action + 1) fun s =>
      if a % 4 = 0 then busWrite (reqMeets s .fp (a / 0x100000)) .fp a v else s) (.frame f (0xFFF0000000 + a)) 0 := by
  rw [writeIssue_eq, windowOf_add h]
  exact (if_neg h1).trans (if_neg (by simp [hs]))

theorem fpWriteRegs_forbidden {ws : List (Nat × Word)} (h : (ws.any fun w => writeForbidden w.1) = true) : fpWriteRegs s f ws = seqFault s f 4 := if_pos h

theorem fpWriteRegs_allowed {ws : List (Nat × Word)} (h : (ws.any fun w => writeForbidden w.1) = false) (hf : fpFollows s f = false)
    (hl : (flintOf s f).lapsed = false) : fpWriteRegs s f ws = writesIssue f ws s := by
  simp [fpWriteRegs, h, hf, hl]

end

/-- Settles O10: WRREG and WRBLK hand their writes to `writesIssue`, and each write's place decides what becomes of it. -/
theorem frameRegisterWrites : Obligations.FrameRegisterWrites := by
  intro s f hl
  refine ⟨fun i hr hw => ?_, fun i hr hw => ?_, fun t ws => ⟨fun h => if_pos h, fun h => if_neg (by omega)⟩,
    fun t addr v => ⟨fun h hd => writeIssue_unmapped v h hd, fun r h hd => ?_, ?_⟩⟩
  · have body := fpExec_of_ready (body := fun s => fpWriteRegs s f [(regAddr (flintOf s f) i, BitVec.ofNat 32 (gRead (flintOf s f) i.d.toNat).toNat)]) hw hr
    refine ⟨fun h => body.trans (congrArg _ (fpWriteRegs_forbidden ?_)), fun h => body.trans (congrArg _ (fpWriteRegs_allowed ?_ (fpFollows_of_ready hr) hl))⟩
    · exact (Bool.or_false _).trans h
    · exact (Bool.or_false _).trans h
  · have body := fpExec_of_ready (ok := Instr.wf (.fpWrblk f i)) (pneg := i.pneg) (pidx := i.pidx) (f := f) (body := fun s =>
      if !dmemOk (gRead (flintOf s f) i.b.toNat) 4 (4 * i.func.toNat) then seqFault s f 1
      else fpWriteRegs s f ((List.range i.func.toNat).map fun k => (((gRead (flintOf s f) i.a.toNat).toNat + 4 * k) % 2 ^ 40,
        BitVec.ofNat 32 (dmemLe (flintOf s f) ((gRead (flintOf s f) i.b.toNat).toNat + 4 * k) 4)))) hw hr
    refine ⟨fun h => body.trans (congrArg _ (if_pos ?_)), fun h hf => body.trans (congrArg _ ((if_neg ?_).trans (fpWriteRegs_forbidden hf))),
      fun h hf => body.trans (congrArg _ ((if_neg ?_).trans (fpWriteRegs_allowed hf (fpFollows_of_ready hr) hl)))⟩
    · simpa [← dmemOk_iff] using h
    · simpa using dmemOk_iff.2 h
    · simpa using dmemOk_iff.2 h
  · obtain ⟨_, ha, _⟩ := actionSent_frame t f addr v
    refine ⟨fun hn => ?_, fun hn => ?_⟩
    · rw [writeIssue_dram v h hd, regionAction_of_le (by rwa [ha])]
      rfl
    · rw [writeIssue_dram v h hd, regionAction_of_lt (by rwa [ha])]
      rfl
  · rintro a rfl hlt
    obtain ⟨_, ha, _⟩ := actionSent_frame t f (0xFFF0000000 + a) v
    refine ⟨fun h1 hs => writeIssue_unserved v hlt h1 (by rwa [if_neg h1] at hs), fun h1 hn => ?_, fun h1 hn => ?_, fun h1 hs hn => ?_⟩
    · by_cases h1' : a / 0x100000 = 1
      · rw [if_pos h1'] at hn ⊢
        rw [writeIssue_own v hlt h1', regionAction_of_le (by rwa [ha])]
        rfl
      · replace h1 := h1.resolve_left h1'
        rw [if_neg h1'] at h1 hn ⊢
        rw [writeIssue_window v hlt h1' h1, regionAction_of_le (by rwa [ha])]
        rfl
    · rw [if_pos h1] at hn ⊢
      rw [writeIssue_own v hlt h1, regionAction_of_lt (by rwa [ha])]
      rfl
    · rw [if_neg h1] at hs hn ⊢
      rw [writeIssue_window v hlt h1 hs, regionAction_of_lt (by rwa [ha])]
      rfl

section
variable {s t : State} {f : FlintId}

/-! Reads (R149, R268). -/

theorem readReg_poisonRead (s : State) (q channel src word : Nat) {k : Nat} (hk : k ≠ bxtPoisonReads (8 + q)) :
    readReg (poisonRead s q channel src word) k = readReg s k :=
  (congrArg (smRead regReset · k) (raise_regs ..)).trans (readReg_bump_ne s 1 hk)

theorem readReg_poisonSeen (s : State) (src a n : Nat) {k : Nat} (hk : k % 0x100000 ≠ 0x214) : readReg (poisonSeen s src a n) k = readReg s k := by
  have hne (q : Nat) : k ≠ bxtPoisonReads (8 + q) := by simp only [bxtPoisonReads]; omega
  unfold poisonSeen
  split
  · rfl
  · refine List.foldlRecOn (motive := fun t => readReg t k = readReg s k) _ _ rfl fun t ht line _ => ?_
    split
    · exact (readReg_poisonRead t _ _ _ _ (hne _)).trans ht
    · exact ht

theorem readRegion_poisonSeen (s : State) (f : FlintId) (src b n a : Nat) : readRegion (poisonSeen s src b n) f a = readRegion s f a := by
  rw [readRegion, readRegion, dramRegion_congr (fun k hk => readReg_poisonSeen s src b n hk)]

/-- A read that waits for its response. -/
def awaitsRead (p : Nat × Word × State) (f : FlintId) (d : Nat) (addr : Nat) : State :=
  waits p.2.2 f (.read d p.2.1 p.1 (readRegion p.2.2 f addr) (addr % 0x100000))

theorem fpRead_of_leads {i : FrImm} (hf : fpFollows s f = false) (h2 : windowRegion (regAddr (flintOf s f) i) ≠ some 2)
    (hrc : rcAddr (regAddr (flintOf s f) i) = false) :
    fpRead s f i = awaitsRead (readIssue s f (regAddr (flintOf s f) i)) f i.d.toNat (regAddr (flintOf s f) i) := by
  simp only [fpRead, if_neg h2, hf, hrc, Bool.false_and, Bool.false_eq_true, if_false]
  rfl

theorem windowRegion_eq_none {addr : Nat} (h : addr < 0xFFF0000000 ∨ 0xFFF1000000 ≤ addr) : windowRegion addr = none := by
  rw [windowRegion, windowOf_eq_none h]
  rfl

theorem rcAddr_eq_false {addr : Nat} (h : addr < 0xFFF0000000 ∨ 0xFFF1000000 ≤ addr) : rcAddr addr = false := by
  rw [rcAddr, windowOf_eq_none h]

theorem windowRegion_add {a : Nat} (h : a < 0x1000000) : windowRegion (0xFFF0000000 + a) = some (a / 0x100000) := by
  rw [windowRegion, windowOf_add h]
  rfl

theorem readIssue_unmapped {addr : Nat} (h : addr < 0xFFF0000000 ∨ 0xFFF1000000 ≤ addr) (hd : dramRegion s addr = none) :
    readIssue s f addr = (3, 0, s) := by
  simp only [readIssue, windowOf_eq_none h, hd]

theorem readIssue_dram {addr : Nat} (h : addr < 0xFFF0000000 ∨ 0xFFF1000000 ≤ addr) (hd : dramRegion s addr ≠ none) :
    readIssue s f addr = (readStatus s (flintRegion f) (addr / 4 * 4) 4, BitVec.ofNat 32 (readLe s (addr / 4 * 4) 4),
      poisonSeen s (flintRegion f) (addr / 4 * 4) 4) := by
  obtain ⟨r, hr⟩ := Option.ne_none_iff_exists'.1 hd
  simp only [readIssue, windowOf_eq_none h, hr]

/-- The register that a read of a window's offset means: the own Flint window stands for the region's own. -/
def ownPlace (f : FlintId) (b : Nat) : Nat := if b / 0x100000 = 1 then flintRegion f * 0x100000 + b % 0x100000 else b

theorem readIssue_window {a : Nat} (h : a < 0x1000000) (hrc : rcAddr (0xFFF0000000 + a) = false) : readIssue s f (0xFFF0000000 + a) =
    let own := ownPlace f (a / 4 * 4)
    if serves s (own / 0x100000) then
      let t := readActs (reqMeets s .fp (own / 0x100000)) .fp own
      (0, viewReg t .fp own, t)
    else (2, 0, s) := by
  rw [readIssue, windowOf_add h, hrc]
  show busRead (reqAt s .fp (ownPlace f (a / 4 * 4) / 0x100000)) .fp (ownPlace f (a / 4 * 4)) = _
  generalize ownPlace f (a / 4 * 4) = own
  dsimp only
  cases hs : serves s (own / 0x100000)
  · simp [busRead, reqAt, hs]
  · have hm : serves (reqMeets s .fp (own / 0x100000)) (own / 0x100000) = true := by rw [serves_reqMeets, hs]
    simp [busRead, reqAt, hs, hm]

theorem readRegion_window (s t : State) {a : Nat} (h : a < 0x1000000) : readRegion s f (0xFFF0000000 + a) = readRegion t f (0xFFF0000000 + a) := by
  simp only [readRegion, windowOf_add h]

/-! The response (R149, R173). -/

theorem readResponse_of_other (h : ∀ d v st r o, (flintOf s f).wait ≠ some (.read d v st r o)) : readResponse s f = s := by
  unfold readResponse
  split
  next d v st r o hw => exact absurd hw (h d v st r o)
  next => rfl

theorem flintOf_mirrorSend (s : State) (f g : FlintId) (r : MirrorRec) : flintOf (mirrorSend s f r) g = flintOf s g := by
  obtain ⟨m, e⟩ := mirrorSend_cases s f r
  rw [e]
  rfl

/-- A response leaves what the other region waits for. -/
theorem flintOf_readResponse (s : State) (f : FlintId) : flintOf (readResponse s f) (otherFlint f) = flintOf s (otherFlint f) := by
  have answered (v : DWord) (g : Flint → Flint) : flintOf (mirrorSend (setFlint s f g) f (.value v)) (otherFlint f) = flintOf s (otherFlint f) :=
    (flintOf_mirrorSend ..).trans (by cases f; exacts [flintOf_setFlint_other s .a g, flintOf_setFlint_other s .b g])
  unfold readResponse
  split
  · dsimp only
    split
    · exact answered _ _
    · exact answered _ _
  · rfl

/-- With the other region reading nothing, a response for the frame program is the region's. -/
theorem responseArrives_fp (h : ∀ d v st r o, (flintOf s (otherFlint f)).wait ≠ some (.read d v st r o)) : responseArrives s .fp = readResponse s f := by
  cases f
  · exact readResponse_of_other (s := readResponse s .a) (f := .b) (by rw [show FlintId.b = otherFlint .a from rfl, flintOf_readResponse]; exact h)
  · exact congrArg (readResponse · .b) (readResponse_of_other h)

end

/-- Settles O11: RDREG waits with what `readIssue` gives for the address, and the response writes it. -/
theorem frameRegisterReads : Obligations.FrameRegisterReads := by
  intro s f
  refine ⟨fun i hr hw => ?_, fun d v r o hx ho => ?_, fun d v st r o hst hx ho => ?_⟩
  · have body : exec (.fpRdreg f i) s = .next (fpRead s f i) := fpExec_of_ready hw hr
    have hf := fpFollows_of_ready hr
    rw [body]
    have hi : (gRead (flintOf s f) i.a.toNat + i.imm.signExtend 64).toNat % 2 ^ 40 = regAddr (flintOf s f) i := rfl
    have leads := fpRead_of_leads (i := i) hf
    dsimp only
    rw [hi]
    have h2 : windowRegion (regAddr (flintOf s f) i) = some 2 → fpRead s f i = seqFault s f 4 := fun h => if_pos h
    generalize regAddr (flintOf s f) i = addr at leads h2
    refine ⟨fun h => congrArg _ (h2 h), fun h hd => congrArg _ ?_, fun h hd => congrArg _ ?_, ?_⟩
    · rw [leads (by rw [windowRegion_eq_none h]; nofun) (rcAddr_eq_false h), readIssue_unmapped h hd]
      rfl
    · rw [leads (by rw [windowRegion_eq_none h]; nofun) (rcAddr_eq_false h), readIssue_dram h hd, awaitsRead, readRegion_poisonSeen]
    · rintro a rfl hlt ha hrc
      have hn : windowRegion (0xFFF0000000 + a) ≠ some 2 := by rw [windowRegion_add hlt]; simpa using ha
      refine congrArg _ ?_
      rw [leads hn hrc, readIssue_window hlt hrc, ← ownPlace, awaitsRead, readRegion_window _ s hlt]
      dsimp only
      split
      · rfl
      · rfl
  · refine congrArg Host.Outcome.next ((responseArrives_fp ho).trans ?_)
    rw [readResponse, hx]
    rfl
  · refine congrArg Host.Outcome.next ((responseArrives_fp ho).trans ?_)
    rw [readResponse, hx]
    dsimp only
    rw [if_neg hst, if_neg hst]
    rfl

end Sys2Proof.Machine
end

section
/-! PROOFS. Borax: submissions, the items of the coder lanes, their ends, and the statement on them. -/

namespace Sys2Proof.Machine

open Says

section
variable {s t : State}

/-- A requester's access to a window changes Slate's record of the clock only. -/
theorem reqMeets_eq (s : State) (q : Requester) (r : Nat) : ∃ x, reqMeets s q r = { s with slate := x } :=
  ⟨(reqMeets s q r).slate, calc
    reqMeets s q r = { { reqMeets s q r with slate := s.slate } with slate := (reqMeets s q r).slate } := rfl
    _ = { s with slate := (reqMeets s q r).slate } := by rw [reqMeets_slate_only]⟩

/-! Submissions (R234, R244). -/

theorem fld_low (v : Word) (n : Nat) : fld v 0 n = v.toNat % 2 ^ n := by simp [fld, bitsOf]

/-- The offset of a requester's own copy of the job registers, in copies. -/
def jobCopy (q : Requester) : Nat := match q with | .ha => 0 | .hb => 1 | .fp => 2

/-- The job that a requester submits: the descriptor at its own job address. -/
def ownJob (s : State) (q : Requester) : BxJob :=
  ⟨addr40 s (brxJobAddrLo + 0x1000000 * jobCopy q) (brxJobAddrHi + 0x1000000 * jobCopy q), false, s.now⟩

/-- A submission that names engine `n`. -/
def submitTo (s : State) (q : Requester) (n : Nat) : State :=
  if 4 < n then s
  else if 8 ≤ (s.borax.jobs[jobEngine s n]).length then setF (bump s brxSubmitRefused) (brxJobStatus + 0x1000000 * jobCopy q) 31 1 1
  else setF (queueJob s (jobEngine s n) (ownJob s q)) (brxJobStatus + 0x1000000 * jobCopy q) 31 1 0

theorem jobSubmit_eq (s : State) (q : Requester) (v : Word) : jobSubmit s q v = submitTo s q (v.toNat % 8) :=
  show submitTo s q (fld v 0 3) = submitTo s q (v.toNat % 2 ^ 3) by rw [fld_low]

theorem submitTo_reqMeets (s : State) (q : Requester) (n : Nat) : submitTo (reqMeets s q 12) q n =
    if 4 < n then reqMeets s q 12
    else if 8 ≤ (s.borax.jobs[jobEngine s n]).length then setF (bump (reqMeets s q 12) brxSubmitRefused) (brxJobStatus + 0x1000000 * jobCopy q) 31 1 1
    else setF (queueJob (reqMeets s q 12) (jobEngine s n) (ownJob s q)) (brxJobStatus + 0x1000000 * jobCopy q) 31 1 0 := by
  obtain ⟨x, e⟩ := reqMeets_eq s q 12
  rw [e]
  rfl

theorem borax_boraxStatus (s : State) : (boraxStatus s).borax = s.borax := rfl

theorem jobs_queueJob (s : State) (e d : Fin 4) (j : BxJob) : (queueJob s e j).borax.jobs[d] = if d = e then s.borax.jobs[d] ++ [j] else s.borax.jobs[d] := by
  rw [queueJob, borax_boraxStatus]
  show (vUpd s.borax.jobs e fun q => q ++ [j])[d] = _
  by_cases h : d = e
  · subst h
    simp [vUpd]
  · have hne : e.val ≠ d.val := fun h' => h (Fin.ext h'.symm)
    simp [vUpd, h, Vector.getElem_set_ne _ _ hne]

theorem jobEngine_four (s : State) : jobEngine s 4 = fewestQueued s := rfl

theorem jobEngine_of_quarantined {e : Fin 4} (h : isQuarantined s 12 e.val = true) : jobEngine s e.val = jobEngine s 4 := by
  rw [jobEngine_four, jobEngine, if_pos (by simp [h])]

theorem jobEngine_of_up {e : Fin 4} (h : isQuarantined s 12 e.val = false) : jobEngine s e.val = e := by
  have he : e.val ≠ 4 := by omega
  rw [jobEngine, if_neg (by simp [h, he])]
  exact Fin.ext (Nat.mod_eq_of_lt e.isLt)

/-- Of two engines, the second only where it has fewer jobs queued. -/
def fewer (s : State) (b e : Fin 4) : Fin 4 := if (s.borax.jobs[e]).length < (s.borax.jobs[b]).length then e else b

/-- Going through engines, the one kept is one of them, and none has fewer jobs queued. -/
theorem foldl_fewer (s : State) (l : List (Fin 4)) (x : Fin 4) : l.foldl (fewer s) x ∈ x :: l ∧
    ∀ e ∈ x :: l, (s.borax.jobs[l.foldl (fewer s) x]).length ≤ (s.borax.jobs[e]).length := by
  induction l generalizing x with
  | nil => simp
  | cons y l ih =>
    obtain ⟨hm, hle⟩ := ih (fewer s x y)
    have hxy : fewer s x y = x ∨ fewer s x y = y := by unfold fewer; split <;> simp
    have hx : (s.borax.jobs[fewer s x y]).length ≤ (s.borax.jobs[x]).length := by unfold fewer; split <;> omega
    have hy : (s.borax.jobs[fewer s x y]).length ≤ (s.borax.jobs[y]).length := by unfold fewer; split <;> omega
    have hf := hle _ (List.mem_cons_self ..)
    refine ⟨?_, fun e he => ?_⟩
    · rcases List.mem_cons.1 hm with h | h
      · rw [List.foldl_cons, h]
        rcases hxy with h' | h' <;> simp [h']
      · exact List.mem_cons_of_mem _ (List.mem_cons_of_mem _ h)
    · rcases List.mem_cons.1 he with rfl | he
      · exact hf.trans hx
      rcases List.mem_cons.1 he with rfl | he
      · exact hf.trans hy
      · exact hle e (List.mem_cons_of_mem _ he)

theorem mem_enginesUp {e : Fin 4} : e ∈ enginesUp s ↔ isQuarantined s 12 e.val = false := by
  simp [enginesUp]

/-- With an engine in service, engine 4 means one in service with the fewest jobs. -/
theorem jobEngine_four_fewest {e : Fin 4} (h : isQuarantined s 12 e.val = false) : isQuarantined s 12 (jobEngine s 4).val = false ∧
    (s.borax.jobs[jobEngine s 4]).length ≤ (s.borax.jobs[e]).length := by
  rw [← mem_enginesUp] at h ⊢
  cases hl : enginesUp s with
  | nil => simp [hl] at h
  | cons x l =>
    have hj : jobEngine s 4 = l.foldl (fewer s) x := by
      rw [jobEngine_four, fewestQueued, hl]
      rfl
    obtain ⟨hm, hle⟩ := foldl_fewer s l x
    rw [← hj] at hm
    refine ⟨hm, ?_⟩
    simp only [hj]
    exact hle e (hl ▸ h)

/-! The lanes take items (R236). -/

/-- Coder lane `k` takes no item. -/
def laneIdle (s : State) (k : Fin 16) : Prop := laneUp s k.val = false ∨ s.borax.lanes[k].isSome = true ∨ nextItem s (Fin.ofNat 4 (k.val / 4)) = none

theorem laneTake_of_idle {k : Fin 16} (h : laneIdle s k) (l : List (Fin 16)) : laneTake s (k :: l) = laneTake s l := by
  rw [laneTake]
  split
  · rfl
  next hk =>
    rw [Bool.or_eq_true, not_or] at hk
    obtain ⟨hu, hl⟩ := hk
    rcases h with h | h | h
    · exact absurd (by simp [h]) hu
    · exact absurd h hl
    · rw [h]

theorem laneTake_of_free {l : Fin 16} {i : BxItem} (hu : laneUp s l.val = true) (hl : s.borax.lanes[l] = none)
    (hi : nextItem s (Fin.ofNat 4 (l.val / 4)) = some i) (r : List (Fin 16)) :
    laneTake s (l :: r) = setBorax (dropItem s i) fun b => { b with lanes := b.lanes.set l (some i) } := by
  rw [laneTake, if_neg (by simp [hu, hl]), hi]

theorem laneTake_append (l r : List (Fin 16)) (h : ∀ k ∈ l, laneIdle s k) : laneTake s (l ++ r) = laneTake s r := by
  induction l with
  | nil => rfl
  | cons k l ih => exact (laneTake_of_idle (h k (List.mem_cons_self ..)) _).trans (ih fun k' hk => h k' (List.mem_cons_of_mem _ hk))

theorem coderTake_of_idle (h : ∀ k, laneIdle s k) : coderTake s = s := by
  have := laneTake_append (List.finRange 16) [] fun k _ => h k
  rwa [List.append_nil] at this

/-- The lanes below `l`, `l` itself, and the lanes above it. -/
theorem finRange_split (l : Fin 16) : ∃ a b, List.finRange 16 = a ++ l :: b ∧ ∀ k ∈ a, k < l := by
  refine ⟨(List.finRange 16).take l.val, (List.finRange 16).drop (l.val + 1), ?_, fun k hk => ?_⟩
  · have hd := List.drop_eq_getElem_cons (l := List.finRange 16) (i := l.val) (by simp)
    rw [List.getElem_finRange] at hd
    exact (List.take_append_drop l.val _).symm.trans (congrArg _ hd)
  · obtain ⟨n, hn, rfl⟩ := List.mem_take_iff_getElem.1 hk
    simp only [List.length_finRange] at hn
    simp [Fin.lt_def]
    omega

theorem coderTake_of_free {l : Fin 16} {i : BxItem} (h : ∀ k, k < l → laneIdle s k) (hu : laneUp s l.val = true) (hl : s.borax.lanes[l] = none)
    (hi : nextItem s (Fin.ofNat 4 (l.val / 4)) = some i) : coderTake s = setBorax (dropItem s i) fun b => { b with lanes := b.lanes.set l (some i) } := by
  obtain ⟨a, b, e, ha⟩ := finRange_split l
  rw [coderTake, e, laneTake_append a _ fun k hk => h k (ha k hk), laneTake_of_free hu hl hi]

/-- The jobs of an engine, those that a retired lane gave back first. -/
def engineJobs (s : State) (e : Fin 4) : List BxJob := ((s.borax.again.filter fun x => x.1 == e.val).map fun x => x.2) ++ s.borax.jobs[e]

theorem nextJob_old {e : Fin 4} {j : BxJob} {r : List BxJob} (h : engineJobs s e = j :: r) (ha : j.at_ + 1000000 ≤ s.now) :
    nextJob s e true = some (.job e.val j) := by
  rw [nextJob, ← engineJobs, h]
  simp [ha]

theorem nextJob_young {e : Fin 4} (h : ∀ j, (engineJobs s e).head? = some j → s.now < j.at_ + 1000000) : nextJob s e true = none := by
  rw [nextJob, ← engineJobs]
  cases hj : engineJobs s e with
  | nil => rfl
  | cons j r =>
    have := h j (by simp [hj])
    simp
    omega

theorem nextJob_any (s : State) (e : Fin 4) : nextJob s e false = (engineJobs s e).head?.map fun j => .job e.val j := by
  rw [nextJob, ← engineJobs]
  cases engineJobs s e with
  | nil => rfl
  | cons j r => rfl

/-! An item is done (R230). -/

/-- Lane `k` is free again. -/
def laneFreed (k : Fin 16) (t : State) : State := setBorax t fun b => { b with lanes := b.lanes.set k none }

theorem coderDone_of_free {e l : Fin 4} {ms : List Nat} (h : s.borax.lanes[(Fin.ofNat 16 (4 * e.val + l.val) : Fin 16)] = none) : coderDone s e l ms = s := by
  unfold coderDone
  dsimp only
  rw [h]

/-- What a lane's item comes to, by the mismatches of its blocks, each at most 5. -/
def doneWith (s : State) (e l : Fin 4) (k : Fin 16) (i : BxItem) (ms : List Nat) : State :=
  let t := ms.foldl (fun s m => verifyMismatches s e.val l.val m) s
  let forced := (List.range ms.length).filter fun k => decide (4 ≤ ms.getD k 0)
  let x := correctedBlocks t e.val l.val (ms.filter fun m => m != 0 && decide (m < 4)).length
  let u := if ms.contains 5 then unverified x.1 k i else itemDone (laneFreed k x.1) i forced true
  if x.2 || !forced.isEmpty then retireCell u 12 e.val l.val else u

theorem coderDone_of_item {e l : Fin 4} {i : BxItem} {ms : List Nat} (h : s.borax.lanes[(Fin.ofNat 16 (4 * e.val + l.val) : Fin 16)] = some i) :
    coderDone s e l ms = doneWith s e l (Fin.ofNat 16 (4 * e.val + l.val)) i (if codes s i then ms.map fun m => min m 5 else []) := by
  unfold coderDone doneWith
  dsimp only
  rw [h]
  rfl

variable {e l : Fin 4} {k : Fin 16} {i : BxItem}

/-- Without a mismatch the item is done. -/
theorem doneWith_clean {ms : List Nat} (h : ∀ m ∈ ms, m = 0) : doneWith s e l k i ms = itemDone (laneFreed k s) i [] true := by
  obtain ⟨n, rfl⟩ : ∃ n, ms = List.replicate n 0 := ⟨_, List.eq_replicate_iff.2 ⟨rfl, h⟩⟩
  have hf : (List.replicate n 0).foldl (fun s m => verifyMismatches s e.val l.val m) s = s := by
    induction n with
    | zero => rfl
    | succ n ih => exact ih (by simp)
  simp [doneWith, hf, correctedBlocks]

/-- Up to three mismatches of a block are corrected errors of the lane. -/
theorem doneWith_corrected {m : Nat} (h1 : 1 ≤ m) (h3 : m ≤ 3) : doneWith s e l k i [m] =
    let x := countCorrected (raise (verifyMismatches s e.val l.val m) 0 12 0x3F6 e.val l.val 0) ⟨12, e.val, l.val⟩ 1
    if x.2 then retireCell (itemDone (laneFreed k x.1) i [] true) 12 e.val l.val else itemDone (laneFreed k x.1) i [] true := by
  have h4 : ¬ 4 ≤ m := by omega
  have h0 : m ≠ 0 := by omega
  have h5 : m ≠ 5 := by omega
  simp [doneWith, h4, h0, h5.symm, show m < 4 by omega, correctedBlocks]

/-- A block with a fourth mismatch is written STORED, and the lane retires. -/
theorem doneWith_stored : doneWith s e l k i [0, 4] = retireCell (itemDone (laneFreed k (verifyMismatches s e.val l.val 4)) i [1] true) 12 e.val l.val := rfl

/-- Where the STORED block differs too the item is not verified, and the lane retires. -/
theorem doneWith_unverified : doneWith s e l k i [5] = retireCell (unverified (verifyMismatches s e.val l.val 5) k i) 12 e.val l.val := rfl

theorem retCtrlWrite_reqMeets (s : State) (q : Requester) (v : Word) : retCtrlWrite (reqMeets s q 12) v =
    if s.borax.ret.open_ = true ∧ readReg (writeKey (reqMeets s q 12) brxRetCtrl v) brxRetCtrl ≠ readReg s brxRetCtrl then
      setRet (writeKey (reqMeets s q 12) brxRetCtrl v) fun r => { r with changed := true }
    else writeKey (reqMeets s q 12) brxRetCtrl v := by
  have ho : (writeKey (reqMeets s q 12) brxRetCtrl v).borax.ret.open_ = s.borax.ret.open_ := by
    obtain ⟨x, e⟩ := reqMeets_eq s q 12
    rw [e]
    rfl
  rw [retCtrlWrite, readReg_reqMeets]
  simp only [ho, Bool.and_eq_true, bne_iff_ne]

end

/-- Settles O52: the queues' heads decide what a lane takes, and the mismatches of an item's blocks what it comes to. -/
theorem boraxJobsAndLanes : Obligations.BoraxJobsAndLanes := by
  intro s
  refine ⟨fun q v h => ⟨?_, ?_⟩, fun e l ms h => ?_, fun q v h => ?_, fun e => ⟨jobEngine_of_quarantined, fun h => ⟨jobEngine_of_up h, jobEngine_four_fewest h⟩⟩,
    jobs_queueJob s, ⟨fun h => ?_, fun l i h hu hl hi => ?_⟩, fun e => ?_, fun e l h => ?_, fun q v h => ?_⟩
  · exact congrArg Host.Outcome.next (if_neg (by simp [h]))
  · exact congrArg Host.Outcome.next (if_neg (by simp [h]))
  · exact congrArg Host.Outcome.next (if_neg (by simp [h]))
  · have submits : exec (.jobSubmit q v) s = .next (submitTo (reqMeets s q 12) q (v.toNat % 8)) :=
      congrArg Host.Outcome.next ((if_pos h).trans (jobSubmit_eq ..))
    rw [submits, submitTo_reqMeets]
    refine ⟨fun hn => congrArg _ (if_pos hn), fun hn hl => congrArg _ ((if_neg (by omega)).trans (if_pos hl)), fun hn hl => congrArg _ ((if_neg (by omega)).trans ((if_neg (by omega)).trans ?_))⟩
    cases q <;> rfl
  · rw [exec_coderLaneTakeItem, execCoderLaneTakeItem, coderTake_of_idle h]
  · rw [exec_coderLaneTakeItem, execCoderLaneTakeItem, coderTake_of_free h hu hl hi]
  · refine ⟨fun i r hr => ?_, fun hr i hi => ?_, fun hr hi j r hj ha => ?_, fun hr hi hj => ?_⟩
    · simp [nextItem, hr]
    · simp [nextItem, hr, hi]
    · simp [nextItem, hr, hi, nextJob_old hj ha]
    · have hn := nextJob_young hj
      refine ⟨fun i r hq => ?_, fun i r hq hb => ?_, fun hq hb => ?_⟩
      · simp [nextItem, hr, hi, hn, hq]
      · simp [nextItem, hr, hi, hn, hq, hb]
      · exact Eq.trans (by simp [nextItem, hr, hi, hn, hq, hb]) (nextJob_any s e)
  · have done (ms : List Nat) : exec (.coderItemDone e l ms) s = .next (coderDone s e l ms) := congrArg Host.Outcome.next (if_pos h)
    refine ⟨fun ms hl => (done ms).trans (congrArg _ (coderDone_of_free hl)), fun i hl => ?_⟩
    have item (ms : List Nat) := (done ms).trans (congrArg _ (coderDone_of_item hl))
    refine ⟨fun ms hm => (item ms).trans (congrArg _ (doneWith_clean ?_)), fun m hc h1 h3 => (item [m]).trans (congrArg _ ?_), fun hc => (item [0, 4]).trans ?_,
      fun hc hx => (item [5]).trans ?_, fun hc hx => (item [5]).trans ?_, fun ms => ⟨_, done ms⟩⟩
    · split
      next hc => simpa [hc] using hm
      · simp
    · rw [if_pos hc]
      exact (congrArg (doneWith s e l _ i [·]) (by omega : min m 5 = m)).trans (doneWith_corrected h1 h3)
    · rw [if_pos hc]
      exact congrArg _ doneWith_stored
    · obtain ⟨f, ph, r, g, rfl⟩ := hx
      rw [if_pos hc]
      exact congrArg _ doneWith_unverified
    · have back (t : State) (k : Fin 16) : unverified t k i = boraxBack t k := by
        cases i
        case shadowSeg f ph r g => exact absurd ⟨f, ph, r, g, rfl⟩ hx
        all_goals rfl
      rw [if_pos hc, ← back]
      exact congrArg _ doneWith_unverified
  · exact congrArg Host.Outcome.next ((if_pos h).trans (retCtrlWrite_reqMeets s q v))

end Sys2Proof.Machine
end

section
/-! PROOFS. The mesh: routes lead nearer, and the credits of every link add up to 8 in every clock. -/

namespace Sys2Proof.Machine

open Says

/-! Routes (R25). -/

/-- The router behind a side, where there is one. -/
theorem neighbour_eq_some {r q : Fin 40} {i : Fin 5} : neighbour r i = some q ↔
    i = 0 ∧ r.val % 8 < 7 ∧ q.val = r.val + 1 ∨ i = 1 ∧ 0 < r.val % 8 ∧ q.val + 1 = r.val ∨
    i = 2 ∧ r.val / 8 < 4 ∧ q.val = r.val + 8 ∨ i = 3 ∧ 0 < r.val / 8 ∧ q.val + 8 = r.val := by
  have hr := r.isLt
  have hq := q.isLt
  have go {ok : Prop} [Decidable ok] {n : Nat} (hn : ok → n < 40) : (if decide ok = true then some (Fin.ofNat 40 n) else none) = some q ↔ ok ∧ q.val = n := by
    by_cases h : ok
    · simp only [h, decide_true, if_true, Option.some.injEq, true_and, Fin.ext_iff, Fin.ofNat, Nat.mod_eq_of_lt (hn h)]
      exact eq_comm
    · simp [h]
  match i with
  | 0 => exact (go (by omega)).trans (by simp)
  | 1 => exact (go (by omega)).trans (by simp; omega)
  | 2 => exact (go (by omega)).trans (by simp)
  | 3 => exact (go (by omega)).trans (by simp; omega)
  | 4 => simp [neighbour]

theorem neighbour_four (r : Fin 40) : neighbour r 4 = none := rfl

theorem facing_inj {i j : Fin 5} (h : facing i = facing j) : i = j := by
  revert i j
  decide

theorem facing_eq_four {i : Fin 5} (h : facing i = 4) : i = 4 := facing_inj (h.trans (show (4 : Fin 5) = facing 4 from rfl))

theorem neighbour_inj {r r' q : Fin 40} {i : Fin 5} (h : neighbour r i = some q) (h' : neighbour r' i = some q) : r = r' := by
  rw [neighbour_eq_some] at h h'
  ext
  rcases h with ⟨rfl, h⟩ | ⟨rfl, h⟩ | ⟨rfl, h⟩ | ⟨rfl, h⟩ <;> simp at h' <;> omega

theorem routeOf_self (b : Fin 40) : routeOf b b = 4 := by simp [routeOf]

/-- A hop of a route leads one router nearer. -/
theorem routeOf_nearer {a b : Fin 40} (h : a ≠ b) : ∃ q, neighbour a (routeOf a b) = some q ∧ hopsApart q b + 1 = hopsApart a b := by
  have ha := a.isLt
  have hb := b.isLt
  have hne : a.val ≠ b.val := fun e => h (Fin.ext e)
  have nearer {q : Nat} (hq : q < 40) {i : Fin 5} (hr : routeOf a b = i) (hn : neighbour a i = some ⟨q, hq⟩)
      (hd : ((q % 8 : Nat) - (b.val % 8 : Nat) : Int).natAbs + ((q / 8 : Nat) - (b.val / 8 : Nat) : Int).natAbs + 1 =
        ((a.val % 8 : Nat) - (b.val % 8 : Nat) : Int).natAbs + ((a.val / 8 : Nat) - (b.val / 8 : Nat) : Int).natAbs) :
      ∃ q, neighbour a (routeOf a b) = some q ∧ hopsApart q b + 1 = hopsApart a b := ⟨⟨q, hq⟩, hr ▸ hn, by simpa [hopsApart] using hd⟩
  by_cases h0 : a.val % 8 < b.val % 8
  · exact nearer (q := a.val + 1) (i := 0) (by omega) (by simp [routeOf, h0]) (neighbour_eq_some.2 (.inl ⟨rfl, by omega, rfl⟩)) (by omega)
  by_cases h1 : b.val % 8 < a.val % 8
  · exact nearer (q := a.val - 1) (i := 1) (by omega) (by simp [routeOf, h0, h1]) (neighbour_eq_some.2 (.inr (.inl ⟨rfl, by omega, by simp; omega⟩))) (by omega)
  by_cases h2 : a.val / 8 < b.val / 8
  · exact nearer (q := a.val + 8) (i := 2) (by omega) (by simp [routeOf, h0, h1, h2]) (neighbour_eq_some.2 (.inr (.inr (.inl ⟨rfl, by omega, rfl⟩)))) (by omega)
  · exact nearer (q := a.val - 8) (i := 3) (by omega) (by simp [routeOf, h0, h1, h2]; omega) (neighbour_eq_some.2 (.inr (.inr (.inr ⟨rfl, by omega, by simp; omega⟩)))) (by omega)

/-! Vectors whose entries change one by one. -/

section
variable {α : Type} {n : Nat}

theorem getElem_vUpd (v : Vector α n) (i j : Fin n) (f : α → α) : (vUpd v i f)[j] = if j = i then f v[j] else v[j] := by
  by_cases h : j = i
  · subst h
    simp [vUpd]
  · have hne : i.val ≠ j.val := fun e => h (Fin.ext e.symm)
    simp [vUpd, h, Vector.getElem_set_ne _ _ hne]

theorem getElem_foldl_vUpd (f : Fin n → α → α) (l : List (Fin n)) (hl : l.Nodup) (v : Vector α n) (j : Fin n) :
    (l.foldl (fun x i => vUpd x i (f i)) v)[j] = if j ∈ l then f j v[j] else v[j] := by
  induction l generalizing v with
  | nil => simp
  | cons i l ih =>
    obtain ⟨hi, hl⟩ := List.nodup_cons.1 hl
    rw [List.foldl_cons, ih hl, getElem_vUpd]
    by_cases h : j = i
    · subst h
      simp [hi]
    · simp [h]

theorem getElem_finRange_vUpd (f : Fin n → α → α) (v : Vector α n) (j : Fin n) : ((List.finRange n).foldl (fun x i => vUpd x i (f i)) v)[j] = f j v[j] := by
  rw [getElem_foldl_vUpd f _ (List.nodup_finRange n)]
  simp

end

/-! Credits of a link (R26). -/

/-- The credits of a sending end that are not spent on flits in the buffer: held, with the flit on the link, or returning. -/
def flow (p : MeshPort) (v : Fin 2) : Nat := p.credit[v] + onWire p v + p.back[v]

/-- The sending ends and the flits in the buffers of a mesh make 8 for every link and channel. -/
def Balanced (out : Fin 40 → Fin 5 → Fin 2 → Nat) (ifc : Fin 40 → Fin 2 → Nat) (held : Fin 40 → Fin 5 → Fin 2 → Nat) : Prop :=
  (∀ r v i q, neighbour r i = some q → out q (facing i) v + held r i v = 8) ∧ (∀ r v i, i ≠ 4 → neighbour r i = none → held r i v = 0) ∧
    (∀ r v, ifc r v + held r 4 v = 8) ∧ ∀ r v, out r 4 v = 8

/-- Credits of an output of a router. -/
def outFlow (m : Mesh) (r : Fin 40) (o : Fin 5) (v : Fin 2) : Nat := flow ((m.nodes[r]).outs[o]) v

/-- Credits of the interface's own link to a router. -/
def ifaceFlow (m : Mesh) (r : Fin 40) (v : Fin 2) : Nat := flow (m.nodes[r]).iface v

/-- Flits in an input buffer. -/
def heldIn (m : Mesh) (r : Fin 40) (i : Fin 5) (v : Fin 2) : Nat := (((m.nodes[r]).ins[i])[v]).length

theorem creditsKept_iff (m : Mesh) : creditsKept m ↔ Balanced (outFlow m) (ifaceFlow m) (heldIn m) := by
  simp only [creditsKept, Balanced, outFlow, ifaceFlow, heldIn, flow, ← List.length_eq_zero_iff]
  constructor
  · intro h
    refine ⟨fun r v i q hq => ?_, fun r v => (h r v).2.1, fun r v => ?_, fun r v => ?_⟩
    · have := (h r v).1 i q hq
      omega
    · have := (h r v).2.2.1
      omega
    · exact (h r v).2.2.2
  · rintro ⟨h1, h2, h3, h4⟩ r v
    refine ⟨fun i q hq => ?_, h2 r v, ?_, h4 r v⟩
    · have := h1 r v i q hq
      omega
    · have := h3 r v
      omega

/-! First half of a clock (R26). -/

/-- Whether a flit that comes is on the channel, as a number. -/
def onChannel (e : Option (Fin 2 × Flit)) (v : Fin 2) : Nat := match e with
  | some e => if e.1 = v then 1 else 0
  | none => 0

theorem onWire_eq (p : MeshPort) (v : Fin 2) : onWire p v = onChannel p.wire v := by
  unfold onWire onChannel
  split <;> rename_i h <;> simp [h]

theorem onWire_of_none {p : MeshPort} (h : p.wire = none) (v : Fin 2) : onWire p v = 0 := by
  rw [onWire_eq, h]
  rfl

theorem nodes_meshLands (m : Mesh) (r : Fin 40) : (meshLands m).nodes[r] = nodeLands m r := by
  have h (l : List (Fin 40)) (x : Mesh) : (l.foldl (fun (x : Mesh) (r : Fin 40) => { x with nodes := vUpd x.nodes r fun _ => nodeLands m r }) x).nodes =
      l.foldl (fun v r => vUpd v r fun _ => nodeLands m r) x.nodes := by
    induction l generalizing x with
    | nil => rfl
    | cons r l ih => exact ih _
  unfold meshLands
  rw [h]
  exact getElem_finRange_vUpd (fun r _ => nodeLands m r) m.nodes r

/-- A buffer with the flit that comes into it. -/
def bufferTakes (e : Option (Fin 2 × Flit)) (b : Vector (List Flit) 2) : Vector (List Flit) 2 := match e with
  | some e => vUpd b e.1 fun l => l ++ [e.2]
  | none => b

theorem length_bufferTakes (e : Option (Fin 2 × Flit)) (b : Vector (List Flit) 2) (v : Fin 2) :
    ((bufferTakes e b)[v]).length = (b[v]).length + onChannel e v := by
  unfold bufferTakes onChannel
  split
  next e =>
    rw [getElem_vUpd]
    by_cases h : v = e.1
    · simp [h]
    · simp [h, Ne.symm h]
  next => rfl

theorem ins_nodeLands (m : Mesh) (r : Fin 40) (i : Fin 5) : (nodeLands m r).ins[i] = bufferTakes (comingIn m r i) (m.nodes[r]).ins[i] := by
  have h : (nodeLands m r).ins = (List.finRange 5).foldl (fun x i => vUpd x i (bufferTakes (comingIn m r i))) (m.nodes[r]).ins := by
    unfold nodeLands
    dsimp only
    congr 1
    funext x i
    cases comingIn m r i with
    | some e => rfl
    | none => simp [vUpd, bufferTakes]
  rw [h, getElem_finRange_vUpd fun i => bufferTakes (comingIn m r i)]

/-- The credit that a flit taken at once gives back. -/
def givesBack (p : MeshPort) (o : Fin 5) : Option (Fin 2) := if o = 4 then p.wire.map fun e => e.1 else none

theorem outs_nodeLands (m : Mesh) (r : Fin 40) (o : Fin 5) : (nodeLands m r).outs[o] = portLands ((m.nodes[r]).outs[o]) (givesBack ((m.nodes[r]).outs[o]) o) :=
  getElem_finRange_vUpd (fun o p => portLands p (givesBack p o)) (m.nodes[r]).outs o

theorem credit_portLands (p : MeshPort) (more : Option (Fin 2)) (v : Fin 2) : (portLands p more).credit[v] = p.credit[v] + p.back[v] := by
  show (vUpd (vUpd p.credit 0 _) 1 _)[v] = _
  rw [getElem_vUpd, getElem_vUpd]
  match v with
  | 0 => simp
  | 1 => simp

theorem flow_portLands (p : MeshPort) (more : Option (Fin 2)) (v : Fin 2) :
    flow (portLands p more) v = p.credit[v] + p.back[v] + if more = some v then 1 else 0 := by
  have hb : (portLands p more).back[v] = if more = some v then 1 else 0 := by
    unfold portLands
    cases more with
    | none => simp
    | some w =>
      by_cases h : w = v
      · subst h
        simp
      · have hne : w.val ≠ v.val := fun e => h (Fin.ext e)
        simp [h, Vector.getElem_set_ne _ _ hne]
  rw [flow, credit_portLands, hb, onWire_of_none rfl, Nat.add_zero]

/-- An output keeps its credits as its flit leaves the link, but for the flit's own, which is in the next buffer; the interface's flit is taken at once. -/
theorem outFlow_meshLands (m : Mesh) (r : Fin 40) (o : Fin 5) (v : Fin 2) :
    outFlow (meshLands m) r o v + (if o = 4 then 0 else onWire ((m.nodes[r]).outs[o]) v) = outFlow m r o v := by
  rw [outFlow, nodes_meshLands, outs_nodeLands, flow_portLands, outFlow, flow]
  by_cases h : o = 4
  · have hw : (if givesBack ((m.nodes[r]).outs[o]) o = some v then 1 else 0) = onWire ((m.nodes[r]).outs[o]) v := by
      rw [onWire_eq, givesBack, if_pos h]
      cases ((m.nodes[r]).outs[o]).wire <;> simp [onChannel]
    rw [hw, if_pos h]
    omega
  · rw [givesBack, if_neg h, if_neg h]
    simp
    omega

theorem ifaceFlow_meshLands (m : Mesh) (r : Fin 40) (v : Fin 2) : ifaceFlow (meshLands m) r v + onWire (m.nodes[r]).iface v = ifaceFlow m r v := by
  rw [ifaceFlow, nodes_meshLands, ifaceFlow]
  have h : (nodeLands m r).iface = if (m.nodes[r]).withheld then { (m.nodes[r]).iface with wire := none } else portLands (m.nodes[r]).iface none := rfl
  rw [h]
  split
  · simp only [flow, onWire_of_none (p := { (m.nodes[r]).iface with wire := none }) rfl]
    omega
  · rw [flow_portLands]
    simp [flow]
    omega

theorem heldIn_meshLands (m : Mesh) (r : Fin 40) (i : Fin 5) (v : Fin 2) : heldIn (meshLands m) r i v = heldIn m r i v + onChannel (comingIn m r i) v := by
  rw [heldIn, nodes_meshLands, ins_nodeLands, length_bufferTakes, heldIn]

theorem creditsKept_meshLands {m : Mesh} (h : creditsKept m) : creditsKept (meshLands m) := by
  rw [creditsKept_iff] at h ⊢
  obtain ⟨h1, h2, h3, h4⟩ := h
  refine ⟨fun r v i q hq => ?_, fun r v i hi hn => ?_, fun r v => ?_, fun r v => ?_⟩
  · have hne : facing i ≠ 4 := fun e => by
      rw [facing_eq_four e, neighbour_four] at hq
      exact nomatch hq
    have ho := outFlow_meshLands m q (facing i) v
    have hh := heldIn_meshLands m r i v
    have hc : onChannel (comingIn m r i) v = onWire ((m.nodes[q]).outs[facing i]) v := by simp only [comingIn, hq, onWire_eq]
    have := h1 r v i q hq
    rw [if_neg hne] at ho
    omega
  · have hc : comingIn m r i = none := by simp only [comingIn, hn, if_neg hi]
    rw [heldIn_meshLands, h2 r v i hi hn, hc]
    rfl
  · have hi := ifaceFlow_meshLands m r v
    have hh := heldIn_meshLands m r 4 v
    have hc : onChannel (comingIn m r 4) v = onWire (m.nodes[r]).iface v := by rw [onWire_eq]; rfl
    have := h3 r v
    omega
  · have ho := outFlow_meshLands m r 4 v
    have := h4 r v
    rw [if_pos rfl] at ho
    omega

/-- No flit is on the links that a router and its interface send on. -/
def LinksFree (n : MeshNode) : Prop := n.iface.wire = none ∧ ∀ o : Fin 5, (n.outs[o]).wire = none

/-- After the first half of a clock no flit is on a link. -/
theorem linksFree_meshLands (m : Mesh) (r : Fin 40) : LinksFree (meshLands m).nodes[r] := by
  rw [nodes_meshLands]
  refine ⟨?_, fun o => by rw [outs_nodeLands]; rfl⟩
  have h : (nodeLands m r).iface = if (m.nodes[r]).withheld then { (m.nodes[r]).iface with wire := none } else portLands (m.nodes[r]).iface none := rfl
  rw [h]
  split <;> rfl

/-! Packets that arrive whole leave the links alone (R28, R429). -/

/-- The links and buffers of `m` are those of `m'`. -/
def SameLinks (m m' : Mesh) : Prop := ∀ r : Fin 40, (m'.nodes[r]).ins = (m.nodes[r]).ins ∧ (m'.nodes[r]).outs = (m.nodes[r]).outs ∧ (m'.nodes[r]).iface = (m.nodes[r]).iface

theorem SameLinks.refl (m : Mesh) : SameLinks m m := fun _ => ⟨rfl, rfl, rfl⟩

theorem SameLinks.trans {m m' m'' : Mesh} (h : SameLinks m m') (h' : SameLinks m' m'') : SameLinks m m'' := fun r => by
  obtain ⟨a, b, c⟩ := h r
  obtain ⟨a', b', c'⟩ := h' r
  exact ⟨a'.trans a, b'.trans b, c'.trans c⟩

theorem SameLinks.creditsKept {m m' : Mesh} (h : SameLinks m m') (hm : creditsKept m) : creditsKept m' := by
  rw [creditsKept_iff] at hm ⊢
  have ho : outFlow m' = outFlow m := by
    funext r o v
    rw [outFlow, outFlow, (h r).2.1]
  have hi : ifaceFlow m' = ifaceFlow m := by
    funext r v
    rw [ifaceFlow, ifaceFlow, (h r).2.2]
  have hh : heldIn m' = heldIn m := by
    funext r i v
    rw [heldIn, heldIn, (h r).1]
  rwa [ho, hi, hh]

theorem sameLinks_setNode (s : State) (r : Fin 40) {f : MeshNode → MeshNode} (h : ∀ n, (f n).ins = n.ins ∧ (f n).outs = n.outs ∧ (f n).iface = n.iface) :
    SameLinks s.mesh (setNode s r f).mesh := fun q => by
  have e : (setNode s r f).mesh.nodes[q] = if q = r then f s.mesh.nodes[q] else s.mesh.nodes[q] := getElem_vUpd s.mesh.nodes r q f
  rw [e]
  split
  · exact h _
  · exact ⟨rfl, rfl, rfl⟩

theorem sameLinks_meshArrives (s : State) (r : Fin 40) (fs : List Flit) : SameLinks s.mesh (meshArrives s r fs).mesh := by
  unfold meshArrives
  dsimp only
  split
  · split
    · exact sameLinks_setNode s r fun _ => ⟨rfl, rfl, rfl⟩
    · exact .refl _
  · exact .refl _

theorem sameLinks_nodeArrives (s : State) (r : Fin 40) : SameLinks s.mesh (nodeArrives s r).mesh := by
  unfold nodeArrives
  refine List.foldlRecOn (motive := fun t : State => SameLinks s.mesh t.mesh) _ _ (.refl _) fun t ht v _ => ?_
  dsimp only
  split
  · split
    · refine ht.trans (SameLinks.trans ?_ (sameLinks_meshArrives _ r _))
      exact sameLinks_setNode t r fun _ => ⟨rfl, rfl, rfl⟩
    · exact ht
  · exact ht

/-! Second half of a clock (R26, R27). -/

theorem flow_portSends {p : MeshPort} {v : Fin 2} {f : Flit} {i : Fin 5} {w : Bool} (hw : p.wire = none) (hc : p.credit[v] ≠ 0) (v' : Fin 2) :
    flow (portSends p v f i w) v' = flow p v' := by
  have hcr : (portSends p v f i w).credit[v'] = if v' = v then p.credit[v'] - 1 else p.credit[v'] := getElem_vUpd p.credit v v' (· - 1)
  have hwire : onWire (portSends p v f i w) v' = if v = v' then 1 else 0 := rfl
  have hback : (portSends p v f i w).back[v'] = p.back[v'] := rfl
  rw [flow, flow, hcr, hwire, hback, onWire_of_none hw]
  by_cases h : v' = v
  · subst h
    rw [if_pos rfl, if_pos rfl]
    omega
  · rw [if_neg h, if_neg (Ne.symm h)]

/-- The mesh once an output has sent the first flit of an input's buffer. -/
def flitLeaves (m : Mesh) (r : Fin 40) (o i : Fin 5) (v : Fin 2) (f : Flit) (rest : List Flit) (w : Bool) : Mesh :=
  { m with nodes := vUpd m.nodes r fun n => { n with
    ins := vUpd n.ins i fun b => b.set v rest
    outs := vUpd n.outs o fun p => portSends p v f i w } }

/-- What an output sends has a credit and is the first flit of an input's buffer. -/
theorem mayGo_credit {n : MeshNode} {r : Fin 40} {o : Fin 5} {v : Fin 2} {i : Fin 5} (h : mayGo n r o v = some i) : (n.outs[o]).credit[v] ≠ 0 := by
  intro hc
  unfold mayGo at h
  rw [if_pos hc] at h
  exact nomatch h

theorem outputSends_cases (r : Fin 40) (m : Mesh) (o : Fin 5) : outputSends r m o = m ∨ ∃ v i f rest w,
    (((m.nodes[r]).outs[o]).credit[v] ≠ 0 ∧ ((m.nodes[r]).ins[i])[v] = f :: rest) ∧ outputSends r m o = flitCredit (flitLeaves m r o i v f rest w) r i v := by
  unfold outputSends
  dsimp only
  split
  · exact .inl rfl
  next v _ =>
    split
    · exact .inl rfl
    next i hi =>
      split
      · exact .inl rfl
      next f rest hf =>
        refine .inr ⟨v, i, f, rest, _, ⟨?_, hf⟩, rfl⟩
        by_cases hv : v = 0
        · subst hv
          rw [if_pos rfl] at hi
          exact mayGo_credit hi
        · have h1 : v = 1 := by omega
          subst h1
          rw [if_neg (by decide)] at hi
          exact mayGo_credit hi

section
variable {m : Mesh} {r : Fin 40} {o i : Fin 5} {v : Fin 2} {f : Flit} {rest : List Flit} {w : Bool}

theorem nodes_flitLeaves (q : Fin 40) : (flitLeaves m r o i v f rest w).nodes[q] =
    if q = r then { m.nodes[q] with ins := vUpd (m.nodes[q]).ins i fun b => b.set v rest, outs := vUpd (m.nodes[q]).outs o fun p => portSends p v f i w }
    else m.nodes[q] := getElem_vUpd m.nodes r q _

theorem outs_flitLeaves (q : Fin 40) (o' : Fin 5) : ((flitLeaves m r o i v f rest w).nodes[q]).outs[o'] =
    if q = r ∧ o' = o then portSends ((m.nodes[q]).outs[o']) v f i w else (m.nodes[q]).outs[o'] := by
  rw [nodes_flitLeaves]
  by_cases hq : q = r
  · simp only [hq, if_true, true_and]
    exact getElem_vUpd _ o o' _
  · simp [hq]

theorem iface_flitLeaves (q : Fin 40) : ((flitLeaves m r o i v f rest w).nodes[q]).iface = (m.nodes[q]).iface := by
  rw [nodes_flitLeaves]
  split <;> rfl

theorem ins_flitLeaves (q : Fin 40) (i' : Fin 5) : ((flitLeaves m r o i v f rest w).nodes[q]).ins[i'] =
    if q = r ∧ i' = i then ((m.nodes[q]).ins[i']).set v rest else (m.nodes[q]).ins[i'] := by
  rw [nodes_flitLeaves]
  by_cases hq : q = r
  · simp only [hq, if_true, true_and]
    exact getElem_vUpd _ i i' _
  · simp [hq]

theorem heldIn_flitLeaves (hf : ((m.nodes[r]).ins[i])[v] = f :: rest) (q : Fin 40) (i' : Fin 5) (v' : Fin 2) :
    heldIn (flitLeaves m r o i v f rest w) q i' v' + (if q = r ∧ i' = i ∧ v' = v then 1 else 0) = heldIn m q i' v' := by
  rw [heldIn, heldIn, ins_flitLeaves]
  by_cases h : q = r ∧ i' = i
  · obtain ⟨rfl, rfl⟩ := h
    rw [if_pos ⟨rfl, rfl⟩]
    by_cases hv : v' = v
    · subst hv
      have hs : (((m.nodes[q]).ins[i']).set v' rest)[v'] = rest := Vector.getElem_set_self _
      rw [hs, hf, if_pos ⟨rfl, rfl, rfl⟩]
      rfl
    · have hne : v.val ≠ v'.val := fun e => hv (Fin.ext e.symm)
      have hs : (((m.nodes[q]).ins[i']).set v rest)[v'] = ((m.nodes[q]).ins[i'])[v'] := Vector.getElem_set_ne _ _ hne
      rw [hs, if_neg fun h => hv h.2.2, Nat.add_zero]
  · rw [if_neg h, if_neg fun h' => h ⟨h'.1, h'.2.1⟩, Nat.add_zero]

/-- A credit that returns by a side goes to the neighbour's output, or to the interface. -/
theorem flitCredit_parts (m : Mesh) (r : Fin 40) (i : Fin 5) (v : Fin 2) (q : Fin 40) :
    ((flitCredit m r i v).nodes[q]).ins = (m.nodes[q]).ins ∧
    (∀ o' : Fin 5, ((flitCredit m r i v).nodes[q]).outs[o'] =
      if neighbour r i = some q ∧ o' = facing i then { (m.nodes[q]).outs[o'] with back := vUpd ((m.nodes[q]).outs[o']).back v (· + 1) } else (m.nodes[q]).outs[o']) ∧
    ((flitCredit m r i v).nodes[q]).iface =
      if neighbour r i = none ∧ q = r then { (m.nodes[q]).iface with back := vUpd (m.nodes[q]).iface.back v (· + 1) } else (m.nodes[q]).iface := by
  unfold flitCredit
  cases hn : neighbour r i with
  | some p =>
    have e (g : MeshNode → MeshNode) : (vUpd m.nodes p g)[q] = if q = p then g m.nodes[q] else m.nodes[q] := getElem_vUpd ..
    dsimp only
    rw [e]
    by_cases hq : q = p
    · subst hq
      refine ⟨by simp, fun o' => ?_, by simp⟩
      simp only [if_true, true_and]
      exact getElem_vUpd _ _ o' _
    · have hp : p ≠ q := Ne.symm hq
      refine ⟨by simp [hq], fun o' => ?_, by simp [hq]⟩
      simp [hq, hp]
  | none =>
    have e (g : MeshNode → MeshNode) : (vUpd m.nodes r g)[q] = if q = r then g m.nodes[q] else m.nodes[q] := getElem_vUpd ..
    dsimp only
    rw [e]
    by_cases hq : q = r
    · refine ⟨by simp [hq], fun o' => by simp [hq], by simp [hq]⟩
    · refine ⟨by simp [hq], fun o' => by simp [hq], by simp [hq]⟩

theorem flow_back (p : MeshPort) (v v' : Fin 2) : flow { p with back := vUpd p.back v (· + 1) } v' = flow p v' + if v' = v then 1 else 0 := by
  have hb : (vUpd p.back v (· + 1))[v'] = if v' = v then p.back[v'] + 1 else p.back[v'] := getElem_vUpd ..
  show p.credit[v'] + onWire p v' + (vUpd p.back v (· + 1))[v'] = p.credit[v'] + onWire p v' + p.back[v'] + _
  rw [hb]
  split <;> omega

theorem outFlow_flitCredit (q : Fin 40) (o' : Fin 5) (v' : Fin 2) : outFlow (flitCredit m r i v) q o' v' =
    outFlow m q o' v' + if neighbour r i = some q ∧ o' = facing i ∧ v' = v then 1 else 0 := by
  rw [outFlow, (flitCredit_parts m r i v q).2.1, outFlow]
  by_cases h : neighbour r i = some q ∧ o' = facing i
  · rw [if_pos h, flow_back]
    simp [h]
  · rw [if_neg h, if_neg (fun h' => h ⟨h'.1, h'.2.1⟩), Nat.add_zero]

theorem ifaceFlow_flitCredit (q : Fin 40) (v' : Fin 2) : ifaceFlow (flitCredit m r i v) q v' =
    ifaceFlow m q v' + if neighbour r i = none ∧ q = r ∧ v' = v then 1 else 0 := by
  rw [ifaceFlow, (flitCredit_parts m r i v q).2.2, ifaceFlow]
  by_cases h : neighbour r i = none ∧ q = r
  · rw [if_pos h, flow_back]
    simp [h]
  · rw [if_neg h, if_neg (fun h' => h ⟨h'.1, h'.2.1⟩), Nat.add_zero]

theorem heldIn_flitCredit (q : Fin 40) (i' : Fin 5) (v' : Fin 2) : heldIn (flitCredit m r i v) q i' v' = heldIn m q i' v' := by
  rw [heldIn, (flitCredit_parts m r i v q).1, heldIn]

/-- With no flit on its link, an output's flit leaves the credits as they are. -/
theorem outFlow_flitLeaves (hw : ((m.nodes[r]).outs[o]).wire = none) (hc : ((m.nodes[r]).outs[o]).credit[v] ≠ 0) (q : Fin 40) (o' : Fin 5) (v' : Fin 2) :
    outFlow (flitLeaves m r o i v f rest w) q o' v' = outFlow m q o' v' := by
  rw [outFlow, outs_flitLeaves, outFlow]
  split
  next h =>
    obtain ⟨rfl, rfl⟩ := h
    exact flow_portSends hw hc v'
  next => rfl

theorem creditsKept_outputSends (hm : creditsKept m) (hw : ((m.nodes[r]).outs[o]).wire = none) : creditsKept (outputSends r m o) := by
  rcases outputSends_cases r m o with h | ⟨v, i, f, rest, w, ⟨hc, hf⟩, h⟩ <;> rw [h]
  · exact hm
  rw [creditsKept_iff] at hm ⊢
  obtain ⟨h1, h2, h3, h4⟩ := hm
  have held (q : Fin 40) (i' : Fin 5) (v' : Fin 2) := heldIn_flitLeaves (o := o) (w := w) hf q i' v'
  refine ⟨fun r' v' i' q hq => ?_, fun r' v' i' hi hn => ?_, fun r' v' => ?_, fun r' v' => ?_⟩
  · have hb := h1 r' v' i' q hq
    have hh := held r' i' v'
    have he : (neighbour r i = some q ∧ facing i' = facing i ∧ v' = v) ↔ r' = r ∧ i' = i ∧ v' = v := by
      constructor
      · rintro ⟨hn, hi, hv⟩
        obtain rfl := facing_inj hi
        exact ⟨neighbour_inj hq hn, rfl, hv⟩
      · rintro ⟨rfl, rfl, hv⟩
        exact ⟨hq, rfl, hv⟩
    rw [outFlow_flitCredit, outFlow_flitLeaves hw hc, heldIn_flitCredit]
    simp only [he]
    omega
  · have hz := h2 r' v' i' hi hn
    have hh := held r' i' v'
    rw [heldIn_flitCredit]
    omega
  · have hb := h3 r' v'
    have hh := held r' 4 v'
    rw [ifaceFlow_flitCredit, heldIn_flitCredit]
    have hi : ifaceFlow (flitLeaves m r o i v f rest w) r' v' = ifaceFlow m r' v' := by rw [ifaceFlow, iface_flitLeaves, ifaceFlow]
    have he : (neighbour r i = none ∧ r' = r ∧ v' = v) ↔ r' = r ∧ (4 : Fin 5) = i ∧ v' = v := by
      constructor
      · rintro ⟨hn, hr, hv⟩
        refine ⟨hr, ?_, hv⟩
        by_contra hi
        have hz := h2 r v i (Ne.symm hi) hn
        rw [heldIn, hf] at hz
        exact nomatch hz
      · rintro ⟨hr, rfl, hv⟩
        exact ⟨neighbour_four r, hr, hv⟩
    rw [hi]
    simp only [he]
    omega
  · rw [outFlow_flitCredit, outFlow_flitLeaves hw hc, h4, if_neg]
    rintro ⟨hn, hi, _⟩
    rw [facing_eq_four hi.symm, neighbour_four] at hn
    exact nomatch hn

/-- An output's clock puts a flit on no other link. -/
theorem wires_outputSends (r : Fin 40) (m : Mesh) (o : Fin 5) (q : Fin 40) : ((outputSends r m o).nodes[q]).iface.wire = (m.nodes[q]).iface.wire ∧
    ∀ o' : Fin 5, ¬ (q = r ∧ o' = o) → (((outputSends r m o).nodes[q]).outs[o']).wire = ((m.nodes[q]).outs[o']).wire := by
  rcases outputSends_cases r m o with h | ⟨v, i, f, rest, w, _, h⟩ <;> rw [h]
  · exact ⟨rfl, fun _ _ => rfl⟩
  obtain ⟨_, ho, hi⟩ := flitCredit_parts (flitLeaves m r o i v f rest w) r i v q
  refine ⟨?_, fun o' hne => ?_⟩
  · rw [hi, ← iface_flitLeaves (m := m) (r := r) (o := o) (i := i) (v := v) (f := f) (rest := rest) (w := w)]
    split <;> rfl
  · rw [ho]
    have e : ((flitLeaves m r o i v f rest w).nodes[q]).outs[o'] = (m.nodes[q]).outs[o'] := by rw [outs_flitLeaves, if_neg hne]
    rw [← e]
    split <;> rfl

/-- The credits are kept, and no flit is on the links of the routers of `l`. -/
def KeptFree (l : List (Fin 40)) (m : Mesh) : Prop :=
  creditsKept m ∧ ∀ q ∈ l, LinksFree m.nodes[q]

/-- The outputs of a router send one after the other. -/
theorem outputsSend (r : Fin 40) (l : List (Fin 5)) (hl : l.Nodup) (m : Mesh) (hm : creditsKept m) (hw : ∀ o ∈ l, ((m.nodes[r]).outs[o]).wire = none) :
    creditsKept (l.foldl (outputSends r) m) ∧ ∀ q : Fin 40, ((l.foldl (outputSends r) m).nodes[q]).iface.wire = (m.nodes[q]).iface.wire ∧
      (q ≠ r → ∀ o : Fin 5, (((l.foldl (outputSends r) m).nodes[q]).outs[o]).wire = ((m.nodes[q]).outs[o]).wire) := by
  induction l generalizing m with
  | nil => exact ⟨hm, fun _ => ⟨rfl, fun _ _ => rfl⟩⟩
  | cons o l ih =>
    obtain ⟨ho, hl⟩ := List.nodup_cons.1 hl
    have hw' : ∀ o' ∈ l, (((outputSends r m o).nodes[r]).outs[o']).wire = none := fun o' ho' => by
      rw [(wires_outputSends r m o r).2 o' fun h => ho (h.2 ▸ ho')]
      exact hw o' (List.mem_cons_of_mem _ ho')
    obtain ⟨hk, hwires⟩ := ih hl _ (creditsKept_outputSends hm (hw o (List.mem_cons_self ..))) hw'
    refine ⟨hk, fun q => ?_⟩
    obtain ⟨h1, h2⟩ := hwires q
    obtain ⟨h1', h2'⟩ := wires_outputSends r m o q
    exact ⟨h1.trans h1', fun hq o' => (h2 hq o').trans (h2' o' fun h => hq h.1)⟩

theorem channelServed_has {req resp : Bool} {n : Nat} {v : Fin 2} (h : channelServed req resp n = some v) : (if v = 0 then req else resp) = true := by
  unfold channelServed at h
  split at h
  next hr =>
    obtain rfl := Option.some.inj h
    simp only [Bool.and_eq_true] at hr
    exact hr.1
  next =>
    split at h
    next hr =>
      obtain rfl := Option.some.inj h
      exact hr
    next => exact nomatch h

theorem ifaceSends_parts (n : MeshNode) (hw : n.iface.wire = none) : (ifaceSends n).ins = n.ins ∧ (ifaceSends n).outs = n.outs ∧
    ∀ v, flow (ifaceSends n).iface v = flow n.iface v := by
  unfold ifaceSends
  dsimp only
  split
  · exact ⟨rfl, rfl, fun _ => rfl⟩
  next v hv =>
    split
    · exact ⟨rfl, rfl, fun _ => rfl⟩
    · refine ⟨rfl, rfl, fun v' => flow_portSends hw ?_ v'⟩
      have hc := channelServed_has hv
      by_cases h0 : v = 0
      · subst h0
        simp at hc
        exact hc.1
      · have h1 : v = 1 := by omega
        subst h1
        simp at hc
        exact hc.1

theorem creditsKept_ifaceSends (hm : creditsKept m) (hw : (m.nodes[r]).iface.wire = none) : creditsKept { m with nodes := vUpd m.nodes r ifaceSends } := by
  rw [creditsKept_iff] at hm ⊢
  obtain ⟨hins, houts, hiface⟩ := ifaceSends_parts _ hw
  have e (q : Fin 40) : ({ m with nodes := vUpd m.nodes r ifaceSends } : Mesh).nodes[q] = if q = r then ifaceSends m.nodes[q] else m.nodes[q] := getElem_vUpd ..
  have ho : outFlow { m with nodes := vUpd m.nodes r ifaceSends } = outFlow m := by
    funext q o v
    rw [outFlow, e, outFlow]
    by_cases h : q = r
    · subst h; rw [if_pos rfl, houts]
    · rw [if_neg h]
  have hi : ifaceFlow { m with nodes := vUpd m.nodes r ifaceSends } = ifaceFlow m := by
    funext q v
    rw [ifaceFlow, e, ifaceFlow]
    by_cases h : q = r
    · subst h; rw [if_pos rfl, hiface]
    · rw [if_neg h]
  have hh : heldIn { m with nodes := vUpd m.nodes r ifaceSends } = heldIn m := by
    funext q i v
    rw [heldIn, e, heldIn]
    by_cases h : q = r
    · subst h; rw [if_pos rfl, hins]
    · rw [if_neg h]
  rwa [ho, hi, hh]

/-- A router's turn in the second half of a clock. -/
def routerSends (m : Mesh) (r : Fin 40) : Mesh :=
  { (List.finRange 5).foldl (outputSends r) m with nodes := vUpd ((List.finRange 5).foldl (outputSends r) m).nodes r ifaceSends }

theorem keptFree_routerSends {l : List (Fin 40)} (hl : r ∉ l) (h : KeptFree (r :: l) m) : KeptFree l (routerSends m r) := by
  obtain ⟨hm, hf⟩ := h
  obtain ⟨hi, ho⟩ := hf r (List.mem_cons_self ..)
  obtain ⟨hk, hwires⟩ := outputsSend r (List.finRange 5) (List.nodup_finRange 5) m hm fun o _ => ho o
  refine ⟨creditsKept_ifaceSends hk ((hwires r).1.trans hi), fun q hq => ?_⟩
  have hne : q ≠ r := fun e => hl (e ▸ hq)
  have e : (routerSends m r).nodes[q] = ((List.finRange 5).foldl (outputSends r) m).nodes[q] := (getElem_vUpd ..).trans (if_neg hne)
  obtain ⟨hiq, hoq⟩ := hf q (List.mem_cons_of_mem _ hq)
  obtain ⟨h1, h2⟩ := hwires q
  rw [e]
  exact ⟨h1.trans hiq, fun o => (h2 hne o).trans (hoq o)⟩

theorem creditsKept_meshSends (h : KeptFree (List.finRange 40) m) : creditsKept (meshSends m) := by
  have turns (l : List (Fin 40)) (hl : l.Nodup) (m : Mesh) (h : KeptFree l m) : KeptFree [] (l.foldl routerSends m) := by
    induction l generalizing m with
    | nil => exact h
    | cons r l ih =>
      obtain ⟨hr, hl⟩ := List.nodup_cons.1 hl
      rw [List.foldl_cons]
      exact ih hl (routerSends m r) (keptFree_routerSends hr h)
  obtain ⟨hk, _⟩ := turns _ (List.nodup_finRange 40) m h
  exact hk

end

theorem sameLinks_arrivals (s : State) : SameLinks s.mesh ((List.finRange 40).foldl nodeArrives s).mesh :=
  List.foldlRecOn (motive := fun t : State => SameLinks s.mesh t.mesh) _ _ (.refl _) fun t ht r _ => ht.trans (sameLinks_nodeArrives t r)

theorem SameLinks.keptFree {m m' : Mesh} {l : List (Fin 40)} (h : SameLinks m m') (hm : KeptFree l m) : KeptFree l m' := by
  obtain ⟨hk, hf⟩ := hm
  refine ⟨h.creditsKept hk, fun q hq => ?_⟩
  obtain ⟨_, ho, hi⟩ := h q
  obtain ⟨hi', ho'⟩ := hf q hq
  refine ⟨by rw [hi, hi'], fun o => ?_⟩
  rw [ho]
  exact ho' o

theorem mesh_meshClock (s : State) : (meshClock s).mesh = meshSends ((List.finRange 40).foldl nodeArrives { s with mesh := meshLands s.mesh }).mesh := by
  unfold meshClock
  dsimp only

theorem keptFree_meshLands {m : Mesh} (h : creditsKept m) (l : List (Fin 40)) : KeptFree l (meshLands m) :=
  And.intro (creditsKept_meshLands h) fun q _ => linksFree_meshLands m q

/-- A clock of the network keeps the credits of every link and channel. -/
theorem creditsKept_meshClock (s : State) (h : creditsKept s.mesh) : creditsKept (meshClock s).mesh := by
  rw [mesh_meshClock]
  have arrived : SameLinks (meshLands s.mesh) ((List.finRange 40).foldl nodeArrives { s with mesh := meshLands s.mesh }).mesh :=
    sameLinks_arrivals { s with mesh := meshLands s.mesh }
  exact creditsKept_meshSends (arrived.keptFree (keptFree_meshLands h _))

end Sys2Proof.Machine
end

section
/-! PROOFS. Packets at routers and interfaces: how a router's link takes a packet, and what an interface does with one (R22, R23, R28 to R31). -/

namespace Sys2Proof.Machine

open Says

section
variable {s : State} {p : Packet} {r : Fin 40}

/-! A packet comes over a link (R30). -/

theorem linkWord_of_good {w : CodedWord} {a : Nat} (h : eccDecode w a = .good) : linkWord w a = (w, false, false) := by
  simp only [linkWord, h]

theorem linkWord_of_uncorrectable {w : CodedWord} {a : Nat} (h : eccDecode w a = .uncorrectable) : linkWord w a = (eccEncode w.data a true, false, true) := by
  simp only [linkWord, h]

/-- Header words that arrive as they were sent. -/
def headSound (p : Packet) : Prop := ∀ i : Fin 4, eccDecode p.head[i] 0 = .good

theorem linkHead_of_sound (h : headSound p) : linkHead p = p.head.toList.map fun w => (w, false, false) := by
  refine List.map_congr_left fun w hw => linkWord_of_good ?_
  obtain ⟨i, hi, rfl⟩ := Vector.getElem_of_mem (Vector.mem_toList_iff.1 hw)
  exact h ⟨i, hi⟩

theorem headArrives_of_sound (h : headSound p) : headArrives p = p := by
  obtain ⟨head, payload⟩ := p
  have hw (i : Fin 4) : ((linkHead ⟨head, payload⟩).getD i.val (⟨0, 0⟩, false, false)).1 = head[i] := by
    rw [linkHead_of_sound h]
    simp [List.getD_eq_getElem?_getD, i.isLt]
  unfold headArrives
  dsimp only
  congr 1
  refine Vector.ext fun i hi => ?_
  match i, hi with
  | 0, _ => exact hw 0
  | 1, _ => exact hw 1
  | 2, _ => exact hw 2
  | 3, _ => exact hw 3

theorem filter_plain (l : List CodedWord) {f : CodedWord × Bool × Bool → Bool} (hf : ∀ w, f (w, false, false) = false) :
    (l.map fun w => (w, false, false)).filter f = [] := by
  simp [List.filter_eq_nil_iff, hf]

/-- What a router does with a packet whose header is sound, by what its link makes of the payload's words. -/
def routerTakes (s : State) (r : Fin 40) (p : Packet) (body : List (CodedWord × Bool × Bool)) : State :=
  let t := (List.range (body.filter fun w => w.2.2).length).foldl (fun s _ => raise s 0 (routerRegion r.val) 0x3F8 0xFF 0xFF 0)
    { s with linkCorrected := vUpd s.linkCorrected r fun x => x + (body.filter fun w => w.2.1).length }
  if !opcodeListed (pOpcode p) then raise t 1 (routerRegion r.val) 0x3F9 0xFF 0xFF 0
  else
    let u := if answered (pOpcode p) then setTags t (pSrc p) fun l => l ++ [pTag p] else t
    meshSend u r { p with payload := body.map fun w => w.1 } (routerFor u (pDst p).val (pAddr p))

theorem nocRouter_of_sound (h : headSound p) : nocRouter s r p =
    if !packetOk p then s
    else if pOpcode p < 5 && (!serves s (pSrc p).val || (answered (pOpcode p) && tagTaken s (pSrc p) (pTag p))) then s
    else routerTakes s r p (linkWords p) := by
  unfold nocRouter
  dsimp only
  rw [headArrives_of_sound h, linkHead_of_sound h]
  simp only [List.filter_append, filter_plain p.head.toList (f := fun w => w.2.1) fun _ => rfl, filter_plain p.head.toList (f := fun w => w.2.2) fun _ => rfl, List.nil_append]
  rfl

theorem nocRouter_of_refused (h : headSound p) (ha : ¬ packetAdmitted s p) : nocRouter s r p = s := by
  rw [nocRouter_of_sound h]
  split
  · rfl
  next hk =>
    refine if_pos ?_
    by_contra hc
    refine ha ⟨by simpa using hk, fun h5 => ?_⟩
    have h5' : pOpcode p < 5 := h5
    simpa [h5', answered, Nat.lt_succ_iff] using hc

theorem nocRouter_of_admitted (h : headSound p) (ha : packetAdmitted s p) : nocRouter s r p = routerTakes s r p (linkWords p) := by
  obtain ⟨hk, hs⟩ := ha
  rw [nocRouter_of_sound h, if_neg (by simp [hk]), if_neg]
  intro hc
  simp only [Bool.and_eq_true, decide_eq_true_eq, Bool.or_eq_true, Bool.not_eq_true', answered] at hc
  obtain ⟨h5, hc⟩ := hc
  obtain ⟨hs, ht⟩ := hs h5
  rcases hc with hc | ⟨h2, hc⟩
  · rw [hs] at hc
    exact nomatch hc
  · rw [ht h2] at hc
    exact nomatch hc

/-! The payload's words. -/

theorem linkWords_of_sound (h : packetSound p) : linkWords p = p.payload.map fun w => (w, false, false) := by
  have e : linkWords p = p.payload.zipIdx.map ((fun w => (w, false, false)) ∘ Prod.fst) := List.map_congr_left fun e he => linkWord_of_good (h.2 e he)
  rw [e, ← List.map_map, List.zipIdx_map_fst]

theorem vUpd_add_zero (v : Vector Nat 40) (r : Fin 40) : (vUpd v r fun x => x + 0) = v := by simp [vUpd]

theorem packetGoes_eq (s : State) (r : Fin 40) (p : Packet) : packetGoes s r p =
    let u := if answered (pOpcode p) then setTags s (pSrc p) fun l => l ++ [pTag p] else s
    meshSend u r p (routerFor u (pDst p).val (pAddr p)) := by
  unfold packetGoes answered
  by_cases h : pOpcode p < 2
  · simp only [h, if_true, decide_true]
    rfl
  · simp only [h, if_false, decide_false, Bool.false_eq_true]

/-- A sound packet leaves the router as it came, one with an unlisted opcode is discarded. -/
theorem routerTakes_sound (l : List CodedWord) : routerTakes s r p (l.map fun w => (w, false, false)) =
    if !opcodeListed (pOpcode p) then raise s 1 (routerRegion r.val) 0x3F9 0xFF 0xFF 0 else packetGoes s r { p with payload := l } := by
  have fst : (l.map fun w => (w, false, false)).map (fun w : CodedWord × Bool × Bool => w.1) = l := by simp [Function.comp_def]
  unfold routerTakes
  rw [filter_plain l fun _ => rfl, filter_plain l fun _ => rfl, fst, List.length_nil, vUpd_add_zero, packetGoes_eq]
  rfl

/-- With word `k` beyond correction and every other good, the link marks word `k` poisoned. -/
theorem linkWords_of_oneBad {k : Nat} (hk : k < p.payload.length) (hb : eccDecode p.payload[k] (pAddr p + 8 * k) = .uncorrectable)
    (hg : ∀ e ∈ p.payload.zipIdx, e.2 ≠ k → eccDecode e.1 (pAddr p + 8 * e.2) = .good) :
    linkWords p = (p.payload.map fun w => (w, false, false)).set k (eccEncode p.payload[k].data (pAddr p + 8 * k) true, false, true) := by
  refine List.ext_getElem (by simp [linkWords]) fun j hj _ => ?_
  have hj' : j < p.payload.length := by simpa [linkWords] using hj
  rw [List.getElem_set]
  simp only [linkWords, List.getElem_map, List.getElem_zipIdx, Nat.zero_add]
  split
  next h =>
    subst h
    exact linkWord_of_uncorrectable hb
  next h => exact linkWord_of_good (hg (p.payload[j], j) (List.mem_zipIdx_iff_getElem?.2 (List.getElem?_eq_getElem hj')) (Ne.symm h))

theorem routerTakes_oneBad {k : Nat} (w : CodedWord) (l : List CodedWord) (hk : k < l.length) (ho : opcodeListed (pOpcode p) = true) :
    routerTakes s r p ((l.map fun w => (w, false, false)).set k (w, false, true)) =
      packetGoes (raise s 0 (routerRegion r.val) 0x3F8 0xFF 0xFF 0) r { p with payload := l.set k w } := by
  have fst : ((l.map fun w => (w, false, false)).set k (w, false, true)).map (fun w : CodedWord × Bool × Bool => w.1) = l.set k w := by
    rw [List.map_set]
    simp [Function.comp_def]
  have corrected : ((l.map fun w => (w, false, false)).set k (w, false, true)).filter (fun w => w.2.1) = [] := by
    refine List.filter_eq_nil_iff.2 fun x hx => ?_
    rcases List.mem_or_eq_of_mem_set hx with h | h
    · obtain ⟨y, _, rfl⟩ := List.mem_map.1 h
      simp
    · simp [h]
  have beyond : (((l.map fun w => (w, false, false)).set k (w, false, true)).filter (fun w => w.2.2)).length = 1 := by
    rw [← List.countP_eq_length_filter, List.countP_set (by simpa using hk), List.countP_eq_length_filter, filter_plain l fun _ => rfl]
    simp
  unfold routerTakes
  rw [corrected, beyond, fst, List.length_nil, vUpd_add_zero, packetGoes_eq, if_neg (by simp [ho])]
  rfl

end

section
variable {s : State} {p : Packet} {r : Fin 16}

/-! An interface consumes a packet (R28 to R31). -/

theorem nocIface_of_younger (h : oldestFrom s r p ≠ some (r, p)) : nocIface s r p = s := if_pos (by simpa using h)

/-- The packet is gone from the interface. -/
def packetGone (r : Fin 16) (p : Packet) (t : State) : State := { t with net := t.net.erase (r, p) }

theorem nocIface_of_oldest (h : oldestFrom s r p = some (r, p)) : nocIface s r p =
    if 5 ≤ pOpcode p then packetGone r p (setTags s r fun l => l.erase (pTag p))
    else if answered (pOpcode p) && addrUnmapped s (pAddr p) then
      answer (packetGone r p s) r.val (pSrc p) (BitVec.ofNat 8 (pTag p)) (okOpcode (pOpcode p)) 3 (pAddr p) []
    else if pOpcode p = 3 && r = 0 then eventArrives (packetGone r p s) (pEvent p)
    else if 8 ≤ r.val && r.val < 12 && pOpcode p < 3 && pAddr p < dramTop s then
      (if (dramPacket s p).2 then packetGone r p (dramPacket s p).1 else (dramPacket s p).1)
    else packetGone r p s := if_neg (by simp [h])

theorem nocIface_response (h : oldestFrom s r p = some (r, p)) (ho : 5 ≤ pOpcode p) : nocIface s r p =
    packetGone r p (setTags s r fun l => l.erase (pTag p)) := by
  rw [nocIface_of_oldest h, if_pos ho]

theorem nocIface_unmapped (h : oldestFrom s r p = some (r, p)) (ho : pOpcode p < 2) (hu : addrUnmapped s (pAddr p) = true) : nocIface s r p =
    respond (packetGone r p s) r.val (pSrc p) (BitVec.ofNat 8 (pTag p)) 0xA 3 (pAddr p) [] := by
  rw [nocIface_of_oldest h, if_neg (by omega), if_pos (by simp [answered, ho, hu])]
  exact if_neg (by decide)

theorem nocIface_event (h : oldestFrom s r p = some (r, p)) (ho : pOpcode p = 3) (hr : r = 0) : nocIface s r p = eventArrives (packetGone r p s) (pEvent p) := by
  rw [nocIface_of_oldest h, if_neg (by omega), if_neg (by simp [answered, ho]), if_pos (by simp [ho, hr])]

theorem nocIface_doorbell (h : oldestFrom s r p = some (r, p)) (ho : pOpcode p = 4) : nocIface s r p = packetGone r p s := by
  rw [nocIface_of_oldest h, if_neg (by omega), if_neg (by simp [answered, ho]), if_neg (by simp [ho]), if_neg (by simp [ho])]

theorem dramPacket_read {req : LineReq} {place : DramPlace} (ho : pOpcode p = 0) (hq : packetReq p = some req) (hm : mapAddr s (pAddr p) = some place)
    (hl : (s.dram.ch[readChan s place]).readQ.length < 64) : dramPacket s p = (dramRead s req [], true) := by
  have hc : ¬ ((decide (64 ≤ (s.dram.ch[readChan s place]).readQ.length) && !(s.dram.ch[readChan s place]).readQ.contains req && dramUp s) = true) := by
    rw [decide_eq_false (by omega)]
    simp
  unfold dramPacket
  rw [hq]
  dsimp only
  rw [if_pos ho, hm]
  exact if_neg hc

theorem nocIface_read {req : LineReq} {place : DramPlace} (h : oldestFrom s r p = some (r, p)) (h8 : 8 ≤ r.val) (h12 : r.val < 12) (ho : pOpcode p = 0)
    (hq : packetReq p = some req) (hm : mapAddr s (pAddr p) = some place) (ht : pAddr p < dramTop s)
    (hl : (s.dram.ch[readChan s place]).readQ.length < 64) : nocIface s r p = packetGone r p (dramRead s req []) := by
  have hu : addrUnmapped s (pAddr p) = false := by simp [addrUnmapped, ht]
  rw [nocIface_of_oldest h, if_neg (by omega), if_neg (by simp [hu]), if_neg (by simp [ho]), if_pos (by simp [h8, h12, ho, ht]), dramPacket_read ho hq hm hl]
  rfl

end

end Sys2Proof.Machine
end

section
/-! PROOFS. DRAM comes into service and leaves it: bring-up, training, initialisation, refresh, temperature and drift (R246, R250, R260 to R263, R269, R550). -/

namespace Sys2Proof.Machine

open Says

section
variable {r s t : State}

theorem getF_congr {k lo n : Nat} (h : readReg t k = readReg s k) : getF t k lo n = getF s k lo n := by rw [getF, getF, h]

theorem getF_setF_other (s : State) {k a : Nat} (lo n v lo' n' : Nat) (h : a ≠ k) : getF (setF s k lo n v) a lo' n' = getF s a lo' n' :=
  getF_congr (readReg_setF_ne s lo n v h)

theorem getF_raise (s : State) (a b c d e g k lo n : Nat) : getF (raise s a b c d e g) k lo n = getF s k lo n :=
  getF_congr (congrArg (smRead regReset · k) (raise_regs ..))

/-! DRAM leaves service (R269). -/

theorem readReg_channelQuarantine (s : State) (c : Fin 32) (k : Nat) : readReg (channelQuarantine s c) k = readReg s k := by
  unfold channelQuarantine
  dsimp only
  split
  · rfl
  · exact congrArg (smRead regReset · k) (raise_regs ..)

theorem isQuarantined_channelQuarantine (s : State) (c : Fin 32) : isQuarantined (channelQuarantine s c) (8 + c.val / 8) (c.val % 8) = true := by
  unfold channelQuarantine
  dsimp only
  split
  next h => exact h
  · rw [isQuarantined, raise_quarantined]
    simp

theorem mem_channelQuarantine (s : State) (c : Fin 32) : (channelQuarantine s c).mem = s.mem := by
  unfold channelQuarantine
  dsimp only
  split
  · rfl
  · exact raise_mem ..

theorem wantPewter_frame (s : State) (k : Nat) : (wantPewter s k).regs = s.regs ∧ (wantPewter s k).mem = s.mem ∧ (wantPewter s k).quarantined = s.quarantined := by
  unfold wantPewter
  split <;> exact ⟨rfl, rfl, rfl⟩

/-- The state in which DRAM is out of service, but for its event. -/
def outStated (s : State) (c : Fin 32) : State :=
  let t := setF (channelQuarantine s c) bxtStatus 30 2 3
  wantPewter { t with dram := { t.dram with bringing := false } } 2

theorem dramOutOfService_eq (s : State) (c : Fin 32) (why : Nat) (h : getF s bxtStatus 30 2 ≠ 3) : dramOutOfService s c why =
    raise (outStated s c) 3 (8 + c.val / 8) 0x114 (c.val % 8) 0xFF (c.val % 8 + 16 * why) :=
  if_neg (by rwa [getF_congr (readReg_channelQuarantine s c _)])

theorem outStated_frame (s : State) (c : Fin 32) : getF (outStated s c) bxtStatus 30 2 = 3 ∧ (outStated s c).mem = s.mem ∧
    (outStated s c).quarantined = (channelQuarantine s c).quarantined := by
  unfold outStated
  dsimp only
  obtain ⟨hr, hm, hq⟩ := wantPewter_frame { setF (channelQuarantine s c) bxtStatus 30 2 3 with
    dram := { (setF (channelQuarantine s c) bxtStatus 30 2 3).dram with bringing := false } } 2
  refine ⟨?_, ?_, ?_⟩
  · rw [getF_congr (congrArg (smRead regReset · bxtStatus) hr)]
    exact getF_setF (channelQuarantine s c) bxtStatus 3 (by decide)
  · rw [hm]
    exact mem_channelQuarantine s c
  · rw [hq]
    rfl

theorem outStated_dram (s : State) (c : Fin 32) : (outStated s c).dram = { (channelQuarantine s c).dram with bringing := false } := by
  unfold outStated wantPewter
  dsimp only
  split <;> rfl

/-- Leaving service: the state, the quarantine, the event and the memory as before. -/
theorem leftService_dramOutOfService (s : State) (c : Fin 32) (why : Nat) (h : getF s bxtStatus 30 2 ≠ 3) : leftService s (dramOutOfService s c why) c why := by
  obtain ⟨hs, hm, hq⟩ := outStated_frame s c
  rw [dramOutOfService_eq s c why h]
  have hst : getF (raise (outStated s c) 3 (8 + c.val / 8) 0x114 (c.val % 8) 0xFF (c.val % 8 + 16 * why)) bxtStatus 30 2 = 3 := (getF_raise ..).trans hs
  refine ⟨hst, by simp [dramUp, hst], ?_, (raise_mem ..).trans hm, tells_raise ..⟩
  rw [isQuarantined, raise_quarantined, hq]
  exact isQuarantined_channelQuarantine s c

/-! Training and initialisation (R246, R263, R550). -/

theorem trainOk_iff (res : TrainResult) : trainOk res = true ↔
    res.steps = [.zq, .ca, .wck2ck, .readDq, .writeDq] ∧ (∀ e ∈ res.dqEyes, 250 ≤ e) ∧ (∀ e ∈ res.caEyes, 300 ≤ e) ∧ res.refreshManagement = false := by
  simp [trainOk, eyesOk, and_assoc]

theorem dramTrained_of_ok {ch : Fin 32} {res : TrainResult} (h : getF s bxtStatus 30 2 = 1) (ho : trainOk res = true) :
    dramTrained s ch res = setChan s ch fun c => { c with trained := true } := by
  simp [dramTrained, h, ho]

theorem leftService_dramTrained {ch : Fin 32} {res : TrainResult} (h : getF s bxtStatus 30 2 = 1) (ho : ¬ trainOk res = true) :
    leftService s (dramTrained s ch res) ch 1 := by
  have e : dramTrained s ch res = dramOutOfService s ch 1 := by simp [dramTrained, h, ho]
  rw [e]
  exact leftService_dramOutOfService s ch 1 (by omega)

theorem dramUp_of_state {v : Nat} (h : getF s bxtStatus 30 2 = v) : dramUp s = (v == 2) := by rw [dramUp, h]

/-- An operation of the panel's drivers leaves memory, registers, DRAM and the calibration unit alone. -/
def DriversOnly (r s : State) : Prop := s.mem = r.mem ∧ s.poison = r.poison ∧ s.regs = r.regs ∧ s.dram = r.dram ∧ s.calmap = r.calmap

theorem driversOnly_drvMore (s : State) (cmds : List DrvCmd) : DriversOnly s (drvMore s cmds) := by
  unfold drvMore
  refine List.foldlRecOn (motive := fun t : State => DriversOnly s t) _ _ ⟨rfl, rfl, rfl, rfl, rfl⟩ fun t ht c _ => ?_
  exact List.foldlRecOn (motive := fun t : State => DriversOnly s t) _ _ ht fun t ht g _ => ht

theorem driversOnly_drvAsk (s : State) (c : DrvCmd) : DriversOnly s (drvAsk s c) := by
  unfold drvAsk
  split
  · exact driversOnly_drvMore s [c]
  · exact ⟨rfl, rfl, rfl, rfl, rfl⟩

theorem calDramUp_frame (s : State) : (calDramUp s).mem = s.mem ∧ (calDramUp s).poison = s.poison ∧ (calDramUp s).regs = s.regs ∧ (calDramUp s).dram = s.dram ∧
    (calDramUp s).calmap.waitDram = false := by
  unfold calDramUp calFirstRead
  split
  · exact ⟨rfl, rfl, rfl, rfl, rfl⟩
  next st _ =>
    dsimp only
    split
    · exact ⟨rfl, rfl, rfl, rfl, rfl⟩
    · obtain ⟨h1, h2, h3, h4, h5⟩ := driversOnly_drvAsk (setCal (setCal s fun c => { c with waitDram := false }) fun c => { c with asked := true })
        (flashRead (setCal (setCal s fun c => { c with waitDram := false }) fun c => { c with asked := true }) 0 64)
      exact ⟨h1, h2, h3, h4, by rw [h5]; rfl⟩

/-- The state when DRAM has come into service, but for the top of DRAM. -/
def dramInService (s : State) : State :=
  setF (setF { s with mem := [], poison := [], failed := [], dram := { s.dram with bringing := false } } bxtStatus 30 2 2) bxtStatus 16 7 (32 + (slot1Channels s).length)

/-- DRAM is in service, and its top is set. -/
def dramServes (s : State) : State :=
  setReg (setReg (dramInService s) bxtTopLo (BitVec.ofNat 32 (dramTop s))) bxtTopHi (BitVec.ofNat 32 (dramTop s / 2 ^ 32))

theorem dramTop_congr (h : ∀ k, k ≠ bxtStatus → k ≠ bxtTopLo → k ≠ bxtTopHi → readReg t k = readReg s k) :
    dramTop t = dramTop s ∧ (slot1Channels t).length = (slot1Channels s).length := by
  have hc : readReg t bxtConfig = readReg s bxtConfig := h _ (by decide) (by decide) (by decide)
  have hq (q : Nat) : readReg t (bxtQuadConfig q) = readReg s (bxtQuadConfig q) := by
    refine h _ ?_ ?_ ?_ <;> simp only [bxtQuadConfig, bxtStatus, bxtTopLo, bxtTopHi] <;> omega
  have hrows : dataRows t = dataRows s := by rw [dataRows, dataRows, getB, getB, hc]
  have hspare (q : Nat) : spareOf t q = spareOf s q := by rw [spareOf, spareOf, getB, getB, hq]
  have hslot : slot1Channels t = slot1Channels s := by simp only [slot1Channels, hspare]
  exact ⟨by rw [dramTop, dramTop, linesPerRank, linesPerRank, hrows, hslot], by rw [hslot]⟩

theorem dramInitDone_eq (h : getF s bxtStatus 30 2 = 1) (ht : ∀ ch : Fin 32, (s.dram.ch[ch]).trained = true) : dramInitDone s = dramServes s := by
  have hall : (s.dram.ch.toList.all fun c => c.trained) = true := by
    refine List.all_eq_true.2 fun c hc => ?_
    obtain ⟨i, hi, rfl⟩ := Vector.getElem_of_mem (Vector.mem_toList_iff.1 hc)
    exact ht ⟨i, hi⟩
  unfold dramInitDone
  rw [if_neg (by simp [h, hall])]
  dsimp only
  have hs : (slot1Channels (setF { s with mem := [], poison := [], failed := [], dram := { s.dram with bringing := false } } bxtStatus 30 2 2)).length =
      (slot1Channels s).length := (dramTop_congr fun k h1 _ _ => readReg_setF_ne _ _ _ _ h1).2
  rw [hs, ← dramInService]
  have hd : dramTop (dramInService s) = dramTop s :=
    (dramTop_congr fun k h1 _ _ => (readReg_setF_ne _ _ _ _ h1).trans (readReg_setF_ne _ _ _ _ h1)).1
  rw [hd]
  rfl

theorem state_dramServes (s : State) : getF (dramServes s) bxtStatus 30 2 = 2 := by
  unfold dramServes
  rw [getF_congr ((readReg_setReg_ne _ _ (by decide)).trans (readReg_setReg_ne _ _ (by decide))), dramInService, getF_setF_ne _ _ _ (by decide) (by decide)]
  exact getF_setF _ _ _ (by decide)

theorem readReg_dramServes_other (s : State) {k : Nat} (h1 : k ≠ bxtStatus) (h2 : k ≠ bxtTopLo) (h3 : k ≠ bxtTopHi) :
    readReg (dramServes s) k = readReg s k := by
  unfold dramServes dramInService
  exact (readReg_setReg_ne _ _ h3).trans ((readReg_setReg_ne _ _ h2).trans ((readReg_setF_ne _ _ _ _ h1).trans (readReg_setF_ne _ _ _ _ h1)))

theorem execDramInitDone_of_idle (h : getF s bxtStatus 30 2 ≠ 1 ∨ ∃ ch : Fin 32, (s.dram.ch[ch]).trained = false) : execDramInitDone s = .next s := by
  have hc : getF s bxtStatus 30 2 ≠ 1 ∨ (!(s.dram.ch.toList.all fun c => c.trained)) = true := by
    refine h.imp_right fun ⟨ch, hch⟩ => ?_
    rw [Bool.not_eq_true', List.all_eq_false]
    exact ⟨s.dram.ch[ch], Vector.mem_toList_iff.2 (Vector.getElem_mem _), by simpa using hch⟩
  have e : dramInitDone s = s := if_pos hc
  unfold execDramInitDone
  rw [e]
  simp

theorem execDramInitDone_of_trained (h : getF s bxtStatus 30 2 = 1) (ht : ∀ ch : Fin 32, (s.dram.ch[ch]).trained = true) :
    execDramInitDone s = .next (calDramUp (dramServes s)) := by
  have hu : dramUp (dramServes s) = true := by rw [dramUp_of_state (state_dramServes s)]; rfl
  have hd : dramUp s = false := by rw [dramUp_of_state h]; rfl
  unfold execDramInitDone
  rw [dramInitDone_eq h ht]
  exact congrArg Host.Outcome.next (if_pos (by simp [hu, hd]))

theorem dramServes_parts (s : State) : (dramServes s).mem = [] ∧ (dramServes s).poison = [] ∧ (dramServes s).dram.ch = s.dram.ch := ⟨rfl, rfl, rfl⟩

theorem dramInitDone_trained (h : getF s bxtStatus 30 2 = 1) (ht : ∀ ch : Fin 32, (s.dram.ch[ch]).trained = true) : ∃ t, execDramInitDone s = .next t ∧
    t.mem = [] ∧ t.poison = [] ∧ dramUp t = true ∧ dramTop t = dramTop s ∧ t.dram.ch = s.dram.ch ∧ t.calmap.waitDram = false ∧
    readReg t bxtTopLo = BitVec.ofNat 32 (dramTop s) ∧ readReg t bxtTopHi = BitVec.ofNat 32 (dramTop s / 2 ^ 32) := by
  obtain ⟨hm, hp, hr, hd, hw⟩ := calDramUp_frame (dramServes s)
  obtain ⟨hm', hp', hd'⟩ := dramServes_parts s
  have hk (k : Nat) : readReg (calDramUp (dramServes s)) k = readReg (dramServes s) k := congrArg (smRead regReset · k) hr
  refine ⟨_, execDramInitDone_of_trained h ht, hm.trans hm', hp.trans hp', ?_, ?_, by rw [hd, hd'], hw, (hk _).trans ?_, (hk _).trans ?_⟩
  · rw [dramUp_of_state ((getF_congr (hk _)).trans (state_dramServes s))]
    rfl
  · exact (dramTop_congr fun k h1 h2 h3 => (hk k).trans (readReg_dramServes_other s h1 h2 h3)).1
  · exact (readReg_setReg_ne _ _ (by decide)).trans (readReg_setReg_self ..)
  · exact readReg_setReg_self ..

/-! Refresh, temperature, drift (R260 to R263). -/

theorem refreshWindow_of_off (h : getF s bxtStatus 30 2 = 0 ∨ getF s bxtStatus 30 2 = 3) : refreshWindow s = s := if_pos h

/-- The pending band has taken effect. -/
def bandTaken (s : State) : State := match s.dram.nextBand with
  | none => s
  | some b => if b = getF s bxtStatus 24 2 then setF s bxtStatus 24 2 b
    else raise (setF s bxtStatus 24 2 b) 2 8 0x102 0xFF 0xFF (b + 4 * getF s bxtStatus 24 2)

/-- The pending phase shifts are counted. -/
def shiftsCounted (s : State) : State :=
  (List.range 32).foldl (fun s i => if (s.dram.ch[(Fin.ofNat 32 i : Fin 32)]).shift then bump s (bxtRetrains (8 + i / 8)) else s) s

theorem refreshWindow_of_on (h : getF s bxtStatus 30 2 = 1 ∨ getF s bxtStatus 30 2 = 2) : refreshWindow s =
    let t := shiftsCounted (bandTaken s)
    { t with dram := { t.dram with nextBand := none, ch := t.dram.ch.map fun c => { c with openRows := [], shift := false } } } := by
  unfold refreshWindow
  rw [if_neg (by omega)]
  unfold bandTaken shiftsCounted
  cases s.dram.nextBand with
  | none => dsimp only
  | some b => dsimp only

theorem bandTaken_frame (s : State) : (bandTaken s).dram = s.dram ∧ (bandTaken s).mem = s.mem ∧
    getF (bandTaken s) bxtStatus 24 2 = s.dram.nextBand.getD (getF s bxtStatus 24 2) % 4 := by
  unfold bandTaken
  cases hb : s.dram.nextBand with
  | none =>
    have h : getF s bxtStatus 24 2 < 4 := by
      rw [getF, fld, bitsOf]
      exact Nat.mod_lt _ (by decide)
    exact ⟨rfl, rfl, (Nat.mod_eq_of_lt h).symm⟩
  | some b =>
    dsimp only
    split
    · exact ⟨setF_dram .., setF_mem .., getF_setF _ _ _ (by decide)⟩
    · exact ⟨(raise_dram ..).trans (setF_dram ..), (raise_mem ..).trans (setF_mem ..), (getF_raise ..).trans (getF_setF _ _ _ (by decide))⟩

theorem shiftsCounted_frame (s : State) : (shiftsCounted s).dram = s.dram ∧ (shiftsCounted s).mem = s.mem ∧
    getF (shiftsCounted s) bxtStatus 24 2 = getF s bxtStatus 24 2 := by
  unfold shiftsCounted
  refine List.foldlRecOn (motive := fun t : State => t.dram = s.dram ∧ t.mem = s.mem ∧ getF t bxtStatus 24 2 = getF s bxtStatus 24 2) _ _ ⟨rfl, rfl, rfl⟩ fun t ht i _ => ?_
  obtain ⟨hd, hm, hg⟩ := ht
  have hk : bxtStatus ≠ bxtRetrains (8 + i / 8) := by
    simp only [bxtStatus, bxtRetrains]
    omega
  split
  · exact ⟨(bump_dram ..).trans hd, (bump_mem ..).trans hm, (getF_congr (readReg_bump_ne t 1 hk)).trans hg⟩
  · exact ⟨hd, hm, hg⟩

theorem refreshWindow_on (h : getF s bxtStatus 30 2 = 1 ∨ getF s bxtStatus 30 2 = 2) : (refreshWindow s).dram.nextBand = none ∧ (refreshWindow s).mem = s.mem ∧
    (∀ c : Fin 32, (refreshWindow s).dram.ch[c] = { s.dram.ch[c] with openRows := [], shift := false }) ∧
    getF (refreshWindow s) bxtStatus 24 2 = s.dram.nextBand.getD (getF s bxtStatus 24 2) % 4 := by
  obtain ⟨hd, hm, hg⟩ := bandTaken_frame s
  obtain ⟨hd', hm', hg'⟩ := shiftsCounted_frame (bandTaken s)
  rw [refreshWindow_of_on h]
  generalize shiftsCounted (bandTaken s) = t at hd' hm' hg'
  refine ⟨rfl, hm'.trans hm, fun c => ?_, hg'.trans hg⟩
  dsimp only
  rw [hd', hd]
  exact Vector.getElem_map ..

theorem wck2dqCheck_of_narrow {ch : Fin 32} {drift dq ca : Nat} (hu : dramUp s = true) (hd : 16 < drift) (he : dq < 250 ∨ ca < 300) :
    leftService s (wck2dqCheck s ch drift dq ca) ch 2 := by
  have hst : getF s bxtStatus 30 2 = 2 := by simpa [dramUp] using hu
  have hn : ¬ drift ≤ 16 := by omega
  have heye : eyesOk [dq] [ca] = false := by
    simp [eyesOk]
    omega
  have e : wck2dqCheck s ch drift dq ca = dramOutOfService s ch 2 := by simp [wck2dqCheck, hu, hn, heye]
  rw [e]
  exact leftService_dramOutOfService s ch 2 (by omega)

/-! Bring-up (R246, R250, R264, R550). -/

/-- Ranks' states set one after the other. -/
theorem rankState_foldl (q : Nat) (f : Nat → Nat) (n : Nat) (hn : n ≤ 16) (s : State) {r : Nat} (hr : r < 16) :
    rankState ((List.range n).foldl (fun s r => setRankState s q r (f r)) s) q r = if r < n then f r % 4 else rankState s q r := by
  induction n with
  | zero => simp
  | succ n ih =>
    rw [List.range_succ, List.foldl_append]
    show getF (setF _ (bxtRankState (8 + q)) (2 * n) 2 (f n)) (bxtRankState (8 + q)) (2 * r) 2 = _
    by_cases h : r = n
    · subst h
      exact (getF_setF _ _ _ (by omega)).trans (if_pos (by omega)).symm
    · rw [getF_setF_ne _ _ _ (by omega) (by omega), ← rankState, ih (by omega)]
      have e : r < n ↔ r < n + 1 := by omega
      simp only [e]

/-- Ranks' states are one register of their region. -/
theorem setRanks_kept (q : Nat) (f : Nat → Nat) (l : List Nat) (s : State) : OnlyRegs s (l.foldl (fun s r => setRankState s q r (f r)) s) ∧
    ∀ k, k ≠ bxtRankState (8 + q) → readReg (l.foldl (fun s r => setRankState s q r (f r)) s) k = readReg s k := by
  refine List.foldlRecOn (motive := fun t : State => OnlyRegs s t ∧ ∀ k, k ≠ bxtRankState (8 + q) → readReg t k = readReg s k) _ _ ⟨.refl s, fun _ _ => rfl⟩ fun t ht r _ => ?_
  obtain ⟨h1, h2⟩ := ht
  exact ⟨onlyRegs_setReg h1, fun k hk => (readReg_setF_ne t _ _ _ hk).trans (h2 k hk)⟩

/-- The slots that have moved once a quadrant's ranks are shown. -/
def shownMoved (s : State) (q : Nat) : Option Nat := match (s.dram.quad[Fin.ofNat 4 q]).moved with
  | some r => some r
  | none =>
    let gone := (List.range 16).filter fun r => isRetired s (8 + q) (r / 2) (r % 2)
    if spareOf s q && !gone.contains 15 then (gone.filter fun r => !(spareOf s q && r == 15)).head? else none

/-- The state that a quadrant's rank is shown in. -/
def shownRank (s : State) (q r : Nat) : Nat :=
  let gone := (List.range 16).filter fun r => isRetired s (8 + q) (r / 2) (r % 2)
  let data := gone.filter fun r => !(spareOf s q && r == 15)
  if spareOf s q && r == 15 then
    (if (shownMoved s q).isSome then (if gone.contains 15 then 2 else 0) else if gone.contains 15 then 1 else 3)
  else if data.contains r then (if shownMoved s q == some r then 1 else 2)
  else 0

theorem ranksShow_eq (s : State) (q : Nat) : ranksShow s q =
    (List.range 16).foldl (fun t r => setRankState t q r (shownRank s q r)) (setQuad s q fun x => { x with moved := shownMoved s q }) := by
  unfold ranksShow shownRank shownMoved
  cases (s.dram.quad[Fin.ofNat 4 q]).moved with
  | none => rfl
  | some r => rfl

/-- What the quadrants' ranks being shown leaves alone. -/
def BringKept (r s : State) : Prop := s.retired = r.retired ∧ s.power = r.power ∧ s.dram.ch = r.dram.ch ∧ s.dram.nextBand = r.dram.nextBand ∧
  s.dram.bringing = r.dram.bringing ∧ s.mem = r.mem ∧ (∀ q, readReg s (bxtQuadConfig q) = readReg r (bxtQuadConfig q)) ∧ readReg s bxtStatus = readReg r bxtStatus

theorem readReg_ranksShow (s : State) (q : Nat) {k : Nat} (hk : k ≠ bxtRankState (8 + q)) : readReg (ranksShow s q) k = readReg s k := by
  rw [ranksShow_eq]
  exact (setRanks_kept q (shownRank s q) (List.range 16) (setQuad s q fun x => { x with moved := shownMoved s q })).2 k hk

theorem bringKept_ranksShow (h : BringKept r s) (q : Nat) : BringKept r (ranksShow s q) := by
  obtain ⟨h1, h2, h3, h4, h5, h6, h7, h8⟩ := h
  have hc (n : Nat) : bxtQuadConfig n ≠ bxtRankState (8 + q) := by simp only [bxtQuadConfig, bxtRankState]; omega
  have hst : bxtStatus ≠ bxtRankState (8 + q) := by simp only [bxtStatus, bxtRankState]; omega
  have k7 (n : Nat) := (readReg_ranksShow s q (hc n)).trans (h7 n)
  have k8 := (readReg_ranksShow s q hst).trans h8
  obtain ⟨g, e⟩ := (setRanks_kept q (shownRank s q) (List.range 16) (setQuad s q fun x => { x with moved := shownMoved s q })).1
  rw [← ranksShow_eq] at e
  refine ⟨?_, ?_, ?_, ?_, ?_, ?_, k7, k8⟩
  · rw [e]; exact h1
  · rw [e]; exact h2
  · rw [e]; exact h3
  · rw [e]; exact h4
  · rw [e]; exact h5
  · rw [e]; exact h6

/-- A retired rank of data is shown as RETIRED or FAILING. -/
theorem rankState_ranksShow {q r : Nat} (hr : r < 16) (h : isRetired s (8 + q) (r / 2) (r % 2) = true) (hs : ¬ (spareOf s q = true ∧ r = 15)) :
    rankState (ranksShow s q) q r = 1 ∨ rankState (ranksShow s q) q r = 2 := by
  have hb : (spareOf s q && r == 15) = false := Bool.eq_false_iff.2 (by simpa using hs)
  have hd : (((List.range 16).filter fun r => isRetired s (8 + q) (r / 2) (r % 2)).filter fun r => !(spareOf s q && r == 15)).contains r = true :=
    List.contains_iff_mem.2 (List.mem_filter.2 ⟨List.mem_filter.2 ⟨List.mem_range.2 hr, h⟩, by rw [hb]; rfl⟩)
  have hv : shownRank s q r = 1 ∨ shownRank s q r = 2 := by
    unfold shownRank
    dsimp only
    rw [hb, if_neg (by decide), if_pos hd]
    split
    · exact .inl rfl
    · exact .inr rfl
  rw [ranksShow_eq, rankState_foldl q _ 16 (by omega) _ hr, if_pos hr]
  rcases hv with hv | hv <;> simp [hv]

theorem spareOf_congr {q : Nat} (h : readReg t (bxtQuadConfig (8 + q)) = readReg s (bxtQuadConfig (8 + q))) : spareOf t q = spareOf s q := by
  rw [spareOf, spareOf, getB, getB, h]

theorem rankState_congr {q r : Nat} (h : readReg t (bxtRankState (8 + q)) = readReg s (bxtRankState (8 + q))) : rankState t q r = rankState s q r := getF_congr h

/-- The retired ranks of data of the first `n` quadrants are shown as RETIRED or FAILING. -/
def RanksShown (r s : State) (n : Nat) : Prop := ∀ q k : Nat, q < n → k < 16 → isRetired r (8 + q) (k / 2) (k % 2) = true → ¬ (spareOf r q = true ∧ k = 15) →
  rankState s q k = 1 ∨ rankState s q k = 2

theorem ranksShown_succ {n : Nat} (hk : BringKept r s) (h : RanksShown r s n) : RanksShown r (ranksShow s n) (n + 1) := by
  intro q k hq hk' hret hs
  obtain ⟨h1, _, _, _, _, _, h7, _⟩ := hk
  by_cases hqn : q = n
  · subst hqn
    exact rankState_ranksShow hk' (by rwa [isRetired_congr h1]) (by rwa [spareOf_congr (h7 _)])
  · rw [rankState_congr (readReg_ranksShow s n (by simp only [bxtRankState]; omega))]
    exact h q k (by omega) hk' hret hs

theorem quadsShown (s : State) (n : Nat) : BringKept s ((List.range n).foldl ranksShow s) ∧ RanksShown s ((List.range n).foldl ranksShow s) n := by
  induction n with
  | zero => exact ⟨⟨rfl, rfl, rfl, rfl, rfl, rfl, fun _ => rfl, rfl⟩, fun q _ hq => absurd hq (Nat.not_lt_zero q)⟩
  | succ n ih =>
    obtain ⟨hk, hr⟩ := ih
    rw [List.range_succ, List.foldl_append, List.foldl_cons, List.foldl_nil]
    exact ⟨bringKept_ranksShow hk n, ranksShown_succ hk hr⟩

/-- A channel without a rank left quarantines itself; the ranks' states stay. -/
theorem checkChannel_kept (s : State) (c : Fin 32) : (checkChannel s c).power = s.power ∧ (checkChannel s c).dram.ch = s.dram.ch ∧
    (checkChannel s c).dram.nextBand = s.dram.nextBand ∧ (checkChannel s c).mem = s.mem ∧ (∀ k, k ≠ bxtStatus → readReg (checkChannel s c) k = readReg s k) ∧
    (s.retired = [] → checkChannel s c = s) := by
  have out : (dramOutOfService s c 3).power = s.power ∧ (dramOutOfService s c 3).dram.ch = s.dram.ch ∧
      (dramOutOfService s c 3).dram.nextBand = s.dram.nextBand ∧ (dramOutOfService s c 3).mem = s.mem ∧ ∀ k, k ≠ bxtStatus → readReg (dramOutOfService s c 3) k = readReg s k := by
    have cq : (channelQuarantine s c).power = s.power ∧ (channelQuarantine s c).dram = s.dram := by
      unfold channelQuarantine
      dsimp only
      split
      · exact ⟨rfl, rfl⟩
      · exact ⟨raise_power .., raise_dram ..⟩
    obtain ⟨cp, cd⟩ := cq
    by_cases h : getF s bxtStatus 30 2 = 3
    · have e : dramOutOfService s c 3 = channelQuarantine s c := if_pos (by rwa [getF_congr (readReg_channelQuarantine s c _)])
      rw [e, cd]
      exact ⟨cp, rfl, rfl, mem_channelQuarantine s c, fun k _ => readReg_channelQuarantine s c k⟩
    · obtain ⟨_, hm, _⟩ := outStated_frame s c
      have wp (u : State) : (wantPewter u 2).power = u.power := by
        unfold wantPewter
        split <;> rfl
      rw [dramOutOfService_eq s c 3 h]
      refine ⟨(raise_power ..).trans ((wp _).trans cp), ?_, ?_, (raise_mem ..).trans hm, fun k hk => ?_⟩
      · rw [raise_dram, outStated_dram, cd]
      · rw [raise_dram, outStated_dram, cd]
      · refine (congrArg (smRead regReset · k) ((raise_regs ..).trans (wantPewter_frame _ 2).1)).trans ?_
        exact (readReg_setF_ne (channelQuarantine s c) 30 2 3 hk).trans (readReg_channelQuarantine s c k)
  obtain ⟨h1, h2, h3, h4, h5⟩ := out
  unfold checkChannel
  dsimp only
  split
  next h =>
    refine ⟨h1, h2, h3, h4, h5, fun hr => ?_⟩
    simp [isRetired, hr] at h
  next => exact ⟨rfl, rfl, rfl, rfl, fun _ _ => rfl, fun _ => rfl⟩

theorem checkChannels_kept (s : State) (l : List (Fin 32)) : (l.foldl checkChannel s).power = s.power ∧ (l.foldl checkChannel s).dram.ch = s.dram.ch ∧
    (l.foldl checkChannel s).dram.nextBand = s.dram.nextBand ∧ (l.foldl checkChannel s).mem = s.mem ∧
    (∀ k, k ≠ bxtStatus → readReg (l.foldl checkChannel s) k = readReg s k) ∧ (s.retired = [] → l.foldl checkChannel s = s) := by
  induction l generalizing s with
  | nil => exact ⟨rfl, rfl, rfl, rfl, fun _ _ => rfl, fun _ => rfl⟩
  | cons c l ih =>
    obtain ⟨h1, h2, h3, h4, h5, h6⟩ := checkChannel_kept s c
    obtain ⟨k1, k2, k3, k4, k5, k6⟩ := ih (checkChannel s c)
    refine ⟨k1.trans h1, k2.trans h2, k3.trans h3, k4.trans h4, fun k hk => (k5 k hk).trans (h5 k hk), fun hr => ?_⟩
    have e := h6 hr
    rw [e] at k6
    exact (congrArg (l.foldl checkChannel) e).trans (k6 hr)

/-- DRAM's bring-up has begun, but for the ranks. -/
def bringBegun (s : State) : State :=
  let t := setF s bxtStatus 30 2 1
  { t with dram := { t.dram with bringing := true, bringWaits := false, ch := Vector.replicate 32 {}, nextBand := none }
           power := { t.power with dramReset := true } }

theorem bringUpNow_eq (h : getF s bxtStatus 30 2 = 0) (ha : ([8, 9, 10, 11].all fun r => serves s r) = true) : bringUpNow s =
    (List.finRange 32).foldl checkChannel ((List.range 4).foldl ranksShow (bringBegun s)) := if_pos ⟨h, ha⟩

theorem bringUpNow_begins (h : getF s bxtStatus 30 2 = 0) (ha : ([8, 9, 10, 11].all fun r => serves s r) = true) : (bringUpNow s).power.dramReset = true ∧
    (bringUpNow s).dram.ch = Vector.replicate 32 {} ∧ (bringUpNow s).dram.nextBand = none ∧ (bringUpNow s).mem = s.mem ∧
    (s.retired = [] → getF (bringUpNow s) bxtStatus 30 2 = 1 ∧ (bringUpNow s).dram.bringing = true) ∧
    ∀ q r : Nat, q < 4 → r < 16 → isRetired s (8 + q) (r / 2) (r % 2) = true → ¬ (spareOf s q = true ∧ r = 15) →
      rankState (bringUpNow s) q r = 1 ∨ rankState (bringUpNow s) q r = 2 := by
  obtain ⟨⟨h1, h2, h3, h4, h5, h6, h7, h8⟩, hr⟩ := quadsShown (bringBegun s) 4
  have hb : (bringBegun s).power.dramReset = true ∧ (bringBegun s).dram.ch = Vector.replicate 32 {} ∧ (bringBegun s).dram.nextBand = none ∧
      (bringBegun s).mem = s.mem ∧ (bringBegun s).retired = s.retired ∧ (bringBegun s).dram.bringing = true := ⟨rfl, rfl, rfl, rfl, rfl, rfl⟩
  obtain ⟨b1, b2, b3, b4, b5, b6⟩ := hb
  have hst : getF (bringBegun s) bxtStatus 30 2 = 1 := getF_setF s _ _ (by decide)
  have hsp (q : Nat) : spareOf (bringBegun s) q = spareOf s q :=
    spareOf_congr (readReg_setF_ne s _ _ _ (by simp only [bxtQuadConfig, bxtStatus]; omega))
  rw [bringUpNow_eq h ha]
  generalize bringBegun s = b at *
  generalize (List.range 4).foldl ranksShow b = t at *
  obtain ⟨k1, k2, k3, k4, k5, k6⟩ := checkChannels_kept t (List.finRange 32)
  refine ⟨by rw [k1, h2, b1], by rw [k2, h3, b2], by rw [k3, h4, b3], by rw [k4, h6, b4], fun hn => ?_, fun q r hq hr' hret hs => ?_⟩
  · rw [k6 (by rw [h1, b5, hn]), h5, b6, getF_congr h8, hst]
    exact ⟨rfl, rfl⟩
  · rw [rankState_congr (k5 _ (by simp only [bxtRankState, bxtStatus]; omega))]
    exact hr q r hq hr' (by rwa [isRetired_congr b5]) (by rwa [hsp])

theorem keyOf_bxtConfig (q : Requester) : keyOf q 8 0x100 = bxtConfig := by cases q <;> rfl

theorem bauxiteWrite_off (q : Requester) (v : Word) (h : getF s bxtStatus 30 2 = 0) : bauxiteWrite s q 8 0x100 v =
    if v.getLsbD 0 then bringUp (writeKey s bxtConfig v) else writeKey s bxtConfig v := by
  unfold bauxiteWrite
  rw [if_neg (by simpa using h), plainWrite, keyOf_bxtConfig]
  simp [flag_zero_eq_getLsbD]

theorem bringUp_early (ha : ([8, 9, 10, 11].all fun r => serves s r) = true) (h : getF s bxtStatus 30 2 = 0) (hn : s.now < s.power.dramReadyAt) :
    bringUp s = { s with dram := { s.dram with bringWaits := true } } := by
  unfold bringUp
  rw [if_neg (by omega), if_pos ⟨h, ha⟩]

theorem bringUp_ready (hn : s.power.dramReadyAt ≤ s.now) : bringUp s = bringUpNow s := if_pos hn

end

end Sys2Proof.Machine
end

section
/-! PROOFS. A DRAM channel answers and takes lines: sound reads, the merge of a write, the queues' turns (R253 to R259, R265, R268). -/

namespace Sys2Proof.Machine

open Says

section
variable {r s t : State}

/-! A sound line reads as it stands (R252 to R254). -/

theorem eccDecode_eccEncode (x : DWord) (a : Nat) : eccDecode (eccEncode x a false) a = .good := by
  simp [eccDecode, eccEncode]

theorem flipWord_zero (w : CodedWord) : flipWord w ⟨0, 0⟩ = w := by
  simp [flipWord]

theorem storedWord_of_sound {w : Nat} (h : isPoisoned s w = false) : storedWord s w = eccEncode (BitVec.ofNat 64 (readLe s (8 * w) 8)) (8 * w) false := by
  rw [storedWord, h]

theorem isPoisoned_of_lineSound {line w : Nat} (h : lineSound s line) (hw : w < 32) : isPoisoned s (line * 32 + w) = false := h _ (by omega) (by omega)

/-- No word of a list stands in a line. -/
def OutOfLine (l : List Nat) (line : Nat) : Prop := ∀ w ∈ l, w / 32 ≠ line

theorem not_contains_of_outOfLine {l : List Nat} {line w : Nat} (h : OutOfLine l line) (hw : w < 32) : l.contains (line * 32 + w) = false := by
  rw [List.contains_eq_mem, decide_eq_false_iff_not]
  intro hm
  exact h _ hm (by omega)

theorem tryLine_of_sound {line : Nat} {also : List Nat} (h : lineSound s line) (ha : OutOfLine also line) : tryLine s line also [] = ⟨0, false, [], lineWords s line⟩ := by
  have hwords : ((List.range 32).map fun w =>
      let a := line * 256 + 8 * w
      let stored := if also.contains (a / 8) then eccEncode (BitVec.ofNat 64 (readLe s a 8)) a true else storedWord s (a / 8)
      let x := flipWord stored (([] : List CodedWord).getD w ⟨0, 0⟩)
      (x.data, eccDecode x a)) = (List.range 32).map fun w => (BitVec.ofNat 64 (readLe s (line * 256 + 8 * w) 8), EccOutcome.good) := by
    refine List.map_congr_left fun w hw => ?_
    have hw := List.mem_range.1 hw
    have e : (line * 256 + 8 * w) / 8 = line * 32 + w := by omega
    have e' : 8 * (line * 32 + w) = line * 256 + 8 * w := by omega
    simp only [e, not_contains_of_outOfLine ha hw, List.getD_nil, flipWord_zero, storedWord_of_sound (isPoisoned_of_lineSound h hw), e', eccDecode_eccEncode,
      Bool.false_eq_true, if_false]
    rfl
  have hgood (w : Nat) : (((List.range 32).map fun w => (BitVec.ofNat 64 (readLe s (line * 256 + 8 * w) 8), EccOutcome.good)).getD w (0, .good)).2 = .good := by
    rw [List.getD_eq_getElem?_getD, List.getElem?_map]
    cases (List.range 32)[w]? <;> rfl
  unfold tryLine
  dsimp only
  rw [hwords]
  simp only [hgood]
  simp [lineWords]

theorem tryUpTo_of_sound {line : Nat} {also : List Nat} (merge : Bool) (h : lineSound s line) (ha : OutOfLine also line) :
    tryUpTo s line also merge 3 [] 0 = (0, 0, ⟨0, false, [], lineWords s line⟩) := by
  simp [tryUpTo, tryLine_of_sound h ha]

/-- The words that the spare alone holds poisoned. -/
def spareOnly (s : State) (q r : Nat) : List Nat := if r = 15 ∧ migRunning s q then (s.dram.quad[Fin.ofNat 4 q]).spareBad else []

/-- A sound line of a rank is read at the first attempt, and nothing else happens. -/
theorem readRank_of_sound {q r line : Nat} (src : Nat) (merge : Bool) (h : lineSound s line) (ha : OutOfLine (spareOnly s q r) line) :
    readRank s q r line src merge [] = (s, ⟨0, lineWords s line, []⟩) := by
  unfold readRank
  rw [← spareOnly]
  simp [tryUpTo_of_sound merge h ha, rankCorrected]

theorem outOfLine_spareOnly {q line : Nat} (r : Nat) (h : OutOfLine (s.dram.quad[Fin.ofNat 4 q]).spareBad line) : OutOfLine (spareOnly s q r) line := by
  unfold spareOnly
  split
  · exact h
  · exact fun _ hw => absurd hw List.not_mem_nil

theorem readPlace_of_sound {p : DramPlace} {line : Nat} (src : Nat) (merge : Bool) (h : lineSound s line) (ha : OutOfLine (s.dram.quad[Fin.ofNat 4 p.quadrant]).spareBad line) :
    readPlace s p line src merge [] = (s, ⟨0, lineWords s line, []⟩) := by
  have hr (r : Nat) := readRank_of_sound (r := r) src merge h (outOfLine_spareOnly r ha)
  unfold readPlace
  simp [hr]

/-! Where a line stands (R24, R31, R269). -/

theorem dramStatus_of_mapAddr {line : Nat} {p : DramPlace} (h : mapAddr s (line * 256) = some p) : dramStatus s (line * 256) 256 = if dramUp s then 0 else 2 := by
  have htop : line * 256 + 256 ≤ dramTop s := by
    have hl : line * 256 / 256 = line := Nat.mul_div_cancel line (by decide)
    have hlt : line < (32 + (slot1Channels s).length) * linesPerRank s := by
      simp only [mapAddr, hl] at h
      split at h
      next h1 => exact lt_of_lt_of_le h1 (Nat.mul_le_mul_right _ (Nat.le_add_right ..))
      next =>
        split at h
        next h2 => exact h2
        next => cases h
    unfold dramTop
    omega
  rw [dramStatus, if_neg (by omega)]
  cases dramUp s <;> rfl

/-! A read's turn in its channel (R257). -/

/-- The request stands in its channel's read queue. -/
def readJoins (s : State) (ch : Fin 32) (r : LineReq) : State :=
  if (s.dram.ch[ch]).readQ.contains r then s else setChan s ch fun x => { x with readQ := x.readQ ++ [r] }

theorem dram_setChan_self (s : State) (ch : Fin 32) (f : Chan → Chan) : (setChan s ch f).dram.ch[ch] = f s.dram.ch[ch] := by
  simp [setChan, vUpd]

theorem drain_readJoins (s : State) (ch : Fin 32) (r : LineReq) : ((readJoins s ch r).dram.ch[ch]).drain = (s.dram.ch[ch]).drain := by
  unfold readJoins
  split
  · rfl
  · rw [dram_setChan_self]

variable {ch : Fin 32} {q : LineReq} {rows : List (Nat × Nat × Nat)}

theorem readTurn_of_full (h : (s.dram.ch[ch]).readQ.contains q = false) (hn : 64 ≤ (s.dram.ch[ch]).readQ.length) : readTurn s ch q rows = (s, false) := by
  have hf : (!(s.dram.ch[ch]).readQ.contains q && decide (64 ≤ (s.dram.ch[ch]).readQ.length)) = true := by rw [h, decide_eq_true hn]; rfl
  exact if_pos hf

/-- The request waits in the queue, or finds room there. -/
def hasRoom (s : State) (ch : Fin 32) (q : LineReq) : Prop := (s.dram.ch[ch]).readQ.contains q = true ∨ (s.dram.ch[ch]).readQ.length < 64

theorem readTurn_of_room (h : hasRoom s ch q) : readTurn s ch q rows =
    if ((s.dram.ch[ch]).drain.isSome || !mayServe (readJoins s ch q) (readJoins s ch q).dram.ch[ch] q) = true then (readJoins s ch q, false)
    else (setChan (readJoins s ch q) ch fun x => served x q rows, true) := by
  have hf : (!(s.dram.ch[ch]).readQ.contains q && decide (64 ≤ (s.dram.ch[ch]).readQ.length)) = false := by
    rcases h with h | h
    · rw [h]; rfl
    · rw [decide_eq_false (by omega), Bool.and_false]
  rw [← drain_readJoins s ch q]
  unfold readTurn
  dsimp only
  rw [hf, if_neg (by decide), ← readJoins]

theorem readTurn_waits (h : hasRoom s ch q) (hw : (s.dram.ch[ch]).drain.isSome = true ∨ mayServe (readJoins s ch q) (readJoins s ch q).dram.ch[ch] q = false) :
    readTurn s ch q rows = (readJoins s ch q, false) := by
  rw [readTurn_of_room h, if_pos (by simpa using hw)]

theorem readTurn_goes (h : hasRoom s ch q) (hd : (s.dram.ch[ch]).drain = none) (hm : mayServe (readJoins s ch q) (readJoins s ch q).dram.ch[ch] q = true) :
    readTurn s ch q rows = (setChan (readJoins s ch q) ch fun x => served x q rows, true) := by
  rw [readTurn_of_room h, if_neg (by rw [hd, hm]; decide)]

/-! A read (R257, R259). -/

section
variable {fs : LineFlips} {p : DramPlace}

theorem dramRead_of_refused (h : reqOk q = false) : dramRead s q fs = s := by
  simp [dramRead, h]

theorem dramRead_of_unmapped (h : reqOk q = true) (hm : mapAddr s (q.line * 256) = none) :
    dramRead s q fs = respond s (8 + q.line % 32 / 8) q.src q.tag 0xA 3 (q.line * 256) [] := by
  simp [dramRead, h, hm, answer]

theorem dramRead_of_down (h : reqOk q = true) (hm : mapAddr s (q.line * 256) = some p) (hu : dramUp s = false) :
    dramRead s q fs = respond s (8 + p.quadrant) q.src q.tag 0xA 2 (q.line * 256) [] := by
  simp [dramRead, h, hm, dramStatus_of_mapAddr hm, hu, answer]

theorem find_isPoisoned_of_sound {line : Nat} (h : lineSound s line) : (((List.range 32).map fun w => line * 32 + w).find? fun w => isPoisoned s w) = none := by
  refine List.find?_eq_none.2 fun w hw => ?_
  obtain ⟨k, hk, rfl⟩ := List.mem_map.1 hw
  rw [isPoisoned_of_lineSound h (List.mem_range.1 hk)]
  decide

section
variable (h : reqOk q = true) (hm : mapAddr s (q.line * 256) = some p) (hu : dramUp s = true)
include h hm hu

theorem dramRead_of_queued (hq : lineQueued s (readChan s p) q.line = true) (hs : lineSound s q.line) : dramRead s q fs =
    respond (noteFailed s q.src.val q.line [] 0) (8 + p.quadrant) q.src q.tag 8 0 (q.line * 256) (linePayload s (q.line * 256)) := by
  simp [dramRead, h, hm, dramStatus_of_mapAddr hm, hu, answer, hq, find_isPoisoned_of_sound hs]
  rfl

/-- The rows that a read of a place opens in its rank. -/
def readRows (s : State) (p : DramPlace) : List (Nat × Nat × Nat) := rowsOf s p (if belowP s p then 15 else servingRank s p)

theorem dramRead_of_notGo {u : State} (hq : lineQueued s (readChan s p) q.line = false) (ht : readTurn s (readChan s p) q (readRows s p) = (u, false)) :
    dramRead s q fs = u := by
  rw [readRows] at ht
  simp [dramRead, h, hm, dramStatus_of_mapAddr hm, hu, hq, ht]

theorem dramRead_of_go {u : State} (hq : lineQueued s (readChan s p) q.line = false) (ht : readTurn s (readChan s p) q (readRows s p) = (u, true))
    {ws : List DWord} (hr : readPlace u p q.line q.src.val false fs = (u, ⟨0, ws, []⟩)) :
    dramRead s q fs = respond (noteFailed u q.src.val q.line [] 1) (8 + p.quadrant) q.src q.tag 8 0 (q.line * 256) (payloadOf (q.line * 256) ws) := by
  rw [readRows] at ht
  simp [dramRead, h, hm, dramStatus_of_mapAddr hm, hu, hq, ht, hr, answer]

end
end

/-! The bytes of a merged line (R259). -/

theorem leNat_lt (bs : List Byte) : leNat bs < 256 ^ bs.length := by
  induction bs with
  | nil => exact Nat.one_pos
  | cons b bs ih =>
    have hb := b.isLt
    simp only [leNat, List.length_cons, Nat.pow_succ]
    omega

theorem leBytes_leNat (bs : List Byte) : leBytes (leNat bs) bs.length = bs := by
  induction bs with
  | nil => rfl
  | cons b bs ih =>
    have hb := b.isLt
    have e : (b.toNat + 256 * leNat bs) / 256 = leNat bs := by omega
    simp only [leNat, List.length_cons, leBytes, e, ih, List.cons.injEq, and_true]
    exact BitVec.eq_of_toNat_eq (by rw [BitVec.toNat_ofNat]; omega)

theorem leBytes_readLe (s : State) (a : Nat) : leBytes (BitVec.ofNat 64 (readLe s a 8)).toNat 8 = readBytes s a 8 := by
  have hl : (readBytes s a 8).length = 8 := by simp [readBytes]
  have hlt := leNat_lt (readBytes s a 8)
  rw [hl] at hlt
  rw [BitVec.toNat_ofNat, readLe, Nat.mod_eq_of_lt (show leNat (readBytes s a 8) < 2 ^ 64 from hlt)]
  have e := leBytes_leNat (readBytes s a 8)
  rwa [hl] at e

theorem flatMap_range_eight {α : Type} (f : Nat → α) (n : Nat) : ((List.range n).flatMap fun w => (List.range 8).map fun i => f (8 * w + i)) = (List.range (8 * n)).map f := by
  induction n with
  | zero => rfl
  | succ n ih => rw [List.range_succ (n := n), List.flatMap_append, ih, Nat.mul_succ, List.range_add, List.map_append, List.map_map]; simp [Function.comp_def]

theorem lineWords_bytes (s : State) (line : Nat) : ((lineWords s line).flatMap fun w => leBytes w.toNat 8) = (List.range 256).map fun i => readByte s (line * 256 + i) := by
  rw [lineWords, List.flatMap_map, ← flatMap_range_eight (fun i => readByte s (line * 256 + i)) 32]
  refine List.flatMap_congr fun w _ => ?_
  rw [leBytes_readLe, readBytes]
  exact List.map_congr_left fun i _ => by rw [Nat.add_assoc]

/-- A line's memory after the bytes that its enables select took their place. -/
def mergedMem (s : State) (line en : Nat) (data : List Byte) : List Host.Cell :=
  memPutList s.mem (line * 256) (mergeBytes ((lineWords s line).flatMap fun w => leBytes w.toNat 8) data en)

theorem readByte_mergedMem {line en : Nat} {data : List Byte} (h : t.mem = mergedMem s line en data) (k : Nat) : readByte t k =
    if line * 256 ≤ k ∧ k < line * 256 + 256 ∧ bitAt en (k - line * 256) = true then data.getD (k - line * 256) 0 else readByte s k := by
  have hlen : (mergeBytes ((lineWords s line).flatMap fun w => leBytes w.toNat 8) data en).length = 256 := by simp [mergeBytes]
  rw [readByte, h, mergedMem, memPutList, smRead_smWriteList]
  by_cases hk : line * 256 ≤ k ∧ k < line * 256 + 256
  · obtain ⟨h1, h2⟩ := hk
    have h3 : k - line * 256 < 256 := by omega
    have e : line * 256 + (k - line * 256) = k := by omega
    rw [dif_pos ⟨h1, by omega⟩]
    simp only [mergeBytes, List.getElem_map, List.getElem_range, lineWords_bytes, h1, h2, true_and]
    by_cases hb : bitAt en (k - line * 256) = true
    · rw [if_pos hb, if_pos hb]
    · rw [if_neg hb, if_neg hb]
      simp [List.getD_eq_getElem?_getD, h3, e]
  · rw [dif_neg (by omega), if_neg (by tauto)]
    rfl

/-! Poison of a line (R268). -/

theorem mem_natInsert (l : List Nat) (k x : Nat) : x ∈ natInsert l k ↔ x = k ∨ x ∈ l := by
  induction l with
  | nil => simp [natInsert]
  | cons a l ih =>
    unfold natInsert
    split
    · simp
    · split
      next h => subst h; simp
      next => simp only [List.mem_cons, ih]; tauto

theorem mem_foldl_natInsert (f : Nat → Nat) (l m : List Nat) (x : Nat) : x ∈ l.foldl (fun m w => natInsert m (f w)) m ↔ (∃ w ∈ l, f w = x) ∨ x ∈ m := by
  induction l generalizing m with
  | nil => simp
  | cons a l ih =>
    rw [List.foldl_cons, ih, mem_natInsert]
    simp only [List.exists_mem_cons_iff, eq_comm (a := x)]
    rw [or_left_comm, or_assoc]

theorem foldl_poisonWord (f : Nat → Nat) (l : List Nat) (s : State) :
    l.foldl (fun s w => poisonWord s (f w)) s = { s with poison := l.foldl (fun m w => natInsert m (f w)) s.poison } := by
  induction l generalizing s with
  | nil => rfl
  | cons a l ih => rw [List.foldl_cons, ih]; rfl

/-- The words of a line that are poisoned once it is stored. -/
def poisonAfter (s : State) (line en pz : Nat) (bad : List Nat) : List Nat :=
  ((((((List.range 32).filter fun w => isPoisoned s (line * 32 + w)) ++ bad).filter fun w => !(wordEnables en w == 255))) ++
    ((List.range 32).filter fun w => bitAt pz w && wordEnables en w != 0)).eraseDups

/-- DRAM's poison once a line is stored. -/
def storedPoison (s : State) (line en pz : Nat) (bad : List Nat) : List Nat :=
  (poisonAfter s line en pz bad).foldl (fun m w => natInsert m (line * 32 + w)) (clearPoison s (line * 256) 256).poison

/-- What a line's being stored leaves alone: the mesh, the registers, the channels, the slots that have moved. -/
def StoreKeeps (s t : State) : Prop :=
  t.mesh = s.mesh ∧ t.regs = s.regs ∧ t.dram.ch = s.dram.ch ∧ ∀ i : Fin 4, (t.dram.quad[i]).moved = (s.dram.quad[i]).moved

theorem moved_setQuad (s : State) (q : Nat) (f : Quad → Quad) (hf : ∀ x, (f x).moved = x.moved) (i : Fin 4) : ((setQuad s q f).dram.quad[i]).moved = (s.dram.quad[i]).moved := by
  show ((vUpd s.dram.quad (Fin.ofNat 4 q) f)[i]).moved = _
  rw [getElem_vUpd]
  split
  · exact hf _
  · rfl

theorem lineStore_parts (s : State) (line en : Nat) (data : List Byte) (pz : Nat) (bad : List Nat) :
    let x := lineStore s line en data pz (lineWords s line) bad
    x.2.mem = mergedMem s line en data ∧ x.2.poison = storedPoison s line en pz bad ∧ StoreKeeps s x.2 := by
  unfold lineStore
  dsimp only
  rw [foldl_poisonWord]
  split
  · refine ⟨by simp only [setQuad, clearPoison, mergedMem], by simp only [setQuad, clearPoison, storedPoison, poisonAfter], rfl, rfl, rfl, moved_setQuad _ _ _ fun _ => rfl⟩
  · exact ⟨by simp only [clearPoison, mergedMem], by simp only [clearPoison, storedPoison, poisonAfter], rfl, rfl, rfl, fun _ => rfl⟩

/-- The status of a line's write (R30, R268). -/
theorem lineStore_status (s : State) (line en : Nat) (data : List Byte) (pz : Nat) (old : List DWord) (bad : List Nat) :
    (lineStore s line en data pz old bad).1 =
      if (((List.range 32).filter fun w => isPoisoned s (line * 32 + w)).any fun w => wordEnables en w != 0 && wordEnables en w != 255) = true then 4
      else if (bad.any fun w => wordEnables en w != 0 && wordEnables en w != 255) = true then 1 else 0 := rfl

theorem poisonedWords_of_sound {line : Nat} (h : lineSound s line) : ((List.range 32).filter fun w => isPoisoned s (line * 32 + w)) = [] :=
  List.filter_eq_nil_iff.2 fun w hw => by rw [isPoisoned_of_lineSound h (List.mem_range.1 hw)]; decide

theorem storedPoison_of_sound {line : Nat} (en : Nat) (h : lineSound s line) : storedPoison s line en 0 [] = s.poison := by
  have hb := poisonedWords_of_sound h
  have hc : ((List.range 32).filter fun w => bitAt 0 w && wordEnables en w != 0) = [] := List.filter_eq_nil_iff.2 fun w _ => by simp [bitAt]
  have hp : poisonAfter s line en 0 [] = [] := by rw [poisonAfter, hb, hc]; rfl
  rw [storedPoison, hp, List.foldl_nil, clearPoison]
  refine List.filter_eq_self.2 fun w hw => ?_
  by_contra hn
  have hw' : line * 32 ≤ w ∧ w < line * 32 + 32 := by
    simp only [Bool.not_eq_true', Bool.not_eq_false, Bool.and_eq_true, decide_eq_true_eq] at hn
    omega
  obtain ⟨h1, h2⟩ := hw'
  have := h w h1 h2
  rw [isPoisoned, List.contains_eq_mem, decide_eq_false_iff_not] at this
  exact this hw

theorem wordEnables_allOnes {w : Nat} (hw : w < 32) : wordEnables (BitVec.allOnes 256).toNat w = 255 := by
  rw [BitVec.toNat_allOnes]
  exact (show ∀ w < 32, wordEnables (2 ^ 256 - 1) w = 255 by decide) w hw

/-- A whole line's write leaves poisoned the words that the write says, and no other of its line. -/
theorem isPoisoned_of_whole {line pz w : Nat} (h : t.poison = storedPoison s line (BitVec.allOnes 256).toNat pz []) (hw : w < 32) :
    isPoisoned t (line * 32 + w) = bitAt pz w := by
  have hk : (line * 32 + w ∈ (clearPoison s (line * 256) 256).poison) ↔ False := by
    simp only [clearPoison, List.mem_filter, Bool.not_eq_true', Bool.and_eq_false_iff, decide_eq_false_iff_not, iff_false, not_and]
    omega
  have hm (k : Nat) : k ∈ poisonAfter s line (BitVec.allOnes 256).toNat pz [] ↔ k < 32 ∧ bitAt pz k = true := by
    rw [poisonAfter, List.mem_eraseDups, List.mem_append, List.append_nil, List.filter_filter, List.mem_filter, List.mem_filter, List.mem_range]
    constructor
    · rintro (⟨h1, h2⟩ | ⟨h1, h2⟩)
      · rw [wordEnables_allOnes h1] at h2
        exact absurd h2 (by simp)
      · exact ⟨h1, (Bool.and_eq_true_iff.1 h2).1⟩
    · rintro ⟨h1, h2⟩
      exact .inr ⟨h1, by rw [h2, wordEnables_allOnes h1]; rfl⟩
  rw [isPoisoned, h, storedPoison, Bool.eq_iff_iff, List.contains_iff_mem, mem_foldl_natInsert, hk, or_false]
  constructor
  · rintro ⟨k, h1, h2⟩
    obtain rfl : k = w := by omega
    exact ((hm k).1 h1).2
  · exact fun hb => ⟨w, (hm w).2 ⟨hw, hb⟩, rfl⟩

/-! A line enters write queues (R259, R265). -/

/-- Only the channels differ. -/
def OnlyChans (s t : State) : Prop := ∃ c, t = { s with dram := { s.dram with ch := c } }

theorem OnlyChans.refl (s : State) : OnlyChans s s := ⟨s.dram.ch, rfl⟩

theorem onlyChans_setChan (h : OnlyChans s t) (ch : Fin 32) (f : Chan → Chan) : OnlyChans s (setChan t ch f) := by
  obtain ⟨c, rfl⟩ := h
  exact ⟨_, rfl⟩

theorem onlyChans_readJoins (s : State) (ch : Fin 32) (r : LineReq) : OnlyChans s (readJoins s ch r) := by
  unfold readJoins
  split
  · exact .refl s
  · exact onlyChans_setChan (.refl s) ch _

theorem onlyChans_writeEnters (h : OnlyChans s t) (ch : Fin 32) (line : Nat) : OnlyChans s (writeEnters t ch line) := by
  unfold writeEnters
  split
  · exact h
  · exact onlyChans_setChan h ch _

theorem getElem_setChan (s : State) (ch x : Fin 32) (f : Chan → Chan) : (setChan s ch f).dram.ch[x] = if x = ch then f s.dram.ch[x] else s.dram.ch[x] :=
  getElem_vUpd ..

theorem lineQueued_writeEnters (s : State) (ch x : Fin 32) (line : Nat) (h : x = ch ∨ lineQueued s x line = true) : lineQueued (writeEnters s ch line) x line = true := by
  unfold writeEnters
  split
  next hq =>
    rcases h with rfl | h
    · exact hq
    · exact h
  next =>
    rw [lineQueued, getElem_setChan]
    split
    · simp
    next hx => exact h.resolve_left hx

theorem lineQueued_foldl_writeEnters (line : Nat) (cs : List (Fin 32)) (s : State) {x : Fin 32} (h : x ∈ cs ∨ lineQueued s x line = true) :
    lineQueued (cs.foldl (fun s x => writeEnters s x line) s) x line = true := by
  induction cs generalizing s with
  | nil => exact h.resolve_left List.not_mem_nil
  | cons c cs ih =>
    rw [List.foldl_cons]
    refine ih _ ?_
    rcases h with h | h
    · rcases List.mem_cons.1 h with rfl | h
      · exact .inr (lineQueued_writeEnters s x x line (.inl rfl))
      · exact .inl h
    · exact .inr (lineQueued_writeEnters s c x line (.inr h))

theorem onlyChans_foldl_writeEnters (line : Nat) (cs : List (Fin 32)) (s : State) : OnlyChans s (cs.foldl (fun s x => writeEnters s x line) s) :=
  List.foldlRecOn (motive := fun t : State => OnlyChans s t) _ _ (.refl s) fun _ ht c _ => onlyChans_writeEnters ht c line

/-! What a response depends on: the mesh, the map's registers, the slots that have moved (R250, R259). -/

theorem mapAddr_congr (h : t.regs = s.regs) (a : Nat) : mapAddr t a = mapAddr s a :=
  congrArg (fun g => mapAddr { State.reset with regs := g } a) h

theorem routerFor_congr (h : t.regs = s.regs) (hq : ∀ i : Fin 4, (t.dram.quad[i]).moved = (s.dram.quad[i]).moved) (region a : Nat) : routerFor t region a = routerFor s region a := by
  have hc (p : DramPlace) : chanOf t p = chanOf s p := by rw [chanOf, chanOf, servingRank, servingRank, hq]
  unfold routerFor
  rw [mapAddr_congr h]
  simp only [hc]

/-! A write (R259). -/

/-- A line's write, once it has its turn, in the state where it has: the bytes, the queues, the answer. -/
def writeDone (s : State) (p : DramPlace) (cs : List (Fin 32)) (q : LineReq) (en : BitVec 256) (data : List Byte) (pz : BitVec 32) (bad : List Nat) : State :=
  let x := lineStore s q.line en.toNat data pz.toNat (lineWords s q.line) bad
  answer (cs.foldl (fun s x => writeEnters s x q.line) x.2) (8 + p.quadrant) q.src q.tag 9 x.1 (q.line * 256) []

/-- Everything of an answer but the mesh. -/
theorem answer_parts (s : State) (from_ : Nat) (dst : Fin 16) (tag : Byte) (okOpcode status a : Nat) (payload : List CodedWord) :
    ∃ m, answer s from_ dst tag okOpcode status a payload = { s with mesh := m } := by
  unfold answer
  split <;> exact ⟨_, rfl⟩

section
variable {p : DramPlace} {cs : List (Fin 32)} {en : BitVec 256} {data : List Byte} {pz : BitVec 32} {bad : List Nat}

theorem writeDone_parts (s : State) (p : DramPlace) (cs : List (Fin 32)) (q : LineReq) (en : BitVec 256) (data : List Byte) (pz : BitVec 32) (bad : List Nat) :
    (writeDone s p cs q en data pz bad).mem = mergedMem s q.line en.toNat data ∧
    (writeDone s p cs q en data pz bad).poison = storedPoison s q.line en.toNat pz.toNat bad ∧
    ∀ x ∈ cs, lineQueued (writeDone s p cs q en data pz bad) x q.line = true := by
  obtain ⟨hm, hp, _⟩ := lineStore_parts s q.line en.toNat data pz.toNat bad
  unfold writeDone
  dsimp only
  generalize lineStore s q.line en.toNat data pz.toNat (lineWords s q.line) bad = y at *
  obtain ⟨c, hc⟩ := onlyChans_foldl_writeEnters q.line cs y.2
  have hq (x : Fin 32) (hx : x ∈ cs) := lineQueued_foldl_writeEnters q.line cs y.2 (.inl hx)
  generalize cs.foldl (fun s x => writeEnters s x q.line) y.2 = z at *
  obtain ⟨m, e⟩ := answer_parts z (8 + p.quadrant) q.src q.tag 9 y.1 (q.line * 256) []
  rw [e]
  subst hc
  exact ⟨hm, hp, hq⟩

theorem answer_mesh (h : t.mesh = s.mesh) (hr : t.regs = s.regs) (hq : ∀ i : Fin 4, (t.dram.quad[i]).moved = (s.dram.quad[i]).moved)
    (from_ : Nat) (dst : Fin 16) (tag : Byte) (okOpcode status a : Nat) (payload : List CodedWord) :
    (answer t from_ dst tag okOpcode status a payload).mesh = (answer s from_ dst tag okOpcode status a payload).mesh := by
  unfold answer respond
  rw [routerFor_congr hr hq]
  split <;> simp only [meshSend, setNode, h]

theorem writeDone_mesh (s : State) (p : DramPlace) (cs : List (Fin 32)) (q : LineReq) (en : BitVec 256) (data : List Byte) (pz : BitVec 32) (bad : List Nat) :
    (writeDone s p cs q en data pz bad).mesh =
      (answer s (8 + p.quadrant) q.src q.tag 9 (lineStore s q.line en.toNat data pz.toNat (lineWords s q.line) bad).1 (q.line * 256) []).mesh := by
  obtain ⟨_, _, hm, hr, _, hq⟩ := lineStore_parts s q.line en.toNat data pz.toNat bad
  unfold writeDone
  dsimp only
  generalize lineStore s q.line en.toNat data pz.toNat (lineWords s q.line) bad = y at *
  obtain ⟨c, hc⟩ := onlyChans_foldl_writeEnters q.line cs y.2
  generalize cs.foldl (fun s x => writeEnters s x q.line) y.2 = z at *
  exact answer_mesh (by rw [hc]; exact hm) (by rw [hc]; exact hr) (by rw [hc]; exact hq) ..

theorem dramWrite_of_refused (h : reqOk q = false) (fs : LineFlips) : (dramWrite s q en data pz fs false).1 = s := by
  simp [dramWrite, h]

theorem dramWrite_of_unmapped (h : reqOk q = true) (hm : mapAddr s (q.line * 256) = none) (fs : LineFlips) :
    (dramWrite s q en data pz fs false).1 = respond s (8 + q.line % 32 / 8) q.src q.tag 0xA 3 (q.line * 256) [] := by
  simp [dramWrite, h, hm, answer]

theorem dramWrite_of_down (h : reqOk q = true) (hm : mapAddr s (q.line * 256) = some p) (hu : dramUp s = false) (fs : LineFlips) :
    (dramWrite s q en data pz fs false).1 = respond s (8 + p.quadrant) q.src q.tag 0xA 2 (q.line * 256) [] := by
  simp [dramWrite, h, hm, dramStatus_of_mapAddr hm, hu, answer]

/-- A write queue that the line must enter has no room for it. -/
def queueFull (s : State) (p : DramPlace) (line : Nat) : Prop := ∃ x ∈ writeChans s p, lineQueued s x line = false ∧ 64 ≤ (s.dram.ch[x]).writeQ.length

theorem queueFull_iff (s : State) (p : DramPlace) (line : Nat) :
    ((writeChans s p).any fun x => !lineQueued s x line && decide (64 ≤ (s.dram.ch[x]).writeQ.length)) = true ↔ queueFull s p line := by
  simp only [List.any_eq_true, Bool.and_eq_true, Bool.not_eq_true', decide_eq_true_eq, queueFull]

section
variable (h : reqOk q = true) (hm : mapAddr s (q.line * 256) = some p) (hu : dramUp s = true)
include h hm hu

theorem dramWrite_of_full (hf : queueFull s p q.line) (fs : LineFlips) : (dramWrite s q en data pz fs false).1 = s := by
  unfold dramWrite
  simp only [h, hm, dramStatus_of_mapAddr hm, hu, (queueFull_iff s p q.line).2 hf]
  rfl

theorem dramWrite_at_once (hf : ¬ queueFull s p q.line) (hw : en = BitVec.allOnes 256 ∨ lineQueued s (readChan s p) q.line = true) (fs : LineFlips) :
    (dramWrite s q en data pz fs false).1 = writeDone s p (writeChans s p) q en data pz [] := by
  have hc : (en == BitVec.allOnes 256 || lineQueued s (readChan s p) q.line) = true := by simpa using hw
  unfold dramWrite
  simp only [h, hm, dramStatus_of_mapAddr hm, hu, Bool.eq_false_iff.2 (fun e => hf ((queueFull_iff s p q.line).1 e)), hc]
  rfl

theorem dramWrite_of_notGo {u : State} (hf : ¬ queueFull s p q.line) (he : en ≠ BitVec.allOnes 256) (hq : lineQueued s (readChan s p) q.line = false)
    (ht : readTurn s (readChan s p) q (readRows s p) = (u, false)) (fs : LineFlips) : (dramWrite s q en data pz fs false).1 = u := by
  have hc : (en == BitVec.allOnes 256 || lineQueued s (readChan s p) q.line) = false := by simpa [hq] using he
  rw [readRows] at ht
  unfold dramWrite
  simp only [h, hm, dramStatus_of_mapAddr hm, hu, Bool.eq_false_iff.2 (fun e => hf ((queueFull_iff s p q.line).1 e)), hc, ht]
  rfl

theorem dramWrite_of_go {u : State} (hf : ¬ queueFull s p q.line) (he : en ≠ BitVec.allOnes 256) (hq : lineQueued s (readChan s p) q.line = false)
    (ht : readTurn s (readChan s p) q (readRows s p) = (u, true)) {fs : LineFlips} (hr : readPlace u p q.line q.src.val true fs = (u, ⟨0, lineWords u q.line, []⟩)) :
    (dramWrite s q en data pz fs false).1 = writeDone u p (writeChans s p) q en data pz [] := by
  have hc : (en == BitVec.allOnes 256 || lineQueued s (readChan s p) q.line) = false := by simpa [hq] using he
  rw [readRows] at ht
  unfold dramWrite
  simp only [h, hm, dramStatus_of_mapAddr hm, hu, Bool.eq_false_iff.2 (fun e => hf ((queueFull_iff s p q.line).1 e)), hc, ht, hr]
  rfl

end
end

section
variable {p : DramPlace} {cs : List (Fin 32)} {en : BitVec 256} {data : List Byte}

/-- A write of a sound line, once done: bytes, poison, acknowledgement, queues. -/
def WroteSound (s t : State) (p : DramPlace) (cs : List (Fin 32)) (q : LineReq) (en : BitVec 256) (data : List Byte) : Prop :=
  (∀ k, readByte t k = if q.line * 256 ≤ k ∧ k < q.line * 256 + 256 ∧ bitAt en.toNat (k - q.line * 256) = true then data.getD (k - q.line * 256) 0 else readByte s k) ∧
  t.poison = s.poison ∧ t.mesh = (respond s (8 + p.quadrant) q.src q.tag 9 0 (q.line * 256) []).mesh ∧ ∀ x ∈ cs, lineQueued t x q.line = true

theorem wroteSound_writeDone (h : lineSound s q.line) : WroteSound s (writeDone s p cs q en data 0 []) p cs q en data := by
  obtain ⟨hm, hp, hq⟩ := writeDone_parts s p cs q en data 0 []
  have hst : (lineStore s q.line en.toNat data (0 : BitVec 32).toNat (lineWords s q.line) []).1 = 0 := by
    rw [lineStore_status, poisonedWords_of_sound h]
    rfl
  have hme := writeDone_mesh s p cs q en data 0 []
  rw [hst] at hme
  exact ⟨readByte_mergedMem hm, hp.trans (storedPoison_of_sound _ h), hme, hq⟩

theorem wroteSound_of_onlyChans {u : State} (hu : OnlyChans s u) (h : WroteSound u t p cs q en data) : WroteSound s t p cs q en data := by
  obtain ⟨c, rfl⟩ := hu
  exact h

variable (h : reqOk q = true) (hm : mapAddr s (q.line * 256) = some p) (hu : dramUp s = true)

/-- A sound line's read has its turn now. -/
def turnNow (s : State) (ch : Fin 32) (q : LineReq) : Prop :=
  hasRoom s ch q ∧ (s.dram.ch[ch]).drain = none ∧ mayServe (readJoins s ch q) (readJoins s ch q).dram.ch[ch] q = true

theorem readPlace_of_onlyChans {u : State} (ho : OnlyChans s u) {line : Nat} (src : Nat) (merge : Bool) (hs : lineSound s line)
    (ha : OutOfLine (s.dram.quad[Fin.ofNat 4 p.quadrant]).spareBad line) : readPlace u p line src merge [] = (u, ⟨0, lineWords u line, []⟩) := by
  obtain ⟨c, rfl⟩ := ho
  exact readPlace_of_sound src merge hs ha

include h hm hu

theorem dramRead_of_turn (hq : lineQueued s (readChan s p) q.line = false) (ht : turnNow s (readChan s p) q) (hs : lineSound s q.line)
    (ha : OutOfLine (s.dram.quad[Fin.ofNat 4 p.quadrant]).spareBad q.line) : dramRead s q [] =
    respond (noteFailed (setChan (readJoins s (readChan s p) q) (readChan s p) fun x => served x q (readRows s p)) q.src.val q.line [] 1)
      (8 + p.quadrant) q.src q.tag 8 0 (q.line * 256) (linePayload s (q.line * 256)) := by
  obtain ⟨hr, hd, hms⟩ := ht
  have ho := onlyChans_setChan (onlyChans_readJoins s (readChan s p) q) (readChan s p) fun x => served x q (readRows s p)
  have hw : lineWords (setChan (readJoins s (readChan s p) q) (readChan s p) fun x => served x q (readRows s p)) q.line = lineWords s q.line := by
    obtain ⟨c, e⟩ := ho
    rw [e]
    rfl
  rw [dramRead_of_go h hm hu hq (readTurn_goes hr hd hms) (readPlace_of_onlyChans ho _ _ hs ha), hw]
  rfl

theorem dramWrite_of_sound (hf : ¬ queueFull s p q.line) (hc : en = BitVec.allOnes 256 ∨ lineQueued s (readChan s p) q.line = true ∨ turnNow s (readChan s p) q)
    (hs : lineSound s q.line) (ha : OutOfLine (s.dram.quad[Fin.ofNat 4 p.quadrant]).spareBad q.line) :
    WroteSound s (dramWrite s q en data 0 [] false).1 p (writeChans s p) q en data := by
  by_cases hw : en = BitVec.allOnes 256 ∨ lineQueued s (readChan s p) q.line = true
  · rw [dramWrite_at_once h hm hu hf hw]
    exact wroteSound_writeDone hs
  · obtain ⟨he, hq⟩ := not_or.1 hw
    obtain ⟨hr, hd, hms⟩ := (hc.resolve_left he).resolve_left hq
    have ho := onlyChans_setChan (onlyChans_readJoins s (readChan s p) q) (readChan s p) fun x => served x q (readRows s p)
    rw [dramWrite_of_go h hm hu hf he (Bool.eq_false_iff.2 hq) (readTurn_goes hr hd hms) (readPlace_of_onlyChans ho _ _ hs ha)]
    refine wroteSound_of_onlyChans ho (wroteSound_writeDone ?_)
    obtain ⟨c, e⟩ := ho
    rw [e]
    exact hs

theorem dramWrite_of_whole (hf : ¬ queueFull s p q.line) (pz : BitVec 32) (fs : LineFlips) {w : Nat} (hw : w < 32) :
    isPoisoned (dramWrite s q (BitVec.allOnes 256) data pz fs false).1 (q.line * 32 + w) = bitAt pz.toNat w := by
  rw [dramWrite_at_once h hm hu hf (.inl rfl)]
  exact isPoisoned_of_whole (writeDone_parts ..).2.1 hw

theorem dramWrite_into_poison (hf : ¬ queueFull s p q.line) (hq : lineQueued s (readChan s p) q.line = true)
    (hp : ∃ w, w < 32 ∧ isPoisoned s (q.line * 32 + w) = true ∧ wordEnables en.toNat w ≠ 0 ∧ wordEnables en.toNat w ≠ 255) (fs : LineFlips) :
    (dramWrite s q en data 0 fs false).1.mesh = (respond s (8 + p.quadrant) q.src q.tag 0xA 4 (q.line * 256) []).mesh := by
  obtain ⟨w, h1, h2, h3, h4⟩ := hp
  have hany : (((List.range 32).filter fun w => isPoisoned s (q.line * 32 + w)).any fun w => wordEnables en.toNat w != 0 && wordEnables en.toNat w != 255) = true :=
    List.any_eq_true.2 ⟨w, List.mem_filter.2 ⟨List.mem_range.2 h1, h2⟩, by simp [h3, h4]⟩
  rw [dramWrite_at_once h hm hu hf (.inr hq), writeDone_mesh, lineStore_status, if_pos hany]
  rfl

end

end

end Sys2Proof.Machine
end

section
/-! PROOFS. Bring-up's write, draining of a write queue, MR4, and the copy of a retiring rank (R246, R258, R261, R265, R270). -/

namespace Sys2Proof.Machine

open Says

section
variable {r s t : State}

/-! BRING_UP (R246, R270, R490). -/

section
variable {q : Requester} {v : Word}

/-- The state once BXT_CONFIG is written. -/
def configWritten (s : State) (q : Requester) (v : Word) : State := writeKey (reqMeets s q 8) bxtConfig v

theorem configWritten_keeps (s : State) (q : Requester) (v : Word) : (configWritten s q v).mem = s.mem ∧ (configWritten s q v).retired = s.retired ∧
    (configWritten s q v).now = s.now ∧ (configWritten s q v).power = s.power ∧ (configWritten s q v).ctl = s.ctl := by
  obtain ⟨x, e⟩ := reqMeets_eq s q 8
  unfold configWritten
  rw [e]
  exact ⟨rfl, rfl, rfl, rfl, rfl⟩

theorem state_configWritten (s : State) (q : Requester) (v : Word) : getF (configWritten s q v) bxtStatus 30 2 = getF s bxtStatus 30 2 :=
  (getF_congr (readReg_setReg_ne (reqMeets s q 8) _ (by decide))).trans (getF_reqMeets ..)

theorem serves_configWritten (s : State) (q : Requester) (v : Word) (n : Nat) : serves (configWritten s q v) n = serves s n := by
  obtain ⟨_, _, _, _, h⟩ := configWritten_keeps s q v
  rw [serves, serves, ctlOf, ctlOf, h]

theorem bauxite_configWritten (ha : serves s 8 = true ∧ serves s 9 = true ∧ serves s 10 = true ∧ serves s 11 = true) :
    ([8, 9, 10, 11].all fun r => serves (configWritten s q v) r) = true := by
  obtain ⟨h8, h9, h10, h11⟩ := ha
  simp only [serves_configWritten, List.all_cons, List.all_nil, h8, h9, h10, h11, Bool.and_true]

theorem execBringUp_of_off (h : serves s 8 = false) : execBringUp q v s = .next s := by simp [execBringUp, reqServes, h]

section
variable (hs : serves s 8 = true)
include hs

theorem execBringUp_of_serves : execBringUp q v s = .next (bauxiteWrite (reqMeets s q 8) q 8 0x100 v) := by simp [execBringUp, reqServes, hs]

theorem execBringUp_of_begun (h : getF s bxtStatus 30 2 ≠ 0) : execBringUp q v s = .next (reqMeets s q 8) := by
  rw [execBringUp_of_serves hs, bauxiteWrite, getF_reqMeets, if_pos h]

theorem execBringUp_of_state (h : getF s bxtStatus 30 2 = 0) :
    execBringUp q v s = .next (if v.getLsbD 0 = true then bringUp (configWritten s q v) else configWritten s q v) := by
  rw [execBringUp_of_serves hs, bauxiteWrite_off q v (by rwa [getF_reqMeets]), configWritten]

end

theorem bringUp_configWritten_early (ha : serves s 8 = true ∧ serves s 9 = true ∧ serves s 10 = true ∧ serves s 11 = true) (h : getF s bxtStatus 30 2 = 0)
    (hn : s.now < s.power.dramReadyAt) :
    bringUp (configWritten s q v) = { configWritten s q v with dram := { (configWritten s q v).dram with bringWaits := true } } := by
  obtain ⟨_, _, e1, e2, _⟩ := configWritten_keeps s q v
  exact bringUp_early (bauxite_configWritten ha) (by rwa [state_configWritten]) (by rwa [e1, e2])

theorem bringUp_configWritten_ready (ha : serves s 8 = true ∧ serves s 9 = true ∧ serves s 10 = true ∧ serves s 11 = true) (h : getF s bxtStatus 30 2 = 0)
    (hn : s.power.dramReadyAt ≤ s.now) : (bringUp (configWritten s q v)).power.dramReset = true ∧
    (bringUp (configWritten s q v)).dram.ch = Vector.replicate 32 {} ∧ (bringUp (configWritten s q v)).dram.nextBand = none ∧
    (bringUp (configWritten s q v)).mem = s.mem ∧
    (s.retired = [] → getF (bringUp (configWritten s q v)) bxtStatus 30 2 = 1 ∧ (bringUp (configWritten s q v)).dram.bringing = true) ∧
    ∀ n r : Nat, n < 4 → r < 16 → isRetired s (8 + n) (r / 2) (r % 2) = true → ¬ (spareOf (configWritten s q v) n = true ∧ r = 15) →
      rankState (bringUp (configWritten s q v)) n r = 1 ∨ rankState (bringUp (configWritten s q v)) n r = 2 := by
  obtain ⟨hm, hr, e1, e2, _⟩ := configWritten_keeps s q v
  obtain ⟨h1, h2, h3, h4, h5, h6⟩ := bringUpNow_begins ((state_configWritten s q v).trans h) (bauxite_configWritten ha)
  rw [bringUp_ready (by rwa [e1, e2])]
  refine ⟨h1, h2, h3, h4.trans hm, fun hn => h5 (hr.trans hn), fun n r hn hr' hret hsp => h6 n r hn hr' (by rwa [isRetired_congr hr]) hsp⟩

end

/-! A write queue drains (R258). -/

section
variable {ch : Fin 32}

theorem setChan_congr {f g : Chan → Chan} (h : f s.dram.ch[ch] = g s.dram.ch[ch]) : setChan s ch f = setChan s ch g := by
  simp only [setChan, vUpd, h]

theorem drainOne_of_idle (h : (s.dram.ch[ch]).drain = none) (l : Nat) : drainOne s ch l = s := by
  simp only [drainOne, h]

theorem foldl_drainOne_of_idle (h : (s.dram.ch[ch]).drain = none) (ls : List Nat) : ls.foldl (fun s l => drainOne s ch l) s = s := by
  induction ls with
  | nil => rfl
  | cons l ls ih => rw [List.foldl_cons, drainOne_of_idle h, ih]

/-- No drain runs and none of the kind asked for is due: nothing happens. -/
theorem writeDrain_of_notDue {byAge : Bool} (h : (s.dram.ch[ch]).drain = none) (hd : drainDue s s.dram.ch[ch] ≠ some byAge) (ls : List Nat) :
    writeDrain s ch byAge ls = s := by
  have hc : ((s.dram.ch[ch]).drain.isNone && drainDue s s.dram.ch[ch] == some byAge) = false := by
    rw [Bool.and_eq_false_iff]
    exact .inr (beq_eq_false_iff_ne.2 hd)
  unfold writeDrain
  dsimp only
  rw [hc, if_neg (by decide)]
  exact foldl_drainOne_of_idle h ls

theorem writeDrain_begins {byAge : Bool} (h : (s.dram.ch[ch]).drain = none) (hd : drainDue s s.dram.ch[ch] = some byAge) :
    writeDrain s ch byAge [] = setChan s ch fun x => { x with drain := some byAge, wpasses := 0 } := by
  have hc : ((s.dram.ch[ch]).drain.isNone && drainDue s s.dram.ch[ch] == some byAge) = true := by
    rw [h, hd]
    exact beq_self_eq_true _
  unfold writeDrain
  dsimp only
  rw [hc, if_pos rfl]
  rfl

theorem drainDue_of_many {c : Chan} (h : 48 ≤ c.writeQ.length) : drainDue s c = some false := if_pos h

theorem drainDue_of_old {c : Chan} {e : Nat × Nat} (h : c.writeQ.length < 48) (he : c.writeQ.head? = some e) (ho : e.2 + 10000 ≤ s.now) : drainDue s c = some true := by
  obtain ⟨rest, hq⟩ := List.head?_eq_some_iff.1 he
  unfold drainDue
  rw [if_neg (by omega)]
  simp only [hq, ho, if_true]

theorem drainDue_of_young {c : Chan} (h : c.writeQ.length < 48) (he : ∀ e, c.writeQ.head? = some e → s.now < e.2 + 10000) : drainDue s c = none := by
  unfold drainDue
  rw [if_neg (by omega)]
  cases hq : c.writeQ with
  | nil => rfl
  | cons e rest =>
    have := he e (by rw [hq]; rfl)
    exact if_neg (by omega)

theorem writeDrain_of_running {m : Bool} (h : (s.dram.ch[ch]).drain = some m) (byAge : Bool) (l : Nat) : writeDrain s ch byAge [l] = drainOne s ch l := by
  unfold writeDrain
  simp only [h, Option.isNone_some, Bool.false_and, Bool.false_eq_true, if_false]
  rfl

/-- The rows that a drained line opens. -/
def drainRows (s : State) (ch : Fin 32) (line : Nat) : List (Nat × Nat × Nat) := match mapAddr s (line * 256) with
  | some p => rowsOf s p (if ch = chanOf s p then servingRank s p else 15)
  | none => []

theorem drainOne_oldest {m : Bool} {e : Nat × Nat} {rest : List (Nat × Nat)} (h : (s.dram.ch[ch]).drain = some m) (hq : (s.dram.ch[ch]).writeQ = e :: rest) :
    drainOne s ch e.1 = setChan s ch fun x => { x with writeQ := rest, wpasses := 0, openRows := openThem x.openRows (drainRows s ch e.1)
                                                       drain := if rest.length = 16 ∨ (m = true ∧ rest = []) then none else some m } := by
  unfold drainOne
  simp only [h, hq, List.find?_cons, beq_self_eq_true, List.head?_cons, Bool.not_true, Bool.false_and, Bool.false_eq_true, if_false, List.length_cons,
    Nat.add_sub_cancel, if_true]
  refine setChan_congr ?_
  simp only [h, hq, List.erase_cons_head, List.length_eq_zero_iff, Bool.and_eq_true, decide_eq_true_eq]
  rfl

theorem drainOne_passed {m : Bool} {l : Nat} (h : (s.dram.ch[ch]).drain = some m) (hl : ((s.dram.ch[ch]).writeQ.head?.map fun e => e.1) ≠ some l)
    (hp : openHit s s.dram.ch[ch] l = false ∨ 4 ≤ (s.dram.ch[ch]).wpasses) : drainOne s ch l = s := by
  have hb : (openHit s s.dram.ch[ch] l && decide ((s.dram.ch[ch]).wpasses < 4)) = false := by
    rcases hp with hp | hp
    · rw [hp]; rfl
    · rw [decide_eq_false (by omega), Bool.and_false]
  unfold drainOne
  cases hf : (s.dram.ch[ch]).writeQ.find? fun e => e.1 == l with
  | none => simp only [h, hf]
  | some e =>
    have he : e.1 = l := by simpa using List.find?_some hf
    have ho : ((s.dram.ch[ch]).writeQ.head? == some e) = false := by
      refine beq_eq_false_iff_ne.2 fun e' => hl ?_
      rw [e', Option.map_some, he]
    simp only [h, hf, ho, hb]
    rfl

end

/-! MR4 (R261, R388). -/

theorem execMr4Read_of_down (h : dramUp s = false) (ch : Fin 32) (rk : Fin 2) (m : RefreshMult) (derate : Bool) : execMr4Read ch rk m derate s = .next s := by
  simp [execMr4Read, mr4Read, h]

/-- A rank's report has joined its last two. -/
def mr4Noted (s : State) (ch : Fin 32) (rk : Fin 2) (m : RefreshMult) (derate : Bool) : State :=
  setChan s ch fun c => { c with mr4 := c.mr4.set rk ((mr4Band m derate :: c.mr4[rk]).take 2), derate := c.derate.set rk derate }

/-- The derating event. -/
def mr4Raised (s : State) (ch : Fin 32) (rk : Fin 2) (derate : Bool) : State :=
  if derate then raise s 2 (8 + ch.val / 8) 0x103 (ch.val % 8) rk.val (2 * (ch.val % 8) + rk.val) else s

theorem mr4Raised_parts (s : State) (ch : Fin 32) (rk : Fin 2) (derate : Bool) : (mr4Raised s ch rk derate).dram = s.dram ∧
    getF (mr4Raised s ch rk derate) bxtStatus 24 2 = getF s bxtStatus 24 2 := by
  unfold mr4Raised
  split
  · exact ⟨raise_dram .., getF_raise ..⟩
  · exact ⟨rfl, rfl⟩

/-- The band that the ranks' reports ask for next. -/
def bandAsked (reads : List (List Nat)) (now : Nat) : Option Nat :=
  let hot := (reads.map fun l => l.headD 0).foldl max 0
  let cool := (reads.map fun l => l.foldl max 0).foldl max 0
  if now < hot then some hot else if reads.all (fun l => l.length == 2) && decide (cool < now) then some cool else none

theorem bandAsked_eq (reads : List (List Nat)) (now : Nat) : bandAsked reads now =
    if now < (reads.map fun l => l.headD 0).foldl max 0 then some ((reads.map fun l => l.headD 0).foldl max 0)
    else if reads.all (fun l => l.length == 2) = true ∧ (reads.map fun l => l.foldl max 0).foldl max 0 < now then some ((reads.map fun l => l.foldl max 0).foldl max 0)
    else none := by
  simp only [bandAsked, Bool.and_eq_true, decide_eq_true_eq]

/-- The band for the next strobe set. -/
def bandSet (s : State) (b : Option Nat) : State := { s with dram := { s.dram with nextBand := b } }

theorem mr4Read_of_up (h : dramUp s = true) (ch : Fin 32) (rk : Fin 2) (m : RefreshMult) (derate : Bool) : mr4Read s ch rk m derate =
    bandSet (mr4Raised (mr4Noted s ch rk m derate) ch rk derate)
      (bandAsked ((mr4Noted s ch rk m derate).dram.ch.toList.map fun c => c.mr4.toList).flatten (getF s bxtStatus 24 2)) := by
  obtain ⟨hd, hg⟩ := mr4Raised_parts (mr4Noted s ch rk m derate) ch rk derate
  have e : mr4Read s ch rk m derate = bandSet (mr4Raised (mr4Noted s ch rk m derate) ch rk derate)
      (bandAsked ((mr4Raised (mr4Noted s ch rk m derate) ch rk derate).dram.ch.toList.flatMap fun c => c.mr4.toList)
        (getF (mr4Raised (mr4Noted s ch rk m derate) ch rk derate) bxtStatus 24 2)) := by
    unfold mr4Read
    rw [h, if_neg (by decide)]
    rfl
  rw [e, hd, hg, List.flatMap_def]
  rfl

theorem execMr4Read_of_up (h : dramUp s = true) (ch : Fin 32) (rk : Fin 2) (m : RefreshMult) (derate : Bool) : execMr4Read ch rk m derate s =
    .next (dramForced (bandSet (mr4Raised (mr4Noted s ch rk m derate) ch rk derate)
      (bandAsked ((mr4Noted s ch rk m derate).dram.ch.toList.map fun c => c.mr4.toList).flatten (getF s bxtStatus 24 2)))) := by
  rw [← mr4Read_of_up h]
  unfold execMr4Read
  dsimp only
  rw [if_pos h]

/-! A retiring rank's lines are copied to the spare (R257, R265). -/

section
variable {q : Fin 4} {fs : LineFlips} {line src : Nat}

theorem migrationCopy_held (h : migRunning s q.val = false ∨ dramUp s = false ∨ s.now < (s.dram.quad[q]).migAt + migPace s q.val) : migrationCopy s q fs = s := by
  refine if_pos ?_
  rcases h with h | h | h
  · simp only [h, Bool.not_false, Bool.true_or]
  · simp only [h, Bool.not_false, Bool.true_or, Bool.or_true]
  · rw [decide_eq_true h, Bool.or_true]

theorem migrationCopy_of_noLine (h : lineOfSlot s q.val (migSource s q.val) (migPointer s q.val) = none) : migrationCopy s q fs = s := by
  unfold migrationCopy
  split
  · rfl
  · simp only [h]

/-- The copy runs, is due, and has a line to copy. -/
def copyDue (s : State) (q : Fin 4) (line : Nat) : Prop := migRunning s q.val = true ∧ dramUp s = true ∧ (s.dram.quad[q]).migAt + migPace s q.val ≤ s.now ∧
  lineOfSlot s q.val (migSource s q.val) (migPointer s q.val) = some line

theorem copyDue_guard (h : copyDue s q line) : (!migRunning s q.val || !dramUp s || decide (s.now < (s.dram.quad[q]).migAt + migPace s q.val)) = false := by
  obtain ⟨h1, h2, h3, _⟩ := h
  rw [h1, h2, decide_eq_false (by omega)]
  rfl

theorem migrationCopy_full (h : copyDue s q line) (hq : lineQueued s (rankChan q.val 15) line = false) (hn : 64 ≤ (s.dram.ch[rankChan q.val 15]).writeQ.length) :
    migrationCopy s q fs = s := by
  have hg := copyDue_guard h
  obtain ⟨_, _, _, hl⟩ := h
  unfold migrationCopy
  simp only [hg, hl, hq, decide_eq_true hn]
  rfl

/-- The read request of a copy. -/
def copyReq (q : Fin 4) (line : Nat) : LineReq := ⟨Fin.ofNat 16 (8 + q.val), .migration, 0xC0, line⟩

theorem readTurn_of_turn {ch : Fin 32} {req : LineReq} (h : turnNow s ch req) :
    ∃ w : List (Nat × Nat × Nat) → State, ∀ rows, readTurn s ch req rows = (w rows, true) ∧ OnlyChans s (w rows) := by
  obtain ⟨hr, hd, hm⟩ := h
  exact ⟨_, fun rows => ⟨readTurn_goes hr hd hm, onlyChans_setChan (onlyChans_readJoins s ch req) ch _⟩⟩

/-- A copied line's words are read; the copy goes on in the state after the read's turn. -/
theorem migrationCopy_copies (h : copyDue s q line) (hf : lineQueued s (rankChan q.val 15) line = true ∨ (s.dram.ch[rankChan q.val 15]).writeQ.length < 64)
    (ht : turnNow s (rankChan q.val (migSource s q.val)) (copyReq q line)) (hsrc : migSource s q.val ≠ 15) (hs : lineSound s line) :
    ∃ v, OnlyChans s v ∧ migrationCopy s q [] = copyLine v q (migSource s q.val) line [] := by
  have hg := copyDue_guard h
  have hb : (!lineQueued s (rankChan q.val 15) line && decide (64 ≤ (s.dram.ch[rankChan q.val 15]).writeQ.length)) = false := by
    rcases hf with hf | hf
    · rw [hf]; rfl
    · rw [decide_eq_false (by omega), Bool.and_false]
  obtain ⟨h1, _, _, hl⟩ := h
  obtain ⟨w, hw⟩ := readTurn_of_turn ht
  have hgo (rows : List (Nat × Nat × Nat)) := (hw rows).1
  have hread (rows : List (Nat × Nat × Nat)) : migRunning (w rows) q.val = true ∧
      readRank (w rows) q.val (migSource s q.val) line (8 + q.val) true [] = (w rows, ⟨0, lineWords (w rows) line, []⟩) := by
    obtain ⟨c, e⟩ := (hw rows).2
    rw [e]
    refine ⟨h1, readRank_of_sound _ _ hs ?_⟩
    rw [spareOnly, if_neg (fun e => hsrc e.1)]
    exact fun _ hw => absurd hw List.not_mem_nil
  unfold copyReq at hgo
  unfold migrationCopy
  simp only [hg, hl, hb, hgo, hread, Bool.not_true, Bool.false_eq_true, if_false]
  exact ⟨_, (hw _).2, rfl⟩

/-- The pointer has moved on from a sound line. -/
def copyBegun (s : State) (q : Fin 4) (line : Nat) : State :=
  setF (writeEnters (setQuad s q.val fun x => { x with spareBad := x.spareBad.filter fun w => !(w / 32 == line) }) (rankChan q.val 15) line)
    (bxtMigStatus (8 + q.val)) 0 23 (migPointer s q.val + 1)

/-- The last line is copied: the slot moves. -/
def copyEnds (s : State) (q : Fin 4) (src : Nat) : State :=
  let s := setRankState (setF s (bxtMigStatus (8 + q.val)) 30 2 2) q.val src 1
  let s := (s.dram.quad[q]).spareBad.foldl (fun s w => poisonWord s w) s
  let s := setQuad s q.val fun x => { x with moved := some src, spareBad := [] }
  raise s 3 (8 + q.val) 0x111 (src / 2) (src % 2) (src + 256 * (s.dram.quad[q]).migPoison)

theorem readReg_copyBegun (s : State) (q : Fin 4) (line : Nat) {k : Nat} (hk : k ≠ bxtMigStatus (8 + q.val)) : readReg (copyBegun s q line) k = readReg s k := by
  obtain ⟨c, e⟩ := onlyChans_writeEnters (.refl (setQuad s q.val fun x => { x with spareBad := x.spareBad.filter fun w => !(w / 32 == line) })) (rankChan q.val 15) line
  unfold copyBegun
  rw [readReg_setF_ne _ _ _ _ hk, e]
  rfl

theorem copyLine_of_sound (hs : lineSound s line) : copyLine s q src line [] =
    if migPointer s q.val + 1 < linesPerRank s then copyBegun s q line else copyEnds (copyBegun s q line) q src := by
  have hl : linesPerRank (copyBegun s q line) = linesPerRank s := by
    rw [linesPerRank, linesPerRank, dataRows, dataRows, getB, getB, readReg_copyBegun s q line (by simp only [bxtConfig, bxtMigStatus]; omega)]
  rw [← hl]
  have hnew : (([] : List Nat).filter fun w => !([] : List Nat).contains w).map (fun w => line * 32 + w) = [] := rfl
  unfold copyLine copyEnds copyBegun
  dsimp only
  rw [poisonedWords_of_sound hs]
  simp only [hnew, List.length_nil, Nat.add_zero, List.append_nil]

/-- The words of a line that the spare held poisoned are read no more. -/
def lineSwept (s : State) (q : Fin 4) (line : Nat) : State := setQuad s q.val fun x => { x with spareBad := x.spareBad.filter fun w => !(w / 32 == line) }

theorem migPoison_lineSwept (s : State) (q : Fin 4) (line : Nat) : ((lineSwept s q line).dram.quad[q]).migPoison = (s.dram.quad[q]).migPoison := by
  have e : (lineSwept s q line).dram.quad = vUpd s.dram.quad (Fin.ofNat 4 q.val) fun x => { x with spareBad := x.spareBad.filter fun w => !(w / 32 == line) } := rfl
  rw [e, getElem_vUpd]
  split <;> rfl

theorem lineQueued_congr (h : t.dram.ch = s.dram.ch) (ch : Fin 32) (line : Nat) : lineQueued t ch line = lineQueued s ch line := by rw [lineQueued, lineQueued, h]

theorem copyBegun_parts (s : State) (q : Fin 4) (line : Nat) : (copyBegun s q line).mem = s.mem ∧ (copyBegun s q line).evNet = s.evNet ∧
    lineQueued (copyBegun s q line) (rankChan q.val 15) line = true ∧ ((copyBegun s q line).dram.quad[q]).migPoison = (s.dram.quad[q]).migPoison ∧
    migPointer (copyBegun s q line) q.val = (migPointer s q.val + 1) % 2 ^ 23 ∧ migRunning (copyBegun s q line) q.val = migRunning s q.val := by
  have hq := lineQueued_writeEnters (lineSwept s q line) (rankChan q.val 15) (rankChan q.val 15) line (.inl rfl)
  have hp := migPoison_lineSwept s q line
  obtain ⟨c, e⟩ := onlyChans_writeEnters (.refl (lineSwept s q line)) (rankChan q.val 15) line
  have hu : (writeEnters (lineSwept s q line) (rankChan q.val 15) line).mem = s.mem ∧ (writeEnters (lineSwept s q line) (rankChan q.val 15) line).evNet = s.evNet ∧
      (writeEnters (lineSwept s q line) (rankChan q.val 15) line).regs = s.regs ∧
      (writeEnters (lineSwept s q line) (rankChan q.val 15) line).dram.quad = (lineSwept s q line).dram.quad := by
    rw [e]
    exact ⟨rfl, rfl, rfl, rfl⟩
  have hc : copyBegun s q line = setF (writeEnters (lineSwept s q line) (rankChan q.val 15) line) (bxtMigStatus (8 + q.val)) 0 23 (migPointer s q.val + 1) := rfl
  rw [hc]
  generalize writeEnters (lineSwept s q line) (rankChan q.val 15) line = u at *
  obtain ⟨hm, he, hr, hd⟩ := hu
  refine ⟨(setF_mem ..).trans hm, (setF_evNet ..).trans he, (lineQueued_congr (congrArg Dram.ch (setF_dram ..)) ..).trans hq, ?_, getF_setF u _ _ (by decide), ?_⟩
  · rw [setF_dram, hd]; exact hp
  · have hk : readReg u (bxtMigStatus (8 + q.val)) = readReg s (bxtMigStatus (8 + q.val)) := congrArg (smRead regReset · (bxtMigStatus (8 + q.val))) hr
    rw [migRunning, getF_setF_ne _ _ _ (by decide) (by decide), getF_congr hk, migRunning]

/-- The slot's state and the migration's are set. -/
def copyShown (s : State) (q : Fin 4) (src : Nat) : State := setRankState (setF s (bxtMigStatus (8 + q.val)) 30 2 2) q.val src 1

theorem copyShown_parts (s : State) (q : Fin 4) {src : Nat} (hsrc : src < 16) : (copyShown s q src).mem = s.mem ∧ (copyShown s q src).dram = s.dram ∧
    migPointer (copyShown s q src) q.val = migPointer s q.val ∧ getF (copyShown s q src) (bxtMigStatus (8 + q.val)) 30 2 = 2 ∧ rankState (copyShown s q src) q.val src = 1 := by
  have hk : bxtMigStatus (8 + q.val) ≠ bxtRankState (8 + q.val) := by simp only [bxtMigStatus, bxtRankState]; omega
  unfold copyShown setRankState
  refine ⟨(setF_mem ..).trans (setF_mem ..), (setF_dram ..).trans (setF_dram ..), ?_, ?_, getF_setF _ _ _ (by omega)⟩
  · rw [migPointer, getF_setF_other _ _ _ _ _ _ hk, getF_setF_ne _ _ _ (by decide) (by decide), migPointer]
  · exact (getF_setF_other _ _ _ _ _ _ hk).trans (getF_setF _ _ _ (by decide))

/-- The slot has moved to the spare. -/
def slotMoved (s : State) (q : Fin 4) (src : Nat) : State :=
  setQuad ((s.dram.quad[q]).spareBad.foldl (fun s w => poisonWord s w) s) q.val fun x => { x with moved := some src, spareBad := [] }

theorem copyEnds_eq (s : State) (q : Fin 4) (src : Nat) : copyEnds s q src =
    raise (slotMoved (copyShown s q src) q src) 3 (8 + q.val) 0x111 (src / 2) (src % 2) (src + 256 * ((slotMoved (copyShown s q src) q src).dram.quad[q]).migPoison) := rfl

theorem slotMoved_parts (s : State) (q : Fin 4) (src : Nat) : (slotMoved s q src).mem = s.mem ∧ (slotMoved s q src).regs = s.regs ∧
    (slotMoved s q src).dram.ch = s.dram.ch ∧ ((slotMoved s q src).dram.quad[q]).moved = some src ∧ ((slotMoved s q src).dram.quad[q]).migPoison = (s.dram.quad[q]).migPoison := by
  have hq : Fin.ofNat 4 q.val = q := Fin.ext (Nat.mod_eq_of_lt q.isLt)
  unfold slotMoved
  rw [foldl_poisonWord fun w => w]
  simp only [setQuad, hq, getElem_vUpd, if_true, and_self]

theorem copyEnds_parts (s : State) (q : Fin 4) {src : Nat} (hsrc : src < 16) : (copyEnds s q src).mem = s.mem ∧ (copyEnds s q src).dram.ch = s.dram.ch ∧
    migPointer (copyEnds s q src) q.val = migPointer s q.val ∧ getF (copyEnds s q src) (bxtMigStatus (8 + q.val)) 30 2 = 2 ∧
    ((copyEnds s q src).dram.quad[q]).moved = some src ∧ rankState (copyEnds s q src) q.val src = 1 ∧
    tells (copyEnds s q src) (evCode 3 (8 + q.val) 0x111) (src + 256 * (s.dram.quad[q]).migPoison) := by
  obtain ⟨h1, h2, h3, h4, h5⟩ := copyShown_parts s q hsrc
  obtain ⟨k1, k2, k3, k4, k5⟩ := slotMoved_parts (copyShown s q src) q src
  have hg (k lo n : Nat) : getF (copyEnds s q src) k lo n = getF (copyShown s q src) k lo n :=
    (congrArg (getF · k lo n) (copyEnds_eq s q src)).trans ((getF_raise ..).trans (getF_congr (congrArg (smRead regReset · k) k2)))
  refine ⟨?_, ?_, (hg ..).trans h3, (hg ..).trans h4, ?_, (hg ..).trans h5, ?_⟩
  · rw [copyEnds_eq, raise_mem, k1, h1]
  · rw [copyEnds_eq, raise_dram, k3, h2]
  · rw [copyEnds_eq, raise_dram, k4]
  · rw [copyEnds_eq, k5, h2]
    exact tells_raise ..

theorem migSource_lt (s : State) (q : Nat) : migSource s q < 16 := fld_lt _ 24 4

/-- What a copied line leaves: the pointer, the spare's queue, and after the last line the slot at the spare. -/
def LineCopied (s t : State) (q : Fin 4) (line : Nat) : Prop :=
  t.mem = s.mem ∧ migPointer t q.val = (migPointer s q.val + 1) % 2 ^ 23 ∧ lineQueued t (rankChan q.val 15) line = true ∧
  (migPointer s q.val + 1 < linesPerRank s → migRunning t q.val = true ∧ t.evNet = s.evNet) ∧
  (linesPerRank s ≤ migPointer s q.val + 1 → getF t (bxtMigStatus (8 + q.val)) 30 2 = 2 ∧ (t.dram.quad[q]).moved = some (migSource s q.val) ∧
    rankState t q.val (migSource s q.val) = 1 ∧ tells t (evCode 3 (8 + q.val) 0x111) (migSource s q.val + 256 * (s.dram.quad[q]).migPoison))

theorem lineCopied_copyLine (hr : migRunning s q.val = true) (hs : lineSound s line) : LineCopied s (copyLine s q (migSource s q.val) line []) q line := by
  obtain ⟨h1, h2, h3, h4, h5, h6⟩ := copyBegun_parts s q line
  rw [copyLine_of_sound hs]
  split
  next hlt => exact ⟨h1, h5, h3, fun _ => ⟨h6.trans hr, h2⟩, fun hn => absurd hlt (Nat.not_lt.2 hn)⟩
  next hge =>
    obtain ⟨k1, k2, k3, k4, k5, k6, k7⟩ := copyEnds_parts (copyBegun s q line) q (migSource_lt s q.val)
    refine ⟨k1.trans h1, k3.trans h5, (lineQueued_congr k2 ..).trans h3, fun hlt => absurd hlt hge, fun _ => ⟨k4, k5, k6, ?_⟩⟩
    rwa [h4] at k7

theorem lineCopied_of_onlyChans {v t : State} (ho : OnlyChans s v) (h : LineCopied v t q line) : LineCopied s t q line := by
  obtain ⟨c, rfl⟩ := ho
  exact h

theorem lineCopied_migrationCopy (h : copyDue s q line) (hf : lineQueued s (rankChan q.val 15) line = true ∨ (s.dram.ch[rankChan q.val 15]).writeQ.length < 64)
    (ht : turnNow s (rankChan q.val (migSource s q.val)) (copyReq q line)) (hsrc : migSource s q.val ≠ 15) (hs : lineSound s line) :
    LineCopied s (migrationCopy s q []) q line := by
  obtain ⟨v, ho, e⟩ := migrationCopy_copies h hf ht hsrc hs
  obtain ⟨hr, _, _, _⟩ := h
  rw [e]
  refine lineCopied_of_onlyChans ho ?_
  obtain ⟨c, rfl⟩ := ho
  exact lineCopied_copyLine hr hs

end

end

end Sys2Proof.Machine
end

section
/-! PROOFS. O51: DRAM's service, its lines, the write queues, the copy of a rank, and the mesh. -/

namespace Sys2Proof.Machine

open Says

variable {s : State}

/-! The packets' commands (R22, R23, R28 to R31). -/

section
variable {r : Fin 40} {p : Packet}

theorem nocRouter_of_unlisted (h : packetSound p) (ha : packetAdmitted s p) (ho : opcodeListed (pOpcode p) = false) :
    nocRouter s r p = raise s 1 (routerRegion r.val) 0x3F9 0xFF 0xFF 0 := by
  have hh : headSound p := h.1
  rw [nocRouter_of_admitted hh ha, linkWords_of_sound h, routerTakes_sound, if_pos (by rw [ho]; rfl)]

theorem nocRouter_of_listed (h : packetSound p) (ha : packetAdmitted s p) (ho : opcodeListed (pOpcode p) = true) : nocRouter s r p = packetGoes s r p := by
  have hh : headSound p := h.1
  rw [nocRouter_of_admitted hh ha, linkWords_of_sound h, routerTakes_sound, if_neg (by rw [ho]; decide)]

/-- A packet with one word beyond correction goes on with that word poisoned, and is reported. -/
theorem nocRouter_of_oneBad {k : Nat} (hk : k < p.payload.length) (hh : headSound p) (hb : eccDecode p.payload[k] (pAddr p + 8 * k) = .uncorrectable)
    (hg : ∀ e ∈ p.payload.zipIdx, e.2 ≠ k → eccDecode e.1 (pAddr p + 8 * e.2) = .good) (ha : packetAdmitted s p) (ho : opcodeListed (pOpcode p) = true) :
    nocRouter s r p = packetGoes (raise s 0 (routerRegion r.val) 0x3F8 0xFF 0xFF 0) r
      { p with payload := p.payload.set k (eccEncode p.payload[k].data (pAddr p + 8 * k) true) } := by
  rw [nocRouter_of_admitted hh ha, linkWords_of_oneBad hk hb hg, routerTakes_oneBad _ _ hk ho]

end

/-! A line's commands. -/

section
variable {q : LineReq} {fs : LineFlips} {en : BitVec 256} {data : List Byte} {pz : BitVec 32} {t : State}

theorem dramRead_answers (h : dramRead s q fs = t) : exec (.dramRead q fs) s = .next t := congrArg Host.Outcome.next h

theorem dramWrite_answers (h : (dramWrite s q en data pz fs false).1 = t) : exec (.dramWrite q en data fs pz) s = .next t := congrArg Host.Outcome.next h

end

/-- Settles O51: each command by the lemmas about its function. -/
theorem memoryAndMeshServeRequests : Obligations.MemoryAndMeshServeRequests := by
  intro s
  refine ⟨fun q v => ?bringUp, fun ch res => ?trained, fun h => execDramInitDone_of_idle h, fun h ht => dramInitDone_trained h ht, fun r fl en data pz => ?line,
    fun ch byAge ls => ?drain, fun q fl => ?copy, fun h => congrArg _ (refreshWindow_of_off h), fun h => ⟨_, rfl, refreshWindow_on h⟩,
    fun ch rk m derate => ?mr4, fun ch drift dq ca => ?drift, fun p => ?packet, fun a b => ⟨routeOf_self b, routeOf_nearer⟩, creditsKept_meshClock s⟩
  case bringUp =>
    refine ⟨execBringUp_of_off, execBringUp_of_begun, fun hs h hv => ?_, fun hs ha h hv hn => ?_, fun hs ha h hv hn => ?_⟩
    · exact (execBringUp_of_state hs h).trans (congrArg _ (if_neg (by rw [hv]; decide)))
    · exact (execBringUp_of_state hs h).trans (congrArg _ ((if_pos hv).trans (bringUp_configWritten_early ⟨hs, ha⟩ h hn)))
    · exact ⟨_, (execBringUp_of_state hs h).trans (congrArg _ (if_pos hv)), bringUp_configWritten_ready ⟨hs, ha⟩ h hn⟩
  case trained =>
    refine ⟨fun h => congrArg Host.Outcome.next ?_, fun h ho => congrArg _ (dramTrained_of_ok h ((trainOk_iff res).2 ho)), fun h ho => ⟨_, rfl, leftService_dramTrained h (mt (trainOk_iff res).1 ho)⟩⟩
    exact if_pos (by simpa using h)
  case line =>
    refine ⟨fun h => ⟨dramRead_answers (dramRead_of_refused h), dramWrite_answers (dramWrite_of_refused h fl)⟩,
      fun h hm => ⟨dramRead_answers (dramRead_of_unmapped h hm), dramWrite_answers (dramWrite_of_unmapped h hm fl)⟩,
      fun p h hm hu => ⟨dramRead_answers (dramRead_of_down h hm hu), dramWrite_answers (dramWrite_of_down h hm hu fl)⟩, fun p h hm hu => ?_⟩
    refine ⟨fun hq hs => dramRead_answers (dramRead_of_queued h hm hu hq hs), fun hq hc hn => dramRead_answers (dramRead_of_notGo h hm hu hq (readTurn_of_full hc hn)),
      fun hq hr hw => dramRead_answers (dramRead_of_notGo h hm hu hq (readTurn_waits hr hw)), fun hq ht hs => dramRead_answers (dramRead_of_turn h hm hu hq ht hs.1 hs.2),
      fun hf => dramWrite_answers (dramWrite_of_full h hm hu hf fl), fun hf hq he hr hw => dramWrite_answers (dramWrite_of_notGo h hm hu hf he hq (readTurn_waits hr hw) fl),
      fun hf hc hs => ⟨_, dramWrite_answers rfl, dramWrite_of_sound h hm hu hf hc hs.1 hs.2⟩, fun hf he => ?_,
      fun hf hq hp => ⟨_, dramWrite_answers rfl, dramWrite_into_poison h hm hu hf hq hp fl⟩⟩
    subst he
    exact ⟨_, dramWrite_answers rfl, fun w hw => dramWrite_of_whole h hm hu hf pz fl hw⟩
  case drain =>
    refine ⟨fun h hn he => congrArg _ (writeDrain_of_notDue h (by rw [drainDue_of_young hn he]; exact nofun) ls), fun h hn => ?_, fun e h hn he ho => ?_, fun m e rest h hq => ?_,
      fun m l h hl hp => congrArg _ ((writeDrain_of_running h byAge l).trans (drainOne_passed h hl hp))⟩
    · have hd := drainDue_of_many (s := s) hn
      exact ⟨congrArg _ (writeDrain_of_notDue h (by rw [hd]; decide) ls), congrArg _ (writeDrain_begins h hd)⟩
    · have hd := drainDue_of_old hn he ho
      exact ⟨congrArg _ (writeDrain_of_notDue h (by rw [hd]; decide) ls), congrArg _ (writeDrain_begins h hd)⟩
    · exact congrArg _ ((writeDrain_of_running h byAge e.1).trans (drainOne_oldest h hq))
  case copy =>
    exact ⟨fun h => congrArg _ (migrationCopy_held h), fun h => congrArg _ (migrationCopy_of_noLine h), fun l hr hu hp hl =>
      ⟨fun hq hn => congrArg _ (migrationCopy_full ⟨hr, hu, hp, hl⟩ hq hn), fun hf hroom hd hm hsrc hs => ⟨_, rfl, lineCopied_migrationCopy ⟨hr, hu, hp, hl⟩ hf ⟨hroom, hd, hm⟩ hsrc hs⟩⟩⟩
  case mr4 =>
    refine ⟨fun h => execMr4Read_of_down h .., fun h => (execMr4Read_of_up h ..).trans ?_⟩
    rw [bandAsked_eq]
    rfl
  case drift =>
    refine ⟨fun h => congrArg _ (if_pos ?_), fun hu hd h1 h2 => congrArg Host.Outcome.next ?_, fun hu hd he => ⟨_, rfl, wck2dqCheck_of_narrow hu hd he⟩⟩
    · rcases h with h | h
      · rw [h]; rfl
      · rw [decide_eq_true h, Bool.or_true]
    · have hn : ¬ drift ≤ 16 := by omega
      simp [wck2dqCheck, hu, hn, eyesOk, h1, h2]
  case packet =>
    exact ⟨fun r => ⟨fun h ha => congrArg _ (nocRouter_of_refused h.1 ha), fun h ha ho => congrArg _ (nocRouter_of_unlisted h ha ho),
      fun h ha ho => congrArg _ (nocRouter_of_listed h ha ho), fun k hk hh hb hg ha ho => congrArg _ (nocRouter_of_oneBad hk hh hb hg ha ho)⟩, fun r => ⟨fun h => congrArg _ (nocIface_of_younger h), fun h =>
      ⟨fun ho => congrArg _ (nocIface_response h ho), fun ho hu => congrArg _ (nocIface_unmapped h ho hu), fun ho hr => congrArg _ (nocIface_event h ho hr),
        fun ho => congrArg _ (nocIface_doorbell h ho), fun req place h8 h12 ho hq hm ht hl => congrArg _ (nocIface_read h h8 h12 ho hq hm ht hl)⟩⟩⟩

end Sys2Proof.Machine
end

section
/-! PROOFS. What an access to a window of Obsidian does, and the commands to the panel's drivers (R24, R282, R324, R435). -/

namespace Sys2Proof.Machine

open Says

section
variable {s t : State}

/-! A region that serves takes its commands. -/

theorem whenServes_of_serves {r : Nat} (h : serves s r = true) (f : State → State) : whenServes s r f = f s := if_pos h

theorem reqServes_of_serves {r : Nat} (h : serves s r = true) (q : Requester) (f : State → State) : reqServes s q r f = f (reqMeets s q r) := if_pos h

/-! Bits of a register, and the registers of a written key. -/

theorem getB_of_getF {k lo n : Nat} (h : getF s k lo 1 = n) : getB s k lo = (n == 1) := congrArg (· == 1) h

theorem readReg_writeKey_ne (s : State) {k a : Nat} (v : Word) (h : a ≠ k) : readReg (writeKey s k v) a = readReg s a := readReg_setReg_ne s _ h

theorem readReg_raise (s : State) (a b c d e g k : Nat) : readReg (raise s a b c d e g) k = readReg s k := congrArg (smRead regReset · k) (raise_regs ..)

/-! Commands to the column drivers. -/

/-- A state is `s` but for the panel's state, which is `o`, and what the links carry. -/
def OnlyObsAndLinks (s : State) (o : Obsidian) (t : State) : Prop := ∃ l, t = { s with obs := o, links := l }

theorem onlyObsAndLinks_drvMore (s : State) (cmds : List DrvCmd) : OnlyObsAndLinks s { s.obs with sent := s.obs.sent ++ cmds } (drvMore s cmds) := by
  unfold drvMore
  refine List.foldlRecOn (motive := OnlyObsAndLinks s _) _ _ ⟨s.links, rfl⟩ fun t ht c _ => ?_
  refine List.foldlRecOn (motive := OnlyObsAndLinks s _) _ _ ht fun u ⟨l, hu⟩ g _ => ?_
  subst hu
  exact ⟨_, rfl⟩

theorem onlyObsAndLinks_drvSend (s : State) (cmds : List DrvCmd) : OnlyObsAndLinks s { s.obs with sent := cmds } (drvSend s cmds) :=
  onlyObsAndLinks_drvMore (setObs s fun o => { o with sent := [] }) cmds

/-- The panel's state once a command is asked for: it is sent, or waits for a blanking slot (R324). -/
def drvAsked (s : State) (c : DrvCmd) : Obsidian :=
  { s.obs with sent := s.obs.sent ++ (if drvFree s then [c] else []), drvWait := s.obs.drvWait ++ (if drvFree s then [] else [c]) }

theorem onlyObsAndLinks_drvAsk (s : State) (c : DrvCmd) : OnlyObsAndLinks s (drvAsked s c) (drvAsk s c) := by
  unfold drvAsk drvAsked
  split
  · simpa using onlyObsAndLinks_drvMore s [c]
  · exact ⟨s.links, by simp [setObs]⟩

theorem drvFree_congr (hs : t.scan = s.scan) (hg : readReg t obsPanelGeom = readReg s obsPanelGeom) : drvFree t = drvFree s := by
  rw [drvFree, drvFree, activeSlots, activeSlots, panelH, panelH, getF_congr hg, hs]

end

end Sys2Proof.Machine
end

section
/-! PROOFS. The calibration map unit: a load begins and ends, a map is staged, the bytes of a load stand in its buffer, and the checks decide (R52 to R59, R283, R551). -/

namespace Sys2Proof.Machine

open Says

section
variable {r s t u v : State}

/-! BUSY and PENDING (R55). -/

theorem getF_calStatus (s : State) {lo n : Nat} (h : lo + n ≤ 30) : getF (calStatus s) obsCalmapStatus lo n = getF s obsCalmapStatus lo n :=
  (getF_setF_ne _ _ _ (by omega) (.inl h)).trans (getF_setF_ne _ _ _ (by omega) (.inl (by omega)))

theorem readReg_calStatus_ne (s : State) {k : Nat} (h : k ≠ obsCalmapStatus) : readReg (calStatus s) k = readReg s k :=
  (readReg_setF_ne _ _ _ _ h).trans (readReg_setF_ne _ _ _ _ h)

theorem busy_calStatus (s : State) : getB (calStatus s) obsCalmapStatus 31 = s.calmap.load.isSome := by
  have h : getF (calStatus s) obsCalmapStatus 31 1 = b2n s.calmap.load.isSome % 2 := (getF_setF_ne _ _ _ (by omega) (.inr (by omega))).trans (getF_setF _ _ _ (by omega))
  rw [getB_of_getF h]
  cases s.calmap.load.isSome <;> rfl

theorem pending_calStatus (s : State) : getB (calStatus s) obsCalmapStatus 30 = s.calmap.waiting.isSome := by
  have h : getF (calStatus s) obsCalmapStatus 30 1 = b2n s.calmap.waiting.isSome % 2 := getF_setF _ _ _ (by omega)
  rw [getB_of_getF h]
  cases s.calmap.waiting.isSome <;> rfl

/-! A load begins (R58, R551). -/

/-- FLASH_READ of the map's header, at the panel's MAP_OFFSET (R283). -/
def mapHeader (s : State) : DrvCmd := ⟨0, 7, 0, leAt s.obs.ident 20 4, .bytes [64, 0, 0, 0]⟩

theorem calFirstRead_of_none (h : s.calmap.load = none) : calFirstRead s = s := by rw [calFirstRead, h]

theorem calFirstRead_of_load {st : MapStart} (h : s.calmap.load = some st) : calFirstRead s =
    if (st.dram || s.calmap.waitDram || s.calmap.asked || !s.obs.identified) = true then s
    else drvAsk (setCal s fun c => { c with asked := true }) (mapHeader s) := by
  rw [calFirstRead, h]
  rfl

/-- A load that begins sends its FLASH_READ at once: it is from the panel, DRAM is in service, and the identity block is known. -/
def headerAsked (s : State) (st : MapStart) : Bool := !st.dram && dramUp s && s.obs.identified

/-- The calibration unit once a load has begun. -/
def loadBegun (s : State) (st : MapStart) : CalMap :=
  { s.calmap with load := some st, read := [], readDone := false, readFailed := false, asked := headerAsked s st, waitDram := !dramUp s }

theorem calBegin_of_notAsked {st : MapStart} (h : headerAsked s st = false) : calBegin s st = calStatus (setCal s fun _ => loadBegun s st) := by
  rw [calBegin, calFirstRead_of_load (st := st) rfl, if_pos ?_, loadBegun, h]
  · rfl
  · revert h
    simp only [headerAsked, setCal_obs]
    cases st.dram <;> cases dramUp s <;> cases s.obs.identified <;> simp [setCal]

theorem calBegin_of_asked {st : MapStart} (h : headerAsked s st = true) :
    calBegin s st = calStatus (drvAsk (setCal s fun _ => loadBegun s st) (mapHeader s)) := by
  rw [calBegin, calFirstRead_of_load (st := st) rfl, if_neg ?_, loadBegun, h]
  · rfl
  · revert h
    simp only [headerAsked, setCal_obs]
    cases st.dram <;> cases dramUp s <;> cases s.obs.identified <;> simp [setCal]

theorem calmap_calBegin (s : State) (st : MapStart) : (calBegin s st).calmap = loadBegun s st := by
  cases h : headerAsked s st
  · rw [calBegin_of_notAsked h]
    rfl
  · rw [calBegin_of_asked h]
    obtain ⟨l, e⟩ := onlyObsAndLinks_drvAsk (setCal s fun _ => loadBegun s st) (mapHeader s)
    exact congrArg State.calmap e

theorem busy_calBegin (s : State) (st : MapStart) : getB (calBegin s st) obsCalmapStatus 31 = true :=
  (busy_calStatus _).trans (congrArg (fun c : CalMap => c.load.isSome) (calmap_calBegin s st))

theorem obs_calBegin_of_notAsked {st : MapStart} (h : headerAsked s st = false) : (calBegin s st).obs = s.obs := by
  rw [calBegin_of_notAsked h]
  rfl

theorem obs_calBegin_of_asked {st : MapStart} (h : headerAsked s st = true) : (calBegin s st).obs = drvAsked s (mapHeader s) := by
  rw [calBegin_of_asked h]
  obtain ⟨l, e⟩ := onlyObsAndLinks_drvAsk (setCal s fun _ => loadBegun s st) (mapHeader s)
  exact congrArg State.obs e

/-- What a load's beginning sends to the panel's drivers, or leaves to the next blanking slot. -/
theorem drivers_calBegin (s : State) (st : MapStart) :
    (calBegin s st).obs.sent = s.obs.sent ++ (if (headerAsked s st && drvFree s) = true then [mapHeader s] else []) ∧
    (calBegin s st).obs.drvWait = s.obs.drvWait ++ (if (headerAsked s st && !drvFree s) = true then [mapHeader s] else []) := by
  cases h : headerAsked s st
  · rw [obs_calBegin_of_notAsked h]
    simp
  · rw [obs_calBegin_of_asked h]
    cases hf : drvFree s <;> simp [drvAsked, hf]

/-! START (R551). -/

/-- The state in which START acts: the access has entered its clock, and OBS_CALMAP_CTRL holds what was written. -/
def startWritten (s : State) (q : Requester) (v : Word) : State := writeKey (reqMeets s q 14) obsCalmapCtrl v

theorem startWritten_parts (s : State) (q : Requester) (v : Word) : (startWritten s q v).calmap = s.calmap ∧ (startWritten s q v).obs = s.obs ∧
    dramUp (startWritten s q v) = dramUp s ∧ drvFree (startWritten s q v) = drvFree s := by
  have hr {k : Nat} (h : k ≠ obsCalmapCtrl) : readReg (startWritten s q v) k = readReg s k := (readReg_writeKey_ne _ v h).trans (readReg_reqMeets ..)
  have hs : (startWritten s q v).scan = s.scan ∧ (startWritten s q v).calmap = s.calmap ∧ (startWritten s q v).obs = s.obs := by
    obtain ⟨x, e⟩ := reqMeets_eq s q 14
    rw [startWritten, e]
    exact ⟨rfl, rfl, rfl⟩
  obtain ⟨hscan, hcal, hobs⟩ := hs
  exact ⟨hcal, hobs, congrArg (· == 2) (getF_congr (hr (by decide))), drvFree_congr hscan (hr (by decide))⟩

/-- The start that is latched. -/
def startLatched (w : State) : MapStart := ⟨getB w obsCalmapCtrl 1, addr40 w obsCalmapAddrLo obsCalmapAddrHi⟩

theorem execCalmapStart_of_start {q : Requester} {v : Word} (hs : serves s 14 = true) (hv : flag v 0 = true) :
    execCalmapStart q v s = .next (calAsk (startWritten s q v) (startLatched (startWritten s q v))) := by
  rw [execCalmapStart, reqServes_of_serves hs, calCtrlWrite, if_pos hv]
  rfl

theorem calAsk_of_idle (h : s.calmap.load = none) (st : MapStart) : calAsk s st = calBegin s st := by simp [calAsk, h]

theorem calAsk_of_busy (h : s.calmap.load.isSome = true) (st : MapStart) : calAsk s st = calStatus (setCal s fun c => { c with waiting := some st }) := if_pos h

/-! A load ends (R55, R58). -/

/-- What the end of a load with no start waiting leaves: the unit idle, its result and check shown, its event raised, and all else as before. -/
structure LoadEnds (s t : State) (result check cause arg : Nat) : Prop where
  calmap : t.calmap = { s.calmap with load := none, waiting := none, read := [], readDone := false, readFailed := false, asked := false }
  mem : t.mem = s.mem
  busy : getB t obsCalmapStatus 31 = false
  result : getF t obsCalmapStatus 24 2 = result % 4
  check : getF t obsCalmapStatus 0 4 = check % 16
  inUse : getF t obsCalmapStatus 26 2 = getF s obsCalmapStatus 26 2
  regs : ∀ k, k ≠ obsCalmapStatus → readReg t k = readReg s k
  told : tells t (evCode 2 14 cause) arg

/-- A load's result and failed check are shown (R55). -/
def resultShown (s : State) (result check : Nat) : State := setF (setF s obsCalmapStatus 24 2 result) obsCalmapStatus 0 4 check

/-- The load is over, and no start waits. -/
def loadOver (s : State) : State :=
  setCal s fun c => { c with load := none, waiting := none, read := [], readDone := false, readFailed := false, asked := false }

theorem calEnd_of_noneWaits (hw : s.calmap.waiting = none) (result check cause arg : Nat) :
    calEnd s result check cause arg = calStatus (loadOver (raise (resultShown s result check) 2 14 cause 0xFF 0xFF arg)) := by
  have hw' : (raise (resultShown s result check) 2 14 cause 0xFF 0xFF arg).calmap.waiting = none := hw
  rw [resultShown] at hw'
  rw [calEnd, hw', resultShown, loadOver]

@[simp] theorem calStatus_calmap (s : State) : (calStatus s).calmap = s.calmap := rfl
@[simp] theorem calStatus_mem (s : State) : (calStatus s).mem = s.mem := rfl
@[simp] theorem calStatus_evNet (s : State) : (calStatus s).evNet = s.evNet := rfl
@[simp] theorem loadOver_evNet (s : State) : (loadOver s).evNet = s.evNet := rfl
@[simp] theorem loadOver_mem (s : State) : (loadOver s).mem = s.mem := rfl
@[simp] theorem resultShown_calmap (s : State) (result check : Nat) : (resultShown s result check).calmap = s.calmap := rfl
@[simp] theorem resultShown_mem (s : State) (result check : Nat) : (resultShown s result check).mem = s.mem := rfl

theorem tells_congr {code : BitVec 16} {arg : Nat} (he : t.evNet = s.evNet) (h : tells s code arg) : tells t code arg := by
  rw [tells, he]
  exact h

theorem readReg_loadOver (s : State) (k : Nat) : readReg (loadOver s) k = readReg s k := rfl

theorem loadEnds_calEnd (hw : s.calmap.waiting = none) (result check cause arg : Nat) : LoadEnds s (calEnd s result check cause arg) result check cause arg := by
  have hreg (k : Nat) : readReg (loadOver (raise (resultShown s result check) 2 14 cause 0xFF 0xFF arg)) k = readReg (resultShown s result check) k :=
    (readReg_loadOver ..).trans (readReg_raise ..)
  rw [calEnd_of_noneWaits hw]
  exact {
    calmap := by simp [loadOver]
    mem := by simp
    busy := busy_calStatus _
    result := (getF_calStatus _ (by omega)).trans ((getF_congr (hreg _)).trans ((getF_setF_ne _ _ _ (by omega) (.inr (by omega))).trans (getF_setF _ _ _ (by omega))))
    check := (getF_calStatus _ (by omega)).trans ((getF_congr (hreg _)).trans (getF_setF _ _ _ (by omega)))
    inUse := (getF_calStatus _ (by omega)).trans ((getF_congr (hreg _)).trans
      ((getF_setF_ne _ _ _ (by omega) (.inr (by omega))).trans (getF_setF_ne _ _ _ (by omega) (.inr (by omega)))))
    regs := fun k hk => (readReg_calStatus_ne _ hk).trans ((hreg k).trans ((readReg_setF_ne _ _ _ _ hk).trans (readReg_setF_ne _ _ _ _ hk)))
    told := tells_congr ((calStatus_evNet _).trans (loadOver_evNet _)) (tells_raise ..)
  }

/-! A map is staged (R56, R57). -/

/-- The frame from which the search for a staged map's frame starts. -/
def stageFrom (s : State) : Nat := if s.scan.running then s.scan.frame else 0

/-- The frame of a map that is staged now. -/
def stageFrame (s : State) : Nat := firstUnlaunched s.calmap.launched (s.calmap.launched.length + 1) (stageFrom s)

/-- A stripe of that frame or a later one has been launched already. -/
def stripeAhead (s : State) : Bool := s.gal.toList.any fun g => g.launches.any fun l => frameGe l.record.frame.toNat (stageFrame s)

/-- A map has been staged in `s`, or has taken effect at once. -/
def MapStaged (s t : State) (m : MapRec) : Prop :=
  (stripeAhead s = false → t.calmap.staged = some m ∧ t.calmap.stagedFrom = stageFrom s ∧ t.calmap.inUse = s.calmap.inUse) ∧
  (stripeAhead s = true → t.calmap.staged = none ∧ t.calmap.inUse = some m ∧ t.calmap.before = s.calmap.inUse ∧
    readReg t obsCalmapFrame = BitVec.ofNat 32 (stageFrame s) ∧ getF t obsCalmapStatus 26 2 = kindCode m.kind)

/-- The state with a staged map, which has not taken effect. -/
def stagedOnly (s : State) (m : MapRec) : State := setCal s fun c => { c with staged := some m, stagedFrom := stageFrom s }

theorem calStage_eq (s : State) (m : MapRec) : calStage s m = if stripeAhead s = true then calTake (stagedOnly s m) (stageFrame s) else stagedOnly s m := rfl

theorem kindCode_lt (k : MapKind) : kindCode k < 4 := by cases k <;> decide

theorem calTake_stagedOnly (s : State) (m : MapRec) (f : Nat) :
    (calTake (stagedOnly s m) f).calmap = { s.calmap with staged := none, stagedFrom := stageFrom s, before := s.calmap.inUse, inUse := some m } ∧
    (calTake (stagedOnly s m) f).mem = s.mem ∧ readReg (calTake (stagedOnly s m) f) obsCalmapFrame = BitVec.ofNat 32 f ∧
    getF (calTake (stagedOnly s m) f) obsCalmapStatus 26 2 = kindCode m.kind :=
  ⟨rfl, rfl, readReg_setReg_self .., (getF_congr (readReg_setReg_ne _ _ (by decide))).trans ((getF_congr (readReg_setReg_ne _ _ (by decide))).trans
    ((getF_setF _ _ _ (by omega)).trans (Nat.mod_eq_of_lt (kindCode_lt m.kind))))⟩

theorem mapStaged_calStage (s : State) (m : MapRec) : MapStaged s (calStage s m) m := by
  obtain ⟨hcal, _, hframe, hkind⟩ := calTake_stagedOnly s m (stageFrame s)
  rw [calStage_eq]
  refine ⟨fun h => ?_, fun h => ?_⟩
  · rw [if_neg (by rw [h]; decide)]
    exact ⟨rfl, rfl, rfl⟩
  · rw [if_pos h, hcal]
    exact ⟨rfl, rfl, rfl, hframe, hkind⟩

theorem calStage_frame (s : State) (m : MapRec) : (calStage s m).mem = s.mem ∧ (calStage s m).calmap.waiting = s.calmap.waiting := by
  obtain ⟨hcal, hmem, _⟩ := calTake_stagedOnly s m (stageFrame s)
  rw [calStage_eq]
  split
  · exact ⟨hmem, by rw [hcal]⟩
  · exact ⟨rfl, rfl⟩

/-- The load's end leaves the staged map, and what has taken effect. -/
theorem MapStaged.ends {m : MapRec} {result check cause arg : Nat} (h : MapStaged s v m) (he : LoadEnds v t result check cause arg) : MapStaged s t m := by
  obtain ⟨hlate, hearly⟩ := h
  refine ⟨fun ha => ?_, fun ha => ?_⟩
  · rw [he.calmap]
    exact hlate ha
  · rw [he.calmap, he.regs _ (by decide), he.inUse]
    exact hearly ha

/-- The bytes of a load have been read, since `s`, and stand in its buffer: what the checks and a staged map depend on is as it was. -/
structure LoadRead (s u : State) (got : List Byte) (failed : Bool) (b : Nat) : Prop where
  calmap : u.calmap = { s.calmap with read := got, readDone := true, readFailed := failed, buf := b }
  obs : u.obs = s.obs
  scan : u.scan = s.scan
  gal : u.gal = s.gal
  geom : readReg u obsPanelGeom = readReg s obsPanelGeom

theorem MapStaged.ofLoadRead {got : List Byte} {failed : Bool} {b : Nat} {m : MapRec} (hr : LoadRead s u got failed b) (h : MapStaged u t m) : MapStaged s t m := by
  have hframe : stageFrom u = stageFrom s ∧ stageFrame u = stageFrame s := by
    simp only [stageFrame, stageFrom, hr.calmap, hr.scan, and_self]
  obtain ⟨hf, hn⟩ := hframe
  have hahead : stripeAhead u = stripeAhead s := by simp only [stripeAhead, hr.gal, hn]
  have huse : u.calmap.inUse = s.calmap.inUse := by rw [hr.calmap]
  simpa only [MapStaged, hahead, hn, hf, huse] using h

/-! The checks and their outcome (R52, R56). -/

theorem mapRejects_congr (h : readReg t obsPanelGeom = readReg s obsPanelGeom) (bs : List Byte) (failed : Bool) (serial : List Byte) :
    mapRejects t bs failed serial = mapRejects s bs failed serial := by
  simp only [mapRejects, panelW, panelH, panelN, getF, h]

/-- The number of the check that rejects the bytes read; 0 where none does. -/
def loadRejects (s : State) (got : List Byte) (failed : Bool) : Nat := mapRejects s got failed (sliceBytes s.obs.ident 0 16)

theorem loadRejects_of_failed (s : State) (got : List Byte) : loadRejects s got true = 1 := by simp [loadRejects, mapRejects]

/-- The parametric map of bytes whose residuals fail. -/
def parametricMap (b : Nat) (got : List Byte) : MapRec := ⟨b, .parametric, 0, got.take 128, []⟩

/-- The full map of bytes that pass every check. -/
def fullMap (b : Nat) (got : List Byte) : MapRec := ⟨b, .full, (mapSubst got).length, got.take 128, mapSubst got⟩

/-- The substituted components of an accepted map are told (R53). -/
def substTold (s : State) (sub : List ((Nat × Nat × Nat) × DWord)) : State := if sub.isEmpty then s else raise s 2 14 0x0C3 0xFF 0xFF sub.length

section
variable {got : List Byte} {failed : Bool} {b : Nat}

theorem loadRejects_of_loadRead (h : LoadRead s u got failed b) : mapRejects u u.calmap.read u.calmap.readFailed (sliceBytes u.obs.ident 0 16) = loadRejects s got failed := by
  rw [mapRejects_congr h.geom, h.calmap, h.obs, loadRejects]

theorem calCheck_of_rejected (h : LoadRead s u got failed b) (hr : loadRejects s got failed ≠ 0) :
    calCheck u = calEnd u 3 (loadRejects s got failed) 0x0C2 (loadRejects s got failed) := by
  rw [← loadRejects_of_loadRead h] at hr ⊢
  exact if_pos hr

theorem calCheck_of_dropped (h : LoadRead s u got failed b) (hr : loadRejects s got failed = 0) (hd : mapDrops got ≠ 0) :
    calCheck u = calEnd (if newestKind s.calmap = .full then u else calStage u (parametricMap b got)) 2 (mapDrops got) 0x0C1 (mapDrops got) := by
  have hk : newestKind u.calmap = newestKind s.calmap := by rw [h.calmap]; rfl
  have hg : u.calmap.read = got ∧ u.calmap.buf = b := by rw [h.calmap]; exact ⟨rfl, rfl⟩
  obtain ⟨rfl, rfl⟩ := hg
  rw [← loadRejects_of_loadRead h] at hr
  rw [calCheck, ← hk]
  exact (if_neg (not_not_intro hr)).trans (if_pos hd)

theorem calCheck_of_sound (h : LoadRead s u got failed b) (hr : loadRejects s got failed = 0) (hd : mapDrops got = 0) :
    calCheck u = calEnd (substTold (calStage u (fullMap b got)) (mapSubst got)) 1 0 0x0C0 (mapU got 8 4) := by
  have hg : u.calmap.read = got ∧ u.calmap.buf = b := by rw [h.calmap]; exact ⟨rfl, rfl⟩
  obtain ⟨rfl, rfl⟩ := hg
  rw [← loadRejects_of_loadRead h] at hr
  rw [calCheck]
  exact (if_neg (not_not_intro hr)).trans (if_neg (not_not_intro hd))

end

theorem substTold_frame (s : State) (sub : List ((Nat × Nat × Nat) × DWord)) :
    (substTold s sub).calmap = s.calmap ∧ (substTold s sub).mem = s.mem ∧ (substTold s sub).regs = s.regs := by
  unfold substTold
  split <;> exact ⟨rfl, rfl, rfl⟩

theorem MapStaged.substTold {m : MapRec} (h : MapStaged s v m) (sub : List ((Nat × Nat × Nat) × DWord)) : MapStaged s (substTold v sub) m := by
  obtain ⟨hcal, _, hregs⟩ := substTold_frame v sub
  simpa only [MapStaged, getF, readReg, hcal, hregs] using h

/-- Outside map buffer `b` DRAM holds what it held. -/
def KeptButBuffer (s t : State) (b : Nat) : Prop := ∀ k, k < mapBuffer s b ∨ mapBuffer s b + 0x140000 ≤ k → readByte t k = readByte s k

theorem KeptButBuffer.of_mem {b : Nat} (h : KeptButBuffer s u b) (hm : t.mem = u.mem) : KeptButBuffer s t b := by
  simpa only [KeptButBuffer, readByte, hm] using h

/-- The load is over. -/
def LoadClosed (t : State) : Prop := t.calmap.load = none ∧ t.calmap.read = [] ∧ getB t obsCalmapStatus 31 = false

theorem LoadEnds.closed {result check cause arg : Nat} (h : LoadEnds s t result check cause arg) : LoadClosed t := by
  refine ⟨?_, ?_, h.busy⟩ <;> rw [h.calmap]

/-- What the checks on the bytes read come to, with their buffer `b` (R52, R55, R56). -/
def LoadOutcome (s : State) (b : Nat) (t : State) (got : List Byte) (failed : Bool) : Prop :=
  LoadClosed t ∧ KeptButBuffer s t b ∧
  (loadRejects s got failed ≠ 0 → t.calmap.staged = s.calmap.staged ∧ t.calmap.inUse = s.calmap.inUse ∧ getF t obsCalmapStatus 24 2 = 3 ∧
    getF t obsCalmapStatus 0 4 = loadRejects s got failed % 16 ∧ tells t (evCode 2 14 0x0C2) (loadRejects s got failed)) ∧
  (loadRejects s got failed = 0 → mapDrops got ≠ 0 → getF t obsCalmapStatus 24 2 = 2 ∧ tells t (evCode 2 14 0x0C1) (mapDrops got) ∧
    (newestKind s.calmap = .full → t.calmap.staged = s.calmap.staged ∧ t.calmap.inUse = s.calmap.inUse) ∧
    (newestKind s.calmap ≠ .full → MapStaged s t (parametricMap b got))) ∧
  (loadRejects s got failed = 0 → mapDrops got = 0 → getF t obsCalmapStatus 24 2 = 1 ∧ tells t (evCode 2 14 0x0C0) (mapU got 8 4) ∧ MapStaged s t (fullMap b got))

section
variable {got : List Byte} {failed : Bool} {b : Nat}

theorem LoadRead.waiting (h : LoadRead s u got failed b) : u.calmap.waiting = s.calmap.waiting := by rw [h.calmap]

/-- A load that ends without a map staged leaves the maps as they were. -/
theorem LoadRead.maps_of_ends {result check cause arg : Nat} (h : LoadRead s u got failed b) (he : LoadEnds u t result check cause arg) :
    t.calmap.staged = s.calmap.staged ∧ t.calmap.inUse = s.calmap.inUse := by
  rw [he.calmap, h.calmap]
  exact ⟨rfl, rfl⟩

theorem loadOutcome_of_rejected (h : LoadRead s u got failed b) (hw : s.calmap.waiting = none) (hk : KeptButBuffer s u b) (hr : loadRejects s got failed ≠ 0) :
    LoadOutcome s b (calCheck u) got failed := by
  rw [calCheck_of_rejected h hr]
  have he := loadEnds_calEnd (h.waiting.trans hw) 3 (loadRejects s got failed) 0x0C2 (loadRejects s got failed)
  obtain ⟨hst, huse⟩ := h.maps_of_ends he
  exact ⟨he.closed, hk.of_mem he.mem, fun _ => ⟨hst, huse, he.result, he.check, he.told⟩, fun h0 => absurd h0 hr, fun h0 => absurd h0 hr⟩

theorem loadOutcome_of_dropped (h : LoadRead s u got failed b) (hw : s.calmap.waiting = none) (hk : KeptButBuffer s u b)
    (hr : loadRejects s got failed = 0) (hd : mapDrops got ≠ 0) : LoadOutcome s b (calCheck u) got failed := by
  rw [calCheck_of_dropped h hr hd]
  have hno : ¬loadRejects s got failed ≠ 0 := not_not_intro hr
  by_cases hf : newestKind s.calmap = .full
  · rw [if_pos hf]
    have he := loadEnds_calEnd (h.waiting.trans hw) 2 (mapDrops got) 0x0C1 (mapDrops got)
    exact ⟨he.closed, hk.of_mem he.mem, fun h0 => absurd h0 hno, fun _ _ => ⟨he.result, he.told, fun _ => h.maps_of_ends he, fun hn => absurd hf hn⟩,
      fun _ h0 => absurd h0 hd⟩
  · rw [if_neg hf]
    obtain ⟨hmem, hwait⟩ := calStage_frame u (parametricMap b got)
    have he := loadEnds_calEnd (hwait.trans (h.waiting.trans hw)) 2 (mapDrops got) 0x0C1 (mapDrops got)
    exact ⟨he.closed, hk.of_mem (he.mem.trans hmem), fun h0 => absurd h0 hno,
      fun _ _ => ⟨he.result, he.told, fun hn => absurd hn hf, fun _ => .ofLoadRead h ((mapStaged_calStage u _).ends he)⟩, fun _ h0 => absurd h0 hd⟩

theorem loadOutcome_of_sound (h : LoadRead s u got failed b) (hw : s.calmap.waiting = none) (hk : KeptButBuffer s u b)
    (hr : loadRejects s got failed = 0) (hd : mapDrops got = 0) : LoadOutcome s b (calCheck u) got failed := by
  rw [calCheck_of_sound h hr hd]
  obtain ⟨hmem, hwait⟩ := calStage_frame u (fullMap b got)
  obtain ⟨hcal', hmem', _⟩ := substTold_frame (calStage u (fullMap b got)) (mapSubst got)
  have he := loadEnds_calEnd (((congrArg CalMap.waiting hcal').trans hwait).trans (h.waiting.trans hw)) 1 0 0x0C0 (mapU got 8 4)
  exact ⟨he.closed, hk.of_mem (he.mem.trans (hmem'.trans hmem)), fun h0 => absurd hr h0, fun _ h0 => absurd hd h0,
    fun _ _ => ⟨he.result, he.told, .ofLoadRead h (((mapStaged_calStage u _).substTold _).ends he)⟩⟩

theorem loadOutcome_calCheck (h : LoadRead s u got failed b) (hw : s.calmap.waiting = none) (hk : KeptButBuffer s u b) : LoadOutcome s b (calCheck u) got failed := by
  by_cases hr : loadRejects s got failed = 0
  · by_cases hd : mapDrops got = 0
    · exact loadOutcome_of_sound h hw hk hr hd
    · exact loadOutcome_of_dropped h hw hk hr hd
  · exact loadOutcome_of_rejected h hw hk hr

end

/-! The bytes read stand in a buffer (R54, R551). -/

/-- The buffer of the load. -/
def loadBuffer (s : State) : Nat := if s.calmap.readDone then s.calmap.buf else freeBuffer s.calmap

/-- The bytes read have been put into the load's buffer, now or before. -/
def loadStored (s : State) : State := if s.calmap.readDone then s else calStore (setCal s fun c => { c with readDone := true })

theorem loadStored_of_done (h : s.calmap.readDone = true) : loadStored s = s := if_pos h

/-- The state with the load's buffer chosen, before its bytes are put there. -/
def bufferChosen (s : State) : State := setCal s fun c => { c with readDone := true, buf := freeBuffer s.calmap }

theorem loadStored_of_reading (h : s.calmap.readDone = false) :
    loadStored s = dramPut (bufferChosen s) (mapBuffer s (freeBuffer s.calmap)) (s.calmap.read.take 0x140000) := if_neg (by rw [h]; decide)

theorem dramPut_of_up {a : Nat} {bs : List Byte} (h : dramStatus s a bs.length = 0) : dramPut s a bs = writeBytes s a bs := by simp [dramPut, dramStore, h]

theorem dramPut_of_down {a : Nat} {bs : List Byte} (h : dramStatus s a bs.length ≠ 0) : dramPut s a bs = s := by simp [dramPut, dramStore, h]

/-- Bytes put into DRAM change memory, its poison and its failed reads alone. -/
theorem dramPut_eq (s : State) (a : Nat) (bs : List Byte) : ∃ m p f, dramPut s a bs = { s with mem := m, poison := p, failed := f } := by
  by_cases h : dramStatus s a bs.length = 0
  · exact ⟨_, _, _, dramPut_of_up h⟩
  · exact ⟨_, _, _, dramPut_of_down h⟩

theorem readByte_dramPut_outside (s : State) {a k : Nat} {bs : List Byte} (h : k < a ∨ a + bs.length ≤ k) : readByte (dramPut s a bs) k = readByte s k := by
  by_cases hs : dramStatus s a bs.length = 0
  · rw [dramPut_of_up hs, readByte_writeBytes, dif_neg (by omega)]
  · rw [dramPut_of_down hs]

theorem readBytes_writeBytes (s : State) (a : Nat) (bs : List Byte) : readBytes (writeBytes s a bs) a bs.length = bs := by
  refine List.ext_getElem (by simp [readBytes]) fun i h1 h2 => ?_
  simp [readBytes, readByte_writeBytes, h2]

theorem loadRead_loadStored (s : State) : LoadRead s (loadStored s) s.calmap.read s.calmap.readFailed (loadBuffer s) := by
  cases h : s.calmap.readDone
  · obtain ⟨m, p, f, e⟩ := dramPut_eq (bufferChosen s) (mapBuffer s (freeBuffer s.calmap)) (s.calmap.read.take 0x140000)
    rw [loadStored_of_reading h, e, loadBuffer, if_neg (by rw [h]; decide)]
    exact ⟨rfl, rfl, rfl, rfl, rfl⟩
  · rw [loadStored_of_done h, loadBuffer, if_pos h]
    exact ⟨by rw [← h], rfl, rfl, rfl, rfl⟩

theorem kept_loadStored (s : State) : KeptButBuffer s (loadStored s) (loadBuffer s) := by
  intro k hk
  cases h : s.calmap.readDone
  · rw [loadBuffer, if_neg (by rw [h]; decide)] at hk
    rw [loadStored_of_reading h]
    exact readByte_dramPut_outside _ (hk.imp_right (Nat.le_trans (Nat.add_le_add_left (List.length_take_le ..) _)))
  · rw [loadStored_of_done h]

theorem readBytes_loadStored (hd : s.calmap.readDone = false)
    (h : dramStatus s (mapBuffer s (loadBuffer s)) (s.calmap.read.take 0x140000).length = 0) :
    readBytes (loadStored s) (mapBuffer s (loadBuffer s)) (s.calmap.read.take 0x140000).length = s.calmap.read.take 0x140000 := by
  rw [loadBuffer, if_neg (by rw [hd]; decide)] at h ⊢
  rw [loadStored_of_reading hd, dramPut_of_up (s := bufferChosen s) h, readBytes_writeBytes]

/-! A load from DRAM reads it now (R52, R268). -/

/-- A state is `r` but for its registers and the events that have left. -/
def OnlyTold (r s : State) : Prop := ∃ g e, s = { r with regs := g, evNet := e }

theorem onlyTold_bump {k n : Nat} (h : OnlyTold r s) : OnlyTold r (bump s k n) := by
  obtain ⟨g, e, rfl⟩ := h
  exact ⟨_, _, rfl⟩

theorem onlyTold_raise {a b c d e f : Nat} (h : OnlyTold r s) : OnlyTold r (raise s a b c d e f) := by
  obtain ⟨g, e, rfl⟩ := h
  exact ⟨_, _, rfl⟩

theorem onlyTold_poisonSeen (s : State) (src a n : Nat) : OnlyTold s (poisonSeen s src a n) := by
  unfold poisonSeen
  split
  · exact ⟨s.regs, s.evNet, rfl⟩
  · refine List.foldlRecOn (motive := OnlyTold s) _ _ ⟨s.regs, s.evNet, rfl⟩ fun t ht line _ => ?_
    split
    · exact onlyTold_raise (onlyTold_bump ht)
    · exact ht

/-- The bytes that a load from address `a` reads: the header's count of them, at most a buffer's size. -/
def mapTotal (s : State) (a : Nat) : Nat := if readStatus s 14 a 64 = 0 then max 64 (min (readLe s (a + 8) 4) 0x140000) else 64

/-- The read of the map fails. -/
def mapReadBad (s : State) (a : Nat) : Bool := readStatus s 14 a (mapTotal s a) != 0

/-- What the load has read. -/
def mapGot (s : State) (a : Nat) : List Byte := if mapReadBad s a then [] else readBytes s a (mapTotal s a)

theorem calDramRead_eq (s : State) (a : Nat) : calDramRead s a =
    setCal (poisonSeen s 14 a (mapTotal s a)) fun c => { c with read := mapGot s a, readFailed := c.readFailed || mapReadBad s a } := by
  rw [calDramRead, mapGot, mapReadBad, mapTotal]

theorem readReg_setCal (s : State) (f : CalMap → CalMap) (k : Nat) : readReg (setCal s f) k = readReg s k := rfl

theorem OnlyTold.parts (h : OnlyTold r s) : s.calmap = r.calmap ∧ s.obs = r.obs ∧ s.scan = r.scan ∧ s.gal = r.gal ∧ s.mem = r.mem := by
  obtain ⟨g, e, rfl⟩ := h
  exact ⟨rfl, rfl, rfl, rfl, rfl⟩

theorem calDramRead_parts (s : State) (a : Nat) :
    (calDramRead s a).calmap = { s.calmap with read := mapGot s a, readFailed := s.calmap.readFailed || mapReadBad s a } ∧
    (calDramRead s a).obs = s.obs ∧ (calDramRead s a).scan = s.scan ∧ (calDramRead s a).gal = s.gal ∧ (calDramRead s a).mem = s.mem ∧
    readReg (calDramRead s a) obsPanelGeom = readReg s obsPanelGeom := by
  have hg := readReg_poisonSeen s 14 a (mapTotal s a) (k := obsPanelGeom) (by decide)
  obtain ⟨hcal, hobs, hscan, hgal, hmem⟩ := (onlyTold_poisonSeen s 14 a (mapTotal s a)).parts
  rw [calDramRead_eq]
  generalize poisonSeen s 14 a (mapTotal s a) = v at hg hcal hobs hscan hgal hmem ⊢
  exact ⟨congrArg (fun c : CalMap => { c with read := mapGot s a, readFailed := c.readFailed || mapReadBad s a }) hcal, (setCal_obs ..).trans hobs,
    (setCal_scan ..).trans hscan, (setCal_gal ..).trans hgal, (setCal_mem ..).trans hmem, (readReg_setCal ..).trans hg⟩

theorem loadRead_calDramRead (s : State) (a : Nat) :
    LoadRead s (loadStored (calDramRead s a)) (mapGot s a) (s.calmap.readFailed || mapReadBad s a) (loadBuffer s) ∧
    KeptButBuffer s (loadStored (calDramRead s a)) (loadBuffer s) := by
  obtain ⟨hcal, hobs, hscan, hgal, hmem, hgeom⟩ := calDramRead_parts s a
  have hr := loadRead_loadStored (calDramRead s a)
  have hk := kept_loadStored (calDramRead s a)
  generalize calDramRead s a = v at hcal hobs hscan hgal hmem hgeom hr hk ⊢
  generalize mapGot s a = got at hcal ⊢
  generalize (s.calmap.readFailed || mapReadBad s a) = failed at hcal ⊢
  have hb : loadBuffer v = loadBuffer s := by simp only [loadBuffer, freeBuffer, hcal]
  have hg : v.calmap.read = got ∧ v.calmap.readFailed = failed := by rw [hcal]; exact ⟨rfl, rfl⟩
  obtain ⟨hgot, hfailed⟩ := hg
  rw [hb, hgot, hfailed] at hr
  rw [hb] at hk
  refine ⟨⟨by rw [hr.calmap, hcal], hr.obs.trans hobs, hr.scan.trans hscan, hr.gal.trans hgal, hr.geom.trans hgeom⟩, ?_⟩
  simpa only [KeptButBuffer, mapBuffer, readByte, hcal, hmem] using hk

/-! The last byte has been read, or the panel does not answer (R52, R54). -/

/-- The checks run, or wait for the panel's serial. -/
def checkOrWait (u : State) : State := if u.obs.identified || u.calmap.readFailed then calCheck u else u

theorem calReadDone_of_panel {st : MapStart} (hl : s.calmap.load = some st) (hw : s.calmap.waitDram = false) (h : st.dram = false ∨ s.calmap.readDone = true) :
    calReadDone s = checkOrWait (loadStored s) := by
  have hn : (st.dram && !s.calmap.readDone) = false := by rcases h with h | h <;> simp [h]
  simp [calReadDone, hl, hw, hn, checkOrWait, loadStored]

theorem calReadDone_of_dram {st : MapStart} (hl : s.calmap.load = some st) (hw : s.calmap.waitDram = false) (hs : st.dram = true) (hd : s.calmap.readDone = false) :
    calReadDone s = checkOrWait (loadStored (calDramRead s st.addr)) := by
  simp [calReadDone, hl, hw, hs, hd, checkOrWait, loadStored]

theorem calReadDone_of_idle (h : s.calmap.load = none ∨ s.calmap.waitDram = true) : calReadDone s = s := by
  rcases h with h | h <;> simp [calReadDone, h]

theorem calReadTimeout_of_load {st : MapStart} (hl : s.calmap.load = some st) : calReadTimeout s =
    if (st.dram || s.calmap.readDone || s.calmap.waitDram) = true then s else calCheck (setCal s fun c => { c with readDone := true, readFailed := true }) := by
  rw [calReadTimeout, hl]

theorem calReadTimeout_of_idle (h : s.calmap.load = none ∨ s.calmap.waitDram = true) : calReadTimeout s = s := by
  cases hl : s.calmap.load with
  | none => rw [calReadTimeout, hl]
  | some st =>
    have hw : s.calmap.waitDram = true := h.resolve_left (by simp [hl])
    rw [calReadTimeout_of_load hl, if_pos (by simp [hw])]

theorem checkOrWait_of_identified (h : u.obs.identified = true) : checkOrWait u = calCheck u := if_pos (by simp [h])

/-- The panel's read has failed. -/
def readFailedNow (s : State) : State := setCal s fun c => { c with readDone := true, readFailed := true }

theorem loadEnds_timeout {st : MapStart} (hl : s.calmap.load = some st) (hw : s.calmap.waitDram = false) (hs : st.dram = false) (hd : s.calmap.readDone = false)
    (hn : s.calmap.waiting = none) : LoadEnds (readFailedNow s) (calReadTimeout s) 3 1 0x0C2 1 := by
  have hr : LoadRead s (readFailedNow s) s.calmap.read true s.calmap.buf := ⟨rfl, rfl, rfl, rfl, rfl⟩
  have h1 := loadRejects_of_failed s s.calmap.read
  have hc := calCheck_of_rejected hr (by omega)
  rw [h1] at hc
  rw [calReadTimeout_of_load hl, if_neg (by simp [hs, hd, hw])]
  exact hc ▸ loadEnds_calEnd (s := readFailedNow s) hn 3 1 0x0C2 1

end

/-- Settles O48: START latches and begins, or waits; a load's end stores its bytes, and the checks on them decide what is staged. -/
theorem calibrationMapLoads : Obligations.CalibrationMapLoads := by
  intro s hs
  have own {f : State → State} : Host.Outcome.next (whenServes s 14 f) = (.next (f s) : Out) := congrArg _ (whenServes_of_serves hs f)
  refine ⟨fun q v hv => ?start, fun h => ⟨own.trans (congrArg _ (calReadDone_of_idle h)), own.trans (congrArg _ (calReadTimeout_of_idle h))⟩,
    fun st hl hw => ⟨fun h => ?late, fun hp hd hi hf => ?waits, fun hn => ⟨fun hp hd => ?timeout, fun hi h => ?panel, fun hi hp hd => ?dram⟩⟩⟩
  case start =>
    obtain ⟨hcal, hobs, hdram, hfree⟩ := startWritten_parts s q v
    have hask := execCalmapStart_of_start (q := q) hs hv
    refine ⟨fun hl => ⟨_, hask, ?_⟩, fun hl => ⟨_, hask, ?_⟩⟩
    · rw [calAsk_of_idle (by rw [hcal, hl])]
      obtain ⟨hsent, hwait⟩ := drivers_calBegin (startWritten s q v) (startLatched (startWritten s q v))
      have hbegun := calmap_calBegin (startWritten s q v) (startLatched (startWritten s q v))
      simp only [loadBegun, headerAsked, mapHeader, hcal, hobs, hdram, hfree] at hsent hwait hbegun
      exact ⟨hbegun, hsent, hwait, busy_calBegin ..⟩
    · rw [calAsk_of_busy (by rw [hcal, hl])]
      exact ⟨by rw [← hcal]; rfl, hobs, pending_calStatus _⟩
  case late =>
    refine own.trans (congrArg _ ((calReadTimeout_of_load hl).trans (if_pos ?_)))
    rcases h with h | h <;> simp [h]
  case waits =>
    have hr := loadRead_loadStored s
    have e : calReadDone s = loadStored s := (calReadDone_of_panel hl hw (.inl hp)).trans (if_neg (by rw [hr.obs, hr.calmap]; simp [hi, hf]))
    refine ⟨loadStored s, own.trans (congrArg _ e), hr.calmap, kept_loadStored s, readBytes_loadStored hd⟩
  case timeout =>
    have he := loadEnds_timeout hl hw hp hd hn
    refine ⟨calReadTimeout s, own, he.closed, ?_, ?_, he.mem, he.result, he.check, he.told⟩ <;> rw [he.calmap] <;> rfl
  case panel =>
    have hr := loadRead_loadStored s
    have e := (calReadDone_of_panel hl hw h).trans (checkOrWait_of_identified (by rw [hr.obs, hi]))
    exact ⟨_, own.trans (congrArg _ e), loadOutcome_calCheck hr hn (kept_loadStored s)⟩
  case dram =>
    obtain ⟨hr, hk⟩ := loadRead_calDramRead s st.addr
    have e := (calReadDone_of_dram hl hw hp hd).trans (checkOrWait_of_identified (by rw [hr.obs, hi]))
    exact ⟨_, own.trans (congrArg _ e), loadOutcome_calCheck hr hn hk⟩

end Sys2Proof.Machine
end

section
/-! PROOFS. The PMIC port: a script is asked for, moves on, ends; what a failure shows (R301 to R303, R309). -/

namespace Sys2Proof.Machine

open Says

section
variable {r s t u v : State}

theorem readReg_setObs (s : State) (f : Obsidian → Obsidian) (k : Nat) : readReg (setObs s f) k = readReg s k := rfl

/-! A script is asked for (R303). -/

/-- An operation of the PMIC port changes the port's script, queue and transaction, and OBS_PMIC_CTRL. -/
structure OnlyPort (s t : State) : Prop where
  obs : ∃ a q p, t.obs = { s.obs with script := a, scriptQ := q, port := p }
  regs : ∀ k, k ≠ obsPmicCtrl → readReg t k = readReg s k
  calmap : t.calmap = s.calmap

theorem onlyPort_scriptNext (s : State) : OnlyPort s (scriptNext s) := by
  have same : OnlyPort s s := ⟨⟨_, _, _, rfl⟩, fun _ _ => rfl, rfl⟩
  unfold scriptNext
  split
  · exact same
  · split
    · exact ⟨⟨_, _, _, rfl⟩, fun k hk => readReg_setF_ne _ _ _ _ hk, rfl⟩
    · exact same

theorem onlyPort_scriptAsk (s : State) (n : Nat) (why : ScriptFor) : OnlyPort s (scriptAsk s n why) := by
  obtain ⟨⟨a, q, p, ho⟩, hr, hc⟩ := onlyPort_scriptNext (setObs s fun o => { o with scriptQ := o.scriptQ ++ [(n, why)] })
  exact ⟨⟨a, q, p, ho⟩, hr, hc⟩

/-- A script that `s` asks for starts where none runs or waits, and waits its turn where one runs or Slate drives the port. -/
def ScriptAsked (s t : State) (n : Nat) (why : ScriptFor) : Prop :=
  (s.obs.script = none → s.obs.scriptQ = [] → slateDrives s = false →
    t.obs.script = some ⟨n, 0, why, false, 0⟩ ∧ t.obs.scriptQ = [] ∧ getB t obsPmicCtrl 31 = true) ∧
  (s.obs.script.isSome = true ∨ slateDrives s = true → t.obs.script = s.obs.script ∧ t.obs.scriptQ = s.obs.scriptQ ++ [(n, why)])

theorem scriptNext_of_busy (h : s.obs.script.isSome = true ∨ slateDrives s = true) : scriptNext s = s := by
  unfold scriptNext
  split
  · rfl
  · next hd =>
    obtain ⟨r, hr⟩ := Option.isSome_iff_exists.1 (h.resolve_right hd)
    simp [hr]

theorem scriptNext_of_noneWaits (h : s.obs.script = none) (hq : s.obs.scriptQ = []) : scriptNext s = s := by
  simp [scriptNext, h, hq]

/-- The oldest request becomes the script that runs. -/
def scriptStarts (s : State) (n : Nat) (why : ScriptFor) (rest : List (Nat × ScriptFor)) : State :=
  portShow (setF (setObs s fun o => { o with script := some ⟨n, 0, why, false, 0⟩, scriptQ := rest }) obsPmicCtrl 31 1 1)

theorem scriptNext_of_waits {n : Nat} {why : ScriptFor} {rest : List (Nat × ScriptFor)} (h : s.obs.script = none) (hq : s.obs.scriptQ = (n, why) :: rest)
    (hd : slateDrives s = false) : scriptNext s = scriptStarts s n why rest := by
  simp [scriptNext, h, hq, hd, scriptStarts]

theorem readReg_portShow (s : State) (k : Nat) : readReg (portShow s) k = readReg s k := rfl

theorem scriptAsked_scriptAsk (s : State) (n : Nat) (why : ScriptFor) : ScriptAsked s (scriptAsk s n why) n why := by
  let u : State := setObs s fun o => { o with scriptQ := o.scriptQ ++ [(n, why)] }
  refine ⟨fun h hq hd => ?_, fun h => ?_⟩
  · have e : scriptAsk s n why = scriptStarts u n why [] := scriptNext_of_waits (s := u) h (congrArg (· ++ [(n, why)]) hq) hd
    rw [e]
    exact ⟨rfl, rfl, getB_of_getF ((getF_congr (readReg_portShow ..)).trans (getF_setF _ _ _ (by omega)))⟩
  · have e : scriptAsk s n why = u := scriptNext_of_busy (s := u) h
    rw [e]
    exact ⟨rfl, rfl⟩

theorem ScriptAsked.of_port {n : Nat} {why : ScriptFor} (hs : u.obs.script = s.obs.script) (hq : u.obs.scriptQ = s.obs.scriptQ) (hd : slateDrives u = slateDrives s)
    (h : ScriptAsked u t n why) : ScriptAsked s t n why := by
  simpa only [ScriptAsked, hs, hq, hd] using h

/-! A script ends (R302, R303, R309). -/

/-- The port is idle again, and shows the script's status. -/
def portOver (s : State) (r : ScriptRun) (status : Nat) : State :=
  setF (setF (setF (setF (setF (setObs s fun o => { o with script := none, port := none }) obsPmicCtrl 31 1 0) obsPmicCtrl 30 1 (b2n (status != 0)))
    obsPmicCtrl 27 3 r.script) obsPmicCtrl 23 4 (if status = 0 then 0 else r.entry)) obsPmicCtrl 20 3 status

theorem scriptOver_eq (s : State) (r : ScriptRun) (status : Nat) : scriptOver s r status =
    if status = 0 then portOver s r status else obsEvent (portOver s r status) 2 0x083 (r.script + 16 * r.entry + 256 * status) := rfl

@[simp] theorem portOver_obs (s : State) (r : ScriptRun) (status : Nat) : (portOver s r status).obs = { s.obs with script := none, port := none } := rfl
@[simp] theorem portOver_evNet (s : State) (r : ScriptRun) (status : Nat) : (portOver s r status).evNet = s.evNet := rfl
@[simp] theorem portOver_time (s : State) (r : ScriptRun) (status : Nat) : (portOver s r status).time = s.time := rfl

theorem portOver_parts (s : State) (r : ScriptRun) {status : Nat} (h : status < 8) :
    getF (portOver s r status) obsPmicCtrl 31 1 = 0 ∧ getF (portOver s r status) obsPmicCtrl 20 3 = status ∧
    getF (portOver s r status) obsPmicCtrl 23 4 = (if status = 0 then 0 else r.entry) % 16 ∧ getF (portOver s r status) obsPmicCtrl 27 3 = r.script % 8 := by
  refine ⟨?_, (getF_setF _ _ _ (by omega)).trans (Nat.mod_eq_of_lt h), ?_, ?_⟩
  · unfold portOver
    iterate 4 rw [getF_setF_ne _ _ _ (by omega) (.inr (by omega))]
    exact getF_setF _ _ _ (by omega)
  · exact (getF_setF_ne _ _ _ (by omega) (.inr (by omega))).trans (getF_setF _ _ _ (by omega))
  · unfold portOver
    iterate 2 rw [getF_setF_ne _ _ _ (by omega) (.inr (by omega))]
    exact getF_setF _ _ _ (by omega)

/-- A user's script that fails is over: nothing runs or waits. -/
theorem scriptEnds_of_user {r : ScriptRun} {status : Nat} (hw : r.why = .user) (hq : s.obs.scriptQ = []) (h0 : status ≠ 0) :
    scriptEnds s r status = obsEvent (portOver s r status) 2 0x083 (r.script + 16 * r.entry + 256 * status) := by
  have e := (scriptOver_eq s r status).trans (if_neg h0)
  have hn : scriptNext (scriptOver s r status) = scriptOver s r status := by
    rw [e]
    exact scriptNext_of_noneWaits rfl hq
  rw [scriptEnds, hw, hn, e]

theorem obs_scriptEnds_of_user {r : ScriptRun} {status : Nat} (hw : r.why = .user) (hq : s.obs.scriptQ = []) (h0 : status ≠ 0) :
    (scriptEnds s r status).obs = { s.obs with script := none, port := none } := by
  rw [scriptEnds_of_user hw hq h0]
  exact (raise_obs ..).trans (portOver_obs ..)

theorem oneEvent_raise (he : u.evNet = s.evNet) (ht : u.time = s.time) (level region cause block cell arg : Nat) :
    oneEvent s (raise u level region cause block cell arg) (evCode level region cause) arg := by
  rw [oneEvent, ← he, ← ht]
  exact ⟨_, rfl, rfl, rfl, rfl, rfl⟩

theorem afterPanel_of_none (h : s.obs.afterOff = 0) : afterPanel s = s := if_pos (by simp [h])

/-! Commands to the port while a script runs. -/

section
variable {x : ScriptRun}

theorem execPmicEntry_of_runs (hs : serves s 14 = true) (hx : s.obs.script = some x) (a : PmicResult) : execPmicEntry a s = .next (afterPanel (pmicEntry s a)) := by
  rw [execPmicEntry, pmicStep, hx]
  exact congrArg _ (if_pos (by simp [hs]))

theorem execPmicScriptDone_of_runs (hs : serves s 14 = true) (hx : s.obs.script = some x) : execPmicScriptDone s = .next (afterPanel (pmicScriptDone s)) := by
  rw [execPmicScriptDone, pmicStep, hx]
  exact congrArg _ (if_pos (by simp [hs]))

/-- The script comes to its next entry. -/
def scriptMoved (s : State) (x : ScriptRun) : State := portShow { s with obs := { s.obs with script := some { x with entry := x.entry + 1, nacks := 0 } } }

section
variable (hx : s.obs.script = some x) (he : scriptAtEnd s x = false)
include hx he

theorem pmicEntry_done (hw : flag (scriptWord s x) 31 = false) : pmicEntry s .done = scriptMoved s x := by
  simp [pmicEntry, hx, he, hw, scriptMoved, setObs]

/-- What the byte read must be, under the entry's mask (R302). -/
def pollMatches (w : Word) (b : Byte) : Prop := b &&& BitVec.ofNat 8 (fld w 8 8) = BitVec.ofNat 8 (fld w 0 8)

theorem pmicEntry_read_of_matches {b : Byte} {e : Bool} (hw : flag (scriptWord s x) 31 = true) (hb : pollMatches (scriptWord s x) b) :
    pmicEntry s (.read b e) = scriptMoved s x := by
  rw [pollMatches] at hb
  simp [pmicEntry, hx, he, hw, hb, scriptMoved, setObs]

theorem pmicEntry_read_again {b : Byte} (hw : flag (scriptWord s x) 31 = true) (hb : ¬pollMatches (scriptWord s x) b) : pmicEntry s (.read b false) = s := by
  rw [pollMatches] at hb
  simp [pmicEntry, hx, he, hw, hb]

theorem pmicEntry_read_expired {b : Byte} (hw : flag (scriptWord s x) 31 = true) (hb : ¬pollMatches (scriptWord s x) b) :
    pmicEntry s (.read b true) = scriptEnds s x 3 := by
  rw [pollMatches] at hb
  simp [pmicEntry, hx, he, hw, hb]

theorem pmicEntry_nack_again (hw : fld (scriptWord s x) 29 3 ≠ 2) (hn : x.nacks < 3) :
    pmicEntry s .nack = { s with obs := { s.obs with script := some { x with nacks := x.nacks + 1 } } } := by
  simp [pmicEntry, hx, he, hw, hn, setObs]

theorem pmicEntry_nack_last (hw : fld (scriptWord s x) 29 3 ≠ 2) (hn : 3 ≤ x.nacks) : pmicEntry s .nack = scriptEnds s x 1 := by
  simp [pmicEntry, hx, he, hw, Nat.not_lt.2 hn]

theorem pmicEntry_stretch (hw : fld (scriptWord s x) 29 3 ≠ 2) : pmicEntry s .stretch = scriptEnds s x 2 := by
  simp [pmicEntry, hx, he, hw]

theorem pmicScriptDone_of_notAtEnd : pmicScriptDone s = s := by simp [pmicScriptDone, hx, he]

end

/-- A user's script has failed with `status`: it is over, the port's status shows it, and PMIC_FAULT is raised. -/
def ScriptFailed (s t : State) (x : ScriptRun) (status : Nat) : Prop :=
  t.obs.script = none ∧ getB t obsPmicCtrl 31 = false ∧ getF t obsPmicCtrl 20 3 = status ∧ getF t obsPmicCtrl 23 4 = x.entry ∧ getF t obsPmicCtrl 27 3 = x.script ∧
  oneEvent s t (evCode 2 14 0x083) (x.script + 16 * x.entry + 256 * status)

theorem scriptFailed_scriptEnds {status : Nat} (hw : x.why = .user) (hq : s.obs.scriptQ = []) (h0 : status ≠ 0) (h : status < 8) (hn : x.script < 8) (he : x.entry < 16) :
    ScriptFailed s (scriptEnds s x status) x status := by
  obtain ⟨hbusy, hst, hentry, hscript⟩ := portOver_parts s x h
  have hobs := obs_scriptEnds_of_user hw hq h0
  rw [if_neg h0] at hentry
  refine ⟨congrArg Obsidian.script hobs, ?_⟩
  rw [scriptEnds_of_user hw hq h0]
  exact ⟨getB_of_getF ((getF_raise ..).trans hbusy), (getF_raise ..).trans hst,
    (getF_raise ..).trans (hentry.trans (Nat.mod_eq_of_lt he)), (getF_raise ..).trans (hscript.trans (Nat.mod_eq_of_lt hn)),
    oneEvent_raise (portOver_evNet ..) (portOver_time ..) ..⟩

/-- A command that fails the user's script that runs. -/
theorem execPmicEntry_fails {a : PmicResult} {status : Nat} (hs : serves s 14 = true) (hx : s.obs.script = some x) (ha : s.obs.afterOff = 0)
    (he : pmicEntry s a = scriptEnds s x status) (h0 : status ≠ 0) (h : status < 8) (hw : x.why = .user) (hq : s.obs.scriptQ = []) (hn : x.script < 8)
    (hi : x.entry < 16) : ∃ t, execPmicEntry a s = .next t ∧ ScriptFailed s t x status := by
  have hafter : (scriptEnds s x status).obs.afterOff = 0 := by
    rw [obs_scriptEnds_of_user hw hq h0]
    exact ha
  refine ⟨scriptEnds s x status, ?_, scriptFailed_scriptEnds hw hq h0 h hn hi⟩
  rw [execPmicEntry_of_runs hs hx, he, afterPanel_of_none hafter]

end

/-! A sequence's script ends well (R304). -/

/-- An operation on the lanes leaves the panel's state and the PMIC port's register alone. -/
def OnlyLanes (r s : State) : Prop := s.obs = r.obs ∧ readReg s obsPmicCtrl = readReg r obsPmicCtrl

theorem OnlyLanes.ite {c : Prop} [Decidable c] (hs : OnlyLanes r s) (ht : OnlyLanes r t) : OnlyLanes r (if c then s else t) := by
  split <;> assumption

theorem onlyLanes_setF {k lo n x : Nat} (hk : obsPmicCtrl ≠ k) (h : OnlyLanes r s) : OnlyLanes r (setF s k lo n x) :=
  ⟨h.1, (readReg_setF_ne s lo n x hk).trans h.2⟩

theorem onlyLanes_groupShow {g : Fin 13} (h : OnlyLanes r s) : OnlyLanes r (groupShow s g) := by
  have hk : obsPmicCtrl ≠ obsLgStatus g.val := by simp only [obsPmicCtrl, obsLgStatus]; omega
  exact onlyLanes_setF hk (onlyLanes_setF hk (onlyLanes_setF hk h))

theorem onlyLanes_laneShow {l : Lane} (h : OnlyLanes r s) : OnlyLanes r (laneShow s l) := by
  cases l with
  | src p i =>
    have hk : obsPmicCtrl ≠ qtzPortLinkStatus p.val := by simp only [obsPmicCtrl, qtzPortLinkStatus]; omega
    exact onlyLanes_setF hk h
  | panel g i =>
    unfold laneShow
    dsimp only
    split
    · exact onlyLanes_groupShow h
    · refine List.foldlRecOn (motive := OnlyLanes r) _ _ (onlyLanes_groupShow h) fun t ht x _ => ?_
      split
      · exact onlyLanes_groupShow ht
      · exact ht
  | back i => exact h

theorem onlyLanes_setLane {l : Lane} {f : LaneSt → LaneSt} (h : OnlyLanes r s) : OnlyLanes r (setLane s l f) := onlyLanes_laneShow h

theorem onlyLanes_adaptCtle {l : Lane} (h : OnlyLanes r s) : OnlyLanes r (adaptCtle s l) := by
  cases l with
  | panel g i => exact h
  | src p i => exact onlyLanes_setLane h
  | back i => exact onlyLanes_setLane h

theorem onlyLanes_enterLane {l : Lane} {n : Nat} (h : OnlyLanes r s) : OnlyLanes r (enterLane s l n) :=
  .ite (onlyLanes_adaptCtle (onlyLanes_setLane h)) (onlyLanes_setLane h)

theorem onlyLanes_trainPanel (g : Fin 13) (h : OnlyLanes r s) : OnlyLanes r (trainGroup s (.group g)) :=
  List.foldlRecOn (motive := OnlyLanes r) _ _ h fun _ ht _ _ => .ite (onlyLanes_enterLane ht) ht

theorem onlyLanes_trainBack (h : OnlyLanes r s) : OnlyLanes r (trainGroup s .backchannel) :=
  List.foldlRecOn (motive := OnlyLanes r) _ _ h fun _ ht _ _ => .ite ht (onlyLanes_enterLane ht)

theorem onlyLanes_panelTrain (s : State) : OnlyLanes s (panelTrain s) :=
  onlyLanes_trainBack (List.foldlRecOn (motive := OnlyLanes s) _ _ ⟨rfl, rfl⟩ fun _ ht g _ => onlyLanes_trainPanel g ht)

/-- A sequence's script that has reached its end: its step is over, and no script runs or waits. -/
theorem scriptEnds_of_sequence {x : ScriptRun} (hw : x.why = .sequence) (hs : (scriptStep (portOver s x 0) true).obs.script = none)
    (hq : (scriptStep (portOver s x 0) true).obs.scriptQ = []) : scriptEnds s x 0 = scriptStep (portOver s x 0) true := by
  rw [scriptEnds, hw]
  exact scriptNext_of_noneWaits hs hq

theorem scriptStep_logicOn (h : s.obs.step = .logicOn) : (scriptStep s true).obs = { s.obs with step := .training } ∧
    readReg (scriptStep s true) obsPmicCtrl = readReg s obsPmicCtrl := by
  have e : scriptStep s true = panelTrain (setStep s .training) := by simp only [scriptStep, h, if_true]
  obtain ⟨ho, hr⟩ := onlyLanes_panelTrain (setStep s .training)
  rw [e]
  exact ⟨ho, hr⟩

theorem gtIdle_congr (hr : t.regs = s.regs) (hs : t.scan = s.scan) : gtIdle t = gtIdle s := by
  simp only [gtIdle, getF, readReg, hr, hs]

theorem scriptStep_driveOn (h : s.obs.step = .driveOn) :
    (scriptStep s true).obs = { s.obs with step := .waitFrame, sent := [drvSafe], gtLevel := gtIdle s, gtPulses := [] } ∧ gtIdle (scriptStep s true) = gtIdle s := by
  have e : scriptStep s true = gtSet (drvSend (setStep s .waitFrame) [drvSafe]) (gtIdle s) := by simp only [scriptStep, h, if_true]
  obtain ⟨l, hsend⟩ := onlyObsAndLinks_drvSend (setStep s .waitFrame) [drvSafe]
  rw [e, hsend]
  exact ⟨rfl, gtIdle_congr rfl rfl⟩

section
variable {x : ScriptRun} (hs : serves s 14 = true) (hx : s.obs.script = some x) (he : scriptAtEnd s x = true) (hw : x.why = .sequence)
include hs hx he hw

/-- A sequence's script is done: its step ends. -/
theorem execPmicScriptDone_of_sequence {o : Obsidian} (ho : (scriptStep (portOver s x 0) true).obs = o) (h1 : o.script = none)
    (h2 : o.scriptQ = []) (h3 : o.afterOff = 0) : execPmicScriptDone s = .next (scriptStep (portOver s x 0) true) := by
  subst ho
  have e : pmicScriptDone s = scriptStep (portOver s x 0) true := by
    rw [← scriptEnds_of_sequence hw h1 h2]
    simp [pmicScriptDone, hx, he]
  rw [execPmicScriptDone_of_runs hs hx, e, afterPanel_of_none h3]

theorem execPmicScriptDone_logicOn (hq : s.obs.scriptQ = []) (ha : s.obs.afterOff = 0) (hl : s.obs.step = .logicOn) :
    ∃ t, execPmicScriptDone s = .next t ∧ t.obs.step = .training ∧ t.obs.script = none ∧ getF t obsPmicCtrl 20 3 = 0 := by
  obtain ⟨ho, hr⟩ := scriptStep_logicOn (s := portOver s x 0) hl
  obtain ⟨_, hst, _, _⟩ := portOver_parts s x (status := 0) (by omega)
  rw [portOver_obs] at ho
  exact ⟨_, execPmicScriptDone_of_sequence hs hx he hw ho rfl hq ha, by rw [ho], by rw [ho], (getF_congr hr).trans hst⟩

theorem execPmicScriptDone_driveOn (hq : s.obs.scriptQ = []) (ha : s.obs.afterOff = 0) (hl : s.obs.step = .driveOn) :
    ∃ t, execPmicScriptDone s = .next t ∧ t.obs.step = .waitFrame ∧ t.obs.sent = [drvSafe] ∧ t.obs.gtLevel = gtIdle t := by
  obtain ⟨ho, hg⟩ := scriptStep_driveOn (s := portOver s x 0) hl
  rw [portOver_obs] at ho
  exact ⟨_, execPmicScriptDone_of_sequence hs hx he hw ho rfl hq ha, by rw [ho], by rw [ho], by rw [ho, hg]⟩

end

end

end Sys2Proof.Machine
end

section
/-! PROOFS. The panel's power sequences: requests for power, training's end, the identity block, a map's bytes, and the statement on them (R283, R303 to R307). -/

namespace Sys2Proof.Machine

open Says

section
variable {s t u : State}

/-! Requests for power (R304, R305, R307). -/

/-- The panel begins to power on. -/
def poweringOn (s : State) : State :=
  setStep (setPanelState { s with slate := { s.slate with panelPowered := true } } .poweringOn) .logicOn

theorem powerAsk_of_off (h : s.obs.state = .off) (hc : s.obs.safeCause = none) (ha : s.obs.afterOff = 0) :
    powerAsk s true = scriptAsk (poweringOn s) 0 .sequence := by
  simp [powerAsk, h, hc, ha, powerOn, poweringOn]

theorem slateDrives_congr (hs : t.obs.state = s.obs.state) (hc : t.obs.safeCause = s.obs.safeCause) : slateDrives t = slateDrives s := by
  rw [slateDrives, slateDrives, hs, hc]

@[simp] theorem poweringOn_obs (s : State) : (poweringOn s).obs = { s.obs with state := .poweringOn, step := .logicOn } := rfl

theorem panelStatus_poweringOn (s : State) : getF (poweringOn s) obsPanelStatus 29 3 = 1 := by
  rw [poweringOn, setStep, getF_congr (readReg_setObs ..), setPanelState]
  exact getF_setF _ _ _ (by omega)

theorem slateDrives_eq_false (hc : s.obs.safeCause = none) (h : s.obs.state ≠ .safe) : slateDrives s = false := by
  simp [slateDrives, hc, h]

theorem powerOn_parts (h : s.obs.state = .off) (hc : s.obs.safeCause = none) (ha : s.obs.afterOff = 0) :
    (powerAsk s true).obs.state = .poweringOn ∧ (powerAsk s true).obs.step = .logicOn ∧ getF (powerAsk s true) obsPanelStatus 29 3 = 1 ∧
    ScriptAsked s (powerAsk s true) 0 .sequence := by
  rw [powerAsk_of_off h hc ha]
  obtain ⟨⟨a, q, p, ho⟩, hr, _⟩ := onlyPort_scriptAsk (poweringOn s) 0 .sequence
  have hd : slateDrives (poweringOn s) = slateDrives s :=
    (slateDrives_eq_false (by simp [hc]) (by simp)).trans (slateDrives_eq_false hc (by simp [h])).symm
  exact ⟨by rw [ho, poweringOn_obs], by rw [ho, poweringOn_obs], (getF_congr (hr _ (by decide))).trans (panelStatus_poweringOn s),
    (scriptAsked_scriptAsk (poweringOn s) 0 .sequence).of_port (u := poweringOn s) rfl rfl hd⟩

theorem powerAsk_off_of_on (h : s.obs.state = .on) (hc : s.obs.safeCause = none) (hs : s.obs.step ≠ .offRequested) : powerAsk s false = setStep s .offRequested := by
  simp [powerAsk, h, hc, hs]

theorem powerAsk_on_of_on (h : s.obs.state = .on) (hs : s.obs.step ≠ .offRequested) : powerAsk s true = s := by
  simp [powerAsk, h, hs]

theorem powerAsk_off_of_poweringOn (h : s.obs.state = .poweringOn) : powerAsk s false = setObs s fun o => { o with heldReq := some false } := by
  simp [powerAsk, h]

/-! Training is done (R283, R304). -/

/-- IDENTIFY, the panel's settings and POL_MODE are sent. -/
def identifySent (s : State) : State :=
  let c := drvConfig (setStep s .identify)
  drvSend c.1 [⟨0, 6, 0, 0, .bytes []⟩, c.2, drvPolMode c.1]

/-- The panel's identity is asked for. -/
def identifying (s : State) : State := setObs (identifySent s) fun o => { o with polTold := (drvPolMode (identifySent s)).arg }

theorem trainingDone_eq (h : s.obs.step = .training) (ht : panelTrained s = true) : trainingDone s =
    if s.obs.mapAtTraining = true then calBoot (setObs (identifying s) fun o => { o with mapAtTraining := false }) else identifying s := by
  rw [trainingDone, if_neg (by simp [h, ht])]
  rfl

/-- The pattern and scan mode that POL_MODE carries (R282, R284). -/
def polMode (s : State) : Nat := s.obs.pol + 8 * b2n s.scan.paired

theorem identifying_parts (s : State) : (∃ a v, (identifying s).obs = { s.obs with
    step := .identify, sent := [⟨0, 6, 0, 0, .bytes []⟩, ⟨12, 3, 0xFF, a, v⟩, ⟨12, 5, 0xFF, polMode s, .bytes []⟩], polTold := polMode s }) ∧
    (identifying s).calmap = s.calmap ∧ (identifying s).regs = s.regs := by
  obtain ⟨l, e⟩ := onlyObsAndLinks_drvSend (drvConfig (setStep s .identify)).1
    [⟨0, 6, 0, 0, .bytes []⟩, (drvConfig (setStep s .identify)).2, drvPolMode (drvConfig (setStep s .identify)).1]
  rw [identifying, identifySent, e]
  exact ⟨⟨_, _, rfl⟩, rfl, rfl⟩

theorem boot_load_of_unidentified (hl : s.calmap.load = none) (hi : s.obs.identified = false) : (calBoot s).obs = s.obs ∧
    (calBoot s).calmap.load = some ⟨false, addr40 s obsCalmapAddrLo obsCalmapAddrHi⟩ ∧ (calBoot s).calmap.asked = false := by
  have hn : headerAsked s ⟨false, addr40 s obsCalmapAddrLo obsCalmapAddrHi⟩ = false := by simp [headerAsked, hi]
  rw [calBoot, calAsk_of_idle hl, obs_calBegin_of_notAsked hn, calmap_calBegin]
  exact ⟨rfl, rfl, hn⟩

theorem trainingDone_plain (h : s.obs.step = .training) (ht : panelTrained s = true) (hm : s.obs.mapAtTraining = false) : ∃ a v,
    (trainingDone s).obs.step = .identify ∧ (trainingDone s).obs.sent = [⟨0, 6, 0, 0, .bytes []⟩, ⟨12, 3, 0xFF, a, v⟩, ⟨12, 5, 0xFF, polMode s, .bytes []⟩] ∧
    (trainingDone s).obs.polTold = polMode s ∧ (trainingDone s).obs.state = s.obs.state := by
  obtain ⟨⟨a, v, ho⟩, _, _⟩ := identifying_parts s
  rw [trainingDone_eq h ht, if_neg (by rw [hm]; decide), ho]
  exact ⟨a, v, rfl, rfl, rfl, rfl⟩

theorem trainingDone_boot (h : s.obs.step = .training) (ht : panelTrained s = true) (hm : s.obs.mapAtTraining = true) (hl : s.calmap.load = none)
    (hi : s.obs.identified = false) : (trainingDone s).obs.step = .identify ∧ (trainingDone s).obs.mapAtTraining = false ∧
      (trainingDone s).calmap.load = some ⟨false, addr40 s obsCalmapAddrLo obsCalmapAddrHi⟩ ∧ (trainingDone s).calmap.asked = false ∧
      (trainingDone s).obs.sent.length = 3 := by
  obtain ⟨⟨a, v, ho⟩, hcal, hregs⟩ := identifying_parts s
  rw [trainingDone_eq h ht, if_pos hm]
  generalize identifying s = u at ho hcal hregs
  let w : State := setObs u fun o => { o with mapAtTraining := false }
  have hw : w.obs = { u.obs with mapAtTraining := false } := rfl
  have hc : w.calmap = s.calmap := hcal
  have hr : w.regs = s.regs := hregs
  have haddr : addr40 w obsCalmapAddrLo obsCalmapAddrHi = addr40 s obsCalmapAddrLo obsCalmapAddrHi := by simp only [addr40, getF, readReg, hr]
  obtain ⟨hobs, hload, hasked⟩ := boot_load_of_unidentified (s := w) (by rw [hc, hl]) (by rw [hw, ho, hi])
  rw [haddr] at hload
  rw [hw, ho] at hobs
  exact ⟨by rw [hobs], by rw [hobs], hload, hasked, by rw [hobs]; rfl⟩

/-! The identity block arrives (R54, R283). -/

/-- The serial of an identity block, as OBS_PANEL_SERIAL shows it. -/
def serialRegs (block : List Byte) : List (Nat × Word) := (List.range 4).map fun i => (obsPanelSerial i, BitVec.ofNat 32 (leAt block (4 * i) 4))

/-- The panel has told its identity. -/
def identityKnown (s : State) (block : List Byte) : State := setObs (setRegs s (serialRegs block)) fun o => { o with ident := block, identified := true }

theorem identifyReply_eq {block : List Byte} (h : s.obs.step = .identify) (hl : block.length = 32) :
    identifyReply s block = scriptAsk (setStep (calSerial (identityKnown s block)) .driveOn) 1 .sequence := by
  simp [identifyReply, h, hl, identityKnown, setRegs, serialRegs, List.foldl_map]

theorem readReg_identityKnown_serial (s : State) (block : List Byte) {i : Nat} (hi : i < 4) :
    readReg (identityKnown s block) (obsPanelSerial i) = BitVec.ofNat 32 (leAt block (4 * i) 4) := by
  have hn : ((serialRegs block).map Prod.fst).Nodup := by
    rw [serialRegs, List.map_map]
    exact (by decide : ((List.range 4).map obsPanelSerial).Nodup)
  rw [identityKnown, readReg_setObs, readReg_setRegs hn]
  interval_cases i <;> rfl

theorem readReg_identityKnown_other (s : State) (block : List Byte) {k : Nat} (hk : k ∉ (List.range 4).map obsPanelSerial) :
    readReg (identityKnown s block) k = readReg s k := by
  rw [identityKnown, readReg_setObs, readReg_setRegs_of_notMem (by rwa [serialRegs, List.map_map])]

theorem identityKnown_parts (s : State) (block : List Byte) : (identityKnown s block).obs = { s.obs with ident := block, identified := true } ∧
    (identityKnown s block).calmap = s.calmap ∧ drvFree (identityKnown s block) = drvFree s := by
  have hf := readReg_identityKnown_other s block (k := obsPanelGeom) (by decide)
  obtain ⟨g, e⟩ := onlyRegs_setRegs (serialRegs block) (.refl s)
  have hs : (identityKnown s block).scan = s.scan ∧ (identityKnown s block).calmap = s.calmap ∧
      (identityKnown s block).obs = { s.obs with ident := block, identified := true } := by
    rw [identityKnown, e]
    exact ⟨rfl, rfl, rfl⟩
  obtain ⟨hscan, hcal, hobs⟩ := hs
  exact ⟨hobs, hcal, drvFree_congr hscan hf⟩

theorem calSerial_of_none (h : s.calmap.load = none) : calSerial s = s := by
  simp [calSerial, h, calFirstRead_of_none h]

theorem calSerial_of_reading (h : s.calmap.readDone = false) : calSerial s = calFirstRead s := by simp [calSerial, h]

theorem calFirstRead_asks {st : MapStart} (hl : s.calmap.load = some st) (hs : st.dram = false) (hw : s.calmap.waitDram = false) (ha : s.calmap.asked = false)
    (hi : s.obs.identified = true) : (calFirstRead s).obs = drvAsked s (mapHeader s) ∧ (calFirstRead s).calmap = { s.calmap with asked := true } := by
  obtain ⟨l, e⟩ := onlyObsAndLinks_drvAsk (setCal s fun c => { c with asked := true }) (mapHeader s)
  rw [calFirstRead_of_load hl, if_neg (by simp [hs, hw, ha, hi]), e]
  exact ⟨rfl, rfl⟩

/-- Script 1 is asked for: the power-on sequence goes to its next step, with the panel, the map and the other registers as they were. -/
def DriveAsked (s t : State) : Prop :=
  t.calmap = s.calmap ∧ t.obs.sent = s.obs.sent ∧ t.obs.step = .driveOn ∧ t.obs.ident = s.obs.ident ∧ t.obs.identified = s.obs.identified ∧
  (∀ k, k ≠ obsPmicCtrl → readReg t k = readReg s k) ∧ ScriptAsked s t 1 .sequence

theorem driveAsked_scriptAsk (s : State) : DriveAsked s (scriptAsk (setStep s .driveOn) 1 .sequence) := by
  have ha := scriptAsked_scriptAsk (setStep s .driveOn) 1 .sequence
  obtain ⟨⟨a, q, p, ho⟩, hr, hc⟩ := onlyPort_scriptAsk (setStep s .driveOn) 1 .sequence
  generalize scriptAsk (setStep s .driveOn) 1 .sequence = t at ha ho hr hc ⊢
  refine ⟨hc, ?_, ?_, ?_, ?_, hr, ha⟩ <;> rw [ho] <;> rfl

section
variable {block : List Byte} (h : s.obs.step = .identify) (hb : block.length = 32)
include h hb

theorem identifyReply_idle (hl : s.calmap.load = none) : (identifyReply s block).obs.step = .driveOn ∧ (identifyReply s block).obs.ident = block ∧
    (identifyReply s block).obs.identified = true ∧
    (∀ i, i < 4 → readReg (identifyReply s block) (obsPanelSerial i) = BitVec.ofNat 32 (leAt block (4 * i) 4)) ∧ ScriptAsked s (identifyReply s block) 1 .sequence := by
  obtain ⟨hobs, hcal, _⟩ := identityKnown_parts s block
  have hserial (i : Nat) (hi : i < 4) := readReg_identityKnown_serial s block hi
  obtain ⟨_, _, hstep, hident, hid, hregs, hask⟩ := driveAsked_scriptAsk (identityKnown s block)
  rw [identifyReply_eq h hb, calSerial_of_none (by rw [hcal, hl])]
  rw [hobs] at hident hid
  refine ⟨hstep, hident, hid, fun i hi => (hregs _ ?_).trans (hserial i hi), hask.of_port (by rw [hobs]) (by rw [hobs]) (slateDrives_congr (by rw [hobs]) (by rw [hobs]))⟩
  simp only [obsPanelSerial, obsPmicCtrl]
  omega

theorem identifyReply_loading {st : MapStart} (hl : s.calmap.load = some st) (hs : st.dram = false) (hd : s.calmap.readDone = false)
    (ha : s.calmap.asked = false) (hw : s.calmap.waitDram = false) (hf : drvFree s = true) :
    (identifyReply s block).calmap.asked = true ∧ (identifyReply s block).obs.sent = s.obs.sent ++ [⟨0, 7, 0, leAt block 20 4, .bytes [64, 0, 0, 0]⟩] := by
  obtain ⟨hobs, hcal, hfree⟩ := identityKnown_parts s block
  rw [identifyReply_eq h hb]
  generalize identityKnown s block = u at hobs hcal hfree
  obtain ⟨ho, hc⟩ := calFirstRead_asks (s := u) (by rw [hcal, hl]) hs (by rw [hcal, hw]) (by rw [hcal, ha]) (by rw [hobs])
  obtain ⟨hcal', hsent, _⟩ := driveAsked_scriptAsk (calFirstRead u)
  rw [calSerial_of_reading (by rw [hcal, hd]), hcal', hsent, hc, ho, drvAsked, hfree, hf, mapHeader, hobs]
  exact ⟨rfl, rfl⟩

end

/-! A map's bytes arrive (R283). -/

/-- The bytes of the map with those that have just arrived. -/
def bytesJoined (s : State) (data : List Byte) : List Byte := s.calmap.read ++ data.take (flashAsk s.calmap.read)

theorem flashReply_of_loading {st : MapStart} (hl : s.calmap.load = some st) (hs : st.dram = false) (hd : s.calmap.readDone = false) (ha : s.calmap.asked = true)
    (data : List Byte) : flashReply s data =
      let u := setCal s fun c => { c with read := bytesJoined s data }
      if flashAsk (bytesJoined s data) = 0 then u else drvAsk u (flashRead u (bytesJoined s data).length (flashAsk (bytesJoined s data))) := by
  rw [flashReply, hl]
  exact if_neg (by simp [hs, hd, ha])

theorem flashReply_parts {st : MapStart} (hl : s.calmap.load = some st) (hs : st.dram = false) (hd : s.calmap.readDone = false) (ha : s.calmap.asked = true)
    (data : List Byte) : (flashReply s data).calmap = { s.calmap with read := bytesJoined s data } ∧ (flashReply s data).regs = s.regs := by
  rw [flashReply_of_loading hl hs hd ha]
  dsimp only
  split
  · exact ⟨rfl, rfl⟩
  · obtain ⟨_, _, hregs, _, hcal⟩ := driversOnly_drvAsk (setCal s fun c => { c with read := bytesJoined s data })
      (flashRead (setCal s fun c => { c with read := bytesJoined s data }) (bytesJoined s data).length (flashAsk (bytesJoined s data)))
    exact ⟨hcal, hregs⟩

/-! Scripts that a register write, MONITOR or the end of the scan asks for (R303, R305). -/

theorem scriptAsked_pmicCtrlWrite {v : Word} (q : Requester) (hv : flag v 3 = true) (hn : 6 ≤ fld v 0 3) :
    ScriptAsked s (pmicCtrlWrite (reqMeets s q 14) v) (fld v 0 3) .user := by
  have e : pmicCtrlWrite (reqMeets s q 14) v = scriptAsk (writeKey (reqMeets s q 14) obsPmicCtrl v) (fld v 0 3) .user := if_pos (by simp [hv, hn])
  have ho : (writeKey (reqMeets s q 14) obsPmicCtrl v).obs = s.obs := (writeKey_obs ..).trans (reqMeets_obs ..)
  rw [e]
  exact (scriptAsked_scriptAsk ..).of_port (by rw [ho]) (by rw [ho]) (slateDrives_congr (by rw [ho]) (by rw [ho]))

theorem pmicCtrlWrite_of_noRun {v : Word} (hv : flag v 3 = false) : pmicCtrlWrite s v = writeKey s obsPmicCtrl v := if_neg (by simp [hv])

theorem pmicMonitor_of_due (h : getF s obsPmicCtrl 12 8 ≠ 0) (hd : slateDrives s = false) : pmicMonitor s = scriptAsk s 5 .monitor :=
  if_neg (by simp [h, hd])

theorem driveOffDelay_of_due (h : s.obs.step = .offDelay) : driveOffDelay s = scriptAsk (setStep s .driveOff) 2 .sequence := if_neg (not_not_intro h)

end

/-- Settles O47: a request or a reply does its step's part and asks for the step's script, and the entry that a script has come to decides what an answer does. -/
theorem panelPowerAndScripts : Obligations.PanelPowerAndScripts := by
  intro s hs
  have req {f : State → State} (q : Requester) : Host.Outcome.next (reqServes s q 14 f) = (.next (f (reqMeets s q 14)) : Out) :=
    congrArg _ (reqServes_of_serves hs q f)
  have own {f : State → State} : Host.Outcome.next (whenServes s 14 f) = (.next (f s) : Out) := congrArg _ (whenServes_of_serves hs f)
  refine ⟨fun q h hc ha => ?on, fun q h hc hn => ?off, fun q h => ?held, fun h ht hm => ?trained, fun h ht hm hl hi => ⟨_, own, trainingDone_boot h ht hm hl hi⟩,
    fun block st h hb hl hp hd ha hw hf => ⟨_, own, identifyReply_loading h hb hl hp hd ha hw hf⟩, fun block h hb hl => ⟨_, own, identifyReply_idle h hb hl⟩,
    fun data st hl hp hd ha => ⟨_, own, flashReply_parts hl hp hd ha data⟩, fun g d v => own,
    fun q v hv hn => ⟨_, req q, scriptAsked_pmicCtrlWrite q hv hn⟩, fun q v hv => (req q).trans (congrArg _ (pmicCtrlWrite_of_noRun hv)),
    fun hp hc hn => ⟨_, own.trans (congrArg _ (pmicMonitor_of_due hp (slateDrives_eq_false hc hn))), scriptAsked_scriptAsk ..⟩, fun h => ?delay,
    fun x hx ha => ⟨fun he => ?entry, fun he hq hw => ?done⟩⟩
  case on =>
    have ho : (reqMeets s q 14).obs = s.obs := reqMeets_obs ..
    obtain ⟨hst, hstep, hshow, hask⟩ := powerOn_parts (s := reqMeets s q 14) (by rw [ho, h]) (by rw [ho, hc]) (by rw [ho, ha])
    exact ⟨_, req q, hst, hstep, hshow, hask.of_port (by rw [ho]) (by rw [ho]) (slateDrives_congr (by rw [ho]) (by rw [ho]))⟩
  case off =>
    have ho : (reqMeets s q 14).obs = s.obs := reqMeets_obs ..
    have hoff := powerAsk_off_of_on (s := reqMeets s q 14) (by rw [ho, h]) (by rw [ho, hc]) (by rwa [ho])
    have hon := powerAsk_on_of_on (s := reqMeets s q 14) (by rw [ho, h]) (by rwa [ho])
    rw [setStep, setObs, ho] at hoff
    exact ⟨(req q).trans (congrArg _ hoff), (req q).trans (congrArg _ hon)⟩
  case held =>
    have ho : (reqMeets s q 14).obs = s.obs := reqMeets_obs ..
    have hheld := powerAsk_off_of_poweringOn (s := reqMeets s q 14) (by rw [ho, h])
    rw [setObs, ho] at hheld
    exact (req q).trans (congrArg _ hheld)
  case trained =>
    obtain ⟨a, v, h'⟩ := trainingDone_plain h ht hm
    exact ⟨_, a, v, own, h'⟩
  case delay =>
    obtain ⟨⟨a, q, p, ho⟩, _, _⟩ := onlyPort_scriptAsk (setStep s .driveOff) 2 .sequence
    refine ⟨_, own.trans (congrArg _ (driveOffDelay_of_due h)), by rw [ho]; rfl, (scriptAsked_scriptAsk (setStep s .driveOff) 2 .sequence).of_port rfl rfl rfl⟩
  case entry =>
    have run {a : PmicResult} {t : State} (e : pmicEntry s a = t) (h : t.obs.afterOff = 0) : execPmicEntry a s = .next t := by
      rw [execPmicEntry_of_runs hs hx, e, afterPanel_of_none h]
    exact ⟨fun hf => run (pmicEntry_done hx he hf) ha, fun v e hf hb => run (pmicEntry_read_of_matches hx he hf hb) ha,
      fun v hf hb => ⟨run (pmicEntry_read_again hx he hf hb) ha, execPmicEntry_fails hs hx ha (pmicEntry_read_expired hx he hf hb) (by omega) (by omega)⟩,
      fun hf hn => run (pmicEntry_nack_again hx he hf hn) ha,
      fun hf hn => execPmicEntry_fails hs hx ha (pmicEntry_nack_last hx he hf hn) (by omega) (by omega),
      fun hf => execPmicEntry_fails hs hx ha (pmicEntry_stretch hx he hf) (by omega) (by omega),
      by rw [exec_pmicScriptDone, execPmicScriptDone_of_runs hs hx, pmicScriptDone_of_notAtEnd hx he, afterPanel_of_none ha]⟩
  case done => exact ⟨execPmicScriptDone_logicOn hs hx he hw hq ha, execPmicScriptDone_driveOn hs hx he hw hq ha⟩

end Sys2Proof.Machine
end

section
/-! PROOFS. The ports of Quartz and their layers: what an update of a port, of a layer or of a version leaves, and what the close of a scene frame and the rate's measure change (R70, R77, R82, R84). -/

namespace Sys2Proof.Machine

open Says

section
variable {s t : State} {p o : Fin 4}

/-! A port of Quartz. -/

@[simp] theorem qport_setQPort_self (s : State) (p : Fin 4) (f : QPort → QPort) : qport (setQPort s p f) p = f (qport s p) :=
  (getElem_vUpd ..).trans (if_pos rfl)

theorem qport_setQPort_other (s : State) (f : QPort → QPort) (h : o ≠ p) : qport (setQPort s p f) o = qport s o :=
  (getElem_vUpd ..).trans (if_neg h)

/-- A field of the ports that an update of one leaves is as before in every port. -/
theorem qport_setQPort_field {α : Type} (g : QPort → α) {f : QPort → QPort} (h : g (f (qport s p)) = g (qport s p)) (o : Fin 4) :
    g (qport (setQPort s p f) o) = g (qport s o) := by
  by_cases ho : o = p
  · rw [ho, qport_setQPort_self, h]
  · rw [qport_setQPort_other s f ho]

theorem setQPort_of_fixed {f : QPort → QPort} (h : f (qport s p) = qport s p) : setQPort s p f = s := by
  have hv : vUpd s.quartz.ports p f = s.quartz.ports := by
    rw [vUpd, show f s.quartz.ports[p] = s.quartz.ports[p] from h]
    simp
  simp only [setQPort, setQuartz, hv]

theorem setQPort_setQPort (s : State) (p : Fin 4) (f g : QPort → QPort) : setQPort (setQPort s p f) p g = setQPort s p (g ∘ f) := by
  simp [setQPort, setQuartz, vUpd]

/-! The state without its ports: registers, events and memory do not depend on them. -/

@[simp] theorem qport_setF (s : State) (p : Fin 4) (k lo n v : Nat) : qport (setF s k lo n v) p = qport s p := rfl
@[simp] theorem qport_qtzEvent (s : State) (p : Fin 4) (a b c : Nat) : qport (qtzEvent s a b c) p = qport s p := rfl
@[simp] theorem getF_setQPort (s : State) (p : Fin 4) (f : QPort → QPort) (k lo n : Nat) : getF (setQPort s p f) k lo n = getF s k lo n := rfl
@[simp] theorem readReg_setQPort (s : State) (p : Fin 4) (f : QPort → QPort) (k : Nat) : readReg (setQPort s p f) k = readReg s k := rfl
@[simp] theorem getF_qtzEvent (s : State) (a b c k lo n : Nat) : getF (qtzEvent s a b c) k lo n = getF s k lo n := rfl

@[simp] theorem qport_setPortState (s : State) (p : Fin 4) (x : PortState) : qport (setPortState s p x) p = { qport s p with state := x } := by
  simp [setPortState]

theorem getF_setPortState (s : State) (p : Fin 4) (x : PortState) : getF (setPortState s p x) (qtzPortStatus p.val) 8 2 = stateCode x := by
  rw [setPortState, getF_setF _ _ _ (by omega)]
  cases x <;> rfl

/-! Layers and their buffers. -/

theorem find?_map_ite {α : Type} (l : List α) (c g : α → Bool) {f : α → α} (hf : ∀ x, c (f x) = c x) (hg : ∀ x, g x = c x) :
    (l.map fun x => if g x then f x else x).find? c = (l.find? c).map f := by
  induction l with
  | nil => rfl
  | cons x l ih =>
    rw [List.map_cons, List.find?_cons, List.find?_cons, hg x]
    cases hx : c x with
    | true => simp [hf, hx]
    | false => simpa [hx] using ih

theorem layerOf_setLayer (s : State) (p : Fin 4) (id : Nat) {f : Layer → Layer} (hf : ∀ l, (f l).decl = l.decl) :
    layerOf (qport (setLayer s p id f) p) id = (layerOf (qport s p) id).map f := by
  rw [setLayer, qport_setQPort_self]
  have h := find?_map_ite (qport s p).layers (fun l => l.decl.id == id) (fun l => decide (l.decl.id = id)) (f := f) (fun l => by simp only [hf]) (fun l => rfl)
  simpa [layerOf] using h

theorem writingVer_of_bufIn {q : QPort} {id : Nat} {l : Layer} {b : LayerBuf} {v : LayerVer} (hl : layerOf q id = some l) (hb : bufIn l .writing = some b)
    (hv : b.ver = some v) : writingVer q id = some (b.base, v) := by simp [writingVer, hl, hb, hv]

theorem writingVer_of_noWriting {q : QPort} {id : Nat} {l : Layer} (hl : layerOf q id = some l) (hb : bufIn l .writing = none) : writingVer q id = none := by
  simp [writingVer, hl, hb]

/-- The WRITING version is that of a buffer in the role WRITING. -/
theorem bufIn_of_writingVer {q : QPort} {id base : Nat} {l : Layer} {v : LayerVer} (hl : layerOf q id = some l) (h : writingVer q id = some (base, v)) :
    ∃ b, bufIn l .writing = some b ∧ b.ver = some v := by
  cases hb : bufIn l .writing with
  | none => simp [writingVer, hl, hb] at h
  | some b =>
    rw [writingVer, hl] at h
    simp only [hb, Option.map_eq_some_iff, Prod.mk.injEq] at h
    obtain ⟨_, hv, _, rfl⟩ := h
    exact ⟨b, rfl, hv⟩

/-- The buffer of a layer at the base of `b` is WRITING, and holds this version. -/
def writeInto (b : LayerBuf) (v : LayerVer) (l : Layer) : Layer :=
  { l with bufs := l.bufs.map fun x =>
      if x.base = b.base then { x with role := .writing, ver := some v, lastFrame := none, reported := false } else x }

theorem writeInto_decl (b : LayerBuf) (v : LayerVer) (l : Layer) : (writeInto b v l).decl = l.decl := rfl

/-- Where no buffer was WRITING, the one written into is. -/
theorem bufIn_writing_writeInto {l : Layer} {b : LayerBuf} (v : LayerVer) (hb : b ∈ l.bufs) (hw : bufIn l .writing = none) :
    ∃ x, bufIn (writeInto b v l) .writing = some x ∧ x.base = b.base ∧ x.ver = some v := by
  rw [bufIn, writeInto, List.find?_map]
  cases h : l.bufs.find? ((fun b => b.role == BufRole.writing) ∘ fun x =>
      if x.base = b.base then { x with role := .writing, ver := some v, lastFrame := none, reported := false } else x) with
  | none => exact absurd (List.find?_eq_none.mp h b hb) (by simp)
  | some y =>
    have hy : y.base = b.base := by
      by_contra hne
      have hr := List.find?_some h
      simp only [Function.comp_apply, if_neg hne] at hr
      exact List.find?_eq_none.mp hw y (List.mem_of_find?_eq_some h) hr
    exact ⟨_, rfl, by simp [hy], by simp [hy]⟩

/-- A buffer as LAYER_FENCE leaves it: the PENDING one is FREE, a FREE one holds no version, the WRITING one is PENDING (R77, R78). -/
def fencedBuf (b : LayerBuf) : LayerBuf :=
  match b.role with
  | .free | .pending => { b with role := .free, ver := none, lastFrame := none, reported := false }
  | .writing => { b with role := .pending }
  | _ => b

/-- The layer as LAYER_FENCE leaves it. -/
def fencedLayer (l : Layer) : Layer := moveRole (clearFree (moveRole l .pending .free)) .writing .pending

theorem fencedLayer_decl (l : Layer) : (fencedLayer l).decl = l.decl := rfl

theorem fencedLayer_bufs (l : Layer) : (fencedLayer l).bufs = l.bufs.map fencedBuf := by
  simp only [fencedLayer, moveRole, clearFree, List.map_map]
  refine List.map_congr_left fun b _ => ?_
  obtain ⟨_, _, role, _, _, _⟩ := b
  cases role <;> rfl

theorem fencedBuf_role_ne_writing (b : LayerBuf) : ((fencedBuf b).role == .writing) = false := by
  obtain ⟨_, _, role, _, _, _⟩ := b
  cases role <;> rfl

theorem fencedBuf_role_pending (b : LayerBuf) : ((fencedBuf b).role == .pending) = (b.role == .writing) := by
  obtain ⟨_, _, role, _, _, _⟩ := b
  cases role <;> rfl

theorem bufIn_writing_fencedLayer (l : Layer) : bufIn (fencedLayer l) .writing = none := by
  rw [bufIn, fencedLayer_bufs, List.find?_map, List.find?_eq_none.mpr fun b _ => by simp [fencedBuf_role_ne_writing], Option.map_none]

theorem bufIn_pending_fencedLayer (l : Layer) : bufIn (fencedLayer l) .pending = (bufIn l .writing).map fencedBuf := by
  rw [bufIn, fencedLayer_bufs, List.find?_map]
  exact congrArg (fun c => (l.bufs.find? c).map fencedBuf) (funext fencedBuf_role_pending)

theorem fencedBuf_ver {l : Layer} {b : LayerBuf} (h : bufIn l .writing = some b) : (fencedBuf b).ver = b.ver := by
  have hr : b.role = .writing := by simpa using List.find?_some h
  simp [fencedBuf, hr]

/-! The close of a scene frame (R82). -/

/-- A state is `s` but for registers, for events, and for what a port keeps of its layers and of those abandoned in the scene frame. -/
def OnlyAbandons (p : Fin 4) (s t : State) : Prop :=
  ∃ regs evs layers dropped, t = setQPort { s with regs := regs, evNet := evs } p fun q => { q with layers := layers, dropped := dropped }

theorem OnlyAbandons.refl (p : Fin 4) (s : State) : OnlyAbandons p s s := ⟨s.regs, s.evNet, (qport s p).layers, (qport s p).dropped, (setQPort_of_fixed rfl).symm⟩

theorem OnlyAbandons.setLayer (h : OnlyAbandons p s t) (id : Nat) (f : Layer → Layer) : OnlyAbandons p s (setLayer t p id f) := by
  obtain ⟨r, e, l, d, rfl⟩ := h
  exact ⟨r, e, _, d, setQPort_setQPort ..⟩

theorem OnlyAbandons.dropLayer (h : OnlyAbandons p s t) (id : Nat) : OnlyAbandons p s (dropLayer t p id) := by
  obtain ⟨r, e, l, d, rfl⟩ := h
  exact ⟨r, e, l, _, setQPort_setQPort ..⟩

theorem OnlyAbandons.tellAbandoned (h : OnlyAbandons p s t) (id reason frame : Nat) : OnlyAbandons p s (tellAbandoned t p id reason frame) := by
  obtain ⟨r, e, l, d, rfl⟩ := h
  exact ⟨_, _, l, d, rfl⟩

theorem OnlyAbandons.abandon (h : OnlyAbandons p s t) (id reason : Nat) : OnlyAbandons p s (abandon t p id reason) := by
  unfold Machine.abandon
  split
  · exact h
  · have hl := h.setLayer id fun l => clearFree (moveRole l .writing .free)
    refine OnlyAbandons.tellAbandoned ?_ ..
    split
    · exact hl.dropLayer id
    · exact hl

/-- A state is `s` but for registers and events, and for a port whose scene frame in progress is over. -/
def FrameOver (p : Fin 4) (s t : State) : Prop :=
  ∃ regs evs layers headers dropped, t = setQPort { s with regs := regs, evNet := evs } p fun q =>
    { q with layers := layers, dropped := dropped, cur := none, headers := headers }

theorem OnlyAbandons.frameOver (h : OnlyAbandons p s t) : FrameOver p s (setQPort t p fun q => { q with cur := none, headers := [], dropped := [] }) := by
  obtain ⟨r, e, l, d, rfl⟩ := h
  exact ⟨r, e, l, [], [], setQPort_setQPort ..⟩

theorem frameOver_closeFrame (s : State) (p : Fin 4) (reason : Nat) (every : Bool) : FrameOver p s (closeFrame s p reason every) := by
  unfold closeFrame
  dsimp only
  split
  next hc => exact ⟨s.regs, s.evNet, (qport s p).layers, (qport s p).headers, (qport s p).dropped, (setQPort_of_fixed (by rw [← hc])).symm⟩
  next c hc =>
    refine OnlyAbandons.frameOver (List.foldlRecOn (motive := OnlyAbandons p s) _ _ (.refl p s) fun t ht l _ => ?_)
    split
    · split
      · exact ht.abandon ..
      · exact ht
    · exact ht

theorem FrameOver.shows (h : FrameOver p s t) : (qport t p).cur = none ∧ (qport t p).begins = (qport s p).begins ∧ t.now = s.now ∧ t.mem = s.mem := by
  obtain ⟨_, _, _, _, _, rfl⟩ := h
  rw [qport_setQPort_self]
  exact ⟨rfl, rfl, rfl, rfl⟩

theorem cur_closeFrame (s : State) (p : Fin 4) (reason : Nat) (every : Bool) : (qport (closeFrame s p reason every) p).cur = none :=
  (frameOver_closeFrame s p reason every).shows.1

/-! A scene frame begins (R70, R84). -/

/-- The scene frame that a SCENE_FRAME_BEGIN spells (R70). -/
def sceneOf (st : Stream) (u : List Byte) : SceneFrame :=
  ⟨leAt u 8 4, leAt u 0x0C 8, if st.major < 3 then 0 else leAt u 0x18 8, leAt u 0x20 4⟩

/-- What was left of the last scene frame is abandoned, and the unit's is in progress. -/
def frameBegun (s : State) (p : Fin 4) (st : Stream) (u : List Byte) : State :=
  setQPort (closeFrame s p 5 false) p fun q => { q with cur := some (sceneOf st u), headers := [], dropped := [], begun := sceneOf st u :: q.begun }

theorem beginFrame_eq (s : State) (p : Fin 4) (st : Stream) (u : List Byte) : beginFrame s p st u = measureRate (frameBegun s p st u) p st.rate := rfl

/-- A state is `s` with the arrival of a scene frame taken down at a port, but for events and for what the port has reported of its rate. -/
def RateTaken (p : Fin 4) (s t : State) : Prop :=
  ∃ (evs : List Event) (rate : QPort → Nat) (raised : QPort → Bool), t = setQPort { s with evNet := evs } p fun q =>
    { q with begins := (s.now :: q.begins).take 8, reported := rate q, rateRaised := raised q }

theorem RateTaken.reports (h : RateTaken p s t) (rate : QPort → Nat) (raised : QPort → Bool) :
    RateTaken p s (setQPort t p fun q => { q with reported := rate q, rateRaised := raised q }) := by
  obtain ⟨e, _, _, rfl⟩ := h
  exact ⟨e, _, _, setQPort_setQPort ..⟩

theorem RateTaken.event (h : RateTaken p s t) (a b c : Nat) : RateTaken p s (qtzEvent t a b c) := by
  obtain ⟨_, rate, raised, rfl⟩ := h
  exact ⟨_, rate, raised, rfl⟩

theorem RateTaken.ite {c : Prop} [Decidable c] {u : State} (ht : RateTaken p s t) (hu : RateTaken p s u) : RateTaken p s (if c then t else u) := by
  split <;> assumption

theorem RateTaken.shows (h : RateTaken p s t) : (qport t p).cur = (qport s p).cur ∧ (qport t p).headers = (qport s p).headers ∧
    (qport t p).begins = (s.now :: (qport s p).begins).take 8 ∧ t.mem = s.mem := by
  obtain ⟨_, _, _, rfl⟩ := h
  rw [qport_setQPort_self]
  exact ⟨rfl, rfl, rfl, rfl⟩

theorem rateTaken_measureRate (s : State) (p : Fin 4) (declared : Nat) : RateTaken p s (measureRate s p declared) :=
  have h : RateTaken p s (setQPort s p fun q => { q with begins := (s.now :: q.begins).take 8 }) := ⟨s.evNet, QPort.reported, QPort.rateRaised, rfl⟩
  .ite h (.ite (.ite (h.reports ..) (.ite ((h.reports ..).event ..) h)) (.ite (.ite h ((h.reports ..).event ..)) (h.reports ..)))

end

end Sys2Proof.Machine
end

section
/-! PROOFS. A stream starts and ends: what a port shows of a STREAM_START that is refused and of one that is accepted (R64 to R69, R87). -/

namespace Sys2Proof.Machine

open Says

section
variable {s t : State} {p o : Fin 4} {u : List Byte}

/-! A stream ends (R69). -/

/-- A port whose stream has ended. -/
def portEnded (q : QPort) : QPort :=
  { q with
    stream := none, layers := [], cur := none, headers := [], dropped := [], begun := [], skipping := false, held := [], begins := [], reported := 0, rateRaised := false
    ended := q.ended ++ (q.layers.flatMap fun l => l.bufs).filter fun b => b.role == .bound || b.role == .retiring }

@[simp] theorem qport_endStream (s : State) (p : Fin 4) : qport (endStream s p) p = portEnded (qport s p) := qport_setQPort_self ..

theorem readReg_endStream (s : State) {k : Nat} (h : k ≠ qtzPortStatus p.val) : readReg (endStream s p) k = readReg s k := readReg_setReg_ne _ _ h

theorem ctrl_endStream (s : State) (p o : Fin 4) : (qport (endStream s p) o).ctrl = (qport s o).ctrl := qport_setQPort_field QPort.ctrl rfl o

theorem qport_stopStream (s : State) (p : Fin 4) : qport (stopStream s p) p = { portEnded (qport s p) with state := .idle } := by simp [stopStream]

theorem stopStream_mem (s : State) (p : Fin 4) : (stopStream s p).mem = s.mem := by
  rw [stopStream, setPortState, setF_mem, setQPort_mem, endStream, embedEnd, setAudio_mem, setF_mem, setQuartz_mem, setQPort_mem]

/-! A stream starts (R67, R549). -/

/-- The state in which a STREAM_START is judged: the stream that ran has ended, and the control fields have taken effect. -/
def clearedPort (s : State) (p : Fin 4) : State := setQPort (ctrlTakes (endStream s p) p) p fun q => { q with expSeq := 1 }

/-- The STREAM_START is refused for reason `r`. -/
def streamRefused (s : State) (p : Fin 4) (r : Nat) : State :=
  sendStatus (qtzEvent (setPortState (setF s (qtzPortStatus p.val) 24 8 r) p .refused) 0x012 p.val r) p r 0 0

/-- The stream that a STREAM_START declares, with the port's control fields. -/
def declaredStream (s : State) (p : Fin 4) (u : List Byte) : Stream where
  major := leAt u 8 1
  minor := leAt u 9 1
  fit := leAt u 0x0B 1
  aspect := BitVec.ofNat 32 (leAt u 0x0C 4)
  rate := leAt u 0x10 4
  audioChannels := leAt u 0x14 1
  cfg := { slotBase := getF s (qtzPortCtrl p.val) 8 8, slotCount := getF s (qtzPortCtrl p.val) 16 8, policyDefault := getF s (qtzPortCtrl p.val) 4 2
           policyFromStream := getB s (qtzPortCtrl p.val) 3, stallTimeout := getF s (qtzPortCtrl p.val) 24 4 }

/-- The port takes the declared stream, and its layers their buffers. -/
def streamDeclared (s : State) (p : Fin 4) (u : List Byte) : State :=
  setQPort s p fun q => { q with
    stream := some (declaredStream s p u), layers := allocate (declsOf u) (((partitionOf s p).1 + 4095) / 4096 * 4096) }

/-- The STREAM_START is accepted. -/
def streamAccepted (s : State) (p : Fin 4) (u : List Byte) : State :=
  sendStatus (qtzEvent (setPortState (setF (setF (streamDeclared s p u) (qtzPortStatus p.val) 12 4 (leAt u 8 1)) (qtzPortStatus p.val) 16 8 (leAt u 9 1)) p .active)
    0x011 p.val (leAt u 8 1 + 256 * leAt u 9 1)) p 0 (leAt u 8 1) (leAt u 9 1)

theorem startStream_eq (s : State) (p : Fin 4) (u : List Byte) : startStream s p u =
    if refusalOf (clearedPort s p) p u ≠ 0 then streamRefused (clearedPort s p) p (refusalOf (clearedPort s p) p u) else streamAccepted (clearedPort s p) p u := rfl

@[simp] theorem qport_clearedPort (s : State) (p : Fin 4) :
    qport (clearedPort s p) p = { portEnded (qport s p) with ctrl := readReg (endStream s p) (qtzPortCtrl p.val), expSeq := 1 } := by
  simp [clearedPort, ctrlTakes]

theorem readReg_clearedPort (s : State) {k : Nat} (h : k ≠ qtzPortStatus p.val) : readReg (clearedPort s p) k = readReg s k := by
  rw [clearedPort, readReg_setQPort, ctrlTakes, readReg_setQPort, readReg_endStream s h]

theorem ctrl_clearedPort (s : State) (h : o ≠ p) : (qport (clearedPort s p) o).ctrl = (qport s o).ctrl := by
  rw [clearedPort, qport_setQPort_other _ _ h, ctrlTakes, qport_setQPort_other _ _ h, ctrl_endStream]

theorem partitionOf_congr (h : ∀ k, k ≠ qtzPortStatus p.val → readReg t k = readReg s k) : partitionOf t p = partitionOf s p := by
  have hlo : qtzPortLstoreBaseLo p.val ≠ qtzPortStatus p.val := by unfold qtzPortLstoreBaseLo qtzPortStatus; omega
  have hhi : qtzPortLstoreBaseHi p.val ≠ qtzPortStatus p.val := by unfold qtzPortLstoreBaseHi qtzPortStatus; omega
  have hsz : qtzPortLstoreSize p.val ≠ qtzPortStatus p.val := by unfold qtzPortLstoreSize qtzPortStatus; omega
  rw [partitionOf, partitionOf, addr40, addr40, h _ hlo, getF_congr (h _ hhi), h _ hsz]

theorem qtzPortCtrl_ne_status (o p : Fin 4) : qtzPortCtrl o.val ≠ qtzPortStatus p.val := by unfold qtzPortCtrl qtzPortStatus; omega

/-- A refusal's reason rests on the port's registers but its status, and on the control fields in effect at the other ports. -/
theorem refusalOf_congr (h : ∀ k, k ≠ qtzPortStatus p.val → readReg t k = readReg s k) (hc : ∀ o, o ≠ p → (qport t o).ctrl = (qport s o).ctrl) :
    refusalOf t p u = refusalOf s p u := by
  have hF (o : Fin 4) (lo n : Nat) : getF t (qtzPortCtrl o.val) lo n = getF s (qtzPortCtrl o.val) lo n := getF_congr (h _ (qtzPortCtrl_ne_status o p))
  have others (range : Nat × Nat) : (List.finRange 4).any (fun o => o != p && getB t (qtzPortCtrl o.val) 0 && rangesMeet range (slotRange t o)) =
      (List.finRange 4).any (fun o => o != p && getB s (qtzPortCtrl o.val) 0 && rangesMeet range (slotRange s o)) := by
    refine congrArg _ (funext fun o => ?_)
    by_cases ho : o = p
    · simp [ho]
    · rw [getB_of_getF (hF o 0 1), getB_of_getF rfl, slotRange, slotRange, hc o ho]
  unfold refusalOf
  simp only [hF, others, partitionOf_congr h]

theorem refusalOf_clearedPort (s : State) (p : Fin 4) (u : List Byte) : refusalOf (clearedPort s p) p u = refusalOf s p u :=
  refusalOf_congr (fun _ => readReg_clearedPort s) (fun _ => ctrl_clearedPort s)

theorem startStream_refused (h : refusalOf s p u ≠ 0) : startStream s p u = streamRefused (clearedPort s p) p (refusalOf s p u) := by
  rw [startStream_eq, refusalOf_clearedPort, if_pos h]

theorem startStream_accepted (h : refusalOf s p u = 0) : startStream s p u = streamAccepted (clearedPort s p) p u := by
  rw [startStream_eq, refusalOf_clearedPort, if_neg (not_not.mpr h)]

theorem tells_streamRefused (s : State) (p : Fin 4) (r : Nat) : tells (streamRefused s p r) (evCode 1 3 0x012) r :=
  tells_congr (setQPort_evNet ..) (tells_raise ..)

theorem tells_streamAccepted (s : State) (p : Fin 4) (u : List Byte) : tells (streamAccepted s p u) (evCode 1 3 0x011) (leAt u 8 1 + 256 * leAt u 9 1) :=
  tells_congr (setQPort_evNet ..) (tells_raise ..)

theorem getF_streamRefused (s : State) (p : Fin 4) (r k lo n : Nat) :
    getF (streamRefused s p r) k lo n = getF (setPortState (setF s (qtzPortStatus p.val) 24 8 r) p .refused) k lo n := by
  rw [streamRefused, sendStatus, getF_setQPort, getF_qtzEvent]

/-- A refusal shows in the port, in its status and in a STREAM_STATUS that waits to go out (R67, R68, R86). -/
theorem streamRefused_shows (s : State) (p : Fin 4) (r : Nat) :
    qport (streamRefused s p r) p = { qport s p with
      state := .refused, statusOut := (qport s p).statusOut ++ [⟨r, 0, 0, getF s (qtzPortCtrl p.val) 1 2⟩] } ∧
    getF (streamRefused s p r) (qtzPortStatus p.val) 8 2 = 3 ∧ getF (streamRefused s p r) (qtzPortStatus p.val) 24 8 = r % 256 := by
  have hk : getF (setPortState (setF s (qtzPortStatus p.val) 24 8 r) p .refused) (qtzPortCtrl p.val) 1 2 = getF s (qtzPortCtrl p.val) 1 2 := by
    rw [setPortState, getF_setF_other _ _ _ _ _ _ (qtzPortCtrl_ne_status p p), getF_setQPort, getF_setF_other _ _ _ _ _ _ (qtzPortCtrl_ne_status p p)]
  refine ⟨by simp [streamRefused, sendStatus, hk], (getF_streamRefused ..).trans (getF_setPortState ..), ?_⟩
  rw [getF_streamRefused, setPortState, getF_setF_ne _ _ _ (by omega) (by omega), getF_setQPort]
  exact getF_setF _ _ _ (by omega)

/-- An accepted stream is ACTIVE at the port, with the layers that it declares (R67, R76). -/
theorem streamAccepted_shows (s : State) (p : Fin 4) (u : List Byte) :
    (qport (streamAccepted s p u) p).state = .active ∧ (qport (streamAccepted s p u) p).stream = some (declaredStream s p u) ∧
      (qport (streamAccepted s p u) p).layers = allocate (declsOf u) (((partitionOf s p).1 + 4095) / 4096 * 4096) ∧
      (qport (streamAccepted s p u) p).expSeq = (qport s p).expSeq ∧ (qport (streamAccepted s p u) p).cur = (qport s p).cur := by
  simp [streamAccepted, sendStatus, streamDeclared]

end

end Sys2Proof.Machine
end

section
/-! PROOFS. What the units of a stream leave of Quartz's queues: nothing comes to be held at a port, and the bind that waits stays (R77, R80). -/

namespace Sys2Proof.Machine

open Says

/-- Flow control holds no unit at any port, and this is the bind that waits. -/
def Unheld (w : Option BindReq) (s : State) : Prop := (∀ o, (qport s o).held = []) ∧ s.quartz.bindWait = w

section
variable {w : Option BindReq} {s t : State} {p : Fin 4}

theorem Unheld.same (h : Unheld w s) (hq : t.quartz = s.quartz) : Unheld w t := by
  unfold Unheld qport
  rw [hq]
  exact h

theorem Unheld.ite {c : Prop} [Decidable c] (hs : Unheld w s) (ht : Unheld w t) : Unheld w (if c then s else t) := by
  split <;> assumption

theorem Unheld.foldl {α : Type} {f : State → α → State} (hf : ∀ t x, Unheld w t → Unheld w (f t x)) (l : List α) (h : Unheld w s) :
    Unheld w (l.foldl f s) :=
  List.foldlRecOn l f h fun t ht x _ => hf t x ht

theorem unheld_setQPort {f : QPort → QPort} (h : Unheld w s) (hf : (f (qport s p)).held = (qport s p).held) : Unheld w (setQPort s p f) :=
  ⟨fun o => (qport_setQPort_field QPort.held hf o).trans (h.1 o), h.2⟩

theorem unheld_setQPort_held {f : QPort → QPort} (h : Unheld w s) (hf : (f (qport s p)).held = []) : Unheld w (setQPort s p f) :=
  unheld_setQPort h (hf.trans (h.1 p).symm)

/-! With nothing held, no port is looked at again. -/

theorem retryPort_of_unheld (h : (qport s p).held = []) : retryPort s p = s := by simp [retryPort, h]

theorem retryHeld_of_unheld (h : ∀ o, (qport s o).held = []) : retryHeld s = s := List.foldl_fixed' (fun o => retryPort_of_unheld (h o)) _

theorem Unheld.retryHeld_eq (h : Unheld w s) : retryHeld s = s := retryHeld_of_unheld h.1

/-! Operations of other units leave Quartz alone. -/

@[simp] theorem dramStore_quartz (s : State) (a : Nat) (bs : List Byte) : (dramStore s a bs).2.quartz = s.quartz := by
  unfold dramStore
  dsimp only
  split <;> rfl

@[simp] theorem clockSeen_quartz (s : State) (c : Nat) : (clockSeen s c).quartz = s.quartz := by
  unfold clockSeen
  split <;> rfl

theorem clockStamp_quartz (s : State) (c n : Nat) : (clockStamp s c n).quartz = s.quartz := clockSeen_quartz s c

theorem embedUnit_quartz (s : State) (sp : Fin 4) (u : List Byte) (n : Nat) (v3 : Bool) : (embedUnit s sp u n v3).quartz = s.quartz := by
  unfold embedUnit
  dsimp only
  split
  · rfl
  · split
    · rfl
    · split <;> simp only [grnEvent, raise_quartz, bump_quartz, setAudio_quartz, clockStamp_quartz]

/-! The operations of a port. -/

theorem unheld_setLayer {n : Nat} {f : Layer → Layer} (h : Unheld w s) : Unheld w (setLayer s p n f) := unheld_setQPort h rfl

theorem unheld_setWriting {n : Nat} {f : LayerVer → LayerVer} (h : Unheld w s) : Unheld w (setWriting s p n f) := unheld_setLayer h

theorem unheld_setF {k lo n v : Nat} (h : Unheld w s) : Unheld w (setF s k lo n v) := h

theorem unheld_bump {k n : Nat} (h : Unheld w s) : Unheld w (bump s k n) := h

theorem unheld_qtzEvent {a b c : Nat} (h : Unheld w s) : Unheld w (qtzEvent s a b c) := h

theorem unheld_tellAbandoned {a b c : Nat} (h : Unheld w s) : Unheld w (tellAbandoned s p a b c) := unheld_qtzEvent (unheld_bump h)

theorem unheld_setPortState {x : PortState} (h : Unheld w s) : Unheld w (setPortState s p x) := unheld_setF (unheld_setQPort h rfl)

theorem unheld_sendStatus {a b c : Nat} (h : Unheld w s) : Unheld w (sendStatus s p a b c) := unheld_setQPort h rfl

theorem unheld_ctrlTakes (h : Unheld w s) : Unheld w (ctrlTakes s p) := unheld_setQPort h rfl

theorem unheld_endStream (h : Unheld w s) : Unheld w (endStream s p) := unheld_setQPort_held h rfl

theorem unheld_stopStream (h : Unheld w s) : Unheld w (stopStream s p) := unheld_setPortState (unheld_endStream h)

theorem unheld_closeFrame {a : Nat} {b : Bool} (h : Unheld w s) : Unheld w (closeFrame s p a b) := by
  obtain ⟨_, _, _, _, _, e⟩ := frameOver_closeFrame s p a b
  rw [e]
  exact unheld_setQPort h rfl

theorem unheld_sequenceFail (h : Unheld w s) : Unheld w (sequenceFail s p) := unheld_setQPort (unheld_closeFrame h) rfl

theorem unheld_clearedPort (h : Unheld w s) : Unheld w (clearedPort s p) := unheld_setQPort (unheld_ctrlTakes (unheld_endStream h)) rfl

theorem unheld_streamRefused {r : Nat} (h : Unheld w s) : Unheld w (streamRefused s p r) :=
  unheld_sendStatus (unheld_qtzEvent (unheld_setPortState (unheld_setF h)))

theorem unheld_streamAccepted {u : List Byte} (h : Unheld w s) : Unheld w (streamAccepted s p u) :=
  have h' : Unheld w (streamDeclared s p u) := unheld_setQPort h rfl
  unheld_sendStatus (unheld_qtzEvent (unheld_setPortState (unheld_setF (unheld_setF h'))))

theorem unheld_startStream {u : List Byte} (h : Unheld w s) : Unheld w (startStream s p u) :=
  .ite (unheld_streamRefused (unheld_clearedPort h)) (unheld_streamAccepted (unheld_clearedPort h))

theorem unheld_beginFrame {st : Stream} {u : List Byte} (h : Unheld w s) : Unheld w (beginFrame s p st u) := by
  obtain ⟨_, _, _, e⟩ := rateTaken_measureRate (frameBegun s p st u) p st.rate
  rw [beginFrame_eq, e]
  exact unheld_setQPort (unheld_setQPort (unheld_closeFrame h) rfl) rfl

theorem unheld_endFrame (h : Unheld w s) : Unheld w (endFrame s p) := .ite (unheld_sequenceFail h) (unheld_closeFrame h)

theorem unheld_dramStore {a : Nat} {bs : List Byte} (h : Unheld w s) : Unheld w (dramStore s a bs).2 := h.same (dramStore_quartz ..)

theorem unheld_storeWrite {a b c : Nat} {bs : List Byte} (h : Unheld w s) : Unheld w (storeWrite s p a b c bs) :=
  unheld_setWriting (unheld_dramStore h)

theorem unheld_writeBand {a b c : Nat} {bs : List Byte} (h : Unheld w s) : Unheld w (writeBand s p a b c bs) := by
  unfold writeBand
  split
  · exact h
  · exact
      have h' := unheld_setWriting (unheld_storeWrite h)
      .ite h' (unheld_setWriting (unheld_storeWrite h'))

theorem unheld_embedUnit {u : List Byte} {n : Nat} {v3 : Bool} (h : Unheld w s) : Unheld w (embedUnit s p u n v3) := h.same (embedUnit_quartz ..)

/-! Binds (R79, R80). -/

theorem unheld_sweepEnded (h : Unheld w s) : Unheld w (sweepEnded s p) := unheld_setQPort h rfl

theorem unheld_bindSlot {st : Stream} {due : SceneFrame} {hold : Bool} {frame : Nat} {a : State × BindSum} {i : Nat} (h : Unheld w a.1) :
    Unheld w (bindSlot p st due hold frame a i).1 := by
  unfold bindSlot
  dsimp only
  split
  · exact h
  · split
    · exact h
    · split
      · exact h
      · exact unheld_setLayer h

theorem unheld_bindPort {frame tf : Nat} {a : State × BindSum} (h : Unheld w a.1) : Unheld w (bindPort frame tf a p).1 := by
  have h' := unheld_sweepEnded (p := p) (unheld_setQPort (p := p) (f := fun q =>
    { q with ended := q.ended.map fun b => if b.role = .bound then { b with role := .retiring } else b }) h rfl)
  unfold bindPort
  dsimp only
  split
  · split <;> exact h'
  · split
    · exact h'
    · exact List.foldlRecOn (motive := fun a : State × BindSum => Unheld w a.1) _ _ h' fun _ ht _ _ => unheld_bindSlot ht

end

end Sys2Proof.Machine
end

section
/-! PROOFS. The parser on a whole unit: what each unit of a stream comes to, and the bands of a plane (R61 to R63, R70 to R74, R82, R549). -/

namespace Sys2Proof.Machine

open Says

section
variable {w : Option BindReq} {s t : State} {p : Fin 4} {u : List Byte} {ty : Nat} {st : Stream}

/-! A whole unit at an enabled port (R61, R77, R549). -/

theorem sliceBytes_length (bs : List Byte) : sliceBytes bs 0 bs.length = bs := by
  refine List.ext_getElem (by simp [sliceBytes]) fun i _ hi => ?_
  simp [sliceBytes, List.getD_eq_getElem?_getD, hi]

theorem parseBytes_nil (p : Fin 4) (n : Nat) (s : State) : parseBytes p n [] s = s := by
  cases n <;> simp [parseBytes]

/-- The parser takes a whole unit, and then nothing is left to take. -/
theorem parseBytes_of_done (hsearch : (qport s p).searching = false) (hlen : u.length = leAt u 4 4) (hok : lengthOk u.length = true)
    (hstart : leAt u 0 1 = 1 → u.length = 24 + 8 * leAt u 0x0A 1) (ht : takeUnit s p u = .done t) (n : Nat) : parseBytes p (n + 1) u s = t := by
  have h8 : ¬u.length < 8 := by
    simp only [lengthOk, Bool.and_eq_true, decide_eq_true_eq] at hok
    omega
  have hs : setQPort s p (fun q => { q with searching := false }) = s := setQPort_of_fixed (by rw [← hsearch])
  have hbad : (!lengthOk u.length || (leAt u 0 1 == 1 && u.length != 24 + 8 * leAt u 0x0A 1)) = false := by
    simpa [hok] using hstart
  unfold parseBytes
  simp [h8, hsearch, hs, ← hlen, hbad, sliceBytes_length, ht, parseBytes_nil]

/-- A whole unit that leaves nothing held takes its effect at once. -/
theorem feedPort_of_done (h : wholeUnit s p u ty) (hstart : ty = 1 → u.length = 24 + 8 * leAt u 0x0A 1) (ht : takeUnit s p u = .done t)
    (hu : Unheld s.quartz.bindWait s → Unheld s.quartz.bindWait t) : feedPort s p u = t := by
  obtain ⟨hs, hon, hst, hsearch, hheld, hlen, hok, rfl⟩ := h
  have hparse := parseBytes_of_done hsearch hlen hok hstart ht (u.length / 8)
  simp [feedPort, hs, hon, resumePort, hst, hheld, hparse, (hu ⟨hheld, rfl⟩).retryHeld_eq]

theorem feedPort_of_disabled (h : getB s (qtzPortCtrl p.val) 0 = false) : feedPort s p u = s := by simp [feedPort, h]

theorem takeUnit_streamStart (h : wholeUnit s p u 1) : takeUnit s p u = .done (startStream s p u) := by
  obtain ⟨_, _, _, _, _, _, _, hty⟩ := h
  rw [takeUnit, if_pos hty]

/-! A unit in a stream, with the SEQ expected (R62, R63, R82). -/

theorem qport_seqOn (s : State) (p : Fin 4) (u : List Byte) : qport (seqOn s p u) p = { qport s p with expSeq := (leAt u 2 2 + 1) % 65536 } :=
  qport_setQPort_self ..

theorem unheld_seqOn (h : Unheld w s) : Unheld w (seqOn s p u) := unheld_setQPort h rfl

theorem takeUnit_streamEnd (h : nextUnit s p u 0x02 st) : takeUnit s p u = .done (stopStream (seqOn s p u) p) := by
  obtain ⟨⟨_, _, _, _, _, _, _, hty⟩, hst, hskip, hseq⟩ := h
  simp [takeUnit, hty, hst, hskip, ← hseq, knownType, seqOn]

theorem takeUnit_sceneFrameBegin (h : nextUnit s p u 0x10 st) : takeUnit s p u = .done (beginFrame (seqOn s p u) p st u) := by
  obtain ⟨⟨_, _, _, _, _, _, _, hty⟩, hst, hskip, hseq⟩ := h
  simp [takeUnit, hty, hst, hskip, ← hseq, knownType, seqOn]

theorem takeUnit_layerHeader (h : nextUnit s p u 0x11 st) (ht : layerHeader (seqOn s p u) p st u = .done t) : takeUnit s p u = .done t := by
  obtain ⟨⟨_, _, _, _, _, _, _, hty⟩, hst, hskip, hseq⟩ := h
  rw [seqOn] at ht
  simp [takeUnit, hty, hst, hskip, ← hseq, knownType, ht]

theorem takeUnit_planeData (h : nextUnit s p u 0x12 st) : takeUnit s p u = .done (planeUnit (seqOn s p u) p u) := by
  obtain ⟨⟨_, _, _, _, _, _, _, hty⟩, hst, hskip, hseq⟩ := h
  simp [takeUnit, hty, hst, hskip, ← hseq, knownType, seqOn]

theorem takeUnit_sceneFrameEnd (h : nextUnit s p u 0x13 st) : takeUnit s p u = .done (endFrame (seqOn s p u) p) := by
  obtain ⟨⟨_, _, _, _, _, _, _, hty⟩, hst, hskip, hseq⟩ := h
  simp [takeUnit, hty, hst, hskip, ← hseq, knownType, seqOn]

theorem takeUnit_audio (h : nextUnit s p u 0x20 st) : takeUnit s p u = .done (embedUnit (seqOn s p u) p u st.audioChannels (st.major == 3)) := by
  obtain ⟨⟨_, _, _, _, _, _, _, hty⟩, hst, hskip, hseq⟩ := h
  simp [takeUnit, hty, hst, hskip, ← hseq, knownType, seqOn]

theorem takeUnit_unknown (h : nextUnit s p u ty st) (hty : ty ∉ [1, 2, 0x10, 0x11, 0x12, 0x13, 0x20]) :
    takeUnit s p u = .done (bump (seqOn s p u) (qtzPortUnknown p.val)) := by
  obtain ⟨⟨_, _, _, _, _, _, _, rfl⟩, hst, hskip, hseq⟩ := h
  simp only [List.mem_cons, List.not_mem_nil, or_false, not_or] at hty
  obtain ⟨h1, h2, h10, h11, h12, h13, h20⟩ := hty
  simp [takeUnit, h1, h2, h10, h11, h12, h13, h20, hst, hskip, ← hseq, knownType]
  rfl

/-- With another SEQ than expected the scene frame is abandoned, and the expected SEQ is the one after the unit's (R82). -/
theorem takeUnit_wrongSeq (h : wholeUnit s p u ty) (h1 : ty ≠ 1) (hst : (qport s p).stream = some st) (hskip : (qport s p).skipping = false)
    (hseq : leAt u 2 2 ≠ (qport s p).expSeq) :
    takeUnit s p u = .done (seqOn (sequenceFail (if knownType ty then s else bump s (qtzPortUnknown p.val)) p) p u) := by
  obtain ⟨_, _, _, _, _, _, _, rfl⟩ := h
  simp [takeUnit, h1, hst, hskip, hseq, seqOn]

end

end Sys2Proof.Machine
end

section
/-! PROOFS. What the units of a stream do: scene frames, layers, bands of a plane; fences, binds and the port's control (R63, R69 to R85). -/

namespace Sys2Proof.Machine

open Says

section
variable {w : Option BindReq} {s t : State} {p : Fin 4} {u : List Byte} {ty id : Nat} {st : Stream} {c : SceneFrame} {l : Layer} {b : LayerBuf}

/-! Scene frames (R70, R82). -/

theorem beginFrame_shows (s : State) (p : Fin 4) (st : Stream) (u : List Byte) :
    (qport (beginFrame s p st u) p).cur = some (sceneOf st u) ∧ (qport (beginFrame s p st u) p).headers = [] ∧
      (qport (beginFrame s p st u) p).begins = (s.now :: (qport s p).begins).take 8 ∧ (beginFrame s p st u).mem = s.mem := by
  obtain ⟨hcur, hhead, hbeg, hmem⟩ := (rateTaken_measureRate (frameBegun s p st u) p st.rate).shows
  obtain ⟨-, hb, hn, hm⟩ := (frameOver_closeFrame s p 5 false).shows
  have hq : qport (frameBegun s p st u) p = { qport (closeFrame s p 5 false) p with
    cur := some (sceneOf st u), headers := [], dropped := [], begun := sceneOf st u :: (qport (closeFrame s p 5 false) p).begun } := qport_setQPort_self ..
  rw [beginFrame_eq, hcur, hhead, hbeg, hmem, hq, hb]
  exact ⟨rfl, rfl, by rw [frameBegun, setQPort_now, hn], hm⟩

theorem sequenceFail_shows (s : State) (p : Fin 4) : (qport (sequenceFail s p) p).skipping = true ∧ (qport (sequenceFail s p) p).cur = none := by
  simp [sequenceFail, cur_closeFrame]

theorem endFrame_of_cur (h : (qport s p).cur = some c) : endFrame s p = closeFrame s p 5 false := by simp [endFrame, h]

/-! Layers (R71, R74, R77, R82). -/

theorem freeBuf_congr (h : ∀ o, (qport t o).ended = (qport s o).ended) (l : Layer) : freeBuf t l = freeBuf s l := by
  simp only [freeBuf, endedBufs, h]

theorem freeBuf_seqOn (s : State) (p : Fin 4) (u : List Byte) (l : Layer) : freeBuf (seqOn s p u) l = freeBuf s l :=
  freeBuf_congr (qport_setQPort_field QPort.ended rfl) l

/-- The layer has had the header of this version. -/
def noteHeader (v : LayerVer) (l : Layer) : Layer := { l with policies := (v.frame, v.hdr.policy, true) :: l.policies }

theorem noteHeader_decl (v : LayerVer) (l : Layer) : (noteHeader v l).decl = l.decl := rfl

/-- The layer's new version begins in a FREE buffer. -/
def versionBegun (s : State) (p : Fin 4) (id : Nat) (v : LayerVer) (b : LayerBuf) : State :=
  setLayer (setLayer (setQPort (setQuartz s fun x => { x with stamp := x.stamp + 1 }) p fun q => { q with headers := natInsert q.headers id }) p id
    (noteHeader v)) p id (writeInto b v)

theorem layerHeader_undeclared (hc : (qport s p).cur = some c) (hl : layerOf (qport s p) (leAt u 8 1) = none) :
    layerHeader s p st u = .done (abandonUnit s p (leAt u 8 1)) := by simp [layerHeader, hc, hl]

theorem layerHeader_accepted (hc : (qport s p).cur = some c) (hl : layerOf (qport s p) (leAt u 8 1) = some l) (hm : bitAt c.mask (leAt u 8 1) = true)
    (hh : (qport s p).headers.contains (leAt u 8 1) = false) (hok : headerOk l.decl (headerOf u) st.major = true) (hw : bufIn l .writing = none)
    (hb : freeBuf s l = some b) : layerHeader s p st u = .done (versionBegun s p (leAt u 8 1) ⟨c.number, headerOf u, [], [], [], 0, s.quartz.stamp⟩ b) := by
  simp only [layerHeader, hc, hl, hm, hh, hok, hw, hb]
  rfl

theorem versionBegun_shows {v : LayerVer} (hl : layerOf (qport s p) id = some l) (hw : bufIn l .writing = none) (hb : b ∈ l.bufs) :
    writingVer (qport (versionBegun s p id v b) p) id = some (b.base, v) ∧ (qport (versionBegun s p id v b) p).headers.contains id = true := by
  constructor
  · have hbegun : layerOf (qport (versionBegun s p id v b) p) id = some (writeInto b v (noteHeader v l)) := by
      rw [versionBegun, layerOf_setLayer _ _ _ (writeInto_decl b v), layerOf_setLayer _ _ _ (noteHeader_decl v), qport_setQPort_self]
      exact congrArg _ (congrArg _ hl)
    obtain ⟨x, hx, hbase, hver⟩ := bufIn_writing_writeInto (l := noteHeader v l) v hb hw
    rw [← hbase]
    exact writingVer_of_bufIn hbegun hx hver
  · rw [List.contains_iff_mem, versionBegun, setLayer, qport_setQPort_self, setLayer, qport_setQPort_self, qport_setQPort_self]
    exact (mem_natInsert ..).mpr (.inl rfl)

theorem versionBegun_frame (s : State) (p : Fin 4) (id : Nat) (v : LayerVer) (b : LayerBuf) :
    (versionBegun s p id v b).mem = s.mem ∧ (versionBegun s p id v b).evNet = s.evNet := by
  simp [versionBegun, setLayer]

theorem unheld_versionBegun {v : LayerVer} (h : Unheld w s) : Unheld w (versionBegun s p id v b) := unheld_setLayer (unheld_setLayer (unheld_setQPort h rfl))

/-! Bands of a plane (R63, R74, R236). -/

/-- A band of plane `plane` has arrived for the version that is WRITING. -/
def bandGot (s : State) (p : Fin 4) (id plane band : Nat) : State := setWriting s p id fun v => { v with got := v.got ++ [(plane, band)] }

/-- A band goes to Borax. -/
def bandToBorax (s : State) (i : IngestItem) : State := setQuartz s fun x => { x with ingest := x.ingest ++ [i] }

/-- A PLANE_DATA unit that brings a band that its layer's version waits for (R63, R74). -/
structure RightBand (s : State) (p : Fin 4) (u : List Byte) (c : SceneFrame) (l : Layer) (base : Nat) (v : LayerVer) : Prop where
  cur : (qport s p).cur = some c
  layer : layerOf (qport s p) (leAt u 8 1) = some l
  mask : bitAt c.mask (leAt u 8 1) = true
  header : leAt u 8 1 ∈ (qport s p).headers
  kept : leAt u 8 1 ∉ (qport s p).dropped
  writing : writingVer (qport s p) (leAt u 8 1) = some (base, v)
  plane : leAt u 9 1 ∈ planesOf v.hdr.planes
  new : (leAt u 9 1, leAt u 0x0C 2) ∉ v.got
  size : bandBytes v.hdr (leAt u 9 1) (leAt u 0x0C 2) = some (leAt u 0x14 4)
  pos : 0 < leAt u 0x10 4
  le : leAt u 0x10 4 ≤ 4194304
  fits : 24 + leAt u 0x10 4 ≤ leAt u 4 4

/-- Such a band is noted, and by its coding it is written or goes to Borax, where Borax is in service. -/
theorem planeUnit_of_rightBand {base : Nat} {v : LayerVer} (h : RightBand s p u c l base v) (h1 : leAt u 0x0A 1 ≤ 1)
    (h0 : leAt u 0x0A 1 = 0 → leAt u 0x10 4 = leAt u 0x14 4) : planeUnit s p u =
      let got := bandGot s p (leAt u 8 1) (leAt u 9 1) (leAt u 0x0C 2)
      let payload := (u.drop 24).take (leAt u 0x10 4)
      if leAt u 0x0A 1 = 0 then writeBand got p (leAt u 8 1) (leAt u 9 1) (leAt u 0x0C 2) payload
      else if serves s 12 = true then bandToBorax got ⟨p, leAt u 8 1, v.stamp, leAt u 9 1, leAt u 0x0C 2, leAt u 0x14 4, payload⟩
      else abandon got p (leAt u 8 1) 3 := by
  obtain ⟨hc, hl, hm, hh, hd, hw, hpl, hnew, hs, hpos, hle, hfit⟩ := h
  have hz : leAt u 0x10 4 ≠ 0 := by omega
  have hserves (s : State) (g : LayerVer → LayerVer) : serves (setWriting s p (leAt u 8 1) g) 12 = serves s 12 := rfl
  simp [planeUnit, hc, hl, hm, hh, hd, hw, hpl, hnew, hs, hz, Nat.not_lt.mpr hle, Nat.not_lt.mpr hfit, Nat.not_lt.mpr h1, bandGot, hserves]
  rw [if_neg fun ⟨a, b⟩ => b (h0 a)]
  cases serves s 12 <;> simp [bandToBorax]

theorem RightBand.seqOn {base : Nat} {v : LayerVer} (h : RightBand s p u c l base v) : RightBand (seqOn s p u) p u c l base v := by
  obtain ⟨hc, hl, hm, hh, hd, hw, hpl, hnew, hs, hpos, hle, hfit⟩ := h
  refine ⟨?_, ?_, hm, ?_, ?_, ?_, hpl, hnew, hs, hpos, hle, hfit⟩ <;> rw [qport_seqOn] <;> assumption

/-! Fences (R77, R78). -/

/-- The layer's WRITING version is fenced. -/
def layerFenced (s : State) (p : Fin 4) (id : Nat) (l : Layer) (v : LayerVer) : State :=
  qtzEvent (setFence (setLayer (if (bufIn l .pending).isSome then bump s (qtzPortSkipped p.val) else s) p id fencedLayer) (slotOfLayer (qport s p) id) true)
    0x010 p.val (slotOfLayer (qport s p) id % 256 + 256 * (v.frame % 2 ^ 24))

theorem unheld_layerFenced {v : LayerVer} (h : Unheld w s) : Unheld w (layerFenced s p id l v) :=
  unheld_qtzEvent (unheld_setF (unheld_setLayer (.ite (unheld_bump h) h)))

theorem layerFence_of_notReady {base : Nat} {v : LayerVer} (hl : layerOf (qport s p) id = some l) (hw : writingVer (qport s p) id = some (base, v))
    (hr : fenceReady v = false) : layerFence s p id = s := by simp [layerFence, hl, hw, hr]

theorem layerFence_of_ready {base : Nat} {v : LayerVer} (hl : layerOf (qport s p) id = some l) (hw : writingVer (qport s p) id = some (base, v))
    (hr : fenceReady v = true) (h : Unheld w s) : layerFence s p id = layerFenced s p id l v := by
  have e : layerFence s p id = retryHeld (layerFenced s p id l v) := by
    simp only [layerFence, hl, hw, hr]
    rfl
  exact e.trans (unheld_layerFenced h).retryHeld_eq

theorem layerOf_layerFenced {v : LayerVer} (hl : layerOf (qport s p) id = some l) :
    layerOf (qport (layerFenced s p id l v) p) id = some (fencedLayer l) := by
  have hs : qport (if (bufIn l .pending).isSome then bump s (qtzPortSkipped p.val) else s) p = qport s p := by split <;> rfl
  rw [layerFenced, qport_qtzEvent, setFence, qport_setF, layerOf_setLayer _ _ _ fencedLayer_decl, hs, hl, Option.map_some]

theorem getB_layerFenced (s : State) (p : Fin 4) (id : Nat) (l : Layer) (v : LayerVer) :
    getB (layerFenced s p id l v) (if slotOfLayer (qport s p) id < 32 then qtzFenceLo else qtzFenceHi) (slotOfLayer (qport s p) id % 32) = true := by
  rw [layerFenced, setFence]
  exact getB_of_getF ((getF_qtzEvent ..).trans (getF_setF _ _ _ (by omega)))

theorem layerFenced_shows {base : Nat} {v : LayerVer} (hl : layerOf (qport s p) id = some l) (hw : writingVer (qport s p) id = some (base, v))
    (hslot : slotOfLayer (qport s p) id < 64) :
    writingVer (qport (layerFenced s p id l v) p) id = none ∧
      ((layerOf (qport (layerFenced s p id l v) p) id).bind fun l => bufIn l .pending).bind (fun b => b.ver) = some v ∧
      getB (layerFenced s p id l v) (if slotOfLayer (qport s p) id < 32 then qtzFenceLo else qtzFenceHi) (slotOfLayer (qport s p) id % 32) = true ∧
      tells (layerFenced s p id l v) (evCode 1 3 0x010) (slotOfLayer (qport s p) id + 256 * (v.frame % 2 ^ 24)) := by
  have hf := layerOf_layerFenced (v := v) hl
  obtain ⟨b, hb, hv⟩ := bufIn_of_writingVer hl hw
  refine ⟨writingVer_of_noWriting hf (bufIn_writing_fencedLayer l), ?_, getB_layerFenced .., ?_⟩
  · simp [hf, bufIn_pending_fencedLayer, hb, fencedBuf_ver hb, hv]
  · rw [layerFenced, Nat.mod_eq_of_lt (show slotOfLayer (qport s p) id < 256 by omega)]
    exact tells_raise ..

/-! A port stalls (R83). -/

theorem stallPort_of_active {k : StallCause} (ha : (qport s p).state = .active) (hst : (qport s p).stream = some st) (hk : st.cfg.stallTimeout ≠ 0 ∨ k = .link) :
    stallPort s p k = qtzEvent (setPortState s p .stalled) 0x014 p.val (if k = .timeout then 0 else 1) := by
  cases k <;> simp_all [stallPort]

/-! The port's control (R69, R85). -/

theorem portCtrlWrite_on {v : Word} (hon : getB (writeKey s (qtzPortCtrl p.val) v) (qtzPortCtrl p.val) 0 = true) :
    portCtrlWrite s p v = if getB s (qtzPortCtrl p.val) 0 = true then writeKey s (qtzPortCtrl p.val) v else ctrlTakes (writeKey s (qtzPortCtrl p.val) v) p := by
  simp [portCtrlWrite, hon]

theorem portCtrlWrite_off {v : Word} (hoff : getB (writeKey s (qtzPortCtrl p.val) v) (qtzPortCtrl p.val) 0 = false) (h : Unheld w s) :
    portCtrlWrite s p v = setQPort (stopStream (ctrlTakes (writeKey s (qtzPortCtrl p.val) v) p) p) p fun q => { q with searching := false } := by
  have h' : Unheld w (setQPort (stopStream (ctrlTakes (writeKey s (qtzPortCtrl p.val) v) p) p) p fun q => { q with searching := false }) :=
    unheld_setQPort (unheld_stopStream (unheld_ctrlTakes h)) rfl
  simp [portCtrlWrite, hoff, h'.retryHeld_eq]

theorem getB_writeKey_reqMeets (s : State) (q : Requester) (r k : Nat) (v : Word) (n : Nat) :
    getB (writeKey (reqMeets s q r) k v) k n = getB (writeKey s k v) k n := by simp [getB, writeKey]

/-! A bind (R79, R80, R87). -/

theorem unheld_setFence {slot : Nat} {b : Bool} (h : Unheld w s) : Unheld w (setFence s slot b) := unheld_setF h

theorem retryHeld_setQuartz {f : Quartz → Quartz} (h : Unheld w s) (hf : ∀ q, (f q).ports = q.ports) : retryHeld (setQuartz s f) = setQuartz s f :=
  retryHeld_of_unheld fun o => (congrArg (fun v : Vector QPort 4 => v[o].held) (hf s.quartz)).trans (h.1 o)

/-- A bind that runs writes its table, raises BIND_DONE with the frame's number, and the request that waits runs. -/
theorem layerBind_of_run {r : BindReq} (hr : s.quartz.bindRun = some r) (h : Unheld w s) : ∃ t arg, Unheld w t ∧ arg % 65536 = r.frame % 65536 ∧
    layerBind s = setQuartz (qtzEvent t 0x017 0xFF arg) fun q => { q with bindRun := q.bindWait, bindWait := none, nextTable := 1 - s.quartz.nextTable } := by
  have hslots : Unheld w ((List.finRange 4).foldl (bindPort r.frame (r.sec * 1000000000 + r.ns)) (s, ⟨[], [], 0⟩)).1 :=
    List.foldlRecOn (motive := fun a : State × BindSum => Unheld w a.1) _ _ h fun _ ht _ _ => unheld_bindPort ht
  simp only [layerBind, hr]
  generalize (List.finRange 4).foldl (bindPort r.frame (r.sec * 1000000000 + r.ns)) (s, ⟨[], [], 0⟩) = x at hslots ⊢
  refine ⟨_, _, ?bound, ?arg, retryHeld_setQuartz (unheld_qtzEvent ?bound) fun _ => rfl⟩
  case bound =>
    refine .foldl (fun _ _ ht => unheld_setFence ht) _ ?_
    exact List.foldlRecOn (motive := fun a : Bool × State => Unheld w a.2) _ _ hslots fun _ ht _ _ => unheld_dramStore ht
  case arg => omega

end

end Sys2Proof.Machine
end

section
/-! PROOFS. O50: the commands of Quartz's streams, layers, fences and binds (R61 to R87, R549). -/

namespace Sys2Proof.Machine

open Says

section
variable {s : State} {p : Fin 4} {u : List Byte} {ty : Nat} {st : Stream} {c : SceneFrame} {l : Layer}

theorem fedNext {t : State} (h : feedPort s p u = t) : (.next (feedPort s p u) : Out) = .next t := congrArg _ h

/-! Streams (R64 to R69, R82, R85). -/

theorem streamStart_refused (h : wholeUnit s p u 1) (hlen : u.length = 24 + 8 * leAt u 0x0A 1) (hr : refusalOf s p u ≠ 0) :
    ∃ t, exec (.streamStart p u) s = .next t ∧ (qport t p).state = .refused ∧ (qport t p).stream = none ∧
      getF t (qtzPortStatus p.val) 8 2 = 3 ∧ getF t (qtzPortStatus p.val) 24 8 = refusalOf s p u % 256 ∧
      tells t (evCode 1 3 0x012) (refusalOf s p u) ∧ (qport t p).statusOut.length = (qport s p).statusOut.length + 1 := by
  have ht := feedPort_of_done h (fun _ => hlen) (takeUnit_streamStart h) unheld_startStream
  obtain ⟨hq, hstate, hreason⟩ := streamRefused_shows (clearedPort s p) p (refusalOf s p u)
  refine ⟨_, (exec_streamStart ..).trans (fedNext (ht.trans (startStream_refused hr))), ?_⟩
  rw [hq, qport_clearedPort]
  exact ⟨rfl, rfl, hstate, hreason, tells_streamRefused .., List.length_append⟩

theorem streamStart_accepted (h : wholeUnit s p u 1) (hlen : u.length = 24 + 8 * leAt u 0x0A 1) (hr : refusalOf s p u = 0) :
    ∃ t st, exec (.streamStart p u) s = .next t ∧ (qport t p).state = .active ∧ (qport t p).stream = some st ∧
      st.major = leAt u 8 1 ∧ st.minor = leAt u 9 1 ∧ st.rate = leAt u 0x10 4 ∧ st.cfg.slotBase = getF s (qtzPortCtrl p.val) 8 8 ∧
      (qport t p).layers = allocate (declsOf u) (((partitionOf s p).1 + 4095) / 4096 * 4096) ∧ (qport t p).expSeq = 1 ∧
      (qport t p).cur = none ∧ tells t (evCode 1 3 0x011) (leAt u 8 1 + 256 * leAt u 9 1) := by
  have ht := feedPort_of_done h (fun _ => hlen) (takeUnit_streamStart h) unheld_startStream
  obtain ⟨hstate, hst, hlayers, hseq, hcur⟩ := streamAccepted_shows (clearedPort s p) p u
  rw [partitionOf_congr fun _ => readReg_clearedPort s] at hlayers
  rw [qport_clearedPort] at hseq hcur
  exact ⟨_, declaredStream (clearedPort s p) p u, (exec_streamStart ..).trans (fedNext (ht.trans (startStream_accepted hr))), hstate, hst, rfl, rfl, rfl,
    getF_congr (readReg_clearedPort s (qtzPortCtrl_ne_status p p)), hlayers, hseq, hcur, tells_streamAccepted ..⟩

theorem streamEnd_next (h : nextUnit s p u 0x02 st) : ∃ t, exec (.streamEnd p u) s = .next t ∧ (qport t p).state = .idle ∧ (qport t p).stream = none ∧
    (qport t p).layers = [] ∧ (qport t p).expSeq = (leAt u 2 2 + 1) % 65536 ∧ t.mem = s.mem := by
  have ht := feedPort_of_done h.1 (by omega) (takeUnit_streamEnd h) fun hu => unheld_stopStream (unheld_seqOn hu)
  refine ⟨_, (exec_streamEnd ..).trans (fedNext ht), ?_⟩
  rw [qport_stopStream, qport_seqOn]
  exact ⟨rfl, rfl, rfl, rfl, stopStream_mem ..⟩

theorem planeData_wrongSeq (h : wholeUnit s p u ty) (h1 : ty ≠ 1) (hst : (qport s p).stream = some st) (hskip : (qport s p).skipping = false)
    (hseq : leAt u 2 2 ≠ (qport s p).expSeq) : ∃ t, exec (.planeData p u) s = .next t ∧ (qport t p).skipping = true ∧ (qport t p).cur = none ∧
      (qport t p).expSeq = (leAt u 2 2 + 1) % 65536 := by
  have ht := feedPort_of_done h (absurd · h1) (takeUnit_wrongSeq h h1 hst hskip hseq) fun hu => unheld_seqOn (unheld_sequenceFail (.ite hu hu))
  refine ⟨_, (exec_planeData ..).trans (fedNext ht), ?_⟩
  obtain ⟨hskipping, hcur⟩ := sequenceFail_shows (if knownType ty then s else bump s (qtzPortUnknown p.val)) p
  rw [qport_seqOn]
  exact ⟨hskipping, hcur, rfl⟩

theorem unknownUnit_next (h : nextUnit s p u ty st) (hty : ty ∉ [1, 2, 0x10, 0x11, 0x12, 0x13, 0x20]) :
    exec (.unknownUnit p u) s = .next (bump (seqOn s p u) (qtzPortUnknown p.val)) :=
  have ht := feedPort_of_done h.1 (fun h1 => absurd (h1 ▸ List.mem_cons_self) hty) (takeUnit_unknown h hty) unheld_seqOn
  (exec_unknownUnit ..).trans (fedNext ht)

theorem audioUnit_next (h : nextUnit s p u 0x20 st) :
    exec (.audioUnit p u) s = .next (embedUnit (seqOn s p u) p u st.audioChannels (st.major == 3)) :=
  have ht := feedPort_of_done h.1 (by omega) (takeUnit_audio h) fun hu => unheld_embedUnit (unheld_seqOn hu)
  (exec_audioUnit ..).trans (fedNext ht)

theorem units_disabled (h : getB s (qtzPortCtrl p.val) 0 = false) :
    exec (.streamStart p u) s = .next s ∧ exec (.planeData p u) s = .next s ∧ exec (.audioUnit p u) s = .next s := by
  have hs := fedNext (feedPort_of_disabled (u := u) h)
  exact ⟨(exec_streamStart ..).trans hs, (exec_planeData ..).trans hs, (exec_audioUnit ..).trans hs⟩

/-! Scene frames, layers and bands (R70 to R74, R77, R82). -/

theorem sceneFrameBegin_next (h : nextUnit s p u 0x10 st) : ∃ t, exec (.sceneFrameBegin p u) s = .next t ∧
    (qport t p).cur = some (sceneOf st u) ∧ (qport t p).headers = [] ∧ (qport t p).begins = (s.now :: (qport s p).begins).take 8 ∧ t.mem = s.mem := by
  have ht := feedPort_of_done h.1 (by omega) (takeUnit_sceneFrameBegin h) fun hu => unheld_beginFrame (unheld_seqOn hu)
  obtain ⟨hcur, hhead, hbeg, hmem⟩ := beginFrame_shows (seqOn s p u) p st u
  rw [qport_seqOn] at hbeg
  exact ⟨_, (exec_sceneFrameBegin ..).trans (fedNext ht), hcur, hhead, hbeg, hmem⟩

theorem sceneFrameEnd_next (h : nextUnit s p u 0x13 st) (hc : (qport s p).cur = some c) :
    exec (.sceneFrameEnd p u) s = .next (closeFrame (seqOn s p u) p 5 false) := by
  have ht := feedPort_of_done h.1 (by omega) (takeUnit_sceneFrameEnd h) fun hu => unheld_endFrame (unheld_seqOn hu)
  rw [endFrame_of_cur (c := c) (by rw [qport_seqOn]; exact hc)] at ht
  exact (exec_sceneFrameEnd ..).trans (fedNext ht)

theorem layerHeader_next {b : LayerBuf} (h : nextUnit s p u 0x11 st) (hc : (qport s p).cur = some c) (hl : layerOf (qport s p) (leAt u 8 1) = some l)
    (hm : bitAt c.mask (leAt u 8 1) = true) (hh : (qport s p).headers.contains (leAt u 8 1) = false) (hok : headerOk l.decl (headerOf u) st.major = true)
    (hw : bufIn l .writing = none) (hb : freeBuf s l = some b) : ∃ t, exec (.layerHeader p u) s = .next t ∧
      writingVer (qport t p) (leAt u 8 1) = some (b.base, ⟨c.number, headerOf u, [], [], [], 0, s.quartz.stamp⟩) ∧
      (qport t p).headers.contains (leAt u 8 1) = true ∧ t.mem = s.mem ∧ t.evNet = s.evNet := by
  have hq := qport_seqOn s p u
  have hl' : layerOf (qport (seqOn s p u) p) (leAt u 8 1) = some l := by rw [hq]; exact hl
  have hb' : freeBuf (seqOn s p u) l = some b := (freeBuf_seqOn ..).trans hb
  have taken := layerHeader_accepted (s := seqOn s p u) (by rw [hq]; exact hc) hl' hm (by rw [hq]; exact hh) hok hw hb'
  have ht := feedPort_of_done h.1 (by omega) (takeUnit_layerHeader h taken) fun hu => unheld_versionBegun (unheld_seqOn hu)
  obtain ⟨hver, hhead⟩ := versionBegun_shows (v := ⟨c.number, headerOf u, [], [], [], 0, s.quartz.stamp⟩) hl' hw (List.mem_of_find?_eq_some hb)
  exact ⟨_, (exec_layerHeader ..).trans (fedNext ht), hver, hhead, versionBegun_frame (seqOn s p u) ..⟩

theorem layerHeader_next_undeclared (h : nextUnit s p u 0x11 st) (hc : (qport s p).cur = some c) (hl : layerOf (qport s p) (leAt u 8 1) = none) :
    exec (.layerHeader p u) s = .next (abandonUnit (seqOn s p u) p (leAt u 8 1)) := by
  have taken := layerHeader_undeclared (s := seqOn s p u) (st := st) (u := u) (c := c) (by rw [qport_seqOn]; exact hc) (by rw [qport_seqOn]; exact hl)
  have ht := feedPort_of_done h.1 (by omega) (takeUnit_layerHeader h taken) fun hu => unheld_tellAbandoned (unheld_seqOn hu)
  exact (exec_layerHeader ..).trans (fedNext ht)

theorem planeData_stored {base : Nat} {v : LayerVer} (h : nextUnit s p u 0x12 st) (hr : RightBand s p u c l base v) (hcode : leAt u 0x0A 1 = 0)
    (hsize : leAt u 0x10 4 = leAt u 0x14 4) : exec (.planeData p u) s = .next (writeBand (bandGot (seqOn s p u) p (leAt u 8 1) (leAt u 9 1) (leAt u 0x0C 2)) p
      (leAt u 8 1) (leAt u 9 1) (leAt u 0x0C 2) ((u.drop 24).take (leAt u 0x10 4))) := by
  have taken := takeUnit_planeData h
  rw [planeUnit_of_rightBand hr.seqOn (by omega) fun _ => hsize] at taken
  simp only [hcode, if_true] at taken
  exact (exec_planeData ..).trans (fedNext (feedPort_of_done h.1 (by omega) taken fun hu => unheld_writeBand (unheld_setWriting (unheld_seqOn hu))))

theorem planeData_borax {base : Nat} {v : LayerVer} (h : nextUnit s p u 0x12 st) (hr : RightBand s p u c l base v) (hcode : leAt u 0x0A 1 = 1)
    (hb : serves s 12 = true) : exec (.planeData p u) s = .next (bandToBorax (bandGot (seqOn s p u) p (leAt u 8 1) (leAt u 9 1) (leAt u 0x0C 2))
      ⟨p, leAt u 8 1, v.stamp, leAt u 9 1, leAt u 0x0C 2, leAt u 0x14 4, (u.drop 24).take (leAt u 0x10 4)⟩) := by
  have taken := takeUnit_planeData h
  rw [planeUnit_of_rightBand hr.seqOn (by omega) (by omega)] at taken
  simp only [hcode, one_ne_zero, if_false, show serves (seqOn s p u) 12 = true from hb, if_true] at taken
  have ht := feedPort_of_done h.1 (by omega) taken fun hu => (unheld_setWriting (unheld_seqOn hu) : Unheld s.quartz.bindWait (bandGot ..))
  exact (exec_planeData ..).trans (fedNext ht)

/-! The port's control, fences, stalls and binds (R69, R77 to R85, R87). -/

theorem portEnable_on (hs : serves s 3 = true) {q : Requester} {v : Word}
    (hon : getB (writeKey (reqMeets s q 3) (qtzPortCtrl p.val) v) (qtzPortCtrl p.val) 0 = true) : exec (.portEnable p q v) s = .next
      (if getB s (qtzPortCtrl p.val) 0 = true then writeKey (reqMeets s q 3) (qtzPortCtrl p.val) v
       else ctrlTakes (writeKey (reqMeets s q 3) (qtzPortCtrl p.val) v) p) := by
  have hb : getB (reqMeets s q 3) (qtzPortCtrl p.val) 0 = getB s (qtzPortCtrl p.val) 0 := getB_of_getF (getF_reqMeets ..)
  rw [exec_portEnable, execPortEnable, reqServes_of_serves hs, portCtrlWrite_on hon, hb]

theorem portEnable_off (hs : serves s 3 = true) {q : Requester} {v : Word} (hheld : ∀ o, (qport s o).held = [])
    (hoff : getB (writeKey s (qtzPortCtrl p.val) v) (qtzPortCtrl p.val) 0 = false) : ∃ t, exec (.portEnable p q v) s = .next t ∧
      (qport t p).stream = none ∧ (qport t p).state = .idle ∧ (qport t p).searching = false := by
  obtain ⟨x, hx⟩ := reqMeets_eq s q 3
  have hu : Unheld s.quartz.bindWait (reqMeets s q 3) := by
    rw [hx]
    exact ⟨hheld, rfl⟩
  have ht : exec (.portEnable p q v) s = .next (portCtrlWrite (reqMeets s q 3) p v) := by rw [exec_portEnable, execPortEnable, reqServes_of_serves hs]
  rw [portCtrlWrite_off ((getB_writeKey_reqMeets ..).trans hoff) hu] at ht
  refine ⟨_, ht, ?_⟩
  rw [qport_setQPort_self, qport_stopStream]
  exact ⟨rfl, rfl, rfl⟩

theorem layerFence_ready (hs : serves s 3 = true) {layer : Fin 64} {base : Nat} {v : LayerVer} (hl : layerOf (qport s p) layer.val = some l)
    (hw : writingVer (qport s p) layer.val = some (base, v)) (hr : fenceReady v = true) (hheld : ∀ o, (qport s o).held = []) :
    exec (.layerFence p layer) s = .next (layerFenced s p layer.val l v) := by
  rw [exec_layerFence, execLayerFence, whenServes_of_serves hs, layerFence_of_ready hl hw hr (w := s.quartz.bindWait) ⟨hheld, rfl⟩]

theorem layerFence_notReady (hs : serves s 3 = true) {layer : Fin 64} {base : Nat} {v : LayerVer} (hl : layerOf (qport s p) layer.val = some l)
    (hw : writingVer (qport s p) layer.val = some (base, v)) (hr : fenceReady v = false) : exec (.layerFence p layer) s = .next s := by
  rw [exec_layerFence, execLayerFence, whenServes_of_serves hs, layerFence_of_notReady hl hw hr]

theorem portStalled_active (hs : serves s 3 = true) {k : StallCause} (ha : (qport s p).state = .active) (hst : (qport s p).stream = some st)
    (hk : st.cfg.stallTimeout ≠ 0 ∨ k = .link) : ∃ t, exec (.portStalled p k) s = .next t ∧ (qport t p).state = .stalled ∧
      getF t (qtzPortStatus p.val) 8 2 = 2 ∧ oneEvent s t (evCode 1 3 0x014) (if k = .timeout then 0 else 1) := by
  have ht : exec (.portStalled p k) s = .next (stallPort s p k) := by rw [exec_portStalled, execPortStalled, whenServes_of_serves hs]
  rw [stallPort_of_active ha hst hk] at ht
  refine ⟨_, ht, ?_, (getF_qtzEvent ..).trans (getF_setPortState ..), oneEvent_raise rfl rfl ..⟩
  rw [qport_qtzEvent, qport_setPortState]

theorem layerBind_none (hs : serves s 3 = true) (hr : s.quartz.bindRun = none) : exec .layerBind s = .next s := by
  rw [exec_layerBind, execLayerBind, whenServes_of_serves hs, layerBind, hr]

theorem layerBind_run (hs : serves s 3 = true) {r : BindReq} (hr : s.quartz.bindRun = some r) (hheld : ∀ o, (qport s o).held = []) :
    ∃ t, exec .layerBind s = .next t ∧ t.quartz.bindRun = s.quartz.bindWait ∧ t.quartz.bindWait = none ∧
      t.quartz.nextTable = 1 - s.quartz.nextTable ∧ ∃ e ∈ t.evNet, e.code = evCode 1 3 0x017 ∧ e.arg.toNat % 65536 = r.frame % 65536 := by
  obtain ⟨t, arg, hu, harg, ht⟩ := layerBind_of_run hr ⟨hheld, rfl⟩
  obtain ⟨e, he, hcode, hval⟩ := tells_raise t 1 3 0x017 0xFF 0xFF arg
  have hx : exec .layerBind s = .next (layerBind s) := by rw [exec_layerBind, execLayerBind, whenServes_of_serves hs]
  rw [ht] at hx
  exact ⟨_, hx, hu.2, rfl, rfl, e, he, hcode, by rw [hval, BitVec.toNat_ofNat, Nat.mod_mod_of_dvd _ (by decide), harg]⟩

end

/-- Settles O50: a whole unit that leaves nothing held is taken at once, and each unit's effect is what its type says; fences, stalls, binds and the
port's control act by their rules. -/
theorem quartzStreamsAndLayers : Obligations.QuartzStreamsAndLayers := by
  intro s p u
  refine ⟨fun h hlen => ⟨streamStart_refused h hlen, streamStart_accepted h hlen⟩, fun _ => streamEnd_next, fun _ => sceneFrameBegin_next,
    fun _ _ _ _ => layerHeader_next, fun _ _ => layerHeader_next_undeclared, ?band,
    fun _ _ h hc => ⟨sceneFrameEnd_next h hc, cur_closeFrame ..⟩, fun _ _ => unknownUnit_next, fun _ => audioUnit_next, fun _ _ => planeData_wrongSeq,
    units_disabled, fun hs => ⟨fun _ _ => portEnable_on hs, fun _ _ => portEnable_off hs, ?fence, fun _ _ => portStalled_active hs, layerBind_none hs,
      fun _ => layerBind_run hs⟩⟩
  case band =>
    intro st c l base v h hc hl hm hh hd hw hpl hnew hsize hpos hle hfit
    obtain ⟨_, _, _, _, _, hlen, _, _⟩ := h.1
    have hr : RightBand s p u c l base v :=
      ⟨hc, hl, hm, by simpa using hh, by simpa using hd, hw, by simpa using hpl, by simpa using hnew, hsize, hpos, hle, hlen ▸ hfit⟩
    exact ⟨planeData_stored h hr, planeData_borax h hr⟩
  case fence =>
    intro layer l base v hl hw
    exact ⟨layerFence_notReady hs hl hw, fun hr hheld hslot => ⟨_, layerFence_ready hs hl hw hr hheld, layerFenced_shows hl hw hslot⟩⟩

end Sys2Proof.Machine
end

section
/-! PROOFS. The element arithmetic of the ray profile on int32 and unorm10, and the statement on it. -/

namespace Sys2Proof.Machine

/-! Numbers as register words. -/

theorem toNat_wNat {n : Nat} (h : n < 2 ^ 32) : (wNat n).toNat = n := by
  rw [wNat, BitVec.toNat_ofNat, Nat.mod_eq_of_lt h]

theorem u10_le (w : Word) : u10 w ≤ 1023 := Nat.le_of_lt_succ (Nat.mod_lt _ (by decide))

/-! int32 (R92): order and sign are two's complement. -/

theorem toInt_rayMinOp_i32 (a b : Word) : (rayMinOp .i32 a b).toInt = min a.toInt b.toInt := by
  simp only [rayMinOp, BitVec.slt, decide_eq_true_eq, apply_ite BitVec.toInt]
  omega

theorem toInt_rayMaxOp_i32 (a b : Word) : (rayMaxOp .i32 a b).toInt = max a.toInt b.toInt := by
  simp only [rayMaxOp, BitVec.slt, decide_eq_true_eq, apply_ite BitVec.toInt]
  omega

/-- Negation leaves one number behind, the least. -/
theorem toInt_rayAbsOp_i32 {a : Word} (h : a ≠ 0x80000000) : (rayAbsOp .i32 a).toInt = a.toInt.natAbs := by
  cases hm : a.msb
  · have hp := BitVec.toInt_nonneg_of_msb_false hm
    simp only [rayAbsOp, hm, Bool.false_eq_true, if_false]
    omega
  · have hn := BitVec.toInt_neg_of_msb_true hm
    have hi : (-a).toInt = -a.toInt := BitVec.toInt_neg_of_ne_intMin h
    simp only [rayAbsOp, hm, if_true, hi]
    omega

/-! unorm10 (R94): the results stay below 1,024. -/

theorem toNat_rayAddOp_u10 (a b : Word) : (rayAddOp .u10 a b).toNat = min 1023 (u10 a + u10 b) := toNat_wNat (by omega)

theorem toNat_raySubOp_u10 (a b : Word) : (raySubOp .u10 a b).toNat = u10 a - u10 b :=
  toNat_wNat (by have := u10_le a; omega)

theorem u10_mul_le (a b : Word) : (u10 a * u10 b + 511) / 1023 ≤ 1023 := by
  have h := Nat.mul_le_mul (u10_le a) (u10_le b)
  omega

theorem toNat_rayMulOp_u10 (a b : Word) : (rayMulOp .u10 a b).toNat = (u10 a * u10 b + 511) / 1023 :=
  toNat_wNat (by have := u10_mul_le a b; omega)

theorem toNat_rayMinOp_u10 (a b : Word) : (rayMinOp .u10 a b).toNat = min (u10 a) (u10 b) :=
  toNat_wNat (by have := u10_le a; omega)

theorem toNat_rayMaxOp_u10 (a b : Word) : (rayMaxOp .u10 a b).toNat = max (u10 a) (u10 b) :=
  toNat_wNat (by have := u10_le a; have := u10_le b; omega)

/-! Conversions between the two (R95). -/

theorem rayCvtOp_self (t : RayType) (a : Word) : rayCvtOp t t a = a := by cases t <;> rfl

theorem toNat_rayCvtOp_i32_u10 (a : Word) : ((rayCvtOp .i32 .u10 a).toNat : Int) = max 0 (min 1023 a.toInt) := by
  cases hm : a.msb
  · have hp := BitVec.toInt_eq_toNat_of_msb hm
    have hv : (rayCvtOp .i32 .u10 a).toNat = min 1023 a.toNat := by
      simp only [rayCvtOp, hm, Bool.false_eq_true, if_false]
      exact toNat_wNat (by omega)
    omega
  · have hn := BitVec.toInt_neg_of_msb_true hm
    have hv : (rayCvtOp .i32 .u10 a).toNat = 0 := by
      simp only [rayCvtOp, hm, if_true]
      rfl
    omega

theorem toNat_rayCvtOp_u10_i32 (a : Word) : (rayCvtOp .u10 .i32 a).toNat = u10 a :=
  toNat_wNat (by have := u10_le a; omega)

/-! Shifts (R99): by the low five bits. -/

theorem toNat_rayShlOp (t : RayType) (a b : Word) : (rayShlOp t a b).toNat = a.toNat * 2 ^ (b.toNat % 32) % 2 ^ 32 := by
  rw [rayShlOp, shAmt, BitVec.toNat_shiftLeft, Nat.shiftLeft_eq]

theorem toNat_rayShrOp (t : RayType) (a b : Word) : (rayShrOp t a b).toNat = a.toNat / 2 ^ (b.toNat % 32) := by
  rw [rayShrOp, shAmt, BitVec.toNat_ushiftRight, Nat.shiftRight_eq_div_pow]

theorem toInt_rayAsrOp (t : RayType) (a b : Word) : (rayAsrOp t a b).toInt = a.toInt / (2 ^ (b.toNat % 32) : Nat) := by
  rw [rayAsrOp, shAmt, BitVec.toInt_sshiftRight, Int.shiftRight_eq_div_pow]

/-- Settles O20: int32 is the arithmetic of bit vectors, and no unorm10 result leaves the ten bits. -/
theorem rayIntegerArithmetic : Obligations.RayIntegerArithmetic := by
  intro a b c u
  refine ⟨BitVec.toNat_add a b, ?sub, BitVec.toNat_mul a b, ?fma, toInt_rayMinOp_i32 a b, toInt_rayMaxOp_i32 a b, toInt_rayAbsOp_i32, by decide,
    toNat_rayAddOp_u10 a b, toNat_raySubOp_u10 a b, toNat_rayMulOp_u10 a b, ?mulBound, toNat_rayMinOp_u10 a b, toNat_rayMaxOp_u10 a b,
    fun t => rayCvtOp_self t a, toNat_rayCvtOp_i32_u10 a, toNat_rayCvtOp_u10_i32 a, toNat_rayShlOp .i32 a b, toNat_rayShrOp .i32 a b,
    toInt_rayAsrOp .i32 a b⟩
  case sub => exact (BitVec.toNat_sub a b).trans (by rw [Nat.add_comm])
  case fma => exact (BitVec.toNat_add (a * b) c).trans (by rw [BitVec.toNat_mul, Nat.mod_add_mod])
  case mulBound => exact (toNat_rayMulOp_u10 a b).trans_le (u10_mul_le a b)

end Sys2Proof.Machine
end

section
/-! PROOFS. The special values of fp32: what one rounding can give, what a NaN operand does, what a subnormal operand reads as, and the statement on them. -/

namespace Sys2Proof.Machine

open Says

/-! The encodings that a rounding gives (R93). -/

/-- The bits below the sign of a zero, of a normal number or of an infinity. -/
def ordinaryMagnitude (m : Nat) : Prop := m = 0 ∨ 2 ^ 23 ≤ m ∧ m ≤ 255 * 2 ^ 23

/-- The encoding of a zero, of a normal number or of an infinity in fp32. -/
def ordinaryF32 (n : Nat) : Prop := ∃ neg m, ordinaryMagnitude m ∧ n = fSign fp32 neg + m

/-- An ordinary encoding, or the canonical NaN. -/
def resultF32 (n : Nat) : Prop := n = fNan fp32 ∨ ordinaryF32 n

theorem ordinaryF32_fSign (neg : Bool) : ordinaryF32 (fSign fp32 neg) := ⟨neg, 0, .inl rfl, rfl⟩

theorem ordinaryF32_fInf (neg : Bool) : ordinaryF32 (fInf fp32 neg) := ⟨neg, 255 * 2 ^ 23, .inr ⟨by decide, le_rfl⟩, rfl⟩

/-- The exponent field of a rounded number is at least 1: the least quantum is that of the least normal number. -/
theorem one_le_exponentField (top bias mbits : Int) : 1 ≤ (max top (1 - bias) - mbits + mbits + bias).toNat := by omega

theorem ordinaryF32_fRound (neg : Bool) (num den : Nat) (e : Int) : ordinaryF32 (fRound fp32 neg num den e) := by
  unfold fRound
  split
  · exact ordinaryF32_fSign neg
  · extract_lets la ge top emin qe sh q ef bits
    clear_value q
    split
    · exact ordinaryF32_fSign neg
    · split
      · exact ordinaryF32_fInf neg
      · next hlt =>
        have hef : 1 ≤ ef.toNat := one_le_exponentField top (fBias fp32) fp32.mbits
        exact ⟨neg, bits, .inr ⟨(Nat.le_mul_of_pos_left _ hef).trans (Nat.le_add_right _ _), Nat.le_of_lt (Nat.not_le.1 hlt)⟩, rfl⟩

theorem ordinaryF32_fEncode {x : FNum} (h : x ≠ .nan) : ordinaryF32 (fEncode fp32 x) := by
  cases x with
  | nan => exact absurd rfl h
  | inf n => exact ordinaryF32_fInf n
  | fin n p e => exact ordinaryF32_fRound n p 1 e

theorem resultF32_fEncode (x : FNum) : resultF32 (fEncode fp32 x) := by
  by_cases h : x = .nan
  · exact .inl (h ▸ rfl)
  · exact .inr (ordinaryF32_fEncode h)

/-! Result words. -/

theorem wNat_fNan : wNat (fNan fp32) = 0x7FC00000 := rfl

theorem fSign_fp32 (neg : Bool) : fSign fp32 neg = if neg then 2 ^ 31 else 0 := rfl

theorem fld_wNat (n lo k : Nat) : fld (wNat n) lo k = n % 2 ^ 32 / 2 ^ lo % 2 ^ k := by
  simp only [fld, bitsOf, wNat, BitVec.toNat_ofNat]

theorem canonicalF32_of_ordinary {n : Nat} (h : ordinaryF32 n) : canonicalF32 (wNat n) := by
  obtain ⟨neg, m, hm, rfl⟩ := h
  simp only [canonicalF32, fld_wNat, fSign_fp32]
  unfold ordinaryMagnitude at hm
  constructor
  · cases neg <;> simp only [Bool.false_eq_true, if_true, if_false] <;> omega
  · intro he
    left
    revert he
    cases neg <;> simp only [Bool.false_eq_true, if_true, if_false] <;> omega

theorem canonicalF32_of_result {n : Nat} (h : resultF32 n) : canonicalF32 (wNat n) := by
  rcases h with rfl | h
  · rw [wNat_fNan]
    exact ⟨by decide, fun _ => .inr rfl⟩
  · exact canonicalF32_of_ordinary h

theorem canonicalF32_fEncode (x : FNum) : canonicalF32 (wNat (fEncode fp32 x)) := canonicalF32_of_result (resultF32_fEncode x)

/-- No ordinary encoding is the canonical NaN's. -/
theorem wNat_ne_nan_of_ordinary {n : Nat} (h : ordinaryF32 n) : wNat n ≠ 0x7FC00000 := by
  obtain ⟨neg, m, hm, rfl⟩ := h
  unfold ordinaryMagnitude at hm
  intro he
  have hn : (fSign fp32 neg + m) % 2 ^ 32 = 0x7FC00000 := congrArg BitVec.toNat he
  rw [fSign_fp32] at hn
  revert hn
  cases neg <;> simp only [Bool.false_eq_true, if_true, if_false] <;> omega

theorem fEncode_eq_nan_iff (x : FNum) : wNat (fEncode fp32 x) = 0x7FC00000 ↔ x = .nan := by
  constructor
  · intro h
    by_contra hx
    exact wNat_ne_nan_of_ordinary (ordinaryF32_fEncode hx) h
  · rintro rfl
    exact wNat_fNan

/-! Operand words. -/

theorem fDecode_fp32 (w : Word) : fDecode fp32 w.toNat =
    if fld w 23 8 = 255 then (if fld w 0 23 = 0 then .inf (bitAt w.toNat 31) else .nan)
    else if fld w 23 8 = 0 then .fin (bitAt w.toNat 31) 0 0
    else .fin (bitAt w.toNat 31) (fld w 0 23 + 2 ^ 23) ((fld w 23 8 : Int) - fBias fp32 - 23) := rfl

theorem fDecode_eq_nan_iff (w : Word) : fDecode fp32 w.toNat = .nan ↔ nanF32 w := by
  rw [fDecode_fp32]
  unfold nanF32
  split
  · split <;> simp [*]
  · split <;> simp [*]

/-- A word whose exponent field is 0 reads as the zero of its sign. -/
theorem fDecode_of_exponent_zero {w : Word} (h : fld w 23 8 = 0) : fDecode fp32 w.toNat = .fin (bitAt w.toNat 31) 0 0 := by
  rw [fDecode_fp32, h]
  rfl

/-- Clearing all bits but the sign of such a word leaves what it reads as. -/
theorem fDecode_sign_of_exponent_zero {w : Word} (h : fld w 23 8 = 0) : fDecode fp32 (w &&& 0x80000000).toNat = fDecode fp32 w.toNat := by
  have hz : fld (w &&& 0x80000000) 23 8 = 0 := by
    apply Nat.eq_of_testBit_eq
    intro i
    rw [testBit_fld, Nat.zero_testBit, BitVec.getLsbD_and]
    by_cases hi : i < 8
    · interval_cases i <;> simp
    · simp [hi]
  have hs : bitAt (w &&& 0x80000000).toNat 31 = bitAt w.toNat 31 := by
    have hm (v : Word) : bitAt v.toNat 31 = v.msb := by
      rw [BitVec.msb_eq_decide, bitAt, Bool.eq_iff_iff, beq_iff_eq, decide_eq_true_iff]
      omega
    rw [hm, hm, BitVec.msb_and]
    exact Bool.and_true _
  rw [fDecode_of_exponent_zero hz, fDecode_of_exponent_zero h, hs]

theorem fDecode_zeroed (w : Word) : fDecode fp32 (if fld w 23 8 = 0 then w &&& 0x80000000 else w).toNat = fDecode fp32 w.toNat := by
  split
  next h => exact fDecode_sign_of_exponent_zero h
  next => rfl

/-! The operations that do not end in one `fEncode`. -/

theorem resultF32_fNan : resultF32 (fNan fp32) := .inl rfl

theorem resultF32_fDiv (a b : Nat) : resultF32 (fDiv fp32 a b) := by
  unfold fDiv
  split
  · exact resultF32_fNan
  · exact resultF32_fNan
  · exact resultF32_fNan
  · exact .inr (ordinaryF32_fInf _)
  · exact .inr (ordinaryF32_fSign _)
  · split
    · split
      · exact resultF32_fNan
      · exact .inr (ordinaryF32_fInf _)
    · exact .inr (ordinaryF32_fRound ..)

theorem resultF32_fSqrt (a : Nat) : resultF32 (fSqrt fp32 a) := by
  unfold fSqrt
  split
  · exact resultF32_fNan
  · split
    · exact resultF32_fNan
    · exact .inr (ordinaryF32_fInf _)
  · split
    · exact .inr (ordinaryF32_fSign _)
    · split
      · exact resultF32_fNan
      · exact .inr (ordinaryF32_fRound ..)

theorem resultF32_fRsq (a : Nat) : resultF32 (fRsq fp32 a) := by
  unfold fRsq
  split
  · exact resultF32_fNan
  · split
    · exact resultF32_fNan
    · exact .inr (ordinaryF32_fSign _)
  · split
    · exact .inr (ordinaryF32_fInf _)
    · split
      · exact resultF32_fNan
      · exact .inr (ordinaryF32_fRound ..)

/-- `n` encodes one of two operands, a NaN only where the other is one too. -/
def oneOperand (f : FFmt) (x y : FNum) (n : Nat) : Prop :=
  (n = fEncode f x ∧ (x = .nan → y = .nan)) ∨ (n = fEncode f y ∧ (y = .nan → x = .nan))

theorem fnIsNan_iff (x : FNum) : fnIsNan x = true ↔ x = .nan := by simp [fnIsNan]

/-- MIN and MAX look for a NaN first, and then choose. -/
theorem oneOperand_of_choice {f : FFmt} {x y : FNum} {n : Nat} (h : n = fEncode f x ∨ n = fEncode f y) :
    oneOperand f x y (if fnIsNan x then fEncode f y else if fnIsNan y then fEncode f x else n) := by
  simp only [fnIsNan_iff]
  split
  next hx => exact .inr ⟨rfl, fun _ => hx⟩
  next hx =>
    split
    next hy => exact .inl ⟨rfl, fun _ => hy⟩
    next hy => exact h.imp (fun h => ⟨h, fun e => absurd e hx⟩) fun h => ⟨h, fun e => absurd e hy⟩

theorem oneOperand_fMin (f : FFmt) (a b : Nat) : oneOperand f (fDecode f a) (fDecode f b) (fMin f a b) :=
  oneOperand_of_choice (by split_ifs <;> simp)

theorem oneOperand_fMax (f : FFmt) (a b : Nat) : oneOperand f (fDecode f a) (fDecode f b) (fMax f a b) :=
  oneOperand_of_choice (by split_ifs <;> simp)

theorem canonicalF32_oneOperand {x y : FNum} {n : Nat} (h : oneOperand fp32 x y n) : canonicalF32 (wNat n) := by
  rcases h with ⟨rfl, -⟩ | ⟨rfl, -⟩ <;> exact canonicalF32_fEncode _

theorem oneOperand_eq_nan_iff {a b : Word} {n : Nat} (h : oneOperand fp32 (fDecode fp32 a.toNat) (fDecode fp32 b.toNat) n) :
    wNat n = 0x7FC00000 ↔ nanF32 a ∧ nanF32 b := by
  rw [← fDecode_eq_nan_iff, ← fDecode_eq_nan_iff]
  rcases h with ⟨rfl, hn⟩ | ⟨rfl, hn⟩ <;> rw [fEncode_eq_nan_iff]
  · exact ⟨fun h => ⟨h, hn h⟩, And.left⟩
  · exact ⟨fun h => ⟨hn h, h⟩, And.right⟩

/-! A NaN operand (R93). -/

theorem fnAdd_eq_nan {x y : FNum} (h : x = .nan ∨ y = .nan) : fnAdd x y = .nan := by
  rcases h with rfl | rfl
  · rfl
  · cases x <;> rfl

theorem fnMul_eq_nan {x y : FNum} (h : x = .nan ∨ y = .nan) : fnMul x y = .nan := by
  rcases h with rfl | rfl
  · rfl
  · cases x <;> rfl

theorem fnNeg_eq_nan {x : FNum} (h : x = .nan) : fnNeg x = .nan := by
  rw [h]
  rfl

section
variable {a b c : Word}

theorem rayBinary_nan (h : nanF32 a ∨ nanF32 b) :
    rayAddOp .f32 a b = 0x7FC00000 ∧ raySubOp .f32 a b = 0x7FC00000 ∧ rayMulOp .f32 a b = 0x7FC00000 := by
  rw [← fDecode_eq_nan_iff, ← fDecode_eq_nan_iff] at h
  exact ⟨(fEncode_eq_nan_iff _).2 (fnAdd_eq_nan h), (fEncode_eq_nan_iff _).2 (fnAdd_eq_nan (h.imp_right fnNeg_eq_nan)),
    (fEncode_eq_nan_iff _).2 (fnMul_eq_nan h)⟩

theorem rayFmaOp_nan (h : nanF32 a ∨ nanF32 b ∨ nanF32 c) : rayFmaOp .f32 a b c = 0x7FC00000 := by
  rw [← fDecode_eq_nan_iff, ← fDecode_eq_nan_iff, ← fDecode_eq_nan_iff, ← or_assoc] at h
  exact (fEncode_eq_nan_iff _).2 (fnAdd_eq_nan (h.imp_left fnMul_eq_nan))

theorem fDiv_nan_right (f : FFmt) (a : Nat) {b : Nat} (h : fDecode f b = .nan) : fDiv f a b = fNan f := by
  unfold fDiv
  rw [h]
  cases fDecode f a <;> rfl

theorem rayUnary_nan (h : nanF32 a) :
    rayFloat1 fRcp .f32 a = 0x7FC00000 ∧ rayFloat1 fRsq .f32 a = 0x7FC00000 ∧ rayFloat1 fSqrt .f32 a = 0x7FC00000 := by
  have hd := (fDecode_eq_nan_iff a).2 h
  have hrsq : fRsq fp32 a.toNat = fNan fp32 := by
    unfold fRsq
    rw [hd]
  have hsqrt : fSqrt fp32 a.toNat = fNan fp32 := by
    unfold fSqrt
    rw [hd]
  exact ⟨congrArg wNat (fDiv_nan_right fp32 _ hd), congrArg wNat hrsq, congrArg wNat hsqrt⟩

end

/-- Settles O21: every result is one rounding, an infinity, a zero or the canonical NaN, and no rounding gives a subnormal or a NaN. -/
theorem rayFloatSpecialValues : Obligations.RayFloatSpecialValues := by
  intro a b c zeroed
  refine ⟨canonicalF32_fEncode _, canonicalF32_fEncode _, canonicalF32_fEncode _, canonicalF32_fEncode _, canonicalF32_of_result (resultF32_fDiv ..),
    canonicalF32_of_result (resultF32_fRsq _), canonicalF32_of_result (resultF32_fSqrt _), canonicalF32_fEncode _, canonicalF32_fEncode _,
    canonicalF32_fEncode _, canonicalF32_oneOperand (oneOperand_fMin ..), canonicalF32_oneOperand (oneOperand_fMax ..), rayBinary_nan, rayFmaOp_nan,
    rayUnary_nan, oneOperand_eq_nan_iff (oneOperand_fMin ..), oneOperand_eq_nan_iff (oneOperand_fMax ..), ?add, ?mul⟩
  case add => simp only [zeroed, rayAddOp, fAdd, fDecode_zeroed]
  case mul => simp only [zeroed, rayMulOp, fMul, fDecode_zeroed]

end Sys2Proof.Machine
end

section
/-! PROOFS. A step of a ray kernel: where it goes on, when its group ends, what each instruction leaves in the context, and the statements on arithmetic, logic, predicates, scalars and control flow. -/

namespace Sys2Proof.Machine

open Says

/-! What an instruction leaves of the context's place (R91, R98, R100): the register files alone change. -/

section
variable (x : RayCtx)

@[simp] theorem pWrite_charge (d : BitVec 6) (b : Byte) : (pWrite x d b).charge = x.charge := by unfold pWrite; split <;> rfl
@[simp] theorem pWrite_pc (d : BitVec 6) (b : Byte) : (pWrite x d b).pc = x.pc := by unfold pWrite; split <;> rfl
@[simp] theorem rayScalar_charge (n : Bool) (p : BitVec 3) (d : BitVec 6) (w : Word) : (rayScalar x n p d w).charge = x.charge := by
  unfold rayScalar; split <;> rfl
@[simp] theorem rayScalar_pc (n : Bool) (p : BitVec 3) (d : BitVec 6) (w : Word) : (rayScalar x n p d w).pc = x.pc := by
  unfold rayScalar; split <;> rfl

end

/-! The end of a step (R102, R105, R114). -/

/-- The group ends beyond its budget: BUDGET is raised with lane 0's k6 and k7 (R114, R115). -/
def budgetEnds (s : State) (l : Launch) (y : RayCtx) : State :=
  kernelFault (groupEnd s l y) y 0x201 galKfaultBudget ((y.k[6])[0].toNat % 65536 + 65536 * ((y.k[7])[0].toNat % 65536)) 1

section
variable {s : State} {l : Launch} {y : RayCtx} {f : RayFlow}

theorem raySettle_goesOn (hf : f ≠ .stop) (hb : y.charge ≤ l.budget) (hp : y.pc < l.code.length) : raySettle s l y f = putCtx s y := by
  simp [raySettle, hf, Nat.not_lt.2 hb, Nat.not_le.2 hp]

theorem raySettle_stop (hb : y.charge ≤ l.budget) : raySettle s l y .stop = groupEnd s l y := by
  simp [raySettle, Nat.not_lt.2 hb]

theorem raySettle_pastEnd (hf : f ≠ .stop) (hb : y.charge + 1 ≤ l.budget) (hp : l.code.length ≤ y.pc) :
    raySettle s l y f = groupEnd s l { y with charge := y.charge + 1 } := by
  have hlt : y.charge < l.budget := hb
  simp [raySettle, hf, hp, Nat.not_lt.2 hb, Nat.not_lt.2 hlt.le]

theorem raySettle_beyond (hb : l.budget < y.charge) : raySettle s l y f = budgetEnds s l y := by
  simp [raySettle, budgetEnds, hb]

end

/-! A step in a context that runs a group. -/

section
variable {s t : State} {c : CtxId} {x y : RayCtx} {l : Launch} {f : Launch → RayCtx → State → RayEffect} {ok : Bool}

theorem rayExec_of_runs (hc : ctxOf s c = some x) (hl : launchOf s c.gal x.launch = some l) (hok : ok = true)
    (hj : ∀ t, (f l x s).flow = .jump t → targetOk t l.code.length = true) :
    rayExec ok c f s = .next (raySettle (f l x s).st l (rayAdvance (f l x s).ctx (f l x s).flow) (f l x s).flow) := by
  unfold rayExec
  simp only [hok, hc, hl, Bool.not_true, Bool.false_eq_true, if_false]
  split
  next t ht => rw [if_pos (hj t ht), ht]
  next ht => rw [ht]
  next ht => rw [ht]

/-- Where a context is ready, an instruction that does not branch charges 1 and moves on. -/
theorem rayExec_of_ready (hr : rayReady s c x l) (hok : ok = true) (he : f l x s = ⟨t, y, .onward⟩) (hch : y.charge = x.charge) (hpc : y.pc = x.pc) :
    rayExec ok c f s = .next (rayDone t y) := by
  obtain ⟨hc, hl, hp, hb⟩ := hr
  rw [rayExec_of_runs hc hl hok (by simp [he]), he, raySettle_goesOn (f := .onward) (by decide) (by simpa [rayAdvance, hch] using hb)
    (by simpa [rayAdvance, hpc] using hp)]
  rfl

theorem raySimple_of_ready (hr : rayReady s c x l) {f : RayCtx → RayCtx} (hok : ok = true) (hch : (f x).charge = x.charge := by rfl)
    (hpc : (f x).pc = x.pc := by rfl) : raySimple ok c f s = .next (rayDone s (f x)) := rayExec_of_ready hr hok rfl hch hpc

end

/-- Settles O22: each instruction writes v[D] alone, so where a context is ready it is one simple step. -/
theorem rayArithmeticWritesV : Obligations.RayArithmeticWritesV := fun _ _ _ _ hr =>
  ⟨fun _ => ⟨
      fun h => (exec_rayAdd ..).trans (raySimple_of_ready hr h), fun h => (exec_raySub ..).trans (raySimple_of_ready hr h),
      fun h => (exec_rayMul ..).trans (raySimple_of_ready hr h), fun h => (exec_rayMin ..).trans (raySimple_of_ready hr h),
      fun h => (exec_rayMax ..).trans (raySimple_of_ready hr h), fun h => (exec_rayFma ..).trans (raySimple_of_ready hr h),
      fun h => (exec_rayAbs ..).trans (raySimple_of_ready hr h), fun h => (exec_rayNeg ..).trans (raySimple_of_ready hr h),
      fun h => (exec_rayFloor ..).trans (raySimple_of_ready hr h), fun h => (exec_rayFract ..).trans (raySimple_of_ready hr h),
      fun h => (exec_rayRcp ..).trans (raySimple_of_ready hr h), fun h => (exec_rayRsq ..).trans (raySimple_of_ready hr h),
      fun h => (exec_raySqrt ..).trans (raySimple_of_ready hr h)⟩,
    fun _ => ⟨
      fun h => (exec_rayAddi ..).trans (raySimple_of_ready hr h), fun h => (exec_raySubi ..).trans (raySimple_of_ready hr h),
      fun h => (exec_rayMuli ..).trans (raySimple_of_ready hr h), fun h => (exec_rayMini ..).trans (raySimple_of_ready hr h),
      fun h => (exec_rayMaxi ..).trans (raySimple_of_ready hr h)⟩⟩

/-- Settles O23: as O22, each instruction is one simple step that writes v[D], and NOP is one that writes nothing. -/
theorem rayLogicAndMovesWriteV : Obligations.RayLogicAndMovesWriteV := fun _ _ _ _ hr =>
  ⟨fun _ => ⟨
      fun h => (exec_rayAnd ..).trans (raySimple_of_ready hr h), fun h => (exec_rayOr ..).trans (raySimple_of_ready hr h),
      fun h => (exec_rayXor ..).trans (raySimple_of_ready hr h), fun h => (exec_rayNot ..).trans (raySimple_of_ready hr h),
      fun h => (exec_rayShl ..).trans (raySimple_of_ready hr h), fun h => (exec_rayShr ..).trans (raySimple_of_ready hr h),
      fun h => (exec_rayAsr ..).trans (raySimple_of_ready hr h), fun h => (exec_rayMov ..).trans (raySimple_of_ready hr h),
      fun h => (exec_rayMovk ..).trans (raySimple_of_ready hr h), fun h => (exec_rayCvt ..).trans (raySimple_of_ready hr h),
      fun h => (exec_raySel ..).trans (raySimple_of_ready hr h)⟩,
    fun _ => ⟨
      fun h => (exec_rayAndi ..).trans (raySimple_of_ready hr h), fun h => (exec_rayOri ..).trans (raySimple_of_ready hr h),
      fun h => (exec_rayXori ..).trans (raySimple_of_ready hr h), fun h => (exec_rayShli ..).trans (raySimple_of_ready hr h),
      fun h => (exec_rayShri ..).trans (raySimple_of_ready hr h), fun h => (exec_rayAsri ..).trans (raySimple_of_ready hr h),
      fun h => (exec_rayMovi ..).trans (raySimple_of_ready hr h)⟩,
    (exec_rayNop ..).trans (raySimple_of_ready hr rfl)⟩

/-! Predicates (R100). -/

/-- A sum of distinct powers of two has a bit for each. -/
theorem testBit_sum_two_pow {n : Nat} (f : Fin n → Bool) (i : Fin n) :
    (((List.finRange n).map fun l => if f l then 2 ^ l.val else 0).sum).testBit i.val = f i := by
  induction n with
  | zero => exact i.elim0
  | succ n ih =>
    have hs : ((List.finRange (n + 1)).map fun l => if f l then 2 ^ l.val else 0).sum =
        (if f 0 then 1 else 0) + 2 * ((List.finRange n).map fun l => if f l.succ then 2 ^ l.val else 0).sum := by
      rw [List.finRange_succ, List.map_cons, List.sum_cons, List.map_map, ← List.sum_map_mul_left]
      congr 3
      funext l
      simp [pow_succ, Nat.mul_comm]
    rw [hs]
    cases i using Fin.cases with
    | zero => cases f 0 <;> simp [Nat.testBit_zero] 
    | succ j =>
      rw [Fin.val_succ, Nat.testBit_succ, ← ih (fun l => f l.succ) j]
      congr 1
      split <;> omega

theorem getLsbD_sum_two_pow (f : Fin 8 → Bool) (n : Fin 8) :
    (BitVec.ofNat 8 (sumNat ((List.finRange 8).map fun l => if f l then 2 ^ l.val else 0))).getLsbD n.val = f n := by
  rw [BitVec.getLsbD_ofNat, decide_eq_true n.isLt, Bool.true_and, sumNat, ← List.sum_eq_foldl, testBit_sum_two_pow]
/-- CMP and CMPI write the bits of active lanes (R100). -/
theorem rayCmpWrite_eq (x : RayCtx) (d : BitVec 6) (pneg : Bool) (pidx : BitVec 3) (f : Fin 8 → Bool) :
    ∃ b : Byte, rayCmpWrite x d pneg pidx f = pWrite x d b ∧
      ∀ n : Fin 8, b.getLsbD n.val = if laneActive x pneg pidx n.val then f n else (pRead x d).getLsbD n.val :=
  ⟨_, rfl, fun n => getLsbD_sum_two_pow _ n⟩

/-- Settles O24: each instruction is one simple step; a predicate or a scalar is written, and the place of the context stays. -/
theorem rayPredicatesAndScalars : Obligations.RayPredicatesAndScalars := by
  intro s c x l hr scalar compared
  have predicate {ok : Bool} {d : BitVec 6} {b : RayCtx → Byte} (hok : ok = true) :
      raySimple ok c (fun x => pWrite x d (b x)) s = .next (rayDone s (pWrite x d (b x))) :=
    raySimple_of_ready hr hok (pWrite_charge ..) (pWrite_pc ..)
  have scalars {ok : Bool} {pneg : Bool} {pidx : BitVec 3} {d : BitVec 6} {w : RayCtx → Word} (hok : ok = true) :
      raySimple ok c (fun x => rayScalar x pneg pidx d (w x)) s = scalar pneg pidx d (w x) :=
    raySimple_of_ready hr hok (rayScalar_charge ..) (rayScalar_pc ..)
  have compares {ok : Bool} {pneg : Bool} {pidx : BitVec 3} {d : BitVec 6} {f : RayCtx → Fin 8 → Bool} (hok : ok = true) :
      compared pneg pidx d (f x) (raySimple ok c (fun x => rayCmpWrite x d pneg pidx (f x)) s) := by
    obtain ⟨b, hb, hbits⟩ := rayCmpWrite_eq x d pneg pidx (f x)
    refine ⟨b, ?_, hbits⟩
    rw [← hb]
    exact raySimple_of_ready hr hok (by rw [hb, pWrite_charge]) (by rw [hb, pWrite_pc])
  refine ⟨fun i => ⟨fun h => exec_rayCmp c i s ▸ compares h, fun h => (exec_rayPand ..).trans (predicate h), fun h => (exec_rayPor ..).trans (predicate h),
      fun h => (exec_rayPxor ..).trans (predicate h), fun h => (exec_rayPnot ..).trans (predicate h), fun h => (exec_raySadd ..).trans (scalars h)⟩,
    fun i => ⟨fun h => exec_rayCmpi c i s ▸ compares h, fun h => ?_, fun h => (exec_raySmovi ..).trans (scalars h),
      fun h => (exec_raySaddi ..).trans (scalars h)⟩⟩
  rw [← BitVec.ofNat_toNat]
  exact (exec_rayPmovi ..).trans (predicate h)

/-! Branches and ends (R98, R99, R102, R105). -/

theorem targetOk_of_lt {t n : Nat} (h : t < n) : targetOk t n = true := by simp [targetOk, h]

section
variable {s : State} {c : CtxId} {x y : RayCtx} {l : Launch} {f : Launch → RayCtx → State → RayEffect} {ok go : Bool} {t : Nat}

/-- An instruction that branches when `go` holds goes on at its target or at the next word. -/
theorem rayExec_branch (hc : ctxOf s c = some x) (hl : launchOf s c.gal x.launch = some l) (hok : ok = true)
    (he : f l x s = ⟨s, y, if go then .jump t else .onward⟩) (hb : y.charge + 1 ≤ l.budget) (ht : t < l.code.length) (hp : y.pc + 1 < l.code.length) :
    rayExec ok c f s = .next (putCtx s { y with charge := y.charge + 1, pc := if go then t else y.pc + 1 }) := by
  cases go
  · have he' : f l x s = ⟨s, y, .onward⟩ := he
    rw [rayExec_of_runs hc hl hok (by simp [he']), he', raySettle_goesOn (f := .onward) (by decide) hb hp]
    rfl
  · have he' : f l x s = ⟨s, y, .jump t⟩ := he
    have hj : ∀ u, (f l x s).flow = .jump u → targetOk u l.code.length = true := by
      rintro u hu
      obtain rfl : (t : Int) = u := by simpa [he'] using hu
      exact targetOk_of_lt ht
    rw [rayExec_of_runs hc hl hok hj, he', raySettle_goesOn (f := .jump t) (by simp) hb ht]
    rfl

theorem execRayLoop_of_runs {i : RayBr} (hc : ctxOf s c = some x) (hl : launchOf s c.gal x.launch = some l) (hok : Instr.wf (.rayLoop c i) = true)
    (hi : (x.pc : Int) + i.offset.toInt = t) (hb : x.charge + 1 ≤ l.budget) (ht : t < l.code.length) (hp : x.pc + 1 < l.code.length) :
    execRayLoop c i s =
      if anyActive x i.pneg i.pidx then
        .next (putCtx s { sWrite x i.a (sRead x i.a - 1) with charge := x.charge + 1, pc := if decide (sRead x i.a - 1 ≠ 0) then t else x.pc + 1 })
      else .next (putCtx s { x with charge := x.charge + 1, pc := x.pc + 1 }) := by
  cases ha : anyActive x i.pneg i.pidx
  · exact rayExec_branch (go := false) (t := t) hc hl hok (by simp [ha]) hb ht hp
  · exact rayExec_branch (y := sWrite x i.a (sRead x i.a - 1)) hc hl hok (by simp [ha, hi]) hb ht hp

end

/-- Settles O25: a branch goes on at its target or at the next word; END, the word after the last and a charge beyond the budget end the group. -/
theorem rayControlFlow : Obligations.RayControlFlow := by
  intro s c x l hc hl charged
  refine ⟨fun hb => ⟨fun i t hi ht hp => ⟨fun hok => ?any, fun hok => ?all, fun hok => ?loop⟩, fun i hok => ?fin, fun hp hb2 => ?last⟩, fun hb => ?beyond⟩
  case any => exact (exec_rayBrany ..).trans (rayExec_branch hc hl hok (by rw [hi]) hb ht hp)
  case all => exact (exec_rayBrall ..).trans (rayExec_branch hc hl hok (by rw [hi]) hb ht hp)
  case loop => exact (exec_rayLoop ..).trans (execRayLoop_of_runs hc hl hok hi hb ht hp)
  case fin =>
    have hx := rayExec_of_runs (f := fun _ x s => ⟨s, x, .stop⟩) hc hl hok nofun
    exact (exec_rayEnd ..).trans (hx.trans (congrArg Host.Outcome.next (raySettle_stop hb)))
  case last =>
    have hx := rayExec_of_runs (f := fun _ x s => ⟨s, x, .onward⟩) hc hl rfl nofun
    exact (exec_rayNop ..).trans (hx.trans (congrArg Host.Outcome.next (raySettle_pastEnd (f := .onward) (by decide) hb2 hp.ge)))
  case beyond =>
    have hx := rayExec_of_runs (f := fun _ x s => ⟨s, x, .onward⟩) hc hl rfl nofun
    exact (exec_rayNop ..).trans (hx.trans (congrArg Host.Outcome.next (raySettle_beyond (Nat.lt_succ_of_le hb))))

end Sys2Proof.Machine
end

section
/-! PROOFS. A ray kernel's constants, the layer sampler over its lanes, EMIT and the end of a group, and the statement on them. -/

namespace Sys2Proof.Machine

open Says

/-! The constant block (R103). -/

theorem leNat_zeros (n : Nat) : leNat (List.replicate n 0) = 0 := by
  induction n with
  | zero => rfl
  | succ n ih => rw [List.replicate_succ, leNat, ih]; rfl

theorem leAt_of_length_le {bs : List Byte} {o : Nat} (len : Nat) (h : bs.length ≤ o) : leAt bs o len = 0 := by
  have hz : sliceBytes bs o len = List.replicate len 0 := by
    refine List.eq_replicate_iff.2 ⟨by simp [sliceBytes], fun b hb => ?_⟩
    obtain ⟨i, -, rfl⟩ := List.mem_map.1 hb
    exact List.getD_eq_default _ _ (by omega)
  rw [leAt, hz, leNat_zeros]

/-- The constant at a word's address; 0 outside the block. -/
def constAt (consts : List Byte) (a : Nat) : Word := if a < consts.length then BitVec.ofNat 32 (leAt consts a 4) else 0

theorem constWord_eq (consts : List Byte) (a : Nat) : constWord consts a = constAt consts (a / 4 * 4) := by
  unfold constAt
  split
  next => rfl
  next h =>
    rw [constWord, leAt_of_length_le 4 (Nat.not_lt.1 h)]
    rfl

/-! The v registers (R91, R98). -/

theorem laneActive_vWrite (x : RayCtx) (d : BitVec 6) (pneg pneg' : Bool) (pidx pidx' : BitVec 3) (f : Fin 8 → Word) (n : Nat) :
    laneActive (vWrite x d pneg pidx f) pneg' pidx' n = laneActive x pneg' pidx' n := rfl

theorem vRead_vWrite_self (x : RayCtx) (d : BitVec 6) (pneg : Bool) (pidx : BitVec 3) (f : Fin 8 → Word) (n : Fin 8) :
    vRead (vWrite x d pneg pidx f) d n = if laneActive x pneg pidx n.val then f n else vRead x d n := by
  simp [vRead, vWrite]

theorem vRead_vWrite_ne (x : RayCtx) {d r : BitVec 6} (pneg : Bool) (pidx : BitVec 3) (f : Fin 8 → Word) (n : Fin 8) (h : r ≠ d) :
    vRead (vWrite x d pneg pidx f) r n = vRead x r n := by
  have hne : d.toNat ≠ r.toNat := fun e => h (BitVec.eq_of_toNat_eq e.symm)
  simp [vRead, vWrite, Vector.getElem_set_ne _ _ hne]

theorem add_one_ne_self (d : BitVec 6) : d ≠ d + 1 := by bv_omega

/-! The sampler's lanes (R106, R107, R110). -/

section
variable (s : State) (l : Launch) (i : RayImm) (x : RayCtx)

/-- One lane's pass over the list, its log begun at `g`: the colour and alpha, the steps, the log. -/
def smpLane (n : Fin 8) (g : SmpLog) : (Nat × Nat) × List Nat × SmpLog :=
  let imm := i.imm.toNat
  let reg (k : Nat) : Nat := (vRead x (i.a + BitVec.ofNat 6 k) n).toNat
  smpEntries s l (bitsOf imm 12 12) (sDiv (sOf (bitsOf imm 0 8)) (sOf 255)) (reg 0) (reg 1) (reg 2) (reg 3) ((x.k[4])[n].toNat)
    (bitsOf imm 8 4) (bitsOf imm 24 8) 0 (vRead x i.d n).toNat (vRead x (i.d + 1) n).toNat [] g

/-- What the lanes so far have left: each active lane's colour and alpha, the steps, the log. -/
abbrev SmpAcc := List (Fin 8 × Nat × Nat) × List Nat × SmpLog

/-- The next lane joins what the lanes so far have left. -/
def smpNext (acc : SmpAcc) (n : Fin 8) : SmpAcc :=
  if laneActive x i.pneg i.pidx n.val then
    (acc.1 ++ [(n, (smpLane s l i x n acc.2.2).1)], maxSteps acc.2.1 (smpLane s l i x n acc.2.2).2.1, (smpLane s l i x n acc.2.2).2.2)
  else acc

/-- What all the lanes leave. -/
def smpAll : SmpAcc := (List.finRange 8).foldl (smpNext s l i x) ([], [], { region := galRegion x.id.gal })

/-- A lane's colour and alpha among those left; zero for a lane that has none. -/
def laneLeft (res : List (Fin 8 × Nat × Nat)) (n : Fin 8) (f : Fin 8 × Nat × Nat → Nat) : Word := wNat (((res.find? fun e => e.1 == n).map f).getD 0)

theorem smpLanes_ctx : (smpLanes s l i x).ctx =
    vWrite (vWrite x i.d i.pneg i.pidx fun n => laneLeft (smpAll s l i x).1 n fun e => e.2.1) (i.d + 1) i.pneg i.pidx
      fun n => laneLeft (smpAll s l i x).1 n fun e => e.2.2 := by
  unfold smpLanes
  extract_lets imm reg stop go
  have hgo : go = smpNext s l i x := by
    funext acc n
    rfl
  have hall : (List.finRange 8).foldl (smpNext s l i x) ([], [], { region := galRegion x.id.gal }) = smpAll s l i x := rfl
  rw [hgo, hall]
  generalize smpAll s l i x = r
  obtain ⟨res, steps, g⟩ := r
  rfl

variable {s l i x}

theorem find?_smpNext_ne (acc : SmpAcc) {m n : Fin 8} (h : m ≠ n) :
    ((smpNext s l i x acc m).1.find? fun e => e.1 == n) = acc.1.find? fun e => e.1 == n := by
  unfold smpNext
  split <;> simp [h]

theorem find?_foldl_smpNext (ns : List (Fin 8)) (acc : SmpAcc) {n : Fin 8} (h : n ∉ ns) :
    ((ns.foldl (smpNext s l i x) acc).1.find? fun e => e.1 == n) = acc.1.find? fun e => e.1 == n := by
  induction ns generalizing acc with
  | nil => rfl
  | cons m ns ih =>
    obtain ⟨hm, hns⟩ := not_or.1 (List.mem_cons.not.1 h)
    rw [List.foldl_cons, ih _ hns, find?_smpNext_ne acc (Ne.symm hm)]

/-- An active lane leaves what its own pass gave. -/
theorem exists_find?_foldl_smpNext (ns : List (Fin 8)) (hd : ns.Nodup) (acc : SmpAcc) {n : Fin 8} (hn : n ∈ ns)
    (ha : laneActive x i.pneg i.pidx n.val = true) (hacc : (acc.1.find? fun e => e.1 == n) = none) :
    ∃ g, ((ns.foldl (smpNext s l i x) acc).1.find? fun e => e.1 == n) = some (n, (smpLane s l i x n g).1) := by
  induction ns generalizing acc with
  | nil => cases hn
  | cons m ns ih =>
    obtain ⟨hm, hd⟩ := List.nodup_cons.1 hd
    rw [List.foldl_cons]
    rcases List.mem_cons.1 hn with rfl | hn
    · refine ⟨acc.2.2, ?_⟩
      rw [find?_foldl_smpNext ns _ hm, smpNext, if_pos ha, List.find?_append, hacc]
      simp
    · exact ih hd _ hn ((find?_smpNext_ne acc (ne_of_mem_of_not_mem hn hm).symm).trans hacc)

theorem vRead_smpLanes {n : Fin 8} (ha : laneActive x i.pneg i.pidx n.val = true) :
    ∃ g, vRead (smpLanes s l i x).ctx i.d n = wNat (smpLane s l i x n g).1.1 ∧
      vRead (smpLanes s l i x).ctx (i.d + 1) n = wNat (smpLane s l i x n g).1.2 := by
  obtain ⟨g, hg⟩ := exists_find?_foldl_smpNext (s := s) (l := l) _ (List.nodup_finRange 8) ([], [], { region := galRegion x.id.gal })
    (List.mem_finRange n) ha rfl
  have hleft (f : Fin 8 × Nat × Nat → Nat) : laneLeft (smpAll s l i x).1 n f = wNat (f (n, (smpLane s l i x n g).1)) := by
    rw [laneLeft, smpAll, hg]
    rfl
  refine ⟨g, ?_, ?_⟩
  · rw [smpLanes_ctx, vRead_vWrite_ne _ _ _ _ _ (add_one_ne_self _), vRead_vWrite_self, if_pos ha, hleft]
  · rw [smpLanes_ctx, vRead_vWrite_self, laneActive_vWrite, if_pos ha, hleft]

end

/-! The end of a group (R104, R105, R126). -/

section
variable {ι α : Type} {k : ι → Nat} (v : ι → α) {is : List ι} {i : ι}

theorem smGet?_foldl_smSet_ne (m : List (Nat × α)) {a : Nat} (h : ∀ i ∈ is, a ≠ k i) :
    smGet? (is.foldl (fun o i => smSet o (k i) (v i)) m) a = smGet? m a := by
  induction is generalizing m with
  | nil => rfl
  | cons j is ih =>
    obtain ⟨hj, his⟩ := List.forall_mem_cons.1 h
    rw [List.foldl_cons, ih _ his, smGet?_smSet, if_neg hj]

/-- Values written one by one, each under a key of its own, are all read back. -/
theorem smGet?_foldl_smSet (hk : ∀ i ∈ is, ∀ j ∈ is, k i = k j → i = j) (m : List (Nat × α)) (hi : i ∈ is) :
    smGet? (is.foldl (fun o i => smSet o (k i) (v i)) m) (k i) = some (v i) := by
  induction is generalizing m with
  | nil => cases hi
  | cons j is ih =>
    rw [List.foldl_cons]
    by_cases h : i ∈ is
    · exact ih (fun a ha b hb => hk a (List.mem_cons_of_mem _ ha) b (List.mem_cons_of_mem _ hb)) _ h
    · obtain rfl := (List.mem_cons.1 hi).resolve_right h
      have hne : ∀ a ∈ is, k i ≠ k a := fun a ha e => h (hk i hi a (List.mem_cons_of_mem _ ha) e ▸ ha)
      rw [smGet?_foldl_smSet_ne v _ hne, smGet?_smSet, if_pos rfl]

end

theorem kernelFault_ctxs (s : State) (x : RayCtx) (cause : Nat) (counter : Nat → Nat) (arg n : Nat) :
    (kernelFault s x cause counter arg n).ctxs = s.ctxs := by
  unfold kernelFault
  dsimp only
  split_ifs <;> rfl

theorem blockOf_setGal (s : State) (g g' : Fin 4) (b : Fin 12) (f : Galena → Galena) (h : ∀ y, (f y).blocks = y.blocks) :
    blockOf (setGal s g f) g' b = blockOf s g' b := by
  simp only [blockOf, setGal, getElem_vUpd]
  split <;> simp only [h]

theorem blockOf_setBlock_self (s : State) (g : Fin 4) (b : Fin 12) (f : RayBlock → RayBlock) : blockOf (setBlock s g b f) g b = f (blockOf s g b) := by
  simp only [blockOf, setBlock, setGal, getElem_vUpd, if_true]

theorem blockOf_kernelFault (s : State) (x : RayCtx) (cause : Nat) (counter : Nat → Nat) (arg n : Nat) (g : Fin 4) (b : Fin 12) :
    blockOf (kernelFault s x cause counter arg n) g b = blockOf s g b := by
  unfold kernelFault
  dsimp only
  split
  · rfl
  · split
    · rfl
    · exact blockOf_setGal (bump s _ n) x.id.gal g b _ fun _ => rfl

/-- What a lane leaves for the tile: its last emitted value, or the fallback register's (R104, R105). -/
def laneValue (l : Launch) (x : RayCtx) (n : Fin 8) : Nat :=
  match x.emitted[n] with
  | some v => v
  | none => emitValue .f32 ((x.v[Fin.ofNat 64 l.fallbackV])[n])

/-- A tile run after a group of it has ended. -/
def endedRun (l : Launch) (x : RayCtx) (t : TileRun) : TileRun :=
  { t with
    ended := natInsert t.ended x.group
    out := (List.finRange 8).foldl (fun o n => smSet o (outKey x.group n.val) (laneValue l x n)) t.out }

/-- The ended runs of the block, and the group's context gone, before EMIT_MISSING. -/
def groupLeaves (s : State) (l : Launch) (x : RayCtx) : State :=
  let t := setBlock s x.id.gal x.id.blk fun b => { b with tiles := b.tiles.map fun t => if isRunOf x t then endedRun l x t else t }
  { t with ctxs := t.ctxs.filter fun y => y.id != x.id }

theorem groupEnd_eq (s : State) (l : Launch) (x : RayCtx) :
    groupEnd s l x = groupLeaves s l x ∨ ∃ missing, groupEnd s l x = kernelFault (groupLeaves s l x) x 0x203 galKfaultEmit missing 1 := by
  have hv (n : Fin 8) : ((List.finRange 8).map (laneValue l x)).getD n.val 0 = laneValue l x n := by
    rw [List.getD_eq_getElem _ _ (by simp), List.getElem_map, List.getElem_finRange]
    rfl
  have he (t : TileRun) : endedRun l x t = { t with
      ended := natInsert t.ended x.group
      out := (List.finRange 8).foldl (fun o n => smSet o (outKey x.group n.val) (((List.finRange 8).map (laneValue l x)).getD n.val 0)) t.out } := by
    simp only [hv]
    rfl
  unfold groupEnd
  extract_lets missing vals s1 s2
  have hs : s2 = groupLeaves s l x := by
    simp only [groupLeaves, he]
    rfl
  rw [hs]
  split
  · exact .inl rfl
  · exact .inr ⟨missing, rfl⟩

theorem ctxs_groupLeaves (s : State) (l : Launch) (x : RayCtx) : (groupLeaves s l x).ctxs = s.ctxs.filter fun y => y.id != x.id := rfl

theorem blockOf_groupLeaves (s : State) (l : Launch) (x : RayCtx) : blockOf (groupLeaves s l x) x.id.gal x.id.blk =
    { blockOf s x.id.gal x.id.blk with tiles := (blockOf s x.id.gal x.id.blk).tiles.map fun t => if isRunOf x t then endedRun l x t else t } :=
  blockOf_setBlock_self ..

theorem ctxs_groupEnd (s : State) (l : Launch) (x : RayCtx) : (groupEnd s l x).ctxs = s.ctxs.filter fun y => y.id != x.id := by
  rcases groupEnd_eq s l x with h | ⟨_, h⟩ <;> rw [h]
  · exact ctxs_groupLeaves s l x
  · rw [kernelFault_ctxs, ctxs_groupLeaves]

theorem tiles_groupEnd (s : State) (l : Launch) (x : RayCtx) : (blockOf (groupEnd s l x) x.id.gal x.id.blk).tiles =
    (blockOf s x.id.gal x.id.blk).tiles.map fun t => if isRunOf x t then endedRun l x t else t := by
  rcases groupEnd_eq s l x with h | ⟨_, h⟩ <;> rw [h]
  · rw [blockOf_groupLeaves]
  · rw [blockOf_kernelFault, blockOf_groupLeaves]

theorem ctxOf_groupEnd (s : State) (l : Launch) (x : RayCtx) : ctxOf (groupEnd s l x) x.id = none := by
  rw [ctxOf, ctxs_groupEnd]
  exact List.find?_eq_none.2 fun y hy => by simpa using (List.mem_filter.1 hy).2

theorem outKey_inj {group : Nat} {m n : Fin 8} (h : outKey group m.val = outKey group n.val) : m = n := by
  simp only [outKey] at h
  exact Fin.ext (by omega)

/-- Each lane's value stands at its place of the tile (R124, R126). -/
theorem smGet?_endedRun (l : Launch) (x : RayCtx) (t : TileRun) (n : Fin 8) :
    smGet? (endedRun l x t).out (outKey x.group n.val) = some (laneValue l x n) :=
  smGet?_foldl_smSet (laneValue l x) (fun _ _ _ _ => outKey_inj) t.out (List.mem_finRange n)

/-! The instructions. -/

theorem smpLanes_pc (s : State) (l : Launch) (i : RayImm) (x : RayCtx) : (smpLanes s l i x).ctx.pc = x.pc := by
  rw [smpLanes_ctx]
  rfl

/-- What SMP leaves outside its context: the lines read pass the caches, then its constant and sample faults are raised (R103, R111, R115, R130). -/
def smpTells (s : State) (c : CtxId) (x : RayCtx) (r : SmpResult) : State :=
  let u := touchLines s c.gal c.blk r.lines
  let u := match r.consts with
    | [] => u
    | a :: _ => kernelFault u x 0x204 galKfaultConst (a % 65536) r.consts.length
  match r.faults with
  | [] => u
  | (slot, st) :: _ => kernelFault u x 0x202 galKfaultSample (slot + 256 * st) r.faults.length

section
variable {s : State} {c : CtxId} {x : RayCtx} {l : Launch}

theorem execRayLdc_of_ready (hr : rayReady s c x l) {i : RayImm} (hok : Instr.wf (.rayLdc c i) = true) : execRayLdc c i s =
    let a := (sRead x i.a + i.imm).toNat / 4 * 4
    .next (if anyActive x i.pneg i.pidx then
      rayDone (if a < l.consts.length then s else kernelFault s x 0x204 galKfaultConst (a % 65536) 1)
        (vWrite x i.d i.pneg i.pidx fun _ => constAt l.consts a)
      else rayDone s x) := by
  cases ha : anyActive x i.pneg i.pidx
  · exact rayExec_of_ready hr hok (by simp only [ha, Bool.false_eq_true, if_false]) rfl rfl
  · exact rayExec_of_ready hr hok (by simp only [ha, if_true, constInRange, decide_eq_true_eq, constWord_eq]) rfl rfl

theorem execRaySmp_of_ready (hr : rayReady s c x l) {i : RayImm} (hok : Instr.wf (.raySmp c i) = true) : execRaySmp c i s =
    .next (raySettle (smpTells s c x (smpLanes s l i x)) l
      { (smpLanes s l i x).ctx with charge := x.charge + (smpLanes s l i x).steps + 1, pc := x.pc + 1 } .onward) := by
  obtain ⟨hc, hl, -, -⟩ := hr
  rw [execRaySmp, rayExec_of_runs hc hl hok fun _ h => RayFlow.noConfusion h]
  simp only [rayAdvance, smpLanes_pc]
  rfl

end

/-- Settles O26: an active lane of SMP holds what its own pass over the list gave, and a group that ends writes each lane's value under a key of its own. -/
theorem rayEmitsAndEnds : Obligations.RayEmitsAndEnds := by
  intro s c x l hr word
  refine ⟨fun i hok => (exec_rayLdc ..).trans (execRayLdc_of_ready hr hok), fun i hok => ?ldcv, fun i hok => ?smp, fun i hok => ?emit, fun n t ht hrun => ?ends⟩
  case ldcv =>
    refine (exec_rayLdcv ..).trans (rayExec_of_ready hr hok ?_ rfl rfl)
    simp only [constWord_eq]
    rfl
  case smp =>
    have hexec := (exec_raySmp c i s).trans (execRaySmp_of_ready hr hok)
    obtain ⟨-, -, hp, -⟩ := hr
    refine ⟨⟨_, _, smpLanes_ctx s l i x⟩, fun n ha => vRead_smpLanes ha, fun hb => hexec.trans ?_, fun hb => hexec.trans ?_⟩
    · exact congrArg Host.Outcome.next (raySettle_goesOn (f := .onward) (by decide) hb hp)
    · exact congrArg Host.Outcome.next (raySettle_beyond hb)
  case emit => exact ⟨_, (exec_rayEmit ..).trans (raySimple_of_ready hr hok), fun n => by simp⟩
  case ends =>
    refine ⟨endedRun l x t, ?_, rfl, rfl, (mem_natInsert ..).2 (.inl rfl), ctxOf_groupEnd s l x, smGet?_endedRun l x t n⟩
    rw [tiles_groupEnd]
    exact List.mem_map.2 ⟨t, ht, if_pos hrun⟩

end Sys2Proof.Machine
end

section
/-! PROOFS. Quartz leaves the ray engine alone: the units that FRAME_RENDERED lets go on change no Galena region and no stripe. -/

namespace Sys2Proof.Machine

/-- The Galena regions and the stripes of a state. -/
def raysOf (s : State) : Vector Galena 4 × StripeQueue := (s.gal, s.stripes)

section
variable (s : State)

/-! The updates that other parts of the state take. -/

@[simp] theorem raysOf_setF (k lo n v : Nat) : raysOf (setF s k lo n v) = raysOf s := rfl
@[simp] theorem raysOf_bump (k n : Nat) : raysOf (bump s k n) = raysOf s := rfl
@[simp] theorem raysOf_raise (a b c d e f : Nat) : raysOf (raise s a b c d e f) = raysOf s := rfl
@[simp] theorem raysOf_setAudio (f : Audio → Audio) : raysOf (setAudio s f) = raysOf s := rfl
@[simp] theorem raysOf_setQuartz (f : Quartz → Quartz) : raysOf (setQuartz s f) = raysOf s := rfl
@[simp] theorem raysOf_setQPort (p : Fin 4) (f : QPort → QPort) : raysOf (setQPort s p f) = raysOf s := rfl
@[simp] theorem raysOf_setLayer (p : Fin 4) (id : Nat) (f : Layer → Layer) : raysOf (setLayer s p id f) = raysOf s := rfl
@[simp] theorem raysOf_setWriting (p : Fin 4) (id : Nat) (f : LayerVer → LayerVer) : raysOf (setWriting s p id f) = raysOf s := rfl
@[simp] theorem raysOf_setMeter (k : Nat) (f : AudioMeter → AudioMeter) : raysOf (setMeter s k f) = raysOf s := rfl
@[simp] theorem raysOf_dropLayer (p : Fin 4) (id : Nat) : raysOf (dropLayer s p id) = raysOf s := rfl
@[simp] theorem raysOf_setPortState (p : Fin 4) (x : PortState) : raysOf (setPortState s p x) = raysOf s := rfl
@[simp] theorem raysOf_sendStatus (p : Fin 4) (a b c : Nat) : raysOf (sendStatus s p a b c) = raysOf s := rfl
@[simp] theorem raysOf_ctrlTakes (p : Fin 4) : raysOf (ctrlTakes s p) = raysOf s := rfl
@[simp] theorem raysOf_endStream (p : Fin 4) : raysOf (endStream s p) = raysOf s := by simp [endStream, embedEnd]
@[simp] theorem raysOf_stopStream (p : Fin 4) : raysOf (stopStream s p) = raysOf s := by simp [stopStream]
@[simp] theorem raysOf_qtzEvent (a b c : Nat) : raysOf (qtzEvent s a b c) = raysOf s := rfl
@[simp] theorem raysOf_grnEvent (a b c : Nat) : raysOf (grnEvent s a b c) = raysOf s := rfl
@[simp] theorem raysOf_tellAbandoned (p : Fin 4) (a b c : Nat) : raysOf (tellAbandoned s p a b c) = raysOf s := rfl
@[simp] theorem raysOf_abandonUnit (p : Fin 4) (a : Nat) : raysOf (abandonUnit s p a) = raysOf s := rfl
@[simp] theorem raysOf_abandonHeader (p : Fin 4) (a : Nat) : raysOf (abandonHeader s p a) = raysOf s := rfl
@[simp] theorem raysOf_sweepEnded (p : Fin 4) : raysOf (sweepEnded s p) = raysOf s := rfl

variable {s}

theorem raysOf_foldl {α : Type} {f : State → α → State} (hf : ∀ t x, raysOf (f t x) = raysOf t) (l : List α) : raysOf (l.foldl f s) = raysOf s := by
  induction l generalizing s with
  | nil => rfl
  | cons x l ih => rw [List.foldl_cons, ih, hf]

/-! A stream's units (R63 to R74). -/

@[simp] theorem raysOf_clockSeen (c : Nat) : raysOf (clockSeen s c) = raysOf s := by simp [clockSeen, apply_ite raysOf]

@[simp] theorem raysOf_clockStamp (c n : Nat) : raysOf (clockStamp s c n) = raysOf s := by simp [clockStamp]

@[simp] theorem raysOf_embedUnit (p : Fin 4) (u : List Byte) (n : Nat) (v : Bool) : raysOf (embedUnit s p u n v) = raysOf s := by
  simp [embedUnit, apply_ite raysOf]

@[simp] theorem raysOf_abandon (p : Fin 4) (a b : Nat) : raysOf (abandon s p a b) = raysOf s := by
  unfold abandon
  split <;> simp [apply_ite raysOf]

@[simp] theorem raysOf_closeFrame (p : Fin 4) (a : Nat) (b : Bool) : raysOf (closeFrame s p a b) = raysOf s := by
  unfold closeFrame
  dsimp only
  split
  · rfl
  · refine raysOf_foldl (fun t l => ?_) _
    split <;> simp [apply_ite raysOf]

@[simp] theorem raysOf_sequenceFail (p : Fin 4) : raysOf (sequenceFail s p) = raysOf s := raysOf_closeFrame ..

@[simp] theorem raysOf_startStream (p : Fin 4) (u : List Byte) : raysOf (startStream s p u) = raysOf s := by
  simp [startStream, apply_ite raysOf]

@[simp] theorem raysOf_measureRate (p : Fin 4) (n : Nat) : raysOf (measureRate s p n) = raysOf s := by
  simp [measureRate, apply_ite raysOf]

@[simp] theorem raysOf_beginFrame (p : Fin 4) (st : Stream) (u : List Byte) : raysOf (beginFrame s p st u) = raysOf s := by
  simp [beginFrame]

@[simp] theorem raysOf_endFrame (p : Fin 4) : raysOf (endFrame s p) = raysOf s := by
  simp [endFrame, apply_ite raysOf]

theorem raysOf_dramStore (a : Nat) (bs : List Byte) : raysOf (dramStore s a bs).2 = raysOf s := by
  dsimp only [dramStore]
  split <;> rfl

@[simp] theorem raysOf_storeWrite (p : Fin 4) (a b c : Nat) (bs : List Byte) : raysOf (storeWrite s p a b c bs) = raysOf s := by
  have h := raysOf_dramStore (s := s) c bs
  unfold storeWrite
  generalize dramStore s c bs = d at h
  exact h

@[simp] theorem raysOf_writeBand (p : Fin 4) (a b c : Nat) (bs : List Byte) : raysOf (writeBand s p a b c bs) = raysOf s := by
  unfold writeBand
  split <;> simp [apply_ite raysOf]

@[simp] theorem raysOf_planeUnit (p : Fin 4) (u : List Byte) : raysOf (planeUnit s p u) = raysOf s := by
  unfold planeUnit
  dsimp only
  split
  · simp
  · split
    next => simp
    next =>
      split
      next => simp
      next =>
        split
        next => rfl
        next => split <;> simp [apply_ite raysOf]

theorem raysOf_layerHeader {p : Fin 4} {st : Stream} {u : List Byte} {t : State} (h : layerHeader s p st u = .done t) : raysOf t = raysOf s := by
  unfold layerHeader at h
  dsimp only at h
  split at h
  · cases h
    simp
  · split at h
    · cases h
      simp
    · split_ifs at h
      · cases h
        simp
      · cases h
        simp
      · cases h
        simp
      · split at h <;> cases h
        simp

theorem raysOf_takeUnit {p : Fin 4} {u : List Byte} {t : State} (h : takeUnit s p u = .done t) : raysOf t = raysOf s := by
  have hcounted {c : Bool} {k : Nat} : raysOf (if c then s else bump s k) = raysOf s := by simp [apply_ite raysOf]
  unfold takeUnit at h
  dsimp only at h
  split at h
  · cases h
    simp
  · split at h
    · cases h
      rfl
    · split at h
      · split at h <;> cases h
        · simp
        · exact hcounted
      · split at h
        · cases h
          simp [hcounted]
        · split at h
          case h_3 =>
            split at h <;> cases h
            next hl => rw [raysOf_layerHeader hl, raysOf_setQPort, hcounted]
          all_goals
            rw [← Taken.done.inj h]
            simp [hcounted]

/-! A port's bytes (R64, R68, R82). -/

@[simp] theorem raysOf_resumePort (p : Fin 4) : raysOf (resumePort s p) = raysOf s := by simp [resumePort, apply_ite raysOf]

@[simp] theorem raysOf_badLength (p : Fin 4) (bs : List Byte) : raysOf (badLength s p bs) = raysOf s := by
  simp [badLength, apply_ite raysOf]

@[simp] theorem raysOf_parseBytes (p : Fin 4) (n : Nat) (bs : List Byte) : raysOf (parseBytes p n bs s) = raysOf s := by
  induction n generalizing bs s with
  | zero => rfl
  | succ n ih =>
    unfold parseBytes
    split
    · rfl
    · split
      · exact ih _
      · dsimp only
        split
        · rw [ih, raysOf_badLength, raysOf_setQPort]
        · split
          next ht => rw [ih, raysOf_takeUnit ht, raysOf_setQPort]
          next => rfl

@[simp] theorem raysOf_feedUnits (p : Fin 4) (n : Nat) (bs : List Byte) : raysOf (feedUnits p n bs s).1 = raysOf s := by
  induction n generalizing bs s with
  | zero => rfl
  | succ n ih =>
    unfold feedUnits
    dsimp only
    split
    · rfl
    · split
      · exact ih _
      · split_ifs <;> simp [ih]

@[simp] theorem raysOf_feedRx (p : Fin 4) : raysOf (feedRx s p) = raysOf s := by
  unfold feedRx
  dsimp only
  split
  · exact raysOf_feedUnits ..
  · rfl

@[simp] theorem raysOf_retryPort (p : Fin 4) : raysOf (retryPort s p) = raysOf s := by
  unfold retryPort
  dsimp only
  split
  · rfl
  · rw [raysOf_feedRx, raysOf_foldl (fun t bs => by simp [apply_ite raysOf]), raysOf_setQPort]

@[simp] theorem raysOf_frameRendered (frame : Nat) : raysOf (frameRendered s frame) = raysOf s := by
  unfold frameRendered retryHeld
  rw [raysOf_foldl fun t p => raysOf_retryPort p]
  exact raysOf_foldl (fun t p => by rw [raysOf_sweepEnded, raysOf_setQPort]) _

end

end Sys2Proof.Machine
end

section
/-! PROOFS. A ray block takes tiles, hands groups to cells and sends finished tiles, cache lines fill, and the statement on them. -/

namespace Sys2Proof.Machine

open Says

/-! Regions and blocks. -/

theorem gal_setGal_self (s : State) (g : Fin 4) (f : Galena → Galena) : (setGal s g f).gal[g] = f s.gal[g] := by
  simp only [setGal, getElem_vUpd, if_true]

theorem setGal_of_fixed {s : State} {g : Fin 4} {f : Galena → Galena} (h : f s.gal[g] = s.gal[g]) : setGal s g f = s := by
  have hv : vUpd s.gal g f = s.gal := by
    rw [vUpd, h]
    exact Vector.set_getElem_self _
  rw [setGal, hv]

theorem setBlock_of_fixed {s : State} {g : Fin 4} {b : Fin 12} {f : RayBlock → RayBlock} (h : f (blockOf s g b) = blockOf s g b) :
    setBlock s g b f = s := by
  refine setGal_of_fixed ?_
  have hv : vUpd s.gal[g].blocks b f = s.gal[g].blocks := by
    have hb : f s.gal[g].blocks[b] = s.gal[g].blocks[b] := h
    rw [vUpd, hb]
    exact Vector.set_getElem_self _
  rw [hv]

theorem gal_setBlock_self (s : State) (g : Fin 4) (b : Fin 12) (f : RayBlock → RayBlock) :
    (setBlock s g b f).gal[g] = { s.gal[g] with blocks := vUpd s.gal[g].blocks b f } := gal_setGal_self ..

/-! TILE_TAKE (R121, R123, R131). -/

/-- A new frame empties the caches; queue, launches and tiles stay. -/
theorem frameCaches_keeps (s : State) (g : Fin 4) (frame : Nat) (b : Fin 12) :
    ((frameCaches s g frame).gal[g]).tileQ = (s.gal[g]).tileQ ∧ (blockOf (frameCaches s g frame) g b).tiles = (blockOf s g b).tiles := by
  unfold frameCaches
  extract_lets x newer
  split
  · simp only [blockOf, gal_setGal_self]
    simp
  · exact ⟨rfl, rfl⟩

section
variable {s : State} {g : Fin 4} {b : Fin 12}

theorem tileTake_of_out (h : rayBlockIn s g b.val = false) : tileTake s g b = s := by simp [tileTake, h]

theorem tileTake_of_full (h : 8 ≤ (blockOf s g b).tiles.length) : tileTake s g b = s := by simp [tileTake, h]

/-- The block after it has taken a tile. -/
def tileTaken (s : State) (g : Fin 4) (b : Fin 12) (t : TileId) (l : Launch) (ids : List Nat) : State :=
  setBlock (setGal (frameCaches s g t.frame) g fun x => { x with tileQ := x.tileQ.erase t, back := x.back.erase t, lastBlock := b.val }) g b
    fun x => { x with launches := ids, tiles := x.tiles ++ [⟨t, l.id, 0, [], [], [], []⟩] }

theorem tileTake_eq {t : TileId} {l : Launch} {ids : List Nat} (hin : rayBlockIn s g b.val = true)
    (hbusy : ((blockOf s g b).tiles.filter fun t => decide (t.ended.length < 384)).length < 2) (hroom : (blockOf s g b).tiles.length < 8)
    (ht : (s.gal[g]).tileQ.find? (fun t => (launchFor s g t).isSome) = some t) (hl : launchFor s g t = some l)
    (hids : loadContext (blockOf s g b) l.id = some ids) : tileTake s g b = tileTaken s g b t l ids := by
  simp only [tileTake, hin, Nat.not_le.2 hbusy, Nat.not_le.2 hroom, ht, hl, hids, Bool.not_true, decide_false, Bool.or_self, Bool.false_eq_true, if_false]
  rfl

theorem tileTaken_shows (s : State) (g : Fin 4) (b : Fin 12) (t : TileId) (l : Launch) (ids : List Nat) :
    ((tileTaken s g b t l ids).gal[g]).tileQ = (s.gal[g]).tileQ.erase t ∧ (blockOf (tileTaken s g b t l ids) g b).launches = ids ∧
      (blockOf (tileTaken s g b t l ids) g b).tiles = (blockOf s g b).tiles ++ [⟨t, l.id, 0, [], [], [], []⟩] := by
  obtain ⟨hq, ht⟩ := frameCaches_keeps s g t.frame b
  refine ⟨?_, ?_, ?_⟩
  · rw [tileTaken, gal_setBlock_self, gal_setGal_self, hq]
  · rw [tileTaken, blockOf_setBlock_self]
  · rw [tileTaken, blockOf_setBlock_self, ← ht]
    exact congrArg (· ++ _) (congrArg RayBlock.tiles (blockOf_setGal (frameCaches s g t.frame) g g b _ fun _ => rfl))

end

/-! GROUP_DISPATCH (R60, R89, R124, R125). -/

theorem ctxs_layerLook (s : State) (g : Fin 4) (line : Nat) : (layerLook s g line).ctxs = s.ctxs := by
  unfold layerLook
  extract_lets x
  split
  · exact setGal_ctxs ..
  · rw [apply_ite State.ctxs, bump_ctxs, setGal_ctxs, ite_self]

theorem ctxs_touchLine (s : State) (g : Fin 4) (b : Fin 12) (line : Nat) : (touchLine s g b line).ctxs = s.ctxs := by
  unfold touchLine
  extract_lets x room t
  have ht : t.ctxs = s.ctxs := (bump_ctxs ..).trans (setBlock_ctxs ..)
  split
  · exact setBlock_ctxs ..
  · rw [apply_ite State.ctxs, apply_ite State.ctxs, ctxs_layerLook, ht, ite_self, ite_self]

theorem ctxs_residualReads (s : State) (g : Fin 4) (b : Fin 12) (m : MapRec) (t : TileId) (group : Nat) :
    (residualReads s g b m t group).ctxs = s.ctxs := by
  unfold residualReads
  split
  · rfl
  · refine List.foldlRecOn (motive := fun u : State => u.ctxs = s.ctxs) _ _ rfl fun u hu w _ => ?_
    extract_lets a v mark
    have hv : v.ctxs = s.ctxs := (ctxs_touchLine ..).trans hu
    rw [apply_ite State.ctxs, raise_ctxs, setGal_ctxs, hv, ite_self]

/-- A group starts with v registers 0, p0 all ones, the other predicates 0, and the launch's scalars (R89). -/
theorem startCtx_shows (s : State) (id : CtxId) (l : Launch) (t : TileId) (n : Nat) :
    (∀ r m, vRead (startCtx s id l t n false) r m = 0) ∧ (startCtx s id l t n false).p[(0 : Fin 8)] = 0xFF ∧
      (∀ k : Fin 8, k ≠ 0 → (startCtx s id l t n false).p[k] = 0) ∧
      ∀ k : Fin 16, (startCtx s id l t n false).sc[k] = l.record.scalars.getD k.val 0 := by
  refine ⟨fun r m => by simp [vRead, startCtx], by simp [startCtx], fun k hk => ?_, fun k => by simp [startCtx]⟩
  have hne : (0 : Nat) ≠ k.val := fun e => hk (Fin.ext e.symm)
  simp [startCtx, Vector.getElem_set_ne _ _ hne]

section
variable {s : State} {g : Fin 4} {b : Fin 12}

theorem groupDispatch_of_out (h : rayBlockIn s g b.val = false) : groupDispatch s g b = s := by simp [groupDispatch, h]

/-- A context is added for the group, started in a state that has the contexts of `s`. -/
theorem groupDispatch_eq {t t' : TileRun} {n : Nat} {l : Launch} {id : CtxId} (hin : rayBlockIn s g b.val = true)
    (ht : (blockOf s g b).tiles.find? (fun t => (nextOf t).isSome) = some t) (hn : nextOf t = some (n, t')) (hl : launchOf s g t.launch = some l)
    (hid : freeCell s g b (blockOf s g b).nextCell = some id) :
    ∃ u : State, u.ctxs = s.ctxs ∧ groupDispatch s g b = { u with ctxs := u.ctxs ++ [startCtx u id l t.tile n false] } := by
  simp only [groupDispatch, hin, ht, hn, hl, hid, Bool.not_true, Bool.false_eq_true, if_false]
  refine ⟨_, ?_, rfl⟩
  split
  · exact ctxs_residualReads ..
  · rfl

end

/-! A tile's words (R32, R126). -/

theorem sum_digits_lt (f : Nat → Nat) (n : Nat) : ((List.range n).map fun i => f i % 1024 * 2 ^ (10 * i)).sum < 2 ^ (10 * n) := by
  induction n with
  | zero => exact Nat.one_pos
  | succ n ih =>
    rw [List.range_succ, List.map_append, List.sum_append, List.map_singleton, List.sum_singleton, Nat.mul_succ, Nat.pow_add]
    have h : f n % 1024 < 1024 := Nat.mod_lt _ (by decide)
    have hm := Nat.mul_le_mul_right (2 ^ (10 * n)) (Nat.le_of_lt_succ h)
    omega

theorem positionTag_lt (t : TileId) (line w : Nat) : positionTag t line w < 2 ^ 16 := by
  unfold positionTag
  omega

theorem tag_tileWord (t : TileRun) (line w : Nat) : bitsOf (tileWord t line w).toNat 240 16 = positionTag t.tile line w := by
  have hs := sum_digits_lt (fun i => (smGet? t.out (192 * line + 24 * w + i)).getD 0) 24
  have hp := positionTag_lt t.tile line w
  rw [bitsOf, tileWord, BitVec.toNat_ofNat, sumNat, ← List.sum_eq_foldl]
  generalize List.sum (α := Nat) _ = d at hs ⊢
  omega

/-- A word's tag names the place that it is sent to. -/
theorem tagKey_tileWord (t : TileRun) {line w : Nat} (hl : line < 16) (hw : w < 8) (hc : t.tile.col < 240) :
    tagKey (tileWord t line w) = wordKey line t.tile.col w := by
  have h3 : bitsOf (positionTag t.tile line w) 3 4 = line := by
    unfold bitsOf positionTag
    omega
  have h7 : bitsOf (positionTag t.tile line w) 7 8 = t.tile.col := by
    unfold bitsOf positionTag
    omega
  have h0 : bitsOf (positionTag t.tile line w) 0 3 = w := by
    unfold bitsOf positionTag
    omega
  rw [tagKey, tag_tileWord, h3, h7, h0]

/-! The words of a stripe (R127). -/

section
variable {s : State} {k : Nat × Nat × Nat}

theorem stripeOf_setStripe (f : Stripe → Stripe) (hf : ∀ x, stripeKey (f x) = stripeKey x) :
    stripeOf (setStripe s k f) k = (stripeOf s k).map f := by
  have hkey (x : Stripe) : (stripeKey (if stripeKey x = k then f x else x) == k) = (stripeKey x == k) := by
    split <;> simp [hf]
  rw [stripeOf, setStripe, setStripes_stripes, List.find?_map]
  simp only [Function.comp_def, hkey]
  change ((stripeOf s k).map _) = _
  cases hs : stripeOf s k with
  | none => rfl
  | some x =>
    have hx : stripeKey x = k := by simpa using List.find?_some hs
    simp [hx]

/-- A word that reaches an open stripe in time stands at its tag's place. -/
theorem stripeOf_ringWord {st : Stripe} (h : stripeOf s k = some st) (hl : st.late = false) (v : BitVec 256) :
    stripeOf (ringWord s k v) k = some { st with words := smSet st.words (tagKey v) v } := by
  rw [ringWord, stripeOf_setStripe _ fun x => by split <;> rfl, h]
  simp [hl]

theorem stripeOf_foldl_ringWord {ι : Type} (v : ι → BitVec 256) (is : List ι) {st : Stripe} (h : stripeOf s k = some st) (hl : st.late = false) :
    stripeOf (is.foldl (fun s i => ringWord s k (v i)) s) k =
      some { st with words := is.foldl (fun o i => smSet o (tagKey (v i)) (v i)) st.words } := by
  induction is generalizing s st with
  | nil => exact h
  | cons i is ih => exact ih (stripeOf_ringWord h hl _) hl

theorem sendLine_eq (t : TileRun) (line : Nat) :
    sendLine s t line = ((List.range 8).map fun w => (line, w)).foldl (fun s e => ringWord s (tileStripe t.tile) (tileWord t e.1 e.2)) s := by
  rw [List.foldl_map]
  rfl

/-- The lines and words of a tile, in the order in which they are sent; irreducible, so that no proof computes the 128 places. -/
@[irreducible] def tilePlaces : List (Nat × Nat) := (List.range 16).flatMap fun line => (List.range 8).map fun w => (line, w)

theorem mem_tilePlaces (line w : Nat) : (line, w) ∈ tilePlaces ↔ line < 16 ∧ w < 8 := by simp [tilePlaces]

theorem foldl_sendLine (t : TileRun) : (List.range 16).foldl (fun s line => sendLine s t line) s =
    tilePlaces.foldl (fun s e => ringWord s (tileStripe t.tile) (tileWord t e.1 e.2)) s := by
  rw [tilePlaces, List.foldl_flatMap]
  simp only [sendLine_eq]

theorem tilePlace_inj (t : TileRun) (hc : t.tile.col < 240) : ∀ e ∈ tilePlaces, ∀ e' ∈ tilePlaces,
    tagKey (tileWord t e.1 e.2) = tagKey (tileWord t e'.1 e'.2) → e = e' := by
  rintro ⟨a, b⟩ h ⟨a', b'⟩ h' hk
  rw [mem_tilePlaces] at h h'
  rw [tagKey_tileWord t h.1 h.2 hc, tagKey_tileWord t h'.1 h'.2 hc] at hk
  unfold wordKey at hk
  exact Prod.ext (by omega) (by omega)

end

theorem smGet?_tileWords (t : TileRun) (hc : t.tile.col < 240) (m : List (Nat × BitVec 256)) {line w : Nat} (hl : line < 16) (hw : w < 8) :
    smGet? (tilePlaces.foldl (fun o e => smSet o (tagKey (tileWord t e.1 e.2)) (tileWord t e.1 e.2)) m) (tagKey (tileWord t line w)) =
      some (tileWord t line w) := by
  have h := tilePlace_inj t hc
  exact smGet?_foldl_smSet (k := fun e : Nat × Nat => tagKey (tileWord t e.1 e.2)) (i := (line, w)) (fun e => tileWord t e.1 e.2) h m
    ((mem_tilePlaces line w).2 ⟨hl, hw⟩)

/-! TILE_SEND (R126, R127, R129). -/

theorem stripeOf_of_raysOf {s t : State} (h : raysOf t = raysOf s) (k : Nat × Nat × Nat) : stripeOf t k = stripeOf s k :=
  congrArg (fun r => r.2.open_.find? fun x => stripeKey x == k) h

theorem blockOf_of_raysOf {s t : State} (h : raysOf t = raysOf s) (g : Fin 4) (b : Fin 12) : blockOf t g b = blockOf s g b :=
  congrArg (fun r => (r.1[g]).blocks[b]) h

theorem stripeOf_setBlock (s : State) (g : Fin 4) (b : Fin 12) (f : RayBlock → RayBlock) (k : Nat × Nat × Nat) :
    stripeOf (setBlock s g b f) k = stripeOf s k := rfl

theorem blockOf_setStripe (s : State) (k : Nat × Nat × Nat) (f : Stripe → Stripe) (g : Fin 4) (b : Fin 12) :
    blockOf (setStripe s k f) g b = blockOf s g b := rfl

/-- A complete stripe is marked; what Quartz does then is no matter of the ray engine. -/
theorem raysOf_stripeDone (s : State) (k : Nat × Nat × Nat) :
    raysOf (stripeDone s k) = raysOf (setStripe s k fun x => { x with complete := true }) := by
  unfold stripeDone
  extract_lets t
  split
  · rfl
  · split
    · rfl
    · rw [raysOf_frameRendered, raysOf_raise]

section
variable {s : State} {g : Fin 4} {b : Fin 12}

theorem tileSend_of_out (h : rayBlockIn s g b.val = false) : tileSend s g b = s := by simp [tileSend, h]

theorem tileSend_of_none (h : ∀ t ∈ (blockOf s g b).tiles, t.ended.length ≠ 384) : tileSend s g b = s := by
  have hn : (blockOf s g b).tiles.find? (sendable s) = none := List.find?_eq_none.2 fun t ht => by simp [sendable, h t ht]
  unfold tileSend
  rw [hn]
  split <;> rfl

/-- The block without the tile that it has sent. -/
def tileLeaves (s : State) (g : Fin 4) (b : Fin 12) (t : TileRun) : State :=
  setBlock (tilePlaces.foldl (fun s e => ringWord s (tileStripe t.tile) (tileWord t e.1 e.2)) s) g b fun x =>
    { x with tiles := x.tiles.filter fun y => !(y.tile == t.tile && y.launch == t.launch) }

/-- A tile whose ring lines are all free is sent whole, and its stripe may be complete with it. -/
theorem tileSend_whole {t : TileRun} (hin : rayBlockIn s g b.val = true) (ht : (blockOf s g b).tiles.find? (sendable s) = some t) (hsent : t.sent = [])
    (hfree : ∀ n, n < 16 → ringFree s (tileStripe t.tile) n = true) :
    tileSend s g b = tileLeaves s g b t ∨ tileSend s g b = stripeDone (tileLeaves s g b t) (tileStripe t.tile) := by
  have hlines : ((List.range 16).filter fun l => !([] : List Nat).contains l && ringFree s (tileStripe t.tile) l) = List.range 16 :=
    List.filter_eq_self.2 fun n hn => by simp [hfree n (List.mem_range.1 hn)]
  unfold tileSend
  simp only [hin, ht, hsent, hlines, foldl_sendLine, Bool.not_true, Bool.false_eq_true, if_false, List.nil_append, List.length_range, if_true]
  rw [← tileLeaves]
  split
  · exact .inl rfl
  · split
    · exact .inr rfl
    · exact .inl rfl

theorem stripeOf_tileLeaves (s : State) (g : Fin 4) (b : Fin 12) (t : TileRun) (k : Nat × Nat × Nat) : stripeOf (tileLeaves s g b t) k =
    stripeOf (tilePlaces.foldl (fun s e => ringWord s (tileStripe t.tile) (tileWord t e.1 e.2)) s) k := by
  rw [tileLeaves, stripeOf_setBlock]

theorem tileLeaves_shows (s : State) (g : Fin 4) (b : Fin 12) (t : TileRun) {st : Stripe} (hst : stripeOf s (tileStripe t.tile) = some st)
    (hl : st.late = false) (hc : t.tile.col < 240) :
    (∃ st', stripeOf (tileLeaves s g b t) (tileStripe t.tile) = some st' ∧
      ∀ n w, n < 16 → w < 8 → smGet? st'.words (wordKey n t.tile.col w) = some (tileWord t n w)) ∧
      ∀ t' ∈ (blockOf (tileLeaves s g b t) g b).tiles, ¬(t'.tile = t.tile ∧ t'.launch = t.launch) := by
  have hs := stripeOf_foldl_ringWord (fun e : Nat × Nat => tileWord t e.1 e.2) tilePlaces hst hl
  rw [← stripeOf_tileLeaves s g b t] at hs
  refine ⟨⟨_, hs, ?_⟩, ?_⟩
  · intro n w hn hw
    rw [← tagKey_tileWord t hn hw hc]
    exact smGet?_tileWords t hc st.words hn hw
  · rw [tileLeaves, blockOf_setBlock_self]
    intro t' ht'
    simpa [imp_iff_not_or] using (List.mem_filter.1 ht').2

theorem tileSend_shows {t : TileRun} {st : Stripe} (hin : rayBlockIn s g b.val = true) (ht : (blockOf s g b).tiles.find? (sendable s) = some t)
    (hsent : t.sent = []) (hc : t.tile.col < 240) (hst : stripeOf s (tileStripe t.tile) = some st) (hl : st.late = false)
    (hfree : ∀ n, n < 16 → ringFree s (tileStripe t.tile) n = true) :
    ∃ st', stripeOf (tileSend s g b) (tileStripe t.tile) = some st' ∧
      (∀ n w, n < 16 → w < 8 → smGet? st'.words (wordKey n t.tile.col w) = some (tileWord t n w)) ∧
      ∀ t' ∈ (blockOf (tileSend s g b) g b).tiles, ¬(t'.tile = t.tile ∧ t'.launch = t.launch) := by
  obtain ⟨⟨st', hst', hwords⟩, htiles⟩ := tileLeaves_shows s g b t hst hl hc
  rcases tileSend_whole hin ht hsent hfree with h | h <;> rw [h]
  · exact ⟨st', hst', hwords, htiles⟩
  · have hr := raysOf_stripeDone (tileLeaves s g b t) (tileStripe t.tile)
    refine ⟨{ st' with complete := true }, ?_, hwords, ?_⟩
    · rw [stripeOf_of_raysOf hr]
      exact (stripeOf_setStripe (fun x => { x with complete := true }) fun _ => rfl).trans (by rw [hst', Option.map_some])
    · rw [blockOf_of_raysOf hr, blockOf_setStripe]
      exact htiles

end

/-! CACHE_LINE_FILL (R111, R130, R132). -/

theorem lineReadBack_nil (s : State) (line : Nat) : lineReadBack s line [] = (0, false) := rfl

theorem fillEnds_of_not_missing {c : Cache} {line : Nat} (sets : Nat) (good : Bool) (h : line ∉ c.missing) : fillEnds c sets line good = c := by
  simp [fillEnds, h]

theorem countBack_zero (c : Cache) (sets line : Nat) : countBack c sets line (0, false) = c := by
  unfold countBack
  split <;> rfl

section
variable {s : State} {g : Fin 4}

theorem cacheLineFill_of_out (h : serves s (galRegion g) = false) (b : Option (Fin 12)) (line : Nat) (flips : List CodedWord) (status : Nat) :
    cacheLineFill s g b line flips status = s := by
  simp [cacheLineFill, h]

theorem cacheLineFill_layer_of_cached (hs : serves s (galRegion g) = true) {line : Nat} (h : line ∉ (s.gal[g]).cache.missing) (status : Nat) :
    cacheLineFill s g none line [] status = issueWaiting s g none := by
  simp only [cacheLineFill, hs, lineReadBack_nil, countBack_zero, Bool.not_true, Bool.false_eq_true, if_false]
  rw [if_neg (by simpa using h), setGal_of_fixed (by rw [fillEnds_of_not_missing _ _ h])]

theorem cacheLineFill_block_of_cached (hs : serves s (galRegion g) = true) {b : Fin 12} {line : Nat} (h : line ∉ (blockOf s g b).cache.missing)
    (status : Nat) : cacheLineFill s g (some b) line [] status = issueWaiting s g (some b) := by
  simp only [cacheLineFill, hs, lineReadBack_nil, countBack_zero, Bool.not_true, Bool.false_eq_true, if_false, Option.isNone_some, Bool.false_and]
  rw [setBlock_of_fixed (by rw [fillEnds_of_not_missing _ _ h])]

theorem issueWaiting_layer_of_nil (h : (s.gal[g]).cache.waiting = []) : issueWaiting s g none = s := by
  unfold issueWaiting
  rw [h]
  rfl

theorem issueWaiting_block_of_nil {b : Fin 12} (h : (blockOf s g b).cache.waiting = []) : issueWaiting s g (some b) = s := by
  simp [issueWaiting, h]

end

/-! A line that a set installs. -/

theorem cacheSet_setCacheSet (c : Cache) (i : Nat) (x : CacheSet) : cacheSet (setCacheSet c i x) i = x := by
  simp [cacheSet, setCacheSet, smGet?_smSet]

theorem wayOf_isSome_of_way {x : CacheSet} {line : Nat} {w : Fin 16} (h : x.ways[w] = some line) : (wayOf x line).isSome = true := by
  rw [wayOf, List.find?_isSome]
  exact ⟨w, List.mem_finRange w, by simp [h]⟩

theorem cacheInstall_shows {c : Cache} {sets line : Nat} (hw : wayOf (cacheSet c (line % sets)) line = none)
    (hf : fillWay (cacheSet c (line % sets)) ≠ none) :
    (cacheInstall c sets line).missing = c.missing ∧ (cacheInstall c sets line).waiting = c.waiting ∧
      (wayOf (cacheSet (cacheInstall c sets line) (line % sets)) line).isSome = true := by
  obtain ⟨w, hfill⟩ := Option.ne_none_iff_exists'.1 hf
  simp only [cacheInstall, hw, hfill, Option.isSome_none, Bool.false_eq_true, if_false]
  refine ⟨rfl, rfl, ?_⟩
  rw [cacheSet_setCacheSet]
  exact wayOf_isSome_of_way (w := w) (by simp)

/-- A fill that ends well: the line is no longer being fetched, and it is cached. -/
theorem fillEnds_shows {c : Cache} {sets line : Nat} (hm : line ∈ c.missing) (hw : wayOf (cacheSet c (line % sets)) line = none)
    (hf : fillWay (cacheSet c (line % sets)) ≠ none) :
    line ∉ (fillEnds c sets line true).missing ∧ (fillEnds c sets line true).waiting = c.waiting ∧
      (wayOf (cacheSet (fillEnds c sets line true) (line % sets)) line).isSome = true := by
  have he : fillEnds c sets line true = cacheInstall { c with missing := c.missing.filter (· != line) } sets line := by
    simp [fillEnds, hm]
  obtain ⟨h1, h2, h3⟩ := cacheInstall_shows (c := { c with missing := c.missing.filter (· != line) }) hw hf
  rw [he]
  exact ⟨by simp [h1], h2, h3⟩

/-! A line's read that ends without error (R24, R111, R268). -/

section
variable {s : State} {r line : Nat}

theorem poisonSeen_of_clean (src : Nat) {a n : Nat} (h : anyPoison s a n = false) : poisonSeen s src a n = s := by
  have hw : (s.poison.filter fun w => wordIn a n w) = [] := by
    rw [List.filter_eq_nil_iff]
    exact fun w hw => List.any_eq_false.1 h w hw
  simp [poisonSeen, hw]

/-- What was noted of the line's words is forgotten. -/
theorem failedRead_noteFailed (s : State) (r line status : Nat) : failedRead (noteFailed s r line [] status) r (256 * line) 256 = none := by
  simp only [failedRead, noteFailed, List.map_nil, List.append_nil, Option.map_eq_none_iff, List.find?_eq_none, List.mem_filter]
  rintro e ⟨-, he⟩ hf
  simp only [wordIn, Bool.and_eq_true, decide_eq_true_eq] at hf
  obtain ⟨hr, hl, hu⟩ := hf
  have hline : e.2.1 / 32 = line := by omega
  simp [hr, hline] at he

theorem lineArrives_clean (hp : anyPoison s (256 * line) 256 = false) : lineArrives s r line 0 = noteFailed s r line [] 0 := by
  rw [lineArrives, if_pos rfl]
  exact poisonSeen_of_clean (s := noteFailed s r line [] 0) r hp

theorem readStatus_noteFailed (hd : dramStatus s (256 * line) 256 = 0) (hp : anyPoison s (256 * line) 256 = false) :
    readStatus (noteFailed s r line [] 0) r (256 * line) 256 = 0 := by
  have hd' : dramStatus (noteFailed s r line [] 0) (256 * line) 256 = 0 := hd
  have hp' : anyPoison (noteFailed s r line [] 0) (256 * line) 256 = false := hp
  simp [readStatus, hd', hp', failedRead_noteFailed]

end

theorem cacheLineFill_layer_fills {s : State} {g : Fin 4} {line : Nat} (hs : serves s (galRegion g) = true) (hm : line ∈ (s.gal[g]).cache.missing)
    (hwait : (s.gal[g]).cache.waiting = []) (hd : dramStatus s (256 * line) 256 = 0) (hp : anyPoison s (256 * line) 256 = false)
    (hw : wayOf (cacheSet (s.gal[g]).cache (line % 2048)) line = none) (hf : fillWay (cacheSet (s.gal[g]).cache (line % 2048)) ≠ none) :
    line ∉ ((cacheLineFill s g none line [] 0).gal[g]).cache.missing ∧
      (wayOf (cacheSet ((cacheLineFill s g none line [] 0).gal[g]).cache (line % 2048)) line).isSome = true := by
  obtain ⟨h1, h2, h3⟩ := fillEnds_shows (sets := layerSets) hm hw hf
  have he : cacheLineFill s g none line [] 0 =
      issueWaiting (setGal (noteFailed s (galRegion g) line [] 0) g fun x => { x with cache := fillEnds x.cache layerSets line true }) g none := by
    have hc : ((none : Option (Fin 12)).isNone && (s.gal[g]).cache.missing.contains line) = true := by simpa using hm
    simp only [cacheLineFill, hs, hc, if_true, lineArrives_clean hp, readStatus_noteFailed hd hp, lineReadBack_nil, countBack_zero, Bool.not_true,
      Bool.false_eq_true, if_false, BEq.rfl, Bool.and_self]
  have hg := gal_setGal_self (noteFailed s (galRegion g) line [] 0) g fun x => { x with cache := fillEnds x.cache layerSets line true }
  rw [he, issueWaiting_layer_of_nil (by rw [hg]; exact h2.trans hwait), hg]
  exact ⟨h1, h3⟩

/-- Settles O27: each command is its operation; a tile that is sent leaves its words in the stripe, whatever Quartz does once the stripe is complete, and a
line whose read ends well is installed in its set. -/
theorem blocksTakeDispatchAndSend : Obligations.BlocksTakeDispatchAndSend := by
  intro s g b
  have take := exec_tileTake g b s
  have dispatch := exec_groupDispatch g b s
  have send := exec_tileSend g b s
  have fill (k line flips status) := exec_cacheLineFill g k line flips status s
  refine ⟨fun h => ⟨?outTake, ?outDispatch, ?outSend⟩, ?full, ?takes, ?dispatches, ?nothing, ?sends, ?fillOut, ?layerCached, ?blockCached,
    issueWaiting_layer_of_nil, issueWaiting_block_of_nil, ?fills⟩
  case outTake => exact take.trans (congrArg Host.Outcome.next (tileTake_of_out h))
  case outDispatch => exact dispatch.trans (congrArg Host.Outcome.next (groupDispatch_of_out h))
  case outSend => exact send.trans (congrArg Host.Outcome.next (tileSend_of_out h))
  case full => exact fun h => take.trans (congrArg Host.Outcome.next (tileTake_of_full h))
  case takes =>
    intro t l ids hin hbusy hroom ht hl hids
    exact ⟨_, take.trans (congrArg Host.Outcome.next (tileTake_eq hin hbusy hroom ht hl hids)), tileTaken_shows s g b t l ids⟩
  case dispatches =>
    intro t n t' l id hin ht hn hl hid
    obtain ⟨u, hu, he⟩ := groupDispatch_eq hin ht hn hl hid
    exact ⟨_, _, dispatch.trans (congrArg Host.Outcome.next he), by rw [hu], rfl, rfl, rfl, rfl, rfl, startCtx_shows u id l t.tile n⟩
  case nothing => exact fun h => send.trans (congrArg Host.Outcome.next (tileSend_of_none h))
  case sends =>
    intro t st hin ht hsent hc hst hl hfree
    obtain ⟨st', h⟩ := tileSend_shows hin ht hsent hc hst hl hfree
    exact ⟨_, st', send, h⟩
  case fillOut => exact fun k line flips status h => (fill ..).trans (congrArg Host.Outcome.next (cacheLineFill_of_out h ..))
  case layerCached => exact fun line status hs h => (fill ..).trans (congrArg Host.Outcome.next (cacheLineFill_layer_of_cached hs h _))
  case blockCached => exact fun line status hs h => (fill ..).trans (congrArg Host.Outcome.next (cacheLineFill_block_of_cached hs h _))
  case fills => exact fun line hs hm hwait hd hp hw hf => ⟨_, fill .., cacheLineFill_layer_fills hs hm hwait hd hp hw hf⟩

end Sys2Proof.Machine
end

section
/-! PROOFS. LAUNCH sends its record, a Galena region accepts one, and the statement on them. -/

namespace Sys2Proof.Machine

open Says

section
variable {s t : State} {f : FlintId} {g : Fin 4} {r : LaunchRec}

/-! An action that is issued (R407, R411). -/

/-- An issued action is numbered, and leaves the registers and all regions but the control regions as they were. -/
theorem actionIssue_shows (s : State) (f : FlintId) (addr : Nat) (data : List Byte) :
    ∃ c, actionIssue s f addr data = { s with ctrl := c } ∧ (flintOf (actionIssue s f addr data) f).action = (flintOf s f).action + 1 := by
  obtain ⟨m, e⟩ := mirrorSend_cases (setFlint s f fun x => { x with action := (flintOf s f).action + 1 }) f
    (.digest (BitVec.ofNat 64 ((flintOf s f).action + 1)) (actionDigest ((flintOf s f).action + 1) addr data))
  refine ⟨_, e, ?_⟩
  rw [actionIssue, flintOf_mirrorSend, flintOf_setFlint]

/-! Sending the record (R118, R157). -/

/-- The Galena regions in service. -/
def galenasUp (s : State) : List (Fin 4) := (List.finRange 4).filter fun g => serves s (galRegion g)

/-- The record joins a region's launch queue. -/
def joinQueue (r : LaunchRec) (g : Fin 4) (s : State) : State := setGal s g fun x => { x with queue := x.queue ++ [r] }

theorem launchSend_of_noneUp (h : galenasUp s = []) (r : LaunchRec) :
    launchSend s f r = mirrorSend (setFlint s f fpNext) f (.sent false) := if_pos (by rw [← galenasUp, h]; rfl)

theorem launchSend_of_full (h : ∃ g ∈ galenasUp s, 8 ≤ (s.gal[g]).queue.length) (r : LaunchRec) : launchSend s f r = waits s f (.launch r) := by
  obtain ⟨g, hg, hq⟩ := h
  have hup : ¬(galenasUp s).isEmpty = true := by rw [List.isEmpty_iff]; exact List.ne_nil_of_mem hg
  refine (if_neg hup).trans (if_neg fun hroom => ?_)
  exact absurd (of_decide_eq_true (List.all_eq_true.1 hroom g hg)) (Nat.not_lt.2 hq)

theorem launchSend_of_room (hup : galenasUp s ≠ []) (h : ∀ g ∈ galenasUp s, (s.gal[g]).queue.length < 8) (r : LaunchRec) : launchSend s f r =
    mirrorSend (setFlint ((galenasUp s).foldl (fun t g => regionAction t (galRegion g) (flintOf s f).action (joinQueue r g)) s) f fpNext) f
      (.sent true) :=
  (if_neg (by rwa [List.isEmpty_iff])).trans (if_pos (List.all_eq_true.2 fun g hg => decide_eq_true (h g hg)))

/-! LAUNCH (R147, R156, R157). -/

/-- What LAUNCH's digest is taken over: g[D][31:0], IMM and the launch block. -/
def launchData (s : State) (f : FlintId) (i : FrImm) : List Byte :=
  leBytes (gRead (flintOf s f) i.d.toNat).toNat 4 ++ leBytes i.imm.toNat 4 ++ dmemBytes (flintOf s f) (gRead (flintOf s f) i.a.toNat).toNat 96

/-- The state in which LAUNCH has become an action. -/
def launchIssued (s : State) (f : FlintId) (i : FrImm) : State := actionIssue s f 0 (launchData s f i)

/-- The record that LAUNCH sends. -/
def launchSent (s : State) (f : FlintId) (i : FrImm) : LaunchRec :=
  launchRecord s (flintOf s f) i (dmemBytes (flintOf s f) (gRead (flintOf s f) i.a.toNat).toNat 96)

variable {i : FrImm}

theorem fpLaunch_of_misplaced (h : ¬inDataMemory (gRead (flintOf s f) i.a.toNat) 8 96) : fpLaunch s f i = seqFault s f 1 :=
  if_pos (by simpa [← dmemOk_iff] using h)

theorem fpLaunch_of_placed (h : inDataMemory (gRead (flintOf s f) i.a.toNat) 8 96) (hf : fpFollows s f = false) (hl : (flintOf s f).lapsed = false) :
    fpLaunch s f i = if launchBlockOk (dmemBytes (flintOf s f) (gRead (flintOf s f) i.a.toNat).toNat 96) = false then seqFault s f 5
      else launchSend (launchIssued s f i) f (launchSent s f i) := by
  obtain ⟨c, e, _⟩ := actionIssue_shows s f 0 (launchData s f i)
  have hr : launchRecord (launchIssued s f i) (flintOf s f) i (dmemBytes (flintOf s f) (gRead (flintOf s f) i.a.toNat).toNat 96) = launchSent s f i := by
    rw [launchIssued, e]
    rfl
  rw [← hr]
  simp only [fpLaunch, dmemOk_iff.2 h, hf, hl, Bool.not_true, Bool.not_eq_true', Bool.false_eq_true, if_false]
  rfl

theorem launchIssued_shows (s : State) (f : FlintId) (i : FrImm) : galenasUp (launchIssued s f i) = galenasUp s ∧ (launchIssued s f i).gal = s.gal ∧
    (flintOf (launchIssued s f i) f).action = (flintOf s f).action + 1 := by
  obtain ⟨c, e, ha⟩ := actionIssue_shows s f 0 (launchData s f i)
  refine ⟨?_, ?_, ha⟩
  · rw [launchIssued, e]
    rfl
  · rw [launchIssued, e]

/-! A LAUNCH that waits (R118). -/

theorem launchSettle_of_waiting (h : (flintOf s f).wait = some (.launch r)) :
    launchSettle s f = if (flintOf s f).lapsed then s else launchSend s f r := by
  rw [launchSettle, h]

theorem launchSettle_of_other (h : ∀ r, (flintOf s f).wait ≠ some (.launch r)) : launchSettle s f = s := by
  unfold launchSettle
  split
  next r hw => exact absurd hw (h r)
  next => rfl

/-! LAUNCH_RECORD (R113, R119, R121, R137). -/

theorem gal_launchDropped (s : State) (g : Fin 4) (reason first phase n : Nat) : (launchDropped s g reason first phase n).gal = s.gal := by
  unfold launchDropped
  split
  · rfl
  · exact (raise_gal ..).trans (bump_gal ..)

theorem gal_calTake (s : State) (n : Nat) : (calTake s n).gal = s.gal := by
  unfold calTake
  split
  · rfl
  · rfl

theorem gal_calLaunched (s : State) (frame phase : Nat) : (calLaunched s frame phase).gal = s.gal := by
  unfold calLaunched
  extract_lets n t
  have ht : t.gal = s.gal := by
    unfold t
    split
    · exact gal_calTake ..
    · rfl
  split
  · exact (setCal_gal ..).trans ht
  · exact ht

theorem gal_poisonSeen (s : State) (src a n : Nat) : (poisonSeen s src a n).gal = s.gal := by
  obtain ⟨_, _, _, h, _⟩ := (onlyTold_poisonSeen s src a n).parts
  exact h

/-- The reads of a launch may meet poisoned words. -/
theorem gal_foldl_poisonSeen (s : State) (src : Nat) (ranges : List (Nat × Nat)) :
    (ranges.foldl (fun s e => poisonSeen s src e.1 e.2) s).gal = s.gal :=
  List.foldlRecOn (motive := fun t : State => t.gal = s.gal) _ _ rfl fun _ ht _ _ => (gal_poisonSeen ..).trans ht

/-- The record is off the queue, and its allowance is shown (R118, R137). -/
def recordTaken (s : State) (g : Fin 4) (r : LaunchRec) : State :=
  setF (setGal s g fun x => { x with queue := x.queue.erase r }) (galLaunchStatus (galRegion g)) 16 16 r.allowance.toNat

theorem recordTaken_gal (s : State) (g : Fin 4) (r : LaunchRec) : (recordTaken s g r).gal[g] = { s.gal[g] with queue := (s.gal[g]).queue.erase r } := by
  simp only [recordTaken, setF_gal, gal_setGal_self]

theorem launchRange_recordTaken (s : State) (g : Fin 4) (r : LaunchRec) : launchRange (recordTaken s g r) r = launchRange s r := by
  have hk : readReg (recordTaken s g r) obsPanelGeom = readReg s obsPanelGeom :=
    readReg_setF_ne _ _ _ _ (by simp only [obsPanelGeom, galLaunchStatus]; omega)
  have hn : panelN (recordTaken s g r) = panelN s := by rw [panelN, panelN, getF, getF, hk]
  have hs : panelStripes (recordTaken s g r) = panelStripes s := by rw [panelStripes, panelStripes, panelH, panelH, getF, getF, hk]
  rw [launchRange, hn, hs, launchRange]

/-- A stripe of a record that a launch covers. -/
def stripeCovered (s : State) (g : Fin 4) (r : LaunchRec) (n : Nat) : Bool := (s.gal[g]).launches.any fun l => covers l (r.frame.toNat, r.phase.toNat, n)

/-- The stripes of a record. -/
def recordStripes (r : LaunchRec) : List Nat := (List.range r.count.toNat).map (· + r.first.toNat)

/-- A record's stripes whose deadline is past. -/
def pastStripes (s : State) (r : LaunchRec) : List Nat := (recordStripes r).filter fun n => stripePast s (r.frame.toNat, r.phase.toNat, n)

/-- The stripes that a record loses: those that are past, then the others that a launch covers (R119). -/
def lostStripes (s : State) (g : Fin 4) (r : LaunchRec) : List Nat :=
  pastStripes s r ++ (recordStripes r).filter fun n => !(pastStripes s r).contains n && stripeCovered s g r n

theorem mem_recordStripes {k : Nat} : k ∈ recordStripes r ↔ r.first.toNat ≤ k ∧ k < r.first.toNat + r.count.toNat := by
  simp only [recordStripes, List.mem_map, List.mem_range]
  constructor
  · rintro ⟨n, hn, rfl⟩
    omega
  · rintro ⟨hl, hu⟩
    exact ⟨k - r.first.toNat, by omega, by omega⟩

theorem mem_pastStripes {k : Nat} : k ∈ pastStripes s r ↔ k ∈ recordStripes r ∧ stripePast s (r.frame.toNat, r.phase.toNat, k) = true := List.mem_filter

theorem mem_lostStripes {k : Nat} : k ∈ lostStripes s g r ↔
    k ∈ recordStripes r ∧ (stripePast s (r.frame.toNat, r.phase.toNat, k) = true ∨ stripeCovered s g r k = true) := by
  simp only [lostStripes, List.mem_append, List.mem_filter, mem_pastStripes, Bool.and_eq_true, Bool.not_eq_true', List.contains_eq_mem, decide_eq_false_iff_not]
  tauto

theorem stripePast_congr (h : t.stripes = s.stripes) : stripePast t = stripePast s := by
  funext k
  rw [stripePast, h, stripePast]

theorem lostStripes_recordTaken (s : State) (g : Fin 4) (r : LaunchRec) : lostStripes (recordTaken s g r) g r = lostStripes s g r := by
  have hp : stripePast (recordTaken s g r) = stripePast s := stripePast_congr ((setF_stripes ..).trans (setGal_stripes ..))
  simp only [lostStripes, pastStripes, stripeCovered, hp, recordTaken_gal]

/-- The region has told which stripes the record loses (R119, R138). -/
def lossTold (s : State) (g : Fin 4) (r : LaunchRec) : State :=
  let lost := lostStripes s g r
  let first := lost.foldl min (lost.headD 0)
  launchDropped s g (if (pastStripes s r).contains first then 3 else 2) first r.phase.toNat lost.length

/-- A kernel that the checks refuse is counted and told, with the reason and the failing instruction, and for reason 8 the status of the reads (R113). -/
def refusalTold (s : State) (g : Fin 4) (check : Nat × Nat) (status : Nat) : State :=
  if check.1 = 0 then s
  else raise (bump s (galKfaultRefused (galRegion g))) 2 (galRegion g) 0x210 0xFF 0xFF
    (check.1 + 256 * (if check.1 = 8 then status else 0) + 65536 * check.2)

/-- The region has read the launch's kernel, table and constants, and has told of a kernel that it refuses (R113, R121). -/
def kernelTold (s : State) (g : Fin 4) (r : LaunchRec) : State :=
  let k := readKernel s g r
  refusalTold ((kernelRanges s r).foldl (fun s e => poisonSeen s (galRegion g) e.1 e.2) s) g (kernelCheck r k) k.status

theorem gal_refusalTold (s : State) (g : Fin 4) (check : Nat × Nat) (status : Nat) : (refusalTold s g check status).gal = s.gal := by
  unfold refusalTold
  split
  · rfl
  · exact (raise_gal ..).trans (bump_gal ..)

theorem gal_kernelTold (s : State) (g : Fin 4) (r : LaunchRec) : (kernelTold s g r).gal = s.gal :=
  (gal_refusalTold ..).trans (gal_foldl_poisonSeen ..)

/-- The launch under number `id` that a record becomes, with the kernel, table and constants read. -/
def recordLaunch (r : LaunchRec) (k : KernelRead) (lost : List Nat) (id : Nat) : Launch where
  id := id
  record := r
  dropped := lost
  refused := (kernelCheck r k).1
  code := k.code
  entry := leAt k.head 0xC 4
  budget := leAt k.head 0x10 2
  fallbackV := leAt k.head 0x12 1
  consts := k.consts
  table := k.table

/-- A launch joins the region's launches under the next number. -/
def launchJoins (s : State) (g : Fin 4) (launch : Nat → Launch) : State :=
  setGal s g fun x => { x with nextLaunch := x.nextLaunch + 1, launches := x.launches ++ [launch x.nextLaunch] }

/-- A record in range, off the queue, has become a launch. -/
def recordJoined (s : State) (g : Fin 4) (r : LaunchRec) : State :=
  launchJoins (kernelTold (lossTold s g r) g r) g (recordLaunch r (readKernel (lossTold s g r) g r) (lostStripes s g r))

theorem acceptLaunch_of_out (h : serves s (galRegion g) = false) : acceptLaunch s g r = s := if_pos (by rw [h]; rfl)

theorem acceptLaunch_of_range (hs : serves s (galRegion g) = true) (hr : launchRange s r = true) :
    (acceptLaunch s g r).gal[g] = { s.gal[g] with queue := (s.gal[g]).queue.erase r } := by
  have he : acceptLaunch s g r = launchDropped (recordTaken s g r) g 1 r.first.toNat r.phase.toNat r.count.toNat :=
    (if_neg (by simp [hs])).trans (if_pos ((launchRange_recordTaken s g r).trans hr))
  rw [he, gal_launchDropped, recordTaken_gal]

/-- The stages of an acceptance, in the model's order. -/
theorem acceptLaunch_of_inRange (hs : serves s (galRegion g) = true) (hr : launchRange s r = false) : acceptLaunch s g r =
    if (lostStripes (recordTaken s g r) g r).length < (recordStripes r).length then
      calLaunched (recordJoined (recordTaken s g r) g r) r.frame.toNat r.phase.toNat
    else recordJoined (recordTaken s g r) g r := by
  have hr' : ¬launchRange (recordTaken s g r) r = true := by rw [launchRange_recordTaken, hr]; exact Bool.false_ne_true
  unfold acceptLaunch
  extract_lets taken v nums key past beyond lost first told k read
  have hv : v = recordTaken s g r := rfl
  rw [← hv] at hr' ⊢
  clear_value v
  rw [if_neg (by simp [hs]), if_neg hr']
  have htold : told = lossTold v g r := rfl
  have hlost : lost = lostStripes v g r := rfl
  have hk : k = readKernel told g r := rfl
  have hkernel : kernelTold told g r = refusalTold read g (kernelCheck r k) k.status := rfl
  clear_value told lost read k
  rw [recordJoined, ← htold, ← hlost, hkernel, ← hk]
  unfold recordLaunch
  generalize kernelCheck r k = check
  cases check
  rfl

/-- The region after it has taken a record in range. -/
theorem gal_acceptLaunch (hs : serves s (galRegion g) = true) (hr : launchRange s r = false) : ∃ k, (acceptLaunch s g r).gal[g] =
    { s.gal[g] with
      queue := (s.gal[g]).queue.erase r
      nextLaunch := (s.gal[g]).nextLaunch + 1
      launches := (s.gal[g]).launches ++ [recordLaunch r k (lostStripes s g r) (s.gal[g]).nextLaunch] } := by
  refine ⟨readKernel (lossTold (recordTaken s g r) g r) g r, ?_⟩
  have hu : (recordJoined (recordTaken s g r) g r).gal = (acceptLaunch s g r).gal := by
    rw [acceptLaunch_of_inRange hs hr, apply_ite State.gal, gal_calLaunched, ite_self]
  rw [← hu, recordJoined, launchJoins, gal_setGal_self, gal_kernelTold, lossTold, gal_launchDropped, recordTaken_gal, lostStripes_recordTaken]

end

/-- Settles O13: the block's place and fields decide between fault and record, the queues of the regions in service whether it is sent; and a region takes a
record off its queue, drops it for its range, or makes it a launch without the stripes it loses. -/
theorem launchSendsItsRecord : Obligations.LaunchSendsItsRecord := by
  refine ⟨fun s f i hready hw hl => ?_, fun s g r => ⟨fun h => ?_, fun h => ?_⟩, fun s f => ⟨launchSettle_of_other, fun r => launchSettle_of_waiting⟩⟩
  · have body : exec (.fpLaunch f i) s = .next (fpLaunch s f i) := fpExec_of_ready hw hready
    have placed := fpLaunch_of_placed (i := i) (hf := fpFollows_of_ready hready) (hl := hl)
    obtain ⟨hup, hgal, haction⟩ := launchIssued_shows s f i
    rw [body]
    refine ⟨fun h => congrArg _ (fpLaunch_of_misplaced h), fun h hb => congrArg _ ((placed h).trans (if_pos hb)), fun h hb => ?_⟩
    rw [placed h, if_neg (by rw [hb]; decide)]
    refine ⟨fun hnone => ?none, fun _ hfull => ?full, fun hsome hroom => ?room⟩
    case none => exact congrArg _ (launchSend_of_noneUp (hup.trans hnone) _)
    case full => exact congrArg _ (launchSend_of_full (by rwa [hup, hgal]) _)
    case room =>
      refine congrArg _ ((launchSend_of_room (by rwa [hup]) (by rwa [hup, hgal]) _).trans ?_)
      rw [hup, haction]
      rfl
  · exact congrArg (fun t => Host.Outcome.next (launchSettle (launchSettle t .a) .b)) (acceptLaunch_of_out h)
  · refine ⟨acceptLaunch s g r, rfl, ?_⟩
    cases hr : launchRange s r
    case true => simp [acceptLaunch_of_range h hr]
    case false =>
      obtain ⟨k, hk⟩ := gal_acceptLaunch h hr
      rw [hk]
      refine ⟨rfl, nofun, fun _ => ⟨_, rfl, rfl, rfl, rfl, fun n => ?_⟩⟩
      exact mem_lostStripes.trans (by rw [mem_recordStripes, and_assoc]; rfl)

end Sys2Proof.Machine
end

section
/-! PROOFS. The register files of both profiles, the frame program's instructions on its own registers, and the statements on them; a step. -/

namespace Sys2Proof.Machine

open Says

/-- Settles O57: the front command is run by the definition of a step, and a nanosecond keeps the empty queue. -/
theorem stepRunsTheFrontCommand : Obligations.StepRunsTheFrontCommand := by
  refine ⟨fun s c rest h => by rw [step, h], fun s h => ?_, fun _ _ _ => rfl⟩
  obtain ⟨hp, hn⟩ := (kept_queue _ _ _).1 (kept_tick ((kept_queue [] s.now s).2 ⟨h, rfl⟩))
  exact ⟨by rw [step, h], hn, hp⟩

/-! Registers of the sequencer (R139, R143). -/

section
variable (x : Flint) (v : DWord) (b : Bool) {i j : Nat}

theorem gWrite_of_ne (h : i % 32 ≠ 0) : gWrite x i v = { x with g := x.g.set (Fin.ofNat 32 i) v } := if_neg h

theorem gRead_of_ne (h : i % 32 ≠ 0) : gRead x i = x.g[Fin.ofNat 32 i] := if_neg h

theorem gRead_gWrite_self (h : i % 32 ≠ 0) : gRead (gWrite x i v) i = v := by
  rw [gWrite_of_ne x v h, gRead_of_ne _ h]
  exact Vector.getElem_set_self _

theorem gRead_gWrite_ne (h : i % 32 ≠ j % 32) : gRead (gWrite x i v) j = gRead x j := by
  by_cases hi : i % 32 = 0
  · rw [gWrite, if_pos hi]
  by_cases hj : j % 32 = 0
  · rw [gRead, gRead, if_pos hj, if_pos hj]
  rw [gWrite_of_ne x v hi, gRead_of_ne _ hj, gRead_of_ne _ hj]
  exact Vector.getElem_set_ne (Fin.isLt _) (Fin.isLt _) h

theorem bitAt_toNat {w : Nat} (p : BitVec w) (i : Nat) : bitAt p.toNat i = p.getLsbD i := by
  rw [bitAt, BitVec.getLsbD, Nat.testBit_eq_decide_div_mod_eq, Bool.beq_eq_decide_eq]

theorem fpPred_of_ne (h : i % 8 ≠ 0) : fpPred x i = x.p.getLsbD (i % 8) := by
  rw [fpPred, bitAt_toNat, beq_eq_false_iff_ne.2 h, Bool.false_or]

/-- A bit of the predicates after one of them is written. -/
theorem getLsbD_fpPredSet (h : i % 8 ≠ 0) (hj : j < 8) : (fpPredSet x i b).p.getLsbD j = if j = i % 8 then b else x.p.getLsbD j := by
  have hi : i % 8 < 8 := Nat.mod_lt _ (by decide)
  rw [fpPredSet, if_neg h]
  simp only [BitVec.getLsbD_or, BitVec.getLsbD_and, BitVec.getLsbD_not, BitVec.getLsbD_ofNat, Nat.testBit_two_pow, hj, decide_true, Bool.true_and]
  by_cases e : j = i % 8
  · subst e
    cases b <;> simp [b2n]
  · cases b <;> simp [b2n, e, Ne.symm e]

theorem fpPred_fpPredSet_self (h : i % 8 ≠ 0) : fpPred (fpPredSet x i b) i = b := by
  rw [fpPred_of_ne _ h, getLsbD_fpPredSet x b h (Nat.mod_lt _ (by decide)), if_pos rfl]

theorem fpPred_fpPredSet_ne (h : i % 8 ≠ j % 8) : fpPred (fpPredSet x i b) j = fpPred x j := by
  by_cases hi : i % 8 = 0
  · rw [fpPredSet, if_pos hi]
  by_cases hj : j % 8 = 0
  · simp [fpPred, hj]
  rw [fpPred_of_ne _ hj, fpPred_of_ne _ hj, getLsbD_fpPredSet x b hi (Nat.mod_lt _ (by decide)), if_neg (Ne.symm h)]

end

/-! Scalars and predicates of a ray context (R91, R97, R98, R100). -/

section
variable (x : RayCtx) (w : Word) (b : Byte) {d r : BitVec 6}

theorem sRead_sWrite_self (d : BitVec 6) : sRead (sWrite x d w) d = w := Vector.getElem_set_self _

theorem sRead_sWrite_ne (h : r.toNat % 16 ≠ d.toNat % 16) : sRead (sWrite x d w) r = sRead x r := Vector.getElem_set_ne (Fin.isLt _) (Fin.isLt _) h.symm

theorem pWrite_of_zero (h : d.toNat % 8 = 0) : pWrite x d b = x := if_pos h

theorem pRead_pWrite_self (h : d.toNat % 8 ≠ 0) : pRead (pWrite x d b) d = b := by
  rw [pWrite, if_neg h]
  exact Vector.getElem_set_self _

theorem pRead_pWrite_ne (h : r.toNat % 8 ≠ d.toNat % 8) : pRead (pWrite x d b) r = pRead x r := by
  unfold pWrite
  split
  · rfl
  · exact Vector.getElem_set_ne (Fin.isLt _) (Fin.isLt _) h.symm

theorem laneActive_of_p0 (h : x.p[(0 : Fin 8)] = 0xFF) {l : Nat} (hl : l < 8) : laneActive x false 0 l = true := by
  have e : x.p[(0 : BitVec 3).toFin] = 0xFF := h
  rw [laneActive, e]
  interval_cases l <;> rfl

end

/-- Settles O19: each file by its lemmas; with p0 all ones every lane is active. -/
theorem registerFilesKeepWhatIsWritten : Obligations.RegisterFilesKeepWhatIsWritten := by
  refine ⟨fun x v b i j hi hj => ⟨rfl, rfl, rfl, rfl, fun h => gRead_gWrite_self x v (by omega), fun h => gRead_gWrite_ne x v (by omega),
    fun _ h => fpPred_fpPredSet_self x b (by omega), fun _ _ h => fpPred_fpPredSet_ne x b (by omega)⟩,
    fun x d r pneg pidx f n w b => ⟨?_, vRead_vWrite_ne x pneg pidx f n, sRead_sWrite_self x w d, sRead_sWrite_ne x w, pRead_pWrite_self x b,
      pRead_pWrite_ne x b, pWrite_of_zero x b, by rw [laneActive, bne_iff_ne], fun h => ⟨?_, ?_⟩⟩⟩
  · exact vRead_vWrite_self x d pneg pidx f n
  · exact List.any_eq_true.2 ⟨0, by simp, laneActive_of_p0 x h (by decide)⟩
  · exact List.all_eq_true.2 fun l hl => laneActive_of_p0 x h (List.mem_range.1 hl)

/-! Instructions on the region's own registers (R145). -/

section
variable {s : State} {f : FlintId} {ok pneg : Bool} {pidx : BitVec 3}

/-- A well-formed instruction on the region's own state that may act changes that state alone, and PC moves on. -/
theorem fpLocal_of_ready {g : Flint → Flint} (hok : ok = true) (h : fpReady s f pneg pidx) :
    fpLocal ok f pneg pidx g s = .next (withFlint s f (fpNext (g (flintOf s f)))) := fpExec_of_ready hok h

theorem exec_fpNop_of_ready (f : FlintId) (h : fpReady s f false 0) : exec (.fpNop f) s = .next (withFlint s f (fpNext (flintOf s f))) :=
  fpLocal_of_ready (ok := true) rfl h

/-- The conditions of R146 are the model's, by the code's low three bits. -/
theorem conditionHolds_eq (c : BitVec 4) (a b : DWord) : conditionHolds c a b = fpCond c.toNat a b := by
  unfold conditionHolds fpCond
  rw [bitAt_toNat]
  have hk : c.toNat % 8 < 8 := Nat.mod_lt _ (by decide)
  generalize c.toNat % 8 = k at hk ⊢
  interval_cases k <;> rfl

end

/-- Settles O1: each instruction is one change of the region's own state. -/
theorem frameArithmeticWritesG : Obligations.FrameArithmeticWritesG := by
  refine fun s f => ⟨fun i hr => ?_, fun i hr => ?_, exec_fpNop_of_ready f⟩
  · exact ⟨fun hw => fpLocal_of_ready hw hr, fun hw => fpLocal_of_ready hw hr, fun hw => fpLocal_of_ready hw hr, fun hw => fpLocal_of_ready hw hr,
      fun hw => fpLocal_of_ready hw hr, fun hw => fpLocal_of_ready hw hr, fun hw => fpLocal_of_ready hw hr, fun hw => fpLocal_of_ready hw hr,
      fun hw => fpLocal_of_ready hw hr⟩
  · exact ⟨fun hw => fpLocal_of_ready hw hr, fun hw => fpLocal_of_ready hw hr, fun hw => fpLocal_of_ready hw hr, fun hw => fpLocal_of_ready hw hr,
      fun hw => fpLocal_of_ready hw hr, fun hw => fpLocal_of_ready hw hr, fun hw => fpLocal_of_ready hw hr, fun hw => fpLocal_of_ready hw hr⟩

/-- Settles O2: as O1, with the condition codes of R146 those of the model. -/
theorem frameComparesWriteP : Obligations.FrameComparesWriteP := by
  refine fun s f => ⟨fun i hr => ?_, fun i hr hw => ?_⟩
  · refine ⟨fun hw => ?_, fun hw => fpLocal_of_ready hw hr, fun hw => fpLocal_of_ready hw hr, fun hw => fpLocal_of_ready hw hr,
      fun hw => fpLocal_of_ready hw hr⟩
    rw [conditionHolds_eq, BitVec.toNat_ofNat]
    exact fpLocal_of_ready hw hr
  · have hc : (BitVec.ofNat 4 (i.x.toNat / 4)).toNat = i.x.toNat / 4 := by
      rw [BitVec.toNat_ofNat]
      exact Nat.mod_eq_of_lt (by omega)
    dsimp only
    rw [conditionHolds_eq, ← bitAt_toNat, hc]
    exact fpLocal_of_ready hw hr

end Sys2Proof.Machine
end

section
/-! PROOFS. The frame program's step, its data memory, its control flow, flags, times and waits, and the statements on them. -/

namespace Sys2Proof.Machine

open Says

section
variable {s : State} {f : FlintId} {ok pneg : Bool} {pidx : BitVec 3} {body : State → Out}

/-! One instruction (R139, R141, R145, R162). -/

theorem mirrorSkip_of_nil (h : (flintOf s f).mirror = []) : mirrorSkip s f = s := by rw [mirrorSkip, h]

theorem watchdogNext_of_nil (h : (flintOf s f).mirror = []) : watchdogNext s f = false := by rw [watchdogNext, h]

theorem mirror_of_done (h : mirrorDone s f = true) : (flintOf s f).mirror = [] := by
  rw [mirrorDone, Bool.and_eq_true, List.isEmpty_iff] at h
  exact h.1

/-- A region that may not run does nothing. -/
theorem fpStep_of_idle (hm : (flintOf s f).mirror = []) (h : fpMayRun s f = false) : fpStep f pneg pidx body s = .next s := by
  rw [fpStep, mirrorSkip_of_nil hm]
  exact if_pos (by rw [h]; rfl)

theorem fpMayRun_eq_false (h : flintUp s f = false ∨ (flintOf s f).st ≠ .running ∨ (flintOf s f).wait ≠ none ∨
    (holder s ≠ some f ∧ (flintOf s f).shadow ≠ .inShadow)) : fpMayRun s f = false := by
  rcases h with h | h | h | ⟨h1, h2⟩
  · simp [fpMayRun, h]
  · simp [fpMayRun, h]
  · simp [fpMayRun, h]
  · simp [fpMayRun, fpLeads, fpFollows, h1, h2]

/-- A region that leads and runs: past the code it halts, an instruction that is not active only moves PC on. -/
theorem fpStep_of_leads (h1 : flintUp s f = true) (h2 : (flintOf s f).st = .running) (h3 : (flintOf s f).wait = none) (h4 : holder s = some f)
    (h5 : mirrorDone s f = true) : fpStep f pneg pidx body s =
      if (flintOf s f).code.length ≤ (flintOf s f).pc then .next (seqHalted s f)
      else if fpPred (flintOf s f) pidx.toNat == pneg then .next (withFlint s f (fpNext (flintOf s f))) else body s := by
  have hm := mirror_of_done h5
  have hr : fpMayRun s f = true := by simp [fpMayRun, fpLeads, h1, h2, h3, h4, h5]
  rw [fpStep, mirrorSkip_of_nil hm]
  dsimp only
  rw [hr, watchdogNext_of_nil hm]
  rfl

theorem fpExec_of_ok (hok : ok = true) (g : State → State) (s : State) : fpExec ok f pneg pidx g s = fpStep f pneg pidx (fun s => .next (g s)) s :=
  if_neg (by rw [hok]; decide)

theorem exec_fpNop_eq (f : FlintId) (s : State) : exec (.fpNop f) s = fpStep f false 0 (fun s => .next (setFlint s f fpNext)) s := rfl

end

/-- Settles O6: the step decides before the instruction's body is reached. -/
theorem frameInactiveInstructions : Obligations.FrameInactiveInstructions := by
  intro s f i k hi hk
  refine ⟨fun hm h => ?_, fun h1 h2 h3 h4 h5 => ⟨fun h => ?_, fun h => ⟨fun hp => ?_, fun hp => ?_⟩⟩⟩
  · have idle := fpMayRun_eq_false h
    exact ⟨(exec_fpNop_eq f s).trans (fpStep_of_idle hm idle), (fpExec_of_ok hi _ s).trans (fpStep_of_idle hm idle), (fpExec_of_ok hk _ s).trans (fpStep_of_idle hm idle)⟩
  · have past {pneg : Bool} {pidx : BitVec 3} {body : State → Out} : fpStep f pneg pidx body s = .next (seqHalted s f) :=
      (fpStep_of_leads h1 h2 h3 h4 h5).trans (if_pos h)
    exact ⟨(exec_fpNop_eq f s).trans past, (fpExec_of_ok hi _ s).trans past, (fpExec_of_ok hk _ s).trans past⟩
  · exact (fpExec_of_ok hi _ s).trans ((fpStep_of_leads h1 h2 h3 h4 h5).trans ((if_neg (by omega)).trans (if_pos (by rw [hp, beq_self_eq_true]))))
  · exact (fpExec_of_ok hk _ s).trans ((fpStep_of_leads h1 h2 h3 h4 h5).trans ((if_neg (by omega)).trans (if_pos (by rw [hp, beq_self_eq_true]))))

section
variable {s : State} {f : FlintId} {pneg : Bool} {pidx : BitVec 3}

/-! Data memory (R140, R145, R147). -/

theorem length_leBytes (v n : Nat) : (leBytes v n).length = n := by
  induction n generalizing v with
  | zero => rfl
  | succ n ih => rw [leBytes, List.length_cons, ih]

theorem getElem_leBytes (v n k : Nat) (h : k < (leBytes v n).length) : (leBytes v n)[k] = BitVec.ofNat 8 (v / 256 ^ k) := by
  induction n generalizing v k with
  | zero => exact absurd h (Nat.not_lt_zero k)
  | succ n ih =>
    cases k with
    | zero => simp [leBytes]
    | succ k => simp only [leBytes, List.getElem_cons_succ, ih, Nat.div_div_eq_div_mul, Nat.pow_succ, Nat.mul_comm]

/-- A value's bytes put at an address stand there, and every other byte stays. -/
theorem smRead_putLe (m : List Host.Cell) (a v n k : Nat) : smRead (fun _ => 0) (memPutList m a (leBytes v n)) k =
    if a ≤ k ∧ k < a + n then BitVec.ofNat 8 (v / 256 ^ (k - a)) else smRead (fun _ => 0) m k := by
  rw [memPutList, smRead_smWriteList]
  by_cases h : a ≤ k ∧ k < a + n
  · rw [if_pos h, dif_pos ⟨h.1, by rw [length_leBytes]; omega⟩, getElem_leBytes]
  · rw [if_neg h, dif_neg (by rw [length_leBytes]; omega)]

variable {i : FrImm} {n : Nat}

theorem fpLoad_of_out (h : ¬inDataMemory (dmemAddr (flintOf s f) i) n n) : fpLoad s f n i = seqFault s f 1 :=
  if_pos (by simpa [← dmemOk_iff] using h)

theorem fpStore_of_out (h : ¬inDataMemory (dmemAddr (flintOf s f) i) n n) : fpStore s f n i = seqFault s f 1 :=
  if_pos (by simpa [← dmemOk_iff] using h)

theorem fpLoad_of_in (h : inDataMemory (dmemAddr (flintOf s f) i) n n) :
    fpLoad s f n i = wroteG s f i.d (BitVec.ofNat 64 (dmemLe (flintOf s f) (dmemAddr (flintOf s f) i).toNat n)) :=
  if_neg (by simpa using dmemOk_iff.2 h)

theorem fpStore_of_in (h : inDataMemory (dmemAddr (flintOf s f) i) n n) : fpStore s f n i = withFlint s f (fpNext { flintOf s f with
    dmem := memPutList (flintOf s f).dmem (dmemAddr (flintOf s f) i).toNat (leBytes (gRead (flintOf s f) i.d.toNat).toNat n) }) :=
  if_neg (by simpa using dmemOk_iff.2 h)

end

/-- Settles O4: the address decides between fault and move, and a store's bytes are what a write of the sparse map leaves. -/
theorem frameDataMemory : Obligations.FrameDataMemory := by
  intro s f i hr
  have stored (n : Nat) (h : inDataMemory (dmemAddr (flintOf s f) i) n n) : ∃ m, fpStore s f n i = withFlint s f (fpNext { flintOf s f with dmem := m }) ∧
      (∀ k, k < n → smRead (fun _ => 0) m ((dmemAddr (flintOf s f) i).toNat + k) = BitVec.ofNat 8 ((gRead (flintOf s f) i.d.toNat).toNat / 256 ^ k)) ∧
      ∀ k, k < (dmemAddr (flintOf s f) i).toNat ∨ (dmemAddr (flintOf s f) i).toNat + n ≤ k →
        smRead (fun _ => 0) m k = smRead (fun _ => 0) (flintOf s f).dmem k := by
    refine ⟨_, fpStore_of_in h, fun k hk => ?_, fun k hk => ?_⟩
    · rw [smRead_putLe, if_pos (by omega), Nat.add_sub_cancel_left]
    · rw [smRead_putLe, if_neg (by omega)]
  refine ⟨fun hw h => ?_, fun hw h => ?_, fun hw h => ?_, fun hw h => ?_, fun h => ⟨fun hw => ?_, fun hw => ?_⟩, fun h => ⟨fun hw => ?_, fun hw => ?_⟩⟩
  · exact (fpExec_of_ready hw hr).trans (congrArg _ (fpLoad_of_in h))
  · exact (fpExec_of_ready hw hr).trans (congrArg _ (fpLoad_of_in h))
  · exact ⟨_, fpExec_of_ready hw hr, stored 8 h⟩
  · exact ⟨_, fpExec_of_ready hw hr, stored 4 h⟩
  · exact (fpExec_of_ready hw hr).trans (congrArg _ (fpLoad_of_out h))
  · exact (fpExec_of_ready hw hr).trans (congrArg _ (fpStore_of_out h))
  · exact (fpExec_of_ready hw hr).trans (congrArg _ (fpLoad_of_out h))
  · exact (fpExec_of_ready hw hr).trans (congrArg _ (fpStore_of_out h))

section
variable {s : State} {f : FlintId} {ok pneg : Bool} {pidx : BitVec 3}

/-! Control flow (R145, R168). -/

/-- A branch that may act goes to its target, where that lies in the code. -/
theorem fpBranch_of_ready {offset : Word} {go : Nat → State → State} {t : Nat} (hok : ok = true) (hr : fpReady s f pneg pidx)
    (ht : ((flintOf s f).pc : Int) + offset.toInt = t) (hlt : t < (flintOf s f).code.length) :
    fpBranch ok f pneg pidx offset go s = .next (go t s) := by
  obtain ⟨h1, h2, h3, h4, h5, _, h6, h7⟩ := hr
  have target : fpTarget (flintOf s f) offset = some t := by
    rw [fpTarget, ht]
    exact if_pos ⟨by omega, by omega⟩
  rw [fpBranch, hok]
  refine (if_neg (by decide)).trans ((fpStep_active h1 h2 h3 h4 h5 h6 h7).trans ?_)
  rw [target]

end

/-- Settles O5: a branch acts at its target; the stack's length decides about CALL and RET, and g[A] after its write about LOOP. -/
theorem frameControlFlow : Obligations.FrameControlFlow := by
  refine fun s f => ⟨fun i t hr ht hlt => ⟨fun hw => ?_, fun hw => ?_, fun hw => ?_⟩, fun i hr hw => ⟨fun t r h => ?_, fun h => ?_⟩, fun hr => ?_⟩
  · exact fpBranch_of_ready hw hr ht hlt
  · refine (fpBranch_of_ready hw hr ht hlt).trans (congrArg _ ?_)
    by_cases h : (flintOf s f).stack.length < 16
    · rw [if_neg (Nat.not_le.2 h), if_pos h]
      rfl
    · rw [if_pos (Nat.not_lt.1 h), if_neg h]
  · refine (fpBranch_of_ready hw hr ht hlt).trans (congrArg _ ?_)
    simp only [flintOf_setFlint, fpGo, setFlint_setFlint]
    split
    · rfl
    · rfl
  · refine (fpExec_of_ready hw hr).trans (congrArg _ ?_)
    rw [h]
    rfl
  · refine (fpExec_of_ready hw hr).trans (congrArg _ ?_)
    rw [h]
  · exact fpExec_of_ready (ok := true) (body := fun s => seqHalted s f) rfl hr

section
variable {s : State} {f : FlintId} {i : FrReg}

/-! Flags and times (R150, R153 to R155, R162). -/

theorem fpObtain_of_leads (h : fpFollows s f = false) (live : State → DWord) (use : Flint → DWord → Flint) :
    fpObtain f live use s = mirrorSend (withFlint s f (fpNext (use (flintOf s f) (live s)))) f (.value (live s)) := if_neg (by rw [h]; decide)

end

/-- Settles O7: a change of the region's own state, a fault, or a value obtained and mirrored. -/
theorem frameFlagsAndTime : Obligations.FrameFlagsAndTime := by
  intro s f i hr
  have obtain_ := fpObtain_of_leads (fpFollows_of_ready hr)
  refine ⟨fun hw => fpLocal_of_ready hw hr, fun hw => ?_, fun hw => ?_, fun hw => ?_, fun hw => ?_, fun hw => fpLocal_of_ready hw hr⟩
  · refine (fpExec_of_ready hw hr).trans (congrArg _ ?_)
    exact ite_not ..
  · exact (fpExec_of_ready hw hr).trans (congrArg _ (obtain_ _ _))
  · exact (fpExec_of_ready hw hr).trans (congrArg _ (obtain_ _ _))
  · exact (fpExec_of_ready hw hr).trans (congrArg _ (obtain_ _ _))

section
variable {s : State} {f : FlintId} {w : FpWait}

/-! Waits (R151, R154, R155). -/

theorem flintOf_waits (s : State) (f : FlintId) (w : FpWait) : flintOf (waits s f w) f = { flintOf s f with wait := some w } :=
  flintOf_setFlint s f fun x => { x with wait := some w }

/-- The instruction that waits ends: what it does to the region shows in the state before the wait. -/
theorem setFlint_waits (s : State) (f : FlintId) (w : FpWait) (g : Flint → Flint) :
    setFlint (waits s f w) f g = withFlint s f (g { flintOf s f with wait := some w }) :=
  setFlint_setFlint s f (fun x => { x with wait := some w }) g

/-- A wait for a moment ends: PC moves on and the standby is told. -/
def waitOver (s : State) (f : FlintId) : State := mirrorSend (withFlint s f (fpNext (flintOf s f))) f (.waitEnd 0 false)

theorem waitOver_waits (s : State) (f : FlintId) (w : FpWait) : waitOver (waits s f w) f = waitOver s f := by
  rw [waitOver, ← setFlint_eq_withFlint, setFlint_waits]
  rfl

theorem settleTime_of_time {t : Nat} (h : (flintOf s f).wait = some (.time t)) :
    settleTime s f = if t ≤ timeNs s.time then waitOver s f else s := by
  rw [settleTime, h]
  rfl

theorem settleScan_of_scan {t : DWord} (hs : (flintOf s f).shadow ≠ .inShadow) (h : (flintOf s f).wait = some (.scan t)) :
    settleScan s f = if scanReached s t = true then waitOver s f else s := by
  unfold settleScan
  simp only [beq_eq_false_iff_ne.2 hs, h, Bool.false_eq_true, if_false, waitOver, setFlint_eq_withFlint]

theorem settleEvents_of_events {mask : DWord} {all clear : Bool} {d c : Nat} {limit : Option Nat} (hs : (flintOf s f).shadow ≠ .inShadow)
    (h : (flintOf s f).wait = some (.events mask all clear d c limit)) : settleEvents s f =
      if waitMet (flintOf s f).e mask all = true then
        mirrorSend (setFlint s f fun x => waitEnds x ((flintOf s f).e &&& mask) clear d c false) f (.waitEnd ((flintOf s f).e &&& mask) false)
      else s := by
  unfold settleEvents
  simp only [beq_eq_false_iff_ne.2 hs, h]
  rfl

/-- The registers and flags that a WAITE leaves rest on nothing that the region waits for. -/
theorem waitEnds_wait (x : Flint) (w : Option FpWait) (flags : DWord) (clear : Bool) (d c : Nat) (out : Bool) :
    waitEnds { x with wait := w } flags clear d c out = waitEnds x flags clear d c out := by
  unfold waitEnds gWrite
  by_cases hd : d % 32 = 0 <;> by_cases hc : c % 8 = 0 <;> cases clear <;> simp [fpPredSet, fpNext, hd, hc]

end

/-- Settles O8: the instruction waits, and what settles its wait ends it at once where the condition holds. -/
theorem frameWaits : Obligations.FrameWaits := by
  intro s f i hr
  have hf := fpFollows_of_ready hr
  obtain ⟨_, _, _, _, _, hs, _⟩ := id hr
  have hsw (w : FpWait) : (flintOf (waits s f w) f).shadow ≠ .inShadow := by rwa [flintOf_waits]
  refine ⟨fun hw => ?_, fun hw => ⟨fun hb => ?_, fun hb => ?_⟩, fun hw => ?_⟩
  · refine (fpExec_of_ready hw hr).trans (congrArg _ ?_)
    refine (if_neg (by rw [hf]; decide)).trans ((settleEvents_of_events (hsw _) (by rw [flintOf_waits])).trans ?_)
    rw [flintOf_waits, setFlint_waits, waitEnds_wait]
    rfl
  · refine (fpExec_of_ready hw hr).trans (congrArg _ ((if_neg (by rw [hf]; decide)).trans ((if_pos hb).trans ?_)))
    exact if_congr (BitVec.toNat_eq (y := 0)).symm rfl rfl
  · refine (fpExec_of_ready hw hr).trans (congrArg _ ((if_neg (by rw [hf]; decide)).trans ((if_neg (by rw [hb]; decide)).trans ?_)))
    refine (settleTime_of_time (by rw [fpWaits_eq_waits, flintOf_waits])).trans ?_
    rw [fpWaits_eq_waits, waitOver_waits]
    rfl
  · refine (fpExec_of_ready hw hr).trans (congrArg _ ?_)
    refine if_congr Iff.rfl rfl ((if_neg (by rw [hf]; decide)).trans ?_)
    dsimp only
    rw [fpWaits_eq_waits, settleScan_of_scan (hsw _) (by rw [flintOf_waits]), waitOver_waits, ite_and]
    rfl

end Sys2Proof.Machine
end

section
/-! PROOFS. What ends the frame program's waits, FENCE and the acknowledgements, commands and semaphores, and the statements on them. -/

namespace Sys2Proof.Machine

open Says

section
variable {s : State} {f : FlintId}

/-! Waits end with time (R150, R151, R153, R154, R168). -/

theorem settleEvents_of_other (h : ∀ mask all clear d c limit, (flintOf s f).wait ≠ some (.events mask all clear d c limit)) : settleEvents s f = s := by
  unfold settleEvents
  dsimp only
  split
  · rfl
  · split
    next mask all clear d c limit hw => exact absurd hw (h mask all clear d c limit)
    next => rfl

theorem timeReached_of_time {t : Nat} (h : (flintOf s f).wait = some (.time t)) : timeReached s f = if t ≤ timeNs s.time then waitOver s f else s := by
  rw [timeReached, h]
  exact settleTime_of_time h

theorem timeReached_of_delay {t : Nat} (h : (flintOf s f).wait = some (.delay t)) : timeReached s f = if t ≤ s.now then waitOver s f else s := by
  rw [timeReached, h]
  rfl

/-- A running timer of a region that waits for no event flag stops and sets its flag. -/
theorem timerEnds_of_running {t : Fin 4} (hup : flintUp s f = true) (ht : (flintOf s f).timers[t] ≠ 0)
    (h : ∀ mask all clear d c limit, (flintOf s f).wait ≠ some (.events mask all clear d c limit)) : timerEnds s f t =
      withFlint s f { flintOf s f with
        timers := (flintOf s f).timers.set t 0, e := (flintOf s f).e ||| BitVec.ofNat 64 (2 ^ (4 + t.val)) } := by
  rw [timerEnds, hup, if_neg (by simpa using ht), setFlagOf, setFlint_setFlint, settleEvents_of_other (by rwa [flintOf_setFlint])]
  rfl

theorem wdogExpires_of_running (hup : flintUp s f = true) (hst : (flintOf s f).st = .running) (hsh : (flintOf s f).shadow ≠ .inShadow) :
    wdogExpires s f = if wdogOver s f = true then seqFault (mirrorSend s f .watchdog) f 7 else s := by
  simp only [wdogExpires, hup, hst, beq_eq_false_iff_ne.2 hsh, bne_self_eq_false, Bool.not_true, Bool.false_or, Bool.not_eq_true', ite_eq_iff']
  cases wdogOver s f <;> simp

theorem wdogOver_iff : wdogOver s f = true ↔ getF s (flaWdog (flintRegion f)) 0 8 ≠ 0 ∧
    (flintOf s f).wdogAt + 1000000 * getF s (flaWdog (flintRegion f)) 0 8 ≤ s.now := by
  simp [wdogOver]

end

/-- Settles O9: each happening looks at the wait, the timer or the watchdog that it is about. -/
theorem frameWaitsEnd : Obligations.FrameWaitsEnd := by
  refine fun s f => ⟨fun mask all clear d c limit h => ?_, fun t h => congrArg _ (timeReached_of_time h), fun t h => congrArg _ (timeReached_of_delay h),
    fun t h1 h2 h3 => congrArg _ (timerEnds_of_running h1 h2 h3), fun h1 h2 h3 => ?_⟩
  · show Host.Outcome.next (waitTimesOut s f) = _
    rw [waitTimesOut, h]
    rfl
  · exact congrArg Host.Outcome.next ((wdogExpires_of_running h1 h2 h3).trans (if_congr wdogOver_iff rfl rfl))

section
variable {s t : State} {f : FlintId}

/-! Acknowledgements (R24, R148, R149, R163). -/

theorem dropAt_eq {α : Type} (l : List α) (n : Nat) : dropAt l n = l.eraseIdx n := by
  induction l generalizing n with
  | nil => rfl
  | cons x l ih =>
    cases n with
    | zero => rfl
    | succ n => exact congrArg (x :: ·) (ih n)

/-- An acknowledgement is handed to the one who waits for it. -/
def ackHanded (s : State) (a : OutAck) : State :=
  match a.who with
  | .host h addr => hostAck s h addr a.status
  | .frame f addr => writesSettle (if a.status = 0 then s else accessError s f a.status addr) f
  | .layer p id stamp => layerAck s p id stamp a.status
  | .other _ => s

theorem ackArrives_of_none {n : Nat} (h : s.acks.length ≤ n) : ackArrives s n = s := by
  rw [ackArrives, List.getElem?_eq_none h]

theorem ackArrives_of_some {n : Nat} {a : OutAck} (h : s.acks[n]? = some a) : ackArrives s n = ackHanded { s with acks := s.acks.eraseIdx n } a := by
  rw [ackArrives, h, ← dropAt_eq]
  rfl

theorem ackHanded_frame {a : OutAck} {addr : Nat} (h : a.who = .frame f addr) :
    ackHanded s a = writesSettle (if a.status = 0 then s else accessError s f a.status addr) f := by
  rw [ackHanded, h]

theorem writesSettle_of_fence (h : (flintOf s f).wait = some .fence) :
    writesSettle s f = if fpWrites s f = 0 then withFlint s f (fpNext (flintOf s f)) else s := by
  rw [writesSettle, h]
  rfl

theorem writesSettle_of_ckpt {tag : Word} (h : (flintOf s f).wait = some (.ckpt tag false)) :
    writesSettle s f = if fpWrites s f = 0 then waits s f (.ckpt tag true) else s := by
  rw [writesSettle, h]
  rfl

theorem writesSettle_of_write {ws : List (Nat × Word)} (h : (flintOf s f).wait = some (.write ws)) :
    writesSettle s f = if (flintOf s f).lapsed then s else writesIssue f ws s := by
  rw [writesSettle, h]

theorem writesSettle_of_none (h : (flintOf s f).wait = none) : writesSettle s f = s := by
  rw [writesSettle, h]

end

/-- Settles O12: an acknowledgement is taken off the list and handed to the one who waits; the wait of the region decides what goes on. -/
theorem fenceAndAcknowledgements : Obligations.FenceAndAcknowledgements := by
  refine fun s f => ⟨fun hr => ?_, fun n h => congrArg _ (ackArrives_of_none h), fun n a h => ?_⟩
  · exact fpExec_of_ready (ok := true) (body := fun s => if fpWrites s f = 0 then setFlint s f fpNext else fpWaits s f .fence) rfl hr
  have taken : exec (.writeAck n) s = .next (ackHanded { s with acks := s.acks.eraseIdx n } a) := congrArg _ (ackArrives_of_some h)
  dsimp only
  rw [taken]
  generalize ht : ({ s with acks := s.acks.eraseIdx n } : State) = t
  have hx : flintOf t f = flintOf s f := by rw [← ht]; rfl
  refine ⟨fun r h => by rw [ackHanded, h], fun p addr h => by rw [ackHanded, h], fun p l k h => by rw [ackHanded, h], fun addr h => ?_⟩
  rw [ackHanded_frame h]
  have hu : flintOf (if a.status = 0 then t else accessError t f a.status addr) f = flintOf s f := by split <;> exact hx
  have hk : fpWrites (if a.status = 0 then t else accessError t f a.status addr) f = fpWrites t f := by split <;> rfl
  generalize (if a.status = 0 then t else accessError t f a.status addr) = u at hu hk
  rw [← hk, ← hu]
  exact ⟨fun h => congrArg _ (writesSettle_of_fence h), fun tag h => congrArg _ (writesSettle_of_ckpt h),
    fun ws h => congrArg _ (writesSettle_of_write h), fun h => congrArg _ (writesSettle_of_none h)⟩

section
variable {s : State} {f : FlintId}

/-! Commands that are actions (R158 to R160, R234, R407, R408, R488). -/

theorem fpAction_of_leads (hf : fpFollows s f = false) (hl : (flintOf s f).lapsed = false) (addr : Nat) (data : List Byte) (carry : Nat → State → State) :
    fpAction s f addr data carry = setFlint (carry ((flintOf s f).action + 1) (actionIssue s f addr data)) f fpNext := by
  obtain ⟨_, _, ha⟩ := actionIssue_shows s f addr data
  simp only [fpAction, hf, hl, Bool.false_eq_true, if_false, ha]

/-- An action that is issued changes the region's count and what is on its way to the standby. -/
theorem actionIssue_eq (s : State) (f : FlintId) (addr : Nat) (data : List Byte) : ∃ m, actionIssue s f addr data =
    setLease (withFlint s f { flintOf s f with action := (flintOf s f).action + 1 }) fun l => { l with mirror := m } :=
  mirrorSend_cases (setFlint s f fun x => { x with action := (flintOf s f).action + 1 }) f _

theorem flintOf_withFlint (s : State) (f : FlintId) (x : Flint) : flintOf (withFlint s f x) f = x := flintOf_setFlint s f fun _ => x

/-- Jobs that wait in the queue of the engine that a submission names. -/
def jobsQueued (s : State) (e : Nat) : Nat := (s.borax.jobs[jobEngine s e]).length

/-- It leaves the actions taken, the regions in service, the time, the semaphores and Borax's queues. -/
theorem actionIssue_frame (s : State) (f : FlintId) (addr : Nat) (data : List Byte) :
    flintOf (actionIssue s f addr data) f = { flintOf s f with action := (flintOf s f).action + 1 } ∧
    (∀ r, lastAction (actionIssue s f addr data) r = lastAction s r) ∧ (∀ r, serves (actionIssue s f addr data) r = serves s r) ∧
    (actionIssue s f addr data).now = s.now ∧ (∀ n, semOf (actionIssue s f addr data) n = semOf s n) ∧
    (∀ e, jobEngine (actionIssue s f addr data) e = jobEngine s e) ∧
    (∀ e, jobsQueued (actionIssue s f addr data) e = jobsQueued s e) := by
  obtain ⟨m, e⟩ := actionIssue_eq s f addr data
  rw [e]
  exact ⟨flintOf_withFlint .., fun _ => rfl, fun _ => rfl, rfl, fun _ => rfl, fun _ => rfl, fun _ => rfl⟩

/-! BRXJ and DMA (R147, R159, R160, R234). -/

theorem brxjSend_of_down (h : serves s 12 = false) (addr e : Nat) : brxjSend s f addr e = setFlint s f fpNext := if_pos (by rw [h]; rfl)

theorem brxjSend_of_full {addr e : Nat} (h : serves s 12 = true) (hq : 8 ≤ jobsQueued s e) :
    brxjSend s f addr e = waits s f (.brxj addr e) := (if_neg (by rw [h]; decide)).trans (if_pos hq)

theorem brxjSend_of_room {addr e : Nat} (h : serves s 12 = true) (hq : jobsQueued s e < 8) :
    brxjSend s f addr e =
      setFlint (regionAction s 12 (flintOf s f).action fun t => queueJob t (jobEngine s e) ⟨addr, true, t.now⟩) f fpNext :=
  (if_neg (by rw [h]; decide)).trans (if_neg (Nat.not_le.2 hq))

theorem fpBrxj_of_leads {i : FrImm} (hf : fpFollows s f = false) (hl : (flintOf s f).lapsed = false) : fpBrxj s f i =
    brxjSend (actionIssue s f ((gRead (flintOf s f) i.a.toNat).toNat % 2 ^ 40) (leBytes i.imm.toNat 4)) f
      ((gRead (flintOf s f) i.a.toNat).toNat % 2 ^ 40) (i.imm.toNat % 8) := by
  simp only [fpBrxj, hf, hl, Bool.false_eq_true, if_false]

theorem dmaStart_of_busy {ch : Fin 4} {a : Nat} (h : (flintOf s f).dma[ch] ≠ none) : dmaStart s f ch a = waits s f (.dma ch.val a) :=
  if_pos (Option.isSome_iff_ne_none.2 h)

theorem dmaStart_of_free {ch : Fin 4} {a : Nat} (h : (flintOf s f).dma[ch] = none) (ha : dmaAddrOk (dmaDesc (dmemBytes (flintOf s f) a 32)) = true) :
    dmaStart s f ch a = setFlint (regionAction s (flintRegion f) (flintOf s f).action fun t => dmaStatus (setFlint t f fun y =>
      { y with dma := y.dma.set ch (some (dmaDesc (dmemBytes (flintOf s f) a 32))) }) ch.val 1) f fpNext :=
  (if_neg (by rw [h]; decide)).trans (if_neg (by rw [ha]; decide))

theorem fpDma_of_bad {i : FrImm} (h : ¬inDataMemory (gRead (flintOf s f) i.a.toNat) 8 32 ∨
    dmaAddrOk (dmaDesc (dmemBytes (flintOf s f) (gRead (flintOf s f) i.a.toNat).toNat 32)) = false) : fpDma s f i = seqFault s f 1 :=
  if_pos (by
    rw [← dmemOk_iff, Bool.not_eq_true] at h
    rcases h with h | h <;> simp [h])

theorem fpDma_of_leads {i : FrImm} (hf : fpFollows s f = false) (hl : (flintOf s f).lapsed = false)
    (h : inDataMemory (gRead (flintOf s f) i.a.toNat) 8 32)
    (hd : dmaAddrOk (dmaDesc (dmemBytes (flintOf s f) (gRead (flintOf s f) i.a.toNat).toNat 32)) = true) : fpDma s f i =
    dmaStart (actionIssue s f 0 (dmemBytes (flintOf s f) (gRead (flintOf s f) i.a.toNat).toNat 32 ++ leBytes i.imm.toNat 4)) f
      (Fin.ofNat 4 i.imm.toNat) (gRead (flintOf s f) i.a.toNat).toNat := by
  simp only [fpDma, hf, hl, dmemOk_iff.2 h, hd, Bool.not_true, Bool.or_self, Bool.false_eq_true, if_false]

end

/-- Settles O14: each command issues its action, and its region takes it as one it has not seen or as a duplicate. -/
theorem frameCommandsAreActions : Obligations.FrameCommandsAreActions := by
  intro s f hl
  refine ⟨fun i hr hw => ?bind, fun i hr hw => ?pwr, fun i hr hw => ?brxj, fun i hr hw => ?dma⟩
  case bind =>
    have body := fpExec_of_ready (body := fun s => fpAction s f 0 (leBytes ((gRead (flintOf s f) i.a.toNat).toNat % 2 ^ 32) 4 ++
      leBytes (gRead (flintOf s f) i.b.toNat).toNat 8) fun n t => if serves t 3 then regionAction t 3 n fun t =>
        bindRequest t ⟨(gRead (flintOf s f) i.a.toNat).toNat % 2 ^ 32, (gRead (flintOf s f) i.b.toNat).toNat / 1000000000,
          (gRead (flintOf s f) i.b.toNat).toNat % 1000000000⟩ else t) hw hr
    dsimp only at body ⊢
    rw [fpAction_of_leads (fpFollows_of_ready hr) hl] at body
    obtain ⟨-, ha, hs, -⟩ := actionIssue_frame s f 0 (leBytes ((gRead (flintOf s f) i.a.toNat).toNat % 2 ^ 32) 4 ++
      leBytes (gRead (flintOf s f) i.b.toNat).toNat 8)
    rw [hs] at body
    refine ⟨fun h => body.trans ?_, fun h hn => body.trans ?_, fun h hn => body.trans ?_⟩
    · rw [h]
      rfl
    · rw [if_pos h, regionAction_of_lt (by rwa [ha])]
      rfl
    · rw [if_pos h, regionAction_of_le (by rwa [ha])]
  case pwr =>
    have body := (fpExec_of_ready (body := fun s => fpAction s f 0 (leBytes i.imm.toNat 4) fun n s => regionAction s 0 n fun s =>
      powerRequest s i.imm true) hw hr)
    dsimp only at body ⊢
    rw [fpAction_of_leads (fpFollows_of_ready hr) hl] at body
    obtain ⟨-, ha, -⟩ := actionIssue_frame s f 0 (leBytes i.imm.toNat 4)
    refine ⟨fun hn => body.trans ?_, fun hn => body.trans ?_⟩
    · rw [regionAction_of_lt (by rwa [ha])]
    · rw [regionAction_of_le (by rwa [ha])]
  case brxj =>
    have body : exec (.fpBrxj f i) s = .next (fpBrxj s f i) := fpExec_of_ready hw hr
    dsimp only
    rw [body, fpBrxj_of_leads (fpFollows_of_ready hr) hl]
    obtain ⟨hx, ha, hs, hn, -, he, hq⟩ := actionIssue_frame s f ((gRead (flintOf s f) i.a.toNat).toNat % 2 ^ 40) (leBytes i.imm.toNat 4)
    refine ⟨fun h => congrArg _ (brxjSend_of_down (by rwa [hs]) _ _), fun h h8 => congrArg _ (brxjSend_of_full (by rwa [hs]) ((hq _).symm ▸ h8)),
      fun h h8 hlt => congrArg _ ((brxjSend_of_room (by rwa [hs]) ((hq _).symm ▸ h8)).trans ?_)⟩
    rw [hx, he, regionAction_of_lt (by rwa [ha]), ← hn]
    rfl
  case dma =>
    have body : exec (.fpDma f i) s = .next (fpDma s f i) := fpExec_of_ready hw hr
    dsimp only
    rw [body]
    have leads := fpDma_of_leads (i := i) (fpFollows_of_ready hr) hl
    obtain ⟨hx, ha, -⟩ := actionIssue_frame s f 0 (dmemBytes (flintOf s f) (gRead (flintOf s f) i.a.toNat).toNat 32 ++ leBytes i.imm.toNat 4)
    refine ⟨fun h => congrArg _ (fpDma_of_bad h), fun h hb hd => congrArg _ ((leads h hd).trans (dmaStart_of_busy (by rwa [hx]))),
      fun h hb hd hlt => congrArg _ ((leads h hd).trans ((dmaStart_of_free (by rwa [hx]) (by rwa [hx])).trans ?_))⟩
    rw [hx, regionAction_of_lt (by rwa [ha])]
    rfl

section
variable {s : State} {f : FlintId} {u : SemUser} {n : Nat} {w : Bool}

/-! Semaphores (R161, R408, R436). -/

theorem semOf_semMeets (s : State) (q : Requester) (n m : Nat) : semOf (semMeets s q n) m = semOf s m := by
  unfold semMeets semClockEnds
  dsimp only
  split
  · split <;> rfl
  · rfl

theorem semAsk_of_own (h : (semOf s n).holder = some u) : semAsk s u n w = (semMeets s (semReq u) n, 8) :=
  if_pos (by rw [semOf_semMeets, h])

theorem semAsk_of_free (h : (semOf s n).holder = none) :
    semAsk s u n w = (setSem (semMeets s (semReq u) n) n fun m => { m with holder := some u }, 8) := by
  rw [semAsk]
  rw [semOf_semMeets, h]
  rfl

theorem semAsk_of_other {o : SemUser} (h : (semOf s n).holder = some o) (ho : o ≠ u) (hw : u ∉ (semOf s n).waiters) : semAsk s u n w =
    if w then (setSem (semMeets s (semReq u) n) n fun m => { m with waiters := m.waiters ++ [u] }, 9) else (semMeets s (semReq u) n, 10) := by
  rw [semAsk]
  rw [semOf_semMeets, h, if_neg (by simpa using ho)]
  cases w <;> simp [hw]

theorem semAsk_try_of_other {o : SemUser} (h : (semOf s n).holder = some o) (ho : o ≠ u) :
    semAsk s u n false = (semMeets s (semReq u) n, 10) := by
  rw [semAsk]
  rw [semOf_semMeets, h, if_neg (by simpa using ho)]
  rfl

/-- The state in which a semaphore instruction's action is numbered and taken by Slate. -/
def semIssued (s : State) (f : FlintId) (n : Nat) : State := setLastAction (actionIssue s f 0 (leBytes n 4)) 0 ((flintOf s f).action + 1)

theorem semOf_semIssued (s : State) (f : FlintId) (n m : Nat) : semOf (semIssued s f n) m = semOf s m := by
  obtain ⟨-, -, -, -, h, -⟩ := actionIssue_frame s f 0 (leBytes n 4)
  exact h m

theorem semAction_of_new (h : lastAction s 0 < (flintOf s f).action + 1) :
    semAction (actionIssue s f 0 (leBytes n 4)) f n w = semAsk (semIssued s f n) .frame n w := by
  obtain ⟨hx, ha, -⟩ := actionIssue_frame s f 0 (leBytes n 4)
  rw [semAction, hx, ha]
  exact if_neg (Nat.not_le.2 h)

variable {i : FrImm}

theorem fpSemAcq_of_granted {t : State} (hf : fpFollows s f = false) (hl : (flintOf s f).lapsed = false)
    (h : lastAction s 0 < (flintOf s f).action + 1) (hr : semAsk (semIssued s f i.imm.toNat) .frame i.imm.toNat true = (t, 8)) :
    fpSemAcq s f i = mirrorSend (setFlint t f fpNext) f (.granted true) := by
  simp only [fpSemAcq, hf, hl, Bool.false_eq_true, if_false, semAction_of_new h, hr, if_true]

theorem fpSemAcq_of_queued {t : State} (hf : fpFollows s f = false) (hl : (flintOf s f).lapsed = false)
    (h : lastAction s 0 < (flintOf s f).action + 1) (hr : semAsk (semIssued s f i.imm.toNat) .frame i.imm.toNat true = (t, 9)) :
    fpSemAcq s f i = waits t f (.sem i.imm.toNat) := by
  simp only [fpSemAcq, hf, hl, Bool.false_eq_true, if_false, semAction_of_new h, hr]
  rfl

theorem fpSemTry_of_leads {t : State} {k : Nat} {b : Bool} (hf : fpFollows s f = false) (hl : (flintOf s f).lapsed = false)
    (h : lastAction s 0 < (flintOf s f).action + 1) (hr : semAsk (semIssued s f i.imm.toNat) .frame i.imm.toNat false = (t, k))
    (hb : (k == 8) = b) : fpSemTry s f i = mirrorSend (setFlint t f fun x => fpNext (fpPredSet x i.d.toNat b)) f (.granted b) := by
  simp only [fpSemTry, hf, hl, Bool.false_eq_true, if_false, semAction_of_new h, hr, hb]

theorem fpSemRel_of_foreign (hf : fpFollows s f = false) (hl : (flintOf s f).lapsed = false) (h : (semOf s i.imm.toNat).holder ≠ some .frame) :
    fpSemRel s f i = seqFault (mirrorSend s f (.granted false)) f 3 := by
  simp only [fpSemRel, hf, hl, h, Bool.false_eq_true, if_false, ne_eq, not_false_eq_true, if_true]

theorem fpSemRel_of_own (hf : fpFollows s f = false) (hl : (flintOf s f).lapsed = false) (hn : lastAction s 0 < (flintOf s f).action + 1)
    (h : (semOf s i.imm.toNat).holder = some .frame) : fpSemRel s f i = setFlint (semFree (semIssued s f i.imm.toNat) i.imm.toNat) f fpNext := by
  obtain ⟨hx, ha, -⟩ := actionIssue_frame s f 0 (leBytes i.imm.toNat 4)
  simp only [fpSemRel, hf, hl, h, Bool.false_eq_true, if_false, ne_eq, not_true_eq_false, hx]
  rw [regionAction_of_lt (by rwa [ha])]
  rfl

end

/-- Settles O16: the request is asked of the semaphore as it stood, and its holder decides. -/
theorem frameSemaphores : Obligations.FrameSemaphores := by
  intro s f i hr hl hn
  have hf := fpFollows_of_ready hr
  have hm := semOf_semIssued s f i.imm.toNat i.imm.toNat
  refine ⟨fun hw => ?_, fun hw => ?_, fun hw => ⟨fun h => ?_, fun h => ?_⟩⟩
  · have body : exec (.fpSemacq f i) s = .next (fpSemAcq s f i) := fpExec_of_ready hw hr
    rw [body]
    refine ⟨fun h => ?_, fun h => ?_, fun o h hnot => ?_⟩
    · rw [fpSemAcq_of_granted hf hl hn (semAsk_of_free (hm.symm ▸ h))]
      rfl
    · rw [fpSemAcq_of_granted hf hl hn (semAsk_of_own (hm.symm ▸ h))]
      rfl
    · rw [fpSemAcq_of_queued hf hl hn (semAsk_of_other (o := .host o) (hm.symm ▸ h) nofun (hm.symm ▸ hnot))]
      rfl
  · have body : exec (.fpSemtry f i) s = .next (fpSemTry s f i) := fpExec_of_ready hw hr
    rw [body]
    refine ⟨fun h => ?_, fun h => ?_, fun o h => ?_⟩
    · rw [fpSemTry_of_leads hf hl hn (semAsk_of_free (hm.symm ▸ h)) rfl]
      rfl
    · rw [fpSemTry_of_leads hf hl hn (semAsk_of_own (hm.symm ▸ h)) rfl]
      rfl
    · rw [fpSemTry_of_leads hf hl hn (semAsk_try_of_other (o := .host o) (hm.symm ▸ h) nofun) rfl]
      rfl
  · exact (fpExec_of_ready hw hr).trans (congrArg _ (fpSemRel_of_own hf hl hn h))
  · exact (fpExec_of_ready hw hr).trans (congrArg _ (fpSemRel_of_foreign hf hl h))

end Sys2Proof.Machine
end

section
/-! PROOFS. The program's stops and what they release, checkpoints, loads and starts, and the statements on them. -/

namespace Sys2Proof.Machine

open Says

section
variable {r s t : State} {f g : FlintId} {n m : Nat}

theorem flintOf_setFlint_ne (h : g ≠ f) (s : State) (x : Flint → Flint) : flintOf (setFlint s f x) g = flintOf s g := by
  cases f <;> cases g
  · exact absurd rfl h
  · exact flintOf_setFlint_other s .a x
  · exact flintOf_setFlint_other s .b x
  · exact absurd rfl h

theorem otherFlint_ne (f : FlintId) : otherFlint f ≠ f := by cases f <;> decide

theorem flintUp_of_quiet (h : Quiet s t) (f : FlintId) : flintUp t f = flintUp s f := by
  obtain ⟨hc, -⟩ := h
  rw [flintUp, flintUp, serves, serves, ctlOf, ctlOf, hc]

/-! What a release of semaphores leaves (R161, R166, R436). -/

/-- A state has the events of `r` and its accepted image, and each region stands where it stood, or one instruction on where it waited for a semaphore. -/
def Settled (r s : State) : Prop := s.evNet = r.evNet ∧ s.ctrl.ready = r.ctrl.ready ∧ ∀ f, flintOf s f = flintOf r f ∨
  (∃ n, (flintOf r f).wait = some (.sem n)) ∧ flintOf s f = fpNext (flintOf r f)

namespace Settled

theorem refl (s : State) : Settled s s := ⟨rfl, rfl, fun _ => .inl rfl⟩

theorem trans (h : Settled r s) (h' : Settled s t) : Settled r t := by
  obtain ⟨he, hr, hf⟩ := h
  obtain ⟨he', hr', hf'⟩ := h'
  refine ⟨he'.trans he, hr'.trans hr, fun f => ?_⟩
  rcases hf f with e | ⟨hw, e⟩
  · simpa only [e] using hf' f
  · rcases hf' f with e' | ⟨⟨n, hn⟩, -⟩
    · exact .inr ⟨hw, e'.trans e⟩
    · rw [e] at hn
      exact absurd hn nofun

/-- An operation that leaves events and control regions. -/
theorem same (h : Settled r s) (he : t.evNet = s.evNet) (hc : t.ctrl = s.ctrl) : Settled r t := by
  refine h.trans ⟨he, by rw [hc], fun f => .inl ?_⟩
  rw [flintOf, flintOf, hc]

theorem foldl {α : Type} {x : State → α → State} (hx : ∀ t a, Settled t (x t a)) (l : List α) (s : State) : Settled s (l.foldl x s) := by
  induction l generalizing s with
  | nil => exact .refl s
  | cons a l ih => exact (hx s a).trans (ih _)

theorem wait_eq_none (h : Settled r s) (hw : (flintOf r f).wait = none) : flintOf s f = flintOf r f := by
  obtain ⟨-, -, hf⟩ := h
  refine (hf f).resolve_right fun ⟨⟨n, hn⟩, _⟩ => ?_
  rw [hw] at hn
  exact absurd hn nofun

end Settled

theorem semClockEnds_frame (s : State) (n : Nat) :
    (semClockEnds s n).ctrl = s.ctrl ∧ (semClockEnds s n).evNet = s.evNet ∧ ∀ m, semOf (semClockEnds s n) m = semOf s m := by
  unfold semClockEnds
  dsimp only
  split
  · exact ⟨rfl, rfl, fun _ => rfl⟩
  · exact ⟨rfl, rfl, fun _ => rfl⟩

theorem mirrorSend_shows (s : State) (f : FlintId) (x : MirrorRec) : Settled s (mirrorSend s f x) := by
  obtain ⟨m, e⟩ := mirrorSend_cases s f x
  rw [e]
  exact ⟨rfl, rfl, fun _ => .inl rfl⟩

theorem settled_settleSem (s : State) (n : Nat) : Settled s (settleSem s n) := by
  refine Settled.foldl (fun t f => ?_) _ s
  split
  next m hw =>
    split
    · refine Settled.trans (s := setFlint t f fpNext) ⟨rfl, rfl, fun g => ?_⟩ (mirrorSend_shows _ _ _)
      by_cases h : g = f
      · subst h
        exact .inr ⟨⟨m, hw⟩, flintOf_setFlint ..⟩
      · exact .inl (flintOf_setFlint_ne h ..)
    · exact .refl t
  next => exact .refl t

theorem semOf_settleSem (s : State) (n m : Nat) : semOf (settleSem s n) m = semOf s m := by
  refine List.foldlRecOn (motive := fun t => semOf t m = semOf s m) _ _ rfl fun t ht f _ => ?_
  split
  · split
    · obtain ⟨l, e⟩ := mirrorSend_cases (setFlint t f fpNext) f (.granted true)
      rw [e]
      exact ht
    · exact ht
  · exact ht

theorem semFree_of_nil (h : (semOf s n).waiters = []) : semFree s n = setSem (semClockEnds s n) n fun m => { m with holder := none } := by
  obtain ⟨-, -, ho⟩ := semClockEnds_frame s n
  rw [semFree]
  simp only [ho, h]

theorem semFree_of_host {p : HostId} {l : List SemUser} (h : (semOf s n).waiters = .host p :: l) : semFree s n =
    hostIrq (setSlate (setSem (semClockEnds s n) n fun _ => ⟨some (.host p), l⟩) fun x => { x with grantClock := x.grantClock ++ [(n, p)] }) p 2 := by
  obtain ⟨-, -, ho⟩ := semClockEnds_frame s n
  rw [semFree]
  simp only [ho, h]

/-- What a grant to a host leaves: the events, the control regions and the semaphores. -/
theorem hostGranted_frame (s : State) (p : HostId) (l : List (Nat × HostId)) :
    (hostIrq (setSlate s fun x => { x with grantClock := x.grantClock ++ l }) p 2).ctrl = s.ctrl ∧
    (hostIrq (setSlate s fun x => { x with grantClock := x.grantClock ++ l }) p 2).evNet = s.evNet ∧
    ∀ m, semOf (hostIrq (setSlate s fun x => { x with grantClock := x.grantClock ++ l }) p 2) m = semOf s m := ⟨rfl, rfl, fun _ => rfl⟩

theorem semFree_of_frame {l : List SemUser} (h : (semOf s n).waiters = .frame :: l) :
    semFree s n = settleSem (setSem (semClockEnds s n) n fun _ => ⟨some .frame, l⟩) n := by
  obtain ⟨-, -, ho⟩ := semClockEnds_frame s n
  rw [semFree]
  simp only [ho, h]

theorem settled_semFree (s : State) (n : Nat) : Settled s (semFree s n) := by
  obtain ⟨hc, he, -⟩ := semClockEnds_frame s n
  have put (x : Sem → Sem) : Settled s (setSem (semClockEnds s n) n x) := (Settled.refl s).same he hc
  rcases h : (semOf s n).waiters with _ | ⟨p | _, l⟩
  · rw [semFree_of_nil h]
    exact put _
  · obtain ⟨gc, ge, -⟩ := hostGranted_frame (setSem (semClockEnds s n) n fun _ => ⟨some (.host p), l⟩) p [(n, p)]
    rw [semFree_of_host h]
    exact (put _).same ge gc
  · rw [semFree_of_frame h]
    exact (put _).trans (settled_settleSem _ n)

/-- A semaphore after its release: free, or the first waiter's. -/
def freed (m : Sem) : Sem := ⟨m.waiters.head?, m.waiters.tail⟩

theorem semOf_semFree (hn : n < 32) (m : Nat) : semOf (semFree s n) m = if m = n then freed (semOf s n) else semOf s m := by
  obtain ⟨-, -, ho⟩ := semClockEnds_frame s n
  have put {x : Sem → Sem} (hx : x (semOf s n) = freed (semOf s n)) :
      semOf (setSem (semClockEnds s n) n x) m = if m = n then freed (semOf s n) else semOf s m := by
    split
    next h => rw [h, semOf_setSem _ _ hn, ho, hx]
    next h => rw [semOf_setSem_ne _ _ (Ne.symm h), ho]
  rcases h : (semOf s n).waiters with _ | ⟨p | _, l⟩
  · rw [semFree_of_nil h]
    exact put (by rw [freed, h]; rfl)
  · obtain ⟨-, -, go⟩ := hostGranted_frame (setSem (semClockEnds s n) n fun _ => ⟨some (.host p), l⟩) p [(n, p)]
    rw [semFree_of_host h, go]
    exact put (by rw [freed, h]; rfl)
  · rw [semFree_of_frame h, semOf_settleSem]
    exact put (by rw [freed, h]; rfl)

theorem ctrl_semFree (h : .frame ∉ (semOf s n).waiters) : (semFree s n).ctrl = s.ctrl := by
  obtain ⟨hc, -, -⟩ := semClockEnds_frame s n
  rcases hw : (semOf s n).waiters with _ | ⟨p | _, l⟩
  · rw [semFree_of_nil hw]
    exact hc
  · obtain ⟨gc, -⟩ := hostGranted_frame (setSem (semClockEnds s n) n fun _ => ⟨some (.host p), l⟩) p [(n, p)]
    rw [semFree_of_host hw, gc]
    exact hc
  · exact absurd (hw ▸ List.mem_cons_self) h

/-- The frame program's place among a semaphore's waiters ends. -/
def semLeft (s : State) (n : Nat) : State := if (semOf s n).waiters.contains .frame then semLeave s .frame n else s

/-- One semaphore that the frame program leaves and releases. -/
def semDropOne (s : State) (n : Nat) : State := if (semOf (semLeft s n) n).holder = some .frame then semFree (semLeft s n) n else semLeft s n

theorem semDropFrame_eq (s : State) : semDropFrame s = (List.range 32).foldl semDropOne s := rfl

theorem settled_semLeft (s : State) (n : Nat) : Settled s (semLeft s n) := by
  unfold semLeft
  split
  · exact (Settled.refl s).same rfl rfl
  · exact .refl s

theorem settled_semDropOne (s : State) (n : Nat) : Settled s (semDropOne s n) := by
  unfold semDropOne
  split
  · exact (settled_semLeft s n).trans (settled_semFree _ n)
  · exact settled_semLeft s n

theorem settled_semDropFrame (s : State) : Settled s (semDropFrame s) := Settled.foldl settled_semDropOne _ s

theorem semLeft_shows (hn : n < 32) (h : (semOf s n).waiters.Nodup) : (semLeft s n).ctrl = s.ctrl ∧
    (∀ m, m ≠ n → semOf (semLeft s n) m = semOf s m) ∧ (semOf (semLeft s n) n).waiters.Nodup ∧ .frame ∉ (semOf (semLeft s n) n).waiters := by
  unfold semLeft
  split
  · refine ⟨rfl, fun m hm => semOf_setSem_ne _ _ hm.symm, ?_, ?_⟩
    · rw [semLeave, semOf_setSem _ _ hn]
      exact h.erase _
    · rw [semLeave, semOf_setSem _ _ hn]
      exact h.not_mem_erase
  next hf => exact ⟨rfl, fun _ _ => rfl, h, by simpa using hf⟩

/-- With nobody twice among its waiters, the frame program leaves a semaphore to the hosts, and the control regions stay. -/
theorem semDropOne_shows (hn : n < 32) (h : (semOf s n).waiters.Nodup) : (semDropOne s n).ctrl = s.ctrl ∧
    (∀ m, m ≠ n → semOf (semDropOne s n) m = semOf s m) ∧ (semOf (semDropOne s n) n).waiters.Nodup ∧
    (semOf (semDropOne s n) n).holder ≠ some .frame := by
  obtain ⟨hc, ho, hd, hnot⟩ := semLeft_shows hn h
  unfold semDropOne
  split
  · refine ⟨(ctrl_semFree hnot).trans hc, fun m hm => ?_, ?_, ?_⟩
    · rw [semOf_semFree hn, if_neg hm, ho m hm]
    · rw [semOf_semFree hn, if_pos rfl]
      exact hd.sublist (List.tail_sublist _)
    · rw [semOf_semFree hn, if_pos rfl]
      exact fun e => hnot (List.mem_of_mem_head? e)
  next hh => exact ⟨hc, ho, hd, hh⟩

/-- What the frame program leaves, whatever the list of semaphores. -/
theorem foldl_semDropOne_shows {l : List Nat} (hl : ∀ n ∈ l, n < 32) (h : ∀ n, (semOf s n).waiters.Nodup) : (l.foldl semDropOne s).ctrl = s.ctrl ∧
    (∀ n, (semOf (l.foldl semDropOne s) n).waiters.Nodup) ∧
    ∀ n, n ∈ l ∨ (semOf s n).holder ≠ some .frame → (semOf (l.foldl semDropOne s) n).holder ≠ some .frame := by
  induction l generalizing s with
  | nil => exact ⟨rfl, h, fun n hn => hn.resolve_left nofun⟩
  | cons k l ih =>
    obtain ⟨hc, ho, hd, hh⟩ := semDropOne_shows (hl k List.mem_cons_self) (h k)
    have h' : ∀ n, (semOf (semDropOne s k) n).waiters.Nodup := fun n => by
      by_cases e : n = k
      · rw [e]
        exact hd
      · rw [ho n e]
        exact h n
    obtain ⟨hc', hd', hh'⟩ := ih (fun n hn => hl n (List.mem_cons_of_mem _ hn)) h'
    rw [List.foldl_cons]
    refine ⟨hc'.trans hc, hd', fun n hn => hh' n ?_⟩
    by_cases e : n = k
    · rw [e]
      exact .inr hh
    · rw [ho n e]
      exact hn.imp_left fun hm => (List.mem_cons.1 hm).resolve_left e

theorem semDropFrame_shows (h : ∀ n, (semOf s n).waiters.Nodup) : (semDropFrame s).ctrl = s.ctrl ∧
    (∀ n, (semOf (semDropFrame s) n).waiters.Nodup) ∧ ∀ n, n < 32 → (semOf (semDropFrame s) n).holder ≠ some .frame := by
  obtain ⟨hc, hd, hh⟩ := foldl_semDropOne_shows (l := List.range 32) (fun n hn => List.mem_range.1 hn) h
  exact ⟨hc, hd, fun n hn => hh n (.inl (List.mem_range.2 hn))⟩

/-! Stops (R166 to R168). -/

theorem seqHalt_shows (s : State) (f : FlintId) (st : SeqState) : (seqHalt s f st).ctrl.ready = s.ctrl.ready ∧ (seqHalt s f st).evNet = s.evNet ∧
    flintOf (seqHalt s f st) f = { flintOf s f with st := st, wait := none } := by
  have hx : flintOf (setFlint s f fun x => { x with st := st, wait := none }) f = { flintOf s f with st := st, wait := none } := flintOf_setFlint ..
  obtain ⟨he, hr, -⟩ := settled_semDropFrame (setFlint s f fun x => { x with st := st, wait := none })
  unfold seqHalt
  dsimp only
  split
  · exact ⟨rfl, rfl, hx⟩
  · exact ⟨hr, he, ((settled_semDropFrame _).wait_eq_none (by rw [hx])).trans hx⟩

theorem seqHalt_frees (hl : holder s ≠ some (otherFlint f)) (h : ∀ n, (semOf s n).waiters.Nodup) (st : SeqState) (hn : n < 32) :
    (semOf (seqHalt s f st) n).holder ≠ some .frame := by
  unfold seqHalt
  rw [if_neg (by rwa [holder_setFlint])]
  obtain ⟨-, -, hh⟩ := semDropFrame_shows (s := setFlint s f fun x => { x with st := st, wait := none }) h
  exact hh n hn

theorem takeReady_of_none (h : s.ctrl.ready = none) : takeReady s = s := by rw [takeReady, h]

theorem takeReady_of_some {i : ProgImage} (h : s.ctrl.ready = some i) :
    takeReady s = if s.scan.running = true ∧ progRuns s = true then s else progTake s i := by
  rw [takeReady, h]
  simp only [Bool.and_eq_true]

/-- A region's program has stopped with a fault, nothing told yet. -/
def faultHalt (s : State) (f : FlintId) (c : Nat) : State := seqHalt (setFlint s f fun x => { x with fault := c }) f .faulted

theorem faultHalt_shows (s : State) (f : FlintId) (c : Nat) : (faultHalt s f c).ctrl.ready = s.ctrl.ready ∧
    flintOf (faultHalt s f c) f = { flintOf s f with fault := c, st := .faulted, wait := none } := by
  obtain ⟨hr, -, hf⟩ := seqHalt_shows (setFlint s f fun x => { x with fault := c }) f .faulted
  exact ⟨hr, hf.trans (by rw [flintOf_setFlint])⟩

theorem seqFault_eq (s : State) (f : FlintId) (c : Nat) :
    seqFault s f c = takeReady (raise (faultHalt s f c) 2 (flintRegion f) 0x102 0 0xFF (c + 65536 * ((flintOf s f).pc % 16384))) := by
  obtain ⟨-, hf⟩ := faultHalt_shows s f c
  have hp : (flintOf (faultHalt s f c) f).pc = (flintOf s f).pc := by rw [hf]
  rw [← hp]
  rfl

theorem seqHalted_eq (s : State) (f : FlintId) :
    seqHalted s f = takeReady (raise (seqHalt s f .halted) 2 (flintRegion f) 0x103 0 0xFF (65536 * ((flintOf s f).pc % 16384))) := rfl

end

/-- Settles O3: a stop leaves the accepted image and its own region's registers, tells of it, and then takes the image where one waits. -/
theorem frameSharedMoves : Obligations.FrameSharedMoves := by
  intro s f r c
  obtain ⟨hfr, hff⟩ := faultHalt_shows s f c
  obtain ⟨hhr, -, hhf⟩ := seqHalt_shows s f .halted
  refine ⟨rfl, mirrorSend_eq s f r, fun hr => ?_, fun img hi => ?_⟩
  · rw [seqFault_eq, seqHalted_eq, takeReady_of_none (s := raise ..) (hfr.trans hr), takeReady_of_none (s := raise ..) (hhr.trans hr)]
    exact ⟨hff, hhf, fun hl hd n hn => ⟨seqHalt_frees (s := setFlint s f _) hl hd .faulted hn, seqHalt_frees hl hd .halted hn⟩, ⟨_, rfl⟩, ⟨_, rfl⟩⟩
  · rw [seqFault_eq, seqHalted_eq]
    exact ⟨⟨_, takeReady_of_some (hfr.trans hi)⟩, ⟨_, takeReady_of_some (hhr.trans hi)⟩⟩

end Sys2Proof.Machine
end

section
/-! PROOFS. Checkpoints, the program's loads, stops and starts, and the statements on them. -/

namespace Sys2Proof.Machine

open Says

section
variable {s t : State} {f g : FlintId}

/-! Checkpoints (R163, R410). -/

/-- The checkpoint that the holder's CKPT writes has gone into its bank. -/
def ckptBanked (s : State) (f : FlintId) (tag : Word) : State :=
  setFlint s f fun x => fpNext { bankWrite x (ckptOf (flintOf s f) tag) with wdogAt := s.now }

theorem ckptDone_of_none (h : ∀ tag, (flintOf s f).wait ≠ some (.ckpt tag true)) : ckptDone s f = s := by
  unfold ckptDone
  dsimp only
  split
  next tag hw => exact absurd hw (h tag)
  next => rfl

theorem ckptDone_of_writing {tag : Word} (h : (flintOf s f).wait = some (.ckpt tag true)) :
    ckptDone s f = ckptMirror (ckptBanked s f tag) (otherFlint f) (ckptOf (flintOf s f) tag) (flintOf s f) := by
  rw [ckptDone, h]
  rfl

theorem flintOf_ckptBanked_other (s : State) (f : FlintId) (tag : Word) : flintOf (ckptBanked s f tag) (otherFlint f) = flintOf s (otherFlint f) :=
  flintOf_setFlint_ne (otherFlint_ne f) ..

theorem ckptMirror_of_out {k : Ckpt} {x : Flint} (h : flintUp s f = false ∨ (flintOf s f).shadow = .out) : ckptMirror s f k x = s := by
  unfold ckptMirror
  rcases h with h | h
  · rw [h]
    rfl
  · rw [h]
    exact ite_self _

theorem ckptMirror_of_inShadow {k : Ckpt} {x : Flint} (hup : flintUp s f = true) (h : (flintOf s f).shadow = .inShadow) :
    ckptMirror s f k x = withFlint s f (bankWrite (flintOf s f) k) := by
  rw [ckptMirror, hup, h]
  rfl

theorem ckptMirror_of_waiting {k : Ckpt} {x : Flint} (hup : flintUp s f = true) (h : (flintOf s f).shadow = .waiting) :
    ckptMirror s f k x = shadowEnter (withFlint s f (bankWrite (flintOf s f) k)) f k x := by
  rw [ckptMirror, hup, h]
  rfl

theorem flintOf_leaseShow (s : State) (f : FlintId) : flintOf (leaseShow s) f = flintOf s f := by
  unfold leaseShow
  dsimp only
  split <;> rfl

/-- A waiting standby stands at the checkpoint, in the shadow run, with the holder's program. -/
theorem flintOf_shadowEnter (s : State) (f : FlintId) (k : Ckpt) (lead : Flint) : flintOf (shadowEnter s f k lead) f =
    { ckptLoad (flintOf s f) k s.now with
      code := lead.code, entry := lead.entry, data := lead.data, minor := lead.minor
      shadow := .inShadow, mirror := [], selftest := Nat.lor (flintOf s f).selftest 12 } := by
  rw [shadowEnter]
  exact (flintOf_leaseShow _ f).trans (flintOf_setFlint s f fun x => { ckptLoad x k s.now with
    code := lead.code, entry := lead.entry, data := lead.data, minor := lead.minor
    shadow := .inShadow, mirror := [], selftest := Nat.lor x.selftest 12 })

end

/-- Settles O17: a checkpoint goes into the holder's bank, and the standby's place in the shadow arrangement decides what it does with it. -/
theorem checkpointsHoldTheSequencer : Obligations.CheckpointsHoldTheSequencer := by
  refine fun s f => ⟨fun i hr hw => ?_, fun h => congrArg _ (ckptDone_of_none h), fun tag h => ?_⟩
  · exact (fpExec_of_ready hw hr).trans (congrArg _ (if_neg (by rw [fpFollows_of_ready hr]; decide)))
  have done : exec (.checkpointWritten f) s = .next _ := congrArg Host.Outcome.next (ckptDone_of_writing h)
  have ho := flintOf_ckptBanked_other s f tag
  dsimp only
  rw [done]
  refine ⟨fun h' => congrArg _ ?_, fun hup hsh => congrArg _ ?_, fun hup hsh => ⟨_, rfl, ?_⟩⟩
  · exact ckptMirror_of_out (h'.imp_right (congrArg Flint.shadow ho).trans)
  · rw [ckptMirror_of_inShadow (s := ckptBanked s f tag) hup (by rwa [ho]), ho]
    rfl
  · rw [ckptMirror_of_waiting (s := ckptBanked s f tag) hup (by rwa [ho]), flintOf_shadowEnter]
    exact ⟨rfl, rfl, rfl, rfl, rfl, rfl, rfl⟩

section
variable {r s t : State} {f g : FlintId} {q : Requester} {v : Word}

/-! What the moves of this section leave alone. -/

theorem ctrl_reqMeets (s : State) (q : Requester) (r : Nat) : (reqMeets s q r).ctrl = s.ctrl :=
  (congrArg State.ctrl (reqMeets_slate_only s q r) :)

theorem evNet_reqMeets (s : State) (q : Requester) (r : Nat) : (reqMeets s q r).evNet = s.evNet :=
  (congrArg State.evNet (reqMeets_slate_only s q r) :)

theorem now_reqMeets (s : State) (q : Requester) (r : Nat) : (reqMeets s q r).now = s.now :=
  (congrArg State.now (reqMeets_slate_only s q r) :)

theorem flintOf_reqMeets (s : State) (q : Requester) (r : Nat) (f : FlintId) : flintOf (reqMeets s q r) f = flintOf s f := by
  rw [flintOf, flintOf, ctrl_reqMeets]

theorem semOf_reqMeets (s : State) (q : Requester) (r n : Nat) : semOf (reqMeets s q r) n = semOf s n :=
  (congrArg (fun x : Slate => x.sems.getD n {}) (reqMeets_clock_only s q r) :)

theorem flintsUp_congr (h : t.ctl = s.ctl) : flintsUp t = flintsUp s := by
  simp only [flintsUp, flintUp, serves, ctlOf, h]

theorem mem_flintsUp : g ∈ flintsUp s ↔ flintUp s g = true := by
  cases g <;> simp [flintsUp]

theorem progRuns_congr (hc : t.ctl = s.ctl) (hf : t.ctrl.fl = s.ctrl.fl) : progRuns t = progRuns s := by
  simp only [progRuns, flintsUp_congr hc, flintOf, hf]

theorem reqServes_of_not (h : serves s n = false) (x : State → State) : reqServes s q n x = s := if_neg (by rw [h]; decide)

/-! LOAD, RUN and STOP (R162, R165, R167, R169). -/

/-- LOAD alone: the load is latched, unless LOAD was written to the other region in the same nanosecond. -/
theorem progCtrlWrite_of_load (h0 : flag v 0 = true) (h3 : flag v 3 = false) (h4 : flag v 4 = false) : progCtrlWrite s f v =
    if (writeKey s (flaProgCtrl (flintRegion f)) v).ctrl.loadAt = some (otherFlint f, (writeKey s (flaProgCtrl (flintRegion f)) v).now) then
      writeKey s (flaProgCtrl (flintRegion f)) v
    else progLoad (setCtrl (writeKey s (flaProgCtrl (flintRegion f)) v) fun c =>
      { c with loadAt := some (f, (writeKey s (flaProgCtrl (flintRegion f)) v).now) }) f := by
  unfold progCtrlWrite
  generalize writeKey s (flaProgCtrl (flintRegion f)) v = t
  simp only [h0, h3, h4, Bool.false_eq_true, if_false]
  rcases t.ctrl.loadAt with _ | ⟨g, n⟩
  · simp
  · by_cases hn : n = t.now
    · cases f <;> cases g <;> simp [hn, otherFlint]
    · simp [hn]

/-- The load that a region's registers name. -/
def loadNamed (s : State) (f : FlintId) : ProgLoad :=
  ⟨getB s (flaProgCtrl (flintRegion f)) 1, addr40 s (flaProgAddrLo (flintRegion f)) (flaProgAddrHi (flintRegion f))⟩

/-- A load that is latched is the one in progress where there is none, and else the one that waits. -/
theorem progLoad_latched (s : State) (f : FlintId) (a : Option (FlintId × Nat)) : progLoad (setCtrl s fun c => { c with loadAt := a }) f =
    { s with ctrl := if s.ctrl.load.isSome then { s.ctrl with loadAt := a, loadWait := some (loadNamed s f) }
      else { s.ctrl with loadAt := a, load := some (loadNamed s f) } } := by
  rw [progLoad, setCtrl_ctrl]
  dsimp only
  split <;> rfl

theorem progRun_of_runs (h : progRuns s = true) : progRun s = s := if_pos (by rw [h]; rfl)

theorem progRun_of_empty (h : ∀ g, (flintOf s g).code = []) : progRun s = s := if_pos (by simp [h])

theorem progRun_of_stopped (h : progRuns s = false) (hup : flintUp s f = true) (hc : (flintOf s f).code ≠ []) : progRun s = seqStart s := by
  refine if_neg ?_
  have : ((flintsUp s).any fun f => !(flintOf s f).code.isEmpty) = true := List.any_eq_true.2 ⟨f, mem_flintsUp.2 hup, by simpa using hc⟩
  rw [h, this]
  decide

/-- A region's program stops, where it runs. -/
def stopOne (s : State) (f : FlintId) : State := if (flintOf s f).st = .running then seqHalt s f .stopped else s

theorem progStop_eq (s : State) : progStop s = takeReady ((flintsUp s).foldl stopOne s) := rfl

theorem settled_seqHalt (s : State) (f : FlintId) (st : SeqState) : Settled (setFlint s f fun x => { x with st := st, wait := none }) (seqHalt s f st) := by
  unfold seqHalt
  dsimp only
  split
  · exact .refl _
  · exact settled_semDropFrame _

/-- The stop of another region leaves a region's program, but that a semaphore which it waited for may have become its own. -/
theorem stopOne_other (h : g ≠ f) : flintOf (stopOne s f) g = flintOf s g ∨
    (∃ n, (flintOf s g).wait = some (.sem n)) ∧ flintOf (stopOne s f) g = fpNext (flintOf s g) := by
  unfold stopOne
  split
  · obtain ⟨-, -, hf⟩ := settled_seqHalt s f .stopped
    have := hf g
    rwa [flintOf_setFlint_ne h] at this
  · exact .inl rfl

theorem stopOne_self (h : (flintOf s f).st = .running) : flintOf (stopOne s f) f = { flintOf s f with st := .stopped, wait := none } := by
  obtain ⟨-, -, hx⟩ := seqHalt_shows s f .stopped
  rw [stopOne, if_pos h, hx]

theorem stopOne_frame (s : State) (f : FlintId) : (stopOne s f).ctrl.ready = s.ctrl.ready ∧ (stopOne s f).evNet = s.evNet := by
  obtain ⟨hr, he, -⟩ := seqHalt_shows s f .stopped
  unfold stopOne
  split
  · exact ⟨hr, he⟩
  · exact ⟨rfl, rfl⟩

/-- With nobody twice among a semaphore's waiters, a stop leaves the other region as it was, and the waiters so. -/
theorem stopOne_of_nodup (hd : ∀ n, (semOf s n).waiters.Nodup) (h : g ≠ f) :
    flintOf (stopOne s f) g = flintOf s g ∧ ∀ n, (semOf (stopOne s f) n).waiters.Nodup := by
  unfold stopOne
  split
  · unfold seqHalt
    dsimp only
    split
    · exact ⟨flintOf_setFlint_ne h .., hd⟩
    · obtain ⟨hc, hd', -⟩ := semDropFrame_shows (s := setFlint s f fun x => { x with st := .stopped, wait := none }) hd
      refine ⟨?_, hd'⟩
      rw [flintOf, hc]
      exact flintOf_setFlint_ne h ..
  · exact ⟨rfl, hd⟩

/-- A region that has stopped stays as it is. -/
theorem foldl_stopOne_stopped (l : List FlintId) (hs : (flintOf s g).st ≠ .running) (hw : (flintOf s g).wait = none) :
    flintOf (l.foldl stopOne s) g = flintOf s g := by
  induction l generalizing s with
  | nil => rfl
  | cons f l ih =>
    have e : flintOf (stopOne s f) g = flintOf s g := by
      by_cases h : g = f
      · subst h
        rw [stopOne, if_neg hs]
      · refine (stopOne_other h).resolve_right fun ⟨⟨n, hn⟩, _⟩ => ?_
        rw [hw] at hn
        exact absurd hn nofun
    rw [List.foldl_cons, ih (by rwa [e]) (by rwa [e]), e]

theorem foldl_stopOne_running {l : List FlintId} (hg : g ∈ l) (hs : (flintOf s g).st = .running) :
    (flintOf (l.foldl stopOne s) g).st = .stopped ∧ (flintOf (l.foldl stopOne s) g).wait = none ∧
    ((∀ n, (semOf s n).waiters.Nodup) → (flintOf (l.foldl stopOne s) g).pc = (flintOf s g).pc) := by
  induction l generalizing s with
  | nil => exact absurd hg nofun
  | cons f l ih =>
    rw [List.foldl_cons]
    by_cases h : g = f
    · subst h
      have e := stopOne_self hs
      rw [foldl_stopOne_stopped l (by rw [e]; nofun) (by rw [e]), e]
      exact ⟨rfl, rfl, fun _ => rfl⟩
    · have hs' : (flintOf (stopOne s f) g).st = .running := by
        rcases stopOne_other (s := s) h with e | ⟨-, e⟩
        · rwa [e]
        · rw [e]
          exact hs
      obtain ⟨h1, h2, h3⟩ := ih ((List.mem_cons.1 hg).resolve_left h) hs'
      refine ⟨h1, h2, fun hd => ?_⟩
      obtain ⟨e, hd'⟩ := stopOne_of_nodup hd h
      rw [h3 hd', e]

theorem foldl_stopOne_frame (l : List FlintId) (s : State) : (l.foldl stopOne s).ctrl.ready = s.ctrl.ready ∧ (l.foldl stopOne s).evNet = s.evNet :=
  List.foldlRecOn (motive := fun t => t.ctrl.ready = s.ctrl.ready ∧ t.evNet = s.evNet) l _ ⟨rfl, rfl⟩ fun t ⟨hr, he⟩ f _ =>
    ⟨(stopOne_frame t f).1.trans hr, (stopOne_frame t f).2.trans he⟩

/-! The end of a load (R165, R166). -/

theorem progLoadEnds_of_none (h : s.ctrl.load = none) (bad : Option (BitVec 32)) : progLoadEnds s bad = s := by rw [progLoadEnds, h]

theorem progLoadEnds_of_flash_waiting {l : ProgLoad} (h : s.ctrl.load = some l) (hf : l.flash = true) (hw : flashWaits s = true)
    (bad : Option (BitVec 32)) : progLoadEnds s bad = s := by
  rw [progLoadEnds, h]
  exact if_pos (by rw [hf, hw]; rfl)

/-- The state in which a load has been read and the next one is in progress. -/
def loadRead (s : State) (l : ProgLoad) (bad : Option (BitVec 32)) : State :=
  setCtrl (if l.flash then flashReads s (l.addr % 2 ^ 32) 64 else loadPoison s l bad (progCheck s l bad)) fun c =>
    { c with load := c.loadWait, loadWait := none }

variable {l : ProgLoad} {bad : Option (BitVec 32)}

theorem onlyTold_loadPoison (s : State) (l : ProgLoad) (bad : Option (BitVec 32)) (out : Except (Nat × Nat) ProgImage) :
    OnlyTold s (loadPoison s l bad out) := by
  obtain ⟨g, e, h⟩ := onlyTold_poisonSeen s (loadRegion s) l.addr 64
  unfold loadPoison
  extract_lets header rest seen
  split
  · obtain ⟨g', e', h'⟩ := onlyTold_poisonSeen seen (loadRegion seen) (l.addr + 64) (8 * leAt header.1 8 4 + leAt header.1 16 4 + 4)
    exact ⟨g', e', h'.trans (by rw [show seen = _ from h])⟩
  · exact ⟨g, e, h⟩

theorem loadRead_frame (s : State) (l : ProgLoad) (bad : Option (BitVec 32)) :
    (loadRead s l bad).ctl = s.ctl ∧ (loadRead s l bad).scan = s.scan ∧ (loadRead s l bad).ctrl.fl = s.ctrl.fl := by
  obtain ⟨g, e, h⟩ := onlyTold_loadPoison s l bad (progCheck s l bad)
  unfold loadRead
  rw [setCtrl_ctl, setCtrl_scan, setCtrl_ctrl, h]
  split
  · exact ⟨rfl, rfl, rfl⟩
  · exact ⟨rfl, rfl, rfl⟩

theorem loadReason_frame (s : State) (n : Nat) :
    (loadReason s n).ctl = s.ctl ∧ (loadReason s n).scan = s.scan ∧ (loadReason s n).ctrl = s.ctrl := by
  refine List.foldlRecOn (motive := fun t : State => t.ctl = s.ctl ∧ t.scan = s.scan ∧ t.ctrl = s.ctrl) _ _ ⟨rfl, rfl, rfl⟩ fun t ht f _ => ?_
  rwa [setF_ctl, setF_scan, setF_ctrl]

theorem progLoadEnds_of_error {n k : Nat} (h : s.ctrl.load = some l) (hw : l.flash = true → flashWaits s = false)
    (hc : progCheck s l bad = .error (n, k)) : progLoadEnds s bad =
      (flintsUp (loadRead s l bad)).foldl (fun s g => flintEvent s g 2 0x101 (n + 65536 * k)) (loadReason (loadRead s l bad) n) := by
  have hg : ¬(l.flash && flashWaits s) = true := by simpa using hw
  unfold loadRead
  rw [progLoadEnds, h]
  dsimp only
  rw [if_neg hg, hc]

theorem progLoadEnds_of_ok {img : ProgImage} (h : s.ctrl.load = some l) (hw : l.flash = true → flashWaits s = false)
    (hc : progCheck s l bad = .ok img) : progLoadEnds s bad =
      if s.scan.running && progRuns s then setCtrl (loadReason (loadRead s l bad) 0) fun c => { c with ready := some img }
      else progTake (loadReason (loadRead s l bad) 0) img := by
  obtain ⟨hl, hs, hf⟩ := loadRead_frame s l bad
  obtain ⟨hl', hs', hf'⟩ := loadReason_frame (loadRead s l bad) 0
  have hg : ¬(l.flash && flashWaits s) = true := by simpa using hw
  rw [← progRuns_congr hl hf, ← progRuns_congr hl' (congrArg Control.fl hf'), ← hs, ← hs']
  unfold loadRead
  rw [progLoadEnds, h]
  dsimp only
  rw [if_neg hg, hc]

/-! A start (R166, R167). -/

theorem gRead_seqClear (x : Flint) (n i : Nat) : gRead (seqClear x n) i = 0 := by
  unfold gRead
  split
  · rfl
  · exact Vector.getElem_replicate ..

/-- A region's program stands at its entry with everything cleared. -/
def clearOne (s : State) (f : FlintId) : State := setFlint s f fun x => seqClear x s.now

theorem flintOf_foldl_clearOne_of_notMem {l : List FlintId} (h : g ∉ l) (s : State) : flintOf (l.foldl clearOne s) g = flintOf s g := by
  induction l generalizing s with
  | nil => rfl
  | cons f l ih =>
    obtain ⟨hf, hl⟩ := not_or.1 fun e => h (List.mem_cons.2 e)
    rw [List.foldl_cons, ih hl, clearOne, flintOf_setFlint_ne hf]

theorem flintOf_foldl_clearOne {l : List FlintId} (hd : l.Nodup) (h : g ∈ l) (s : State) :
    flintOf (l.foldl clearOne s) g = seqClear (flintOf s g) s.now := by
  induction l generalizing s with
  | nil => exact absurd h nofun
  | cons f l ih =>
    obtain ⟨hf, hl⟩ := List.nodup_cons.1 hd
    rw [List.foldl_cons]
    by_cases e : g = f
    · rw [e, flintOf_foldl_clearOne_of_notMem hf, clearOne, flintOf_setFlint]
    · rw [ih hl ((List.mem_cons.1 h).resolve_left e), clearOne, flintOf_setFlint_ne e, setFlint_now]

theorem nodup_flintsUp (s : State) : (flintsUp s).Nodup := List.Nodup.filter _ (by decide)

/-- What is left of the program that ran, before both regions are cleared. -/
def startCleared (s : State) : State := clearActions (setLease (semDropFrame s) fun l => { l with mirror := [] })

theorem seqStart_eq (s : State) : seqStart s = (flintsUp (startCleared s)).foldl clearOne (startCleared s) := rfl

/-- In a region in service, a start leaves the program at its entry with everything cleared. -/
theorem flintOf_seqStart (h : flintUp s g = true) : ∃ x n, flintOf (seqStart s) g = seqClear x n := by
  have hup : g ∈ flintsUp (startCleared s) := 
    mem_flintsUp.2 ((flintUp_of_quiet (quiet_setLease (quiet_setLease (quiet_semDropFrame (Quiet.refl s)))) g).trans h)
  rw [seqStart_eq]
  exact ⟨_, _, flintOf_foldl_clearOne (nodup_flintsUp _) hup _⟩

end

/-- Settles O18: a write acts where its region serves; a load's check decides how it ends; a stop goes through both regions, and a start clears both. -/
theorem programLoadsStopsAndStarts : Obligations.ProgramLoadsStopsAndStarts := by
  intro s f q bad
  have serving (h : serves s (flintRegion f) = true) (x : State → State) := reqServes_of_serves h q x
  have hctrl := ctrl_reqMeets s q (flintRegion f)
  have hruns : progRuns (reqMeets s q (flintRegion f)) = progRuns s := progRuns_congr (reqMeets_ctl ..) (congrArg Control.fl hctrl)
  refine ⟨fun h => ⟨fun v => congrArg _ (reqServes_of_not h _), congrArg _ (reqServes_of_not h _), congrArg _ (reqServes_of_not h _)⟩,
    fun h => ⟨fun v h0 h3 h4 => ?load, fun hr => ?runs, fun hr hc => ?empty, fun hr hup hc => ?start, fun hr => ?stop⟩,
    fun h => congrArg _ (progLoadEnds_of_none h bad), fun l hl hf hw => congrArg _ (progLoadEnds_of_flash_waiting hl hf hw bad),
    fun l hl hw => ⟨fun r k hc => ?refused, fun img hc => ?accepted⟩, fun g hup => ?cleared⟩
  case load =>
    refine congrArg Host.Outcome.next ((serving h _).trans ?_)
    rw [progCtrlWrite_of_load h0 h3 h4, progLoad_latched, writeKey_now, writeKey_ctrl, now_reqMeets, hctrl]
    rfl
  case runs => exact congrArg Host.Outcome.next ((serving h _).trans (progRun_of_runs (hruns.trans hr)))
  case empty => exact congrArg Host.Outcome.next ((serving h _).trans (progRun_of_empty fun g => (congrArg Flint.code (flintOf_reqMeets ..)).trans (hc g)))
  case start =>
    refine congrArg Host.Outcome.next ((serving h _).trans (progRun_of_stopped (f := f) (hruns.trans hr) ?_ ?_))
    · rwa [flintUp, serves_reqMeets]
    · rwa [flintOf_reqMeets]
  case stop =>
    obtain ⟨hready, hev⟩ := foldl_stopOne_frame (flintsUp (reqMeets s q (flintRegion f))) (reqMeets s q (flintRegion f))
    have body : exec (.progStop f q) s = .next _ := congrArg Host.Outcome.next ((serving h _).trans ((progStop_eq _).trans
      (takeReady_of_none (hready.trans ((congrArg Control.ready hctrl).trans hr)))))
    refine ⟨_, body, hev.trans (evNet_reqMeets ..), fun g hup hst => ?_⟩
    obtain ⟨h1, h2, h3⟩ := foldl_stopOne_running (s := reqMeets s q (flintRegion f)) (l := flintsUp (reqMeets s q (flintRegion f))) (g := g)
      (mem_flintsUp.2 (by rwa [flintUp, serves_reqMeets])) (by rwa [flintOf_reqMeets])
    refine ⟨h1, h2, fun hd => ?_⟩
    rw [h3 fun n => by rw [semOf_reqMeets]; exact hd n, flintOf_reqMeets]
  case refused => exact congrArg Host.Outcome.next (progLoadEnds_of_error hl hw hc)
  case accepted => exact congrArg Host.Outcome.next ((progLoadEnds_of_ok hl hw hc).trans (if_congr (Bool.and_eq_true ..).to_iff rfl rfl))
  case cleared =>
    obtain ⟨x, n, e⟩ := flintOf_seqStart hup
    dsimp only
    rw [e]
    refine ⟨rfl, rfl, rfl, rfl, rfl, rfl, rfl, gRead_seqClear x n⟩

end Sys2Proof.Machine
end

section
/-! PROOFS. A line start of the holder, and a state in which the statement of the scan fails. -/

namespace Sys2Proof.Machine

/-- A line start of the holder that acts. -/
theorem exec_lineStart_of_holder {s : State} {f : FlintId} (skew : Int) (hobs : serves s 14 = true) (hrun : s.scan.running = true) (hup : flintUp s f = true)
    (hhold : holder s = some f) (hlapsed : (flintOf s f).lapsed = false) (halign : mayAlign s f = true) :
    exec (.lineStart f skew) s = .next (holderLine s f skew) := by
  simp [execLineStart, hobs, hrun, hup, hhold, hlapsed, halign]

/-- Flint-A holds the lease with Flint-B in the shadow run and its last line start missed; the timing is before its first slot, a reason for pewter mode
waits for the frame, and Flint-A stands among the regions that power down once the users of DRAM are OFF, as they are. -/
def stopWaitsForHolder : State :=
  { State.reset with
    regs := [(sltLeaseStatus, 0x40000000), (obsPanelGeom, 0)]
    ctl := Vector.replicate 16 {} |>.set 1 { phase := .on } |>.set 2 { phase := .on } |>.set 14 { phase := .on }
    power := { stopAfter := [1] }
    scan := { running := true }
    obs := { pewterWhy := 1, safeCause := some ⟨0, 0⟩ }
    ctrl := { fl := #v[{}, { shadow := .inShadow }], lease := { lineDue := true } } }

/-- The line start finds the mismatch, and the frame that it starts enters pewter mode, whose power-down then drains the holder: the lease ends, and the
mismatch with it (R417, R481). -/
theorem mismatch_holderLine_stopWaitsForHolder : (holderLine stopWaitsForHolder .a 0).ctrl.lease.mismatch = false := by decide +kernel

open Says

/-- Refutes O46: where a standby's line start was missed, the statement has the self-test round run after the holder's line start; in a state whose list of
deferred power-downs names the holder's region, the same line start drains the holder and ends the round. The model's own PWR defers Bauxite regions only: a
premise that the list names no Flint region is missing. -/
theorem not_scanProceeds : ¬ Obligations.ScanProceeds := by
  intro h
  obtain ⟨-, -, hline, -⟩ := h stopWaitsForHolder (by decide)
  obtain ⟨-, hacts⟩ := hline .a 0 rfl (by decide) (by decide)
  obtain ⟨t, ht, -, hmiss, -⟩ := hacts rfl rfl rfl
  obtain ⟨hround, -⟩ := hmiss rfl rfl rfl rfl rfl
  have hstep := (exec_lineStart_of_holder 0 (by decide) rfl (by decide) (by decide) rfl rfl).symm.trans ht
  injection hstep with hstep
  rw [← hstep, mismatch_holderLine_stopWaitsForHolder] at hround
  exact Bool.false_ne_true hround

end Sys2Proof.Machine
end

section
/-! PROOFS. A blit that copies the pattern: its lines go out in flits, and every byte of DRAM is what its address gives (R201 to R208). -/

namespace Sys2Proof.Machine

section
variable {s t u : State} {v : Nat → Byte} {P Q : Nat → Prop} {a n : Nat}

/-! Bytes of a number. -/

theorem leBytes_mod (x n : Nat) : leBytes (x % 256 ^ n) n = leBytes x n := by
  induction n generalizing x with
  | zero => rfl
  | succ n ih =>
    have hlow : BitVec.ofNat 8 (x % 256 ^ (n + 1)) = BitVec.ofNat 8 x :=
      BitVec.eq_of_toNat_eq (by simp [Nat.mod_mod_of_dvd, Nat.pow_succ])
    rw [leBytes, leBytes, hlow, Nat.pow_succ', Nat.mod_mul_right_div_self, ih]

theorem leNat_leBytes (x n : Nat) : leNat (leBytes x n) = x % 256 ^ n := by
  induction n generalizing x with
  | zero => simp [leBytes, leNat, Nat.mod_one]
  | succ n ih => simp [leBytes, leNat, ih, Nat.pow_succ', Nat.mod_mul]

/-- The byte at address `k` of a surface whose pixels of `n` bytes, each at a multiple of `n`, all hold `x`. -/
def tiledByte (x n k : Nat) : Byte := BitVec.ofNat 8 (x / 256 ^ (k % n))

/-- A pixel's bytes are those that its addresses give. -/
theorem leBytes_eq_map_tiledByte (x : Nat) (h : a % n = 0) : leBytes x n = (List.range' a n).map (tiledByte x n) := by
  refine List.ext_getElem (by simp [length_leBytes]) fun i h1 h2 => ?_
  have hi : i < n := by rwa [length_leBytes] at h1
  simp [getElem_leBytes, tiledByte, Nat.add_mod, h, Nat.mod_eq_of_lt hi]

/-! Runs of addresses. -/

theorem take_range' (a n c : Nat) : (List.range' a n).take c = List.range' a (min c n) :=
  List.ext_getElem (by simp) fun i h1 h2 => by simp

theorem flatMap_range' (a m n : Nat) : ((List.range n).flatMap fun i => List.range' (a + i * m) m) = List.range' a (n * m) := by
  induction n with
  | zero => simp
  | succ n ih => rw [List.range_succ, List.flatMap_append, ih, List.flatMap_singleton, List.range'_append_1, Nat.succ_mul]

/-- An address of a run of `n` pixels of `m` bytes is an address of one of them. -/
theorem exists_pixel_iff {m : Nat} (hm : 0 < m) (a n k : Nat) : (∃ i < n, a + i * m ≤ k ∧ k < a + i * m + m) ↔ a ≤ k ∧ k < a + n * m := by
  constructor
  · rintro ⟨i, hi, h1, h2⟩
    have : (i + 1) * m ≤ n * m := Nat.mul_le_mul_right m hi
    rw [Nat.succ_mul] at this
    omega
  · rintro ⟨h1, h2⟩
    have hdiv := Nat.div_add_mod' (k - a) m
    have hmod := Nat.mod_lt (k - a) hm
    exact ⟨(k - a) / m, (Nat.div_lt_iff_lt_mul hm).2 (by omega), by omega, by omega⟩

/-! Bytes of DRAM that take the values their addresses give. -/

/-- `t` is `s` but for DRAM: its bytes at the addresses of `P` are those of `v`, every other byte is as before, and no word is newly poisoned. -/
def Filled (v : Nat → Byte) (P : Nat → Prop) (s t : State) : Prop :=
  (∃ m p f, (∀ w ∈ p, w ∈ s.poison) ∧ t = { s with mem := m, poison := p, failed := f }) ∧
  ∀ k, (P k → readByte t k = v k) ∧ (¬P k → readByte t k = readByte s k)

theorem Filled.refl (h : ∀ k, ¬P k) : Filled v P s s := ⟨⟨_, _, _, fun _ hw => hw, rfl⟩, fun k => ⟨fun hk => absurd hk (h k), fun _ => rfl⟩⟩

theorem Filled.trans (h₁ : Filled v P s t) (h₂ : Filled v Q t u) : Filled v (fun k => P k ∨ Q k) s u := by
  obtain ⟨⟨m₁, p₁, f₁, hp₁, rfl⟩, hb₁⟩ := h₁
  obtain ⟨⟨m₂, p₂, f₂, hp₂, rfl⟩, hb₂⟩ := h₂
  refine ⟨⟨m₂, p₂, f₂, fun w hw => hp₁ w (hp₂ w hw), rfl⟩, fun k => ⟨fun hk => ?_, fun hk => ?_⟩⟩
  · by_cases hq : Q k
    · exact (hb₂ k).1 hq
    · exact ((hb₂ k).2 hq).trans ((hb₁ k).1 (hk.resolve_right hq))
  · exact ((hb₂ k).2 fun hq => hk (.inr hq)).trans ((hb₁ k).2 fun hp => hk (.inl hp))

theorem Filled.congr (h : Filled v P s t) (hpq : ∀ k, P k ↔ Q k) : Filled v Q s t := by rwa [← funext fun k => propext (hpq k)]

theorem Filled.readReg (h : Filled v P s t) (k : Nat) : Machine.readReg t k = Machine.readReg s k := by
  obtain ⟨⟨m, p, f, -, rfl⟩, -⟩ := h
  rfl

/-- `n` bytes of DRAM from address `a` answer, and no word of theirs is poisoned. -/
def Sound (s : State) (a n : Nat) : Prop := dramStatus s a n = 0 ∧ anyPoison s a n = false

theorem sound_iff : Sound s a n ↔ a + n ≤ dramTop s ∧ dramUp s = true ∧ ∀ w ∈ s.poison, a + n ≤ 8 * w ∨ 8 * w + 8 ≤ a := by
  have hs : dramStatus s a n = 0 ↔ a + n ≤ dramTop s ∧ dramUp s = true := by
    unfold dramStatus
    split
    · simp; omega
    · cases dramUp s <;> simp; omega
  have hp : anyPoison s a n = false ↔ ∀ w ∈ s.poison, a + n ≤ 8 * w ∨ 8 * w + 8 ≤ a := by
    simp only [anyPoison, wordIn, List.any_eq_false, Bool.and_eq_true, decide_eq_true_eq]
    exact forall₂_congr fun w _ => by omega
  rw [Sound, hs, hp, and_assoc]

theorem Sound.mono {a' n' : Nat} (h : Sound s a n) (h1 : a ≤ a') (h2 : a' + n' ≤ a + n) : Sound s a' n' := by
  obtain ⟨htop, hup, hp⟩ := sound_iff.1 h
  exact sound_iff.2 ⟨by omega, hup, fun w hw => by have := hp w hw; omega⟩

theorem Sound.filled (h : Sound s a n) (hf : Filled v P s t) : Sound t a n := by
  obtain ⟨⟨m, p, f, hp, rfl⟩, -⟩ := hf
  obtain ⟨htop, hup, hq⟩ := sound_iff.1 h
  exact sound_iff.2 ⟨htop, hup, fun w hw => hq w (hp w hw)⟩

theorem dramStore_of_sound {bs : List Byte} (h : Sound s a bs.length) : dramStore s a bs = (0, writeBytes s a bs) := by
  obtain ⟨hs, hp⟩ := h
  have hpart : partPoison s a bs.length = false := by
    simp only [anyPoison, partPoison, List.any_eq_false] at hp ⊢
    exact fun w hw => by simp [hp w hw]
  simp [dramStore, writeStatus, hs, hpart]

theorem filled_writeBytes (v : Nat → Byte) (s : State) (a n : Nat) :
    Filled v (fun k => a ≤ k ∧ k < a + n) s (writeBytes s a ((List.range' a n).map v)) := by
  refine ⟨⟨_, _, _, fun w hw => (List.mem_filter.1 hw).1, rfl⟩, fun k => ⟨fun hk => ?_, fun hk => ?_⟩⟩
  · rw [readByte_writeBytes, dif_pos ⟨hk.1, by simp; omega⟩]
    simp [Nat.add_sub_of_le hk.1]
  · rw [readByte_writeBytes, dif_neg (by simp; omega)]

/-- A run of bytes over sound DRAM is written flit by flit, and no write ends in an error (R202). -/
theorem putRuns_flitRuns (v : Nat → Byte) {fuel : Nat} (hfuel : a % 32 + n ≤ 32 * fuel) (h : 0 < n → Sound s a n) :
    ∃ t, putRuns s (flitRuns fuel a ((List.range' a n).map v)) = (t, 0) ∧ Filled v (fun k => a ≤ k ∧ k < a + n) s t := by
  induction fuel generalizing s a n with
  | zero => exact ⟨s, rfl, .refl fun k hk => by omega⟩
  | succ fuel ih =>
    rcases Nat.eq_zero_or_pos n with rfl | hn
    · exact ⟨s, rfl, .refl fun k hk => by omega⟩
    · generalize hc : 32 - a % 32 = c
      have hfirst : Sound s a ((List.range' a (min c n)).map v).length := (h hn).mono le_rfl (by simp)
      have hput := filled_writeBytes v s a (min c n)
      obtain ⟨t, ht, hfill⟩ := ih (a := a + c) (n := n - c) (by omega) fun _ => ((h hn).filled hput).mono (by omega) (by omega)
      have hne : ((List.range' a n).map v).isEmpty = false := by simp; omega
      refine ⟨t, ?_, (hput.trans hfill).congr fun k => by omega⟩
      rw [flitRuns, hne, if_neg Bool.false_ne_true, hc, ← List.map_take, take_range', ← List.map_drop, List.drop_range', Nat.mul_one, putRuns,
        dramStore_of_sound hfirst]
      exact ht

end

/-! A blit that copies the pattern without a mask (R203 to R205, R217). -/

section
variable {s : State} {b : Blit} {j : Nat}

theorem ropWord_pattern (p n : Nat) : ropWord 0xF0 p 0 0 n = p % 2 ^ n := by
  induction n with
  | zero => simp [ropWord, Nat.mod_one]
  | succ n ih =>
    have hbit (c : Bool) : bitAt 0xF0 (4 * b2n c + 2 * b2n false + b2n false) = c := by cases c <;> rfl
    have hzero : bitAt 0 n = false := by simp [bitAt]
    have hdigit : b2n (bitAt p n) = p / 2 ^ n % 2 := by
      rcases Nat.mod_two_eq_zero_or_one (p / 2 ^ n) with h | h <;> simp [bitAt, b2n, h]
    rw [ropWord, hzero, hbit, ih, hdigit, Nat.mod_pow_succ]
    ring

/-- Address of the first pixel of line `j` of the destination. -/
def dstLine (b : Blit) (j : Nat) : Nat := bltAddr (bltBpp b) b.dst b.dstPitch b.dstPos 0 j

theorem bltAddr_dst (b : Blit) (i j : Nat) : bltAddr (bltBpp b) b.dst b.dstPitch b.dstPos i j = dstLine b j + i * bltBpp b := by
  simp only [dstLine, bltAddr]; ring

theorem bltBpp_pos (b : Blit) : 0 < bltBpp b := Nat.two_pow_pos _

theorem dstLine_mod (h : bltAligned (bltBpp b) b.dst b.dstPitch b.dstPos b.size = true) (j : Nat) : dstLine b j % bltBpp b = 0 := by
  simp only [bltAligned, Bool.and_eq_true, beq_iff_eq] at h
  obtain ⟨⟨hbase, hpitch⟩, -⟩ := h
  refine Nat.mod_eq_zero_of_dvd ?_
  rw [dstLine, bltAddr]
  exact ((Nat.dvd_of_mod_eq_zero hbase).add ((Nat.dvd_of_mod_eq_zero hpitch).mul_left _)).add (Dvd.intro_left _ rfl)

/-- No line of the destination reaches beyond the rectangle's range (R201). -/
theorem dstLine_le_range (hj : j < b.size.2) : dstLine b j + b.size.1 * bltBpp b ≤ (bltRange (bltBpp b) b.dst b.dstPitch b.dstPos b.size).2 := by
  have hrow : (b.dstPos.2 + j) * b.dstPitch ≤ (b.dstPos.2 + b.size.2 - 1) * b.dstPitch := Nat.mul_le_mul_right _ (by omega)
  have hcol : (b.dstPos.1 + b.size.1) * bltBpp b = (b.dstPos.1 + 0) * bltBpp b + b.size.1 * bltBpp b := by ring
  rw [dstLine, bltAddr, bltRange, hcol]
  omega

/-- The byte that FG gives an address. -/
def fgByte (b : Blit) : Nat → Byte := tiledByte b.fg.toNat (bltBpp b)

/-- An address on a line of the destination's rectangle. -/
def InRectangle (b : Blit) (k : Nat) : Prop := ∃ j < b.size.2, dstLine b j ≤ k ∧ k < dstLine b j + b.size.1 * bltBpp b

section
variable (hrop : bltRop b = 0xF0)
include hrop

theorem bltReadsSrc_of_pattern : bltReadsSrc b = false := by rw [bltReadsSrc, hrop]; rfl

theorem bltReadsDst_of_pattern : bltReadsDst b = false := by rw [bltReadsDst, hrop]; rfl

theorem bltReadFails_of_pattern (s : State) (i j : Nat) : bltReadFails s b i j = none := by
  simp [bltReadFails, bltReadsSrc_of_pattern hrop, bltReadsDst_of_pattern hrop]

theorem bltGood_of_pattern (s : State) (j : Nat) (back : Bool) : bltGood s b j back = (b.size.1, none) := by
  rw [bltGood, List.find?_eq_none.2 (by simp [bltReadFails_of_pattern hrop])]

theorem bltLines_cons_of_pattern {t : State} {l : List Nat} {left : Nat} (hw : 0 < b.size.1) (hleft : b.size.1 ≤ left)
    (ht : bltLine s b j b.size.1 false = (t, 0)) : bltLines b false (j :: l) left s = bltLines b false l (left - b.size.1) t := by
  simp [bltLines, bltGood_of_pattern hrop, Nat.min_eq_left hleft, ht]
  omega

variable (hmask : flag b.ctrl 5 = false) (halign : bltAligned (bltBpp b) b.dst b.dstPitch b.dstPos b.size = true)
include hmask halign

/-- The pixels of a line are FG's bytes at their addresses. -/
theorem bltPixels_of_pattern (s : State) (j n : Nat) :
    bltPixels s b j n false = (List.range n).map fun i =>
      (dstLine b j + i * bltBpp b, (List.range' (dstLine b j + i * bltBpp b) (bltBpp b)).map (fgByte b)) := by
  simp only [bltPixels, bltReadsSrc_of_pattern hrop, bltReadsDst_of_pattern hrop, hrop, ropWord_pattern, bltPattern, hmask, Bool.false_and, Bool.false_eq_true,
    if_false, Nat.mod_mod, bltAddr_dst]
  refine List.map_congr_left fun i _ => Prod.ext rfl ?_
  have hpx : (dstLine b j + i * bltBpp b) % bltBpp b = 0 := by rw [Nat.add_mul_mod_self_right, dstLine_mod halign]
  rw [Nat.pow_mul, leBytes_mod, leBytes_eq_map_tiledByte _ hpx, fgByte]

/-- A line over sound DRAM is written whole. -/
theorem bltLine_of_pattern (hw : 0 < b.size.1) (h : Sound s (dstLine b j) (b.size.1 * bltBpp b)) :
    ∃ t, bltLine s b j b.size.1 false = (t, 0) ∧ Filled (fgByte b) (fun k => dstLine b j ≤ k ∧ k < dstLine b j + b.size.1 * bltBpp b) s t := by
  have hbytes : ((bltPixels s b j b.size.1 false).flatMap fun e => e.2) = (List.range' (dstLine b j) (b.size.1 * bltBpp b)).map (fgByte b) := by
    rw [bltPixels_of_pattern hrop hmask halign, List.flatMap_map, ← flatMap_range', List.map_flatMap]
  have hhead : ((bltPixels s b j b.size.1 false).map fun e => e.1).headD 0 = dstLine b j := by
    obtain ⟨w, hw⟩ := Nat.exists_eq_succ_of_ne_zero hw.ne'
    simp [bltPixels_of_pattern hrop hmask halign, hw, List.range_succ_eq_map]
  have hline : bltLine s b j b.size.1 false = putRuns s (flitRuns (((bltPixels s b j b.size.1 false).flatMap fun e => e.2).length / 32 + 2)
      (((bltPixels s b j b.size.1 false).map fun e => e.1).headD 0) ((bltPixels s b j b.size.1 false).flatMap fun e => e.2)) := rfl
  rw [hline, hhead, hbytes]
  exact putRuns_flitRuns _ (by simp; omega) fun _ => h

/-- Lines over sound DRAM are all written. -/
theorem bltLines_of_pattern (hw : 0 < b.size.1) {l : List Nat} (h : ∀ j ∈ l, Sound s (dstLine b j) (b.size.1 * bltBpp b)) :
    ∃ t, bltLines b false l (l.length * b.size.1) s = (t, 0, 0) ∧
      Filled (fgByte b) (fun k => ∃ j ∈ l, dstLine b j ≤ k ∧ k < dstLine b j + b.size.1 * bltBpp b) s t := by
  induction l generalizing s with
  | nil => exact ⟨s, rfl, .refl (by simp)⟩
  | cons j l ih =>
    obtain ⟨t, ht, hfirst⟩ := bltLine_of_pattern hrop hmask halign hw (h j List.mem_cons_self)
    obtain ⟨u, hu, hrest⟩ := ih fun i hi => (h i (List.mem_cons_of_mem _ hi)).filled hfirst
    refine ⟨u, ?_, (hfirst.trans hrest).congr fun k => by simp⟩
    have hleft : (j :: l).length * b.size.1 = l.length * b.size.1 + b.size.1 := by rw [List.length_cons, Nat.succ_mul]
    rw [bltLines_cons_of_pattern hrop hw (by omega) ht, hleft, Nat.add_sub_cancel, hu]

/-- The blit over sound DRAM is carried out whole. -/
theorem bltRun_of_pattern (hw : 0 < b.size.1) (h : ∀ j < b.size.2, Sound s (dstLine b j) (b.size.1 * bltBpp b)) :
    ∃ t, bltRun s b (b.size.1 * b.size.2) = (t, 0, 0) ∧ Filled (fgByte b) (InRectangle b) s t := by
  obtain ⟨t, ht, hfill⟩ := bltLines_of_pattern hrop hmask halign hw (l := List.range b.size.2) fun j hj => h j (List.mem_range.1 hj)
  refine ⟨t, ?_, hfill.congr fun k => by simp [InRectangle]⟩
  rw [List.length_range, Nat.mul_comm] at ht
  simpa [bltRun, bltReadsSrc_of_pattern hrop] using ht

end

/-- A pixel of a filled rectangle reads as FG in its width. -/
theorem Filled.readLe_pixel {t : State} (h : Filled (fgByte b) (InRectangle b) s t)
    (halign : bltAligned (bltBpp b) b.dst b.dstPitch b.dstPos b.size = true) {i j : Nat} (hi : i < b.size.1) (hj : j < b.size.2) :
    readLe t (dstLine b j + i * bltBpp b) (bltBpp b) = b.fg.toNat % 2 ^ (8 * bltBpp b) := by
  have hpx : (dstLine b j + i * bltBpp b) % bltBpp b = 0 := by rw [Nat.add_mul_mod_self_right, dstLine_mod halign]
  have hbytes : readBytes t (dstLine b j + i * bltBpp b) (bltBpp b) = leBytes b.fg.toNat (bltBpp b) := by
    rw [leBytes_eq_map_tiledByte _ hpx, List.range'_eq_map_range, List.map_map, readBytes]
    refine List.map_congr_left fun k hk => (h.2 _).1 ⟨j, hj, (exists_pixel_iff (bltBpp_pos b) ..).1 ⟨i, hi, by omega, ?_⟩⟩
    exact Nat.add_lt_add_left (List.mem_range.1 hk) _
  rw [readLe, hbytes, leNat_leBytes, Nat.pow_mul]

theorem Filled.readByte_outside {t : State} (h : Filled (fgByte b) (InRectangle b) s t) {a : Nat}
    (ha : ∀ i j, i < b.size.1 → j < b.size.2 → a < dstLine b j + i * bltBpp b ∨ dstLine b j + i * bltBpp b + bltBpp b ≤ a) : readByte t a = readByte s a := by
  refine (h.2 a).2 fun ⟨j, hj, hline⟩ => ?_
  obtain ⟨i, hi, h1, h2⟩ := (exists_pixel_iff (bltBpp_pos b) ..).2 hline
  exact (ha i j hi hj).elim (Nat.not_lt.2 h1) (Nat.not_le.2 h2)

end

end Sys2Proof.Machine
end

section
/-! PROOFS. Mica's registers: updates, marks, LUT writes and the blitter's commands (R181, R188, R190, R198, R206 to R220). -/

namespace Sys2Proof.Machine

section
variable {s : State} {q : Requester} {v : Word}

/-! What an access to a window leaves alone. -/

theorem mica_reqMeets (s : State) (q : Requester) (r : Nat) : (reqMeets s q r).mica = s.mica :=
  (congrArg State.mica (reqMeets_slate_only s q r) :)

theorem mem_reqMeets (s : State) (q : Requester) (r : Nat) : (reqMeets s q r).mem = s.mem :=
  (congrArg State.mem (reqMeets_slate_only s q r) :)

theorem micaStaged_reqMeets (s : State) (q : Requester) (r : Nat) : micaStaged (reqMeets s q r) = micaStaged s := by
  simp only [micaStaged, readReg_reqMeets]

theorem admission_reqMeets (s : State) (q : Requester) (r : Nat) (m : MicaSet) : admission (reqMeets s q r) m = admission s m := by
  obtain ⟨x, hx⟩ := reqMeets_eq s q r
  rw [hx]; rfl

/-! Updates and marks (R188, R190, R198). -/

theorem getB_micaStatus_pending (s : State) : getB (micaStatus s) mcaUpdateStatus 24 = s.mica.pending.isSome := by
  have hr : b2n s.mica.running ≤ 1 := by cases s.mica.running <;> decide
  have hp : b2n s.mica.pending.isSome = if s.mica.pending.isSome then 1 else 0 := rfl
  simp only [getB, micaStatus, readReg_setReg_self, flag, fld, bitsOf, BitVec.toNat_ofNat, hp]
  cases s.mica.pending.isSome <;> simp <;> omega

theorem getF_micaStatus_marks (s : State) : getF (micaStatus s) mcaUpdateStatus 0 8 = s.mica.marks % 256 := by
  simp only [getF, micaStatus, readReg_setReg_self, fld, bitsOf, BitVec.toNat_ofNat]
  omega

/-- Events of Mica leave for the collector and change nothing else. -/
theorem foldl_mcaEvent {α : Type} (cause : Nat) (block arg : α → Nat) (l : List α) (s : State) :
    ∃ e, l.foldl (fun s x => mcaEvent s cause (block x) (arg x)) s = { s with evNet := e } := by
  refine List.foldlRecOn (motive := fun t : State => ∃ e : List Event, t = { s with evNet := e }) l _ ⟨s.evNet, rfl⟩ fun t ht x _ => ?_
  obtain ⟨e, rfl⟩ := ht
  exact ⟨_, rfl⟩

/-- The staged registers as an update that has been requested, with the planes refused. -/
def requested (s : State) : MicaSet := { micaStaged s with refused := (admission s (micaStaged s)).map fun e => e.1 }

/-- An update is counted where it replaces one. -/
def replacedCounted (s : State) : State := if s.mica.pending.isSome then bump s mcaUpdatesReplaced else s

/-- The requested update is pending. -/
def requestPending (s : State) : State := setMica (replacedCounted s) fun x => { x with
  pending := some (requested s), refusedBits := sumNat ((admission s (micaStaged s)).map fun e => 2 ^ e.1) }

theorem updateRequest_eq (s : State) : ∃ e, updateRequest s = micaStatus { requestPending s with evNet := e } := by
  obtain ⟨e, he⟩ := foldl_mcaEvent 0x041 (fun e : Nat × Nat => e.1) (fun e => e.2 + 256 * (planeStrips (planeOf (micaStaged s) e.1) % 8))
    (admission s (micaStaged s)) (requestPending s)
  exact ⟨e, congrArg micaStatus he⟩

theorem mica_replacedCounted (s : State) : (replacedCounted s).mica = s.mica := by rw [replacedCounted]; split <;> rfl

theorem mem_replacedCounted (s : State) : (replacedCounted s).mem = s.mem := by rw [replacedCounted]; split <;> rfl

theorem mica_updateRequest (s : State) : (updateRequest s).mica = { s.mica with
    pending := some (requested s), refusedBits := sumNat ((admission s (micaStaged s)).map fun e => 2 ^ e.1) } := by
  obtain ⟨e, h⟩ := updateRequest_eq s
  have hpending : (updateRequest s).mica = (requestPending s).mica := by rw [h, micaStatus, setReg_mica]
  rw [hpending, requestPending, setMica_mica, mica_replacedCounted]

theorem readReg_replacedCounted (s : State) : readReg (replacedCounted s) mcaUpdatesReplaced =
    if s.mica.pending.isSome then satAdd (readReg s mcaUpdatesReplaced) 1 else readReg s mcaUpdatesReplaced := by
  rw [replacedCounted]; split
  · exact readReg_bump ..
  · rfl

theorem updateRequest_effect (s : State) :
    (updateRequest s).mica.pending = some (requested s) ∧ (updateRequest s).mica.live = s.mica.live ∧ (updateRequest s).mica.front = s.mica.front ∧
    getB (updateRequest s) mcaUpdateStatus 24 = true ∧ (updateRequest s).mem = s.mem ∧
    readReg (updateRequest s) mcaUpdatesReplaced = if s.mica.pending.isSome then satAdd (readReg s mcaUpdatesReplaced) 1 else readReg s mcaUpdatesReplaced := by
  have hmica := mica_updateRequest s
  obtain ⟨e, h⟩ := updateRequest_eq s
  refine ⟨by rw [hmica], by rw [hmica], by rw [hmica], ?_, ?_, ?_⟩
  · have hstatus := getB_micaStatus_pending { requestPending s with evNet := e }
    rw [← h] at hstatus
    exact hstatus
  · rw [h, micaStatus, setReg_mem]
    exact mem_replacedCounted s
  · rw [h, micaStatus, readReg_setReg_ne _ _ (by decide)]
    exact readReg_replacedCounted s

/-! LUT writes (R181). -/

theorem lutWrite_of_entry {key o : Nat} (ho : key % 0x100000 = o) (h : ¬(o < 0x40000 ∨ (0x70000 ≤ o ∧ o < 0x80000) ∨ 0x80000 + 4 * 24582 ≤ o ∨ o % 4 ≠ 0)) :
    lutWrite s key v = if lutInUse s o then bump s mcaLutBlocked else writeKey s key v := by
  subst ho; exact if_neg h

theorem lutInUse_prelut {n b i : Nat} (hn : n < 8) (hb : b < 2) (hi : i < 3072) :
    lutInUse s (0x40000 + 4 * (6144 * n + 3072 * b + i)) = (s.mica.live :: s.mica.pending.toList).any fun m => (planeOf m n).prelut == b + 1 := by
  have hplane : (6144 * n + 3072 * b + i) / 6144 = n := by omega
  have hbank : (6144 * n + 3072 * b + i) / 3072 % 2 = b := by omega
  rw [lutInUse, if_pos (by omega), Nat.add_sub_cancel_left, Nat.mul_div_cancel_left _ (by decide)]
  dsimp only
  rw [hplane, hbank, selectingSets]

theorem lutInUse_postlut {b i : Nat} (hi : i < 12291) :
    lutInUse s (0x80000 + 4 * (12291 * b + i)) = (s.mica.live :: s.mica.pending.toList).any fun m => fld m.compose 0 2 == b + 1 := by
  have hbank : (12291 * b + i) / 12291 = b := by omega
  rw [lutInUse, if_neg (by omega), Nat.add_sub_cancel_left, Nat.mul_div_cancel_left _ (by decide)]
  dsimp only
  rw [hbank, selectingSets]

theorem execLutWrite_of_serves {a : BitVec 24} (hs : serves s 13 = true) (h : a.toNat / 0x100000 = 13) :
    exec (.lutWrite q a v) s = .next (lutWrite (reqMeets s q 13) a.toNat v) := by
  rw [exec_lutWrite, execLutWrite, if_pos h, reqServes_of_serves hs]

/-! The blitter's commands (R206, R210, R212, R219). -/

theorem flag_or (v w : Word) (i : Nat) : flag (v ||| w) i = (flag v i || flag w i) := by
  have bit (x : Word) : flag x i = x.getLsbD i := bitAt_toNat x i
  rw [bit, bit, bit, BitVec.getLsbD_or]

/-- A write of START without ABORT is BLIT_START. -/
theorem bltCtrlWrite_start (h : flag v 30 = false) : bltCtrlWrite s (v ||| 0x80000000) = blitStart s (v ||| 0x80000000) := by
  have hstart : flag (v ||| 0x80000000) 31 = true := by rw [flag_or]; exact Bool.or_true _
  have habort : flag (v ||| 0x80000000) 30 = false := by rw [flag_or, h]; rfl
  rw [bltCtrlWrite, if_pos hstart, habort]; rfl

theorem mica_none_of_bltRefusal {b : Blit} (h : bltRefusal s b = 0) : s.mica.blit = none := by
  by_contra hne
  rw [bltRefusal, if_pos (Option.isSome_iff_ne_none.2 hne)] at h
  cases h

theorem bltRefusal_of_running {b : Blit} (h : s.mica.blit.isSome = true) : bltRefusal s b = 1 := if_pos h

theorem bltRefusal_ne_one {b : Blit} (h : s.mica.blit = none) : bltRefusal s b ≠ 1 := by
  simp only [bltRefusal, h, Option.isSome_none, Bool.false_eq_true, if_false]
  split_ifs <;> decide

theorem bltStatus_refused (s : State) (why : Nat) : bltStatus s false 4 why 0 = setReg s mcaBltStatus (BitVec.ofNat 32 (4 * 2 ^ 24 + why % 256 * 65536)) := by
  simp [bltStatus, b2n]

theorem readReg_bltStatus_busy (s : State) : readReg (bltStatus s true 0 0 0) mcaBltStatus = 0x80000000 := by
  rw [bltStatus, readReg_setReg_self]
  decide

theorem getF_bltStatus_result (s : State) {result line : Nat} (h : result < 128) (detail : Nat) : getF (bltStatus s false result detail line) mcaBltStatus 24 7 = result := by
  simp only [getF, bltStatus, readReg_setReg_self, fld, bitsOf, BitVec.toNat_ofNat, b2n, Bool.false_eq_true, if_false]
  omega

/-- BLIT_START finds no reason to refuse: with the other fields set, in `u`, the blit that they latch runs. -/
theorem blitStart_of_accepted {u : State} (hu : writeKey s mcaBltCtrl v = u) (h : bltRefusal u (bltLatch u) = 0) :
    blitStart s v = bltStatus (setMica u fun m => { m with blit := some (bltLatch u) }) true 0 0 0 := by
  subst hu; exact if_pos h

theorem blitStart_of_running (h : s.mica.blit.isSome = true) : blitStart s v = raise (writeKey s mcaBltCtrl v) 1 13 0x051 8 0xFF 1 := by
  rw [blitStart, bltRefusal_of_running (by exact h)]
  rfl

theorem blitStart_of_refused {u : State} (hu : writeKey s mcaBltCtrl v = u) (hb : s.mica.blit = none) (h : bltRefusal u (bltLatch u) ≠ 0) : blitStart s v =
    raise (setReg u mcaBltStatus (BitVec.ofNat 32 (4 * 2 ^ 24 + bltRefusal u (bltLatch u) % 256 * 65536))) 1 13 0x051 8 0xFF (bltRefusal u (bltLatch u)) := by
  subst hu
  have hne := bltRefusal_ne_one (s := writeKey s mcaBltCtrl v) (b := bltLatch (writeKey s mcaBltCtrl v)) hb
  simp only [blitStart, if_neg h, if_neg hne, bltStatus_refused, mcaEvent]

theorem exec_blitStart_of_serves (hs : serves s 13 = true) (hv : flag v 30 = false) :
    exec (.blitStart q v) s = .next (blitStart (reqMeets s q 13) (v ||| 0x80000000)) := by
  rw [exec_blitStart, execBlitStart, reqServes_of_serves hs, bltCtrlWrite_start hv]

/-! A blit's end (R211, R212). -/

theorem blitDone_of_idle (h : s.mica.blit = none) (done : Nat) : blitDone s done = s := by rw [blitDone, h]

/-- The end of a blit that ran through. -/
theorem blitDone_of_done {b : Blit} {t : State} (h : s.mica.blit = some b) (ha : b.aborting = false) (hrun : bltRun s b (b.size.1 * b.size.2) = (t, 0, 0)) (done : Nat) :
    blitDone s done = bltEnd t 1 0 0 := by
  simp [blitDone, h, ha, hrun]

/-- No pixel of the destination touches a poisoned word, so no line does. -/
theorem sound_dstLine {b : Blit} {j : Nat} (hw : 0 < b.size.1) (hup : dramUp s = true) (htop : (bltRange (bltBpp b) b.dst b.dstPitch b.dstPos b.size).2 ≤ dramTop s)
    (hj : j < b.size.2) (hp : ∀ w ∈ s.poison, ∀ i < b.size.1, dstLine b j + i * bltBpp b + bltBpp b ≤ 8 * w ∨ 8 * w + 8 ≤ dstLine b j + i * bltBpp b) :
    Sound s (dstLine b j) (b.size.1 * bltBpp b) := by
  refine sound_iff.2 ⟨(dstLine_le_range hj).trans htop, hup, fun w hpw => ?_⟩
  by_contra hmeets
  have hlen := Nat.mul_pos hw (bltBpp_pos b)
  obtain ⟨i, hi, h1, h2⟩ := (exists_pixel_iff (bltBpp_pos b) (dstLine b j) b.size.1 (max (dstLine b j) (8 * w))).2 (by omega)
  have := hp w hpw i hi
  omega

/-- The pattern blit over DRAM in service, its pixels apart from poisoned words, ends DONE with its lines filled. -/
theorem blitDone_of_pattern {b : Blit} (hb : s.mica.blit = some b) (hab : b.aborting = false) (hrop : bltRop b = 0xF0) (hmask : flag b.ctrl 5 = false)
    (hup : dramUp s = true) (halign : bltAligned (bltBpp b) b.dst b.dstPitch b.dstPos b.size = true)
    (htop : (bltRange (bltBpp b) b.dst b.dstPitch b.dstPos b.size).2 ≤ dramTop s) (hw : 0 < b.size.1)
    (hp : ∀ w ∈ s.poison, ∀ i j, i < b.size.1 → j < b.size.2 → dstLine b j + i * bltBpp b + bltBpp b ≤ 8 * w ∨ 8 * w + 8 ≤ dstLine b j + i * bltBpp b) (done : Nat) :
    ∃ t, blitDone s done = bltEnd t 1 0 0 ∧ Filled (fgByte b) (InRectangle b) s t := by
  obtain ⟨t, hrun, hfill⟩ := bltRun_of_pattern hrop hmask halign hw fun j hj => sound_dstLine hw hup htop hj fun w hpw i hi => hp w hpw i j hi hj
  exact ⟨t, blitDone_of_done hb hab hrun done, hfill⟩

theorem getF_bltEnd_result (s : State) {result : Nat} (h : result < 128) (detail line : Nat) : getF (bltEnd s result detail line) mcaBltStatus 24 7 = result := by
  rw [bltEnd, mcaEvent, getF, readReg_raise, readReg_bump_ne _ _ (by decide)]
  exact getF_bltStatus_result _ h detail

theorem readReg_bltEnd_count (s : State) (result detail line : Nat) : readReg (bltEnd s result detail line) mcaBltCount = satAdd (readReg s mcaBltCount) 1 := by
  rw [bltEnd, mcaEvent, readReg_raise, readReg_bump, bltStatus, readReg_setReg_ne _ _ (by decide)]
  rfl

end

/-! The statement. -/

/-- Settles O45: each access is its operation after the access has entered its clock, and a pattern blit's lines are runs of sound DRAM whose every byte is
the one that FG gives its address. -/
theorem micaUpdatesAndBlits : Obligations.MicaUpdatesAndBlits := by
  unfold Obligations.MicaUpdatesAndBlits
  intro s hs
  have access (q : Requester) (f : State → State) : Host.Outcome.next (reqServes s q 13 f) = (.next (f (reqMeets s q 13)) : Out) :=
    congrArg _ (reqServes_of_serves hs q f)
  refine ⟨fun q => ?update, fun q v => ?mark, fun q a v => ⟨fun n b i hn hb hi ha => ?prelut, fun b i hb hi ha => ?postlut⟩,
    fun q v hv => ⟨fun h => ?accepted, fun h => ?running, fun h hne => ?refused⟩, fun q => ?abort, fun done h => ?idle,
    fun b done hb hab hrop hmask hup halign htop hw _ => ?done⟩
  case update =>
    have h := updateRequest_effect (reqMeets s q 13)
    rw [requested, micaStaged_reqMeets, admission_reqMeets, mica_reqMeets, mem_reqMeets, readReg_reqMeets] at h
    exact ⟨_, access q _, h⟩
  case mark =>
    refine ⟨_, access q _, ?_, ?_⟩
    · rw [← mica_reqMeets s q 13]; rfl
    · rw [← mica_reqMeets s q 13]; exact getF_micaStatus_marks _
  case prelut =>
    have ho : a.toNat % 0x100000 = 0x40000 + 4 * (6144 * n + 3072 * b + i) := by omega
    rw [execLutWrite_of_serves hs (by omega), lutWrite_of_entry ho (by omega), lutInUse_prelut hn hb hi, mica_reqMeets]
  case postlut =>
    have ho : a.toNat % 0x100000 = 0x80000 + 4 * (12291 * b + i) := by omega
    rw [execLutWrite_of_serves hs (by omega), lutWrite_of_entry ho (by omega), lutInUse_postlut hi, mica_reqMeets]
  case accepted =>
    have hnone := mica_none_of_bltRefusal h
    rw [writeKey_mica, mica_reqMeets] at hnone
    refine ⟨hnone, _, (exec_blitStart_of_serves hs hv).trans (congrArg _ (blitStart_of_accepted rfl h)), ?_, readReg_bltStatus_busy _, ?_, ?_⟩
    · rw [bltStatus, setReg_mica, setMica_mica, writeKey_mica, mica_reqMeets]
    · rw [bltStatus, setReg_mem, setMica_mem, writeKey_mem, mem_reqMeets]
    · rw [bltStatus, setReg_evNet, setMica_evNet, writeKey_evNet, evNet_reqMeets]
  case running => rw [exec_blitStart_of_serves hs hv, blitStart_of_running (by rwa [mica_reqMeets])]
  case refused => rw [exec_blitStart_of_serves hs hv, blitStart_of_refused rfl (by rwa [mica_reqMeets]) hne]
  case abort =>
    rw [← mica_reqMeets s q 13]; exact access q _
  case idle => exact congrArg _ ((whenServes_of_serves hs fun s => blitDone s done).trans (blitDone_of_idle h done))
  case done =>
    intro px hpoison
    have hpx (i j : Nat) : px i j = dstLine b j + i * bltBpp b := bltAddr_dst b i j
    simp only [hpx] at hpoison ⊢
    obtain ⟨t, hdone, hfill⟩ := blitDone_of_pattern hb hab hrop hmask hup halign htop hw hpoison done
    refine ⟨bltEnd t 1 0 0, congrArg _ ((whenServes_of_serves hs fun s => blitDone s done).trans hdone), rfl, getF_bltEnd_result t (by decide) 0 0, ?_,
      fun i j hi hj => hfill.readLe_pixel halign hi hj, fun a ha => hfill.readByte_outside ha⟩
    rw [readReg_bltEnd_count, hfill.readReg]

end Sys2Proof.Machine
end

section
/-! PROOFS. What leaves Slate's log alone: a loss of power of a region, and what it calls (R306, R480). -/

namespace Sys2Proof.Machine

open Says

/-- Slate's log is that of `r`, and what waits for the panel to be off is the same. -/
def Unlogged (r s : State) : Prop := s.slate.log = r.slate.log ∧ s.obs.afterOff = r.obs.afterOff

namespace Unlogged

theorem refl (s : State) : Unlogged s s := ⟨rfl, rfl⟩

variable {r s t : State}

theorem trans (h : Unlogged r s) (h' : Unlogged s t) : Unlogged r t := ⟨h'.1.trans h.1, h'.2.trans h.2⟩

theorem same (h : Unlogged r s) (hs : t.slate = s.slate) (ho : t.obs = s.obs) : Unlogged r t := by
  unfold Unlogged
  rw [hs, ho]
  exact h

theorem ite {c : Prop} [Decidable c] (hs : Unlogged r s) (ht : Unlogged r t) : Unlogged r (if c then s else t) := by
  split <;> assumption

theorem foldl {α : Type} {f : State → α → State} (hf : ∀ t x, Unlogged r t → Unlogged r (f t x)) (l : List α) (h : Unlogged r s) :
    Unlogged r (l.foldl f s) := by
  induction l generalizing s with
  | nil => exact h
  | cons x l ih => exact ih (hf s x h)

end Unlogged

section
variable {r s : State}

/-! The updates of the state's parts. -/

theorem unlogged_raise {a b c d e n : Nat} (h : Unlogged r s) : Unlogged r (raise s a b c d e n) := h
theorem unlogged_setReg {k : Nat} {v : Word} (h : Unlogged r s) : Unlogged r (setReg s k v) := h
theorem unlogged_setF {k lo width v : Nat} (h : Unlogged r s) : Unlogged r (setF s k lo width v) := h
theorem unlogged_bump {k n : Nat} (h : Unlogged r s) : Unlogged r (bump s k n) := h
theorem unlogged_resetWindow {n : Nat} (h : Unlogged r s) : Unlogged r (resetWindow s n) := h
theorem unlogged_setSlate {f : Slate → Slate} (h : Unlogged r s) (hf : (f s.slate).log = s.slate.log) : Unlogged r (setSlate s f) := h.trans ⟨hf, rfl⟩
theorem unlogged_setObs {f : Obsidian → Obsidian} (h : Unlogged r s) (hf : (f s.obs).afterOff = s.obs.afterOff) : Unlogged r (setObs s f) := h.trans ⟨rfl, hf⟩
theorem unlogged_setCtrl {g : Control → Control} (h : Unlogged r s) : Unlogged r (setCtrl s g) := h
theorem unlogged_setFlint {f : FlintId} {g : Flint → Flint} (h : Unlogged r s) : Unlogged r (setFlint s f g) := h
theorem unlogged_setLease {g : Lease → Lease} (h : Unlogged r s) : Unlogged r (setLease s g) := h
theorem unlogged_setQuartz {f : Quartz → Quartz} (h : Unlogged r s) : Unlogged r (setQuartz s f) := h
theorem unlogged_setBorax {f : Borax → Borax} (h : Unlogged r s) : Unlogged r (setBorax s f) := h
theorem unlogged_setGal {g : Fin 4} {f : Galena → Galena} (h : Unlogged r s) : Unlogged r (setGal s g f) := h
theorem unlogged_setStripes {f : StripeQueue → StripeQueue} (h : Unlogged r s) : Unlogged r (setStripes s f) := h
theorem unlogged_setLinks {f : Links → Links} (h : Unlogged r s) : Unlogged r (setLinks s f) := h
theorem unlogged_setTport {f : TimePort → TimePort} (h : Unlogged r s) : Unlogged r (setTport s f) := h
theorem unlogged_setCal {f : CalMap → CalMap} (h : Unlogged r s) : Unlogged r (setCal s f) := h
theorem unlogged_setNode {x : Fin 40} {f : MeshNode → MeshNode} (h : Unlogged r s) : Unlogged r (setNode s x f) := h
theorem unlogged_setTags {x : Fin 16} {f : List Nat → List Nat} (h : Unlogged r s) : Unlogged r (setTags s x f) := h
theorem unlogged_links {l : Links} (h : Unlogged r s) : Unlogged r { s with links := l } := h
theorem unlogged_therm {x : Therm} (h : Unlogged r s) : Unlogged r { s with therm := x } := h
theorem unlogged_ctxs {l : List RayCtx} (h : Unlogged r s) : Unlogged r { s with ctxs := l } := h
theorem unlogged_mica {x : Mica} (h : Unlogged r s) : Unlogged r { s with mica := x } := h
theorem unlogged_time {x : TimeCtr} (h : Unlogged r s) : Unlogged r { s with time := x } := h
theorem unlogged_scan {x : Scan} (h : Unlogged r s) : Unlogged r { s with scan := x } := h
theorem unlogged_garnetOff {a : Audio} {f : TimePort} (h : Unlogged r s) : Unlogged r { s with audio := a, tport := f } := h

/-! Semaphores, and an accepted image that is taken. -/

theorem unlogged_mirrorSend {f : FlintId} {m : MirrorRec} (h : Unlogged r s) : Unlogged r (mirrorSend s f m) := .ite (unlogged_setLease h) h

theorem unlogged_setSem {n : Nat} {f : Sem → Sem} (h : Unlogged r s) : Unlogged r (setSem s n f) := by
  refine unlogged_setF (unlogged_setSlate h ?_)
  split <;> rfl

theorem unlogged_semClockEnds {n : Nat} (h : Unlogged r s) : Unlogged r (semClockEnds s n) := unlogged_setSlate (.ite (unlogged_setF h) h) rfl

theorem unlogged_settleSem {n : Nat} (h : Unlogged r s) : Unlogged r (settleSem s n) := by
  refine .foldl (fun t f ht => ?_) _ h
  split
  · exact .ite (unlogged_mirrorSend (unlogged_setFlint ht)) ht
  · exact ht

theorem unlogged_semFree {n : Nat} (h : Unlogged r s) : Unlogged r (semFree s n) := by
  have hc : Unlogged r (semClockEnds s n) := unlogged_semClockEnds h
  unfold semFree
  dsimp only
  split
  · exact unlogged_setSem hc
  · split
    · exact unlogged_setF (unlogged_setSlate (unlogged_setSem hc) rfl)
    · exact unlogged_settleSem (unlogged_setSem hc)

theorem unlogged_semDropFrame (h : Unlogged r s) : Unlogged r (semDropFrame s) :=
  .foldl (fun t n ht =>
    have hl : Unlogged r (if (semOf t n).waiters.contains .frame then semLeave t .frame n else t) := .ite (unlogged_setSem ht) ht
    .ite (unlogged_semFree hl) hl) _ h

theorem unlogged_seqStart (h : Unlogged r s) : Unlogged r (seqStart s) :=
  .foldl (fun _ _ ht => unlogged_setFlint ht) _ (unlogged_setLease (unlogged_setLease (unlogged_semDropFrame h)))

theorem unlogged_progTake {i : ProgImage} (h : Unlogged r s) : Unlogged r (progTake s i) :=
  .foldl (fun _ _ ht => unlogged_raise ht) _ (unlogged_seqStart (unlogged_setCtrl (.foldl (fun _ _ ht => unlogged_setFlint ht) _ h)))

theorem unlogged_takeReady (h : Unlogged r s) : Unlogged r (takeReady s) := by
  unfold takeReady
  split
  · exact .ite h (unlogged_progTake h)
  · exact h

/-! The panel's stop. -/

theorem unlogged_shadowDropped {a b c : Nat} (h : Unlogged r s) : Unlogged r (shadowDropped s a b c) :=
  .ite (unlogged_bump h) (unlogged_raise (unlogged_setBorax (unlogged_bump h)))

theorem unlogged_shadowClose {a b c : Nat} (h : Unlogged r s) : Unlogged r (shadowClose s a b c) := by
  unfold shadowClose
  split
  · exact h
  · exact .ite (unlogged_shadowDropped (unlogged_setBorax h)) (unlogged_setBorax h)

theorem unlogged_shadowStop (h : Unlogged r s) : Unlogged r (shadowStop s) := .foldl (fun _ _ ht => unlogged_shadowClose ht) _ h

theorem unlogged_drvMore {cmds : List DrvCmd} (h : Unlogged r s) : Unlogged r (drvMore s cmds) :=
  .foldl (fun _ _ ht => .foldl (fun _ _ ht => unlogged_links ht) _ ht) _ (unlogged_setObs h rfl)

theorem unlogged_drvWaiting (h : Unlogged r s) : Unlogged r (drvWaiting s) := .ite h (unlogged_drvMore (unlogged_setObs h rfl))

theorem unlogged_showRunning (h : Unlogged r s) : Unlogged r (showRunning s) := .foldl (fun _ _ ht => .ite (unlogged_setF ht) ht) _ h

theorem unlogged_timingStop (h : Unlogged r s) : Unlogged r (timingStop s) := by
  have stop {t : State} {x : Scan} (ht : Unlogged r t) : Unlogged r (takeReady (drvWaiting (showRunning (shadowStop { t with scan := x })))) :=
    unlogged_takeReady (unlogged_drvWaiting (unlogged_showRunning (unlogged_shadowStop (unlogged_scan ht))))
  unfold timingStop
  dsimp only
  split
  · exact stop (unlogged_setCal h)
  · exact stop h

/-! A region's loss of power. -/

theorem unlogged_pwrShow (h : Unlogged r s) : Unlogged r (pwrShow s) := unlogged_setReg (unlogged_setReg h)

theorem unlogged_setPwr {f : Power → Power} (h : Unlogged r s) : Unlogged r (setPwr s f) := unlogged_pwrShow (s := { s with power := f s.power }) h

theorem unlogged_setCtl {n : Nat} {f : RegionCtl → RegionCtl} (h : Unlogged r s) : Unlogged r (setCtl s n f) :=
  h.same (setCtl_slate ..) (setCtl_obs ..)

theorem unlogged_ifacesReset {n : Nat} (h : Unlogged r s) : Unlogged r (ifacesReset s n) := .foldl (fun _ _ ht => unlogged_setNode ht) _ (unlogged_setTags h)

theorem unlogged_phaseLost {n : Nat} (h : Unlogged r s) : Unlogged r (phaseLost s n) :=
  unlogged_pwrShow (unlogged_setCtl (unlogged_setCtl (unlogged_resetWindow (unlogged_ifacesReset h))))

theorem unlogged_sensorsOff {n : Nat} (h : Unlogged r s) : Unlogged r (sensorsOff s n) :=
  .foldl (fun _ _ ht => .ite (unlogged_setF (unlogged_setF (unlogged_therm ht))) ht) _ h

theorem unlogged_lanesReset {n : Nat} (h : Unlogged r s) : Unlogged r (lanesReset s n) := .ite (unlogged_setLinks h) (unlogged_setLinks h)

theorem unlogged_dramPowerLost (h : Unlogged r s) : Unlogged r (dramPowerLost s) := .ite h (unlogged_setReg h)

theorem unlogged_powerLost {n : Nat} (h : Unlogged r s) : Unlogged r (powerLost s n) := by
  unfold powerLost
  extract_lets t0 t1 p1 p2 tp t2
  have h1 : Unlogged r t1 := unlogged_setLease (unlogged_sensorsOff (unlogged_phaseLost h))
  clear_value t1
  have panelStopped : Unlogged r p1 := unlogged_lanesReset (unlogged_timingStop (unlogged_setObs h1 rfl))
  clear_value p1
  have panelOff : Unlogged r p2 := unlogged_setCal (unlogged_setObs panelStopped rfl)
  have dramOff : Unlogged r (setPwr (dramPowerLost t1) fun p => { p with dramPwrEn := false }) := unlogged_setPwr (unlogged_dramPowerLost h1)
  clear_value p2
  have h2 : Unlogged r t2 :=
    .ite (unlogged_setFlint h1) (.ite (unlogged_setFlint h1) (.ite (unlogged_lanesReset (unlogged_setQuartz h1))
      (.ite (unlogged_setGal (unlogged_ctxs h1)) (.ite (.ite dramOff h1) (.ite (unlogged_setBorax h1)
      (.ite (unlogged_setStripes (unlogged_mica h1)) (.ite (unlogged_setF panelOff) (.ite (unlogged_garnetOff h1) h1))))))))
  clear_value t2
  exact .ite h2 (unlogged_setTport (unlogged_time h2))

theorem unlogged_calAbort (h : Unlogged r s) : Unlogged r (calAbort s) := by
  unfold calAbort
  split
  · exact h
  · exact unlogged_raise (unlogged_setF (unlogged_setF (unlogged_therm h)))

theorem unlogged_leaseShow (h : Unlogged r s) : Unlogged r (leaseShow s) := .ite h (unlogged_raise (unlogged_setF h))

end

end Sys2Proof.Machine
end

section
/-! PROOFS. Isolation and STANDBY: every other region loses its power (R306, R480, R487). -/

namespace Sys2Proof.Machine

open Says

section
variable {r s t : State} {n m : Nat}

/-- Slate's log and the requests on power are those of `r`, and what was unpowered still is. -/
def StaysOff (r s : State) : Prop :=
  Unlogged r s ∧ powerAsks s.power = powerAsks r.power ∧ ∀ n, (ctlOf r n).phase = .off → (ctlOf s n).phase = .off

theorem StaysOff.trans (h : StaysOff r s) (h' : StaysOff s t) : StaysOff r t := by
  obtain ⟨hl, hp, hc⟩ := h
  obtain ⟨hl', hp', hc'⟩ := h'
  exact ⟨hl.trans hl', hp'.trans hp, fun n h => hc' n (hc n h)⟩

theorem StaysOff.refl (s : State) : StaysOff s s := ⟨.refl s, rfl, fun _ h => h⟩

theorem staysOff_of_quiet (hl : Unlogged r s) (h : Quiet r s) : StaysOff r s := by
  obtain ⟨hc, hp, _⟩ := h
  exact ⟨hl, congrArg powerAsks hp, fun n hn => by rwa [ctlOf_congr hc]⟩

theorem quiet_calAbort (h : Quiet r s) : Quiet r (calAbort s) := by
  unfold calAbort
  split
  · exact h
  · exact quiet_raise (quiet_setF (quiet_setF (quiet_therm h)))

theorem ctlOf_setCtl_ne (s : State) (f : RegionCtl → RegionCtl) (h : m ≠ n) : ctlOf (setCtl s n f) m = ctlOf s m := by
  unfold setCtl
  split
  · simp [ctlOf, Vector.getD, Ne.symm h]
  · rfl

theorem ctlOf_phaseLost_ne (s : State) (h : m ≠ n) : ctlOf (phaseLost s n) m = ctlOf s m := by
  obtain ⟨hc, _⟩ := quiet_resetWindow (n := n) (quiet_ifacesReset (n := n) (.refl s))
  rw [phaseLost, setPhase, ctlOf_congr (pwrShow_ctl _), ctlOf_setCtl_ne _ _ h, ctlOf_setCtl_ne _ _ h, ctlOf_congr hc]

theorem power_phaseLost (s : State) (n : Nat) : (phaseLost s n).power = s.power := by
  obtain ⟨_, hp, _⟩ := quiet_resetWindow (n := n) (quiet_ifacesReset (n := n) (.refl s))
  rw [phaseLost, setPhase, pwrShow_power, setCtl_power, setCtl_power, hp]

theorem staysOff_powerLost (s : State) (hn : n < 16) : StaysOff s (powerLost s n) ∧ (ctlOf (powerLost s n) n).phase = .off := by
  have hoff : (ctlOf (powerLost s n) n).phase = .off := by rw [ctlOf_powerLost s hn]
  obtain ⟨hc, hp, _⟩ := steady_powerLost s n
  refine ⟨⟨unlogged_powerLost (.refl s), by rw [hp, power_phaseLost], fun m hm => ?_⟩, hoff⟩
  by_cases e : m = n
  · rw [e, hoff]
  · rw [ctlOf_congr hc, ctlOf_phaseLost_ne s e, hm]

/-- One region loses its power where it has it. -/
def isolateOne (s : State) (n : Nat) : State := if isOff s n then s else powerLost s n

theorem staysOff_isolateOne (s : State) (hn : n < 16) : StaysOff s (isolateOne s n) ∧ (ctlOf (isolateOne s n) n).phase = .off := by
  unfold isolateOne
  split
  next h => exact ⟨.refl s, eq_of_beq h⟩
  · exact staysOff_powerLost s hn

theorem staysOff_isolateAll (l : List Nat) (hl : ∀ n ∈ l, n < 16) (s : State) :
    StaysOff s (l.foldl isolateOne s) ∧ ∀ n ∈ l, (ctlOf (l.foldl isolateOne s) n).phase = .off := by
  induction l generalizing s with
  | nil => exact ⟨.refl s, fun n h => nomatch h⟩
  | cons a l ih =>
    obtain ⟨ha, hoff⟩ := staysOff_isolateOne s (hl a (List.mem_cons_self ..))
    obtain ⟨hs, hall⟩ := ih (fun n h => hl n (List.mem_cons_of_mem _ h)) (isolateOne s a)
    refine ⟨ha.trans hs, fun n hn => ?_⟩
    obtain ⟨_, _, hc⟩ := hs
    rcases List.mem_cons.1 hn with rfl | h
    · exact hc n hoff
    · exact hall n h

/-- Every other region has lost its power. -/
def regionsLost (s : State) : State := ((List.range 16).drop 1).foldl isolateOne (calAbort s)

theorem staysOff_regionsLost (s : State) : StaysOff s (regionsLost s) ∧ ∀ n, 1 ≤ n → n < 16 → (ctlOf (regionsLost s) n).phase = .off := by
  obtain ⟨h, hall⟩ := staysOff_isolateAll ((List.range 16).drop 1) (by decide) (calAbort s)
  refine ⟨(staysOff_of_quiet (unlogged_calAbort (.refl s)) (quiet_calAbort (.refl s))).trans h, fun n h1 h2 => hall n ?_⟩
  interval_cases n <;> decide

/-- What power control holds once the regions are isolated. -/
def isolatedPower (p : Power) : Power :=
  { p with held := Vector.replicate 16 none, startAfter := [], stopAfter := [], lastPwr := none, dramPwrEn := false, sleeping := false, sleepHeld := false }

theorem isolate_eq (s : State) : isolate s = leaseClear (setPwr (regionsLost s) isolatedPower) := rfl

theorem holder_leaseShow (s : State) : holder (leaseShow s) = holder s := by
  have h : getF (leaseShow s) sltLeaseStatus 30 2 = getF s sltLeaseStatus 30 2 := by
    unfold leaseShow
    dsimp only
    split
    · rfl
    · rw [getF, leaseEvent, readReg_raise]
      exact getF_setF_ne _ _ _ (by decide) (by decide)
  unfold holder
  rw [h]

theorem holder_leaseClear (s : State) : holder (leaseClear s) = none := by
  have h : getF (setLease (setHolder s none) fun l => { lastAction := l.lastAction }) sltLeaseStatus 30 2 = 0 := getF_setF s _ _ (by decide)
  rw [leaseClear, holder_leaseShow, holder, h]
  rfl

theorem quiet_leaseClear (h : Quiet r s) : Quiet r (leaseClear s) := quiet_leaseShow (quiet_setLease (quiet_setHolder h))

theorem unlogged_leaseClear (h : Unlogged r s) : Unlogged r (leaseClear s) := unlogged_leaseShow (unlogged_setLease (unlogged_setF h))

theorem holder_setPwr (s : State) (f : Power → Power) : holder (setPwr s f) = holder s :=
  holder_congr ((readReg_setReg_ne _ _ (by decide)).trans (readReg_setReg_ne _ _ (by decide)))

theorem ctl_setPwr (s : State) (f : Power → Power) : (setPwr s f).ctl = s.ctl := pwrShow_ctl _

theorem power_setPwr (s : State) (f : Power → Power) : (setPwr s f).power = f s.power := pwrShow_power _

theorem unlogged_isolate (s : State) : Unlogged s (isolate s) := by
  obtain ⟨⟨hl, _, _⟩, _⟩ := staysOff_regionsLost s
  rw [isolate_eq]
  exact unlogged_leaseClear (unlogged_setPwr hl)

theorem allOff_isolate (s : State) : allOff (isolate s) := by
  obtain ⟨_, hoff⟩ := staysOff_regionsLost s
  obtain ⟨hc, _⟩ := quiet_leaseClear (Quiet.refl (setPwr (regionsLost s) isolatedPower))
  rw [isolate_eq]
  refine ⟨holder_leaseClear _, fun n h1 h2 => ?_⟩
  rw [ctlOf_congr hc, ctlOf_congr (ctl_setPwr _ _)]
  exact hoff n h1 h2

/-- Isolation leaves the DRAM group without its supply, and the rest of power control but for what was asked of it. -/
theorem power_isolate (s : State) : ∃ p, (isolate s).power = isolatedPower p ∧ powerAsks p = powerAsks s.power := by
  obtain ⟨⟨_, ha, _⟩, _⟩ := staysOff_regionsLost s
  obtain ⟨_, hp, _⟩ := quiet_leaseClear (Quiet.refl (setPwr (regionsLost s) isolatedPower))
  exact ⟨(regionsLost s).power, by rw [isolate_eq, hp, power_setPwr], ha⟩

/-! STANDBY after an abrupt loss (R306, R487). -/

/-- The P9 is in STANDBY with every other region unpowered, for this cause of a reset. -/
def standsBy (t : State) (cause : Nat) : Prop :=
  allOff t ∧ t.power.mode = .standby ∧ t.power.dramPwrEn = false ∧ getF t sltWakeStatus 24 4 = cause

theorem standsBy_of_allOff {f : Power → Power} {cause : Nat} (h : allOff s) (hm : (f s.power).mode = .standby) (hd : (f s.power).dramPwrEn = false)
    (hc : cause < 16) : standsBy (resetCause (setPwr s f) cause) cause := by
  obtain ⟨hh, hoff⟩ := h
  refine ⟨⟨?_, fun n h1 h2 => ?_⟩, ?_, ?_, ?_⟩
  · exact (holder_congr (readReg_setF_ne (setPwr s f) _ _ _ (by decide))).trans ((holder_setPwr s f).trans hh)
  · rw [resetCause, ctlOf_congr (setF_ctl ..), ctlOf_congr (ctl_setPwr s f)]
    exact hoff n h1 h2
  · rw [resetCause, setF_power, power_setPwr, hm]
  · rw [resetCause, setF_power, power_setPwr, hd]
  · exact (getF_setF (setPwr s f) _ _ (by decide)).trans (Nat.mod_eq_of_lt hc)

/-- Power control in STANDBY after a loss of supply: REFCLK_EN is low. -/
def supplyLost (p : Power) : Power := { p with mode := .standby, refclkEn := false, clockLost := false }

/-- Power control in STANDBY after a loss of REFCLK: the clock's return is awaited. -/
def clockAwaited (p : Power) : Power := { p with mode := .standby, clockLost := true }

theorem lossContinues_none (hw : s.power.resetWaits = false) : lossContinues s 0 = s := by simp [lossContinues, hw]

theorem lossContinues_supply (hw : s.power.resetWaits = false) : lossContinues s 1 = resetCause (setPwr (isolate s) supplyLost) 6 := by
  unfold supplyLost
  simp [lossContinues, hw]

theorem lossContinues_clock (hw : s.power.resetWaits = false) : lossContinues s 3 =
    let t := resetCause (setPwr (isolate s) clockAwaited) 4
    if t.power.pfailLow then logAdd t (.loss 6 1) else t := by
  unfold clockAwaited
  simp [lossContinues, hw]

theorem standsBy_supply (hw : s.power.resetWaits = false) : standsBy (lossContinues s 1) 6 ∧ (lossContinues s 1).power.refclkEn = false ∧
    Unlogged s (lossContinues s 1) := by
  obtain ⟨p, he, _⟩ := power_isolate s
  rw [lossContinues_supply hw]
  refine ⟨standsBy_of_allOff (allOff_isolate s) rfl ?_ (by decide), ?_, unlogged_setF (unlogged_setPwr (unlogged_isolate s))⟩
  · rw [he]; rfl
  · rw [resetCause, setF_power, power_setPwr]; rfl

theorem power_logAdd (s : State) (e : LogEntry) : (logAdd s e).power = s.power := rfl

theorem standsBy_logAdd {cause : Nat} {e : LogEntry} (h : standsBy s cause) : standsBy (logAdd s e) cause := h

theorem standsBy_clock (hw : s.power.resetWaits = false) : standsBy (lossContinues s 3) 4 ∧ (lossContinues s 3).power.clockLost = true ∧
    (lossContinues s 3).power.refclkFault = s.power.refclkFault := by
  obtain ⟨p, he, ha⟩ := power_isolate s
  have hp : (resetCause (setPwr (isolate s) clockAwaited) 4).power = clockAwaited (isolatedPower p) := by
    rw [resetCause, setF_power, power_setPwr, he]
  have hs : standsBy (resetCause (setPwr (isolate s) clockAwaited) 4) 4 := standsBy_of_allOff (allOff_isolate s) rfl (by rw [he]; rfl) (by decide)
  have hlost : (resetCause (setPwr (isolate s) clockAwaited) 4).power.clockLost = true := by rw [hp]; rfl
  have hfault : (resetCause (setPwr (isolate s) clockAwaited) 4).power.refclkFault = s.power.refclkFault := by
    have hf : (powerAsks p).refclkFault = (powerAsks s.power).refclkFault := by rw [ha]
    rw [hp]
    exact hf
  rw [lossContinues_clock hw]
  dsimp only
  split
  · exact ⟨standsBy_logAdd hs, by rw [power_logAdd, hlost], by rw [power_logAdd, hfault]⟩
  · exact ⟨hs, hlost, hfault⟩

end

end Sys2Proof.Machine
end

section
/-! PROOFS. Loss of supply and of REFCLK: the panel's steps, or the log entry at once; the clock monitor; the statement (R306, R453, R486, R487, R536). -/

namespace Sys2Proof.Machine

open Says

section
variable {s t : State} {reason next cycles : Nat}

/-! A cause of the abrupt loss (R306, R308). -/

theorem bootStops_of_run (hm : s.power.mode = .run) : bootStops s = s := if_neg (by simp [hm])

theorem lossBegins_of_idle (hc : s.obs.safeCause = none) (h : lossAtOnce s reason = true) :
    lossBegins s reason next = lossContinues (abruptLoss s ⟨reason, next⟩) next := by
  simp [lossBegins, hc, h]

/-- Where only the log entry is written. -/
theorem abruptLoss_of_idle {c : SafeCause} (h : lossAtOnce s c.reason = true) : (abruptLoss s c).power = s.power ∧
    (abruptLoss s c).slate.log.entries = s.slate.log.entries ++ [.loss c.reason c.next] := by
  unfold abruptLoss
  rw [if_pos h]
  exact ⟨rfl, rfl⟩

/-- Where the panel is driven, its steps begin, with the event that has left ahead of any other. -/
theorem lossBegins_after_event {level cause arg : Nat} (hc : s.obs.safeCause = none) (h : lossAtOnce s reason = false) :
    let t := lossBegins (obsEvent s level cause arg) reason next
    discharging t reason next ∧ powerAsks t.power = powerAsks s.power ∧ firstEvent s t (evCode level 14 cause) arg := by
  have hb : lossBegins (obsEvent s level cause arg) reason next = abruptLoss (obsEvent s level cause arg) ⟨reason, next⟩ := lossBegins_of_driven hc h
  obtain ⟨_, hp, ⟨rest, he⟩, _⟩ := steady_abruptLoss (c := ⟨reason, next⟩) (Steady.refl (obsEvent s level cause arg))
  dsimp only
  rw [hb]
  refine ⟨discharging_abruptLoss (s := obsEvent s level cause arg) h, hp, ?_⟩
  exact ⟨_, rest, he.symm.trans (List.append_assoc ..), rfl, rfl, rfl, rfl⟩

/-! Loss of supply (R306, R453, R536). -/

/-- No request waits for the panel, and none for the panel to be off. -/
def noRequest (s : State) : State := setObs s fun o => { o with heldReq := none, afterOff := 0 }

/-- No sequence of an abrupt loss runs. -/
def noCause (s : State) : State := setObs s fun o => { o with safeCause := none }

theorem pfailFalls_of_run (hm : s.power.mode = .run) (hc : s.obs.safeCause = none) :
    pfailFalls s = lossBegins (if lossAtOnce s 6 then noCause (noRequest s) else obsEvent (noCause (noRequest s)) 3 0x090 6) 6 1 := by
  have hb : bootStops (noRequest s) = noRequest s := bootStops_of_run hm
  have hl : lossBound (noRequest s) = false := by simp [lossBound, noRequest, hc]
  have hat : lossAtOnce (noRequest s) 6 = lossAtOnce s 6 := rfl
  unfold noRequest at hb hl hat
  simp only [pfailFalls, hb, hl, hat, hm]
  refine (if_neg (by simp)).trans ((if_neg (by simp)).trans ((if_neg (by simp)).trans (congrArg (lossBegins · 6 1) ?_)))
  split
  · rfl
  · rfl

theorem pfailFalls_driven (hm : s.power.mode = .run) (h : panelDriven s) :
    discharging (pfailFalls s) 6 1 ∧ powerAsks (pfailFalls s).power = powerAsks s.power ∧ firstEvent s (pfailFalls s) (evCode 3 14 0x090) 6 := by
  obtain ⟨h1, h2, hc⟩ := h
  have hl : lossAtOnce s 6 = false := by simp [lossAtOnce, h1, h2]
  rw [pfailFalls_of_run hm hc, hl]
  exact lossBegins_after_event (s := noCause (noRequest s)) rfl hl

theorem pfailFalls_idle (hm : s.power.mode = .run) (h : panelIdle s) (hw : s.power.resetWaits = false) :
    standsBy (pfailFalls s) 6 ∧ (pfailFalls s).power.refclkEn = false ∧ (pfailFalls s).slate.log.entries = s.slate.log.entries ++ [.loss 6 1] := by
  obtain ⟨hs, hc⟩ := h
  have hl : lossAtOnce s 6 = true := by simpa [lossAtOnce, or_comm] using hs
  have e : pfailFalls s = lossContinues (abruptLoss (noCause (noRequest s)) ⟨6, 1⟩) 1 := by
    rw [pfailFalls_of_run hm hc, if_pos hl]
    exact lossBegins_of_idle (s := noCause (noRequest s)) rfl hl
  obtain ⟨hp, hlog⟩ := abruptLoss_of_idle (s := noCause (noRequest s)) (c := ⟨6, 1⟩) hl
  obtain ⟨hstand, hclk, ⟨hlog', _⟩⟩ := standsBy_supply (s := abruptLoss (noCause (noRequest s)) ⟨6, 1⟩) (by rw [hp]; exact hw)
  rw [e]
  exact ⟨hstand, hclk, by rw [hlog']; exact hlog⟩

/-! The end of the steps (R306). -/

theorem abruptLossEnds_of_end {c : SafeCause} (hc : s.obs.safeCause = some c) (hs : s.obs.step = .dischargeEnd) :
    abruptLossEnds s = lossContinues (abruptEnds s c true) c.next := by
  simp [abruptLossEnds, hc, hs]

/-! The clock monitor (R486, R487). -/

/-- REFCLK's failure is shown and raised. -/
def refclkFailed (s : State) (cause : Nat) : State :=
  let t := setPwr s fun p => { p with refclkFault := true, clockLost := true }
  powerEvent t 3 0x182 (cause + 65536 * wrapInt t.power.refDev 16)

theorem obs_refclkFailed (s : State) (cause : Nat) : (refclkFailed s cause).obs = s.obs := by
  rw [refclkFailed, powerEvent, raise_obs, setPwr, pwrShow_obs]

theorem power_refclkFailed (s : State) (cause : Nat) : (refclkFailed s cause).power = { s.power with refclkFault := true, clockLost := true } := by
  rw [refclkFailed, powerEvent, raise_power, power_setPwr]

theorem refclkFails_of_run (hm : s.power.mode = .run) (hc : s.obs.safeCause = none) (cause : Nat) : refclkFails s cause =
    lossBegins (if s.obs.state = .safe then refclkFailed s cause else obsEvent (refclkFailed s cause) 3 0x090 1) 1 3 := by
  have hb : bootStops (refclkFailed s cause) = refclkFailed s cause := bootStops_of_run (by rw [power_refclkFailed]; exact hm)
  unfold refclkFails
  extract_lets t1 t2 t3 t4
  have h3 : t3 = refclkFailed s cause := hb
  simp only [t4, h3, obs_refclkFailed, hc]
  simp

/-- REFCLK has failed, and its return is awaited. -/
def clockGone (t : State) : Prop := t.power.refclkFault = true ∧ t.power.clockLost = true

theorem refclkFails_driven (hm : s.power.mode = .run) (hc : s.obs.safeCause = none) (h : s.obs.state ≠ .safe) (cause : Nat) :
    clockGone (refclkFails s cause) ∧ discharging (refclkFails s cause) 1 3 := by
  have hc' : (refclkFailed s cause).obs.safeCause = none := by rw [obs_refclkFailed, hc]
  have hl : lossAtOnce (refclkFailed s cause) 1 = false := by simp [lossAtOnce, obs_refclkFailed, h]
  have hp := power_refclkFailed s cause
  rw [refclkFails_of_run hm hc, if_neg h]
  generalize refclkFailed s cause = u at hc' hl hp
  obtain ⟨hd, ha, -⟩ := lossBegins_after_event (next := 3) (level := 3) (cause := 0x090) (arg := 1) hc' hl
  generalize lossBegins _ 1 3 = t at hd ha
  have hf : (powerAsks t.power).refclkFault = (powerAsks u.power).refclkFault := by rw [ha]
  have hk : (powerAsks t.power).clockLost = (powerAsks u.power).clockLost := by rw [ha]
  rw [hp] at hf hk
  exact ⟨⟨hf, hk⟩, hd⟩

theorem refclkFails_safe (hm : s.power.mode = .run) (hc : s.obs.safeCause = none) (h : s.obs.state = .safe) (hw : s.power.resetWaits = false) (cause : Nat) :
    clockGone (refclkFails s cause) ∧ standsBy (refclkFails s cause) 4 := by
  have hc' : (refclkFailed s cause).obs.safeCause = none := by rw [obs_refclkFailed, hc]
  have hl : lossAtOnce (refclkFailed s cause) 1 = true := by simp [lossAtOnce, obs_refclkFailed, h]
  have hp := power_refclkFailed s cause
  rw [refclkFails_of_run hm hc, if_pos h, lossBegins_of_idle hc' hl]
  obtain ⟨hp', -⟩ := abruptLoss_of_idle (c := ⟨1, 3⟩) hl
  rw [hp] at hp'
  generalize abruptLoss (refclkFailed s cause) ⟨1, 3⟩ = u at hp'
  obtain ⟨hs, hk, hf⟩ := standsBy_clock (s := u) (by rw [hp']; exact hw)
  exact ⟨⟨by rw [hf, hp'], hk⟩, hs⟩

/-- The steps have ended: the log has the cause, and STATE is SAFE. -/
theorem abruptEnds_whole (s : State) (c : SafeCause) : (abruptEnds s c true).power = s.power ∧ (abruptEnds s c true).ctl = s.ctl ∧
    (abruptEnds s c true).slate.log.entries = s.slate.log.entries ++ [.loss c.reason c.next] ∧ (abruptEnds s c true).obs.safeCause = none ∧
    (abruptEnds s c true).obs.state = .safe ∧ (abruptEnds s c true).obs.step = .idle ∧ (abruptEnds s c true).obs.afterOff = s.obs.afterOff := by
  simp [abruptEnds, setStep, setPanelState, logAdd]

theorem abruptLossEnd_rests {c : SafeCause} (hc : s.obs.safeCause = some c) (hs : s.obs.step = .dischargeEnd) (ha : s.obs.afterOff = 0)
    (hw : s.power.resetWaits = false) (hn : c.next = 0) : exec .abruptLossEnd s = .next (abruptEnds s c true) := by
  obtain ⟨hp, _, _, _, _, _, hoff⟩ := abruptEnds_whole s c
  have e : abruptLossEnds s = abruptEnds s c true := by rw [abruptLossEnds_of_end hc hs, hn, lossContinues_none (by rw [hp, hw])]
  rw [exec_abruptLossEnd, execAbruptLossEnd, e, afterPanel_of_none (by rw [hoff, ha])]

theorem abruptLossEnd_supply {c : SafeCause} (hc : s.obs.safeCause = some c) (hs : s.obs.step = .dischargeEnd) (ha : s.obs.afterOff = 0)
    (hw : s.power.resetWaits = false) (hn : c.next = 1) : ∃ t, exec .abruptLossEnd s = .next t ∧ t.slate.log.entries = s.slate.log.entries ++ [.loss c.reason 1] ∧
      standsBy t 6 ∧ t.power.refclkEn = false := by
  obtain ⟨hp, _, hlog, _, _, _, hoff⟩ := abruptEnds_whole s c
  have e : abruptLossEnds s = lossContinues (abruptEnds s c true) 1 := by rw [abruptLossEnds_of_end hc hs, hn]
  rw [exec_abruptLossEnd, execAbruptLossEnd, e]
  generalize abruptEnds s c true = u at hp hlog hoff ⊢
  obtain ⟨hstand, hen, hlog', hoff'⟩ := standsBy_supply (s := u) (by rw [hp, hw])
  exact ⟨_, congrArg _ (afterPanel_of_none (by rw [hoff', hoff, ha])), by rw [hlog', hlog, hn], hstand, hen⟩

/-! A window of the monitor (R486). -/

/-- The window's count is more than so many parts per million from 97,656.25. -/
def windowBeyond (cycles ppm : Nat) : Bool := decide (ppm * 390625 < (4 * (cycles : Int) - 390625).natAbs * 1000000)

theorem windowBeyond_iff (cycles ppm : Nat) : windowBeyond cycles ppm = true ↔ ppm * 390625 < (4 * (cycles : Int) - 390625).natAbs * 1000000 := decide_eq_true_iff

theorem not_windowBeyond_iff (cycles ppm : Nat) : windowBeyond cycles ppm = false ↔ (4 * (cycles : Int) - 390625).natAbs * 1000000 ≤ ppm * 390625 :=
  decide_eq_false_iff_not.trans Nat.not_lt

/-- The deviation is shown. -/
def windowShown (s : State) (cycles : Nat) : State :=
  setPwr s fun p => { p with
    refDev := ratNear ⟨(4 * (cycles : Int) - 390625) * 1000000, 390625⟩, rateBad := windowBeyond cycles 1000, margin := windowBeyond cycles 300,
    marginSaid := windowBeyond cycles 300 && (s.power.marginSaid || !windowBeyond cycles 1000) }

/-- The monitor is at work: REFCLK is asked for and not lost, and step 1 of boot has ended. -/
def monitored (s : State) : Prop := s.power.refclkEn = true ∧ s.power.clockLost = false ∧ s.slate.boot ≠ .clock

theorem not_monitored_iff (s : State) : (!s.power.refclkEn || s.power.clockLost || s.slate.boot == .clock) = true ↔
    s.power.refclkEn = false ∨ s.power.clockLost = true ∨ s.slate.boot = .clock := by
  simp [or_assoc]

theorem refclkWindow_of_unmonitored (h : s.power.refclkEn = false ∨ s.power.clockLost = true ∨ s.slate.boot = .clock) :
    exec (.refclkWindow cycles) s = .next s := congrArg Host.Outcome.next (if_pos ((not_monitored_iff s).2 h))

theorem refclkStopped_of_unmonitored (h : s.power.refclkEn = false ∨ s.power.clockLost = true ∨ s.slate.boot = .clock) : exec .refclkStopped s = .next s :=
  congrArg Host.Outcome.next (if_pos ((not_monitored_iff s).2 h))

theorem refclkStopped_of_monitored (h : monitored s) : exec .refclkStopped s = .next (refclkFails s 1) := by
  obtain ⟨h1, h2, h3⟩ := h
  exact congrArg Host.Outcome.next (if_neg (by simp [h1, h2, h3]))

theorem refclkWindow_of_monitored (h : monitored s) : refclkWindow s cycles =
    if windowBeyond cycles 1000 then (if s.power.rateBad then refclkFails (windowShown s cycles) 2 else windowShown s cycles)
    else if windowBeyond cycles 300 && !s.power.marginSaid then
      powerEvent (windowShown s cycles) 2 0x185 (65536 * wrapInt (ratNear ⟨(4 * (cycles : Int) - 390625) * 1000000, 390625⟩) 16)
    else windowShown s cycles := by
  obtain ⟨h1, h2, h3⟩ := h
  exact if_neg (by simp [h1, h2, h3])

theorem windowShown_parts (s : State) (cycles : Nat) : (windowShown s cycles).evNet = s.evNet ∧ (windowShown s cycles).obs = s.obs ∧
    (windowShown s cycles).ctl = s.ctl ∧ ∃ d, (windowShown s cycles).power = { s.power with
      refDev := d, rateBad := windowBeyond cycles 1000, margin := windowBeyond cycles 300
      marginSaid := windowBeyond cycles 300 && (s.power.marginSaid || !windowBeyond cycles 1000) } := by
  unfold windowShown setPwr
  exact ⟨pwrShow_evNet _, pwrShow_obs _, pwrShow_ctl _, _, pwrShow_power _⟩

theorem refclkWindow_within (h : monitored s) (h3 : windowBeyond cycles 300 = false) : ∃ t, exec (.refclkWindow cycles) s = .next t ∧ t.power.margin = false ∧
    t.power.rateBad = false ∧ t.power.marginSaid = false ∧ t.evNet = s.evNet ∧ t.obs = s.obs ∧ t.ctl = s.ctl := by
  have h10 : windowBeyond cycles 1000 = false := by
    rw [not_windowBeyond_iff] at *
    omega
  have e : refclkWindow s cycles = windowShown s cycles := by simp [refclkWindow_of_monitored h, h3, h10]
  obtain ⟨hev, hobs, hctl, d, hp⟩ := windowShown_parts s cycles
  refine ⟨windowShown s cycles, by rw [exec_refclkWindow, execRefclkWindow, e], ?_, ?_, ?_, hev, hobs, hctl⟩
  · rw [hp, h3]
  · rw [hp, h10]
  · rw [hp, h3]; rfl

theorem powerEvent_leaves (s : State) (level cause arg : Nat) : (powerEvent s level cause arg).power = s.power ∧ (powerEvent s level cause arg).ctl = s.ctl ∧
    ∃ e : Event, (powerEvent s level cause arg).evNet = s.evNet ++ [e] ∧ e.code = evCode level 0 cause := ⟨rfl, rfl, _, rfl, rfl⟩

theorem refclkWindow_margin (h : monitored s) (h3 : windowBeyond cycles 300 = true) (h10 : windowBeyond cycles 1000 = false) :
    ∃ t, exec (.refclkWindow cycles) s = .next t ∧ t.power.margin = true ∧ t.power.rateBad = false ∧ t.power.marginSaid = true ∧ t.ctl = s.ctl ∧
      (s.power.marginSaid = true → t.evNet = s.evNet) ∧
      (s.power.marginSaid = false → ∃ e : Event, t.evNet = s.evNet ++ [e] ∧ e.code = evCode 2 0 0x185) := by
  obtain ⟨hev, _, hctl, d, hp⟩ := windowShown_parts s cycles
  have e : refclkWindow s cycles = if s.power.marginSaid then windowShown s cycles else
      powerEvent (windowShown s cycles) 2 0x185 (65536 * wrapInt (ratNear ⟨(4 * (cycles : Int) - 390625) * 1000000, 390625⟩) 16) := by
    cases said : s.power.marginSaid <;> simp [refclkWindow_of_monitored h, h3, h10, said]
  rw [exec_refclkWindow, execRefclkWindow, e]
  generalize windowShown s cycles = w at hev hctl hp ⊢
  have hshown : w.power.margin = true ∧ w.power.rateBad = false ∧ w.power.marginSaid = true := by simp [hp, h3, h10]
  obtain ⟨hmargin, hbad, hsaid⟩ := hshown
  cases said : s.power.marginSaid
  · rw [if_neg Bool.false_ne_true]
    generalize 65536 * wrapInt _ 16 = arg
    obtain ⟨hp', hctl', e, he, hcode⟩ := powerEvent_leaves w 2 0x185 arg
    exact ⟨_, rfl, by rw [hp', hmargin], by rw [hp', hbad], by rw [hp', hsaid], hctl'.trans hctl, nofun, fun _ => ⟨e, by rw [he, hev], hcode⟩⟩
  · rw [if_pos rfl]
    exact ⟨w, rfl, hmargin, hbad, hsaid, hctl, fun _ => hev, nofun⟩

theorem refclkWindow_first (h : monitored s) (h10 : windowBeyond cycles 1000 = true) (hb : s.power.rateBad = false) :
    ∃ t, exec (.refclkWindow cycles) s = .next t ∧ t.power.rateBad = true ∧ t.evNet = s.evNet := by
  have e : refclkWindow s cycles = windowShown s cycles := by simp [refclkWindow_of_monitored h, h10, hb]
  obtain ⟨hev, _, _, d, hp⟩ := windowShown_parts s cycles
  exact ⟨windowShown s cycles, by rw [exec_refclkWindow, execRefclkWindow, e], by rw [hp, h10], hev⟩

theorem refclkWindow_second (h : monitored s) (h10 : windowBeyond cycles 1000 = true) (hb : s.power.rateBad = true) :
    exec (.refclkWindow cycles) s = .next (refclkFails (windowShown s cycles) 2) := by
  simp [execRefclkWindow, refclkWindow_of_monitored h, h10, hb]

/-! The crystal (R486). -/

theorem oneEvent_powerEvent {level cause arg : Nat} (he : t.evNet = s.evNet) (ht : t.time = s.time) :
    oneEvent s (powerEvent t level cause arg) (evCode level 0 cause) arg := by
  unfold oneEvent
  rw [← he, ← ht]
  exact ⟨_, rfl, rfl, rfl, rfl, rfl⟩

theorem evNet_setPwr (s : State) (f : Power → Power) : (setPwr s f).evNet = s.evNet := pwrShow_evNet _

theorem time_setPwr (s : State) (f : Power → Power) : (setPwr s f).time = s.time := by
  unfold setPwr pwrShow
  exact (setReg_time ..).trans (setReg_time ..)

theorem xtalFault_of_sound (hm : s.power.mode ≠ .off) (hx : s.power.xtalFault = false) : ∃ t, exec .xtalFault s = .next t ∧ t.power.xtalFault = true ∧
    oneEvent s t (evCode 3 0 0x183) 0 := by
  have e : xtalFails s = powerEvent (setPwr s fun p => { p with xtalFault := true }) 3 0x183 0 := if_neg (by simp [hm, hx])
  rw [exec_xtalFault, execXtalFault, e]
  refine ⟨_, rfl, ?_, oneEvent_powerEvent (evNet_setPwr s _) (time_setPwr s _)⟩
  rw [powerEvent, raise_power, power_setPwr]

/-! PFAIL_N, and a rail (R306, R536). -/

/-- PFAIL_N is low. -/
def pfailLowered (s : State) : State := setPwr s fun p => { p with pfailLow := true }

theorem pfailLowered_parts (s : State) : (pfailLowered s).obs = s.obs ∧ (pfailLowered s).slate = s.slate ∧ (pfailLowered s).evNet = s.evNet ∧
    (pfailLowered s).time = s.time ∧ (pfailLowered s).power = { s.power with pfailLow := true } :=
  ⟨pwrShow_obs _, pwrShow_slate _, evNet_setPwr s _, time_setPwr s _, power_setPwr s _⟩

theorem pfailFall_driven (hm : s.power.mode = .run) (h : panelDriven s) : ∃ t, exec .pfailFall s = .next t ∧ t.power.pfailLow = true ∧
    discharging t 6 1 ∧ firstEvent s t (evCode 3 14 0x090) 6 ∧ t.power.mode = .run := by
  obtain ⟨hobs, _, hev, htime, hpower⟩ := pfailLowered_parts s
  obtain ⟨hd, hp, he⟩ := pfailFalls_driven (s := pfailLowered s) (by rw [hpower, hm]) (by unfold panelDriven; rw [hobs]; exact h)
  rw [hpower] at hp
  rw [firstEvent, hev, htime] at he
  have hlow : (powerAsks (pfailFalls (pfailLowered s)).power).pfailLow = true := by rw [hp]; rfl
  have hmode : (powerAsks (pfailFalls (pfailLowered s)).power).mode = .run := by rw [hp]; exact hm
  exact ⟨pfailFalls (pfailLowered s), rfl, hlow, hd, he, hmode⟩

theorem pfailFall_idle (hm : s.power.mode = .run) (h : panelIdle s) (hw : s.power.resetWaits = false) : ∃ t, exec .pfailFall s = .next t ∧
    standsBy t 6 ∧ t.power.refclkEn = false ∧ t.slate.log.entries = s.slate.log.entries ++ [.loss 6 1] := by
  obtain ⟨hobs, hslate, _, _, hpower⟩ := pfailLowered_parts s
  obtain ⟨hs, hen, hlog⟩ := pfailFalls_idle (s := pfailLowered s) (by rw [hpower, hm]) (by unfold panelIdle; rw [hobs]; exact h) (by rw [hpower, hw])
  rw [hslate] at hlog
  exact ⟨pfailFalls (pfailLowered s), rfl, hs, hen, hlog⟩

theorem railCollapse_of_sound {rail : Rail} {uv : Nat} (h : s.power.refclkEn = false ∨ railCollapsed rail uv = false) :
    exec (.railCollapse rail uv) s = .next s := by
  rw [exec_railCollapse, execRailCollapse, if_neg (by rcases h with h | h <;> simp [h])]

theorem railCollapse_of_collapsed {rail : Rail} {uv : Nat} (hen : s.power.refclkEn = true) (hr : railCollapsed rail uv = true) :
    exec (.railCollapse rail uv) s = .next (pfailFalls s) := by
  rw [exec_railCollapse, execRailCollapse, if_pos (by simp [hen, hr])]

end

/-- Settles O38: a cause either starts the panel's steps or writes the log at once and goes on to STANDBY; the monitor tells by the window's deviation. -/
theorem lossOfSupplyAndClock : Obligations.LossOfSupplyAndClock := by
  intro s
  refine ⟨⟨fun hm h => pfailFall_driven hm h, fun hm h hw => ?fallIdle, fun rail uv => ⟨railCollapse_of_sound,
      fun hen hr hm => ⟨fun h => ?railDriven, fun h hw => ?railIdle⟩⟩⟩,
    fun c hc hs ha hw => ⟨fun hn => ?rests, fun hn => ?supply⟩,
    fun h => ⟨refclkStopped_of_unmonitored h, fun cycles => refclkWindow_of_unmonitored h⟩,
    fun h1 h2 h3 => ⟨fun cycles => ⟨fun h => ?within, fun h h' => ?margin, fun h hb => ?first⟩,
      fun hm hc => ⟨fun h => ?stopDriven, fun h hw => ?stopSafe, fun cycles hb hd => ⟨fun h => ?rateDriven, fun h hw => ?rateSafe⟩⟩⟩,
    xtalFault_of_sound, fun hx => congrArg _ (if_pos (by simp [hx]))⟩
  case fallIdle =>
    obtain ⟨t, ht, ⟨hoff, hmode, hdram, hcause⟩, hen, hlog⟩ := pfailFall_idle hm h hw
    exact ⟨t, ht, hlog, hoff, hmode, hen, hdram, hcause⟩
  case railDriven =>
    obtain ⟨hd, hp, he⟩ := pfailFalls_driven hm h
    have hmode : (powerAsks (pfailFalls s).power).mode = .run := by rw [hp]; exact hm
    exact ⟨pfailFalls s, railCollapse_of_collapsed hen hr, hd, he, hmode⟩
  case railIdle =>
    obtain ⟨⟨hoff, hmode, hdram, hcause⟩, hen', hlog⟩ := pfailFalls_idle hm h hw
    exact ⟨pfailFalls s, railCollapse_of_collapsed hen hr, hlog, hoff, hmode, hen', hdram, hcause⟩
  case rests =>
    obtain ⟨hp, hctl, hlog, hcause, hstate, hstep, _⟩ := abruptEnds_whole s c
    rw [hn] at hlog
    exact ⟨_, abruptLossEnd_rests hc hs ha hw hn, hcause, hstate, hstep, hlog, hp, hctl⟩
  case supply =>
    obtain ⟨t, ht, hlog, ⟨hoff, hmode, _, hcause⟩, hen⟩ := abruptLossEnd_supply hc hs ha hw hn
    exact ⟨t, ht, hlog, hoff, hmode, hen, hcause⟩
  case within => exact refclkWindow_within ⟨h1, h2, h3⟩ ((not_windowBeyond_iff _ _).2 h)
  case margin => exact refclkWindow_margin ⟨h1, h2, h3⟩ ((windowBeyond_iff _ _).2 h) ((not_windowBeyond_iff _ _).2 h')
  case first => exact refclkWindow_first ⟨h1, h2, h3⟩ ((windowBeyond_iff _ _).2 h) hb
  case stopDriven =>
    obtain ⟨hf, hd⟩ := refclkFails_driven hm hc h 1
    exact ⟨refclkFails s 1, refclkStopped_of_monitored ⟨h1, h2, h3⟩, hf, hd⟩
  case stopSafe =>
    obtain ⟨hf, hoff, hmode, _, hcause⟩ := refclkFails_safe hm hc h hw 1
    exact ⟨refclkFails s 1, refclkStopped_of_monitored ⟨h1, h2, h3⟩, hf, hmode, hoff, hcause⟩
  case rateDriven =>
    obtain ⟨_, hobs, _, _, hp⟩ := windowShown_parts s cycles
    obtain ⟨hf, hdis⟩ := refclkFails_driven (s := windowShown s cycles) (by rw [hp]; exact hm) (by rw [hobs, hc]) (by rwa [hobs]) 2
    exact ⟨refclkFails (windowShown s cycles) 2, refclkWindow_second ⟨h1, h2, h3⟩ ((windowBeyond_iff _ _).2 hd) hb, hf, hdis⟩
  case rateSafe =>
    obtain ⟨_, hobs, _, _, hp⟩ := windowShown_parts s cycles
    obtain ⟨hf, hoff, hmode, _, hcause⟩ := refclkFails_safe (s := windowShown s cycles) (by rw [hp]; exact hm) (by rw [hobs, hc])
      (by rwa [hobs]) (by rw [hp]; exact hw) 2
    exact ⟨refclkFails (windowShown s cycles) 2, refclkWindow_second ⟨h1, h2, h3⟩ ((windowBeyond_iff _ _).2 hd) hb, hf, hmode, hoff, hcause⟩

end Sys2Proof.Machine
end
